-- ==== Sys2Proof/Word.lean ====
section
/-!
DEFINITION. The words of the KD1690: registers are 32 bits wide (R6), memory is addressed by bytes (R12).
-/
namespace Sys2Proof

/-- A register word (R6). -/
abbrev Word := BitVec 32

/-- A byte of memory, of a packet or of an image. -/
abbrev Byte := BitVec 8

/-- The number a field of `w` holds: `width` bits from bit `lo` up. -/
def Word.field (w : Word) (lo width : Nat) : Nat := w.toNat / 2 ^ lo % 2 ^ width

/-- `w` with the `width` bits from bit `lo` up replaced by those of `v`. -/
def Word.setField (w : Word) (lo width v : Nat) : Word :=
  BitVec.ofNat 32
    (w.toNat % 2 ^ lo + (v % 2 ^ width) * 2 ^ lo + w.toNat / 2 ^ (lo + width) * 2 ^ (lo + width))

end Sys2Proof
end

