-- ==== Sys2Proof/Syntax.lean ====
section
/-!
DEFINITION. The commands of the KD1690, modelled as a block: one constructor per row of spec/opcode_table.json, with the
operands that the row's rule names. Index operands are `Fin` types, so that a command always names an instance that
exists (R14). Values, addresses, times and data are plain numbers and byte lists.
-/
namespace Sys2Proof

/-- The port through which host firmware reaches the register space (R5, R519): EP0 or the management SPI port. -/
inductive HostPort where
  | ep0 | mspi
  deriving DecidableEq, Repr

/-- A picture that comes out of an HEVC or AV1 decoder (R338-R343): which waiting access unit it came from; its size, depth
and sampling; TF, YCC and RANGE; luma lines, and chroma lines of interleaved Cb and Cr; TYPE of R309; how many references
were never received; whether a reference is concealed; whether it is an IRAP picture or a shown key frame, or the recovery
point of the first recovery-point SEI; rectangles of luma samples that were lost (x, y, w, h); its film_grain_params. -/
structure DecPic where
  au : Nat
  w : Nat
  h : Nat
  depth : Nat
  c422 : Bool
  tf : Nat
  ycc : Nat
  full : Bool
  luma : List (List Nat)
  chroma : List (List Nat)
  type : Nat
  missing : Nat
  refConcealed : Bool
  rap : Bool
  recovery : Bool
  lost : List (Nat × Nat × Nat × Nat)
  film : List Byte
  deriving DecidableEq, Repr

/-- The content of a PTP Announce message (R387): the sender's clockIdentity and domain; the grandmaster's data set;
stepsRemoved; currentUtcOffset while it is valid; TZ_OFFSET and JAM_TOD of the synchronization metadata TLV. -/
structure PtpAnnounce where
  src : Nat
  domain : Nat
  prio1 : Nat
  cls : Nat
  acc : Nat
  var : Nat
  prio2 : Nat
  gm : Nat
  steps : Nat
  utc : Option Nat
  sm : Option (Nat × Nat)
  deriving DecidableEq, Repr

/-- An audio frame that a follower port receives (R408, R415): the words of its two slots, the bit-clock cycles counted in
it, its word-select period in ps, and whether the bit clock paused for 8 nominal bit periods. -/
structure AudFrame where
  left : Nat
  right : Nat
  bclks : Nat
  periodPs : Nat
  gap : Bool
  deriving DecidableEq, Repr

/-- A packet of a receive flow (R401, R404): RTP sequence number (extended for essence 1) and timestamp, the marker bit, the
payload; and what the session description says of essence 1: FORMAT, DEPTH and the sample rows that the payload holds, as
line, first pixel and samples of each plane. -/
structure RtpPacket where
  seq : Nat
  ts : Nat
  marker : Bool
  payload : List Byte
  format : Nat
  depth : Nat
  rows : List (Nat × Nat × List Nat × List Nat × List Nat)
  deriving DecidableEq, Repr


/-- The commands of the block: one constructor per row of spec/opcode_table.json. -/
inductive Instr where
  /-- POWER_ON_RESET (R69): VDD_AON rising releases the power-on reset and starts a full boot with HBM contents lost. -/
  | powerOnReset (testEn : Bool)
  /-- PIN_RESET (R69): RESET_N held low for at least 1 µs causes a reset like power-on, reporting PIN and clearing any thermal lock-out. -/
  | pinReset (low : Bool) (testEn : Bool)
  /-- WARM_RESET (R69): A DEV_RESET_CTRL write with KEY 0xA5 and WARM closes clips, puts HBM in self-refresh and reboots with training kept. -/
  | warmReset (v : Word)
  /-- WATCHDOG_EXPIRY (R67): The watchdog count expires without a kick and starts a warm reset. -/
  | watchdogExpiry
  /-- WDOG_KICK (R67): Writing 0xC0DE to DEV_WDOG_KICK restarts the watchdog count. -/
  | wdogKick (v : Nat)
  /-- RO_READY (R460): FALLBACK_RO has counted 4,096 cycles inside its window, so RO_READY asserts and boot step 2 begins. -/
  | roReady
  /-- HEADERS_READ (R52): Both slot headers have been read and are judged valid or invalid. -/
  | headersRead (a : List Byte) (b : List Byte)
  /-- PLL_MAIN_LOCKED (R55): PLL_MAIN locks to a qualified reference, and boot proceeds to fast flash reading. -/
  | pllMainLocked
  /-- SLOT_READ_DONE (R53): A slot has been read in full, and its section CRCs, digest, key and signature are verified. -/
  | slotReadDone (image : List Byte)
  /-- HBM_TRAINING_DONE (R443): HBM training completes and the pools are initialised, or fenced parts are recorded. -/
  | hbmTrainingDone (pcs : List (Fin 4 × Fin 32)) (bad : List (Fin 4))
  /-- SELF_TEST_DONE (R55): Self-test completes, and step 8 copies the image to AUX, applies records and starts the blocks. -/
  | selfTestDone (des : List (Fin 20)) (zes : List (Fin 20)) (ves : List (Fin 68))
  /-- PWR_CORE_START (R474): VDD_CORE has not armed within 10 ms of CORE_PWR_EN, so BOOT holds at step 3. -/
  | pwrCoreStart (mv : Nat)
  /-- CORE_RAIL_ARMED (R473): VDD_CORE has stayed at or above 0.775 V for 100 µs, so its monitor arms. -/
  | coreRailArmed
  /-- HBM_RAIL_ARMED (R473): VDD_HBM has stayed at or above 1.05 V for 100 µs, so its monitor arms. -/
  | hbmRailArmed
  /-- BROWNOUT (R483): A rail crosses its RESET threshold, so the enables drop and a brown-out cold reset is held. -/
  | brownout (rail : Fin 4) (mv : Nat)
  /-- BROWNOUT_RECOVERY (R483): VDD_AON and VDD_IO have stayed above RESET for 1 ms, so power-up restarts. -/
  | brownoutRecovery (testEn : Bool)
  /-- MODE_REQUEST (R63): A write of DEV_MODE_REQ requests a mode, which is refused, pended or started as a transition. -/
  | modeRequest (port : HostPort) (mode : Fin 8)
  /-- GPIO_MODE_REQUEST (R63): A GPIO input that the image maps to a mode makes a mode request. -/
  | gpioModeRequest (mode : Fin 8)
  /-- MODE_ENTER (R64): A mode transition completes, MODE_ENTER is raised and any pending request is executed. -/
  | modeEnter
  /-- HOLD_EXIT (R64): Every HOLD cause has been clear for the required time, so HOLD is left for BASK. -/
  | holdExit
  /-- REGISTER_WRITE (R58): A host write to a register without behaviour of its own changes its live fields only. -/
  | registerWrite (port : HostPort) (addr : Nat) (value : Word) (full : Bool)
  /-- BLOCK_RESET (R72): DEV_BLOCK_RESET.GO resets one instance and moves an active engine's work to the spare. -/
  | blockReset (block : Fin 256) (inst : Fin 256)
  /-- BLOCK_RESET_DONE (R71): The block reset completes, BUSY clears and any held writes are applied. -/
  | blockResetDone
  /-- SCHEDULER_TICK (R31): Every 250 ms the scheduler scores placements, marks migrations and updates the shed and thermal levels. -/
  | schedulerTick
  /-- SESSION_MIGRATION (R35): A marked session moves its engine context at its next GOP or refresh boundary. -/
  | sessionMigration (ses : Fin 256)
  /-- BLOCK_LOCK_GAINED (R83): After 64 valid sync headers in a row, a lane gains block lock. -/
  | blockLockGained (p : Fin 8) (lane : Fin 9)
  /-- BLOCK_LOCK_LOST (R83): With 16 of the last 64 headers invalid, a lane loses block lock. -/
  | blockLockLost (p : Fin 8) (lane : Fin 9) (invalid : Nat)
  /-- ALIGNMENT_MARKER (R88): An alignment marker arrives and is used for deskew, the BIP check, relock and spare-move checks. -/
  | alignmentMarker (p : Fin 8) (lane : Fin 9) (blk : List Byte) (bip : Nat) (skewNs : Nat) (invalid : Nat)
  /-- ELECTRICAL_IDLE_ENTRY (R98): EI blocks arrive, and the receivers freeze adaptation for the idle period. -/
  | electricalIdleEntry (p : Fin 8)
  /-- TRN_BLOCK (R99): TRN blocks of an exit burst or of training arrive for CDR and block relock. -/
  | trnBlock (p : Fin 8) (lane : Fin 9) (blk : List Byte)
  /-- KSL_RETRAIN (R102): RETRAIN, or a port enable, starts full training of the port. -/
  | kslRetrain (p : Fin 8)
  /-- TRAIN_REQ_SEND (R102): 2 µs into training the KD1690 sends TRAIN_REQ. -/
  | trainReqSend (p : Fin 8)
  /-- TRAINING_LOCK_DONE (R102): Every lane is locked and deskewed on two markers, so TRAIN_DONE is sent. -/
  | trainingLockDone (p : Fin 8) (skewNs : Nat)
  /-- ECHO (R111): An ECHO block arrives, the trigger round trip is stored and training ends. -/
  | echo (p : Fin 8) (blk : List Byte) (rtt : Nat)
  /-- KSL_TRAIN_FAIL (R102): Training has not ended after 2 ms, so the port stays down. -/
  | kslTrainFail (p : Fin 8)
  /-- CTRL_STATUS (R97): A sensor STATUS block is copied to KSL_Pn_SENSOR_STATUS. -/
  | ctrlStatus (p : Fin 8) (blk : List Byte)
  /-- RD_DATA (R97): A data word read from a sensor register arrives. -/
  | rdData (p : Fin 8) (blk : List Byte)
  /-- ACK (R97): A back-channel command is acknowledged with a result. -/
  | ack (p : Fin 8) (blk : List Byte)
  /-- LANE_ACK (R118): The head confirms that it has moved a lane to the spare. -/
  | laneAck (p : Fin 8) (blk : List Byte)
  /-- BC_REG_WR (R106): BC_CTRL.GO with READ 0 sends REG_WR of one sensor register. -/
  | bcRegWr (p : Fin 8)
  /-- BC_REG_RD (R106): BC_CTRL.GO with READ 1 sends REG_RD of one sensor register. -/
  | bcRegRd (p : Fin 8)
  /-- BC_ANSWER_TIMEOUT (R108): No answer arrives within BC_TIMEOUT_US, so the frame is resent up to three times. -/
  | bcAnswerTimeout (p : Fin 8)
  /-- EYE_MEASURE (R104): EYE.GO starts an eye-monitor measurement. -/
  | eyeMeasure (p : Fin 8) (lane : Fin 9)
  /-- EYE_MEASURE_DONE (R104): The eye measurement ends, its count is stored and GO clears. -/
  | eyeMeasureDone (p : Fin 8) (lane : Fin 9) (errors : Nat)
  /-- TRIGGER_SEQUENCE (R113): At its computed boundary the trigger sequence K28.3, ID and FINE is launched. -/
  | triggerSequence (p : Fin 8)
  /-- XTRIG_RISE (R114): XTRIG rises at target − (TRIG_LAT + TRIG_ADJ). -/
  | xtrigRise (p : Fin 8)
  /-- XTRIG_FALL (R114): XTRIG falls after WIDTH PIX cycles. -/
  | xtrigFall (p : Fin 8)
  /-- TRIGGER_TARGET_HANDOVER (R394): An exposure target is handed to the link and the capture front end at least 200 µs ahead. -/
  | triggerTargetHandover (p : Fin 8)
  /-- FRAME_START (R127): An FS packet is accepted into a slot, or dropped as excess. -/
  | frameStart (p : Fin 8) (blk : List Byte)
  /-- FSX (R92): The FSX timestamp is copied to the frame record. -/
  | fsx (p : Fin 8) (blk : List Byte)
  /-- LINE_START (R134): An LS opens a line, and order, depth and skipped lines are judged. -/
  | lineStart (p : Fin 8) (blk : List Byte)
  /-- LINE_END (R95): An LE closes a line, its CRC is checked, and the line passes to RAWC and on. -/
  | lineEnd (p : Fin 8) (blk : List Byte) (data : List Byte) (lost : Bool)
  /-- FRAME_END (R135): An FE arrives, and the frame closes once every readout's FE is in. -/
  | frameEnd (p : Fin 8) (blk : List Byte)
  /-- SLOT_DEADLINE (R129): The slot deadline passes with no FS accepted, so the slot is declared missing. -/
  | slotDeadline (n : Fin 16)
  /-- WHEEL_WINDOW_END (R143): The 256-cycle selection window ends and the wheel service runs. -/
  | wheelWindowEnd (g : Fin 8)
  /-- WHEEL_SLOT_START (R142): A wheel slot begins while frames are pending, and the service runs. -/
  | wheelSlotStart (g : Fin 8)
  /-- WHEEL_BOUNDARY (R147): At slot 0 a new revolution begins and shadowed SLOT_MASK values take effect. -/
  | wheelBoundary (g : Fin 8)
  /-- DEVELOP_FRAME_DONE (R143): A frame's development ends, releasing the group and finalising statistics and loops. -/
  | developFrameDone (n : Fin 16) (hosts : List (List Nat))
  /-- CAP_EXP_COMMIT (R148): A commit latches a context's staged exposure set and assigns it the next SID. -/
  | capExpCommit (mask : Fin 65536)
  /-- EXP_SET_SEND (R149): At the next vertical blanking the latched set goes out as one EXP_SET. -/
  | expSetSend (n : Fin 16)
  /-- DMAP_EDIT_ADD (R177): A host ADD edit is queued for a port's defect map, or refused. -/
  | dmapEditAdd (p : Fin 8) (cls : Fin 16)
  /-- DMAP_EDIT_REMOVE (R177): A host REMOVE edit is queued and clears any candidate history. -/
  | dmapEditRemove (p : Fin 8)
  /-- JOURNAL_BATCH (R185): Once the period has passed with edits waiting, a batch of up to 256 journal records is written. -/
  | journalBatch
  /-- KEEP_REBUILD_DONE (R186): The background rewrite of the map copy completes and learning resumes. -/
  | keepRebuildDone
  /-- COL_COMMIT (R223): A COL_COMMIT write commits a context's colour shadows for its next development start. -/
  | colCommit (mask : Fin 65536)
  /-- LUT3D_LOAD_DONE (R205): A 3D LUT buffer load from the library completes. -/
  | lut3dLoadDone (n : Fin 16)
  /-- TILE_EMITTED (R242): A KRC tile is coded and emitted to OUT_RING for the recorder. -/
  | tileEmitted (z : Fin 20)
  /-- TILE_DECODED (R244): A ZE decodes a KRC tile for REVIEW or OFFLOAD. -/
  | tileDecoded (z : Fin 20)
  /-- ZE_JOB_START (R248): A ZE free of image work takes the next general job. -/
  | zeJobStart (z : Fin 20) (host : List (Nat × List Byte))
  /-- GENERAL_JOB_DONE (R254): A general job ends, and its completion record and MSI-X are written. -/
  | generalJobDone (z : Fin 20)
  /-- ZE_RING_ABORT (R253): ABORT ends the running job ABORTED and stops the ring. -/
  | zeRingAbort (r : Fin 8)
  /-- EP0_LINK_DOWN (R253): EP0's link goes down, aborting host-space jobs and machine-vision pushes. -/
  | ep0LinkDown
  /-- REC_START (R274): REC_CTRL.START opens a clip for every masked recording context. -/
  | recStart
  /-- REC_STOP (R277): REC_CTRL.STOP closes each open clip after its last resolved slot. -/
  | recStop
  /-- REC_META_QUEUE (R268): REC_META_CTRL queues a LENS META record for contexts. -/
  | recMetaQueue (mask : Nat) (len : Nat)
  /-- PCIE_LINK_UP (R257): A root port trains to its drive, which is then initialised. -/
  | pcieLinkUp (k : Fin 4) (gen : Nat) (width : Nat)
  /-- PCIE_LINK_DOWN (R261): A root port's link goes down and the drive fails. -/
  | pcieLinkDown (k : Fin 4)
  /-- NVME_COMPLETION (R259): A polled NVMe completion arrives for a Write, Read or admin command. -/
  | nvmeCompletion (k : Fin 4) (num : Nat) (status : Fin 3) (data : List Byte)
  /-- NVME_TIMEOUT (R261): A command not complete within 500 ms fails its drive. -/
  | nvmeTimeout (k : Fin 4)
  /-- OFFLOAD_JOB_START (R345): A queued offload job starts reading, decoding and developing a clip. -/
  | offloadJobStart
  /-- OFFLOAD_JOB_DONE (R348): An offload job ends with its completion record. -/
  | offloadJobDone
  /-- SES_START (R291): VE_SES_CMD START admits, places and starts a session. -/
  | sesStart (ses : Fin 256)
  /-- SES_STOP (R291): VE_SES_CMD STOP ends a session after its last picture. -/
  | sesStop (ses : Fin 256)
  /-- PICTURE_START (R317): With pictures up to k − 2 complete, a picture starts with fixed rate-control inputs and a cap. -/
  | pictureStart (ses : Fin 256) (hdr : Nat)
  /-- ROW_READY (R295): A row's source and reference rows are complete, so it is queued or selected on its engine. -/
  | rowReady (ses : Fin 256) (back : Fin 2) (row : Nat)
  /-- LIVE_ROW_RELEASE (R297): 3 × t_row after the previous row started, a ready LIVE row is released. -/
  | liveRowRelease (e : Fin 68)
  /-- UNIT_BOUNDARY (R324): At each CTU or superblock boundary the salvage procedure decides how to code the next unit. -/
  | unitBoundary (e : Fin 68) (bits : Nat) (least : Nat) (cell : Int) (sal : Nat)
  /-- ROW_DONE (R312): A row completes, its bytes join its band and dependent rows proceed. -/
  | rowDone (e : Fin 68) (bytes : List Byte)
  /-- ANALYSIS_DONE (R303): The group's analysis record of a picture is written. -/
  | analysisDone (g : Fin 8) (dist : List Int) (field : List Byte) (cells : List Nat) (sal : List Nat)
  /-- ROW_WATCHDOG (R313): A row not complete in FACTOR/64 × t_row is treated as a VE fault. -/
  | rowWatchdog (e : Fin 68)
  /-- VE_FAULT (R313): A VE fault fences the engine and substitutes its quadrant spare. -/
  | veFault (e : Fin 68)
  /-- CHECKPOINT_READ_DONE (R313): The spare has read the interrupted rows' checkpoints and re-runs them. -/
  | checkpointReadDone (q : Fin 4)
  /-- DECODER_ACCESS_UNIT (R338): An access unit arrives at a decoder from a flow or the host ring. -/
  | decoderAccessUnit (k : Fin 16) (rap : Bool)
  /-- DECODER_PICTURE_DONE (R340): A decoded picture is written with its record. -/
  | decoderPictureDone (k : Fin 16) (p : DecPic)
  /-- RASTER_FETCH_START (R354): FETCH_LEAD lines before S_k, each VIDEO layer selects and holds its buffer. -/
  | rasterFetchStart (r : Fin 6)
  /-- RASTER_FRAME_START (R351): A raster frame starts at S_k. -/
  | rasterFrameStart (r : Fin 6) (phase : Int)
  /-- RAS_LOCK_ACQUIRED (R352): After 1 s within ±50 ns, LOCKED sets. -/
  | rasLockAcquired (r : Fin 6)
  /-- RASTER_LINE_FETCH (R356): A line fetch starts FETCH_LEAD lines before output. -/
  | rasterLineFetch (r : Fin 6) (y : Nat) (fifo : Fin 11)
  /-- RASTER_VBLANK (R359): Vertical blanking begins and latches pending RWS shadows. -/
  | rasterVblank (r : Fin 6)
  /-- RAS_COMMIT (R359): RAS_RSn_COMMIT.GO requests a latch at the next vertical blanking. -/
  | rasCommit (r : Fin 6)
  /-- RASTER_FRAME_END (R379): At the end of the last active line the freeze detector and readback tally run. -/
  | rasterFrameEnd (r : Fin 6) (mism : Nat)
  /-- RB_LOCK_TIMEOUT (R380): A readback lane lacks block lock for 1 µs. -/
  | rbLockTimeout (r : Fin 6) (lanes : Fin 16)
  /-- GECKO_ROW_RELEASE (R375): At N_(y+1) + T_L a Gecko output row is released to the panel link. -/
  | geckoRowRelease (p : Fin 8)
  /-- GECKO_FS_MISSING (R378): No frame start within GK_MISS_US, so HOLD_FRAME is sent. -/
  | geckoFsMissing (p : Fin 8)
  /-- PTP_SYNC_RX (R390): A Sync is received and the servo steers, steps or changes state. -/
  | ptpSyncRx (netIf : Fin 8) (domain : Nat) (src : Nat) (seq : Nat) (twoStep : Bool) (t1 : Nat) (corr : Int) (half : Fin 16)
  /-- PTP_FOLLOW_UP_RX (R387): A Follow_Up completes a two-step Sync. -/
  | ptpFollowUpRx (netIf : Fin 8) (domain : Nat) (src : Nat) (seq : Nat) (t1 : Nat) (corr : Int)
  /-- PTP_ANNOUNCE_RX (R387): An Announce is received and BMCA runs. -/
  | ptpAnnounceRx (netIf : Fin 8) (a : PtpAnnounce)
  /-- PTP_DELAY_RESP_RX (R390): A Delay_Resp completes a path-delay measurement. -/
  | ptpDelayRespRx (netIf : Fin 8) (domain : Nat) (src : Nat) (seq : Nat) (t4 : Nat) (corr : Int)
  /-- PTP_DELAY_REQ_RX (R387): As leader, a Delay_Req is answered. -/
  | ptpDelayReqRx (netIf : Fin 8) (domain : Nat) (src : Nat) (seq : Nat) (corr : Int) (half : Fin 16)
  /-- PTP_SYNC_TX (R387): As leader, a two-step Sync is sent at each interval. -/
  | ptpSyncTx (half : Fin 16)
  /-- PTP_ANNOUNCE_TX (R387): As leader, an Announce with the metadata TLV is sent. -/
  | ptpAnnounceTx
  /-- PTP_DELAY_REQ_TX (R387): As follower, a Delay_Req is sent at each interval. -/
  | ptpDelayReqTx (half : Fin 16)
  /-- ANNOUNCE_TIMEOUT (R388): The announce receipt timeout expires on the PTP port. -/
  | announceTimeout
  /-- TIME_SET (R391): TIME_CTRL.SET steps device time to the TIME_SET value. -/
  | timeSet
  /-- TIME_STEP_NOW (R391): TIME_CTRL.STEP_NOW makes a deferred step. -/
  | timeStepNow
  /-- TIME_NOW_READ (R519): A read of TIME_NOW_SEC_LO latches the device-time group. -/
  | timeNowRead (port : HostPort)
  /-- TRIG_SCHED_COMMIT (R395): CTRL.COMMIT latches a new trigger schedule to take over at the switch instant. -/
  | trigSchedCommit (p : Fin 8)
  /-- TRIG_SCHED_SWITCH (R395): At the switch instant the new schedule takes over. -/
  | trigSchedSwitch (p : Fin 8)
  /-- PULSE_EDGE (R397): A pulse generator output rises at its edge time. -/
  | pulseEdge (n : Fin 8)
  /-- PULSE_FALL (R397): A pulse falls after WIDTH_NS. -/
  | pulseFall (n : Fin 8)
  /-- LTC_FRAME (R398): An LTC sync word is decoded and timestamped. -/
  | ltcFrame (good : Bool) (label : Nat)
  /-- LTC_FRAME_MISSING (R398): Two LTC frames are missing, so timecode free-runs. -/
  | ltcFrameMissing
  /-- ETH_LINK_DOWN (R404): An Ethernet link goes down. -/
  | ethLinkDown (netIf : Fin 8)
  /-- ETH_LINK_UP (R404): An Ethernet link comes up and its flows restart. -/
  | ethLinkUp (netIf : Fin 8)
  /-- ARP_RX (R400): An ARP frame is answered or resolves a destination. -/
  | arpRx (netIf : Fin 8) (reply : Bool) (senderIp : Nat) (senderMac : Nat) (targetIp : Nat)
  /-- ICMP_ECHO_RX (R400): An ICMP echo request is answered. -/
  | icmpEchoRx (netIf : Fin 8) (srcIp : Nat) (srcMac : Nat) (dstIp : Nat) (data : List Byte)
  /-- ARP_RENEW (R400): Every 60 s a flow destination is re-resolved. -/
  | arpRenew (n : Fin 1024) (path : Fin 2)
  /-- ARP_RESOLVE_TIMEOUT (R400): A destination unresolved after 1 s is reported. -/
  | arpResolveTimeout (n : Fin 1024) (path : Fin 2)
  /-- MAILBOX_FRAME_RX (R400): Another frame goes to the host mailbox or is dropped. -/
  | mailboxFrameRx (netIf : Fin 8) (frame : List Byte) (fcsOk : Bool)
  /-- TX_FRAME_SELECT (R402): At S_k − DELAY an essence-1 flow selects and holds a buffer. -/
  | txFrameSelect (n : Fin 1024)
  /-- TX_PACKET (R402): A scheduled essence-1 packet is sent at its time on one or both paths. -/
  | txPacket (n : Fin 1024)
  /-- TX_BAND_SEND (R403): An essence-2 flow sends a completed band under its token bucket. -/
  | txBandSend (n : Fin 1024)
  /-- AUDIO_PACKET_TX (R403): An essence-3 packet is sent after its last sample. -/
  | audioPacketTx (n : Fin 1024)
  /-- RX_PACKET (R404): A packet of a receive flow is kept, merged or discarded. -/
  | rxPacket (n : Fin 256) (path : Fin 2) (p : RtpPacket)
  /-- RX_REORDER_EXPIRY (R404): A sequence number is not delivered within SKEW_US and is lost. -/
  | rxReorderExpiry (n : Fin 256)
  /-- PATH_SILENCE_TIMEOUT (R404): A receive path delivers nothing for 100 ms. -/
  | pathSilenceTimeout (n : Fin 256) (path : Fin 2)
  /-- AUDIO_FRAME_RX (R415): A follower receives an audio frame, judged good or bad and queued in its FIFO. -/
  | audioFrameRx (p : Fin 8) (f : AudFrame)
  /-- AUDIO_CLOCK_TIMEOUT (R415): No WS edge for two frame periods declares the clock lost. -/
  | audioClockTimeout (p : Fin 8)
  /-- AUDIO_LOOP_UPDATE (R412): Every 64 domain frames the FOLLOW loop updates FREQ_ADJ. -/
  | audioLoopUpdate (m : Fin 2)
  /-- AUDIO_PLAYOUT (R420): A network source plays a sample at its playout time, or 0 if it is absent. -/
  | audioPlayout (k : Fin 8) (m : Nat)
  /-- HBM_READ (R437): A memory read returns data after symbol-ECC checking, correction, rebuild or poison. -/
  | hbmRead (req : Fin 1024) (n : Fin 6) (off : Nat) (len : Nat) (ups : List (Nat × Nat × Nat))
  /-- HBM_WRITE (R433): A write is held in its stripe's home buffer, and full stripes are written with parity. -/
  | hbmWrite (req : Fin 1024) (n : Fin 6) (off : Nat) (bytes : List Byte) (ups : List (Nat × Nat × Nat))
  /-- STRIPE_BUFFER_IDLE (R433): A buffer idle for 4,096 FAB cycles is written out by read-modify-write. -/
  | stripeBufferIdle (n : Fin 6) (stripe : Nat)
  /-- SCRUB_STEP (R438): The patrol scrubber reads a block and checks stripe parity. -/
  | scrubStep (ups : List (Nat × Nat))
  /-- MEM_REQUEST_TIMEOUT (R439): A request not complete within 20 µs fails its pseudo-channel. -/
  | memRequestTimeout (h : Fin 4) (pc : Fin 32)
  /-- HBM_PHY_ERROR (R439): A controller reports a PHY or command error that persists. -/
  | hbmPhyError (h : Fin 4) (pc : Fin 32) (phy : Bool)
  /-- STACK_TEMP_READ (R444): A stack temperature is read and the refresh rate adjusted. -/
  | stackTempRead (h : Fin 4) (t : Int) (ok : Bool)
  /-- STACK_TEMP_TIMEOUT (R439): Stack reads fail for 1 s, so the stack fails. -/
  | stackTempTimeout (h : Fin 4)
  /-- HBM_POWER_DOWN (R445): In BASK an idle pseudo-channel enters power-down after 256 cycles. -/
  | hbmPowerDown (h : Fin 4) (pc : Fin 32)
  /-- MEM_INJECT (R436): MEM_INJ_CTRL.GO arms symbol corruption of the next write of a block. -/
  | memInject
  /-- REF_MISSING_EDGE (R448): No reference edge for 40 ns declares the reference lost. -/
  | refMissingEdge (r : Fin 2)
  /-- REF_FREQ_WINDOW (R448): A 1 ms frequency window ends, and each reference's validity is judged. -/
  | refFreqWindow (r : Fin 2) (ppm : Int) (edges : Bool)
  /-- SWITCHOVER_RAMP_DONE (R451): The frequency ramp and phase removal complete. -/
  | switchoverRampDone (ms : Nat)
  /-- CLK_REF_SWITCH (R450): CLK_REF_CTRL.SWITCH moves PLL_MAIN to the other reference. -/
  | clkRefSwitch
  /-- HOLDOVER_WINDOW_END (R464): 20 ms after both references are lost, the core clocks stop and the always-on domain continues. -/
  | holdoverWindowEnd
  /-- PLL_UNLOCK (R459): A PLL loses lock, and its blocks stop or HOLD is entered. -/
  | pllUnlock (k : Fin 40)
  /-- OTHER_PLL_LOCK (R466): PLL_HBM or a SerDes PLL locks during recovery. -/
  | otherPllLock (k : Fin 40)
  /-- FALLBACK_CALIBRATION (R448): Once per second FALLBACK_RO is recalibrated against the active reference. -/
  | fallbackCalibration (ps : Nat)
  /-- RO_WINDOW_FAIL (R462): The window detector finds FALLBACK_RO out of range. -/
  | roWindowFail (ps : Nat)
  /-- CLK_GATE (R468): CLK_GATE_REQ OP 1 requests that an instance's clock be gated. -/
  | clkGate (block : Fin 256) (inst : Fin 256)
  /-- CLK_UNGATE (R468): CLK_GATE_REQ OP 2 ungates an instance. -/
  | clkUngate (block : Fin 256) (inst : Fin 256)
  /-- GATE_IDLE_STOP (R468): The instance reports idle and its clock stops. -/
  | gateIdleStop
  /-- GATE_IDLE_TIMEOUT (R468): No idle within 4,096 CFG cycles, so the gate is refused. -/
  | gateIdleTimeout
  /-- FM_MEASURE (R470): CLK_FM_CFG.GO starts a frequency measurement. -/
  | fmMeasure (target : Fin 32) (ref : Fin 32) (sel : Fin 128)
  /-- FM_DONE (R470): The gate completes and COUNT is valid. -/
  | fmDone (count : Nat)
  /-- FM_TIMEOUT (R470): The gate has not completed in 2^25 CFG cycles. -/
  | fmTimeout (count : Nat)
  /-- AVS_UPDATE (R476): Every 100 µs the voltage loop adjusts the VDD_CORE target. -/
  | avsUpdate (slacks : List Nat)
  /-- AVS_COMMAND_RESPONSE (R478): A regulator bus command is acknowledged or fails. -/
  | avsCommandResponse (ok : Bool)
  /-- DROOP_DETECT (R479): A monitor's slack falls below 2 taps, so CORE_CLK is stretched. -/
  | droopDetect (m : Fin 64)
  /-- STRETCH_END (R479): 64 stretched cycles at 4 or more taps end the stretch. -/
  | stretchEnd
  /-- RAIL_WARN_CROSSING (R480): A rail stays below its WARN threshold for the filter time. -/
  | railWarnCrossing (rail : Fin 3) (mv : Nat)
  /-- PFAIL_FALL (R480): PFAIL_N goes low for 1 µs, which raises WARN for every rail. -/
  | pfailFall
  /-- WARN_CLEAR (R480): Every WARN cause has stayed clear for 1 ms. -/
  | warnClear
  /-- RAIL_TELEMETRY_UPDATE (R480): Every 100 µs the rail telemetry means are refreshed. -/
  | railTelemetryUpdate (mvs : List Nat)
  /-- THERMAL_SAMPLE (R488): Die sensors are sampled and thresholds, exclusions and sampling rate are judged. -/
  | thermalSample (temps : List Int)
  /-- RISE_CHECK (R491): Every 1 ms the rate-of-rise procedure runs. -/
  | riseCheck
  /-- THERM_RISE_WRITE (R491): A write of RISE_LIMIT, where 0 ends early throttle at once. -/
  | thermRiseWrite (lim : Fin 256)
  /-- THERMAL_SHUTDOWN (R494): A 50 µs over-temperature or catastrophic output cuts power with outputs safe. -/
  | thermalShutdown (cause : Fin 4) (src : Fin 64)
  /-- THERMAL_RESTART (R495): TS39 has read below 90 °C for 10 s, so the device cold-boots as a thermal restart. -/
  | thermalRestart
  /-- DE_FAULT (R501): A DE fault fences the engine and the spare re-develops the interrupted stripe. -/
  | deFault (e : Fin 20)
  /-- STRIPE_WATCHDOG (R500): A stripe with waiting input writes no output line in time. -/
  | stripeWatchdog (e : Fin 20)
  /-- DE_CATCH_UP_DONE (R501): The spare has caught up with arriving lines. -/
  | deCatchUpDone (q : Fin 4)
  /-- ZE_FAULT (R502): A ZE fault fences the engine and its tile or job moves to the spare. -/
  | zeFault (e : Fin 20)
  /-- TILE_WATCHDOG (R502): A tile not emitted within 34,816 PIX cycles is treated as a ZE fault. -/
  | tileWatchdog (e : Fin 20)
  /-- FAULT_INJECT (R503): DEV_FAULT_INJ.GO forces a compare failure at an engine's next row, stripe or tile. -/
  | faultInject (kind : Fin 4) (engine : Fin 128)
  /-- MSI_COALESCE_EXPIRY (R507): The coalescing interval ends and a pending MSI-X is sent. -/
  | msiCoalesceExpiry
  /-- EVT_IRQ_CLEAR (R507): A W1C write clears EVT_IRQ_STATUS bits and may release IRQ_N. -/
  | evtIrqClear (mask : Fin 32)
  /-- KEEP_WRITE (R510): A KEEP_DATA write starts an atomic customer-area write, or is refused. -/
  | keepWrite (v : Word)
  /-- KEEP_WRITE_DONE (R510): The keep-store write completes. -/
  | keepWriteDone
  /-- KEEP_READ (R510): A KEEP_DATA read returns the keep-store word at KEEP_ADDR. -/
  | keepRead (port : HostPort)
  /-- FUSE_PROGRAM (R512): FUSE_PROG_CTRL PROGRAM fuses a key hash into a blank slot, if authorised. -/
  | fuseProgram (slot : Fin 4)
  /-- FUSE_REVOKE (R512): FUSE_PROG_CTRL REVOKE revokes a fused key slot, if authorised. -/
  | fuseRevoke (slot : Fin 4)
  /-- FUSE_OP_DONE (R512): A fuse operation completes and is read back. -/
  | fuseOpDone (ok : Bool)
  /-- JTAG_BYPASS (R514): The JTAG BYPASS instruction. -/
  | jtagBypass
  /-- JTAG_IDCODE (R514): The JTAG IDCODE instruction returns 0x1169_0353. -/
  | jtagIdcode
  /-- JTAG_SAMPLE_PRELOAD (R514): The JTAG SAMPLE/PRELOAD instruction. -/
  | jtagSamplePreload (data : Nat)
  /-- JTAG_EXTEST (R514): EXTEST drives the pads while RESET_N is low. -/
  | jtagExtest
  /-- JTAG_EXTEST_PULSE (R514): EXTEST_PULSE under IEEE 1149.6 while RESET_N is low. -/
  | jtagExtestPulse
  /-- JTAG_EXTEST_TRAIN (R514): EXTEST_TRAIN under IEEE 1149.6 while RESET_N is low. -/
  | jtagExtestTrain
  /-- JTAG_CLAMP (R514): The CLAMP instruction while RESET_N is low. -/
  | jtagClamp
  /-- JTAG_HIGHZ (R514): The HIGHZ instruction while RESET_N is low. -/
  | jtagHighz
  /-- MSPI_WRITE (R520): A management SPI command 0x02 writes one or more words. -/
  | mspiWrite (addr : Nat) (words : List Word)
  /-- MSPI_READ (R520): A management SPI command 0x0B reads words with wait bytes. -/
  | mspiRead (addr : Nat) (waits : List Nat)
  /-- DMAP_ENTRY_READ (R523): A read of a defect-map entry's low word latches its high word. -/
  | dmapEntryRead (port : HostPort) (entry : Fin 1048576)
  /-- DOMAIN_FRAME (R411): At each frame period of an audio domain the domain reads follower FIFOs, drives its master ports' frames and advances unmute ramps. -/
  | domainFrame (m : Fin 2) (ins : List (Nat × Nat))
  /-- EP0_LINK_UP (R253): EP0's PCIe link to the host trains up, so host-space jobs and machine-vision pushes through EP0 can run again. -/
  | ep0LinkUp
  deriving DecidableEq, Repr

end Sys2Proof
end

