-- ==== Sys2Proof/Config.lean ====
section
/-!
DEFINITION. The free values: what the spec leaves open and the machine goes on with. Each is a constant without a body, so
nothing can compute it and a statement about it holds whatever it is. A free value is applied to a counter of the state,
so each use is a fresh one, or to the operands it depends on.
-/
namespace Sys2Proof

/-- A free value: use `n` of any value the spec leaves open (assumption 5). -/
opaque Config.free (n : Nat) : Nat

/-- The phase of a port's back-channel character boundaries, in ps modulo 8,000 (R113): a free value (assumption 10). -/
opaque Config.charPhase (port : Nat) : Nat

/-- The DEFLATE stream that the general compressor makes of an input at a level (R245): the spec fixes it for identical
input and level but does not give its bytes, so it is a free value (assumption 11). -/
opaque Config.deflate (level : Nat) (input : List Byte) : List Byte

/-- The largest picture in bits that a level and tier of a codec allow (R318): the spec refers to the codec's standard and
does not give it, so it is a free value of codec, level, tier, width and height (assumption 13). -/
opaque Config.levelCapBits (codec level tier w h : Nat) : Nat

/-- The `moov` box of a session's header (R308): its parameter sets are the engine's choice, so use `n` is a free value
(assumption 14). -/
opaque Config.moov (n : Nat) : List Byte

/-- The line width in pixels of a CROSS guide (R353): the spec gives the length of its arms and not their width, so it is a
free value (assumption 17). -/
opaque Config.crossWidth : Nat

/-- How an 8-bit or 10-bit component of a graphics buffer becomes a u16 component (R357): the spec gives the alpha's
expansion and not the colours', so it is a free value of the depth and the code (assumption 18). -/
opaque Config.gfxComponent (bits code : Nat) : Nat

/-- Whether the image has declared a GPIO pin as an output (R397): the spec does not say where an image declares it, so it is
a free value of the pin (assumption 20). -/
opaque Config.gpioOutput (pin : Nat) : Bool

end Sys2Proof
end

