-- ==== Sys2Proof/Machine/Fields.lean ====
section
/-!
DEFINITION. The manual's names of registers and fields: `R.X` is the byte address of register X (of an instance, where
it has instances) and `F.X_Y` its field Y (R516, R522 and the register tables of chapters 01 to 19).
-/
namespace Sys2Proof.Machine

/-- A field of a register: the register's byte address, the lowest bit and the width. -/
structure Fld where
  addr : Nat
  lo : Nat
  width : Nat
  deriving DecidableEq, Repr


/-! ### DEV -/
def R.DEV_ID : Nat := 0
def F.DEV_ID_PART : Fld := ⟨R.DEV_ID, 0, 16⟩
def F.DEV_ID_STEP : Fld := ⟨R.DEV_ID, 16, 8⟩
def F.DEV_ID_HBM : Fld := ⟨R.DEV_ID, 24, 3⟩
def R.DEV_CAPS : Nat := 4
def F.DEV_CAPS_DE_ACTIVE : Fld := ⟨R.DEV_CAPS, 0, 5⟩
def F.DEV_CAPS_VE_ACTIVE : Fld := ⟨R.DEV_CAPS, 8, 7⟩
def F.DEV_CAPS_ZE_ACTIVE : Fld := ⟨R.DEV_CAPS, 16, 5⟩
def F.DEV_CAPS_STACK_GIB : Fld := ⟨R.DEV_CAPS, 24, 8⟩
def R.DEV_MAP_VER : Nat := 8
def F.DEV_MAP_VER_MINOR : Fld := ⟨R.DEV_MAP_VER, 0, 8⟩
def F.DEV_MAP_VER_MAJOR : Fld := ⟨R.DEV_MAP_VER, 8, 8⟩
def R.DEV_SCRATCH : Nat := 0xC
def F.DEV_SCRATCH_VALUE : Fld := ⟨R.DEV_SCRATCH, 0, 32⟩
def R.DEV_MODE : Nat := 0x10
def F.DEV_MODE_MODE : Fld := ⟨R.DEV_MODE, 0, 3⟩
def F.DEV_MODE_IN_TRANSITION : Fld := ⟨R.DEV_MODE, 3, 1⟩
def F.DEV_MODE_TARGET : Fld := ⟨R.DEV_MODE, 4, 3⟩
def F.DEV_MODE_PREV : Fld := ⟨R.DEV_MODE, 8, 3⟩
def R.DEV_MODE_REQ : Nat := 0x14
def F.DEV_MODE_REQ_REQ : Fld := ⟨R.DEV_MODE_REQ, 0, 3⟩
def F.DEV_MODE_REQ_PENDING : Fld := ⟨R.DEV_MODE_REQ, 8, 1⟩
def R.DEV_HOLD_CAUSE : Nat := 0x18
def F.DEV_HOLD_CAUSE_CLOCK : Fld := ⟨R.DEV_HOLD_CAUSE, 0, 1⟩
def F.DEV_HOLD_CAUSE_CONFIG : Fld := ⟨R.DEV_HOLD_CAUSE, 1, 1⟩
def F.DEV_HOLD_CAUSE_CAPACITY : Fld := ⟨R.DEV_HOLD_CAUSE, 2, 1⟩
def F.DEV_HOLD_CAUSE_MEMORY : Fld := ⟨R.DEV_HOLD_CAUSE, 3, 1⟩
def R.DEV_BOOT_STATUS : Nat := 0x20
def F.DEV_BOOT_STATUS_SLOT : Fld := ⟨R.DEV_BOOT_STATUS, 0, 1⟩
def F.DEV_BOOT_STATUS_FALLBACK : Fld := ⟨R.DEV_BOOT_STATUS, 1, 1⟩
def F.DEV_BOOT_STATUS_UNSECURED : Fld := ⟨R.DEV_BOOT_STATUS, 2, 1⟩
def F.DEV_BOOT_STATUS_BOOT_FAIL : Fld := ⟨R.DEV_BOOT_STATUS, 3, 1⟩
def F.DEV_BOOT_STATUS_A_RESULT : Fld := ⟨R.DEV_BOOT_STATUS, 4, 4⟩
def F.DEV_BOOT_STATUS_B_RESULT : Fld := ⟨R.DEV_BOOT_STATUS, 8, 4⟩
def F.DEV_BOOT_STATUS_KEY_USED : Fld := ⟨R.DEV_BOOT_STATUS, 12, 2⟩
def F.DEV_BOOT_STATUS_EVT_LOST : Fld := ⟨R.DEV_BOOT_STATUS, 14, 2⟩
def F.DEV_BOOT_STATUS_BOOT_MS : Fld := ⟨R.DEV_BOOT_STATUS, 16, 16⟩
def R.DEV_RESET_CAUSE : Nat := 0x24
def F.DEV_RESET_CAUSE_POR : Fld := ⟨R.DEV_RESET_CAUSE, 0, 1⟩
def F.DEV_RESET_CAUSE_BROWNOUT : Fld := ⟨R.DEV_RESET_CAUSE, 1, 1⟩
def F.DEV_RESET_CAUSE_THERMAL : Fld := ⟨R.DEV_RESET_CAUSE, 2, 1⟩
def F.DEV_RESET_CAUSE_PIN : Fld := ⟨R.DEV_RESET_CAUSE, 3, 1⟩
def F.DEV_RESET_CAUSE_WARM_REG : Fld := ⟨R.DEV_RESET_CAUSE, 4, 1⟩
def F.DEV_RESET_CAUSE_WARM_WDOG : Fld := ⟨R.DEV_RESET_CAUSE, 5, 1⟩
def F.DEV_RESET_CAUSE_RAIL : Fld := ⟨R.DEV_RESET_CAUSE, 8, 3⟩
def R.DEV_RESET_CTRL : Nat := 0x28
def F.DEV_RESET_CTRL_KEY : Fld := ⟨R.DEV_RESET_CTRL, 0, 8⟩
def F.DEV_RESET_CTRL_WARM : Fld := ⟨R.DEV_RESET_CTRL, 8, 1⟩
def R.DEV_BLOCK_RESET : Nat := 0x2C
def F.DEV_BLOCK_RESET_BLOCK_ID : Fld := ⟨R.DEV_BLOCK_RESET, 0, 8⟩
def F.DEV_BLOCK_RESET_INSTANCE : Fld := ⟨R.DEV_BLOCK_RESET, 8, 8⟩
def F.DEV_BLOCK_RESET_GO : Fld := ⟨R.DEV_BLOCK_RESET, 16, 1⟩
def F.DEV_BLOCK_RESET_BUSY : Fld := ⟨R.DEV_BLOCK_RESET, 17, 1⟩
def R.DEV_WDOG_CTRL : Nat := 0x30
def F.DEV_WDOG_CTRL_TIMEOUT_MS : Fld := ⟨R.DEV_WDOG_CTRL, 0, 16⟩
def R.DEV_WDOG_KICK : Nat := 0x34
def F.DEV_WDOG_KICK_KICK : Fld := ⟨R.DEV_WDOG_KICK, 0, 16⟩
def R.DEV_IMG_SEQ : Nat := 0x38
def F.DEV_IMG_SEQ_SEQ : Fld := ⟨R.DEV_IMG_SEQ, 0, 32⟩
def R.DEV_QOS_FLOOR : Nat := 0x100
def F.DEV_QOS_FLOOR_LIVE_FLOOR : Fld := ⟨R.DEV_QOS_FLOOR, 0, 6⟩
def F.DEV_QOS_FLOOR_RECORD_FLOOR : Fld := ⟨R.DEV_QOS_FLOOR, 8, 6⟩
def F.DEV_QOS_FLOOR_LADDER_FLOOR : Fld := ⟨R.DEV_QOS_FLOOR, 16, 6⟩
def F.DEV_QOS_FLOOR_BACKGROUND_FLOOR : Fld := ⟨R.DEV_QOS_FLOOR, 24, 6⟩
def R.DEV_SCHED_CTRL : Nat := 0x104
def F.DEV_SCHED_CTRL_W_LOAD : Fld := ⟨R.DEV_SCHED_CTRL, 0, 8⟩
def F.DEV_SCHED_CTRL_W_AFF : Fld := ⟨R.DEV_SCHED_CTRL, 8, 8⟩
def F.DEV_SCHED_CTRL_W_TEMP : Fld := ⟨R.DEV_SCHED_CTRL, 16, 8⟩
def F.DEV_SCHED_CTRL_MIGRATE_HOLD : Fld := ⟨R.DEV_SCHED_CTRL, 24, 1⟩
def R.DEV_SCHED_STATUS : Nat := 0x108
def F.DEV_SCHED_STATUS_TICKS : Fld := ⟨R.DEV_SCHED_STATUS, 0, 16⟩
def F.DEV_SCHED_STATUS_MARKED : Fld := ⟨R.DEV_SCHED_STATUS, 16, 8⟩
def F.DEV_SCHED_STATUS_MIGRATIONS : Fld := ⟨R.DEV_SCHED_STATUS, 24, 8⟩
def R.DEV_SHED_CFG : Nat := 0x10C
def F.DEV_SHED_CFG_HOLD_TICKS : Fld := ⟨R.DEV_SHED_CFG, 0, 8⟩
def F.DEV_SHED_CFG_UP_PERMILLE : Fld := ⟨R.DEV_SHED_CFG, 8, 10⟩
def F.DEV_SHED_CFG_DOWN_PERMILLE : Fld := ⟨R.DEV_SHED_CFG, 18, 10⟩
def R.DEV_SHED_STATUS : Nat := 0x110
def F.DEV_SHED_STATUS_LEVEL : Fld := ⟨R.DEV_SHED_STATUS, 0, 10⟩
def F.DEV_SHED_STATUS_THERM_FLOOR : Fld := ⟨R.DEV_SHED_STATUS, 10, 10⟩
def F.DEV_SHED_STATUS_AT_LIMIT : Fld := ⟨R.DEV_SHED_STATUS, 20, 1⟩
def F.DEV_SHED_STATUS_CHANGES : Fld := ⟨R.DEV_SHED_STATUS, 24, 8⟩
def R.DEV_FENCE_DE : Nat := 0x200
def F.DEV_FENCE_DE_FENCED : Fld := ⟨R.DEV_FENCE_DE, 0, 20⟩
def R.DEV_FENCE_ZE : Nat := 0x204
def F.DEV_FENCE_ZE_FENCED : Fld := ⟨R.DEV_FENCE_ZE, 0, 20⟩
def R.DEV_SPARE_DE : Nat := 0x208
def F.DEV_SPARE_DE_REPLACES0 : Fld := ⟨R.DEV_SPARE_DE, 0, 5⟩
def F.DEV_SPARE_DE_IN_USE0 : Fld := ⟨R.DEV_SPARE_DE, 7, 1⟩
def F.DEV_SPARE_DE_REPLACES1 : Fld := ⟨R.DEV_SPARE_DE, 8, 5⟩
def F.DEV_SPARE_DE_IN_USE1 : Fld := ⟨R.DEV_SPARE_DE, 15, 1⟩
def F.DEV_SPARE_DE_REPLACES2 : Fld := ⟨R.DEV_SPARE_DE, 16, 5⟩
def F.DEV_SPARE_DE_IN_USE2 : Fld := ⟨R.DEV_SPARE_DE, 23, 1⟩
def F.DEV_SPARE_DE_REPLACES3 : Fld := ⟨R.DEV_SPARE_DE, 24, 5⟩
def F.DEV_SPARE_DE_IN_USE3 : Fld := ⟨R.DEV_SPARE_DE, 31, 1⟩
def R.DEV_SPARE_ZE : Nat := 0x20C
def F.DEV_SPARE_ZE_REPLACES0 : Fld := ⟨R.DEV_SPARE_ZE, 0, 5⟩
def F.DEV_SPARE_ZE_IN_USE0 : Fld := ⟨R.DEV_SPARE_ZE, 7, 1⟩
def F.DEV_SPARE_ZE_REPLACES1 : Fld := ⟨R.DEV_SPARE_ZE, 8, 5⟩
def F.DEV_SPARE_ZE_IN_USE1 : Fld := ⟨R.DEV_SPARE_ZE, 15, 1⟩
def F.DEV_SPARE_ZE_REPLACES2 : Fld := ⟨R.DEV_SPARE_ZE, 16, 5⟩
def F.DEV_SPARE_ZE_IN_USE2 : Fld := ⟨R.DEV_SPARE_ZE, 23, 1⟩
def F.DEV_SPARE_ZE_REPLACES3 : Fld := ⟨R.DEV_SPARE_ZE, 24, 5⟩
def F.DEV_SPARE_ZE_IN_USE3 : Fld := ⟨R.DEV_SPARE_ZE, 31, 1⟩
def R.DEV_FAULT_INJ : Nat := 0x214
def F.DEV_FAULT_INJ_KIND : Fld := ⟨R.DEV_FAULT_INJ, 0, 2⟩
def F.DEV_FAULT_INJ_ENGINE : Fld := ⟨R.DEV_FAULT_INJ, 8, 7⟩
def F.DEV_FAULT_INJ_GO : Fld := ⟨R.DEV_FAULT_INJ, 16, 1⟩
def F.DEV_FAULT_INJ_RESULT : Fld := ⟨R.DEV_FAULT_INJ, 17, 2⟩

/-! ### CLK -/
def R.CLK_REF_CFG : Nat := 0x10000
def F.CLK_REF_CFG_A_EN : Fld := ⟨R.CLK_REF_CFG, 0, 1⟩
def F.CLK_REF_CFG_B_EN : Fld := ⟨R.CLK_REF_CFG, 1, 1⟩
def F.CLK_REF_CFG_PREF : Fld := ⟨R.CLK_REF_CFG, 2, 1⟩
def F.CLK_REF_CFG_REVERT : Fld := ⟨R.CLK_REF_CFG, 3, 1⟩
def R.CLK_REF_STATUS : Nat := 0x10004
def F.CLK_REF_STATUS_A_VALID : Fld := ⟨R.CLK_REF_STATUS, 0, 1⟩
def F.CLK_REF_STATUS_B_VALID : Fld := ⟨R.CLK_REF_STATUS, 1, 1⟩
def F.CLK_REF_STATUS_ACTIVE : Fld := ⟨R.CLK_REF_STATUS, 2, 1⟩
def F.CLK_REF_STATUS_HOLDOVER : Fld := ⟨R.CLK_REF_STATUS, 3, 1⟩
def F.CLK_REF_STATUS_BOTH_LOST : Fld := ⟨R.CLK_REF_STATUS, 4, 1⟩
def F.CLK_REF_STATUS_RO_READY : Fld := ⟨R.CLK_REF_STATUS, 5, 1⟩
def F.CLK_REF_STATUS_SLEWING : Fld := ⟨R.CLK_REF_STATUS, 6, 1⟩
def F.CLK_REF_STATUS_A_PPM : Fld := ⟨R.CLK_REF_STATUS, 16, 8⟩
def F.CLK_REF_STATUS_B_PPM : Fld := ⟨R.CLK_REF_STATUS, 24, 8⟩
def R.CLK_REF_CTRL : Nat := 0x10008
def F.CLK_REF_CTRL_SWITCH : Fld := ⟨R.CLK_REF_CTRL, 0, 1⟩
def R.CLK_DIV : Nat := 0x10010
def F.CLK_DIV_CORE_DIV : Fld := ⟨R.CLK_DIV, 0, 2⟩
def F.CLK_DIV_PIX_DIV : Fld := ⟨R.CLK_DIV, 2, 2⟩
def F.CLK_DIV_FAB_DIV : Fld := ⟨R.CLK_DIV, 4, 1⟩
def F.CLK_DIV_CFG_DIV : Fld := ⟨R.CLK_DIV, 5, 1⟩
def R.CLK_PLL_STATUS : Nat := 0x10014
def F.CLK_PLL_STATUS_MAIN : Fld := ⟨R.CLK_PLL_STATUS, 0, 1⟩
def F.CLK_PLL_STATUS_HBM : Fld := ⟨R.CLK_PLL_STATUS, 1, 1⟩
def F.CLK_PLL_STATUS_SREF : Fld := ⟨R.CLK_PLL_STATUS, 2, 1⟩
def F.CLK_PLL_STATUS_VID : Fld := ⟨R.CLK_PLL_STATUS, 4, 4⟩
def F.CLK_PLL_STATUS_AUD : Fld := ⟨R.CLK_PLL_STATUS, 8, 2⟩
def F.CLK_PLL_STATUS_SERDES_LOW : Fld := ⟨R.CLK_PLL_STATUS, 10, 20⟩
def R.CLK_PLL_STATUS2 : Nat := 0x10018
def F.CLK_PLL_STATUS2_SERDES_HIGH : Fld := ⟨R.CLK_PLL_STATUS2, 0, 10⟩
def R.CLK_GPIO_SAFE : Nat := 0x10020
def F.CLK_GPIO_SAFE_LEVEL : Fld := ⟨R.CLK_GPIO_SAFE, 0, 16⟩
def F.CLK_GPIO_SAFE_DRIVE : Fld := ⟨R.CLK_GPIO_SAFE, 16, 16⟩
def R.CLK_GATE_REQ : Nat := 0x10030
def F.CLK_GATE_REQ_BLOCK_ID : Fld := ⟨R.CLK_GATE_REQ, 0, 8⟩
def F.CLK_GATE_REQ_INSTANCE : Fld := ⟨R.CLK_GATE_REQ, 8, 8⟩
def F.CLK_GATE_REQ_OP : Fld := ⟨R.CLK_GATE_REQ, 16, 2⟩
def F.CLK_GATE_REQ_GO : Fld := ⟨R.CLK_GATE_REQ, 18, 1⟩
def F.CLK_GATE_REQ_RESULT : Fld := ⟨R.CLK_GATE_REQ, 19, 3⟩
def R.CLK_GATED0 : Nat := 0x10040
def F.CLK_GATED0_GATED : Fld := ⟨R.CLK_GATED0, 0, 28⟩
def R.CLK_GATED1 : Nat := 0x10044
def F.CLK_GATED1_GATED : Fld := ⟨R.CLK_GATED1, 0, 16⟩
def R.CLK_FM_CFG : Nat := 0x10050
def F.CLK_FM_CFG_TARGET : Fld := ⟨R.CLK_FM_CFG, 0, 5⟩
def F.CLK_FM_CFG_REF : Fld := ⟨R.CLK_FM_CFG, 8, 5⟩
def F.CLK_FM_CFG_SEL : Fld := ⟨R.CLK_FM_CFG, 16, 7⟩
def F.CLK_FM_CFG_GO : Fld := ⟨R.CLK_FM_CFG, 24, 1⟩
def F.CLK_FM_CFG_DONE : Fld := ⟨R.CLK_FM_CFG, 25, 1⟩
def F.CLK_FM_CFG_TIMEOUT : Fld := ⟨R.CLK_FM_CFG, 26, 1⟩
def R.CLK_FM_GATE : Nat := 0x10054
def F.CLK_FM_GATE_N : Fld := ⟨R.CLK_FM_GATE, 0, 24⟩
def R.CLK_FM_RESULT : Nat := 0x10058
def F.CLK_FM_RESULT_COUNT : Fld := ⟨R.CLK_FM_RESULT, 0, 32⟩
def R.CLK_CNT : Nat := 0x10060
def F.CLK_CNT_SWITCHOVERS : Fld := ⟨R.CLK_CNT, 0, 16⟩
def F.CLK_CNT_BOTH_LOST : Fld := ⟨R.CLK_CNT, 16, 8⟩
def F.CLK_CNT_GATE_BUSY : Fld := ⟨R.CLK_CNT, 24, 8⟩

/-! ### PWR -/
def R.PWR_AVS_CFG : Nat := 0x20000
def F.PWR_AVS_CFG_EN : Fld := ⟨R.PWR_AVS_CFG, 0, 1⟩
def F.PWR_AVS_CFG_TGT_TAPS : Fld := ⟨R.PWR_AVS_CFG, 1, 5⟩
def F.PWR_AVS_CFG_HYST_TAPS : Fld := ⟨R.PWR_AVS_CFG, 6, 4⟩
def R.PWR_AVS_LIMIT : Nat := 0x20004
def F.PWR_AVS_LIMIT_VMIN_MV : Fld := ⟨R.PWR_AVS_LIMIT, 0, 10⟩
def F.PWR_AVS_LIMIT_VMAX_MV : Fld := ⟨R.PWR_AVS_LIMIT, 16, 10⟩
def R.PWR_AVS_STATUS : Nat := 0x20008
def F.PWR_AVS_STATUS_TARGET_MV : Fld := ⟨R.PWR_AVS_STATUS, 0, 10⟩
def F.PWR_AVS_STATUS_STRETCH : Fld := ⟨R.PWR_AVS_STATUS, 12, 1⟩
def F.PWR_AVS_STATUS_BUS_FAIL : Fld := ⟨R.PWR_AVS_STATUS, 13, 1⟩
def F.PWR_AVS_STATUS_MIN_SLACK : Fld := ⟨R.PWR_AVS_STATUS, 16, 5⟩
def F.PWR_AVS_STATUS_MON : Fld := ⟨R.PWR_AVS_STATUS, 24, 6⟩
def R.PWR_AVS_CNT : Nat := 0x2000C
def F.PWR_AVS_CNT_DROOPS : Fld := ⟨R.PWR_AVS_CNT, 0, 16⟩
def F.PWR_AVS_CNT_BUS_ERRS : Fld := ⟨R.PWR_AVS_CNT, 16, 16⟩
def R.PWR_RAIL_STATUS : Nat := 0x20010
def F.PWR_RAIL_STATUS_CORE_WARN : Fld := ⟨R.PWR_RAIL_STATUS, 0, 1⟩
def F.PWR_RAIL_STATUS_HBM_WARN : Fld := ⟨R.PWR_RAIL_STATUS, 1, 1⟩
def F.PWR_RAIL_STATUS_IO_WARN : Fld := ⟨R.PWR_RAIL_STATUS, 2, 1⟩
def F.PWR_RAIL_STATUS_PFAIL : Fld := ⟨R.PWR_RAIL_STATUS, 3, 1⟩
def F.PWR_RAIL_STATUS_WARN_ACTIVE : Fld := ⟨R.PWR_RAIL_STATUS, 4, 1⟩
def F.PWR_RAIL_STATUS_CORE_ARMED : Fld := ⟨R.PWR_RAIL_STATUS, 5, 1⟩
def F.PWR_RAIL_STATUS_HBM_ARMED : Fld := ⟨R.PWR_RAIL_STATUS, 6, 1⟩
def R.PWR_RAIL_MV (i : Nat) : Nat := 0x20020 + 4 * i
def F.PWR_RAIL_MV_MV (i : Nat) : Fld := ⟨R.PWR_RAIL_MV i, 0, 12⟩
def R.PWR_WARN_CNT : Nat := 0x20040
def F.PWR_WARN_CNT_WARNS : Fld := ⟨R.PWR_WARN_CNT, 0, 16⟩
def R.PWR_BUS_CFG : Nat := 0x20050
def F.PWR_BUS_CFG_MODE : Fld := ⟨R.PWR_BUS_CFG, 0, 1⟩
def F.PWR_BUS_CFG_AVS_RAIL : Fld := ⟨R.PWR_BUS_CFG, 1, 4⟩
def F.PWR_BUS_CFG_PMB_ADDR : Fld := ⟨R.PWR_BUS_CFG, 8, 7⟩
def R.PWR_MON (i : Nat) : Nat := 0x20100 + 4 * i
def F.PWR_MON_SLACK (i : Nat) : Fld := ⟨R.PWR_MON i, 0, 5⟩
def F.PWR_MON_DROOPS (i : Nat) : Fld := ⟨R.PWR_MON i, 8, 8⟩

/-! ### THERM -/
def R.THERM_CFG : Nat := 0x30000
def F.THERM_CFG_DIE_WARN_C : Fld := ⟨R.THERM_CFG, 0, 8⟩
def F.THERM_CFG_DIE_THROTTLE_C : Fld := ⟨R.THERM_CFG, 8, 8⟩
def F.THERM_CFG_HBM_WARN_C : Fld := ⟨R.THERM_CFG, 16, 8⟩
def F.THERM_CFG_HBM_THROTTLE_C : Fld := ⟨R.THERM_CFG, 24, 8⟩
def R.THERM_RISE : Nat := 0x30004
def F.THERM_RISE_RISE_LIMIT : Fld := ⟨R.THERM_RISE, 0, 8⟩
def R.THERM_STATUS : Nat := 0x30008
def F.THERM_STATUS_FAST : Fld := ⟨R.THERM_STATUS, 0, 1⟩
def F.THERM_STATUS_WARN : Fld := ⟨R.THERM_STATUS, 2, 1⟩
def F.THERM_STATUS_THROTTLE : Fld := ⟨R.THERM_STATUS, 3, 1⟩
def F.THERM_STATUS_EARLY : Fld := ⟨R.THERM_STATUS, 4, 1⟩
def F.THERM_STATUS_HBM_HOTTEST : Fld := ⟨R.THERM_STATUS, 5, 1⟩
def F.THERM_STATUS_HOTTEST_SRC : Fld := ⟨R.THERM_STATUS, 8, 8⟩
def F.THERM_STATUS_HOTTEST : Fld := ⟨R.THERM_STATUS, 16, 16⟩
def R.THERM_TRIP_STATUS : Nat := 0x3000C
def F.THERM_TRIP_STATUS_CAUSE : Fld := ⟨R.THERM_TRIP_STATUS, 0, 2⟩
def F.THERM_TRIP_STATUS_SRC : Fld := ⟨R.THERM_TRIP_STATUS, 2, 6⟩
def F.THERM_TRIP_STATUS_RESTARTS : Fld := ⟨R.THERM_TRIP_STATUS, 8, 2⟩
def F.THERM_TRIP_STATUS_LOCKOUT : Fld := ⟨R.THERM_TRIP_STATUS, 10, 1⟩
def R.THERM_CNT : Nat := 0x30010
def F.THERM_CNT_THROTTLES : Fld := ⟨R.THERM_CNT, 0, 16⟩
def F.THERM_CNT_EARLIES : Fld := ⟨R.THERM_CNT, 16, 16⟩
def R.THERM_TS (i : Nat) : Nat := 0x30100 + 4 * i
def F.THERM_TS_TEMP (i : Nat) : Fld := ⟨R.THERM_TS i, 0, 16⟩
def F.THERM_TS_VALID (i : Nat) : Fld := ⟨R.THERM_TS i, 16, 1⟩
def R.THERM_HBM (i : Nat) : Nat := 0x30200 + 4 * i
def F.THERM_HBM_TEMP (i : Nat) : Fld := ⟨R.THERM_HBM i, 0, 16⟩
def F.THERM_HBM_VALID (i : Nat) : Fld := ⟨R.THERM_HBM i, 16, 1⟩

/-! ### BOOT -/
def R.KEEP_ADDR : Nat := 0x40100
def F.KEEP_ADDR_WORD : Fld := ⟨R.KEEP_ADDR, 2, 21⟩
def R.KEEP_DATA : Nat := 0x40104
def F.KEEP_DATA_DATA : Fld := ⟨R.KEEP_DATA, 0, 32⟩
def R.KEEP_STATUS : Nat := 0x40108
def F.KEEP_STATUS_BUSY : Fld := ⟨R.KEEP_STATUS, 0, 1⟩
def F.KEEP_STATUS_RESULT : Fld := ⟨R.KEEP_STATUS, 1, 2⟩
def R.FUSE_ID : Nat := 0x40200
def F.FUSE_ID_PART : Fld := ⟨R.FUSE_ID, 0, 16⟩
def F.FUSE_ID_STEP : Fld := ⟨R.FUSE_ID, 16, 8⟩
def F.FUSE_ID_TEST_LOCK : Fld := ⟨R.FUSE_ID, 24, 1⟩
def R.FUSE_SERIAL_LO : Nat := 0x40204
def F.FUSE_SERIAL_LO_SERIAL : Fld := ⟨R.FUSE_SERIAL_LO, 0, 32⟩
def R.FUSE_SERIAL_HI : Nat := 0x40208
def F.FUSE_SERIAL_HI_SERIAL : Fld := ⟨R.FUSE_SERIAL_HI, 0, 32⟩
def R.FUSE_KEYS : Nat := 0x4020C
def F.FUSE_KEYS_SLOT0 : Fld := ⟨R.FUSE_KEYS, 0, 2⟩
def F.FUSE_KEYS_SLOT1 : Fld := ⟨R.FUSE_KEYS, 2, 2⟩
def F.FUSE_KEYS_SLOT2 : Fld := ⟨R.FUSE_KEYS, 4, 2⟩
def F.FUSE_KEYS_SLOT3 : Fld := ⟨R.FUSE_KEYS, 6, 2⟩
def R.FUSE_PROG_HASH (i : Nat) : Nat := 0x40220 + 4 * i
def F.FUSE_PROG_HASH_HASH (i : Nat) : Fld := ⟨R.FUSE_PROG_HASH i, 0, 32⟩
def R.FUSE_PROG_CTRL : Nat := 0x40240
def F.FUSE_PROG_CTRL_KEY : Fld := ⟨R.FUSE_PROG_CTRL, 0, 8⟩
def F.FUSE_PROG_CTRL_SLOT : Fld := ⟨R.FUSE_PROG_CTRL, 8, 2⟩
def F.FUSE_PROG_CTRL_OP : Fld := ⟨R.FUSE_PROG_CTRL, 10, 2⟩
def F.FUSE_PROG_CTRL_GO : Fld := ⟨R.FUSE_PROG_CTRL, 12, 1⟩
def F.FUSE_PROG_CTRL_RESULT : Fld := ⟨R.FUSE_PROG_CTRL, 13, 3⟩

/-! ### EVT -/
def R.EVT_RING_BASE : Nat := 0x80000
def F.EVT_RING_BASE_BASE : Fld := ⟨R.EVT_RING_BASE, 0, 24⟩
def R.EVT_PROD : Nat := 0x80004
def F.EVT_PROD_IDX : Fld := ⟨R.EVT_PROD, 0, 16⟩
def R.EVT_CONS : Nat := 0x80008
def F.EVT_CONS_IDX : Fld := ⟨R.EVT_CONS, 0, 16⟩
def R.EVT_IRQ_CFG : Nat := 0x8000C
def F.EVT_IRQ_CFG_IRQ_MIN : Fld := ⟨R.EVT_IRQ_CFG, 0, 3⟩
def F.EVT_IRQ_CFG_MSI_MIN : Fld := ⟨R.EVT_IRQ_CFG, 3, 3⟩
def F.EVT_IRQ_CFG_VECTOR : Fld := ⟨R.EVT_IRQ_CFG, 8, 8⟩
def F.EVT_IRQ_CFG_COALESCE_US : Fld := ⟨R.EVT_IRQ_CFG, 16, 16⟩
def R.EVT_IRQ_STATUS : Nat := 0x80010
def F.EVT_IRQ_STATUS_SEV : Fld := ⟨R.EVT_IRQ_STATUS, 0, 5⟩
def R.EVT_STATUS : Nat := 0x80014
def F.EVT_STATUS_LOST : Fld := ⟨R.EVT_STATUS, 0, 16⟩
def F.EVT_STATUS_HELD : Fld := ⟨R.EVT_STATUS, 16, 8⟩

/-! ### KSL -/
def R.KSL_CFG : Nat := 0x100000
def F.KSL_CFG_SPREAD : Fld := ⟨R.KSL_CFG, 0, 2⟩
def F.KSL_CFG_SREF_EN : Fld := ⟨R.KSL_CFG, 4, 4⟩
def F.KSL_CFG_BC_TIMEOUT_US : Fld := ⟨R.KSL_CFG, 8, 8⟩
def R.KSL_BOND : Nat := 0x100004
def F.KSL_BOND_BOND : Fld := ⟨R.KSL_BOND, 0, 16⟩
def R.KSL_CTRL (i : Nat) : Nat := 0x101000 + 0x1000 * i
def F.KSL_CTRL_EN (i : Nat) : Fld := ⟨R.KSL_CTRL i, 0, 1⟩
def F.KSL_CTRL_RATE (i : Nat) : Fld := ⟨R.KSL_CTRL i, 1, 3⟩
def F.KSL_CTRL_LANES (i : Nat) : Fld := ⟨R.KSL_CTRL i, 4, 2⟩
def F.KSL_CTRL_SPARE_PARITY (i : Nat) : Fld := ⟨R.KSL_CTRL i, 6, 1⟩
def F.KSL_CTRL_TRIG_SRC (i : Nat) : Fld := ⟨R.KSL_CTRL i, 8, 2⟩
def F.KSL_CTRL_RETRAIN (i : Nat) : Fld := ⟨R.KSL_CTRL i, 16, 1⟩
def R.KSL_STATUS (i : Nat) : Nat := 0x101004 + 0x1000 * i
def F.KSL_STATUS_LINK_UP (i : Nat) : Fld := ⟨R.KSL_STATUS i, 0, 1⟩
def F.KSL_STATUS_IN_EI (i : Nat) : Fld := ⟨R.KSL_STATUS i, 1, 1⟩
def F.KSL_STATUS_TRAINING (i : Nat) : Fld := ⟨R.KSL_STATUS i, 2, 1⟩
def F.KSL_STATUS_REBUILDING (i : Nat) : Fld := ⟨R.KSL_STATUS i, 3, 1⟩
def F.KSL_STATUS_SPARE_CARRIES (i : Nat) : Fld := ⟨R.KSL_STATUS i, 4, 4⟩
def F.KSL_STATUS_MARKER_COUNT (i : Nat) : Fld := ⟨R.KSL_STATUS i, 8, 8⟩
def F.KSL_STATUS_SKEW_NS (i : Nat) : Fld := ⟨R.KSL_STATUS i, 16, 10⟩
def R.KSL_ERR_CFG (i : Nat) : Nat := 0x101008 + 0x1000 * i
def F.KSL_ERR_CFG_BIP_LIMIT (i : Nat) : Fld := ⟨R.KSL_ERR_CFG i, 0, 8⟩
def F.KSL_ERR_CFG_WINDOW (i : Nat) : Fld := ⟨R.KSL_ERR_CFG i, 8, 8⟩
def R.KSL_ERRCNT (i : Nat) : Nat := 0x10100C + 0x1000 * i
def F.KSL_ERRCNT_LE_CRC_ERR (i : Nat) : Fld := ⟨R.KSL_ERRCNT i, 0, 16⟩
def F.KSL_ERRCNT_HDR_CRC_ERR (i : Nat) : Fld := ⟨R.KSL_ERRCNT i, 16, 16⟩
def R.KSL_EVTCNT (i : Nat) : Nat := 0x101010 + 0x1000 * i
def F.KSL_EVTCNT_RELOCK_FAIL (i : Nat) : Fld := ⟨R.KSL_EVTCNT i, 0, 8⟩
def F.KSL_EVTCNT_TRAININGS (i : Nat) : Fld := ⟨R.KSL_EVTCNT i, 8, 8⟩
def F.KSL_EVTCNT_BC_TIMEOUTS (i : Nat) : Fld := ⟨R.KSL_EVTCNT i, 16, 8⟩
def F.KSL_EVTCNT_DESKEW_FAILS (i : Nat) : Fld := ⟨R.KSL_EVTCNT i, 24, 8⟩
def R.KSL_TRIG_CAL (i : Nat) : Nat := 0x101014 + 0x1000 * i
def F.KSL_TRIG_CAL_ECHO_RTT (i : Nat) : Fld := ⟨R.KSL_TRIG_CAL i, 0, 12⟩
def F.KSL_TRIG_CAL_ONE_WAY (i : Nat) : Fld := ⟨R.KSL_TRIG_CAL i, 16, 12⟩
def R.KSL_TRIG_LAT (i : Nat) : Nat := 0x101018 + 0x1000 * i
def F.KSL_TRIG_LAT_TRIG_LAT (i : Nat) : Fld := ⟨R.KSL_TRIG_LAT i, 0, 12⟩
def F.KSL_TRIG_LAT_TRIG_ADJ (i : Nat) : Fld := ⟨R.KSL_TRIG_LAT i, 16, 12⟩
def R.KSL_XTRIG (i : Nat) : Nat := 0x10101C + 0x1000 * i
def F.KSL_XTRIG_WIDTH (i : Nat) : Fld := ⟨R.KSL_XTRIG i, 0, 16⟩
def R.KSL_BC_ADDR (i : Nat) : Nat := 0x101020 + 0x1000 * i
def F.KSL_BC_ADDR_ADDR (i : Nat) : Fld := ⟨R.KSL_BC_ADDR i, 0, 32⟩
def R.KSL_BC_DATA (i : Nat) : Nat := 0x101024 + 0x1000 * i
def F.KSL_BC_DATA_DATA (i : Nat) : Fld := ⟨R.KSL_BC_DATA i, 0, 32⟩
def R.KSL_BC_CTRL (i : Nat) : Nat := 0x101028 + 0x1000 * i
def F.KSL_BC_CTRL_GO (i : Nat) : Fld := ⟨R.KSL_BC_CTRL i, 0, 1⟩
def F.KSL_BC_CTRL_READ (i : Nat) : Fld := ⟨R.KSL_BC_CTRL i, 1, 1⟩
def F.KSL_BC_CTRL_RESULT (i : Nat) : Fld := ⟨R.KSL_BC_CTRL i, 2, 2⟩
def R.KSL_SENSOR_STATUS (i : Nat) : Nat := 0x10102C + 0x1000 * i
def F.KSL_SENSOR_STATUS_STATUS (i : Nat) : Fld := ⟨R.KSL_SENSOR_STATUS i, 0, 32⟩
def R.KSL_LANE_STATUS (i : Nat) (j : Nat) : Nat := 0x101100 + 0x1000 * i + 0x20 * j
def F.KSL_LANE_STATUS_BLOCK_LOCK (i : Nat) (j : Nat) : Fld := ⟨R.KSL_LANE_STATUS i j, 0, 1⟩
def F.KSL_LANE_STATUS_CTLE_DB (i : Nat) (j : Nat) : Fld := ⟨R.KSL_LANE_STATUS i j, 1, 5⟩
def F.KSL_LANE_STATUS_CARRIES (i : Nat) (j : Nat) : Fld := ⟨R.KSL_LANE_STATUS i j, 8, 4⟩
def R.KSL_LANE_ERR (i : Nat) (j : Nat) : Nat := 0x101104 + 0x1000 * i + 0x20 * j
def F.KSL_LANE_ERR_SYNC_ERR (i : Nat) (j : Nat) : Fld := ⟨R.KSL_LANE_ERR i j, 0, 16⟩
def F.KSL_LANE_ERR_BIP_ERR (i : Nat) (j : Nat) : Fld := ⟨R.KSL_LANE_ERR i j, 16, 16⟩
def R.KSL_LANE_DFE (i : Nat) (j : Nat) : Nat := 0x101108 + 0x1000 * i + 0x20 * j
def F.KSL_LANE_DFE_DFE (i : Nat) (j : Nat) : Fld := ⟨R.KSL_LANE_DFE i j, 0, 30⟩
def R.KSL_LANE_EYE (i : Nat) (j : Nat) : Nat := 0x10110C + 0x1000 * i + 0x20 * j
def F.KSL_LANE_EYE_PHASE (i : Nat) (j : Nat) : Fld := ⟨R.KSL_LANE_EYE i j, 0, 6⟩
def F.KSL_LANE_EYE_VOLT (i : Nat) (j : Nat) : Fld := ⟨R.KSL_LANE_EYE i j, 6, 7⟩
def F.KSL_LANE_EYE_DWELL (i : Nat) (j : Nat) : Fld := ⟨R.KSL_LANE_EYE i j, 13, 4⟩
def F.KSL_LANE_EYE_GO (i : Nat) (j : Nat) : Fld := ⟨R.KSL_LANE_EYE i j, 20, 1⟩
def R.KSL_LANE_EYE_RESULT (i : Nat) (j : Nat) : Nat := 0x101110 + 0x1000 * i + 0x20 * j
def F.KSL_LANE_EYE_RESULT_ERRORS (i : Nat) (j : Nat) : Fld := ⟨R.KSL_LANE_EYE_RESULT i j, 0, 32⟩

/-! ### CAP -/
def R.CAP_EXP_COMMIT : Nat := 0x200000
def F.CAP_EXP_COMMIT_CTX_MASK : Fld := ⟨R.CAP_EXP_COMMIT, 0, 16⟩
def R.CAP_WG_CFG (i : Nat) : Nat := 0x200100 + 0x40 * i
def F.CAP_WG_CFG_EN (i : Nat) : Fld := ⟨R.CAP_WG_CFG i, 0, 1⟩
def F.CAP_WG_CFG_ENGINES (i : Nat) : Fld := ⟨R.CAP_WG_CFG i, 1, 5⟩
def R.CAP_WG_PERIOD (i : Nat) : Nat := 0x200104 + 0x40 * i
def F.CAP_WG_PERIOD_PERIOD_NS (i : Nat) : Fld := ⟨R.CAP_WG_PERIOD i, 0, 32⟩
def R.CAP_WG_EPOCH_LO (i : Nat) : Nat := 0x200108 + 0x40 * i
def F.CAP_WG_EPOCH_LO_EPOCH (i : Nat) : Fld := ⟨R.CAP_WG_EPOCH_LO i, 0, 32⟩
def R.CAP_WG_EPOCH_HI (i : Nat) : Nat := 0x20010C + 0x40 * i
def F.CAP_WG_EPOCH_HI_EPOCH (i : Nat) : Fld := ⟨R.CAP_WG_EPOCH_HI i, 0, 32⟩
def R.CAP_WG_STATUS (i : Nat) : Nat := 0x200110 + 0x40 * i
def F.CAP_WG_STATUS_SLOT (i : Nat) : Fld := ⟨R.CAP_WG_STATUS i, 0, 4⟩
def F.CAP_WG_STATUS_BUSY (i : Nat) : Fld := ⟨R.CAP_WG_STATUS i, 4, 1⟩
def F.CAP_WG_STATUS_DEFERRED (i : Nat) : Fld := ⟨R.CAP_WG_STATUS i, 5, 1⟩
def F.CAP_WG_STATUS_CTX (i : Nat) : Fld := ⟨R.CAP_WG_STATUS i, 8, 4⟩
def F.CAP_WG_STATUS_PENDING (i : Nat) : Fld := ⟨R.CAP_WG_STATUS i, 16, 4⟩
def F.CAP_WG_STATUS_RESIDENT (i : Nat) : Fld := ⟨R.CAP_WG_STATUS i, 24, 8⟩
def R.CAP_WG_RES_LIST (i : Nat) : Nat := 0x200114 + 0x40 * i
def F.CAP_WG_RES_LIST_LIST (i : Nat) : Fld := ⟨R.CAP_WG_RES_LIST i, 0, 20⟩
def R.CAP_BIND (i : Nat) : Nat := 0x201000 + 0x800 * i
def F.CAP_BIND_EN (i : Nat) : Fld := ⟨R.CAP_BIND i, 0, 1⟩
def F.CAP_BIND_PORT (i : Nat) : Fld := ⟨R.CAP_BIND i, 1, 3⟩
def F.CAP_BIND_ALLOC (i : Nat) : Fld := ⟨R.CAP_BIND i, 4, 1⟩
def F.CAP_BIND_UNIT (i : Nat) : Fld := ⟨R.CAP_BIND i, 8, 4⟩
def F.CAP_BIND_PRIO (i : Nat) : Fld := ⟨R.CAP_BIND i, 12, 3⟩
def F.CAP_BIND_PLAN (i : Nat) : Fld := ⟨R.CAP_BIND i, 16, 2⟩
def R.CAP_GEOM (i : Nat) : Nat := 0x201004 + 0x800 * i
def F.CAP_GEOM_WIDTH (i : Nat) : Fld := ⟨R.CAP_GEOM i, 0, 16⟩
def F.CAP_GEOM_HEIGHT (i : Nat) : Fld := ⟨R.CAP_GEOM i, 16, 16⟩
def R.CAP_FMT (i : Nat) : Nat := 0x201008 + 0x800 * i
def F.CAP_FMT_DEPTH (i : Nat) : Fld := ⟨R.CAP_FMT i, 0, 2⟩
def F.CAP_FMT_READOUTS (i : Nat) : Fld := ⟨R.CAP_FMT i, 2, 2⟩
def F.CAP_FMT_CFA (i : Nat) : Fld := ⟨R.CAP_FMT i, 4, 2⟩
def F.CAP_FMT_PIX_PAD (i : Nat) : Fld := ⟨R.CAP_FMT i, 6, 1⟩
def F.CAP_FMT_LINE_PAD (i : Nat) : Fld := ⟨R.CAP_FMT i, 7, 1⟩
def F.CAP_FMT_PAD_BLACK (i : Nat) : Fld := ⟨R.CAP_FMT i, 16, 16⟩
def R.CAP_TIMING (i : Nat) : Nat := 0x20100C + 0x800 * i
def F.CAP_TIMING_PERIOD_NS (i : Nat) : Fld := ⟨R.CAP_TIMING i, 0, 32⟩
def R.CAP_SLACK (i : Nat) : Nat := 0x201010 + 0x800 * i
def F.CAP_SLACK_DEADLINE_SLACK_US (i : Nat) : Fld := ⟨R.CAP_SLACK i, 0, 16⟩
def F.CAP_SLACK_EARLY_MARGIN_US (i : Nat) : Fld := ⟨R.CAP_SLACK i, 16, 16⟩
def R.CAP_FS_DELAY (i : Nat) : Nat := 0x201014 + 0x800 * i
def F.CAP_FS_DELAY_FS_DELAY_NS (i : Nat) : Fld := ⟨R.CAP_FS_DELAY i, 0, 32⟩
def R.CAP_WHEEL (i : Nat) : Nat := 0x201018 + 0x800 * i
def F.CAP_WHEEL_SLOT_MASK (i : Nat) : Fld := ⟨R.CAP_WHEEL i, 0, 16⟩
def F.CAP_WHEEL_DEFER_LIMIT_US (i : Nat) : Fld := ⟨R.CAP_WHEEL i, 16, 16⟩
def R.CAP_LATCH (i : Nat) : Nat := 0x20101C + 0x800 * i
def F.CAP_LATCH_LATCH_DELAY (i : Nat) : Fld := ⟨R.CAP_LATCH i, 0, 2⟩
def R.CAP_EXP_CNT (i : Nat) : Nat := 0x201020 + 0x800 * i
def F.CAP_EXP_CNT_COUNT (i : Nat) : Fld := ⟨R.CAP_EXP_CNT i, 0, 3⟩
def R.CAP_EXP_ADDR (i : Nat) (j : Nat) : Nat := 0x201040 + 0x800 * i + 8 * j
def F.CAP_EXP_ADDR_ADDR (i : Nat) (j : Nat) : Fld := ⟨R.CAP_EXP_ADDR i j, 0, 32⟩
def R.CAP_EXP_VAL (i : Nat) (j : Nat) : Nat := 0x201044 + 0x800 * i + 8 * j
def F.CAP_EXP_VAL_VAL (i : Nat) (j : Nat) : Fld := ⟨R.CAP_EXP_VAL i j, 0, 32⟩
def R.CAP_EXP_STATUS (i : Nat) : Nat := 0x201080 + 0x800 * i
def F.CAP_EXP_STATUS_SID (i : Nat) : Fld := ⟨R.CAP_EXP_STATUS i, 0, 16⟩
def F.CAP_EXP_STATUS_STATE (i : Nat) : Fld := ⟨R.CAP_EXP_STATUS i, 16, 3⟩
def F.CAP_EXP_STATUS_SUPERSEDED (i : Nat) : Fld := ⟨R.CAP_EXP_STATUS i, 24, 8⟩
def R.CAP_EXP_APPLY (i : Nat) : Nat := 0x201084 + 0x800 * i
def F.CAP_EXP_APPLY_APPLY_FSEQ (i : Nat) : Fld := ⟨R.CAP_EXP_APPLY i, 0, 32⟩
def R.CAP_FSEQ (i : Nat) : Nat := 0x201090 + 0x800 * i
def F.CAP_FSEQ_FSEQ (i : Nat) : Fld := ⟨R.CAP_FSEQ i, 0, 32⟩
def R.CAP_SID (i : Nat) : Nat := 0x201094 + 0x800 * i
def F.CAP_SID_SID (i : Nat) : Fld := ⟨R.CAP_SID i, 0, 16⟩
def R.CAP_STATS_ADDR (i : Nat) : Nat := 0x201098 + 0x800 * i
def F.CAP_STATS_ADDR_BASE (i : Nat) : Fld := ⟨R.CAP_STATS_ADDR i, 0, 24⟩
def F.CAP_STATS_ADDR_STRIDE (i : Nat) : Fld := ⟨R.CAP_STATS_ADDR i, 24, 8⟩
def R.CAP_CNT0 (i : Nat) : Nat := 0x2010A0 + 0x800 * i
def F.CAP_CNT0_MISSING (i : Nat) : Fld := ⟨R.CAP_CNT0 i, 0, 16⟩
def F.CAP_CNT0_EXCESS (i : Nat) : Fld := ⟨R.CAP_CNT0 i, 16, 16⟩
def R.CAP_CNT1 (i : Nat) : Nat := 0x2010A4 + 0x800 * i
def F.CAP_CNT1_DEFERRED (i : Nat) : Fld := ⟨R.CAP_CNT1 i, 0, 16⟩
def F.CAP_CNT1_DEV_SKIPPED (i : Nat) : Fld := ⟨R.CAP_CNT1 i, 16, 16⟩
def R.CAP_CNT2 (i : Nat) : Nat := 0x2010A8 + 0x800 * i
def F.CAP_CNT2_PADDED (i : Nat) : Fld := ⟨R.CAP_CNT2 i, 0, 16⟩
def F.CAP_CNT2_CUT (i : Nat) : Fld := ⟨R.CAP_CNT2 i, 16, 16⟩
def R.CAP_LAST_FLAGS (i : Nat) : Nat := 0x2010AC + 0x800 * i
def F.CAP_LAST_FLAGS_FLAGS (i : Nat) : Fld := ⟨R.CAP_LAST_FLAGS i, 0, 15⟩
def R.CAP_CNT3 (i : Nat) : Nat := 0x2010B0 + 0x800 * i
def F.CAP_CNT3_RAW_DROPPED (i : Nat) : Fld := ⟨R.CAP_CNT3 i, 0, 16⟩

/-! ### RAWC -/
def R.RAWC_DMAP_CTRL : Nat := 0x300000
def F.RAWC_DMAP_CTRL_SOURCE : Fld := ⟨R.RAWC_DMAP_CTRL, 0, 1⟩
def F.RAWC_DMAP_CTRL_LEARN_EN : Fld := ⟨R.RAWC_DMAP_CTRL, 1, 1⟩
def F.RAWC_DMAP_CTRL_JOURNAL_PERIOD_S : Fld := ⟨R.RAWC_DMAP_CTRL, 8, 8⟩
def R.RAWC_DMAP_PORT (i : Nat) : Nat := 0x300010 + 4 * i
def F.RAWC_DMAP_PORT_FIRST (i : Nat) : Fld := ⟨R.RAWC_DMAP_PORT i, 0, 4⟩
def F.RAWC_DMAP_PORT_COUNT (i : Nat) : Fld := ⟨R.RAWC_DMAP_PORT i, 4, 5⟩
def R.RAWC_DMAP_STATUS (i : Nat) : Nat := 0x300030 + 4 * i
def F.RAWC_DMAP_STATUS_USED (i : Nat) : Fld := ⟨R.RAWC_DMAP_STATUS i, 0, 21⟩
def F.RAWC_DMAP_STATUS_PENDING (i : Nat) : Fld := ⟨R.RAWC_DMAP_STATUS i, 21, 9⟩
def R.RAWC_DMAP_GEN (i : Nat) : Nat := 0x300050 + 4 * i
def F.RAWC_DMAP_GEN_GEN (i : Nat) : Fld := ⟨R.RAWC_DMAP_GEN i, 0, 16⟩
def R.RAWC_DMAP_EDIT_XY : Nat := 0x300070
def F.RAWC_DMAP_EDIT_XY_X : Fld := ⟨R.RAWC_DMAP_EDIT_XY, 0, 14⟩
def F.RAWC_DMAP_EDIT_XY_Y : Fld := ⟨R.RAWC_DMAP_EDIT_XY, 16, 14⟩
def R.RAWC_DMAP_EDIT_CMD : Nat := 0x300074
def F.RAWC_DMAP_EDIT_CMD_OP : Fld := ⟨R.RAWC_DMAP_EDIT_CMD, 0, 2⟩
def F.RAWC_DMAP_EDIT_CMD_PORT : Fld := ⟨R.RAWC_DMAP_EDIT_CMD, 2, 3⟩
def F.RAWC_DMAP_EDIT_CMD_CLASS : Fld := ⟨R.RAWC_DMAP_EDIT_CMD, 8, 4⟩
def F.RAWC_DMAP_EDIT_CMD_GO : Fld := ⟨R.RAWC_DMAP_EDIT_CMD, 16, 1⟩
def F.RAWC_DMAP_EDIT_CMD_RESULT : Fld := ⟨R.RAWC_DMAP_EDIT_CMD, 17, 3⟩
def R.RAWC_LEARN_CFG : Nat := 0x300080
def F.RAWC_LEARN_CFG_N : Fld := ⟨R.RAWC_LEARN_CFG, 0, 7⟩
def F.RAWC_LEARN_CFG_M : Fld := ⟨R.RAWC_LEARN_CFG, 8, 7⟩
def R.RAWC_JOURNAL : Nat := 0x300084
def F.RAWC_JOURNAL_USED : Fld := ⟨R.RAWC_JOURNAL, 0, 17⟩
def F.RAWC_JOURNAL_FOLDS : Fld := ⟨R.RAWC_JOURNAL, 24, 8⟩
def R.RAWC_CFG (i : Nat) : Nat := 0x301000 + 0x100 * i
def F.RAWC_CFG_DMAP_EN (i : Nat) : Fld := ⟨R.RAWC_CFG i, 0, 1⟩
def F.RAWC_CFG_DYN_DETECT (i : Nat) : Fld := ⟨R.RAWC_CFG i, 1, 1⟩
def F.RAWC_CFG_DYN_CORRECT (i : Nat) : Fld := ⟨R.RAWC_CFG i, 2, 1⟩
def F.RAWC_CFG_CONCEAL_EN (i : Nat) : Fld := ⟨R.RAWC_CFG i, 3, 1⟩
def F.RAWC_CFG_FF_EN (i : Nat) : Fld := ⟨R.RAWC_CFG i, 4, 1⟩
def F.RAWC_CFG_ROW_EN (i : Nat) : Fld := ⟨R.RAWC_CFG i, 5, 1⟩
def F.RAWC_CFG_COL_EN (i : Nat) : Fld := ⟨R.RAWC_CFG i, 6, 1⟩
def R.RAWC_OB (i : Nat) : Nat := 0x301004 + 0x100 * i
def F.RAWC_OB_OB_LEFT (i : Nat) : Fld := ⟨R.RAWC_OB i, 0, 8⟩
def F.RAWC_OB_OB_RIGHT (i : Nat) : Fld := ⟨R.RAWC_OB i, 8, 8⟩
def F.RAWC_OB_OB_SHIFT (i : Nat) : Fld := ⟨R.RAWC_OB i, 16, 4⟩
def R.RAWC_BLACK (i : Nat) : Nat := 0x301008 + 0x100 * i
def F.RAWC_BLACK_BLACK_LEVEL (i : Nat) : Fld := ⟨R.RAWC_BLACK i, 0, 16⟩
def F.RAWC_BLACK_PEDESTAL (i : Nat) : Fld := ⟨R.RAWC_BLACK i, 16, 16⟩
def R.RAWC_SAT (i : Nat) (j : Nat) : Nat := 0x30100C + 0x100 * i + 4 * j
def F.RAWC_SAT_SAT (i : Nat) (j : Nat) : Fld := ⟨R.RAWC_SAT i j, 0, 16⟩
def R.RAWC_NOISE_A (i : Nat) (j : Nat) : Nat := 0x301020 + 0x100 * i + 8 * j
def F.RAWC_NOISE_A_A (i : Nat) (j : Nat) : Fld := ⟨R.RAWC_NOISE_A i j, 0, 24⟩
def R.RAWC_NOISE_B (i : Nat) (j : Nat) : Nat := 0x301024 + 0x100 * i + 8 * j
def F.RAWC_NOISE_B_B_Q16 (i : Nat) (j : Nat) : Fld := ⟨R.RAWC_NOISE_B i j, 0, 24⟩
def R.RAWC_MERGE (i : Nat) : Nat := 0x301038 + 0x100 * i
def F.RAWC_MERGE_MOTION_K (i : Nat) : Fld := ⟨R.RAWC_MERGE i, 0, 8⟩
def R.RAWC_K16_A (i : Nat) : Nat := 0x30103C + 0x100 * i
def F.RAWC_K16_A_A (i : Nat) : Fld := ⟨R.RAWC_K16_A i, 0, 24⟩
def R.RAWC_K16_B (i : Nat) : Nat := 0x301040 + 0x100 * i
def F.RAWC_K16_B_B_Q16 (i : Nat) : Fld := ⟨R.RAWC_K16_B i, 0, 24⟩
def R.RAWC_K16_BLACK (i : Nat) : Nat := 0x301044 + 0x100 * i
def F.RAWC_K16_BLACK_BLACK (i : Nat) : Fld := ⟨R.RAWC_K16_BLACK i, 0, 16⟩
def R.RAWC_DET (i : Nat) : Nat := 0x301048 + 0x100 * i
def F.RAWC_DET_THR_K (i : Nat) : Fld := ⟨R.RAWC_DET i, 0, 8⟩
def F.RAWC_DET_T_MIN (i : Nat) : Fld := ⟨R.RAWC_DET i, 8, 8⟩
def F.RAWC_DET_T_MAX (i : Nat) : Fld := ⟨R.RAWC_DET i, 16, 13⟩
def R.RAWC_GAIN_STAGE (i : Nat) : Nat := 0x30104C + 0x100 * i
def F.RAWC_GAIN_STAGE_IDX (i : Nat) : Fld := ⟨R.RAWC_GAIN_STAGE i, 0, 3⟩
def R.RAWC_NOISE_EST (i : Nat) : Nat := 0x301050 + 0x100 * i
def F.RAWC_NOISE_EST_SIGMA_Q8 (i : Nat) : Fld := ⟨R.RAWC_NOISE_EST i, 0, 16⟩
def F.RAWC_NOISE_EST_IDX (i : Nat) : Fld := ⟨R.RAWC_NOISE_EST i, 16, 3⟩
def F.RAWC_NOISE_EST_T (i : Nat) : Fld := ⟨R.RAWC_NOISE_EST i, 19, 13⟩
def R.RAWC_FF (i : Nat) : Nat := 0x301054 + 0x100 * i
def F.RAWC_FF_SHIFT (i : Nat) : Fld := ⟨R.RAWC_FF i, 0, 4⟩
def F.RAWC_FF_NX (i : Nat) : Fld := ⟨R.RAWC_FF i, 4, 10⟩
def F.RAWC_FF_NY (i : Nat) : Fld := ⟨R.RAWC_FF i, 16, 10⟩
def R.RAWC_FF_ADDR (i : Nat) : Nat := 0x301058 + 0x100 * i
def F.RAWC_FF_ADDR_BASE (i : Nat) : Fld := ⟨R.RAWC_FF_ADDR i, 0, 24⟩
def R.RAWC_ROW (i : Nat) : Nat := 0x30105C + 0x100 * i
def F.RAWC_ROW_ROW_K (i : Nat) : Fld := ⟨R.RAWC_ROW i, 0, 8⟩
def R.RAWC_COL_ADDR (i : Nat) : Nat := 0x301060 + 0x100 * i
def F.RAWC_COL_ADDR_BASE (i : Nat) : Fld := ⟨R.RAWC_COL_ADDR i, 0, 24⟩
def R.RAWC_CONCEAL_LOG (i : Nat) : Nat := 0x301068 + 0x100 * i
def F.RAWC_CONCEAL_LOG_BASE (i : Nat) : Fld := ⟨R.RAWC_CONCEAL_LOG i, 0, 24⟩
def R.RAWC_CONCEAL_WR (i : Nat) : Nat := 0x30106C + 0x100 * i
def F.RAWC_CONCEAL_WR_INDEX (i : Nat) : Fld := ⟨R.RAWC_CONCEAL_WR i, 0, 8⟩
def R.RAWC_CNT0 (i : Nat) : Nat := 0x301070 + 0x100 * i
def F.RAWC_CNT0_CONCEALED (i : Nat) : Fld := ⟨R.RAWC_CNT0 i, 0, 16⟩
def F.RAWC_CNT0_MERGE_INCOMPLETE (i : Nat) : Fld := ⟨R.RAWC_CNT0 i, 16, 16⟩
def R.RAWC_CNT1 (i : Nat) : Nat := 0x301074 + 0x100 * i
def F.RAWC_CNT1_CLIP_FRAMES (i : Nat) : Fld := ⟨R.RAWC_CNT1 i, 0, 8⟩
def F.RAWC_CNT1_UNRESOLVED (i : Nat) : Fld := ⟨R.RAWC_CNT1 i, 8, 8⟩
def F.RAWC_CNT1_CAND_DROPPED (i : Nat) : Fld := ⟨R.RAWC_CNT1 i, 16, 16⟩

/-! ### COL -/
def R.COL_COMMIT : Nat := 0x400000
def F.COL_COMMIT_CTX_MASK : Fld := ⟨R.COL_COMMIT, 0, 16⟩
def R.COL_LUT3D_VALID : Nat := 0x400004
def F.COL_LUT3D_VALID_VALID : Fld := ⟨R.COL_LUT3D_VALID, 0, 8⟩
def R.COL_CFG (i : Nat) : Nat := 0x401000 + 0x800 * i
def F.COL_CFG_SID_SYNC (i : Nat) : Fld := ⟨R.COL_CFG i, 0, 1⟩
def F.COL_CFG_STATS_EN (i : Nat) : Fld := ⟨R.COL_CFG i, 1, 1⟩
def F.COL_CFG_CAS_EN (i : Nat) : Fld := ⟨R.COL_CFG i, 2, 1⟩
def R.COL_CAS (i : Nat) : Nat := 0x401004 + 0x800 * i
def F.COL_CAS_CAS_T (i : Nat) : Fld := ⟨R.COL_CAS i, 0, 16⟩
def F.COL_CAS_CAS_K (i : Nat) : Fld := ⟨R.COL_CAS i, 16, 8⟩
def R.COL_WB0 (i : Nat) : Nat := 0x401008 + 0x800 * i
def F.COL_WB0_R (i : Nat) : Fld := ⟨R.COL_WB0 i, 0, 16⟩
def F.COL_WB0_G (i : Nat) : Fld := ⟨R.COL_WB0 i, 16, 16⟩
def R.COL_WB1 (i : Nat) : Nat := 0x40100C + 0x800 * i
def F.COL_WB1_B (i : Nat) : Fld := ⟨R.COL_WB1 i, 0, 16⟩
def R.COL_CAM (i : Nat) (j : Nat) : Nat := 0x401010 + 0x800 * i + 4 * j
def F.COL_CAM_C (i : Nat) (j : Nat) : Fld := ⟨R.COL_CAM i j, 0, 32⟩
def R.COL_EXP_GAIN (i : Nat) : Nat := 0x401040 + 0x800 * i
def F.COL_EXP_GAIN_GAIN (i : Nat) : Fld := ⟨R.COL_EXP_GAIN i, 0, 24⟩
def R.COL_GREY_LIM (i : Nat) : Nat := 0x401044 + 0x800 * i
def F.COL_GREY_LIM_LO (i : Nat) : Fld := ⟨R.COL_GREY_LIM i, 0, 16⟩
def F.COL_GREY_LIM_HI (i : Nat) : Fld := ⟨R.COL_GREY_LIM i, 16, 16⟩
def R.COL_GREY_SPREAD (i : Nat) : Nat := 0x401048 + 0x800 * i
def F.COL_GREY_SPREAD_SPREAD (i : Nat) : Fld := ⟨R.COL_GREY_SPREAD i, 0, 8⟩
def R.COL_FOCUS_A (i : Nat) (j : Nat) : Nat := 0x401080 + 0x800 * i + 8 * j
def F.COL_FOCUS_A_X0 (i : Nat) (j : Nat) : Fld := ⟨R.COL_FOCUS_A i j, 0, 14⟩
def F.COL_FOCUS_A_Y0 (i : Nat) (j : Nat) : Fld := ⟨R.COL_FOCUS_A i j, 16, 14⟩
def R.COL_FOCUS_B (i : Nat) (j : Nat) : Nat := 0x401084 + 0x800 * i + 8 * j
def F.COL_FOCUS_B_X1 (i : Nat) (j : Nat) : Fld := ⟨R.COL_FOCUS_B i j, 0, 14⟩
def F.COL_FOCUS_B_Y1 (i : Nat) (j : Nat) : Fld := ⟨R.COL_FOCUS_B i j, 16, 14⟩
def R.COL_STATUS (i : Nat) : Nat := 0x401100 + 0x800 * i
def F.COL_STATUS_SETS_PENDING (i : Nat) : Fld := ⟨R.COL_STATUS i, 0, 3⟩
def F.COL_STATUS_SID_APPLIED (i : Nat) : Fld := ⟨R.COL_STATUS i, 16, 16⟩
def R.COL_BR_CFG (i : Nat) (j : Nat) : Nat := 0x401200 + 0x800 * i + 0x100 * j
def F.COL_BR_CFG_EN (i : Nat) (j : Nat) : Fld := ⟨R.COL_BR_CFG i j, 0, 1⟩
def F.COL_BR_CFG_KIND (i : Nat) (j : Nat) : Fld := ⟨R.COL_BR_CFG i j, 1, 2⟩
def F.COL_BR_CFG_FORMAT (i : Nat) (j : Nat) : Fld := ⟨R.COL_BR_CFG i j, 4, 4⟩
def F.COL_BR_CFG_YCC (i : Nat) (j : Nat) : Fld := ⟨R.COL_BR_CFG i j, 8, 2⟩
def F.COL_BR_CFG_RANGE (i : Nat) (j : Nat) : Fld := ⟨R.COL_BR_CFG i j, 10, 1⟩
def F.COL_BR_CFG_DEPTH (i : Nat) (j : Nat) : Fld := ⟨R.COL_BR_CFG i j, 12, 2⟩
def F.COL_BR_CFG_TF (i : Nat) (j : Nat) : Fld := ⟨R.COL_BR_CFG i j, 16, 3⟩
def F.COL_BR_CFG_DITHER (i : Nat) (j : Nat) : Fld := ⟨R.COL_BR_CFG i j, 20, 1⟩
def R.COL_BR_CROP_XY (i : Nat) (j : Nat) : Nat := 0x401204 + 0x800 * i + 0x100 * j
def F.COL_BR_CROP_XY_X0 (i : Nat) (j : Nat) : Fld := ⟨R.COL_BR_CROP_XY i j, 0, 14⟩
def F.COL_BR_CROP_XY_Y0 (i : Nat) (j : Nat) : Fld := ⟨R.COL_BR_CROP_XY i j, 16, 14⟩
def R.COL_BR_CROP_WH (i : Nat) (j : Nat) : Nat := 0x401208 + 0x800 * i + 0x100 * j
def F.COL_BR_CROP_WH_W (i : Nat) (j : Nat) : Fld := ⟨R.COL_BR_CROP_WH i j, 0, 15⟩
def F.COL_BR_CROP_WH_H (i : Nat) (j : Nat) : Fld := ⟨R.COL_BR_CROP_WH i j, 16, 15⟩
def R.COL_BR_OUT_WH (i : Nat) (j : Nat) : Nat := 0x40120C + 0x800 * i + 0x100 * j
def F.COL_BR_OUT_WH_W (i : Nat) (j : Nat) : Fld := ⟨R.COL_BR_OUT_WH i j, 0, 15⟩
def F.COL_BR_OUT_WH_H (i : Nat) (j : Nat) : Fld := ⟨R.COL_BR_OUT_WH i j, 16, 15⟩
def R.COL_BR_COEF_ADDR (i : Nat) (j : Nat) : Nat := 0x401210 + 0x800 * i + 0x100 * j
def F.COL_BR_COEF_ADDR_BASE (i : Nat) (j : Nat) : Fld := ⟨R.COL_BR_COEF_ADDR i j, 0, 24⟩
def R.COL_BR_OUT_BASE (i : Nat) (j : Nat) : Nat := 0x401214 + 0x800 * i + 0x100 * j
def F.COL_BR_OUT_BASE_BASE (i : Nat) (j : Nat) : Fld := ⟨R.COL_BR_OUT_BASE i j, 0, 28⟩
def R.COL_BR_OUT_RING (i : Nat) (j : Nat) : Nat := 0x401218 + 0x800 * i + 0x100 * j
def F.COL_BR_OUT_RING_BUFS (i : Nat) (j : Nat) : Fld := ⟨R.COL_BR_OUT_RING i j, 0, 4⟩
def F.COL_BR_OUT_RING_STRIDE (i : Nat) (j : Nat) : Fld := ⟨R.COL_BR_OUT_RING i j, 8, 24⟩
def R.COL_BR_MAT (i : Nat) (j : Nat) (k : Nat) : Nat := 0x401220 + 0x800 * i + 0x100 * j + 4 * k
def F.COL_BR_MAT_C (i : Nat) (j : Nat) (k : Nat) : Fld := ⟨R.COL_BR_MAT i j k, 0, 32⟩
def R.COL_BR_LUT (i : Nat) (j : Nat) : Nat := 0x401250 + 0x800 * i + 0x100 * j
def F.COL_BR_LUT_SHAPER_EN (i : Nat) (j : Nat) : Fld := ⟨R.COL_BR_LUT i j, 0, 1⟩
def F.COL_BR_LUT_LUT3D_EN (i : Nat) (j : Nat) : Fld := ⟨R.COL_BR_LUT i j, 1, 1⟩
def F.COL_BR_LUT_LUT3D_IDX (i : Nat) (j : Nat) : Fld := ⟨R.COL_BR_LUT i j, 2, 3⟩
def R.COL_BR_SHAPER_ADDR (i : Nat) (j : Nat) : Nat := 0x401254 + 0x800 * i + 0x100 * j
def F.COL_BR_SHAPER_ADDR_BASE (i : Nat) (j : Nat) : Fld := ⟨R.COL_BR_SHAPER_ADDR i j, 0, 24⟩
def R.COL_BR_TF_ADDR (i : Nat) (j : Nat) : Nat := 0x401258 + 0x800 * i + 0x100 * j
def F.COL_BR_TF_ADDR_BASE (i : Nat) (j : Nat) : Fld := ⟨R.COL_BR_TF_ADDR i j, 0, 24⟩
def R.COL_BR_PQ (i : Nat) (j : Nat) : Nat := 0x40125C + 0x800 * i + 0x100 * j
def F.COL_BR_PQ_NITS (i : Nat) (j : Nat) : Fld := ⟨R.COL_BR_PQ i j, 0, 16⟩
def R.COL_BR_DITHER_SEED (i : Nat) (j : Nat) : Nat := 0x401260 + 0x800 * i + 0x100 * j
def F.COL_BR_DITHER_SEED_SEED (i : Nat) (j : Nat) : Fld := ⟨R.COL_BR_DITHER_SEED i j, 0, 32⟩
def R.COL_BR_DISP (i : Nat) (j : Nat) : Nat := 0x401270 + 0x800 * i + 0x100 * j
def F.COL_BR_DISP_PEAK_EN (i : Nat) (j : Nat) : Fld := ⟨R.COL_BR_DISP i j, 0, 1⟩
def F.COL_BR_DISP_FALSE_EN (i : Nat) (j : Nat) : Fld := ⟨R.COL_BR_DISP i j, 1, 1⟩
def F.COL_BR_DISP_Z1_EN (i : Nat) (j : Nat) : Fld := ⟨R.COL_BR_DISP i j, 2, 1⟩
def F.COL_BR_DISP_Z2_EN (i : Nat) (j : Nat) : Fld := ⟨R.COL_BR_DISP i j, 3, 1⟩
def F.COL_BR_DISP_PEAK_T (i : Nat) (j : Nat) : Fld := ⟨R.COL_BR_DISP i j, 16, 16⟩
def R.COL_BR_ZEBRA1 (i : Nat) (j : Nat) : Nat := 0x401274 + 0x800 * i + 0x100 * j
def F.COL_BR_ZEBRA1_Z1_LO (i : Nat) (j : Nat) : Fld := ⟨R.COL_BR_ZEBRA1 i j, 0, 16⟩
def F.COL_BR_ZEBRA1_Z1_HI (i : Nat) (j : Nat) : Fld := ⟨R.COL_BR_ZEBRA1 i j, 16, 16⟩
def R.COL_BR_ZEBRA2 (i : Nat) (j : Nat) : Nat := 0x401278 + 0x800 * i + 0x100 * j
def F.COL_BR_ZEBRA2_Z2_LEVEL (i : Nat) (j : Nat) : Fld := ⟨R.COL_BR_ZEBRA2 i j, 0, 16⟩
def R.COL_BR_PEAK_COLOUR (i : Nat) (j : Nat) : Nat := 0x40127C + 0x800 * i + 0x100 * j
def F.COL_BR_PEAK_COLOUR_RGB (i : Nat) (j : Nat) : Fld := ⟨R.COL_BR_PEAK_COLOUR i j, 0, 30⟩
def R.COL_BR_FALSE_ADDR (i : Nat) (j : Nat) : Nat := 0x401280 + 0x800 * i + 0x100 * j
def F.COL_BR_FALSE_ADDR_BASE (i : Nat) (j : Nat) : Fld := ⟨R.COL_BR_FALSE_ADDR i j, 0, 24⟩
def R.COL_BR_MV_RING_LO (i : Nat) (j : Nat) : Nat := 0x401290 + 0x800 * i + 0x100 * j
def F.COL_BR_MV_RING_LO_ADDR (i : Nat) (j : Nat) : Fld := ⟨R.COL_BR_MV_RING_LO i j, 0, 32⟩
def R.COL_BR_MV_RING_HI (i : Nat) (j : Nat) : Nat := 0x401294 + 0x800 * i + 0x100 * j
def F.COL_BR_MV_RING_HI_ADDR (i : Nat) (j : Nat) : Fld := ⟨R.COL_BR_MV_RING_HI i j, 0, 32⟩
def R.COL_BR_MV_RING_CFG (i : Nat) (j : Nat) : Nat := 0x401298 + 0x800 * i + 0x100 * j
def F.COL_BR_MV_RING_CFG_SIZE_LOG2 (i : Nat) (j : Nat) : Fld := ⟨R.COL_BR_MV_RING_CFG i j, 0, 4⟩
def F.COL_BR_MV_RING_CFG_VECTOR (i : Nat) (j : Nat) : Fld := ⟨R.COL_BR_MV_RING_CFG i j, 8, 8⟩
def R.COL_BR_MV_HOST_IDX (i : Nat) (j : Nat) : Nat := 0x40129C + 0x800 * i + 0x100 * j
def F.COL_BR_MV_HOST_IDX_IDX (i : Nat) (j : Nat) : Fld := ⟨R.COL_BR_MV_HOST_IDX i j, 0, 16⟩
def R.COL_BR_MV_DEV_IDX (i : Nat) (j : Nat) : Nat := 0x4012A0 + 0x800 * i + 0x100 * j
def F.COL_BR_MV_DEV_IDX_IDX (i : Nat) (j : Nat) : Fld := ⟨R.COL_BR_MV_DEV_IDX i j, 0, 16⟩
def R.COL_BR_MV_COMPL_LO (i : Nat) (j : Nat) : Nat := 0x4012A4 + 0x800 * i + 0x100 * j
def F.COL_BR_MV_COMPL_LO_ADDR (i : Nat) (j : Nat) : Fld := ⟨R.COL_BR_MV_COMPL_LO i j, 0, 32⟩
def R.COL_BR_MV_COMPL_HI (i : Nat) (j : Nat) : Nat := 0x4012A8 + 0x800 * i + 0x100 * j
def F.COL_BR_MV_COMPL_HI_ADDR (i : Nat) (j : Nat) : Fld := ⟨R.COL_BR_MV_COMPL_HI i j, 0, 32⟩
def R.COL_BR_MV_CROP_ADDR (i : Nat) (j : Nat) : Nat := 0x4012AC + 0x800 * i + 0x100 * j
def F.COL_BR_MV_CROP_ADDR_BASE (i : Nat) (j : Nat) : Fld := ⟨R.COL_BR_MV_CROP_ADDR i j, 0, 24⟩
def R.COL_BR_MV_NORM (i : Nat) (j : Nat) (k : Nat) : Nat := 0x4012B0 + 0x800 * i + 0x100 * j + 4 * k
def F.COL_BR_MV_NORM_MEAN (i : Nat) (j : Nat) (k : Nat) : Fld := ⟨R.COL_BR_MV_NORM i j k, 0, 16⟩
def F.COL_BR_MV_NORM_SCALE (i : Nat) (j : Nat) (k : Nat) : Fld := ⟨R.COL_BR_MV_NORM i j k, 16, 16⟩
def R.COL_BR_STATUS (i : Nat) (j : Nat) : Nat := 0x4012F0 + 0x800 * i + 0x100 * j
def F.COL_BR_STATUS_LAST_FSEQ (i : Nat) (j : Nat) : Fld := ⟨R.COL_BR_STATUS i j, 0, 32⟩
def R.COL_BR_CNT (i : Nat) (j : Nat) : Nat := 0x4012F4 + 0x800 * i + 0x100 * j
def F.COL_BR_CNT_HELD_SKIP (i : Nat) (j : Nat) : Fld := ⟨R.COL_BR_CNT i j, 0, 16⟩
def F.COL_BR_CNT_MV_NO_DESC (i : Nat) (j : Nat) : Fld := ⟨R.COL_BR_CNT i j, 16, 16⟩
def R.COL_BR_LUT_STATUS (i : Nat) (j : Nat) : Nat := 0x4012F8 + 0x800 * i + 0x100 * j
def F.COL_BR_LUT_STATUS_IDX_IN_EFFECT (i : Nat) (j : Nat) : Fld := ⟨R.COL_BR_LUT_STATUS i j, 0, 3⟩
def F.COL_BR_LUT_STATUS_LOADING (i : Nat) (j : Nat) : Fld := ⟨R.COL_BR_LUT_STATUS i j, 3, 1⟩
def F.COL_BR_LUT_STATUS_PENDING_IDX (i : Nat) (j : Nat) : Fld := ⟨R.COL_BR_LUT_STATUS i j, 4, 3⟩

/-! ### ZE -/
def R.ZE_CFG : Nat := 0x500000
def F.ZE_CFG_GEN_EN : Fld := ⟨R.ZE_CFG, 0, 1⟩
def F.ZE_CFG_BACKLOG_FRAMES : Fld := ⟨R.ZE_CFG, 4, 4⟩
def R.ZE_BUSY_IMG : Nat := 0x500004
def F.ZE_BUSY_IMG_ZE : Fld := ⟨R.ZE_BUSY_IMG, 0, 20⟩
def R.ZE_BUSY_GEN : Nat := 0x500008
def F.ZE_BUSY_GEN_ZE : Fld := ⟨R.ZE_BUSY_GEN, 0, 20⟩
def R.ZE_RING_LO (i : Nat) : Nat := 0x500800 + 0x40 * i
def F.ZE_RING_LO_ADDR (i : Nat) : Fld := ⟨R.ZE_RING_LO i, 0, 32⟩
def R.ZE_RING_HI (i : Nat) : Nat := 0x500804 + 0x40 * i
def F.ZE_RING_HI_ADDR (i : Nat) : Fld := ⟨R.ZE_RING_HI i, 0, 32⟩
def R.ZE_RING_COMPL_LO (i : Nat) : Nat := 0x500808 + 0x40 * i
def F.ZE_RING_COMPL_LO_ADDR (i : Nat) : Fld := ⟨R.ZE_RING_COMPL_LO i, 0, 32⟩
def R.ZE_RING_COMPL_HI (i : Nat) : Nat := 0x50080C + 0x40 * i
def F.ZE_RING_COMPL_HI_ADDR (i : Nat) : Fld := ⟨R.ZE_RING_COMPL_HI i, 0, 32⟩
def R.ZE_RING_CFG (i : Nat) : Nat := 0x500810 + 0x40 * i
def F.ZE_RING_CFG_EN (i : Nat) : Fld := ⟨R.ZE_RING_CFG i, 0, 1⟩
def F.ZE_RING_CFG_SPACE (i : Nat) : Fld := ⟨R.ZE_RING_CFG i, 1, 1⟩
def F.ZE_RING_CFG_SIZE_LOG2 (i : Nat) : Fld := ⟨R.ZE_RING_CFG i, 4, 4⟩
def F.ZE_RING_CFG_VECTOR (i : Nat) : Fld := ⟨R.ZE_RING_CFG i, 8, 8⟩
def R.ZE_RING_PROD (i : Nat) : Nat := 0x500814 + 0x40 * i
def F.ZE_RING_PROD_IDX (i : Nat) : Fld := ⟨R.ZE_RING_PROD i, 0, 16⟩
def R.ZE_RING_CONS (i : Nat) : Nat := 0x500818 + 0x40 * i
def F.ZE_RING_CONS_IDX (i : Nat) : Fld := ⟨R.ZE_RING_CONS i, 0, 16⟩
def R.ZE_RING_NGR (i : Nat) : Nat := 0x50081C + 0x40 * i
def F.ZE_RING_NGR_NGR (i : Nat) : Fld := ⟨R.ZE_RING_NGR i, 0, 16⟩
def R.ZE_RING_CTRL (i : Nat) : Nat := 0x500820 + 0x40 * i
def F.ZE_RING_CTRL_ABORT (i : Nat) : Fld := ⟨R.ZE_RING_CTRL i, 0, 1⟩
def R.ZE_RING_STATUS (i : Nat) : Nat := 0x500824 + 0x40 * i
def F.ZE_RING_STATUS_LAST_STATUS (i : Nat) : Fld := ⟨R.ZE_RING_STATUS i, 0, 3⟩
def F.ZE_RING_STATUS_RUNNING (i : Nat) : Fld := ⟨R.ZE_RING_STATUS i, 3, 1⟩
def F.ZE_RING_STATUS_ZE (i : Nat) : Fld := ⟨R.ZE_RING_STATUS i, 4, 5⟩
def R.ZE_KRC (i : Nat) : Nat := 0x501000 + 0x40 * i
def F.ZE_KRC_EN (i : Nat) : Fld := ⟨R.ZE_KRC i, 0, 1⟩
def F.ZE_KRC_NB (i : Nat) : Fld := ⟨R.ZE_KRC i, 1, 1⟩
def F.ZE_KRC_QSEL (i : Nat) : Fld := ⟨R.ZE_KRC i, 2, 2⟩
def F.ZE_KRC_LEVEL (i : Nat) : Fld := ⟨R.ZE_KRC i, 4, 3⟩
def F.ZE_KRC_KINIT (i : Nat) : Fld := ⟨R.ZE_KRC i, 8, 4⟩
def R.ZE_LAST_FSEQ (i : Nat) : Nat := 0x501004 + 0x40 * i
def F.ZE_LAST_FSEQ_FSEQ (i : Nat) : Fld := ⟨R.ZE_LAST_FSEQ i, 0, 32⟩
def R.ZE_LAST_BYTES (i : Nat) : Nat := 0x501008 + 0x40 * i
def F.ZE_LAST_BYTES_BYTES (i : Nat) : Fld := ⟨R.ZE_LAST_BYTES i, 0, 32⟩
def R.ZE_CNT (i : Nat) : Nat := 0x50100C + 0x40 * i
def F.ZE_CNT_STORED (i : Nat) : Fld := ⟨R.ZE_CNT i, 0, 16⟩
def F.ZE_CNT_BAD_TILES (i : Nat) : Fld := ⟨R.ZE_CNT i, 16, 16⟩

/-! ### REC -/
def R.REC_CFG : Nat := 0x600000
def F.REC_CFG_EN : Fld := ⟨R.REC_CFG, 0, 1⟩
def F.REC_CFG_BACKING : Fld := ⟨R.REC_CFG, 1, 1⟩
def F.REC_CFG_LAYOUT : Fld := ⟨R.REC_CFG, 2, 2⟩
def F.REC_CFG_DRIVES : Fld := ⟨R.REC_CFG, 4, 4⟩
def F.REC_CFG_LOW_SPOOLS : Fld := ⟨R.REC_CFG, 8, 16⟩
def R.REC_CTRL : Nat := 0x600004
def F.REC_CTRL_START : Fld := ⟨R.REC_CTRL, 0, 1⟩
def F.REC_CTRL_STOP : Fld := ⟨R.REC_CTRL, 1, 1⟩
def R.REC_CTX_MASK : Nat := 0x600008
def F.REC_CTX_MASK_MASK : Fld := ⟨R.REC_CTX_MASK, 0, 16⟩
def R.REC_PREROLL : Nat := 0x60000C
def F.REC_PREROLL_FRAMES : Fld := ⟨R.REC_PREROLL, 0, 16⟩
def R.REC_FLUSH : Nat := 0x600010
def F.REC_FLUSH_BUDGET_KIB : Fld := ⟨R.REC_FLUSH, 0, 16⟩
def R.REC_STATUS : Nat := 0x600014
def F.REC_STATUS_STATE : Fld := ⟨R.REC_STATUS, 0, 3⟩
def F.REC_STATUS_DRIVES_UP : Fld := ⟨R.REC_STATUS, 4, 4⟩
def F.REC_STATUS_DEGRADED : Fld := ⟨R.REC_STATUS, 8, 1⟩
def R.REC_META : Nat := 0x600018
def F.REC_META_OFFSET : Fld := ⟨R.REC_META, 0, 28⟩
def R.REC_META_CTRL : Nat := 0x60001C
def F.REC_META_CTRL_LEN : Fld := ⟨R.REC_META_CTRL, 0, 12⟩
def F.REC_META_CTRL_CTX_MASK : Fld := ⟨R.REC_META_CTRL, 16, 16⟩
def R.REC_OUT : Nat := 0x600020
def F.REC_OUT_BASE : Fld := ⟨R.REC_OUT, 0, 28⟩
def R.REC_OUT_SIZE : Nat := 0x600024
def F.REC_OUT_SIZE_SIZE : Fld := ⟨R.REC_OUT_SIZE, 0, 28⟩
def R.REC_RP_NSID (i : Nat) : Nat := 0x600100 + 0x40 * i
def F.REC_RP_NSID_NSID (i : Nat) : Fld := ⟨R.REC_RP_NSID i, 0, 32⟩
def R.REC_RP_PART_START_LO (i : Nat) : Nat := 0x600104 + 0x40 * i
def F.REC_RP_PART_START_LO_LBA (i : Nat) : Fld := ⟨R.REC_RP_PART_START_LO i, 0, 32⟩
def R.REC_RP_PART_START_HI (i : Nat) : Nat := 0x600108 + 0x40 * i
def F.REC_RP_PART_START_HI_LBA (i : Nat) : Fld := ⟨R.REC_RP_PART_START_HI i, 0, 32⟩
def R.REC_RP_PART_END_LO (i : Nat) : Nat := 0x60010C + 0x40 * i
def F.REC_RP_PART_END_LO_LBA (i : Nat) : Fld := ⟨R.REC_RP_PART_END_LO i, 0, 32⟩
def R.REC_RP_PART_END_HI (i : Nat) : Nat := 0x600110 + 0x40 * i
def F.REC_RP_PART_END_HI_LBA (i : Nat) : Fld := ⟨R.REC_RP_PART_END_HI i, 0, 32⟩
def R.REC_RP_DIR_LBA_LO (i : Nat) : Nat := 0x600114 + 0x40 * i
def F.REC_RP_DIR_LBA_LO_LBA (i : Nat) : Fld := ⟨R.REC_RP_DIR_LBA_LO i, 0, 32⟩
def R.REC_RP_DIR_LBA_HI (i : Nat) : Nat := 0x600118 + 0x40 * i
def F.REC_RP_DIR_LBA_HI_LBA (i : Nat) : Fld := ⟨R.REC_RP_DIR_LBA_HI i, 0, 32⟩
def R.REC_RP_EXT (i : Nat) : Nat := 0x60011C + 0x40 * i
def F.REC_RP_EXT_OFFSET (i : Nat) : Fld := ⟨R.REC_RP_EXT i, 0, 28⟩
def F.REC_RP_EXT_SIZE_LOG2 (i : Nat) : Fld := ⟨R.REC_RP_EXT i, 28, 4⟩
def R.REC_RP_EXT_PROD (i : Nat) : Nat := 0x600120 + 0x40 * i
def F.REC_RP_EXT_PROD_IDX (i : Nat) : Fld := ⟨R.REC_RP_EXT_PROD i, 0, 16⟩
def R.REC_RP_EXT_CONS (i : Nat) : Nat := 0x600124 + 0x40 * i
def F.REC_RP_EXT_CONS_IDX (i : Nat) : Fld := ⟨R.REC_RP_EXT_CONS i, 0, 16⟩
def R.REC_RP_STATUS (i : Nat) : Nat := 0x600128 + 0x40 * i
def F.REC_RP_STATUS_READY (i : Nat) : Fld := ⟨R.REC_RP_STATUS i, 0, 1⟩
def F.REC_RP_STATUS_FAILED (i : Nat) : Fld := ⟨R.REC_RP_STATUS i, 1, 1⟩
def F.REC_RP_STATUS_GEN (i : Nat) : Fld := ⟨R.REC_RP_STATUS i, 2, 3⟩
def F.REC_RP_STATUS_WIDTH (i : Nat) : Fld := ⟨R.REC_RP_STATUS i, 5, 3⟩
def F.REC_RP_STATUS_LBA_SHIFT (i : Nat) : Fld := ⟨R.REC_RP_STATUS i, 8, 4⟩
def F.REC_RP_STATUS_FUA (i : Nat) : Fld := ⟨R.REC_RP_STATUS i, 12, 1⟩
def R.REC_RP_CNT (i : Nat) : Nat := 0x60012C + 0x40 * i
def F.REC_RP_CNT_RETRIES (i : Nat) : Fld := ⟨R.REC_RP_CNT i, 0, 16⟩
def F.REC_RP_CNT_TIMEOUTS (i : Nat) : Fld := ⟨R.REC_RP_CNT i, 16, 16⟩
def R.REC_CTX_SPOOL (i : Nat) : Nat := 0x600800 + 0x10 * i
def F.REC_CTX_SPOOL_SPOOL_NO (i : Nat) : Fld := ⟨R.REC_CTX_SPOOL i, 0, 32⟩
def R.REC_CTX_FSEQ (i : Nat) : Nat := 0x600804 + 0x10 * i
def F.REC_CTX_FSEQ_LAST_FSEQ (i : Nat) : Fld := ⟨R.REC_CTX_FSEQ i, 0, 32⟩
def R.REC_CTX_CNT (i : Nat) : Nat := 0x600808 + 0x10 * i
def F.REC_CTX_CNT_DROPPED (i : Nat) : Fld := ⟨R.REC_CTX_CNT i, 0, 16⟩
def R.REC_OFF_RING : Nat := 0x600A00
def F.REC_OFF_RING_BASE : Fld := ⟨R.REC_OFF_RING, 0, 24⟩
def F.REC_OFF_RING_SIZE_LOG2 : Fld := ⟨R.REC_OFF_RING, 28, 4⟩
def R.REC_OFF_COMPL : Nat := 0x600A04
def F.REC_OFF_COMPL_BASE : Fld := ⟨R.REC_OFF_COMPL, 0, 24⟩
def F.REC_OFF_COMPL_VECTOR : Fld := ⟨R.REC_OFF_COMPL, 24, 8⟩
def R.REC_OFF_IDX : Nat := 0x600A08
def F.REC_OFF_IDX_PROD : Fld := ⟨R.REC_OFF_IDX, 0, 16⟩
def F.REC_OFF_IDX_CONS : Fld := ⟨R.REC_OFF_IDX, 16, 16⟩
def R.REC_OFF_CFG : Nat := 0x600A0C
def F.REC_OFF_CFG_AHEAD_FRAMES : Fld := ⟨R.REC_OFF_CFG, 0, 8⟩

/-! ### VE -/
def R.VE_SES_CMD : Nat := 0x700000
def F.VE_SES_CMD_SES : Fld := ⟨R.VE_SES_CMD, 0, 8⟩
def F.VE_SES_CMD_OP : Fld := ⟨R.VE_SES_CMD, 8, 2⟩
def F.VE_SES_CMD_GO : Fld := ⟨R.VE_SES_CMD, 16, 1⟩
def F.VE_SES_CMD_RESULT : Fld := ⟨R.VE_SES_CMD, 17, 3⟩
def R.VE_ADMIT : Nat := 0x700004
def F.VE_ADMIT_RSV_GBS : Fld := ⟨R.VE_ADMIT, 0, 16⟩
def R.VE_LOAD : Nat := 0x700008
def F.VE_LOAD_COMMITTED : Fld := ⟨R.VE_LOAD, 0, 16⟩
def F.VE_LOAD_CAPACITY : Fld := ⟨R.VE_LOAD, 16, 16⟩
def R.VE_MEM_EST : Nat := 0x70000C
def F.VE_MEM_EST_ALL_GBS : Fld := ⟨R.VE_MEM_EST, 0, 16⟩
def F.VE_MEM_EST_LIVE_GBS : Fld := ⟨R.VE_MEM_EST, 16, 16⟩
def R.VE_FENCE0 : Nat := 0x700010
def F.VE_FENCE0_FENCED : Fld := ⟨R.VE_FENCE0, 0, 32⟩
def R.VE_FENCE1 : Nat := 0x700014
def F.VE_FENCE1_FENCED : Fld := ⟨R.VE_FENCE1, 0, 32⟩
def R.VE_FENCE2 : Nat := 0x700018
def F.VE_FENCE2_FENCED : Fld := ⟨R.VE_FENCE2, 0, 4⟩
def R.VE_SPARE_MAP : Nat := 0x70001C
def F.VE_SPARE_MAP_REPLACES0 : Fld := ⟨R.VE_SPARE_MAP, 0, 7⟩
def F.VE_SPARE_MAP_IN_USE0 : Fld := ⟨R.VE_SPARE_MAP, 7, 1⟩
def F.VE_SPARE_MAP_REPLACES1 : Fld := ⟨R.VE_SPARE_MAP, 8, 7⟩
def F.VE_SPARE_MAP_IN_USE1 : Fld := ⟨R.VE_SPARE_MAP, 15, 1⟩
def F.VE_SPARE_MAP_REPLACES2 : Fld := ⟨R.VE_SPARE_MAP, 16, 7⟩
def F.VE_SPARE_MAP_IN_USE2 : Fld := ⟨R.VE_SPARE_MAP, 23, 1⟩
def F.VE_SPARE_MAP_REPLACES3 : Fld := ⟨R.VE_SPARE_MAP, 24, 7⟩
def F.VE_SPARE_MAP_IN_USE3 : Fld := ⟨R.VE_SPARE_MAP, 31, 1⟩
def R.VE_ROW_WDOG : Nat := 0x700020
def F.VE_ROW_WDOG_FACTOR : Fld := ⟨R.VE_ROW_WDOG, 0, 8⟩
def R.LG_CFG (i : Nat) : Nat := 0x700100 + 0x40 * i
def F.LG_CFG_EN (i : Nat) : Fld := ⟨R.LG_CFG i, 0, 1⟩
def F.LG_CFG_CTX (i : Nat) : Fld := ⟨R.LG_CFG i, 4, 4⟩
def F.LG_CFG_BRANCH (i : Nat) : Fld := ⟨R.LG_CFG i, 8, 3⟩
def F.LG_CFG_CLASS (i : Nat) : Fld := ⟨R.LG_CFG i, 12, 2⟩
def F.LG_CFG_PRIO (i : Nat) : Fld := ⟨R.LG_CFG i, 16, 3⟩
def F.LG_CFG_SCENE_MODE (i : Nat) : Fld := ⟨R.LG_CFG i, 20, 2⟩
def R.LG_SIZE (i : Nat) : Nat := 0x700104 + 0x40 * i
def F.LG_SIZE_TOP_W (i : Nat) : Fld := ⟨R.LG_SIZE i, 0, 16⟩
def F.LG_SIZE_TOP_H (i : Nat) : Fld := ⟨R.LG_SIZE i, 16, 16⟩
def R.LG_TIMESCALE (i : Nat) : Nat := 0x700108 + 0x40 * i
def F.LG_TIMESCALE_TIMESCALE (i : Nat) : Fld := ⟨R.LG_TIMESCALE i, 0, 20⟩
def R.LG_DUR (i : Nat) : Nat := 0x70010C + 0x40 * i
def F.LG_DUR_FRAME_DUR (i : Nat) : Fld := ⟨R.LG_DUR i, 0, 20⟩
def R.LG_GOP (i : Nat) : Nat := 0x700110 + 0x40 * i
def F.LG_GOP_GOP_LEN (i : Nat) : Fld := ⟨R.LG_GOP i, 0, 16⟩
def F.LG_GOP_MINIGOP (i : Nat) : Fld := ⟨R.LG_GOP i, 16, 4⟩
def F.LG_GOP_REFRESH (i : Nat) : Fld := ⟨R.LG_GOP i, 20, 2⟩
def F.LG_GOP_REFRESH_PERIOD (i : Nat) : Fld := ⟨R.LG_GOP i, 24, 8⟩
def R.LG_SCENE (i : Nat) : Nat := 0x700114 + 0x40 * i
def F.LG_SCENE_SCENE_THR (i : Nat) : Fld := ⟨R.LG_SCENE i, 0, 8⟩
def F.LG_SCENE_MIN_GAP (i : Nat) : Fld := ⟨R.LG_SCENE i, 8, 8⟩
def R.LG_STATUS (i : Nat) : Nat := 0x700118 + 0x40 * i
def F.LG_STATUS_MEMBERS (i : Nat) : Fld := ⟨R.LG_STATUS i, 0, 6⟩
def F.LG_STATUS_HALVED_ANY (i : Nat) : Fld := ⟨R.LG_STATUS i, 6, 1⟩
def F.LG_STATUS_PIC_NO (i : Nat) : Fld := ⟨R.LG_STATUS i, 8, 24⟩
def R.VE_ENG_STATUS (i : Nat) : Nat := 0x700800 + 4 * i
def F.VE_ENG_STATUS_ACTIVE (i : Nat) : Fld := ⟨R.VE_ENG_STATUS i, 0, 1⟩
def F.VE_ENG_STATUS_SPARE (i : Nat) : Fld := ⟨R.VE_ENG_STATUS i, 1, 1⟩
def F.VE_ENG_STATUS_FENCED (i : Nat) : Fld := ⟨R.VE_ENG_STATUS i, 2, 1⟩
def F.VE_ENG_STATUS_ROWS_QUEUED (i : Nat) : Fld := ⟨R.VE_ENG_STATUS i, 8, 8⟩
def F.VE_ENG_STATUS_LOAD_PCT (i : Nat) : Fld := ⟨R.VE_ENG_STATUS i, 16, 8⟩
def R.SES_CFG (i : Nat) : Nat := 0x701000 + 0x80 * i
def F.SES_CFG_EN (i : Nat) : Fld := ⟨R.SES_CFG i, 0, 1⟩
def F.SES_CFG_CODEC (i : Nat) : Fld := ⟨R.SES_CFG i, 1, 1⟩
def F.SES_CFG_PROFILE (i : Nat) : Fld := ⟨R.SES_CFG i, 2, 3⟩
def F.SES_CFG_CLASS (i : Nat) : Fld := ⟨R.SES_CFG i, 5, 2⟩
def F.SES_CFG_SRC_KIND (i : Nat) : Fld := ⟨R.SES_CFG i, 7, 2⟩
def F.SES_CFG_GROUP (i : Nat) : Fld := ⟨R.SES_CFG i, 9, 3⟩
def F.SES_CFG_CTX (i : Nat) : Fld := ⟨R.SES_CFG i, 12, 4⟩
def F.SES_CFG_BRANCH (i : Nat) : Fld := ⟨R.SES_CFG i, 16, 3⟩
def F.SES_CFG_PRIO (i : Nat) : Fld := ⟨R.SES_CFG i, 19, 3⟩
def F.SES_CFG_AUTOSTART (i : Nat) : Fld := ⟨R.SES_CFG i, 22, 1⟩
def R.SES_SIZE (i : Nat) : Nat := 0x701004 + 0x80 * i
def F.SES_SIZE_W (i : Nat) : Fld := ⟨R.SES_SIZE i, 0, 16⟩
def F.SES_SIZE_H (i : Nat) : Fld := ⟨R.SES_SIZE i, 16, 16⟩
def R.SES_FMT (i : Nat) : Nat := 0x701008 + 0x80 * i
def F.SES_FMT_DEPTH (i : Nat) : Fld := ⟨R.SES_FMT i, 0, 4⟩
def F.SES_FMT_CHROMA (i : Nat) : Fld := ⟨R.SES_FMT i, 4, 2⟩
def F.SES_FMT_LEVEL (i : Nat) : Fld := ⟨R.SES_FMT i, 8, 8⟩
def F.SES_FMT_TIER (i : Nat) : Fld := ⟨R.SES_FMT i, 16, 1⟩
def F.SES_FMT_BAND_ROWS (i : Nat) : Fld := ⟨R.SES_FMT i, 20, 4⟩
def R.SES_TIMESCALE (i : Nat) : Nat := 0x70100C + 0x80 * i
def F.SES_TIMESCALE_TIMESCALE (i : Nat) : Fld := ⟨R.SES_TIMESCALE i, 0, 20⟩
def R.SES_DUR (i : Nat) : Nat := 0x701010 + 0x80 * i
def F.SES_DUR_FRAME_DUR (i : Nat) : Fld := ⟨R.SES_DUR i, 0, 20⟩
def R.SES_GOP (i : Nat) : Nat := 0x701014 + 0x80 * i
def F.SES_GOP_GOP_LEN (i : Nat) : Fld := ⟨R.SES_GOP i, 0, 16⟩
def F.SES_GOP_MINIGOP (i : Nat) : Fld := ⟨R.SES_GOP i, 16, 4⟩
def F.SES_GOP_REFRESH (i : Nat) : Fld := ⟨R.SES_GOP i, 20, 2⟩
def F.SES_GOP_REFRESH_PERIOD (i : Nat) : Fld := ⟨R.SES_GOP i, 24, 8⟩
def R.SES_TOOLS (i : Nat) : Nat := 0x701018 + 0x80 * i
def F.SES_TOOLS_LF2 (i : Nat) : Fld := ⟨R.SES_TOOLS i, 0, 1⟩
def F.SES_TOOLS_AMP (i : Nat) : Fld := ⟨R.SES_TOOLS i, 1, 1⟩
def F.SES_TOOLS_HASH (i : Nat) : Fld := ⟨R.SES_TOOLS i, 2, 1⟩
def F.SES_TOOLS_PRFT (i : Nat) : Fld := ⟨R.SES_TOOLS i, 3, 1⟩
def F.SES_TOOLS_EFFORT (i : Nat) : Fld := ⟨R.SES_TOOLS i, 4, 3⟩
def F.SES_TOOLS_VSR (i : Nat) : Fld := ⟨R.SES_TOOLS i, 8, 8⟩
def R.SES_OUT_DATA (i : Nat) : Nat := 0x70101C + 0x80 * i
def F.SES_OUT_DATA_BASE (i : Nat) : Fld := ⟨R.SES_OUT_DATA i, 0, 28⟩
def R.SES_OUT_SIZE (i : Nat) : Nat := 0x701020 + 0x80 * i
def F.SES_OUT_SIZE_SIZE (i : Nat) : Fld := ⟨R.SES_OUT_SIZE i, 0, 28⟩
def R.SES_OUT_REC (i : Nat) : Nat := 0x701024 + 0x80 * i
def F.SES_OUT_REC_BASE (i : Nat) : Fld := ⟨R.SES_OUT_REC i, 0, 24⟩
def F.SES_OUT_REC_REC_LOG2 (i : Nat) : Fld := ⟨R.SES_OUT_REC i, 28, 4⟩
def R.SES_PROD (i : Nat) : Nat := 0x701028 + 0x80 * i
def F.SES_PROD_IDX (i : Nat) : Fld := ⟨R.SES_PROD i, 0, 16⟩
def R.SES_CONS (i : Nat) (j : Nat) : Nat := 0x70102C + 0x80 * i + 4 * j
def F.SES_CONS_IDX (i : Nat) (j : Nat) : Fld := ⟨R.SES_CONS i j, 0, 16⟩
def F.SES_CONS_EN (i : Nat) (j : Nat) : Fld := ⟨R.SES_CONS i j, 16, 1⟩
def R.SES_STATUS (i : Nat) : Nat := 0x701034 + 0x80 * i
def F.SES_STATUS_STATE (i : Nat) : Fld := ⟨R.SES_STATUS i, 0, 3⟩
def F.SES_STATUS_HALVED (i : Nat) : Fld := ⟨R.SES_STATUS i, 3, 1⟩
def F.SES_STATUS_ENGINES (i : Nat) : Fld := ⟨R.SES_STATUS i, 4, 8⟩
def R.SES_PIC (i : Nat) : Nat := 0x701038 + 0x80 * i
def F.SES_PIC_PIC_NO (i : Nat) : Fld := ⟨R.SES_PIC i, 0, 32⟩
def R.SES_CNT (i : Nat) : Nat := 0x70103C + 0x80 * i
def F.SES_CNT_REPEATS (i : Nat) : Fld := ⟨R.SES_CNT i, 0, 16⟩
def F.SES_CNT_DISCARDED (i : Nat) : Fld := ⟨R.SES_CNT i, 16, 16⟩
def R.SES_RC (i : Nat) : Nat := 0x701040 + 0x80 * i
def F.SES_RC_RC_MODE (i : Nat) : Fld := ⟨R.SES_RC i, 0, 2⟩
def F.SES_RC_AQ (i : Nat) : Fld := ⟨R.SES_RC i, 2, 1⟩
def F.SES_RC_HRD (i : Nat) : Fld := ⟨R.SES_RC i, 3, 1⟩
def R.SES_RATE (i : Nat) : Nat := 0x701044 + 0x80 * i
def F.SES_RATE_BITRATE_KBPS (i : Nat) : Fld := ⟨R.SES_RATE i, 0, 24⟩
def R.SES_MAXRATE (i : Nat) : Nat := 0x701048 + 0x80 * i
def F.SES_MAXRATE_MAX_KBPS (i : Nat) : Fld := ⟨R.SES_MAXRATE i, 0, 24⟩
def R.SES_CPB (i : Nat) : Nat := 0x70104C + 0x80 * i
def F.SES_CPB_CPB_KBIT (i : Nat) : Fld := ⟨R.SES_CPB i, 0, 24⟩
def F.SES_CPB_INIT_PCT (i : Nat) : Fld := ⟨R.SES_CPB i, 24, 7⟩
def R.SES_QP (i : Nat) : Nat := 0x701050 + 0x80 * i
def F.SES_QP_QP_MIN (i : Nat) : Fld := ⟨R.SES_QP i, 0, 8⟩
def F.SES_QP_QP_MAX (i : Nat) : Fld := ⟨R.SES_QP i, 8, 8⟩
def F.SES_QP_QP_SALVAGE (i : Nat) : Fld := ⟨R.SES_QP i, 16, 8⟩
def F.SES_QP_INIT_QP (i : Nat) : Fld := ⟨R.SES_QP i, 24, 8⟩
def R.SES_CAP (i : Nat) : Nat := 0x701054 + 0x80 * i
def F.SES_CAP_HARD_CAP (i : Nat) : Fld := ⟨R.SES_CAP i, 0, 28⟩
def R.SES_RC_STATUS (i : Nat) : Nat := 0x701058 + 0x80 * i
def F.SES_RC_STATUS_LAST_QP (i : Nat) : Fld := ⟨R.SES_RC_STATUS i, 0, 8⟩
def F.SES_RC_STATUS_FILL_PCT (i : Nat) : Fld := ⟨R.SES_RC_STATUS i, 8, 7⟩
def R.SES_RC_CNT (i : Nat) : Nat := 0x70105C + 0x80 * i
def F.SES_RC_CNT_SALVAGED (i : Nat) : Fld := ⟨R.SES_RC_CNT i, 0, 16⟩
def F.SES_RC_CNT_ALL_SKIP (i : Nat) : Fld := ⟨R.SES_RC_CNT i, 16, 16⟩
def R.SES_MDCV (i : Nat) (j : Nat) : Nat := 0x701060 + 0x80 * i + 4 * j
def F.SES_MDCV_X (i : Nat) (j : Nat) : Fld := ⟨R.SES_MDCV i j, 0, 16⟩
def F.SES_MDCV_Y (i : Nat) (j : Nat) : Fld := ⟨R.SES_MDCV i j, 16, 16⟩
def R.SES_MAX_LUM (i : Nat) : Nat := 0x701070 + 0x80 * i
def F.SES_MAX_LUM_LUM (i : Nat) : Fld := ⟨R.SES_MAX_LUM i, 0, 32⟩
def R.SES_MIN_LUM (i : Nat) : Nat := 0x701074 + 0x80 * i
def F.SES_MIN_LUM_LUM (i : Nat) : Fld := ⟨R.SES_MIN_LUM i, 0, 32⟩
def R.SES_CLL (i : Nat) : Nat := 0x701078 + 0x80 * i
def F.SES_CLL_MAXCLL (i : Nat) : Fld := ⟨R.SES_CLL i, 0, 16⟩
def F.SES_CLL_MAXFALL (i : Nat) : Fld := ⟨R.SES_CLL i, 16, 16⟩
def R.SES_SHED (i : Nat) : Nat := 0x70107C + 0x80 * i
def F.SES_SHED_EFFORT_CAP (i : Nat) : Fld := ⟨R.SES_SHED i, 0, 3⟩
def F.SES_SHED_DROP (i : Nat) : Fld := ⟨R.SES_SHED i, 4, 2⟩
def R.DEC_CFG (i : Nat) : Nat := 0x70A000 + 0x40 * i
def F.DEC_CFG_EN (i : Nat) : Fld := ⟨R.DEC_CFG i, 0, 1⟩
def F.DEC_CFG_CODEC (i : Nat) : Fld := ⟨R.DEC_CFG i, 1, 1⟩
def F.DEC_CFG_CLASS (i : Nat) : Fld := ⟨R.DEC_CFG i, 2, 2⟩
def F.DEC_CFG_SRC (i : Nat) : Fld := ⟨R.DEC_CFG i, 4, 1⟩
def F.DEC_CFG_RXF (i : Nat) : Fld := ⟨R.DEC_CFG i, 8, 8⟩
def F.DEC_CFG_WAIT_RAP (i : Nat) : Fld := ⟨R.DEC_CFG i, 16, 1⟩
def R.DEC_MAX (i : Nat) : Nat := 0x70A004 + 0x40 * i
def F.DEC_MAX_MAX_W (i : Nat) : Fld := ⟨R.DEC_MAX i, 0, 16⟩
def F.DEC_MAX_MAX_H (i : Nat) : Fld := ⟨R.DEC_MAX i, 16, 16⟩
def R.DEC_MAX_FPS (i : Nat) : Nat := 0x70A008 + 0x40 * i
def F.DEC_MAX_FPS_FPS (i : Nat) : Fld := ⟨R.DEC_MAX_FPS i, 0, 16⟩
def R.DEC_OUT_BASE (i : Nat) : Nat := 0x70A00C + 0x40 * i
def F.DEC_OUT_BASE_BASE (i : Nat) : Fld := ⟨R.DEC_OUT_BASE i, 0, 28⟩
def R.DEC_OUT_RING (i : Nat) : Nat := 0x70A010 + 0x40 * i
def F.DEC_OUT_RING_BUFS (i : Nat) : Fld := ⟨R.DEC_OUT_RING i, 0, 4⟩
def F.DEC_OUT_RING_STRIDE (i : Nat) : Fld := ⟨R.DEC_OUT_RING i, 8, 24⟩
def R.DEC_IN_RING (i : Nat) : Nat := 0x70A014 + 0x40 * i
def F.DEC_IN_RING_BASE (i : Nat) : Fld := ⟨R.DEC_IN_RING i, 0, 24⟩
def F.DEC_IN_RING_SIZE_LOG2 (i : Nat) : Fld := ⟨R.DEC_IN_RING i, 28, 4⟩
def R.DEC_REC_RING (i : Nat) : Nat := 0x70A018 + 0x40 * i
def F.DEC_REC_RING_BASE (i : Nat) : Fld := ⟨R.DEC_REC_RING i, 0, 24⟩
def F.DEC_REC_RING_SIZE_LOG2 (i : Nat) : Fld := ⟨R.DEC_REC_RING i, 28, 4⟩
def R.DEC_IDX (i : Nat) : Nat := 0x70A01C + 0x40 * i
def F.DEC_IDX_IN_PROD (i : Nat) : Fld := ⟨R.DEC_IDX i, 0, 16⟩
def F.DEC_IDX_REC_PROD (i : Nat) : Fld := ⟨R.DEC_IDX i, 16, 16⟩
def R.DEC_STATUS (i : Nat) : Nat := 0x70A020 + 0x40 * i
def F.DEC_STATUS_STATE (i : Nat) : Fld := ⟨R.DEC_STATUS i, 0, 2⟩
def F.DEC_STATUS_CONCEALED (i : Nat) : Fld := ⟨R.DEC_STATUS i, 2, 1⟩
def F.DEC_STATUS_IN_CONS (i : Nat) : Fld := ⟨R.DEC_STATUS i, 16, 16⟩
def R.DEC_CNT (i : Nat) : Nat := 0x70A024 + 0x40 * i
def F.DEC_CNT_CONCEALED_PICS (i : Nat) : Fld := ⟨R.DEC_CNT i, 0, 16⟩
def F.DEC_CNT_SUBST_REFS (i : Nat) : Fld := ⟨R.DEC_CNT i, 16, 16⟩

/-! ### RAS -/
def R.RAS_CFG (i : Nat) : Nat := 0x801000 + 0x1000 * i
def F.RAS_CFG_EN (i : Nat) : Fld := ⟨R.RAS_CFG i, 0, 1⟩
def F.RAS_CFG_PLL (i : Nat) : Fld := ⟨R.RAS_CFG i, 1, 2⟩
def F.RAS_CFG_GROUP (i : Nat) : Fld := ⟨R.RAS_CFG i, 4, 2⟩
def F.RAS_CFG_HOLD_LAST (i : Nat) : Fld := ⟨R.RAS_CFG i, 8, 1⟩
def F.RAS_CFG_SRC (i : Nat) : Fld := ⟨R.RAS_CFG i, 9, 1⟩
def F.RAS_CFG_GK_PORT (i : Nat) : Fld := ⟨R.RAS_CFG i, 10, 3⟩
def R.RAS_TIMING0 (i : Nat) : Nat := 0x801004 + 0x1000 * i
def F.RAS_TIMING0_H_ACTIVE (i : Nat) : Fld := ⟨R.RAS_TIMING0 i, 0, 16⟩
def F.RAS_TIMING0_V_ACTIVE (i : Nat) : Fld := ⟨R.RAS_TIMING0 i, 16, 16⟩
def R.RAS_TIMING1 (i : Nat) : Nat := 0x801008 + 0x1000 * i
def F.RAS_TIMING1_H_TOTAL (i : Nat) : Fld := ⟨R.RAS_TIMING1 i, 0, 16⟩
def F.RAS_TIMING1_V_TOTAL (i : Nat) : Fld := ⟨R.RAS_TIMING1 i, 16, 16⟩
def R.RAS_RATE (i : Nat) : Nat := 0x80100C + 0x1000 * i
def F.RAS_RATE_NUM (i : Nat) : Fld := ⟨R.RAS_RATE i, 0, 16⟩
def F.RAS_RATE_DEN (i : Nat) : Fld := ⟨R.RAS_RATE i, 16, 12⟩
def R.RAS_FMT (i : Nat) : Nat := 0x801010 + 0x1000 * i
def F.RAS_FMT_YCC (i : Nat) : Fld := ⟨R.RAS_FMT i, 0, 2⟩
def F.RAS_FMT_RANGE (i : Nat) : Fld := ⟨R.RAS_FMT i, 2, 1⟩
def F.RAS_FMT_TF (i : Nat) : Fld := ⟨R.RAS_FMT i, 3, 3⟩
def F.RAS_FMT_INTERLACE (i : Nat) : Fld := ⟨R.RAS_FMT i, 6, 1⟩
def F.RAS_FMT_PL_DEPTH (i : Nat) : Fld := ⟨R.RAS_FMT i, 8, 1⟩
def R.RAS_BG (i : Nat) : Nat := 0x801014 + 0x1000 * i
def F.RAS_BG_COLOUR (i : Nat) : Fld := ⟨R.RAS_BG i, 0, 30⟩
def R.RAS_EPOCH_LO (i : Nat) : Nat := 0x801018 + 0x1000 * i
def F.RAS_EPOCH_LO_EPOCH (i : Nat) : Fld := ⟨R.RAS_EPOCH_LO i, 0, 32⟩
def R.RAS_EPOCH_HI (i : Nat) : Nat := 0x80101C + 0x1000 * i
def F.RAS_EPOCH_HI_EPOCH (i : Nat) : Fld := ⟨R.RAS_EPOCH_HI i, 0, 32⟩
def R.RAS_COMMIT (i : Nat) : Nat := 0x801020 + 0x1000 * i
def F.RAS_COMMIT_GO (i : Nat) : Fld := ⟨R.RAS_COMMIT i, 0, 1⟩
def R.RAS_FETCH (i : Nat) : Nat := 0x801024 + 0x1000 * i
def F.RAS_FETCH_FETCH_LEAD (i : Nat) : Fld := ⟨R.RAS_FETCH i, 0, 4⟩
def R.RAS_FRZ (i : Nat) : Nat := 0x801028 + 0x1000 * i
def F.RAS_FRZ_EN (i : Nat) : Fld := ⟨R.RAS_FRZ i, 0, 1⟩
def F.RAS_FRZ_LAYER (i : Nat) : Fld := ⟨R.RAS_FRZ i, 1, 3⟩
def F.RAS_FRZ_FRAMES (i : Nat) : Fld := ⟨R.RAS_FRZ i, 4, 8⟩
def R.RAS_FRZ_XY (i : Nat) : Nat := 0x80102C + 0x1000 * i
def F.RAS_FRZ_XY_X (i : Nat) : Fld := ⟨R.RAS_FRZ_XY i, 0, 16⟩
def F.RAS_FRZ_XY_Y (i : Nat) : Fld := ⟨R.RAS_FRZ_XY i, 16, 16⟩
def R.RAS_FRZ_WH (i : Nat) : Nat := 0x801030 + 0x1000 * i
def F.RAS_FRZ_WH_W (i : Nat) : Fld := ⟨R.RAS_FRZ_WH i, 0, 16⟩
def F.RAS_FRZ_WH_H (i : Nat) : Fld := ⟨R.RAS_FRZ_WH i, 16, 16⟩
def R.RAS_PANEL (i : Nat) : Nat := 0x801034 + 0x1000 * i
def F.RAS_PANEL_PL_RATE (i : Nat) : Fld := ⟨R.RAS_PANEL i, 0, 1⟩
def F.RAS_PANEL_PL_LANES (i : Nat) : Fld := ⟨R.RAS_PANEL i, 1, 2⟩
def F.RAS_PANEL_V_SLEW (i : Nat) : Fld := ⟨R.RAS_PANEL i, 4, 8⟩
def F.RAS_PANEL_TRAIN_US (i : Nat) : Fld := ⟨R.RAS_PANEL i, 16, 12⟩
def R.RAS_RB (i : Nat) : Nat := 0x801038 + 0x1000 * i
def F.RAS_RB_RB_EN (i : Nat) : Fld := ⟨R.RAS_RB i, 0, 1⟩
def F.RAS_RB_RB_LIMIT (i : Nat) : Fld := ⟨R.RAS_RB i, 8, 8⟩
def R.RAS_STATUS (i : Nat) : Nat := 0x801040 + 0x1000 * i
def F.RAS_STATUS_LOCKED (i : Nat) : Fld := ⟨R.RAS_STATUS i, 0, 1⟩
def F.RAS_STATUS_VBLANK (i : Nat) : Fld := ⟨R.RAS_STATUS i, 1, 1⟩
def F.RAS_STATUS_FROZEN (i : Nat) : Fld := ⟨R.RAS_STATUS i, 2, 1⟩
def F.RAS_STATUS_PENDING (i : Nat) : Fld := ⟨R.RAS_STATUS i, 3, 1⟩
def F.RAS_STATUS_PHASE_NS (i : Nat) : Fld := ⟨R.RAS_STATUS i, 16, 16⟩
def R.RAS_FRAME (i : Nat) : Nat := 0x801044 + 0x1000 * i
def F.RAS_FRAME_COUNT (i : Nat) : Fld := ⟨R.RAS_FRAME i, 0, 32⟩
def R.RAS_CNT (i : Nat) : Nat := 0x801048 + 0x1000 * i
def F.RAS_CNT_UNDERRUN (i : Nat) : Fld := ⟨R.RAS_CNT i, 0, 16⟩
def F.RAS_CNT_REPEATS (i : Nat) : Fld := ⟨R.RAS_CNT i, 16, 16⟩
def R.RAS_SIG (i : Nat) : Nat := 0x80104C + 0x1000 * i
def F.RAS_SIG_SIG (i : Nat) : Fld := ⟨R.RAS_SIG i, 0, 32⟩
def R.RAS_RB_CNT (i : Nat) : Nat := 0x801050 + 0x1000 * i
def F.RAS_RB_CNT_MISMATCH (i : Nat) : Fld := ⟨R.RAS_RB_CNT i, 0, 16⟩
def F.RAS_RB_CNT_LOST (i : Nat) : Fld := ⟨R.RAS_RB_CNT i, 16, 16⟩
def R.RAS_LAY_CFG (i : Nat) (j : Nat) : Nat := 0x801100 + 0x1000 * i + 0x40 * j
def F.RAS_LAY_CFG_EN (i : Nat) (j : Nat) : Fld := ⟨R.RAS_LAY_CFG i j, 0, 1⟩
def F.RAS_LAY_CFG_KIND (i : Nat) (j : Nat) : Fld := ⟨R.RAS_LAY_CFG i j, 1, 2⟩
def F.RAS_LAY_CFG_GFX_FMT (i : Nat) (j : Nat) : Fld := ⟨R.RAS_LAY_CFG i j, 4, 2⟩
def F.RAS_LAY_CFG_GFX_BUF (i : Nat) (j : Nat) : Fld := ⟨R.RAS_LAY_CFG i j, 6, 1⟩
def F.RAS_LAY_CFG_GUIDE (i : Nat) (j : Nat) : Fld := ⟨R.RAS_LAY_CFG i j, 8, 2⟩
def F.RAS_LAY_CFG_SRC (i : Nat) (j : Nat) : Fld := ⟨R.RAS_LAY_CFG i j, 16, 8⟩
def F.RAS_LAY_CFG_GA (i : Nat) (j : Nat) : Fld := ⟨R.RAS_LAY_CFG i j, 24, 8⟩
def R.RAS_LAY_POS (i : Nat) (j : Nat) : Nat := 0x801104 + 0x1000 * i + 0x40 * j
def F.RAS_LAY_POS_X (i : Nat) (j : Nat) : Fld := ⟨R.RAS_LAY_POS i j, 0, 16⟩
def F.RAS_LAY_POS_Y (i : Nat) (j : Nat) : Fld := ⟨R.RAS_LAY_POS i j, 16, 16⟩
def R.RAS_LAY_SIZE (i : Nat) (j : Nat) : Nat := 0x801108 + 0x1000 * i + 0x40 * j
def F.RAS_LAY_SIZE_W (i : Nat) (j : Nat) : Fld := ⟨R.RAS_LAY_SIZE i j, 0, 16⟩
def F.RAS_LAY_SIZE_H (i : Nat) (j : Nat) : Fld := ⟨R.RAS_LAY_SIZE i j, 16, 16⟩
def R.RAS_LAY_SRC_XY (i : Nat) (j : Nat) : Nat := 0x80110C + 0x1000 * i + 0x40 * j
def F.RAS_LAY_SRC_XY_X (i : Nat) (j : Nat) : Fld := ⟨R.RAS_LAY_SRC_XY i j, 0, 16⟩
def F.RAS_LAY_SRC_XY_Y (i : Nat) (j : Nat) : Fld := ⟨R.RAS_LAY_SRC_XY i j, 16, 16⟩
def R.RAS_LAY_DELAY (i : Nat) (j : Nat) : Nat := 0x801110 + 0x1000 * i + 0x40 * j
def F.RAS_LAY_DELAY_DELAY_US (i : Nat) (j : Nat) : Fld := ⟨R.RAS_LAY_DELAY i j, 0, 24⟩
def R.RAS_LAY_GFX0 (i : Nat) (j : Nat) : Nat := 0x801114 + 0x1000 * i + 0x40 * j
def F.RAS_LAY_GFX0_BASE (i : Nat) (j : Nat) : Fld := ⟨R.RAS_LAY_GFX0 i j, 0, 28⟩
def R.RAS_LAY_GFX1 (i : Nat) (j : Nat) : Nat := 0x801118 + 0x1000 * i + 0x40 * j
def F.RAS_LAY_GFX1_BASE (i : Nat) (j : Nat) : Fld := ⟨R.RAS_LAY_GFX1 i j, 0, 28⟩
def R.RAS_LAY_PITCH (i : Nat) (j : Nat) : Nat := 0x80111C + 0x1000 * i + 0x40 * j
def F.RAS_LAY_PITCH_PITCH (i : Nat) (j : Nat) : Fld := ⟨R.RAS_LAY_PITCH i j, 0, 16⟩
def R.RAS_LAY_COLOUR (i : Nat) (j : Nat) : Nat := 0x801120 + 0x1000 * i + 0x40 * j
def F.RAS_LAY_COLOUR_COLOUR (i : Nat) (j : Nat) : Fld := ⟨R.RAS_LAY_COLOUR i j, 0, 30⟩
def R.RAS_LAY_SHOWN (i : Nat) (j : Nat) : Nat := 0x801130 + 0x1000 * i + 0x40 * j
def F.RAS_LAY_SHOWN_FSEQ (i : Nat) (j : Nat) : Fld := ⟨R.RAS_LAY_SHOWN i j, 0, 32⟩
def R.GK_CFG (i : Nat) : Nat := 0x807000 + 0x100 * i
def F.GK_CFG_EN (i : Nat) : Fld := ⟨R.GK_CFG i, 0, 1⟩
def F.GK_CFG_BX (i : Nat) : Fld := ⟨R.GK_CFG i, 1, 2⟩
def F.GK_CFG_BY (i : Nat) : Fld := ⟨R.GK_CFG i, 3, 2⟩
def F.GK_CFG_FRAME_DIV (i : Nat) : Fld := ⟨R.GK_CFG i, 5, 2⟩
def F.GK_CFG_CFA (i : Nat) : Fld := ⟨R.GK_CFG i, 8, 2⟩
def R.GK_WIN_XY (i : Nat) : Nat := 0x807004 + 0x100 * i
def F.GK_WIN_XY_X (i : Nat) : Fld := ⟨R.GK_WIN_XY i, 0, 16⟩
def F.GK_WIN_XY_Y (i : Nat) : Fld := ⟨R.GK_WIN_XY i, 16, 16⟩
def R.GK_WIN_WH (i : Nat) : Nat := 0x807008 + 0x100 * i
def F.GK_WIN_WH_W (i : Nat) : Fld := ⟨R.GK_WIN_WH i, 0, 16⟩
def F.GK_WIN_WH_H (i : Nat) : Fld := ⟨R.GK_WIN_WH i, 16, 16⟩
def R.GK_LINE (i : Nat) : Nat := 0x80700C + 0x100 * i
def F.GK_LINE_T_LINE (i : Nat) : Fld := ⟨R.GK_LINE i, 0, 24⟩
def R.GK_ROW0 (i : Nat) : Nat := 0x807010 + 0x100 * i
def F.GK_ROW0_ROW0_NS (i : Nat) : Fld := ⟨R.GK_ROW0 i, 0, 32⟩
def R.GK_BLACK (i : Nat) : Nat := 0x807014 + 0x100 * i
def F.GK_BLACK_BLACK (i : Nat) : Fld := ⟨R.GK_BLACK i, 0, 16⟩
def R.GK_MISS (i : Nat) : Nat := 0x807018 + 0x100 * i
def F.GK_MISS_MISS_US (i : Nat) : Fld := ⟨R.GK_MISS i, 0, 16⟩
def R.GK_CNT (i : Nat) : Nat := 0x807020 + 0x100 * i
def F.GK_CNT_LATE (i : Nat) : Fld := ⟨R.GK_CNT i, 0, 16⟩
def F.GK_CNT_DAMAGED_ROWS (i : Nat) : Fld := ⟨R.GK_CNT i, 16, 16⟩
def R.GK_LUT (i : Nat) (j : Nat) (k : Nat) : Nat := 0x808000 + 0x1000 * i + 0x400 * j + 4 * k
def F.GK_LUT_ENTRY_EVEN (i : Nat) (j : Nat) (k : Nat) : Fld := ⟨R.GK_LUT i j k, 0, 16⟩
def F.GK_LUT_ENTRY_ODD (i : Nat) (j : Nat) (k : Nat) : Fld := ⟨R.GK_LUT i j k, 16, 16⟩

/-! ### SDI -/
def R.SDI_CFG (i : Nat) : Nat := 0x900100 + 0x10 * i
def F.SDI_CFG_EN (i : Nat) : Fld := ⟨R.SDI_CFG i, 0, 1⟩
def F.SDI_CFG_LINK (i : Nat) : Fld := ⟨R.SDI_CFG i, 1, 2⟩
def R.SDI_STATUS (i : Nat) : Nat := 0x900104 + 0x10 * i
def F.SDI_STATUS_ACTIVE (i : Nat) : Fld := ⟨R.SDI_STATUS i, 0, 1⟩
def F.SDI_STATUS_STD (i : Nat) : Fld := ⟨R.SDI_STATUS i, 4, 4⟩
def R.SDI_RS_CFG (i : Nat) : Nat := 0x901000 + 0x100 * i
def F.SDI_RS_CFG_MODE (i : Nat) : Fld := ⟨R.SDI_RS_CFG i, 0, 1⟩
def F.SDI_RS_CFG_STD (i : Nat) : Fld := ⟨R.SDI_RS_CFG i, 4, 4⟩
def F.SDI_RS_CFG_AUD_EN (i : Nat) : Fld := ⟨R.SDI_RS_CFG i, 8, 1⟩
def F.SDI_RS_CFG_TC_SRC (i : Nat) : Fld := ⟨R.SDI_RS_CFG i, 9, 1⟩
def R.SDI_RS_AUD (i : Nat) (j : Nat) : Nat := 0x901010 + 0x100 * i + 4 * j
def F.SDI_RS_AUD_AP (i : Nat) (j : Nat) : Fld := ⟨R.SDI_RS_AUD i j, 0, 3⟩
def F.SDI_RS_AUD_EN (i : Nat) (j : Nat) : Fld := ⟨R.SDI_RS_AUD i j, 3, 1⟩

/-! ### NET -/
def R.NET_CFG : Nat := 0xA00000
def F.NET_CFG_ETH0_MODE : Fld := ⟨R.NET_CFG, 0, 2⟩
def F.NET_CFG_ETH1_MODE : Fld := ⟨R.NET_CFG, 2, 2⟩
def F.NET_CFG_MBOX_EN : Fld := ⟨R.NET_CFG, 4, 1⟩
def F.NET_CFG_FEC25 : Fld := ⟨R.NET_CFG, 8, 16⟩
def R.NET_IF_IP (i : Nat) : Nat := 0xA00100 + 0x20 * i
def F.NET_IF_IP_IP (i : Nat) : Fld := ⟨R.NET_IF_IP i, 0, 32⟩
def R.NET_IF_MASK (i : Nat) : Nat := 0xA00104 + 0x20 * i
def F.NET_IF_MASK_MASK (i : Nat) : Fld := ⟨R.NET_IF_MASK i, 0, 32⟩
def R.NET_IF_MAC_LO (i : Nat) : Nat := 0xA00108 + 0x20 * i
def F.NET_IF_MAC_LO_MAC (i : Nat) : Fld := ⟨R.NET_IF_MAC_LO i, 0, 32⟩
def R.NET_IF_MAC_HI (i : Nat) : Nat := 0xA0010C + 0x20 * i
def F.NET_IF_MAC_HI_MAC (i : Nat) : Fld := ⟨R.NET_IF_MAC_HI i, 0, 16⟩
def F.NET_IF_MAC_HI_VID (i : Nat) : Fld := ⟨R.NET_IF_MAC_HI i, 16, 12⟩
def R.NET_IF_STATUS (i : Nat) : Nat := 0xA00110 + 0x20 * i
def F.NET_IF_STATUS_LINK (i : Nat) : Fld := ⟨R.NET_IF_STATUS i, 0, 1⟩
def R.NET_ING_LAT (i : Nat) : Nat := 0xA00400 + 0x40 * i
def F.NET_ING_LAT_LAT (i : Nat) : Fld := ⟨R.NET_ING_LAT i, 0, 32⟩
def R.NET_EGR_LAT (i : Nat) : Nat := 0xA00404 + 0x40 * i
def F.NET_EGR_LAT_LAT (i : Nat) : Fld := ⟨R.NET_EGR_LAT i, 0, 32⟩
def R.NET_ETH_CNT (i : Nat) : Nat := 0xA00408 + 0x40 * i
def F.NET_ETH_CNT_DOWNS (i : Nat) : Fld := ⟨R.NET_ETH_CNT i, 0, 16⟩
def F.NET_ETH_CNT_FCS_ERR (i : Nat) : Fld := ⟨R.NET_ETH_CNT i, 16, 16⟩
def R.TXF_CFG (i : Nat) : Nat := 0xA10000 + 0x40 * i
def F.TXF_CFG_EN (i : Nat) : Fld := ⟨R.TXF_CFG i, 0, 1⟩
def F.TXF_CFG_ESSENCE (i : Nat) : Fld := ⟨R.TXF_CFG i, 1, 3⟩
def F.TXF_CFG_IF_A (i : Nat) : Fld := ⟨R.TXF_CFG i, 4, 4⟩
def F.TXF_CFG_IF_B (i : Nat) : Fld := ⟨R.TXF_CFG i, 8, 4⟩
def F.TXF_CFG_RED (i : Nat) : Fld := ⟨R.TXF_CFG i, 12, 1⟩
def F.TXF_CFG_LINEAR (i : Nat) : Fld := ⟨R.TXF_CFG i, 13, 1⟩
def R.TXF_SRC (i : Nat) : Nat := 0xA10004 + 0x40 * i
def F.TXF_SRC_SRC (i : Nat) : Fld := ⟨R.TXF_SRC i, 0, 16⟩
def R.TXF_DST_A (i : Nat) : Nat := 0xA10008 + 0x40 * i
def F.TXF_DST_A_IP (i : Nat) : Fld := ⟨R.TXF_DST_A i, 0, 32⟩
def R.TXF_DST_B (i : Nat) : Nat := 0xA1000C + 0x40 * i
def F.TXF_DST_B_IP (i : Nat) : Fld := ⟨R.TXF_DST_B i, 0, 32⟩
def R.TXF_UDP (i : Nat) : Nat := 0xA10010 + 0x40 * i
def F.TXF_UDP_DPORT (i : Nat) : Fld := ⟨R.TXF_UDP i, 0, 16⟩
def F.TXF_UDP_SPORT (i : Nat) : Fld := ⟨R.TXF_UDP i, 16, 16⟩
def R.TXF_RTP (i : Nat) : Nat := 0xA10014 + 0x40 * i
def F.TXF_RTP_PT (i : Nat) : Fld := ⟨R.TXF_RTP i, 0, 7⟩
def F.TXF_RTP_DSCP (i : Nat) : Fld := ⟨R.TXF_RTP i, 8, 6⟩
def F.TXF_RTP_TTL (i : Nat) : Fld := ⟨R.TXF_RTP i, 16, 8⟩
def R.TXF_SSRC (i : Nat) : Nat := 0xA10018 + 0x40 * i
def F.TXF_SSRC_SSRC (i : Nat) : Fld := ⟨R.TXF_SSRC i, 0, 32⟩
def R.TXF_ESS0 (i : Nat) : Nat := 0xA10020 + 0x40 * i
def F.TXF_ESS0_WORD (i : Nat) : Fld := ⟨R.TXF_ESS0 i, 0, 32⟩
def R.TXF_ESS1 (i : Nat) : Nat := 0xA10024 + 0x40 * i
def F.TXF_ESS1_WORD (i : Nat) : Fld := ⟨R.TXF_ESS1 i, 0, 32⟩
def R.TXF_ESS2 (i : Nat) : Nat := 0xA10028 + 0x40 * i
def F.TXF_ESS2_WORD (i : Nat) : Fld := ⟨R.TXF_ESS2 i, 0, 32⟩
def R.TXF_ESS3 (i : Nat) : Nat := 0xA1002C + 0x40 * i
def F.TXF_ESS3_RACTIVE (i : Nat) : Fld := ⟨R.TXF_ESS3 i, 0, 16⟩
def R.TXF_STATUS (i : Nat) : Nat := 0xA10030 + 0x40 * i
def F.TXF_STATUS_STATE (i : Nat) : Fld := ⟨R.TXF_STATUS i, 0, 2⟩
def R.TXF_CNT_PKT (i : Nat) : Nat := 0xA10034 + 0x40 * i
def F.TXF_CNT_PKT_COUNT (i : Nat) : Fld := ⟨R.TXF_CNT_PKT i, 0, 32⟩
def R.TXF_CNT_DROP (i : Nat) : Nat := 0xA10038 + 0x40 * i
def F.TXF_CNT_DROP_COUNT (i : Nat) : Fld := ⟨R.TXF_CNT_DROP i, 0, 32⟩
def R.RXF_CFG (i : Nat) : Nat := 0xA20000 + 0x40 * i
def F.RXF_CFG_EN (i : Nat) : Fld := ⟨R.RXF_CFG i, 0, 1⟩
def F.RXF_CFG_ESSENCE (i : Nat) : Fld := ⟨R.RXF_CFG i, 1, 3⟩
def F.RXF_CFG_IF_A (i : Nat) : Fld := ⟨R.RXF_CFG i, 4, 4⟩
def F.RXF_CFG_IF_B (i : Nat) : Fld := ⟨R.RXF_CFG i, 8, 4⟩
def F.RXF_CFG_RED (i : Nat) : Fld := ⟨R.RXF_CFG i, 12, 1⟩
def R.RXF_DEST (i : Nat) : Nat := 0xA20004 + 0x40 * i
def F.RXF_DEST_DEST (i : Nat) : Fld := ⟨R.RXF_DEST i, 0, 8⟩
def R.RXF_GROUP_A (i : Nat) : Nat := 0xA20008 + 0x40 * i
def F.RXF_GROUP_A_IP (i : Nat) : Fld := ⟨R.RXF_GROUP_A i, 0, 32⟩
def R.RXF_GROUP_B (i : Nat) : Nat := 0xA2000C + 0x40 * i
def F.RXF_GROUP_B_IP (i : Nat) : Fld := ⟨R.RXF_GROUP_B i, 0, 32⟩
def R.RXF_SRC_IP (i : Nat) : Nat := 0xA20010 + 0x40 * i
def F.RXF_SRC_IP_IP (i : Nat) : Fld := ⟨R.RXF_SRC_IP i, 0, 32⟩
def R.RXF_UDP (i : Nat) : Nat := 0xA20014 + 0x40 * i
def F.RXF_UDP_DPORT (i : Nat) : Fld := ⟨R.RXF_UDP i, 0, 16⟩
def F.RXF_UDP_PT (i : Nat) : Fld := ⟨R.RXF_UDP i, 16, 7⟩
def R.RXF_SKEW (i : Nat) : Nat := 0xA20018 + 0x40 * i
def F.RXF_SKEW_SKEW_US (i : Nat) : Fld := ⟨R.RXF_SKEW i, 0, 16⟩
def R.RXF_BUF (i : Nat) : Nat := 0xA20024 + 0x40 * i
def F.RXF_BUF_BASE (i : Nat) : Fld := ⟨R.RXF_BUF i, 0, 32⟩
def R.RXF_STATUS (i : Nat) : Nat := 0xA20030 + 0x40 * i
def F.RXF_STATUS_PATHS (i : Nat) : Fld := ⟨R.RXF_STATUS i, 0, 2⟩
def R.RXF_CNT_RX (i : Nat) : Nat := 0xA20034 + 0x40 * i
def F.RXF_CNT_RX_COUNT (i : Nat) : Fld := ⟨R.RXF_CNT_RX i, 0, 32⟩
def R.RXF_CNT_LOST (i : Nat) : Nat := 0xA20038 + 0x40 * i
def F.RXF_CNT_LOST_COUNT (i : Nat) : Fld := ⟨R.RXF_CNT_LOST i, 0, 32⟩
def R.RXF_CNT_RECOVERED (i : Nat) : Nat := 0xA2003C + 0x40 * i
def F.RXF_CNT_RECOVERED_COUNT (i : Nat) : Fld := ⟨R.RXF_CNT_RECOVERED i, 0, 32⟩

/-! ### TIME -/
def R.TIME_NOW_SEC_LO : Nat := 0xB00000
def F.TIME_NOW_SEC_LO_VALUE : Fld := ⟨R.TIME_NOW_SEC_LO, 0, 32⟩
def R.TIME_NOW_SEC_HI : Nat := 0xB00004
def F.TIME_NOW_SEC_HI_VALUE : Fld := ⟨R.TIME_NOW_SEC_HI, 0, 16⟩
def R.TIME_NOW_NS : Nat := 0xB00008
def F.TIME_NOW_NS_VALUE : Fld := ⟨R.TIME_NOW_NS, 0, 30⟩
def R.TIME_NOW_SUBNS : Nat := 0xB0000C
def F.TIME_NOW_SUBNS_VALUE : Fld := ⟨R.TIME_NOW_SUBNS, 0, 16⟩
def R.TIME_NOW_STIME_LO : Nat := 0xB00010
def F.TIME_NOW_STIME_LO_VALUE : Fld := ⟨R.TIME_NOW_STIME_LO, 0, 32⟩
def R.TIME_NOW_STIME_HI : Nat := 0xB00014
def F.TIME_NOW_STIME_HI_VALUE : Fld := ⟨R.TIME_NOW_STIME_HI, 0, 32⟩
def R.TIME_CTRL : Nat := 0xB00020
def F.TIME_CTRL_SET : Fld := ⟨R.TIME_CTRL, 0, 1⟩
def F.TIME_CTRL_STEP_NOW : Fld := ⟨R.TIME_CTRL, 1, 1⟩
def R.TIME_SET_SEC_LO : Nat := 0xB00024
def F.TIME_SET_SEC_LO_SEC : Fld := ⟨R.TIME_SET_SEC_LO, 0, 32⟩
def R.TIME_SET_SEC_HI : Nat := 0xB00028
def F.TIME_SET_SEC_HI_SEC : Fld := ⟨R.TIME_SET_SEC_HI, 0, 16⟩
def R.TIME_SET_NS : Nat := 0xB0002C
def F.TIME_SET_NS_NS : Fld := ⟨R.TIME_SET_NS, 0, 30⟩
def R.TIME_STATUS : Nat := 0xB00030
def F.TIME_STATUS_STATE : Fld := ⟨R.TIME_STATUS, 0, 2⟩
def F.TIME_STATUS_STEP_PENDING : Fld := ⟨R.TIME_STATUS, 2, 1⟩
def F.TIME_STATUS_LEADER : Fld := ⟨R.TIME_STATUS, 3, 1⟩
def F.TIME_STATUS_PORT_B_ACTIVE : Fld := ⟨R.TIME_STATUS, 4, 1⟩
def R.TIME_OFFSET : Nat := 0xB00034
def F.TIME_OFFSET_OFFSET_NS : Fld := ⟨R.TIME_OFFSET, 0, 32⟩
def R.TIME_INCR : Nat := 0xB00038
def F.TIME_INCR_INCR : Fld := ⟨R.TIME_INCR, 0, 32⟩
def R.PTP_CFG : Nat := 0xB00100
def F.PTP_CFG_EN : Fld := ⟨R.PTP_CFG, 0, 1⟩
def F.PTP_CFG_ROLE : Fld := ⟨R.PTP_CFG, 1, 2⟩
def F.PTP_CFG_HYBRID : Fld := ⟨R.PTP_CFG, 3, 1⟩
def F.PTP_CFG_DOMAIN : Fld := ⟨R.PTP_CFG, 8, 8⟩
def F.PTP_CFG_PORT_A : Fld := ⟨R.PTP_CFG, 16, 4⟩
def F.PTP_CFG_PORT_B : Fld := ⟨R.PTP_CFG, 20, 5⟩
def R.PTP_INTERVALS : Nat := 0xB00104
def F.PTP_INTERVALS_SYNC_LOG : Fld := ⟨R.PTP_INTERVALS, 0, 8⟩
def F.PTP_INTERVALS_ANNOUNCE_LOG : Fld := ⟨R.PTP_INTERVALS, 8, 8⟩
def F.PTP_INTERVALS_DELAY_LOG : Fld := ⟨R.PTP_INTERVALS, 16, 8⟩
def F.PTP_INTERVALS_ANN_TIMEOUT : Fld := ⟨R.PTP_INTERVALS, 24, 4⟩
def R.PTP_PRIO : Nat := 0xB00108
def F.PTP_PRIO_PRIORITY1 : Fld := ⟨R.PTP_PRIO, 0, 8⟩
def F.PTP_PRIO_PRIORITY2 : Fld := ⟨R.PTP_PRIO, 8, 8⟩
def F.PTP_PRIO_CLOCK_CLASS : Fld := ⟨R.PTP_PRIO, 16, 8⟩
def R.PTP_SERVO : Nat := 0xB0010C
def F.PTP_SERVO_LOCK_NS : Fld := ⟨R.PTP_SERVO, 0, 10⟩
def F.PTP_SERVO_UNLOCK_NS : Fld := ⟨R.PTP_SERVO, 10, 10⟩
def F.PTP_SERVO_SLEW_PPM : Fld := ⟨R.PTP_SERVO, 20, 9⟩
def R.PTP_STEP_NS : Nat := 0xB00110
def F.PTP_STEP_NS_STEP_NS : Fld := ⟨R.PTP_STEP_NS, 0, 32⟩
def R.PTP_UTC_OFFSET : Nat := 0xB00114
def F.PTP_UTC_OFFSET_UTC_OFFSET : Fld := ⟨R.PTP_UTC_OFFSET, 0, 16⟩
def R.TRIG_EPOCH_LO (i : Nat) : Nat := 0xB01000 + 0x40 * i
def F.TRIG_EPOCH_LO_EPOCH (i : Nat) : Fld := ⟨R.TRIG_EPOCH_LO i, 0, 32⟩
def R.TRIG_EPOCH_HI (i : Nat) : Nat := 0xB01004 + 0x40 * i
def F.TRIG_EPOCH_HI_EPOCH (i : Nat) : Fld := ⟨R.TRIG_EPOCH_HI i, 0, 32⟩
def R.TRIG_RATE (i : Nat) : Nat := 0xB01008 + 0x40 * i
def F.TRIG_RATE_NUM (i : Nat) : Fld := ⟨R.TRIG_RATE i, 0, 16⟩
def F.TRIG_RATE_DEN (i : Nat) : Fld := ⟨R.TRIG_RATE i, 16, 12⟩
def R.TRIG_ENT (i : Nat) (j : Nat) : Nat := 0xB0100C + 0x40 * i + 4 * j
def F.TRIG_ENT_OFFSET_NS (i : Nat) (j : Nat) : Fld := ⟨R.TRIG_ENT i j, 0, 28⟩
def F.TRIG_ENT_PLAN (i : Nat) (j : Nat) : Fld := ⟨R.TRIG_ENT i j, 28, 2⟩
def F.TRIG_ENT_EN (i : Nat) (j : Nat) : Fld := ⟨R.TRIG_ENT i j, 31, 1⟩
def R.TRIG_CTRL (i : Nat) : Nat := 0xB0101C + 0x40 * i
def F.TRIG_CTRL_EN (i : Nat) : Fld := ⟨R.TRIG_CTRL i, 0, 1⟩
def F.TRIG_CTRL_COMMIT (i : Nat) : Fld := ⟨R.TRIG_CTRL i, 1, 1⟩
def R.TRIG_NEXT_LO (i : Nat) : Nat := 0xB01020 + 0x40 * i
def F.TRIG_NEXT_LO_NEXT (i : Nat) : Fld := ⟨R.TRIG_NEXT_LO i, 0, 32⟩
def R.TRIG_NEXT_HI (i : Nat) : Nat := 0xB01024 + 0x40 * i
def F.TRIG_NEXT_HI_NEXT (i : Nat) : Fld := ⟨R.TRIG_NEXT_HI i, 0, 32⟩
def R.PG_CFG (i : Nat) : Nat := 0xB02000 + 0x20 * i
def F.PG_CFG_EN (i : Nat) : Fld := ⟨R.PG_CFG i, 0, 1⟩
def F.PG_CFG_GPIO (i : Nat) : Fld := ⟨R.PG_CFG i, 1, 4⟩
def F.PG_CFG_POL (i : Nat) : Fld := ⟨R.PG_CFG i, 5, 1⟩
def R.PG_EPOCH_LO (i : Nat) : Nat := 0xB02004 + 0x20 * i
def F.PG_EPOCH_LO_EPOCH (i : Nat) : Fld := ⟨R.PG_EPOCH_LO i, 0, 32⟩
def R.PG_EPOCH_HI (i : Nat) : Nat := 0xB02008 + 0x20 * i
def F.PG_EPOCH_HI_EPOCH (i : Nat) : Fld := ⟨R.PG_EPOCH_HI i, 0, 32⟩
def R.PG_RATE (i : Nat) : Nat := 0xB0200C + 0x20 * i
def F.PG_RATE_NUM (i : Nat) : Fld := ⟨R.PG_RATE i, 0, 16⟩
def F.PG_RATE_DEN (i : Nat) : Fld := ⟨R.PG_RATE i, 16, 12⟩
def R.PG_WIDTH (i : Nat) : Nat := 0xB02010 + 0x20 * i
def F.PG_WIDTH_WIDTH_NS (i : Nat) : Fld := ⟨R.PG_WIDTH i, 0, 28⟩
def R.PG_OFFSET (i : Nat) : Nat := 0xB02014 + 0x20 * i
def F.PG_OFFSET_OFFSET_NS (i : Nat) : Fld := ⟨R.PG_OFFSET i, 0, 28⟩
def R.TC_CFG : Nat := 0xB03000
def F.TC_CFG_SRC : Fld := ⟨R.TC_CFG, 0, 2⟩
def F.TC_CFG_RATE : Fld := ⟨R.TC_CFG, 4, 4⟩
def F.TC_CFG_USE_SM : Fld := ⟨R.TC_CFG, 8, 1⟩
def R.TC_TZ : Nat := 0xB03004
def F.TC_TZ_TZ_OFFSET_S : Fld := ⟨R.TC_TZ, 0, 32⟩
def R.TC_JAM : Nat := 0xB03008
def F.TC_JAM_JAM_TOD : Fld := ⟨R.TC_JAM, 0, 17⟩
def R.TC_NOW : Nat := 0xB03010
def F.TC_NOW_TC : Fld := ⟨R.TC_NOW, 0, 32⟩

/-! ### AUD -/
def R.AUD_DOM_CFG (i : Nat) : Nat := 0xC00100 + 0x40 * i
def F.AUD_DOM_CFG_EN (i : Nat) : Fld := ⟨R.AUD_DOM_CFG i, 0, 1⟩
def F.AUD_DOM_CFG_MODE (i : Nat) : Fld := ⟨R.AUD_DOM_CFG i, 1, 1⟩
def F.AUD_DOM_CFG_RATE (i : Nat) : Fld := ⟨R.AUD_DOM_CFG i, 2, 3⟩
def F.AUD_DOM_CFG_REF_PORT (i : Nat) : Fld := ⟨R.AUD_DOM_CFG i, 8, 3⟩
def F.AUD_DOM_CFG_MCLK_EN (i : Nat) : Fld := ⟨R.AUD_DOM_CFG i, 11, 1⟩
def F.AUD_DOM_CFG_KP (i : Nat) : Fld := ⟨R.AUD_DOM_CFG i, 16, 4⟩
def F.AUD_DOM_CFG_KI (i : Nat) : Fld := ⟨R.AUD_DOM_CFG i, 20, 4⟩
def F.AUD_DOM_CFG_MAX_PPM (i : Nat) : Fld := ⟨R.AUD_DOM_CFG i, 24, 8⟩
def R.AUD_DOM_STATUS (i : Nat) : Nat := 0xC00104 + 0x40 * i
def F.AUD_DOM_STATUS_LOCKED (i : Nat) : Fld := ⟨R.AUD_DOM_STATUS i, 0, 1⟩
def F.AUD_DOM_STATUS_HOLD (i : Nat) : Fld := ⟨R.AUD_DOM_STATUS i, 1, 1⟩
def F.AUD_DOM_STATUS_FILL (i : Nat) : Fld := ⟨R.AUD_DOM_STATUS i, 8, 7⟩
def R.AUD_DOM_FREQ (i : Nat) : Nat := 0xC00108 + 0x40 * i
def F.AUD_DOM_FREQ_FREQ_ADJ (i : Nat) : Fld := ⟨R.AUD_DOM_FREQ i, 0, 32⟩
def R.AUD_DOM_CNT (i : Nat) : Nat := 0xC0010C + 0x40 * i
def F.AUD_DOM_CNT_HOLDS (i : Nat) : Fld := ⟨R.AUD_DOM_CNT i, 0, 16⟩
def R.AUD_AP_CFG (i : Nat) : Nat := 0xC01000 + 0x40 * i
def F.AUD_AP_CFG_EN (i : Nat) : Fld := ⟨R.AUD_AP_CFG i, 0, 1⟩
def F.AUD_AP_CFG_DIR (i : Nat) : Fld := ⟨R.AUD_AP_CFG i, 1, 1⟩
def F.AUD_AP_CFG_MASTER (i : Nat) : Fld := ⟨R.AUD_AP_CFG i, 2, 1⟩
def F.AUD_AP_CFG_DOMAIN (i : Nat) : Fld := ⟨R.AUD_AP_CFG i, 3, 1⟩
def F.AUD_AP_CFG_ALIGN (i : Nat) : Fld := ⟨R.AUD_AP_CFG i, 4, 2⟩
def F.AUD_AP_CFG_WLEN (i : Nat) : Fld := ⟨R.AUD_AP_CFG i, 6, 2⟩
def F.AUD_AP_CFG_SLOT16 (i : Nat) : Fld := ⟨R.AUD_AP_CFG i, 8, 1⟩
def F.AUD_AP_CFG_WS_POL (i : Nat) : Fld := ⟨R.AUD_AP_CFG i, 9, 1⟩
def R.AUD_AP_SRC (i : Nat) : Nat := 0xC01004 + 0x40 * i
def F.AUD_AP_SRC_KIND (i : Nat) : Fld := ⟨R.AUD_AP_SRC i, 0, 2⟩
def F.AUD_AP_SRC_INDEX (i : Nat) : Fld := ⟨R.AUD_AP_SRC i, 4, 3⟩
def F.AUD_AP_SRC_PAIR (i : Nat) : Fld := ⟨R.AUD_AP_SRC i, 8, 3⟩
def R.AUD_AP_ROUTE (i : Nat) : Nat := 0xC01008 + 0x40 * i
def F.AUD_AP_ROUTE_REC_CTX (i : Nat) : Fld := ⟨R.AUD_AP_ROUTE i, 0, 16⟩
def R.AUD_AP_STATUS (i : Nat) : Nat := 0xC0100C + 0x40 * i
def F.AUD_AP_STATUS_MUTED (i : Nat) : Fld := ⟨R.AUD_AP_STATUS i, 0, 1⟩
def F.AUD_AP_STATUS_CLK_OK (i : Nat) : Fld := ⟨R.AUD_AP_STATUS i, 1, 1⟩
def F.AUD_AP_STATUS_RAMPING (i : Nat) : Fld := ⟨R.AUD_AP_STATUS i, 2, 1⟩
def F.AUD_AP_STATUS_GOOD (i : Nat) : Fld := ⟨R.AUD_AP_STATUS i, 8, 7⟩
def R.AUD_AP_CNT (i : Nat) : Nat := 0xC01010 + 0x40 * i
def F.AUD_AP_CNT_LOSSES (i : Nat) : Fld := ⟨R.AUD_AP_CNT i, 0, 16⟩
def F.AUD_AP_CNT_SLIPS (i : Nat) : Fld := ⟨R.AUD_AP_CNT i, 16, 16⟩
def R.AUD_NA_CFG (i : Nat) : Nat := 0xC02000 + 0x20 * i
def F.AUD_NA_CFG_EN (i : Nat) : Fld := ⟨R.AUD_NA_CFG i, 0, 1⟩
def F.AUD_NA_CFG_DOMAIN (i : Nat) : Fld := ⟨R.AUD_NA_CFG i, 1, 1⟩
def F.AUD_NA_CFG_PLAYOUT_US (i : Nat) : Fld := ⟨R.AUD_NA_CFG i, 4, 16⟩
def R.AUD_NA_CNT (i : Nat) : Nat := 0xC02004 + 0x20 * i
def F.AUD_NA_CNT_LATE (i : Nat) : Fld := ⟨R.AUD_NA_CNT i, 0, 16⟩

/-! ### MEM -/
def R.MEM_STATUS : Nat := 0xD00000
def F.MEM_STATUS_DEGRADED : Fld := ⟨R.MEM_STATUS, 0, 1⟩
def F.MEM_STATUS_NO_REDUNDANCY : Fld := ⟨R.MEM_STATUS, 1, 1⟩
def F.MEM_STATUS_POWER : Fld := ⟨R.MEM_STATUS, 2, 2⟩
def F.MEM_STATUS_TRAINED : Fld := ⟨R.MEM_STATUS, 4, 4⟩
def R.MEM_CLASS_LIMIT : Nat := 0xD00010
def F.MEM_CLASS_LIMIT_RECORD : Fld := ⟨R.MEM_CLASS_LIMIT, 0, 9⟩
def F.MEM_CLASS_LIMIT_LADDER : Fld := ⟨R.MEM_CLASS_LIMIT, 9, 9⟩
def F.MEM_CLASS_LIMIT_BACKGROUND : Fld := ⟨R.MEM_CLASS_LIMIT, 18, 9⟩
def F.MEM_CLASS_LIMIT_RSV : Fld := ⟨R.MEM_CLASS_LIMIT, 27, 5⟩
def R.MEM_SCRUB_CFG : Nat := 0xD00020
def F.MEM_SCRUB_CFG_PERIOD_H : Fld := ⟨R.MEM_SCRUB_CFG, 0, 5⟩
def R.MEM_SCRUB_STATUS : Nat := 0xD00024
def F.MEM_SCRUB_STATUS_PROGRESS : Fld := ⟨R.MEM_SCRUB_STATUS, 0, 10⟩
def F.MEM_SCRUB_STATUS_PASSES : Fld := ⟨R.MEM_SCRUB_STATUS, 16, 16⟩
def R.MEM_PARITY_CNT : Nat := 0xD00028
def F.MEM_PARITY_CNT_RECON : Fld := ⟨R.MEM_PARITY_CNT, 0, 16⟩
def F.MEM_PARITY_CNT_FIXES : Fld := ⟨R.MEM_PARITY_CNT, 16, 16⟩
def R.MEM_INJ_ADDR : Nat := 0xD00030
def F.MEM_INJ_ADDR_OFFSET : Fld := ⟨R.MEM_INJ_ADDR, 0, 28⟩
def R.MEM_INJ_CTRL : Nat := 0xD00034
def F.MEM_INJ_CTRL_POOL : Fld := ⟨R.MEM_INJ_CTRL, 0, 3⟩
def F.MEM_INJ_CTRL_SYMBOLS : Fld := ⟨R.MEM_INJ_CTRL, 3, 2⟩
def F.MEM_INJ_CTRL_GO : Fld := ⟨R.MEM_INJ_CTRL, 8, 1⟩
def R.MEM_POOL_CFG (i : Nat) : Nat := 0xD00100 + 0x10 * i
def F.MEM_POOL_CFG_SIZE_MIB (i : Nat) : Fld := ⟨R.MEM_POOL_CFG i, 0, 24⟩
def F.MEM_POOL_CFG_PARITY (i : Nat) : Fld := ⟨R.MEM_POOL_CFG i, 24, 1⟩
def F.MEM_POOL_CFG_HOME_EN (i : Nat) : Fld := ⟨R.MEM_POOL_CFG i, 25, 1⟩
def F.MEM_POOL_CFG_HOME (i : Nat) : Fld := ⟨R.MEM_POOL_CFG i, 26, 2⟩
def R.MEM_POOL_BASE (i : Nat) : Nat := 0xD00104 + 0x10 * i
def F.MEM_POOL_BASE_BASE_MIB (i : Nat) : Fld := ⟨R.MEM_POOL_BASE i, 0, 24⟩
def R.MEM_STACK_STATUS (i : Nat) : Nat := 0xD00200 + 0x20 * i
def F.MEM_STACK_STATUS_FAILED (i : Nat) : Fld := ⟨R.MEM_STACK_STATUS i, 0, 1⟩
def F.MEM_STACK_STATUS_REFRESH (i : Nat) : Fld := ⟨R.MEM_STACK_STATUS i, 1, 2⟩
def F.MEM_STACK_STATUS_TEMP_C (i : Nat) : Fld := ⟨R.MEM_STACK_STATUS i, 8, 8⟩
def R.MEM_STACK_FAIL (i : Nat) : Nat := 0xD00204 + 0x20 * i
def F.MEM_STACK_FAIL_PC (i : Nat) : Fld := ⟨R.MEM_STACK_FAIL i, 0, 32⟩
def R.MEM_ECC_CNT (i : Nat) : Nat := 0xD00208 + 0x20 * i
def F.MEM_ECC_CNT_CORRECTED (i : Nat) : Fld := ⟨R.MEM_ECC_CNT i, 0, 16⟩
def F.MEM_ECC_CNT_UNCORR (i : Nat) : Fld := ⟨R.MEM_ECC_CNT i, 16, 16⟩

/-! ### PCIE -/
def R.PCIE_CFG : Nat := 0xE00000
def F.PCIE_CFG_LANE_OPT : Fld := ⟨R.PCIE_CFG, 0, 2⟩
def F.PCIE_CFG_RP_MAX_GEN : Fld := ⟨R.PCIE_CFG, 4, 4⟩

end Sys2Proof.Machine
end

