-- ==== Sys2Proof/Machine/RegTable.lean ====
section
/-!
DEFINITION. The register map of the KD1690 as data: every register of R522 with its address, its instances, and for
every field its place, access code (R8), retention class (R9), reset value, live mark (R58) and zero category (R74).
The rows follow the register tables of chapters 01 to 19 of spec/, in the order of the block bases of R516.
-/
namespace Sys2Proof.Machine

/-- The register access codes of R8. -/
inductive Access where
  | rw | ro | rws | rwl | w1s | w1c | wo
  deriving DecidableEq, Repr

/-- The retention classes of R9 and R73. -/
inductive Retention where
  | V | S | A | K
  deriving DecidableEq, Repr

/-- One field of a register table: its place, its access code, its class, its reset value, whether it is marked live
(R58, R521) and whether it is a size, for which zero is invalid (R74). -/
structure FieldSpec where
  lo : Nat
  width : Nat
  acc : Access
  cls : Retention
  reset : Nat
  live : Bool
  size : Bool
  deriving DecidableEq, Repr

/-- One register: the byte address of its first instance, the (count, stride) pairs of its instances, its fields. -/
structure RegSpec where
  base : Nat
  dims : List (Nat × Nat)
  fields : List FieldSpec
  deriving DecidableEq, Repr

/-- Whether the offset `d` from a register's base is an instance of it. -/
def coversOff : List (Nat × Nat) → Nat → Bool
  | [], d => d == 0
  | (count, stride) :: rest, d => d / stride < count && coversOff rest (d % stride)

/-- The instance indices of the offset `d`, outermost first. -/
def instancesOff : List (Nat × Nat) → Nat → List Nat
  | [], _ => []
  | (_, stride) :: rest, d => d / stride :: instancesOff rest (d % stride)

/-- Whether `a` is the address of an instance of the register. -/
def RegSpec.covers (r : RegSpec) (a : Nat) : Bool :=
  r.base ≤ a && coversOff r.dims (a - r.base)

/-- The mask of the bits of a field, as a number. -/
def FieldSpec.mask (f : FieldSpec) : Nat := (2 ^ f.width - 1) * 2 ^ f.lo

/-- The reset word that a register's fields give. -/
def RegSpec.resetWord (r : RegSpec) : Nat :=
  r.fields.foldl (fun acc f => acc + f.reset * 2 ^ f.lo) 0


/-- The registers of block DEV (R516, R522). -/
def regsDEV : List RegSpec := [
  -- DEV_ID: PART, STEP, HBM
  ⟨0, [],
    [⟨0, 16, .ro, .K, 0x1690, false, false⟩, ⟨16, 8, .ro, .K, 0xB0, false, false⟩, ⟨24, 3, .ro, .K, 1, false, false⟩]⟩,
  -- DEV_CAPS: DE_ACTIVE, VE_ACTIVE, ZE_ACTIVE, STACK_GIB
  ⟨4, [],
    [⟨0, 5, .ro, .A, 0x10, false, false⟩, ⟨8, 7, .ro, .A, 0x40, false, false⟩, ⟨16, 5, .ro, .A, 0x10, false, false⟩, ⟨24, 8, .ro, .K, 0x18, false, false⟩]⟩,
  -- DEV_MAP_VER: MINOR, MAJOR
  ⟨8, [],
    [⟨0, 8, .ro, .K, 0, false, false⟩, ⟨8, 8, .ro, .K, 1, false, false⟩]⟩,
  -- DEV_SCRATCH: VALUE
  ⟨0xC, [],
    [⟨0, 32, .rw, .S, 0, true, false⟩]⟩,
  -- DEV_MODE: MODE, IN_TRANSITION, TARGET, PREV
  ⟨0x10, [],
    [⟨0, 3, .ro, .A, 0, false, false⟩, ⟨3, 1, .ro, .A, 0, false, false⟩, ⟨4, 3, .ro, .A, 0, false, false⟩, ⟨8, 3, .ro, .A, 0, false, false⟩]⟩,
  -- DEV_MODE_REQ: REQ, PENDING
  ⟨0x14, [],
    [⟨0, 3, .rw, .A, 0, true, false⟩, ⟨8, 1, .ro, .A, 0, false, false⟩]⟩,
  -- DEV_HOLD_CAUSE: CLOCK, CONFIG, CAPACITY, MEMORY
  ⟨0x18, [],
    [⟨0, 1, .ro, .V, 0, false, false⟩, ⟨1, 1, .ro, .V, 0, false, false⟩, ⟨2, 1, .ro, .V, 0, false, false⟩, ⟨3, 1, .ro, .V, 0, false, false⟩]⟩,
  -- DEV_BOOT_STATUS: SLOT, FALLBACK, UNSECURED, BOOT_FAIL, A_RESULT, B_RESULT, KEY_USED, EVT_LOST, BOOT_MS
  ⟨0x20, [],
    [⟨0, 1, .ro, .A, 0, false, false⟩, ⟨1, 1, .ro, .A, 0, false, false⟩, ⟨2, 1, .ro, .A, 0, false, false⟩, ⟨3, 1, .ro, .A, 0, false, false⟩, ⟨4, 4, .ro, .A, 0, false, false⟩, ⟨8, 4, .ro, .A, 0, false, false⟩, ⟨12, 2, .ro, .A, 0, false, false⟩, ⟨14, 2, .ro, .A, 0, false, false⟩, ⟨16, 16, .ro, .A, 0, false, false⟩]⟩,
  -- DEV_RESET_CAUSE: POR, BROWNOUT, THERMAL, PIN, WARM_REG, WARM_WDOG, RAIL
  ⟨0x24, [],
    [⟨0, 1, .ro, .A, 0, false, false⟩, ⟨1, 1, .ro, .A, 0, false, false⟩, ⟨2, 1, .ro, .A, 0, false, false⟩, ⟨3, 1, .ro, .A, 0, false, false⟩, ⟨4, 1, .ro, .A, 0, false, false⟩, ⟨5, 1, .ro, .A, 0, false, false⟩, ⟨8, 3, .ro, .A, 0, false, false⟩]⟩,
  -- DEV_RESET_CTRL: KEY, WARM
  ⟨0x28, [],
    [⟨0, 8, .wo, .V, 0, true, false⟩, ⟨8, 1, .wo, .V, 0, true, false⟩]⟩,
  -- DEV_BLOCK_RESET: BLOCK_ID, INSTANCE, GO, BUSY
  ⟨0x2C, [],
    [⟨0, 8, .rw, .V, 0, true, false⟩, ⟨8, 8, .rw, .V, 0, true, false⟩, ⟨16, 1, .w1s, .V, 0, true, false⟩, ⟨17, 1, .ro, .V, 0, false, false⟩]⟩,
  -- DEV_WDOG_CTRL: TIMEOUT_MS
  ⟨0x30, [],
    [⟨0, 16, .rwl, .V, 0, false, false⟩]⟩,
  -- DEV_WDOG_KICK: KICK
  ⟨0x34, [],
    [⟨0, 16, .wo, .V, 0, true, false⟩]⟩,
  -- DEV_IMG_SEQ: SEQ
  ⟨0x38, [],
    [⟨0, 32, .ro, .A, 0, false, false⟩]⟩,
  -- DEV_QOS_FLOOR: LIVE_FLOOR, RECORD_FLOOR, LADDER_FLOOR, BACKGROUND_FLOOR
  ⟨0x100, [],
    [⟨0, 6, .rwl, .V, 0, false, false⟩, ⟨8, 6, .rwl, .V, 0x10, false, false⟩, ⟨16, 6, .rwl, .V, 8, false, false⟩, ⟨24, 6, .rwl, .V, 2, false, false⟩]⟩,
  -- DEV_SCHED_CTRL: W_LOAD, W_AFF, W_TEMP, MIGRATE_HOLD
  ⟨0x104, [],
    [⟨0, 8, .rwl, .V, 4, false, false⟩, ⟨8, 8, .rwl, .V, 2, false, false⟩, ⟨16, 8, .rwl, .V, 3, false, false⟩, ⟨24, 1, .rw, .V, 0, true, false⟩]⟩,
  -- DEV_SCHED_STATUS: TICKS, MARKED, MIGRATIONS
  ⟨0x108, [],
    [⟨0, 16, .ro, .V, 0, false, false⟩, ⟨16, 8, .ro, .V, 0, false, false⟩, ⟨24, 8, .ro, .V, 0, false, false⟩]⟩,
  -- DEV_SHED_CFG: HOLD_TICKS, UP_PERMILLE, DOWN_PERMILLE
  ⟨0x10C, [],
    [⟨0, 8, .rwl, .V, 4, false, true⟩, ⟨8, 10, .rwl, .V, 0x3CA, false, false⟩, ⟨18, 10, .rwl, .V, 0x352, false, false⟩]⟩,
  -- DEV_SHED_STATUS: LEVEL, THERM_FLOOR, AT_LIMIT, CHANGES
  ⟨0x110, [],
    [⟨0, 10, .ro, .V, 0, false, false⟩, ⟨10, 10, .ro, .V, 0, false, false⟩, ⟨20, 1, .ro, .V, 0, false, false⟩, ⟨24, 8, .ro, .S, 0, false, false⟩]⟩,
  -- DEV_FENCE_DE: FENCED
  ⟨0x200, [],
    [⟨0, 20, .ro, .A, 0, false, false⟩]⟩,
  -- DEV_FENCE_ZE: FENCED
  ⟨0x204, [],
    [⟨0, 20, .ro, .A, 0, false, false⟩]⟩,
  -- DEV_SPARE_DE: REPLACES0, IN_USE0, REPLACES1, IN_USE1, REPLACES2, IN_USE2, REPLACES3, IN_USE3
  ⟨0x208, [],
    [⟨0, 5, .ro, .A, 0, false, false⟩, ⟨7, 1, .ro, .A, 0, false, false⟩, ⟨8, 5, .ro, .A, 0, false, false⟩, ⟨15, 1, .ro, .A, 0, false, false⟩, ⟨16, 5, .ro, .A, 0, false, false⟩, ⟨23, 1, .ro, .A, 0, false, false⟩, ⟨24, 5, .ro, .A, 0, false, false⟩, ⟨31, 1, .ro, .A, 0, false, false⟩]⟩,
  -- DEV_SPARE_ZE: REPLACES0, IN_USE0, REPLACES1, IN_USE1, REPLACES2, IN_USE2, REPLACES3, IN_USE3
  ⟨0x20C, [],
    [⟨0, 5, .ro, .A, 0, false, false⟩, ⟨7, 1, .ro, .A, 0, false, false⟩, ⟨8, 5, .ro, .A, 0, false, false⟩, ⟨15, 1, .ro, .A, 0, false, false⟩, ⟨16, 5, .ro, .A, 0, false, false⟩, ⟨23, 1, .ro, .A, 0, false, false⟩, ⟨24, 5, .ro, .A, 0, false, false⟩, ⟨31, 1, .ro, .A, 0, false, false⟩]⟩,
  -- DEV_FAULT_INJ: KIND, ENGINE, GO, RESULT
  ⟨0x214, [],
    [⟨0, 2, .rw, .V, 0, true, false⟩, ⟨8, 7, .rw, .V, 0, true, false⟩, ⟨16, 1, .w1s, .V, 0, true, false⟩, ⟨17, 2, .ro, .V, 0, false, false⟩]⟩]

/-- The registers of block CLK (R516, R522). -/
def regsCLK : List RegSpec := [
  -- CLK_REF_CFG: A_EN, B_EN, PREF, REVERT
  ⟨0x10000, [],
    [⟨0, 1, .rwl, .A, 1, false, false⟩, ⟨1, 1, .rwl, .A, 0, false, false⟩, ⟨2, 1, .rwl, .A, 0, false, false⟩, ⟨3, 1, .rwl, .A, 0, false, false⟩]⟩,
  -- CLK_REF_STATUS: A_VALID, B_VALID, ACTIVE, HOLDOVER, BOTH_LOST, RO_READY, SLEWING, A_PPM, B_PPM
  ⟨0x10004, [],
    [⟨0, 1, .ro, .A, 0, false, false⟩, ⟨1, 1, .ro, .A, 0, false, false⟩, ⟨2, 1, .ro, .A, 0, false, false⟩, ⟨3, 1, .ro, .A, 0, false, false⟩, ⟨4, 1, .ro, .A, 0, false, false⟩, ⟨5, 1, .ro, .A, 0, false, false⟩, ⟨6, 1, .ro, .A, 0, false, false⟩, ⟨16, 8, .ro, .A, 0, false, false⟩, ⟨24, 8, .ro, .A, 0, false, false⟩]⟩,
  -- CLK_REF_CTRL: SWITCH
  ⟨0x10008, [],
    [⟨0, 1, .w1s, .V, 0, true, false⟩]⟩,
  -- CLK_DIV: CORE_DIV, PIX_DIV, FAB_DIV, CFG_DIV
  ⟨0x10010, [],
    [⟨0, 2, .rw, .S, 0, false, false⟩, ⟨2, 2, .rw, .S, 0, false, false⟩, ⟨4, 1, .rw, .S, 0, false, false⟩, ⟨5, 1, .rw, .S, 0, false, false⟩]⟩,
  -- CLK_PLL_STATUS: MAIN, HBM, SREF, VID, AUD, SERDES_LOW
  ⟨0x10014, [],
    [⟨0, 1, .ro, .A, 0, false, false⟩, ⟨1, 1, .ro, .V, 0, false, false⟩, ⟨2, 1, .ro, .V, 0, false, false⟩, ⟨4, 4, .ro, .V, 0, false, false⟩, ⟨8, 2, .ro, .V, 0, false, false⟩, ⟨10, 20, .ro, .V, 0, false, false⟩]⟩,
  -- CLK_PLL_STATUS2: SERDES_HIGH
  ⟨0x10018, [],
    [⟨0, 10, .ro, .V, 0, false, false⟩]⟩,
  -- CLK_GPIO_SAFE: LEVEL, DRIVE
  ⟨0x10020, [],
    [⟨0, 16, .rwl, .A, 0, false, false⟩, ⟨16, 16, .rwl, .A, 0, false, false⟩]⟩,
  -- CLK_GATE_REQ: BLOCK_ID, INSTANCE, OP, GO, RESULT
  ⟨0x10030, [],
    [⟨0, 8, .rw, .V, 0, true, false⟩, ⟨8, 8, .rw, .V, 0, true, false⟩, ⟨16, 2, .rw, .V, 0, true, false⟩, ⟨18, 1, .w1s, .V, 0, true, false⟩, ⟨19, 3, .ro, .V, 0, false, false⟩]⟩,
  -- CLK_GATED0: GATED
  ⟨0x10040, [],
    [⟨0, 28, .ro, .V, 0, false, false⟩]⟩,
  -- CLK_GATED1: GATED
  ⟨0x10044, [],
    [⟨0, 16, .ro, .V, 0, false, false⟩]⟩,
  -- CLK_FM_CFG: TARGET, REF, SEL, GO, DONE, TIMEOUT
  ⟨0x10050, [],
    [⟨0, 5, .rw, .V, 0, true, false⟩, ⟨8, 5, .rw, .V, 0, true, false⟩, ⟨16, 7, .rw, .V, 0, true, false⟩, ⟨24, 1, .w1s, .V, 0, true, false⟩, ⟨25, 1, .ro, .V, 0, false, false⟩, ⟨26, 1, .ro, .V, 0, false, false⟩]⟩,
  -- CLK_FM_GATE: N
  ⟨0x10054, [],
    [⟨0, 24, .rw, .V, 0x186A0, true, true⟩]⟩,
  -- CLK_FM_RESULT: COUNT
  ⟨0x10058, [],
    [⟨0, 32, .ro, .V, 0, false, false⟩]⟩,
  -- CLK_CNT: SWITCHOVERS, BOTH_LOST, GATE_BUSY
  ⟨0x10060, [],
    [⟨0, 16, .ro, .S, 0, false, false⟩, ⟨16, 8, .ro, .S, 0, false, false⟩, ⟨24, 8, .ro, .S, 0, false, false⟩]⟩]

/-- The registers of block PWR (R516, R522). -/
def regsPWR : List RegSpec := [
  -- PWR_AVS_CFG: EN, TGT_TAPS, HYST_TAPS
  ⟨0x20000, [],
    [⟨0, 1, .rwl, .V, 1, false, false⟩, ⟨1, 5, .rwl, .V, 8, false, true⟩, ⟨6, 4, .rwl, .V, 4, false, false⟩]⟩,
  -- PWR_AVS_LIMIT: VMIN_MV, VMAX_MV
  ⟨0x20004, [],
    [⟨0, 10, .rwl, .V, 0x258, false, false⟩, ⟨16, 10, .rwl, .V, 0x352, false, false⟩]⟩,
  -- PWR_AVS_STATUS: TARGET_MV, STRETCH, BUS_FAIL, MIN_SLACK, MON
  ⟨0x20008, [],
    [⟨0, 10, .ro, .V, 0x320, false, false⟩, ⟨12, 1, .ro, .V, 0, false, false⟩, ⟨13, 1, .ro, .V, 0, false, false⟩, ⟨16, 5, .ro, .V, 0, false, false⟩, ⟨24, 6, .ro, .V, 0, false, false⟩]⟩,
  -- PWR_AVS_CNT: DROOPS, BUS_ERRS
  ⟨0x2000C, [],
    [⟨0, 16, .ro, .S, 0, false, false⟩, ⟨16, 16, .ro, .S, 0, false, false⟩]⟩,
  -- PWR_RAIL_STATUS: CORE_WARN, HBM_WARN, IO_WARN, PFAIL, WARN_ACTIVE, CORE_ARMED, HBM_ARMED
  ⟨0x20010, [],
    [⟨0, 1, .ro, .V, 0, false, false⟩, ⟨1, 1, .ro, .V, 0, false, false⟩, ⟨2, 1, .ro, .V, 0, false, false⟩, ⟨3, 1, .ro, .V, 0, false, false⟩, ⟨4, 1, .ro, .V, 0, false, false⟩, ⟨5, 1, .ro, .V, 0, false, false⟩, ⟨6, 1, .ro, .V, 0, false, false⟩]⟩,
  -- PWR_RAIL_MV: MV
  ⟨0x20020, [(8, 4)],
    [⟨0, 12, .ro, .V, 0, false, false⟩]⟩,
  -- PWR_WARN_CNT: WARNS
  ⟨0x20040, [],
    [⟨0, 16, .ro, .A, 0, false, false⟩]⟩,
  -- PWR_BUS_CFG: MODE, AVS_RAIL, PMB_ADDR
  ⟨0x20050, [],
    [⟨0, 1, .rwl, .V, 0, false, false⟩, ⟨1, 4, .rwl, .V, 0, false, false⟩, ⟨8, 7, .rwl, .V, 0x40, false, false⟩]⟩,
  -- PWR_MON: SLACK, DROOPS
  ⟨0x20100, [(64, 4)],
    [⟨0, 5, .ro, .V, 0, false, false⟩, ⟨8, 8, .ro, .S, 0, false, false⟩]⟩]

/-- The registers of block THERM (R516, R522). -/
def regsTHERM : List RegSpec := [
  -- THERM_CFG: DIE_WARN_C, DIE_THROTTLE_C, HBM_WARN_C, HBM_THROTTLE_C
  ⟨0x30000, [],
    [⟨0, 8, .rwl, .V, 0x5F, false, false⟩, ⟨8, 8, .rwl, .V, 0x64, false, false⟩, ⟨16, 8, .rwl, .V, 0x55, false, false⟩, ⟨24, 8, .rwl, .V, 0x5A, false, false⟩]⟩,
  -- THERM_RISE: RISE_LIMIT
  ⟨0x30004, [],
    [⟨0, 8, .rw, .V, 0x20, true, false⟩]⟩,
  -- THERM_STATUS: FAST, WARN, THROTTLE, EARLY, HBM_HOTTEST, HOTTEST_SRC, HOTTEST
  ⟨0x30008, [],
    [⟨0, 1, .ro, .V, 0, false, false⟩, ⟨2, 1, .ro, .V, 0, false, false⟩, ⟨3, 1, .ro, .V, 0, false, false⟩, ⟨4, 1, .ro, .V, 0, false, false⟩, ⟨5, 1, .ro, .V, 0, false, false⟩, ⟨8, 8, .ro, .V, 0, false, false⟩, ⟨16, 16, .ro, .V, 0, false, false⟩]⟩,
  -- THERM_TRIP_STATUS: CAUSE, SRC, RESTARTS, LOCKOUT
  ⟨0x3000C, [],
    [⟨0, 2, .ro, .A, 0, false, false⟩, ⟨2, 6, .ro, .A, 0, false, false⟩, ⟨8, 2, .ro, .A, 0, false, false⟩, ⟨10, 1, .ro, .A, 0, false, false⟩]⟩,
  -- THERM_CNT: THROTTLES, EARLIES
  ⟨0x30010, [],
    [⟨0, 16, .ro, .S, 0, false, false⟩, ⟨16, 16, .ro, .S, 0, false, false⟩]⟩,
  -- THERM_TS: TEMP, VALID
  ⟨0x30100, [(40, 4)],
    [⟨0, 16, .ro, .V, 0, false, false⟩, ⟨16, 1, .ro, .V, 0, false, false⟩]⟩,
  -- THERM_HBM: TEMP, VALID
  ⟨0x30200, [(4, 4)],
    [⟨0, 16, .ro, .V, 0, false, false⟩, ⟨16, 1, .ro, .V, 0, false, false⟩]⟩]

/-- The registers of block BOOT (R516, R522). -/
def regsBOOT : List RegSpec := [
  -- KEEP_ADDR: WORD
  ⟨0x40100, [],
    [⟨2, 21, .rw, .V, 0, true, false⟩]⟩,
  -- KEEP_DATA: DATA
  ⟨0x40104, [],
    [⟨0, 32, .rw, .V, 0, true, false⟩]⟩,
  -- KEEP_STATUS: BUSY, RESULT
  ⟨0x40108, [],
    [⟨0, 1, .ro, .V, 0, false, false⟩, ⟨1, 2, .ro, .V, 0, false, false⟩]⟩,
  -- FUSE_ID: PART, STEP, TEST_LOCK
  ⟨0x40200, [],
    [⟨0, 16, .ro, .K, 0x1690, false, false⟩, ⟨16, 8, .ro, .K, 0xB0, false, false⟩, ⟨24, 1, .ro, .K, 1, false, false⟩]⟩,
  -- FUSE_SERIAL_LO: SERIAL
  ⟨0x40204, [],
    [⟨0, 32, .ro, .K, 0, false, false⟩]⟩,
  -- FUSE_SERIAL_HI: SERIAL
  ⟨0x40208, [],
    [⟨0, 32, .ro, .K, 0, false, false⟩]⟩,
  -- FUSE_KEYS: SLOT0, SLOT1, SLOT2, SLOT3
  ⟨0x4020C, [],
    [⟨0, 2, .ro, .K, 0, false, false⟩, ⟨2, 2, .ro, .K, 0, false, false⟩, ⟨4, 2, .ro, .K, 0, false, false⟩, ⟨6, 2, .ro, .K, 0, false, false⟩]⟩,
  -- FUSE_PROG_HASH: HASH
  ⟨0x40220, [(8, 4)],
    [⟨0, 32, .wo, .V, 0, true, false⟩]⟩,
  -- FUSE_PROG_CTRL: KEY, SLOT, OP, GO, RESULT
  ⟨0x40240, [],
    [⟨0, 8, .wo, .V, 0, true, false⟩, ⟨8, 2, .rw, .V, 0, true, false⟩, ⟨10, 2, .rw, .V, 0, true, false⟩, ⟨12, 1, .w1s, .V, 0, true, false⟩, ⟨13, 3, .ro, .V, 0, false, false⟩]⟩]

/-- The registers of block EVT (R516, R522). -/
def regsEVT : List RegSpec := [
  -- EVT_RING_BASE: BASE
  ⟨0x80000, [],
    [⟨0, 24, .rwl, .V, 0x20000, false, false⟩]⟩,
  -- EVT_PROD: IDX
  ⟨0x80004, [],
    [⟨0, 16, .ro, .S, 0, false, false⟩]⟩,
  -- EVT_CONS: IDX
  ⟨0x80008, [],
    [⟨0, 16, .rw, .S, 0, true, false⟩]⟩,
  -- EVT_IRQ_CFG: IRQ_MIN, MSI_MIN, VECTOR, COALESCE_US
  ⟨0x8000C, [],
    [⟨0, 3, .rw, .V, 2, true, false⟩, ⟨3, 3, .rw, .V, 1, true, false⟩, ⟨8, 8, .rwl, .V, 0, false, false⟩, ⟨16, 16, .rw, .V, 0x64, true, false⟩]⟩,
  -- EVT_IRQ_STATUS: SEV
  ⟨0x80010, [],
    [⟨0, 5, .w1c, .V, 0, true, false⟩]⟩,
  -- EVT_STATUS: LOST, HELD
  ⟨0x80014, [],
    [⟨0, 16, .ro, .S, 0, false, false⟩, ⟨16, 8, .ro, .V, 0, false, false⟩]⟩]

/-- The registers of block KSL (R516, R522). -/
def regsKSL : List RegSpec := [
  -- KSL_CFG: SPREAD, SREF_EN, BC_TIMEOUT_US
  ⟨0x100000, [],
    [⟨0, 2, .rwl, .V, 0, false, false⟩, ⟨4, 4, .rwl, .V, 0, false, false⟩, ⟨8, 8, .rwl, .V, 0x64, false, true⟩]⟩,
  -- KSL_BOND: BOND
  ⟨0x100004, [],
    [⟨0, 16, .rwl, .V, 0, false, false⟩]⟩,
  -- KSL_CTRL: EN, RATE, LANES, SPARE_PARITY, TRIG_SRC, RETRAIN
  ⟨0x101000, [(8, 0x1000)],
    [⟨0, 1, .rwl, .V, 0, false, false⟩, ⟨1, 3, .rwl, .V, 0, false, false⟩, ⟨4, 2, .rwl, .V, 3, false, false⟩, ⟨6, 1, .rwl, .V, 1, false, false⟩, ⟨8, 2, .rwl, .V, 0, false, false⟩, ⟨16, 1, .w1s, .V, 0, true, false⟩]⟩,
  -- KSL_STATUS: LINK_UP, IN_EI, TRAINING, REBUILDING, SPARE_CARRIES, MARKER_COUNT, SKEW_NS
  ⟨0x101004, [(8, 0x1000)],
    [⟨0, 1, .ro, .V, 0, false, false⟩, ⟨1, 1, .ro, .V, 0, false, false⟩, ⟨2, 1, .ro, .V, 0, false, false⟩, ⟨3, 1, .ro, .V, 0, false, false⟩, ⟨4, 4, .ro, .V, 8, false, false⟩, ⟨8, 8, .ro, .V, 0, false, false⟩, ⟨16, 10, .ro, .V, 0, false, false⟩]⟩,
  -- KSL_ERR_CFG: BIP_LIMIT, WINDOW
  ⟨0x101008, [(8, 0x1000)],
    [⟨0, 8, .rw, .V, 8, true, false⟩, ⟨8, 8, .rw, .V, 0x10, true, true⟩]⟩,
  -- KSL_ERRCNT: LE_CRC_ERR, HDR_CRC_ERR
  ⟨0x10100C, [(8, 0x1000)],
    [⟨0, 16, .ro, .S, 0, false, false⟩, ⟨16, 16, .ro, .S, 0, false, false⟩]⟩,
  -- KSL_EVTCNT: RELOCK_FAIL, TRAININGS, BC_TIMEOUTS, DESKEW_FAILS
  ⟨0x101010, [(8, 0x1000)],
    [⟨0, 8, .ro, .S, 0, false, false⟩, ⟨8, 8, .ro, .S, 0, false, false⟩, ⟨16, 8, .ro, .S, 0, false, false⟩, ⟨24, 8, .ro, .S, 0, false, false⟩]⟩,
  -- KSL_TRIG_CAL: ECHO_RTT, ONE_WAY
  ⟨0x101014, [(8, 0x1000)],
    [⟨0, 12, .ro, .V, 0, false, false⟩, ⟨16, 12, .ro, .V, 0, false, false⟩]⟩,
  -- KSL_TRIG_LAT: TRIG_LAT, TRIG_ADJ
  ⟨0x101018, [(8, 0x1000)],
    [⟨0, 12, .rwl, .V, 0x80, false, false⟩, ⟨16, 12, .rw, .V, 0, true, false⟩]⟩,
  -- KSL_XTRIG: WIDTH
  ⟨0x10101C, [(8, 0x1000)],
    [⟨0, 16, .rwl, .V, 0x64, false, true⟩]⟩,
  -- KSL_BC_ADDR: ADDR
  ⟨0x101020, [(8, 0x1000)],
    [⟨0, 32, .rw, .V, 0, true, false⟩]⟩,
  -- KSL_BC_DATA: DATA
  ⟨0x101024, [(8, 0x1000)],
    [⟨0, 32, .rw, .V, 0, true, false⟩]⟩,
  -- KSL_BC_CTRL: GO, READ, RESULT
  ⟨0x101028, [(8, 0x1000)],
    [⟨0, 1, .w1s, .V, 0, true, false⟩, ⟨1, 1, .rw, .V, 0, true, false⟩, ⟨2, 2, .ro, .V, 0, false, false⟩]⟩,
  -- KSL_SENSOR_STATUS: STATUS
  ⟨0x10102C, [(8, 0x1000)],
    [⟨0, 32, .ro, .V, 0, false, false⟩]⟩,
  -- KSL_LANE_STATUS: BLOCK_LOCK, CTLE_DB, CARRIES
  ⟨0x101100, [(8, 0x1000), (9, 0x20)],
    [⟨0, 1, .ro, .V, 0, false, false⟩, ⟨1, 5, .ro, .V, 9, false, false⟩, ⟨8, 4, .ro, .V, 0, false, false⟩]⟩,
  -- KSL_LANE_ERR: SYNC_ERR, BIP_ERR
  ⟨0x101104, [(8, 0x1000), (9, 0x20)],
    [⟨0, 16, .ro, .S, 0, false, false⟩, ⟨16, 16, .ro, .S, 0, false, false⟩]⟩,
  -- KSL_LANE_DFE: DFE
  ⟨0x101108, [(8, 0x1000), (9, 0x20)],
    [⟨0, 30, .ro, .V, 0, false, false⟩]⟩,
  -- KSL_LANE_EYE: PHASE, VOLT, DWELL, GO
  ⟨0x10110C, [(8, 0x1000), (9, 0x20)],
    [⟨0, 6, .rw, .V, 0, true, false⟩, ⟨6, 7, .rw, .V, 0, true, false⟩, ⟨13, 4, .rw, .V, 0, true, false⟩, ⟨20, 1, .w1s, .V, 0, true, false⟩]⟩,
  -- KSL_LANE_EYE_RESULT: ERRORS
  ⟨0x101110, [(8, 0x1000), (9, 0x20)],
    [⟨0, 32, .ro, .V, 0, false, false⟩]⟩]

/-- The registers of block CAP (R516, R522). -/
def regsCAP : List RegSpec := [
  -- CAP_EXP_COMMIT: CTX_MASK
  ⟨0x200000, [],
    [⟨0, 16, .w1s, .V, 0, true, false⟩]⟩,
  -- CAP_WG_CFG: EN, ENGINES
  ⟨0x200100, [(8, 0x40)],
    [⟨0, 1, .rwl, .V, 0, false, false⟩, ⟨1, 5, .rwl, .V, 1, false, true⟩]⟩,
  -- CAP_WG_PERIOD: PERIOD_NS
  ⟨0x200104, [(8, 0x40)],
    [⟨0, 32, .rwl, .V, 0, false, true⟩]⟩,
  -- CAP_WG_EPOCH_LO: EPOCH
  ⟨0x200108, [(8, 0x40)],
    [⟨0, 32, .rwl, .V, 0, false, false⟩]⟩,
  -- CAP_WG_EPOCH_HI: EPOCH
  ⟨0x20010C, [(8, 0x40)],
    [⟨0, 32, .rwl, .V, 0, false, false⟩]⟩,
  -- CAP_WG_STATUS: SLOT, BUSY, DEFERRED, CTX, PENDING, RESIDENT
  ⟨0x200110, [(8, 0x40)],
    [⟨0, 4, .ro, .V, 0, false, false⟩, ⟨4, 1, .ro, .V, 0, false, false⟩, ⟨5, 1, .ro, .V, 0, false, false⟩, ⟨8, 4, .ro, .V, 0, false, false⟩, ⟨16, 4, .ro, .V, 0, false, false⟩, ⟨24, 8, .ro, .V, 0, false, false⟩]⟩,
  -- CAP_WG_RES_LIST: LIST
  ⟨0x200114, [(8, 0x40)],
    [⟨0, 20, .ro, .V, 0, false, false⟩]⟩,
  -- CAP_BIND: EN, PORT, ALLOC, UNIT, PRIO, PLAN
  ⟨0x201000, [(16, 0x800)],
    [⟨0, 1, .rwl, .V, 0, false, false⟩, ⟨1, 3, .rwl, .V, 0, false, false⟩, ⟨4, 1, .rwl, .V, 0, false, false⟩, ⟨8, 4, .rwl, .V, 0, false, false⟩, ⟨12, 3, .rwl, .V, 0, false, false⟩, ⟨16, 2, .rwl, .V, 0, false, false⟩]⟩,
  -- CAP_GEOM: WIDTH, HEIGHT
  ⟨0x201004, [(16, 0x800)],
    [⟨0, 16, .rwl, .V, 0, false, true⟩, ⟨16, 16, .rwl, .V, 0, false, true⟩]⟩,
  -- CAP_FMT: DEPTH, READOUTS, CFA, PIX_PAD, LINE_PAD, PAD_BLACK
  ⟨0x201008, [(16, 0x800)],
    [⟨0, 2, .rwl, .V, 1, false, false⟩, ⟨2, 2, .rwl, .V, 1, false, true⟩, ⟨4, 2, .rwl, .V, 0, false, false⟩, ⟨6, 1, .rwl, .V, 0, false, false⟩, ⟨7, 1, .rwl, .V, 0, false, false⟩, ⟨16, 16, .rwl, .V, 0, false, false⟩]⟩,
  -- CAP_TIMING: PERIOD_NS
  ⟨0x20100C, [(16, 0x800)],
    [⟨0, 32, .rwl, .V, 0, false, true⟩]⟩,
  -- CAP_SLACK: DEADLINE_SLACK_US, EARLY_MARGIN_US
  ⟨0x201010, [(16, 0x800)],
    [⟨0, 16, .rwl, .V, 0x1F4, false, true⟩, ⟨16, 16, .rwl, .V, 0xC8, false, false⟩]⟩,
  -- CAP_FS_DELAY: FS_DELAY_NS
  ⟨0x201014, [(16, 0x800)],
    [⟨0, 32, .rwl, .V, 0, false, false⟩]⟩,
  -- CAP_WHEEL: SLOT_MASK, DEFER_LIMIT_US
  ⟨0x201018, [(16, 0x800)],
    [⟨0, 16, .rws, .V, 0xFFFF, true, false⟩, ⟨16, 16, .rwl, .V, 0, false, false⟩]⟩,
  -- CAP_LATCH: LATCH_DELAY
  ⟨0x20101C, [(16, 0x800)],
    [⟨0, 2, .rwl, .V, 0, false, false⟩]⟩,
  -- CAP_EXP_CNT: COUNT
  ⟨0x201020, [(16, 0x800)],
    [⟨0, 3, .rw, .V, 0, true, false⟩]⟩,
  -- CAP_EXP_ADDR: ADDR
  ⟨0x201040, [(16, 0x800), (7, 8)],
    [⟨0, 32, .rw, .V, 0, true, false⟩]⟩,
  -- CAP_EXP_VAL: VAL
  ⟨0x201044, [(16, 0x800), (7, 8)],
    [⟨0, 32, .rw, .V, 0, true, false⟩]⟩,
  -- CAP_EXP_STATUS: SID, STATE, SUPERSEDED
  ⟨0x201080, [(16, 0x800)],
    [⟨0, 16, .ro, .A, 0, false, false⟩, ⟨16, 3, .ro, .V, 0, false, false⟩, ⟨24, 8, .ro, .S, 0, false, false⟩]⟩,
  -- CAP_EXP_APPLY: APPLY_FSEQ
  ⟨0x201084, [(16, 0x800)],
    [⟨0, 32, .ro, .A, 0, false, false⟩]⟩,
  -- CAP_FSEQ: FSEQ
  ⟨0x201090, [(16, 0x800)],
    [⟨0, 32, .ro, .A, 0, false, false⟩]⟩,
  -- CAP_SID: SID
  ⟨0x201094, [(16, 0x800)],
    [⟨0, 16, .ro, .A, 0, false, false⟩]⟩,
  -- CAP_STATS_ADDR: BASE, STRIDE
  ⟨0x201098, [(16, 0x800)],
    [⟨0, 24, .rwl, .V, 0, false, false⟩, ⟨24, 8, .ro, .V, 0, false, false⟩]⟩,
  -- CAP_CNT0: MISSING, EXCESS
  ⟨0x2010A0, [(16, 0x800)],
    [⟨0, 16, .ro, .S, 0, false, false⟩, ⟨16, 16, .ro, .S, 0, false, false⟩]⟩,
  -- CAP_CNT1: DEFERRED, DEV_SKIPPED
  ⟨0x2010A4, [(16, 0x800)],
    [⟨0, 16, .ro, .S, 0, false, false⟩, ⟨16, 16, .ro, .S, 0, false, false⟩]⟩,
  -- CAP_CNT2: PADDED, CUT
  ⟨0x2010A8, [(16, 0x800)],
    [⟨0, 16, .ro, .S, 0, false, false⟩, ⟨16, 16, .ro, .S, 0, false, false⟩]⟩,
  -- CAP_LAST_FLAGS: FLAGS
  ⟨0x2010AC, [(16, 0x800)],
    [⟨0, 15, .ro, .V, 0, false, false⟩]⟩,
  -- CAP_CNT3: RAW_DROPPED
  ⟨0x2010B0, [(16, 0x800)],
    [⟨0, 16, .ro, .S, 0, false, false⟩]⟩]

/-- The registers of block RAWC (R516, R522). -/
def regsRAWC : List RegSpec := [
  -- RAWC_DMAP_CTRL: SOURCE, LEARN_EN, JOURNAL_PERIOD_S
  ⟨0x300000, [],
    [⟨0, 1, .rwl, .V, 0, false, false⟩, ⟨1, 1, .rw, .V, 1, true, false⟩, ⟨8, 8, .rwl, .V, 0x3C, false, true⟩]⟩,
  -- RAWC_DMAP_PORT: FIRST, COUNT
  ⟨0x300010, [(8, 4)],
    [⟨0, 4, .rwl, .V, 0, false, false⟩, ⟨4, 5, .rwl, .V, 0, false, false⟩]⟩,
  -- RAWC_DMAP_STATUS: USED, PENDING
  ⟨0x300030, [(8, 4)],
    [⟨0, 21, .ro, .S, 0, false, false⟩, ⟨21, 9, .ro, .V, 0, false, false⟩]⟩,
  -- RAWC_DMAP_GEN: GEN
  ⟨0x300050, [(8, 4)],
    [⟨0, 16, .ro, .S, 0, false, false⟩]⟩,
  -- RAWC_DMAP_EDIT_XY: X, Y
  ⟨0x300070, [],
    [⟨0, 14, .rw, .V, 0, true, false⟩, ⟨16, 14, .rw, .V, 0, true, false⟩]⟩,
  -- RAWC_DMAP_EDIT_CMD: OP, PORT, CLASS, GO, RESULT
  ⟨0x300074, [],
    [⟨0, 2, .rw, .V, 0, true, false⟩, ⟨2, 3, .rw, .V, 0, true, false⟩, ⟨8, 4, .rw, .V, 0, true, false⟩, ⟨16, 1, .w1s, .V, 0, true, false⟩, ⟨17, 3, .ro, .V, 0, false, false⟩]⟩,
  -- RAWC_LEARN_CFG: N, M
  ⟨0x300080, [],
    [⟨0, 7, .rwl, .V, 0x30, false, false⟩, ⟨8, 7, .rwl, .V, 0x40, false, true⟩]⟩,
  -- RAWC_JOURNAL: USED, FOLDS
  ⟨0x300084, [],
    [⟨0, 17, .ro, .S, 0, false, false⟩, ⟨24, 8, .ro, .S, 0, false, false⟩]⟩,
  -- RAWC_CFG: DMAP_EN, DYN_DETECT, DYN_CORRECT, CONCEAL_EN, FF_EN, ROW_EN, COL_EN
  ⟨0x301000, [(16, 0x100)],
    [⟨0, 1, .rw, .V, 1, true, false⟩, ⟨1, 1, .rw, .V, 1, true, false⟩, ⟨2, 1, .rw, .V, 1, true, false⟩, ⟨3, 1, .rwl, .V, 1, false, false⟩, ⟨4, 1, .rw, .V, 0, true, false⟩, ⟨5, 1, .rw, .V, 0, true, false⟩, ⟨6, 1, .rw, .V, 0, true, false⟩]⟩,
  -- RAWC_OB: OB_LEFT, OB_RIGHT, OB_SHIFT
  ⟨0x301004, [(16, 0x100)],
    [⟨0, 8, .rwl, .V, 0, false, false⟩, ⟨8, 8, .rwl, .V, 0, false, false⟩, ⟨16, 4, .rwl, .V, 4, false, false⟩]⟩,
  -- RAWC_BLACK: BLACK_LEVEL, PEDESTAL
  ⟨0x301008, [(16, 0x100)],
    [⟨0, 16, .rwl, .V, 0, false, false⟩, ⟨16, 16, .rwl, .V, 0x1000, false, false⟩]⟩,
  -- RAWC_SAT: SAT
  ⟨0x30100C, [(16, 0x100), (3, 4)],
    [⟨0, 16, .rwl, .V, 0xFFFF, false, false⟩]⟩,
  -- RAWC_NOISE_A: A
  ⟨0x301020, [(16, 0x100), (3, 8)],
    [⟨0, 24, .rwl, .V, 1, false, true⟩]⟩,
  -- RAWC_NOISE_B: B_Q16
  ⟨0x301024, [(16, 0x100), (3, 8)],
    [⟨0, 24, .rwl, .V, 0x10000, false, true⟩]⟩,
  -- RAWC_MERGE: MOTION_K
  ⟨0x301038, [(16, 0x100)],
    [⟨0, 8, .rwl, .V, 0x40, false, false⟩]⟩,
  -- RAWC_K16_A: A
  ⟨0x30103C, [(16, 0x100)],
    [⟨0, 24, .rwl, .V, 1, false, true⟩]⟩,
  -- RAWC_K16_B: B_Q16
  ⟨0x301040, [(16, 0x100)],
    [⟨0, 24, .rwl, .V, 0x10000, false, true⟩]⟩,
  -- RAWC_K16_BLACK: BLACK
  ⟨0x301044, [(16, 0x100)],
    [⟨0, 16, .rwl, .V, 0x800, false, false⟩]⟩,
  -- RAWC_DET: THR_K, T_MIN, T_MAX
  ⟨0x301048, [(16, 0x100)],
    [⟨0, 8, .rwl, .V, 0x60, false, true⟩, ⟨8, 8, .rwl, .V, 0x18, false, false⟩, ⟨16, 13, .rwl, .V, 0x400, false, false⟩]⟩,
  -- RAWC_GAIN_STAGE: IDX
  ⟨0x30104C, [(16, 0x100)],
    [⟨0, 3, .rw, .V, 0, true, false⟩]⟩,
  -- RAWC_NOISE_EST: SIGMA_Q8, IDX, T
  ⟨0x301050, [(16, 0x100)],
    [⟨0, 16, .ro, .V, 0x800, false, false⟩, ⟨16, 3, .ro, .V, 0, false, false⟩, ⟨19, 13, .ro, .V, 0x30, false, false⟩]⟩,
  -- RAWC_FF: SHIFT, NX, NY
  ⟨0x301054, [(16, 0x100)],
    [⟨0, 4, .rwl, .V, 7, false, false⟩, ⟨4, 10, .rwl, .V, 0, false, true⟩, ⟨16, 10, .rwl, .V, 0, false, true⟩]⟩,
  -- RAWC_FF_ADDR: BASE
  ⟨0x301058, [(16, 0x100)],
    [⟨0, 24, .rwl, .V, 0, false, false⟩]⟩,
  -- RAWC_ROW: ROW_K
  ⟨0x30105C, [(16, 0x100)],
    [⟨0, 8, .rw, .V, 0xC0, true, false⟩]⟩,
  -- RAWC_COL_ADDR: BASE
  ⟨0x301060, [(16, 0x100)],
    [⟨0, 24, .rwl, .V, 0, false, false⟩]⟩,
  -- RAWC_CONCEAL_LOG: BASE
  ⟨0x301068, [(16, 0x100)],
    [⟨0, 24, .rwl, .V, 0, false, false⟩]⟩,
  -- RAWC_CONCEAL_WR: INDEX
  ⟨0x30106C, [(16, 0x100)],
    [⟨0, 8, .ro, .V, 0, false, false⟩]⟩,
  -- RAWC_CNT0: CONCEALED, MERGE_INCOMPLETE
  ⟨0x301070, [(16, 0x100)],
    [⟨0, 16, .ro, .S, 0, false, false⟩, ⟨16, 16, .ro, .S, 0, false, false⟩]⟩,
  -- RAWC_CNT1: CLIP_FRAMES, UNRESOLVED, CAND_DROPPED
  ⟨0x301074, [(16, 0x100)],
    [⟨0, 8, .ro, .S, 0, false, false⟩, ⟨8, 8, .ro, .S, 0, false, false⟩, ⟨16, 16, .ro, .S, 0, false, false⟩]⟩]

/-- The registers of block COL (R516, R522). -/
def regsCOL : List RegSpec := [
  -- COL_COMMIT: CTX_MASK
  ⟨0x400000, [],
    [⟨0, 16, .w1s, .V, 0, true, false⟩]⟩,
  -- COL_LUT3D_VALID: VALID
  ⟨0x400004, [],
    [⟨0, 8, .ro, .V, 0, false, false⟩]⟩,
  -- COL_CFG: SID_SYNC, STATS_EN, CAS_EN
  ⟨0x401000, [(16, 0x800)],
    [⟨0, 1, .rwl, .V, 0, false, false⟩, ⟨1, 1, .rwl, .V, 1, false, false⟩, ⟨2, 1, .rws, .V, 1, true, false⟩]⟩,
  -- COL_CAS: CAS_T, CAS_K
  ⟨0x401004, [(16, 0x800)],
    [⟨0, 16, .rws, .V, 0x40, true, false⟩, ⟨16, 8, .rws, .V, 0x80, true, false⟩]⟩,
  -- COL_WB0: R, G
  ⟨0x401008, [(16, 0x800)],
    [⟨0, 16, .rws, .V, 0x1000, true, false⟩, ⟨16, 16, .rws, .V, 0x1000, true, false⟩]⟩,
  -- COL_WB1: B
  ⟨0x40100C, [(16, 0x800)],
    [⟨0, 16, .rws, .V, 0x1000, true, false⟩]⟩,
  -- COL_CAM: C
  ⟨0x401010, [(16, 0x800), (12, 4)],
    [⟨0, 32, .rws, .V, 0, true, false⟩]⟩,
  -- COL_EXP_GAIN: GAIN
  ⟨0x401040, [(16, 0x800)],
    [⟨0, 24, .rws, .V, 0x10000, true, false⟩]⟩,
  -- COL_GREY_LIM: LO, HI
  ⟨0x401044, [(16, 0x800)],
    [⟨0, 16, .rws, .V, 0x10, true, false⟩, ⟨16, 16, .rws, .V, 0x8000, true, false⟩]⟩,
  -- COL_GREY_SPREAD: SPREAD
  ⟨0x401048, [(16, 0x800)],
    [⟨0, 8, .rws, .V, 0x33, true, false⟩]⟩,
  -- COL_FOCUS_A: X0, Y0
  ⟨0x401080, [(16, 0x800), (16, 8)],
    [⟨0, 14, .rws, .V, 0, true, false⟩, ⟨16, 14, .rws, .V, 0, true, false⟩]⟩,
  -- COL_FOCUS_B: X1, Y1
  ⟨0x401084, [(16, 0x800), (16, 8)],
    [⟨0, 14, .rws, .V, 0, true, false⟩, ⟨16, 14, .rws, .V, 0, true, false⟩]⟩,
  -- COL_STATUS: SETS_PENDING, SID_APPLIED
  ⟨0x401100, [(16, 0x800)],
    [⟨0, 3, .ro, .V, 0, false, false⟩, ⟨16, 16, .ro, .V, 0, false, false⟩]⟩,
  -- COL_BR_CFG: EN, KIND, FORMAT, YCC, RANGE, DEPTH, TF, DITHER
  ⟨0x401200, [(16, 0x800), (6, 0x100)],
    [⟨0, 1, .rwl, .V, 0, false, false⟩, ⟨1, 2, .rwl, .V, 0, false, false⟩, ⟨4, 4, .rwl, .V, 0, false, false⟩, ⟨8, 2, .rwl, .V, 0, false, false⟩, ⟨10, 1, .rwl, .V, 0, false, false⟩, ⟨12, 2, .rwl, .V, 1, false, false⟩, ⟨16, 3, .rwl, .V, 0, false, false⟩, ⟨20, 1, .rws, .V, 0, true, false⟩]⟩,
  -- COL_BR_CROP_XY: X0, Y0
  ⟨0x401204, [(16, 0x800), (6, 0x100)],
    [⟨0, 14, .rwl, .V, 0, false, false⟩, ⟨16, 14, .rwl, .V, 0, false, false⟩]⟩,
  -- COL_BR_CROP_WH: W, H
  ⟨0x401208, [(16, 0x800), (6, 0x100)],
    [⟨0, 15, .rwl, .V, 0, false, true⟩, ⟨16, 15, .rwl, .V, 0, false, true⟩]⟩,
  -- COL_BR_OUT_WH: W, H
  ⟨0x40120C, [(16, 0x800), (6, 0x100)],
    [⟨0, 15, .rwl, .V, 0, false, true⟩, ⟨16, 15, .rwl, .V, 0, false, true⟩]⟩,
  -- COL_BR_COEF_ADDR: BASE
  ⟨0x401210, [(16, 0x800), (6, 0x100)],
    [⟨0, 24, .rwl, .V, 0, false, false⟩]⟩,
  -- COL_BR_OUT_BASE: BASE
  ⟨0x401214, [(16, 0x800), (6, 0x100)],
    [⟨0, 28, .rwl, .V, 0, false, false⟩]⟩,
  -- COL_BR_OUT_RING: BUFS, STRIDE
  ⟨0x401218, [(16, 0x800), (6, 0x100)],
    [⟨0, 4, .rwl, .V, 2, false, true⟩, ⟨8, 24, .rwl, .V, 0, false, true⟩]⟩,
  -- COL_BR_MAT: C
  ⟨0x401220, [(16, 0x800), (6, 0x100), (12, 4)],
    [⟨0, 32, .rwl, .V, 0, false, false⟩]⟩,
  -- COL_BR_LUT: SHAPER_EN, LUT3D_EN, LUT3D_IDX
  ⟨0x401250, [(16, 0x800), (6, 0x100)],
    [⟨0, 1, .rws, .V, 0, true, false⟩, ⟨1, 1, .rws, .V, 0, true, false⟩, ⟨2, 3, .rws, .V, 0, true, false⟩]⟩,
  -- COL_BR_SHAPER_ADDR: BASE
  ⟨0x401254, [(16, 0x800), (6, 0x100)],
    [⟨0, 24, .rws, .V, 0, true, false⟩]⟩,
  -- COL_BR_TF_ADDR: BASE
  ⟨0x401258, [(16, 0x800), (6, 0x100)],
    [⟨0, 24, .rwl, .V, 0, false, false⟩]⟩,
  -- COL_BR_PQ: NITS
  ⟨0x40125C, [(16, 0x800), (6, 0x100)],
    [⟨0, 16, .rwl, .V, 0x64, false, true⟩]⟩,
  -- COL_BR_DITHER_SEED: SEED
  ⟨0x401260, [(16, 0x800), (6, 0x100)],
    [⟨0, 32, .rwl, .V, 0x12345678, false, false⟩]⟩,
  -- COL_BR_DISP: PEAK_EN, FALSE_EN, Z1_EN, Z2_EN, PEAK_T
  ⟨0x401270, [(16, 0x800), (6, 0x100)],
    [⟨0, 1, .rws, .V, 0, true, false⟩, ⟨1, 1, .rws, .V, 0, true, false⟩, ⟨2, 1, .rws, .V, 0, true, false⟩, ⟨3, 1, .rws, .V, 0, true, false⟩, ⟨16, 16, .rws, .V, 0x1000, true, false⟩]⟩,
  -- COL_BR_ZEBRA1: Z1_LO, Z1_HI
  ⟨0x401274, [(16, 0x800), (6, 0x100)],
    [⟨0, 16, .rws, .V, 0xB333, true, false⟩, ⟨16, 16, .rws, .V, 0xC28F, true, false⟩]⟩,
  -- COL_BR_ZEBRA2: Z2_LEVEL
  ⟨0x401278, [(16, 0x800), (6, 0x100)],
    [⟨0, 16, .rws, .V, 0xF332, true, false⟩]⟩,
  -- COL_BR_PEAK_COLOUR: RGB
  ⟨0x40127C, [(16, 0x800), (6, 0x100)],
    [⟨0, 30, .rws, .V, 0x3FF00000, true, false⟩]⟩,
  -- COL_BR_FALSE_ADDR: BASE
  ⟨0x401280, [(16, 0x800), (6, 0x100)],
    [⟨0, 24, .rws, .V, 0, true, false⟩]⟩,
  -- COL_BR_MV_RING_LO: ADDR
  ⟨0x401290, [(16, 0x800), (6, 0x100)],
    [⟨0, 32, .rwl, .V, 0, false, false⟩]⟩,
  -- COL_BR_MV_RING_HI: ADDR
  ⟨0x401294, [(16, 0x800), (6, 0x100)],
    [⟨0, 32, .rwl, .V, 0, false, false⟩]⟩,
  -- COL_BR_MV_RING_CFG: SIZE_LOG2, VECTOR
  ⟨0x401298, [(16, 0x800), (6, 0x100)],
    [⟨0, 4, .rwl, .V, 0, false, true⟩, ⟨8, 8, .rwl, .V, 0, false, false⟩]⟩,
  -- COL_BR_MV_HOST_IDX: IDX
  ⟨0x40129C, [(16, 0x800), (6, 0x100)],
    [⟨0, 16, .rw, .V, 0, true, false⟩]⟩,
  -- COL_BR_MV_DEV_IDX: IDX
  ⟨0x4012A0, [(16, 0x800), (6, 0x100)],
    [⟨0, 16, .ro, .V, 0, false, false⟩]⟩,
  -- COL_BR_MV_COMPL_LO: ADDR
  ⟨0x4012A4, [(16, 0x800), (6, 0x100)],
    [⟨0, 32, .rwl, .V, 0, false, false⟩]⟩,
  -- COL_BR_MV_COMPL_HI: ADDR
  ⟨0x4012A8, [(16, 0x800), (6, 0x100)],
    [⟨0, 32, .rwl, .V, 0, false, false⟩]⟩,
  -- COL_BR_MV_CROP_ADDR: BASE
  ⟨0x4012AC, [(16, 0x800), (6, 0x100)],
    [⟨0, 24, .rwl, .V, 0, false, false⟩]⟩,
  -- COL_BR_MV_NORM: MEAN, SCALE
  ⟨0x4012B0, [(16, 0x800), (6, 0x100), (3, 4)],
    [⟨0, 16, .rwl, .V, 0, false, false⟩, ⟨16, 16, .rwl, .V, 0x3C00, false, false⟩]⟩,
  -- COL_BR_STATUS: LAST_FSEQ
  ⟨0x4012F0, [(16, 0x800), (6, 0x100)],
    [⟨0, 32, .ro, .V, 0, false, false⟩]⟩,
  -- COL_BR_CNT: HELD_SKIP, MV_NO_DESC
  ⟨0x4012F4, [(16, 0x800), (6, 0x100)],
    [⟨0, 16, .ro, .S, 0, false, false⟩, ⟨16, 16, .ro, .S, 0, false, false⟩]⟩,
  -- COL_BR_LUT_STATUS: IDX_IN_EFFECT, LOADING, PENDING_IDX
  ⟨0x4012F8, [(16, 0x800), (6, 0x100)],
    [⟨0, 3, .ro, .V, 0, false, false⟩, ⟨3, 1, .ro, .V, 0, false, false⟩, ⟨4, 3, .ro, .V, 0, false, false⟩]⟩]

/-- The registers of block ZE (R516, R522). -/
def regsZE : List RegSpec := [
  -- ZE_CFG: GEN_EN, BACKLOG_FRAMES
  ⟨0x500000, [],
    [⟨0, 1, .rwl, .V, 1, false, false⟩, ⟨4, 4, .rwl, .V, 2, false, false⟩]⟩,
  -- ZE_BUSY_IMG: ZE
  ⟨0x500004, [],
    [⟨0, 20, .ro, .V, 0, false, false⟩]⟩,
  -- ZE_BUSY_GEN: ZE
  ⟨0x500008, [],
    [⟨0, 20, .ro, .V, 0, false, false⟩]⟩,
  -- ZE_RING_LO: ADDR
  ⟨0x500800, [(8, 0x40)],
    [⟨0, 32, .rwl, .V, 0, false, false⟩]⟩,
  -- ZE_RING_HI: ADDR
  ⟨0x500804, [(8, 0x40)],
    [⟨0, 32, .rwl, .V, 0, false, false⟩]⟩,
  -- ZE_RING_COMPL_LO: ADDR
  ⟨0x500808, [(8, 0x40)],
    [⟨0, 32, .rwl, .V, 0, false, false⟩]⟩,
  -- ZE_RING_COMPL_HI: ADDR
  ⟨0x50080C, [(8, 0x40)],
    [⟨0, 32, .rwl, .V, 0, false, false⟩]⟩,
  -- ZE_RING_CFG: EN, SPACE, SIZE_LOG2, VECTOR
  ⟨0x500810, [(8, 0x40)],
    [⟨0, 1, .rw, .V, 0, true, false⟩, ⟨1, 1, .rwl, .V, 0, false, false⟩, ⟨4, 4, .rwl, .V, 0, false, true⟩, ⟨8, 8, .rwl, .V, 0, false, false⟩]⟩,
  -- ZE_RING_PROD: IDX
  ⟨0x500814, [(8, 0x40)],
    [⟨0, 16, .rw, .V, 0, true, false⟩]⟩,
  -- ZE_RING_CONS: IDX
  ⟨0x500818, [(8, 0x40)],
    [⟨0, 16, .ro, .V, 0, false, false⟩]⟩,
  -- ZE_RING_NGR: NGR
  ⟨0x50081C, [(8, 0x40)],
    [⟨0, 16, .rw, .V, 0x100, true, true⟩]⟩,
  -- ZE_RING_CTRL: ABORT
  ⟨0x500820, [(8, 0x40)],
    [⟨0, 1, .w1s, .V, 0, true, false⟩]⟩,
  -- ZE_RING_STATUS: LAST_STATUS, RUNNING, ZE
  ⟨0x500824, [(8, 0x40)],
    [⟨0, 3, .ro, .V, 0, false, false⟩, ⟨3, 1, .ro, .V, 0, false, false⟩, ⟨4, 5, .ro, .V, 0, false, false⟩]⟩,
  -- ZE_KRC: EN, NB, QSEL, LEVEL, KINIT
  ⟨0x501000, [(16, 0x40)],
    [⟨0, 1, .rwl, .V, 0, false, false⟩, ⟨1, 1, .rwl, .V, 0, false, false⟩, ⟨2, 2, .rwl, .V, 0, false, false⟩, ⟨4, 3, .rws, .V, 4, true, false⟩, ⟨8, 4, .rwl, .V, 4, false, false⟩]⟩,
  -- ZE_LAST_FSEQ: FSEQ
  ⟨0x501004, [(16, 0x40)],
    [⟨0, 32, .ro, .V, 0, false, false⟩]⟩,
  -- ZE_LAST_BYTES: BYTES
  ⟨0x501008, [(16, 0x40)],
    [⟨0, 32, .ro, .V, 0, false, false⟩]⟩,
  -- ZE_CNT: STORED, BAD_TILES
  ⟨0x50100C, [(16, 0x40)],
    [⟨0, 16, .ro, .S, 0, false, false⟩, ⟨16, 16, .ro, .S, 0, false, false⟩]⟩]

/-- The registers of block REC (R516, R522). -/
def regsREC : List RegSpec := [
  -- REC_CFG: EN, BACKING, LAYOUT, DRIVES, LOW_SPOOLS
  ⟨0x600000, [],
    [⟨0, 1, .rwl, .V, 0, false, false⟩, ⟨1, 1, .rwl, .V, 0, false, false⟩, ⟨2, 2, .rwl, .V, 0, false, false⟩, ⟨4, 4, .rwl, .V, 0, false, false⟩, ⟨8, 16, .rwl, .V, 0x10, false, false⟩]⟩,
  -- REC_CTRL: START, STOP
  ⟨0x600004, [],
    [⟨0, 1, .w1s, .V, 0, true, false⟩, ⟨1, 1, .w1s, .V, 0, true, false⟩]⟩,
  -- REC_CTX_MASK: MASK
  ⟨0x600008, [],
    [⟨0, 16, .rw, .V, 0, true, false⟩]⟩,
  -- REC_PREROLL: FRAMES
  ⟨0x60000C, [],
    [⟨0, 16, .rwl, .V, 0, false, false⟩]⟩,
  -- REC_FLUSH: BUDGET_KIB
  ⟨0x600010, [],
    [⟨0, 16, .rwl, .V, 0x4000, false, true⟩]⟩,
  -- REC_STATUS: STATE, DRIVES_UP, DEGRADED
  ⟨0x600014, [],
    [⟨0, 3, .ro, .V, 0, false, false⟩, ⟨4, 4, .ro, .V, 0, false, false⟩, ⟨8, 1, .ro, .V, 0, false, false⟩]⟩,
  -- REC_META: OFFSET
  ⟨0x600018, [],
    [⟨0, 28, .rw, .V, 0, true, false⟩]⟩,
  -- REC_META_CTRL: LEN, CTX_MASK
  ⟨0x60001C, [],
    [⟨0, 12, .rw, .V, 0, true, false⟩, ⟨16, 16, .w1s, .V, 0, true, false⟩]⟩,
  -- REC_OUT: BASE
  ⟨0x600020, [],
    [⟨0, 28, .rwl, .V, 0, false, false⟩]⟩,
  -- REC_OUT_SIZE: SIZE
  ⟨0x600024, [],
    [⟨0, 28, .rwl, .V, 0, false, true⟩]⟩,
  -- REC_RP_NSID: NSID
  ⟨0x600100, [(4, 0x40)],
    [⟨0, 32, .rwl, .V, 1, false, false⟩]⟩,
  -- REC_RP_PART_START_LO: LBA
  ⟨0x600104, [(4, 0x40)],
    [⟨0, 32, .rwl, .V, 0, false, false⟩]⟩,
  -- REC_RP_PART_START_HI: LBA
  ⟨0x600108, [(4, 0x40)],
    [⟨0, 32, .rwl, .V, 0, false, false⟩]⟩,
  -- REC_RP_PART_END_LO: LBA
  ⟨0x60010C, [(4, 0x40)],
    [⟨0, 32, .rwl, .V, 0, false, false⟩]⟩,
  -- REC_RP_PART_END_HI: LBA
  ⟨0x600110, [(4, 0x40)],
    [⟨0, 32, .rwl, .V, 0, false, false⟩]⟩,
  -- REC_RP_DIR_LBA_LO: LBA
  ⟨0x600114, [(4, 0x40)],
    [⟨0, 32, .rwl, .V, 0, false, false⟩]⟩,
  -- REC_RP_DIR_LBA_HI: LBA
  ⟨0x600118, [(4, 0x40)],
    [⟨0, 32, .rwl, .V, 0, false, false⟩]⟩,
  -- REC_RP_EXT: OFFSET, SIZE_LOG2
  ⟨0x60011C, [(4, 0x40)],
    [⟨0, 28, .rwl, .V, 0, false, false⟩, ⟨28, 4, .rwl, .V, 0, false, true⟩]⟩,
  -- REC_RP_EXT_PROD: IDX
  ⟨0x600120, [(4, 0x40)],
    [⟨0, 16, .rw, .V, 0, true, false⟩]⟩,
  -- REC_RP_EXT_CONS: IDX
  ⟨0x600124, [(4, 0x40)],
    [⟨0, 16, .ro, .V, 0, false, false⟩]⟩,
  -- REC_RP_STATUS: READY, FAILED, GEN, WIDTH, LBA_SHIFT, FUA
  ⟨0x600128, [(4, 0x40)],
    [⟨0, 1, .ro, .V, 0, false, false⟩, ⟨1, 1, .ro, .V, 0, false, false⟩, ⟨2, 3, .ro, .V, 0, false, false⟩, ⟨5, 3, .ro, .V, 0, false, false⟩, ⟨8, 4, .ro, .V, 0, false, false⟩, ⟨12, 1, .ro, .V, 0, false, false⟩]⟩,
  -- REC_RP_CNT: RETRIES, TIMEOUTS
  ⟨0x60012C, [(4, 0x40)],
    [⟨0, 16, .ro, .S, 0, false, false⟩, ⟨16, 16, .ro, .S, 0, false, false⟩]⟩,
  -- REC_CTX_SPOOL: SPOOL_NO
  ⟨0x600800, [(16, 0x10)],
    [⟨0, 32, .ro, .V, 0, false, false⟩]⟩,
  -- REC_CTX_FSEQ: LAST_FSEQ
  ⟨0x600804, [(16, 0x10)],
    [⟨0, 32, .ro, .V, 0, false, false⟩]⟩,
  -- REC_CTX_CNT: DROPPED
  ⟨0x600808, [(16, 0x10)],
    [⟨0, 16, .ro, .S, 0, false, false⟩]⟩,
  -- REC_OFF_RING: BASE, SIZE_LOG2
  ⟨0x600A00, [],
    [⟨0, 24, .rwl, .V, 0, false, false⟩, ⟨28, 4, .rwl, .V, 0, false, true⟩]⟩,
  -- REC_OFF_COMPL: BASE, VECTOR
  ⟨0x600A04, [],
    [⟨0, 24, .rwl, .V, 0, false, false⟩, ⟨24, 8, .rwl, .V, 0, false, false⟩]⟩,
  -- REC_OFF_IDX: PROD, CONS
  ⟨0x600A08, [],
    [⟨0, 16, .rw, .V, 0, true, false⟩, ⟨16, 16, .ro, .V, 0, false, false⟩]⟩,
  -- REC_OFF_CFG: AHEAD_FRAMES
  ⟨0x600A0C, [],
    [⟨0, 8, .rwl, .V, 4, false, true⟩]⟩]

/-- The registers of block VE (R516, R522). -/
def regsVE : List RegSpec := [
  -- VE_SES_CMD: SES, OP, GO, RESULT
  ⟨0x700000, [],
    [⟨0, 8, .rw, .V, 0, true, false⟩, ⟨8, 2, .rw, .V, 0, true, false⟩, ⟨16, 1, .w1s, .V, 0, true, false⟩, ⟨17, 3, .ro, .V, 0, false, false⟩]⟩,
  -- VE_ADMIT: RSV_GBS
  ⟨0x700004, [],
    [⟨0, 16, .rwl, .V, 0x200, false, false⟩]⟩,
  -- VE_LOAD: COMMITTED, CAPACITY
  ⟨0x700008, [],
    [⟨0, 16, .ro, .V, 0, false, false⟩, ⟨16, 16, .ro, .V, 0xC80, false, false⟩]⟩,
  -- VE_MEM_EST: ALL_GBS, LIVE_GBS
  ⟨0x70000C, [],
    [⟨0, 16, .ro, .V, 0, false, false⟩, ⟨16, 16, .ro, .V, 0, false, false⟩]⟩,
  -- VE_FENCE0: FENCED
  ⟨0x700010, [],
    [⟨0, 32, .ro, .A, 0, false, false⟩]⟩,
  -- VE_FENCE1: FENCED
  ⟨0x700014, [],
    [⟨0, 32, .ro, .A, 0, false, false⟩]⟩,
  -- VE_FENCE2: FENCED
  ⟨0x700018, [],
    [⟨0, 4, .ro, .A, 0, false, false⟩]⟩,
  -- VE_SPARE_MAP: REPLACES0, IN_USE0, REPLACES1, IN_USE1, REPLACES2, IN_USE2, REPLACES3, IN_USE3
  ⟨0x70001C, [],
    [⟨0, 7, .ro, .A, 0, false, false⟩, ⟨7, 1, .ro, .A, 0, false, false⟩, ⟨8, 7, .ro, .A, 0, false, false⟩, ⟨15, 1, .ro, .A, 0, false, false⟩, ⟨16, 7, .ro, .A, 0, false, false⟩, ⟨23, 1, .ro, .A, 0, false, false⟩, ⟨24, 7, .ro, .A, 0, false, false⟩, ⟨31, 1, .ro, .A, 0, false, false⟩]⟩,
  -- VE_ROW_WDOG: FACTOR
  ⟨0x700020, [],
    [⟨0, 8, .rwl, .V, 0x50, false, true⟩]⟩,
  -- LG_CFG: EN, CTX, BRANCH, CLASS, PRIO, SCENE_MODE
  ⟨0x700100, [(8, 0x40)],
    [⟨0, 1, .rwl, .V, 0, false, false⟩, ⟨4, 4, .rwl, .V, 0, false, false⟩, ⟨8, 3, .rwl, .V, 0, false, false⟩, ⟨12, 2, .rwl, .V, 2, false, false⟩, ⟨16, 3, .rwl, .V, 0, false, false⟩, ⟨20, 2, .rwl, .V, 0, false, false⟩]⟩,
  -- LG_SIZE: TOP_W, TOP_H
  ⟨0x700104, [(8, 0x40)],
    [⟨0, 16, .rwl, .V, 0, false, true⟩, ⟨16, 16, .rwl, .V, 0, false, true⟩]⟩,
  -- LG_TIMESCALE: TIMESCALE
  ⟨0x700108, [(8, 0x40)],
    [⟨0, 20, .rwl, .V, 0x15F90, false, true⟩]⟩,
  -- LG_DUR: FRAME_DUR
  ⟨0x70010C, [(8, 0x40)],
    [⟨0, 20, .rwl, .V, 0x5DC, false, true⟩]⟩,
  -- LG_GOP: GOP_LEN, MINIGOP, REFRESH, REFRESH_PERIOD
  ⟨0x700110, [(8, 0x40)],
    [⟨0, 16, .rwl, .V, 0x78, false, true⟩, ⟨16, 4, .rwl, .V, 1, false, true⟩, ⟨20, 2, .rwl, .V, 0, false, false⟩, ⟨24, 8, .rwl, .V, 0, false, true⟩]⟩,
  -- LG_SCENE: SCENE_THR, MIN_GAP
  ⟨0x700114, [(8, 0x40)],
    [⟨0, 8, .rws, .V, 0x99, true, false⟩, ⟨8, 8, .rwl, .V, 0xC, false, false⟩]⟩,
  -- LG_STATUS: MEMBERS, HALVED_ANY, PIC_NO
  ⟨0x700118, [(8, 0x40)],
    [⟨0, 6, .ro, .V, 0, false, false⟩, ⟨6, 1, .ro, .V, 0, false, false⟩, ⟨8, 24, .ro, .V, 0, false, false⟩]⟩,
  -- VE_ENG_STATUS: ACTIVE, SPARE, FENCED, ROWS_QUEUED, LOAD_PCT
  ⟨0x700800, [(68, 4)],
    [⟨0, 1, .ro, .V, 0, false, false⟩, ⟨1, 1, .ro, .V, 0, false, false⟩, ⟨2, 1, .ro, .A, 0, false, false⟩, ⟨8, 8, .ro, .V, 0, false, false⟩, ⟨16, 8, .ro, .V, 0, false, false⟩]⟩,
  -- SES_CFG: EN, CODEC, PROFILE, CLASS, SRC_KIND, GROUP, CTX, BRANCH, PRIO, AUTOSTART
  ⟨0x701000, [(256, 0x80)],
    [⟨0, 1, .rwl, .V, 0, false, false⟩, ⟨1, 1, .rwl, .V, 0, false, false⟩, ⟨2, 3, .rwl, .V, 0, false, false⟩, ⟨5, 2, .rwl, .V, 2, false, false⟩, ⟨7, 2, .rwl, .V, 0, false, false⟩, ⟨9, 3, .rwl, .V, 0, false, false⟩, ⟨12, 4, .rwl, .V, 0, false, false⟩, ⟨16, 3, .rwl, .V, 0, false, false⟩, ⟨19, 3, .rwl, .V, 0, false, false⟩, ⟨22, 1, .rwl, .V, 0, false, false⟩]⟩,
  -- SES_SIZE: W, H
  ⟨0x701004, [(256, 0x80)],
    [⟨0, 16, .rwl, .V, 0, false, true⟩, ⟨16, 16, .rwl, .V, 0, false, true⟩]⟩,
  -- SES_FMT: DEPTH, CHROMA, LEVEL, TIER, BAND_ROWS
  ⟨0x701008, [(256, 0x80)],
    [⟨0, 4, .rwl, .V, 1, false, false⟩, ⟨4, 2, .rwl, .V, 0, false, false⟩, ⟨8, 8, .rwl, .V, 0, false, false⟩, ⟨16, 1, .rwl, .V, 0, false, false⟩, ⟨20, 4, .rwl, .V, 4, false, true⟩]⟩,
  -- SES_TIMESCALE: TIMESCALE
  ⟨0x70100C, [(256, 0x80)],
    [⟨0, 20, .rwl, .V, 0x15F90, false, true⟩]⟩,
  -- SES_DUR: FRAME_DUR
  ⟨0x701010, [(256, 0x80)],
    [⟨0, 20, .rwl, .V, 0x5DC, false, true⟩]⟩,
  -- SES_GOP: GOP_LEN, MINIGOP, REFRESH, REFRESH_PERIOD
  ⟨0x701014, [(256, 0x80)],
    [⟨0, 16, .rwl, .V, 0x78, false, true⟩, ⟨16, 4, .rwl, .V, 1, false, true⟩, ⟨20, 2, .rwl, .V, 0, false, false⟩, ⟨24, 8, .rwl, .V, 0, false, true⟩]⟩,
  -- SES_TOOLS: LF2, AMP, HASH, PRFT, EFFORT, VSR
  ⟨0x701018, [(256, 0x80)],
    [⟨0, 1, .rwl, .V, 1, false, false⟩, ⟨1, 1, .rwl, .V, 1, false, false⟩, ⟨2, 1, .rwl, .V, 0, false, false⟩, ⟨3, 1, .rwl, .V, 0, false, false⟩, ⟨4, 3, .rws, .V, 4, true, false⟩, ⟨8, 8, .rwl, .V, 0x10, false, true⟩]⟩,
  -- SES_OUT_DATA: BASE
  ⟨0x70101C, [(256, 0x80)],
    [⟨0, 28, .rwl, .V, 0, false, false⟩]⟩,
  -- SES_OUT_SIZE: SIZE
  ⟨0x701020, [(256, 0x80)],
    [⟨0, 28, .rwl, .V, 0, false, true⟩]⟩,
  -- SES_OUT_REC: BASE, REC_LOG2
  ⟨0x701024, [(256, 0x80)],
    [⟨0, 24, .rwl, .V, 0, false, false⟩, ⟨28, 4, .rwl, .V, 0, false, true⟩]⟩,
  -- SES_PROD: IDX
  ⟨0x701028, [(256, 0x80)],
    [⟨0, 16, .ro, .V, 0, false, false⟩]⟩,
  -- SES_CONS: IDX, EN
  ⟨0x70102C, [(256, 0x80), (2, 4)],
    [⟨0, 16, .rw, .V, 0, true, false⟩, ⟨16, 1, .rwl, .V, 0, false, false⟩]⟩,
  -- SES_STATUS: STATE, HALVED, ENGINES
  ⟨0x701034, [(256, 0x80)],
    [⟨0, 3, .ro, .V, 0, false, false⟩, ⟨3, 1, .ro, .V, 0, false, false⟩, ⟨4, 8, .ro, .V, 0, false, false⟩]⟩,
  -- SES_PIC: PIC_NO
  ⟨0x701038, [(256, 0x80)],
    [⟨0, 32, .ro, .V, 0, false, false⟩]⟩,
  -- SES_CNT: REPEATS, DISCARDED
  ⟨0x70103C, [(256, 0x80)],
    [⟨0, 16, .ro, .S, 0, false, false⟩, ⟨16, 16, .ro, .S, 0, false, false⟩]⟩,
  -- SES_RC: RC_MODE, AQ, HRD
  ⟨0x701040, [(256, 0x80)],
    [⟨0, 2, .rwl, .V, 1, false, false⟩, ⟨2, 1, .rwl, .V, 1, false, false⟩, ⟨3, 1, .rwl, .V, 1, false, false⟩]⟩,
  -- SES_RATE: BITRATE_KBPS
  ⟨0x701044, [(256, 0x80)],
    [⟨0, 24, .rws, .V, 0, true, true⟩]⟩,
  -- SES_MAXRATE: MAX_KBPS
  ⟨0x701048, [(256, 0x80)],
    [⟨0, 24, .rws, .V, 0, true, true⟩]⟩,
  -- SES_CPB: CPB_KBIT, INIT_PCT
  ⟨0x70104C, [(256, 0x80)],
    [⟨0, 24, .rwl, .V, 0, false, true⟩, ⟨24, 7, .rwl, .V, 0x5A, false, true⟩]⟩,
  -- SES_QP: QP_MIN, QP_MAX, QP_SALVAGE, INIT_QP
  ⟨0x701050, [(256, 0x80)],
    [⟨0, 8, .rws, .V, 0, true, false⟩, ⟨8, 8, .rws, .V, 0x3F, true, false⟩, ⟨16, 8, .rwl, .V, 0x39, false, false⟩, ⟨24, 8, .rwl, .V, 0x20, false, false⟩]⟩,
  -- SES_CAP: HARD_CAP
  ⟨0x701054, [(256, 0x80)],
    [⟨0, 28, .rws, .V, 0, true, false⟩]⟩,
  -- SES_RC_STATUS: LAST_QP, FILL_PCT
  ⟨0x701058, [(256, 0x80)],
    [⟨0, 8, .ro, .V, 0, false, false⟩, ⟨8, 7, .ro, .V, 0, false, false⟩]⟩,
  -- SES_RC_CNT: SALVAGED, ALL_SKIP
  ⟨0x70105C, [(256, 0x80)],
    [⟨0, 16, .ro, .S, 0, false, false⟩, ⟨16, 16, .ro, .S, 0, false, false⟩]⟩,
  -- SES_MDCV: X, Y
  ⟨0x701060, [(256, 0x80), (4, 4)],
    [⟨0, 16, .rwl, .V, 0, false, false⟩, ⟨16, 16, .rwl, .V, 0, false, false⟩]⟩,
  -- SES_MAX_LUM: LUM
  ⟨0x701070, [(256, 0x80)],
    [⟨0, 32, .rwl, .V, 0, false, false⟩]⟩,
  -- SES_MIN_LUM: LUM
  ⟨0x701074, [(256, 0x80)],
    [⟨0, 32, .rwl, .V, 0, false, false⟩]⟩,
  -- SES_CLL: MAXCLL, MAXFALL
  ⟨0x701078, [(256, 0x80)],
    [⟨0, 16, .rwl, .V, 0, false, false⟩, ⟨16, 16, .rwl, .V, 0, false, false⟩]⟩,
  -- SES_SHED: EFFORT_CAP, DROP
  ⟨0x70107C, [(256, 0x80)],
    [⟨0, 3, .ro, .V, 7, false, false⟩, ⟨4, 2, .ro, .V, 0, false, false⟩]⟩,
  -- DEC_CFG: EN, CODEC, CLASS, SRC, RXF, WAIT_RAP
  ⟨0x70A000, [(16, 0x40)],
    [⟨0, 1, .rwl, .V, 0, false, false⟩, ⟨1, 1, .rwl, .V, 0, false, false⟩, ⟨2, 2, .rwl, .V, 2, false, false⟩, ⟨4, 1, .rwl, .V, 0, false, false⟩, ⟨8, 8, .rwl, .V, 0, false, false⟩, ⟨16, 1, .rw, .V, 1, true, false⟩]⟩,
  -- DEC_MAX: MAX_W, MAX_H
  ⟨0x70A004, [(16, 0x40)],
    [⟨0, 16, .rwl, .V, 0, false, true⟩, ⟨16, 16, .rwl, .V, 0, false, true⟩]⟩,
  -- DEC_MAX_FPS: FPS
  ⟨0x70A008, [(16, 0x40)],
    [⟨0, 16, .rwl, .V, 0x3C, false, true⟩]⟩,
  -- DEC_OUT_BASE: BASE
  ⟨0x70A00C, [(16, 0x40)],
    [⟨0, 28, .rwl, .V, 0, false, false⟩]⟩,
  -- DEC_OUT_RING: BUFS, STRIDE
  ⟨0x70A010, [(16, 0x40)],
    [⟨0, 4, .rwl, .V, 2, false, true⟩, ⟨8, 24, .rwl, .V, 0, false, true⟩]⟩,
  -- DEC_IN_RING: BASE, SIZE_LOG2
  ⟨0x70A014, [(16, 0x40)],
    [⟨0, 24, .rwl, .V, 0, false, false⟩, ⟨28, 4, .rwl, .V, 0, false, true⟩]⟩,
  -- DEC_REC_RING: BASE, SIZE_LOG2
  ⟨0x70A018, [(16, 0x40)],
    [⟨0, 24, .rwl, .V, 0, false, false⟩, ⟨28, 4, .rwl, .V, 0, false, true⟩]⟩,
  -- DEC_IDX: IN_PROD, REC_PROD
  ⟨0x70A01C, [(16, 0x40)],
    [⟨0, 16, .rw, .V, 0, true, false⟩, ⟨16, 16, .ro, .V, 0, false, false⟩]⟩,
  -- DEC_STATUS: STATE, CONCEALED, IN_CONS
  ⟨0x70A020, [(16, 0x40)],
    [⟨0, 2, .ro, .V, 0, false, false⟩, ⟨2, 1, .ro, .V, 0, false, false⟩, ⟨16, 16, .ro, .V, 0, false, false⟩]⟩,
  -- DEC_CNT: CONCEALED_PICS, SUBST_REFS
  ⟨0x70A024, [(16, 0x40)],
    [⟨0, 16, .ro, .S, 0, false, false⟩, ⟨16, 16, .ro, .S, 0, false, false⟩]⟩]

/-- The registers of block RAS (R516, R522). -/
def regsRAS : List RegSpec := [
  -- RAS_CFG: EN, PLL, GROUP, HOLD_LAST, SRC, GK_PORT
  ⟨0x801000, [(6, 0x1000)],
    [⟨0, 1, .rwl, .V, 0, false, false⟩, ⟨1, 2, .rwl, .V, 0, false, false⟩, ⟨4, 2, .rwl, .V, 0, false, false⟩, ⟨8, 1, .rwl, .V, 0, false, false⟩, ⟨9, 1, .rws, .V, 0, true, false⟩, ⟨10, 3, .rws, .V, 0, true, false⟩]⟩,
  -- RAS_TIMING0: H_ACTIVE, V_ACTIVE
  ⟨0x801004, [(6, 0x1000)],
    [⟨0, 16, .rws, .V, 0, true, true⟩, ⟨16, 16, .rws, .V, 0, true, true⟩]⟩,
  -- RAS_TIMING1: H_TOTAL, V_TOTAL
  ⟨0x801008, [(6, 0x1000)],
    [⟨0, 16, .rws, .V, 0, true, true⟩, ⟨16, 16, .rws, .V, 0, true, true⟩]⟩,
  -- RAS_RATE: NUM, DEN
  ⟨0x80100C, [(6, 0x1000)],
    [⟨0, 16, .rws, .V, 0x3C, true, true⟩, ⟨16, 12, .rws, .V, 1, true, true⟩]⟩,
  -- RAS_FMT: YCC, RANGE, TF, INTERLACE, PL_DEPTH
  ⟨0x801010, [(6, 0x1000)],
    [⟨0, 2, .rws, .V, 0, true, false⟩, ⟨2, 1, .rws, .V, 0, true, false⟩, ⟨3, 3, .rws, .V, 2, true, false⟩, ⟨6, 1, .rws, .V, 0, true, false⟩, ⟨8, 1, .rws, .V, 0, true, false⟩]⟩,
  -- RAS_BG: COLOUR
  ⟨0x801014, [(6, 0x1000)],
    [⟨0, 30, .rws, .V, 0, true, false⟩]⟩,
  -- RAS_EPOCH_LO: EPOCH
  ⟨0x801018, [(6, 0x1000)],
    [⟨0, 32, .rwl, .V, 0, false, false⟩]⟩,
  -- RAS_EPOCH_HI: EPOCH
  ⟨0x80101C, [(6, 0x1000)],
    [⟨0, 32, .rwl, .V, 0, false, false⟩]⟩,
  -- RAS_COMMIT: GO
  ⟨0x801020, [(6, 0x1000)],
    [⟨0, 1, .w1s, .V, 0, true, false⟩]⟩,
  -- RAS_FETCH: FETCH_LEAD
  ⟨0x801024, [(6, 0x1000)],
    [⟨0, 4, .rwl, .V, 4, false, true⟩]⟩,
  -- RAS_FRZ: EN, LAYER, FRAMES
  ⟨0x801028, [(6, 0x1000)],
    [⟨0, 1, .rws, .V, 1, true, false⟩, ⟨1, 3, .rws, .V, 0, true, false⟩, ⟨4, 8, .rws, .V, 2, true, true⟩]⟩,
  -- RAS_FRZ_XY: X, Y
  ⟨0x80102C, [(6, 0x1000)],
    [⟨0, 16, .rws, .V, 0, true, false⟩, ⟨16, 16, .rws, .V, 0, true, false⟩]⟩,
  -- RAS_FRZ_WH: W, H
  ⟨0x801030, [(6, 0x1000)],
    [⟨0, 16, .rws, .V, 0, true, true⟩, ⟨16, 16, .rws, .V, 0, true, true⟩]⟩,
  -- RAS_PANEL: PL_RATE, PL_LANES, V_SLEW, TRAIN_US
  ⟨0x801034, [(6, 0x1000)],
    [⟨0, 1, .rws, .V, 1, true, false⟩, ⟨1, 2, .rws, .V, 2, true, false⟩, ⟨4, 8, .rwl, .V, 8, false, true⟩, ⟨16, 12, .rwl, .V, 0x64, false, true⟩]⟩,
  -- RAS_RB: RB_EN, RB_LIMIT
  ⟨0x801038, [(6, 0x1000)],
    [⟨0, 1, .rwl, .V, 1, false, false⟩, ⟨8, 8, .rwl, .V, 1, false, true⟩]⟩,
  -- RAS_STATUS: LOCKED, VBLANK, FROZEN, PENDING, PHASE_NS
  ⟨0x801040, [(6, 0x1000)],
    [⟨0, 1, .ro, .V, 0, false, false⟩, ⟨1, 1, .ro, .V, 0, false, false⟩, ⟨2, 1, .ro, .V, 0, false, false⟩, ⟨3, 1, .ro, .V, 0, false, false⟩, ⟨16, 16, .ro, .V, 0, false, false⟩]⟩,
  -- RAS_FRAME: COUNT
  ⟨0x801044, [(6, 0x1000)],
    [⟨0, 32, .ro, .V, 0, false, false⟩]⟩,
  -- RAS_CNT: UNDERRUN, REPEATS
  ⟨0x801048, [(6, 0x1000)],
    [⟨0, 16, .ro, .S, 0, false, false⟩, ⟨16, 16, .ro, .S, 0, false, false⟩]⟩,
  -- RAS_SIG: SIG
  ⟨0x80104C, [(6, 0x1000)],
    [⟨0, 32, .ro, .V, 0, false, false⟩]⟩,
  -- RAS_RB_CNT: MISMATCH, LOST
  ⟨0x801050, [(6, 0x1000)],
    [⟨0, 16, .ro, .S, 0, false, false⟩, ⟨16, 16, .ro, .S, 0, false, false⟩]⟩,
  -- RAS_LAY_CFG: EN, KIND, GFX_FMT, GFX_BUF, GUIDE, SRC, GA
  ⟨0x801100, [(6, 0x1000), (8, 0x40)],
    [⟨0, 1, .rws, .V, 0, true, false⟩, ⟨1, 2, .rws, .V, 0, true, false⟩, ⟨4, 2, .rws, .V, 0, true, false⟩, ⟨6, 1, .rws, .V, 0, true, false⟩, ⟨8, 2, .rws, .V, 0, true, false⟩, ⟨16, 8, .rws, .V, 0, true, false⟩, ⟨24, 8, .rws, .V, 0xFF, true, false⟩]⟩,
  -- RAS_LAY_POS: X, Y
  ⟨0x801104, [(6, 0x1000), (8, 0x40)],
    [⟨0, 16, .rws, .V, 0, true, false⟩, ⟨16, 16, .rws, .V, 0, true, false⟩]⟩,
  -- RAS_LAY_SIZE: W, H
  ⟨0x801108, [(6, 0x1000), (8, 0x40)],
    [⟨0, 16, .rws, .V, 0, true, true⟩, ⟨16, 16, .rws, .V, 0, true, true⟩]⟩,
  -- RAS_LAY_SRC_XY: X, Y
  ⟨0x80110C, [(6, 0x1000), (8, 0x40)],
    [⟨0, 16, .rws, .V, 0, true, false⟩, ⟨16, 16, .rws, .V, 0, true, false⟩]⟩,
  -- RAS_LAY_DELAY: DELAY_US
  ⟨0x801110, [(6, 0x1000), (8, 0x40)],
    [⟨0, 24, .rws, .V, 0, true, false⟩]⟩,
  -- RAS_LAY_GFX0: BASE
  ⟨0x801114, [(6, 0x1000), (8, 0x40)],
    [⟨0, 28, .rws, .V, 0, true, false⟩]⟩,
  -- RAS_LAY_GFX1: BASE
  ⟨0x801118, [(6, 0x1000), (8, 0x40)],
    [⟨0, 28, .rws, .V, 0, true, false⟩]⟩,
  -- RAS_LAY_PITCH: PITCH
  ⟨0x80111C, [(6, 0x1000), (8, 0x40)],
    [⟨0, 16, .rws, .V, 0, true, true⟩]⟩,
  -- RAS_LAY_COLOUR: COLOUR
  ⟨0x801120, [(6, 0x1000), (8, 0x40)],
    [⟨0, 30, .rws, .V, 0, true, false⟩]⟩,
  -- RAS_LAY_SHOWN: FSEQ
  ⟨0x801130, [(6, 0x1000), (8, 0x40)],
    [⟨0, 32, .ro, .V, 0, false, false⟩]⟩,
  -- GK_CFG: EN, BX, BY, FRAME_DIV, CFA
  ⟨0x807000, [(8, 0x100)],
    [⟨0, 1, .rwl, .V, 0, false, false⟩, ⟨1, 2, .rwl, .V, 0, false, false⟩, ⟨3, 2, .rwl, .V, 0, false, false⟩, ⟨5, 2, .rwl, .V, 0, false, false⟩, ⟨8, 2, .rwl, .V, 0, false, false⟩]⟩,
  -- GK_WIN_XY: X, Y
  ⟨0x807004, [(8, 0x100)],
    [⟨0, 16, .rwl, .V, 0, false, false⟩, ⟨16, 16, .rwl, .V, 0, false, false⟩]⟩,
  -- GK_WIN_WH: W, H
  ⟨0x807008, [(8, 0x100)],
    [⟨0, 16, .rwl, .V, 0, false, true⟩, ⟨16, 16, .rwl, .V, 0, false, true⟩]⟩,
  -- GK_LINE: T_LINE
  ⟨0x80700C, [(8, 0x100)],
    [⟨0, 24, .rwl, .V, 0, false, true⟩]⟩,
  -- GK_ROW0: ROW0_NS
  ⟨0x807010, [(8, 0x100)],
    [⟨0, 32, .rwl, .V, 0, false, false⟩]⟩,
  -- GK_BLACK: BLACK
  ⟨0x807014, [(8, 0x100)],
    [⟨0, 16, .rws, .V, 0, true, false⟩]⟩,
  -- GK_MISS: MISS_US
  ⟨0x807018, [(8, 0x100)],
    [⟨0, 16, .rwl, .V, 0x1F4, false, true⟩]⟩,
  -- GK_CNT: LATE, DAMAGED_ROWS
  ⟨0x807020, [(8, 0x100)],
    [⟨0, 16, .ro, .S, 0, false, false⟩, ⟨16, 16, .ro, .S, 0, false, false⟩]⟩,
  -- GK_LUT: ENTRY_EVEN, ENTRY_ODD
  ⟨0x808000, [(8, 0x1000), (3, 0x400), (256, 4)],
    [⟨0, 16, .rws, .V, 0, true, false⟩, ⟨16, 16, .rws, .V, 0, true, false⟩]⟩]

/-- The registers of block SDI (R516, R522). -/
def regsSDI : List RegSpec := [
  -- SDI_CFG: EN, LINK
  ⟨0x900100, [(16, 0x10)],
    [⟨0, 1, .rwl, .V, 0, false, false⟩, ⟨1, 2, .rws, .V, 0, true, false⟩]⟩,
  -- SDI_STATUS: ACTIVE, STD
  ⟨0x900104, [(16, 0x10)],
    [⟨0, 1, .ro, .V, 0, false, false⟩, ⟨4, 4, .ro, .V, 0, false, false⟩]⟩,
  -- SDI_RS_CFG: MODE, STD, AUD_EN, TC_SRC
  ⟨0x901000, [(4, 0x100)],
    [⟨0, 1, .rws, .V, 0, true, false⟩, ⟨4, 4, .rws, .V, 0, true, false⟩, ⟨8, 1, .rws, .V, 0, true, false⟩, ⟨9, 1, .rws, .V, 0, true, false⟩]⟩,
  -- SDI_RS_AUD: AP, EN
  ⟨0x901010, [(4, 0x100), (8, 4)],
    [⟨0, 3, .rws, .V, 0, true, false⟩, ⟨3, 1, .rws, .V, 0, true, false⟩]⟩]

/-- The registers of block NET (R516, R522). -/
def regsNET : List RegSpec := [
  -- NET_CFG: ETH0_MODE, ETH1_MODE, MBOX_EN, FEC25
  ⟨0xA00000, [],
    [⟨0, 2, .rwl, .V, 0, false, false⟩, ⟨2, 2, .rwl, .V, 0, false, false⟩, ⟨4, 1, .rwl, .V, 0, false, false⟩, ⟨8, 16, .rwl, .V, 0, false, false⟩]⟩,
  -- NET_IF_IP: IP
  ⟨0xA00100, [(8, 0x20)],
    [⟨0, 32, .rwl, .V, 0, false, false⟩]⟩,
  -- NET_IF_MASK: MASK
  ⟨0xA00104, [(8, 0x20)],
    [⟨0, 32, .rwl, .V, 0, false, false⟩]⟩,
  -- NET_IF_MAC_LO: MAC
  ⟨0xA00108, [(8, 0x20)],
    [⟨0, 32, .rwl, .V, 0, false, false⟩]⟩,
  -- NET_IF_MAC_HI: MAC, VID
  ⟨0xA0010C, [(8, 0x20)],
    [⟨0, 16, .rwl, .V, 0, false, false⟩, ⟨16, 12, .rwl, .V, 0, false, false⟩]⟩,
  -- NET_IF_STATUS: LINK
  ⟨0xA00110, [(8, 0x20)],
    [⟨0, 1, .ro, .V, 0, false, false⟩]⟩,
  -- NET_ING_LAT: LAT
  ⟨0xA00400, [(2, 0x40)],
    [⟨0, 32, .rw, .V, 0, true, false⟩]⟩,
  -- NET_EGR_LAT: LAT
  ⟨0xA00404, [(2, 0x40)],
    [⟨0, 32, .rw, .V, 0, true, false⟩]⟩,
  -- NET_ETH_CNT: DOWNS, FCS_ERR
  ⟨0xA00408, [(2, 0x40)],
    [⟨0, 16, .ro, .S, 0, false, false⟩, ⟨16, 16, .ro, .S, 0, false, false⟩]⟩,
  -- TXF_CFG: EN, ESSENCE, IF_A, IF_B, RED, LINEAR
  ⟨0xA10000, [(1024, 0x40)],
    [⟨0, 1, .rw, .V, 0, true, false⟩, ⟨1, 3, .rwl, .V, 0, false, false⟩, ⟨4, 4, .rwl, .V, 0, false, false⟩, ⟨8, 4, .rwl, .V, 0, false, false⟩, ⟨12, 1, .rwl, .V, 0, false, false⟩, ⟨13, 1, .rwl, .V, 0, false, false⟩]⟩,
  -- TXF_SRC: SRC
  ⟨0xA10004, [(1024, 0x40)],
    [⟨0, 16, .rwl, .V, 0, false, false⟩]⟩,
  -- TXF_DST_A: IP
  ⟨0xA10008, [(1024, 0x40)],
    [⟨0, 32, .rwl, .V, 0, false, false⟩]⟩,
  -- TXF_DST_B: IP
  ⟨0xA1000C, [(1024, 0x40)],
    [⟨0, 32, .rwl, .V, 0, false, false⟩]⟩,
  -- TXF_UDP: DPORT, SPORT
  ⟨0xA10010, [(1024, 0x40)],
    [⟨0, 16, .rwl, .V, 0, false, false⟩, ⟨16, 16, .rwl, .V, 0, false, false⟩]⟩,
  -- TXF_RTP: PT, DSCP, TTL
  ⟨0xA10014, [(1024, 0x40)],
    [⟨0, 7, .rwl, .V, 0x60, false, false⟩, ⟨8, 6, .rwl, .V, 0x22, false, false⟩, ⟨16, 8, .rwl, .V, 0x40, false, false⟩]⟩,
  -- TXF_SSRC: SSRC
  ⟨0xA10018, [(1024, 0x40)],
    [⟨0, 32, .rwl, .V, 0, false, false⟩]⟩,
  -- TXF_ESS0: WORD
  ⟨0xA10020, [(1024, 0x40)],
    [⟨0, 32, .rwl, .V, 0, false, false⟩]⟩,
  -- TXF_ESS1: WORD
  ⟨0xA10024, [(1024, 0x40)],
    [⟨0, 32, .rwl, .V, 0, false, false⟩]⟩,
  -- TXF_ESS2: WORD
  ⟨0xA10028, [(1024, 0x40)],
    [⟨0, 32, .rwl, .V, 0, false, false⟩]⟩,
  -- TXF_ESS3: RACTIVE
  ⟨0xA1002C, [(1024, 0x40)],
    [⟨0, 16, .rwl, .V, 0, false, false⟩]⟩,
  -- TXF_STATUS: STATE
  ⟨0xA10030, [(1024, 0x40)],
    [⟨0, 2, .ro, .V, 0, false, false⟩]⟩,
  -- TXF_CNT_PKT: COUNT
  ⟨0xA10034, [(1024, 0x40)],
    [⟨0, 32, .ro, .S, 0, false, false⟩]⟩,
  -- TXF_CNT_DROP: COUNT
  ⟨0xA10038, [(1024, 0x40)],
    [⟨0, 32, .ro, .S, 0, false, false⟩]⟩,
  -- RXF_CFG: EN, ESSENCE, IF_A, IF_B, RED
  ⟨0xA20000, [(256, 0x40)],
    [⟨0, 1, .rw, .V, 0, true, false⟩, ⟨1, 3, .rwl, .V, 0, false, false⟩, ⟨4, 4, .rwl, .V, 0, false, false⟩, ⟨8, 4, .rwl, .V, 0, false, false⟩, ⟨12, 1, .rwl, .V, 0, false, false⟩]⟩,
  -- RXF_DEST: DEST
  ⟨0xA20004, [(256, 0x40)],
    [⟨0, 8, .rwl, .V, 0, false, false⟩]⟩,
  -- RXF_GROUP_A: IP
  ⟨0xA20008, [(256, 0x40)],
    [⟨0, 32, .rwl, .V, 0, false, false⟩]⟩,
  -- RXF_GROUP_B: IP
  ⟨0xA2000C, [(256, 0x40)],
    [⟨0, 32, .rwl, .V, 0, false, false⟩]⟩,
  -- RXF_SRC_IP: IP
  ⟨0xA20010, [(256, 0x40)],
    [⟨0, 32, .rwl, .V, 0, false, false⟩]⟩,
  -- RXF_UDP: DPORT, PT
  ⟨0xA20014, [(256, 0x40)],
    [⟨0, 16, .rwl, .V, 0, false, false⟩, ⟨16, 7, .rwl, .V, 0, false, false⟩]⟩,
  -- RXF_SKEW: SKEW_US
  ⟨0xA20018, [(256, 0x40)],
    [⟨0, 16, .rwl, .V, 0x2710, false, true⟩]⟩,
  -- RXF_BUF: BASE
  ⟨0xA20024, [(256, 0x40)],
    [⟨0, 32, .rwl, .V, 0, false, false⟩]⟩,
  -- RXF_STATUS: PATHS
  ⟨0xA20030, [(256, 0x40)],
    [⟨0, 2, .ro, .V, 0, false, false⟩]⟩,
  -- RXF_CNT_RX: COUNT
  ⟨0xA20034, [(256, 0x40)],
    [⟨0, 32, .ro, .S, 0, false, false⟩]⟩,
  -- RXF_CNT_LOST: COUNT
  ⟨0xA20038, [(256, 0x40)],
    [⟨0, 32, .ro, .S, 0, false, false⟩]⟩,
  -- RXF_CNT_RECOVERED: COUNT
  ⟨0xA2003C, [(256, 0x40)],
    [⟨0, 32, .ro, .S, 0, false, false⟩]⟩]

/-- The registers of block TIME (R516, R522). -/
def regsTIME : List RegSpec := [
  -- TIME_NOW_SEC_LO: VALUE
  ⟨0xB00000, [],
    [⟨0, 32, .ro, .A, 0, false, false⟩]⟩,
  -- TIME_NOW_SEC_HI: VALUE
  ⟨0xB00004, [],
    [⟨0, 16, .ro, .A, 0, false, false⟩]⟩,
  -- TIME_NOW_NS: VALUE
  ⟨0xB00008, [],
    [⟨0, 30, .ro, .A, 0, false, false⟩]⟩,
  -- TIME_NOW_SUBNS: VALUE
  ⟨0xB0000C, [],
    [⟨0, 16, .ro, .A, 0, false, false⟩]⟩,
  -- TIME_NOW_STIME_LO: VALUE
  ⟨0xB00010, [],
    [⟨0, 32, .ro, .A, 0, false, false⟩]⟩,
  -- TIME_NOW_STIME_HI: VALUE
  ⟨0xB00014, [],
    [⟨0, 32, .ro, .A, 0, false, false⟩]⟩,
  -- TIME_CTRL: SET, STEP_NOW
  ⟨0xB00020, [],
    [⟨0, 1, .w1s, .V, 0, true, false⟩, ⟨1, 1, .w1s, .V, 0, true, false⟩]⟩,
  -- TIME_SET_SEC_LO: SEC
  ⟨0xB00024, [],
    [⟨0, 32, .rw, .V, 0, true, false⟩]⟩,
  -- TIME_SET_SEC_HI: SEC
  ⟨0xB00028, [],
    [⟨0, 16, .rw, .V, 0, true, false⟩]⟩,
  -- TIME_SET_NS: NS
  ⟨0xB0002C, [],
    [⟨0, 30, .rw, .V, 0, true, false⟩]⟩,
  -- TIME_STATUS: STATE, STEP_PENDING, LEADER, PORT_B_ACTIVE
  ⟨0xB00030, [],
    [⟨0, 2, .ro, .V, 0, false, false⟩, ⟨2, 1, .ro, .V, 0, false, false⟩, ⟨3, 1, .ro, .V, 0, false, false⟩, ⟨4, 1, .ro, .V, 0, false, false⟩]⟩,
  -- TIME_OFFSET: OFFSET_NS
  ⟨0xB00034, [],
    [⟨0, 32, .ro, .V, 0, false, false⟩]⟩,
  -- TIME_INCR: INCR
  ⟨0xB00038, [],
    [⟨0, 32, .ro, .V, 0x4000000, false, false⟩]⟩,
  -- PTP_CFG: EN, ROLE, HYBRID, DOMAIN, PORT_A, PORT_B
  ⟨0xB00100, [],
    [⟨0, 1, .rwl, .V, 0, false, false⟩, ⟨1, 2, .rwl, .V, 0, false, false⟩, ⟨3, 1, .rwl, .V, 0, false, false⟩, ⟨8, 8, .rwl, .V, 0x7F, false, false⟩, ⟨16, 4, .rwl, .V, 0, false, false⟩, ⟨20, 5, .rwl, .V, 0x10, false, false⟩]⟩,
  -- PTP_INTERVALS: SYNC_LOG, ANNOUNCE_LOG, DELAY_LOG, ANN_TIMEOUT
  ⟨0xB00104, [],
    [⟨0, 8, .rwl, .V, 0xFD, false, false⟩, ⟨8, 8, .rwl, .V, 0xFE, false, false⟩, ⟨16, 8, .rwl, .V, 0xFD, false, false⟩, ⟨24, 4, .rwl, .V, 3, false, true⟩]⟩,
  -- PTP_PRIO: PRIORITY1, PRIORITY2, CLOCK_CLASS
  ⟨0xB00108, [],
    [⟨0, 8, .rwl, .V, 0x80, false, false⟩, ⟨8, 8, .rwl, .V, 0x80, false, false⟩, ⟨16, 8, .rwl, .V, 0xF8, false, false⟩]⟩,
  -- PTP_SERVO: LOCK_NS, UNLOCK_NS, SLEW_PPM
  ⟨0xB0010C, [],
    [⟨0, 10, .rwl, .V, 0x64, false, true⟩, ⟨10, 10, .rwl, .V, 0x3E8, false, true⟩, ⟨20, 9, .rwl, .V, 0x64, false, true⟩]⟩,
  -- PTP_STEP_NS: STEP_NS
  ⟨0xB00110, [],
    [⟨0, 32, .rwl, .V, 0x186A0, false, true⟩]⟩,
  -- PTP_UTC_OFFSET: UTC_OFFSET
  ⟨0xB00114, [],
    [⟨0, 16, .rw, .V, 0x25, true, false⟩]⟩,
  -- TRIG_EPOCH_LO: EPOCH
  ⟨0xB01000, [(8, 0x40)],
    [⟨0, 32, .rws, .V, 0, true, false⟩]⟩,
  -- TRIG_EPOCH_HI: EPOCH
  ⟨0xB01004, [(8, 0x40)],
    [⟨0, 32, .rws, .V, 0, true, false⟩]⟩,
  -- TRIG_RATE: NUM, DEN
  ⟨0xB01008, [(8, 0x40)],
    [⟨0, 16, .rws, .V, 0x19, true, true⟩, ⟨16, 12, .rws, .V, 1, true, true⟩]⟩,
  -- TRIG_ENT: OFFSET_NS, PLAN, EN
  ⟨0xB0100C, [(8, 0x40), (4, 4)],
    [⟨0, 28, .rws, .V, 0, true, false⟩, ⟨28, 2, .rws, .V, 0, true, false⟩, ⟨31, 1, .rws, .V, 0, true, false⟩]⟩,
  -- TRIG_CTRL: EN, COMMIT
  ⟨0xB0101C, [(8, 0x40)],
    [⟨0, 1, .rwl, .V, 0, false, false⟩, ⟨1, 1, .w1s, .V, 0, true, false⟩]⟩,
  -- TRIG_NEXT_LO: NEXT
  ⟨0xB01020, [(8, 0x40)],
    [⟨0, 32, .ro, .V, 0, false, false⟩]⟩,
  -- TRIG_NEXT_HI: NEXT
  ⟨0xB01024, [(8, 0x40)],
    [⟨0, 32, .ro, .V, 0, false, false⟩]⟩,
  -- PG_CFG: EN, GPIO, POL
  ⟨0xB02000, [(8, 0x20)],
    [⟨0, 1, .rwl, .V, 0, false, false⟩, ⟨1, 4, .rwl, .V, 0, false, false⟩, ⟨5, 1, .rwl, .V, 0, false, false⟩]⟩,
  -- PG_EPOCH_LO: EPOCH
  ⟨0xB02004, [(8, 0x20)],
    [⟨0, 32, .rwl, .V, 0, false, false⟩]⟩,
  -- PG_EPOCH_HI: EPOCH
  ⟨0xB02008, [(8, 0x20)],
    [⟨0, 32, .rwl, .V, 0, false, false⟩]⟩,
  -- PG_RATE: NUM, DEN
  ⟨0xB0200C, [(8, 0x20)],
    [⟨0, 16, .rwl, .V, 1, false, true⟩, ⟨16, 12, .rwl, .V, 1, false, true⟩]⟩,
  -- PG_WIDTH: WIDTH_NS
  ⟨0xB02010, [(8, 0x20)],
    [⟨0, 28, .rwl, .V, 0x3E8, false, true⟩]⟩,
  -- PG_OFFSET: OFFSET_NS
  ⟨0xB02014, [(8, 0x20)],
    [⟨0, 28, .rwl, .V, 0, false, false⟩]⟩,
  -- TC_CFG: SRC, RATE, USE_SM
  ⟨0xB03000, [],
    [⟨0, 2, .rwl, .V, 0, false, false⟩, ⟨4, 4, .rwl, .V, 1, false, false⟩, ⟨8, 1, .rwl, .V, 0, false, false⟩]⟩,
  -- TC_TZ: TZ_OFFSET_S
  ⟨0xB03004, [],
    [⟨0, 32, .rw, .V, 0, true, false⟩]⟩,
  -- TC_JAM: JAM_TOD
  ⟨0xB03008, [],
    [⟨0, 17, .rw, .V, 0, true, false⟩]⟩,
  -- TC_NOW: TC
  ⟨0xB03010, [],
    [⟨0, 32, .ro, .V, 0, false, false⟩]⟩]

/-- The registers of block AUD (R516, R522). -/
def regsAUD : List RegSpec := [
  -- AUD_DOM_CFG: EN, MODE, RATE, REF_PORT, MCLK_EN, KP, KI, MAX_PPM
  ⟨0xC00100, [(2, 0x40)],
    [⟨0, 1, .rwl, .V, 0, false, false⟩, ⟨1, 1, .rwl, .V, 0, false, false⟩, ⟨2, 3, .rwl, .V, 2, false, false⟩, ⟨8, 3, .rwl, .V, 0, false, false⟩, ⟨11, 1, .rwl, .V, 0, false, false⟩, ⟨16, 4, .rwl, .V, 0xA, false, false⟩, ⟨20, 4, .rwl, .V, 2, false, false⟩, ⟨24, 8, .rwl, .V, 0x14, false, true⟩]⟩,
  -- AUD_DOM_STATUS: LOCKED, HOLD, FILL
  ⟨0xC00104, [(2, 0x40)],
    [⟨0, 1, .ro, .V, 0, false, false⟩, ⟨1, 1, .ro, .V, 0, false, false⟩, ⟨8, 7, .ro, .V, 0, false, false⟩]⟩,
  -- AUD_DOM_FREQ: FREQ_ADJ
  ⟨0xC00108, [(2, 0x40)],
    [⟨0, 32, .ro, .V, 0, false, false⟩]⟩,
  -- AUD_DOM_CNT: HOLDS
  ⟨0xC0010C, [(2, 0x40)],
    [⟨0, 16, .ro, .S, 0, false, false⟩]⟩,
  -- AUD_AP_CFG: EN, DIR, MASTER, DOMAIN, ALIGN, WLEN, SLOT16, WS_POL
  ⟨0xC01000, [(8, 0x40)],
    [⟨0, 1, .rwl, .V, 0, false, false⟩, ⟨1, 1, .rwl, .V, 0, false, false⟩, ⟨2, 1, .rwl, .V, 0, false, false⟩, ⟨3, 1, .rwl, .V, 0, false, false⟩, ⟨4, 2, .rwl, .V, 0, false, false⟩, ⟨6, 2, .rwl, .V, 1, false, false⟩, ⟨8, 1, .rwl, .V, 0, false, false⟩, ⟨9, 1, .rwl, .V, 0, false, false⟩]⟩,
  -- AUD_AP_SRC: KIND, INDEX, PAIR
  ⟨0xC01004, [(8, 0x40)],
    [⟨0, 2, .rws, .V, 0, true, false⟩, ⟨4, 3, .rws, .V, 0, true, false⟩, ⟨8, 3, .rws, .V, 0, true, false⟩]⟩,
  -- AUD_AP_ROUTE: REC_CTX
  ⟨0xC01008, [(8, 0x40)],
    [⟨0, 16, .rwl, .V, 0, false, false⟩]⟩,
  -- AUD_AP_STATUS: MUTED, CLK_OK, RAMPING, GOOD
  ⟨0xC0100C, [(8, 0x40)],
    [⟨0, 1, .ro, .V, 1, false, false⟩, ⟨1, 1, .ro, .V, 0, false, false⟩, ⟨2, 1, .ro, .V, 0, false, false⟩, ⟨8, 7, .ro, .V, 0, false, false⟩]⟩,
  -- AUD_AP_CNT: LOSSES, SLIPS
  ⟨0xC01010, [(8, 0x40)],
    [⟨0, 16, .ro, .S, 0, false, false⟩, ⟨16, 16, .ro, .S, 0, false, false⟩]⟩,
  -- AUD_NA_CFG: EN, DOMAIN, PLAYOUT_US
  ⟨0xC02000, [(8, 0x20)],
    [⟨0, 1, .rwl, .V, 0, false, false⟩, ⟨1, 1, .rwl, .V, 0, false, false⟩, ⟨4, 16, .rwl, .V, 0x7D0, false, true⟩]⟩,
  -- AUD_NA_CNT: LATE
  ⟨0xC02004, [(8, 0x20)],
    [⟨0, 16, .ro, .S, 0, false, false⟩]⟩]

/-- The registers of block MEM (R516, R522). -/
def regsMEM : List RegSpec := [
  -- MEM_STATUS: DEGRADED, NO_REDUNDANCY, POWER, TRAINED
  ⟨0xD00000, [],
    [⟨0, 1, .ro, .A, 0, false, false⟩, ⟨1, 1, .ro, .A, 0, false, false⟩, ⟨2, 2, .ro, .V, 0, false, false⟩, ⟨4, 4, .ro, .A, 0, false, false⟩]⟩,
  -- MEM_CLASS_LIMIT: RECORD, LADDER, BACKGROUND, RSV
  ⟨0xD00010, [],
    [⟨0, 9, .rwl, .V, 0x180, false, true⟩, ⟨9, 9, .rwl, .V, 0x180, false, true⟩, ⟨18, 9, .rwl, .V, 0x40, false, true⟩, ⟨27, 5, .rwl, .V, 0x10, false, false⟩]⟩,
  -- MEM_SCRUB_CFG: PERIOD_H
  ⟨0xD00020, [],
    [⟨0, 5, .rwl, .V, 0x18, false, true⟩]⟩,
  -- MEM_SCRUB_STATUS: PROGRESS, PASSES
  ⟨0xD00024, [],
    [⟨0, 10, .ro, .V, 0, false, false⟩, ⟨16, 16, .ro, .S, 0, false, false⟩]⟩,
  -- MEM_PARITY_CNT: RECON, FIXES
  ⟨0xD00028, [],
    [⟨0, 16, .ro, .S, 0, false, false⟩, ⟨16, 16, .ro, .S, 0, false, false⟩]⟩,
  -- MEM_INJ_ADDR: OFFSET
  ⟨0xD00030, [],
    [⟨0, 28, .rw, .V, 0, true, false⟩]⟩,
  -- MEM_INJ_CTRL: POOL, SYMBOLS, GO
  ⟨0xD00034, [],
    [⟨0, 3, .rw, .V, 0, true, false⟩, ⟨3, 2, .rw, .V, 0, true, false⟩, ⟨8, 1, .w1s, .V, 0, true, false⟩]⟩,
  -- MEM_POOL_CFG: SIZE_MIB, PARITY, HOME_EN, HOME
  ⟨0xD00100, [(6, 0x10)],
    [⟨0, 24, .rwl, .V, 0, false, true⟩, ⟨24, 1, .rwl, .V, 1, false, false⟩, ⟨25, 1, .rwl, .V, 0, false, false⟩, ⟨26, 2, .rwl, .V, 0, false, false⟩]⟩,
  -- MEM_POOL_BASE: BASE_MIB
  ⟨0xD00104, [(6, 0x10)],
    [⟨0, 24, .ro, .V, 0, false, false⟩]⟩,
  -- MEM_STACK_STATUS: FAILED, REFRESH, TEMP_C
  ⟨0xD00200, [(4, 0x20)],
    [⟨0, 1, .ro, .A, 0, false, false⟩, ⟨1, 2, .ro, .V, 0, false, false⟩, ⟨8, 8, .ro, .V, 0, false, false⟩]⟩,
  -- MEM_STACK_FAIL: PC
  ⟨0xD00204, [(4, 0x20)],
    [⟨0, 32, .ro, .A, 0, false, false⟩]⟩,
  -- MEM_ECC_CNT: CORRECTED, UNCORR
  ⟨0xD00208, [(4, 0x20)],
    [⟨0, 16, .ro, .S, 0, false, false⟩, ⟨16, 16, .ro, .S, 0, false, false⟩]⟩]

/-- The registers of block PCIE (R516, R522). -/
def regsPCIE : List RegSpec := [
  -- PCIE_CFG: LANE_OPT, RP_MAX_GEN
  ⟨0xE00000, [],
    [⟨0, 2, .rwl, .V, 0, false, false⟩, ⟨4, 4, .rwl, .V, 5, false, false⟩]⟩]

/-- The registers of the block that holds address `a` (R516; NET takes 1 MiB). -/
def regsAt (a : Nat) : List RegSpec :=
  match a / 0x10000 with

  | 0 => regsDEV
  | 1 => regsCLK
  | 2 => regsPWR
  | 3 => regsTHERM
  | 4 => regsBOOT
  | 8 => regsEVT
  | 0x10 => regsKSL
  | 0x20 => regsCAP
  | 0x30 => regsRAWC
  | 0x40 => regsCOL
  | 0x50 => regsZE
  | 0x60 => regsREC
  | 0x70 => regsVE
  | 0x80 => regsRAS
  | 0x90 => regsSDI
  | 0xA0 | 0xA1 | 0xA2 => regsNET
  | 0xB0 => regsTIME
  | 0xC0 => regsAUD
  | 0xD0 => regsMEM
  | 0xE0 => regsPCIE
  | _ => []

/-- The register whose instance lies at `a`, none for an unassigned address (R7, R517). -/
def regSpec? (a : Nat) : Option RegSpec := (regsAt a).find? (fun r => r.covers a)

/-- The fields of the register at `a`; none where no register lies. -/
def fieldsAt (a : Nat) : List FieldSpec :=
  match regSpec? a with
  | some r => r.fields
  | none => []

/-- The reset word at `a`: the table's, but for the registers whose reset value depends on the instance: CARRIES of a
lane is k (R83 tables), the matrices are the identity, and Gecko LUT entry j is 128 j. -/
def resetWordNat (a : Nat) : Nat :=
  match regSpec? a with
  | none => 0
  | some r =>
    if r.base = 0x101100 then 9 * 2 + ((a - 0x101100) % 0x1000) / 0x20 * 0x100
    else if r.base = 0x401010 then
      (if ((a - 0x401010) % 0x800) / 4 % 5 = 0 then 0x1000000 else 0)
    else if r.base = 0x401220 then
      (if (((a - 0x401220) % 0x800) % 0x100) / 4 % 5 = 0 then 0x1000000 else 0)
    else if r.base = 0x808000 then
      let i := ((a - 0x808000) % 0x400) / 4
      2 * i * 128 + (2 * i + 1) * 128 * 0x10000
    else r.resetWord

/-- The reset word at `a` as a register word. -/
def resetWord (a : Nat) : Word := BitVec.ofNat 32 (resetWordNat a)

end Sys2Proof.Machine
end

