-- ==== Sys2Proof/Machine/State.lean ====
section
/-!
DEFINITION. The state of the KD1690 as plain data. Every register of the register map lives in `Regs` (one home for the
whole 32-bit register space, R516); the rest of the state that the spec names beside its registers (FIFOs, buffers,
queues, latched copies, histories, the keep store, the memory pools, pins) has a structure per chapter below. The waiting
commands are `State.pending`, first in, first out.
-/
namespace Sys2Proof.Machine

/-- Sparse data by key in canonical form: keys strictly rising, no entry equal to what an unlisted key reads as. -/
abbrev Sparse (α : Type) := List (Nat × α)

/-- The register space (R6, R516): `words` are the register words by byte address (for an RWS field, the shadow of R8);
`eff` are the words in effect of the registers that hold RWS fields. An unlisted address reads as its reset word. -/
structure Regs where
  words : Sparse Word := []
  eff : Sparse Word := []
  deriving DecidableEq, Repr

/-- One event record of R504, before it is laid out in bytes: `data` is its 16 bytes. -/
structure EventRec where
  stime : Nat
  code : Nat
  source : Nat
  severity : Nat
  flags : Nat
  context : Nat
  data : List Byte
  deriving DecidableEq, Repr

/-- What the device sends to the outside world, in the order it sends it. The log is the model's own field: it makes the
effects that leave the block visible (assumption 4). -/
inductive Output where
  /-- an MSI-X message of a vector through EP0 (R507, R254, R218) -/
  | msix (vector : Nat)
  /-- bytes that EP0 writes into host memory at a host address -/
  | hostWrite (addr : Nat) (bytes : List Byte)
  /-- a frame on the back channel of a KSL port (R105-R107): command, tag, payload -/
  | bcFrame (port cmd tag : Nat) (payload : List Byte)
  /-- a trigger sequence K28.3, ID, FINE on a port (R110, R113), with its launch boundary in ps of device time -/
  | trigger (port id fine launch : Nat)
  /-- a training block that a port starts to send or receive (R102): 0 training started, 1 TRAIN_REQ, 2 TRAIN_DONE, 3 WAKE, 4 STANDBY -/
  | link (port what : Nat)
  /-- an output pin or pin group takes a level (R531): pin name code and level -/
  | pin (code level : Nat)
  /-- a regulator bus command (R477): 0 AVSBus, 1 PMBus; the target in mV -/
  | regulator (bus mv : Nat)
  /-- a command sent to an NVMe drive: drive, kind, LBA, bytes written -/
  | nvme (drive kind lba : Nat) (bytes : List Byte)
  /-- a network frame or message sent on an interface: interface, kind, fields and payload bytes -/
  | packet (iface kind : Nat) (fields : List Nat) (bytes : List Byte)
  /-- a word returned to a reading port: 0 EP0, 1 management SPI -/
  | readData (port : Nat) (value : Word)
  /-- bytes shifted out on MSPI_MISO (R520) -/
  | miso (bytes : List Byte)
  /-- the register that a JTAG instruction places between TDI and TDO (R514): its length in bits and its captured value -/
  | tdo (bits value : Nat)
  /-- data that memory returns to a requester, with the 64-byte blocks of the request that carry a poison indication -/
  | memData (requester : Nat) (bytes : List Byte) (poison : List Nat)
  /-- a command sequence sent to the boot flash (R43, R55) -/
  | flash (bytes : List Byte)
  /-- a raster, SDI, panel or audio output: kind, instance, fields -/
  | video (kind inst : Nat) (fields : List Nat)
  deriving DecidableEq, Repr

/-! ### Chapter 02: boot, modes, resets -/

/-- A host write that is held: the port, the address, the value (R61, and a write to an instance in block reset). -/
structure HeldWrite where
  port : Nat
  addr : Nat
  value : Word
  deriving DecidableEq, Repr

/-- The boot controller (R42-R57). `step` is the boot step of R55, 0 while the device is held in reset or off, 9 once
the start mode or HOLD is entered. -/
structure BootSt where
  step : Nat := 1
  /-- BOOT has stopped under R54 or R513 -/
  stopped : Bool := false
  /-- BOOT waits under R474 -/
  pwrWait : Bool := false
  /-- BOOT waits at step 3 for a valid reference (R507) -/
  refWait : Bool := false
  /-- the 256 header bytes read of slots A and B (R52) -/
  hdrA : List Byte := []
  hdrB : List Byte := []
  /-- the slot being tried and the one tried first (0 A, 1 B) -/
  slot : Nat := 0
  first : Nat := 0
  /-- slots whose headers are valid and that are still to be tried -/
  toTry : List Nat := []
  /-- the verified image held in cluster SRAM (R54) -/
  image : List Byte := []
  /-- length of the image copy in AUX (R54, R430), 0 for none -/
  copyLen : Nat := 0
  /-- training is kept from before a warm reset (R69) -/
  keepTraining : Bool := false
  /-- HBM contents survived (warm reset), subject to R70 -/
  contentsKept : Bool := false
  /-- `MEM_POOLn_CFG` words of the image that ran before (R70) -/
  prevPools : List Nat := []
  /-- elapsed time of the release of reset, in ns (BOOT_MS) -/
  releasedAt : Nat := 0
  /-- no-spare fences of self-test met: the device is short of engines (R57) -/
  short : Bool := false
  /-- defect map banks were lost and must be reloaded at step 8 (R73, R186) -/
  reloadMap : Bool := true
  deriving DecidableEq, Repr

/-- Modes and transitions (R59-R68). -/
structure ModeSt where
  /-- the further direct transitions of the chain in progress (R64) -/
  chain : List Nat := []
  /-- the request held pending during a transition -/
  pendingReq : Option Nat := none
  /-- host writes queued during the transition, oldest first (R61) -/
  queued : List HeldWrite := []
  /-- the mode at HOLD entry (R65) -/
  holdMode : Nat := 0
  /-- AUTO_RESUME and START_MODE of the running image (R43) -/
  autoResume : Bool := false
  startMode : Nat := 1
  /-- elapsed time of the last restart of the watchdog count (R67) -/
  wdogFrom : Nat := 0
  /-- outputs are in their safe states (R531, R463, R494) -/
  outputsSafe : Bool := true
  /-- instances that refused to start at the last mode entry, by the address of their EN register (R75) -/
  refused : List Nat := []
  /-- running instances whose shadows a transition's records wrote: they latch at their next commit point without a
  request (R59), by `commitKey` -/
  autoLatch : List Nat := []
  deriving DecidableEq, Repr

/-- A block reset in progress (R71, R72): the instance, the writes held for it, whether a spare carries its work. -/
structure BlockResetSt where
  block : Nat
  inst : Nat
  held : List HeldWrite := []
  loan : Bool := false
  deriving DecidableEq, Repr

/-! ### Chapter 18: events, keep store, fuses -/

/-- Events beside the registers of EVT (R504-R507, R57, R465). -/
structure EvtSt where
  /-- EVENT_RING can be written (AUX is available) -/
  auxUp : Bool := false
  /-- records held on-die, oldest first, at most 32 -/
  held : List EventRec := []
  /-- a record raised before was lost: the next record carries LOST_BEFORE (R504) -/
  lostBefore : Bool := false
  /-- a coalescing interval runs, and a record waits for its end (R507) -/
  msiBusy : Bool := false
  msiWait : Bool := false
  /-- fault-log copies made in the running second, and that second (R509) -/
  logCount : Nat := 0
  logSecond : Nat := 0
  deriving DecidableEq, Repr

/-- A fuse operation that runs (R512): slot, operation, the hash to program (32 bytes). -/
structure FuseOp where
  slot : Nat
  op : Nat
  hash : List Byte
  deriving DecidableEq, Repr

/-- The keep store (R508-R510) and the fuses (R511, R512). The two-bit states of the key slots are in `FUSE_KEYS`. -/
structure KeepSt where
  bytes : Sparse Byte := []
  /-- a KEEP_DATA write that runs: byte address and word -/
  busy : Option (Nat × Word) := none
  /-- the four fused key hashes, 32 bytes each; empty while blank -/
  hashes : List (List Byte) := [[], [], [], []]
  fuseOp : Option FuseOp := none
  /-- the result of a fuse operation that ended in a reset: slot, operation, RESULT, raised at step 8 (R512) -/
  fuseEvents : List (Nat × Nat × Nat) := []
  deriving DecidableEq, Repr

/-! ### Chapter 14: memory -/

/-- A stripe buffer of a memory hub (R433): the parity pool and stripe it holds, and its 64-byte granules by index 0-191. -/
structure StripeBuf where
  pool : Nat
  stripe : Nat
  gran : Sparse (List Byte) := []
  deriving DecidableEq, Repr

/-- HBM3E memory (R423-R445). `cells` holds the bytes of the stacks, keyed by stack × 2^36 + stack-local address; an
unlisted byte reads 0, as R443 initialises every pool. -/
structure MemSt where
  cells : Sparse Byte := []
  /-- symbol errors present in stored 64-byte blocks: (symbol, error value) lists keyed by block address (R436) -/
  err : Sparse (List (Nat × Nat)) := []
  /-- poisoned blocks (R437), keyed by block address -/
  poison : Sparse Bool := []
  /-- stripe buffers of all hubs, least recently filled first (R433) -/
  bufs : List StripeBuf := []
  /-- elapsed ns of the uncorrectable reads of the last second per pseudo-channel, key stack × 32 + channel (R439) -/
  uncorr : Sparse (List Nat) := []
  /-- elapsed ns of the last MEM_ECC_CORR event per stack, plus 1 (R437) -/
  corrSecond : Sparse Nat := []
  /-- elapsed ns of the last MEM_BOUNDS event per requester, plus 1 (R429) -/
  boundsSecond : Sparse Nat := []
  /-- pools for which MEM_POOL_LOST was raised (R442) -/
  lostPools : List Nat := []
  /-- scrub position: stack and 64-byte block index; stripes skipped in this pass (R438) -/
  scrubStack : Nat := 0
  scrubBlock : Nat := 0
  scrubSkipped : List (Nat × Nat) := []
  /-- elapsed ns and corrections of the present scrub pass (R438); blocks rebuilt in the running second, and that second -/
  scrubFrom : Nat := 0
  scrubFixed : Nat := 0
  reconSecond : Nat := 0
  reconCount : Nat := 0
  /-- an armed injection: block address and symbols (R436) -/
  inject : Option (Nat × Nat) := none
  /-- elapsed time since which each stack's temperature allows a lower refresh rate, plus 1; 0 for none (R444) -/
  coolSince : Sparse Nat := []
  /-- pseudo-channels in power-down, key stack × 32 + channel (R445) -/
  powerDown : Sparse Bool := []
  /-- every stack is in self-refresh (R445) -/
  selfRefresh : Bool := false
  deriving DecidableEq, Repr

/-! ### Chapter 12: device time -/

/-- Device time and its servo (R383-R391). -/
structure TimeSt where
  /-- DTIME in units of 2^-24 ns since the epoch (R383, R385) -/
  dt : Nat := 0
  /-- device time has been LOCKED since the last cold or pin reset (R386) -/
  everLocked : Bool := false
  /-- the group of `TIME_NOW` as each port latched it (R383, R519): SEC LO, SEC HI, NS, SUBNS, STIME LO, STIME HI -/
  nowLatch : List (List Nat) := [[0, 0, 0, 0, 0, 0], [0, 0, 0, 0, 0, 0]]
  /-- LTC (R398): the last decoded frame number of the day, the device time in ns of its sync word, whether it is locked,
  good frames in a row since the loss -/
  ltcLast : Nat := 0
  ltcAt : Nat := 0
  ltcLocked : Bool := false
  ltcGood : Nat := 0
  /-- the leader's currentUtcOffset while valid, and TZ_OFFSET and JAM_TOD of the synchronization metadata TLV (R398) -/
  leaderUtc : Option Nat := none
  smTlv : Option (Nat × Nat) := none
  /-- LTC: a label of the frame number is in force; two missing frames were reported -/
  ltcLost : Bool := false
  /-- Announce messages known: interface and content (R388) -/
  ann : List (Nat × PtpAnnounce) := []
  /-- a two-step Sync that waits for its Follow_Up: leader, sequence, t2 and correction in 2^-16 ns (R387, R390) -/
  syncWait : Option (Nat × Nat × Int × Int) := none
  /-- t2 − t1 − correction of the last Sync, 2^-16 ns; the Delay_Req that waits: sequence and t3 -/
  ms : Option Int := none
  reqWait : Option (Nat × Int) := none
  /-- the last eight path delays, newest first; the last offset, 2^-16 ns -/
  delays : List Int := []
  offset : Int := 0
  /-- consecutive Syncs within LOCK_NS or beyond UNLOCK_NS; increments of the last 16 Sync periods, newest first -/
  good : Nat := 0
  bad : Nat := 0
  incrs : List Nat := []
  /-- sequence numbers sent: Sync, Announce, Delay_Req -/
  seqSync : Nat := 0
  seqAnn : Nat := 0
  seqReq : Nat := 0
  /-- pulse generators that run, and those whose output is in its pulse (R397) -/
  pgRun : List Bool := List.replicate 8 false
  pgHigh : List Bool := List.replicate 8 false
  deriving DecidableEq, Repr



/-! ### Chapter 03: the sensor link -/

/-- A back-channel frame (R106): command, tag, payload; the context of an EXP_SET; whether BC_CTRL asked for it; how
often it was resent (R108). -/
structure BcFrame where
  cmd : Nat
  tag : Nat
  payload : List Byte
  ctx : Option Nat := none
  host : Bool := false
  resends : Nat := 0
  deriving DecidableEq, Repr

/-- A trigger sequence that waits for its boundary (R113): the end of its K28.3 in ps of device time, ID and FINE; and
the ordinal of the trigger on its port (R150). -/
structure TrigSeq where
  bound : Nat
  id : Nat
  fine : Nat
  ord : Nat
  deriving DecidableEq, Repr

/-- A lane receiver beside its registers: the count of its last marker, and its BIP history, newest first (R115). -/
structure LaneSt where
  last : Option Nat := none
  bip : List Bool := []
  deriving DecidableEq, Repr

/-- A sensor-link port beside its registers. -/
structure LinkPort where
  /-- the step of the training sequence of R102, 0 while no training runs, and the elapsed ns of its start -/
  train : Nat := 0
  trainFrom : Nat := 0
  /-- an exit burst (R99) runs: the count of its first marker once that came -/
  burst : Bool := false
  burstFirst : Option Nat := none
  lanes : List LaneSt := List.replicate 9 {}
  /-- the logical lane that is rebuilt from parity (R116) and the pending move: M and the attempts made (R118, R119) -/
  failed : Option Nat := none
  moveTo : Option Nat := none
  moveTries : Nat := 0
  /-- device time of the last marker in ps -/
  markerAt : Nat := 0
  /-- the last LANE_ACK: logical lane and marker count (R97) -/
  laneAck : Option (Nat × Nat) := none
  /-- the frames that wait for their answers, oldest first; the frames queued to be sent; the next tag (R108, R109) -/
  bcOut : List BcFrame := []
  bcQueue : List BcFrame := []
  bcTag : Nat := 0
  /-- triggers on the back channel and rises of `XTRIG` (ps, ordinal) that wait; the next trigger's ordinal; the end of
  the last queued sequence in ps -/
  trigQueue : List TrigSeq := []
  xtrigQueue : List (Nat × Nat) := []
  trigOrd : Nat := 0
  trigEnd : Option Nat := none
  /-- the context whose frame the port receives, and an FSX that FS announced (R92) -/
  rx : Option Nat := none
  fsxDue : Bool := false
  deriving DecidableEq, Repr

/-! ### Chapter 12: trigger schedules -/

/-- The latched copy of a trigger schedule (R395): cycle epoch in ns of DTIME, rate, and the enabled entries in order
(offset in ns, plan). -/
structure Sched where
  epoch : Nat
  num : Nat
  den : Nat
  ents : List (Nat × Nat)
  deriving DecidableEq, Repr

/-- The trigger schedule of a port: what runs, from which instant (ns) its next target counts, and the schedule that
takes over with its switch instant (R394, R395). -/
structure TrigSched where
  run : Option Sched := none
  from_ : Nat := 0
  next : Option (Sched × Nat) := none
  deriving DecidableEq, Repr

/-! ### Chapter 04: capture -/

/-- An open frame slot (R127): its target (ns of DTIME), and its place among the triggers of its port: 2k + 1 for the
slot of trigger k, 2k for a slot whose trigger was refused under R113 before trigger k. -/
structure Slot where
  target : Nat
  ord2 : Nat
  deriving DecidableEq, Repr

/-- A latched exposure set (R148-R151). `state`: 1 queued, 2 sent, 3 APPLY_FSEQ known; `lost`: never answered. -/
structure ExpSet where
  sid : Nat
  entries : List (Nat × Nat)
  gain : Nat
  state : Nat := 1
  apply : Nat := 0
  answered : Bool := false
  lost : Bool := false
  deriving DecidableEq, Repr



/-- A line of one readout after step 2 (R157): pixel codes as delivered, linear values, saturation of each pixel; whether
it was received (not padded), damaged; the concealment rule applied, 0 for none (R165). -/
structure Line where
  px : List Nat
  lin : List Int
  sat : List Bool
  real : Bool
  damaged : Bool := false
  rule : Nat := 0
  deriving DecidableEq, Repr

/-- One readout of an open frame: its lines from line 0 on, padding included, and whether its FE came (R132-R135). -/
structure Readout where
  lines : List Line := []
  fe : Bool := false
  deriving DecidableEq, Repr

/-- A merged line (R157 step 3): the K16 codes of the active width, the two row residuals (R188). -/
structure Row where
  k16 : List Nat
  res : List Int
  deriving DecidableEq, Repr

/-- The line that an LS opened on a context (R93, R134): readout, line number, pixel count, depth code. -/
structure OpenLine where
  ro : Nat
  y : Nat
  count : Nat
  depth : Nat
  deriving DecidableEq, Repr

/-- A map entry (R173) with the slot that the keep-store copy gives it (R183). NBR follows from the list. -/
structure DefectEntry where
  x : Nat
  y : Nat
  cls : Nat
  slot : Nat
  deriving DecidableEq, Repr

/-- What a frame of OFFLOAD takes from its clip instead of registers (R346): K16 parameters, CFA, the defect map of its
generation, the flat-field blob and the column table. -/
structure ClipIn where
  k16a : Nat
  k16b : Nat
  k16black : Nat
  cfa : Nat
  map : List DefectEntry
  flat : List Byte
  column : List Byte
  deriving DecidableEq, Repr

/-- A frame from its FS until its development has ended. `dev`: 0 waiting, 1 developed live, 2 developed from RAW_RING,
3 ended, 4 skipped. -/
structure CapFrame where
  fseq : Nat
  sid : Nat
  gain : Nat
  sfn : Nat
  trig : Nat
  fsNs : Nat
  fsStime : Nat
  ts : List Byte := []
  flags : Nat
  ros : List Readout
  rows : List Row := []
  padded : Nat := 0
  cut : Nat := 0
  short : Nat := 0
  long : Nat := 0
  damagedN : Nat := 0
  deferUs : Nat := 0
  /-- pixels the merge clipped (R167) and pixels K16 clipped (R170) -/
  mergeClipped : Nat := 0
  clipped : Nat := 0
  /-- byte offset of its entry in RAW_RING, none with RAW_DROPPED; the offset of the held entry that blocked it -/
  raw : Option Nat := none
  blocker : Nat := 0
  closed : Bool := false
  dev : Nat := 0
  /-- accepted within the group's open selection window (R143) -/
  inWindow : Bool := false
  /-- the RAWC context words in effect for the frame (R190): CFG and ROW -/
  rawc : List Word := []
  /-- the colour words latched at development start, by address (R223) -/
  col : Sparse Word := []
  /-- the map generation it is corrected under (R177) -/
  gen : Nat := 0
  /-- per branch the ring buffer it writes, none where it writes none (R215), and LINES_DONE (R214) -/
  bufs : List (Option Nat) := []
  done : List Nat := []
  /-- descriptor FLAGS bits 16 and 17 per branch -/
  marks : List Nat := []
  /-- tile rows handed to the ZEs (R242) -/
  tileRows : Nat := 0
  /-- the inputs of a frame of OFFLOAD -/
  clip : Option ClipIn := none
  deriving DecidableEq, Repr

/-- An entry of RAW_RING (R138): offset and length in bytes, its frame, and what holds it: development from the ring, KRC
tiles still to emit, spare substitution. -/
structure RawEntry where
  off : Nat
  len : Nat
  ctx : Nat
  fseq : Nat
  dev : Bool := false
  krc : Nat := 0
  sub : Bool := false
  deriving DecidableEq, Repr

/-- A frame slot of a context as the sessions see it (R288, R289): its place in the order of slots, its frame, whether it
is missing or its development was skipped, the branch buffers it got once its development started, and whether it is the
first frame of an offload job (R347). -/
structure SrcSlot where
  idx : Nat
  fseq : Nat
  sid : Nat
  trig : Nat
  missing : Bool := false
  bufs : Option (List (Option Nat)) := none
  jobFirst : Bool := false
  /-- elapsed ns since which the slot's picture has been known (R332) -/
  since : Nat := 0
  deriving DecidableEq, Repr

/-- A capture context beside its registers. -/
structure CapCtx where
  started : Bool := false
  slots : List Slot := []
  frames : List CapFrame := []
  line : Option OpenLine := none
  /-- SFN and FSEQ of the last accepted frame (R131) -/
  prev : Option (Nat × Nat) := none
  /-- the black estimates of R161, index 2r + c -/
  black : List Nat := []
  /-- records that wait on-die because no stripe was free (R139) -/
  recQueue : List (List Byte) := []
  /-- elapsed ns of the last limited event per code, plus 1 (R156, R191) -/
  evSec : Sparse Nat := []
  /-- thresholds of R180 per gain index: sigma_q8 and T -/
  sigma : List Nat := List.replicate 8 2048
  thr : List Nat := []
  /-- colour sets that wait for their SIDs, oldest first: SID, used, words (R224) -/
  sets : List (Nat × Bool × Sparse Word) := []
  /-- slots resolved so far, and the last 64 of them as sessions see them (R288, R347) -/
  slotNo : Nat := 0
  hist : List SrcSlot := []
  deriving DecidableEq, Repr

/-- A wheel group beside its registers (R142-R144): the instant in ns at which its open selection window opened; the frame being developed (context, FSEQ); the
resident contexts, least recently served first; the revolution whose boundary passed. -/
structure WheelSt where
  window : Option Nat := none
  busy : Option (Nat × Nat) := none
  resident : List Nat := []
  deriving DecidableEq, Repr

/-! ### Chapter 05: the defect map -/

/-- A queued edit (R177): ADD with a class or REMOVE (class 0); learned or by the host. -/
structure DefectEdit where
  x : Nat
  y : Nat
  cls : Nat
  learned : Bool
  deriving DecidableEq, Repr

/-- A candidate of R181: position and 64-bit history, newest bit lowest. -/
structure Candidate where
  x : Nat
  y : Nat
  hist : Nat
  deriving DecidableEq, Repr

/-- The defect map of a port: the list under the generation in effect, the one before it, the queue, the candidates. -/
structure DmapPort where
  cur : List DefectEntry := []
  old : List DefectEntry := []
  queue : List DefectEdit := []
  cands : List Candidate := []
  /-- RAWC_DMAP_FULL was raised since mode entry (R177) -/
  fullRaised : Bool := false
  /-- the image's run of banks was refused (R174): the port has no map -/
  bad : Bool := false
  deriving DecidableEq, Repr

/-- The journal of the map (R183-R186): edits applied and not yet written (OP, slot, 48-bit entry), the next JSEQ, the
elapsed ns of the last batch and fold, and learning suspended while the copy is rewritten. -/
structure JournalSt where
  wait : List (Nat × Nat × Nat) := []
  jseq : Nat := 0
  lastBatch : Nat := 0
  lastFold : Nat := 0
  rebuilding : Bool := false
  deriving DecidableEq, Repr

/-! ### Chapter 06: the 3D LUT buffers -/

/-- The 3D table buffers of a develop group (R205): tables held (at most two) and the table that is being loaded for a
branch (context, branch, table). -/
structure LutSt where
  held : List Nat := []
  loading : Option (Nat × Nat × Nat) := none
  deriving DecidableEq, Repr

/-- A hold on a frame buffer (R215, R290, R355, R402): which buffer and who holds it. Buffer keys: branch rings
`16 × (6 × ctx + branch) + index`, decoder rings from 2,048 on. -/
structure Hold where
  buf : Nat
  by_ : Nat
  deriving DecidableEq, Repr

/-! ### Chapter 07: compression engines -/

/-- A tile handed to a ZE (R242). -/
structure TileJob where
  ctx : Nat
  fseq : Nat
  idx : Nat
  deriving DecidableEq, Repr

/-- The coding of a frame: LEVEL it started with, tiles, the next one to deliver in tile order, tiles emitted, bytes so
far, and tiles emitted ahead of their order (R242). -/
structure KrcFrame where
  ctx : Nat
  fseq : Nat
  level : Nat
  total : Nat
  next : Nat := 0
  emitted : Nat := 0
  bytes : Nat := 0
  waiting : Sparse (List Byte) := []
  deriving DecidableEq, Repr

/-- A general job on a ZE (R248-R254): its source (ring 0-7, 8 for the recorder), the descriptor, the input, and whether
it must end with a status found at its start. -/
structure GenJob where
  source : Nat
  desc : List Byte
  bufs : List (Nat × Nat)
  input : List Byte
  status : Option Nat := none
  /-- NGR as the job started (R251) -/
  ngr : Nat := 256
  deriving DecidableEq, Repr

/-- Image and general work of the ZEs. -/
structure ZeSt where
  queues : List (List TileJob) := List.replicate 20 []
  frames : List KrcFrame := []
  jobs : List (Option GenJob) := List.replicate 20 none
  /-- the ring served last (R248) -/
  lastRing : Nat := 7
  /-- the recorder's internal queue: clip and input of each job (R248, R269) -/
  recJobs : List (Nat × List Byte) := []
  /-- contexts whose backlog event stands (R243) -/
  backlog : List Nat := []
  deriving DecidableEq, Repr

/-! ### Chapter 08: the recorder -/

/-- A command on a drive's queue (R258, R259): its number; kind (1 Identify controller, 2 Identify namespace, 3 Set
Features 0x07, 4 Set Features 0x06, 5 Create CQ, 6 Create SQ, 7 Get Log Page, 10 Write, 11 Read); LBA and byte count; the
clip's context or the offload job it works for; retries. -/
structure NvmeCmd where
  num : Nat
  kind : Nat
  lba : Nat := 0
  bytes : List Byte := []
  ctx : Option Nat := none
  retries : Nat := 0
  /-- bytes that a Read asks for, and who asks: 1 volume header, 2 recovery, 3 offload -/
  len : Nat := 0
  use_ : Nat := 0
  /-- the place of a Write among the clip's Writes -/
  seq : Nat := 0
  deriving DecidableEq, Repr

/-- A drive bay beside its registers. -/
structure DriveSt where
  up : Bool := false
  mdts : Nat := 131072
  outCmds : List NvmeCmd := []
  nextNum : Nat := 0
  /-- the volume header as held on-die (R271): GEN, next free LBA, last directory (none for all ones) -/
  vhGen : Nat := 0
  nextFree : Option Nat := none
  lastDir : Option Nat := none
  /-- spool slots used of the extent at EXT_CONS of the group this bay heads (R272) -/
  extUsed : Nat := 0
  /-- the drive has a volatile write cache (R260) -/
  vwc : Bool := false
  /-- the volume header was read after initialisation, and the open clip it names: CLIP_START, PART_SERIAL, first LBA -/
  hdrRead : Bool := false
  openClip : Option (Nat × Nat × Nat) := none
  deriving DecidableEq, Repr

/-- A frame on its way to a clip: its record and what its FRAME_HEAD, TILES and FRAME_INDEX need (R264, R265). -/
structure RecFrame where
  fseq : Nat
  sid : Nat
  trig : Nat
  record : List Byte := []
  gen : Nat := 0
  resid : List Byte := []
  total : Nat := 0
  tiles : List (List Byte) := []
  /-- the frame has closed and its record is known -/
  closed : Bool := false
  dropped : Bool := false
  preroll : Bool := false
  /-- concealment-log entries of the frame (R166) -/
  conceal : List Byte := []
  deriving DecidableEq, Repr

/-- An open clip (R262-R277). -/
structure ClipSt where
  start : Nat
  spoolNo : Nat := 0
  /-- bytes of the spool so far, and those not yet submitted -/
  used : Nat := 0
  pend : List Byte := []
  rseq : Nat := 0
  records : Nat := 0
  spoolF : Option (Nat × Nat) := none
  firstF : Option Nat := none
  lastF : Option Nat := none
  dflags : Nat := 0
  openStime : Nat := 0
  /-- the first LBA of each spool, by spool number -/
  lbas : List Nat := []
  lastSid : Option Nat := none
  lastGen : Option Nat := none
  /-- LENS data queued for the next frame (R268) -/
  lens : List (List Byte) := []
  lowRaised : Bool := false
  /-- 0 open, 1 all records written and waiting for completions -/
  closing : Nat := 0
  /-- STOP was written: the clip closes with these DFLAGS once the frames resolved before it are written (R277) -/
  ending : Option Nat := none
  /-- META blobs that wait for their compression (subtype, data) (R269) -/
  blobs : List (Nat × List Byte) := []
  /-- the next Write of the clip; where each FRAME_INDEX ends (spool, offset, FSEQ) until it is submitted; the Write that
  completes each FRAME_INDEX, with its FSEQ -/
  wseq : Nat := 0
  idxEnds : List (Nat × Nat × Nat) := []
  marks : List (Nat × Nat) := []
  deriving DecidableEq, Repr

/-- Audio samples of a port since its last AUDIO record (R267). -/
structure RecAudio where
  samples : List (Nat × Nat) := []
  first : Nat := 0
  muted : Bool := false
  deriving DecidableEq, Repr

/-- The recovery of an open clip (R277): CLIP_START and PART_SERIAL; the first LBA of each group; context and layout; the
LBAs of the spools found; phase 0 finds spools, 1 looks for the first frame in spool 0, 2 walks a spool for the last
frame; the spool read, its bytes so far; RSEQ of the last record; the first and last frames found. -/
structure RecovSt where
  start : Nat
  serial : Nat
  firsts : List Nat
  ctx : Nat := 0
  lbas : List Nat := []
  phase : Nat := 0
  spool : Nat := 0
  off : Nat := 0
  buf : List Byte := []
  rseq : Option Nat := none
  nextRseq : Nat := 0
  firstF : Option Nat := none
  lastF : Option Nat := none
  deriving DecidableEq, Repr

/-- A tile of an offload frame that a ZE is to decode: its number and padded bytes. -/
structure DecTile where
  idx : Nat
  bytes : List Byte
  deriving DecidableEq, Repr

/-- A frame read back from a clip (R345): its FSEQ; its record and residuals (FRAME_HEAD); a gap or dropped frame has no
tiles; its tiles as read and those decoded; `ready` once its FRAME_INDEX was read. -/
structure OffFrame where
  fseq : Nat
  record : List Byte
  resid : List Byte
  total : Nat
  clip : ClipIn
  tiles : List DecTile := []
  next : Nat := 0
  ready : Bool := false
  plane : Sparse (List Nat) := []
  bad : Bool := false
  deriving DecidableEq, Repr

/-- An offload job that runs (R345-R348): its descriptor; phase 0 directory, 1 spools, 2 all read; the entries of the
directory (drive mask, step, first spool, count, LBA); the spool and byte offset read next; bytes read and not yet
parsed; the SPOOL_HEAD body; frames in flight, oldest first; the map, flat field and column table that the clip's records
gave so far; frames developed, the last one, bad tiles; the elapsed ns of its start; STATUS once it is to end. -/
structure OffJob where
  desc : List Byte
  phase : Nat := 0
  ents : List (Nat × Nat × Nat × Nat × Nat) := []
  spools : Nat := 0
  spool : Nat := 0
  off : Nat := 0
  buf : List Byte := []
  head : List Byte := []
  flight : List OffFrame := []
  frames : Nat := 0
  lastF : Nat := 0
  bad : Nat := 0
  from_ : Nat := 0
  map : List DefectEntry := []
  flat : List Byte := []
  column : List Byte := []
  status : Option Nat := none
  /-- the frames of the job so far, in FSEQ order: FSEQ, whether it is a gap, TRIG_STIME (R347) -/
  order : List (Nat × Bool × Nat) := []
  deriving DecidableEq, Repr

/-- The recorder. -/
structure RecSt where
  drives : List DriveSt := List.replicate 4 {}
  /-- frames that wait for their tiles or their order, per context, oldest first -/
  frames : List (List RecFrame) := List.replicate 16 []
  /-- pre-roll frames held per context, oldest first (R275) -/
  pre : List (List RecFrame) := List.replicate 16 []
  clips : List (Option ClipSt) := List.replicate 16 none
  /-- contexts whose clip opens at the next slot resolved (R274) -/
  opening : List Nat := []
  startHeld : Bool := false
  flushFrom : Option Nat := none
  flushClips : Nat := 0
  /-- audio samples waiting for a record, index 8 × context + port -/
  audio : List RecAudio := List.replicate 128 {}
  /-- concealment-log entries of the frame being received per context -/
  conceal : List (List Byte) := List.replicate 16 []
  overSec : Sparse Nat := []
  recov : Option RecovSt := none
  job : Option OffJob := none
  deriving DecidableEq, Repr

/-! ### Chapters 09 and 10: coding sessions -/

/-- The source selected for picture `n` (R288, R289): its slot's place, frame, SID, TRIG_STIME in ns, the held buffer, and
whether the picture is a REPEAT; `cut` marks the first frame of an offload job. -/
structure SrcSel where
  n : Nat
  idx : Nat
  fseq : Nat
  sid : Nat
  trig : Nat
  buf : Option Nat
  again : Bool
  deriving DecidableEq, Repr

/-- A row of a picture in progress (R295-R297, R321-R325). `state`: 0 waiting, 1 ready and waiting for its release,
2 queued, 3 in progress, 4 paused, 5 interrupted by a fault, 6 complete. -/
structure RowSt where
  state : Nat := 0
  budget : Nat := 0
  spent : Nat := 0
  /-- units coded so far, the salvage and all-skip flags now, and those with which the row started (its checkpoint) -/
  units : Nat := 0
  salv : Bool := false
  skip : Bool := false
  salv0 : Bool := false
  skip0 : Bool := false
  /-- the state of the salvage flags after each unit, in unit order (R325) -/
  flags : List (Bool × Bool) := []
  /-- QP of the last unit coded (R320, R324) -/
  qp : Nat := 0
  bytes : List Byte := []
  /-- the row was interrupted by a fault and re-run (R313) -/
  sub : Bool := false
  deriving DecidableEq, Repr

/-- A picture in progress (R317-R321). `c` counts the coded pictures, `n` is the picture number, `pos` its place in coding
order; `type` as in R309; `cyc` its place in the refresh cycle; `gop` names the GOP or cycle for R320. -/
structure PicSt where
  c : Nat
  n : Nat
  pos : Nat
  type : Nat
  src : SrcSel
  /-- its engines (R292, R35) -/
  engines : List Nat
  flags : Nat
  cyc : Option Nat
  gop : Nat
  cap : Nat
  tgt : Nat
  qp : Nat
  inc : Nat
  crow : List Nat
  rows : List RowSt
  /-- its record in the record ring, none where it has none; the chunk's offset, its reserved bytes, the bytes ahead of the
  sample -/
  rec_ : Option Nat
  off : Nat
  maxLen : Nat
  head : List Byte
  bands : Nat := 0
  bytesDone : Nat := 0
  done : Bool := false
  /-- the first salvaged row, rows that turned all-skip (R326) -/
  salvRow : Option Nat := none
  allSkip : Nat := 0
  /-- EFFORT in use (R335) -/
  effort : Nat := 0
  /-- units of earlier refresh columns to be coded again (R329), and whether they were repeats already -/
  repeats : List (Nat × Nat) := []
  /-- refresh units of this picture that were coded minimally -/
  missed : List (Nat × Nat) := []
  deriving DecidableEq, Repr

/-- A completed picture as rate control sees it: bits of the picture and of its rows (R318-R321). -/
structure DoneSt where
  c : Nat
  type : Nat
  bits : Nat
  inc : Nat
  cap : Nat
  tgt : Nat
  qp : Nat
  gop : Nat
  rows : List Nat
  missed : List (Nat × Nat) := []
  wasRepeat : Bool := false
  deriving DecidableEq, Repr

/-- A session beside its registers (R287-R330). -/
structure SesSt where
  run : Bool := false
  /-- its engines, in order; a new placement that waits for the next boundary (R34, R35) -/
  engines : List Nat := []
  marked : Option (List Nat) := none
  /-- T0 in ns and the place of its first slot, once resolved; its first picture number -/
  t0 : Option Nat := none
  slot0 : Nat := 0
  first : Nat := 0
  /-- pictures planned and not yet started (number, place in coding order, type), the next number to plan -/
  order : List (Nat × Nat × Nat) := []
  nextN : Nat := 0
  pics : List PicSt := []
  /-- pictures complete and not yet folded into rate control, oldest first; the CPB fill after the folded ones; coded
  pictures; remainder of the fill rate -/
  tail : List DoneSt := []
  fill : Int := 0
  coded : Nat := 0
  rem : Nat := 0
  lastPos : Nat := 0
  /-- sum of actual less target bits of the GOP or cycle named; latest folded picture per type (type, bits, QP, rows); its
  costs, newest first -/
  err : Int := 0
  errGop : Nat := 0
  last : List (Nat × Nat × Nat × List Nat) := []
  costs : List Nat := []
  /-- sources selected, oldest first (not for a member of a group), and the numbers of the last key frame and of the last
  cycle start -/
  srcs : List SrcSel := []
  lastKey : Nat := 0
  lastCyc : Nat := 0
  /-- GOP count base of a session outside a group, and its extra key frames -/
  gopBase : Nat := 0
  keys : List Nat := []
  /-- half frame rate in effect, and as wanted by the shed order (R335) -/
  halved : Bool := false
  wantHalf : Bool := false
  halveKey : Nat := 0
  /-- the data ring: where the next chunk may start, and the chunks written (record, offset, length) -/
  dataAt : Nat := 0
  chunks : List (Nat × Nat × Nat) := []
  /-- discarding goes on until a key frame that fits (R310); the next picture is forced to start afresh -/
  fresh : Bool := false
  /-- elapsed ns, plus 1, of the last VE_REPEAT and VE_SALVAGE -/
  repeatSec : Nat := 0
  salvSec : Nat := 0
  /-- rates in effect (R323): BITRATE and MAX_BITRATE in kb/s, and EFFORT -/
  rate : Nat := 0
  maxRate : Nat := 0
  deriving DecidableEq, Repr

/-- An analysis record of a group (R303): its picture, the record's bytes, the mean of its complexity map in linear form,
the map's cells and the saliency cells. -/
structure AnaRec where
  n : Nat
  bytes : List Byte
  mean : Nat
  cells : List Nat
  sal : List Nat
  deriving DecidableEq, Repr

/-- A ladder group beside its registers (R300-R306). -/
structure GrpSt where
  run : Bool := false
  t0 : Option Nat := none
  slot0 : Nat := 0
  /-- next picture to analyse, next key at a GOP start, extra key frames decided, the last key frame, the key frame where
  the present halving took effect -/
  nextA : Nat := 0
  gopBase : Nat := 0
  keys : List Nat := []
  lastKey : Nat := 0
  halveKey : Nat := 0
  /-- sources selected, oldest first; analysis records kept; means of the last GOP_LEN analysed pictures, newest first -/
  srcs : List SrcSel := []
  recs : List AnaRec := []
  means : List Nat := []
  /-- engines that carry its analysis -/
  engines : List Nat := []
  deriving DecidableEq, Repr

/-- A row on an engine: its session, coded picture and row, when it became ready, when it is or was released, when it started
and for how long it has been paused, all in elapsed ns (R296, R297, R313). -/
structure RowJob where
  ses : Nat
  c : Nat
  row : Nat
  ready : Nat
  release : Nat := 0
  start : Nat := 0
  paused : Nat := 0
  pausedAt : Nat := 0
  deriving DecidableEq, Repr

/-- A coding engine (R296): its LIVE row and its other row in progress, whether the latter is paused, ready rows in the
order they became ready, LIVE rows that wait for their release, and when it started its LIVE session's last row. -/
structure VeSt where
  live : Option RowJob := none
  other : Option RowJob := none
  paused : Bool := false
  queue : List RowJob := []
  held : List RowJob := []
  lastLive : Option Nat := none
  deriving DecidableEq, Repr

/-- A substitution in progress in a quadrant (R313, R72): the engine, its interrupted rows in order, whether the checkpoints
have been read, and whether a block reset lent the spare. -/
structure VeSub where
  eng : Nat
  jobs : List RowJob
  read : Bool := false
  quiet : Bool := false
  deriving DecidableEq, Repr

/-- The coding engines, sessions and groups. -/
structure CodeSt where
  ses : Sparse SesSt := []
  grp : List GrpSt := List.replicate 8 {}
  ve : List VeSt := List.replicate 68 {}
  subs : List (Option VeSub) := [none, none, none, none]
  /-- ns of engine time of the rows complete so far (R332) -/
  busyNs : Nat := 0
  deriving DecidableEq, Repr

/-- The scheduler and the shed order (R31-R36, R332-R337, R492). -/
structure ShedSt where
  /-- the load level, ticks for which the present level has held, ticks of LAG 0 and low BUSY in a row -/
  load : Nat := 0
  held : Nat := 0
  low : Nat := 0
  /-- ticks in a row without throttle, and the hottest reading at the last tick (R492) -/
  cool : Nat := 0
  hottest : Int := 0
  /-- elapsed ns of the last OVERLOAD_LIMIT and THERM_LIMIT, plus 1, and since when the floor has stood at the top -/
  limitAt : Nat := 0
  thermLimitAt : Nat := 0
  topSince : Option Nat := none
  /-- ns of engine time counted up to the last tick (R332) -/
  lastBusy : Nat := 0
  deriving DecidableEq, Repr

/-- A decoder beside its registers (R338-R344): access units taken and not yet decoded, whether one that is unrecovered
waits (loss), whether a picture of the DPB is correct, the next output buffer, and the next picture number. -/
structure DecSt where
  run : Bool := false
  waitRap : Bool := true
  lost : Bool := false
  correct : Bool := false
  nextBuf : Nat := 0
  nextPic : Nat := 0
  /-- access units waiting: data, PTS, RECV_STIME, discontinuity -/
  input : List (List Byte × Nat × Nat × Bool) := []
  /-- recovery point awaited: a recovery-point SEI was seen after the last substitution or loss -/
  recovery : Bool := false
  /-- output buffers so far: buffer, PIC_NO, elapsed ns of its completion, whether concealed -/
  outs : List (Nat × Nat × Nat × Bool) := []
  /-- access units that a flow has delivered and the decoder has not taken: data, PTS, RECV_STIME, loss before it -/
  fifo : List (List Byte × Nat × Nat × Bool) := []
  /-- the most recent correctly decoded picture: luma and chroma lines (R341) -/
  good : Option (List (List Nat) × List (List Nat)) := none
  deriving DecidableEq, Repr

/-! ### Chapter 11: rasters and the Gecko paths -/

/-- The buffer that a layer shows (R354): its key, its byte offset in DEV_STORE, its FSEQ and TRIG_STIME. -/
structure ShownBuf where
  key : Nat
  off : Nat
  fseq : Nat
  trig : Nat
  deriving DecidableEq, Repr

/-- A raster beside its registers. `k` numbers the next frame to start and `off` is the offset of its start from S_k in ns
(R351, R364); `start` is the STIME of the frame being shown. -/
structure RasSt where
  run : Bool := false
  k : Int := 0
  off : Int := 0
  start : Nat := 0
  /-- the buffers shown per layer; the selection of the next frame is made; layer 0 repeats in it -/
  shown : List (Option ShownBuf) := List.replicate 8 none
  fetched : Bool := false
  repeat0 : Bool := false
  /-- a frame runs; the rest of it is black (R363); it underran (R379); frames of black still due (R360, R381) -/
  active : Bool := false
  black : Bool := false
  under : Bool := false
  blackFrames : Nat := 0
  /-- the freeze detector: last signature, last source time, matches (R379) -/
  lastSig : Nat := 0
  lastSrc : Nat := 0
  same : Nat := 0
  /-- elapsed ns, plus 1, of the last RAS_UNDERRUN; elapsed ns since which the phase has stayed within 50 ns (R352, R362) -/
  underSec : Nat := 0
  lockFrom : Nat := 0
  /-- layers refused at the last latch (R353), audio pairs that carry silence (R369) -/
  bad : List Nat := []
  audBad : List Nat := []
  deriving DecidableEq, Repr

/-- A sensor row of a Gecko path's window (R374, R378): its row, acceptance time in ns, code16 values, whether damaged. -/
structure GkRow where
  r : Nat
  at_ : Nat
  px : List Nat
  damaged : Bool
  deriving DecidableEq, Repr

/-- A Gecko path beside its registers (R374-R378): accepted frame starts so far, the frame it emits (acceptance in ns, FSEQ,
STIME), the window rows held, the next output row, the rows composed so far (u16 components), the second of the last
GK_LATE plus 1, and whether the frame was aborted. -/
structure GkSt where
  starts : Nat := 0
  frame : Option (Nat × Nat × Nat) := none
  rows : List GkRow := []
  next : Nat := 0
  comp : List (List (Int × Int × Int)) := []
  lateSec : Nat := 0
  deriving DecidableEq, Repr

/-! ### Chapter 13: audio -/

/-- An audio port beside its registers (R411-R421): its FIFO of frames, oldest first; the last frame read; elapsed ns since
it has been muted; samples since its last unmute; the sample pair of the present domain frame and whether it is muted;
frames for which a change of source mutes it; second, plus 1, of its last AUD_SLIP. -/
structure AudPort where
  fifo : List (Nat × Nat) := []
  last : Nat × Nat := (0, 0)
  mutedAt : Nat := 0
  ramp : Nat := 32
  cur : Nat × Nat := (0, 0)
  curMuted : Bool := true
  changed : Nat := 0
  slipSec : Nat := 0
  deriving DecidableEq, Repr

/-- An audio domain beside its registers (R412, R414): whether it reads its FIFOs, the integrator, updates in a row with
|e| ≤ 64, the sum of the reference fill over the frames since the last update. -/
structure AudDom where
  run : Bool := false
  reading : Bool := false
  integ : Int := 0
  good : Nat := 0
  fillSum : Nat := 0
  frames : Nat := 0
  deriving DecidableEq, Repr

/-- A network source (R420): samples received and not yet played, by media-clock index; the channels of the sample played
last, and whether it was absent. -/
structure AudNet where
  samples : Sparse (List Nat) := []
  cur : List Nat := []
  absent : Bool := true
  deriving DecidableEq, Repr

/-- The audio subsystem. -/
structure AudSt where
  ports : List AudPort := List.replicate 8 {}
  doms : List AudDom := [{}, {}]
  nets : List AudNet := List.replicate 8 {}
  deriving DecidableEq, Repr

/-! ### Chapter 12: network flows -/

/-- A transmit flow (R401-R404): whether it sends; the number of its next frame; the buffer being sent, whether it repeats,
the packets of it sent so far; the selected next buffer; RTP sequence number and timestamp; the MAC address resolved per
path and the elapsed ns since which a path waits for it; the second, plus 1, of its last NET_ARP_FAIL; bytes of the chunk
sent, tokens of the bucket and the elapsed ns of their count; whether it waits for a key frame; audio frames not yet sent
and the media-clock index of the first. -/
structure TxSt where
  run : Bool := false
  k : Option Int := none
  cur : Option ShownBuf := none
  rep : Bool := false
  sent : Nat := 0
  next : Option (ShownBuf × Bool) := none
  seq : Nat := 0
  ts : Nat := 0
  mac : List (Option Nat) := [none, none]
  askedAt : List Nat := [0, 0]
  failSec : Nat := 0
  chunkSent : Nat := 0
  tokens : Nat := 0
  tokenAt : Nat := 0
  waitKey : Bool := false
  aud : List (List Nat) := []
  audFirst : Nat := 0
  deriving DecidableEq, Repr

/-- A packet that waits in a reorder window: arrival in elapsed ns, path, packet. -/
structure RxPkt where
  at_ : Nat
  path : Nat
  pkt : RtpPacket
  deriving DecidableEq, Repr

/-- A receive flow (R401, R404, R405): whether it is joined; the next sequence number to release; packets that wait; numbers
released lately with their path and time, while the other path may still bring them; the second, plus 1, of its last
NET_RX_LOSS; the access unit being assembled, and loss before it; the video frame being written (buffer, timestamp, FSEQ,
lost samples); the next buffer and frame number. -/
structure RxSt where
  run : Bool := false
  next : Option Nat := none
  win : Sparse (Option RxPkt) := []
  got : List (Nat × Nat × Nat) := []
  lossSec : Nat := 0
  au : List Byte := []
  lost : Bool := false
  frame : Option (Nat × Nat × Bool) := none
  nextBuf : Nat := 0
  fseq : Nat := 0
  deriving DecidableEq, Repr

/-- The network block. -/
structure NetSt where
  tx : Sparse TxSt := []
  rx : Sparse RxSt := []
  deriving DecidableEq, Repr

/-! ### Chapter 15: clocks -/

/-- The clock monitor and PLL_MAIN beside their registers (R448-R470). Per reference: whether edges are seen, consecutive
good windows, whether it was lost since the last cold or pin reset. `cal`: FALLBACK_RO was calibrated; `from_`: the old
reference of the switchover in progress; `past`: the holdover window of R464 has ended; `gate`: the gate request that
waits (block ID, instance); `alwaysOn`: the always-on domain runs from PLL_MAIN (R462). -/
structure ClkSt where
  edges : List Bool := [false, false]
  good : List Nat := [0, 0]
  lost : List Bool := [false, false]
  cal : Bool := false
  from_ : Nat := 0
  past : Bool := false
  gate : Option (Nat × Nat) := none
  alwaysOn : Bool := false
  deriving DecidableEq, Repr

/-! ### Chapter 16: supplies -/

/-- The voltage loop and the WARN logic beside their registers (R476-R483). `highRun`, `lowRun`: updates in a row above the
target, and below it at VMAX_MV; `droop`: droop_seen; `limitAt`: elapsed ns of the last PWR_AVS_LIMIT plus 1; `droopSec`:
second of the last PWR_DROOP plus 1; `sent`: the target of the regulator command that waits for its answer; `again`: it
must be sent again; `fails`: failed commands in a row; `fixed`: VMAX_MV was sent as the loop does not run; `oldMv`, `changedAt`: the target before the last change and its
time; `warnFrom`: start of the WARN; `brown`: the rail of a brown-out whose recovery is awaited. -/
structure PwrSt where
  highRun : Nat := 0
  lowRun : Nat := 0
  droop : Bool := false
  limitAt : Nat := 0
  droopSec : Nat := 0
  sent : Option Nat := none
  again : Bool := false
  fails : Nat := 0
  fixed : Bool := false
  oldMv : Nat := 800
  changedAt : Nat := 0
  warnFrom : Nat := 0
  brown : Option Nat := none
  /-- `CORE_PWR_EN` and `HBM_PWR_EN` are high (R473) -/
  coreEn : Bool := false
  hbmEn : Bool := false
  deriving DecidableEq, Repr

/-! ### Chapter 17: thermal management -/

/-- The thermal manager beside its registers (R488-R496). `bad`: excluded die sensors; `diff`: per die sensor the elapsed ns
plus 1 since which it differs from its reference; `stackBad`: the same for failing reads of a stack; `past`: WARN and
THROTTLE of die and HBM in effect; `cool`: elapsed ns plus 1 since which every reading stays 7 °C below THROTTLE; `hms`: the
hottest reading of the running ms; `ms`: the last 10 of them and `hist` the last 101 values of s, newest first; `calm`;
`aonBase`: always-on time in ns before the last cold or pin reset; `restarts`: always-on times in s of the last three thermal
restarts, oldest first; `shut`: shut down; `report`: a lock-out ended by a pin reset is to be reported,
with its sensor. -/
structure ThermSt where
  bad : List Bool := List.replicate 40 false
  diff : List Nat := List.replicate 40 0
  stackBad : List Nat := [0, 0, 0, 0]
  past : List Bool := [false, false, false, false]
  cool : Nat := 0
  hms : Option Int := none
  ms : List Int := []
  hist : List Int := []
  calm : Nat := 0
  aonBase : Nat := 0
  restarts : List Nat := []
  shut : Bool := false
  report : Option Nat := none
  deriving DecidableEq, Repr

/-! ### Chapters 18 to 20: substitution of develop engines, JTAG, the service ports -/

/-- A DE substitution that has not caught up yet (R501): the failed DE, the spare, the context, its frame and the
stripe; whether a block reset lent the spare. -/
structure DeSub where
  de : Nat
  spare : Nat
  ctx : Nat
  fseq : Nat
  stripe : Nat
  quiet : Bool := false
  deriving DecidableEq, Repr

/-- Service state: DE substitutions by quadrant; `RESET_N` is low; the JTAG boundary register as preloaded (R514); the low
word's latch of a defect-map read per port, EP0 and the management SPI port (R523); engines whose block reset is over and whose
work returns from their spare at its next boundary, as (block ID, engine) (R72). -/
structure SrvSt where
  deSubs : List (Option DeSub) := [none, none, none, none]
  resetLow : Bool := false
  bscan : Nat := 0
  latch : List (Option (Nat × Nat)) := [none, none]
  returns : List (Nat × Nat) := []
  deriving DecidableEq, Repr


/-- The block itself: everything but the queue of waiting commands. -/
structure Dev where
  regs : Regs := {}
  /-- elapsed time of the always-on domain since the last cold or pin reset, in ns (R509, R495) -/
  elapsed : Nat := 0
  out : List Output := []
  boot : BootSt := {}
  mode : ModeSt := {}
  blockReset : Option BlockResetSt := none
  evt : EvtSt := {}
  keep : KeepSt := {}
  mem : MemSt := {}
  time : TimeSt := {}
  /-- EP0's link to the host is up (R253) -/
  ep0Up : Bool := false
  /-- bytes of the LUT windows and of the defect map window's records, by address (R523, R524) -/
  windows : Sparse Byte := []

  /-- the eight sensor-link ports (chapter 03) -/
  link : List LinkPort := List.replicate 8 {}
  /-- the trigger schedules of the eight ports (R393-R395) -/
  trig : List TrigSched := List.replicate 8 {}
  /-- the exposure sets of the sixteen contexts, oldest first (R148-R151) -/
  exps : List (List ExpSet) := List.replicate 16 []
  /-- the sixteen capture contexts and eight wheel groups (chapter 04) -/
  cap : List CapCtx := List.replicate 16 {}
  wheels : List WheelSt := List.replicate 8 {}
  /-- entries of RAW_RING, oldest first, and the byte offset where the next may begin (R138) -/
  rawEntries : List RawEntry := []
  rawNext : Nat := 0
  /-- the defect map by port and its journal (chapter 05) -/
  dmap : List DmapPort := List.replicate 8 {}
  journal : JournalSt := {}
  /-- 3D LUT buffers per context (R205) -/
  luts : List LutSt := List.replicate 16 {}
  /-- held frame buffers -/
  holds : List Hold := []
  /-- next buffer of each branch ring, index 6 × ctx + branch (R215) -/
  brNext : List Nat := List.replicate 96 0
  /-- physical DEs assigned to each context or wheel group at mode entry (R30) -/
  deSets : List (List Nat) := List.replicate 24 []
  /-- the compression engines (chapter 07) -/
  ze : ZeSt := {}
  /-- the recorder (chapter 08) -/
  recd : RecSt := {}
  /-- coding engines, sessions and ladder groups (chapters 09 and 10) -/
  code : CodeSt := {}
  shed : ShedSt := {}
  decs : List DecSt := List.replicate 16 {}
  /-- the six rasters and the eight Gecko paths (chapter 11) -/
  ras : List RasSt := List.replicate 6 {}
  gk : List GkSt := List.replicate 8 {}
  /-- audio ports, domains and network sources (chapter 13) -/
  aud : AudSt := {}
  /-- transmit and receive flows (chapter 12) -/
  net : NetSt := {}
  /-- clocks (chapter 15) -/
  clk : ClkSt := {}
  /-- supplies (chapter 16) -/
  pwr : PwrSt := {}
  /-- thermal management (chapter 17) -/
  therm : ThermSt := {}
  /-- substitution of DEs, JTAG and the service ports (chapters 18 to 20) -/
  srv : SrvSt := {}
  /-- how many free values the block has taken so far: the model's own field, which no statement rests on -/
  freeCtr : Nat := 0
  deriving DecidableEq, Repr

/-- The block and the commands waiting for it, first in, first out. -/
structure State where
  dev : Dev
  pending : List Instr
  deriving DecidableEq, Repr

/-- The stops of the model. Every row of the table has an effect in the spec, so no meaning stops; the constructor is the
host's interface for a fault that the model does not use (safe: nothing raises it). -/
inductive Fault where
  /-- raised by nothing; safe -/
  | unused
  deriving DecidableEq, Repr

/-- The refusals of the model. -/
inductive Refusal where
  /-- raised by an arm of `exec` that has no meaning yet; safe -/
  | notModelled (mnemonic : String)
  deriving DecidableEq, Repr

/-- The machine right after a power-on reset (R69): boot step 1, mode BOOT, every register at its reset value, and
`DEV_RESET_CAUSE` reporting POR. -/
def State.reset : State :=
  { dev := { regs := { words := [(0x24, 1)] } }, pending := [] }

end Sys2Proof.Machine
end

