-- ==== Sys2Proof/Machine/Ops.lean ====
section
/-!
DEFINITION. The named operations over sparse data, bytes, memory, the keep store, time and the output log.
-/
namespace Sys2Proof.Machine

/-- The outcome of a command whose effect on the block is `f` (the queue stays as it is). -/
def State.run (s : State) (f : Dev → Dev) : Host.Outcome State Fault Refusal :=
  .next { s with dev := f s.dev }

/-! ### Sparse data -/

/-- The value at key `k`; an unlisted key reads as `dflt k`. -/
def Sparse.get {α : Type} (dflt : Nat → α) : Sparse α → Nat → α
  | [], k => dflt k
  | (k', v) :: rest, k => if k' = k then v else Sparse.get dflt rest k

/-- The list without an entry for `k`. -/
def Sparse.erase {α : Type} : Sparse α → Nat → Sparse α
  | [], _ => []
  | (k', v) :: rest, k => if k' = k then Sparse.erase rest k else (k', v) :: Sparse.erase rest k

/-- The list with the entry `(k, v)` put before the first larger key. -/
def Sparse.insert {α : Type} : Sparse α → Nat → α → Sparse α
  | [], k, v => [(k, v)]
  | (k', v') :: rest, k, v =>
    if k < k' then (k, v) :: (k', v') :: rest else (k', v') :: Sparse.insert rest k v

/-- Sets the value at `k`, keeping the canonical form: a value equal to the default leaves no entry. -/
def Sparse.put {α : Type} [DecidableEq α] (dflt : Nat → α) (m : Sparse α) (k : Nat) (v : α) : Sparse α :=
  if v = dflt k then m.erase k else (m.erase k).insert k v

/-- Whether every key of the list is above `k`. -/
def Sparse.above {α : Type} (k : Nat) (m : Sparse α) : Bool := m.all (fun e => decide (k < e.1))

/-- The canonical form: keys strictly rising, no entry equal to its default. -/
def Sparse.wf {α : Type} [DecidableEq α] (dflt : Nat → α) : Sparse α → Bool
  | [] => true
  | (k, v) :: rest => Sparse.above k rest && decide (v ≠ dflt k) && Sparse.wf dflt rest

/-! ### Bytes -/

/-- The `n` low bytes of `v`, least significant first (R12). -/
def bytesLE : Nat → Nat → List Byte
  | 0, _ => []
  | n + 1, v => BitVec.ofNat 8 v :: bytesLE n (v / 256)

/-- The number that bytes spell, least significant first. -/
def leNat : List Byte → Nat
  | [] => 0
  | b :: rest => b.toNat + 256 * leNat rest

/-- The `n` low bytes of `v`, most significant first (network and image fields). -/
def bytesBE (n v : Nat) : List Byte := (bytesLE n v).reverse

/-- The number that bytes spell, most significant first. -/
def beNat (l : List Byte) : Nat := l.foldl (fun acc b => acc * 256 + b.toNat) 0

/-- `n` bytes of `l` from position `i`; missing bytes are 0. -/
def sliceBytes (l : List Byte) (i n : Nat) : List Byte :=
  let s := (l.drop i).take n
  s ++ List.replicate (n - s.length) 0

/-- The little-endian number of `n` bytes at position `i`. -/
def leAt (l : List Byte) (i n : Nat) : Nat := leNat (sliceBytes l i n)

/-- Two's complement of `x` in `bits` bits. -/
def toBits (bits : Nat) (x : Int) : Nat := (x % (2 ^ bits : Int)).toNat

/-- The signed value of the low `bits` bits of `x`. -/
def signed (bits x : Nat) : Int :=
  let y := x % 2 ^ bits
  if y < 2 ^ (bits - 1) then (y : Int) else (y : Int) - 2 ^ bits

/-- `x` held within `lo` and `hi`. -/
def clampInt (x lo hi : Int) : Int := if x < lo then lo else if hi < x then hi else x

/-- `x` held within `lo` and `hi`. -/
def clampNat (x lo hi : Nat) : Nat := if x < lo then lo else if hi < x then hi else x

/-- Bit `i` of a mask. -/
def bitOf (m i : Nat) : Bool := m / 2 ^ i % 2 = 1

/-- A mask with bit `i` set to `b`. -/
def setBit (m i : Nat) (b : Bool) : Nat :=
  if bitOf m i = b then m else if b then m + 2 ^ i else m - 2 ^ i

/-- Element `i` of a list of numbers; 0 past its end. -/
def nth (l : List Nat) (i : Nat) : Nat := l.getD i 0

/-- The list with element `i` replaced. -/
def setAt {α : Type} (l : List α) (i : Nat) (x : α) : List α := l.set i x

/-- The list with element `i` changed by `f`. -/
def modifyAt {α : Type} (l : List α) (i : Nat) (f : α → α) : List α := l.modify i f

/-- Element `i`, `d` past the end. -/
def elemAt {α : Type} (l : List α) (i : Nat) (d : α) : α := l.getD i d

/-- The sum of a list. -/
def sumNat (l : List Nat) : Nat := l.foldl (· + ·) 0

/-! ### Registers: one home, one pair of accessors -/

/-- The register word at `a` (for an RWS field, the shadow). -/
def Dev.word (d : Dev) (a : Nat) : Word := Sparse.get resetWord d.regs.words a

/-- Sets the register word at `a`. -/
def Dev.setWord (d : Dev) (a : Nat) (w : Word) : Dev :=
  { d with regs := { d.regs with words := Sparse.put resetWord d.regs.words a w } }

/-- The word in effect at `a`, for registers with RWS fields (R8). -/
def Dev.effWord (d : Dev) (a : Nat) : Word := Sparse.get resetWord d.regs.eff a

/-- Sets the word in effect at `a`. -/
def Dev.setEff (d : Dev) (a : Nat) (w : Word) : Dev :=
  { d with regs := { d.regs with eff := Sparse.put resetWord d.regs.eff a w } }

/-- The value of a field. -/
def Dev.get (d : Dev) (f : Fld) : Nat := (d.word f.addr).field f.lo f.width

/-- Sets a field; a value too wide wraps to the field's width. -/
def Dev.set (d : Dev) (f : Fld) (v : Nat) : Dev :=
  d.setWord f.addr ((d.word f.addr).setField f.lo f.width v)

/-- The value in effect of an RWS field. -/
def Dev.eget (d : Dev) (f : Fld) : Nat := (d.effWord f.addr).field f.lo f.width

/-- Whether a one-bit field is 1. -/
def Dev.flag (d : Dev) (f : Fld) : Bool := d.get f = 1

/-- A one-bit field as a number. -/
def b2n (b : Bool) : Nat := if b then 1 else 0

/-- Sets a one-bit field. -/
def Dev.setFlag (d : Dev) (f : Fld) (b : Bool) : Dev := d.set f (b2n b)

/-- Counts one in a wrapping counter field. -/
def Dev.bump (d : Dev) (f : Fld) : Dev := d.set f (d.get f + 1)

/-- Adds to a wrapping counter field. -/
def Dev.add (d : Dev) (f : Fld) (n : Nat) : Dev := d.set f (d.get f + n)

/-- Adds to a counter field that saturates. -/
def Dev.addSat (d : Dev) (f : Fld) (n : Nat) : Dev := d.set f (min (d.get f + n) (2 ^ f.width - 1))

/-- The commit of the shadow of the register at `a` (R8): its word takes effect. -/
def Dev.latch (d : Dev) (a : Nat) : Dev := d.setEff a (d.word a)

/-- The commit of several registers. -/
def Dev.latchAll (d : Dev) (as : List Nat) : Dev := as.foldl Dev.latch d

/-! ### Outputs and free values -/

/-- Sends something to the outside world. -/
def Dev.emit (d : Dev) (o : Output) : Dev := { d with out := d.out ++ [o] }

/-- Drives an output pin (codes of `Pin`). -/
def Dev.pin (d : Dev) (code level : Nat) : Dev := d.emit (.pin code level)

/-- The next free value. -/
def Dev.free (d : Dev) : Nat := Config.free d.freeCtr

/-- The block after it has taken `n` free values. -/
def Dev.tookFree (d : Dev) (n : Nat) : Dev := { d with freeCtr := d.freeCtr + n }

/-! ### Device time (R383, R384) -/

/-- Nanoseconds per second. -/
def nsPerS : Nat := 1000000000

/-- DTIME seconds, modulo 2^48. -/
def dtSec (t : Nat) : Nat := t / (nsPerS * 2 ^ 24) % 2 ^ 48

/-- DTIME nanoseconds. -/
def dtNs (t : Nat) : Nat := t / 2 ^ 24 % nsPerS

/-- DTIME sub-nanoseconds in 2^-16 ns. -/
def dtSubns (t : Nat) : Nat := t / 2 ^ 8 % 2 ^ 16

/-- The STIME of a device time (R383): seconds modulo 2^32, then the binary fraction. -/
def stimeOf (t : Nat) : Nat :=
  dtSec t % 2 ^ 32 * 2 ^ 32 + (dtNs t * 2 ^ 16 + dtSubns t) * 2 ^ 32 / (nsPerS * 2 ^ 16)

/-- The present STIME. -/
def Dev.stime (d : Dev) : Nat := stimeOf d.time.dt

/-- Whether a limit of once a second allows an event whose last one was at `last` (elapsed ns plus 1, 0 for none). -/
def Dev.secOver (d : Dev) (last : Nat) : Bool := last = 0 || decide (last - 1 + nsPerS ≤ d.elapsed)

/-- The present DTIME in whole nanoseconds. -/
def Dev.nowNs (d : Dev) : Nat := d.time.dt / 2 ^ 24

/-- The difference of two STIME values in ns (R384). -/
def stimeDiffNs (now target : Nat) : Int :=
  let d := signed 64 (toBits 64 ((now : Int) - (target : Int)))
  let s := d / 2 ^ 32
  let f := d % 2 ^ 32
  s * nsPerS + (f * nsPerS + 0x80000000) / 2 ^ 32

/-- The STIME that lies `ns` after an STIME, ns counted in a binary fraction of a second rounded down. -/
def stimeAddNs (t : Nat) (ns : Int) : Nat :=
  toBits 64 ((t : Int) + ns * 2 ^ 32 / nsPerS)

/-! ### Pools and stacks (R424-R433) -/

/-- Bytes of pool `n` as its `MEM_POOLn_CFG` declares (R426). -/
def Dev.poolSize (d : Dev) (n : Nat) : Nat := d.get (F.MEM_POOL_CFG_SIZE_MIB n) * 2 ^ 20

/-- The stack-local base of pool `n` in bytes (R428). -/
def Dev.poolBase (d : Dev) (n : Nat) : Nat := d.get (F.MEM_POOL_BASE_BASE_MIB n) * 2 ^ 20

/-- The three forms of a pool (R427). -/
inductive PoolForm where
  | parity | interleaved | home (stack : Nat) | bad
  deriving DecidableEq, Repr

/-- The form of pool `n`. -/
def Dev.poolForm (d : Dev) (n : Nat) : PoolForm :=
  match d.get (F.MEM_POOL_CFG_PARITY n), d.get (F.MEM_POOL_CFG_HOME_EN n) with
  | 1, 0 => .parity
  | 0, 0 => .interleaved
  | 0, 1 => .home (d.get (F.MEM_POOL_CFG_HOME n))
  | _, _ => .bad

/-- The key of a stack-local address. -/
def stackKey (stack l : Nat) : Nat := stack * 2 ^ 36 + l

/-- Where byte `o` of pool `n` lies: stack and stack-local address (R428, R431, R427). -/
def Dev.locate (d : Dev) (n o : Nat) : Nat × Nat :=
  match d.poolForm n with
  | .parity =>
    let s := o / 12288
    let b := o % 12288 / 4096
    ((s % 4 + 1 + b) % 4, d.poolBase n + 4096 * s + o % 4096)
  | .interleaved => (o / 4096 % 4, d.poolBase n + o / 16384 * 4096 + o % 4096)
  | .home h => (h, d.poolBase n + o)
  | .bad => (0, d.poolBase n + o)

/-- The pseudo-channel of stack-local address `l` (R424). -/
def pcOf (l : Nat) : Nat := ((l >>> 8) ^^^ (l >>> 13)) % 32

/-- Whether a pseudo-channel can be used: neither it nor its stack is fenced (R439). -/
def Dev.pcOk (d : Dev) (h pc : Nat) : Bool :=
  !d.flag (F.MEM_STACK_STATUS_FAILED h) && !bitOf (d.get (F.MEM_STACK_FAIL_PC h)) pc

/-- Whether the block at a stack-local address can be reached. -/
def Dev.locOk (d : Dev) (h l : Nat) : Bool := d.pcOk h (pcOf l)

/-- The byte stored at a stack-local address. -/
def Dev.cell (d : Dev) (h l : Nat) : Byte := Sparse.get (fun _ => 0) d.mem.cells (stackKey h l)

/-- Stores a byte at a stack-local address of a part that is not fenced. -/
def Dev.setCell (d : Dev) (h l : Nat) (b : Byte) : Dev :=
  if d.locOk h l then
    { d with mem := { d.mem with cells := Sparse.put (fun _ => 0) d.mem.cells (stackKey h l) b } }
  else d

/-- The block key of the 64-byte block that holds a stack-local address. -/
def blockKey (h l : Nat) : Nat := stackKey h (l / 64 * 64)

/-- Whether a 64-byte block is poisoned (R437). -/
def Dev.poisoned (d : Dev) (h l : Nat) : Bool := Sparse.get (fun _ => false) d.mem.poison (blockKey h l)

/-- Sets or clears POISON of a block. -/
def Dev.setPoison (d : Dev) (h l : Nat) (p : Bool) : Dev :=
  { d with mem := { d.mem with poison := Sparse.put (fun _ => false) d.mem.poison (blockKey h l) p } }

/-- Clears the symbol errors of a block: it is written with fresh check symbols (R436). -/
def Dev.clearErr (d : Dev) (h l : Nat) : Dev :=
  { d with mem := { d.mem with err := Sparse.put (fun _ => []) d.mem.err (blockKey h l) [] } }

/-- A block is written with fresh check symbols and POISON clear (R437). An injection armed for it corrupts the symbols it
asks for, whose places and error values the spec leaves open, and its GO clears (R436). -/
def Dev.freshBlock (d : Dev) (h l : Nat) : Dev :=
  let d := (d.setPoison h l false).clearErr h l
  match d.mem.inject with
  | none => d
  | some (b, n) =>
    if b ≠ blockKey h l then d
    else
      let p := Config.free d.freeCtr % 67
      let e (k : Nat) : Nat × Nat := ((p + k) % 67, Config.free (d.freeCtr + 1 + k) % 255 + 1)
      let d := d.tookFree (n + 1)
      ({ d with mem := { d.mem with inject := none, err := Sparse.put (fun _ => []) d.mem.err b ((List.range n).map e) } }).set
        F.MEM_INJ_CTRL_GO 0

/-- The data byte of a stripe's block `b` at byte `i`, rebuilt from the other three blocks when its own part is fenced
(R440). -/
def Dev.stripeByte (d : Dev) (pool s b i : Nat) : Byte :=
  let l := d.poolBase pool + 4096 * s + i
  let h := (s % 4 + 1 + b) % 4
  if d.locOk h l then d.cell h l
  else ([0, 1, 2, 3].filter (· ≠ h)).foldl (fun acc h' => acc ^^^ d.cell h' l) 0

/-- The byte at offset `o` of pool `n` as the stacks hold it (0 where a part without parity is lost or poisoned). -/
def Dev.storedByte (d : Dev) (n o : Nat) : Byte :=
  let (h, l) := d.locate n o
  if d.poisoned h l then 0
  else match d.poolForm n with
    | .parity => d.stripeByte n (o / 12288) (o % 12288 / 4096) (o % 4096)
    | _ => if d.locOk h l then d.cell h l else 0

/-- The stripe buffer that holds stripe `s` of pool `n`, if any (R433). -/
def Dev.bufOf? (d : Dev) (n s : Nat) : Option StripeBuf :=
  d.mem.bufs.find? (fun b => b.pool == n && b.stripe == s)

/-- The byte a read of offset `o` of pool `n` returns: from a stripe buffer that holds its granule, else stored. -/
def Dev.poolByte (d : Dev) (n o : Nat) : Byte :=
  match d.poolForm n with
  | .parity =>
    match d.bufOf? n (o / 12288) with
    | some b =>
      match Sparse.get (fun _ => []) b.gran (o % 12288 / 64) with
      | [] => d.storedByte n o
      | g => g.getD (o % 64) 0
    | none => d.storedByte n o
  | _ => d.storedByte n o

/-- `len` bytes of pool `n` from offset `o`; a request past the pool's end returns zeros (R429). -/
def Dev.poolRead (d : Dev) (n o len : Nat) : List Byte :=
  if o + len ≤ d.poolSize n then (List.range len).map (fun i => d.poolByte n (o + i))
  else List.replicate len 0

/-- A little-endian number in a pool. -/
def Dev.poolNat (d : Dev) (n o len : Nat) : Nat := leNat (d.poolRead n o len)

/-- Writes the parity byte of stripe `s` at byte `i` from its three data bytes (R431). -/
def Dev.formParity (d : Dev) (n s i : Nat) : Dev :=
  let l := d.poolBase n + 4096 * s + i
  let p := s % 4
  d.setCell p l (d.cell ((p + 1) % 4) l ^^^ d.cell ((p + 2) % 4) l ^^^ d.cell ((p + 3) % 4) l)

/-- Writes one data byte of stripe `s` with its parity, degraded where a block of the stripe is unavailable (R433,
R440): with its own block unavailable only the parity is formed, with the parity block unavailable only the data is
written, and otherwise new parity = old parity XOR old data XOR new data. -/
def Dev.stripeWrite (d : Dev) (n s b i : Nat) (v : Byte) : Dev :=
  let l := d.poolBase n + 4096 * s + i
  let p := s % 4
  let h := (p + 1 + b) % 4
  let old := d.stripeByte n s b i
  let par := d.cell p l ^^^ old ^^^ v
  (d.setCell h l v).setCell p l par

/-- Writes out the granules of a stripe buffer (R433). -/
def Dev.writeOut (d : Dev) (b : StripeBuf) : Dev :=
  let d := b.gran.foldl (fun d g =>
    let o := b.stripe * 12288 + g.1 * 64
    let (h, l) := d.locate b.pool o
    let d := (d.freshBlock h l).freshBlock (b.stripe % 4) l
    (List.range 64).foldl (fun d i =>
      d.stripeWrite b.pool b.stripe (g.1 / 64) (g.1 % 64 * 64 + i) (g.2.getD i 0)) d) d
  { d with mem := { d.mem with bufs := d.mem.bufs.filter (fun x => !(x.pool == b.pool && x.stripe == b.stripe)) } }

/-- Writes out every stripe buffer (R445). -/
def Dev.drainBuffers (d : Dev) : Dev := d.mem.bufs.foldl Dev.writeOut d

/-- Makes room in hub `q` for another stripe: the least recently filled buffer of a full hub goes first (R433). -/
def Dev.roomInHub (d : Dev) (q : Nat) : Dev :=
  let mine := d.mem.bufs.filter (fun b => b.stripe % 4 == q)
  if mine.length < 128 then d
  else match mine with
    | b :: _ => d.writeOut b
    | [] => d

/-- Holds a whole 64-byte granule of a parity pool in its stripe buffer; a full stripe is written out at once (R433). -/
def Dev.holdGranule (d : Dev) (n s g : Nat) (bytes : List Byte) : Dev :=
  let d := if (d.bufOf? n s).isSome then d else d.roomInHub (s % 4)
  let b := (d.bufOf? n s).getD { pool := n, stripe := s }
  let b := { b with gran := Sparse.put (fun _ => []) b.gran g bytes }
  let rest := d.mem.bufs.filter (fun x => !(x.pool == n && x.stripe == s))
  let d := { d with mem := { d.mem with bufs := rest ++ [b] } }
  if b.gran.length = 192 then d.writeOut b else d

/-- Writes one 64-byte block of pool `n` (block offset `o`, a multiple of 64) with the bytes of `bs` from position `i`
on; other bytes keep what a read returns. A partial write of a poisoned block is discarded (R437). -/
def Dev.writeBlock (d : Dev) (n o i : Nat) (bs : List Byte) : Dev :=
  let (h, l) := d.locate n o
  let whole := i = 0 && bs.length = 64
  if d.poisoned h l && !whole then d
  else
    let old := (List.range 64).map (fun k => d.poolByte n (o + k))
    let new := old.take i ++ bs ++ old.drop (i + bs.length)
    match d.poolForm n with
    | .parity => d.holdGranule n (o / 12288) (o % 12288 / 64) new
    | _ =>
      let d := d.freshBlock h l
      (List.range 64).foldl (fun d k => d.setCell h (l + k) (new.getD k 0)) d

/-- Writes bytes into pool `n` at offset `o`, block by block; `fuel` bounds the blocks. -/
def Dev.writeBlocks : Nat → Dev → Nat → Nat → List Byte → Dev
  | 0, d, _, _, _ => d
  | fuel + 1, d, n, o, bs =>
    if bs.isEmpty then d
    else
      let i := o % 64
      let k := 64 - i
      Dev.writeBlocks fuel (d.writeBlock n (o - i) i (bs.take k)) n (o - i + 64) (bs.drop k)

/-- Writes bytes into pool `n`; a request past the pool's end is discarded (R429). -/
def Dev.poolWrite (d : Dev) (n o : Nat) (bs : List Byte) : Dev :=
  if o + bs.length ≤ d.poolSize n then Dev.writeBlocks (bs.length / 64 + 2) d n o bs else d

/-- Whether `len` bytes of pool `n` from `o` hold a block that reads as poisoned (R437, R442). -/
def Dev.poolPoisoned (d : Dev) (n o len : Nat) : Bool :=
  if (d.mem.poison.isEmpty && !d.flag F.MEM_STATUS_DEGRADED) || len = 0 then false
  else (List.range ((o + len - 1) / 64 - o / 64 + 1)).any (fun i =>
    let (h, l) := d.locate n ((o / 64 + i) * 64)
    d.poisoned h l || (d.poolForm n != .parity && !d.locOk h l))

/-- Pool indices of R426. -/
def poolRaw : Nat := 0
def poolDev : Nat := 1
def poolRef : Nat := 2
def poolOut : Nat := 3
def poolAux : Nat := 4
def poolHost : Nat := 5

/-! ### The keep store (R508-R510) -/

/-- What the keep store holds where nothing was written: the fault-log magic of R508, else 0 (assumption 8). -/
def keepDefault (a : Nat) : Byte :=
  if 0x780000 ≤ a ∧ a < 0x780004 then (bytesLE 4 0x474F4C46).getD (a - 0x780000) 0 else 0

/-- `n` bytes of the keep store at `a`. -/
def Dev.keepRead (d : Dev) (a n : Nat) : List Byte :=
  (List.range n).map (fun i => Sparse.get keepDefault d.keep.bytes (a + i))

/-- A little-endian number of the keep store. -/
def Dev.keepNat (d : Dev) (a n : Nat) : Nat := leNat (d.keepRead a n)

/-- Stores bytes in the keep store from `a` on. -/
def keepStore : Sparse Byte → Nat → List Byte → Sparse Byte
  | m, _, [] => m
  | m, a, b :: rest => keepStore (Sparse.put keepDefault m a b) (a + 1) rest

/-- Writes bytes to the keep store. -/
def Dev.keepWrite (d : Dev) (a : Nat) (bs : List Byte) : Dev :=
  { d with keep := { d.keep with bytes := keepStore d.keep.bytes a bs } }

/-- Adds one to a saturating counter of the keep store (R508, R509): 0 BOOTS, 1 THERMAL_RESTARTS, 2 BROWNOUTS,
3 WARM_RESETS, 4 ENGINE_FENCES, 5 HOLD_ENTRIES. -/
def Dev.keepCount (d : Dev) (k : Nat) : Dev :=
  let a := 0x782010 + 4 * k
  d.keepWrite a (bytesLE 4 (min (d.keepNat a 4 + 1) 0xFFFFFFFF))

end Sys2Proof.Machine
end

