-- ==== Sys2Proof/Machine/Flags.lean ====
section
/-!
DEFINITION. Events, and the flags and lines they set (R504-R509, R57, R465): one operation raises an event, and every
command that reports something calls it.
-/
namespace Sys2Proof.Machine

/-- Severities of R505. -/
def sevInfo : Nat := 0
def sevNotice : Nat := 1
def sevDegraded : Nat := 2
def sevFault : Nat := 3
def sevHalt : Nat := 4

/-- No capture context (R504). -/
def noCtx : Nat := 0xFFFF

/-- A DATA item: its size in bytes and its value (R505). -/
abbrev Item := Nat × Nat

def u8 (v : Nat) : Item := (1, v)
def u16 (v : Nat) : Item := (2, v)
def u32 (v : Nat) : Item := (4, v)
def u64 (v : Nat) : Item := (8, v)
def i32 (v : Int) : Item := (4, toBits 32 v)
def i16 (v : Int) : Item := (2, toBits 16 v)
def i8 (v : Int) : Item := (1, toBits 8 v)

/-- Packs DATA items in order, each aligned to its own size, into 16 bytes padded with 0 (R505). -/
def packItems (items : List Item) : List Byte :=
  sliceBytes
    (items.foldl (fun acc it =>
      let pad := (it.1 - acc.length % it.1) % it.1
      acc ++ List.replicate pad 0 ++ bytesLE it.1 it.2) [])
    0 16

/-- The 32 bytes of an event record (R504). -/
def EventRec.bytes (e : EventRec) : List Byte :=
  bytesLE 8 e.stime ++ bytesLE 2 e.code ++ bytesLE 2 e.source ++ bytesLE 1 e.severity ++ bytesLE 1 e.flags ++
    bytesLE 2 e.context ++ sliceBytes e.data 0 16

/-- Sends an MSI-X vector through EP0 while its link is up. -/
def Dev.sendMsix (d : Dev) (vector : Nat) : Dev := if d.ep0Up then d.emit (.msix vector) else d

/-- `IRQ_N` is asserted (R507, R482). -/
def Dev.irqAsserted (d : Dev) : Bool :=
  d.get F.EVT_IRQ_STATUS_SEV != 0 || d.flag F.PWR_RAIL_STATUS_WARN_ACTIVE

/-- The pin code of `IRQ_N`. -/
def pinIrqN : Nat := 101

/-- A change that may move `IRQ_N` drives the pin when its level changes. -/
def Dev.withIrq (d : Dev) (f : Dev → Dev) : Dev :=
  let d' := f d
  if d.irqAsserted = d'.irqAsserted then d' else d'.pin pinIrqN (b2n (!d'.irqAsserted))

/-- Signals a written record (R507): its bit of `EVT_IRQ_STATUS`, and MSI-X at most once per COALESCE_US. -/
def Dev.signalEvent (d : Dev) (severity : Nat) : Dev :=
  let d := if d.get F.EVT_IRQ_CFG_IRQ_MIN ≤ severity then
      d.withIrq (fun d => d.set F.EVT_IRQ_STATUS_SEV (setBit (d.get F.EVT_IRQ_STATUS_SEV) severity true)) else d
  if d.get F.EVT_IRQ_CFG_MSI_MIN ≤ severity then
    if d.get F.EVT_IRQ_CFG_COALESCE_US = 0 then d.sendMsix (d.get F.EVT_IRQ_CFG_VECTOR)
    else if d.evt.msiBusy then { d with evt := { d.evt with msiWait := true } }
    else { d.sendMsix (d.get F.EVT_IRQ_CFG_VECTOR) with evt := { d.evt with msiBusy := true } }
  else d

/-- Copies a FAULT or HALT record to the fault log, at most 16 in each second since the last cold or pin reset (R509). -/
def Dev.faultLog (d : Dev) (e : EventRec) : Dev :=
  if e.severity < sevFault then d
  else
    let sec := d.elapsed / nsPerS
    let n := if d.evt.logSecond = sec then d.evt.logCount else 0
    let d := { d with evt := { d.evt with logSecond := sec, logCount := min (n + 1) 17 } }
    if n < 16 then
      let next := d.keepNat 0x780004 4
      (d.keepWrite (0x780010 + 32 * (next % 256)) e.bytes).keepWrite 0x780004 (bytesLE 4 (next + 1))
    else
      d.keepWrite 0x780008 (bytesLE 4 (min (d.keepNat 0x780008 4 + 1) 0xFFFFFFFF))

/-- Writes a record to EVENT_RING at EVT_PROD mod 4,096 (R506): on a full ring it overwrites the oldest record, advances
EVT_CONS, counts LOST and carries LOST_BEFORE. -/
def Dev.ringWrite (d : Dev) (e : EventRec) : Dev :=
  let prod := d.get F.EVT_PROD_IDX
  let full := (prod + 65536 - d.get F.EVT_CONS_IDX) % 65536 = 4096
  let e := if full then { e with flags := setBit e.flags 2 true } else e
  let d := if full then (d.bump F.EVT_CONS_IDX).bump F.EVT_STATUS_LOST else d
  let d := d.poolWrite poolAux (d.get F.EVT_RING_BASE_BASE * 256 + 32 * (prod % 4096)) e.bytes
  let d := d.bump F.EVT_PROD_IDX
  (d.faultLog e).signalEvent e.severity

/-- Raises an event (R504): code, severity, SOURCE word, NO_INSTANCE, the capture context, the DATA items. While AUX is
unavailable the record is held on-die, up to 32 of them; one beyond is lost and counted, before step 8 in
`DEV_BOOT_STATUS.EVT_LOST` (R57) and later in `EVT_STATUS.LOST` (R465), and the next record carries LOST_BEFORE. -/
def Dev.raiseFrom (d : Dev) (code severity source : Nat) (noInst : Bool) (ctx : Nat) (items : List Item) : Dev :=
  let flags := b2n (!d.time.everLocked) + 2 * b2n (!d.evt.auxUp) + 4 * b2n d.evt.lostBefore + 8 * b2n noInst
  let e : EventRec :=
    { stime := d.stime, code := code, source := source, severity := severity, flags := flags, context := ctx,
      data := packItems items }
  if d.evt.auxUp then { d with evt := { d.evt with lostBefore := false } }.ringWrite e
  else if d.evt.held.length < 32 then
    { d with evt := { d.evt with held := d.evt.held ++ [e], lostBefore := false } }.set F.EVT_STATUS_HELD
      (d.evt.held.length + 1)
  else
    let d := { d with evt := { d.evt with lostBefore := true } }
    if d.boot.step < 9 then d.addSat F.DEV_BOOT_STATUS_EVT_LOST 1 else d.bump F.EVT_STATUS_LOST

/-- Raises an event of an instance of the block that its code names, or of none. -/
def Dev.raise (d : Dev) (code severity : Nat) (inst : Option Nat) (ctx : Nat) (items : List Item) : Dev :=
  match inst with
  | some i => d.raiseFrom code severity (code / 256 % 64 * 1024 + i % 1024) false ctx items
  | none => d.raiseFrom code severity 0 true ctx items

/-- An event of a block as a whole. -/
def Dev.event (d : Dev) (code severity : Nat) (items : List Item) : Dev := d.raise code severity none noCtx items

/-- An event of an instance. -/
def Dev.eventAt (d : Dev) (code severity inst : Nat) (items : List Item) : Dev :=
  d.raise code severity (some inst) noCtx items

/-- An event of an instance that concerns a capture context. -/
def Dev.eventCtx (d : Dev) (code severity inst ctx : Nat) (items : List Item) : Dev :=
  d.raise code severity (some inst) ctx items

/-- AUX becomes available: the held records are written to EVENT_RING in order (R57). -/
def Dev.flushHeld (d : Dev) : Dev :=
  let held := d.evt.held
  let d := { d with evt := { d.evt with auxUp := true, held := [] } }.set F.EVT_STATUS_HELD 0
  held.foldl Dev.ringWrite d

/-- AUX becomes unavailable: records are held on-die. -/
def Dev.holdEvents (d : Dev) : Dev := { d with evt := { d.evt with auxUp := false } }

/-- The block ID of the block that holds an address (R516). -/
def blockIdOf (a : Nat) : Nat :=
  match a / 0x10000 with
  | 0x00 => 0x01 | 0x01 => 0x02 | 0x02 => 0x03 | 0x03 => 0x04 | 0x04 => 0x05 | 0x08 => 0x06 | 0x10 => 0x07
  | 0x20 => 0x08 | 0x30 => 0x09 | 0x40 => 0x0A | 0x50 => 0x0B | 0x60 => 0x0C | 0x70 => 0x0D | 0x80 => 0x0E
  | 0x90 => 0x0F | 0xA0 | 0xA1 | 0xA2 => 0x10 | 0xB0 => 0x11 | 0xC0 => 0x12 | 0xD0 => 0x13 | 0xE0 => 0x14
  | n => if 0x100 ≤ n ∧ n < 0x180 ∨ 0x200 ≤ n ∧ n < 0x300 then 0x15 else 0

/-- The instance that an address belongs to: the first index of its register, 0 for a register of the block. -/
def instanceOf (a : Nat) : Nat :=
  match regSpec? a with
  | some r => (instancesOff r.dims (a - r.base)).headD 0
  | none => 0

/-- The capture context that a register belongs to, as CONTEXT gives it (R504). -/
def contextOf (a : Nat) : Nat :=
  if 0x201000 ≤ a ∧ a < 0x209000 then (a - 0x201000) / 0x800
  else if 0x301000 ≤ a ∧ a < 0x302000 then (a - 0x301000) / 0x100
  else if 0x401000 ≤ a ∧ a < 0x409000 then (a - 0x401000) / 0x800
  else if 0x600800 ≤ a ∧ a < 0x600900 then (a - 0x600800) / 0x10
  else noCtx

/-- An event of R76 that carries, in SOURCE, the block and instance of the register at `a`. -/
def Dev.eventReg (d : Dev) (code severity a : Nat) : Dev :=
  d.raiseFrom code severity (blockIdOf a * 1024 + instanceOf a % 1024) false (contextOf a) [u32 a]

/-- CFG_NONLIVE (0x0107) for the register at `a` (R58). -/
def Dev.cfgNonlive (d : Dev) (a : Nat) : Dev := d.eventReg 0x0107 sevNotice a

/-- CFG_ZERO (0x0103) for the register at `a` (R75). -/
def Dev.cfgZero (d : Dev) (a : Nat) : Dev := d.eventReg 0x0103 sevFault a

end Sys2Proof.Machine
end

