-- ==== Sys2Proof/Machine/Operands.lean ====
section
/-!
DEFINITION. The operand forms of a register access: what a host write (R58), a record of the image (R49, R59) and a read
(R7, R8) do to each field by its access code and live mark, and the zero categories of R74 and R75.
-/
namespace Sys2Proof.Machine

/-! ### Which instance an address belongs to, and which enable governs it (R75) -/

/-- The register that holds the EN field that governs the instance of the register at `a`; none for a register of a block
as a whole, whose sizes are always checked. -/
def enReg? (a : Nat) : Option Nat :=
  if 0x101000 ≤ a ∧ a < 0x109000 then some (a / 0x1000 * 0x1000)
  else if 0x200100 ≤ a ∧ a < 0x200300 then some (a / 0x40 * 0x40)
  else if 0x201000 ≤ a ∧ a < 0x209000 then some (0x201000 + (a - 0x201000) / 0x800 * 0x800)
  else if 0x301000 ≤ a ∧ a < 0x302000 then some (0x201000 + (a - 0x301000) / 0x100 * 0x800)
  else if 0x401000 ≤ a ∧ a < 0x409000 ∧ 0x200 ≤ (a - 0x401000) % 0x800 then some (a / 0x100 * 0x100)
  else if 0x401000 ≤ a ∧ a < 0x409000 then some (0x201000 + (a - 0x401000) / 0x800 * 0x800)
  else if 0x500800 ≤ a ∧ a < 0x500A00 then some (a / 0x40 * 0x40 + 0x10)
  else if 0x600000 ≤ a ∧ a < 0x600A00 then some 0x600000
  else if 0x700100 ≤ a ∧ a < 0x700300 then some (a / 0x40 * 0x40)
  else if 0x701000 ≤ a ∧ a < 0x709000 then some (a / 0x80 * 0x80)
  else if 0x70A000 ≤ a ∧ a < 0x70A400 then some (a / 0x40 * 0x40)
  else if 0x801000 ≤ a ∧ a < 0x807000 ∧ 0x100 ≤ a % 0x1000 then some (a / 0x40 * 0x40)
  else if 0x801000 ≤ a ∧ a < 0x807000 then some (a / 0x1000 * 0x1000)
  else if 0x807000 ≤ a ∧ a < 0x807800 then some (a / 0x100 * 0x100)
  else if 0xA10000 ≤ a ∧ a < 0xA24000 then some (a / 0x40 * 0x40)
  else if 0xB00100 ≤ a ∧ a < 0xB00118 then some 0xB00100
  else if 0xB01000 ≤ a ∧ a < 0xB01200 then some (a / 0x40 * 0x40 + 0x1C)
  else if 0xB02000 ≤ a ∧ a < 0xB02100 then some (a / 0x20 * 0x20)
  else if 0xC00100 ≤ a ∧ a < 0xC00180 then some (a / 0x40 * 0x40)
  else if 0xC01000 ≤ a ∧ a < 0xC01200 then some (a / 0x40 * 0x40)
  else if 0xC02000 ≤ a ∧ a < 0xC02100 then some (a / 0x20 * 0x20)
  else none

/-- Whether the instance that a register belongs to is enabled: bit 0 of its EN register. -/
def Dev.instEnabled (d : Dev) (a : Nat) : Bool :=
  match enReg? a with
  | some e => (d.word e).field 0 1 = 1
  | none => true

/-- Whether the condition holds under which a zero in the size field at bit `lo` of the register at `a` is invalid, as the
register tables state it. -/
def Dev.sizeApplies (d : Dev) (a lo : Nat) : Bool :=
  d.instEnabled a &&
  (if 0x301000 ≤ a ∧ a < 0x302000 ∧ a % 0x100 = 0x54 then d.flag (F.RAWC_CFG_FF_EN ((a - 0x301000) / 0x100))
   else if 0x401000 ≤ a ∧ a < 0x409000 ∧ 0x200 ≤ (a - 0x401000) % 0x800 ∧ a % 0x100 = 0x98 then
     (d.word (a / 0x100 * 0x100)).field 1 2 = 2
   else if 0x600100 ≤ a ∧ a < 0x600200 then d.flag F.REC_CFG_BACKING
   else if 0x600A00 ≤ a ∧ a < 0x600A10 then
     d.get F.DEV_MODE_MODE = 5 || (d.flag F.DEV_MODE_IN_TRANSITION && d.get F.DEV_MODE_TARGET = 5)
   else if 0x701000 ≤ a ∧ a < 0x709000 ∧ (a % 0x80 = 0x44 ∨ a % 0x80 = 0x4C ∧ lo = 0) then
     (d.word (a / 0x80 * 0x80 + 0x40)).field 0 2 != 0
   else if 0x700100 ≤ a ∧ a < 0x700300 ∧ a % 0x40 = 0x10 ∧ lo = 24 then (d.word a).field 20 2 = 1
   else if 0x701000 ≤ a ∧ a < 0x709000 ∧ (a % 0x80 = 0xC ∨ a % 0x80 = 0x10 ∨ a % 0x80 = 0x14) then
     -- the timing fields of a group's member are ignored (R302)
     (d.word (a / 0x80 * 0x80)).field 7 2 != 1 && (lo != 24 || (d.word a).field 20 2 = 1)
   else if 0x701000 ≤ a ∧ a < 0x709000 ∧ a % 0x80 = 0x48 then (d.word (a / 0x80 * 0x80 + 0x40)).field 0 2 = 2
   else if 0x70A000 ≤ a ∧ a < 0x70A400 ∧ a % 0x40 = 0x14 then (d.word (a / 0x40 * 0x40)).field 4 1 = 1
   else if 0x801000 ≤ a ∧ a < 0x807000 ∧ 0x100 ≤ a % 0x1000 ∧ a % 0x40 = 0x1C then
     (d.word (a / 0x40 * 0x40)).field 1 2 = 1
   else if 0x801000 ≤ a ∧ a < 0x807000 ∧ a % 0x1000 = 0x30 then false
   else if 0x801000 ≤ a ∧ a < 0x805000 ∧ (a % 0x1000 = 0x34 ∨ a % 0x1000 = 0x38) then false
   else if 0xC00100 ≤ a ∧ a < 0xC00180 then (d.word a).field 1 1 = 0
   else true)

/-- Whether the word at `a` holds a zero in a size field that is checked. -/
def Dev.hasZero (d : Dev) (a : Nat) : Bool :=
  (fieldsAt a).any (fun f => f.size && (d.word a).field f.lo f.width == 0 && d.sizeApplies a f.lo)

/-- The registers with size fields that the EN register at `a` governs. -/
def sizeRegsOf (a : Nat) : List Nat :=
  if enReg? a ≠ some a then []
  else if a < 0x109000 then [a + 0x8, a + 0x1C]
  else if a < 0x200300 then [a, a + 4]
  else if a < 0x209000 then
    let n := (a - 0x201000) / 0x800
    [a + 4, a + 8, a + 0xC, a + 0x10] ++
      [0x20, 0x24, 0x28, 0x2C, 0x30, 0x34, 0x3C, 0x40, 0x48, 0x54].map (fun o => 0x301000 + 0x100 * n + o)
  else if a < 0x409000 then [a + 8, a + 0xC, a + 0x18, a + 0x5C, a + 0x98]
  else if a < 0x500A00 then [a, a + 0xC]
  else if a < 0x600A00 then [0x600010, 0x600024, 0x60011C, 0x60015C, 0x60019C, 0x6001DC]
  else if a < 0x700300 then [a + 4, a + 8, a + 0xC, a + 0x10]
  else if a < 0x709000 then [a + 4, a + 8, a + 0xC, a + 0x10, a + 0x14, a + 0x18, a + 0x20, a + 0x24, a + 0x44, a + 0x48, a + 0x4C]
  else if a < 0x70A400 then [a + 4, a + 8, a + 0x10, a + 0x14, a + 0x18]
  else if a < 0x807000 ∧ a % 0x1000 = 0 then [a + 4, a + 8, a + 0xC, a + 0x24, a + 0x28, a + 0x34, a + 0x38]
  else if a < 0x807000 then [a + 8, a + 0x1C]
  else if a < 0x807800 then [a + 8, a + 0xC, a + 0x18]
  else if a < 0xA20000 then []
  else if a < 0xA24000 then [a + 0x18]
  else if a < 0xB00118 then [a + 4, a + 0xC, a + 0x10]
  else if a < 0xB01200 then [a - 0x14]
  else if a < 0xB02100 then [a + 0xC, a + 0x10]
  else [a]

/-- The registers whose size fields are checked whatever is enabled. -/
def sizeRegsAlways : List Nat :=
  [0x10C, 0x10054, 0x20000, 0x100000, 0x300000, 0x300080, 0x700020, 0xD00010, 0xD00020, 0xD00100, 0xD00110, 0xD00120,
   0xD00130, 0xD00140, 0xD00150]

/-- The registers that hold an invalid zero (R75), in rising order without repeats. An instance that is not enabled is
not checked, so only registers that differ from reset can enable one. -/
def Dev.zeroRegs (d : Dev) : List Nat :=
  let cands := sizeRegsAlways ++ (d.regs.words.map (·.1)).flatMap (fun a => if d.instEnabled a then sizeRegsOf a else [])
    ++ [0x600A00, 0x600A0C]
  (cands.filter d.hasZero).eraseDups

/-- Whether a zero in the block of this address sends the device to HOLD (R75): DEV, CLK, PWR, THERM or MEM. -/
def zeroHolds (a : Nat) : Bool :=
  match blockIdOf a with
  | 0x01 | 0x02 | 0x03 | 0x04 | 0x13 => true
  | _ => false

/-! ### Writes -/

/-- The commit group of a register whose shadows need a request to commit (R59): a raster, a colour context or a trigger
schedule. -/
def commitKey (a : Nat) : Option Nat :=
  if 0x401000 ≤ a ∧ a < 0x409000 then some (100 + (a - 0x401000) / 0x800)
  else if 0x801000 ≤ a ∧ a < 0x807000 then some (200 + (a - 0x801000) / 0x1000)
  else if 0x901000 ≤ a ∧ a < 0x901400 then some (200 + (a - 0x901000) / 0x100)
  else if 0xB01000 ≤ a ∧ a < 0xB01200 then some (300 + (a - 0xB01000) / 0x40)
  else none

/-- The word a record's entry leaves in a register (R49): fields of access RW and RWS take the entry's bits, RWL fields
only where `rwl` says so (a base record in BOOT); all others stay. -/
def recordWord (fs : List FieldSpec) (old v : Word) (rwl : Bool) : Word :=
  fs.foldl (fun w f =>
    match f.acc with
    | .rw | .rws => w.setField f.lo f.width (v.field f.lo f.width)
    | .rwl => if rwl then w.setField f.lo f.width (v.field f.lo f.width) else w
    | _ => w) old

/-- Applies one register-list entry (R49, R59). In BOOT the shadow is also the value in effect. -/
def Dev.applyEntry (d : Dev) (inBoot rwl : Bool) (a : Nat) (v : Word) : Dev :=
  let fs := fieldsAt a
  let d := d.setWord a (recordWord fs (d.word a) v rwl)
  if fs.any (fun f => f.acc == .rws) then
    if inBoot then d.latch a
    else match commitKey a with
      | some k => { d with mode := { d.mode with autoLatch := (k :: d.mode.autoLatch.filter (· ≠ k)) } }
      | none => d
  else d

/-- The word a host write leaves in a plain register (R58, R8): live RW and RWS fields take the written bits, except a
checked size field written as zero; W1S sets, W1C clears, WO keeps the written bits. -/
def Dev.hostWord (d : Dev) (a : Nat) (v : Word) : Word :=
  (fieldsAt a).foldl (fun w f =>
    let x := v.field f.lo f.width
    match f.acc with
    | .rw | .rws => if f.live && !(f.size && x == 0 && d.sizeApplies a f.lo) then w.setField f.lo f.width x else w
    | .w1s => w.setField f.lo f.width (w.field f.lo f.width ||| x)
    | .w1c => w.setField f.lo f.width (w.field f.lo f.width &&& (2 ^ f.width - 1 - x))
    | .wo => w.setField f.lo f.width x
    | _ => w) (d.word a)

/-- Whether a host write tries to change a field of access RW, RWS or RWL that is not live (R58). -/
def Dev.changesNonlive (d : Dev) (a : Nat) (v : Word) : Bool :=
  (fieldsAt a).any (fun f =>
    !f.live && (f.acc == .rw || f.acc == .rws || f.acc == .rwl) &&
      v.field f.lo f.width != (d.word a).field f.lo f.width)

/-- Whether a host write tries to put a checked size field to zero (R75). -/
def Dev.zeroesSize (d : Dev) (a : Nat) (v : Word) : Bool :=
  (fieldsAt a).any (fun f =>
    f.live && f.size && (f.acc == .rw || f.acc == .rws) && v.field f.lo f.width == 0 && d.sizeApplies a f.lo)

/-- The size register that refuses a live write of an enable (R75): the first register that the enable governs and that
would hold an invalid zero once the enable is 1. -/
def Dev.enableRefusal (d : Dev) (a : Nat) (w : Word) : Option Nat :=
  let d' := d.setWord a w
  if 0x301000 ≤ a ∧ a < 0x302000 ∧ a % 0x100 = 0 ∧ w.field 4 1 = 1 ∧ (d.word a).field 4 1 = 0 then
    [a + 0x54].find? d'.hasZero
  else if (0x500800 ≤ a ∧ a < 0x500A00 ∧ a % 0x40 = 0x10 ∨ 0xA10000 ≤ a ∧ a < 0xA24000 ∧ a % 0x40 = 0)
      ∧ w.field 0 1 = 1 ∧ (d.word a).field 0 1 = 0 then
    (sizeRegsOf a).find? d'.hasZero
  else none

/-- The bit of the live enable in the register at `a`. -/
def enableBit (a : Nat) : Nat := if 0x301000 ≤ a ∧ a < 0x302000 then 4 else 0

/-- A host write to a register without behaviour of its own (R58, R75). -/
def Dev.plainWrite (d : Dev) (a : Nat) (v : Word) : Dev :=
  let w := d.hostWord a v
  let nonlive := d.changesNonlive a v
  let zero := d.zeroesSize a v
  let refuse := d.enableRefusal a w
  let d := match refuse with
    | some _ => d.setWord a (w.setField (enableBit a) 1 0)
    | none => d.setWord a w
  let d := match refuse with
    | some z => d.cfgZero z
    | none => d
  let d := if zero then d.cfgZero a else d
  if nonlive then d.cfgNonlive a else d

/-! ### Reads -/

/-- The word a host read of a register returns: WO fields read 0 (R8), as do the command masks whose tables say so. -/
def Dev.readWord (d : Dev) (a : Nat) : Word :=
  (fieldsAt a).foldl (fun w f =>
    match f.acc with
    | .wo => w.setField f.lo f.width 0
    | _ => w) (d.word a)

/-! ### Names used by many meanings -/

/-- The modes of R62 by code. -/
def mBoot : Nat := 0
def mBask : Nat := 1
def mPreview : Nat := 2
def mCapture : Nat := 3
def mReview : Nat := 4
def mOffload : Nat := 5
def mHold : Nat := 6
def mBrumate : Nat := 7

/-- The present mode. -/
def Dev.modeCode (d : Dev) : Nat := d.get F.DEV_MODE_MODE

/-- Whether a transition runs. -/
def Dev.inTransition (d : Dev) : Bool := d.flag F.DEV_MODE_IN_TRANSITION

/-- Whether the mode runs sensors: PREVIEW or CAPTURE (R62). -/
def Dev.sensing (d : Dev) : Bool := d.modeCode = mPreview || d.modeCode = mCapture

/-- Whether an instance refused to start at the last mode entry (R75 and the CFG_BAD rules of the blocks). -/
def Dev.isRefused (d : Dev) (enAddr : Nat) : Bool := d.mode.refused.contains enAddr

/-- An instance refuses to start. -/
def Dev.refuse (d : Dev) (enAddr : Nat) : Dev :=
  { d with mode := { d.mode with refused := if d.mode.refused.contains enAddr then d.mode.refused
                                            else d.mode.refused ++ [enAddr] } }

/-! ### Host writes on their way to a register (R56, R61, R66, R465, R469, chapter 19) -/

/-- The register and bit of a gateable instance. -/
def gateBit (block inst : Nat) : Option (Nat × Nat) :=
  match block with
  | 0x07 => if inst < 8 then some (0, inst) else none
  | 0x0E => if inst < 6 then some (0, 8 + inst) else none
  | 0x10 => if inst < 2 then some (0, 14 + inst) else none
  | 0x12 => if inst < 8 then some (0, 16 + inst) else none
  | 0x14 => if inst < 4 then some (0, 24 + inst) else none
  | 0x0F => if inst < 16 then some (1, inst) else none
  | _ => none

/-- Whether an instance is gated. -/
def Dev.gated (d : Dev) (block inst : Nat) : Bool :=
  match gateBit block inst with
  | some (0, b) => bitOf (d.get F.CLK_GATED0_GATED) b
  | some (_, b) => bitOf (d.get F.CLK_GATED1_GATED) b
  | none => false

/-- The block ID and instance whose register lies at `a`, for the instances of R71 and of the table of gateable instances. -/
def instOf (a : Nat) : Option (Nat × Nat) :=
  if 0x101000 ≤ a ∧ a < 0x109000 then some (0x07, (a - 0x101000) / 0x1000)
  else if 0x700800 ≤ a ∧ a < 0x700910 then some (0x0D, (a - 0x700800) / 4)
  else if 0x801000 ≤ a ∧ a < 0x807000 then some (0x0E, (a - 0x801000) / 0x1000)
  else if 0x900100 ≤ a ∧ a < 0x900200 then some (0x0F, (a - 0x900100) / 0x10)
  else if 0xA00100 ≤ a ∧ a < 0xA00200 then some (0x10, (a - 0xA00100) / 0x80)
  else if 0xA00400 ≤ a ∧ a < 0xA00480 then some (0x10, (a - 0xA00400) / 0x40)
  else if 0xC01000 ≤ a ∧ a < 0xC01200 then some (0x12, (a - 0xC01000) / 0x40)
  else if 0x600100 ≤ a ∧ a < 0x600200 then some (0x14, (a - 0x600100) / 0x40)
  else none

/-- The register at `a` belongs to a gated instance (R469). -/
def Dev.gatedAt (d : Dev) (a : Nat) : Bool :=
  match instOf a with
  | some (b, i) => d.gated b i
  | none => false

/-- The register at `a` belongs to the instance in block reset. -/
def Dev.inBlockReset (d : Dev) (a : Nat) : Bool :=
  match d.blockReset with
  | some b => instOf a = some (b.block, b.inst)
  | none => false

/-- The always-on domain alone serves registers: in HOLD with cause CLOCK after the holdover window (R465). -/
def Dev.clockHeld (d : Dev) : Bool := d.modeCode = mHold && d.clk.past

/-- Blocks that the always-on domain serves then: DEV, CLK and EVT. -/
def aonBlock (a : Nat) : Bool := blockIdOf a == 0x01 || blockIdOf a == 0x02 || blockIdOf a == 0x06

/-- A host write of `v` to the register at `a` through `port` (0 EP0, 1 management SPI), whose effect is `f`. It is ignored in
BOOT (R56); in BRUMATE only a mode request through the management SPI port has an effect (R66), and past the holdover window
only that port, for the blocks it serves (R465). During a transition it is queued, at most 64 of them (R61); a mode request is
held by its own rule. A write to an instance in block reset is held, and one to a gated instance ignored. -/
def Dev.gateWrite (d : Dev) (port a : Nat) (v : Word) (f : Dev → Dev) : Dev :=
  let m := d.modeCode
  if m = mBoot then d
  else if m = mBrumate then (if port = 1 ∧ a = R.DEV_MODE_REQ then f d else d)
  else if d.clockHeld && (port != 1 || !aonBlock a) then d
  else if d.inTransition && a != R.DEV_MODE_REQ then
    if d.mode.queued.length < 64 then
      { d with mode := { d.mode with queued := d.mode.queued ++ [{ port := port, addr := a, value := v }] } }
    else d.event 0x0106 sevNotice [u32 a]
  else if d.inBlockReset a then
    { d with blockReset := d.blockReset.map (fun (b : BlockResetSt) =>
        { b with held := b.held ++ [{ port := port, addr := a, value := v }] }) }
  else if d.gatedAt a then d
  else f d

/-- A named host command: a write of `v` to the register at `a` through either port. -/
def State.hostCmd (s : State) (a : Nat) (v : Nat) (f : Dev → Dev) : Host.Outcome State Fault Refusal :=
  s.run (fun d => d.gateWrite 1 a (BitVec.ofNat 32 v) f)

/-- A named host command that writes 1 to `bits` of the register at `a` and its present value to the other fields. -/
def State.hostSet (s : State) (a bits : Nat) (f : Dev → Dev) : Host.Outcome State Fault Refusal :=
  s.run (fun d => d.gateWrite 1 a (d.word a ||| BitVec.ofNat 32 bits) f)

end Sys2Proof.Machine
end

