-- ==== Sys2Proof/Machine/Pins.lean ====
section
/-!
DEFINITION. Names of the output pins in `Output.pin` (chapter 20), and the lines that follow the state.
-/
namespace Sys2Proof.Machine

/-- `GPIO[n]`, n = 0-31. -/
def pinGpio (n : Nat) : Nat := n
/-- `FAULT_N` -/
def pinFaultN : Nat := 100
/-- `CORE_PWR_EN` and `HBM_PWR_EN` -/
def pinCorePwrEn : Nat := 102
def pinHbmPwrEn : Nat := 103
/-- `XSPI_RST_N` -/
def pinXspiRstN : Nat := 104
/-- `THERM_TRIP_N` -/
def pinThermTripN : Nat := 105
/-- `XTRIG[p]` -/
def pinXtrig (p : Nat) : Nat := 110 + p
/-- every output of R531 as a group: level 0 is the safe state -/
def pinAllOutputs : Nat := 200

/-- `FAULT_N` is asserted: BOOT stopped or waiting, HOLD, or a thermal shutdown (R507); or a reset that no reset input and no
brown-out holds, whose outputs are in their safe states (R461, R531). -/
def Dev.faultAsserted (d : Dev) : Bool :=
  (d.modeCode = mBoot && (d.boot.stopped || d.boot.pwrWait || d.boot.refWait)) || d.modeCode = mHold || d.therm.shut ||
    (d.boot.step = 0 && !d.srv.resetLow && d.pwr.brown.isNone)

/-- Drives `CORE_PWR_EN` and `HBM_PWR_EN`; a rail whose enable falls disarms its monitor (R475). -/
def Dev.setRails (d : Dev) (core hbm : Bool) : Dev :=
  let d := if d.pwr.coreEn = core then d else d.pin pinCorePwrEn (b2n core)
  let d := if d.pwr.hbmEn = hbm then d else d.pin pinHbmPwrEn (b2n hbm)
  let d := if core then d else d.setFlag F.PWR_RAIL_STATUS_CORE_ARMED false
  let d := if hbm then d else d.setFlag F.PWR_RAIL_STATUS_HBM_ARMED false
  { d with pwr := { d.pwr with coreEn := core, hbmEn := hbm } }

/-- Drives `FAULT_N` when its level differs from `was`. -/
def Dev.driveFault (d : Dev) (was : Bool) : Dev :=
  if d.faultAsserted = was then d else d.pin pinFaultN (b2n was)

/-- A change that may move `FAULT_N` drives the pin when its level changes. -/
def Dev.withFault (d : Dev) (f : Dev → Dev) : Dev := (f d).driveFault d.faultAsserted

end Sys2Proof.Machine
end

