-- ==== Sys2Proof/Machine/Link.lean ====
section
/-!
DEFINITION. The Krydiper Sensor Link: lanes, markers, training, the back channel, triggers and spare-lane failover
(R77-R121).
-/
namespace Sys2Proof.Machine

/-! ### CRCs, block fields and times -/

/-- One bit step of CRC-8 with polynomial 0x07 (R92). -/
def crc8Step : Nat → Nat → Nat
  | 0, c => c
  | n + 1, c => crc8Step n (if 128 ≤ c then (c * 2 % 256) ^^^ 0x07 else c * 2)

/-- CRC-8 of R92: initial value 0, no reflection, no final XOR. -/
def crc8 (l : List Byte) : Nat := l.foldl (fun c b => crc8Step 8 (c ^^^ b.toNat)) 0

/-- One bit step of CRC-16 with polynomial 0x1021 (R106). -/
def crc16Step : Nat → Nat → Nat
  | 0, c => c
  | n + 1, c => crc16Step n (if 32768 ≤ c then (c * 2 % 65536) ^^^ 0x1021 else c * 2)

/-- CRC-16 of R106: initial value 0xFFFF, no reflection. -/
def crc16 (l : List Byte) : Nat := l.foldl (fun c b => crc16Step 8 (c ^^^ (b.toNat * 256))) 0xFFFF

/-- Byte `i` of a block payload as a number. -/
def blkByte (blk : List Byte) (i : Nat) : Nat := (blk.getD i 0).toNat

/-- A big-endian field of a block payload (R92). -/
def blkBE (blk : List Byte) (i n : Nat) : Nat := beNat (sliceBytes blk i n)

/-- Byte 7 is the CRC-8 of bytes 0-6 (R92). -/
def blkCrcOk (blk : List Byte) : Bool := blkByte blk 7 = crc8 (sliceBytes blk 0 7)

/-- Block time of a lane rate in ps (R79). -/
def blockPs : Nat → Nat
  | 0 => 13200 | 1 => 6600 | 2 => 5280 | 3 => 4125 | _ => 3300

/-- Present device time in ps. -/
def Dev.nowPs (d : Dev) : Nat := d.time.dt * 1000 / 2 ^ 24

/-- The DTIME in ns that an STIME names, in the present era of 2^32 seconds (R383, R384). -/
def Dev.stimeToNs (d : Dev) (t : Nat) : Nat :=
  (dtSec d.time.dt / 2 ^ 32 * 2 ^ 32 + t / 2 ^ 32 % 2 ^ 32) * nsPerS + (t % 2 ^ 32 * nsPerS + 0x80000000) / 2 ^ 32

/-- The STIME of a DTIME in ns. -/
def stimeOfNs (n : Nat) : Nat := n / nsPerS % 2 ^ 32 * 2 ^ 32 + n % nsPerS * 2 ^ 32 / nsPerS

/-! ### Ports -/

/-- The port's state beside its registers. -/
def Dev.port (d : Dev) (p : Nat) : LinkPort := elemAt d.link p {}

/-- Changes the port's state. -/
def Dev.modPort (d : Dev) (p : Nat) (f : LinkPort → LinkPort) : Dev := { d with link := modifyAt d.link p f }

/-- The bond size of port `p` (R85). -/
def Dev.bondSize (d : Dev) (p : Nat) : Nat := 2 ^ (d.get F.KSL_BOND_BOND / 4 ^ p % 4)

/-- The head port of the bond that `p` belongs to. -/
def Dev.bondHead (d : Dev) (p : Nat) : Nat := p / d.bondSize p * d.bondSize p

/-- The ports of the bond that `p` belongs to (R85). They train as one, by the head port's back channel (R86). -/
def Dev.bondPorts (d : Dev) (p : Nat) : List Nat := (List.range (d.bondSize p)).map (d.bondHead p + ·)

/-- Data lanes of a port (R84). -/
def Dev.dataLanes (d : Dev) (p : Nat) : Nat := 2 ^ d.get (F.KSL_CTRL_LANES p)

/-- The link and back channel of a port run (R105): enabled, not refused, in BASK to OFFLOAD. -/
def Dev.portRuns (d : Dev) (p : Nat) : Bool :=
  d.flag (F.KSL_CTRL_EN p) && !d.isRefused (R.KSL_CTRL p) && (mBask ≤ d.modeCode && d.modeCode ≤ mOffload)

/-- Physical lane `k` takes part: a data lane, or the spare while parity is on or a lane was moved to it. -/
def Dev.laneUsed (d : Dev) (p k : Nat) : Bool :=
  if k = 8 then d.flag (F.KSL_CTRL_SPARE_PARITY p) else k < d.dataLanes p

/-- The mask of the lanes in use without block lock. -/
def Dev.unlockedMask (d : Dev) (p : Nat) : Nat :=
  sumNat ((List.range 9).map (fun k =>
    if d.laneUsed p k && !d.flag (F.KSL_LANE_STATUS_BLOCK_LOCK p k) then 2 ^ k else 0))

/-! ### Back channel (R105-R109) -/

/-- A command that is answered (R106). -/
def bcAnswered (cmd : Nat) : Bool := cmd != 5 && cmd != 6

/-- Priority of a command: LANE_MOVE, then EXP_SET, then the others (R109). -/
def bcPrio (cmd : Nat) : Nat := if cmd = 4 then 0 else if cmd = 3 then 1 else 2

/-- The queue with a frame put behind those of its priority or a higher one (R109). -/
def bcInsert : List BcFrame → BcFrame → List BcFrame
  | [], f => [f]
  | g :: rest, f => if bcPrio f.cmd < bcPrio g.cmd then f :: g :: rest else g :: bcInsert rest f

/-- An exposure set goes out: its context's set is SENT (R149). -/
def Dev.expSent (d : Dev) (n : Nat) : Dev :=
  let l : List ExpSet := elemAt d.exps n []
  if l.any (fun e => e.state == 1) then
    { d with exps := setAt d.exps n (l.map (fun (e : ExpSet) => if e.state = 1 then { e with state := 2 } else e)) }.set
      (F.CAP_EXP_STATUS_STATE n) 2
  else d

/-- Sends the queued frames in their order. A frame that is answered joins those that wait for their answers; nothing in
R105-R109 makes the next frame wait for it. -/
def Dev.bcPump : Nat → Dev → Nat → Dev
  | 0, d, _ => d
  | fuel + 1, d, p =>
    match (d.port p).bcQueue with
    | f :: rest =>
      let d := (d.emit (.bcFrame p f.cmd f.tag f.payload)).modPort p (fun lp =>
        { lp with bcQueue := rest, bcOut := if bcAnswered f.cmd then lp.bcOut ++ [f] else lp.bcOut })
      let d := match f.ctx with
        | some n => d.expSent n
        | none => d
      Dev.bcPump fuel d p
    | [] => d

/-- Queues a back-channel command with the port's next tag. -/
def Dev.bcSend (d : Dev) (p cmd : Nat) (payload : List Byte) (ctx : Option Nat) (host : Bool) : Dev :=
  let f : BcFrame := { cmd := cmd, tag := (d.port p).bcTag, payload := payload, ctx := ctx, host := host }
  let d := d.modPort p (fun lp =>
    { lp with bcTag := (lp.bcTag + 1) % 256, bcQueue := bcInsert lp.bcQueue f })
  if d.portRuns p then Dev.bcPump ((d.port p).bcQueue.length + 1) d p else d

/-- A frame that waited is answered or given up. -/
def Dev.bcDone (d : Dev) (p : Nat) (f : BcFrame) : Dev :=
  d.modPort p (fun lp => { lp with bcOut := lp.bcOut.erase f })

/-- The waiting frame of a port with this tag (R97, R106). -/
def Dev.bcWaiting (d : Dev) (p tag : Nat) : Option BcFrame := (d.port p).bcOut.find? (fun f => f.tag == tag)

/-- Wakes the head (R102 step 7). -/
def Dev.bcWake (d : Dev) (p : Nat) : Dev := d.bcSend p 7 [] none false

/-! ### Training (R102) -/

/-- The receivers of a port start from scratch for training (R102 step 1). -/
def Dev.trainReset (d : Dev) (p : Nat) : Dev :=
  let d := (List.range 9).foldl (fun d k =>
    (((d.set (F.KSL_LANE_STATUS_CTLE_DB p k) 9).set (F.KSL_LANE_DFE_DFE p k) 0).setFlag
      (F.KSL_LANE_STATUS_BLOCK_LOCK p k) false)) d
  let d := d.modPort p (fun lp =>
    { lp with burst := false, burstFirst := none, lanes := List.replicate 9 {}, failed := none, moveTo := none, moveTries := 0 })
  let d := ((d.setFlag (F.KSL_STATUS_LINK_UP p) false).setFlag (F.KSL_STATUS_TRAINING p) true).setFlag
    (F.KSL_STATUS_IN_EI p) false
  (d.setFlag (F.KSL_STATUS_REBUILDING p) false).set (F.KSL_STATUS_SKEW_NS p) 0

/-- Full training of a port starts, and with it that of its whole bond (R102 step 1, R86). -/
def Dev.startTraining (d : Dev) (p : Nat) : Dev :=
  let h := d.bondHead p
  if !d.portRuns h then d.setFlag (F.KSL_CTRL_RETRAIN p) false
  else
    let d := (d.bondPorts h).foldl Dev.trainReset d
    let d := d.modPort h (fun lp => { lp with train := 1, trainFrom := d.elapsed })
    (d.bump (F.KSL_EVTCNT_TRAININGS h)).emit (.link h 0)

/-! ### Failover (R115-R120) -/

/-- Marker period of the port in ps (R79, R88). -/
def Dev.markerPs (d : Dev) (p : Nat) : Nat := 16384 * blockPs (d.get (F.KSL_CTRL_RATE p))

/-- The count of the first marker at least 10 µs after the K29.7 of a LANE_MOVE sent now (R118); its frame takes nine
characters of 8 ns. -/
def Dev.moveMarker (d : Dev) (p : Nat) : Nat :=
  let due := d.nowPs + 72000 + 10000000
  let from_ := (d.port p).markerAt
  let k := (due - from_ + d.markerPs p - 1) / d.markerPs p
  (d.get (F.KSL_STATUS_MARKER_COUNT p) + max k 1) % 256

/-- Sends LANE_MOVE for logical lane `l` (R118). -/
def Dev.sendMove (d : Dev) (p l : Nat) : Dev :=
  let m := d.moveMarker p
  let d := d.modPort p (fun lp => { lp with moveTo := some m, moveTries := lp.moveTries + 1 })
  d.bcSend p 4 (bytesBE 1 l ++ bytesBE 1 m) none false

/-- A physical lane fails (R115): cause 1 lock, 2 BIP (R121 names them in this order; the manual numbers such causes from 1).
With parity running on lane 8 and no lane moved or rebuilt yet, the port rebuilds the lane and moves it to the spare. -/
def Dev.laneFail (d : Dev) (p k cause : Nat) : Dev :=
  let l := d.get (F.KSL_LANE_STATUS_CARRIES p k)
  let d := d.eventAt 0x0701 sevDegraded p [u8 k, u8 l, u8 cause]
  if d.flag (F.KSL_CTRL_SPARE_PARITY p) && d.flag (F.KSL_LANE_STATUS_BLOCK_LOCK p 8) && k < 8 && (d.port p).failed.isNone
      && d.get (F.KSL_STATUS_SPARE_CARRIES p) = 8 then
    let d := (d.modPort p (fun lp => { lp with failed := some l, moveTries := 0 })).setFlag (F.KSL_STATUS_REBUILDING p)
      true
    d.sendMove p l
  else d

/-- A lane is already the failed one or its stream was moved away. -/
def Dev.laneGone (d : Dev) (p k : Nat) : Bool :=
  let l := d.get (F.KSL_LANE_STATUS_CARRIES p k)
  (k < 8 && (d.port p).failed = some l) || (k < 8 && d.get (F.KSL_STATUS_SPARE_CARRIES p) = l)

/-! ### The commands of the line -/

/-- BLOCK_LOCK_GAINED (R83). -/
def execBlockLockGained (p : Fin 8) (lane : Fin 9) (s : State) : Host.Outcome State Fault Refusal :=
  s.run (fun d => (d.setFlag (F.KSL_LANE_STATUS_BLOCK_LOCK p lane) true).modPort p (fun lp =>
    { lp with lanes := setAt lp.lanes lane {} }))

/-- BLOCK_LOCK_LOST (R83, R115): `invalid` headers are counted, and a lane of a working link fails. -/
def execBlockLockLost (p : Fin 8) (lane : Fin 9) (invalid : Nat) (s : State) : Host.Outcome State Fault Refusal :=
  s.run (fun d =>
    let had := d.flag (F.KSL_LANE_STATUS_BLOCK_LOCK p lane)
    let d := (d.add (F.KSL_LANE_ERR_SYNC_ERR p lane) invalid).setFlag (F.KSL_LANE_STATUS_BLOCK_LOCK p lane) false
    if had && d.flag (F.KSL_STATUS_LINK_UP p) && !d.flag (F.KSL_STATUS_IN_EI p) && !(d.port p).burst
        && d.laneUsed p lane && !d.laneGone p lane then
      d.laneFail p lane 1
    else d)

/-- KSL_DESKEW_FAIL (R91): the event, the count, and full training. -/
def Dev.deskewFail (d : Dev) (p lanes skew : Nat) : Dev :=
  ((d.eventAt 0x0705 sevFault p [u16 lanes, u32 skew]).bump (F.KSL_EVTCNT_DESKEW_FAILS p)).startTraining p

/-- The relock check at the second burst marker (R101). -/
def Dev.relockCheck (d : Dev) (p : Nat) : Dev :=
  let d := (d.modPort p (fun lp => { lp with burst := false, burstFirst := none })).setFlag (F.KSL_STATUS_IN_EI p) false
  let m := d.unlockedMask p
  if m = 0 then d
  else
    let d := (d.eventAt 0x0703 sevNotice p [u16 m]).bump (F.KSL_EVTCNT_RELOCK_FAIL p)
    match (List.range 9).filter (fun k => bitOf m k) with
    | [k] =>
      if d.flag (F.KSL_CTRL_SPARE_PARITY p) then
        if d.laneGone p k then d else d.laneFail p k 1
      else d.startTraining p
    | _ => d.startTraining p

/-- The check of a pending move on a marker of lane 8 with count `c` that carries `carried` (R119). -/
def Dev.moveCheck (d : Dev) (p c carried : Nat) : Dev :=
  match (d.port p).moveTo, (d.port p).failed with
  | some m, some l =>
    if signed 8 (c + 256 - m) < 0 then d
    else if carried = l then
      let d := d.modPort p (fun lp => { lp with moveTo := none, failed := none })
      let d := (d.set (F.KSL_STATUS_SPARE_CARRIES p) l).setFlag (F.KSL_STATUS_REBUILDING p) false
      d.eventAt 0x0702 sevDegraded p [u8 l, u8 m]
    else if (d.port p).moveTries < 3 then d.sendMove p l
    else (d.modPort p (fun lp => { lp with moveTo := none })).eventAt 0x0708 sevFault p [u8 l]
  | _, _ => d

/-- The BIP check of a lane (R90, R115): `mismatch` joins the lane's history of WINDOW markers. -/
def Dev.bipCheck (d : Dev) (p k : Nat) (mismatch : Bool) : Dev :=
  let d := if mismatch then d.bump (F.KSL_LANE_ERR_BIP_ERR p k) else d
  let limit := d.get (F.KSL_ERR_CFG_BIP_LIMIT p)
  let hist := (mismatch :: (elemAt (d.port p).lanes k {}).bip).take (d.get (F.KSL_ERR_CFG_WINDOW p))
  let d := d.modPort p (fun lp => { lp with lanes := modifyAt lp.lanes k (fun x => { x with bip := hist }) })
  if limit != 0 && limit < (hist.filter id).length && d.flag (F.KSL_STATUS_LINK_UP p) && d.laneUsed p k
      && !d.laneGone p k then
    d.laneFail p k 2
  else d

/-- ALIGNMENT_MARKER (R88-R91, R101, R119): physical lane `lane` of port `p` receives the marker payload `blk`; `bip` is
the BIP-8 the receiver computed since the previous marker, `skewNs` the largest lane-to-lane skew it measured, `invalid`
the invalid sync headers seen since then. A block whose complement bytes disagree is no marker. -/
def execAlignmentMarker (p : Fin 8) (lane : Fin 9) (blk : List Byte) (bip skewNs invalid : Nat) (s : State) :
    Host.Outcome State Fault Refusal :=
  s.run (fun d =>
    let d := d.add (F.KSL_LANE_ERR_SYNC_ERR p lane) invalid
    let c := blkByte blk 3
    if blkByte blk 0 ≠ 0xA5 ∨ blkByte blk 4 + blkByte blk 5 ≠ 255 ∨ c + blkByte blk 7 ≠ 255 then d
    else
      let carried := blkByte blk 1 % 16
      let prev := (elemAt (d.port p).lanes lane {}).last
      let d := (d.modPort p (fun lp =>
        { lp with markerAt := d.nowPs, lanes := modifyAt lp.lanes lane (fun x => { x with last := some c }) })).set
          (F.KSL_STATUS_MARKER_COUNT p) c
      let d := d.set (F.KSL_LANE_STATUS_CARRIES p lane) carried
      let d := d.set (F.KSL_STATUS_SKEW_NS p) (max (d.get (F.KSL_STATUS_SKEW_NS p)) (min skewNs 1023))
      let d := if prev.isSome then d.bipCheck p lane (blkByte blk 4 != bip % 256) else d
      let countBad := match prev with
        | some x => c != (x + 1) % 256
        | none => false
      if countBad || 72 * blockPs (d.get (F.KSL_CTRL_RATE p)) < skewNs * 1000 then
        if d.flag (F.KSL_STATUS_LINK_UP p) then d.deskewFail p (2 ^ lane.val) (min skewNs 1023) else d
      else
        let d := if lane.val = 8 then d.moveCheck p c carried else d
        match (d.port p).burst, (d.port p).burstFirst with
        | true, none => d.modPort p (fun lp => { lp with burstFirst := some c })
        | true, some f => if f = c then d else d.relockCheck p
        | false, _ => d)

/-- ELECTRICAL_IDLE_ENTRY (R98): the head stops driving; the lanes lose their lock and keep their equalisers. -/
def execElectricalIdleEntry (p : Fin 8) (s : State) : Host.Outcome State Fault Refusal :=
  s.run (fun d =>
    if d.flag (F.KSL_STATUS_LINK_UP p) then
      let d := (List.range 9).foldl (fun d k => d.setFlag (F.KSL_LANE_STATUS_BLOCK_LOCK p k) false) d
      (d.setFlag (F.KSL_STATUS_IN_EI p) true).modPort p (fun lp => { lp with burst := false, burstFirst := none })
    else d)

/-- TRN_BLOCK (R99, R100, R102): the first TRN block after idle opens the exit burst; in training it starts adaptation. -/
def execTrnBlock (p : Fin 8) (_lane : Fin 9) (blk : List Byte) (s : State) : Host.Outcome State Fault Refusal :=
  s.run (fun d =>
    if blkByte blk 0 ≠ 0x87 then d
    else if (d.port p).train = 2 then d.modPort p (fun lp => { lp with train := 4 })
    else if d.flag (F.KSL_STATUS_IN_EI p) && !(d.port p).burst then
      d.modPort p (fun lp => { lp with burst := true, burstFirst := none })
    else d)

/-- KSL_RETRAIN (R102). -/
def execKslRetrain (p : Fin 8) (s : State) : Host.Outcome State Fault Refusal :=
  s.hostSet (R.KSL_CTRL p) (2 ^ 16) (fun d => (d.setFlag (F.KSL_CTRL_RETRAIN p) true).startTraining p)

/-- TRAIN_REQ_SEND (R102 step 2). -/
def execTrainReqSend (p : Fin 8) (s : State) : Host.Outcome State Fault Refusal :=
  s.run (fun d =>
    if (d.port p).train = 1 then
      ((d.modPort p (fun lp => { lp with train := 2 })).emit (.link p 1)).bcSend p 5 [] none false
    else d)

/-- The equaliser setting that adaptation leaves on a lane: a CTLE of 0-18 dB and DFE taps, both free values (R103). -/
def Dev.adaptLane (d : Dev) (p k : Nat) : Dev :=
  let d := (d.set (F.KSL_LANE_STATUS_CTLE_DB p k) (d.free % 19)).tookFree 1
  (d.set (F.KSL_LANE_DFE_DFE p k) (d.free % 2 ^ 30)).tookFree 1

/-- The lanes of a port after training (R102 step 4, R120): each carries its own logical lane, the spare parity. Where the
lanes report their block locks one by one (R83) and exactly one of a port with parity never locked, that lane did not train,
and its stream stays on the spare. -/
def Dev.lanesTrained (d : Dev) (p skewNs : Nat) : Dev :=
  let spare := d.flag (F.KSL_CTRL_SPARE_PARITY p)
  let dead := (List.range 9).filter (fun k => spare && d.unlockedMask p == 2 ^ k)
  let d := (List.range 9).foldl (fun d k =>
    let d := d.set (F.KSL_LANE_STATUS_CARRIES p k) k
    if d.laneUsed p k && !dead.contains k then (d.setFlag (F.KSL_LANE_STATUS_BLOCK_LOCK p k) true).adaptLane p k
    else d) d
  let d := (d.set (F.KSL_STATUS_SPARE_CARRIES p) (if spare then 8 else 15)).set (F.KSL_STATUS_SKEW_NS p) (min skewNs 1023)
  match dead with
  | [k] => if k = 8 then d else (d.set (F.KSL_STATUS_SPARE_CARRIES p) k).set (F.KSL_LANE_STATUS_CARRIES p 8) k
  | _ => d

/-- TRAINING_LOCK_DONE (R102 steps 4-6, R120): every lane is locked and deskewed; TRAIN_DONE goes out and the echo
measurement starts. -/
def execTrainingLockDone (p : Fin 8) (skewNs : Nat) (s : State) : Host.Outcome State Fault Refusal :=
  s.run (fun d =>
    if (d.port p).train = 2 ∨ (d.port p).train = 4 then
      let d := (d.bondPorts p).foldl (fun d q => d.lanesTrained q skewNs) d
      let d := (d.emit (.link p 2)).bcSend p 6 [] none false
      (d.modPort p (fun lp => { lp with train := 6 })).emit (.trigger p 0xFF 0 d.nowPs)
    else d)

/-- KSL_TRAIN_FAIL (R102): training has not ended in 2 ms. -/
def execKslTrainFail (p : Fin 8) (s : State) : Host.Outcome State Fault Refusal :=
  s.run (fun d =>
    if (d.port p).train = 0 then d
    else
      let m := d.unlockedMask p
      let d := d.modPort p (fun lp => { lp with train := 0 })
      let d := (d.bondPorts p).foldl (fun d q =>
        ((d.setFlag (F.KSL_STATUS_TRAINING q) false).setFlag (F.KSL_STATUS_LINK_UP q) false).setFlag
          (F.KSL_CTRL_RETRAIN q) false) d
      d.eventAt 0x070A sevFault p [u16 m])

/-! ### Control blocks from the head (R92, R96, R97) -/

/-- What a control block does that arrives on a port: a block whose CRC-8 fails is discarded and counted, one of another
type or subtype than named is not this command's. -/
def Dev.ctrlBlock (d : Dev) (p : Nat) (blk : List Byte) (sub : Nat) (f : Dev → Dev) : Dev :=
  if !blkCrcOk blk then d.bump (F.KSL_ERRCNT_HDR_CRC_ERR p)
  else if blkByte blk 0 = 0x66 ∧ blkByte blk 1 = sub then f d
  else d

/-- CTRL_STATUS (R97): bytes 3-6 of the block are kept. -/
def execCtrlStatus (p : Fin 8) (blk : List Byte) (s : State) : Host.Outcome State Fault Refusal :=
  s.run (fun d => d.ctrlBlock p blk 1 (fun d => d.set (F.KSL_SENSOR_STATUS_STATUS p) (blkBE blk 3 4)))

/-- RD_DATA (R97, R106): the word that a REG_RD asked for. -/
def execRdData (p : Fin 8) (blk : List Byte) (s : State) : Host.Outcome State Fault Refusal :=
  s.run (fun d => d.ctrlBlock p blk 2 (fun d =>
    match d.bcWaiting p (blkByte blk 2) with
    | some f =>
      if f.cmd = 2 then
        let d := if f.host then
            ((d.set (F.KSL_BC_DATA_DATA p) (blkBE blk 3 4)).set (F.KSL_BC_CTRL_RESULT p) 0).setFlag
              (F.KSL_BC_CTRL_GO p) false else d
        d.bcDone p f
      else d
    | none => d))

/-- Marks the exposure set that a frame carried as answered or as never answered (R151). -/
def Dev.expAnswer (d : Dev) (n sid : Nat) (answered : Bool) : Dev :=
  { d with exps := modifyAt d.exps n (fun l => l.map (fun e =>
      if e.sid = sid ∧ e.state ≥ 2 then { e with answered := answered, lost := !answered } else e)) }

/-- ACK (R97, R106, R108): the frame with the block's tag is answered; BC_CTRL reports 0 for OK and 1 for any other result.
An OK for a read is followed by its RD_DATA, which answers it. -/
def execAck (p : Fin 8) (blk : List Byte) (s : State) : Host.Outcome State Fault Refusal :=
  s.run (fun d => d.ctrlBlock p blk 3 (fun d =>
    match d.bcWaiting p (blkByte blk 2) with
    | some f =>
      if f.cmd = 2 ∧ blkByte blk 3 = 0 then d
      else
        let d := if f.host then
            (d.set (F.KSL_BC_CTRL_RESULT p) (if blkByte blk 3 = 0 then 0 else 1)).setFlag (F.KSL_BC_CTRL_GO p) false
          else d
        let d := match f.ctx with
          | some n => d.expAnswer n (beNat (f.payload.take 2)) true
          | none => d
        d.bcDone p f
    | none => d))

/-- LANE_ACK (R97, R118): the head has moved a lane. The port itself checks the move on lane 8's markers (R119). -/
def execLaneAck (p : Fin 8) (blk : List Byte) (s : State) : Host.Outcome State Fault Refusal :=
  s.run (fun d => d.ctrlBlock p blk 5 (fun d =>
    d.modPort p (fun lp => { lp with laneAck := some (blkByte blk 2, blkByte blk 3) })))

/-! ### Host access to sensor registers -/

/-- A BC_CTRL write with GO: REG_WR of BC_DATA, or REG_RD of one word, at BC_ADDR (R106). A GO while one runs is void. -/
def Dev.bcGo (d : Dev) (p : Nat) (read : Bool) : Dev :=
  if d.flag (F.KSL_BC_CTRL_GO p) then d
  else
    let d := (d.setFlag (F.KSL_BC_CTRL_READ p) read).setFlag (F.KSL_BC_CTRL_GO p) true
    let addr := bytesBE 4 (d.get (F.KSL_BC_ADDR_ADDR p))
    if read then d.bcSend p 2 (addr ++ bytesBE 1 1) none true
    else d.bcSend p 1 (addr ++ bytesBE 4 (d.get (F.KSL_BC_DATA_DATA p))) none true

/-- BC_REG_WR (R106). -/
def execBcRegWr (p : Fin 8) (s : State) : Host.Outcome State Fault Refusal :=
  s.hostCmd (R.KSL_BC_CTRL p) 1 (fun d => d.bcGo p false)

/-- BC_REG_RD (R106). -/
def execBcRegRd (p : Fin 8) (s : State) : Host.Outcome State Fault Refusal :=
  s.hostCmd (R.KSL_BC_CTRL p) 3 (fun d => d.bcGo p true)

/-- CAP_EXP_UNANSWERED for a lost set whose APPLY_FSEQ is known (R151). -/
def Dev.expLostEvent (d : Dev) (n : Nat) (e : ExpSet) : Dev :=
  d.eventCtx 0x0809 sevNotice n n [u16 e.sid, u32 e.apply]

/-- An EXP_SET was never answered (R151). -/
def Dev.expUnanswered (d : Dev) (n sid : Nat) : Dev :=
  let d := d.expAnswer n sid false
  let d := if d.get (F.CAP_EXP_STATUS_SID n) = sid then d.set (F.CAP_EXP_STATUS_STATE n) 4 else d
  match (elemAt d.exps n []).find? (fun e => e.sid == sid && e.state == 3) with
  | some e => d.expLostEvent n e
  | none => d

/-- BC_ANSWER_TIMEOUT (R108): the frame that has waited longest is resent with its tag, at most three times; then the
command is given up. -/
def execBcAnswerTimeout (p : Fin 8) (s : State) : Host.Outcome State Fault Refusal :=
  s.run (fun d =>
    match (d.port p).bcOut with
    | [] => d
    | f :: rest =>
      if f.resends < 3 then
        (d.modPort p (fun lp => { lp with bcOut := rest ++ [{ f with resends := f.resends + 1 }] })).emit
          (.bcFrame p f.cmd f.tag f.payload)
      else
        let d := (d.eventAt 0x0706 sevNotice p [u8 f.cmd, u8 f.tag]).bump (F.KSL_EVTCNT_BC_TIMEOUTS p)
        let d := if f.host then (d.set (F.KSL_BC_CTRL_RESULT p) 2).setFlag (F.KSL_BC_CTRL_GO p) false else d
        let d := match f.ctx with
          | some n => d.expUnanswered n (beNat (f.payload.take 2))
          | none => d
        d.bcDone p f)

/-! ### Eye monitor (R104) -/

/-- EYE_MEASURE (R104). -/
def execEyeMeasure (p : Fin 8) (lane : Fin 9) (s : State) : Host.Outcome State Fault Refusal :=
  s.hostSet (R.KSL_LANE_EYE p lane) (2 ^ 20) (fun d => d.setFlag (F.KSL_LANE_EYE_GO p lane) true)

/-- EYE_MEASURE_DONE (R104): `errors` disagreements were counted. -/
def execEyeMeasureDone (p : Fin 8) (lane : Fin 9) (errors : Nat) (s : State) : Host.Outcome State Fault Refusal :=
  s.run (fun d =>
    if d.flag (F.KSL_LANE_EYE_GO p lane) then
      (d.set (F.KSL_LANE_EYE_RESULT_ERRORS p lane) errors).setFlag (F.KSL_LANE_EYE_GO p lane) false
    else d)

/-! ### Trigger launch (R110, R113, R114) -/

/-- The lead of a back-channel trigger in ps (R113). -/
def Dev.trigLead (d : Dev) (p : Nat) : Int :=
  ((d.get (F.KSL_TRIG_CAL_ONE_WAY p) : Int) + d.get (F.KSL_TRIG_LAT_TRIG_LAT p) +
    signed 12 (d.get (F.KSL_TRIG_LAT_TRIG_ADJ p))) * 250

/-- The boundary that ends K28.3, and FINE, for a launch at `tx` ps with the port's character phase (R113). -/
def launchAt (phase : Nat) (tx : Int) : Int × Nat :=
  let off := (tx - (phase % 8000 : Nat)) % 8000
  let b := tx - off
  let fine := ((off + 250) / 500).toNat
  if fine = 16 then (b + 8000, 0) else (b, fine)

/-- Queues the trigger of a target (ns of DTIME) on a port (R113, R114): the answer says whether the back channel refused
it as too late. -/
def Dev.queueTrigger (d : Dev) (p target plan : Nat) : Dev × Bool :=
  let src := d.get (F.KSL_CTRL_TRIG_SRC p)
  let lp := d.port p
  let (b, fine) := launchAt (Config.charPhase p) ((target : Int) * 1000 - d.trigLead p)
  let late := src != 1 && (match lp.trigEnd with
    | some e => b < (e : Int) + 24000
    | none => false)
  if late then (d.eventAt 0x070B sevNotice p [u64 (stimeOfNs target)], true)
  else
    let ord := lp.trigOrd
    let rise := ((target : Int) * 1000 - ((d.get (F.KSL_TRIG_LAT_TRIG_LAT p) : Int) +
      signed 12 (d.get (F.KSL_TRIG_LAT_TRIG_ADJ p))) * 250).toNat / 500 * 500
    let t : TrigSeq := { bound := b.toNat, id := plan % 4 + ord % 32 * 4, fine := fine, ord := ord }
    (d.modPort p (fun lp =>
      { lp with
        trigOrd := ord + 1
        trigQueue := if src != 1 then lp.trigQueue ++ [t] else lp.trigQueue
        trigEnd := if src != 1 then some (b.toNat + 16000) else lp.trigEnd
        xtrigQueue := if src != 0 then lp.xtrigQueue ++ [(rise, ord)] else lp.xtrigQueue }), false)

end Sys2Proof.Machine
end

