-- ==== Sys2Proof/Machine/RawMath.lean ====
section
/-!
DEFINITION. The arithmetic of raw corrections: black clamp, linearisation, concealment, merge and K16 (R157-R172).
-/
namespace Sys2Proof.Machine

/-- Division rounding half away from zero, for a positive divisor. -/
def roundHalfAway (n : Int) (d : Nat) : Int :=
  if d = 0 then 0
  else if 0 ≤ n then (2 * n + d) / (2 * (d : Int)) else -((2 * -n + d) / (2 * (d : Int)))

/-- Arithmetic right shift. -/
def sar (x : Int) (n : Nat) : Int := x / (2 ^ n : Int)

/-- The largest `r` with `r * r ≤ n`: one bit of the root per step of `k`. -/
def isqrtGo : Nat → Nat → Nat → Nat
  | 0, _, r => r
  | k + 1, n, r =>
    let t := r + 2 ^ k
    isqrtGo k n (if t * t ≤ n then t else r)

/-- Integer square root of a 64-bit number, truncating (R170). -/
def isqrt (n : Nat) : Nat := isqrtGo 33 n 0

/-- Bits of a depth code (R92). -/
def depthBits (c : Nat) : Nat := 10 + 2 * c

/-- The s24 clamp. -/
def s24 (x : Int) : Int := clampInt x (-8388608) 8388607

/-- The CFA colour (0 R, 1 Gr, 2 Gb, 3 B) at (x, y), with `cfa` the colour at (0, 0) (R13). -/
def cfaAt (cfa x y : Nat) : Nat := ((cfa % 2 + x) % 2) + 2 * ((cfa / 2 + y) % 2)

/-- Pixel codes of a line from its bytes (R94): `n` pixels of `d` bits, little-endian. -/
def unpackPixels (bytes : List Byte) (d n : Nat) : List Nat :=
  (List.range n).map (fun m => leAt bytes (m * d / 8) 4 / 2 ^ (m * d % 8) % 2 ^ d)

/-! ### Clamp and linearisation (R161-R163) -/

/-- Everything of a context that steps 1-3 use, read from its registers. -/
structure RawcCfg where
  width : Nat
  height : Nat
  depth : Nat
  readouts : Nat
  cfa : Nat
  obL : Nat
  obR : Nat
  obShift : Nat
  blackLevel : Nat
  pedestal : Nat
  sat : List Nat
  na : List Nat
  nb : List Nat
  motionK : Nat
  k16a : Nat
  k16b : Nat
  k16black : Nat
  conceal : Bool

/-- The RAWC settings of context `n`. -/
def Dev.rawcCfg (d : Dev) (n : Nat) : RawcCfg :=
  { width := d.get (F.CAP_GEOM_WIDTH n), height := d.get (F.CAP_GEOM_HEIGHT n), depth := d.get (F.CAP_FMT_DEPTH n)
    readouts := d.get (F.CAP_FMT_READOUTS n), cfa := d.get (F.CAP_FMT_CFA n), obL := d.get (F.RAWC_OB_OB_LEFT n)
    obR := d.get (F.RAWC_OB_OB_RIGHT n), obShift := d.get (F.RAWC_OB_OB_SHIFT n)
    blackLevel := d.get (F.RAWC_BLACK_BLACK_LEVEL n), pedestal := d.get (F.RAWC_BLACK_PEDESTAL n)
    sat := (List.range 3).map (fun r => d.get (F.RAWC_SAT_SAT n r))
    na := (List.range 3).map (fun r => d.get (F.RAWC_NOISE_A_A n r))
    nb := (List.range 3).map (fun r => d.get (F.RAWC_NOISE_B_B_Q16 n r))
    motionK := d.get (F.RAWC_MERGE_MOTION_K n), k16a := d.get (F.RAWC_K16_A_A n), k16b := d.get (F.RAWC_K16_B_B_Q16 n)
    k16black := d.get (F.RAWC_K16_BLACK_BLACK n), conceal := d.flag (F.RAWC_CFG_CONCEAL_EN n) }

/-- The active width (R160). -/
def RawcCfg.w (c : RawcCfg) : Nat := c.width - c.obL - c.obR

/-- The CFA colour of line pixel `i` of line `y`: x = 0 is the first active pixel. -/
def RawcCfg.colour (c : RawcCfg) (i y : Nat) : Nat := cfaAt c.cfa (i + c.obL % 2) y

/-- The indices of black pixels of a line. -/
def RawcCfg.obIdx (c : RawcCfg) : List Nat :=
  List.range c.obL ++ (List.range c.obR).map (fun i => c.width - c.obR + i)

/-- The black estimate after a line (R161) for the colour parity `k` of the line's pixels. -/
def blackUpdate (c : RawcCfg) (b y k : Nat) (code16 : List Nat) : Nat :=
  let ps := c.obIdx.filter (fun i => c.colour i y % 2 = k)
  let n := ps.length
  if n = 0 then b
  else
    let m := (sumNat (ps.map (nth code16)) * 16 + n / 2) / n
    ((b : Int) + sar ((m : Int) - b) c.obShift).toNat

/-- The clamped input of the LUT for one pixel (R161). -/
def obClamp (c : RawcCfg) (b code16 : Nat) : Nat :=
  (clampInt (((code16 * 16 : Nat) : Int) - b + (c.pedestal * 16 : Nat)) 0 0xFFFFF).toNat

/-- The LUT output for a clamped input (R163), with `lut` giving the entries. -/
def linearise (lut : Nat → Int) (x : Nat) : Int :=
  let i := x / 256
  let f := x % 256
  s24 (if i = 4095 then lut 4095 else lut i + sar ((lut (i + 1) - lut i) * f + 128) 8)

/-- Entry `i` of the linearisation LUT of context `n`, readout `r`, colour `k` (R162): the signed 32-bit word. -/
def Dev.linLut (d : Dev) (n r k i : Nat) : Int :=
  signed 32 (leNat ((List.range 4).map (fun j =>
    Sparse.get (fun _ => 0) d.windows (0x02000000 + n * 0x30000 + (4 * r + k) * 0x4000 + 4 * i + j))))

/-- Steps 1 and 2 for one line of readout `r` of context `n`: the line and the black estimates after it. -/
def Dev.lineIn (d : Dev) (n r y : Nat) (px : List Nat) (real damaged : Bool) : Line × List Nat :=
  let c := d.rawcCfg n
  let b := (elemAt d.cap n {}).black
  let shift := 2 ^ (16 - depthBits c.depth)
  let code16 := px.map (· * shift)
  let b' := if damaged then b else
    (List.range 2).foldl (fun b k =>
      setAt b (4 * r + 2 * (y % 2) + k) (blackUpdate c (nth b (4 * r + 2 * (y % 2) + k)) y k code16)) b
  let lin := (List.range code16.length).map (fun i =>
    let k := c.colour i y
    linearise (d.linLut n r k) (obClamp c (nth b' (4 * r + 2 * (y % 2) + k % 2)) (nth code16 i)))
  ({ px := px, lin := lin, sat := code16.map (fun v => decide (nth c.sat r ≤ v)), real := real, damaged := damaged }, b')

/-! ### Concealment (R165) -/

/-- The replacement of a damaged line `y` among the delivered lines of its readout: the rule and the line. -/
def concealLine (ls : List Line) (y : Nat) : Line :=
  let l := elemAt ls y { px := [], lin := [], sat := [], real := false }
  let ok (i : Nat) (sub : Bool) : Option Line :=
    match (if sub then (if i ≤ y then ls[y - i]? else none) else ls[y + i]?) with
    | some m => if m.damaged then none else some m
    | none => none
  match ok 2 true, ok 2 false with
  | some a, some b =>
    { l with lin := List.zipWith (fun u v => sar (u + v + 1) 1) a.lin b.lin, sat := List.zipWith or a.sat b.sat
             rule := 1 }
  | some a, none => { l with lin := a.lin, sat := a.sat, rule := 2 }
  | none, some b => { l with lin := b.lin, sat := b.sat, rule := 2 }
  | none, none =>
    match ok 4 true with
    | some a => { l with lin := a.lin, sat := a.sat, rule := 3 }
    | none => { l with rule := 4 }

/-! ### Merge and K16 (R167, R170, R171) -/

/-- The merge of one pixel over its readouts that take part: (readout, value, saturated); the flag counts a clip. -/
def mergePixel (c : RawcCfg) (vs : List (Nat × Int × Bool)) : Int × Bool :=
  match vs with
  | [] => (0, false)
  | [(_, v, _)] => if c.readouts = 1 then (v, false) else (v, (vs.any (fun x => x.2.2)))
  | _ =>
    match vs.find? (fun x => !x.2.2) with
    | none => ((vs.getLastD (0, 0, true)).2.1, true)
    | some (e, v, _) =>
      let ve := (max v 0).toNat
      let var (r : Nat) : Nat := nth c.na r + (nth c.nb r * ve + 32768) / 65536
      let (num, den) := vs.foldl (fun (acc : Int × Nat) x =>
        let dd := x.2.1 - v
        if x.2.2 then acc
        else if x.1 ≠ e ∧ c.motionK ≠ 0 ∧ (c.motionK * c.motionK * (var x.1 + var e) : Nat) < dd * dd * 256 then acc
        else
          let w : Nat := 2 ^ 36 / var x.1
          (acc.1 + (w : Int) * x.2.1, acc.2 + w)) ((0 : Int), (0 : Nat))
      (roundHalfAway num den, false)

/-- K16 encoding (R170): the code and whether it clipped. -/
def k16Encode (a b black : Nat) (lin : Int) : Nat × Bool :=
  let sqa := isqrt (a * 2 ^ 32)
  let code : Int :=
    if 0 ≤ lin then
      let t := a * 2 ^ 32 + b * lin.toNat * 65536
      black + ((16 * (isqrt t - sqa) + b / 2) / b : Nat)
    else
      black - ((8 * (-lin).toNat * 65536 + sqa / 2) / sqa : Nat)
  ((clampInt code 0 65535).toNat, code < 0 || 65535 < code)

/-- K16 expansion (R171). -/
def k16Decode (a b black c : Nat) : Int :=
  let sqa := isqrt (a * 2 ^ 32)
  if black ≤ c then
    let u := ((c - black) * b + 8) / 16 + sqa
    let den := b * 65536
    (((u * u : Nat) : Int) - (a * 2 ^ 32 : Nat) + (den / 2 : Nat)) / den
  else
    -((((black - c) * sqa + 2 ^ 18) / 2 ^ 19 : Nat) : Int)

/-- The merged linear line `y` of the readouts `parts` (readout, line). -/
def mergeLine (c : RawcCfg) (parts : List (Nat × Line)) : List (Int × Bool) :=
  (List.range c.width).map (fun i =>
    mergePixel c (parts.map (fun p => (p.1, p.2.lin.getD i 0, p.2.sat.getD i false))))

/-- The row residual of colour parity `k` (R188). -/
def rowResidual (c : RawcCfg) (y k : Nat) (lin : List (Int × Bool)) : Int :=
  let ps := c.obIdx.filter (fun i => c.colour i y % 2 = k)
  if ps.isEmpty then 0
  else clampInt (roundHalfAway (ps.foldl (fun acc i => acc + (lin.getD i (0, false)).1) 0) ps.length) (-32768) 32767

/-- The row that leaves RAWC, the pixels the merge clipped (R167) and those K16 clipped (R170). -/
def rawRow (c : RawcCfg) (y : Nat) (parts : List (Nat × Line)) : Row × Nat × Nat :=
  let m := mergeLine c parts
  let act := (m.drop c.obL).take c.w
  let enc := act.map (fun v => k16Encode c.k16a c.k16b c.k16black v.1)
  let zero := parts.any (fun p => p.2.rule != 0)
  ({ k16 := enc.map (·.1), res := [0, 1].map (fun k => if zero then 0 else rowResidual c y k m) },
   (m.filter (·.2)).length, (enc.filter (·.2)).length)

end Sys2Proof.Machine
end

