-- ==== Sys2Proof/Machine/Mosaic.lean ====
section
/-!
DEFINITION. Steps 4-6 of raw corrections, as a develop engine applies them: defect correction, dynamic detection, flat
field, row and column correction (R173-R189); and the noise loop's sums (R180).
-/
namespace Sys2Proof.Machine

/-- A picture plane by rows. -/
abbrev Grid := Array (Array Int)

/-- The sample at (x, y), 0 outside. -/
def Grid.at (g : Grid) (x y : Nat) : Int := (g.getD y #[]).getD x 0

/-- A grid of `w` × `h` samples given by a function. -/
def Grid.make (w h : Nat) (f : Nat → Nat → Int) : Grid :=
  ((List.range h).map (fun y => ((List.range w).map (fun x => f x y)).toArray)).toArray

/-- The offsets of ring 1 (distance 2), in the order N, NE, E, SE, S, SW, W, NW (R173). -/
def ring1 : List (Int × Int) := [(0, -2), (2, -2), (2, 0), (2, 2), (0, 2), (-2, 2), (-2, 0), (-2, -2)]

/-- The offsets of ring 2 (distance 4). -/
def ring2 : List (Int × Int) := ring1.map (fun o => (2 * o.1, 2 * o.2))

/-- Whether (x, y) is in a map. -/
def inMap (m : List DefectEntry) (x y : Nat) : Bool := m.any (fun e => e.x == x && e.y == y)

/-- The neighbour at an offset when it lies inside the active area. -/
def nbrAt (w h x y : Nat) (o : Int × Int) : Option (Nat × Nat) :=
  let nx := (x : Int) + o.1
  let ny := (y : Int) + o.2
  if 0 ≤ nx ∧ nx < w ∧ 0 ≤ ny ∧ ny < h then some (nx.toNat, ny.toNat) else none

/-- The NBR bits of an entry: same-colour neighbours that are in the map (R173, R175). -/
def nbrBits (m : List DefectEntry) (x y : Nat) : Nat :=
  sumNat ((List.range 16).map (fun k =>
    let o := (ring1 ++ ring2).getD k (0, 0)
    let nx := (x : Int) + o.1
    let ny := (y : Int) + o.2
    if 0 ≤ nx ∧ 0 ≤ ny ∧ inMap m nx.toNat ny.toNat then 2 ^ k else 0))

/-- The 48 bits of an entry (R173). -/
def DefectEntry.bits (m : List DefectEntry) (e : DefectEntry) : Nat :=
  e.x % 2 ^ 14 + e.y % 2 ^ 14 * 2 ^ 14 + e.cls % 16 * 2 ^ 28 + nbrBits m e.x e.y * 2 ^ 32

/-- The values of the usable neighbours of a ring, none where a neighbour is not usable (R176). -/
def usable (g : Grid) (m : List DefectEntry) (w h x y : Nat) (ring : List (Int × Int)) : List (Option Int) :=
  ring.map (fun o =>
    match nbrAt w h x y o with
    | some (nx, ny) => if inMap m nx ny then none else some (g.at nx ny)
    | none => none)

/-- The mean of values, rounding half up. -/
def meanHalfUp (vs : List Int) : Int :=
  (2 * vs.foldl (· + ·) 0 + vs.length) / (2 * (vs.length : Int))

/-- The replacement value of a pixel (R176); none keeps the pixel, unresolved. -/
def replacement (g : Grid) (m : List DefectEntry) (w h x y : Nat) : Option Int :=
  let r1 := usable g m w h x y ring1
  let pair (i j : Nat) : Option (Nat × Int) :=
    match r1.getD i none, r1.getD j none with
    | some a, some b => some ((a - b).natAbs, (a + b + 1) / 2)
    | _, _ => none
  let pairs := [pair 0 4, pair 2 6, pair 1 5, pair 3 7].filterMap id
  match pairs with
  | p :: rest => some (rest.foldl (fun best q => if q.1 < best.1 then q else best) p).2
  | [] =>
    match r1.filterMap id with
    | v :: vs => some (meanHalfUp (v :: vs))
    | [] =>
      match (usable g m w h x y ring2).filterMap id with
      | v :: vs => some (meanHalfUp (v :: vs))
      | [] => none

/-- Whether dynamic detection flags a pixel that is not in the map (R178), with threshold `t`. -/
def dynFlag (g : Grid) (m : List DefectEntry) (w h t x y : Nat) : Bool :=
  match (usable g m w h x y ring1).filterMap id with
  | v :: vs =>
    3 ≤ vs.length &&
      (let hi := vs.foldl max v
       let lo := vs.foldl min v
       decide (hi + t < g.at x y) || decide (g.at x y < lo - t))
  | [] => false

/-- The noise loop's contribution of a pixel (R180): |d| where the pixel qualifies. -/
def noiseSample (g : Grid) (m : List DefectEntry) (w h sigma x y : Nat) : Option Nat :=
  match usable g m w h x y ring1 with
  | [some pn, _, some pe, _, some ps, _, some pw, _] =>
    let vs := (usable g m w h x y ring1).filterMap id
    let hi := vs.foldl max pn
    let lo := vs.foldl min pn
    if (hi - lo) * 256 ≤ 6 * sigma then some (g.at x y - sar (pn + ps + pe + pw + 2) 2).natAbs else none
  | _ => none

/-- What step 4 needs of the frame's settings. -/
structure DefectCfg where
  dmapEn : Bool
  detect : Bool
  correct : Bool
  t : Nat
  sigma : Nat

/-- The result of step 4: the corrected K16 plane, the flagged pixels, whether a defect stayed, the noise sums. -/
structure DefectOut where
  plane : Grid
  flags : List (Nat × Nat)
  unresolved : Bool
  sum : Nat
  count : Nat

/-- Step 4 over a frame (R176, R178, R180). -/
def correctDefects (c : DefectCfg) (g : Grid) (m : List DefectEntry) (w h : Nat) : DefectOut :=
  let px := (List.range h).flatMap (fun y => (List.range w).map (fun x => (x, y)))
  let flags := if c.detect then px.filter (fun p => !inMap m p.1 p.2 && dynFlag g m w h c.t p.1 p.2) else []
  let fixed := (if c.dmapEn then
      (m.filter (fun e => 1 ≤ e.cls && e.cls ≤ 6 && e.x < w && e.y < h)).map (fun e => (e.x, e.y)) else []) ++
    (if c.correct then flags else [])
  let vals := fixed.map (fun p => (p, replacement g m w h p.1 p.2))
  let plane := vals.foldl (fun (acc : Grid) v =>
    match v.2 with
    | some x => acc.modify v.1.2 (fun row => row.set! v.1.1 x)
    | none => acc) g
  let ns := px.filterMap (fun p => noiseSample g m w h c.sigma p.1 p.2)
  { plane := plane, flags := flags, unresolved := vals.any (fun v => v.2.isNone), sum := sumNat ns, count := ns.length }

/-- The flat-field gain at (x, y) of colour `k` (R187), with `node` giving plane, row and column of the grid. -/
def flatGain (node : Nat → Nat → Nat → Nat) (shift k x y : Nat) : Nat :=
  let sz := 2 ^ shift
  let i := x / sz
  let j := y / sz
  let fx := x % sz
  let fy := y % sz
  (node k j i * (sz - fx) * (sz - fy) + node k j (i + 1) * fx * (sz - fy) + node k (j + 1) i * (sz - fx) * fy +
    node k (j + 1) (i + 1) * fx * fy + 2 ^ (2 * shift - 1)) / 2 ^ (2 * shift)

/-- Step 5 for a value: gain Q2.14 (R187). -/
def applyGain (lin : Int) (g : Nat) : Int := s24 (sar (lin * g + 8192) 14)

/-- Step 6 (R188, R189): the row part with residual `res` and strength `rowK`, then the column offset. -/
def rowCol (v res : Int) (rowK : Nat) (col : Int) : Int := s24 (v - sar (rowK * res + 128) 8 - col)

end Sys2Proof.Machine
end

