-- ==== Sys2Proof/Machine/ColourMath.lean ====
section
/-!
DEFINITION. The arithmetic of the colour engine and its branches (R192-R212, R216-R222).
-/
namespace Sys2Proof.Machine

/-! ### Context stages (R193-R196) -/

/-- Reflection of a coordinate into `[0, n)` (R193). -/
def reflect (n : Nat) (x : Int) : Nat :=
  let y := if x < 0 then -x else if (n : Int) ≤ x then 2 * (n : Int) - 2 - x else x
  (clampInt y 0 ((n : Int) - 1)).toNat

/-- A grid read with reflection. -/
def Grid.refl (g : Grid) (w h : Nat) (x y : Int) : Int := g.at (reflect w x) (reflect h y)

/-- Green at every site (R194): the mosaic value at green sites, the edge-directed estimate at the others. -/
def greenAt (g : Grid) (w h cfa : Nat) (x y : Nat) : Int :=
  let p (dx dy : Int) : Int := g.refl w h (x + dx) (y + dy)
  let c := cfaAt cfa x y
  if c = 1 ∨ c = 2 then p 0 0
  else
    let ab (a b : Int) : Nat := (a - b).natAbs
    let term (j : Int) (wt : Nat) : Nat × Nat :=
      (wt * (ab (p (-1) j) (p 1 j) + ab (p (-3) j) (p (-1) j) + ab (p 1 j) (p 3 j)),
       wt * (ab (p j (-1)) (p j 1) + ab (p j (-3)) (p j (-1)) + ab (p j 1) (p j 3)))
    let a := term (-1) 1
    let b := term 0 2
    let e := term 1 1
    let dh := a.1 + b.1 + e.1 + 2 * (2 * p 0 0 - p (-2) 0 - p 2 0).natAbs
    let dv := a.2 + b.2 + e.2 + 2 * (2 * p 0 0 - p 0 (-2) - p 0 2).natAbs
    let gh := sar (2 * (p (-1) 0 + p 1 0) + 2 * p 0 0 - p (-2) 0 - p 2 0 + 2) 2
    let gv := sar (2 * (p 0 (-1) + p 0 1) + 2 * p 0 0 - p 0 (-2) - p 0 2 + 2) 2
    s24 (if 4 * dh < 3 * dv then gh
      else if 4 * dv < 3 * dh then gv
      else if dh + dv = 0 then sar (gh + gv + 1) 1
      else roundHalfAway (gh * dv + gv * dh) (dh + dv))

/-- Camera RGB after stage 1 at (x, y), with `gr` the green plane (R194). -/
def demosaicAt (g gr : Grid) (w h cfa : Nat) (x y : Nat) : Int × Int × Int :=
  let c := cfaAt cfa x y
  let diff (dx dy : Int) : Int := g.refl w h (x + dx) (y + dy) - gr.refl w h (x + dx) (y + dy)
  let gc := gr.at x y
  let hor := s24 (gc + sar (diff (-1) 0 + diff 1 0 + 1) 1)
  let ver := s24 (gc + sar (diff 0 (-1) + diff 0 1 + 1) 1)
  let dia := s24 (gc + sar (diff (-1) (-1) + diff 1 (-1) + diff (-1) 1 + diff 1 1 + 2) 2)
  match c with
  | 0 => (g.at x y, gc, dia)
  | 1 => (hor, gc, ver)
  | 2 => (ver, gc, hor)
  | _ => (dia, gc, g.at x y)

/-- Three planes of one picture. -/
abbrev Rgb := Grid × Grid × Grid

/-- Builds three planes from a function. -/
def Rgb.make (w h : Nat) (f : Nat → Nat → Int × Int × Int) : Rgb :=
  let t := (List.range h).map (fun y => (List.range w).map (fun x => f x y))
  let pl (sel : Int × Int × Int → Int) : Grid := (t.map (fun r => (r.map sel).toArray)).toArray
  (pl (·.1), pl (·.2.1), pl (·.2.2))

/-- The pixel of three planes. -/
def Rgb.at (p : Rgb) (x y : Nat) : Int × Int × Int := (p.1.at x y, p.2.1.at x y, p.2.2.at x y)

/-- The median of nine values. -/
def median9 (l : List Int) : Int := (l.mergeSort (fun a b => decide (a ≤ b))).getD 4 0

/-- Chroma-alias suppression (R195). -/
def casAt (p : Rgb) (w h casK casT : Nat) (x y : Nat) : Int × Int × Int :=
  let (r, g, b) := p.at x y
  let gg (dx dy : Int) : Int := p.2.1.refl w h (x + dx) (y + dy)
  let hh := (4 * g - gg (-1) 0 - gg 1 0 - gg 0 (-1) - gg 0 1).natAbs
  let k := min 256 (casK * (hh - 16 * casT) / 4096)
  let nine := [(-1, -1), (0, -1), (1, -1), (-1, 0), (0, 0), (1, 0), (-1, 1), (0, 1), (1, 1)]
  let med (pl : Grid) : Int := median9 (nine.map (fun (o : Int × Int) =>
    pl.refl w h (x + o.1) (y + o.2) - gg o.1 o.2))
  let mix (v : Int) (m : Int) : Int := s24 (g + sar ((m - (v - g)) * k + 128) 8 + (v - g))
  (mix r (med p.1), g, mix b (med p.2.2))

/-- Saturation to s32. -/
def sat32 (x : Int) : Int := clampInt x (-2147483648) 2147483647

/-- A 3 × 4 matrix on a pixel (R196): coefficients Q8.24, offsets Q12.20, row-major. -/
def matrix34 (m : List Int) (v : Int × Int × Int) : Int × Int × Int :=
  let row (i : Nat) : Int :=
    sat32 (sar (m.getD (4 * i) 0 * v.1 + m.getD (4 * i + 1) 0 * v.2.1 + m.getD (4 * i + 2) 0 * v.2.2 + 2 ^ 23) 24 +
      m.getD (4 * i + 3) 0)
  (row 0, row 1, row 2)

/-- Applies a function to the three components. -/
def map3 (f : Int → Int) (v : Int × Int × Int) : Int × Int × Int := (f v.1, f v.2.1, f v.2.2)

/-- Stages 3-5 (R196). -/
def toAp0 (wb : Nat × Nat × Nat) (cam : List Int) (gain : Nat) (v : Int × Int × Int) : Int × Int × Int :=
  let x := (s24 (sar (v.1 * wb.1 + 2048) 12), s24 (sar (v.2.1 * wb.2.1 + 2048) 12), s24 (sar (v.2.2 * wb.2.2 + 2048) 12))
  map3 (fun o => sat32 (sar (o * gain + 32768) 16)) (matrix34 cam x)

/-! ### Scaling (R200) -/

/-- The predecimation shift and step of an axis. -/
def scaleStep (inp out : Nat) : Nat × Nat :=
  let step := inp * 65536 / out
  let k := if 4 * 65536 < step then 2 else if 2 * 65536 < step then 1 else 0
  (k, step)

/-- The position of output `i` on an axis: the first-tap centre `p` and the phase (R200). -/
def scalePos (inp out i : Nat) : Int × Nat :=
  let (k, step) := scaleStep inp out
  let pos := sar (((2 * i + 1) * (step / 2 ^ k) : Nat) - (65536 : Int)) 1
  let p := sar pos 16
  let ph := ((pos % 65536).toNat + 512) / 1024
  if ph = 64 then (p + 1, 0) else (p, ph)

/-- The last source sample that output `i` of an axis depends on. -/
def scaleReach (inp out i : Nat) : Nat :=
  let (k, _) := scaleStep inp out
  let (p, _) := scalePos inp out i
  ((clampInt (p + 4) 0 ((inp / 2 ^ k : Nat) - 1)).toNat + 1) * 2 ^ k - 1

/-- Output `i` of an axis over the sources `src` (R200), with `coef ph t` the taps. -/
def scaleAt (coef : Nat → Nat → Int) (src : Nat → Int) (inp out i : Nat) : Int :=
  let (k, _) := scaleStep inp out
  let n := inp / 2 ^ k
  let pre (j : Nat) : Int :=
    let s := (List.range (2 ^ k)).foldl (fun acc t => acc + src (j * 2 ^ k + t)) 0
    (2 * s + 2 ^ k) / (2 * 2 ^ k)
  let (p, ph) := scalePos inp out i
  let acc := (List.range 8).foldl (fun acc t =>
    acc + coef ph t * pre (clampInt (p - 3 + t) 0 ((n : Int) - 1)).toNat) 0
  sat32 (sar (acc + 512) 10)

/-- A plane cropped and scaled, first horizontally, then vertically. -/
def scalePlane (ch cv : Nat → Nat → Int) (g : Grid) (x0 y0 iw ih ow oh : Nat) : Grid :=
  let hor := Grid.make ow ih (fun i y => scaleAt ch (fun x => g.at (x0 + x) (y0 + y)) iw ow i)
  Grid.make ow oh (fun i j => scaleAt cv (fun y => hor.at i y) ih oh j)

/-! ### Shaper, 3D LUT, transfer (R202-R207) -/

/-- Position of the leading one of a positive number. -/
def log2Nat (v : Nat) : Nat := Nat.log2 v

/-- The log-float index and its fraction (R202). -/
def fidx (v : Int) : Nat × Nat :=
  if v ≤ 0 then (0, 0)
  else
    let n := v.toNat
    let e := log2Nat n
    let m := (if 7 ≤ e then n / 2 ^ (e - 7) else n * 2 ^ (7 - e)) % 128
    let f := (if 16 ≤ e then n / 2 ^ (e - 16) else n * 2 ^ (16 - e)) % 512
    (128 * (e + 1) + m, f)

/-- Table lookup with interpolation (R202). -/
def lookup (t : Nat → Nat) (v : Int) : Nat :=
  let (i, f) := fidx v
  if 4095 ≤ i then t 4095 else ((t i : Int) + sar (((t (i + 1) : Int) - t i) * f + 256) 9).toNat

/-- The Q12.20 value that entry `i` stands for (R202). -/
def entryRaw (i : Nat) : Nat :=
  if i < 128 then 0
  else
    let e := i / 128 - 1
    let m := i % 128
    if 7 ≤ e then (128 + m) * 2 ^ (e - 7) else (128 + m) / 2 ^ (7 - e)

/-- Q12.20 of a binary16 by round-half-even, clamped; NaN is 0 (R204). -/
def halfToQ20 (h : Nat) : Int :=
  let s := h / 32768 % 2
  let e := h / 1024 % 32
  let m := h % 1024
  let lim : Int := 2147483647
  if e = 31 then (if m = 0 then (if s = 0 then lim else -lim) else 0)
  else
    -- value × 2^20 = sig × 2^(e' + 20 - 25): exact for e' ≥ 5, else rounded half to even
    let sig := if e = 0 then m else 1024 + m
    let ee := max e 1
    let q : Nat := if 5 ≤ ee then sig * 2 ^ (ee - 5)
      else
        let k := 5 - ee
        let fl := sig / 2 ^ k
        let rem := sig % 2 ^ k
        if 2 * rem > 2 ^ k ∨ (2 * rem = 2 ^ k ∧ fl % 2 = 1) then fl + 1 else fl
    let v := clampInt (q : Int) (-lim) lim
    if s = 0 then v else -v

/-- Tetrahedral lookup (R204) with `node r g b` the Q12.20 triples. -/
def lut3d (node : Nat → Nat → Nat → Int × Int × Int) (c : Nat × Nat × Nat) : Int × Int × Int :=
  let ir := c.1 / 1024
  let ig := c.2.1 / 1024
  let ib := c.2.2 / 1024
  let fs := [(c.1 % 1024, 0), (c.2.1 % 1024, 1), (c.2.2 % 1024, 2)].mergeSort
    (fun a b => decide (b.1 < a.1) || (a.1 == b.1 && decide (a.2 ≤ b.2)))
  let step (p : Nat × Nat × Nat) (ax : Nat) : Nat × Nat × Nat :=
    match ax with
    | 0 => (p.1 + 1, p.2.1, p.2.2)
    | 1 => (p.1, p.2.1 + 1, p.2.2)
    | _ => (p.1, p.2.1, p.2.2 + 1)
  let f (i : Nat) : Nat := (fs.getD i (0, 0)).1
  let ax (i : Nat) : Nat := (fs.getD i (0, 0)).2
  let p0 := (ir, ig, ib)
  let p1 := step p0 (ax 0)
  let p2 := step p1 (ax 1)
  let p3 := step p2 (ax 2)
  let n (p : Nat × Nat × Nat) := node p.1 p.2.1 p.2.2
  let comb (sel : Int × Int × Int → Int) : Int :=
    sar (sel (n p0) * (1024 - (f 0 : Int)) + sel (n p1) * ((f 0 : Int) - f 1) + sel (n p2) * ((f 1 : Int) - f 2) +
      sel (n p3) * f 2 + 512) 10
  (comb (·.1), comb (·.2.1), comb (·.2.2))

/-- The built-in transfer curve `tf` at `v` in IEEE binary64 (R207), clamped to [0, 1]. -/
def tfCurve (tf nits : Nat) (v : Float) : Float :=
  let clamp (x lo hi : Float) : Float := if x < lo then lo else if hi < x then hi else x
  let f :=
    match tf with
    | 0 =>
      let l := clamp (v * nits.toFloat / 10000) 0 1
      let lm := l ^ (2610.0 / 16384.0)
      ((3424.0 / 4096.0 + 2413.0 / 128.0 * lm) / (1 + 2392.0 / 128.0 * lm)) ^ (2523.0 / 32.0)
    | 1 =>
      let e := clamp v 0 1
      if e ≤ 1.0 / 12.0 then Float.sqrt (3 * e) else 0.17883277 * Float.log (12 * e - 0.28466892) + 0.55991073
    | 2 => (clamp v 0 1) ^ (1.0 / 2.4)
    | 3 => if 0 < v then 0.0625 * Float.log2 (v + 0.00390625) + 0.6 else 0.1
    | 4 => if 0 < v then (1.0 / 18.0) * Float.log2 (v + 0.001953125) + 0.62 else 0.12
    | _ => if 0 < v then (1.0 / 12.0) * Float.log2 (v + 0.015625) + 0.6 else 0.1
  clamp f 0 1

/-- Entry `i` of the built-in table of a curve (R207). -/
def tfEntry (tf nits i : Nat) : Nat :=
  (Float.floor (65535 * tfCurve tf nits ((entryRaw i).toFloat / 1048576) + 0.5)).toUInt64.toNat

/-! ### Y'CbCr, range, dither (R209-R211) -/

/-- The weights of R209. -/
def yccWeights : Nat → Nat × Nat × Nat
  | 2 => (17216, 44434, 3886)
  | _ => (13933, 46871, 4732)

/-- Luma of R'G'B' (R209). -/
def lumaOf (ycc : Nat) (v : Int × Int × Int) : Int :=
  let (kr, kg, kb) := yccWeights ycc
  sar (kr * v.1 + kg * v.2.1 + kb * v.2.2 + 32768) 16

/-- The u16 clamp. -/
def u16c (x : Int) : Int := clampInt x 0 65535

/-- Stage 7 (R209): Y'CbCr conversion and range. -/
def toYcc (ycc : Nat) (full : Bool) (v : Int × Int × Int) : Int × Int × Int :=
  let ny (y : Int) : Int := if full then y else 4096 + (56064 * y + 32767) / 65535
  let nc (c : Int) : Int := if full then c else 32768 + roundHalfAway ((c - 32768) * 57344) 65535
  if ycc = 0 then map3 ny v
  else
    let (kr, _, kb) := yccWeights ycc
    let y := lumaOf ycc v
    let cb := u16c (32768 + roundHalfAway ((v.2.2 - y) * 32768) (65536 - kb))
    let cr := u16c (32768 + roundHalfAway ((v.1 - y) * 32768) (65536 - kr))
    (ny y, nc cb, nc cr)

/-- One step of the dither LFSR: Galois, mask 0x8020_0003 (R211). -/
def lfsrStep (s : Nat) : Nat := if s % 2 = 1 then (s / 2) ^^^ 0x80200003 else s / 2

/-- The LFSR at the start of a 16-column group of a line (R211). -/
def lfsrSeed (seed y xFirst : Nat) : Nat :=
  let s := (seed ^^^ (y % 65536 * 65536 ||| xFirst / 16)) % 2 ^ 32
  if s = 0 then 1 else s

/-- The LFSR after `n` steps. -/
def lfsrAfter : Nat → Nat → Nat
  | 0, s => s
  | n + 1, s => lfsrAfter n (lfsrStep s)

/-- Quantisation of `v` to `depth` bits (R211); `noise` is the dither difference, none without dither. -/
def quantise (depth : Nat) (noise : Option Int) (v : Int) : Nat :=
  if depth = 16 then v.toNat
  else
    let k := 16 - depth
    let n := noise.getD 0
    (clampInt (sar (v + n + 2 ^ (k - 1)) k) 0 (2 ^ depth - 1)).toNat

/-- The dither difference at column `x` of line `y` after `k` earlier steps of the column's group (R211): two steps are
taken for each component. -/
def ditherNoise (seed depth y x k : Nat) : Int :=
  let s := lfsrAfter (k + 1) (lfsrSeed seed y (x / 16 * 16))
  let m := 2 ^ (16 - depth)
  (s % m : Int) - (lfsrStep s % m : Int)

/-! ### binary16 of the tensors (R217) -/

/-- The binary16 nearest to a float, ties to even, saturating to ±65,504. -/
def toHalf (v : Float) : Nat :=
  let s := if v < 0 then 32768 else 0
  let a := Float.abs v
  if a ≥ 65504 then s + 0x7BFF
  else
    -- scaled to units of 2^-24: exact in binary64
    let u := (Float.floor (a * 16777216.0)).toUInt64.toNat
    let fr := a * 16777216.0 - u.toFloat
    let e := if u < 1024 then 0 else log2Nat u - 10
    let q := u / 2 ^ e
    let rem2 := 2 * (u % 2 ^ e)
    let up := if e = 0 then (fr > 0.5 || (fr == 0.5 && q % 2 == 1))
      else (rem2 > 2 ^ e || (rem2 == 2 ^ e && (fr > 0 || q % 2 == 1)))
    let q := if up then q + 1 else q
    s + min (if u < 1024 then q else e * 1024 + q) 0x7BFF

/-- The float value of a binary16. -/
def ofHalf (h : Nat) : Float :=
  let e := h / 1024 % 32
  let m := h % 1024
  let a := if e = 0 then m.toFloat / 16777216.0 else (1024 + m).toFloat * (2.0 ^ (e.toFloat - 25))
  if h / 32768 % 2 = 1 then -a else a

/-! ### Statistics (R220-R222) -/

/-- The histogram bin of a value (R220). -/
def histBin (v : Int) : Nat :=
  if v ≤ 0 then 0
  else
    let n := v.toNat
    let e := log2Nat n
    let m := (if 6 ≤ e then n / 2 ^ (e - 6) else n * 2 ^ (6 - e)) % 64
    (clampInt (64 * ((e : Int) - 10) + m) 0 1023).toNat

/-- AP0 luminance (R220). -/
def ap0Y (v : Int × Int × Int) : Int := sar (22542 * v.1 + 47721 * v.2.1 - 4727 * v.2.2 + 32768) 16

end Sys2Proof.Machine
end

