-- ==== Sys2Proof/Machine/Digest.lean ====
section
/-!
DEFINITION. The checks of the Aswen image: CRC-32C (R44), SHA-256, and ECDSA over P-384 (R46). SHA-256 and P-384 are the
published functions that R46 names; their constants are those of FIPS 180-4 and FIPS 186-4 (assumption 9).
-/
namespace Sys2Proof.Machine

/-! ### CRC-32C (R44) -/

/-- Eight steps of the reflected division by the Castagnoli polynomial. -/
def crc32cStep : Nat → Nat → Nat
  | 0, c => c
  | n + 1, c => crc32cStep n (if c % 2 = 1 then (c / 2) ^^^ 0x82F63B78 else c / 2)

/-- The CRC register after the bytes of `l`. -/
def crc32cFeed : List Byte → Nat → Nat
  | [], c => c
  | b :: rest, c => crc32cFeed rest (crc32cStep 8 (c ^^^ b.toNat))

/-- CRC-32C: reflected polynomial 0x1EDC6F41, initial value and final XOR all ones (R44). -/
def crc32c (l : List Byte) : Nat := crc32cFeed l 0xFFFFFFFF ^^^ 0xFFFFFFFF

/-! ### SHA-256 -/

/-- The round constants of SHA-256. -/
def shaK : List Nat :=
  [0x428a2f98, 0x71374491, 0xb5c0fbcf, 0xe9b5dba5, 0x3956c25b, 0x59f111f1, 0x923f82a4, 0xab1c5ed5,
   0xd807aa98, 0x12835b01, 0x243185be, 0x550c7dc3, 0x72be5d74, 0x80deb1fe, 0x9bdc06a7, 0xc19bf174,
   0xe49b69c1, 0xefbe4786, 0x0fc19dc6, 0x240ca1cc, 0x2de92c6f, 0x4a7484aa, 0x5cb0a9dc, 0x76f988da,
   0x983e5152, 0xa831c66d, 0xb00327c8, 0xbf597fc7, 0xc6e00bf3, 0xd5a79147, 0x06ca6351, 0x14292967,
   0x27b70a85, 0x2e1b2138, 0x4d2c6dfc, 0x53380d13, 0x650a7354, 0x766a0abb, 0x81c2c92e, 0x92722c85,
   0xa2bfe8a1, 0xa81a664b, 0xc24b8b70, 0xc76c51a3, 0xd192e819, 0xd6990624, 0xf40e3585, 0x106aa070,
   0x19a4c116, 0x1e376c08, 0x2748774c, 0x34b0bcb5, 0x391c0cb3, 0x4ed8aa4a, 0x5b9cca4f, 0x682e6ff3,
   0x748f82ee, 0x78a5636f, 0x84c87814, 0x8cc70208, 0x90befffa, 0xa4506ceb, 0xbef9a3f7, 0xc67178f2]

/-- The initial hash value of SHA-256. -/
def shaH : List Nat :=
  [0x6a09e667, 0xbb67ae85, 0x3c6ef372, 0xa54ff53a, 0x510e527f, 0x9b05688c, 0x1f83d9ab, 0x5be0cd19]

/-- Rotation right of a 32-bit number. -/
def rotr32 (x n : Nat) : Nat := x / 2 ^ n + x % 2 ^ n * 2 ^ (32 - n)

/-- Addition of 32-bit numbers. -/
def add32 (a b : Nat) : Nat := (a + b) % 2 ^ 32

/-- The big-endian 32-bit words of a byte list, `n` of them. -/
def wordsBE : Nat → List Byte → List Nat
  | 0, _ => []
  | n + 1, l => beNat (l.take 4) :: wordsBE n (l.drop 4)

/-- The message schedule, kept newest first and grown by `n` words. -/
def shaSchedule : Nat → List Nat → List Nat
  | 0, w => w
  | n + 1, w =>
    let w2 := nth w 1
    let w15 := nth w 14
    let s1 := rotr32 w2 17 ^^^ rotr32 w2 19 ^^^ (w2 / 2 ^ 10)
    let s0 := rotr32 w15 7 ^^^ rotr32 w15 18 ^^^ (w15 / 2 ^ 3)
    shaSchedule n (((nth w 15 + s0 + nth w 6 + s1) % 2 ^ 32) :: w)

/-- One round over the eight working variables. -/
def shaRound (v : List Nat) (k w : Nat) : List Nat :=
  match v with
  | [a, b, c, d, e, f, g, h] =>
    let s1 := rotr32 e 6 ^^^ rotr32 e 11 ^^^ rotr32 e 25
    let ch := (e &&& f) ^^^ ((0xFFFFFFFF ^^^ e) &&& g)
    let t1 := (h + s1 + ch + k + w) % 2 ^ 32
    let s0 := rotr32 a 2 ^^^ rotr32 a 13 ^^^ rotr32 a 22
    let maj := (a &&& b) ^^^ (a &&& c) ^^^ (b &&& c)
    [(t1 + s0 + maj) % 2 ^ 32, a, b, c, add32 d t1, e, f, g]
  | _ => v

/-- One 64-byte block. -/
def shaBlock (h : List Nat) (block : List Byte) : List Nat :=
  let w := (shaSchedule 48 (wordsBE 16 block).reverse).reverse
  let v := (shaK.zip w).foldl (fun v kw => shaRound v kw.1 kw.2) h
  (h.zip v).map (fun p => add32 p.1 p.2)

/-- The blocks of a padded message. -/
def shaBlocks : Nat → List Nat → List Byte → List Nat
  | 0, h, _ => h
  | n + 1, h, l => shaBlocks n (shaBlock h (l.take 64)) (l.drop 64)

/-- SHA-256 of a byte list. -/
def sha256 (l : List Byte) : List Byte :=
  let n := l.length
  let pad := (64 - (n + 9) % 64) % 64
  let m := l ++ [0x80] ++ List.replicate pad 0 ++ bytesBE 8 (8 * n)
  (shaBlocks (m.length / 64) shaH m).flatMap (bytesBE 4)

/-! ### ECDSA over P-384 -/

/-- The field prime, the order, the coefficient and the base point of P-384. -/
def p384p : Nat :=
  0xfffffffffffffffffffffffffffffffffffffffffffffffffffffffffffffffeffffffff0000000000000000ffffffff
def p384n : Nat :=
  0xffffffffffffffffffffffffffffffffffffffffffffffffc7634d81f4372ddf581a0db248b0a77aecec196accc52973
def p384b : Nat :=
  0xb3312fa7e23ee7e4988e056be3f82d19181d9c6efe8141120314088f5013875ac656398d8a2ed19d2a85c8edd3ec2aef
def p384g : Nat × Nat :=
  (0xaa87ca22be8b05378eb1c71ef320ad746e1d3b628ba79b9859f741e082542a385502f25dbf55296c3a545e3872760ab7,
   0x3617de4a96262c6f5d9e98bf9292dc29f8f41dbd289a147ce9da3113b5f0b8c00a60b1ce1d7e819d7a431d7c90ea0e5f)

/-- `b` to the power of the low `bits` bits of `e`, modulo `m`. -/
def powMod (m : Nat) : Nat → Nat → Nat → Nat
  | 0, _, _ => 1 % m
  | bits + 1, b, e =>
    let r := powMod m bits (b * b % m) (e / 2)
    if e % 2 = 1 then r * b % m else r

/-- The inverse modulo a prime. -/
def invMod (m a : Nat) : Nat := powMod m 384 a (m - 2)

/-- Subtraction modulo `m`. -/
def subMod (m a b : Nat) : Nat := (a % m + (m - b % m)) % m

/-- Addition of curve points; none is the point at infinity. -/
def ecAdd : Option (Nat × Nat) → Option (Nat × Nat) → Option (Nat × Nat)
  | none, q => q
  | p, none => p
  | some (x1, y1), some (x2, y2) =>
    if x1 = x2 ∧ (y1 + y2) % p384p = 0 then none
    else
      let lam :=
        if x1 = x2 then subMod p384p (3 * x1 * x1) 3 * invMod p384p (2 * y1) % p384p
        else subMod p384p y2 y1 * invMod p384p (subMod p384p x2 x1) % p384p
      let x3 := subMod p384p (lam * lam) (x1 + x2)
      some (x3, subMod p384p (lam * subMod p384p x1 x3) y1)

/-- Multiplication of a point by the low `bits` bits of `k`. -/
def ecMul : Nat → Nat → Option (Nat × Nat) → Option (Nat × Nat)
  | 0, _, _ => none
  | bits + 1, k, p =>
    let r := ecMul bits (k / 2) (ecAdd p p)
    if k % 2 = 1 then ecAdd r p else r

/-- Whether a point lies on the curve. -/
def onCurve (x y : Nat) : Bool :=
  x < p384p && y < p384p && y * y % p384p == (x * x * x + (p384p - 3) * x + p384b) % p384p

/-- ECDSA verification of signature (r, s) over message representative `e` under the public key (x, y) (R46). -/
def ecdsaVerify (x y r s e : Nat) : Bool :=
  if onCurve x y && 0 < r && r < p384n && 0 < s && s < p384n then
    let w := invMod p384n s
    match ecAdd (ecMul 384 (e * w % p384n) (some p384g)) (ecMul 384 (r * w % p384n) (some (x, y))) with
    | some (px, _) => px % p384n == r
    | none => false
  else false

end Sys2Proof.Machine
end

