-- ==== Sys2Proof/Machine/Capture.lean ====
section
/-!
DEFINITION. The capture front end: trigger targets, slots, frame records, RAW_RING entries and exposure settings
(R122-R139, R148-R156, R393-R395).
-/
namespace Sys2Proof.Machine

/-! ### Trigger schedules (R393-R395) -/

/-- The schedule that the latched words of port `p` give (R393, R395). -/
def Dev.schedOf (d : Dev) (p : Nat) : Sched :=
  { epoch := d.stimeToNs (d.eget (F.TRIG_EPOCH_LO_EPOCH p) + d.eget (F.TRIG_EPOCH_HI_EPOCH p) * 2 ^ 32)
    num := d.eget (F.TRIG_RATE_NUM p), den := d.eget (F.TRIG_RATE_DEN p)
    ents := (List.range 4).filterMap (fun k =>
      if d.eget (F.TRIG_ENT_EN p k) = 1 then some (d.eget (F.TRIG_ENT_OFFSET_NS p k), d.eget (F.TRIG_ENT_PLAN p k))
      else none) }

/-- Offsets strictly rise. -/
def rising : List (Nat × Nat) → Bool
  | a :: b :: rest => decide (a.1 < b.1) && rising (b :: rest)
  | _ => true

/-- The entries obey R393: strictly increasing offsets, all below one cycle period. -/
def Sched.ok (s : Sched) : Bool :=
  rising s.ents && s.ents.all (fun e => decide (e.1 * s.num < s.den * nsPerS)) && s.num != 0 && s.den != 0

/-- The instant (ns) of the first target of an entry with offset `off` at or after `t`. -/
def Sched.entAt (s : Sched) (off t : Nat) : Int :=
  let x : Int := (t : Int) - s.epoch - off
  let per : Int := s.den * nsPerS
  let k : Int := -((-(x * s.num)) / per)
  (s.epoch : Int) + k * per / s.num + off

/-- The first target at or after `t`: its instant and plan. -/
def Sched.first (s : Sched) (t : Nat) : Option (Nat × Nat) :=
  s.ents.foldl (fun best e =>
    let x := (s.entAt e.1 t).toNat
    match best with
    | some b => if x < b.1 then some (x, e.2) else best
    | none => some (x, e.2)) none

/-- The next target of a port at or after `t`, with the switch to a new schedule in force (R395). -/
def TrigSched.nextFrom (ts : TrigSched) (t : Nat) : Option (Nat × Nat) :=
  let new := match ts.next with
    | some (s, at_) => s.first (max t at_)
    | none => none
  match ts.run with
  | none => none
  | some r =>
    match r.first t, ts.next with
    | some x, some (_, at_) => if x.1 < at_ then some x else new
    | some x, none => some x
    | none, _ => new

/-- The next `n` targets of a port. -/
def TrigSched.upcoming (ts : TrigSched) : Nat → Nat → List (Nat × Nat)
  | 0, _ => []
  | n + 1, t =>
    match ts.nextFrom t with
    | some x => x :: ts.upcoming n (x.1 + 1)
    | none => []

/-- The schedule of port `p` runs (R394). -/
def Dev.trigRuns (d : Dev) (p : Nat) : Bool :=
  d.flag (F.TRIG_CTRL_EN p) && d.sensing && !d.isRefused (R.TRIG_CTRL p) && (elemAt d.trig p {}).run.isSome

/-- Shows the STIME of the target `t` (ns of DTIME) that was handed over: the next to come. -/
def Dev.showNext (d : Dev) (p t : Nat) : Dev :=
  (d.set (F.TRIG_NEXT_LO_NEXT p) (stimeOfNs t % 2 ^ 32)).set (F.TRIG_NEXT_HI_NEXT p) (stimeOfNs t / 2 ^ 32)

/-- A schedule starts (R394) or resumes after a step (R392): its first target is the first at least 1 ms ahead. -/
def Dev.schedStart (d : Dev) (p : Nat) : Dev :=
  { d with trig := modifyAt d.trig p (fun t => { t with from_ := d.nowNs + 1000000 }) }

/-! ### Contexts -/

/-- The context's state beside its registers. -/
def Dev.ctx (d : Dev) (n : Nat) : CapCtx := elemAt d.cap n {}

/-- Changes a context's state. -/
def Dev.modCtx (d : Dev) (n : Nat) (f : CapCtx → CapCtx) : Dev := { d with cap := modifyAt d.cap n f }

/-- A slot of a context is resolved: coding sessions see it (R288). -/
def Dev.slotSeen (d : Dev) (n fseq sid trig : Nat) (missing jobFirst : Bool) : Dev :=
  d.modCtx n (fun c =>
    let l := c.hist ++ [{ idx := c.slotNo, fseq := fseq, sid := sid, trig := trig, missing := missing, jobFirst := jobFirst, since := d.elapsed }]
    { c with slotNo := c.slotNo + 1, hist := l.drop (l.length - 64) })

/-- The branch buffers of a slot's frame are known: its development started, or was skipped (R215, R289). -/
def Dev.slotBufs (d : Dev) (n fseq : Nat) (bufs : List (Option Nat)) : Dev :=
  d.modCtx n (fun c => { c with hist := c.hist.map (fun (s : SrcSlot) => if s.fseq = fseq then { s with bufs := some bufs, since := d.elapsed } else s) })

/-- The started contexts bound to a port (R122, R123). -/
def Dev.ctxOfPort (d : Dev) (p : Nat) : List Nat :=
  (List.range 16).filter (fun n => d.flag (F.CAP_BIND_EN n) && d.get (F.CAP_BIND_PORT n) = p && (d.ctx n).started)

/-- A transition out of the sensor-running modes is in progress: contexts stop at their frame ends (R64). -/
def Dev.leavingSensing (d : Dev) : Bool :=
  d.inTransition && d.sensing && !(d.get F.DEV_MODE_TARGET = mPreview || d.get F.DEV_MODE_TARGET = mCapture)

/-- Frame accounting of a context runs: it is started, and where it is being stopped its last frame is still open (R64, R126). -/
def Dev.ctxRuns (d : Dev) (n : Nat) : Bool :=
  (d.ctx n).started && (!d.leavingSensing || (d.ctx n).frames.any (fun f => !f.closed))

/-- Raises a limited event of a context: at most once per second per code (R156, R191). -/
def Dev.limited (d : Dev) (n code : Nat) (f : Dev → Dev) : Dev :=
  let last := Sparse.get (fun _ => 0) (d.ctx n).evSec code
  if !d.secOver last then d
  else f (d.modCtx n (fun c => { c with evSec := Sparse.put (fun _ => 0) c.evSec code (d.elapsed + 1) }))

/-- Expected start of a slot in ns (R127). -/
def Dev.slotE (d : Dev) (n : Nat) (s : Slot) : Nat := s.target + d.get (F.CAP_FS_DELAY_FS_DELAY_NS n)

/-- Deadline of a slot in ns (R127). -/
def Dev.slotDeadline (d : Dev) (n : Nat) (s : Slot) : Nat :=
  d.slotE n s + d.get (F.CAP_SLACK_DEADLINE_SLACK_US n) * 1000

/-- Whether a slot accepts an FS now (R127). -/
def Dev.slotAccepts (d : Dev) (n : Nat) (s : Slot) : Bool :=
  d.slotE n s ≤ d.nowNs + d.get (F.CAP_SLACK_EARLY_MARGIN_US n) * 1000 && d.nowNs ≤ d.slotDeadline n s

/-- TRIGGER_TARGET_HANDOVER (R394, R127, R113): the next target of a port's schedule goes to the link, and opens a slot in
the context whose PLAN matches. -/
def execTriggerTargetHandover (p : Fin 8) (s : State) : Host.Outcome State Fault Refusal :=
  s.run (fun d =>
    let ts := elemAt d.trig p {}
    match d.trigRuns p, ts.nextFrom ts.from_ with
    | true, some (t, plan) =>
      let (d, late) := d.queueTrigger p t plan
      let ord := (d.port p).trigOrd
      let slot : Slot := { target := t, ord2 := if late then 2 * ord else 2 * (ord - 1) + 1 }
      let d := ((d.ctxOfPort p).filter (fun n => d.ctxRuns n && decide (d.get (F.CAP_BIND_PLAN n) = plan))).foldl (fun d n =>
        d.modCtx n (fun c => { c with slots := c.slots ++ [slot] })) d
      let d := { d with trig := modifyAt d.trig p (fun ts => { ts with from_ := t + 1 }) }
      d.showNext p t
    | _, _ => d)

/-! ### Exposure settings (R148-R151) -/

/-- The APPLY_FSEQ of a set of context `n` on port `p` for the trigger ordinal `ord` (R150): the first slot that this
trigger or a later one opens. -/
def Dev.applyFseq (d : Dev) (n p ord : Nat) : Nat :=
  let openBefore := ((d.ctx n).slots.filter (fun s => s.ord2 < 2 * ord + 1)).length
  let ts := elemAt d.trig p {}
  let fut := ts.upcoming (ord - (d.port p).trigOrd) ts.from_
  (d.get (F.CAP_FSEQ_FSEQ n) + 1 + openBefore + (fut.filter (fun x => x.2 = d.get (F.CAP_BIND_PLAN n))).length) % 2 ^ 32

/-- T0 of the sets that were sent: the trigger with ordinal `ord` begins (R150). -/
def Dev.expT0 (d : Dev) (p ord : Nat) : Dev :=
  (d.ctxOfPort p).foldl (fun d n =>
    let l : List ExpSet := elemAt d.exps n []
    match l.find? (fun e => e.state == 2) with
    | none => d
    | some e =>
      let a := d.applyFseq n p (ord + d.get (F.CAP_LATCH_LATCH_DELAY n))
      let e' := { e with state := 3, apply := a }
      let d := { d with exps := setAt d.exps n (l.map (fun (x : ExpSet) => if x.sid = e.sid then e' else x)) }
      let d := (d.set (F.CAP_EXP_APPLY_APPLY_FSEQ n) a).set (F.CAP_EXP_STATUS_STATE n) (if e.lost then 4 else 3)
      let d := d.eventCtx 0x0805 sevInfo n n [u16 e.sid, u32 a]
      if e.lost then d.expLostEvent n e' else d) d

/-- The exposure set in effect for slot F (R151): the latest whose APPLY_FSEQ − F ≤ 0. -/
def Dev.expFor (d : Dev) (n f : Nat) : Option ExpSet :=
  (elemAt d.exps n []).foldl (fun acc e =>
    if e.state = 3 ∧ signed 32 (toBits 32 ((e.apply : Int) - f)) ≤ 0 then some e else acc) none

/-- Whether slot F is SID_UNCERTAIN (R151): an unanswered set took effect, and no answered one since. -/
def Dev.sidUncertain (d : Dev) (n f : Nat) : Bool :=
  (elemAt d.exps n []).foldl (fun acc e =>
    if e.state = 3 ∧ signed 32 (toBits 32 ((e.apply : Int) - f)) ≤ 0 then (if e.lost then true else !e.answered && acc)
    else acc) false

/-- The SID in effect for slot F. -/
def Dev.sidFor (d : Dev) (n f : Nat) : Nat :=
  match d.expFor n f with
  | some e => e.sid
  | none => d.get (F.CAP_SID_SID n)

/-- Vertical blanking of a sensor (R149): no accepted frame of the port is open. -/
def Dev.blanking (d : Dev) (p : Nat) : Bool :=
  (d.ctxOfPort p).all (fun n => (d.ctx n).frames.all (fun f => f.closed))

/-- Sends the latched set of a context, if one is queued (R149). -/
def Dev.expSend (d : Dev) (n : Nat) : Dev :=
  let p := d.get (F.CAP_BIND_PORT n)
  let out := (d.port p).bcQueue.any (fun f => f.ctx == some n)
  match (elemAt d.exps n []).find? (fun e => e.state == 1) with
  | some e =>
    if out then d
    else d.bcSend p 3 (bytesBE 2 e.sid ++ bytesBE 1 e.entries.length ++
      e.entries.flatMap (fun x => bytesBE 4 x.1 ++ bytesBE 4 x.2)) (some n) false
  | none => d

/-- EXP_SET_SEND (R149): in vertical blanking the latched set goes out as one EXP_SET. -/
def execExpSetSend (n : Fin 16) (s : State) : Host.Outcome State Fault Refusal :=
  s.run (fun d => if d.blanking (d.get (F.CAP_BIND_PORT n)) then d.expSend n else d)

/-- TRIGGER_SEQUENCE (R110, R113, R150): the next queued sequence is launched at its boundary. -/
def execTriggerSequence (p : Fin 8) (s : State) : Host.Outcome State Fault Refusal :=
  s.run (fun d =>
    match (d.port p).trigQueue with
    | [] => d
    | t :: rest =>
      let d := (d.modPort p (fun lp => { lp with trigQueue := rest })).emit (.trigger p t.id t.fine t.bound)
      d.expT0 p t.ord)

/-- XTRIG_RISE (R114): `XTRIG[p]` rises; with XTRIG only it is T0 of R150. -/
def execXtrigRise (p : Fin 8) (s : State) : Host.Outcome State Fault Refusal :=
  s.run (fun d =>
    match (d.port p).xtrigQueue with
    | [] => d
    | t :: rest =>
      let d := (d.modPort p (fun lp => { lp with xtrigQueue := rest })).pin (pinXtrig p) 1
      if d.get (F.KSL_CTRL_TRIG_SRC p) = 1 then d.expT0 p t.2 else d)

/-- XTRIG_FALL (R114): `XTRIG[p]` falls after WIDTH PIX cycles. -/
def execXtrigFall (p : Fin 8) (s : State) : Host.Outcome State Fault Refusal :=
  s.run (fun d => d.pin (pinXtrig p) 0)

/-! ### Frame records (R136, R137) -/

/-- Bits of FLAGS (R137) that the counts and the rest of a frame give. -/
def CapFrame.allFlags (f : CapFrame) : Nat :=
  let s (i : Nat) (b : Bool) (m : Nat) : Nat := if b then setBit m i true else m
  s 14 (f.raw.isNone) (s 5 (f.damagedN != 0) (s 4 (f.cut != 0) (s 3 (f.padded != 0) (s 2 (f.long != 0)
    (s 1 (f.short != 0) f.flags)))))

/-- A frame record of 64 bytes with its CRC (R136). -/
def recordBytes (fseq sid ctx port flags sfn trig fs : Nat) (ts : List Byte) (ros w h padded cut short long damaged defer
    raw : Nat) : List Byte :=
  let sat (n : Nat) := min n 65535
  let b := bytesLE 4 fseq ++ bytesLE 2 sid ++ bytesLE 1 ctx ++ bytesLE 1 port ++ bytesLE 4 flags ++ bytesLE 4 sfn ++
    bytesLE 8 trig ++ bytesLE 8 fs ++ sliceBytes ts 0 6 ++ bytesLE 1 ros ++ bytesLE 1 0 ++ bytesLE 2 w ++ bytesLE 2 h ++
    bytesLE 2 (sat padded) ++ bytesLE 2 (sat cut) ++ bytesLE 2 (sat short) ++ bytesLE 2 (sat long) ++
    bytesLE 2 (sat damaged) ++ bytesLE 2 (sat defer) ++ bytesLE 4 raw
  b ++ bytesLE 4 (crc32c b)

/-- Where the pixel data lies in a RAW_RING entry: at the 4 KiB boundary after the record, so that RAW_OFFSET, a number of
4 KiB units, names it (R136; DEDUCED, notes/assumptions/22.md). -/
def pixelsAt : Nat := 4096

/-- The record of an accepted frame of context `n`. -/
def Dev.frameRecord (d : Dev) (n : Nat) (f : CapFrame) : List Byte :=
  recordBytes f.fseq f.sid n (d.get (F.CAP_BIND_PORT n)) f.allFlags f.sfn (stimeOfNs f.trig) f.fsStime f.ts
    f.ros.length (d.get (F.CAP_GEOM_WIDTH n)) (d.get (F.CAP_GEOM_HEIGHT n)) f.padded f.cut f.short f.long f.damagedN
    f.deferUs (match f.raw with | some off => (off + pixelsAt) / 4096 | none => 0)

/-- The gap record of a missing slot (R129, R136): TRIG_STIME its target, FS_STIME its deadline. -/
def Dev.gapRecord (d : Dev) (n fseq sid : Nat) (sl : Slot) : List Byte :=
  let flags := 1 + (if d.get F.TIME_STATUS_STATE = 2 then 0 else 2 ^ 12) +
    (if d.sidUncertain n fseq then 2 ^ 13 else 0)
  recordBytes fseq sid n (d.get (F.CAP_BIND_PORT n)) flags 0 (stimeOfNs sl.target) (stimeOfNs (d.slotDeadline n sl)) []
    (d.get (F.CAP_FMT_READOUTS n)) (d.get (F.CAP_GEOM_WIDTH n)) (d.get (F.CAP_GEOM_HEIGHT n)) 0 0 0 0 0 0 0

/-! ### RAW_RING (R138, R139, R434) -/

/-- Bytes of a stripe of R431. -/
def stripeBytes : Nat := 12288

/-- Whether an entry is held (R138). -/
def RawEntry.held (e : RawEntry) : Bool := e.dev || e.krc != 0 || e.sub

/-- Where an entry of `len` bytes would begin: the next stripe boundary, or the pool's start when it would pass its end. -/
def Dev.rawPlace (d : Dev) (len : Nat) : Nat :=
  if d.rawNext + len ≤ d.poolSize poolRaw then d.rawNext else 0

/-- The first held entry that `[off, off + len)` would overwrite. -/
def Dev.rawBlocker (d : Dev) (off len : Nat) : Option RawEntry :=
  d.rawEntries.find? (fun e => e.held && e.off < off + len && off < e.off + e.len)

/-- Takes `[off, off + len)` for a new entry: free entries that it overwrites are gone. -/
def Dev.rawTake (d : Dev) (off len ctx fseq : Nat) : Dev :=
  { d with
    rawEntries := d.rawEntries.filter (fun e => !(e.off < off + len && off < e.off + e.len)) ++
      [{ off := off, len := len, ctx := ctx, fseq := fseq }]
    rawNext := off + len }

/-- Changes the entry of a frame. -/
def Dev.rawModify (d : Dev) (ctx fseq : Nat) (f : RawEntry → RawEntry) : Dev :=
  { d with rawEntries := d.rawEntries.map (fun e => if e.ctx = ctx ∧ e.fseq = fseq then f e else e) }

/-- Pads a byte list with zeros to whole stripes (R434). -/
def padStripes (l : List Byte) : List Byte :=
  l ++ List.replicate ((stripeBytes - l.length % stripeBytes) % stripeBytes) 0

/-- Writes a record alone (R129, R139): in the next stripe when it is free, else into the context's on-die queue of 16. -/
def Dev.recordAlone (d : Dev) (n fseq : Nat) (rec : List Byte) : Dev :=
  let off := d.rawPlace stripeBytes
  if d.poolSize poolRaw < stripeBytes then d.modCtx n (fun c => { c with recQueue := (c.recQueue ++ [rec]).take 16 })
  else match d.rawBlocker off stripeBytes with
    | none => (d.rawTake off stripeBytes n fseq).poolWrite poolRaw off (padStripes rec)
    | some _ => d.modCtx n (fun c => { c with recQueue := (c.recQueue ++ [rec]).take 16 })

/-- Bytes of a whole entry: record, K16 pixels, row residuals (R138, R158), in whole stripes. -/
def entryLen (w h : Nat) : Nat := (pixelsAt + 2 * w * h + 4 * h + stripeBytes - 1) / stripeBytes * stripeBytes

/-- The bytes of a row's K16 codes. -/
def Row.bytes (r : Row) : List Byte := r.k16.flatMap (bytesLE 2)

/-- The bytes of an entry's pixels and residuals. -/
def rowsBytes (rows : List Row) : List Byte :=
  rows.flatMap Row.bytes ++ rows.flatMap (fun r => r.res.flatMap (fun v => bytesLE 2 (toBits 16 v)))

/-! ### Statistics slots (R152-R155) -/

/-- Bytes of a statistics slot (R219: STRIDE 12). -/
def statsSlotBytes : Nat := 12 * 4096

/-- AUX offset of the statistics slot of frame F. -/
def Dev.statsAt (d : Dev) (n f : Nat) : Nat := d.get (F.CAP_STATS_ADDR_BASE n) * 256 + f % 4 * statsSlotBytes

/-- Whether statistics are written for a context. -/
def Dev.statsOn (d : Dev) (n : Nat) : Bool := d.flag (F.COL_CFG_STATS_EN n)

/-- Writes the header of a slot with `state`; `gen` increments GEN when filling starts and when it ends (R152). -/
def Dev.statsHeader (d : Dev) (n fseq sid state : Nat) (done : Nat) : Dev :=
  if !d.statsOn n then d
  else
    let a := d.statsAt n fseq
    let gen := d.poolNat poolAux (a + 8) 4 + (if state = 3 ∨ state = 4 then 2 else 1)
    d.poolWrite poolAux a (bytesLE 4 fseq ++ bytesLE 2 sid ++ bytesLE 1 state ++ bytesLE 1 0 ++ bytesLE 4 gen ++
      bytesLE 8 done ++ List.replicate 12 0)

/-! ### Lines (R132-R135) -/

/-- The pad line `y` of a readout (R134). -/
def padLine (lineRepeat : Bool) (padBlack width : Nat) (ls : List Line) (y : Nat) : List Nat :=
  if lineRepeat ∧ 2 ≤ y then
    match ls[y - 2]? with
    | some l => l.px
    | none => List.replicate width padBlack
  else List.replicate width padBlack

/-- Pixel `x` of a short line, padded under PIX_PAD (R133). -/
def padPixels (pixRepeat : Bool) (padBlack width : Nat) (px : List Nat) : List Nat :=
  (List.range (width - px.length)).foldl (fun acc _ =>
    let x := acc.length
    acc ++ [if pixRepeat ∧ 2 ≤ x then nth acc (x - 2) else padBlack]) px

end Sys2Proof.Machine
end

