-- ==== Sys2Proof/Machine/KrcMath.lean ====
section
/-!
DEFINITION. KRC bit-exactly (R226-R239): prediction, Rice coding, the encoder's choices, the decoder; and the checks of
the general compressor's streams (R247, R254).
-/
namespace Sys2Proof.Machine

/-- A tile's samples with its width. -/
structure TilePix where
  w : Nat
  px : Array Nat

/-- The sample at (u, v). -/
def TilePix.at (t : TilePix) (u v : Nat) : Int := (t.px.getD (v * t.w + u) 0 : Nat)

/-- The reference function of R229. -/
def TilePix.ref (t : TilePix) (u v : Int) : Int :=
  let u := if u < 0 then u % 2 else if (t.w : Int) ≤ u then u - 2 else u
  let v := if v < 0 then v % 2 else v
  t.at u.toNat v.toNat

/-- The colour of tile sample (x, y) (R229). -/
def tileColour (cfa x y : Nat) : Nat := cfa ^^^ (x % 2) ^^^ (y % 2 * 2)

/-- The absolute difference. -/
def absDiff (a b : Int) : Nat := (a - b).natAbs

/-- GAP, predictor 5 (R230). -/
def gapPredict (a b c d ww nn nne : Int) : Int :=
  let dh : Int := absDiff a ww + absDiff b c + absDiff b d
  let dv : Int := absDiff a c + absDiff b nn + absDiff d nne
  let s := dv - dh
  if 160 < s then a
  else if s < -160 then b
  else
    let t := sar ((a + b) * 2 + d - c + 2) 2
    let t := if 64 < s then sar (t + a + 1) 1 else t
    if s < -64 then sar (t + b + 1) 1 else t

/-- The prediction of rule 4 under predictor `pid` (R230), clamped. -/
def predict4 (t : TilePix) (cfa x y pid : Nat) : Int :=
  let r (du dv : Int) : Int := t.ref (x + du) (y + dv)
  let a := r (-2) 0
  let b := r 0 (-2)
  let c := r (-2) (-2)
  let d := r 2 (-2)
  let green := tileColour cfa x y = 1 ∨ tileColour cfa x y = 2
  let p :=
    match pid with
    | 0 => a
    | 1 => b
    | 2 => c
    | 3 => d
    | 4 => if max a b ≤ c then min a b else if c ≤ min a b then max a b else a + b - c
    | 5 => gapPredict a b c d (r (-4) 0) (r 0 (-4)) (r 2 (-4))
    | 6 => if green then sar (r (-1) (-1) + r 1 (-1) + 1) 1 else sar (a + b + 1) 1
    | _ => a + sar (r (-1) 0 - r (-3) 0 + r 0 (-1) - r (-2) (-1)) 1
  clampInt p 0 65535

/-- Prediction and activity of a sample (R230). -/
def predict (t : TilePix) (cfa pred0 x y pid : Nat) : Int × Nat :=
  let r (du dv : Int) : Int := t.ref (x + du) (y + dv)
  if x < 2 ∧ y < 2 then (pred0, 0)
  else if y < 2 then (r (-2) 0, 2 * absDiff (r (-2) 0) (r (-4) 0))
  else if x < 2 then (r 0 (-2), 2 * absDiff (r 0 (-2)) (r 0 (-4)))
  else
    let a := r (-2) 0
    let b := r 0 (-2)
    let c := r (-2) (-2)
    let d := r 2 (-2)
    (predict4 t cfa x y pid, absDiff a c + absDiff b c + absDiff b d)

/-- The activity class (R231). -/
def classOf (g : Nat) : Nat :=
  ([2, 4, 6, 8, 12, 16, 24, 32, 48, 64, 96, 128, 192, 256, 512].filter (fun t => t ≤ g)).length

/-- The Rice parameter of a context (R232): the smallest k with N·2^k ≥ A, at most 16. -/
def riceK (n a : Nat) : Nat := ((List.range 16).find? (fun k => a ≤ n * 2 ^ k)).getD 16

/-- The update of a context (R232). -/
def riceUpdate (n a m : Nat) : Nat × Nat :=
  if n + 1 = 64 then (32, (a + m + 1) / 2) else (n + 1, a + m)

/-- The low `n` bits of `v`, most significant first. -/
def bitsMsb (n v : Nat) : List Bool := (List.range n).map (fun i => v / 2 ^ (n - 1 - i) % 2 = 1)

/-- The code of a mapped residue (R232). -/
def riceCode (k m : Nat) : List Bool :=
  if m / 2 ^ k < 24 then List.replicate (m / 2 ^ k) false ++ [true] ++ bitsMsb k m
  else List.replicate 24 false ++ bitsMsb 17 m

/-- The mapped residue (R233). -/
def mapResidue (e : Int) : Nat := if 0 ≤ e then 2 * e.toNat else 2 * (-e).toNat - 1

/-- Quantised residue and reconstruction of `v` under prediction `p` with step `q`; q = 1 is lossless (R233, R234). -/
def residue (q : Nat) (v p : Int) : Int × Nat :=
  if q = 1 then (signed 16 (toBits 16 (v - p)), v.toNat)
  else
    let e := v - p
    let qe := if 0 ≤ e then (e + (q / 2 : Nat)) / q else -((-e + (q / 2 : Nat)) / q)
    (qe, (clampInt (p + qe * q) 0 65535).toNat)

/-- Bits to bytes, most significant bit first, padded with zero bits. -/
def packBits : Nat → List Bool → List Byte
  | 0, _ => []
  | n + 1, l =>
    if l.isEmpty then []
    else
      let v := (List.range 8).foldl (fun acc i => acc * 2 + b2n (l.getD i false)) 0
      BitVec.ofNat 8 v :: packBits n (l.drop 8)

/-- The candidate predictors of a level (R236). -/
def levelCands (level : Nat) : List Nat :=
  match level / 2 with
  | 0 => [4]
  | 1 => [4, 5]
  | 2 => [4, 5, 6, 7]
  | _ => [0, 1, 2, 3, 4, 5, 6, 7]

/-- The predictor of block (bx, by) (R237). -/
def blockPid (src : TilePix) (cfa level h bx by_ : Nat) : Nat :=
  let cands := levelCands level
  let sites := (List.range 16).flatMap (fun j => (List.range 16).filterMap (fun i =>
    let x := 16 * bx + i
    let y := 16 * by_ + j
    if 2 ≤ x ∧ 2 ≤ y ∧ x < src.w ∧ y < h then some (x, y) else none))
  let cost (pid : Nat) : Nat := sumNat (sites.map (fun s => absDiff (src.at s.1 s.2) (predict4 src cfa s.1 s.2 pid)))
  (cands.foldl (fun best pid =>
    let c := cost pid
    match best with
    | some (b, p) => if c < b then some (c, pid) else some (b, p)
    | none => some (c, pid)) (none : Option (Nat × Nat))).elim 4 (·.2)

/-- The parameters of a coded tile. -/
structure KrcParams where
  cfa : Nat
  pred0 : Nat
  q : Nat
  pids : Array Nat
  nbx : Nat

/-- The state of the sample loop: reconstruction, contexts N and A, bits written so far. -/
structure KrcLoop where
  out : Array Nat
  n : Array Nat
  a : Array Nat
  bits : Array Bool

/-- The contexts at the start of a tile (R231). -/
def krcInit (kinit : List Nat) (size : Nat) : KrcLoop :=
  { out := Array.replicate size 0, n := Array.replicate 64 1
    a := ((List.range 64).map (fun i => 2 ^ nth kinit (i / 16))).toArray, bits := #[] }

/-- Codes sample `i` of a tile. -/
def krcStep (p : KrcParams) (src : TilePix) (s : KrcLoop) (i : Nat) : KrcLoop :=
  let x := i % src.w
  let y := i / src.w
  let (pr, g) := predict ⟨src.w, s.out⟩ p.cfa p.pred0 x y (p.pids.getD (y / 16 * p.nbx + x / 16) 4)
  let c := 16 * tileColour p.cfa x y + classOf g
  let k := riceK (s.n.getD c 1) (s.a.getD c 1)
  let (e, r) := residue p.q (src.px.getD i 0 : Nat) pr
  let m := mapResidue e
  let (n', a') := riceUpdate (s.n.getD c 1) (s.a.getD c 1) m
  { out := s.out.set! i r, n := s.n.set! c n', a := s.a.set! c a', bits := s.bits ++ (riceCode k m).toArray }

/-- KINIT of the second pass for colour `col` (R238). -/
def secondPassK (p : KrcParams) (src : TilePix) (h col : Nat) : Nat :=
  let ms := (List.range (src.w * h)).filterMap (fun i =>
    let x := i % src.w
    let y := i / src.w
    if tileColour p.cfa x y = col then
      let (pr, _) := predict src p.cfa p.pred0 x y (p.pids.getD (y / 16 * p.nbx + x / 16) 4)
      some (mapResidue (residue p.q (src.px.getD i 0 : Nat) pr).1)
    else none)
  ((List.range 16).find? (fun k => sumNat ms ≤ ms.length * 2 ^ k)).getD 15

/-- A coded tile (R227, R228, R236-R239): its header and payload, and whether it is stored. -/
def krcEncode (level cfa pred0 q kinit0 w h : Nat) (px : List Nat) : List Byte × Bool :=
  let src : TilePix := ⟨w, px.toArray⟩
  let nbx := (w + 15) / 16
  let nby := (h + 15) / 16
  let pids := ((List.range (nbx * nby)).map (fun i => blockPid src cfa level h (i % nbx) (i / nbx))).toArray
  let p : KrcParams := { cfa := cfa, pred0 := pred0, q := q, pids := pids, nbx := nbx }
  let kinit := (List.range 4).map (fun c => if level % 2 = 1 then secondPassK p src h c else kinit0)
  let fin := (List.range (w * h)).foldl (krcStep p src) (krcInit kinit (w * h))
  let bits := pids.toList.flatMap (bitsMsb 3) ++ fin.bits.toList
  let payload := packBits (bits.length / 8 + 1) bits
  let stored := 2 * w * h ≤ payload.length
  let samples := if stored then px else fin.out.toList
  let mode := if stored then 2 else if q = 1 then 0 else 1
  let qsel := if mode = 1 then q - 2 else 0
  let payload := if stored then px.flatMap (bytesBE 2) else payload
  let crc := crc32c (samples.flatMap (bytesLE 2))
  let kw := sumNat ((List.range 4).map (fun c => nth kinit c * 16 ^ c))
  (bytesBE 1 (mode + qsel * 4 + level * 16) ++ bytesBE 1 (cfa * 64 + (h - 1)) ++ bytesBE 2 w ++ bytesBE 2 pred0 ++
    bytesBE 2 kw ++ bytesBE 4 payload.length ++ bytesBE 4 crc ++ payload, stored)

/-! ### The decoder (R235) -/

/-- A bit reader: the bits left, and whether it read past the end. -/
structure BitIn where
  bits : List Bool
  past : Bool := false

/-- The bits of bytes, most significant first. -/
def bitsOfBytes (l : List Byte) : List Bool := l.flatMap (fun b => bitsMsb 8 b.toNat)

/-- Reads `n` bits. -/
def BitIn.read : Nat → BitIn → Nat → Nat × BitIn
  | 0, b, acc => (acc, b)
  | n + 1, b, acc =>
    match b.bits with
    | [] => BitIn.read n { b with past := true } (acc * 2)
    | x :: rest => BitIn.read n { b with bits := rest } (acc * 2 + b2n x)

/-- Reads a Rice code (R235). -/
def readRice : Nat → Nat → BitIn → Nat × BitIn
  | 0, _, b => b.read 17 0
  | fuel + 1, k, b =>
    match b.read 1 0 with
    | (0, b) => readRice fuel k b
    | (_, b) =>
      let (low, b) := b.read k 0
      ((23 - fuel) * 2 ^ k + low, b)

/-- Decodes sample `i`. -/
def krcDecStep (p : KrcParams) (w : Nat) (s : KrcLoop × BitIn) (i : Nat) : KrcLoop × BitIn :=
  let x := i % w
  let y := i / w
  let (pr, g) := predict ⟨w, s.1.out⟩ p.cfa p.pred0 x y (p.pids.getD (y / 16 * p.nbx + x / 16) 4)
  let c := 16 * tileColour p.cfa x y + classOf g
  let (m, b) := readRice 24 (riceK (s.1.n.getD c 1) (s.1.a.getD c 1)) s.2
  let e : Int := if m % 2 = 1 then -((m + 1) / 2 : Nat) else (m / 2 : Nat)
  let v := if p.q = 1 then toBits 16 (pr + e) else (clampInt (pr + e * p.q) 0 65535).toNat
  let (n', a') := riceUpdate (s.1.n.getD c 1) (s.1.a.getD c 1) m
  ({ s.1 with out := s.1.out.set! i v, n := s.1.n.set! c n', a := s.1.a.set! c a' }, b)

/-- The outcome of decoding a tile: samples, or the cause of R255 (1 header, 2 length, 3 SAMPLE_CRC). -/
inductive KrcResult where
  | ok (px : List Nat)
  | bad (cause : Nat)
  deriving DecidableEq, Repr

/-- Decodes a tile of expected size `w` × `h` (R235). -/
def krcDecode (w h : Nat) (bytes : List Byte) : KrcResult :=
  let b (i : Nat) : Nat := (bytes.getD i 0).toNat
  let mode := b 0 % 4
  let qsel := b 0 / 4 % 4
  let th := b 1 % 64 + 1
  let cfa := b 1 / 64
  let tw := beNat (sliceBytes bytes 2 2)
  let pred0 := beNat (sliceBytes bytes 4 2)
  let kw := beNat (sliceBytes bytes 6 2)
  let plen := beNat (sliceBytes bytes 8 4)
  let crc := beNat (sliceBytes bytes 12 4)
  if bytes.length < 16 ∨ mode = 3 ∨ 128 ≤ b 0 ∨ tw ≠ w ∨ th ≠ h ∨ plen = 0 ∨ (mode ≠ 1 ∧ qsel ≠ 0) ∨ qsel = 3 then
    .bad 1
  else
    let payload := (bytes.drop 16).take plen
    if payload.length < plen then .bad 2
    else if mode = 2 then
      let px := (List.range (w * h)).map (fun i => beNat (sliceBytes payload (2 * i) 2))
      if plen ≠ 2 * w * h then .bad 2
      else if crc32c (px.flatMap (bytesLE 2)) ≠ crc then .bad 3 else .ok px
    else
      let nbx := (w + 15) / 16
      let nby := (h + 15) / 16
      let (pids, bi) := (List.range (nbx * nby)).foldl (fun (acc : Array Nat × BitIn) _ =>
        let (v, bi) := acc.2.read 3 0
        (acc.1.push v, bi)) (#[], { bits := bitsOfBytes payload })
      let p : KrcParams := { cfa := cfa, pred0 := pred0, q := if mode = 1 then qsel + 2 else 1, pids := pids, nbx := nbx }
      let (s, bi) := (List.range (w * h)).foldl (krcDecStep p w)
        (krcInit ((List.range 4).map (fun c => kw / 16 ^ c % 16)) (w * h), bi)
      if bi.past ∨ 8 ≤ bi.bits.length then .bad 2
      else if bi.bits.any id then .bad 1
      else if crc32c (s.out.toList.flatMap (bytesLE 2)) ≠ crc then .bad 3
      else .ok s.out.toList

/-! ### zlib (R247) -/

/-- Adler-32 of RFC 1950. -/
def adler32 (l : List Byte) : Nat :=
  let (a, b) := l.foldl (fun (acc : Nat × Nat) x =>
    let a := (acc.1 + x.toNat) % 65521
    (a, (acc.2 + a) % 65521)) (1, 0)
  b * 65536 + a

/-- FLG of a general-mode level (R246). -/
def zlibFlg (level : Nat) : Nat :=
  if level ≤ 1 then 0x01 else if level ≤ 5 then 0x5E else if level = 6 then 0x9C else 0xDA

/-- The output stream of a general job (R245, R247). The DEFLATE bytes are a free value. -/
def generalStream (level : Nat) (zlib : Bool) (src : List Byte) : List Byte :=
  if zlib then bytesBE 1 0x78 ++ bytesBE 1 (zlibFlg level) ++ Config.deflate level src ++ bytesBE 4 (adler32 src)
  else Config.deflate level src

end Sys2Proof.Machine
end

