-- ==== Sys2Proof/Machine/Develop.lean ====
section
/-!
DEFINITION. Development of a frame: settings latched at its start, branches, DEV_STORE buffers, statistics and tensors
(R192-R224).
-/
namespace Sys2Proof.Machine

/-! ### Settings of a frame (R223, R224) -/

/-- The words in effect of a context's colour registers. -/
def Dev.colWords (d : Dev) (n : Nat) : Sparse Word :=
  d.regs.eff.filter (fun e => R.COL_CFG n ≤ e.1 && e.1 < R.COL_CFG n + 0x800)

/-- An RWS field as the frame latched it. -/
def CapFrame.colGet (f : CapFrame) (x : Fld) : Nat := (Sparse.get resetWord f.col x.addr).field x.lo x.width

/-- A context by number and FSEQ. -/
def Dev.frame? (d : Dev) (n fseq : Nat) : Option CapFrame := (d.ctx n).frames.find? (fun f => f.fseq == fseq)

/-- Changes a frame. -/
def Dev.modFrame (d : Dev) (n fseq : Nat) (g : CapFrame → CapFrame) : Dev :=
  d.modCtx n (fun c => { c with frames := c.frames.map (fun f => if f.fseq = fseq then g f else f) })

/-- The context geometry as the colour engine sees it: active width and height. -/
def Dev.activeWH (d : Dev) (n : Nat) : Nat × Nat := ((d.rawcCfg n).w, d.get (F.CAP_GEOM_HEIGHT n))

/-- Enabled branches of a context that have not refused to start. -/
def Dev.branches (d : Dev) (n : Nat) : List Nat :=
  (List.range 6).filter (fun b => d.flag (F.COL_BR_CFG_EN n b) && !d.isRefused (R.COL_BR_CFG n b))

/-! ### Output layout (R212, R213) -/

/-- Depth in bits of a DEPTH code of a branch. -/
def brDepth : Nat → Nat
  | 0 => 8 | 1 => 10 | 2 => 12 | _ => 16

/-- Number rounded up to a multiple. -/
def roundUp (a m : Nat) : Nat := (a + m - 1) / m * m

/-- The planes of a format: bytes of a line and lines, for a `w` × `h` picture. -/
def planesOf (fmt w h : Nat) : List (Nat × Nat) :=
  let cw := (w + 1) / 2
  let chh := (h + 1) / 2
  match fmt with
  | 0 => List.replicate 3 ((w + 1) / 2 * 3, h)
  | 1 => List.replicate 3 (2 * w, h)
  | 2 => [(2 * w, h), (4 * cw, h)]
  | 3 => [(2 * w, h), (4 * cw, chh)]
  | 4 => [(w, h), (2 * cw, h)]
  | _ => [(w, h), (2 * cw, chh)]

/-- Pitch of each plane. -/
def pitches (fmt w h : Nat) : List Nat := (planesOf fmt w h).map (fun p => roundUp p.1 256)

/-- Offset of each plane from the buffer start, in bytes: planes follow from 4 KiB on, each on a 4 KiB boundary. -/
def planeOffs (fmt w h : Nat) : List Nat :=
  ((planesOf fmt w h).foldl (fun (acc : List Nat × Nat) p =>
    (acc.1 ++ [acc.2], acc.2 + roundUp (roundUp p.1 256 * p.2) 4096)) ([], 4096)).1

/-- Key of a branch buffer. -/
def brBufKey (n b i : Nat) : Nat := 16 * (6 * n + b) + i

/-- Whether a buffer is held (R215). -/
def Dev.bufHeld (d : Dev) (key : Nat) : Bool := d.holds.any (fun h => h.buf == key)

/-- A holder takes a buffer. -/
def Dev.hold (d : Dev) (key by_ : Nat) : Dev :=
  if d.holds.any (fun h => h.buf == key && h.by_ == by_) then d
  else { d with holds := d.holds ++ [{ buf := key, by_ := by_ }] }

/-- A holder releases everything it holds. -/
def Dev.releaseBy (d : Dev) (by_ : Nat) : Dev := { d with holds := d.holds.filter (fun h => !(h.by_ == by_)) }

/-- A holder releases one buffer. -/
def Dev.release (d : Dev) (key by_ : Nat) : Dev :=
  { d with holds := d.holds.filter (fun h => !(h.buf == key && h.by_ == by_)) }

/-- Byte offset in DEV_STORE of buffer `i` of a branch. -/
def Dev.brBufAt (d : Dev) (n b i : Nat) : Nat :=
  (d.get (F.COL_BR_OUT_BASE_BASE n b) + i * d.get (F.COL_BR_OUT_RING_STRIDE n b)) * 4096

/-- Writes a little-endian field of a buffer. -/
def Dev.devPut (d : Dev) (off len v : Nat) : Dev := d.poolWrite poolDev off (bytesLE len v)

/-- The descriptor of a frame in a branch buffer (R213). -/
def Dev.brDescriptor (d : Dev) (n b : Nat) (f : CapFrame) (mark lines done gen : Nat) : List Byte :=
  let fmt := d.get (F.COL_BR_CFG_FORMAT n b)
  let w := d.get (F.COL_BR_OUT_WH_W n b)
  let h := d.get (F.COL_BR_OUT_WH_H n b)
  let ps := pitches fmt w h
  let os := planeOffs fmt w h
  let lut := if f.colGet (F.COL_BR_LUT_LUT3D_EN n b) = 1 then d.get (F.COL_BR_LUT_STATUS_IDX_IN_EFFECT n b) else 0xFF
  bytesLE 4 f.fseq ++ bytesLE 2 f.sid ++ bytesLE 1 n ++ bytesLE 1 b ++ bytesLE 4 (f.allFlags % 2 ^ 15 + mark) ++
    bytesLE 4 lines ++ bytesLE 8 (stimeOfNs f.trig) ++ bytesLE 8 done ++ bytesLE 2 w ++ bytesLE 2 h ++
    bytesLE 1 fmt ++ bytesLE 1 (d.get (F.COL_BR_CFG_TF n b)) ++
    bytesLE 1 (d.get (F.COL_BR_CFG_YCC n b) + 128 * d.get (F.COL_BR_CFG_RANGE n b)) ++ bytesLE 1 lut ++
    (List.range 3).flatMap (fun i => bytesLE 2 (nth ps i)) ++ bytesLE 2 0 ++
    (List.range 3).flatMap (fun i => bytesLE 4 (nth os i / 4096)) ++ bytesLE 4 gen

/-! ### Rendering -/

/-- A grid from rows of K16 codes. -/
def k16Grid (rows : List Row) : Grid := (rows.map (fun r => (r.k16.map Int.ofNat).toArray)).toArray

/-- The defect map that a frame of a port is corrected under (R177). -/
def Dev.mapFor (d : Dev) (p gen : Nat) : List DefectEntry :=
  let m := elemAt d.dmap p {}
  if gen = d.get (F.RAWC_DMAP_GEN_GEN p) then m.cur else m.old

/-- The RAWC settings of a frame: of its context, or for a frame of OFFLOAD those of its clip (R346). -/
def Dev.frameCfg (d : Dev) (n : Nat) (f : CapFrame) : RawcCfg :=
  match f.clip with
  | some c => { d.rawcCfg n with k16a := c.k16a, k16b := c.k16b, k16black := c.k16black, cfa := c.cfa }
  | none => d.rawcCfg n

/-- Step 4 of a frame: correction under its map, detection under its gain's threshold (R176, R178, R179). -/
def Dev.frameDefects (d : Dev) (n : Nat) (f : CapFrame) (rows : List Row) : DefectOut :=
  let (w, _) := d.activeWH n
  let p := d.get (F.CAP_BIND_PORT n)
  let cfg := (f.rawc.getD 0 0)
  let sense := d.sensing
  correctDefects
    { dmapEn := cfg.field 0 1 = 1, detect := cfg.field 1 1 = 1 && sense
      correct := cfg.field 1 1 = 1 && cfg.field 2 1 = 1 && sense
      t := (d.ctx n).thr.getD f.gain 48, sigma := (d.ctx n).sigma.getD f.gain 2048 }
    (k16Grid rows) ((f.clip.map (·.map)).getD (d.mapFor p f.gen)) w rows.length

/-- Steps 5 and 6 (R187-R189) over the corrected K16 plane. -/
def Dev.mosaicOf (d : Dev) (n : Nat) (f : CapFrame) (rows : List Row) (plane : Grid) : Grid :=
  let c := d.frameCfg n f
  let w := c.w
  let cfg := (f.rawc.getD 0 0)
  let fromClip (l : ClipIn → List Byte) (i : Nat) : Option Nat := f.clip.map (fun c => leAt (l c) i 2)
  let shift := ((f.clip.map (fun c => leAt c.flat 4 1)).getD (d.get (F.RAWC_FF_SHIFT n)))
  let nx := (fromClip ClipIn.flat 0).getD (d.get (F.RAWC_FF_NX n))
  let ny := (fromClip ClipIn.flat 2).getD (d.get (F.RAWC_FF_NY n))
  let node (k j i : Nat) : Nat :=
    let o := 2 * ((k * ny + j) * nx + i)
    (fromClip ClipIn.flat (8 + o)).getD (d.poolNat poolAux (d.get (F.RAWC_FF_ADDR_BASE n) * 256 + o) 2)
  let rowK := (f.rawc.getD 1 0).field 0 8
  let col (x y : Nat) : Int :=
    if cfg.field 6 1 = 1 then
      let o := 4 * x + 2 * (y % 2)
      signed 16 ((fromClip ClipIn.column o).getD (d.poolNat poolAux (d.get (F.RAWC_COL_ADDR_BASE n) * 256 + o) 2)) else 0
  Grid.make w rows.length (fun x y =>
    let lin := k16Decode c.k16a c.k16b c.k16black (plane.at x y).toNat
    let k := cfaAt c.cfa x y
    let v := if cfg.field 4 1 = 1 then applyGain lin (flatGain node shift k x y) else lin
    let res := if cfg.field 5 1 = 1 then (elemAt rows y { k16 := [], res := [] }).res.getD (k % 2) 0 else 0
    if cfg.field 5 1 = 1 ∨ cfg.field 6 1 = 1 then rowCol v res rowK (col x y) else v)

/-- The pictures of the context stages. -/
structure CtxPics where
  mosaic : Grid
  green : Grid
  /-- after stage 2 -/
  cam : Rgb
  /-- after stage 5 -/
  ap0 : Rgb

/-- Context stages 1-5 (R192-R196) of a frame from its merged rows; rows that have not come are absent. -/
def Dev.ctxPics (d : Dev) (n : Nat) (f : CapFrame) (rows : List Row) (plane : Grid) : CtxPics :=
  let (w, h) := d.activeWH n
  let cfa := (d.frameCfg n f).cfa
  let m := d.mosaicOf n f rows plane
  let g := Grid.make w h (fun x y => greenAt m w h cfa x y)
  let rgb := Rgb.make w h (fun x y => demosaicAt m g w h cfa x y)
  let cam := if f.colGet (F.COL_CFG_CAS_EN n) = 1 then
      Rgb.make w h (fun x y => casAt rgb w h (f.colGet (F.COL_CAS_CAS_K n)) (f.colGet (F.COL_CAS_CAS_T n)) x y)
    else rgb
  let wb := (f.colGet (F.COL_WB0_R n), f.colGet (F.COL_WB0_G n), f.colGet (F.COL_WB1_B n))
  let mat := (List.range 12).map (fun k => signed 32 (f.colGet (F.COL_CAM_C n k)))
  let gain := f.colGet (F.COL_EXP_GAIN_GAIN n)
  { mosaic := m, green := g, cam := cam, ap0 := Rgb.make w h (fun x y => toAp0 wb mat gain (cam.at x y)) }

/-- A filter coefficient of a branch (R200): axis 0 horizontal, 1 vertical. -/
def Dev.coef (d : Dev) (n b axis ph t : Nat) : Int :=
  signed 16 (d.poolNat poolAux (d.get (F.COL_BR_COEF_ADDR_BASE n b) * 256 + axis * 1024 + 2 * (8 * ph + t)) 2)

/-- A node of a library table in Q12.20 (R203, R204). -/
def Dev.lutNode (d : Dev) (t r g b : Nat) : Int × Int × Int :=
  let a := 0x02300000 + t * 0x1A0000 + 6 * (r + 65 * g + 4225 * b)
  let half (i : Nat) : Int := halfToQ20 (leNat ((List.range 2).map (fun j =>
    Sparse.get (fun _ => 0) d.windows (a + 2 * i + j))))
  (half 0, half 1, half 2)

/-- Branch stages 2-5 of one pixel: u16 codes of R'G'B' (R198, R202-R207). -/
def Dev.brPixel (d : Dev) (n b : Nat) (f : CapFrame) (v : Int × Int × Int) : Int × Int × Int :=
  let o := matrix34 ((List.range 12).map (fun k => signed 32 (d.get (F.COL_BR_MAT_C n b k)))) v
  let sh := f.colGet (F.COL_BR_LUT_SHAPER_EN n b) = 1
  let coord (c : Nat) (x : Int) : Nat :=
    if sh then lookup (fun i => d.poolNat poolAux
        (f.colGet (F.COL_BR_SHAPER_ADDR_BASE n b) * 256 + c * 8192 + 2 * i) 2) x
    else (clampInt (sar x 4) 0 65535).toNat
  let o := if f.colGet (F.COL_BR_LUT_LUT3D_EN n b) = 1 then
      lut3d (d.lutNode (d.get (F.COL_BR_LUT_STATUS_IDX_IN_EFFECT n b))) (coord 0 o.1, coord 1 o.2.1, coord 2 o.2.2)
    else o
  let tf := d.get (F.COL_BR_CFG_TF n b)
  let t (i : Nat) : Nat :=
    if tf = 6 then d.poolNat poolAux (d.get (F.COL_BR_TF_ADDR_BASE n b) * 256 + 2 * i) 2
    else tfEntry tf (d.get (F.COL_BR_PQ_NITS n b)) i
  map3 (fun x => (lookup t x : Int)) o

/-- Display overlays of one pixel (R208): `luma` gives Y' of the picture at an offset. -/
def Dev.overlay (d : Dev) (n b : Nat) (f : CapFrame) (x y : Nat) (luma : Int → Int → Int) (v : Int × Int × Int) :
    Int × Int × Int :=
  let yv := luma 0 0
  let on (fl : Fld) : Bool := f.colGet fl = 1
  let ten (m lo : Nat) : Int := (m / 2 ^ lo % 1024 * 64 : Nat)
  let v := if on (F.COL_BR_DISP_FALSE_EN n b) then
      let ent (i : Nat) : Nat := d.poolNat poolAux (f.colGet (F.COL_BR_FALSE_ADDR_BASE n b) * 256 + 8 * i) 8
      let i := ((List.range 15).find? (fun i => decide (yv < (ent i % 65536 : Nat)))).getD 15
      let e := ent i
      if bitOf e 46 then (yv, yv, yv) else (ten e 16, ten e 26, ten e 36)
    else v
  let mark : Int × Int × Int := if 32768 ≤ yv then (0, 0, 0) else (65535, 65535, 65535)
  let v := if on (F.COL_BR_DISP_Z1_EN n b) && decide ((f.colGet (F.COL_BR_ZEBRA1_Z1_LO n b) : Int) ≤ yv)
      && decide (yv ≤ (f.colGet (F.COL_BR_ZEBRA1_Z1_HI n b) : Int)) && (x + y) / 8 % 2 = 1 then mark else v
  let v := if on (F.COL_BR_DISP_Z2_EN n b) && decide ((f.colGet (F.COL_BR_ZEBRA2_Z2_LEVEL n b) : Int) ≤ yv)
      && sar ((x : Int) - y) 3 % 2 = 1 then mark else v
  if on (F.COL_BR_DISP_PEAK_EN n b) &&
      decide ((f.colGet (F.COL_BR_DISP_PEAK_T n b)) < (4 * yv - luma (-1) 0 - luma 1 0 - luma 0 (-1) - luma 0 1).natAbs)
  then
    let c := f.colGet (F.COL_BR_PEAK_COLOUR_RGB n b)
    (ten c 0, ten c 10, ten c 20)
  else v

/-- The Y'CbCr or R'G'B' picture of a branch before subsampling (stages 1-7). -/
def Dev.brPicture (d : Dev) (n b : Nat) (f : CapFrame) (ap0 : Rgb) : Rgb :=
  let iw := d.get (F.COL_BR_CROP_WH_W n b)
  let ih := d.get (F.COL_BR_CROP_WH_H n b)
  let ow := d.get (F.COL_BR_OUT_WH_W n b)
  let oh := d.get (F.COL_BR_OUT_WH_H n b)
  let sc (g : Grid) : Grid := scalePlane (d.coef n b 0) (d.coef n b 1) g (d.get (F.COL_BR_CROP_XY_X0 n b))
    (d.get (F.COL_BR_CROP_XY_Y0 n b)) iw ih ow oh
  let s : Rgb := (sc ap0.1, sc ap0.2.1, sc ap0.2.2)
  let code := Rgb.make ow oh (fun x y => d.brPixel n b f (s.at x y))
  let ycc := d.get (F.COL_BR_CFG_YCC n b)
  let ov := if d.get (F.COL_BR_CFG_KIND n b) = 0 then
      Rgb.make ow oh (fun x y => d.overlay n b f x y (fun dx dy =>
        lumaOf ycc (code.at (clampInt ((x : Int) + dx) 0 ((ow : Int) - 1)).toNat
          (clampInt ((y : Int) + dy) 0 ((oh : Int) - 1)).toNat)) (code.at x y))
    else code
  Rgb.make ow oh (fun x y => toYcc ycc (d.flag (F.COL_BR_CFG_RANGE n b)) (ov.at x y))

/-- Chroma at even `x` of a line (R210). -/
def chroma422 (g : Grid) (w x y : Nat) : Int :=
  let c (i : Int) : Int := g.at (clampInt i 0 ((w : Int) - 1)).toNat y
  sar (c ((x : Int) - 1) + 2 * c x + c ((x : Int) + 1) + 2) 2

/-- Packs 12-bit samples by pairs (R212). -/
def pack12 : List Nat → List Byte
  | a :: b :: rest => [BitVec.ofNat 8 a, BitVec.ofNat 8 (a / 256 + b % 16 * 16), BitVec.ofNat 8 (b / 16)] ++ pack12 rest
  | [a] => [BitVec.ofNat 8 a, BitVec.ofNat 8 (a / 256), 0]
  | [] => []

/-- The bytes of output line `y` of each plane of a picture: (plane, line, bytes) (R210-R212). -/
def Dev.packLine (d : Dev) (n b : Nat) (f : CapFrame) (p : Rgb) (y : Nat) : List (Nat × Nat × List Byte) :=
  let fmt := d.get (F.COL_BR_CFG_FORMAT n b)
  let depth := brDepth (d.get (F.COL_BR_CFG_DEPTH n b))
  let w := d.get (F.COL_BR_OUT_WH_W n b)
  let h := d.get (F.COL_BR_OUT_WH_H n b)
  let seed := d.get (F.COL_BR_DITHER_SEED_SEED n b)
  let dith := f.colGet (F.COL_BR_CFG_DITHER n b) = 1
  let q (yy x k : Nat) (v : Int) : Nat := quantise depth (if dith then some (ditherNoise seed depth yy x k) else none) v
  let s16 (v : Nat) : List Byte := bytesLE 2 (v * 2 ^ (16 - depth))
  let s12 (v : Nat) : Nat := v * 2 ^ (12 - min depth 12)
  let xs := List.range w
  let cxs := (List.range ((w + 1) / 2)).map (2 * ·)
  let chr (yy : Nat) (avg : Bool) (x : Nat) : Nat × Nat :=
    let c (g : Grid) : Int :=
      if avg then
        let y1 := min (yy + 1) (h - 1)
        sar (chroma422 g w x yy + chroma422 g w x y1 + 1) 1
      else chroma422 g w x yy
    (q yy x (8 * (x % 16 / 2) + 2) (c p.2.1), q yy x (8 * (x % 16 / 2) + 4) (c p.2.2))
  let lumaStep (has : Bool) (x : Nat) : Nat :=
    if has then 8 * (x % 16 / 2) + (if x % 2 = 0 then 0 else 6) else 2 * (x % 16)
  match fmt with
  | 0 => [0, 1, 2].map (fun c => (c, y, pack12 (xs.map (fun x =>
      s12 (q y x (6 * (x % 16) + 2 * c) ([p.1, p.2.1, p.2.2].getD c #[] |>.at x y))))))
  | 1 => [0, 1, 2].map (fun c => (c, y, xs.flatMap (fun x =>
      s16 (q y x (6 * (x % 16) + 2 * c) ([p.1, p.2.1, p.2.2].getD c #[] |>.at x y)))))
  | 2 | 4 =>
    let e (v : Nat) : List Byte := if fmt = 2 then s16 v else bytesLE 1 v
    [(0, y, xs.flatMap (fun x => e (q y x (lumaStep true x) (p.1.at x y)))),
     (1, y, cxs.flatMap (fun x => let c := chr y false x; e c.1 ++ e c.2))]
  | _ =>
    let e (v : Nat) : List Byte := if fmt = 3 then s16 v else bytesLE 1 v
    [(0, y, xs.flatMap (fun x => e (q y x (lumaStep (y % 2 = 0) x) (p.1.at x y))))] ++
    (if y % 2 = 1 ∨ y + 1 = h then
      [(1, y / 2, cxs.flatMap (fun x => let c := chr (y / 2 * 2) true x; e c.1 ++ e c.2))] else [])

/-- Output lines of a branch that can be complete once `rows` merged lines of the frame exist (R214). -/
def Dev.linesReady (d : Dev) (n b : Nat) (f : CapFrame) (rows : Nat) : Nat :=
  let (_, h) := d.activeWH n
  let ih := d.get (F.COL_BR_CROP_WH_H n b)
  let oh := d.get (F.COL_BR_OUT_WH_H n b)
  let y0 := d.get (F.COL_BR_CROP_XY_Y0 n b)
  let margin := 8 + f.colGet (F.COL_CFG_CAS_EN n)
  let extra := if f.colGet (F.COL_BR_DISP_PEAK_EN n b) = 1 ∨ d.get (F.COL_BR_CFG_FORMAT n b) % 2 = 1 then 1 else 0
  ((List.range oh).takeWhile (fun i =>
    decide (min (y0 + scaleReach ih oh (min (i + extra) (oh - 1)) + margin) (h - 1) < rows))).length

/-- Writes output lines `[a, z)` of a branch's picture into its buffer (R212, R213). -/
def Dev.writeLines (d : Dev) (n b i : Nat) (f : CapFrame) (p : Rgb) (a z : Nat) : Dev :=
  let fmt := d.get (F.COL_BR_CFG_FORMAT n b)
  let w := d.get (F.COL_BR_OUT_WH_W n b)
  let h := d.get (F.COL_BR_OUT_WH_H n b)
  let base := d.brBufAt n b i
  let ps := pitches fmt w h
  let os := planeOffs fmt w h
  (List.range (z - a)).foldl (fun d k =>
    (d.packLine n b f p (a + k)).foldl (fun d l =>
      d.poolWrite poolDev (base + nth os l.1 + l.2.1 * nth ps l.1) l.2.2) d) d

/-- Advances the branches of a frame in development to what `rows` allow: LINES_DONE steps every 16 output lines and at
the last (R214); at the last line DONE_STIME and GEN are written. -/
def Dev.advanceBranches (d : Dev) (n fseq : Nat) (rows : List Row) : Dev :=
  match d.frame? n fseq with
  | none => d
  | some f =>
    let todo := (d.branches n).filterMap (fun b =>
      match f.bufs.getD b none with
      | none => none
      | some i =>
        let oh := d.get (F.COL_BR_OUT_WH_H n b)
        let ready := d.linesReady n b f rows.length
        let z := if ready = oh then oh else ready / 16 * 16
        if nth f.done b < z then some (b, i, z) else none)
    if todo.isEmpty then d
    else
      let pics := d.ctxPics n f rows (d.frameDefects n f rows).plane
      todo.foldl (fun d t =>
        let (b, i, z) := t
        let pic := d.brPicture n b f pics.ap0
        let d := d.writeLines n b i f pic (nth f.done b) z
        let d := d.modFrame n fseq (fun f => { f with done := setAt f.done b z })
        let base := d.brBufAt n b i
        let d := d.devPut (base + 0xC) 4 z
        if z = d.get (F.COL_BR_OUT_WH_H n b) then
          let d := d.devPut (base + 0x18) 8 d.stime
          let d := d.devPut (base + 0x3C) 4 (d.poolNat poolDev (base + 0x3C) 4 + 1)
          d.set (F.COL_BR_STATUS_LAST_FSEQ n b) fseq
        else d) d

/-! ### Development start (R177, R187, R190, R213, R215, R223, R224) -/

/-- Frames of a port in development. -/
def Dev.devOfPort (d : Dev) (p : Nat) : Nat :=
  sumNat ((d.ctxOfPort p).map (fun n => ((d.ctx n).frames.filter (fun f => f.dev = 1 || f.dev = 2)).length))

/-- The lowest slot of a port's banks in the keep-store copy that no entry has (R183, R184). -/
def Dev.freeSlot (d : Dev) (p : Nat) (m : List DefectEntry) : Nat :=
  let base := d.get (F.RAWC_DMAP_PORT_FIRST p) * 65536
  ((List.range (m.length + 1)).find? (fun i => m.all (fun e => e.slot != base + i))).elim base (base + ·)

/-- Whether an entry sorts before another: (Y, X) ascending (R174). -/
def DefectEntry.before (a b : DefectEntry) : Bool := a.y < b.y || (a.y == b.y && a.x < b.x)

/-- Insertion in order. -/
def insertDefect : List DefectEntry → DefectEntry → List DefectEntry
  | [], e => [e]
  | x :: rest, e => if e.before x then e :: x :: rest else x :: insertDefect rest e

/-- Capacity of a port's banks; a refused run of banks is no map (R174). -/
def Dev.dmapCap (d : Dev) (p : Nat) : Nat :=
  if (elemAt d.dmap p {}).bad then 0 else d.get (F.RAWC_DMAP_PORT_COUNT p) * 65536

/-- RAWC_DMAP_FULL, once per mode entry (R177). -/
def Dev.dmapFull (d : Dev) (p : Nat) : Dev :=
  let m := elemAt d.dmap p {}
  if m.fullRaised then d
  else
    let d := { d with dmap := modifyAt d.dmap p (fun m => { m with fullRaised := true }) }
    d.eventAt 0x0903 sevDegraded p [u8 p, u32 m.cur.length]

/-- The map of port `p` becomes `l`, and the edit of entry `x` waits to be journaled (R184). -/
def Dev.mapEdited (d : Dev) (p op : Nat) (x : DefectEntry) (l : List DefectEntry) : Dev :=
  { d with dmap := modifyAt d.dmap p (fun m => { m with cur := l }),
           journal := { d.journal with wait := d.journal.wait ++ [(op, x.slot, x.bits l)] } }

/-- Applies one queued edit to a port's map; an applied edit waits to be journaled (R175, R177, R184). -/
def Dev.applyEdit (d : Dev) (p : Nat) (e : DefectEdit) : Dev :=
  let m := (elemAt d.dmap p {}).cur
  match m.find? (fun x => x.x == e.x && x.y == e.y) with
  | some x =>
    if e.cls = 0 then d.mapEdited p 2 x (m.filter (fun y => !(y.x == e.x && y.y == e.y)))
    else if e.learned then d
    else
      let x' := { x with cls := e.cls }
      d.mapEdited p 1 x' (m.map (fun y => if y.x = e.x ∧ y.y = e.y then x' else y))
  | none =>
    if e.cls = 0 then d
    else if d.dmapCap p ≤ m.length then d.dmapFull p
    else
      let x : DefectEntry := { x := e.x, y := e.y, cls := e.cls, slot := d.freeSlot p m }
      d.mapEdited p 1 x (insertDefect m x)

/-- The map engine applies the queue as a frame starts development with no other frame of the port in development: learned
edits first, then host edits in order; the new generation takes effect from the following frame (R177). -/
def Dev.applyEdits (d : Dev) (p : Nat) : Dev :=
  let m := elemAt d.dmap p {}
  if m.queue.isEmpty then d
  else
    let q := m.queue.filter (·.learned) ++ m.queue.filter (fun e => !e.learned)
    let d := { d with dmap := modifyAt d.dmap p (fun m => { m with old := m.cur, queue := [] }) }
    let d := q.foldl (fun d e => d.applyEdit p e) d
    let d := (d.bump (F.RAWC_DMAP_GEN_GEN p)).set (F.RAWC_DMAP_STATUS_PENDING p) 0
    d.set (F.RAWC_DMAP_STATUS_USED p) (elemAt d.dmap p {}).cur.length

/-- The colour words of a frame under SID_SYNC (R223): the latest set whose SID is not after the frame's; else the words
in effect. -/
def Dev.colSetFor (d : Dev) (n sid : Nat) : Option (Nat × Sparse Word) :=
  ((d.ctx n).sets.foldl (fun acc s =>
    if 0 ≤ signed 16 (toBits 16 ((sid : Int) - s.1)) then some (s.1, s.2.2) else acc) none)

/-- A set is used: sets before it are retired, and it becomes what is in effect (R224). -/
def Dev.useColSet (d : Dev) (n sid : Nat) (ws : Sparse Word) : Dev :=
  let d := d.modCtx n (fun c =>
    { c with sets := (c.sets.filter (fun s => 0 ≤ signed 16 (toBits 16 ((s.1 : Int) - sid)))).map (fun s =>
      if s.1 = sid then (s.1, true, s.2.2) else s) })
  let d := ws.foldl (fun d e => d.setEff e.1 e.2) d
  (d.set (F.COL_STATUS_SETS_PENDING n) (min 7 ((d.ctx n).sets.filter (fun s => !s.2.1)).length)).set
    (F.COL_STATUS_SID_APPLIED n) sid

/-- The context under whose number the 3D table buffers of a context's engines are kept: contexts of one wheel group share
them (R205). -/
def Dev.lutUnit (d : Dev) (n : Nat) : Nat :=
  if d.flag (F.CAP_BIND_ALLOC n) then
    ((List.range 16).find? (fun m => d.flag (F.CAP_BIND_EN m) && d.flag (F.CAP_BIND_ALLOC m) &&
      d.get (F.CAP_BIND_UNIT m) = d.get (F.CAP_BIND_UNIT n))).getD n
  else n

/-- A branch takes up a 3D table that was loaded for it (R224): the table and the mark of FLAGS bit 16. -/
def Dev.lutSwitch (d : Dev) (n b fseq : Nat) : Dev × Nat :=
  let want := d.eget (F.COL_BR_LUT_LUT3D_IDX n b)
  if d.eget (F.COL_BR_LUT_LUT3D_EN n b) = 1 ∧ want ≠ d.get (F.COL_BR_LUT_STATUS_IDX_IN_EFFECT n b)
      ∧ (elemAt d.luts (d.lutUnit n) {}).held.contains want = true then
    ((d.set (F.COL_BR_LUT_STATUS_IDX_IN_EFFECT n b) want).eventCtx 0x0A03 sevInfo n n [u8 b, u8 want, u32 fseq], 2 ^ 16)
  else (d, 0)

/-- Development of a frame starts: `live` from the line FIFO, else from RAW_RING. -/
def Dev.devStart (d : Dev) (n fseq : Nat) (live : Bool) : Dev :=
  match d.frame? n fseq with
  | none => d
  | some f =>
    let p := d.get (F.CAP_BIND_PORT n)
    let gen := d.get (F.RAWC_DMAP_GEN_GEN p)
    let d := if d.devOfPort p = 0 && f.clip.isNone then d.applyEdits p else d
    let sync := d.flag (F.COL_CFG_SID_SYNC n)
    let set? := if sync then d.colSetFor n f.sid else none
    let d := match set? with
      | some (sid, ws) => d.useColSet n sid ws
      | none => d
    let (d, marks) := (List.range 6).foldl (fun (acc : Dev × List Nat) b =>
      if (acc.1.branches n).contains b then
        let (d, m) := acc.1.lutSwitch n b fseq
        (d, acc.2 ++ [m + (if set?.isSome then 2 ^ 17 else 0)])
      else (acc.1, acc.2 ++ [0])) (d, [])
    let (d, bufs) := (List.range 6).foldl (fun (acc : Dev × List (Option Nat)) b =>
      let d := acc.1
      if (d.branches n).contains b && d.get (F.COL_BR_CFG_KIND n b) < 2 then
        let i := nth d.brNext (6 * n + b)
        if d.bufHeld (brBufKey n b i) then
          let d := d.bump (F.COL_BR_CNT_HELD_SKIP n b)
          (d.limited n (0x0A04 * 8 + b) (fun d => d.eventCtx 0x0A04 sevNotice n n [u8 b, u32 fseq]), acc.2 ++ [none])
        else
          let bufs := max 1 (d.get (F.COL_BR_OUT_RING_BUFS n b))
          ({ d with brNext := setAt d.brNext (6 * n + b) ((i + 1) % bufs) }, acc.2 ++ [some i])
      else (d, acc.2 ++ [none])) (d, [])
    let flags := if live then f.flags else setBit f.flags 10 true
    -- a frame read from a ring entry that holds poisoned blocks is flagged DAMAGED (R437)
    let lost := !live && (match f.raw with
      | some o => (d.rawEntries.filter (fun e => e.ctx == n && e.fseq == fseq)).any (fun e => d.poolPoisoned poolRaw o e.len)
      | none => false)
    let flags := setBit flags 5 (bitOf flags 5 || lost)
    let d := d.modFrame n fseq (fun f =>
      { f with dev := if live then 1 else 2, flags := flags, gen := gen, col := d.colWords n, bufs := bufs,
               done := List.replicate 6 0, marks := marks })
    let d := d.slotBufs n fseq bufs
    let d := match d.frame? n fseq with
      | none => d
      | some f =>
        (List.range 6).foldl (fun d b =>
          match bufs.getD b none with
          | none => d
          | some i =>
            let a := d.brBufAt n b i
            d.poolWrite poolDev a (d.brDescriptor n b f (nth marks b) 0 0 (d.poolNat poolDev (a + 0x3C) 4 + 1))) d
    d.statsHeader n fseq f.sid 1 0

/-! ### Statistics (R219-R222) -/

/-- The part `[floor(i·n/k), floor((i+1)·n/k))` of a division of `n` into `k`. -/
def partRange (n k i : Nat) : List Nat :=
  (List.range ((i + 1) * n / k - i * n / k)).map (fun j => i * n / k + j)

/-- The statistics data of a frame, from offset 0x20 on. -/
def Dev.statsData (d : Dev) (n : Nat) (f : CapFrame) (pics : CtxPics) : List Byte :=
  let (w, h) := d.activeWH n
  let pts := (List.range h).flatMap (fun y => (List.range w).map (fun x => (x, y)))
  let chan (v : Int × Int × Int) (c : Nat) : Int := [v.1, v.2.1, v.2.2, ap0Y v].getD c 0
  let hist := (List.range 4).flatMap (fun c =>
    let counts := pts.foldl (fun (acc : Array Nat) p =>
      acc.modify (histBin (chan (pics.ap0.at p.1 p.2) c)) (· + 1)) (Array.replicate 1024 0)
    counts.toList.flatMap (bytesLE 4))
  let zones := (List.range 36).flatMap (fun zy => (List.range 64).flatMap (fun zx =>
    let ps := (partRange h 36 zy).flatMap (fun y => (partRange w 64 zx).map (fun x => (x, y)))
    (List.range 3).flatMap (fun c =>
      let s := ps.foldl (fun acc p => acc + max 0 (chan (pics.ap0.at p.1 p.2) c)) 0
      let m := if ps.isEmpty then 0 else ((2 * s + ps.length) / (2 * (ps.length : Int))).toNat
      bytesLE 4 (min m (2 ^ 32 - 1)))))
  let gain (x : Int) (g : Nat) : Int := s24 (sar (x * g + 2048) 12)
  let lo : Int := (f.colGet (F.COL_GREY_LIM_LO n) * 256 : Nat)
  let hi : Int := (f.colGet (F.COL_GREY_LIM_HI n) * 256 : Nat)
  let spread : Int := f.colGet (F.COL_GREY_SPREAD_SPREAD n)
  let grey (v : Int × Int × Int) : Bool :=
    let r := gain v.1 (f.colGet (F.COL_WB0_R n))
    let g := gain v.2.1 (f.colGet (F.COL_WB0_G n))
    let b := gain v.2.2 (f.colGet (F.COL_WB1_B n))
    decide (lo ≤ g) && decide (g ≤ hi) && decide (((r - g).natAbs * 256 : Nat) ≤ spread * g)
      && decide (((b - g).natAbs * 256 : Nat) ≤ spread * g)
  let wb := (List.range 16).flatMap (fun i =>
    let ps := (partRange h 4 (i / 4)).flatMap (fun y => (partRange w 4 (i % 4)).map (fun x => (x, y)))
    let gs := (ps.map (fun p => pics.cam.at p.1 p.2)).filter grey
    bytesLE 4 gs.length ++ bytesLE 4 0 ++ (List.range 3).flatMap (fun c =>
      bytesLE 8 (gs.foldl (fun acc v => acc + max 0 (chan v c)) 0).toNat))
  let focus := (List.range 16).flatMap (fun k =>
    let x0 := f.colGet (F.COL_FOCUS_A_X0 n k)
    let x1 := f.colGet (F.COL_FOCUS_B_X1 n k)
    let y0 := f.colGet (F.COL_FOCUS_A_Y0 n k)
    let y1 := f.colGet (F.COL_FOCUS_B_Y1 n k)
    let ps := pts.filter (fun p => x0 ≤ p.1 && p.1 < x1 && y0 ≤ p.2 && p.2 < y1)
    let g (x y : Int) : Int := pics.green.refl w h x y
    let ds := ps.map (fun p =>
      let c := 2 * g p.1 p.2
      (min (c - g (p.1 - 1) p.2 - g (p.1 + 1) p.2).natAbs (2 ^ 20),
       min (c - g p.1 (p.2 - 1) - g p.1 (p.2 + 1)).natAbs (2 ^ 20)))
    bytesLE 4 ps.length ++ bytesLE 4 0 ++ bytesLE 8 (sumNat (ds.map (·.1))) ++ bytesLE 8 (sumNat (ds.map (·.2))) ++
      bytesLE 8 (sumNat (ds.map (fun p => (p.1 / 16) ^ 2 + (p.2 / 16) ^ 2))))
  hist ++ zones ++ wb ++ focus ++ List.replicate 4064 0

/-! ### Machine vision (R216-R218) -/

/-- The tensor of crop record `k` of a branch: its bytes, none where EN is 0. -/
def Dev.tensor (d : Dev) (n b k : Nat) (f : CapFrame) (ap0 : Rgb) : Option (List Byte) :=
  let a := d.get (F.COL_BR_MV_CROP_ADDR_BASE n b) * 256 + 32 * k
  let u (o : Nat) : Nat := d.poolNat poolAux (a + o) 2
  if u 0x16 % 2 = 0 then none
  else
    let dw := u 8
    let dh := u 10
    let tw := u 12
    let th := u 14
    let sc (g : Grid) : Grid := scalePlane (d.coef n b 0) (d.coef n b 1) g (u 0) (u 2) (u 4) (u 6) dw dh
    let s : Rgb := (sc ap0.1, sc ap0.2.1, sc ap0.2.2)
    let fill : Int := u 0x14
    let code (x y : Nat) : Int × Int × Int :=
      if u 16 ≤ x ∧ x < u 16 + dw ∧ u 18 ≤ y ∧ y < u 18 + dh then d.brPixel n b f (s.at (x - u 16) (y - u 18))
      else (fill, fill, fill)
    let pts := (List.range th).flatMap (fun y => (List.range tw).map (fun x => (x, y)))
    let sel (v : Int × Int × Int) (c : Nat) : Int := [v.1, v.2.1, v.2.2].getD c 0
    let seed := d.get (F.COL_BR_DITHER_SEED_SEED n b)
    let dith := f.colGet (F.COL_BR_CFG_DITHER n b) = 1
    let q (x y st : Nat) (v : Int) : Nat := quantise 8 (if dith then some (ditherNoise seed 8 y x st) else none) v
    some (match d.get (F.COL_BR_CFG_FORMAT n b) with
      | 6 => (List.range 3).flatMap (fun c =>
          let mean := (ofHalf (d.get (F.COL_BR_MV_NORM_MEAN n b c))).toFloat32
          let scale := (ofHalf (d.get (F.COL_BR_MV_NORM_SCALE n b c))).toFloat32
          pts.flatMap (fun p =>
            let v := (sel (code p.1 p.2) c).toNat.toFloat.toFloat32
            bytesLE 2 (toHalf (((v / 65535 - mean) * scale).toFloat))))
      | 7 => pts.flatMap (fun p => (List.range 3).flatMap (fun c =>
          bytesLE 1 (q p.1 p.2 (6 * (p.1 % 16) + 2 * c) (sel (code p.1 p.2) c))))
      | _ => pts.flatMap (fun p =>
          bytesLE 1 (q p.1 p.2 (2 * (p.1 % 16)) (lumaOf (d.get (F.COL_BR_CFG_YCC n b)) (code p.1 p.2)))))

/-- A machine-vision result of branch `b` finds no place in the host: it is counted and reported with `code` (R218). -/
def Dev.mvMiss (d : Dev) (n b code : Nat) (f : CapFrame) : Dev :=
  (d.bump (F.COL_BR_CNT_MV_NO_DESC n b)).limited n (code * 8 + b) (fun d => d.eventCtx code sevNotice n n [u8 b, u32 f.fseq])

/-- The machine-vision push of a branch (R218): `addrs` are the four host addresses of the ring entry. -/
def Dev.mvPush (d : Dev) (n b : Nat) (f : CapFrame) (ap0 : Rgb) (addrs : List Nat) : Dev :=
  let host := d.get (F.COL_BR_MV_HOST_IDX_IDX n b)
  let dev := d.get (F.COL_BR_MV_DEV_IDX_IDX n b)
  if !d.ep0Up then d.mvMiss n b 0x0A06 f
  else if signed 16 (host + 65536 - dev) ≤ 0 then d.mvMiss n b 0x0A05 f
  else
    let ts := (List.range 4).map (fun k => d.tensor n b k f ap0)
    let put := (List.range 4).filter (fun k => (ts.getD k none).isSome && nth addrs k != 0)
    let d := put.foldl (fun d k => d.emit (.hostWrite (nth addrs k) ((ts.getD k none).getD []))) d
    let pos := dev % 2 ^ d.get (F.COL_BR_MV_RING_CFG_SIZE_LOG2 n b)
    let compl := d.get (F.COL_BR_MV_COMPL_LO_ADDR n b) + d.get (F.COL_BR_MV_COMPL_HI_ADDR n b) * 2 ^ 32
    let skipped := (List.range 4).any (fun k => (ts.getD k none).isSome && nth addrs k == 0)
    let rec_ := bytesLE 4 f.fseq ++ bytesLE 2 f.sid ++ bytesLE 1 (b2n skipped) ++
      bytesLE 1 (sumNat (put.map (2 ^ ·))) ++ bytesLE 8 (stimeOfNs f.trig) ++ bytesLE 8 d.stime ++
      bytesLE 4 f.allFlags ++ bytesLE 4 0
    let d := (d.emit (.hostWrite (compl + 32 * pos) rec_)).bump (F.COL_BR_MV_DEV_IDX_IDX n b)
    d.sendMsix (d.get (F.COL_BR_MV_RING_CFG_VECTOR n b))

end Sys2Proof.Machine
end

