-- ==== Sys2Proof/Machine/Timecode.lean ====
section
/-!
DEFINITION. The device timecode of an instant (R398).
-/
namespace Sys2Proof.Machine

/-- Frames per second of a label, rate as NUM/DEN, and drop-frame, for a RATE code (R398). -/
def tcRate : Nat → Nat × Nat × Nat × Bool
  | 0 => (24, 24, 1, false)
  | 1 => (25, 25, 1, false)
  | 2 => (30, 30, 1, false)
  | 3 => (30, 30000, 1001, true)
  | 4 => (30, 30000, 1001, false)
  | 5 => (50, 50, 1, false)
  | 6 => (60, 60, 1, false)
  | 7 => (60, 60000, 1001, true)
  | _ => (24, 24000, 1001, false)

/-- The frame number that a drop-frame label skips to: `n` counted frames become label frames. -/
def dropLabel (fps n : Nat) : Nat :=
  let per := fps / 15
  let tenMin := fps * 600 - 9 * per
  let oneMin := fps * 60 - per
  let d := n / tenMin
  let m := n % tenMin
  n + 9 * per * d + (if fps * 60 ≤ m then per * ((m - fps * 60) / oneMin + 1) else 0)

/-- Hours, minutes, seconds, frames of a label frame number. -/
def labelOf (fps n : Nat) : Nat × Nat × Nat × Nat :=
  (n / (fps * 3600) % 24, n / (fps * 60) % 60, n / fps % 60, n % fps)

/-- The UTC offset in use (R398). -/
def Dev.utcOffset (d : Dev) : Nat := d.time.leaderUtc.getD (d.get F.PTP_UTC_OFFSET_UTC_OFFSET)

/-- TZ_OFFSET (signed) and JAM_TOD in use. -/
def Dev.tzJam (d : Dev) : Int × Nat :=
  match d.flag F.TC_CFG_USE_SM, d.time.smTlv with
  | true, some (tz, jam) => (signed 32 tz, jam)
  | _, _ => (signed 32 (d.get F.TC_TZ_TZ_OFFSET_S), d.get F.TC_JAM_JAM_TOD)

/-- The label frame number of the timecode at `t` ns of DTIME. -/
def Dev.tcFrames (d : Dev) (t : Nat) : Nat :=
  let (fps, num, den, drop) := tcRate (d.get F.TC_CFG_RATE)
  if d.get F.TC_CFG_SRC = 1 then
    let n := d.time.ltcLast + 1 + (t - d.time.ltcAt) * num / (den * nsPerS)
    if drop then dropLabel fps n else n
  else
    let (tz, jam) := d.tzJam
    let sec := t / nsPerS
    let l := ((sec : Int) - d.utcOffset + tz) % 86400
    if den = 1 then l.toNat * fps + t % nsPerS * fps / nsPerS
    else
      let j := sec - ((l - jam) % 86400).toNat
      let n := (t - j * nsPerS) * num / (den * nsPerS)
      if drop then dropLabel fps n else n

/-- A number below 100 as two BCD digits. -/
def bcd (n : Nat) : Nat := n / 10 % 10 * 16 + n % 10

/-- The 8 TIMECODE bytes of R264 at `t` ns. -/
def Dev.tcBytes (d : Dev) (t : Nat) : List Byte :=
  let (fps, _, _, drop) := tcRate (d.get F.TC_CFG_RATE)
  let (h, m, s, f) := labelOf fps (d.tcFrames t)
  let src := d.get F.TC_CFG_SRC
  bytesLE 1 (bcd h) ++ bytesLE 1 (bcd m) ++ bytesLE 1 (bcd s) ++ bytesLE 1 (bcd f) ++
    bytesLE 1 (b2n drop + 2 * b2n (src = 0 && d.get F.TIME_STATUS_STATE = 2) + 4 * b2n (src = 1 && d.time.ltcLocked)) ++
    List.replicate 3 0

/-- The timecode as the word of `TIME_TC_NOW`: hours, minutes, seconds, frames in BCD, hours highest. -/
def Dev.tcWord (d : Dev) (t : Nat) : Nat :=
  let (fps, _, _, _) := tcRate (d.get F.TC_CFG_RATE)
  let (h, m, s, f) := labelOf fps (d.tcFrames t)
  bcd h * 2 ^ 24 + bcd m * 2 ^ 16 + bcd s * 256 + bcd f

end Sys2Proof.Machine
end

