-- ==== Sys2Proof/Machine/Record.lean ====
section
/-!
DEFINITION. The recorder: records, spools, clips, drives, loss, flush and recovery (R256-R282).
-/
namespace Sys2Proof.Machine

/-! ### Layout of drives (R270) -/

/-- The drives of the layout in rising order. -/
def Dev.recDrives (d : Dev) : List Nat := (List.range 4).filter (fun k => bitOf (d.get F.REC_CFG_DRIVES) k)

/-- The number of groups G. -/
def Dev.recGroups (d : Dev) : Nat :=
  match d.get F.REC_CFG_LAYOUT with
  | 0 | 2 => 1
  | 1 => max 1 d.recDrives.length
  | _ => 2

/-- The drives of a group. -/
def Dev.groupDrives (d : Dev) (g : Nat) : List Nat :=
  match d.get F.REC_CFG_LAYOUT with
  | 0 => d.recDrives.take 1
  | 1 => (d.recDrives.drop g).take 1
  | 2 => d.recDrives.take 2
  | _ => (d.recDrives.drop (2 * g)).take 2

/-- The drives of a group that have not failed. -/
def Dev.groupUp (d : Dev) (g : Nat) : List Nat :=
  (d.groupDrives g).filter (fun k => !d.flag (F.REC_RP_STATUS_FAILED k))

/-- A bay's state beside its registers. -/
def Dev.drive (d : Dev) (k : Nat) : DriveSt := elemAt d.recd.drives k {}

/-- Changes a bay's state. -/
def Dev.modDrive (d : Dev) (k : Nat) (f : DriveSt → DriveSt) : Dev :=
  { d with recd := { d.recd with drives := modifyAt d.recd.drives k f } }

/-- log2 of the LBA size of the layout: that of its lowest-numbered drive (R259). -/
def Dev.lbaShift (d : Dev) : Nat :=
  let s := d.get (F.REC_RP_STATUS_LBA_SHIFT ((d.recDrives).headD 0))
  if s = 0 then 12 else s

/-- A 64-bit LBA held in a low and a high word. -/
def Dev.lba64 (d : Dev) (lo hi : Fld) : Nat := d.get lo + d.get hi * 2 ^ 32

/-- PART_START and PART_END of a bay. -/
def Dev.partStart (d : Dev) (k : Nat) : Nat := d.lba64 (F.REC_RP_PART_START_LO_LBA k) (F.REC_RP_PART_START_HI_LBA k)
def Dev.partEnd (d : Dev) (k : Nat) : Nat := d.lba64 (F.REC_RP_PART_END_LO_LBA k) (F.REC_RP_PART_END_HI_LBA k)

/-- Bytes of a spool. -/
def spoolBytes : Nat := 2 ^ 26

/-- The part serial of the fuses. -/
def Dev.partSerial (d : Dev) : Nat := d.get F.FUSE_SERIAL_LO_SERIAL + d.get F.FUSE_SERIAL_HI_SERIAL * 2 ^ 32

/-! ### Records (R262-R268) -/

/-- A record: header and body padded to 16 bytes, CRC over header bytes 0x0-0xB and the body (R262). -/
def recordOf (type rseq : Nat) (body : List Byte) : List Byte :=
  let body := body ++ List.replicate ((16 - body.length % 16) % 16) 0
  let h := bytesLE 2 type ++ bytesLE 1 0 ++ bytesLE 1 0 ++ bytesLE 4 (16 + body.length) ++ bytesLE 4 rseq
  h ++ bytesLE 4 (crc32c (h ++ body)) ++ body

/-- A record that ends at `len` bytes. -/
def recordTo (type rseq len : Nat) (body : List Byte) : List Byte := recordOf type rseq (sliceBytes body 0 (len - 16))

/-- The SPOOL_HEAD body of a clip of context `n` (R264). -/
def Dev.spoolHead (d : Dev) (n : Nat) (c : ClipSt) : List Byte :=
  let r := d.rawcCfg n
  bytesLE 4 0x4C50534B ++ bytesLE 2 1 ++ bytesLE 1 n ++ bytesLE 1 (d.get F.REC_CFG_LAYOUT) ++ bytesLE 8 c.start ++
    bytesLE 8 d.partSerial ++ bytesLE 4 c.spoolNo ++ bytesLE 4 c.rseq ++ bytesLE 8 c.openStime ++ bytesLE 4 r.k16a ++
    bytesLE 4 r.k16b ++ bytesLE 2 r.k16black ++ bytesLE 1 (r.cfa + 4 * r.readouts) ++ bytesLE 1 d.lbaShift ++
    bytesLE 2 r.w ++ bytesLE 2 r.height ++ bytesLE 4 (d.get (F.CAP_TIMING_PERIOD_NS n)) ++ bytesLE 4 (d.get F.DEV_IMG_SEQ_SEQ)

/-! ### NVMe commands (R258-R261) -/

/-- Submits a command to a drive. -/
def Dev.nvmeCmd (d : Dev) (k : Nat) (c : NvmeCmd) : Dev :=
  let c := { c with num := (d.drive k).nextNum }
  (d.modDrive k (fun s => { s with outCmds := s.outCmds ++ [c], nextNum := s.nextNum + 1 })).emit
    (.nvme k c.kind c.lba (if c.kind = 11 then bytesLE 4 c.len else c.bytes))

/-- Submits a command of a kind to a drive, for a clip or none. -/
def Dev.nvme (d : Dev) (k kind lba : Nat) (bytes : List Byte) (ctx : Option Nat) : Dev :=
  d.nvmeCmd k { num := 0, kind := kind, lba := lba, bytes := bytes, ctx := ctx }

/-- Reads `len` bytes at an LBA, for a use of `NvmeCmd`. -/
def Dev.nvmeRead (d : Dev) (k lba len use_ : Nat) : Dev :=
  d.nvmeCmd k { num := 0, kind := 11, lba := lba, len := len, use_ := use_ }


/-- Writes bytes at an LBA of every working drive of a group, for a clip. -/
def Dev.groupWrite (d : Dev) (g lba : Nat) (bytes : List Byte) (n seq : Nat) : Dev :=
  (d.groupUp g).foldl (fun d k => d.nvmeCmd k { num := 0, kind := 10, lba := lba, bytes := bytes, ctx := some n, seq := seq }) d

/-- The most bytes that one Write of a group moves (R259). -/
def Dev.chunk (d : Dev) (g : Nat) : Nat := (d.groupUp g).foldl (fun m k => min m (max 4096 (d.drive k).mdts)) 131072

/-- A clip of a context. -/
def Dev.clip? (d : Dev) (n : Nat) : Option ClipSt := elemAt d.recd.clips n none

/-- Sets or ends a clip. -/
def Dev.setClip (d : Dev) (n : Nat) (c : Option ClipSt) : Dev :=
  { d with recd := { d.recd with clips := setAt d.recd.clips n c } }

/-- Submits whole chunks of what waits of a clip's spool; with `all`, everything (R259). -/
def Dev.submit : Nat → Dev → Nat → ClipSt → Bool → Dev × ClipSt
  | 0, d, _, c, _ => (d, c)
  | fuel + 1, d, n, c, all =>
    let g := c.spoolNo % d.recGroups
    let k := d.chunk g
    let take := if k ≤ c.pend.length then k else if all then c.pend.length else 0
    if take = 0 ∨ d.recd.flushFrom.isSome ∧ !all then (d, c)
    else
      let off := c.used - c.pend.length
      let d := d.groupWrite g (c.lbas.getD c.spoolNo 0 + off / 2 ^ d.lbaShift) (c.pend.take take) n c.wseq
      let here (e : Nat × Nat × Nat) : Bool := e.1 < c.spoolNo || (e.1 == c.spoolNo && e.2.1 ≤ off + take)
      Dev.submit fuel d n { c with pend := c.pend.drop take, wseq := c.wseq + 1, idxEnds := c.idxEnds.filter (fun e => !here e),
                                   marks := c.marks ++ (c.idxEnds.filter here).map (fun e => (c.wseq, e.2.2)) } all

/-! ### Spools (R264, R270-R272) -/

/-- The LBA of the next spool of a group, and the block after taking it; none when space lacks (R271, R272, R277). -/
def Dev.takeSpool (d : Dev) (g : Nat) : Option (Nat × Dev) :=
  let lbas := spoolBytes / 2 ^ d.lbaShift
  match d.groupDrives g with
  | [] => none
  | k :: _ =>
    if d.flag F.REC_CFG_BACKING then
      let cons := d.get (F.REC_RP_EXT_CONS_IDX k)
      if d.get (F.REC_RP_EXT_PROD_IDX k) = cons then none
      else
        let a := d.get (F.REC_RP_EXT_OFFSET k) * 16 + 16 * (cons % 2 ^ d.get (F.REC_RP_EXT_SIZE_LOG2 k))
        let base := d.poolNat poolHost a 8
        let n := d.poolNat poolHost (a + 8) 4
        let used := (d.drive k).extUsed
        let d' := if n ≤ used + 1 then (d.modDrive k (fun s => { s with extUsed := 0 })).bump (F.REC_RP_EXT_CONS_IDX k)
          else d.modDrive k (fun s => { s with extUsed := used + 1 })
        some (base + used * lbas, d')
    else
      let at_ := (d.drive k).nextFree.getD (d.partStart k + 2 ^ 20 / 2 ^ d.lbaShift)
      if d.partEnd k < at_ + lbas then none
      else some (at_, (d.groupDrives g).foldl (fun d k => d.modDrive k (fun s => { s with nextFree := some (at_ + lbas) })) d)

/-- Spools left of a group (R277). -/
def Dev.spoolsLeft (d : Dev) (g : Nat) : Nat :=
  let lbas := spoolBytes / 2 ^ d.lbaShift
  match d.groupDrives g with
  | [] => 0
  | k :: _ =>
    if d.flag F.REC_CFG_BACKING then
      let cons := d.get (F.REC_RP_EXT_CONS_IDX k)
      let cnt := (d.get (F.REC_RP_EXT_PROD_IDX k) + 65536 - cons) % 65536
      sumNat ((List.range cnt).map (fun i =>
        d.poolNat poolHost (d.get (F.REC_RP_EXT_OFFSET k) * 16 + 16 * ((cons + i) % 2 ^ d.get (F.REC_RP_EXT_SIZE_LOG2 k)) + 8)
          4)) - (d.drive k).extUsed
    else (d.partEnd k - (d.drive k).nextFree.getD (d.partStart k + 2 ^ 20 / 2 ^ d.lbaShift)) / lbas

/-- Adds bytes of one record to the spool. -/
def ClipSt.put (c : ClipSt) (rec : List Byte) : ClipSt :=
  { c with pend := c.pend ++ rec, used := c.used + rec.length, rseq := c.rseq + 1, records := c.records + 1 }

/-- Adds a record of a type and body. -/
def ClipSt.add (c : ClipSt) (type : Nat) (body : List Byte) : ClipSt := c.put (recordOf type c.rseq body)

/-- Opens the next spool of a clip: its LBA, SPOOL_HEAD, and REC_SPACE_LOW (R264, R277). -/
def Dev.openSpool (d : Dev) (n : Nat) (c : ClipSt) : Option (Dev × ClipSt) :=
  let g := c.lbas.length % d.recGroups
  match d.takeSpool g with
  | none => none
  | some (lba, d) =>
    let c := { c with spoolNo := c.lbas.length, lbas := c.lbas ++ [lba], used := 0, pend := [], records := 0,
                      spoolF := none, openStime := d.stime }
    let c := c.put (recordTo 1 c.rseq 4096 (d.spoolHead n c))
    let left := d.spoolsLeft g
    let d := d.set (F.REC_CTX_SPOOL_SPOOL_NO n) c.spoolNo
    if !c.lowRaised && d.get F.REC_CFG_LOW_SPOOLS != 0 && left < d.get F.REC_CFG_LOW_SPOOLS then
      some (d.eventCtx 0x0C06 sevNotice n n [u8 g, u32 left], { c with lowRaised := true })
    else some (d, c)

/-- The SPOOL_TAIL of a spool whose data ends at `c.used`: USED, RECORDS, FSEQs, time, FLAGS (R265); `len` bytes. -/
def Dev.spoolTail (d : Dev) (c : ClipSt) (len flags : Nat) : List Byte :=
  let f := c.spoolF.getD (0, 0)
  recordTo 8 c.rseq len (bytesLE 4 (c.used + len) ++ bytesLE 4 (c.records + 1) ++ bytesLE 4 f.1 ++ bytesLE 4 f.2 ++
    bytesLE 8 d.stime ++ bytesLE 4 flags ++ bytesLE 4 0)

/-- Closes a full spool with FILL and SPOOL_TAIL (R264). -/
def Dev.closeSpool (d : Dev) (n : Nat) (c : ClipSt) : Dev × ClipSt :=
  let room := spoolBytes - 4096 - c.used
  let c := if room = 0 then c else c.put (recordTo 7 c.rseq room [])
  let c := c.put (d.spoolTail c 4096 0)
  Dev.submit (spoolBytes / 4096 + 1) d n c true

/-- Adds a record to a clip, closing and opening spools as R264 says; none when space lacks. -/
def Dev.clipAdd (d : Dev) (n : Nat) (c : ClipSt) (type : Nat) (body : List Byte) : Option (Dev × ClipSt) :=
  let len := 16 + roundUp body.length 16
  if c.used + len ≤ spoolBytes - 4096 then
    let (d, c) := Dev.submit 600 d n (c.add type body) false
    some (d, c)
  else
    let (d, c) := d.closeSpool n c
    match d.openSpool n c with
    | none => none
    | some (d, c) => some (Dev.submit 600 d n (c.add type body) false)

/-! ### Closing a clip (R273, R277, R280) -/

/-- The runs of contiguous spools of a group: (first spool, count, LBA). -/
def extentRuns (g step lbas : Nat) (all : List Nat) : List (Nat × Nat × Nat) :=
  ((List.range all.length).filter (fun i => i % step = g)).foldl (fun acc i =>
    let lba := all.getD i 0
    match acc.getLast? with
    | some (f, c, l) => if l + c * lbas = lba then acc.dropLast ++ [(f, c + 1, l)] else acc ++ [(i, 1, lba)]
    | none => [(i, 1, lba)]) []

/-- The clip directory (R273). -/
def Dev.clipDirectory (d : Dev) (n : Nat) (c : ClipSt) (serial : Nat) (prev : Option Nat) : List Byte :=
  let step := d.recGroups
  let ents := (List.range step).flatMap (fun g =>
    (extentRuns g step (spoolBytes / 2 ^ d.lbaShift) c.lbas).map (fun r =>
      bytesLE 1 (sumNat ((d.groupDrives g).map (2 ^ ·))) ++ bytesLE 1 step ++ bytesLE 2 0 ++ bytesLE 4 r.1 ++
        bytesLE 4 r.2.1 ++ bytesLE 4 0 ++ bytesLE 8 r.2.2 ++ List.replicate 8 0))
  recordOf 0x11 c.rseq (bytesLE 8 c.start ++ bytesLE 8 serial ++ bytesLE 1 n ++ bytesLE 1 (d.get F.REC_CFG_LAYOUT) ++
    bytesLE 2 c.dflags ++ bytesLE 4 c.lbas.length ++ bytesLE 4 (c.firstF.getD 0) ++ bytesLE 4 (c.lastF.getD 0) ++
    bytesLE 8 d.stime ++ bytesLE 8 (prev.getD (2 ^ 64 - 1)) ++ bytesLE 4 ents.length ++ List.replicate 12 0 ++ ents.flatten)

/-- Writes a volume header copy of a bay (R271): copies alternate. -/
def Dev.volumeHeader (d : Dev) (k state : Nat) (clip : Option (Nat × Nat)) (ctx : Option Nat) : Dev :=
  let gen := (d.drive k).vhGen + 1
  let d := d.modDrive k (fun s => { s with vhGen := gen })
  let s := d.drive k
  let free := s.nextFree.getD (d.partStart k + 2 ^ 20 / 2 ^ d.lbaShift)
  let body := bytesLE 4 0x4C4F564B ++ bytesLE 4 gen ++ bytesLE 1 state ++ List.replicate 3 0 ++ bytesLE 8 free ++
    bytesLE 8 (s.lastDir.getD (2 ^ 64 - 1)) ++ bytesLE 8 ((clip.map (·.1)).getD 0) ++
    bytesLE 8 (if clip.isSome then d.partSerial else 0) ++ bytesLE 8 ((clip.map (·.2)).getD 0)
  d.nvme k 10 (d.partStart k + gen % 2 * (4096 / 2 ^ d.lbaShift)) (recordTo 0x10 0 4096 body) ctx

/-- The recorder's STATE from what it does (R274, R275, R280). -/
def Dev.recState (d : Dev) : Dev :=
  let s :=
    if d.recd.recov.isSome then 5
    else if d.get F.REC_STATUS_STATE = 4 then 4
    else if d.recd.clips.any (fun c => match c with | some c => c.closing = 0 && c.ending.isNone | none => false) then 2
    else if d.recd.clips.any (·.isSome) then 3
    else if d.flag F.REC_CFG_EN && d.modeCode = mCapture && d.get F.REC_PREROLL_FRAMES != 0
        && !d.isRefused 0x600000 then 1
    else 0
  d.set F.REC_STATUS_STATE s

/-- Commands of a clip that have not completed. -/
def Dev.clipBusy (d : Dev) (n : Nat) : Bool :=
  d.recd.drives.any (fun s => s.outCmds.any (fun c => c.ctx == some n))

/-- A closing clip whose commands have all completed is closed: REC_CLIP_CLOSED (R277). -/
def Dev.clipSettle (d : Dev) (n : Nat) : Dev :=
  match d.clip? n with
  | some c =>
    if c.closing = 1 ∧ !d.clipBusy n then
      let d := (d.setClip n none).recState
      let d := d.eventCtx 0x0C02 sevInfo n n [u16 c.dflags, u32 (c.lastF.getD 0), u32 c.lbas.length]
      if d.recd.clips.all (·.isNone) then d.setFlag F.REC_CTRL_STOP false else d
    else d
  | none => d

/-- The last records of a clip: SPOOL_TAIL, directories, volume headers (R273, R277). `flush` marks a close under WARN or
a warm reset (R280). -/
def Dev.closeClip (d : Dev) (n dflags : Nat) (flush : Bool) : Dev :=
  match d.clip? n with
  | none => d
  | some c =>
    if c.closing = 1 then d
    else
      let c := { c with dflags := c.dflags ||| dflags ||| b2n flush }
      -- under a flush, data not yet submitted is given up: the tail follows what was submitted
      let c := if flush then { c with used := c.used - c.pend.length, pend := [] } else c
      -- the flush puts the tail at the next 4 KiB boundary; a normal close lets the tail itself reach one
      let pad := if flush then (4096 - c.used % 4096) % 4096 else 0
      let c := { c with used := c.used + pad, pend := c.pend ++ List.replicate pad 0 }
      let c := c.put (d.spoolTail c (roundUp (c.used + 48) 4096 - c.used) (b2n flush))
      let (d, c) := Dev.submit (spoolBytes / 4096 + 1) d n c true
      let dirLbas := 2 ^ 20 / 2 ^ d.lbaShift
      let d := (List.range d.recGroups).foldl (fun d g =>
        (d.groupUp g).foldl (fun d k =>
          if d.flag F.REC_CFG_BACKING then
            let h := (d.groupDrives g).headD k
            d.nvme k 10 (d.lba64 (F.REC_RP_DIR_LBA_LO_LBA h) (F.REC_RP_DIR_LBA_HI_LBA h)) (d.clipDirectory n c d.partSerial none) (some n)
          else
            let at_ := (d.drive k).nextFree.getD (d.partStart k + dirLbas)
            let d := d.nvme k 10 at_ (d.clipDirectory n c d.partSerial (d.drive k).lastDir) (some n)
            let d := d.modDrive k (fun s => { s with lastDir := some at_, nextFree := some (at_ + dirLbas) })
            d.volumeHeader k 0 none (some n)) d) d
      ((d.setClip n (some { c with closing := 1 })).recState).clipSettle n

/-- The recorder lacks space: REC_FULL and the clip closes after its last complete frame (R277). -/
def Dev.recFull (d : Dev) (n : Nat) (c : ClipSt) : Dev :=
  let g := c.lbas.length % d.recGroups
  let d := d.setClip n (some c)
  let d := d.eventCtx 0x0C05 sevNotice n n [u8 g, u32 (c.lastF.getD 0)]
  d.closeClip n 16 false

/-- Adds several records to the clip of a context in order. -/
def Dev.clipAddAll : Dev → Nat → ClipSt → List (Nat × List Byte) → Dev × Option ClipSt
  | d, _, c, [] => (d, some c)
  | d, n, c, (t, b) :: rest =>
    match d.clipAdd n c t b with
    | some (d, c) => Dev.clipAddAll d n c rest
    | none => (d.recFull n c, none)

/-! ### META and frames (R264-R269) -/

/-- A META body (R268). -/
def Dev.metaBody (d : Dev) (sub flags fseq len : Nat) (data : List Byte) : List Byte :=
  bytesLE 2 sub ++ bytesLE 2 flags ++ bytesLE 4 fseq ++ bytesLE 8 d.stime ++ bytesLE 4 len ++ List.replicate 12 0 ++ data

/-- The map entries of a port as 6-byte slots (R268). -/
def Dev.mapBytes (d : Dev) (p : Nat) : List Byte :=
  let m := (elemAt d.dmap p {}).cur
  m.flatMap (fun e => bytesLE 6 (e.bits m))

/-- The blobs of clip open: map, flat field, column table (R268). -/
def Dev.clipBlobs (d : Dev) (n : Nat) : List (Nat × List Byte) :=
  let nx := d.get (F.RAWC_FF_NX n)
  let ny := d.get (F.RAWC_FF_NY n)
  let ff := bytesLE 2 nx ++ bytesLE 2 ny ++ bytesLE 1 (d.get (F.RAWC_FF_SHIFT n)) ++ List.replicate 3 0 ++
    d.poolRead poolAux (d.get (F.RAWC_FF_ADDR_BASE n) * 256) (8 * nx * ny)
  let col := d.poolRead poolAux (d.get (F.RAWC_COL_ADDR_BASE n) * 256) (4 * (d.rawcCfg n).w)
  [(4, d.mapBytes (d.get (F.CAP_BIND_PORT n))), (6, ff), (7, col)]

/-- The delta from the map before the present generation to it (R268). -/
def Dev.mapDelta (d : Dev) (p gen : Nat) : List Byte :=
  let m := elemAt d.dmap p {}
  let item (op : Nat) (l : List DefectEntry) (e : DefectEntry) : List Byte := bytesLE 1 op ++ bytesLE 1 0 ++ bytesLE 6 (e.bits l)
  bytesLE 2 gen ++
    (m.old.filter (fun e => !inMap m.cur e.x e.y)).flatMap (item 2 m.old) ++
    (m.cur.filter (fun e => !m.old.any (fun o => o.x == e.x && o.y == e.y && o.cls == e.cls))).flatMap (item 1 m.cur)

/-- Tiles grouped into TILES records of at most 1 MiB. -/
def tileGroups : List (List Byte) → Nat → Nat → List Byte → List (Nat × Nat × List Byte)
  | [], first, count, acc => if count = 0 then [] else [(first, count, acc)]
  | t :: rest, first, count, acc =>
    if count ≠ 0 ∧ 2 ^ 20 < 32 + acc.length + t.length then
      (first, count, acc) :: tileGroups rest (first + count) 1 t
    else tileGroups rest first (count + 1) (acc ++ t)

/-- Writes the TILES records of a frame, noting where each tile lies (spool, OFF16, LEN16). -/
def Dev.writeTiles : List (Nat × Nat × List Byte) → Dev → Nat → ClipSt → Nat → List (List Byte) → List (Nat × Nat × Nat) →
    Dev × Option ClipSt × List (Nat × Nat × Nat)
  | [], d, _, c, _, _, locs => (d, some c, locs)
  | (first, count, bytes) :: rest, d, n, c, fseq, tiles, locs =>
    match d.clipAdd n c 3 (bytesLE 4 fseq ++ bytesLE 4 first ++ bytesLE 4 count ++ bytesLE 4 0 ++ bytes) with
    | none => (d.recFull n c, none, locs)
    | some (d, c) =>
      let start := c.used - bytes.length
      let (_, locs) := ((tiles.drop first).take count).foldl (fun (acc : Nat × List (Nat × Nat × Nat)) t =>
        (acc.1 + t.length, acc.2 ++ [(c.spoolNo, acc.1 / 16, t.length / 16)])) (start, locs)
      Dev.writeTiles rest d n c fseq tiles locs

/-- The AUDIO records that fall due at a frame of context `n` (R267). -/
def Dev.audioRecords (d : Dev) (n : Nat) : List (Nat × List Byte) × Dev :=
  (List.range 8).foldl (fun (acc : List (Nat × List Byte) × Dev) p =>
    let a := elemAt acc.2.recd.audio (8 * n + p) {}
    if bitOf (acc.2.get (F.AUD_AP_ROUTE_REC_CTX p)) n && acc.2.flag (F.AUD_AP_CFG_EN p) then
      let dom := acc.2.get (F.AUD_AP_CFG_DOMAIN p)
      let body := bytesLE 1 p ++ bytesLE 1 2 ++ bytesLE 1 (acc.2.get (F.AUD_DOM_CFG_RATE dom)) ++ bytesLE 1 (b2n a.muted) ++
        bytesLE 4 a.samples.length ++ bytesLE 8 a.first ++ a.samples.flatMap (fun s => bytesLE 4 s.1 ++ bytesLE 4 s.2)
      let d := { acc.2 with recd := { acc.2.recd with audio := setAt acc.2.recd.audio (8 * n + p) {} } }
      (acc.1 ++ [(5, body)], d)
    else acc) ([], d)

/-- Writes one frame into an open clip, with the records that precede and follow it (R264-R268). -/
def Dev.writeFrame (d : Dev) (n : Nat) (c : ClipSt) (f : RecFrame) : Dev :=
  let gap := bitOf (leAt f.record 8 4) 0
  let c := { c with firstF := some (c.firstF.getD f.fseq) }
  let delta := if !gap && c.lastGen != some f.gen && c.lastGen.isSome then
      [(6, d.metaBody 5 0 f.fseq (d.mapDelta (d.get (F.CAP_BIND_PORT n)) f.gen).length
        (d.mapDelta (d.get (F.CAP_BIND_PORT n)) f.gen))] else []
  let sidMeta := if c.lastSid != some f.sid then
      let es := match (elemAt d.exps n []).find? (fun e => e.sid == f.sid) with
        | some e => e.entries
        | none => []
      let data := bytesLE 2 f.sid ++ bytesLE 1 es.length ++ bytesLE 1 0 ++
        es.flatMap (fun x => bytesLE 4 x.1 ++ bytesLE 4 x.2)
      [(6, d.metaBody 2 0 f.fseq data.length data)] else []
  let tiles := if f.dropped then [] else f.tiles
  let hflags := b2n (!gap && !f.resid.isEmpty) + 2 * b2n f.dropped + 4 * b2n f.preroll
  let head := f.record ++ bytesLE 2 f.gen ++ bytesLE 1 hflags ++ bytesLE 1 0 ++ bytesLE 4 tiles.length ++ d.tcBytes f.trig ++
    (if gap then [] else f.resid)
  match d.clipAddAll n c (delta ++ sidMeta ++ [(2, head)]) with
  | (d, none) => d
  | (d, some c) =>
    let c := { c with lastSid := some f.sid, lastGen := if gap then c.lastGen else some f.gen }
    if gap then d.setClip n (some { c with lastF := some f.fseq })
    else
      match Dev.writeTiles (tileGroups tiles 0 0 []) d n c f.fseq tiles [] with
      | (d, none, _) => d
      | (d, some c, locs) =>
        -- the index must lie in the spool where it ends up: it names spools by their distance from its own
        let idxLen := 16 + roundUp (16 + 8 * tiles.length) 16
        let home := if c.used + idxLen ≤ spoolBytes - 4096 then c.spoolNo else c.spoolNo + 1
        let index := bytesLE 4 f.fseq ++ bytesLE 4 tiles.length ++ bytesLE 8 (sumNat (tiles.map (·.length))) ++
          locs.flatMap (fun l => bytesLE 4 l.2.1 ++ bytesLE 2 l.2.2 ++ bytesLE 2 (home - l.1))
        match d.clipAddAll n c [(4, index)] with
        | (d, none) => d
        | (d, some c) =>
          let c := { c with idxEnds := c.idxEnds ++ [(c.spoolNo, c.used, f.fseq)], spoolF := some ((c.spoolF.getD (f.fseq, 0)).1, f.fseq), lastF := some f.fseq }
          let (audio, d) := d.audioRecords n
          let lens := c.lens.map (fun x => (6, d.metaBody 1 0 f.fseq x.length x))
          let con := if f.conceal.isEmpty then [] else [(6, d.metaBody 3 0 f.fseq f.conceal.length f.conceal)]
          match d.clipAddAll n { c with lens := [] } (audio ++ lens ++ con) with
          | (d, none) => d
          | (d, some c) => d.setClip n (some c)

/-- Whether a frame of the queue can go to its clip. -/
def RecFrame.complete (f : RecFrame) : Bool := f.closed && (f.dropped || f.tiles.length == f.total)

/-- Moves complete frames, in slot order, into the clip or the pre-roll area (R264, R275); a clip that is ending closes
once it has none left (R277). A clip's first frames wait for the META records of its opening. -/
def Dev.recAdvance : Nat → Dev → Nat → Dev
  | 0, d, _ => d
  | fuel + 1, d, n =>
    match elemAt d.recd.frames n [], d.clip? n with
    | f :: rest, some c =>
      if f.complete && c.blobs.isEmpty then
        let d := { d with recd := { d.recd with frames := setAt d.recd.frames n rest } }
        Dev.recAdvance fuel (if c.closing = 0 ∧ d.recd.flushFrom.isNone then d.writeFrame n c f else d) n
      else d
    | f :: rest, none =>
      if f.complete then
        let d := { d with recd := { d.recd with frames := setAt d.recd.frames n rest } }
        let keep := d.get F.REC_PREROLL_FRAMES
        let l := elemAt d.recd.pre n [] ++ [f]
        Dev.recAdvance fuel { d with recd := { d.recd with pre := setAt d.recd.pre n (l.drop (l.length - keep)) } } n
      else d
    | [], some c =>
      match c.ending with
      | some flags => if c.blobs.isEmpty then d.closeClip n flags false else d
      | none => d
    | [], none => d

/-- Whether frames of a context go to the recorder: its KRC recording is on, and a clip is open, opening or armed. -/
def Dev.recording (d : Dev) (n : Nat) : Bool :=
  d.flag (F.ZE_KRC_EN n) && d.flag F.REC_CFG_EN && !d.isRefused 0x600000 && d.modeCode = mCapture &&
    d.recd.flushFrom.isNone &&
    ((match d.clip? n with | some c => c.ending.isNone && c.closing = 0 | none => false) || d.recd.opening.contains n ||
      ((d.clip? n).isNone && d.get F.REC_PREROLL_FRAMES != 0 && bitOf (d.get F.REC_CTX_MASK_MASK) n && d.get F.REC_STATUS_STATE != 4))

/-- Bytes waiting in the recorder area (R276). -/
def Dev.recBytes (d : Dev) : Nat :=
  let tiles (l : List RecFrame) : Nat := sumNat (l.map (fun f => sumNat (f.tiles.map (·.length))))
  sumNat (d.recd.frames.map tiles) + sumNat (d.recd.pre.map tiles) +
    sumNat (d.recd.clips.map (fun c => match c with | some c => c.pend.length | none => 0)) +
    sumNat (d.recd.drives.map (fun s => sumNat (s.outCmds.map (fun c => if c.kind = 10 then c.bytes.length else 0))))

/-- Changes a frame in a context's queue. -/
def Dev.modRec (d : Dev) (n fseq : Nat) (g : RecFrame → RecFrame) : Dev :=
  { d with recd := { d.recd with frames := modifyAt d.recd.frames n (fun l => l.map (fun f => if f.fseq = fseq then g f else f)) } }

/-- The recorder drops a frame that does not fit its area: REC_OVERRUN once per second per context (R277, R282). -/
def Dev.recDrop (d : Dev) (n fseq : Nat) : Dev :=
  let waiting := d.recBytes
  let d := (d.modRec n fseq (fun f => { f with dropped := true, tiles := [] })).bump (F.REC_CTX_CNT_DROPPED n)
  if !d.secOver (Sparse.get (fun _ => 0) d.recd.overSec n) then d
  else
    let d := { d with recd := { d.recd with overSec := Sparse.put (fun _ => 0) d.recd.overSec n (d.elapsed + 1) } }
    d.eventCtx 0x0C07 sevFault n n [u32 fseq, u32 waiting]

/-- The recorder receives the next tile of a frame, padded to 16 bytes (R242, R276). -/
def Dev.recTile (d : Dev) (n fseq : Nat) (tile : List Byte) : Dev :=
  let dropped := (elemAt d.recd.frames n []).any (fun f => f.fseq == fseq && f.dropped)
  if dropped then d
  else if d.get F.REC_OUT_SIZE_SIZE * 4096 < d.recBytes + tile.length then d.recDrop n fseq
  else d.modRec n fseq (fun f => { f with tiles := f.tiles ++ [tile] })

/-- Advances a context's queue. -/
def Dev.recPump (d : Dev) (n : Nat) : Dev := Dev.recAdvance ((elemAt d.recd.frames n []).length + 2) d n

/-! ### Opening (R274, R275) -/

/-- The headers of the volumes of every group, at the opening of a clip (R274). -/
def Dev.openHeaders (d : Dev) (n : Nat) (c : ClipSt) : Dev :=
  if d.flag F.REC_CFG_BACKING then d
  else (List.range d.recGroups).foldl (fun d g => (d.groupUp g).foldl (fun d k =>
    d.volumeHeader k 1 (some (c.start, if g = 0 then c.lbas.getD 0 0 else
      (d.drive k).nextFree.getD (d.partStart k + 2 ^ 20 / 2 ^ d.lbaShift))) (some n)) d) d

/-- The opening clip's blobs go to the compression engines. -/
def Dev.blobJobs (d : Dev) (n : Nat) (blobs : List (Nat × List Byte)) : Dev :=
  { d with ze := { d.ze with recJobs := d.ze.recJobs ++ blobs.map (fun (b : Nat × List Byte) => (n, b.2)) } }

/-- The clip of a context is no longer awaited, and its pre-roll is used up. -/
def Dev.openTaken (d : Dev) (n : Nat) : Dev :=
  { d with recd := { d.recd with pre := setAt d.recd.pre n [], opening := d.recd.opening.filter (· ≠ n) } }

/-- The pre-roll's frames come first in the clip (R275). -/
def Dev.openPreroll (d : Dev) (n : Nat) (held : List RecFrame) : Dev :=
  { d with recd := { d.recd with
    frames := modifyAt d.recd.frames n (fun l => held.map (fun (f : RecFrame) => { f with preroll := true }) ++ l) } }

/-- The opened clip is shown: event CLIP_OPEN, a short pre-roll's notice, START where no context is left to open. -/
def Dev.openShow (d : Dev) (n first held want : Nat) (c : ClipSt) : Dev :=
  let d := (d.setClip n (some c)).eventCtx 0x0C01 sevInfo n n [u64 c.start, u32 first]
  if held < want then d.eventCtx 0x0C08 sevNotice n n [u16 held, u16 want] else d

/-- Opens the clip `c` of a context, whose spool is taken. -/
def Dev.openWith (d : Dev) (n fseq : Nat) (c : ClipSt) : Dev :=
  let d := d.openHeaders n c
  let blobs := d.clipBlobs n
  let d := d.blobJobs n blobs
  let want := d.get F.REC_PREROLL_FRAMES
  let held := elemAt d.recd.pre n []
  let first := match held with
    | f :: _ => f.fseq
    | [] => fseq
  let c := { c with blobs := blobs, dflags := if held.length < want then 8 else 0,
                    lastGen := some (d.get (F.RAWC_DMAP_GEN_GEN (d.get (F.CAP_BIND_PORT n)))) }
  let d := ((d.openTaken n).openShow n first held.length want c).openPreroll n held
  let d := if d.recd.opening.isEmpty then d.setFlag F.REC_CTRL_START false else d
  d.recState

/-- Opens the clip of a context at its next resolved slot (FSEQ `fseq`). -/
def Dev.openClip (d : Dev) (n fseq : Nat) : Dev :=
  let c : ClipSt := { start := d.stime, openStime := d.stime, lastGen := none }
  match d.openSpool n c with
  | none => d.recFull n c
  | some (d, c) => d.openWith n fseq c

/-- A slot of a context is resolved as `fseq`: an opening clip starts here; a recorded context queues the frame. -/
def Dev.recSlot (d : Dev) (n fseq sid trig total : Nat) : Dev :=
  let d := if d.recd.opening.contains n then d.openClip n fseq else d
  if d.recording n then
    let f : RecFrame := { fseq := fseq, sid := sid, trig := trig, total := total }
    { d with recd := { d.recd with frames := modifyAt d.recd.frames n (· ++ [f]) } }
  else d

/-- The record of a slot is known: the frame has closed, or is missing. -/
def Dev.recClose (d : Dev) (n fseq : Nat) (record : List Byte) (gen : Nat) (resid : List Byte) (dropped : Bool) : Dev :=
  let con := (elemAt d.recd.conceal n [])
  let d := { d with recd := { d.recd with conceal := setAt d.recd.conceal n [] } }
  let d := d.modRec n fseq (fun f =>
    { f with record := record, gen := gen, resid := resid, closed := true, dropped := f.dropped || dropped, conceal := con,
             total := if dropped then 0 else f.total })
  d.recPump n

/-- Contexts `ns` are to open clips at their next slots; the state FLUSHED ends (R274, R280). -/
def Dev.recAwait (d : Dev) (ns : List Nat) : Dev :=
  let d := { d with recd := { d.recd with opening := ns, startHeld := false, flushFrom := none } }
  if d.get F.REC_STATUS_STATE = 4 then d.set F.REC_STATUS_STATE 0 else d

/-- REC_START (R274): clips open for every masked context whose KRC recording is enabled; while a clip is still closing
START is held. Outside CAPTURE, and with the recorder disabled, it opens nothing. -/
def Dev.recStart (d : Dev) : Dev :=
  if !(d.modeCode = mCapture && d.flag F.REC_CFG_EN && !d.isRefused 0x600000) || d.recd.recov.isSome then d
  else
    let d := d.setFlag F.REC_CTRL_START true
    if d.recd.clips.any (fun c => match c with | some c => c.closing = 1 || c.ending.isSome | none => false) then
      { d with recd := { d.recd with startHeld := true } }
    else
      let ns := (List.range 16).filter (fun n =>
        bitOf (d.get F.REC_CTX_MASK_MASK) n && d.flag (F.ZE_KRC_EN n) && (d.clip? n).isNone)
      let d := d.recAwait ns
      if ns.isEmpty then d.setFlag F.REC_CTRL_START false else d

/-- REC_START (R274). -/
def execRecStart (s : State) : Host.Outcome State Fault Refusal := s.hostCmd R.REC_CTRL 1 Dev.recStart

/-- Ends every open clip: after its last slot resolved (R277), or at once under a flush (R280). -/
def Dev.recStop (d : Dev) (dflags : Nat) (flush : Bool) : Dev :=
  let d := { d with recd := { d.recd with opening := [], startHeld := false } }
  (List.range 16).foldl (fun d n =>
    if flush then d.closeClip n dflags true
    else match d.clip? n with
      | some c => if c.closing = 1 then d else (d.setClip n (some { c with ending := some dflags })).recPump n
      | none => d) d

/-- A STOP in `REC_CTRL` (R277). -/
def Dev.recStopCmd (d : Dev) : Dev :=
  if d.recd.clips.any (·.isSome) then (d.setFlag F.REC_CTRL_STOP true).recStop 0 false
  else { d with recd := { d.recd with opening := [], startHeld := false } }.setFlag F.REC_CTRL_START false

/-- REC_STOP (R277). -/
def execRecStop (s : State) : Host.Outcome State Fault Refusal := s.hostCmd R.REC_CTRL 2 Dev.recStopCmd

/-- The flush of R280 is done once no clip is left: REC_FLUSH_DONE and state FLUSHED. -/
def Dev.flushSettle (d : Dev) : Dev :=
  match d.recd.flushFrom with
  | some t0 =>
    if d.recd.clips.all (·.isNone) ∧ d.get F.REC_STATUS_STATE ≠ 4 then
      (d.event 0x0C0A sevNotice [u32 ((d.elapsed - t0) / 1000), u8 d.recd.flushClips]).set F.REC_STATUS_STATE 4
    else d
  | none => d

/-- The flush under WARN or before a warm reset (R280). -/
def Dev.recFlush (d : Dev) : Dev :=
  if !d.flag F.REC_CFG_EN || d.recd.flushFrom.isSome then d
  else
    let n := (d.recd.clips.filter (·.isSome)).length
    let d := { d with recd := { d.recd with flushFrom := some d.elapsed, flushClips := n, pre := List.replicate 16 [] } }
    (d.recStop 0 true).flushSettle

/-- A write of `REC_META_CTRL` (R268): a LENS record of LEN bytes at the OFFSET is queued for the masked contexts. -/
def Dev.recMeta (d : Dev) (mask len : Nat) : Dev :=
  let d := d.set F.REC_META_CTRL_LEN len
  let len := len % 4096
  let data := d.poolRead poolHost (d.get F.REC_META_OFFSET * 16) len
  (List.range 16).foldl (fun d n =>
    match bitOf mask n && len != 0, d.clip? n with
    | true, some c => d.setClip n (some { c with lens := c.lens ++ [data] })
    | _, _ => d) d

/-- REC_META_QUEUE (R268). -/
def execRecMetaQueue (mask len : Nat) (s : State) : Host.Outcome State Fault Refusal :=
  s.hostCmd R.REC_META_CTRL (len % 4096 + mask % 65536 * 65536) (fun d => d.recMeta mask len)

end Sys2Proof.Machine
end

