-- ==== Sys2Proof/Machine/Audio.lean ====
section
/-!
DEFINITION. Chorus audio ports (R407-R422): follower FIFOs, the domain loop, clock loss, muting and routing.
-/
namespace Sys2Proof.Machine

def Dev.ap (d : Dev) (p : Nat) : AudPort := elemAt d.aud.ports p {}
def Dev.modAp (d : Dev) (p : Nat) (f : AudPort → AudPort) : Dev := { d with aud := { d.aud with ports := modifyAt d.aud.ports p f } }
def Dev.adom (d : Dev) (m : Nat) : AudDom := elemAt d.aud.doms m {}
def Dev.modAdom (d : Dev) (m : Nat) (f : AudDom → AudDom) : Dev := { d with aud := { d.aud with doms := modifyAt d.aud.doms m f } }
def Dev.anet (d : Dev) (k : Nat) : AudNet := elemAt d.aud.nets k {}
def Dev.modAnet (d : Dev) (k : Nat) (f : AudNet → AudNet) : Dev := { d with aud := { d.aud with nets := modifyAt d.aud.nets k f } }

/-- The rate of a domain in Hz (R410). -/
def audRate : Nat → Nat
  | 0 => 32000 | 1 => 44100 | 2 => 48000 | 3 => 88200 | 4 => 96000 | 5 => 176400 | _ => 192000

/-- Bits of a word and cycles of a slot (R407, R408). -/
def Dev.apBits (d : Dev) (p : Nat) : Nat := 16 + 8 * d.get (F.AUD_AP_CFG_WLEN p)
def Dev.apSlot (d : Dev) (p : Nat) : Nat := if d.flag (F.AUD_AP_CFG_SLOT16 p) then 16 else 32
def Dev.apDom (d : Dev) (p : Nat) : Nat := d.get (F.AUD_AP_CFG_DOMAIN p)

/-- Whether a port's form is refused (R407, R408). -/
def Dev.apBad (d : Dev) (p : Nat) : Bool :=
  d.get (F.AUD_AP_CFG_ALIGN p) = 3 || d.get (F.AUD_AP_CFG_WLEN p) = 3 ||
    (d.flag (F.AUD_AP_CFG_SLOT16 p) && d.get (F.AUD_AP_CFG_WLEN p) ≠ 0)

/-- A port that runs: enabled, not refused, in a domain that runs. -/
def Dev.apRuns (d : Dev) (p : Nat) : Bool :=
  d.flag (F.AUD_AP_CFG_EN p) && !d.isRefused (R.AUD_AP_CFG p) && (d.adom (d.apDom p)).run

/-- The reference port of a domain in FOLLOW (R411). -/
def Dev.audRef (d : Dev) (m : Nat) : Option Nat :=
  if d.flag (F.AUD_DOM_CFG_MODE m) then none else some (d.get (F.AUD_DOM_CFG_REF_PORT m))

/-- A sample word of the wire in the s32 form (R409). -/
def Dev.apIn (d : Dev) (p w : Nat) : Nat := w % 2 ^ d.apBits p * 2 ^ (32 - d.apBits p)

/-- An s32 sample as the word of the wire (R409). -/
def Dev.apOut (d : Dev) (p v : Nat) : Nat := v % 2 ^ 32 / 2 ^ (32 - d.apBits p)

/-- The ramp of R417. -/
def rampOf (v i : Nat) : Nat := if i < 32 then toBits 32 (signed 32 v * i / 32) else v % 2 ^ 32

/-- Frames of a FIFO made up to or cut to 32 (R417): it drops the oldest, or repeats the newest. -/
def fifo32 (l : List (Nat × Nat)) (last : Nat × Nat) : List (Nat × Nat) :=
  if 32 ≤ l.length then l.drop (l.length - 32) else List.replicate (32 - l.length) (l.getD 0 last) ++ l

/-- A slip of a follower (R413): 0 a frame was dropped, 1 repeated. -/
def Dev.audSlip (d : Dev) (p what : Nat) : Dev :=
  let d := d.bump (F.AUD_AP_CNT_SLIPS p)
  if !d.secOver (d.ap p).slipSec then d
  else (d.eventAt 0x1203 sevNotice p [u8 p, u8 what]).modAp p (fun a => { a with slipSec := d.elapsed + 1 })

/-- The port mutes (R416, R418). -/
def Dev.apMute (d : Dev) (p : Nat) : Dev :=
  let d := if d.flag (F.AUD_AP_STATUS_MUTED p) then d else d.modAp p (fun a => { a with mutedAt := d.elapsed })
  (((d.setFlag (F.AUD_AP_STATUS_MUTED p) true).setFlag (F.AUD_AP_STATUS_RAMPING p) false).set (F.AUD_AP_STATUS_GOOD p) 0)

/-- The clock of a follower is lost (R415, R416): cause 1 count, 2 period, 3 no BCLK, 4 no WS. -/
def Dev.audLost (d : Dev) (p cause : Nat) : Dev :=
  let had := d.flag (F.AUD_AP_STATUS_CLK_OK p)
  let d := (d.apMute p).setFlag (F.AUD_AP_STATUS_CLK_OK p) false
  if !had then d
  else
    let d := (d.bump (F.AUD_AP_CNT_LOSSES p)).eventAt 0x1201 sevNotice p [u8 p, u8 cause]
    let m := d.apDom p
    if d.audRef m = some p ∧ d.flag (F.AUD_DOM_STATUS_HOLD m) = false then
      ((d.setFlag (F.AUD_DOM_STATUS_HOLD m) true).bump (F.AUD_DOM_CNT_HOLDS m)).eventAt 0x1204 sevNotice m
        [u8 m, u32 (d.get (F.AUD_DOM_FREQ_FREQ_ADJ m))]
    else d

/-- One good frame of a port; the 64th in a row unmutes it (R417). -/
def Dev.audGood (d : Dev) (p : Nat) : Dev :=
  let d := (d.setFlag (F.AUD_AP_STATUS_CLK_OK p) true).set (F.AUD_AP_STATUS_GOOD p) (min 64 (d.get (F.AUD_AP_STATUS_GOOD p) + 1))
  if d.flag (F.AUD_AP_STATUS_MUTED p) && d.get (F.AUD_AP_STATUS_GOOD p) = 64 then
    let us := (d.elapsed - (d.ap p).mutedAt) / 1000
    let d := (d.setFlag (F.AUD_AP_STATUS_MUTED p) false).setFlag (F.AUD_AP_STATUS_RAMPING p) true
    let master := d.flag (F.AUD_AP_CFG_MASTER p)
    let d := d.modAp p (fun a => { a with ramp := 0, fifo := if master then a.fifo else fifo32 a.fifo a.last })
    let d := d.eventAt 0x1202 sevInfo p [u8 p, u32 us]
    let m := d.apDom p
    if d.audRef m = some p then d.setFlag (F.AUD_DOM_STATUS_HOLD m) false else d
  else d

/-- What a follower's check finds (R415): 0 a good frame, else the cause of R422. -/
def Dev.audCheck (d : Dev) (p : Nat) (f : AudFrame) : Nat :=
  let dev : Int := (f.periodPs * audRate (d.get (F.AUD_DOM_CFG_RATE (d.apDom p))) : Nat) - 1000000000000
  if f.gap then 3
  else if f.bclks ≠ 2 * d.apSlot p then 1
  else if 1000000000000 < dev.natAbs * 16 then 2
  else 0

/-- AUDIO_FRAME_RX (R415, R411): a follower receives a frame. An input's words go to its FIFO; the clocks of an output empty
its FIFO onto `APn_SD`. -/
def execAudioFrameRx (p : Fin 8) (f : AudFrame) (s : State) : Host.Outcome State Fault Refusal :=
  s.run (fun d =>
    if !d.apRuns p || d.flag (F.AUD_AP_CFG_MASTER p) then d
    else
      let c := d.audCheck p f
      if d.flag (F.AUD_AP_CFG_DIR p) then
        let a := d.ap p
        let muted := d.flag (F.AUD_AP_STATUS_MUTED p) || c ≠ 0
        let (d, x) := match a.fifo with
          | x :: rest => (d.modAp p (fun a => { a with fifo := rest, last := x }), x)
          | [] => if muted then (d, a.last) else (d.audSlip p 1, a.last)
        let x := if muted then (0, 0) else x
        let d := d.emit (.video 10 p [d.apOut p x.1, d.apOut p x.2])
        if c = 0 then d.audGood p else d.audLost p c
      else if c ≠ 0 then d.audLost p c
      else
        let x := (d.apIn p f.left, d.apIn p f.right)
        let full := decide (64 ≤ (d.ap p).fifo.length)
        let d := d.modAp p (fun a => { a with fifo := (if full then a.fifo.drop 1 else a.fifo) ++ [x] })
        let d := if full && !d.flag (F.AUD_AP_STATUS_MUTED p) then d.audSlip p 0 else d
        let d := d.audGood p
        let m := d.apDom p
        if d.audRef m = some p.val ∧ (d.adom m).reading = false ∧ 32 ≤ (d.ap p).fifo.length then
          d.modAdom m (fun x => { x with reading := true, integ := 0 })
        else d)

/-- AUDIO_CLOCK_TIMEOUT (R415): no WS edge for two nominal frame periods. -/
def execAudioClockTimeout (p : Fin 8) (s : State) : Host.Outcome State Fault Refusal :=
  s.run (fun d => if d.apRuns p && !d.flag (F.AUD_AP_CFG_MASTER p) then d.audLost p 4 else d)

/-- AUDIO_LOOP_UPDATE (R412): the loop of a domain in FOLLOW, every 64 domain frames. -/
def execAudioLoopUpdate (m : Fin 2) (s : State) : Host.Outcome State Fault Refusal :=
  s.run (fun d =>
    let x := d.adom m
    if !x.run || !x.reading || x.frames < 64 || d.flag (F.AUD_DOM_CFG_MODE m) || d.flag (F.AUD_DOM_STATUS_HOLD m) then d
    else
      let ki := d.get (F.AUD_DOM_CFG_KI m)
      let e : Int := (x.fillSum * 4 : Nat) - (32 * 256 : Int)
      let lim : Int := (min 20 (d.get (F.AUD_DOM_CFG_MAX_PPM m)) * 10 * 4294967296 / 1000000 : Nat)
      let integ := clampInt (x.integ + e) (-(lim / 2 ^ ki)) (lim / 2 ^ ki)
      let adj := e * 2 ^ d.get (F.AUD_DOM_CFG_KP m) + integ * 2 ^ ki
      let good := if e.natAbs ≤ 64 then x.good + 1 else 0
      let d := d.modAdom m (fun x => { x with integ := integ, good := good, fillSum := 0, frames := 0 })
      let d := d.set (F.AUD_DOM_FREQ_FREQ_ADJ m) (toBits 32 (clampInt adj (-lim) lim))
      if 512 < e.natAbs then d.setFlag (F.AUD_DOM_STATUS_LOCKED m) false
      else if 256 ≤ good ∧ d.flag (F.AUD_DOM_STATUS_LOCKED m) = false then
        (d.setFlag (F.AUD_DOM_STATUS_LOCKED m) true).eventAt 0x1205 sevInfo m [u8 m, u32 (d.get (F.AUD_DOM_FREQ_FREQ_ADJ m))]
      else d)

/-- AUDIO_PLAYOUT (R420): network source `k` plays sample `m` of its flow; an absent sample plays as 0. -/
def execAudioPlayout (k : Fin 8) (m : Nat) (s : State) : Host.Outcome State Fault Refusal :=
  s.run (fun d =>
    if !d.flag (F.AUD_NA_CFG_EN k) || d.isRefused (R.AUD_NA_CFG k) then d
    else
      let x := d.anet k
      match Sparse.get (fun _ => []) x.samples m with
      | [] =>
        (d.bump (F.AUD_NA_CNT_LATE k)).modAnet k (fun x => { x with cur := [], absent := true })
      | v => d.modAnet k (fun x =>
          { x with cur := v, absent := false, samples := x.samples.filter (fun e => decide (m < e.1)) }))

/-- Whether a written source of an output port is refused (R421). -/
def Dev.srcBad (d : Dev) (p : Nat) : Bool :=
  let i := d.get (F.AUD_AP_SRC_INDEX p)
  match d.get (F.AUD_AP_SRC_KIND p) with
  | 1 => d.flag (F.AUD_AP_CFG_DIR i) || !d.flag (F.AUD_AP_CFG_EN i) || d.apDom i ≠ d.apDom p
  | 2 => !d.flag (F.AUD_NA_CFG_EN i) || d.get (F.AUD_NA_CFG_DOMAIN i) ≠ d.apDom p
  | 3 => true
  | _ => false

/-- A change of source commits at the next frame of the port (R421); one that is refused leaves the source as it was. -/
def Dev.srcCommit (d : Dev) (p : Nat) : Dev :=
  let a := R.AUD_AP_SRC p
  if d.word a = d.effWord a then d
  else if d.srcBad p then
    (d.setWord a (d.effWord a)).eventAt 0x1206 sevFault p [u32 a]
  else (d.latch a).modAp p (fun x => { x with changed := 1 })

/-- A sample pair of a port as it is delivered: muted, ramped or plain; and the port after it (R416, R417). -/
def Dev.apDeliver (d : Dev) (p : Nat) (x : Nat × Nat) (absent : Bool) : Dev :=
  let a := d.ap p
  let muted := d.flag (F.AUD_AP_STATUS_MUTED p) || decide (0 < a.changed)
  let y := if muted then (0, 0) else (rampOf x.1 a.ramp, rampOf x.2 a.ramp)
  let ramp := if 0 < a.changed then 0 else if muted then a.ramp else min 32 (a.ramp + 1)
  let d := d.setFlag (F.AUD_AP_STATUS_RAMPING p) (!d.flag (F.AUD_AP_STATUS_MUTED p) && decide (ramp < 32))
  d.modAp p (fun a => { a with cur := y, curMuted := muted || absent, ramp := ramp, changed := a.changed - 1 })

/-- The pair of a network source (R420). -/
def AudNet.pair (x : AudNet) (k : Nat) : Nat × Nat := (x.cur.getD (2 * k) 0, x.cur.getD (2 * k + 1) 0)

/-- A frame of an input port goes to the recorder (R419, R267). -/
def Dev.audRecord (d : Dev) (p : Nat) : Dev :=
  let a := d.ap p
  (List.range 16).foldl (fun d n =>
    if bitOf (d.get (F.AUD_AP_ROUTE_REC_CTX p)) n && (d.clip? n).isSome then
      { d with recd := { d.recd with audio := modifyAt d.recd.audio (8 * n + p) (fun (r : RecAudio) =>
          { r with first := if r.samples.isEmpty then d.stime else r.first, samples := r.samples ++ [a.cur]
                   muted := r.muted || a.curMuted }) } }
    else d) d

/-- One input port in a domain frame: a master takes the words `ins` gives it, a follower its FIFO's oldest frame. -/
def Dev.inFrame (d : Dev) (p : Nat) (ins : List (Nat × Nat)) : Dev :=
  if d.flag (F.AUD_AP_CFG_MASTER p) then
    let x := ins.getD p (0, 0)
    let d := d.audGood p
    (d.apDeliver p (d.apIn p x.1, d.apIn p x.2) false).audRecord p
  else
    let a := d.ap p
    let go := (d.adom (d.apDom p)).reading
    let (d, x) := match go, a.fifo with
      | true, x :: rest => (d.modAp p (fun a => { a with fifo := rest, last := x }), x)
      | true, [] => ((if d.flag (F.AUD_AP_STATUS_MUTED p) then d else d.audSlip p 1), a.last)
      | false, _ => (d, (0, 0))
    (d.apDeliver p x (!go)).audRecord p

/-- One output port in a domain frame (R411, R421): a master drives its pins, a follower's FIFO is filled. -/
def Dev.outFrame (d : Dev) (p : Nat) : Dev :=
  let d := d.srcCommit p
  let i := d.eget (F.AUD_AP_SRC_INDEX p)
  let (x, absent) := match d.eget (F.AUD_AP_SRC_KIND p) with
    | 1 => ((d.ap i).cur, (d.ap i).curMuted)
    | 2 => ((d.anet i).pair (d.eget (F.AUD_AP_SRC_PAIR p)), (d.anet i).absent)
    | _ => ((0, 0), false)
  let master := d.flag (F.AUD_AP_CFG_MASTER p)
  let d := if master then d.audGood p else d
  let d := d.apDeliver p x absent
  let y := (d.ap p).cur
  if master then d.emit (.video 10 p [d.apOut p y.1, d.apOut p y.2])
  else
    let full := decide (64 ≤ (d.ap p).fifo.length)
    let d := d.modAp p (fun a => { a with fifo := (if full then a.fifo.drop 1 else a.fifo) ++ [y] })
    if full && !d.flag (F.AUD_AP_STATUS_MUTED p) then d.audSlip p 0 else d

/-- A frame period of a domain (R411-R413, R421): inputs first, then outputs, then the reference's fill. -/
def Dev.domainFrame (d : Dev) (m : Nat) (ins : List (Nat × Nat)) : Dev :=
  if !(d.adom m).run then d
  else
    let mine := (List.range 8).filter (fun p => d.apRuns p && d.apDom p = m)
    let d := (mine.filter (fun p => !d.flag (F.AUD_AP_CFG_DIR p))).foldl (fun d p => d.inFrame p ins) d
    let d := (mine.filter (fun p => d.flag (F.AUD_AP_CFG_DIR p))).foldl Dev.outFrame d
    match d.audRef m with
    | some p =>
      let fill := (d.ap p).fifo.length
      let d := d.set (F.AUD_DOM_STATUS_FILL m) fill
      if (d.adom m).reading && !d.flag (F.AUD_DOM_STATUS_HOLD m) then
        d.modAdom m (fun x => if x.frames < 64 then { x with fillSum := x.fillSum + fill, frames := x.frames + 1 } else x)
      else d
    | none => d

/-- Whether an SDI pair may take an audio port (R369): an input at 48 kHz with 24 bits in a LOCKED domain. -/
def Dev.sdiAudioOk (d : Dev) (p : Nat) : Bool :=
  d.apRuns p && !d.flag (F.AUD_AP_CFG_DIR p) && d.get (F.AUD_AP_CFG_WLEN p) = 1 && d.get (F.AUD_DOM_CFG_RATE (d.apDom p)) = 2 &&
    d.flag (F.AUD_DOM_CFG_MODE (d.apDom p))

/-- A step of device time by `ns` (R414): LOCKED domains drop or repeat whole frames, each a slip on every port. -/
def Dev.audStep (d : Dev) (ns : Int) : Dev :=
  (List.range 8).foldl (fun d p =>
    let m := d.apDom p
    if d.apRuns p && d.flag (F.AUD_DOM_CFG_MODE m) then
      let n := ns.natAbs * audRate (d.get (F.AUD_DOM_CFG_RATE m)) / nsPerS
      if n = 0 then d
      else
        let d := d.audSlip p (if 0 < ns then 0 else 1)
        d.add (F.AUD_AP_CNT_SLIPS p) (n - 1)
    else d) d

/-- A domain's form is refused (R410, R411). -/
def Dev.domBad (d : Dev) (m : Nat) : Bool :=
  let r := d.get (F.AUD_DOM_CFG_REF_PORT m)
  d.get (F.AUD_DOM_CFG_RATE m) = 7 ||
    (!d.flag (F.AUD_DOM_CFG_MODE m) &&
      (!d.flag (F.AUD_AP_CFG_EN r) || d.flag (F.AUD_AP_CFG_MASTER r) || d.apDom r ≠ m || d.apBad r))

/-- A port starts muted (R418). -/
def Dev.apStart (d : Dev) (p : Nat) : Dev :=
  let d := d.modAp p (fun _ => { mutedAt := d.elapsed })
  (((d.apMute p).setFlag (F.AUD_AP_STATUS_MUTED p) true).setFlag (F.AUD_AP_STATUS_CLK_OK p) false).latch (R.AUD_AP_SRC p)

/-- Audio starts at mode entry (R407-R411, R418, R420): `fresh` says that no audio ran before. -/
def Dev.audStart (d : Dev) : Dev :=
  let d := [0, 1].foldl (fun d m =>
    if !d.flag (F.AUD_DOM_CFG_EN m) || d.isRefused (R.AUD_DOM_CFG m) then d.modAdom m (fun _ => {})
    else if d.domBad m then ((d.eventAt 0x1206 sevFault m [u32 (R.AUD_DOM_CFG m)]).refuse (R.AUD_DOM_CFG m)).modAdom m (fun _ => {})
    else
      let locked := d.flag (F.AUD_DOM_CFG_MODE m)
      let d := if (d.adom m).run then d
        else ((d.modAdom m (fun _ => { run := true, reading := locked })).set (F.AUD_DOM_FREQ_FREQ_ADJ m) 0).setFlag
          (F.AUD_DOM_STATUS_HOLD m) false
      if locked then d.setFlag (F.AUD_DOM_STATUS_LOCKED m) true else d) d
  let d := (List.range 8).foldl (fun d p =>
    if !d.flag (F.AUD_AP_CFG_EN p) || d.isRefused (R.AUD_AP_CFG p) then d
    else if d.apBad p then (d.eventAt 0x1206 sevFault p [u32 (R.AUD_AP_CFG p)]).refuse (R.AUD_AP_CFG p)
    else
      let d := d.apStart p
      if d.flag (F.AUD_AP_CFG_DIR p) && d.srcBad p then
        ((d.setWord (R.AUD_AP_SRC p) 0).setEff (R.AUD_AP_SRC p) 0).eventAt 0x1206 sevFault p [u32 (R.AUD_AP_SRC p)]
      else d) d
  (List.range 8).foldl (fun d k =>
    if d.flag (F.AUD_NA_CFG_EN k) && !d.flag (F.AUD_DOM_CFG_MODE (d.get (F.AUD_NA_CFG_DOMAIN k))) then
      (d.eventAt 0x1206 sevFault k [u32 (R.AUD_NA_CFG k)]).refuse (R.AUD_NA_CFG k)
    else d) d

/-- Audio stops: its pins take the safe state, and every port starts muted again (R418). -/
def Dev.audStop (d : Dev) : Dev :=
  let d := (List.range 8).foldl (fun d p =>
    (d.setWord (R.AUD_AP_STATUS p) (resetWord (R.AUD_AP_STATUS p))).modAp p (fun _ => {})) d
  let d := [0, 1].foldl (fun d m => (d.setWord (R.AUD_DOM_STATUS m) 0).modAdom m (fun _ => {})) d
  { d with aud := { d.aud with nets := List.replicate 8 {} } }

end Sys2Proof.Machine
end

