-- ==== Sys2Proof/Machine/Image.lean ====
section
/-!
DEFINITION. The Aswen image (R43-R53): the header, the section records, the rules that a record obeys, verification in the
order of R53, and the application of records to the registers and pools.
-/
namespace Sys2Proof.Machine

/-- Whether the bytes are all zero. -/
def allZero (l : List Byte) : Bool := l.all (· == 0)

/-! ### The header (R43, R52) -/

def hdrImgLen (h : List Byte) : Nat := leAt h 0x008 4
def hdrSeq (h : List Byte) : Nat := leAt h 0x00C 4
def hdrMinStep (h : List Byte) : Nat := leAt h 0x012 1
def hdrKeySlot (h : List Byte) : Nat := leAt h 0x013 1
def hdrSecCount (h : List Byte) : Nat := leAt h 0x014 2
def hdrStartMode (h : List Byte) : Nat := leAt h 0x016 1
def hdrFlags (h : List Byte) : Nat := leAt h 0x017 1
def hdrFastMode (h : List Byte) : Nat := leAt h 0x018 1
def hdrSecLen (h : List Byte) : Nat := leAt h 0x01C 4
def hdrDigest (h : List Byte) : List Byte := sliceBytes h 0x020 32

/-- The checks of R52 but for PART_ID and MIN_STEP. -/
def hdrOthersOk (h : List Byte) : Bool :=
  leAt h 0 4 == 0x4E575341 && leAt h 0x0FC 4 == crc32c (sliceBytes h 0 0xFC) && leAt h 4 1 == 1 &&
  leAt h 6 2 == 0x100 &&
  0x300 ≤ hdrImgLen h && hdrImgLen h ≤ 0x2000000 && hdrImgLen h % 16 == 0 && hdrSecLen h % 16 == 0 &&
  hdrSecLen h != 0 && hdrImgLen h == 0x100 + hdrSecLen h + 256 &&
  hdrKeySlot h ≤ 3 && 1 ≤ hdrStartMode h && hdrStartMode h ≤ 5 && hdrFastMode h ≤ 2 && leAt h 0x01A 1 ≤ 31 &&
  leAt h 0x060 1 ≤ 15 && leAt h 0x070 1 ≤ 15 && hdrFlags h / 2 == 0 && leAt h 0x01B 1 == 0 &&
  allZero (sliceBytes h 0x080 124)

/-- The check of part and stepping of R52, against the fused stepping. -/
def hdrPartOk (h : List Byte) (step : Nat) : Bool := leAt h 0x010 2 == 0x1690 && hdrMinStep h ≤ step

/-- The result code of a header (R52, `DEV_BOOT_STATUS`): 1 valid, 7 fails on part or stepping only, else 2. -/
def hdrResult (h : List Byte) (step : Nat) : Nat :=
  if hdrOthersOk h then (if hdrPartOk h step then 1 else 7) else 2

/-! ### Section records (R48-R51) -/

/-- A section record. -/
structure Record where
  type : Nat
  inst : Nat
  modes : Nat
  flags : Nat
  ver : Nat
  resv : Nat
  crc : Nat
  value : List Byte
  /-- offset of the record in the image -/
  offset : Nat
  /-- whether VALUE and padding lay wholly inside the section area and the padding was zero -/
  whole : Bool
  deriving DecidableEq, Repr

/-- Reads the records of a section area; `n` is SEC_COUNT, `off` the slot offset. -/
def readRecords : Nat → List Byte → Nat → List Record
  | 0, _, _ => []
  | n + 1, l, off =>
    let len := leAt l 4 4
    let room := (len + 15) / 16 * 16
    let pad := (l.drop (16 + len)).take (room - len)
    { type := leAt l 0 2, inst := leAt l 2 2, modes := leAt l 8 1, flags := leAt l 9 1, ver := leAt l 10 1,
      resv := leAt l 11 1, crc := leAt l 12 4, value := (l.drop 16).take len, offset := off,
      whole := decide (16 + room ≤ l.length) && allZero pad } ::
      readRecords n (l.drop (16 + room)) (off + 16 + room)

/-- The length of the records, each padded to 16 bytes. -/
def recordsLen (rs : List Record) : Nat :=
  rs.foldl (fun acc r => acc + 16 + (r.value.length + 15) / 16 * 16) 0

/-- The register-list entries of a VALUE: (address, value) pairs. -/
def regEntries : Nat → List Byte → List (Nat × Nat)
  | 0, _ => []
  | n + 1, l => (leAt l 0 4, leAt l 4 4) :: regEntries n (l.drop 8)

/-- The entries of a register-list record. -/
def Record.entries (r : Record) : List (Nat × Nat) := regEntries (r.value.length / 8) r.value

/-- Whether a record applies in a mode (R48). -/
def Record.inMode (r : Record) (m : Nat) : Bool := bitOf r.modes m

/-- A base record: MODES includes BOOT (R51). -/
def Record.isBase (r : Record) : Bool := r.inMode 0

/-- Whether the KD1690 knows the TYPE and VER of a record (R48): a block ID from 0x01 to 0x15 other than BOOT and KEEP,
form 0x00 with a register block, or form 0x01 with 0x15 or MEM. -/
def Record.known (r : Record) : Bool :=
  let b := r.type / 256
  let form := r.type % 256
  r.ver == 0 && b != 5 && 1 ≤ b && b ≤ 0x15 &&
    ((form == 0 && b != 0x15) || (form == 1 && (b == 0x15 || b == 0x13)))

/-- A field that a record can write (R49). -/
def FieldSpec.recordable (f : FieldSpec) : Bool := f.acc == .rw || f.acc == .rws || f.acc == .rwl

/-- The rule of one register-list entry (R49). -/
def entryOk (r : Record) (a : Nat) : Bool :=
  let fs := fieldsAt a
  a % 4 == 0 && blockIdOf a == r.type / 256 && fs.any FieldSpec.recordable &&
    (r.isBase || (fs.filter FieldSpec.recordable).any (fun f => f.acc != .rwl))

/-- The size in bytes that pool `n` has under the base records of an image (R50): its last base entry, else the reset. -/
def imagePoolSize (rs : List Record) (n : Nat) : Nat :=
  let a := R.MEM_POOL_CFG n
  let last := (rs.filter (fun r => r.isBase && r.known && r.type == 0x1300)).foldl
    (fun acc r => r.entries.foldl (fun acc e => if e.1 = a then e.2 else acc) acc) (resetWordNat a)
  last % 2 ^ 24 * 2 ^ 20

/-- The rule of a bulk-data record (R50): it lies wholly inside the window or pool it addresses. -/
def bulkOk (rs : List Record) (r : Record) : Bool :=
  let v := r.value
  let space := leAt v 0 1
  let pool := leAt v 1 1
  let off := leAt v 4 8
  let n := v.length - 12
  12 < v.length && leAt v 2 2 == 0 &&
  ((space == 0 && r.type / 256 == 0x15 &&
      ((0x1000000 ≤ off && off + n ≤ 0x1800000) || (0x2000000 ≤ off && off + n ≤ 0x3000000))) ||
   (space == 1 && r.type / 256 == 0x13 && (pool == 4 || pool == 5) && off + n ≤ imagePoolSize rs pool))

/-- The result of one record (R53 step 2): 0 passes, 3 its CRC fails, 8 it breaks a rule of R48 to R50. -/
def recordResult (rs : List Record) (r : Record) : Nat :=
  if !r.whole then 8
  else if r.crc ≠ crc32c r.value then 3
  else if r.resv ≠ 0 ∨ r.flags / 2 ≠ 0 ∨ r.value.isEmpty then 8
  else if !r.known then (if r.flags % 2 = 1 then 8 else 0)
  else if r.type % 256 = 0 then
    (if r.value.length % 8 = 0 ∧ r.entries.all (fun e => entryOk r e.1) then 0 else 8)
  else if bulkOk rs r then 0 else 8

/-- The result of the records of a section area, in the order they are read; then nothing but zero padding may follow the last
one (R48), and the rule of R51. -/
def recordsResult (area : List Byte) (rs : List Record) : Nat :=
  match rs.map (recordResult rs) |>.find? (· ≠ 0) with
  | some c => c
  | none =>
    if area.length < recordsLen rs ∨ allZero (area.drop (recordsLen rs)) = false then 8
    else if rs.any (fun r => r.isBase && r.type == 0x0100 && r.known) then 0 else 8

/-- The state of key slot `k` in `FUSE_KEYS`: 0 blank, 1 fused, 3 revoked. -/
def Dev.keyState (d : Dev) (k : Nat) : Nat := (d.word R.FUSE_KEYS).field (2 * k) 2

/-- Every key slot is blank (R47). -/
def Dev.keysBlank (d : Dev) : Bool := (List.range 4).all (fun k => d.keyState k == 0)

/-- The public key and the signature of an image's signature block (R45). -/
def sigBlock (image : List Byte) : List Byte := sliceBytes image (0x100 + hdrSecLen image) 256

/-- Whether the layout of the signature block is that of R45: the uncompressed-point byte and the zero fill. -/
def sigLayoutOk (s : List Byte) : Bool :=
  leAt s 0 1 == 4 && allZero (sliceBytes s 0x61 31) && allZero (sliceBytes s 0xE0 32)

/-- The key slot passes (R46, R47): no hash is fused, or KEY_SLOT is fused and unrevoked and its hash is the key's. -/
def Dev.keyOk (d : Dev) (image : List Byte) : Bool :=
  d.keysBlank ||
    (d.keyState (hdrKeySlot image) == 1 &&
      sha256 (sliceBytes (sigBlock image) 0 97) == elemAt d.keep.hashes (hdrKeySlot image) [])

/-- The signature verifies over the SHA-256 of the 256 header bytes (R46). -/
def sigOk (image : List Byte) : Bool :=
  let s := sigBlock image
  sigLayoutOk s &&
    ecdsaVerify (beNat (sliceBytes s 1 48)) (beNat (sliceBytes s 49 48)) (beNat (sliceBytes s 0x80 48))
      (beNat (sliceBytes s 0xB0 48)) (beNat (sha256 (sliceBytes image 0 256)))

/-- The records of an image. -/
def imageRecords (image : List Byte) : List Record :=
  readRecords (hdrSecCount image) (sliceBytes image 0x100 (hdrSecLen image)) 0x100

/-- The result of a slot that is read in full (R53): the first check that fails, 1 when all pass. -/
def Dev.slotResult (d : Dev) (image : List Byte) : Nat :=
  let h := hdrResult image (d.get F.FUSE_ID_STEP)
  if h ≠ 1 then h
  else
    let r := recordsResult (sliceBytes image 0x100 (hdrSecLen image)) (imageRecords image)
    if r ≠ 0 then r
    else if sha256 (sliceBytes image 0x100 (hdrSecLen image)) ≠ hdrDigest image then 4
    else if !d.keyOk image then 6
    else if !sigOk image then 5
    else 1

/-! ### Applying records (R49, R50, R59) -/

/-- Bytes written into the defect map window or a LUT window by a bulk-data record (R50, R524). -/
def windowStore : Sparse Byte → Nat → List Byte → Sparse Byte
  | m, _, [] => m
  | m, a, b :: rest => windowStore (Sparse.put (fun _ => 0) m a b) (a + 1) rest

/-- Applies a record. `inBoot` says whether BOOT step 8 runs: then a base record's RWL entries apply, and windows can be
filled. Only records that are known have an effect (R48). -/
def Dev.applyRecord (d : Dev) (inBoot : Bool) (r : Record) : Dev :=
  if !r.known then d
  else if r.type % 256 = 0 then
    r.entries.foldl (fun d e => d.applyEntry inBoot (inBoot && r.isBase) e.1 (BitVec.ofNat 32 e.2)) d
  else
    let v := r.value
    let off := leAt v 4 8
    let data := v.drop 12
    if leAt v 0 1 = 1 then d.poolWrite (leAt v 1 1) off data
    else if inBoot then { d with windows := windowStore d.windows off data }
    else d

/-- The records of the AUX image copy (R54, R59). -/
def Dev.copyRecords (d : Dev) : List Record := imageRecords (d.poolRead poolAux 0 d.boot.copyLen)

end Sys2Proof.Machine
end

