-- ==== Sys2Proof/Machine/Engines.lean ====
section
/-!
DEFINITION. The engines that are active: not fenced, and not an idle spare (R17, R19, R503).
-/
namespace Sys2Proof.Machine

/-- A spare slot of quadrant `q` in a byte-per-quadrant register: whether it is in use and the engine it replaces. -/
def spareSlot (w : Word) (q : Nat) : Bool × Nat := (w.field (8 * q + 7) 1 = 1, w.field (8 * q) 5)

/-- Whether engine `i` of a kind with five engines per quadrant is active, by its fences and spare register. -/
def active5 (fenced : Nat) (spare : Word) (i : Nat) : Bool :=
  let (used, x) := spareSlot spare (i / 5)
  !bitOf fenced i && (if i % 5 = 4 then used else !(used && x = i))

/-- The active DEs in index order. -/
def Dev.deActive (d : Dev) : List Nat :=
  (List.range 20).filter (active5 (d.get F.DEV_FENCE_DE_FENCED) (d.word R.DEV_SPARE_DE))

/-- The active ZEs in index order. -/
def Dev.zeActive (d : Dev) : List Nat :=
  (List.range 20).filter (active5 (d.get F.DEV_FENCE_ZE_FENCED) (d.word R.DEV_SPARE_ZE))

/-- The fence mask of the 68 VEs. -/
def Dev.veFenced (d : Dev) (i : Nat) : Bool :=
  if i < 32 then bitOf (d.get F.VE_FENCE0_FENCED) i
  else if i < 64 then bitOf (d.get F.VE_FENCE1_FENCED) (i - 32)
  else bitOf (d.get F.VE_FENCE2_FENCED) (i - 64)

/-- Whether a quadrant's spare VE is in use, and the VE it replaces. -/
def Dev.veSpare (d : Dev) (q : Nat) : Bool × Nat :=
  let w := d.word R.VE_SPARE_MAP
  (w.field (8 * q + 7) 1 = 1, w.field (8 * q) 7)

/-- The active VEs in index order. -/
def Dev.veActive (d : Dev) : List Nat :=
  (List.range 68).filter (fun i =>
    let (used, x) := d.veSpare (i / 17)
    !d.veFenced i && (if i % 17 = 16 then used else !(used && x = i)))

/-- `DEV_CAPS` counts the active engines. -/
def Dev.showCaps (d : Dev) : Dev :=
  ((d.set F.DEV_CAPS_DE_ACTIVE d.deActive.length).set F.DEV_CAPS_VE_ACTIVE d.veActive.length).set F.DEV_CAPS_ZE_ACTIVE
    d.zeActive.length

/-- The cluster of a VE (R17); the quadrant spare counts with the cluster of the engine it replaces. -/
def Dev.veCluster (d : Dev) (i : Nat) : Nat :=
  let j := if i % 17 = 16 then (d.veSpare (i / 17)).2 else i
  4 * (j / 17) + j % 17 / 4

end Sys2Proof.Machine
end

