-- ==== Sys2Proof/Machine/Gecko.lean ====
section
/-!
DEFINITION. The tap of a Gecko path on its port (R374, R375): accepted frame starts and the rows of the window.
-/
namespace Sys2Proof.Machine

/-- A Gecko path beside its registers. -/
def Dev.gkp (d : Dev) (p : Nat) : GkSt := elemAt d.gk p {}

/-- Changes a Gecko path. -/
def Dev.modGk (d : Dev) (p : Nat) (f : GkSt → GkSt) : Dev := { d with gk := modifyAt d.gk p f }

/-- Takes the shadows of a range of registers into effect: those that differ from reset in either word. -/
def Dev.latchRange (d : Dev) (lo hi : Nat) : Dev :=
  (((d.regs.words ++ d.regs.eff).map (·.1)).filter (fun a => decide (lo ≤ a) && decide (a < hi))).foldl Dev.latch d

/-- An accepted frame start of port `p` reaches its Gecko path: the LUTs commit, and every FRAME_DIV-th one starts a panel
frame (R375). -/
def Dev.gkFrameStart (d : Dev) (p fseq : Nat) : Dev :=
  if !d.flag (F.GK_CFG_EN p) || d.isRefused (R.GK_CFG p) then d
  else
    let d := d.latchRange (R.GK_LUT p 0 0) (R.GK_LUT p 0 0 + 0x1000)
    let g := d.gkp p
    let take := g.starts % (d.get (F.GK_CFG_FRAME_DIV p) + 1) = 0
    d.modGk p (fun g =>
      { g with starts := g.starts + 1, rows := [], next := 0, comp := []
               frame := if take then some (d.nowNs, fseq, d.stime) else none })

/-- A line of exposure index 0 reaches a Gecko path (R374): the columns of the window in code16, for a row of the window. -/
def Dev.gkLine (d : Dev) (p y bits : Nat) (px : List Nat) (damaged : Bool) : Dev :=
  let y0 := d.get (F.GK_WIN_XY_Y p)
  if (d.gkp p).frame.isNone || y < y0 || y0 + d.get (F.GK_WIN_WH_H p) ≤ y then d
  else
    let row : GkRow :=
      { r := y - y0, at_ := d.nowNs, damaged := damaged
        px := (List.range (d.get (F.GK_WIN_WH_W p))).map (fun x =>
          px.getD (d.get (F.GK_WIN_XY_X p) + x) 0 * 2 ^ (16 - bits)) }
    d.modGk p (fun g => { g with rows := g.rows ++ [row] })

end Sys2Proof.Machine
end

