-- ==== Sys2Proof/Machine/Pipeline.lean ====
section
/-!
DEFINITION. Frames through the capture front end: starts, lines, merge, close, missing slots (R127-R139, R165-R172), and the
hand-over of tile rows to the compression engines (R242, R243).
-/
namespace Sys2Proof.Machine

/-! ### Tiles (R227, R242, R243) -/

/-- Tiles of a frame: columns and rows of 256 × 64 (R227). -/
def tileCols (w : Nat) : Nat := (w + 255) / 256
def tileRowsOf (h : Nat) : Nat := (h + 63) / 64
def tileCount (w h : Nat) : Nat := tileCols w * tileRowsOf h

/-- Whether frames of a context are coded: its EN is set and was not refused, in a mode in which it captures (R241). -/
def Dev.krcOn (d : Dev) (n : Nat) : Bool := d.flag (F.ZE_KRC_EN n) && d.sensing && !d.isRefused (R.ZE_KRC n)

/-- The active ZE with the fewest tiles queued, the lowest index winning a tie (R242). -/
def Dev.zeFor (d : Dev) : Option Nat :=
  d.zeActive.foldl (fun best z =>
    match best with
    | some b => if (elemAt d.ze.queues z []).length < (elemAt d.ze.queues b []).length then some z else best
    | none => some z) none

/-- Shows which ZEs do image and general work. -/
def Dev.zeBusy (d : Dev) : Dev :=
  let img := sumNat ((List.range 20).map (fun z => if (elemAt d.ze.queues z []).isEmpty then 0 else 2 ^ z))
  let gen := sumNat ((List.range 20).map (fun z => if (elemAt d.ze.jobs z none).isSome then 2 ^ z else 0))
  (d.set F.ZE_BUSY_IMG_ZE img).set F.ZE_BUSY_GEN_ZE gen

/-- Tiles of a context that wait in the ZE queues. -/
def Dev.tilesQueued (d : Dev) (n : Nat) : Nat := sumNat (d.ze.queues.map (fun q => (q.filter (fun t => t.ctx == n)).length))

/-- Whether the backlog of some recording context keeps general jobs from starting (R243). -/
def Dev.backlogged (d : Dev) (n : Nat) : Bool :=
  let (w, h) := d.activeWH n
  decide (d.get F.ZE_CFG_BACKLOG_FRAMES * tileCount w h < d.tilesQueued n)

/-- ZE_BACKLOG when a backlog begins, once per second per context (R243, R255). -/
def Dev.backlogCheck (d : Dev) (n : Nat) : Dev :=
  let (w, h) := d.activeWH n
  if d.backlogged n then
    if d.ze.backlog.contains n then d
    else
      let d := { d with ze := { d.ze with backlog := n :: d.ze.backlog } }
      d.limited n 0x0B02 (fun d => d.eventCtx 0x0B02 sevNotice n n [u8 n, u32 (d.tilesQueued n / max 1 (tileCount w h))])
  else { d with ze := { d.ze with backlog := d.ze.backlog.filter (· ≠ n) } }

/-- Hands the tile rows of a frame that its merged rows complete to the ZEs. -/
def Dev.tileRowsReady (d : Dev) (n fseq : Nat) : Dev :=
  match d.frame? n fseq with
  | none => d
  | some f =>
    let (w, h) := d.activeWH n
    let ready := if f.rows.length = h then tileRowsOf h else f.rows.length / 64
    if !d.krcOn n || f.raw.isNone || ready ≤ f.tileRows then d
    else
      let d := d.modFrame n fseq (fun f => { f with tileRows := ready })
      let idx := (List.range ((ready - f.tileRows) * tileCols w)).map (· + f.tileRows * tileCols w)
      let d := idx.foldl (fun d i =>
        match d.zeFor with
        | some z => { d with ze := { d.ze with queues := modifyAt d.ze.queues z (· ++ [{ ctx := n, fseq := fseq, idx := i }]) } }
        | none => d) d
      (d.backlogCheck n).zeBusy

/-! ### Merge (R159, R165-R168) -/

/-- The clip of context `n` is to hold a concealment entry (R268). -/
def Dev.concealNote (d : Dev) (n : Nat) (e : List Byte) : Dev :=
  { d with recd := { d.recd with conceal := modifyAt d.recd.conceal n (· ++ e) } }

/-- Writes one concealed line to the log, the counters and the recorder's copy (R166). -/
def Dev.concealed (d : Dev) (n fseq y ro rule : Nat) : Dev :=
  let e := bytesLE 4 fseq ++ bytesLE 2 y ++ bytesLE 1 ro ++ bytesLE 1 rule
  let i := d.get (F.RAWC_CONCEAL_WR_INDEX n)
  let d := d.poolWrite poolAux (d.get (F.RAWC_CONCEAL_LOG_BASE n) * 256 + 8 * (i % 256)) e
  let d := (d.bump (F.RAWC_CONCEAL_WR_INDEX n)).bump (F.RAWC_CNT0_CONCEALED n)
  let d := d.concealNote n e
  d.limited n 0x0901 (fun d => d.eventCtx 0x0901 sevNotice n n [u32 fseq, u8 ro, u16 y, u8 rule])

/-- Merges line `y` from the readouts in `ros` (number and its lines) and appends its row. -/
def Dev.mergeRow (d : Dev) (n fseq y : Nat) (ros : List (Nat × List Line)) (full : Bool) : Dev :=
  match d.frame? n fseq with
  | none => d
  | some f =>
    let c := d.rawcCfg n
    let lines := ros.map (fun r =>
      let l := elemAt r.2 y { px := [], lin := [], sat := [], real := false }
      (r.1, if l.damaged && c.conceal then concealLine r.2 y else l))
    let d := lines.foldl (fun d l => if l.2.rule != 0 then d.concealed n fseq y l.1 l.2.rule else d) d
    let d := if full then d else d.bump (F.RAWC_CNT0_MERGE_INCOMPLETE n)
    let (row, merged, clipped) := rawRow c y lines
    let d := d.modFrame n fseq (fun f =>
      { f with rows := f.rows ++ [row], mergeClipped := f.mergeClipped + merged, clipped := f.clipped + clipped })
    match f.raw with
    | some off => d.poolWrite poolRaw (off + pixelsAt + 2 * c.w * y) row.bytes
    | none => d

/-- Merges every line that is ready (R168): all readouts have it (with the two lines that concealment looks ahead to), or
some readout has reached line y + 64. -/
def Dev.mergeReady : Nat → Dev → Nat → Nat → Dev
  | 0, d, _, _ => d
  | fuel + 1, d, n, fseq =>
    match d.frame? n fseq with
    | none => d
    | some f =>
      let c := d.rawcCfg n
      let y := f.rows.length
      let has (r : Readout) : Bool :=
        match r.lines[y]? with
        | some l => !(l.damaged && c.conceal) || decide (min (y + 3) c.height ≤ r.lines.length)
        | none => false
      if c.height ≤ y then d
      else if f.ros.all has then
        Dev.mergeReady fuel (d.mergeRow n fseq y ((List.range f.ros.length).map (fun i => (i, (elemAt f.ros i {}).lines))) true)
          n fseq
      else if f.ros.any (fun r => decide (y + 65 ≤ r.lines.length)) then
        let parts := ((List.range f.ros.length).map (fun i => (i, (elemAt f.ros i {}).lines))).filter (fun r => decide (y < r.2.length))
        Dev.mergeReady fuel (d.mergeRow n fseq y parts (parts.length == f.ros.length)) n fseq
      else d

/-! ### Lines (R132-R135) -/

/-- Pads a readout of an open frame up to line `y` (exclusive) (R134). -/
def Dev.padTo : Nat → Dev → Nat → Nat → Nat → Nat → Dev
  | 0, d, _, _, _, _ => d
  | fuel + 1, d, n, fseq, ro, y =>
    match d.frame? n fseq with
    | none => d
    | some f =>
      let ls := (elemAt f.ros ro {}).lines
      if y ≤ ls.length then d
      else
        let k := ls.length
        let px := padLine (d.get (F.CAP_FMT_LINE_PAD n) = 0) (d.get (F.CAP_FMT_PAD_BLACK n)) (d.get (F.CAP_GEOM_WIDTH n)) ls k
        let (l, b) := d.lineIn n ro k px false false
        let d := d.modCtx n (fun c => { c with black := b })
        let d := d.modFrame n fseq (fun f =>
          { f with padded := f.padded + 1, ros := modifyAt f.ros ro (fun r => { r with lines := r.lines ++ [l] }) })
        Dev.padTo fuel d n fseq ro y

/-- A line of an open frame was cut or discarded. -/
def Dev.lineCut (d : Dev) (n fseq : Nat) : Dev := d.modFrame n fseq (fun f => { f with cut := f.cut + 1 })

/-- The open frame of a context. -/
def Dev.openFrame (d : Dev) (n : Nat) : Option CapFrame := (d.ctx n).frames.find? (fun f => !f.closed)

/-! ### Close (R135, R136, R139, R172) -/

/-- Merges what is left of a frame that closes: readouts that lack a line another readout has take no part in it; a line
that no readout has is padded in all of them. -/
def Dev.mergeClose : Nat → Dev → Nat → Nat → Dev
  | 0, d, _, _ => d
  | fuel + 1, d, n, fseq =>
    match d.frame? n fseq with
    | none => d
    | some f =>
      let y := f.rows.length
      if d.get (F.CAP_GEOM_HEIGHT n) ≤ y then d
      else
        let all := (List.range f.ros.length).map (fun i => (i, (elemAt f.ros i {}).lines))
        let parts := all.filter (fun r => decide (y < r.2.length))
        if parts.isEmpty then
          let d := (List.range f.ros.length).foldl (fun d r => Dev.padTo 1 d n fseq r (y + 1)) d
          match d.frame? n fseq with
          | none => d
          | some f =>
            Dev.mergeClose fuel (d.mergeRow n fseq y
              ((List.range f.ros.length).map (fun i => (i, (elemAt f.ros i {}).lines))) true) n fseq
        else Dev.mergeClose fuel (d.mergeRow n fseq y parts (parts.length == f.ros.length)) n fseq

/-- The frame leaves the context's list once it has closed and its development is over. -/
def Dev.dropEnded (d : Dev) (n : Nat) : Dev :=
  d.modCtx n (fun c => { c with frames := c.frames.filter (fun f => !(f.closed && 3 ≤ f.dev)) })

/-- Closes a frame (R135): remaining lines are merged and padded, the record is written, and what the frame shows is
reported. -/
def Dev.closeFrame (d : Dev) (n fseq : Nat) : Dev :=
  let h := d.get (F.CAP_GEOM_HEIGHT n)
  let d := Dev.mergeReady (h + 1) d n fseq
  let d := Dev.mergeClose (h + 1) d n fseq
  match d.frame? n fseq with
  | none => d
  | some f =>
    let d := (List.range f.ros.length).foldl (fun d r => Dev.padTo (h + 1) d n fseq r h) d
    let d := d.modFrame n fseq (fun f =>
      { f with closed := true, flags := if f.ros.all (·.fe) then f.flags else setBit f.flags 6 true })
    match d.frame? n fseq with
    | none => d
    | some f =>
      let rec_ := d.frameRecord n f
      let (w, _) := d.activeWH n
      let resid := f.rows.flatMap (fun r => r.res.flatMap (fun v => bytesLE 2 (toBits 16 v)))
      let d := match f.raw with
        | some off => (d.poolWrite poolRaw off rec_).poolWrite poolRaw (off + pixelsAt + 2 * w * h) resid
        | none =>
          let d := (d.recordAlone n fseq rec_).bump (F.CAP_CNT3_RAW_DROPPED n)
          d.limited n 0x080B (fun d => d.eventCtx 0x080B sevFault n n [u32 fseq, u32 (f.blocker / 4096)])
      let d := ((d.set (F.CAP_LAST_FLAGS_FLAGS n) f.allFlags).add (F.CAP_CNT2_PADDED n) f.padded).add (F.CAP_CNT2_CUT n) f.cut
      let d := if f.padded != 0 || f.cut != 0 || f.short != 0 || f.long != 0 then
          d.limited n 0x0804 (fun d => d.eventCtx 0x0804 sevNotice n n
            [u32 fseq, u16 f.allFlags, u16 (min f.padded 65535), u16 (min f.cut 65535)])
        else d
      let d := if f.mergeClipped + f.clipped = 0 then d else d.bump (F.RAWC_CNT1_CLIP_FRAMES n)
      let d := if f.clipped = 0 then d
        else d.limited n 0x0908 (fun d => d.eventCtx 0x0908 sevNotice n n
          [u32 fseq, u32 (min f.clipped (2 ^ 32 - 1))])
      let d := d.tileRowsReady n fseq
      let d := if d.recording n then d.recClose n fseq rec_ f.gen resid f.raw.isNone else d
      -- vertical blanking begins: latched exposure sets of the sensor go out (R149)
      let p := d.get (F.CAP_BIND_PORT n)
      let d := if d.blanking p then (d.ctxOfPort p).foldl (fun d n => d.expSend n) d else d
      d.dropEnded n

/-- Closes the open frame of a context, if there is one. -/
def Dev.closeOpen (d : Dev) (n : Nat) : Dev :=
  match d.openFrame n with
  | some f => d.closeFrame n f.fseq
  | none => d

/-! ### Slots (R127-R131, R155) -/

/-- The oldest slot of a context is resolved: FSEQ and SID advance (R128, R151). -/
def Dev.resolve (d : Dev) (n : Nat) : Dev :=
  let d := d.modCtx n (fun c => { c with slots := c.slots.drop 1 })
  let d := d.bump (F.CAP_FSEQ_FSEQ n)
  d.set (F.CAP_SID_SID n) (d.sidFor n (d.get (F.CAP_FSEQ_FSEQ n)))

/-- The oldest slot of a context is declared missing (R129, R155). -/
def Dev.slotMissing (d : Dev) (n : Nat) : Dev :=
  match (d.ctx n).slots with
  | [] => d
  | sl :: _ =>
    let d := d.closeOpen n
    let dead := d.slotDeadline n sl
    let d := d.resolve n
    let fseq := d.get (F.CAP_FSEQ_FSEQ n)
    let sid := d.get (F.CAP_SID_SID n)
    let rec_ := recordBytes fseq sid n (d.get (F.CAP_BIND_PORT n))
      (1 + (if d.get F.TIME_STATUS_STATE = 2 then 0 else 2 ^ 12) + (if d.sidUncertain n fseq then 2 ^ 13 else 0)) 0
      (stimeOfNs sl.target) (stimeOfNs dead) [] (d.get (F.CAP_FMT_READOUTS n)) (d.get (F.CAP_GEOM_WIDTH n))
      (d.get (F.CAP_GEOM_HEIGHT n)) 0 0 0 0 0 0 0
    let d := (d.bump (F.CAP_CNT0_MISSING n)).set (F.CAP_LAST_FLAGS_FLAGS n) (leAt rec_ 8 4)
    let d := d.limited n 0x0801 (fun d => d.eventCtx 0x0801 sevNotice n n [u32 fseq, u16 sid])
    let d := (d.recordAlone n fseq rec_).statsHeader n fseq sid 4 0
    let d := (d.slotSeen n fseq sid sl.target true false).recSlot n fseq sid sl.target 0
    if d.recording n then d.recClose n fseq rec_ 0 [] false else d

/-- SLOT_DEADLINE (R129): the oldest open slot of context `n` passes its deadline. That the instant has come is the
command's own statement. -/
def execSlotDeadline (n : Fin 16) (s : State) : Host.Outcome State Fault Refusal :=
  s.run (fun d => if d.ctxRuns n then d.slotMissing n else d)

/-- Declares every slot missing whose deadline has passed. -/
def Dev.expireSlots : Nat → Dev → Nat → Dev
  | 0, d, _ => d
  | fuel + 1, d, n =>
    match (d.ctx n).slots with
    | sl :: _ => if d.slotDeadline n sl < d.nowNs then Dev.expireSlots fuel (d.slotMissing n) n else d
    | [] => d

/-! ### Wheels (R142-R147) -/

/-- The group of a context on a frame wheel; none for a stripe set. -/
def Dev.wheelOf (d : Dev) (n : Nat) : Option Nat :=
  if d.flag (F.CAP_BIND_ALLOC n) then some (d.get (F.CAP_BIND_UNIT n) % 8) else none

/-- A wheel group's state beside its registers. -/
def Dev.wheel (d : Dev) (g : Nat) : WheelSt := elemAt d.wheels g {}

/-- Changes a group's state. -/
def Dev.modWheel (d : Dev) (g : Nat) (f : WheelSt → WheelSt) : Dev := { d with wheels := modifyAt d.wheels g f }

/-- Started contexts of a group. -/
def Dev.wheelCtxs (d : Dev) (g : Nat) : List Nat :=
  (List.range 16).filter (fun n => (d.ctx n).started && d.wheelOf n = some g)

/-- Pending frames of a group: waiting for development (context, frame). -/
def Dev.pendingOn (d : Dev) (g : Nat) : List (Nat × CapFrame) :=
  (d.wheelCtxs g).flatMap (fun n => ((d.ctx n).frames.filter (fun f => f.dev = 0)).map (fun f => (n, f)))

/-- The slot of a group at device time `t` ns (R142). -/
def Dev.wheelSlot (d : Dev) (g t : Nat) : Nat :=
  let period : Int := d.get (F.CAP_WG_PERIOD_PERIOD_NS g)
  let epoch := d.stimeToNs (d.get (F.CAP_WG_EPOCH_LO_EPOCH g) + d.get (F.CAP_WG_EPOCH_HI_EPOCH g) * 2 ^ 32)
  if period < 16 then 0
  else min 15 (((t : Int) - epoch) % period / (period / 16)).toNat

/-- Shows a group's state in its registers. -/
def Dev.showWheel (d : Dev) (g : Nat) : Dev :=
  let w := d.wheel g
  let d := (d.set (F.CAP_WG_STATUS_SLOT g) (d.wheelSlot g d.nowNs)).setFlag (F.CAP_WG_STATUS_BUSY g) w.busy.isSome
  let d := match w.busy with
    | some (n, fseq) =>
      (d.set (F.CAP_WG_STATUS_CTX g) n).setFlag (F.CAP_WG_STATUS_DEFERRED g)
        (match d.frame? n fseq with
          | some f => f.dev = 2
          | none => false)
    | none => (d.set (F.CAP_WG_STATUS_CTX g) 0).setFlag (F.CAP_WG_STATUS_DEFERRED g) false
  let d := d.set (F.CAP_WG_STATUS_PENDING g) (min 15 (d.pendingOn g).length)
  let list := sumNat ((List.range 4).map (fun i =>
    match w.resident[i]? with
    | some n => (16 + n) * 2 ^ (5 * i)
    | none => 0))
  (d.set (F.CAP_WG_RES_LIST_LIST g) list).set (F.CAP_WG_STATUS_RESIDENT g) 0xE4

/-- Skips the development of a frame (R146, R155). -/
def Dev.devSkip (d : Dev) (n g : Nat) (f : CapFrame) : Dev :=
  let us := (d.nowNs - f.fsNs) / 1000
  let d := d.modFrame n f.fseq (fun f => { f with dev := 4, flags := setBit f.flags 11 true })
  let d := d.slotBufs n f.fseq []
  let d := d.bump (F.CAP_CNT1_DEV_SKIPPED n)
  let d := d.limited n 0x0803 (fun d => d.eventCtx 0x0803 sevNotice n n [u32 f.fseq, u8 g, u32 us])
  let d := (d.statsHeader n f.fseq f.sid 3 0).rawModify n f.fseq (fun e => { e with dev := false })
  d.dropEnded n

/-- Whether `a` is served before `b` (R143): higher PRIO, lower context, older FSEQ. -/
def Dev.wheelBetter (d : Dev) (a b : Nat × CapFrame) : Bool :=
  let pa := d.get (F.CAP_BIND_PRIO a.1)
  let pb := d.get (F.CAP_BIND_PRIO b.1)
  decide (pb < pa) || (pa == pb && (decide (a.1 < b.1) || (a.1 == b.1 &&
    decide (signed 32 (toBits 32 ((a.2.fseq : Int) - b.2.fseq)) < 0))))

/-- A context is served: it becomes the most recently served of the residents; a fifth evicts the least recent (R144). -/
def touchResident (l : List Nat) (n : Nat) : List Nat :=
  let l := l.filter (· ≠ n) ++ [n]
  l.drop (l.length - 4)

/-- The frames that competed in a window that has closed compete no more. -/
def Dev.windowOver (d : Dev) (g : Nat) : Dev :=
  (d.wheelCtxs g).foldl (fun d n =>
    d.modCtx n (fun c => { c with frames := c.frames.map (fun f => { f with inWindow := false }) })) d

/-- The losers of a window: a frame that competed and was neither taken live nor has a copy in RAW_RING is skipped (R139,
R146). -/
def Dev.windowLost (d : Dev) (g : Nat) (closing : Bool) : Dev :=
  if closing then
    ((d.pendingOn g).foldl (fun d p => if p.2.inWindow && p.2.raw.isNone then d.devSkip p.1 g p.2 else d) d).windowOver g
  else d

/-- The wheel service (R143). `win` is the opening instant of the selection window whose end it is, if it is one: a frame
whose FS opened that window can be developed live. -/
def Dev.wheelService (d : Dev) (g : Nat) (win : Option Nat) : Dev :=
  let closing := win.isSome
  if (d.wheel g).busy.isSome then d
  else
    let now := d.nowNs
    let slot := d.wheelSlot g now
    -- a frame that this service can take live has not been deferred, whatever its limit
    let live (p : Nat × CapFrame) : Bool := decide (win = some p.2.fsNs) && (d.wheel g).resident.contains p.1 &&
      bitOf (d.eget (F.CAP_WHEEL_SLOT_MASK p.1)) slot
    let d := (d.pendingOn g).foldl (fun d p =>
      if (d.get (F.CAP_WHEEL_DEFER_LIMIT_US p.1) * 1000 : Nat) < now - p.2.fsNs ∧ live p = false then d.devSkip p.1 g p.2
      else d) d
    let cand := (d.pendingOn g).filter (fun p =>
      bitOf (d.eget (F.CAP_WHEEL_SLOT_MASK p.1)) slot && (p.2.raw.isSome || live p))
    let best := cand.foldl (fun b p =>
      match b with
      | some q => if d.wheelBetter p q then some p else b
      | none => some p) (none : Option (Nat × CapFrame))
    match best with
    | none => (d.windowLost g closing).showWheel g
    | some (n, f) =>
      let d := d.modWheel g (fun w => { w with busy := some (n, f.fseq), resident := touchResident w.resident n })
      let d :=
        if live (n, f) then
          (d.devStart n f.fseq true).rawModify n f.fseq (fun e => { e with dev := false })
        else
          let us := min ((now - f.fsNs) / 1000) 65535
          let d := (d.modFrame n f.fseq (fun f => { f with deferUs := us })).bump (F.CAP_CNT1_DEFERRED n)
          d.devStart n f.fseq false
      (d.windowLost g closing).showWheel g

/-- WHEEL_WINDOW_END (R143): the selection window of group `g` ends. -/
def execWheelWindowEnd (g : Fin 8) (s : State) : Host.Outcome State Fault Refusal :=
  s.run (fun d =>
    match (d.wheel g).window with
    | some t => (d.modWheel g (fun w => { w with window := none })).wheelService g (some t)
    | none => d)

/-- WHEEL_SLOT_START (R142, R143): a slot of group `g` begins. -/
def execWheelSlotStart (g : Fin 8) (s : State) : Host.Outcome State Fault Refusal :=
  s.run (fun d =>
    if d.flag (F.CAP_WG_CFG_EN g) && !(d.pendingOn g).isEmpty && (d.wheel g).window.isNone then d.wheelService g none
    else d.showWheel g)

/-- WHEEL_BOUNDARY (R147): slot 0 begins and the slot masks in the shadows take effect. -/
def execWheelBoundary (g : Fin 8) (s : State) : Host.Outcome State Fault Refusal :=
  s.run (fun d =>
    (((List.range 16).filter (fun n => d.wheelOf n = some g.val)).foldl (fun d n => d.latch (R.CAP_WHEEL n)) d).showWheel g)

/-! ### Frame start (R127-R132, R138, R139, R177, R190, R223) -/

/-- An FS outside any slot is excess (R130). -/
def Dev.excess (d : Dev) (n p sfn : Nat) : Dev :=
  let d := (d.bump (F.CAP_CNT0_EXCESS n)).modPort p (fun lp => { lp with rx := none, fsxDue := false })
  d.limited n 0x0802 (fun d => d.eventCtx 0x0802 sevNotice n n [u32 sfn, u64 d.stime])

/-- RAW_RING takes the entry of a frame that is accepted (R138, R139): its offset; or none and the held entry that blocks
it. -/
def Dev.rawEnter (d : Dev) (n fseq len tiles : Nat) (wheel : Bool) : Dev × Option Nat × Nat :=
  let off := d.rawPlace len
  if d.poolSize poolRaw < len then (d, none, 0)
  else match d.rawBlocker off len with
    | some e => (d, none, e.off)
    | none =>
      ((d.rawTake off len n fseq).rawModify n fseq (fun e => { e with dev := wheel, krc := tiles, sub := !wheel }), some off, 0)

/-- The frame of an accepted FS: its record's flags, its exposure and its entry in RAW_RING (R137, R138). -/
def Dev.newFrame (d : Dev) (n fseq sid sfn top : Nat) (sl : Slot) (raw : Option Nat) (blocker : Nat) : CapFrame :=
  let gap := match (d.ctx n).prev with
    | some (ps, pf) => toBits 32 ((sfn : Int) - ps) != toBits 32 ((fseq : Int) - pf)
    | none => false
  let ros := d.get (F.CAP_FMT_READOUTS n)
  let flags := (if top + 1 = ros then 0 else 2 ^ 7) + (if gap then 2 ^ 9 else 0) +
    (if d.get F.TIME_STATUS_STATE = 2 then 0 else 2 ^ 12) + (if d.sidUncertain n fseq then 2 ^ 13 else 0)
  { fseq := fseq, sid := sid, gain := ((d.expFor n fseq).map (·.gain)).getD 0, sfn := sfn, trig := sl.target, fsNs := d.nowNs
    fsStime := d.stime, flags := flags, ros := List.replicate ros {}, raw := raw, blocker := blocker
    inWindow := (d.wheelOf n).isSome, rawc := [d.word (R.RAWC_CFG n), d.word (R.RAWC_ROW n)]
    gen := d.get (F.RAWC_DMAP_GEN_GEN (d.get (F.CAP_BIND_PORT n))) }

/-- A frame arrives at its wheel group (R143): it opens the selection window of an idle group, competes in the one that is open,
or waits; one that must wait without a copy in RAW_RING is skipped (R139). -/
def Dev.wheelArrive (d : Dev) (n g fseq : Nat) : Dev :=
  if (d.wheel g).busy.isNone && (d.wheel g).window.isNone then
    (d.modWheel g (fun w => { w with window := some d.nowNs })).showWheel g
  else if (d.wheel g).window.isSome then d.showWheel g
  else
    let d := d.modFrame n fseq (fun f => { f with inWindow := false })
    match d.frame? n fseq with
    | some f => (if f.raw.isNone then d.devSkip n g f else d).showWheel g
    | none => d

/-- The tiles of a frame are to be coded: the compression engines expect it (R241). -/
def Dev.krcExpect (d : Dev) (n fseq tiles : Nat) : Dev :=
  { d with ze := { d.ze with frames := d.ze.frames ++
      [{ ctx := n, fseq := fseq, level := d.eget (F.ZE_KRC_LEVEL n), total := tiles }] } }

/-- An accepted frame enters the pipeline once its place in the RAW ring is known. -/
def Dev.frameEnters (d : Dev) (n p sfn top : Nat) (fsx : Bool) (sl : Slot) (fseq sid tiles : Nat) (krc : Bool) (raw : Option Nat)
    (blocker : Nat) : Dev :=
  let f := d.newFrame n fseq sid sfn top sl raw blocker
  let d := d.modCtx n (fun c => { c with frames := c.frames ++ [f], prev := some (sfn, fseq), line := none })
  let d := (d.modPort p (fun lp => { lp with rx := some n, fsxDue := fsx })).gkFrameStart (d.bondHead p) fseq
  let d := if krc && raw.isSome then d.krcExpect n fseq tiles else d
  let d := (d.slotSeen n fseq sid sl.target false false).recSlot n fseq sid sl.target (if raw.isSome then tiles else 0)
  match d.wheelOf n with
  | none => d.devStart n fseq true
  | some g => d.wheelArrive n g fseq

/-- The frame of an accepted FS opens. -/
def Dev.acceptFrame (d : Dev) (n p sfn top : Nat) (fsx : Bool) (sl : Slot) : Dev :=
  let d := (d.closeOpen n).resolve n
  let fseq := d.get (F.CAP_FSEQ_FSEQ n)
  let sid := d.get (F.CAP_SID_SID n)
  let a := d.activeWH n
  let krc := d.krcOn n
  -- LEVEL takes effect at the next accepted frame start (ZE_CTXn_KRC)
  let d := d.latch (R.ZE_KRC n)
  let r := d.rawEnter n fseq (entryLen a.1 a.2) (if krc then tileCount a.1 a.2 else 0) (d.wheelOf n).isSome
  r.1.frameEnters n p sfn top fsx sl fseq sid (tileCount a.1 a.2) krc r.2.1 r.2.2

/-- Whether the port's stream is received: its link is up, out of idle, in a mode that runs sensors. -/
def Dev.receives (d : Dev) (p : Nat) : Bool :=
  d.sensing && d.flag (F.KSL_STATUS_LINK_UP p) && !d.flag (F.KSL_STATUS_IN_EI p)

/-- A control block of a packet: its type and CRC-8 are checked (R92, R96). -/
def Dev.packet (d : Dev) (p ty : Nat) (blk : List Byte) (f : Dev → Dev) : Dev :=
  if blkByte blk 0 ≠ ty then d
  else if !blkCrcOk blk then d.bump (F.KSL_ERRCNT_HDR_CRC_ERR p)
  else f d

/-- FRAME_START (R127, R128, R130-R132): port `p` receives an FS. -/
def execFrameStart (p : Fin 8) (blk : List Byte) (s : State) : Host.Outcome State Fault Refusal :=
  s.run (fun d =>
    if !d.receives p then d
    else d.packet p 0x33 blk (fun d =>
      let h := d.bondHead p
      let sfn := blkBE blk 2 4
      let top := blkByte blk 1 / 8 % 4
      let fsx := bitOf (blkByte blk 1) 5
      let ns := d.ctxOfPort h
      let d := (ns.filter d.ctxRuns).foldl (fun d n => Dev.expireSlots 64 d n) d
      let hit := ns.foldl (fun best n =>
        match (d.ctx n).slots with
        | sl :: _ =>
          if d.slotAccepts n sl then
            match best with
            | some (_, b) => if sl.target < b.target then some (n, sl) else best
            | none => some (n, sl)
          else best
        | [] => best) (none : Option (Nat × Slot))
      match hit, ns with
      | some (n, sl), _ =>
        if d.leavingSensing then (d.closeOpen n).modPort p (fun lp => { lp with rx := none, fsxDue := false })
        else d.acceptFrame n p sfn top fsx sl
      | none, n :: _ => if d.ctxRuns n then d.excess n p sfn else d.modPort p (fun lp => { lp with rx := none, fsxDue := false })
      | none, [] => d))

/-- FSX (R92): the 48-bit sensor timestamp goes to the record of the frame just started. -/
def execFsx (p : Fin 8) (blk : List Byte) (s : State) : Host.Outcome State Fault Refusal :=
  s.run (fun d =>
    if !d.receives p then d
    else d.packet p 0x39 blk (fun d =>
      match (d.port p).fsxDue, (d.port p).rx with
      | true, some n =>
        let d := d.modPort p (fun lp => { lp with fsxDue := false })
        match d.openFrame n with
        | some f => d.modFrame n f.fseq (fun f => { f with ts := (sliceBytes blk 1 6).reverse })
        | none => d
      | _, _ => d))

/-! ### Lines and frame end -/

/-- LINE_START (R93, R134): an LS opens a line. Lines it skips are padded at once; a line out of order, past HEIGHT or of
a readout that is not accounted is cut; one of the wrong depth is discarded, padded in its place and flagged. -/
def execLineStart (p : Fin 8) (blk : List Byte) (s : State) : Host.Outcome State Fault Refusal :=
  s.run (fun d =>
    if !d.receives p then d
    else d.packet p 0x2D blk (fun d =>
      match (d.port p).rx with
      | none => d
      | some n =>
        let d := d.modCtx n (fun c => { c with line := none })
        match d.openFrame n with
        | none =>
          -- lines after the close are cut (R135): the frame is gone, so only the counter shows it
          d.add (F.CAP_CNT2_CUT n) 1
        | some f =>
          let ro := blkByte blk 1 % 4
          let depth := blkByte blk 1 / 4 % 4
          let y := blkBE blk 2 2
          if f.ros.length ≤ ro then d.lineCut n f.fseq
          else if d.get (F.CAP_GEOM_HEIGHT n) ≤ y ∨ y < (elemAt f.ros ro {}).lines.length then d.lineCut n f.fseq
          else
            let d := Dev.padTo (y + 1) d n f.fseq ro y
            if depth ≠ d.get (F.CAP_FMT_DEPTH n) then
              let d := d.modFrame n f.fseq (fun f => { f with flags := setBit f.flags 8 true, cut := f.cut + 1 })
              Dev.mergeReady 65 (Dev.padTo 1 d n f.fseq ro (y + 1)) n f.fseq
            else
              d.modCtx n (fun c => { c with line := some { ro := ro, y := y, count := blkBE blk 4 2, depth := depth } })))

/-- What follows when rows of a frame were merged: tile rows go to the ZEs, and a frame in development advances its
branches (R145, R214, R242). -/
def Dev.rowsMoved (d : Dev) (n fseq : Nat) : Dev :=
  let d := d.tileRowsReady n fseq
  match d.frame? n fseq with
  | some f => if f.dev = 1 ∨ f.dev = 2 then d.advanceBranches n fseq f.rows else d
  | none => d

/-- LINE_END (R95, R133): an LE closes the line with its data block bytes. A line whose CRC fails, or whose LE is damaged, is
delivered and flagged damaged; `lost` says that the lane-move window of R117 damages it. -/
def execLineEnd (p : Fin 8) (blk data : List Byte) (lost : Bool) (s : State) : Host.Outcome State Fault Refusal :=
  s.run (fun d =>
    if !d.receives p then d
    else if blkByte blk 0 ≠ 0x4B then d
    else
      let hdrOk := blkCrcOk blk
      let d := if hdrOk then d else d.bump (F.KSL_ERRCNT_HDR_CRC_ERR p)
      match (d.port p).rx with
      | none => d
      | some n =>
        match (d.ctx n).line, d.openFrame n with
        | some l, some f =>
          let d := d.modCtx n (fun c => { c with line := none })
          let crcOk := blkBE blk 2 4 == crc32c data
          let d := if hdrOk && !crcOk then d.bump (F.KSL_ERRCNT_LE_CRC_ERR p) else d
          let damaged := !hdrOk || !crcOk || lost
          let bits := depthBits l.depth
          let width := d.get (F.CAP_GEOM_WIDTH n)
          let have_ := min l.count (8 * data.length / bits)
          let px := unpackPixels data bits (min have_ width)
          let px := padPixels (d.get (F.CAP_FMT_PIX_PAD n) = 0) (d.get (F.CAP_FMT_PAD_BLACK n)) width px
          let (ln, b) := d.lineIn n l.ro l.y px true damaged
          let d := d.modCtx n (fun c => { c with black := b })
          let d := if l.ro = 0 then d.gkLine (d.bondHead p) l.y bits px damaged else d
          let d := d.modFrame n f.fseq (fun f =>
            { f with short := f.short + (if have_ < width then 1 else 0), long := f.long + (if width < have_ then 1 else 0)
                     damagedN := f.damagedN + (if damaged then 1 else 0)
                     ros := modifyAt f.ros l.ro (fun r => { r with lines := r.lines ++ [ln] }) })
          (Dev.mergeReady 66 d n f.fseq).rowsMoved n f.fseq
        | _, _ => d)

/-- FRAME_END (R135): the FE of a readout arrives; with all of them the frame closes. -/
def execFrameEnd (p : Fin 8) (blk : List Byte) (s : State) : Host.Outcome State Fault Refusal :=
  s.run (fun d =>
    if !d.receives p then d
    else d.packet p 0x55 blk (fun d =>
      match (d.port p).rx with
      | none => d
      | some n =>
        match d.openFrame n with
        | none => d
        | some f =>
          let ro := blkByte blk 1 / 8 % 4
          if f.ros.length ≤ ro then d
          else
            let d := d.modFrame n f.fseq (fun f => { f with ros := modifyAt f.ros ro (fun r => { r with fe := true }) })
            match d.frame? n f.fseq with
            | some f' =>
              if f'.ros.all (·.fe) then (d.closeFrame n f.fseq).rowsMoved n f.fseq else d
            | none => d))

end Sys2Proof.Machine
end

