-- ==== Sys2Proof/Machine/Loops.lean ====
section
/-!
DEFINITION. The end of a frame's development: statistics, the noise loop, learning, machine vision (R152-R155, R180-R182,
R218); edits and journal of the defect map (R177, R184-R186); commits of exposure and colour settings and 3D tables
(R148, R205, R206, R223, R224).
-/
namespace Sys2Proof.Machine

/-! ### Learning and edits (R177, R181, R182) -/

/-- Number of 1 bits among the low `m` of a history. -/
def onesIn (h m : Nat) : Nat := ((List.range m).filter (bitOf h)).length

/-- Shows the queue and the list of a port. -/
def Dev.showDmap (d : Dev) (p : Nat) : Dev :=
  let m := elemAt d.dmap p {}
  (d.set (F.RAWC_DMAP_STATUS_USED p) m.cur.length).set (F.RAWC_DMAP_STATUS_PENDING p) m.queue.length

/-- Queues an edit. -/
def Dev.queueEdit (d : Dev) (p : Nat) (e : DefectEdit) : Dev :=
  ({ d with dmap := modifyAt d.dmap p (fun m => { m with queue := m.queue ++ [e] }) }).showDmap p

/-- Enters one flagged pixel into the candidate table of a port (R181): its entry, a free one, or one whose last M history
bits are all 0; else the flag is dropped. -/
def enterFlag (mBits : Nat) (old : List Candidate) (acc : List Candidate × Nat) (p : Nat × Nat) : List Candidate × Nat :=
  if old.any (fun c => c.x == p.1 && c.y == p.2) then
    (acc.1.map (fun c => if c.x = p.1 ∧ c.y = p.2 then { c with hist := c.hist / 2 * 2 + 1 } else c), acc.2)
  else
    let new : Candidate := { x := p.1, y := p.2, hist := 1 }
    if acc.1.length < 16384 then (acc.1 ++ [new], acc.2)
    else match acc.1.findIdx? (fun c => c.hist % 2 ^ mBits == 0) with
      | some i => (setAt acc.1 i new, acc.2)
      | none => (acc.1, acc.2 + 1)

/-- The candidate table after a developed frame with these flags (R181). -/
def Dev.shiftCandidates (d : Dev) (n p : Nat) (flags : List (Nat × Nat)) : Dev :=
  let mBits := min 64 (d.get F.RAWC_LEARN_CFG_M)
  let old := (elemAt d.dmap p {}).cands
  let shifted := old.map (fun c => { c with hist := c.hist * 2 % 2 ^ 64 })
  let (cands, dropped) := (flags.take 65536).foldl (enterFlag mBits old) (shifted, 0)
  let d := { d with dmap := modifyAt d.dmap p (fun m => { m with cands := cands }) }
  d.add (F.RAWC_CNT1_CAND_DROPPED n) (dropped + (flags.length - 65536))

/-- Candidates with at least N set bits among their last M are learned while the queue and the map have room (R182). -/
def Dev.learn (d : Dev) (p : Nat) : Dev :=
  let nBits := d.get F.RAWC_LEARN_CFG_N
  let mBits := min 64 (d.get F.RAWC_LEARN_CFG_M)
  if nBits = 0 ∨ !d.flag F.RAWC_DMAP_CTRL_LEARN_EN ∨ !d.sensing ∨ d.journal.rebuilding then d
  else
    ((elemAt d.dmap p {}).cands.filter (fun c => decide (nBits ≤ onesIn c.hist mBits))).foldl (fun d c =>
      let m := elemAt d.dmap p {}
      if d.dmapCap p ≤ m.cur.length + (m.queue.filter (fun e => e.cls != 0)).length then d.dmapFull p
      else if 256 ≤ m.queue.length then d
      else
        let d := { d with dmap := modifyAt d.dmap p (fun m =>
          { m with cands := m.cands.filter (fun x => !(x.x == c.x && x.y == c.y)) }) }
        let d := d.queueEdit p { x := c.x, y := c.y, cls := 4, learned := true }
        d.eventAt 0x0902 sevInfo p [u16 c.x, u16 c.y, u16 (d.get (F.RAWC_DMAP_GEN_GEN p) + 1)]) d

/-- The contexts bound to a port, started or not. -/
def Dev.ctxBound (d : Dev) (p : Nat) : List Nat :=
  (List.range 16).filter (fun n => d.flag (F.CAP_BIND_EN n) && d.get (F.CAP_BIND_PORT n) = p)

/-- The result of a host edit (R177, R549): 0 queued, 1 queue full, 2 map full, 3 exists, 4 absent, 5 outside the active
area, 6 code refused. -/
def Dev.editResult (d : Dev) (p x y op cls : Nat) : Nat :=
  let m := elemAt d.dmap p {}
  let outside := (d.ctxBound p).any (fun n =>
    let (w, h) := d.activeWH n
    decide (w ≤ x) || decide (h ≤ y))
  let queued := m.queue.any (fun e => e.x == x && e.y == y && e.cls != 0)
  if op ≠ 1 ∧ op ≠ 2 ∨ op = 1 ∧ !((1 ≤ cls && cls ≤ 6) || cls == 15) then 6
  else if outside then 5
  else if op = 1 ∧ inMap m.cur x y then 3
  else if op = 2 ∧ !inMap m.cur x y ∧ !queued then 4
  else if 256 ≤ m.queue.length then 1
  else if op = 1 ∧ d.dmapCap p ≤ m.cur.length + (m.queue.filter (fun e => e.cls != 0)).length then 2
  else 0

/-- A host edit of the map of port `p` at (x, y) (R177): `op` 1 ADD, 2 REMOVE; a REMOVE clears the pixel's candidate. -/
def Dev.hostEdit (d : Dev) (op p cls x y : Nat) : Dev :=
  let r := d.editResult p x y op cls
  let d := ((d.set F.RAWC_DMAP_EDIT_CMD_RESULT r).setFlag F.RAWC_DMAP_EDIT_CMD_GO false)
  if r = 2 then d.dmapFull p
  else if r ≠ 0 then d
  else
    let d := d.queueEdit p { x := x, y := y, cls := if op = 1 then cls else 0, learned := false }
    if op = 2 then
      { d with dmap := modifyAt d.dmap p (fun m => { m with cands := m.cands.filter (fun c => !(c.x == x && c.y == y)) }) }
    else d

/-- DMAP_EDIT_ADD (R177): EDIT_CMD.GO with OP ADD for the pixel in EDIT_XY. -/
def execDmapEditAdd (p : Fin 8) (cls : Fin 16) (s : State) : Host.Outcome State Fault Refusal :=
  s.hostCmd R.RAWC_DMAP_EDIT_CMD (0x10001 + p * 4 + cls * 256) (fun d =>
    let d := ((d.set F.RAWC_DMAP_EDIT_CMD_OP 1).set F.RAWC_DMAP_EDIT_CMD_PORT p).set F.RAWC_DMAP_EDIT_CMD_CLASS cls
    d.hostEdit 1 p cls (d.get F.RAWC_DMAP_EDIT_XY_X) (d.get F.RAWC_DMAP_EDIT_XY_Y))

/-- DMAP_EDIT_REMOVE (R177): EDIT_CMD.GO with OP REMOVE for the pixel in EDIT_XY. -/
def execDmapEditRemove (p : Fin 8) (s : State) : Host.Outcome State Fault Refusal :=
  s.hostCmd R.RAWC_DMAP_EDIT_CMD (0x10002 + p * 4) (fun d =>
    let d := (d.set F.RAWC_DMAP_EDIT_CMD_OP 2).set F.RAWC_DMAP_EDIT_CMD_PORT p
    d.hostEdit 2 p 0 (d.get F.RAWC_DMAP_EDIT_XY_X) (d.get F.RAWC_DMAP_EDIT_XY_Y))

/-! ### The journal (R183-R186) -/

/-- Records of the journal ring. -/
def journalRecords : Nat := 98303

/-- Keep-store address of journal record `i`. -/
def journalAt (i : Nat) : Nat := 0x600010 + 16 * (i % journalRecords)

/-- A journal record (R184). -/
def journalRecord (jseq op slot bits : Nat) : List Byte :=
  let b := bytesLE 4 jseq ++ bytesLE 3 slot ++ bytesLE 1 op ++ bytesLE 6 bits
  b ++ bytesBE 2 (crc16 b)

/-- The smallest period between batches in ns (R185). -/
def Dev.journalPeriod (d : Dev) : Nat := max 60 (d.get F.RAWC_DMAP_CTRL_JOURNAL_PERIOD_S) * nsPerS

/-- Writes a batch of at most 256 records (R185). -/
def Dev.journalWrite (d : Dev) : Dev :=
  let batch := d.journal.wait.take 256
  if batch.isEmpty then d
  else
    let d := batch.foldl (fun d e =>
      let j := d.journal.jseq
      let d := d.keepWrite (journalAt j) (journalRecord j e.1 e.2.1 e.2.2)
      { d with journal := { d.journal with jseq := (j + 1) % 2 ^ 32 } }) d
    let d := { d with journal := { d.journal with wait := d.journal.wait.drop 256, lastBatch := d.elapsed } }
    let d := d.add F.RAWC_JOURNAL_USED batch.length
    d.event 0x0904 sevInfo [u16 batch.length, u32 ((d.journal.jseq + (2 ^ 32 - 1)) % 2 ^ 32)]

/-- The fold: every journaled slot goes into the map copy, then BASE_JSEQ names the next record (R185). -/
def Dev.journalFold (d : Dev) : Dev :=
  let base := d.keepNat 0x600004 4
  let n := d.get F.RAWC_JOURNAL_USED
  let d := (List.range n).foldl (fun d i =>
    let a := journalAt ((base + i) % 2 ^ 32)
    let slot := d.keepNat (a + 4) 3
    d.keepWrite (6 * slot) (if d.keepNat (a + 7) 1 = 2 then List.replicate 6 0 else d.keepRead (a + 8) 6)) d
  let d := d.keepWrite 0x600004 (bytesLE 4 d.journal.jseq)
  let d := { d with journal := { d.journal with lastFold := d.elapsed } }
  ((d.set F.RAWC_JOURNAL_USED 0).bump F.RAWC_JOURNAL_FOLDS).event 0x0905 sevInfo [u32 d.journal.jseq]

/-- JOURNAL_BATCH (R185): with edits waiting and the period passed, a batch is written, and a fold follows where one is
due. -/
def execJournalBatch (s : State) : Host.Outcome State Fault Refusal :=
  s.run (fun d =>
    if d.journal.wait.isEmpty || d.elapsed < d.journal.lastBatch + d.journalPeriod then d
    else
      let d := d.journalWrite
      if 86016 ≤ d.get F.RAWC_JOURNAL_USED ∧ d.journal.lastFold + d.journalPeriod ≤ d.elapsed then d.journalFold else d)

/-- The LAYOUT bytes of the journal header (R183). -/
def Dev.dmapLayout (d : Dev) : List Byte :=
  (List.range 8).flatMap (fun p =>
    let c := d.get (F.RAWC_DMAP_PORT_COUNT p)
    bytesLE 1 (if c = 0 then 0xFF else d.get (F.RAWC_DMAP_PORT_FIRST p) + 16 * (c - 1)))

/-- KEEP_REBUILD_DONE (R186): the map copy holds the map as it is, the journal is clear, and learning resumes. Edits that
wait are journaled all the same (R184). -/
def execKeepRebuildDone (s : State) : Host.Outcome State Fault Refusal :=
  s.run (fun d =>
    if !d.journal.rebuilding then d
    else
      let d := { d with keep := { d.keep with bytes := d.keep.bytes.filter (fun e => 0x780000 ≤ e.1) },
                        journal := { d.journal with rebuilding := false } }
      let d := (List.range 8).foldl (fun d p =>
        let m := elemAt d.dmap p {}
        m.cur.foldl (fun d e => d.keepWrite (6 * e.slot) (bytesLE 6 (e.bits m.cur))) d) d
      (d.keepWrite 0x600000 (bytesLE 4 0x4E524A44 ++ bytesLE 4 d.journal.jseq ++ d.dmapLayout)).set F.RAWC_JOURNAL_USED 0)

/-! ### Development ends (R143, R154, R180-R182, R218) -/

/-- The noise loop of a frame (R180). -/
def Dev.noiseLoop (d : Dev) (n : Nat) (f : CapFrame) (o : DefectOut) : Dev :=
  let s := (d.ctx n).sigma.getD f.gain 2048
  let s' := if 4096 ≤ o.count then
      let meas := (o.sum * 256 / o.count * 287 + 128) / 256
      ((s : Int) + sar ((meas : Int) - s) 4).toNat % 65536
    else s
  let t := clampNat ((d.get (F.RAWC_DET_THR_K n) * s' + 2048) / 4096) (d.get (F.RAWC_DET_T_MIN n)) (d.get (F.RAWC_DET_T_MAX n))
  let d := d.modCtx n (fun c =>
    { c with sigma := setAt c.sigma f.gain s', thr := setAt (if c.thr.isEmpty then List.replicate 8 48 else c.thr) f.gain t })
  ((d.set (F.RAWC_NOISE_EST_SIGMA_Q8 n) s').set (F.RAWC_NOISE_EST_IDX n) f.gain).set (F.RAWC_NOISE_EST_T n) t

/-- Ends the development of a frame; `hosts` are, per branch, the host addresses that its machine-vision ring entry
holds. -/
def Dev.frameDeveloped (d : Dev) (n fseq : Nat) (hosts : List (List Nat)) : Dev :=
  match d.frame? n fseq with
  | none => d
  | some f =>
    let d := d.advanceBranches n fseq f.rows
    let o := d.frameDefects n f f.rows
    let pics := d.ctxPics n f f.rows o.plane
    let p := d.get (F.CAP_BIND_PORT n)
    -- statistics (R152, R154)
    let d := if d.statsOn n then
        (d.poolWrite poolAux (d.statsAt n fseq + 0x20) (d.statsData n f pics)).statsHeader n fseq f.sid 2 d.stime
      else d
    let d := if o.unresolved then d.bump (F.RAWC_CNT1_UNRESOLVED n) else d
    -- loops run only where sensors do (R182)
    let d := if d.sensing && f.clip.isNone then (((d.noiseLoop n f o).shiftCandidates n p o.flags).learn p) else d
    let d := (d.branches n).foldl (fun d b =>
      if d.get (F.COL_BR_CFG_KIND n b) = 2 then d.mvPush n b f pics.ap0 (hosts.getD b []) else d) d
    let d := d.modFrame n fseq (fun f => { f with dev := 3 })
    let d := d.rawModify n fseq (fun e => { e with dev := false, sub := false })
    let d := d.dropEnded n
    match d.wheelOf n with
    | some g =>
      if (d.wheel g).busy = some (n, fseq) then (d.modWheel g (fun w => { w with busy := none })).wheelService g none else d
    | none => d

/-! ### Commits (R148, R205, R206, R223, R224) -/

/-- Whether library table `t` is valid (R203). -/
def Dev.lutValid (d : Dev) (t : Nat) : Bool := bitOf (d.get F.COL_LUT3D_VALID_VALID) t

/-- Tables that branches of a context's engines use now. -/
def Dev.lutsInUse (d : Dev) (u : Nat) : List Nat :=
  ((List.range 16).filter (fun n => d.lutUnit n = u && d.flag (F.CAP_BIND_EN n))).flatMap (fun n =>
    ((d.branches n).filter (fun b => d.eget (F.COL_BR_LUT_LUT3D_EN n b) = 1)).map (fun b =>
      d.get (F.COL_BR_LUT_STATUS_IDX_IN_EFFECT n b)))

/-- What a commit does with the LUT selection of a branch (R206, R224): an invalid table refuses IDX and EN, a table with
no free buffer refuses IDX, a table that is not held starts to load. A refused field keeps the value in effect. -/
def Dev.lutCommit (d : Dev) (n b : Nat) : Dev :=
  let idx := d.get (F.COL_BR_LUT_LUT3D_IDX n b)
  let en := d.get (F.COL_BR_LUT_LUT3D_EN n b)
  let idx0 := d.eget (F.COL_BR_LUT_LUT3D_IDX n b)
  let en0 := d.eget (F.COL_BR_LUT_LUT3D_EN n b)
  let u := d.lutUnit n
  let l := elemAt d.luts u {}
  if (idx ≠ idx0 ∨ en = 1 ∧ en0 = 0) ∧ !d.lutValid idx then
    ((d.set (F.COL_BR_LUT_LUT3D_IDX n b) idx0).set (F.COL_BR_LUT_LUT3D_EN n b) en0).eventCtx 0x0A0A sevNotice n n [u8 b, u8 idx]
  else if en = 1 ∧ !l.held.contains idx then
    let keep := l.held.filter (fun t => (d.lutsInUse u).contains t)
    if l.loading.isSome || 2 ≤ keep.length then
      (d.set (F.COL_BR_LUT_LUT3D_IDX n b) idx0).eventCtx 0x0A02 sevNotice n n [u8 b, u8 idx]
    else
      { d with luts := setAt d.luts u { held := l.held, loading := some (n, b, idx) } }.setFlag (F.COL_BR_LUT_STATUS_LOADING n b)
        true
  else d

/-- Addresses of a context's colour registers that hold RWS fields. -/
def colShadows (n : Nat) : List Nat :=
  ((List.range 512).map (fun i => R.COL_CFG n + 4 * i)).filter (fun a => (fieldsAt a).any (fun f => f.acc == .rws))

/-- LUT selections of every branch of a context are judged before its shadows latch. -/
def Dev.colJudge (d : Dev) (n : Nat) : Dev := (List.range 6).foldl (fun d b => d.lutCommit n b) d

/-- COL_COMMIT for one context (R223); no effect under SID_SYNC. -/
def Dev.colCommit (d : Dev) (n : Nat) : Dev :=
  if d.flag (F.COL_CFG_SID_SYNC n) then d
  else (d.colJudge n).latchAll (colShadows n)

/-- COL_COMMIT (R223): the contexts of `mask`. -/
def execColCommit (mask : Fin 65536) (s : State) : Host.Outcome State Fault Refusal :=
  s.hostCmd R.COL_COMMIT mask (fun d => ((List.range 16).filter (bitOf mask)).foldl (fun d n => d.colCommit n) d)

/-- LUT3D_LOAD_DONE (R205): the load that runs for context `n`'s engines completes; the table takes the free buffer. -/
def execLut3dLoadDone (n : Fin 16) (s : State) : Host.Outcome State Fault Refusal :=
  s.run (fun d =>
    let u := d.lutUnit n
    let l := elemAt d.luts u {}
    match l.loading with
    | none => d
    | some (m, b, t) =>
      let keep := if l.held.length < 2 then l.held else
        let used := l.held.filter (fun x => (d.lutsInUse u).contains x)
        if used.length < 2 then used else used.take 1
      { d with luts := setAt d.luts u { held := keep ++ [t], loading := none } }.setFlag (F.COL_BR_LUT_STATUS_LOADING m b) false)

/-- A colour set is latched with an exposure set under SID_SYNC (R223, R224). -/
def Dev.colSetLatch (d : Dev) (n sid : Nat) : Dev :=
  if !d.flag (F.COL_CFG_SID_SYNC n) then d
  else
    let d := d.colJudge n
    let sets := (d.ctx n).sets
    let waiting := sets.filter (fun s => !s.2.1)
    let d := match decide (4 ≤ waiting.length), waiting with
      | true, w :: _ =>
        (d.modCtx n (fun c => { c with sets := sets.filter (fun s => !(s.1 == w.1 && !s.2.1)) })).eventCtx 0x0A07 sevNotice n n
          [u16 w.1]
      | _, _ => d
    let d := d.modCtx n (fun c => { c with sets := c.sets ++ [(sid, false, (colShadows n).map (fun a => (a, d.word a)))] })
    d.set (F.COL_STATUS_SETS_PENDING n) (min 7 ((d.ctx n).sets.filter (fun (s : Nat × Bool × Sparse Word) => !s.2.1)).length)

/-- Exposure sets that no later slot can need are forgotten. -/
def Dev.expPrune (d : Dev) (n : Nat) : Dev :=
  let f := d.get (F.CAP_FSEQ_FSEQ n)
  let l : List ExpSet := elemAt d.exps n []
  let done (e : ExpSet) : Bool := e.state == 3 && (e.answered || e.lost) && decide (signed 32 (toBits 32 ((e.apply : Int) - f)) ≤ 0)
  let k := ((List.range l.length).filter (fun i => match l[i]? with | some e => done e | none => false)).getLastD 0
  { d with exps := setAt d.exps n (l.drop k) }

/-- A commit latches context `n`'s staged exposure set and gives it the next SID (R148, R179); in vertical blanking it goes
out at once (R149). -/
def Dev.expCommit (d : Dev) (n : Nat) : Dev :=
  let count := d.get (F.CAP_EXP_CNT_COUNT n)
  if count = 0 then d
  else
    let d := d.expPrune n
    let sid := (d.get (F.CAP_EXP_STATUS_SID n) + 1) % 65536
    let l : List ExpSet := elemAt d.exps n []
    let e : ExpSet :=
      { sid := sid, gain := d.get (F.RAWC_GAIN_STAGE_IDX n)
        entries := (List.range count).map (fun k => (d.get (F.CAP_EXP_ADDR_ADDR n k), d.get (F.CAP_EXP_VAL_VAL n k))) }
    let d := { d with exps := setAt d.exps n (l.filter (fun (x : ExpSet) => x.state != 1) ++ [e]) }
    let d := match l.find? (fun x => x.state == 1) with
      | some x =>
        let p := d.get (F.CAP_BIND_PORT n)
        -- the replaced set leaves the back channel's queue too
        let d := d.modPort p (fun lp => { lp with bcQueue := lp.bcQueue.filter (fun f => f.ctx != some n) })
        (d.bump (F.CAP_EXP_STATUS_SUPERSEDED n)).eventCtx 0x0806 sevInfo n n [u16 x.sid, u16 sid]
      | none => d
    let d := (d.set (F.CAP_EXP_STATUS_SID n) sid).set (F.CAP_EXP_STATUS_STATE n) 1
    let d := d.colSetLatch n sid
    if d.blanking (d.get (F.CAP_BIND_PORT n)) then d.expSend n else d

/-- CAP_EXP_COMMIT (R148): the contexts of `mask`. -/
def execCapExpCommit (mask : Fin 65536) (s : State) : Host.Outcome State Fault Refusal :=
  s.hostCmd R.CAP_EXP_COMMIT mask (fun d => ((List.range 16).filter (bitOf mask)).foldl (fun d n => d.expCommit n) d)

/-! ### The end of training (R102 step 7, R111) -/

/-- The base exposure set of a context is committed at WAKE and is in effect from its first slot (R151): the staged set as
BOOT's records left it, where it has entries. -/
def Dev.expBase (d : Dev) (n : Nat) : Dev :=
  let count := d.get (F.CAP_EXP_CNT_COUNT n)
  if count = 0 ∨ (elemAt d.exps n []).isEmpty = false then d
  else
    let sid := (d.get (F.CAP_EXP_STATUS_SID n) + 1) % 65536
    let apply := (d.get (F.CAP_FSEQ_FSEQ n) + 1) % 2 ^ 32
    let e : ExpSet :=
      { sid := sid, gain := d.get (F.RAWC_GAIN_STAGE_IDX n), state := 3, apply := apply, answered := true
        entries := (List.range count).map (fun k => (d.get (F.CAP_EXP_ADDR_ADDR n k), d.get (F.CAP_EXP_VAL_VAL n k))) }
    let d := { d with exps := setAt d.exps n [e] }
    let d := ((d.set (F.CAP_EXP_STATUS_SID n) sid).set (F.CAP_EXP_STATUS_STATE n) 3).set (F.CAP_EXP_APPLY_APPLY_FSEQ n) apply
    d.bcSend (d.get (F.CAP_BIND_PORT n)) 3 (bytesBE 2 sid ++ bytesBE 1 count ++
      e.entries.flatMap (fun x => bytesBE 4 x.1 ++ bytesBE 4 x.2)) none false

/-- WAKE on a port (R102 step 7, R151). -/
def Dev.wakePort (d : Dev) (p : Nat) : Dev :=
  (d.ctxBound p).foldl (fun d n => d.expBase n) ((d.bcWake p).emit (.link p 3))

/-- Training of a port ends with the echo measured as `rtt` (R102, R111). -/
def Dev.echoDone (d : Dev) (p rtt : Nat) : Dev :=
  let us := (d.elapsed - (d.port p).trainFrom) / 1000
  let d := (d.set (F.KSL_TRIG_CAL_ECHO_RTT p) rtt).set (F.KSL_TRIG_CAL_ONE_WAY p) (toBits 12 ((rtt : Int) - 512))
  let d := (d.bondPorts p).foldl (fun d q =>
    ((d.setFlag (F.KSL_STATUS_LINK_UP q) true).setFlag (F.KSL_STATUS_TRAINING q) false).setFlag (F.KSL_CTRL_RETRAIN q) false) d
  (d.modPort p (fun lp => { lp with train := 0 })).eventAt 0x0704 sevInfo p
    [u32 us, u16 (d.get (F.KSL_STATUS_SKEW_NS p)), u16 (rtt % 4096)]

/-- ECHO (R102, R111): the head answers the training trigger; `rtt` is the round trip that the port measured, in units of
ECHO_RTT. The link is up. -/
def execEcho (p : Fin 8) (blk : List Byte) (rtt : Nat) (s : State) : Host.Outcome State Fault Refusal :=
  s.run (fun d =>
    if (d.port p).train = 6 ∧ blkByte blk 0 = 0x66 ∧ blkCrcOk blk = true ∧ blkByte blk 1 = 4 ∧ blkByte blk 2 = 0xFF then
      let d := d.echoDone p rtt
      if d.sensing then d.wakePort p else d
    else d)

end Sys2Proof.Machine
end

