-- ==== Sys2Proof/Machine/General.lean ====
section
/-!
DEFINITION. The work of the compression engines: coding tiles (R241, R242) and general jobs (R245-R255), and EP0's link.
-/
namespace Sys2Proof.Machine

/-! ### Coding a tile -/

/-- The K16 samples of tile `idx` of a frame, read from its RAW_RING entry: width, height, samples. -/
def Dev.tileSamples (d : Dev) (n off idx : Nat) : Nat × Nat × List Nat :=
  let (w, h) := d.activeWH n
  let x0 := idx % tileCols w * 256
  let y0 := idx / tileCols w * 64
  let tw := min 256 (w - x0)
  let th := min 64 (h - y0)
  (tw, th, (List.range th).flatMap (fun v => (List.range tw).map (fun u =>
    d.poolNat poolRaw (off + pixelsAt + 2 * ((y0 + v) * w + x0 + u)) 2)))

/-- Delivers to the recorder every tile of a frame that is next in tile order (R242). -/
def Dev.deliver : Nat → Dev → KrcFrame → Dev × KrcFrame
  | 0, d, k => (d, k)
  | fuel + 1, d, k =>
    match Sparse.get (fun _ => []) k.waiting k.next with
    | [] => (d, k)
    | bytes =>
      let d := if d.recording k.ctx then d.recTile k.ctx k.fseq bytes else d
      Dev.deliver fuel d { k with next := k.next + 1, waiting := Sparse.put (fun _ => []) k.waiting k.next [] }

/-- The tiles that wait at ZE `z`. -/
def Dev.zeQueue (d : Dev) (z : Nat) (l : List TileJob) : Dev := { d with ze := { d.ze with queues := setAt d.ze.queues z l } }

/-- The frames that compression has begun. -/
def Dev.zeFrames (d : Dev) (l : List KrcFrame) : Dev := { d with ze := { d.ze with frames := l } }

/-- The code of tile `t` of frame `k`, whose samples lie at `off`, padded to 16 bytes, and whether it is stored as it is. -/
def Dev.tileCode (d : Dev) (t : TileJob) (k : KrcFrame) (off : Nat) : List Byte × Bool :=
  let n := t.ctx
  let p := d.tileSamples n off t.idx
  let q := if d.flag (F.ZE_KRC_NB n) then d.get (F.ZE_KRC_QSEL n) + 2 else 1
  let r := krcEncode k.level (d.get (F.CAP_FMT_CFA n)) (d.get (F.RAWC_K16_BLACK_BLACK n)) q (d.get (F.ZE_KRC_KINIT n)) p.1 p.2.1 p.2.2
  (r.1 ++ List.replicate ((16 - r.1.length % 16) % 16) 0, r.2)

/-- Frame `k` after a tile: still in progress, or complete (ZE_CTXn_LAST). -/
def Dev.krcAfter (d : Dev) (k : KrcFrame) : Dev :=
  if k.emitted = k.total then
    ((d.zeFrames (d.ze.frames.filter (fun x => !(x.ctx == k.ctx && x.fseq == k.fseq)))).set (F.ZE_LAST_FSEQ_FSEQ k.ctx) k.fseq).set
      (F.ZE_LAST_BYTES_BYTES k.ctx) (min k.bytes (2 ^ 32 - 1))
  else d.zeFrames (d.ze.frames.map (fun x => if x.ctx = k.ctx ∧ x.fseq = k.fseq then k else x))

/-- Tile `t` of frame `k`, whose samples lie at `off`, is coded and emitted. -/
def Dev.tileOut (d : Dev) (t : TileJob) (k : KrcFrame) (off : Nat) : Dev :=
  let n := t.ctx
  let c := d.tileCode t k off
  let d := if c.2 then d.bump (F.ZE_CNT_STORED n) else d
  let k := { k with emitted := k.emitted + 1, bytes := k.bytes + c.1.length
                    waiting := Sparse.put (fun _ => []) k.waiting t.idx c.1 }
  let r := Dev.deliver (k.total + 1) d k
  let k := r.2
  let d := (r.1.rawModify n t.fseq (fun e => { e with krc := k.total - k.emitted })).krcAfter k
  ((d.backlogCheck n).recPump n).zeBusy

/-- The head tile of ZE `z` is emitted. -/
def Dev.emitTile (d : Dev) (z : Nat) : Dev :=
  match elemAt d.ze.queues z [] with
  | [] => d
  | t :: rest =>
    let d := d.zeQueue z rest
    match d.ze.frames.find? (fun k => k.ctx == t.ctx && k.fseq == t.fseq),
        d.rawEntries.find? (fun e => e.ctx == t.ctx && e.fseq == t.fseq) with
    | some k, some e => d.tileOut t k e.off
    | _, _ => d.zeBusy

/-! ### General jobs -/

/-- Bytes of host memory that a command carries: chunks by address. -/
def hostBytes (host : List (Nat × List Byte)) (a n : Nat) : Option (List Byte) :=
  (host.find? (fun c => decide (c.1 ≤ a) && decide (a + n ≤ c.1 + c.2.length))).map (fun c => (c.2.drop (a - c.1)).take n)

/-- Bytes at an address in a space: 0 host memory, 1 HOST_WIN. -/
def Dev.spaceBytes (d : Dev) (host : List (Nat × List Byte)) (space a n : Nat) : Option (List Byte) :=
  if n = 0 then some []
  else if space = 1 then some (d.poolRead poolHost a n)
  else hostBytes host a n

/-- Writes bytes to an address in a space. -/
def Dev.spaceWrite (d : Dev) (space a : Nat) (bs : List Byte) : Dev :=
  if bs.isEmpty then d
  else if space = 1 then d.poolWrite poolHost a bs
  else if d.ep0Up then d.emit (.hostWrite a bs) else d

/-- Jobs that wait on a ring (R249). -/
def Dev.ringAvail (d : Dev) (r : Nat) : Bool :=
  0 < signed 16 (d.get (F.ZE_RING_PROD_IDX r) + 65536 - d.get (F.ZE_RING_CONS_IDX r))

/-- The position of a ring's next descriptor. -/
def Dev.ringPos (d : Dev) (r : Nat) : Nat := d.get (F.ZE_RING_CONS_IDX r) % 2 ^ d.get (F.ZE_RING_CFG_SIZE_LOG2 r)

/-- The status a descriptor gives its job before it runs (R252, R253): 4 CFG_ERROR, 1 OK_EMPTY, none to run. -/
def Dev.jobStatus (d : Dev) (desc : List Byte) (bufs : List (Nat × Nat)) (bufResv : Bool) : Option Nat :=
  let level := leAt desc 0xC 1
  let nbuf := leAt desc 0xD 1
  let flags := leAt desc 0xE 2
  let win (space a n : Nat) : Bool := space = 0 || decide (a + n ≤ d.poolSize poolHost)
  let srcSp := flags / 2 % 2
  let dstSp := flags / 4 % 2
  if !(1 ≤ level && level ≤ 9) || nbuf = 0 || 64 < nbuf || flags / 16 ≠ 0 || !(desc.drop 0x20).all (· == 0) || bufResv ||
      bufs.any (fun b => b.2 == 0 || !win dstSp b.1 b.2) || !win srcSp (leAt desc 0 8) (leAt desc 8 4) ||
      !win srcSp (leAt desc 0x10 8) (16 * nbuf) then some 4
  else if leAt desc 8 4 = 0 then some 1
  else none

/-- Ends a job of a ring: its completion record, CONS, and MSI-X (R254). -/
def Dev.jobComplete (d : Dev) (r : Nat) (desc : List Byte) (status outLen check lastBuf : Nat) : Dev :=
  let a := d.get (F.ZE_RING_COMPL_LO_ADDR r) + d.get (F.ZE_RING_COMPL_HI_ADDR r) * 2 ^ 32 + 32 * d.ringPos r
  let rec_ := sliceBytes desc 0x18 8 ++ bytesLE 8 outLen ++ bytesLE 4 check ++ bytesLE 1 status ++ bytesLE 1 lastBuf ++
    bytesLE 2 0 ++ sliceBytes desc 8 4 ++ bytesLE 4 0
  let d := d.spaceWrite (d.get (F.ZE_RING_CFG_SPACE r)) a rec_
  let d := ((d.bump (F.ZE_RING_CONS_IDX r)).set (F.ZE_RING_STATUS_LAST_STATUS r) status).setFlag (F.ZE_RING_STATUS_RUNNING r) false
  if bitOf (leAt desc 0xE 2) 3 then d else d.sendMsix (d.get (F.ZE_RING_CFG_VECTOR r))

/-- A ring access fails (R255): ZE_RING_FAULT. The spec gives the job no status of its own there, so STATUS is a free
value. -/
def Dev.ringFault (d : Dev) (r : Nat) (desc : List Byte) (addr : Nat) : Dev :=
  let d := d.eventAt 0x0B03 sevNotice r [u8 r, u16 (d.get (F.ZE_RING_CONS_IDX r)), u64 addr]
  (d.jobComplete r desc (d.free % 6) 0 0 0).tookFree 1

/-- Whether a general job may start on an engine (R243, R248). -/
def Dev.generalMayStart (d : Dev) (z : Nat) : Bool :=
  d.flag F.ZE_CFG_GEN_EN && d.zeActive.contains z && (elemAt d.ze.queues z []).isEmpty && (elemAt d.ze.jobs z none).isNone &&
    (List.range 16).all (fun n => !(d.krcOn n && d.backlogged n))

/-- A job of this source runs (R248). -/
def Dev.sourceBusy (d : Dev) (src : Nat) : Bool :=
  d.ze.jobs.any (fun j => match j with | some j => j.source == src | none => false)

/-- The next source of a general job: 8 the recorder, else a ring in round-robin after the one last served (R248). -/
def Dev.nextSource (d : Dev) : Option Nat :=
  if !d.ze.recJobs.isEmpty && !d.sourceBusy 8 then some 8
  else ((List.range 8).map (fun i => (d.ze.lastRing + 1 + i) % 8)).find? (fun r =>
    d.flag (F.ZE_RING_CFG_EN r) && d.ringAvail r && !d.sourceBusy r && d.get (F.ZE_RING_CFG_SIZE_LOG2 r) != 0)

/-- Puts a job on an engine. -/
def Dev.startJob (d : Dev) (z : Nat) (j : GenJob) : Dev :=
  ({ d with ze := { d.ze with jobs := setAt d.ze.jobs z (some j) } }).zeBusy

/-- ZE_JOB_START (R248, R249): ZE `z`, free of image work, takes the next general job. `host` holds the host memory that
the job's ring, buffer list and input lie in. -/
def execZeJobStart (z : Fin 20) (host : List (Nat × List Byte)) (s : State) : Host.Outcome State Fault Refusal :=
  s.run (fun d =>
    if !d.generalMayStart z then d
    else match d.nextSource with
    | none => d
    | some r =>
      if r = 8 then
        match d.ze.recJobs with
        | (_, input) :: _ => d.startJob z { source := 8, desc := [], bufs := [], input := input, status := none }
        | [] => d
      else
        let d := { d with ze := { d.ze with lastRing := r } }
        let ringA := d.get (F.ZE_RING_LO_ADDR r) + d.get (F.ZE_RING_HI_ADDR r) * 2 ^ 32 + 64 * d.ringPos r
        match d.spaceBytes host (d.get (F.ZE_RING_CFG_SPACE r)) ringA 64 with
        | none => d.ringFault r ((List.range 64).map (fun i => BitVec.ofNat 8 (Config.free (d.freeCtr + 1 + i)))) ringA
        | some desc =>
          let srcSp := leAt desc 0xE 2 / 2 % 2
          let nbuf := leAt desc 0xD 1
          let listA := leAt desc 0x10 8
          let n := if nbuf ≤ 64 then nbuf else 0
          match d.spaceBytes host srcSp listA (16 * n), d.spaceBytes host srcSp (leAt desc 0 8) (leAt desc 8 4) with
          | some bl, some input =>
            let bufs := (List.range n).map (fun i => (leAt bl (16 * i) 8, leAt bl (16 * i + 8) 4))
            let resv := (List.range n).any (fun i => leAt bl (16 * i + 12) 4 != 0)
            let d := (d.setFlag (F.ZE_RING_STATUS_RUNNING r) true).set (F.ZE_RING_STATUS_ZE r) z
            -- a job whose input is poisoned ends ABORTED (R437)
            let lost := if srcSp = 1 && d.poolPoisoned poolHost (leAt desc 0 8) (leAt desc 8 4) then some 5 else none
            d.startJob z { source := r, desc := desc, bufs := bufs, input := input
                           status := (d.jobStatus desc bufs resv).or lost
                           ngr := d.get (F.ZE_RING_NGR_NGR r) }
          | none, _ => d.ringFault r desc listA
          | _, none => d.ringFault r desc (leAt desc 0 8))

/-- The outcome of a job that ran (R250, R251, R253): status and output. The no-gain limit is tested as output is produced;
on the byte that both reaches it and passes the last buffer, NO_GAIN wins. -/
def jobOutcome (ngr cap srcLen : Nat) (out : List Byte) : Nat :=
  let t := (srcLen * ngr + 255) / 256
  if t ≤ out.length ∧ t ≤ cap + 1 then 2
  else if cap < out.length then 3
  else 0

/-- The bytes of the output that each buffer takes, in order. -/
def fillBuffers : List (Nat × Nat) → List Byte → List (Nat × List Byte)
  | [], _ => []
  | b :: rest, out => (b.1, out.take b.2) :: fillBuffers rest (out.drop b.2)

/-- Buffers of a job in HOST_WIN that committed nothing hold undefined bytes (R250): free values. -/
def Dev.spoilBuffers (d : Dev) (dstSp : Nat) (bufs : List (Nat × Nat)) : Dev :=
  if dstSp = 0 then d
  else bufs.foldl (fun d b =>
    (d.poolWrite poolHost b.1 ((List.range b.2).map (fun i => BitVec.ofNat 8 (Config.free (d.freeCtr + i))))).tookFree b.2) d

/-- The recorder's job ends: its META record goes to the clip, compressed unless that gained nothing (R269). -/
def Dev.recJobDone (d : Dev) : Dev :=
  match d.ze.recJobs with
  | [] => d
  | (n, input) :: rest =>
    let d := { d with ze := { d.ze with recJobs := rest } }
    match d.clip? n with
    | some c =>
      match c.blobs with
      | (sub, _) :: blobs =>
        let out := generalStream 6 true input
        let gain := decide (out.length < input.length)
        let c := { c with blobs := blobs }
        if c.closing ≠ 0 then d.setClip n (some c)
        else
          let body := d.metaBody sub (b2n gain) (c.firstF.getD (d.get (F.CAP_FSEQ_FSEQ n))) input.length (if gain then out else input)
          match d.clipAddAll n c [(6, body)] with
          | (d, some c) => (d.setClip n (some c)).recPump n
          | (d, none) => d
      | [] => d
    | none => d

/-- Ends the job on an engine. -/
def Dev.jobDone (d : Dev) (z : Nat) : Dev :=
  match elemAt d.ze.jobs z none with
  | none => d
  | some j =>
    let d := { d with ze := { d.ze with jobs := setAt d.ze.jobs z none } }.zeBusy
    if j.source = 8 then d.recJobDone
    else
      let r := j.source
      let zlib := bitOf (leAt j.desc 0xE 2) 0
      let dstSp := leAt j.desc 0xE 2 / 4 % 2
      match j.status with
      | some st =>
        let d := if st = 1 then d else d.spoilBuffers dstSp (if st = 4 then [] else j.bufs)
        d.jobComplete r j.desc st 0 (if st = 1 then b2n zlib else 0) 0
      | none =>
        let out := generalStream (leAt j.desc 0xC 1) zlib j.input
        match jobOutcome j.ngr (sumNat (j.bufs.map (·.2))) j.input.length out with
        | 0 =>
          let parts := fillBuffers j.bufs out
          let d := parts.foldl (fun d p => d.spaceWrite dstSp p.1 p.2) d
          let used := (parts.takeWhile (fun p => !p.2.isEmpty)).length
          d.jobComplete r j.desc 0 out.length (if zlib then adler32 j.input else crc32c j.input) (used - 1)
        | st => (d.spoilBuffers dstSp j.bufs).jobComplete r j.desc st 0 0 0

/-- Aborts the job of a ring, if one runs (R253). -/
def Dev.abortJob (d : Dev) (r : Nat) : Dev :=
  match (List.range 20).find? (fun z => match elemAt d.ze.jobs z none with | some j => j.source == r | none => false) with
  | none => d
  | some z =>
    let d := { d with ze := { d.ze with jobs := modifyAt d.ze.jobs z (fun (j : Option GenJob) => j.map (fun (x : GenJob) => { x with status := some 5 })) } }
    d.jobDone z

/-- `ZE_RINGr_CTRL.ABORT` (R253): the running job ends ABORTED and the ring stops until EN is written 1 again. -/
def Dev.ringAbort (d : Dev) (r : Nat) : Dev :=
  ((d.abortJob r).setFlag (F.ZE_RING_CFG_EN r) false).setFlag (F.ZE_RING_CTRL_ABORT r) false

/-- ZE_RING_ABORT (R253). -/
def execZeRingAbort (r : Fin 8) (s : State) : Host.Outcome State Fault Refusal :=
  s.hostCmd (R.ZE_RING_CTRL r) 1 (fun d => d.ringAbort r)

/-- EP0_LINK_DOWN (R253, R218): jobs of rings that use host space end ABORTED; pushes to host memory stop. -/
def execEp0LinkDown (s : State) : Host.Outcome State Fault Refusal :=
  s.run (fun d =>
    let d := { d with ep0Up := false }
    (List.range 8).foldl (fun d r => if d.flag (F.ZE_RING_CFG_SPACE r) then d else d.abortJob r) d)

/-- EP0_LINK_UP (R256): EP0 trains where the lane option gives it lanes. -/
def execEp0LinkUp (s : State) : Host.Outcome State Fault Refusal :=
  s.run (fun d => { d with ep0Up := d.get F.PCIE_CFG_LANE_OPT ≠ 2 })

end Sys2Proof.Machine
end

