-- ==== Sys2Proof/Machine/Inflate.lean ====
section
/-!
DEFINITION. Expanding a zlib stream (RFC 1950, RFC 1951): the reader of compressed META records (R268, R269, R346).
-/
namespace Sys2Proof.Machine

/-- A bit of a byte array, least significant first. -/
def bitAt (a : Array Nat) (p : Nat) : Nat := a.getD (p / 8) 0 / 2 ^ (p % 8) % 2

/-- `n` bits from position `p`, least significant first. -/
def bitsAt (a : Array Nat) (p n : Nat) : Nat := sumNat ((List.range n).map (fun i => bitAt a (p + i) * 2 ^ i))

/-- A canonical Huffman code: how many codes each length has, and the symbols in code order. -/
structure Huff where
  counts : List Nat
  syms : List Nat

/-- The canonical code of a list of code lengths by symbol. -/
def Huff.of (lens : List Nat) : Huff :=
  let by_ (l : Nat) : List Nat := (List.range lens.length).filter (fun i => nth lens i = l)
  { counts := (List.range 16).map (fun l => if l = 0 then 0 else (by_ l).length)
    syms := (List.range 15).flatMap (fun l => by_ (l + 1)) }

/-- Reads one symbol at `p`: the symbol and the position after it; none for a code that no symbol has. -/
def Huff.read (h : Huff) (a : Array Nat) : Nat → Nat → Nat → Nat → Nat → Nat → Option (Nat × Nat)
  | 0, _, _, _, _, _ => none
  | fuel + 1, len, code, first, index, p =>
    let code := code * 2 + bitAt a p
    let count := nth h.counts len
    if code < first + count ∧ first ≤ code then some (nth h.syms (index + (code - first)), p + 1)
    else Huff.read h a fuel (len + 1) code ((first + count) * 2) (index + count) (p + 1)

/-- Reads one symbol. -/
def Huff.sym (h : Huff) (a : Array Nat) (p : Nat) : Option (Nat × Nat) := h.read a 15 1 0 0 0 p

/-- Base and extra bits of length code 257 + `i`. -/
def lenCode (i : Nat) : Nat × Nat :=
  ([(3, 0), (4, 0), (5, 0), (6, 0), (7, 0), (8, 0), (9, 0), (10, 0), (11, 1), (13, 1), (15, 1), (17, 1), (19, 2), (23, 2),
    (27, 2), (31, 2), (35, 3), (43, 3), (51, 3), (59, 3), (67, 4), (83, 4), (99, 4), (115, 4), (131, 5), (163, 5), (195, 5),
    (227, 5), (258, 0)] : List (Nat × Nat)).getD i (0, 0)

/-- Base and extra bits of distance code `i`. -/
def distCode (i : Nat) : Nat × Nat := if i < 4 then (i + 1, 0) else ((2 + i % 2) * 2 ^ (i / 2 - 1) + 1, i / 2 - 1)

/-- Appends `n` bytes copied from `dist` back. -/
def copyBack (out : Array Nat) (dist : Nat) : Nat → Array Nat
  | 0 => out
  | n + 1 => copyBack (out.push (out.getD (out.size - dist) 0)) dist n

/-- Decodes the symbols of a block until its end. -/
def inflateSyms (ll dd : Huff) (a : Array Nat) : Nat → Nat → Array Nat → Option (Nat × Array Nat)
  | 0, _, _ => none
  | fuel + 1, p, out =>
    match ll.sym a p with
    | none => none
    | some (s, p) =>
      if s < 256 then inflateSyms ll dd a fuel p (out.push s)
      else if s = 256 then some (p, out)
      else
        let (base, ext) := lenCode (s - 257)
        let n := base + bitsAt a p ext
        match dd.sym a (p + ext) with
        | none => none
        | some (ds, q) =>
          let (db, de) := distCode ds
          let dist := db + bitsAt a q de
          if out.size < dist then none else inflateSyms ll dd a fuel (q + de) (copyBack out dist n)

/-- Reads the code lengths of a dynamic block. -/
def readLens (h : Huff) (a : Array Nat) (want : Nat) : Nat → Nat → List Nat → Option (Nat × List Nat)
  | 0, _, _ => none
  | fuel + 1, p, acc =>
    if want ≤ acc.length then some (p, acc)
    else match h.sym a p with
      | none => none
      | some (s, p) =>
        if s < 16 then readLens h a want fuel p (acc ++ [s])
        else if s = 16 then readLens h a want fuel (p + 2) (acc ++ List.replicate (3 + bitsAt a p 2) (acc.getLastD 0))
        else if s = 17 then readLens h a want fuel (p + 3) (acc ++ List.replicate (3 + bitsAt a p 3) 0)
        else readLens h a want fuel (p + 7) (acc ++ List.replicate (11 + bitsAt a p 7) 0)

/-- The order of code-length code lengths. -/
def clOrder : List Nat := [16, 17, 18, 0, 8, 7, 9, 6, 10, 5, 11, 4, 12, 3, 13, 2, 14, 1, 15]

/-- Decodes blocks until the last. -/
def inflateBlocks (a : Array Nat) : Nat → Nat → Array Nat → Option (Array Nat)
  | 0, _, _ => none
  | fuel + 1, p, out =>
    let last := bitAt a p = 1
    let next (r : Option (Nat × Array Nat)) : Option (Array Nat) :=
      match r with
      | some (q, o) => if last then some o else inflateBlocks a fuel q o
      | none => none
    match bitsAt a (p + 1) 2 with
    | 0 =>
      let b := (p + 3 + 7) / 8
      let n := a.getD b 0 + 256 * a.getD (b + 1) 0
      next (some (8 * (b + 4 + n), (List.range n).foldl (fun o i => o.push (a.getD (b + 4 + i) 0)) out))
    | 1 =>
      let ll := Huff.of (List.replicate 144 8 ++ List.replicate 112 9 ++ List.replicate 24 7 ++ List.replicate 8 8)
      next (inflateSyms ll (Huff.of (List.replicate 30 5)) a (8 * a.size) (p + 3) out)
    | 2 =>
      let nl := bitsAt a (p + 3) 5 + 257
      let nd := bitsAt a (p + 8) 5 + 1
      let nc := bitsAt a (p + 13) 4 + 4
      let cl := (List.range 19).map (fun s =>
        match clOrder.findIdx? (· == s) with
        | some i => if i < nc then bitsAt a (p + 17 + 3 * i) 3 else 0
        | none => 0)
      match readLens (Huff.of cl) a (nl + nd) (nl + nd + 1) (p + 17 + 3 * nc) [] with
      | some (q, l) => next (inflateSyms (Huff.of (l.take nl)) (Huff.of ((l.drop nl).take nd)) a (8 * a.size) q out)
      | none => none
    | _ => none

/-- The bytes of a zlib stream; none where it is not one. -/
def zlibExpand (l : List Byte) : Option (List Byte) :=
  if leAt l 0 1 % 16 ≠ 8 ∨ (leAt l 0 1 * 256 + leAt l 1 1) % 31 ≠ 0 then none
  else (inflateBlocks ((l.drop 2).map (·.toNat)).toArray (l.length + 1) 0 #[]).map (fun o => o.toList.map (BitVec.ofNat 8))

end Sys2Proof.Machine
end

