-- ==== Sys2Proof/Machine/Media.lean ====
section
/-!
DEFINITION. Reading media: drive initialisation, completions, drive loss, recovery of an open clip, offload (R256-R261,
R266, R276-R280, R345-R348, R244).
-/
namespace Sys2Proof.Machine

/-! ### Records as read (R262, R266) -/

/-- A record at the head of some bytes that is accepted: type, RSEQ, length, body. -/
def readRecord (buf : List Byte) : Option (Nat × Nat × Nat × List Byte) :=
  let len := leAt buf 4 4
  if buf.length < 16 ∨ len < 16 ∨ len % 16 ≠ 0 ∨ buf.length < len then none
  else
    let body := (buf.take len).drop 16
    if crc32c (buf.take 12 ++ body) = leAt buf 12 4 then some (leAt buf 0 2, leAt buf 8 4, len, body) else none

/-- More bytes may complete the record at the head of `buf`. -/
def needsMore (buf : List Byte) : Bool :=
  let len := leAt buf 4 4
  buf.length < 16 || (16 ≤ len && len % 16 = 0 && decide (buf.length < len) && decide (len ≤ spoolBytes))

/-- Bytes moved by one Read of a drive (R259). -/
def Dev.readChunk (d : Dev) (k : Nat) : Nat := min 131072 (max 4096 (d.drive k).mdts)

/-- Whether a drive can be read. -/
def Dev.driveOk (d : Dev) (k : Nat) : Bool := d.flag (F.REC_RP_STATUS_READY k) && !d.flag (F.REC_RP_STATUS_FAILED k)

/-- The first readable drive of a mask. -/
def Dev.pickDrive (d : Dev) (mask : Nat) : Option Nat := (List.range 4).find? (fun k => bitOf mask k && d.driveOk k)

/-- A Read for a use is outstanding. -/
def Dev.reading (d : Dev) (use_ : Nat) : Bool := d.recd.drives.any (fun s => s.outCmds.any (fun c => c.kind == 11 && c.use_ == use_))

/-- log2 of a drive's LBA size. -/
def Dev.shiftOf (d : Dev) (k : Nat) : Nat := if d.get (F.REC_RP_STATUS_LBA_SHIFT k) = 9 then 9 else 12

/-! ### Offload (R345-R348) -/

/-- Changes the running job. -/
def Dev.modJob (d : Dev) (f : OffJob → OffJob) : Dev := { d with recd := { d.recd with job := d.recd.job.map f } }

/-- The context of a job. -/
def OffJob.ctx (j : OffJob) : Nat := leAt j.desc 0x19 1

/-- Where a spool of the clip lies: drive mask and LBA (R273). -/
def OffJob.spoolAt (j : OffJob) (n shift : Nat) : Option (Nat × Nat) :=
  (j.ents.find? (fun e => decide (e.2.2.1 ≤ n) && (n - e.2.2.1) % max 1 e.2.1 == 0
    && decide ((n - e.2.2.1) / max 1 e.2.1 < e.2.2.2.1))).map (fun e =>
      (e.1, e.2.2.2.2 + (n - e.2.2.1) / max 1 e.2.1 * 2 ^ (26 - shift)))

/-- A map entry from its 48 bits. -/
def entryOfBits (v : Nat) : DefectEntry := { x := v % 2 ^ 14, y := v / 2 ^ 14 % 2 ^ 14, cls := v / 2 ^ 28 % 16, slot := 0 }

/-- The map of a DMAP record. -/
def mapOfBytes (l : List Byte) : List DefectEntry :=
  ((List.range (l.length / 6)).map (fun i => entryOfBits (leAt l (6 * i) 6))).foldl insertDefect []

/-- The map after a DMAP_DELTA record. -/
def mapDeltaApply (m : List DefectEntry) (l : List Byte) : List DefectEntry :=
  (List.range ((l.length - 2) / 8)).foldl (fun m i =>
    let e := entryOfBits (leAt l (2 + 8 * i + 2) 6)
    let rest := m.filter (fun x => !(x.x == e.x && x.y == e.y))
    if leAt l (2 + 8 * i) 1 = 1 then insertDefect rest e else rest) m

/-- The data of a META body (R268). -/
def metaData (body : List Byte) : List Byte :=
  let data := body.drop 32
  if bitOf (leAt body 2 2) 0 then ((zlibExpand data).getD []).take (leAt body 16 4) else data.take (leAt body 16 4)

/-- The tiles that follow each other in a TILES body: each is 16 bytes and its payload, padded to 16. -/
def splitTiles : Nat → Nat → List Byte → List DecTile
  | 0, _, _ => []
  | n + 1, i, l =>
    let len := 16 + beNat (sliceBytes l 8 4)
    { idx := i, bytes := l.take len } :: splitTiles n (i + 1) (l.drop (roundUp len 16))

/-- What a record of the clip does to the job; frames outside the job's range are skipped. -/
def Dev.offRecord (d : Dev) (type : Nat) (body : List Byte) : Dev :=
  match d.recd.job with
  | none => d
  | some j =>
    let rel (a b : Nat) : Int := signed 32 (toBits 32 ((a : Int) - b))
    let first := leAt j.desc 0x1C 4
    let last := leAt j.desc 0x20 4
    let allReady (j : OffJob) : OffJob := { j with flight := j.flight.map (fun f => { f with ready := true }) }
    match type with
    | 1 =>
      let (w, h) := d.activeWH j.ctx
      if leAt body 0x34 2 = w ∧ leAt body 0x36 2 = h then d.modJob (fun j => { j with head := body })
      else d.modJob (fun j => { j with status := some 4, phase := 2, flight := [] })
    | 2 =>
      let fseq := leAt body 0 4
      if 0 < rel fseq last then d.modJob (fun j => { allReady j with phase := 2 })
      else if rel fseq first < 0 then d
      else
        let gap := bitOf (leAt body 8 4) 0 || bitOf (leAt body 0x42 1) 1
        let h := j.head
        let clip : ClipIn :=
          { k16a := leAt h 0x28 4, k16b := leAt h 0x2C 4, k16black := leAt h 0x30 2, cfa := leAt h 0x32 1 % 4
            map := j.map, flat := j.flat, column := j.column }
        let f : OffFrame :=
          { fseq := fseq, record := body.take 64, resid := if bitOf (leAt body 0x42 1) 0 then body.drop 0x50 else []
            total := if gap then 0 else leAt body 0x44 4, clip := clip, ready := gap }
        d.modJob (fun j => { allReady j with flight := (allReady j).flight ++ [f] })
    | 3 =>
      let fseq := leAt body 0 4
      let ts := splitTiles (leAt body 8 4) (leAt body 4 4) (body.drop 16)
      d.modJob (fun j => { j with flight := j.flight.map (fun f => if f.fseq = fseq then { f with tiles := f.tiles ++ ts } else f) })
    | 4 => d.modJob (fun j => { j with flight := j.flight.map (fun f => if f.fseq = leAt body 0 4 then { f with ready := true } else f) })
    | 6 =>
      match leAt body 0 2 with
      | 4 => d.modJob (fun j => { j with map := mapOfBytes (metaData body) })
      | 5 => d.modJob (fun j => { j with map := mapDeltaApply j.map (metaData body) })
      | 6 => d.modJob (fun j => { j with flat := metaData body })
      | 7 => d.modJob (fun j => { j with column := metaData body })
      | _ => d
    | _ => d

/-- The job goes on to the next spool, or has read them all. -/
def OffJob.nextSpool (j : OffJob) : OffJob :=
  let j := { j with spool := j.spool + 1, off := 0, buf := [] }
  if j.spools ≤ j.spool then { j with phase := 2, flight := j.flight.map (fun f => { f with ready := true }) } else j

/-- Parses what was read of the spool. A record whose CRC fails is passed over by its LEN; where the header says nothing
usable, the rest of the spool is. -/
def Dev.offParse : Nat → Dev → Dev
  | 0, d => d
  | fuel + 1, d =>
    match d.recd.job with
    | none => d
    | some j =>
      if j.phase ≠ 1 ∨ needsMore j.buf = true ∧ j.off < spoolBytes then d
      else match readRecord j.buf with
        | some (type, _, len, body) =>
          let d := (d.modJob (fun j => { j with buf := j.buf.drop len })).offRecord type body
          Dev.offParse fuel (if type = 8 then d.modJob OffJob.nextSpool else d)
        | none =>
          let len := leAt j.buf 4 4
          if 16 ≤ len ∧ len % 16 = 0 ∧ len ≤ j.buf.length then Dev.offParse fuel (d.modJob (fun j => { j with buf := j.buf.drop len }))
          else Dev.offParse fuel (d.modJob OffJob.nextSpool)

/-- Issues the job's next Read, at most AHEAD_FRAMES frames ahead of development (R345). -/
def Dev.offRead (d : Dev) : Dev :=
  match d.recd.job with
  | none => d
  | some j =>
    if d.reading 3 then d
    else if j.phase = 1 ∧ j.flight.length ≤ d.get F.REC_OFF_CFG_AHEAD_FRAMES ∧ j.status.isNone then
      match j.spoolAt j.spool 12, j.spoolAt j.spool 9 with
      | some (mask, lba), some (_, lba9) =>
        match d.pickDrive mask with
        | some k =>
          let sh := d.shiftOf k
          d.nvmeRead k ((if sh = 9 then lba9 else lba) + j.off / 2 ^ sh) (min (d.readChunk k) (spoolBytes - j.off)) 3
        | none => d.modJob (fun j => { j with status := some 5, phase := 2, flight := [] })
      | _, _ => d.modJob OffJob.nextSpool
    else d

/-- The rows of a decoded frame (R158, R345). -/
def OffFrame.rows (f : OffFrame) (w h : Nat) : List Row :=
  (List.range h).map (fun y =>
    { k16 := (List.range w).map (fun x =>
        let t := Sparse.get (fun _ => []) f.plane (y / 64 * tileCols w + x / 256)
        let tw := min 256 (w - x / 256 * 256)
        nth t (y % 64 * tw + x % 256))
      res := [0, 1].map (fun c => if f.resid.isEmpty then 0 else signed 16 (leAt f.resid (4 * y + 2 * c) 2)) })

/-- Starts the development of decoded frames at the head of the job, in order; gap frames only take their place. A frame
waits while RAW_RING has no room for it (R138). -/
def Dev.offStart : Nat → Dev → Dev
  | 0, d => d
  | fuel + 1, d =>
    match d.recd.job with
    | none => d
    | some j =>
      match j.flight with
      | [] => d
      | f :: rest =>
        let n := j.ctx
        let trig := leAt f.record 0x10 8
        let (w, h) := d.activeWH n
        if !f.ready then d
        else if f.total = 0 then
          let d := d.slotSeen n f.fseq (leAt f.record 4 2) (d.stimeToNs trig) true j.order.isEmpty
          Dev.offStart fuel (d.modJob (fun j => { j with flight := rest, order := j.order ++ [(f.fseq, true, trig)] }))
        else if f.next < f.total then d
        else
          let len := entryLen w h
          let off := d.rawPlace len
          if (d.rawBlocker off len).isSome ∨ d.poolSize poolRaw < len then d
          else
            let rows := f.rows w h
            let flags := leAt f.record 8 4
            let cf : CapFrame :=
              { fseq := f.fseq, sid := leAt f.record 4 2, gain := 0, sfn := leAt f.record 0xC 4, trig := d.stimeToNs trig
                fsNs := d.stimeToNs (leAt f.record 0x18 8), fsStime := leAt f.record 0x18 8, ts := sliceBytes f.record 0x20 6
                flags := if f.bad then setBit flags 5 true else flags, ros := [], rows := rows, raw := some off
                closed := true, rawc := [d.word (R.RAWC_CFG n), d.word (R.RAWC_ROW n)], clip := some f.clip }
            let d := (d.rawTake off len n f.fseq).rawModify n f.fseq (fun e => { e with dev := true })
            let d := (d.poolWrite poolRaw off f.record).poolWrite poolRaw (off + pixelsAt) (rowsBytes rows)
            let d := d.modCtx n (fun c => { c with frames := c.frames ++ [cf] })
            let d := d.slotSeen n f.fseq cf.sid cf.trig false j.order.isEmpty
            let d := d.modJob (fun j => { j with flight := rest, order := j.order ++ [(f.fseq, false, trig)] })
            Dev.offStart fuel (d.devStart n f.fseq false)

/-- Everything a job can do without waiting: parse, start frames, read on. -/
def Dev.offPump (d : Dev) : Dev := Dev.offRead (Dev.offStart 300 (Dev.offParse 100000 d))

/-- The job in progress ends CFG_ERROR (R348). -/
def Dev.jobBad (d : Dev) : Dev := d.modJob (fun j => { j with status := some 4, phase := 2, buf := [] })

/-- Bytes of the job's directory arrived (R273, R345). -/
def Dev.offDirectory (d : Dev) (k : Nat) (data : List Byte) : Dev :=
  match d.recd.job with
  | none => d
  | some j =>
    let buf := j.buf ++ data
    if needsMore buf && decide (buf.length < 2 ^ 20) then
      (d.modJob (fun j => { j with buf := buf, off := j.off + data.length })).nvmeRead k
        (j.spool + (j.off + data.length) / 2 ^ d.shiftOf k) (d.readChunk k) 3
    else match readRecord buf with
      | some (0x11, _, _, body) =>
        if leAt body 0 8 = leAt j.desc 0 8 ∧ leAt body 8 8 = leAt j.desc 8 8 then
          let n := leAt body 48 4
          let ents := (List.range n).map (fun i =>
            let o := 64 + 32 * i
            (leAt body o 1, leAt body (o + 1) 1, leAt body (o + 4) 4, leAt body (o + 8) 4, leAt body (o + 16) 8))
          (d.modJob (fun j => { j with ents := ents, spools := leAt body 20 4, phase := 1, spool := 0, off := 0, buf := [] })).offPump
        else if leAt j.desc 0x10 8 = 2 ^ 64 - 1 ∧ leAt body 40 8 ≠ 2 ^ 64 - 1 then
          -- the chain of directories (R345): on to the one before
          (d.modJob (fun j => { j with spool := leAt body 40 8, off := 0, buf := [] })).nvmeRead k (leAt body 40 8) (d.readChunk k) 3
        else d.jobBad
      | _ => d.jobBad

/-- Whether the engine of the offload ring may take its next job. -/
def Dev.offMay (d : Dev) : Bool :=
  (d.modeCode = mOffload || d.modeCode = mReview) && !d.inTransition && !d.recd.job.isSome && !d.recd.recov.isSome &&
    decide (0 < signed 16 (d.get F.REC_OFF_IDX_PROD + 65536 - d.get F.REC_OFF_IDX_CONS))

/-- The engine holds job `j`. -/
def Dev.offHolds (d : Dev) (j : OffJob) : Dev := { d with recd := { d.recd with job := some j } }

/-- Where a job's directory lies: the last one of its bay, or the address that its descriptor gives. -/
def Dev.offDir (d : Dev) (desc : List Byte) : Option Nat :=
  if leAt desc 0x10 8 = 2 ^ 64 - 1 then (d.drive (leAt desc 0x18 1)).lastDir else some (leAt desc 0x10 8)

/-- The descriptor of the next job. -/
def Dev.offDesc (d : Dev) : List Byte :=
  d.poolRead poolHost (d.get F.REC_OFF_RING_BASE * 256 + 64 * (d.get F.REC_OFF_IDX_CONS % 2 ^ d.get F.REC_OFF_RING_SIZE_LOG2)) 64

/-- A job whose directory lies at `dir` starts, or ends with STATUS 4 where it has none or its bay cannot serve it. -/
def Dev.offFrom (d : Dev) (j : OffJob) (bay : Nat) (dir : Option Nat) (ok : Bool) : Dev :=
  match dir with
  | some lba =>
    if ok then (d.offHolds { j with spool := lba }).nvmeRead bay lba (d.readChunk bay) 3
    else d.offHolds { j with status := some 4, phase := 2 }
  | none => d.offHolds { j with status := some 4, phase := 2 }

/-- Takes the next job of the offload ring (R345). -/
def Dev.offBegin (d : Dev) : Dev :=
  let desc := d.offDesc
  let bay := leAt desc 0x18 1
  d.offFrom { desc := desc, from_ := d.elapsed } bay (d.offDir desc) (bay < 4 && d.driveOk bay && decide (leAt desc 0x19 1 < 16))

/-- OFFLOAD_JOB_START (R345): the next job of the offload ring starts; its directory is read first. -/
def execOffloadJobStart (s : State) : Host.Outcome State Fault Refusal :=
  s.run (fun d => if d.offMay then d.offBegin else d)

/-- Ends the job (R348): completion record, CONS, event, MSI-X. -/
def Dev.offFinish (d : Dev) (status : Nat) : Dev :=
  match d.recd.job with
  | none => d
  | some j =>
    let cons := d.get F.REC_OFF_IDX_CONS
    let rec_ := sliceBytes j.desc 0x28 8 ++ bytesLE 1 status ++ List.replicate 3 0 ++ bytesLE 4 j.frames ++ bytesLE 4 j.lastF ++
      bytesLE 4 j.bad ++ bytesLE 8 ((d.elapsed - j.from_) / 1000)
    let d := d.poolWrite poolHost (d.get F.REC_OFF_COMPL_BASE * 256 + 32 * (cons % 2 ^ d.get F.REC_OFF_RING_SIZE_LOG2)) rec_
    let d := { d with recd := { d.recd with
      job := none
      drives := d.recd.drives.map (fun (s : DriveSt) => { s with outCmds := s.outCmds.filter (fun (c : NvmeCmd) => !(c.use_ == 3)) }) } }
    let d := (d.bump F.REC_OFF_IDX_CONS).eventAt 0x0C0C sevInfo (j.ctx % 16)
      [u64 (leAt j.desc 0x28 8), u8 status, u32 j.frames]
    d.sendMsix (d.get F.REC_OFF_COMPL_VECTOR)

/-- Frames of the job that are in development. -/
def Dev.offDeveloping (d : Dev) : Bool := d.cap.any (fun c => c.frames.any (fun f => f.clip.isSome))

/-- OFFLOAD_JOB_DONE (R348): the job whose frames are all developed, or that was refused or aborted, ends. -/
def execOffloadJobDone (s : State) : Host.Outcome State Fault Refusal :=
  s.run (fun d =>
    match d.recd.job with
    | some j =>
      if j.phase = 2 ∧ j.flight.isEmpty ∧ d.offDeveloping = false then d.offFinish (j.status.getD 0) else d
    | none => d)

/-- The job stops at a frame boundary as its mode is left: it ends ABORTED (R348). -/
def Dev.offAbort (d : Dev) : Dev :=
  let d := { d with cap := d.cap.map (fun (c : CapCtx) => { c with frames := c.frames.filter (fun (f : CapFrame) => f.clip.isNone) }) }
  d.offFinish 5

/-- Decodes the next tile of the oldest frame in flight that still has one (R235, R244). -/
def Dev.decodeTile (d : Dev) : Dev :=
  match d.recd.job with
  | none => d
  | some j =>
    let can (f : OffFrame) : Bool := decide (f.next < f.total) && (f.ready || f.tiles.any (fun t => t.idx == f.next))
    match j.flight.find? can with
    | none => d
    | some f =>
      let n := j.ctx
      let (w, h) := d.activeWH n
      let i := f.next
      let tw := min 256 (w - i % tileCols w * 256)
      let th := min 64 (h - i / tileCols w * 64)
      let res := match f.tiles.find? (fun t => t.idx == i) with
        | some t => krcDecode tw th t.bytes
        | none => .bad 2
      let (px, bad) := match res with
        | .ok px => (px, none)
        | .bad c => (List.replicate (tw * th) f.clip.k16black, some c)
      let upd (g : OffFrame) : OffFrame :=
        if g.fseq = f.fseq then
          { g with next := i + 1, bad := g.bad || bad.isSome, plane := Sparse.put (fun _ => []) g.plane i px
                   tiles := g.tiles.filter (fun t => t.idx != i) }
        else g
      let d := d.modJob (fun j => { j with flight := j.flight.map upd, bad := j.bad + b2n bad.isSome })
      let d := match bad with
        | some c => (d.bump (F.ZE_CNT_BAD_TILES n)).limited n 0x0B01 (fun d =>
            d.eventCtx 0x0B01 sevNotice n n [u32 f.fseq, u32 i, u8 c])
        | none => d
      d.offPump

/-- TILE_DECODED (R244): an active ZE decodes the next tile read from media. -/
def execTileDecoded (z : Fin 20) (s : State) : Host.Outcome State Fault Refusal :=
  s.run (fun d => if d.zeActive.contains z.val then d.decodeTile else d)

/-- The development of the oldest frame of context `n` that is in development and wholly merged ends (R143, R154, R345). -/
def Dev.developDone (d : Dev) (n : Nat) (hosts : List (List Nat)) : Dev :=
  match (d.ctx n).frames.find? (fun f => (f.dev == 1 || f.dev == 2) && f.closed) with
  | some f =>
    let d := d.frameDeveloped n f.fseq hosts
    if f.clip.isSome then (d.modJob (fun j => { j with frames := j.frames + 1, lastF := f.fseq })).offPump else d
  | none => d

/-- Bytes of a job's Read arrived. -/
def Dev.offData (d : Dev) (k : Nat) (data : List Byte) : Dev :=
  match d.recd.job with
  | none => d
  | some j =>
    if j.phase = 0 then d.offDirectory k data
    else if j.phase = 1 then (d.modJob (fun j => { j with buf := j.buf ++ data, off := j.off + data.length })).offPump
    else d

/-- A job's Read failed on every copy (R348): its bytes are lost and the tiles in them are invalid; a job whose only drive
failed ends ABORTED. -/
def Dev.offLost (d : Dev) (k len : Nat) : Dev :=
  match d.recd.job with
  | none => d
  | some j =>
    if j.phase = 0 ∨ (j.ents.all (fun e => (d.pickDrive e.1).isNone)) then
      d.modJob (fun j => { j with status := some 5, phase := 2, flight := [] })
    else
      let f := j.flight.getLast?
      let lost := match f with | some f => f.total - f.next - f.tiles.length | none => 0
      let d := d.eventAt 0x0C0D sevNotice k [u8 k, u32 ((f.map (·.fseq)).getD 0), u32 lost]
      d.offData k (List.replicate len 0)

/-! ### Recovery (R277, "Recovering an open clip") -/

/-- Changes the recovery. -/
def Dev.modRecov (d : Dev) (f : RecovSt → RecovSt) : Dev := { d with recd := { d.recd with recov := d.recd.recov.map f } }

/-- The recovery ends: directories with DFLAGS bit 1, volume headers with STATE 0, and the event. -/
def Dev.recovFinish (d : Dev) : Dev :=
  match d.recd.recov with
  | none => d
  | some r =>
    let g := d.recGroups
    let lbas := spoolBytes / 2 ^ d.lbaShift
    let dir := 2 ^ 20 / 2 ^ d.lbaShift
    let c : ClipSt := { start := r.start, lbas := r.lbas, rseq := r.nextRseq, firstF := r.firstF, lastF := r.lastF, dflags := 2 }
    let d := (List.range g).foldl (fun d i =>
      let count := ((List.range r.lbas.length).filter (fun s => s % g = i)).length
      let at_ := nth r.firsts i + count * lbas
      (d.groupUp i).foldl (fun d k =>
        let d := d.nvme k 10 at_ (d.clipDirectory r.ctx c r.serial (d.drive k).lastDir) none
        let d := d.modDrive k (fun s => { s with lastDir := some at_, nextFree := some (at_ + dir), openClip := none })
        d.volumeHeader k 0 none none) d) d
    let d := ({ d with recd := { d.recd with recov := none } }).recState
    d.event 0x0C0B sevNotice [u64 r.start, u32 (r.lastF.getD 0)]

/-- Issues the recovery's next Read. -/
def Dev.recovRead (d : Dev) : Dev :=
  match d.recd.recov with
  | none => d
  | some r =>
    let g := d.recGroups
    let i := if r.phase = 0 then r.lbas.length else r.spool
    let base := if r.phase = 0 then nth r.firsts (i % g) + i / g * (spoolBytes / 2 ^ d.lbaShift) else r.lbas.getD i 0
    match d.pickDrive (sumNat ((d.groupDrives (i % g)).map (2 ^ ·))) with
    | some k => d.nvmeRead k (base + r.off / 2 ^ d.lbaShift) (if r.phase = 0 then 4096 else d.readChunk k) 2
    | none => d.recovFinish

/-- The walk of a spool ends; the spool before is walked while no complete frame was found. -/
def Dev.recovWalkEnd (d : Dev) : Dev :=
  match d.recd.recov with
  | none => d
  | some r =>
    if r.phase = 1 then
      (d.modRecov (fun r => { r with phase := 2, spool := r.lbas.length - 1, off := 0, buf := [], rseq := none })).recovRead
    else
      let d := if r.spool + 1 = r.lbas.length then d.modRecov (fun r => { r with nextRseq := (r.rseq.map (· + 1)).getD 0 }) else d
      if r.lastF.isNone ∧ 0 < r.spool then
        (d.modRecov (fun r => { r with spool := r.spool - 1, off := 0, buf := [], rseq := none })).recovRead
      else d.recovFinish

/-- Walks the records read so far. -/
def Dev.recovWalk : Nat → Dev → Dev
  | 0, d => d
  | fuel + 1, d =>
    match d.recd.recov with
    | none => d
    | some r =>
      if needsMore r.buf && decide (r.off < spoolBytes) then d.recovRead
      else match readRecord r.buf with
        | some (type, rseq, len, body) =>
          if (match r.rseq with | some q => rseq != (q + 1) % 2 ^ 32 | none => false) then d.recovWalkEnd
          else
            let d := d.modRecov (fun r =>
              { r with buf := r.buf.drop len, rseq := some rseq
                       firstF := if r.firstF.isNone && type = 2 then some (leAt body 0 4) else r.firstF
                       lastF := if r.phase = 2 && type = 4 then some (leAt body 0 4) else r.lastF })
            if r.phase = 1 && type = 2 || type = 8 then d.recovWalkEnd else Dev.recovWalk fuel d
        | none => d.recovWalkEnd

/-- Bytes of a recovery Read arrived. -/
def Dev.recovData (d : Dev) (data : List Byte) : Dev :=
  match d.recd.recov with
  | none => d
  | some r =>
    if r.phase = 0 then
      match readRecord data with
      | some (1, _, _, body) =>
        if leAt body 0 4 = 0x4C50534B ∧ leAt body 8 8 = r.start ∧ leAt body 0x10 8 = r.serial
            ∧ leAt body 0x18 4 = r.lbas.length then
          let g := d.recGroups
          let i := r.lbas.length
          let lba := nth r.firsts (i % g) + i / g * (spoolBytes / 2 ^ d.lbaShift)
          (d.modRecov (fun r => { r with lbas := r.lbas ++ [lba], ctx := leAt body 6 1 % 16 })).recovRead
        else if r.lbas.isEmpty then d.recovFinish
        else (d.modRecov (fun r => { r with phase := 1, spool := 0, off := 0, buf := [] })).recovRead
      | _ =>
        if r.lbas.isEmpty then d.recovFinish
        else (d.modRecov (fun r => { r with phase := 1, spool := 0, off := 0, buf := [] })).recovRead
    else Dev.recovWalk 100000 (d.modRecov (fun r => { r with buf := r.buf ++ data, off := r.off + data.length }))

/-- The recovery starts once every drive of the layout is ready with its header read, or has failed, and a header names an
open clip. -/
def Dev.recovTry (d : Dev) : Dev :=
  let ks := d.recDrives
  if !d.flag F.REC_CFG_EN || d.flag F.REC_CFG_BACKING || d.isRefused 0x600000 || d.recd.recov.isSome || ks.isEmpty ||
      d.recd.clips.any (·.isSome) || !ks.all (fun k => d.flag (F.REC_RP_STATUS_FAILED k) || (d.drive k).hdrRead) then d
  else match ks.findSome? (fun k => if d.driveOk k then (d.drive k).openClip else none) with
    | none => d
    | some (start, serial, _) =>
      let firsts := (List.range d.recGroups).map (fun g =>
        ((d.groupUp g).findSome? (fun k => (d.drive k).openClip.map (·.2.2))).getD 0)
      (({ d with recd := { d.recd with recov := some { start := start, serial := serial, firsts := firsts } } }).recState).recovRead

/-! ### Drive loss (R261, R278, R279) -/

/-- A Read of a failed drive is reissued on another copy, or its bytes are lost (R278, R348). -/
def Dev.readAgain (d : Dev) (k : Nat) (c : NvmeCmd) : Dev :=
  if c.use_ = 3 then
    match d.recd.job with
    | some j =>
      let mask := if j.phase = 0 then 0 else ((j.spoolAt j.spool 12).map (·.1)).getD 0
      match d.pickDrive mask with
      | some k' => d.nvmeRead k' c.lba c.len 3
      | none => d.offLost k c.len
    | none => d
  else if c.use_ = 2 then
    match d.recd.recov with
    | some _ => d.recovRead
    | none => d
  else d

/-- A drive fails: cause 1 link, 2 timeout, 3 error, 4 unsupported. -/
def Dev.driveFail (d : Dev) (k cause : Nat) : Dev :=
  if d.flag (F.REC_RP_STATUS_FAILED k) then d
  else
    let used := d.recDrives.contains k
    let reads := (d.drive k).outCmds.filter (fun c => c.kind == 11 && c.use_ != 1)
    let d := (d.setFlag (F.REC_RP_STATUS_FAILED k) true).setFlag (F.REC_RP_STATUS_READY k) false
    let d := d.set F.REC_STATUS_DRIVES_UP (setBit (d.get F.REC_STATUS_DRIVES_UP) k false)
    let d := d.modDrive k (fun s => { s with outCmds := [] })
    let d :=
      if !used then d
      else
        let g := ((List.range d.recGroups).find? (fun g => (d.groupDrives g).contains k)).getD 0
        let d := if (d.groupUp g).isEmpty then
            let d := d.eventAt 0x0C04 sevFault k [u8 k, u8 cause]
            (List.range 16).foldl (fun d n => d.closeClip n 32 false) d
          else
            let d := (d.eventAt (if cause = 4 then 0x0C04 else 0x0C03) (if cause = 4 then sevFault else sevDegraded) k
              [u8 k, u8 cause]).setFlag F.REC_STATUS_DEGRADED true
            { d with recd := { d.recd with clips := d.recd.clips.map (fun c =>
                c.map (fun c => { c with dflags := c.dflags ||| 4 })) } }
        ((List.range 16).foldl (fun d n => d.clipSettle n) d).flushSettle
    (reads.foldl (fun d c => d.readAgain k c) d).recovTry

/-- PCIE_LINK_DOWN (R261). -/
def execPcieLinkDown (k : Fin 4) (s : State) : Host.Outcome State Fault Refusal :=
  s.run (fun d =>
    if (d.drive k).up then
      let d := (d.modDrive k (fun x => { x with up := false })).set (F.REC_RP_STATUS_GEN k) 0
      (d.set (F.REC_RP_STATUS_WIDTH k) 0).driveFail k 1
    else d)

/-- NVME_TIMEOUT (R261): a command of the drive has not completed within 500 ms. -/
def execNvmeTimeout (k : Fin 4) (s : State) : Host.Outcome State Fault Refusal :=
  s.run (fun d =>
    if (d.drive k).outCmds.isEmpty then d else (d.bump (F.REC_RP_CNT_TIMEOUTS k)).driveFail k 2)

/-- Root ports of the lane option (R256). -/
def Dev.rootPorts (d : Dev) : Nat :=
  match d.get F.PCIE_CFG_LANE_OPT with
  | 0 => 2 | 1 => 3 | 2 => 4 | _ => 0

/-- PCIE_LINK_UP (R257, R258, R260): a root port of the lane option trains to `gen` and `width`, and the drive's
initialisation begins with Identify. -/
def execPcieLinkUp (k : Fin 4) (gen width : Nat) (s : State) : Host.Outcome State Fault Refusal :=
  s.run (fun d =>
    if d.rootPorts ≤ k.val ∨ (d.drive k).up = true then d
    else
      let gen := min gen (d.get F.PCIE_CFG_RP_MAX_GEN)
      let d := d.modDrive k (fun x => { x with up := true, outCmds := [], hdrRead := false, openClip := none })
      let d := (d.set (F.REC_RP_STATUS_GEN k) gen).set (F.REC_RP_STATUS_WIDTH k) (min width 4)
      if d.flag (F.REC_RP_STATUS_FAILED k) then d else d.nvme k 1 0 [] none)

/-! ### Completions (R258-R261) -/

/-- LAST_FSEQ of a clip: the last frame whose FRAME_INDEX, and every Write before it, has completed. -/
def Dev.showLastF (d : Dev) (n : Nat) : Dev :=
  match d.clip? n with
  | none => d
  | some c =>
    let out := d.recd.drives.flatMap (fun s => s.outCmds.filter (fun x => x.kind == 10 && x.ctx == some n))
    let done := c.marks.filter (fun m => out.all (fun x => decide (m.1 < x.seq)))
    match done.getLast? with
    | some m =>
      (d.setClip n (some { c with marks := c.marks.filter (fun x => decide (m.1 < x.1)) })).set (F.REC_CTX_FSEQ_LAST_FSEQ n) m.2
    | none => d

/-- A Write completed. -/
def Dev.writeDone (d : Dev) (ctx : Option Nat) : Dev :=
  match ctx with
  | none => d
  | some n =>
    let d := ((d.showLastF n).clipSettle n).flushSettle
    if d.recd.startHeld && d.recd.clips.all (fun c => match c with | some c => c.closing = 0 && c.ending.isNone | none => true)
    then d.recStart else d

/-- A drive is initialised (R258): it is ready, and in raw-partition mode its volume header is read. -/
def Dev.driveReady (d : Dev) (k : Nat) : Dev :=
  let d := d.setFlag (F.REC_RP_STATUS_READY k) true
  let d := d.set F.REC_STATUS_DRIVES_UP (setBit (d.get F.REC_STATUS_DRIVES_UP) k true)
  if d.flag F.REC_CFG_BACKING then d.modDrive k (fun s => { s with hdrRead := true })
  else d.nvmeRead k (d.partStart k) 8192 1

/-- The volume header of a drive was read: the copy with the newer valid GEN governs (R271). -/
def Dev.headerData (d : Dev) (k : Nat) (data : List Byte) : Dev :=
  let copies := [data.take 4096, (data.drop 4096).take 4096].filterMap (fun b =>
    match readRecord b with
    | some (0x10, _, _, body) => if leAt body 0 4 = 0x4C4F564B then some body else none
    | _ => none)
  let best := copies.foldl (fun acc b =>
    match acc with
    | some a => if 0 < signed 32 (toBits 32 ((leAt b 4 4 : Int) - leAt a 4 4)) then some b else acc
    | none => some b) (none : Option (List Byte))
  let d := d.modDrive k (fun s =>
    match best with
    | none => { s with hdrRead := true }
    | some b =>
      { s with hdrRead := true, vhGen := leAt b 4 4, nextFree := some (leAt b 12 8)
               lastDir := if leAt b 20 8 = 2 ^ 64 - 1 then none else some (leAt b 20 8)
               openClip := if leAt b 8 1 = 1 then some (leAt b 28 8, leAt b 36 8, leAt b 44 8) else none })
  d.recovTry

/-- Identify controller (R258, R259): MDTS in units of 4 KiB pages, and whether there is a volatile write cache. -/
def Dev.identifyCtrl (d : Dev) (k : Nat) (data : List Byte) : Dev :=
  let m := leAt data 77 1
  let mdts := if m = 0 then 131072 else 4096 * 2 ^ min m 20
  let d := d.modDrive k (fun s => { s with mdts := mdts, vwc := bitOf (leAt data 525 1) 0 })
  if mdts < 16384 then d.driveFail k 4 else d.nvme k 2 0 [] none

/-- Identify namespace (R258, R259): the LBA format. -/
def Dev.identifyNs (d : Dev) (k : Nat) (data : List Byte) : Dev :=
  let o := 128 + 4 * (leAt data 26 1 % 16)
  let shift := leAt data (o + 2) 1
  if (shift ≠ 9 ∧ shift ≠ 12) ∨ leAt data o 2 ≠ 0 then d.driveFail k 4
  else
    let d := d.set (F.REC_RP_STATUS_LBA_SHIFT k) shift
    let low := d.recDrives.headD 0
    let bad := if !d.recDrives.contains k then []
      else if k = low then d.recDrives.filter (fun i => i != k && d.get (F.REC_RP_STATUS_LBA_SHIFT i) != 0 &&
        d.get (F.REC_RP_STATUS_LBA_SHIFT i) != shift)
      else if d.get (F.REC_RP_STATUS_LBA_SHIFT low) != 0 && d.get (F.REC_RP_STATUS_LBA_SHIFT low) != shift then [k]
      else []
    let d := bad.foldl (fun d i => d.driveFail i 4) d
    if d.flag (F.REC_RP_STATUS_FAILED k) then d else d.nvme k 3 0 [] none

/-- NVME_COMPLETION (R258-R261): command `num` of drive `k` completes with `status` (0 success, 1 a retryable transient
error, 2 another error) and, for a Read or Identify, its data. -/
def execNvmeCompletion (k : Fin 4) (num : Nat) (status : Fin 3) (data : List Byte) (s : State) : Host.Outcome State Fault Refusal :=
  s.run (fun d =>
    match (d.drive k).outCmds.find? (fun c => c.num == num) with
    | none => d
    | some c =>
      let d := d.modDrive k (fun x => { x with outCmds := x.outCmds.filter (fun y => !(y.num == num)) })
      if status.val = 1 ∧ c.retries < 2 then
        (d.bump (F.REC_RP_CNT_RETRIES k)).nvmeCmd k { c with retries := c.retries + 1 }
      else if status.val ≠ 0 then
        if c.kind = 4 then (d.setFlag (F.REC_RP_STATUS_FUA k) true).nvme k 5 0 [] none
        else (d.modDrive k (fun x => { x with outCmds := x.outCmds ++ [c] })).driveFail k 3
      else match c.kind with
        | 1 => d.identifyCtrl k data
        | 2 => d.identifyNs k data
        | 3 => if (d.drive k).vwc then d.nvme k 4 0 [] none else d.nvme k 5 0 [] none
        | 4 => (d.setFlag (F.REC_RP_STATUS_FUA k) false).nvme k 5 0 [] none
        | 5 => d.nvme k 6 0 [] none
        | 6 => d.driveReady k
        | 10 => d.writeDone c.ctx
        | 11 =>
          let data := sliceBytes data 0 c.len
          if c.use_ = 1 then d.headerData k data
          else if c.use_ = 2 then d.recovData data
          else if c.use_ = 3 then d.offData k data
          else d
        | _ => d)

end Sys2Proof.Machine
end

