-- ==== Sys2Proof/Machine/Session.lean ====
section
/-!
DEFINITION. Coding sessions and ladder groups (chapter 09): what a session is (R283-R287), its load, engines, admission and
placement (R292-R299, R32, R33), the checks of its configuration (R284, R287, R302), its pictures' sources (R288-R290,
R347) and the order in which pictures are coded (R302-R306, R327).
-/
namespace Sys2Proof.Machine

/-- A session beside its registers. -/
def Dev.ses (d : Dev) (s : Nat) : SesSt := Sparse.get (fun _ => {}) d.code.ses s

/-- Changes a session. -/
def Dev.modSes (d : Dev) (s : Nat) (f : SesSt → SesSt) : Dev :=
  { d with code := { d.code with ses := Sparse.put (fun _ => {}) d.code.ses s (f (d.ses s)) } }

/-- A ladder group beside its registers. -/
def Dev.grp (d : Dev) (g : Nat) : GrpSt := elemAt d.code.grp g {}

/-- Changes a group. -/
def Dev.modGrp (d : Dev) (g : Nat) (f : GrpSt → GrpSt) : Dev :=
  { d with code := { d.code with grp := modifyAt d.code.grp g f } }

/-- The running sessions, in index order. -/
def Dev.running (d : Dev) : List Nat := (d.code.ses.filter (fun e => e.2.run)).map (·.1)

/-- The group of a session of SRC_KIND 1. -/
def Dev.sesGroup (d : Dev) (s : Nat) : Option Nat :=
  if d.get (F.SES_CFG_SRC_KIND s) = 1 then some (d.get (F.SES_CFG_GROUP s)) else none

/-- Class codes of R296, highest first. -/
def classLive : Nat := 0
def classRecord : Nat := 1
def classLadder : Nat := 2
def classBackground : Nat := 3

/-- A session's class. -/
def Dev.sesClass (d : Dev) (s : Nat) : Nat := d.get (F.SES_CFG_CLASS s)

/-- Timing and structure of a session or a group: ticks per second, ticks per picture, GOP length, mini-GOP, whether it
refreshes gradually, pictures per cycle. -/
structure SeqCfg where
  ts : Nat
  dur : Nat
  len : Nat
  mini : Nat
  refresh : Bool
  period : Nat
  deriving DecidableEq, Repr

/-- A group's timing and structure. -/
def Dev.grpSeq (d : Dev) (g : Nat) : SeqCfg :=
  { ts := max 1 (d.get (F.LG_TIMESCALE_TIMESCALE g)), dur := max 1 (d.get (F.LG_DUR_FRAME_DUR g))
    len := max 1 (d.get (F.LG_GOP_GOP_LEN g)), mini := max 1 (d.get (F.LG_GOP_MINIGOP g))
    refresh := d.get (F.LG_GOP_REFRESH g) = 1, period := max 1 (d.get (F.LG_GOP_REFRESH_PERIOD g)) }

/-- A session's timing and structure: its group's for a member (R302). -/
def Dev.sesSeq (d : Dev) (s : Nat) : SeqCfg :=
  match d.sesGroup s with
  | some g => d.grpSeq g
  | none =>
    { ts := max 1 (d.get (F.SES_TIMESCALE_TIMESCALE s)), dur := max 1 (d.get (F.SES_DUR_FRAME_DUR s))
      len := max 1 (d.get (F.SES_GOP_GOP_LEN s)), mini := max 1 (d.get (F.SES_GOP_MINIGOP s))
      refresh := d.get (F.SES_GOP_REFRESH s) = 1, period := max 1 (d.get (F.SES_GOP_REFRESH_PERIOD s)) }

/-- Depth in bits, width, height, and the c of R298. -/
def Dev.sesDepth (d : Dev) (s : Nat) : Nat := brDepth (d.get (F.SES_FMT_DEPTH s))
def Dev.sesW (d : Dev) (s : Nat) : Nat := d.get (F.SES_SIZE_W s)
def Dev.sesH (d : Dev) (s : Nat) : Nat := d.get (F.SES_SIZE_H s)
def Dev.sesC (d : Dev) (s : Nat) : Nat := if d.get (F.SES_FMT_CHROMA s) = 1 then 4 else 3

/-! ### Levels (R283, R284, R294): the limits of the codecs' standards, PRESUMED (assumption 12) -/

/-- The largest luma picture and luma sample rate of an HEVC general_level_idc. -/
def hevcLevel : Nat → Option (Nat × Nat)
  | 30 => some (36864, 552960) | 60 => some (122880, 3686400) | 63 => some (245760, 7372800)
  | 90 => some (552960, 16588800) | 93 => some (983040, 33177600) | 120 => some (2228224, 66846720)
  | 123 => some (2228224, 133693440) | 150 => some (8912896, 267386880) | 153 => some (8912896, 534773760)
  | 156 => some (8912896, 1069547520) | 180 => some (35651584, 1069547520) | 183 => some (35651584, 2139095040)
  | 186 => some (35651584, 4278190080) | _ => none

/-- The largest picture, display sample rate and MaxTiles of an AV1 seq_level_idx. -/
def av1Level : Nat → Option (Nat × Nat × Nat)
  | 0 => some (147456, 4423680, 8) | 1 => some (278784, 8363520, 8) | 4 => some (665856, 19975680, 16)
  | 5 => some (1065024, 31950720, 16) | 8 => some (2359296, 70778880, 32) | 9 => some (2359296, 141557760, 32)
  | 12 => some (8912896, 267386880, 64) | 13 => some (8912896, 534773760, 64) | 14 => some (8912896, 1069547520, 64)
  | 15 => some (8912896, 1069547520, 64) | 16 => some (35651584, 1069547520, 128) | 17 => some (35651584, 2139095040, 128)
  | 18 => some (35651584, 4278190080, 128) | 19 => some (35651584, 4278190080, 128) | _ => none

/-- Whether a session's picture and rate lie within its level. -/
def Dev.levelOk (d : Dev) (s : Nat) : Bool :=
  let area := d.sesW s * d.sesH s
  let q := d.sesSeq s
  let lvl := d.get (F.SES_FMT_LEVEL s)
  let lim := if d.get (F.SES_CFG_CODEC s) = 0 then hevcLevel lvl else (av1Level lvl).map (fun x => (x.1, x.2.1))
  match lim with
  | some (a, r) => decide (area ≤ a) && decide (area * q.ts ≤ r * q.dur)
  | none => false

/-! ### Rows (R293, R294) -/

/-- Superblock or CTU columns of a session's picture. -/
def Dev.unitCols (d : Dev) (s : Nat) : Nat := (d.sesW s + 63) / 64

/-- Superblock or CTU lines of a session's picture. -/
def Dev.unitLines (d : Dev) (s : Nat) : Nat := (d.sesH s + 63) / 64

/-- The height of a row in superblock or CTU lines: 1 for HEVC, T of R294 for AV1. -/
def Dev.rowT (d : Dev) (s : Nat) : Nat :=
  if d.get (F.SES_CFG_CODEC s) = 0 then 1
  else
    let h := d.unitLines s
    let c := (d.sesW s + 4095) / 4096
    let tiles := ((av1Level (d.get (F.SES_FMT_LEVEL s))).map (·.2.2)).getD 128
    ((List.range (h + 1)).find? (fun t => t != 0 && decide ((h + t - 1) / t ≤ 64) && decide ((h + t - 1) / t * c ≤ tiles))).getD (max 1 h)

/-- Rows of a session's picture. -/
def Dev.rowCount (d : Dev) (s : Nat) : Nat := (d.unitLines s + d.rowT s - 1) / d.rowT s

/-- Units of row `r`. -/
def Dev.rowUnits (d : Dev) (s r : Nat) : Nat := d.unitCols s * min (d.rowT s) (d.unitLines s - r * d.rowT s)

/-- Units of a row that is not cut short. -/
def Dev.rowFull (d : Dev) (s : Nat) : Nat := d.sesW s * 64 * d.rowT s

/-- The period of CORE_CLK as thirds of a ns: 2 at ÷4 and its multiples at the alternate dividers (R18, R453). -/
def Dev.coreThirds (d : Dev) : Nat :=
  match d.get F.CLK_DIV_CORE_DIV with
  | 1 => 3
  | 2 => 4
  | _ => 2

/-- t_row in ns: three CORE cycles a sample (R294). -/
def Dev.rowNs (d : Dev) (s : Nat) : Nat := d.rowFull s * d.coreThirds

/-! ### Load, engines, memory (R292, R298, R300) -/

/-- What one engine codes in px/s: one sample per three CORE cycles, 0.5 Gpx/s at the nominal divider (R18, R455). -/
def Dev.veRate (d : Dev) : Nat := 1000000000 / d.coreThirds

/-- L of a session in px/s. -/
def Dev.sesLoad (d : Dev) (s : Nat) : Nat :=
  let q := d.sesSeq s
  d.sesW s * d.sesH s * q.ts / q.dur

/-- The analysis picture of a group (R300). -/
def Dev.anaW (d : Dev) (g : Nat) : Nat := 8 * ((d.get (F.LG_SIZE_TOP_W g) + 15) / 16)
def Dev.anaH (d : Dev) (g : Nat) : Nat := 8 * ((d.get (F.LG_SIZE_TOP_H g) + 15) / 16)

/-- The analysis load of a group. -/
def Dev.anaLoad (d : Dev) (g : Nat) : Nat :=
  let q := d.grpSeq g
  d.anaW g * d.anaH g * q.ts / q.dur

/-- The engines that the formula of R292 asks for. -/
def Dev.enginesAsked (d : Dev) (s : Nat) : Nat :=
  let l := if d.sesClass s = classLive then 3 * d.sesLoad s else d.sesLoad s
  max 1 ((l + d.veRate - 1) / d.veRate)

/-- E of a session (R292). -/
def Dev.enginesOf (d : Dev) (s : Nat) : Nat := min (d.enginesAsked s) (d.rowCount s)

/-- The memory estimate of a session in bytes per second (R298). -/
def Dev.sesMem (d : Dev) (s : Nat) : Nat :=
  let lc := d.sesLoad s * d.sesC s
  lc * 25 / 3 + (if (d.sesGroup s).isSome then lc * 4 / 3 else 0)

/-- The memory estimate of a group's analysis. -/
def Dev.anaMem (d : Dev) (g : Nat) : Nat := 3 * d.anaLoad g

/-- The load of a decoder of class LIVE (R339). -/
def Dev.decLoad (d : Dev) (k : Nat) : Nat :=
  d.get (F.DEC_MAX_MAX_W k) * d.get (F.DEC_MAX_MAX_H k) * d.get (F.DEC_MAX_FPS_FPS k) / 2

/-- The running decoders of class LIVE. -/
def Dev.decLive (d : Dev) : List Nat :=
  (List.range 16).filter (fun k => (elemAt d.decs k {}).run && d.get (F.DEC_CFG_CLASS k) = classLive)

/-- The groups that run with the sessions `ss`. -/
def Dev.groupsOf (d : Dev) (ss : List Nat) : List Nat := (ss.filterMap d.sesGroup).eraseDups

/-- Sums over the sessions `ss` and their groups: load, LIVE load tripled, memory, LIVE memory. -/
def Dev.demand (d : Dev) (ss : List Nat) : Nat × Nat × Nat × Nat :=
  let gs := d.groupsOf ss
  let live := ss.filter (fun s => d.sesClass s = classLive)
  let gLive := gs.filter (fun g => d.get (F.LG_CFG_CLASS g) = classLive)
  let dec := sumNat (d.decLive.map d.decLoad)
  (sumNat (ss.map d.sesLoad) + sumNat (gs.map d.anaLoad) + dec,
   3 * sumNat (live.map d.sesLoad) + 3 * dec,
   sumNat (ss.map d.sesMem) + sumNat (gs.map d.anaMem),
   sumNat (live.map d.sesMem) + sumNat (gLive.map d.anaMem))

/-- 2,785.28 GB/s of R299. -/
def memLimit : Nat := 2785280000000

/-- The checks of R299 with `n` engines and the sessions `ss`: the first that fails, with demand and limit (A and B in 0.01 Gpx/s, C and D in
GB/s). `asked` is the session being admitted. -/
def Dev.admitFails (d : Dev) (n : Nat) (ss : List Nat) (asked : Option Nat) : Option (Nat × Nat × Nat) :=
  let (l, live, m, mLive) := d.demand ss
  let cap := n * d.veRate
  let rows := match asked with
    | some s => decide (d.sesClass s = classLive ∧ d.rowCount s < d.enginesAsked s)
    | none => false
  let rsv := d.get F.VE_ADMIT_RSV_GBS * 1000000000
  let floors := d.get F.DEV_QOS_FLOOR_RECORD_FLOOR + d.get F.DEV_QOS_FLOOR_LADDER_FLOOR + d.get F.DEV_QOS_FLOOR_BACKGROUND_FLOOR
  let limD := memLimit * (64 - floors) / 64
  if cap < l then some (0, l / 10000000, cap / 10000000)
  else if cap < live ∨ rows = true then some (1, live / 10000000, cap / 10000000)
  else if memLimit < m + rsv then some (2, (m + rsv) / 1000000000, memLimit / 1000000000)
  else if limD < mLive then some (3, mLive / 1000000000, limD / 1000000000)
  else none

/-- Shows the admitted totals and the engines (R299). -/
def Dev.showLoad (d : Dev) : Dev :=
  let (l, _, m, mLive) := d.demand d.running
  let n := d.veActive.length
  let d := (d.set F.VE_LOAD_COMMITTED (l / 10000000)).set F.VE_LOAD_CAPACITY (n * d.veRate / 10000000)
  let d := (d.set F.VE_MEM_EST_ALL_GBS ((m + 999999999) / 1000000000)).set F.VE_MEM_EST_LIVE_GBS ((mLive + 999999999) / 1000000000)
  d.set F.DEV_CAPS_VE_ACTIVE n

/-! ### Placement (R32, R33, R292, R297) -/

/-- The load of a session on each of its engines. -/
def Dev.share (d : Dev) (s : Nat) : Nat := d.sesLoad s / max 1 (d.ses s).engines.length

/-- The load committed on engine `e`. -/
def Dev.veCommitted (d : Dev) (e : Nat) : Nat :=
  sumNat (d.running.map (fun s => d.share s * ((d.ses s).engines.filter (· = e)).length)) +
  sumNat ((List.range 8).map (fun g =>
    let es := (d.grp g).engines
    if es.isEmpty then 0 else d.anaLoad g / es.length * (es.filter (· = e)).length))

/-- The active engines of a cluster. -/
def Dev.clusterVes (d : Dev) (c : Nat) : List Nat := d.veActive.filter (fun e => d.veCluster e = c)

/-- The load committed on a cluster. -/
def Dev.clusterLoad (d : Dev) (c : Nat) : Nat := sumNat ((d.clusterVes c).map d.veCommitted)

/-- The hottest valid sensor of a cluster in units of 0.125 °C (R32, R487). -/
def Dev.clusterHot (d : Dev) (c : Nat) : Option Int :=
  ([2 * c, 2 * c + 1].filter (fun n => d.flag (F.THERM_TS_VALID n))).foldl (fun acc n =>
    let t := signed 16 (d.get (F.THERM_TS_TEMP n))
    match acc with
    | some m => some (max m t)
    | none => some t) none

/-- The die thresholds in effect in °C: a value above the default acts as the default (R490). -/
def Dev.dieWarn (d : Dev) : Nat := min 95 (d.get F.THERM_CFG_DIE_WARN_C)
def Dev.dieThrottle (d : Dev) : Nat := min 100 (d.get F.THERM_CFG_DIE_THROTTLE_C)

/-- The part of pool `n` that lies in stack `q`, in bytes. -/
def Dev.poolInStack (d : Dev) (n q : Nat) : Nat :=
  match d.poolForm n with
  | .home h => if h = q then d.poolSize n else 0
  | _ => d.poolSize n / 4

/-- The score of cluster `c` for session `s` (R32): pools(s) are DEV_STORE, REF_STORE and OUT_RING. -/
def Dev.score (d : Dev) (c s : Nat) : Nat :=
  let cap := (d.clusterVes c).length * d.veRate
  let load := 256 * (cap - d.clusterLoad c) / max 1 cap
  let pools := [poolDev, poolRef, poolOut]
  let aff := 256 * sumNat (pools.map (fun p => d.poolInStack p (c / 4))) / max 1 (sumNat (pools.map d.poolSize))
  let temp := match d.clusterHot c with
    | none => 0
    | some t =>
      let head : Int := ((d.dieThrottle * 8 : Nat) : Int) - t
      let v := (clampInt (Int.tdiv (head * 256) 320) 0 256).toNat
      if ((d.dieWarn * 8 : Nat) : Int) ≤ t ∧ (d.sesClass s = classLive ∨ d.sesClass s = classRecord) then 0 else v
  d.get F.DEV_SCHED_CTRL_W_LOAD * load + d.get F.DEV_SCHED_CTRL_W_AFF * aff + d.get F.DEV_SCHED_CTRL_W_TEMP * temp

/-- Puts an item into a list by falling key; equal keys keep their order. -/
def insertDown {α : Type} (key : α → Nat) (x : α) : List α → List α
  | [] => [x]
  | y :: rest => if key y < key x then x :: y :: rest else y :: insertDown key x rest

/-- A list by falling key; equal keys keep their order. -/
def sortDown {α : Type} (key : α → Nat) (l : List α) : List α := l.foldl (fun acc x => insertDown key x acc) []

/-- Clusters by score for a session, the lower index first on a tie. -/
def Dev.rankClusters (d : Dev) (s : Nat) : List Nat :=
  sortDown (fun c => d.score c s) ((List.range 16).filter (fun c => !(d.clusterVes c).isEmpty))

/-- Whether an engine carries a LIVE session other than `s` (R297). -/
def Dev.liveOn (d : Dev) (s e : Nat) : Bool :=
  d.running.any (fun t => t != s && d.sesClass t = classLive && (d.ses t).engines.contains e)

/-- Chooses `k` engines of `share` px/s each for session `s`: cluster by cluster in score order within each cluster's
capacity, least loaded engines first; what then still lacks an engine takes one over the capacity. -/
def Dev.place (d : Dev) (s k share : Nat) (live : Bool) : List Nat :=
  let ranked := d.rankClusters s
  let free (c : Nat) : List Nat :=
    sortDown (fun e => 2 ^ 40 - d.veCommitted e) ((d.clusterVes c).filter (fun e => !(live && d.liveOn s e)))
  let first := ranked.foldl (fun (acc : List Nat) c =>
    let room := ((d.clusterVes c).length * d.veRate - d.clusterLoad c) / max 1 share
    acc ++ (free c).take (min room (k - acc.length))) []
  if first.length = k then first
  else
    let more := (ranked.flatMap free).filter (fun e => !first.contains e)
    first ++ more.take (k - first.length)

/-! ### The checks of a configuration (R283, R284, R287, R300-R302) -/

/-- Whether a session's profile carries its chroma and depth (R283). -/
def Dev.profileOk (d : Dev) (s : Nat) : Bool :=
  let c := d.get (F.SES_FMT_CHROMA s)
  let depth := d.get (F.SES_FMT_DEPTH s)
  decide (c ≤ 1) && decide (depth ≤ 2) &&
    (match d.get (F.SES_CFG_CODEC s), d.get (F.SES_CFG_PROFILE s) with
      | 0, 0 => c == 0 && depth == 0
      | 0, 1 => c == 0 && decide (depth ≤ 1)
      | 0, 2 => decide (depth ≤ 1)
      | 0, 3 => true
      | 1, 0 => c == 0 && decide (depth ≤ 1)
      | 1, 1 => c == 1 || depth == 2
      | _, _ => false)

/-- Whether a coding branch feeds a session of this depth and chroma (R287). -/
def Dev.branchFeeds (d : Dev) (n b depth chroma : Nat) : Bool :=
  let fmt := d.get (F.COL_BR_CFG_FORMAT n b)
  decide (b < 6) && d.flag (F.COL_BR_CFG_EN n b) && d.get (F.COL_BR_CFG_KIND n b) = 1 && decide (2 ≤ fmt) && decide (fmt ≤ 5) &&
    decide (depth ≤ brDepth (d.get (F.COL_BR_CFG_DEPTH n b))) && (chroma == 0 || fmt == 2 || fmt == 4)

/-- Whether a scaling ratio lies between 1 and 8 (R301). -/
def ratioOk (src dst : Nat) : Bool := decide (dst ≤ src) && decide (src ≤ 8 * dst)

/-- The enabled members of a group. -/
def Dev.membersOf (d : Dev) (g : Nat) : List Nat :=
  (List.range 256).filter (fun s => d.flag (F.SES_CFG_EN s) && d.sesGroup s = some g)

/-- What is wrong with a group: the address of a register that says so (R300, R302). -/
def Dev.grpBad (d : Dev) (g : Nat) : Option Nat :=
  let ms := d.membersOf g
  let mini := d.get (F.LG_GOP_MINIGOP g)
  if !d.flag (F.LG_CFG_EN g) ∨ d.get (F.LG_CFG_SCENE_MODE g) = 3 ∨
      d.branchFeeds (d.get (F.LG_CFG_CTX g)) (d.get (F.LG_CFG_BRANCH g)) 0 0 = false then some (R.LG_CFG g)
  else if d.get (F.LG_GOP_GOP_LEN g) % 2 = 1 ∨ d.get (F.LG_GOP_REFRESH_PERIOD g) % 2 = 1 ∨ 2 ≤ d.get (F.LG_GOP_REFRESH g) ∨
      ! [1, 2, 4, 8].contains mini ∨ (d.get (F.LG_CFG_CLASS g) = classLive ∧ mini ≠ 1) then some (R.LG_GOP g)
  else if ms.length > 48 then some (R.LG_CFG g)
  else if ms.foldl (fun m s => max m (d.sesW s)) 0 ≠ d.get (F.LG_SIZE_TOP_W g) ∨
      ms.foldl (fun m s => max m (d.sesH s)) 0 ≠ d.get (F.LG_SIZE_TOP_H g) then some (R.LG_SIZE g)
  else match ms.find? (fun s => d.sesClass s != d.get (F.LG_CFG_CLASS g)) with
    | some s => some (R.SES_CFG s)
    | none => none

/-- What is wrong with a session beside its group. -/
def Dev.sesBad (d : Dev) (s : Nat) : Option Nat :=
  let w := d.sesW s
  let h := d.sesH s
  if 2 < d.get (F.SES_CFG_SRC_KIND s) ∨ d.profileOk s = false then some (R.SES_CFG s)
  else if w < 128 ∨ 8192 < w ∨ w % 2 = 1 ∨ h < 64 ∨ 4320 < h ∨ h % 2 = 1 then some (R.SES_SIZE s)
  else if d.levelOk s = false then some (R.SES_FMT s)
  else if d.get (F.SES_RC_RC_MODE s) = 3 then some (R.SES_RC s)
  else match d.get (F.SES_CFG_SRC_KIND s) with
    | 0 =>
      if d.branchFeeds (d.get (F.SES_CFG_CTX s)) (d.get (F.SES_CFG_BRANCH s)) (d.sesDepth s) (d.get (F.SES_FMT_CHROMA s)) = false then
        some (R.SES_CFG s)
      else if 2 ≤ d.get (F.SES_GOP_REFRESH s) ∨ ! [1, 2, 4, 8].contains (d.get (F.SES_GOP_MINIGOP s)) then some (R.SES_GOP s)
      else none
    | 1 =>
      let g := d.get (F.SES_CFG_GROUP s)
      let n := d.get (F.LG_CFG_CTX g)
      let b := d.get (F.LG_CFG_BRANCH g)
      -- from the analysis picture where the member is no larger than it on both axes, else from the branch buffer (R301)
      let ana := decide (w ≤ d.anaW g) && decide (h ≤ d.anaH g)
      let sw := if ana then d.anaW g else d.get (F.COL_BR_OUT_WH_W n b)
      let sh := if ana then d.anaH g else d.get (F.COL_BR_OUT_WH_H n b)
      if d.branchFeeds n b (d.sesDepth s) (d.get (F.SES_FMT_CHROMA s)) = false then some (R.SES_CFG s)
      else if ratioOk sw w && ratioOk sh h then none else some (R.SES_SIZE s)
    | _ =>
      if 2 ≤ d.get (F.SES_GOP_REFRESH s) ∨ ! [1, 2, 4, 8].contains (d.get (F.SES_GOP_MINIGOP s)) then some (R.SES_GOP s) else none

/-! ### Sources of pictures (R288-R290, R347) -/

/-- A branch buffer's holder: a session or a group. -/
def holdSes (s : Nat) : Nat := 1000 + s
def holdGrp (g : Nat) : Nat := 2000 + g

/-- t_n after T0 in ns (R288). -/
def picNs (q : SeqCfg) (n : Nat) : Nat := n * q.dur * nsPerS / q.ts

/-- The slots of context `n` from place `from_` on: resolved ones, open ones, and the next four targets of its schedule. -/
def Dev.slotsFrom (d : Dev) (n from_ : Nat) : List (Nat × Nat) :=
  let c := d.ctx n
  let p := d.get (F.CAP_BIND_PORT n)
  let plan := d.get (F.CAP_BIND_PLAN n)
  let ts := elemAt d.trig p {}
  let fut := ((ts.upcoming 16 ts.from_).filter (fun x => x.2 = plan)).take 4
  let ahead := c.slots.map (·.target) ++ fut.map (·.1)
  let l := c.hist.map (fun h => (h.idx, h.trig)) ++ (List.range ahead.length).map (fun i => (c.slotNo + i, nth ahead i))
  l.filter (fun x => decide (from_ ≤ x.1))

/-- T0 of a sequence: the TRIG_STIME of the slot at place `slot0`, once it is resolved. -/
def Dev.slotT0 (d : Dev) (n slot0 : Nat) : Option Nat := ((d.ctx n).hist.find? (fun h => h.idx == slot0)).map (·.trig)

/-- The slot of picture `k` of a sequence on context `n` (R288; R347 in OFFLOAD): its place, once it is certain. -/
def Dev.slotOf (d : Dev) (n : Nat) (q : SeqCfg) (t0 slot0 k : Nat) : Option Nat :=
  if d.modeCode = mOffload then some (slot0 + k)
  else
    let bound := t0 + picNs q k + picNs q 1 / 2
    let l := d.slotsFrom n slot0
    if bound ≤ d.nowNs ∨ l.any (fun x => decide (bound ≤ x.2)) then
      (l.filter (fun x => decide (x.2 < bound))).getLast?.map (·.1)
    else none

/-- The source of picture `k` from branch `b` of context `n`, after the source `prev` of picture `k − 1`; none while the slot
or its buffer is not known yet. -/
def Dev.sourceOf (d : Dev) (n b : Nat) (q : SeqCfg) (t0 slot0 k : Nat) (prev : Option SrcSel) : Option SrcSel :=
  match d.slotOf n q t0 slot0 k with
  | none => none
  | some i =>
    let again (h : Option SrcSlot) : Option SrcSel :=
      match prev, h with
      | some p, _ => some { p with n := k, idx := i, again := true }
      | none, some h => some { n := k, idx := i, fseq := h.fseq, sid := h.sid, trig := stimeOfNs h.trig, buf := none, again := true }
      | none, none => none
    if prev.any (fun p => p.idx == i) then again none
    else match (d.ctx n).hist.find? (fun h => h.idx == i) with
      | none => none
      | some h =>
        if h.missing then again (some h)
        else match h.bufs with
          | none => none
          | some bufs =>
            match bufs.getD b none with
            | some j =>
              some { n := k, idx := i, fseq := h.fseq, sid := h.sid, trig := stimeOfNs h.trig, buf := some (brBufKey n b j), again := false }
            | none => again (some h)

/-- Key of a decoder's output buffer. -/
def decBufKey (k i : Nat) : Nat := 2048 + 16 * k + i

/-- The receive flow of essence 1 that stands in for decoder `k`, if any (R405). -/
def Dev.standIn (d : Dev) (k : Nat) : Option Nat :=
  if d.flag (F.DEC_CFG_EN k) then none
  else (List.range 256).find? (fun n => d.flag (F.RXF_CFG_EN n) && d.get (F.RXF_CFG_ESSENCE n) = 1 && d.get (F.RXF_DEST_DEST n) = k)

/-- Byte offset in DEV_STORE of buffer `i` of decoder `k`; of the flow's ring where a flow stands in for it (R405). -/
def Dev.decBufAt (d : Dev) (k i : Nat) : Nat :=
  let base := match d.standIn k with
    | some n => d.get (F.RXF_BUF_BASE n)
    | none => d.get (F.DEC_OUT_BASE_BASE k)
  (base + i * d.get (F.DEC_OUT_RING_STRIDE k)) * 4096

/-- The source of picture `k` of a session fed by decoder `CTX`: the decoder's output pictures in order. -/
def Dev.decSource (d : Dev) (dec slot0 k : Nat) : Option SrcSel :=
  ((elemAt d.decs dec {}).outs.find? (fun o => o.2.1 == slot0 + k)).map (fun o =>
    { n := k, idx := slot0 + k, fseq := o.2.1, sid := 0, trig := d.poolNat poolDev (d.decBufAt dec o.1 + 0x10) 8
      buf := some (decBufKey dec o.1), again := false })

/-! ### The order of pictures (R302-R306, R327) -/

/-- Pictures of a mini-GOP below its anchor, in coding order, between `lo` and `hi`; whether others refer to each. -/
def pyramid : Nat → Nat → Nat → List (Nat × Bool)
  | 0, _, _ => []
  | fuel + 1, lo, hi =>
    if hi ≤ lo + 1 then []
    else
      let m := (lo + hi) / 2
      (m, decide (lo + 1 < m) || decide (m + 1 < hi)) :: (pyramid fuel lo m ++ pyramid fuel m hi)

/-- The first key frame at or after picture `n`: of the GOP schedule from `base`, or one of the extra keys. -/
def nextKey (q : SeqCfg) (base : Nat) (keys : List Nat) (n : Nat) : Nat :=
  let sched := if n ≤ base then base else base + (n - base + q.len - 1) / q.len * q.len
  (keys.filter (fun k => decide (n ≤ k))).foldl min sched

/-- GOP base and extra keys of a session: its group's for a member. -/
def Dev.keysOf (d : Dev) (s : Nat) : Nat × List Nat :=
  match d.sesGroup s with
  | some g => ((d.grp g).gopBase, (d.grp g).keys)
  | none => ((d.ses s).gopBase, (d.ses s).keys)

/-- Whether picture `n` of a session is a key frame (R306). -/
def Dev.isKey (d : Dev) (s n : Nat) : Bool :=
  let (base, keys) := d.keysOf s
  nextKey (d.sesSeq s) base keys n == n

/-- Whether picture `n` starts a refresh cycle (R327). -/
def Dev.isCycle (d : Dev) (s n : Nat) : Bool :=
  let q := d.sesSeq s
  let (base, _) := d.keysOf s
  q.refresh && (d.isKey s n || (decide (base ≤ n) && (n - base) % q.period == 0))

/-- Whether picture `n` begins a GOP of the schedule. -/
def Dev.isGopStart (d : Dev) (s n : Nat) : Bool :=
  let q := d.sesSeq s
  let (base, _) := d.keysOf s
  decide (base ≤ n) && (n - base) % q.len == 0

/-- Whether the analysis allows a member's pictures up to `n` to be planned (R305): all of them analysed, or with MINIGOP 1
all before the last. -/
def Dev.analysed (d : Dev) (s n : Nat) : Bool :=
  match d.sesGroup s with
  | some g => if (d.grpSeq g).mini = 1 then decide (n ≤ (d.grp g).nextA) else decide (n < (d.grp g).nextA)
  | none => true

/-- Whether the slots of the pictures up to `n` are known where a job's first frame would make a key frame (R347). -/
def Dev.slotsKnown (d : Dev) (s n : Nat) : Bool :=
  if d.modeCode = mOffload ∧ d.get (F.SES_CFG_SRC_KIND s) ≠ 2 then
    let ctx := match d.sesGroup s with
      | some g => d.get (F.LG_CFG_CTX g)
      | none => d.get (F.SES_CFG_CTX s)
    let slot0 := match d.sesGroup s with
      | some g => (d.grp g).slot0
      | none => (d.ses s).slot0
    decide (slot0 + n < (d.ctx ctx).slotNo)
  else true

/-- The next pictures of a session in coding order: a key frame, or a mini-GOP shortened by the next key frame. The places
in coding order go on from the first number. -/
def Dev.plan (d : Dev) (s : Nat) : Dev :=
  let x := d.ses s
  let q := d.sesSeq s
  let (base, keys) := d.keysOf s
  let n := x.nextN
  let k := nextKey q base keys n
  if !x.order.isEmpty then d
  else if k = n then
    if d.analysed s n && d.slotsKnown s n then
      d.modSes s (fun x => { x with order := [(n, n, 1)], nextN := n + 1 })
    else d
  else
    let m := min q.mini (k - n)
    let a := n + m - 1
    if d.analysed s a && d.slotsKnown s a then
      let k' := nextKey q base keys n
      let hidden := d.get (F.SES_CFG_CODEC s) = 1 && decide (1 < q.mini)
      let l := (a, if hidden then 4 else 2) :: (pyramid 8 (n - 1) a).map (fun p => (p.1, if p.2 then 2 else 3))
      if k' ≤ a then d
      else d.modSes s (fun x =>
        { x with order := (List.range l.length).map (fun i => ((l.getD i (0, 0)).1, n + i, (l.getD i (0, 0)).2)), nextN := a + 1 })
    else d

end Sys2Proof.Machine
end

