-- ==== Sys2Proof/Machine/Rate.lean ====
section
/-!
DEFINITION. Rate control of a session (R316-R323), the caps and budgets of its rows (R321, R322), its output rings and the
CMAF boxes around a picture (R307-R310).
-/
namespace Sys2Proof.Machine

/-! ### Fixed-point logarithms (R303, R320): floor(256 × log2 x), and the linear form of a Q8.8 logarithm (assumption 15) -/

/-- floor(256 × log2 x), x > 0. -/
def log2Q8 (x : Nat) : Nat := Nat.log2 (x ^ 256)

/-- floor(2^16 × 2^(c / 256)), the linear form of a Q8.8 logarithm in units of 2^-16: eight square roots of 2^(c mod 256 +
4096), and the whole part as a shift. -/
def expQ8 (c : Nat) : Nat :=
  let root (x : Nat) : Nat := Nat.sqrt x
  root (root (root (root (root (root (root (root (2 ^ (c % 256 + 4096)))))))))  * 2 ^ (c / 256)

/-- QSTEP of a session's codec (R317). -/
def Dev.qstep (d : Dev) (s : Nat) : Nat := if d.get (F.SES_CFG_CODEC s) = 0 then 6 else 24

/-- The QP limits in effect. -/
def Dev.clampQp (d : Dev) (s : Nat) (q : Int) : Nat :=
  (clampInt q (d.eget (F.SES_QP_QP_MIN s)) (d.eget (F.SES_QP_QP_MAX s))).toNat

/-- The CPB of a session in bits. -/
def Dev.cpbBits (d : Dev) (s : Nat) : Nat := d.get (F.SES_CPB_CPB_KBIT s) * 1000

/-- The fill rate in bits per second (R318): BITRATE for CBR, MAX_BITRATE for VBR. -/
def Dev.fillRate (d : Dev) (s : Nat) : Nat :=
  1000 * (if d.get (F.SES_RC_RC_MODE s) = 2 then d.eget (F.SES_MAXRATE_MAX_KBPS s) else d.eget (F.SES_RATE_BITRATE_KBPS s))

/-- Limits a CPB fill in VBR (R318). -/
def Dev.limitFill (d : Dev) (s : Nat) (f : Int) : Int := if d.get (F.SES_RC_RC_MODE s) = 2 then min f (d.cpbBits s) else f

/-- Bits that one unit costs at least, and the overhead of a row (R321, R322). -/
def Dev.unitFloor (d : Dev) (s : Nat) : Nat := if d.get (F.SES_CFG_CODEC s) = 0 then 64 else 96
def Dev.rowFloor (d : Dev) (s r : Nat) : Nat := d.rowUnits s r * d.unitFloor s + 512

/-- Folds completed pictures up to coded picture `c` into the sums of rate control (R317). -/
def Dev.foldDone (d : Dev) (s c : Nat) : Dev :=
  ((d.ses s).tail.filter (fun t => decide (t.c ≤ c))).foldl (fun d t =>
    d.modSes s (fun x =>
      let fill := d.limitFill s (x.fill + t.inc)
      let same := x.errGop == t.gop
      { x with
        tail := x.tail.filter (fun y => y.c != t.c)
        fill := fill - t.bits
        err := (if same then x.err else 0) + (t.bits : Int) - t.tgt
        errGop := t.gop
        last := (t.type, t.bits, t.qp, t.rows) :: x.last.filter (fun y => y.1 != t.type)
        costs := (t.bits :: x.costs).take (d.sesSeq s).len })) d

/-- The complexity ratio in Q8 (R320): of the newest analysed map up to picture `n` for a member, of the session's own
pictures otherwise; 256 while there is nothing to compare. -/
def Dev.complexity (d : Dev) (s n : Nat) : Nat :=
  let ratio (x : Nat) (l : List Nat) : Nat :=
    if l.isEmpty ∨ sumNat l = 0 then 256 else clampNat (256 * x * l.length / sumNat l) 64 1024
  match d.sesGroup s with
  | some g =>
    match ((d.grp g).recs.filter (fun r => decide (r.n ≤ n))).getLast? with
    | some r => ratio r.mean (d.grp g).means
    | none => 256
  | none =>
    match (d.ses s).costs with
    | c :: rest => ratio c (c :: rest)
    | [] => 256

/-- What a picture starts with under rate control: cap, target, QP, inc, f_est. -/
structure RcIn where
  cap : Nat
  tgt : Nat
  qp : Nat
  inc : Nat
  fEst : Int
  deriving DecidableEq, Repr

/-- Weight of a picture type in Q8 (R320). -/
def typeWeight (type : Nat) : Nat :=
  match type with
  | 1 => 1024
  | 2 => 256
  | 3 => 154
  | _ => 384

/-- The CQP offset of a picture type (R316). -/
def cqpOffset (qstep : Int) (type : Nat) : Int :=
  match type with
  | 1 => -(qstep / 2)
  | 2 => 0
  | 3 => qstep / 3
  | _ => -(qstep / 6)

/-- The inputs of the next coded picture, of `type` at picture `n` and place `pos`, `left` pictures before the end of its GOP
or cycle `gop` (R316-R320). Completed pictures up to k − 2 are folded before. -/
def Dev.rcStart (d : Dev) (s type n pos gop left : Nat) : Dev × RcIn :=
  let x := d.ses s
  let q := d.sesSeq s
  let hard := d.eget (F.SES_CAP_HARD_CAP s) * 8
  let level := Config.levelCapBits (d.get (F.SES_CFG_CODEC s)) (d.get (F.SES_FMT_LEVEL s)) (d.get (F.SES_FMT_TIER s)) (d.sesW s) (d.sesH s)
  let capped (c : Nat) : Nat := min (if hard = 0 then c else min c hard) level
  let mode := d.get (F.SES_RC_RC_MODE s)
  let step : Int := d.qstep s
  if mode = 0 then
    let cap := if hard = 0 then level else min hard level
    (d, { cap := cap, tgt := cap, qp := d.clampQp s ((d.get (F.SES_QP_INIT_QP s) : Int) + cqpOffset step type), inc := 0, fEst := 0 })
  else
    let num := d.fillRate s * q.dur * (if x.coded = 0 then 1 else pos - x.lastPos) + x.rem
    let inc := num / q.ts
    let d := d.modSes s (fun x => { x with rem := num % q.ts })
    -- the fill before removal of picture k − 1, which is in flight or complete and not folded, less its cap
    let prevs := (x.tail.map (fun t => (t.c, t.inc, t.cap)) ++ x.pics.map (fun p => (p.c, p.inc, p.cap))).filter (fun t => t.1 + 1 == x.coded)
    let fEst := match prevs with
      | t :: _ => d.limitFill s (d.limitFill s (x.fill + t.2.1) - t.2.2 + inc)
      | [] => d.limitFill s (x.fill + (if x.coded = 0 then 0 else inc))
    let cap := capped (fEst - 8192).toNat
    let cx := d.complexity s n
    let t1 := inc * typeWeight type / 256 * cx / 256
    let err := if x.errGop = gop then x.err else 0
    let t2 := (max ((t1 : Int) - Int.tdiv err (max 1 left)) (inc / 8 : Nat)).toNat
    let tgt := min t2 (cap * 3 / 4)
    match x.last.find? (fun l => l.1 == type) with
    | none => (d, { cap := cap, tgt := tgt, qp := d.clampQp s (d.get (F.SES_QP_INIT_QP s)), inc := inc, fEst := fEst })
    | some l =>
      let pred := l.2.1 * cx / 256
      if pred = 0 ∨ tgt = 0 then
        -- the spec gives the logarithm of 0 no value: the QP is a free value within the limits
        (d.tookFree 1, { cap := cap, tgt := tgt, qp := d.clampQp s d.free, inc := inc, fEst := fEst })
      else
        let diff : Int := (log2Q8 pred : Int) - log2Q8 tgt
        (d, { cap := cap, tgt := tgt, qp := d.clampQp s ((l.2.2.1 : Int) + Int.tdiv (step * diff + 128) 256), inc := inc, fEst := fEst })

/-- The weights of a picture's rows (R321): the rows' share of the complexity map for a member, else of the last picture of
the same type; at least 1. -/
def Dev.rowWeights (d : Dev) (s type n : Nat) : List Nat :=
  let rows := d.rowCount s
  let fromMap (g : Nat) (r : AnaRec) : List Nat :=
    let cw := (d.anaW g + 15) / 16
    let ch := (d.anaH g + 15) / 16
    let line := (List.range ch).map (fun y => sumNat (((r.cells.drop (y * cw)).take cw).map expQ8))
    (List.range rows).map (fun i =>
      max 1 (sumNat ((List.range ch).map (fun y => if decide (i * ch / rows ≤ y) && decide (y < max (i * ch / rows + 1) ((i + 1) * ch / rows)) then nth line y else 0))))
  let fromLast : List Nat :=
    match (d.ses s).last.find? (fun l => l.1 == type) with
    | some l => (List.range rows).map (fun i => max 1 (nth l.2.2.2 i))
    | none => List.replicate rows 1
  match d.sesGroup s with
  | some g =>
    match ((d.grp g).recs.filter (fun r => decide (r.n ≤ n))).getLast? with
    | some r => fromMap g r
    | none => fromLast
  | none => fromLast

/-- c_row of every row of a picture (R321). -/
def Dev.rowCaps (d : Dev) (s cap hdr : Nat) (ws : List Nat) : List Nat :=
  let rows := d.rowCount s
  let pool := cap - hdr - sumNat ((List.range rows).map (d.rowFloor s))
  (List.range rows).map (fun r => d.rowFloor s r + pool * nth ws r / max 1 (sumNat ws))

/-! ### Output rings (R307-R310) -/

/-- The consumers of a session that are enabled. -/
def Dev.consumers (d : Dev) (s : Nat) : List Nat := (List.range 2).filter (fun k => d.flag (F.SES_CONS_EN s k))

/-- Whether record `k` is free: every enabled consumer's index has passed it. -/
def Dev.recFree (d : Dev) (s k : Nat) : Bool :=
  (d.consumers s).all (fun j => decide (0 < signed 16 (toBits 16 ((d.get (F.SES_CONS_IDX s j) : Int) - k))))

/-- Reserves a record and `len` contiguous bytes of the data ring; none where either does not fit. -/
def Dev.reserve (d : Dev) (s len : Nat) : Option (Nat × Nat) :=
  let prod := d.get (F.SES_PROD_IDX s)
  let size := d.get (F.SES_OUT_SIZE_SIZE s) * 4096
  let room := (d.consumers s).all (fun j =>
    decide ((prod + 65536 - d.get (F.SES_CONS_IDX s j)) % 65536 < 2 ^ d.get (F.SES_OUT_REC_REC_LOG2 s)))
  let live := (d.ses s).chunks.filter (fun c => !d.recFree s c.1)
  let at_ := if (d.ses s).dataAt + len ≤ size then (d.ses s).dataAt else 0
  if room ∧ len ≤ size ∧ live.all (fun c => decide (at_ + len ≤ c.2.1) || decide (c.2.1 + c.2.2 ≤ at_)) = true then some (prod, at_)
  else none

/-- Byte offset in OUT_RING of record `k`. -/
def Dev.recAt (d : Dev) (s k : Nat) : Nat :=
  d.get (F.SES_OUT_REC_BASE s) * 256 + 64 * (k % 2 ^ d.get (F.SES_OUT_REC_REC_LOG2 s))

/-- Byte offset in OUT_RING of byte `o` of the data ring. -/
def Dev.dataOff (d : Dev) (s o : Nat) : Nat := d.get (F.SES_OUT_DATA_BASE s) * 4096 + o

/-- Sets a field of a record. -/
def Dev.recPut (d : Dev) (s k o len v : Nat) : Dev := d.poolWrite poolOut (d.recAt s k + o) (bytesLE len v)

/-- GEN of a record advances (R309). -/
def Dev.recGen (d : Dev) (s k : Nat) : Dev := d.recPut s k 0x1C 4 (d.poolNat poolOut (d.recAt s k + 0x1C) 4 + 1)

/-- Takes the reserved record: it is written with GEN advanced and the producer index moves on. -/
def Dev.recOpen (d : Dev) (s k off len : Nat) (pic fseq sid type flags pts : Nat) (cto : Int) (payload bands trig : Nat) : Dev :=
  let gen := d.poolNat poolOut (d.recAt s k + 0x1C) 4 + 1
  let b := bytesLE 4 pic ++ bytesLE 4 fseq ++ bytesLE 2 sid ++ bytesLE 1 s ++ bytesLE 1 type ++ bytesLE 4 flags ++ bytesLE 8 pts ++
    bytesLE 4 (toBits 32 cto) ++ bytesLE 4 gen ++ bytesLE 4 off ++ bytesLE 4 0 ++ bytesLE 4 payload ++ bytesLE 4 0 ++ bytesLE 2 0 ++
    bytesLE 2 bands ++ bytesLE 4 len ++ bytesLE 8 trig
  let d := (d.poolWrite poolOut (d.recAt s k) b).bump (F.SES_PROD_IDX s)
  d.modSes s (fun x =>
    { x with chunks := (x.chunks.filter (fun c => !d.recFree s c.1)) ++ [(k, off, len)]
             dataAt := if len = 0 then x.dataAt else off + len })

/-! ### CMAF boxes (R308), laid out as ISO/IEC 14496-12 has them (PRESUMED, assumption 16) -/

/-- ASCII codes of a box type. -/
def fourcc (a b c e : Nat) : List Byte := [a, b, c, e].map (BitVec.ofNat 8)

/-- A box of a type around its body. -/
def box (type body : List Byte) : List Byte := bytesBE 4 (8 + body.length) ++ type ++ body

/-- Brands: major cmf2, minor version 0, compatible cmfc, cmf2, iso6. -/
def brands : List Byte :=
  let cmf2 := fourcc 0x63 0x6D 0x66 0x32
  cmf2 ++ bytesBE 4 0 ++ fourcc 0x63 0x6D 0x66 0x63 ++ cmf2 ++ fourcc 0x69 0x73 0x6F 0x36

/-- ftyp and styp. -/
def ftyp : List Byte := box (fourcc 0x66 0x74 0x79 0x70) brands
def styp : List Byte := box (fourcc 0x73 0x74 0x79 0x70) brands

/-- Seconds from the NTP epoch to the PTP epoch less the leap seconds of `leap`. -/
def ntpOfStime (t leap : Nat) : Nat := ((t / 2 ^ 32 + 2208988800 - leap) % 2 ^ 32) * 2 ^ 32 + t % 2 ^ 32

/-- prft with the NTP form of a STIME and the decode time. -/
def prft (ntp dts : Nat) : List Byte :=
  box (fourcc 0x70 0x72 0x66 0x74) (bytesBE 4 0x01000000 ++ bytesBE 4 1 ++ bytesBE 8 ntp ++ bytesBE 8 dts)

/-- moof of one sample, followed by the head of mdat. -/
def moofMdat (seq dts size : Nat) (sync : Bool) (cto : Int) : List Byte :=
  let mfhd := box (fourcc 0x6D 0x66 0x68 0x64) (bytesBE 4 0 ++ bytesBE 4 seq)
  let tfhd := box (fourcc 0x74 0x66 0x68 0x64) (bytesBE 4 0x00020000 ++ bytesBE 4 1)
  let tfdt := box (fourcc 0x74 0x66 0x64 0x74) (bytesBE 4 0x01000000 ++ bytesBE 8 dts)
  let trun := box (fourcc 0x74 0x72 0x75 0x6E)
    (bytesBE 4 0x01000E01 ++ bytesBE 4 1 ++ bytesBE 4 108 ++ bytesBE 4 size ++
      bytesBE 4 (if sync then 0x02000000 else 0x01010000) ++ bytesBE 4 (toBits 32 cto))
  box (fourcc 0x6D 0x6F 0x6F 0x66) (mfhd ++ box (fourcc 0x74 0x72 0x61 0x66) (tfhd ++ tfdt ++ trun)) ++
    bytesBE 4 (8 + size) ++ fourcc 0x6D 0x64 0x61 0x74

/-- Filler of at least `bytes` bytes within `room` bytes (R319): a filler-data NAL unit with its length for HEVC, a padding
OBU for AV1; nothing where not even the smallest fits. -/
def fillerBytes (codec bytes room : Nat) : List Byte :=
  let n := max bytes 7
  if bytes = 0 ∨ room < n then []
  else if codec = 0 then
    bytesBE 4 (n - 4) ++ [0x4C, 0x01] ++ List.replicate (n - 7) 0xFF ++ [0x80]
  else
    -- the OBU size in four leb128 bytes
    let m := n - 5
    [0x7A, BitVec.ofNat 8 (m % 128 + 128), BitVec.ofNat 8 (m / 128 % 128 + 128), BitVec.ofNat 8 (m / 16384 % 128 + 128),
      BitVec.ofNat 8 (m / 2097152 % 128)] ++ List.replicate (m - 1) 0 ++ [0x80]

end Sys2Proof.Machine
end

