-- ==== Sys2Proof/Machine/Coding.lean ====
section
/-!
DEFINITION. The commands of the coding engines (chapters 09 and 10): sessions start and stop (R291, R299), pictures start
(R317), rows become ready, run, pause and complete (R295-R297, R311, R312), units are salvaged (R324-R329), groups are
analysed (R303-R306).
-/
namespace Sys2Proof.Machine

/-! ### Start and stop (R291, R299) -/

/-- Modes in which sessions run (R62, R345). -/
def Dev.codes (d : Dev) : Bool :=
  (d.modeCode = mCapture || d.modeCode = mReview || d.modeCode = mOffload) && !d.inTransition

/-- The context and branch that feed a session or group of SRC_KIND 0 or 1. -/
def Dev.sesFeed (d : Dev) (s : Nat) : Nat × Nat :=
  match d.sesGroup s with
  | some g => (d.get (F.LG_CFG_CTX g), d.get (F.LG_CFG_BRANCH g))
  | none => (d.get (F.SES_CFG_CTX s), d.get (F.SES_CFG_BRANCH s))

/-- Running members of a group. -/
def Dev.runMembers (d : Dev) (g : Nat) : List Nat := d.running.filter (fun s => d.sesGroup s = some g)

/-- Shows a group's members. -/
def Dev.showGroup (d : Dev) (g : Nat) : Dev :=
  let ms := d.runMembers g
  (d.set (F.LG_STATUS_MEMBERS g) (min 63 ms.length)).setFlag (F.LG_STATUS_HALVED_ANY g) (ms.any (fun s => (d.ses s).halved))

/-- Whether host firmware may start a member now: no picture of the group in flight, or the group at a key frame (R291). -/
def Dev.groupJoinable (d : Dev) (g : Nat) : Bool :=
  let x := d.grp g
  !x.run || (d.runMembers g).all (fun s => (d.ses s).pics.isEmpty) ||
    (match x.srcs.getLast? with
      | some p => p.n == x.lastKey
      | none => true)

/-- The place in its decoder's or context's sequence at which a session's pictures begin. -/
def Dev.firstSlot (d : Dev) (s : Nat) : Nat :=
  if d.get (F.SES_CFG_SRC_KIND s) = 2 then (elemAt d.decs (d.get (F.SES_CFG_CTX s)) {}).nextPic
  else (d.ctx (d.sesFeed s).1).slotNo

/-- Starts a group with its first member. -/
def Dev.grpStart (d : Dev) (g s : Nat) : Dev :=
  if (d.grp g).run then d
  else
    let d := d.modGrp g (fun _ => { run := true, slot0 := d.firstSlot s })
    let k := max 1 ((d.anaLoad g + d.veRate - 1) / d.veRate)
    let es := d.place s k (d.anaLoad g / k) (d.get (F.LG_CFG_CLASS g) = classLive)
    d.modGrp g (fun x => { x with engines := es })

/-- Writes the header record of a session (R307, R308). -/
def Dev.headerRecord (d : Dev) (s : Nat) : Dev :=
  let bytes := ftyp ++ Config.moov d.freeCtr
  let d := d.tookFree 1
  match d.reserve s bytes.length with
  | none => d
  | some (k, off) =>
    let d := d.recOpen s k off bytes.length 0 0 0 0 0 0 0 0 0 0
    let d := d.poolWrite poolOut (d.dataOff s off) bytes
    (d.recPut s k 0x24 4 bytes.length).recGen s k

/-- Starts an admitted session (R291, R292, R307). -/
def Dev.sesBegin (d : Dev) (s : Nat) : Dev :=
  let e := d.enginesOf s
  let d := match d.sesGroup s with
    | some g => d.grpStart g s
    | none => d
  let first := match d.sesGroup s with
    | some g =>
      match (d.grp g).srcs.getLast? with
      | some p => nextKey (d.grpSeq g) (d.grp g).gopBase (d.grp g).keys (p.n + 1)
      | none => 0
    | none => 0
  let es := d.place s e (d.sesLoad s / e) (d.sesClass s = classLive)
  let d := d.latchAll [R.SES_TOOLS s, R.SES_RATE s, R.SES_MAXRATE s, R.SES_QP s, R.SES_CAP s]
  let old := d.ses s
  let d := d.modSes s (fun _ =>
    { run := true, engines := es, slot0 := d.firstSlot s, first := first, nextN := first, lastKey := first, lastCyc := first
      fill := (d.get (F.SES_CPB_INIT_PCT s) * d.cpbBits s / 100 : Nat), chunks := old.chunks, dataAt := old.dataAt
      wantHalf := old.wantHalf, repeatSec := old.repeatSec, salvSec := old.salvSec })
  let d := ((d.set (F.SES_STATUS_STATE s) 1).set (F.SES_STATUS_ENGINES s) e).setFlag (F.SES_STATUS_HALVED s) false
  let d := d.eventAt 0x0D01 sevInfo s [u8 s, u32 first, u8 e]
  let d := match d.sesGroup s with
    | some g => d.showGroup g
    | none => d
  (d.headerRecord s).showLoad

/-- VE_CFG_BAD for a session or group (R284, R302): it stays stopped and refused. -/
def Dev.sesRefuse (d : Dev) (s inst addr : Nat) : Dev :=
  (d.eventAt 0x0D08 sevFault inst [u8 inst, u32 addr]).set (F.SES_STATUS_STATE s) 4

/-- Tries to start a session; the RESULT of `VE_SES_CMD`. -/
def Dev.sesStart (d : Dev) (s : Nat) : Dev × Nat :=
  let join := match d.sesGroup s with
    | some g => d.groupJoinable g
    | none => true
  if !d.flag (F.SES_CFG_EN s) || (d.ses s).run || !join || d.isRefused (R.SES_CFG s) then (d, 2)
  else
    let gBad := match d.sesGroup s with
      | some g => (d.grpBad g).map (fun a => (g, a))
      | none => none
    match gBad, d.sesBad s with
    | some (g, a), _ => (d.sesRefuse s g a, 3)
    | none, some a => (d.sesRefuse s s a, 3)
    | none, none =>
      match d.admitFails d.veActive.length (s :: d.running) (some s) with
      | some (c, demand, limit) => (d.eventAt 0x0D03 sevNotice s [u8 s, u8 c, u32 demand, u32 limit], 1)
      | none => (d.sesBegin s, 0)

/-- A session's stop is complete (R291, R315). -/
def Dev.sesStopped (d : Dev) (s : Nat) : Dev :=
  let g? := d.sesGroup s
  let d := d.modSes s (fun x => { chunks := x.chunks, dataAt := x.dataAt, wantHalf := x.wantHalf, repeatSec := x.repeatSec, salvSec := x.salvSec })
  let d := ((d.releaseBy (holdSes s)).set (F.SES_STATUS_STATE s) 0).setFlag (F.SES_STATUS_HALVED s) false
  let d := d.eventAt 0x0D02 sevInfo s [u8 s, u32 (d.get (F.SES_PIC_PIC_NO s))]
  let d := match g? with
    | some g =>
      let d := if (d.runMembers g).isEmpty then (d.modGrp g (fun _ => {})).releaseBy (holdGrp g) else d
      d.showGroup g
    | none => d
  d.showLoad

/-- Stops a session after its last picture in progress (R291); the RESULT of `VE_SES_CMD`. -/
def Dev.sesStop (d : Dev) (s : Nat) : Dev × Nat :=
  if !(d.ses s).run then (d, 2)
  else
    let d := (d.modSes s (fun x => { x with order := [] })).set (F.SES_STATUS_STATE s) 3
    (if (d.ses s).pics.isEmpty then d.sesStopped s else d, 0)

/-- GO of `VE_SES_CMD` with OP `op` (R291, R549): what host firmware asks of session `s`. -/
def Dev.sesCommand (d : Dev) (op s : Nat) : Dev :=
  let d := (d.set F.VE_SES_CMD_SES s).set F.VE_SES_CMD_OP op
  if op = 0 ∨ op = 3 then d.set F.VE_SES_CMD_RESULT 4
  else if !d.codes then d.set F.VE_SES_CMD_RESULT 2
  else
    let (d, r) := if op = 1 then d.sesStart s else d.sesStop s
    d.set F.VE_SES_CMD_RESULT r

/-- SES_START (R291, R299). -/
def execSesStart (s : Fin 256) (st : State) : Host.Outcome State Fault Refusal :=
  st.hostCmd R.VE_SES_CMD (s + 0x10100) (fun d => d.sesCommand 1 s)

/-- SES_STOP (R291). -/
def execSesStop (s : Fin 256) (st : State) : Host.Outcome State Fault Refusal :=
  st.hostCmd R.VE_SES_CMD (s + 0x10200) (fun d => d.sesCommand 2 s)

/-! ### Sources in order (R288-R290) -/

/-- Selects sources of a sequence in order up to picture `n`. -/
def advanceSrcs (next : Nat → Option SrcSel → Option SrcSel) : Nat → List SrcSel → Nat → List SrcSel
  | 0, l, _ => l
  | fuel + 1, l, n =>
    let k := match l.getLast? with
      | some p => p.n + 1
      | none => 0
    if n < k then l
    else match next k l.getLast? with
      | some x => advanceSrcs next fuel (l ++ [x]) n
      | none => l

/-- Gives a group its T0 once its first slot is resolved, and selects its sources up to picture `n`, holding their buffers. -/
def Dev.grpSources (d : Dev) (g n : Nat) : Dev :=
  let ctx := d.get (F.LG_CFG_CTX g)
  let d := d.modGrp g (fun x => if x.t0.isSome then x else { x with t0 := d.slotT0 ctx x.slot0 })
  match (d.grp g).t0 with
  | none => d
  | some t0 =>
    let x := d.grp g
    let l := advanceSrcs (fun k p => d.sourceOf ctx (d.get (F.LG_CFG_BRANCH g)) (d.grpSeq g) t0 x.slot0 k p) 64 x.srcs n
    let d := (l.filterMap (·.buf)).foldl (fun d b => d.hold b (holdGrp g)) d
    d.modGrp g (fun x => { x with srcs := l })

/-- The same for a session outside a group. -/
def Dev.sesSources (d : Dev) (s n : Nat) : Dev :=
  let x := d.ses s
  if d.get (F.SES_CFG_SRC_KIND s) = 2 then
    let l := advanceSrcs (fun k _ => d.decSource (d.get (F.SES_CFG_CTX s)) x.slot0 k) 64 x.srcs n
    let d := (l.filterMap (·.buf)).foldl (fun d b => d.hold b (holdSes s)) d
    d.modSes s (fun x => { x with srcs := l })
  else
    let (ctx, b) := d.sesFeed s
    let d := d.modSes s (fun x => if x.t0.isSome then x else { x with t0 := d.slotT0 ctx x.slot0 })
    match (d.ses s).t0 with
    | none => d
    | some t0 =>
      let l := advanceSrcs (fun k p => d.sourceOf ctx b (d.sesSeq s) t0 x.slot0 k p) 64 x.srcs n
      let d := (l.filterMap (·.buf)).foldl (fun d b => d.hold b (holdSes s)) d
      d.modSes s (fun x => { x with srcs := l })

/-- Releases the buffers that no picture of a group needs any more (R290): a source stays while it is not analysed, while a
member has the picture still to code or has rows of it that have not started, and while it is the last one. -/
def Dev.grpRelease (d : Dev) (g : Nat) : Dev :=
  let x := d.grp g
  let ms := d.runMembers g
  let needs (n : Nat) : Bool := decide (x.nextA ≤ n) || ms.any (fun s =>
    let y := d.ses s
    decide (y.nextN ≤ n) || y.order.any (fun o => o.1 == n) ||
      y.pics.any (fun p => p.n == n && p.rows.any (fun r => decide (r.state < 3))))
  let keep := x.srcs.filter (fun p => needs p.n || (x.srcs.getLast?.map (·.n) == some p.n))
  let d := d.modGrp g (fun x => { x with srcs := keep })
  (keep.filterMap (·.buf)).foldl (fun d b => d.hold b (holdGrp g)) (d.releaseBy (holdGrp g))

/-- Releases the buffers that no picture of a session outside a group needs any more (R290). -/
def Dev.sesRelease (d : Dev) (s : Nat) : Dev :=
  let x := d.ses s
  let needs (n : Nat) : Bool := decide (x.nextN ≤ n) || x.order.any (fun o => o.1 == n) || x.pics.any (fun p => p.n == n)
  let keep := x.srcs.filter (fun p => needs p.n || (x.srcs.getLast?.map (·.n) == some p.n))
  let d := d.modSes s (fun x => { x with srcs := keep })
  (keep.filterMap (·.buf)).foldl (fun d b => d.hold b (holdSes s)) (d.releaseBy (holdSes s))

/-- Releases after a picture or row of a session. -/
def Dev.srcRelease (d : Dev) (s : Nat) : Dev :=
  match d.sesGroup s with
  | some g => d.grpRelease g
  | none => d.sesRelease s

/-- The source of picture `n` of a session, selected if it can be. -/
def Dev.pickSource (d : Dev) (s n : Nat) : Dev × Option SrcSel :=
  match d.sesGroup s with
  | some g =>
    let d := d.grpSources g n
    (d, (d.grp g).srcs.find? (fun p => p.n == n))
  | none =>
    let d := d.sesSources s n
    (d, (d.ses s).srcs.find? (fun p => p.n == n))

/-! ### Picture start (R289, R309, R310, R317, R323, R329, R335) -/

/-- The first frame of an offload job is a key frame in every session and group that the context feeds (R347). -/
def Dev.jobKeys (d : Dev) (s : Nat) : Dev :=
  if d.modeCode ≠ mOffload ∨ d.get (F.SES_CFG_SRC_KIND s) = 2 then d
  else
    let slot0 := match d.sesGroup s with
      | some g => (d.grp g).slot0
      | none => (d.ses s).slot0
    let ks := ((d.ctx (d.sesFeed s).1).hist.filter (fun h => h.jobFirst && decide (slot0 ≤ h.idx))).map (fun h => h.idx - slot0)
    let add (l : List Nat) : List Nat := l ++ ks.filter (fun k => !l.contains k)
    match d.sesGroup s with
    | some g => d.modGrp g (fun x => { x with keys := add x.keys })
    | none => d.modSes s (fun x => { x with keys := add x.keys })

/-- Whether the shed order drops picture `n` (R306, R333, R335): an odd distance from the key frame where a halving took
effect, or from the last key frame or cycle start at DROP 1; all but key frames and cycle starts at DROP 2. -/
def Dev.dropped (d : Dev) (s n : Nat) : Bool :=
  let x := d.ses s
  let base := match d.sesGroup s with
    | some g => (d.grp g).halveKey
    | none => x.halveKey
  let mark := d.isKey s n || d.isCycle s n
  !mark && ((x.halved && (n - base) % 2 == 1) ||
    (match d.get (F.SES_SHED_DROP s) with
      | 0 => false
      | 1 => (n - max x.lastKey x.lastCyc) % 2 == 1
      | _ => true))

/-- The next picture of a session in coding order that is not dropped. -/
def Dev.nextPic : Nat → Dev → Nat → Dev × Option (Nat × Nat × Nat)
  | 0, d, _ => (d, none)
  | fuel + 1, d, s =>
    let d := d.plan s
    match (d.ses s).order with
    | [] => (d, none)
    | o :: rest =>
      if d.dropped s o.1 then Dev.nextPic fuel (d.modSes s (fun x => { x with order := rest })) s else (d, some o)

/-- What takes effect as a session reaches a key frame or cycle start at picture `n`: rates and EFFORT (R323), a halving or
its end (R335). -/
def Dev.boundary (d : Dev) (s n : Nat) (key : Bool) : Dev :=
  let d := d.latchAll [R.SES_TOOLS s, R.SES_RATE s, R.SES_MAXRATE s]
  let x := d.ses s
  if x.halved ≠ x.wantHalf ∧ (key = true ∨ (d.sesGroup s).isNone) then
    let d := d.modSes s (fun x => { x with halved := x.wantHalf, halveKey := n })
    let d := d.setFlag (F.SES_STATUS_HALVED s) x.wantHalf
    match d.sesGroup s with
    | some g => (d.modGrp g (fun y => { y with halveKey := n })).showGroup g
    | none => d
  else d

/-- Units of the refresh columns of place `i` in a cycle of `p` pictures (R327). -/
def refreshCols (nc p i : Nat) : Nat × Nat := (i * nc / p, (i + 1) * nc / p)

/-- VE_REFRESH_LATE (R329): the columns of `late` are repeated again. -/
def Dev.refreshLate (d : Dev) (s n : Nat) (late : List (Nat × Nat)) : Dev :=
  if late.isEmpty then d
  else d.eventAt 0x0D0C sevNotice s [u8 s, u32 n, u32 ((late.map (·.2)).eraseDups).length]

/-- A picture about to be coded: session, number, place in coding order, type, source, header bound, and whether it is a key
frame, the first after discarding, the first of a refresh cycle. -/
structure PicTurn where
  s : Nat
  n : Nat
  pos : Nat
  type : Nat
  src : SrcSel
  hdr : Nat
  key : Bool
  fresh : Bool
  cycle : Bool
  gop : Nat

/-- The registers that a picture start latches, and the boundary's changes (R300). -/
def Dev.picTurn (d : Dev) (s n : Nat) (key : Bool) : Dev :=
  let d := d.latchAll [R.SES_QP s, R.SES_CAP s]
  let d := if key || d.isCycle s n then d.boundary s n key else d
  d.modSes s (fun x => { x with lastKey := if key then n else x.lastKey })

/-- The refresh columns that the picture before coded minimally, and the repeats among that picture's own (R329). -/
def SesSt.before (x : SesSt) : Option (List (Nat × Nat) × List (Nat × Nat)) :=
  match x.pics.find? (fun p => p.c + 1 == x.coded), x.tail.find? (fun t => t.c + 1 == x.coded) with
  | some p, _ => some (p.missed, p.repeats)
  | none, some t => some (t.missed, if t.wasRepeat then t.missed else [])
  | none, none => none

/-- The columns that a picture repeats. -/
def Dev.picRepeats (d : Dev) (s : Nat) : List (Nat × Nat) :=
  if (d.sesSeq s).refresh then (((d.ses s).before.map (·.1)).getD []) else []

/-- Whether a fragment starts with the picture. -/
def Dev.picFrag (d : Dev) (t : PicTurn) : Bool :=
  d.isGopStart t.s t.n || ((d.sesSeq t.s).refresh && t.cycle) ||
    (match d.sesGroup t.s with
      | some g => d.get (F.LG_CFG_SCENE_MODE g) = 1 && t.key
      | none => false)

/-- FLAGS of the picture's output record, as known at its start. -/
def Dev.picFlags (d : Dev) (t : PicTurn) (again : Bool) (halved : Bool) : Nat :=
  let cut := match d.sesGroup t.s with
    | some g => (d.grp g).keys.contains t.n || ((d.grp g).recs.any (fun r => r.n == t.n && leAt r.bytes 8 1 == 1))
    | none => false
  b2n t.src.again + 16 * b2n cut + 32 * b2n (d.picFrag t) + 64 * b2n t.cycle + 128 * b2n again +
    256 * b2n halved + 1024 * b2n (d.get F.TIME_STATUS_STATE != 2)

/-- The boxes before the payload where a fragment starts. -/
def Dev.picHead (d : Dev) (t : PicTurn) : List Byte :=
  let leap := (d.time.leaderUtc).getD (d.get F.PTP_UTC_OFFSET_UTC_OFFSET)
  if d.picFrag t then
    styp ++ (if d.flag (F.SES_TOOLS_PRFT t.s) then prft (ntpOfStime t.src.trig leap) (t.pos * (d.sesSeq t.s).dur) else [])
  else []

/-- The picture's output record and place in the ring, or its discarding (R308-R310): record, offset, room. -/
def Dev.picOutput (d : Dev) (t : PicTurn) (flags payload maxLen : Nat) : Dev × Option Nat × Nat × Nat :=
  let s := t.s
  let q := d.sesSeq s
  let rows := d.rowCount s
  let bands := (rows + max 1 (d.get (F.SES_FMT_BAND_ROWS s)) - 1) / max 1 (d.get (F.SES_FMT_BAND_ROWS s))
  let cto : Int := ((t.n * q.dur : Nat) : Int) - ((t.pos * q.dur : Nat) : Int)
  -- a group's member resumes only at a key frame of the group (R310)
  let mayFit := !t.fresh || (d.sesGroup s).isNone || t.key
  match (if mayFit then d.reserve s maxLen else none) with
  | some (k, off) =>
    let d := d.recOpen s k off maxLen t.n t.src.fseq t.src.sid t.type flags (t.n * q.dur) cto payload bands t.src.trig
    ((d.modSes s (fun x => { x with fresh := false })).set (F.SES_STATUS_STATE s) 2, some k, off, maxLen)
  | none =>
    let d := d.bump (F.SES_CNT_DISCARDED s)
    let d := if t.fresh then d else d.eventAt 0x0D07 sevNotice s [u8 s, u32 t.n]
    let d := (d.modSes s (fun x => { x with fresh := true })).set (F.SES_STATUS_STATE s) 5
    let prod := d.get (F.SES_PROD_IDX s)
    let room := (d.consumers s).all (fun j =>
      decide ((prod + 65536 - d.get (F.SES_CONS_IDX s j)) % 65536 < 2 ^ d.get (F.SES_OUT_REC_REC_LOG2 s)))
    if room then
      (d.recOpen s prod 0 0 t.n t.src.fseq t.src.sid t.type (flags + 8) (t.n * q.dur) cto payload bands t.src.trig, some prod, 0, 0)
    else (d, none, 0, 0)

/-- A repeated source: counted, and announced at most once a second. -/
def Dev.picAgain (d : Dev) (s n : Nat) (src : SrcSel) : Dev :=
  if src.again then
    let d := d.bump (F.SES_CNT_REPEATS s)
    if !d.secOver (d.ses s).repeatSec then d
    else (d.modSes s (fun x => { x with repeatSec := d.elapsed + 1 })).eventAt 0x0D0B sevNotice s [u8 s, u32 n, u32 src.fseq]
  else d

/-- The picture joins those in progress (R317), and the source it held on to goes. -/
def Dev.picJoins (d : Dev) (t : PicTurn) (rc : RcIn) (pic : PicSt) : Dev :=
  let s := t.s
  let d := d.modSes s (fun x =>
    { x with pics := x.pics ++ [pic], coded := x.coded + 1, lastPos := t.pos, order := x.order.filter (fun o => o.1 != t.n) })
  let fill := if d.cpbBits s = 0 then 0 else (clampInt (rc.fEst * 100 / d.cpbBits s) 0 127).toNat
  let d := (d.set (F.SES_RC_STATUS_LAST_QP s) rc.qp).set (F.SES_RC_STATUS_FILL_PCT s) fill
  let d := match d.sesGroup s with
    | some g => if t.key then d.modGrp g (fun y => { y with lastKey := max y.lastKey t.n }) else d
    | none => d
  d.srcRelease s

/-- The state of a picture whose output is placed. -/
def Dev.picNew (d : Dev) (t : PicTurn) (rc : RcIn) (c : Nat) (repeats : List (Nat × Nat)) (flags : Nat) (head : List Byte)
    (out : Option Nat × Nat × Nat) : PicSt :=
  let s := t.s
  { c := c, n := t.n, pos := t.pos, type := t.type, src := t.src, engines := (d.ses s).engines, flags := flags
    cyc := if (d.sesSeq s).refresh then some (t.n - (d.ses s).lastCyc) else none, gop := t.gop, cap := rc.cap, tgt := rc.tgt
    qp := rc.qp, inc := rc.inc, crow := d.rowCaps s rc.cap t.hdr (d.rowWeights s t.type t.n)
    rows := List.replicate (d.rowCount s) {}, rec_ := out.1, off := out.2.1, maxLen := out.2.2, head := head
    effort := min ((d.effWord (R.SES_TOOLS s)).field 4 3) (d.get (F.SES_SHED_EFFORT_CAP s)), repeats := repeats }

/-- The picture starts with the inputs `rc` of its rate control. -/
def Dev.picCode (d : Dev) (t : PicTurn) (rc : RcIn) : Dev :=
  let x := d.ses t.s
  let repeats := d.picRepeats t.s
  let d := d.refreshLate t.s t.n (repeats.filter (fun u => ((x.before.map (·.2)).getD []).contains u))
  let flags := d.picFlags t (!repeats.isEmpty) x.halved
  let head := d.picHead t
  let payload := head.length + 108
  let r := d.picOutput t flags payload (payload + (rc.cap + 7) / 8)
  let d := r.1.picAgain t.s t.n t.src
  d.picJoins t rc (d.picNew t rc x.coded repeats flags head r.2)

/-- Starts picture `n` at place `pos` from its source `src`; `hdr` bounds the bits of its headers (R321). -/
def Dev.picBegin (d : Dev) (s n pos type : Nat) (src : SrcSel) (hdr : Nat) : Dev :=
  let q := d.sesSeq s
  let key := d.isKey s n
  let d := d.picTurn s n key
  let fresh := (d.ses s).fresh
  -- a session that resumes after discarding starts afresh where it is not at a key frame anyway (R310)
  let type := if fresh && !q.refresh && (d.sesGroup s).isNone then 1 else type
  let cycle := d.isCycle s n || (fresh && q.refresh && (d.sesGroup s).isNone)
  let d := if cycle then d.modSes s (fun x => { x with lastCyc := n }) else d
  let base := (d.keysOf s).1
  let gop := if q.refresh then (d.ses s).lastCyc else base + (n - base) / q.len * q.len
  let left := (gop + (if q.refresh then q.period else q.len)) - n
  let coded := (d.ses s).coded
  let d := if coded < 2 then d else d.foldDone s (coded - 2)
  let r := d.rcStart s type n pos gop left
  r.1.picCode { s := s, n := n, pos := pos, type := type, src := src, hdr := hdr, key := key, fresh := fresh, cycle := cycle, gop := gop } r.2

/-- PICTURE_START (R317): the next picture of session `s` starts when every picture up to k − 2 is complete and its source is
known; `hdr` is the bound in bits of its headers and SEI that the engine states (R321). -/
def execPictureStart (s : Fin 256) (hdr : Nat) (st : State) : Host.Outcome State Fault Refusal :=
  st.run (fun d =>
    if !(d.ses s).run ∨ d.get (F.SES_STATUS_STATE s) = 3 ∨ 1 < (d.ses s).pics.length then d
    else
      let d := d.jobKeys s
      match Dev.nextPic 64 d s with
      | (d, none) => d
      | (d, some (n, pos, type)) =>
        match d.pickSource s n with
        | (d, some src) => d.picBegin s n pos type src hdr
        | (d, none) => d)

/-! ### Rows on engines (R293-R297, R311) -/

/-- The picture `c` of a session in progress. -/
def Dev.pic? (d : Dev) (s c : Nat) : Option PicSt := (d.ses s).pics.find? (fun p => p.c == c)

/-- Changes a picture in progress. -/
def Dev.modPic (d : Dev) (s c : Nat) (f : PicSt → PicSt) : Dev :=
  d.modSes s (fun x => { x with pics := x.pics.map (fun (p : PicSt) => if p.c = c then f p else p) })

/-- A row of a picture. -/
def PicSt.row (p : PicSt) (r : Nat) : RowSt := elemAt p.rows r {}

/-- Changes a row of a picture. -/
def Dev.modRow (d : Dev) (s c r : Nat) (f : RowSt → RowSt) : Dev := d.modPic s c (fun p => { p with rows := modifyAt p.rows r f })

/-- The engine of row `r` (R293, R294). -/
def PicSt.engine (p : PicSt) (r : Nat) : Nat := nth p.engines (r % max 1 p.engines.length)

/-- A coding engine. -/
def Dev.ve (d : Dev) (e : Nat) : VeSt := elemAt d.code.ve e {}

/-- Changes a coding engine. -/
def Dev.modVe (d : Dev) (e : Nat) (f : VeSt → VeSt) : Dev := { d with code := { d.code with ve := modifyAt d.code.ve e f } }

/-- Shows an engine (VEi_STATUS). -/
def Dev.showVe (d : Dev) (e : Nat) : Dev :=
  let v := d.ve e
  let d := d.setFlag (F.VE_ENG_STATUS_ACTIVE e) (d.veActive.contains e)
  let d := (d.setFlag (F.VE_ENG_STATUS_SPARE e) (e % 17 = 16)).setFlag (F.VE_ENG_STATUS_FENCED e) (d.veFenced e)
  let d := d.set (F.VE_ENG_STATUS_ROWS_QUEUED e) (min 255 (v.queue.length + v.held.length))
  d.set (F.VE_ENG_STATUS_LOAD_PCT e) (min 255 (d.veCommitted e * 100 / d.veRate))

/-- The deadline of a released LIVE row (R297): 3 × t_row and one CTU time of 12,288 CORE cycles after its release. -/
def Dev.rowDeadline (d : Dev) (j : RowJob) : Nat := j.release + 3 * d.rowNs j.ses + 12288 * d.coreThirds / 3

/-- Picks the LIVE row of earliest deadline, ties to the lower session (R296). -/
def Dev.pickLive (d : Dev) (q : List RowJob) : Option RowJob :=
  (q.filter (fun j => d.sesClass j.ses = classLive)).foldl (fun (b : Option RowJob) j =>
    match b with
    | some x =>
      if d.rowDeadline j < d.rowDeadline x ∨ (d.rowDeadline j = d.rowDeadline x ∧ j.ses < x.ses) then some j else some x
    | none => some j) none

/-- Picks the row of the highest other class, first ready first, ties to the lower session (R296). -/
def Dev.pickOther (d : Dev) (q : List RowJob) : Option RowJob :=
  (q.filter (fun j => d.sesClass j.ses ≠ classLive)).foldl (fun (b : Option RowJob) j =>
    match b with
    | some x =>
      let cj := d.sesClass j.ses
      let cx := d.sesClass x.ses
      if cj < cx ∨ (cj = cx ∧ (j.ready < x.ready ∨ (j.ready = x.ready ∧ j.ses < x.ses))) then some j else some x
    | none => some j) none

/-- Starts a row on engine `e`: its budget, the inherited salvage state, its checkpoint (R311, R321, R325). -/
def Dev.rowStart (d : Dev) (e : Nat) (j : RowJob) : Dev :=
  match d.pic? j.ses j.c with
  | none => d
  | some p =>
    let k := max 1 p.engines.length
    let above := if k ≤ j.row then some (p.row (j.row - k)) else none
    let carry := match above with
      | some a => a.budget - 8 * a.bytes.length
      | none => 0
    let sv := match above with
      | some a => (a.salv, a.skip)
      | none => (false, false)
    let d := d.modRow j.ses j.c j.row (fun r =>
      { r with state := 3, budget := nth p.crow j.row + carry, spent := 0, units := 0, flags := [], bytes := []
               salv := sv.1, skip := sv.2, salv0 := sv.1, skip0 := sv.2, qp := p.qp })
    let j := { j with start := d.elapsed, paused := 0 }
    let live := d.sesClass j.ses = classLive
    d.modVe e (fun v =>
      { v with live := if live then some j else v.live, other := if live then v.other else some j
               queue := v.queue.filter (fun x => !(x.ses == j.ses && x.c == j.c && x.row == j.row))
               lastLive := if live then some d.elapsed else v.lastLive })

/-- An engine without a row in progress takes its next one (R296): a released LIVE row, else its paused row, else the next
of the other classes. -/
def Dev.veSelect (d : Dev) (e : Nat) : Dev :=
  let v := d.ve e
  -- a spare takes up rows only once it has read the checkpoints of the rows it re-runs (R313)
  let waits := e % 17 = 16 && (d.code.subs.getD (e / 17) none).any (fun x => !x.read)
  let d := if waits || v.live.isSome || (v.other.isSome && !v.paused) then d
    else match d.pickLive v.queue with
      | some j => d.rowStart e j
      | none =>
        match v.other with
        | some j =>
          let d := d.modRow j.ses j.c j.row (fun r => { r with state := 3 })
          d.modVe e (fun v => { v with paused := false, other := some { j with paused := j.paused + (d.elapsed - j.pausedAt) } })
        | none =>
          match d.pickOther v.queue with
          | some j => d.rowStart e j
          | none => d
  d.showVe e

/-- Lines of the picture that row `r` needs from its source. -/
def Dev.rowLines (d : Dev) (s r : Nat) : Nat := min (64 * d.rowT s * (r + 1)) (d.sesH s)

/-- Whether the source lines of a row are complete (R295): by LINES_DONE of the branch buffer; a scaled member's lines stand
for their place in the branch picture and four lines below it (R200). -/
def Dev.sourceReady (d : Dev) (s : Nat) (p : PicSt) (r : Nat) : Bool :=
  if d.get (F.SES_CFG_SRC_KIND s) = 2 then true
  else match p.src.buf with
    | none => true
    | some key =>
      let (n, b) := d.sesFeed s
      let done := d.poolNat poolDev (d.brBufAt n b (key % 16) + 0xC) 4
      let need := d.rowLines s r
      match d.sesGroup s with
      | none => decide (need ≤ done)
      | some _ =>
        let h := d.get (F.COL_BR_OUT_WH_H n b)
        decide (min h (need * h / max 1 (d.sesH s) + 4) ≤ done)

/-- Rows of the references that row `r` needs (R295). -/
def Dev.refRows (d : Dev) (s r : Nat) : Nat :=
  let v := 8 * d.get (F.SES_TOOLS_VSR s)
  let lines := 64 * d.rowT s
  min (d.rowCount s) (r + (v + 16 + lines - 1) / lines + 1)

/-- Whether row `r` of a picture is ready (R295). -/
def Dev.rowReady (d : Dev) (s : Nat) (p : PicSt) (r : Nat) : Bool :=
  let hevc := d.get (F.SES_CFG_CODEC s) = 0
  let wave := r = 0 || !hevc || (let a := p.row (r - 1); a.state == 6 || decide (min 2 (d.rowUnits s (r - 1)) ≤ a.units))
  let refs := p.type = 1 || (d.ses s).pics.all (fun x =>
    decide (p.c ≤ x.c) || x.type == 3 || (x.rows.take (d.refRows s r)).all (fun y => y.state == 6))
  d.sourceReady s p r && wave && refs

/-- ROW_READY (R295-R297): row `row` of the picture `back` places before the newest one of session `s` has become ready. A
LIVE row waits for its release where its engine started the session's previous row less than 3 × t_row ago. -/
def execRowReady (s : Fin 256) (back : Fin 2) (row : Nat) (st : State) : Host.Outcome State Fault Refusal :=
  st.run (fun d =>
    match (d.ses s).pics.reverse[back.val]? with
    | none => d
    | some p =>
      if (p.row row).state ≠ 0 ∨ p.rows.length ≤ row ∨ d.rowReady s p row = false then d
      else
        let e := p.engine row
        let j : RowJob := { ses := s, c := p.c, row := row, ready := d.elapsed, release := d.elapsed }
        let wait := match (d.ve e).lastLive with
          | some t => decide (d.elapsed < t + 3 * d.rowNs s)
          | none => false
        if d.sesClass s = classLive ∧ wait = true then
          ((d.modRow s p.c row (fun r => { r with state := 1 })).modVe e (fun v => { v with held := v.held ++ [j] })).showVe e
        else
          ((d.modRow s p.c row (fun r => { r with state := 2 })).modVe e (fun v => { v with queue := v.queue ++ [j] })).veSelect e)

/-- LIVE_ROW_RELEASE (R297): 3 × t_row after engine `e` started the session's previous row, its oldest waiting LIVE row is
released. -/
def execLiveRowRelease (e : Fin 68) (st : State) : Host.Outcome State Fault Refusal :=
  st.run (fun d =>
    match (d.ve e).held with
    | [] => d
    | j :: rest =>
      let d := d.modRow j.ses j.c j.row (fun r => { r with state := 2 })
      (d.modVe e (fun v => { v with held := rest, queue := v.queue ++ [{ j with release := d.elapsed }] })).veSelect e)

/-! ### Units (R320, R324-R329) -/

/-- Subtraction in u64 (R324). -/
def u64Sub (a b : Nat) : Nat := (a + 2 ^ 64 - b) % 2 ^ 64

/-- The QP offset of a unit (R320): `cell` is log2 of its cell's complexity over the picture mean in Q8, `sal` its
saliency. -/
def aqOffset (qstep : Nat) (cell : Int) (sal : Nat) : Int :=
  clampInt (roundHalfAway ((qstep : Int) * cell * 255 - 2 * (sal : Int) * 512) (512 * 255)) (-4) 4

/-- The cell of the group's maps under unit `u` of row `r` of a member (R304, R320). -/
def Dev.unitCell (d : Dev) (s g r u : Nat) (rec_ : AnaRec) : Int × Nat :=
  let aw := d.anaW g
  let ah := d.anaH g
  let x0 := u % d.unitCols s * 64
  let y0 := (r * d.rowT s + u / d.unitCols s) * 64
  let bx := (2 * x0 + 64) * aw / (2 * d.sesW s) / 16
  let by_ := (2 * y0 + 64) * ah / (2 * d.sesH s) / 16
  let cw := (aw + 15) / 16
  let i := min by_ ((ah + 15) / 16 - 1) * cw + min bx (cw - 1)
  ((nth rec_.cells i : Int) + 4096 - log2Q8 (max 1 rec_.mean), nth rec_.sal i)

/-- A refresh unit of picture `c` was coded minimally: the next coded picture repeats it (R329). -/
def Dev.unitMissed (d : Dev) (s c r u : Nat) (wasRepeat : Bool) : Dev :=
  let d := d.modPic s c (fun p => { p with missed := p.missed ++ [(r, u)] })
  match d.pic? s (c + 1) with
  | none => d
  | some p =>
    let late := wasRepeat && p.repeats.isEmpty
    let d := d.modPic s (c + 1) (fun p => { p with repeats := p.repeats ++ [(r, u)], flags := setBit p.flags 7 true })
    let d := match p.rec_ with
      | some k => d.recPut s k 0xC 4 (setBit p.flags 7 true)
      | none => d
    if late then d.refreshLate s p.n [(r, u)] else d

/-- The salvage procedure for the next unit of a row in progress (R324): `bits` is what coding the unit took, `least` what
its minimal coding takes; `cell` and `sal` are the unit's complexity and saliency for a session outside a group. -/
def Dev.codeUnit (d : Dev) (j : RowJob) (bits least : Nat) (cell : Int) (sal : Nat) : Dev :=
  match d.pic? j.ses j.c with
  | none => d
  | some p =>
    let s := j.ses
    let r := p.row j.row
    let total := d.rowUnits s j.row
    if total ≤ r.units then d
    else
      let k := max 1 p.engines.length
      let uf := d.unitFloor s
      -- in HEVC a CTU takes the state of CTU c + 1 of the row above where that is further advanced (R325)
      let nb := if d.get (F.SES_CFG_CODEC s) = 0 ∧ 0 < j.row then
          let fl := (p.row (j.row - 1)).flags
          (fl.getD (min (r.units + 1) (fl.length - 1)) (false, false))
        else (false, false)
      let skip0 := r.skip || nb.2
      let chain := (List.range (p.rows.length)).filter (fun i => decide (j.row < i) && i % k == j.row % k)
      let left := u64Sub r.budget r.spent
      let floor_ := (total - r.units + sumNat (chain.map (d.rowUnits s))) * uf + (1 + chain.length) * 512
      let avg := if 0 < r.units then r.spent / r.units else r.budget / max 1 total
      let salv0 := r.salv || nb.1
      let salv := salv0 || decide (left < floor_ + 2 * avg)
      let past := salv && decide (u64Sub r.budget (floor_ - uf) < r.spent + bits)
      let minimal := skip0 || past
      let cost := if minimal then least else bits
      let (cell, sal) := match d.sesGroup s with
        | some g =>
          match ((d.grp g).recs.filter (fun x => decide (x.n ≤ p.n))).getLast? with
          | some x => d.unitCell s g j.row r.units x
          | none => (cell, sal)
        | none => (cell, sal)
      let off := if d.flag (F.SES_RC_AQ s) then aqOffset (d.qstep s) cell sal else 0
      let qp0 := ((p.qp : Int) + off).toNat
      let qp := if salv then max qp0 (d.get (F.SES_QP_QP_SALVAGE s)) else qp0
      let turned := minimal && !r.skip
      let d := d.modRow s j.c j.row (fun r =>
        { r with spent := r.spent + cost, units := r.units + 1, salv := salv, skip := minimal || r.skip
                 flags := r.flags ++ [(salv, minimal || r.skip)], qp := qp })
      let d := d.modPic s j.c (fun p =>
        { p with salvRow := if salv && p.salvRow.isNone then some j.row else p.salvRow
                 allSkip := if turned then p.allSkip + 1 else p.allSkip })
      let col := r.units % d.unitCols s
      let inCols := match p.cyc with
        | some i => let (a, z) := refreshCols (d.unitCols s) (d.sesSeq s).period i; decide (a ≤ col) && decide (col < z)
        | none => false
      let again := p.repeats.contains (j.row, r.units)
      if minimal && p.type != 1 && (inCols || again) then d.unitMissed s j.c j.row r.units again else d

/-- UNIT_BOUNDARY (R296, R324): engine `e` reaches a CTU or superblock boundary. A row of another class pauses there for a
LIVE row that is ready; otherwise the next unit is coded. -/
def execUnitBoundary (e : Fin 68) (bits least : Nat) (cell : Int) (sal : Nat) (st : State) : Host.Outcome State Fault Refusal :=
  st.run (fun d =>
    let v := d.ve e
    match v.live, v.other with
    | some j, _ => d.codeUnit j bits least cell sal
    | none, some j =>
      if v.paused then d
      else if (d.pickLive v.queue).isSome then
        let d := d.modRow j.ses j.c j.row (fun r => { r with state := 4 })
        (d.modVe e (fun v => { v with paused := true, other := some { j with pausedAt := d.elapsed } })).veSelect e
      else d.codeUnit j bits least cell sal
    | none, none => d)

/-! ### Rows complete (R309, R312, R319, R326, R330) -/

/-- The bytes of a picture's rows in order while they are complete. -/
def readyRows (rows : List RowSt) : List RowSt := rows.takeWhile (fun r => r.state == 6)

/-- Publishes the bands that have become complete (R309, R330). -/
def Dev.publish (d : Dev) (s c : Nat) : Dev :=
  match d.pic? s c with
  | none => d
  | some p =>
    let per := max 1 (d.get (F.SES_FMT_BAND_ROWS s))
    let ready := (readyRows p.rows).length
    let bands := if ready = p.rows.length then (p.rows.length + per - 1) / per else ready / per
    if bands ≤ p.bands then d
    else
      let data := ((p.rows.take (bands * per)).drop (p.bands * per)).flatMap (·.bytes)
      let d := match p.rec_, p.maxLen with
        | some k, _ + 1 =>
          let d := d.poolWrite poolOut (d.dataOff s (p.off + p.head.length + 108 + p.bytesDone)) data
          (d.recPut s k 0x2C 4 (p.bytesDone + data.length)).recPut s k 0x30 2 bands
        | _, _ => d
      d.modPic s c (fun p => { p with bands := bands, bytesDone := p.bytesDone + data.length })

/-- The CPB fill before removal of coded picture `c`, from what is complete (R318, R319). -/
def Dev.fillBefore (d : Dev) (s c : Nat) (inc : Nat) : Int :=
  let x := d.ses s
  let f := (x.tail.filter (fun t => decide (t.c < c))).foldl (fun (f : Int) t => d.limitFill s (f + t.inc) - t.bits) x.fill
  d.limitFill s (f + inc)

/-- A picture is complete (R309, R319, R326): filler, boxes, CHUNK_LEN, counters; the session stops if that was asked. -/
def Dev.picDone (d : Dev) (s c : Nat) : Dev :=
  match d.pic? s c with
  | none => d
  | some p =>
    let q := d.sesSeq s
    let codec := d.get (F.SES_CFG_CODEC s)
    let bits := 8 * p.bytesDone
    let next := d.fillRate s * q.dur / q.ts
    let past := (d.fillBefore s c p.inc - bits + next - d.cpbBits s).toNat
    let inOrder := !(d.ses s).pics.any (fun x => decide (x.c < c))
    let fill := if d.get (F.SES_RC_RC_MODE s) = 1 && inOrder then
        fillerBytes codec ((past + 7) / 8) ((p.cap - bits) / 8) else []
    let size := p.bytesDone + fill.length
    let salvaged := p.salvRow.isSome
    let sub := p.rows.any (·.sub)
    let flags := setBit (setBit p.flags 1 salvaged) 9 (bitOf p.flags 9 || sub)
    let cto : Int := ((p.n * q.dur : Nat) : Int) - ((p.pos * q.dur : Nat) : Int)
    let d := match p.rec_, p.maxLen with
      | some k, _ + 1 =>
        let d := d.poolWrite poolOut (d.dataOff s (p.off + p.head.length + 108 + p.bytesDone)) fill
        let d := d.poolWrite poolOut (d.dataOff s p.off) (p.head ++ moofMdat (p.c + 1) (p.pos * q.dur) size (p.type == 1) cto)
        let d := (d.recPut s k 0xC 4 flags).recPut s k 0x2C 4 size
        (d.recPut s k 0x24 4 (p.head.length + 108 + size)).recGen s k
      | some k, 0 => (d.recPut s k 0xC 4 (setBit flags 3 true)).recGen s k
      | none, _ => d
    let done : DoneSt :=
      { c := c, type := p.type, bits := 8 * size, inc := p.inc, cap := p.cap, tgt := p.tgt, qp := p.qp, gop := p.gop
        rows := p.rows.map (fun r => 8 * r.bytes.length), missed := p.missed, wasRepeat := !p.repeats.isEmpty }
    let d := d.modSes s (fun x => { x with pics := x.pics.filter (fun y => y.c != c), tail := x.tail ++ [done] })
    let d := d.set (F.SES_PIC_PIC_NO s) p.n
    let d := if salvaged then
        let d := (d.bump (F.SES_RC_CNT_SALVAGED s)).add (F.SES_RC_CNT_ALL_SKIP s) p.allSkip
        if !d.secOver (d.ses s).salvSec then d
        else (d.modSes s (fun x => { x with salvSec := d.elapsed + 1 })).eventAt 0x0D05 sevNotice s
          [u8 s, u32 p.n, u8 (p.salvRow.getD 0), u8 p.allSkip]
      else d
    let d : Dev := match d.sesGroup s with
      | some g =>
        let oldest := (d.runMembers g).foldl (fun m t =>
          let y := d.ses t
          ((y.pics.map (fun (z : PicSt) => z.n)) ++ y.order.map (fun (z : Nat × Nat × Nat) => z.1)).foldl min (min m y.nextN)) p.n
        d.modGrp g (fun (x : GrpSt) =>
          { x with recs := x.recs.filter (fun (r : AnaRec) =>
              decide (oldest ≤ r.n + 1) || some r.n == (x.recs.getLast?.map (fun (z : AnaRec) => z.n))) })
      | none => d
    let d := d.srcRelease s
    if d.get (F.SES_STATUS_STATE s) = 3 ∧ (d.ses s).pics.isEmpty = true then d.sesStopped s else d

/-- VE_SUBSTITUTE of a quadrant whose interrupted rows are all re-run (R313 step 5). -/
def Dev.subSettle (d : Dev) (q : Nat) : Dev :=
  match d.code.subs.getD q none with
  | none => d
  | some x =>
    let open_ := x.jobs.any (fun j =>
      match d.pic? j.ses j.c with
      | some p => (p.row j.row).state != 6
      | none => false)
    if !x.read || open_ then d
    else if x.quiet then { d with code := { d.code with subs := setAt d.code.subs q none } }
    else
      let j? := match x.jobs.find? (fun j => d.sesClass j.ses = classLive) with
        | some j => some j
        | none => x.jobs.head?
      let d := { d with code := { d.code with subs := setAt d.code.subs q none } }
      let n? := j?.map (fun j => ((d.ses j.ses).pics.find? (fun p => p.c == j.c)).map (·.n))
      match j? with
      | some j =>
        d.eventAt 0x0D04 sevDegraded x.eng [u8 x.eng, u8 (17 * q + 16), u16 j.ses,
          u32 ((n?.getD none).getD (d.get (F.SES_PIC_PIC_NO j.ses))), u8 j.row]
      | none => d.eventAt 0x0D04 sevDegraded x.eng [u8 x.eng, u8 (17 * q + 16), u16 0xFFFF, u32 0xFFFFFFFF, u8 0xFF]

/-- The row in progress on engine `e` has passed the control-path compare with these bytes (R312). Its units are all coded
and its bytes lie within its budget. -/
def Dev.rowDone (d : Dev) (e : Nat) (bytes : List Byte) : Dev :=
  let v := d.ve e
  let job := match v.live with
    | some j => some j
    | none => if v.paused then none else v.other
  match job with
  | none => d
  | some j =>
    match d.pic? j.ses j.c with
    | none => d
    | some p =>
      let r := p.row j.row
      if r.units < d.rowUnits j.ses j.row ∨ r.budget < 8 * bytes.length then d
      else
        let ran := d.elapsed - j.start - j.paused
        let d := { d with code := { d.code with busyNs := d.code.busyNs + ran } }
        let d := d.modRow j.ses j.c j.row (fun r => { r with state := 6, bytes := bytes })
        let d := d.modVe e (fun v =>
          if v.live.isSome then { v with live := none } else { v with other := none, paused := false })
        let d := if r.sub then
            let f := setBit p.flags 9 true
            let d := d.modPic j.ses j.c (fun p => { p with flags := f })
            match p.rec_ with
            | some k => d.recPut j.ses k 0xC 4 f
            | none => d
          else d
        let d := (d.publish j.ses j.c).subSettle (e / 17)
        let d := match d.pic? j.ses j.c with
          | some p => if p.rows.all (fun r => r.state == 6) then d.picDone j.ses j.c else d.srcRelease j.ses
          | none => d
        d.veSelect e

/-! ### Analysis of a group (R303, R305, R306) -/

/-- SCORE (R305): 256 × the share of blocks whose INTRA is below their smallest inter SAD, saturating at 255. `field` holds
the planes of the motion field, 8 bytes a block. -/
def sceneScore (field : List Byte) (blocks planes : Nat) : Nat :=
  let entry (p b o : Nat) : Nat := leAt field (8 * (p * blocks + b) + o) 2
  let n := ((List.range blocks).filter (fun b =>
    let sad := (List.range planes).foldl (fun m p => min m (entry p b 4)) 65536
    decide (entry 0 b 6 < sad))).length
  if blocks = 0 ∨ planes = 0 then 0 else min 255 (256 * n / blocks)

/-- A scene cut on picture `n` (R305, R306): the key frame that SCENE_MODE asks for, moved to even distance from the key
frame of a halving in effect. -/
def Dev.sceneCut (d : Dev) (g n score : Nat) : Dev :=
  let d := d.eventAt 0x0D09 sevInfo g [u8 g, u32 n, u8 score]
  let x := d.grp g
  let mode := d.get (F.LG_CFG_SCENE_MODE g)
  if mode ≠ 1 ∧ mode ≠ 2 then d
  else
    -- with MINIGOP 1 the cut takes effect on the next picture
    let at_ := if (d.grpSeq g).mini = 1 then n + 1 else n
    let halved := (d.runMembers g).any (fun s => (d.ses s).halved)
    let key := if halved ∧ (at_ - x.halveKey) % 2 = 1 then at_ + 1 else at_
    let d := if key = at_ then d else d.eventAt 0x0D0A sevInfo g [u8 g, u32 n, u32 key]
    d.modGrp g (fun x =>
      { x with keys := if x.keys.contains key then x.keys else x.keys ++ [key], gopBase := if mode = 1 then key else x.gopBase })

/-- ANALYSIS_DONE (R303): the analysis of a group's next picture: distances, motion field, complexity cells and saliency cells
as the engines found them. -/
def execAnalysisDone (g : Fin 8) (dist : List Int) (field : List Byte) (cells sal : List Nat) (st : State) :
    Host.Outcome State Fault Refusal :=
  st.run (fun d =>
    let x := d.grp g
    let n := x.nextA
    if !x.run then d
    else
      let d := d.grpSources g n
      match (d.grp g).srcs.find? (fun p => p.n == n) with
      | none => d
      | some src =>
        let d := d.latch (R.LG_SCENE g)
        let blocks := (d.anaW g / 8) * (d.anaH g / 8)
        let score := sceneScore field blocks dist.length
        let prevKey := ((x.keys ++ [x.lastKey]).filter (fun k => decide (k ≤ n))).foldl max
          (if x.gopBase ≤ n then x.gopBase + (n - x.gopBase) / (d.grpSeq g).len * (d.grpSeq g).len else x.lastKey)
        let cut := decide (d.eget (F.LG_SCENE_SCENE_THR g) ≤ score) && decide (d.get (F.LG_SCENE_MIN_GAP g) ≤ n - prevKey)
        let head := bytesLE 4 n ++ bytesLE 4 src.fseq ++ bytesLE 1 (b2n cut) ++ bytesLE 1 score ++ bytesLE 1 dist.length ++
          dist.flatMap (fun v => bytesLE 1 (toBits 8 v))
        let bytes := sliceBytes head 0 64 ++ field ++ cells.flatMap (bytesLE 2) ++ sal.flatMap (bytesLE 1)
        let mean := if cells.isEmpty then 0 else sumNat (cells.map expQ8) / cells.length
        let d := d.modGrp g (fun x =>
          { x with nextA := n + 1, recs := x.recs ++ [{ n := n, bytes := bytes, mean := mean, cells := cells, sal := sal }]
                   means := (mean :: x.means).take (d.grpSeq g).len })
        let d := d.set (F.LG_STATUS_PIC_NO g) n
        let d := if cut then d.sceneCut g n score else d
        d.grpRelease g)

end Sys2Proof.Machine
end

