-- ==== Sys2Proof/Machine/Decoder.lean ====
section
/-!
DEFINITION. The sixteen decoders (R338-R344): access units taken, pictures written with their records, concealment.
-/
namespace Sys2Proof.Machine

/-- A decoder beside its registers. -/
def Dev.decoder (d : Dev) (k : Nat) : DecSt := elemAt d.decs k {}

/-- Changes a decoder. -/
def Dev.modDec (d : Dev) (k : Nat) (f : DecSt → DecSt) : Dev := { d with decs := modifyAt d.decs k f }

/-- A decoder starts at mode entry (R344). -/
def Dev.decStart (d : Dev) (k : Nat) : Dev :=
  let wait := d.flag (F.DEC_CFG_WAIT_RAP k)
  (d.modDec k (fun x => { run := true, waitRap := wait, nextBuf := x.nextBuf, nextPic := x.nextPic })).set (F.DEC_STATUS_STATE k)
    (if wait then 1 else 2)

/-- Data was lost before the next access unit of a decoder (R343, R344). -/
def Dev.decLoss (d : Dev) (k : Nat) : Dev :=
  if !(d.decoder k).run then d
  else
    let wait := d.flag (F.DEC_CFG_WAIT_RAP k)
    let d := d.modDec k (fun x => { x with lost := true, waitRap := x.waitRap || wait })
    if wait then d.set (F.DEC_STATUS_STATE k) 1 else d

/-- A flow delivers an access unit to a decoder's input ring of 2^SIZE_LOG2 entries; one that overflows it is lost
(R338, R339). -/
def Dev.decDeliver (d : Dev) (k : Nat) (data : List Byte) (pts : Nat) (disc : Bool) : Dev :=
  let x := d.decoder k
  if !x.run || d.flag (F.DEC_CFG_SRC k) then d
  else if 2 ^ d.get (F.DEC_IN_RING_SIZE_LOG2 k) ≤ x.fifo.length then
    d.modDec k (fun x => { x with lost := true })
  else d.modDec k (fun x => { x with fifo := x.fifo ++ [(data, pts, d.stime, disc)] })

/-- The next access unit of a decoder's source, and the block after it was taken (R338, R340). -/
def Dev.decTake (d : Dev) (k : Nat) : Option (Dev × (List Byte × Nat × Nat × Bool)) :=
  if d.flag (F.DEC_CFG_SRC k) then
    let cons := d.get (F.DEC_STATUS_IN_CONS k)
    if cons = d.get (F.DEC_IDX_IN_PROD k) then none
    else
      let e := d.poolRead poolHost (d.get (F.DEC_IN_RING_BASE k) * 256 + 32 * (cons % 2 ^ d.get (F.DEC_IN_RING_SIZE_LOG2 k))) 32
      some (d.bump (F.DEC_STATUS_IN_CONS k),
        (d.poolRead poolHost (leAt e 0 8) (leAt e 8 4), leAt e 16 8, d.stime, bitOf (leAt e 12 4) 0))
  else match (d.decoder k).fifo with
    | [] => none
    | u :: rest => some (d.modDec k (fun x => { x with fifo := rest }), u)

/-- DECODER_ACCESS_UNIT (R338, R339, R344): decoder `k` takes its next access unit; `rap` says that it is a random-access
point. A decoder whose next output buffer is held takes none. -/
def execDecoderAccessUnit (k : Fin 16) (rap : Bool) (s : State) : Host.Outcome State Fault Refusal :=
  s.run (fun d =>
    if !(d.decoder k).run then d
    else if d.bufHeld (decBufKey k (d.decoder k).nextBuf) then d.set (F.DEC_STATUS_STATE k) 3
    else match d.decTake k with
      | none => d
      | some (d, u) =>
        let d := if u.2.2.2 then d.decLoss k else d
        let x := d.decoder k
        let waiting := x.waitRap && d.flag (F.DEC_CFG_WAIT_RAP k) && !rap
        if waiting then d.set (F.DEC_STATUS_STATE k) 1
        else (d.modDec k (fun x => { x with waitRap := false, input := x.input ++ [u] })).set (F.DEC_STATUS_STATE k) 2)

/-- Whether a sample of column `x`, luma line `y` was lost. -/
def picLost (p : DecPic) (x y : Nat) : Bool :=
  p.lost.any (fun r => decide (r.1 ≤ x) && decide (x < r.1 + r.2.2.1) && decide (r.2.1 ≤ y) && decide (y < r.2.1 + r.2.2.2))

/-- The picture with its lost units copied from the substitute, mid-grey where there is none (R341, R343). -/
def picPatched (p : DecPic) (good : Option (List (List Nat) × List (List Nat))) : List (List Nat) × List (List Nat) :=
  let grey := 2 ^ (p.depth - 1)
  let sub (l : List (List Nat)) (x y : Nat) : Nat := ((l.getD y []).getD x grey)
  let cy (y : Nat) : Nat := if p.c422 then y else 2 * y
  let g := good.getD ([], [])
  if p.lost.isEmpty then (p.luma, p.chroma)
  else
    (p.luma.zipIdx.map (fun l => l.1.zipIdx.map (fun v => if picLost p v.2 l.2 then sub g.1 v.2 l.2 else v.1)),
     p.chroma.zipIdx.map (fun l => l.1.zipIdx.map (fun v =>
       if picLost p (v.2 / 2 * 2) (cy l.2) then sub g.2 v.2 l.2 else v.1)))

/-- The FORMAT code of a decoded picture: 4:2:2 or 4:2:0, 8 bits or more (R212, R338). -/
def picFormat (p : DecPic) : Nat :=
  if p.c422 then (if p.depth ≤ 8 then 4 else 2) else (if p.depth ≤ 8 then 5 else 3)

/-- The bytes of a line of samples in a buffer (R212). -/
def picLineBytes (p : DecPic) (l : List Nat) : List Byte :=
  if p.depth ≤ 8 then l.map (BitVec.ofNat 8) else l.flatMap (fun v => bytesLE 2 (v * 2 ^ (16 - p.depth)))

/-- Writes a decoded picture and its descriptor into output buffer `i` of decoder `k` (R213, R338). -/
def Dev.decWrite (d : Dev) (k i pic : Nat) (p : DecPic) (concealed : Bool) (planes : List (List Nat) × List (List Nat))
    (recv : Nat) : Dev :=
  let base := d.decBufAt k i
  let fmt := picFormat p
  let ps := pitches fmt p.w p.h
  let os := planeOffs fmt p.w p.h
  let gen := d.poolNat poolDev (base + 0x3C) 4
  let desc (done gen : Nat) : List Byte :=
    bytesLE 4 pic ++ bytesLE 2 0 ++ bytesLE 1 (0x80 + k) ++ bytesLE 1 0xFF ++ bytesLE 4 (b2n concealed * 2 ^ 18) ++ bytesLE 4 p.h ++
      bytesLE 8 recv ++ bytesLE 8 done ++ bytesLE 2 p.w ++ bytesLE 2 p.h ++ bytesLE 1 fmt ++ bytesLE 1 p.tf ++
      bytesLE 1 (p.ycc + 128 * b2n p.full) ++ bytesLE 1 0xFF ++ (List.range 3).flatMap (fun i => bytesLE 2 (nth ps i)) ++
      bytesLE 2 0 ++ (List.range 3).flatMap (fun i => bytesLE 4 (nth os i / 4096)) ++ bytesLE 4 gen
  let d := planes.1.zipIdx.foldl (fun d l => d.poolWrite poolDev (base + nth os 0 + l.2 * nth ps 0) (picLineBytes p l.1)) d
  let d := planes.2.zipIdx.foldl (fun d l => d.poolWrite poolDev (base + nth os 1 + l.2 * nth ps 1) (picLineBytes p l.1)) d
  d.poolWrite poolDev base (desc d.stime (gen + 2))

/-- DECODER_PICTURE_DONE (R340-R343): decoder `k` writes a decoded picture and its record. -/
def execDecoderPictureDone (k : Fin 16) (p : DecPic) (s : State) : Host.Outcome State Fault Refusal :=
  s.run (fun d =>
    let x := d.decoder k
    match x.run, x.input[p.au]? with
    | true, some u =>
      if d.bufHeld (decBufKey k x.nextBuf) then d.set (F.DEC_STATUS_STATE k) 3
      else
        let pic := x.nextPic
        let lost := x.lost || !p.lost.isEmpty
        let fresh := lost || decide (0 < p.missing)
        let was := d.flag (F.DEC_STATUS_CONCEALED k)
        -- the concealed state ends at a random-access point, or in HEVC at the recovery point (R342)
        let ends := was && !fresh && (p.rap || (p.recovery && !d.flag (F.DEC_CFG_CODEC k)))
        let concealed := fresh || (p.refConcealed && !ends)
        let planes := picPatched p x.good
        let recv := u.2.2.1
        let d := d.decWrite k x.nextBuf pic p concealed planes recv
        let flags := b2n concealed + 2 * b2n (decide (0 < p.missing)) + 4 * b2n (fresh && x.good.isNone) +
          8 * b2n (!p.film.isEmpty) + 16 * b2n ends
        -- the spec names the offset of the copied film_grain_params and not where it lies: a free value
        let fg := if p.film.isEmpty then 0 else d.free % 2 ^ 28 + 1
        let d := if p.film.isEmpty then d else (d.poolWrite poolAux (16 * fg) p.film).tookFree 1
        let prod := d.get (F.DEC_IDX_REC_PROD k)
        let rec_ := bytesLE 4 pic ++ bytesLE 1 x.nextBuf ++ bytesLE 1 p.type ++ bytesLE 2 flags ++ bytesLE 8 u.2.1 ++ bytesLE 4 fg ++
          bytesLE 8 recv ++ bytesLE 4 0
        let d := d.poolWrite poolHost (d.get (F.DEC_REC_RING_BASE k) * 256 + 32 * (prod % 2 ^ d.get (F.DEC_REC_RING_SIZE_LOG2 k))) rec_
        let d := d.bump (F.DEC_IDX_REC_PROD k)
        let d := if concealed then d.bump (F.DEC_CNT_CONCEALED_PICS k) else d
        let d := d.add (F.DEC_CNT_SUBST_REFS k) p.missing
        let d := if 0 < p.missing then d.eventAt 0x0D0D sevNotice k [u8 k, u32 pic, u8 1] else d
        let d := if lost then d.eventAt 0x0D0D sevNotice k [u8 k, u32 pic, u8 2] else d
        let d := if ends then d.eventAt 0x0D0E sevInfo k [u8 k, u32 pic] else d
        let d := d.setFlag (F.DEC_STATUS_CONCEALED k) (fresh || (was && !ends))
        let bufs := max 1 (d.get (F.DEC_OUT_RING_BUFS k))
        let d := d.modDec k (fun x =>
          { x with input := x.input.eraseIdx p.au, lost := false, nextBuf := (x.nextBuf + 1) % bufs, nextPic := (pic + 1) % 2 ^ 32
                   good := if concealed then x.good else some planes
                   outs := let l := x.outs ++ [(x.nextBuf, pic, d.elapsed, concealed)]; l.drop (l.length - 64) })
        d.set (F.DEC_STATUS_STATE k) 2
    | _, _ => d)

end Sys2Proof.Machine
end

