-- ==== Sys2Proof/Machine/Raster.lean ====
section
/-!
DEFINITION. Rasters, the SDI mapper and panel links (R350-R373, R379-R382): timing, buffer selection, composition, latches,
underruns, freeze detection and readback.
-/
namespace Sys2Proof.Machine

/-- A raster beside its registers. -/
def Dev.rs (d : Dev) (r : Nat) : RasSt := elemAt d.ras r {}

/-- Changes a raster. -/
def Dev.modRs (d : Dev) (r : Nat) (f : RasSt → RasSt) : Dev := { d with ras := modifyAt d.ras r f }

/-- Whether a raster is a panel raster (R350). -/
def isPanel (r : Nat) : Bool := decide (4 ≤ r)

/-- The rasters that show Gecko path `p` (R374). -/
def Dev.gkRasters (d : Dev) (p : Nat) : List Nat :=
  [4, 5].filter (fun r => (d.rs r).run && d.eget (F.RAS_CFG_SRC r) = 1 && d.eget (F.RAS_CFG_GK_PORT r) = p)

/-- Whether a raster takes a Gecko path. -/
def Dev.gkMode (d : Dev) (r : Nat) : Bool := isPanel r && d.eget (F.RAS_CFG_SRC r) = 1

/-! ### Timing (R351, R352) -/

/-- EPOCH of a raster, an STIME. -/
def Dev.rasEpoch (d : Dev) (r : Nat) : Nat := d.get (F.RAS_EPOCH_LO_EPOCH r) + d.get (F.RAS_EPOCH_HI_EPOCH r) * 2 ^ 32

/-- ns from EPOCH to the start of frame `k` (R351). -/
def Dev.rasOffset (d : Dev) (r : Nat) (k : Int) : Int :=
  k * (d.eget (F.RAS_RATE_DEN r)) * nsPerS / max 1 (d.eget (F.RAS_RATE_NUM r))

/-- The first frame whose start lies at least `ahead` ns from now. -/
def Dev.rasFirst (d : Dev) (r ahead : Nat) : Int :=
  let x := stimeDiffNs d.stime (d.rasEpoch r) + ahead
  let den : Int := max 1 (d.eget (F.RAS_RATE_DEN r) * nsPerS)
  let k : Int := -((-(x * (d.eget (F.RAS_RATE_NUM r)))) / den)
  k

/-- The STIME at which the next frame of a raster starts: S_k and the offset of R364. -/
def Dev.rasNext (d : Dev) (r : Nat) : Nat := stimeAddNs (d.rasEpoch r) (d.rasOffset r (d.rs r).k + (d.rs r).off)

/-- A line period in ns. -/
def Dev.rasLineNs (d : Dev) (r : Nat) : Nat :=
  d.eget (F.RAS_RATE_DEN r) * nsPerS / max 1 (d.eget (F.RAS_RATE_NUM r) * d.eget (F.RAS_TIMING1_V_TOTAL r))

/-- `x` as a signed field that saturates. -/
def satSigned (bits : Nat) (x : Int) : Nat := toBits bits (clampInt x (-(2 ^ (bits - 1))) (2 ^ (bits - 1) - 1))

/-! ### Layers (R353-R358) -/

/-- The enabled layers of a raster that the last latch did not refuse, bottom first. -/
def Dev.layers (d : Dev) (r : Nat) : List Nat :=
  (List.range 8).filter (fun l => d.eget (F.RAS_LAY_CFG_EN r l) = 1 && !(d.rs r).bad.contains l)

def Dev.layKind (d : Dev) (r l : Nat) : Nat := d.eget (F.RAS_LAY_CFG_KIND r l)

/-- Whether a layer covers a line; its columns are [x, x + w). -/
def Dev.layOnLine (d : Dev) (r l y : Nat) : Bool :=
  let y0 := d.eget (F.RAS_LAY_POS_Y r l)
  decide (y0 ≤ y) && decide (y < y0 + d.eget (F.RAS_LAY_SIZE_H r l))

def Dev.laySpan (d : Dev) (r l : Nat) : Nat × Nat :=
  let x := d.eget (F.RAS_LAY_POS_X r l)
  (x, x + d.eget (F.RAS_LAY_SIZE_W r l))

/-- An opaque layer (R358): VIDEO or XRGB8888 with GA 255. -/
def Dev.layOpaque (d : Dev) (r l : Nat) : Bool :=
  d.eget (F.RAS_LAY_CFG_GA r l) = 255 &&
    (d.layKind r l = 0 || (d.layKind r l = 1 && d.eget (F.RAS_LAY_CFG_GFX_FMT r l) = 2))

/-- Whether a VIDEO or GRAPHICS layer is fetched on a line (R358): no single opaque layer above covers its whole span. -/
def Dev.layFetched (d : Dev) (r l y : Nat) : Bool :=
  d.layOnLine r l y &&
    !(d.layers r).any (fun m => decide (l < m) && d.layOpaque r m && d.layOnLine r m y &&
        decide ((d.laySpan r m).1 ≤ (d.laySpan r l).1) && decide ((d.laySpan r l).2 ≤ (d.laySpan r m).2))

/-- Whether a layer is fetched on any line of a frame. -/
def Dev.layUsed (d : Dev) (r l : Nat) : Bool :=
  (List.range (d.eget (F.RAS_TIMING0_V_ACTIVE r))).any (fun y => d.layFetched r l y)

/-- A raster layer as a holder of buffers (R355). -/
def holdRas (r l : Nat) : Nat := 3000 + 8 * r + l

/-- The buffers of a layer's source (R353): key and byte offset in DEV_STORE. -/
def Dev.srcBufs (d : Dev) (src : Nat) : List (Nat × Nat) :=
  if 0x80 ≤ src then
    let k := (src - 0x80) % 16
    (List.range (d.get (F.DEC_OUT_RING_BUFS k))).map (fun i => (decBufKey k i, d.decBufAt k i))
  else
    let n := src / 8
    let b := src % 8
    if 6 ≤ b then []
    else (List.range (d.get (F.COL_BR_OUT_RING_BUFS n b))).map (fun i => (brBufKey n b i, d.brBufAt n b i))

/-- The buffer that a VIDEO layer selects for a frame starting at STIME `t` (R354). -/
def Dev.selectBuf (d : Dev) (r l t : Nat) : Option ShownBuf :=
  let lim := stimeAddNs t (-((d.eget (F.RAS_LAY_DELAY_DELAY_US r l) * 1000 : Nat) : Int))
  (d.srcBufs (d.eget (F.RAS_LAY_CFG_SRC r l))).foldl (fun best b =>
    let trig := d.poolNat poolDev (b.2 + 0x10) 8
    if d.poolNat poolDev (b.2 + 0x3C) 4 ≠ 0 ∧ signed 64 (toBits 64 ((trig : Int) - lim)) ≤ 0 then
      let s : ShownBuf := { key := b.1, off := b.2, fseq := d.poolNat poolDev b.2 4, trig := trig }
      match best with
      | some x => if 0 < signed 64 (toBits 64 ((trig : Int) - x.trig)) then some s else best
      | none => some s
    else best) none

/-- Raises RAS_CFG_BAD for a register. -/
def Dev.rasCfgBad (d : Dev) (r addr : Nat) : Dev := d.eventAt 0x0E07 sevFault r [u32 addr]

/-- A layer is refused until the next latch (R353). -/
def Dev.refuseLayer (d : Dev) (r l : Nat) : Dev :=
  (((d.modRs r (fun x => { x with bad := x.bad ++ [l], shown := setAt x.shown l none })).releaseBy (holdRas r l)).rasCfgBad r
    (R.RAS_LAY_CFG r l))

/-- Whether a buffer's YCC, RANGE and TF are the raster's (R353). -/
def Dev.bufMatches (d : Dev) (r off : Nat) : Bool :=
  let yr := d.poolNat poolDev (off + 0x26) 1
  d.poolNat poolDev (off + 0x25) 1 = d.eget (F.RAS_FMT_TF r) && yr % 128 = d.eget (F.RAS_FMT_YCC r) &&
    yr / 128 = d.eget (F.RAS_FMT_RANGE r)

/-- The modes and conditions under which a raster selects fresh buffers: in BASK a raster with HOLD_LAST keeps scanning what
it holds, and one without outputs black (R381). -/
def Dev.rasScans (d : Dev) (r : Nat) : Bool := (d.rs r).run && (d.modeCode ≠ mBask || d.flag (F.RAS_CFG_HOLD_LAST r))

/-- The selection of a frame (R354, R355, R358). -/
def Dev.rasSelect (d : Dev) (r : Nat) : Dev :=
  let t := d.rasNext r
  let d := d.modRs r (fun x => { x with fetched := true, repeat0 := false })
  (List.range 8).foldl (fun d l =>
    let used := (d.layers r).contains l && d.layKind r l = 0 && d.layUsed r l
    if !used then
      (d.modRs r (fun x => { x with shown := setAt x.shown l none })).releaseBy (holdRas r l)
    else
      let old := (d.rs r).shown.getD l none
      let new := if d.modeCode = mBask then none else d.selectBuf r l t
      let newer := match new, old with
        | some n, some o => decide (0 < signed 64 (toBits 64 ((n.trig : Int) - o.trig)))
        | some _, none => true
        | none, _ => false
      match newer, new with
      | true, some n =>
        if d.bufMatches r n.off then
          let d := ((d.releaseBy (holdRas r l)).hold n.key (holdRas r l)).modRs r (fun x => { x with shown := setAt x.shown l (some n) })
          d.set (F.RAS_LAY_SHOWN_FSEQ r l) n.fseq
        else d.refuseLayer r l
      | _, _ =>
        if l = 0 ∧ old.isSome then
          (d.bump (F.RAS_CNT_REPEATS r)).modRs r (fun x => { x with repeat0 := true })
        else d) d

/-- RASTER_FETCH_START (R354): FETCH_LEAD line periods before S_k each VIDEO layer selects its buffer. -/
def execRasterFetchStart (r : Fin 6) (s : State) : Host.Outcome State Fault Refusal :=
  s.run (fun d =>
    if d.rasScans r && !d.gkMode r && !(d.rs r).fetched && (d.rs r).blackFrames = 0 then d.rasSelect r else d)

/-! ### Composition (R357) -/

/-- A sample of a developed or decoded picture as u16 components in 4:4:4 (R357). -/
def Dev.srcSample (d : Dev) (off x y : Nat) : Int × Int × Int :=
  let fmt := d.poolNat poolDev (off + 0x24) 1
  let w := d.poolNat poolDev (off + 0x20) 2
  let pl (i : Nat) : Nat := off + d.poolNat poolDev (off + 0x30 + 4 * i) 4 * 4096
  let pitch (i : Nat) : Nat := d.poolNat poolDev (off + 0x28 + 2 * i) 2
  let by_ (a : Nat) : Nat := d.poolNat poolDev a 1
  let s12 (i : Nat) : Nat :=
    let a := pl i + y * pitch i + x / 2 * 3
    (if x % 2 = 0 then by_ a + by_ (a + 1) % 16 * 256 else by_ (a + 1) / 16 + by_ (a + 2) * 16) * 16
  let s16 (i : Nat) : Nat := d.poolNat poolDev (pl i + y * pitch i + 2 * x) 2
  let wide : Bool := fmt = 2 || fmt = 3
  let luma : Nat := if wide then s16 0 else by_ (pl 0 + y * pitch 0 + x) * 256
  let cy := if fmt % 2 = 1 then y / 2 else y
  let cw := (w + 1) / 2
  let c (i k : Nat) : Nat :=
    if wide then d.poolNat poolDev (pl 1 + cy * pitch 1 + 4 * i + 2 * k) 2
    else by_ (pl 1 + cy * pitch 1 + 2 * i + k) * 256
  let up (k : Nat) : Nat :=
    if x % 2 = 0 then c (x / 2) k
    else if x / 2 + 1 < cw then (c (x / 2) k + c (x / 2 + 1) k + 1) / 2 else c (x / 2) k
  match fmt with
  | 0 => (s12 0, s12 1, s12 2)
  | 1 => (s16 0, s16 1, s16 2)
  | _ => (luma, up 0, up 1)

/-- A pixel of a graphics buffer: its alpha and its components in the raster's space (R353, R357). -/
def Dev.gfxSample (d : Dev) (r l x y : Nat) : Nat × (Int × Int × Int) :=
  let base := if d.eget (F.RAS_LAY_CFG_GFX_BUF r l) = 1 then d.eget (F.RAS_LAY_GFX1_BASE r l) else d.eget (F.RAS_LAY_GFX0_BASE r l)
  let w := d.poolNat poolHost (base * 4096 + y * d.eget (F.RAS_LAY_PITCH_PITCH r l) + 4 * x) 4
  let e8 (lo : Nat) : Int := Config.gfxComponent 8 (w / 2 ^ lo % 256) % 65536
  let e10 (lo : Nat) : Int := Config.gfxComponent 10 (w / 2 ^ lo % 1024) % 65536
  let ycc := d.eget (F.RAS_FMT_YCC r)
  let full : Bool := d.eget (F.RAS_FMT_RANGE r) = 1
  match d.eget (F.RAS_LAY_CFG_GFX_FMT r l) with
  | 0 => (w / 2 ^ 24 * 257, toYcc ycc full (e8 16, e8 8, e8 0))
  | 1 => (w / 2 ^ 30 * 21845, toYcc ycc full (e10 20, e10 10, e10 0))
  | _ => (65535, toYcc ycc full (e8 16, e8 8, e8 0))

/-- The three 10-bit components of a colour word, × 64 (R357). -/
def colour10 (c : Nat) : Int × Int × Int :=
  ((c % 1024 * 64 : Nat), (c / 2 ^ 10 % 1024 * 64 : Nat), (c / 2 ^ 20 % 1024 * 64 : Nat))

/-- Whether a guide draws the pixel (x, y) of its w × h rectangle (R353); `rep` says that layer 0 repeats. -/
def guideDrawn (kind : Nat) (rep : Bool) (w h x y : Nat) : Bool :=
  match kind with
  | 0 => decide (x < 4) || decide (w ≤ x + 4) || decide (y < 4) || decide (h ≤ y + 4)
  | 1 =>
    let dx := ((x : Int) - (w / 2 : Nat)).natAbs
    let dy := ((y : Int) - (h / 2 : Nat)).natAbs
    let half := Config.crossWidth / 2
    (decide (dx ≤ half) && decide (dy ≤ 64)) || (decide (dy ≤ half) && decide (dx ≤ 64))
  | _ => rep

/-- The blend of R357. -/
def blend (alpha ga : Nat) (top under : Int × Int × Int) : Int × Int × Int :=
  let a := (alpha * ga + 127) / 255
  let f (t u : Int) : Int := (a * t + (65535 - a : Int) * u + 32767) / 65535
  (f top.1 under.1, f top.2.1 under.2.1, f top.2.2 under.2.2)

/-- One pixel of the composed picture from `c0` upwards through the layers; `guides` composes guides alone (R374). -/
def Dev.composePixel (d : Dev) (r x y : Nat) (guides : Bool) (c0 : Int × Int × Int) : Int × Int × Int :=
  (d.layers r).foldl (fun c l =>
    let (xa, xz) := d.laySpan r l
    let y0 := d.eget (F.RAS_LAY_POS_Y r l)
    let ga := d.eget (F.RAS_LAY_CFG_GA r l)
    if !d.layOnLine r l y || x < xa || xz ≤ x then c
    else
      let sx := d.eget (F.RAS_LAY_SRC_XY_X r l) + (x - xa)
      let sy := d.eget (F.RAS_LAY_SRC_XY_Y r l) + (y - y0)
      match d.layKind r l with
      | 2 =>
        if guideDrawn (d.eget (F.RAS_LAY_CFG_GUIDE r l)) (d.rs r).repeat0 (xz - xa) (d.eget (F.RAS_LAY_SIZE_H r l)) (x - xa) (y - y0) then
          blend 65535 ga (colour10 (d.eget (F.RAS_LAY_COLOUR_COLOUR r l))) c
        else c
      | 1 =>
        if guides || !d.layFetched r l y then c
        else
          let (a, v) := d.gfxSample r l sx sy
          blend a ga v c
      | _ =>
        match (d.rs r).shown.getD l none with
        | some b => if guides || !d.layFetched r l y then c else blend 65535 ga (d.srcSample b.off sx sy) c
        | none => c) c0

/-- A line of the composed picture (R357); of a black frame or line, black in the raster's space. -/
def Dev.composeLine (d : Dev) (r y : Nat) : List (Int × Int × Int) :=
  let w := d.eget (F.RAS_TIMING0_H_ACTIVE r)
  if (d.rs r).black || 0 < (d.rs r).blackFrames || !d.rasScans r then
    List.replicate w (toYcc (d.eget (F.RAS_FMT_YCC r)) (d.eget (F.RAS_FMT_RANGE r) = 1) (0, 0, 0))
  else
    let bg := colour10 (d.eget (F.RAS_BG_COLOUR r))
    (List.range w).map (fun x => d.composePixel r x y false bg)

/-- The samples of an output line after quantisation without dither (R357, R211): a panel's components pixel by pixel; for
SDI the luma samples, then Cb and Cr of each even column after R210. -/
def Dev.outputLine (d : Dev) (r : Nat) (px : List (Int × Int × Int)) : List Nat :=
  if isPanel r then
    let depth := if d.eget (F.RAS_FMT_PL_DEPTH r) = 1 then 12 else 10
    px.flatMap (fun p => [quantise depth none p.1, quantise depth none p.2.1, quantise depth none p.2.2])
  else
    let w := px.length
    let cb : Grid := #[(px.map (·.2.1)).toArray]
    let cr : Grid := #[(px.map (·.2.2)).toArray]
    px.map (fun p => quantise 10 none p.1) ++
      ((List.range ((w + 1) / 2)).flatMap (fun i =>
        [quantise 10 none (chroma422 cb w (2 * i) 0), quantise 10 none (chroma422 cr w (2 * i) 0)]))

/-! ### Underruns and alignment groups (R362-R365) -/

/-- The members of a raster's alignment group, itself included (R365). -/
def Dev.rasGroup (d : Dev) (r : Nat) : List Nat :=
  let g := d.get (F.RAS_CFG_GROUP r)
  if g = 0 then [r]
  else (List.range 6).filter (fun m => d.get (F.RAS_CFG_GROUP m) = g && (d.rs m).run && isPanel m == isPanel r)

/-- One raster handles an underrun at line `y` in `what`: layer 0-7, 8 the SDI mapper, 9 the KSL-T FIFO, 10 a late Gecko
row (R362-R364, R378). -/
def Dev.underrunOne (d : Dev) (r y what : Nat) : Dev :=
  let d := d.bump (F.RAS_CNT_UNDERRUN r)
  let d := if !d.secOver (d.rs r).underSec then d
    else (d.eventAt 0x0E01 sevNotice r [u32 (d.get (F.RAS_FRAME_COUNT r)), u16 y, u8 what]).modRs r (fun x =>
      { x with underSec := d.elapsed + 1 })
  if isPanel r then
    -- FE with ABORT, IDLE for two line periods, a new frame
    let d := d.emit (.video 4 r [d.get (F.RAS_FRAME_COUNT r), y])
    if d.gkMode r then d.modRs r (fun x => { x with active := false, under := true, black := false })
    else
      let t := stimeAddNs d.stime (2 * d.rasLineNs r)
      let k := d.rasFirst r 0
      let off := stimeDiffNs t (stimeAddNs (d.rasEpoch r) (d.rasOffset r k))
      d.modRs r (fun x => { x with active := false, under := true, fetched := false, k := k, off := off })
  else d.modRs r (fun x => { x with black := true, under := true })

/-- A raster underruns; every member of its group handles it at the same line (R365). -/
def Dev.underrun (d : Dev) (r y what : Nat) : Dev :=
  (d.rasGroup r).foldl (fun d m => if (d.rs m).active then d.underrunOne m y what else d) d

/-- RASTER_LINE_FETCH (R356, R362): the fetch of output line `y` starts. A VIDEO layer whose source line is not complete is an
underrun, as is a FIFO that does not hold a sample: `fifo` is 1-8 for a layer's, 9 for the SDI mapper's, 10 for the KSL-T
FIFO, 0 for none. -/
def execRasterLineFetch (r : Fin 6) (y : Nat) (fifo : Fin 11) (s : State) : Host.Outcome State Fault Refusal :=
  s.run (fun d =>
    let x := d.rs r
    if !x.active || d.gkMode r || d.eget (F.RAS_TIMING0_V_ACTIVE r) ≤ y then d
    else if x.black || 0 < x.blackFrames || !d.rasScans r then
      d.emit (.video 1 r (d.get (F.RAS_FRAME_COUNT r) :: y :: d.outputLine r (d.composeLine r y)))
    else
      let late := (d.layers r).find? (fun l => d.layKind r l = 0 && d.layFetched r l y &&
        match x.shown.getD l none with
        | some b => decide (d.poolNat poolDev (b.off + 0xC) 4 ≤
            d.eget (F.RAS_LAY_SRC_XY_Y r l) + (y - d.eget (F.RAS_LAY_POS_Y r l)))
        | none => false)
      match late with
      | some l => d.underrun r y l
      | none =>
        if fifo.val ≠ 0 then d.underrun r y (fifo.val - 1)
        else d.emit (.video 0 r (d.get (F.RAS_FRAME_COUNT r) :: y :: d.outputLine r (d.composeLine r y))))

/-! ### Frames -/

/-- The phase error measured at a frame start (R352). -/
def Dev.rasPhase (d : Dev) (r : Nat) (phase : Int) : Dev :=
  let d := d.set (F.RAS_STATUS_PHASE_NS r) (satSigned 16 phase)
  let d := if 50 < phase.natAbs then d.modRs r (fun x => { x with lockFrom := d.elapsed }) else d
  if 1000 < phase.natAbs ∧ d.flag (F.RAS_STATUS_LOCKED r) = true then
    (d.setFlag (F.RAS_STATUS_LOCKED r) false).eventAt 0x0E06 sevNotice r [i32 phase]
  else d

/-- A raster frame starts at S_k (R351, R360, R363, R364): `audioOk` tells of an audio port whether a pair may take it (R369).
What goes out with the frame is its payload ID, its timecode and its audio pairs (R368-R370). -/
def Dev.rasFrameStart (d : Dev) (r : Nat) (phase : Int) (audioOk : Nat → Bool) : Dev :=
  if !(d.rs r).run || d.gkMode r then d
  else
    let d := d.rasPhase r phase
    let x := d.rs r
    let start := d.rasNext r
    let d := (d.bump (F.RAS_FRAME_COUNT r)).setFlag (F.RAS_STATUS_VBLANK r) false
    let d := if d.rasScans r && !x.fetched && x.blackFrames = 0 then d.rasSelect r else d
    let slew : Int := d.rasLineNs r * d.get (F.RAS_PANEL_V_SLEW r)
    let d := d.modRs r (fun x =>
      { x with active := true, black := false, under := false, fetched := false, start := start, k := x.k + 1
               off := x.off - clampInt x.off (-slew) slew })
    if isPanel r then
      let trig := match (d.rs r).shown.getD 0 none with
        | some b => b.trig % 2 ^ 48
        | none => 0
      d.emit (.video 2 r [r - 4, d.get (F.RAS_FRAME_COUNT r), trig])
    else
      let tcAt := if d.eget (F.SDI_RS_CFG_TC_SRC r) = 1 then
          match (d.rs r).shown.getD 0 none with
          | some b => b.trig
          | none => start
        else start
      let std := d.eget (F.SDI_RS_CFG_STD r)
      let aud := d.eget (F.SDI_RS_CFG_AUD_EN r) = 1 && (d.rs r).blackFrames = 0
      let pairs := if aud then (List.range 8).filter (fun k => d.eget (F.SDI_RS_AUD_EN r k) = 1) else []
      let bad := pairs.filter (fun k => !audioOk (d.eget (F.SDI_RS_AUD_AP r k)))
      let d := (bad.filter (fun k => !(d.rs r).audBad.contains k)).foldl (fun d k =>
        d.eventAt 0x0F01 sevNotice r [u8 r, u8 k, u8 (d.eget (F.SDI_RS_AUD_AP r k))]) d
      let d := d.modRs r (fun x => { x with audBad := bad })
      d.emit (.video 3 r ([std, d.eget (F.RAS_RATE_NUM r), d.eget (F.RAS_RATE_DEN r), d.eget (F.RAS_FMT_YCC r),
        d.eget (F.RAS_FMT_TF r), d.tcWord (d.stimeToNs tcAt)] ++
        pairs.flatMap (fun k => [k, if bad.contains k then 0xFF else d.eget (F.SDI_RS_AUD_AP r k)])))

/-- RAS_LOCK_ACQUIRED (R352): the phase error has stayed within 50 ns for 1 s. -/
def execRasLockAcquired (r : Fin 6) (s : State) : Host.Outcome State Fault Refusal :=
  s.run (fun d =>
    if (d.rs r).run && decide ((d.rs r).lockFrom + nsPerS ≤ d.elapsed) then d.setFlag (F.RAS_STATUS_LOCKED r) true else d)

/-! ### Shadows and COMMIT (R359-R361, R366) -/

/-- Requests a latch (R359). -/
def Dev.rasGo (d : Dev) (r : Nat) : Dev :=
  (d.setFlag (F.RAS_COMMIT_GO r) true).setFlag (F.RAS_STATUS_PENDING r) true

/-- RAS_COMMIT (R359): `RAS_RSn_COMMIT.GO` is written 1. -/
def execRasCommit (r : Fin 6) (s : State) : Host.Outcome State Fault Refusal :=
  s.hostCmd (R.RAS_COMMIT r) 1 (fun d => d.rasGo r)

/-- The fields of R360 that make a timing change, and R361 compares. -/
def timingFields (r : Nat) : List Fld :=
  [F.RAS_TIMING0_H_ACTIVE r, F.RAS_TIMING0_V_ACTIVE r, F.RAS_TIMING1_H_TOTAL r, F.RAS_TIMING1_V_TOTAL r, F.RAS_RATE_NUM r,
   F.RAS_RATE_DEN r, F.RAS_FMT_INTERLACE r, F.RAS_CFG_SRC r] ++
  (if isPanel r then [] else [F.SDI_RS_CFG_STD r, F.SDI_RS_CFG_MODE r])

/-- The registers of a raster, its layers and its SDI outputs that hold RWS fields, and the BLACK of the Gecko path that it
shows (R359). -/
def Dev.rasRegs (d : Dev) (r : Nat) : List Nat :=
  [R.RAS_CFG r, R.RAS_TIMING0 r, R.RAS_TIMING1 r, R.RAS_RATE r, R.RAS_FMT r, R.RAS_BG r, R.RAS_FRZ r, R.RAS_FRZ_XY r,
   R.RAS_FRZ_WH r] ++
  (List.range 8).flatMap (fun l => [R.RAS_LAY_CFG r l, R.RAS_LAY_POS r l, R.RAS_LAY_SIZE r l, R.RAS_LAY_SRC_XY r l,
    R.RAS_LAY_DELAY r l, R.RAS_LAY_GFX0 r l, R.RAS_LAY_GFX1 r l, R.RAS_LAY_PITCH r l, R.RAS_LAY_COLOUR r l]) ++
  (if isPanel r then [R.RAS_PANEL r, R.GK_BLACK (d.get (F.RAS_CFG_GK_PORT r))]
   else R.SDI_RS_CFG r :: ((List.range 8).map (R.SDI_RS_AUD r) ++ (List.range 4).map (fun k => R.SDI_CFG (4 * r + k))))

/-- Total lines and pixels of a standard at a frame rate (R366): the totals are those of the SMPTE standards that the table
names (PRESUMED, assumption 19). Rate as (numerator, denominator). -/
def sdiTotals (std w num den : Nat) : List (Nat × Nat) :=
  let is (n m : Nat) : Bool := num * m == n * den
  let r24 : Bool := is 24 1 || is 24000 1001
  let r30 : Bool := is 30 1 || is 30000 1001
  let r60 : Bool := is 60 1 || is 60000 1001
  let tot (a b c lines : Nat) (fast : Bool) : List (Nat × Nat) :=
    if fast then (if is 50 1 then [(b, lines)] else if r60 then [(c, lines)] else [])
    else (if r24 then [(a, lines)] else if is 25 1 then [(b, lines)] else if r30 then [(c, lines)] else [])
  match std with
  | 1 => if is 50 1 then [(1980, 750)] else if r60 then [(1650, 750)] else []
  | 2 => if is 25 1 then [(2640, 1125)] else if r30 then [(2200, 1125)] else []
  | 3 => tot 2750 2640 2200 1125 false
  | 4 => tot 2750 2640 2200 1125 true
  | 5 => if w = 3840 ∨ w = 4096 then tot 5500 5280 4400 2250 false else []
  | 6 => if w = 3840 ∨ w = 4096 then tot 5500 5280 4400 2250 true else []
  | 7 => tot 11000 10560 8800 4500 false ++ tot 11000 10560 8800 4500 true
  | _ => []

/-- The active areas of a standard (R366). -/
def sdiActive : Nat → List (Nat × Nat)
  | 1 => [(1280, 720)]
  | 2 | 3 | 4 => [(1920, 1080)]
  | 5 | 6 => [(3840, 2160), (4096, 2160)]
  | 7 => [(7680, 4320)]
  | _ => []

/-- The register that breaks the SDI standard of a raster, read through `g` (R366, R367). -/
def sdiBad (r : Nat) (g : Fld → Nat) : Option Nat :=
  let std := g (F.SDI_RS_CFG_STD r)
  let w := g (F.RAS_TIMING0_H_ACTIVE r)
  let links := (List.range 4).map (fun k => g (F.SDI_CFG_LINK (4 * r + k)))
  if std = 0 ∨ 8 ≤ std ∨ (std = 7) ≠ (g (F.SDI_RS_CFG_MODE r) = 1) then some (R.SDI_RS_CFG r)
  else if !(sdiActive std).contains (w, g (F.RAS_TIMING0_V_ACTIVE r)) then some (R.RAS_TIMING0 r)
  else if !(sdiTotals std w (g (F.RAS_RATE_NUM r)) (g (F.RAS_RATE_DEN r))).contains
      (g (F.RAS_TIMING1_H_TOTAL r), g (F.RAS_TIMING1_V_TOTAL r)) then some (R.RAS_TIMING1 r)
  else if (std = 2) ≠ (g (F.RAS_FMT_INTERLACE r) = 1) then some (R.RAS_FMT r)
  else if std = 7 ∧ !(List.range 4).all (fun m => links.contains m) = true then some (R.SDI_CFG (4 * r))
  else none

/-- The registers of a raster that are refused under RAS_CFG_BAD whatever its layers are, read through `g`: codes that the
tables refuse, a Gecko source on an SDI raster, a panel that is not R'G'B' (R372), a Gecko path whose output is not the active
area (R374). -/
def Dev.rasBadReg (d : Dev) (r : Nat) (g : Fld → Nat) : Option Nat :=
  let p := g (F.RAS_CFG_GK_PORT r)
  let gk := g (F.RAS_CFG_SRC r) = 1
  let bx := d.get (F.GK_CFG_BX p)
  let by_ := d.get (F.GK_CFG_BY p)
  if gk ∧ isPanel r = false then some (R.RAS_CFG r)
  else if isPanel r ∧ g (F.RAS_PANEL_PL_LANES r) = 3 then some (R.RAS_PANEL r)
  else if isPanel r ∧ g (F.RAS_FMT_YCC r) ≠ 0 then some (R.RAS_FMT r)
  else if g (F.RAS_FMT_TF r) = 7 then some (R.RAS_FMT r)
  else if gk ∧ (bx = 3 ∨ by_ = 3 ∨ d.flag (F.GK_CFG_EN p) = false) then some (R.GK_CFG p)
  else if gk ∧ (d.get (F.GK_WIN_WH_W p) / 2 ^ bx ≠ g (F.RAS_TIMING0_H_ACTIVE r)
      ∨ d.get (F.GK_WIN_WH_H p) / 2 ^ by_ ≠ g (F.RAS_TIMING0_V_ACTIVE r)) then some (R.GK_WIN_WH p)
  else none

/-- Whether a layer's codes are refused, or its branch differs from the raster (R353). -/
def Dev.layBad (d : Dev) (r l : Nat) : Bool :=
  let kind := d.layKind r l
  let src := d.eget (F.RAS_LAY_CFG_SRC r l)
  let n := src / 8
  let b := src % 8
  d.eget (F.RAS_LAY_CFG_EN r l) = 1 &&
    (kind = 3 || (kind = 1 && d.eget (F.RAS_LAY_CFG_GFX_FMT r l) = 3) || (kind = 2 && d.eget (F.RAS_LAY_CFG_GUIDE r l) = 3) ||
     (kind = 0 && (decide (0x90 ≤ src) || (decide (src < 0x80) &&
       (6 ≤ b || 2 ≤ d.get (F.COL_BR_CFG_KIND n b) || d.get (F.COL_BR_CFG_TF n b) ≠ d.eget (F.RAS_FMT_TF r) ||
        d.get (F.COL_BR_CFG_YCC n b) ≠ d.eget (F.RAS_FMT_YCC r) || d.get (F.COL_BR_CFG_RANGE n b) ≠ d.eget (F.RAS_FMT_RANGE r))))))

/-- The layers that the latch refuses. -/
def Dev.checkLayers (d : Dev) (r : Nat) : Dev :=
  let d := d.modRs r (fun x => { x with bad := [] })
  ((List.range 8).filter (fun l => d.layBad r l)).foldl (fun d l => d.refuseLayer r l) d

/-- Shows what the outputs of an SDI raster carry. -/
def Dev.showSdi (d : Dev) (r : Nat) (on : Bool) : Dev :=
  if isPanel r then d
  else (List.range 4).foldl (fun d k =>
    let o := 4 * r + k
    let act := on && d.flag (F.SDI_CFG_EN o)
    (d.setFlag (F.SDI_STATUS_ACTIVE o) act).set (F.SDI_STATUS_STD o) (if act then d.eget (F.SDI_RS_CFG_STD r) else 0)) d

/-- Latches a raster's shadows at a vertical blanking (R359-R361, R366). -/
def Dev.rasLatch (d : Dev) (r : Nat) : Dev :=
  let sh (f : Fld) : Nat := d.get f
  let old (f : Fld) : Nat := d.eget f
  let tf := timingFields r
  let others := (d.rasGroup r).filter (· ≠ r)
  let split := others.any (fun m => (tf.zip (timingFields m)).any (fun q =>
    sh q.1 ≠ (if d.flag (F.RAS_COMMIT_GO m) then d.get q.2 else d.eget q.2)))
  let badSdi := if isPanel r then none else sdiBad r sh
  let badReg := d.rasBadReg r sh
  let keep := split || badSdi.isSome || badReg.isSome
  let oldVals := tf.map old
  let before := (old (F.RAS_TIMING0_H_ACTIVE r), old (F.RAS_TIMING0_V_ACTIVE r), old (F.RAS_RATE_NUM r), old (F.RAS_RATE_DEN r))
  let d := d.latchAll (d.rasRegs r)
  -- timing that is withheld or refused stays as it was
  let d := if keep then (tf.zip oldVals).foldl (fun d q =>
      d.setEff q.1.addr ((d.effWord q.1.addr).setField q.1.lo q.1.width q.2)) d else d
  let d := (d.setFlag (F.RAS_COMMIT_GO r) false).setFlag (F.RAS_STATUS_PENDING r) false
  let d := { d with mode := { d.mode with autoLatch := d.mode.autoLatch.filter (· ≠ 200 + r) } }
  let d := if split then d.eventAt 0x0E0A sevNotice r [u8 (d.get (F.RAS_CFG_GROUP r))] else d
  let d := match badSdi with
    | some a => d.eventAt 0x0F02 sevFault r [u8 r, u32 a]
    | none => d
  let d := match badReg with
    | some a => d.rasCfgBad r a
    | none => d
  let d := d.checkLayers r
  if keep || decide (tf.map (fun f => d.eget f) = oldVals) then d
  else
    let d := d.eventAt 0x0E08 sevInfo r
      [u16 before.1, u16 before.2.1, u16 before.2.2.1, u16 before.2.2.2, u16 (d.eget (F.RAS_TIMING0_H_ACTIVE r)),
       u16 (d.eget (F.RAS_TIMING0_V_ACTIVE r)), u16 (d.eget (F.RAS_RATE_NUM r)), u16 (d.eget (F.RAS_RATE_DEN r))]
    let d := d.modRs r (fun x =>
      { x with k := d.rasFirst r 1000000, off := 0, fetched := false, blackFrames := if isPanel r then 0 else 2 })
    if isPanel r then d.emit (.video 5 r [d.get (F.RAS_PANEL_TRAIN_US r)]) else d.showSdi r true

/-- RASTER_VBLANK (R359): vertical blanking begins; a pending request, or the shadows of overlay records, latch. -/
def execRasterVblank (r : Fin 6) (s : State) : Host.Outcome State Fault Refusal :=
  s.run (fun d =>
    if !(d.rs r).run then d
    else
      let d := (d.setFlag (F.RAS_STATUS_VBLANK r) true).modRs r (fun x => { x with active := false, blackFrames := x.blackFrames - 1 })
      if d.flag (F.RAS_COMMIT_GO r) || d.mode.autoLatch.contains (200 + r.val) then d.rasLatch r else d)

/-! ### Freeze detection and readback (R379, R380) -/

/-- The signature of the window of the composed picture (R379); a stored size of 0 means the active area. -/
def Dev.rasSig (d : Dev) (r : Nat) : Nat :=
  let x0 := d.eget (F.RAS_FRZ_XY_X r)
  let y0 := d.eget (F.RAS_FRZ_XY_Y r)
  let sz (v all : Nat) : Nat := if v = 0 then all else v
  let w := sz (d.eget (F.RAS_FRZ_WH_W r)) (d.eget (F.RAS_TIMING0_H_ACTIVE r))
  let h := sz (d.eget (F.RAS_FRZ_WH_H r)) (d.eget (F.RAS_TIMING0_V_ACTIVE r))
  let line (y : Nat) : List (Int × Int × Int) :=
    if d.gkMode r then (d.gkp (d.eget (F.RAS_CFG_GK_PORT r))).comp.getD y [] else d.composeLine r y
  crc32c ((List.range h).flatMap (fun j => (((line (y0 + j)).drop x0).take w).flatMap (fun c =>
    bytesLE 2 c.1.toNat ++ bytesLE 2 c.2.1.toNat ++ bytesLE 2 c.2.2.toNat)))

/-- The source time of the freeze detector: none where its layer shows no buffer. -/
def Dev.rasSrc (d : Dev) (r : Nat) : Option Nat :=
  if d.gkMode r then ((d.gkp (d.eget (F.RAS_CFG_GK_PORT r))).frame).map (·.2.2)
  else ((d.rs r).shown.getD (d.eget (F.RAS_FRZ_LAYER r)) none).map (·.trig)

/-- The freeze procedure of R379. -/
def Dev.rasFreeze (d : Dev) (r : Nat) : Dev :=
  match d.rasSrc r with
  | none => d
  | some src =>
    let x := d.rs r
    if signed 64 (toBits 64 ((src : Int) - x.lastSrc)) ≤ 0 then d
    else
      let sig := d.rasSig r
      let same := if sig = x.lastSig then min (x.same + 1) 255 else 0
      let frozen := d.flag (F.RAS_STATUS_FROZEN r)
      let n := d.get (F.RAS_FRAME_COUNT r)
      let d := (d.modRs r (fun x => { x with lastSig := sig, lastSrc := src, same := same })).set (F.RAS_SIG_SIG r) sig
      if same = d.eget (F.RAS_FRZ_FRAMES r) ∧ frozen = false then
        (d.setFlag (F.RAS_STATUS_FROZEN r) true).eventAt 0x0E02 sevDegraded r [u32 n, u32 sig]
      else if same = 0 ∧ frozen = true then
        (d.setFlag (F.RAS_STATUS_FROZEN r) false).eventAt 0x0E03 sevInfo r [u32 n]
      else d

/-- RASTER_FRAME_END (R379, R380): the last active line of a frame has ended; `mism` of its lines failed readback. -/
def execRasterFrameEnd (r : Fin 6) (mism : Nat) (s : State) : Host.Outcome State Fault Refusal :=
  s.run (fun d =>
    let x := d.rs r
    if !x.active then d
    else
      let d := if d.eget (F.RAS_FRZ_EN r) = 1 && !x.under then d.rasFreeze r else d
      if isPanel r && d.flag (F.RAS_RB_RB_EN r) then
        let d := d.add (F.RAS_RB_CNT_MISMATCH r) mism
        if d.get (F.RAS_RB_RB_LIMIT r) ≤ mism ∧ 0 < mism then
          d.eventAt 0x0E04 sevDegraded r [u32 (d.get (F.RAS_FRAME_COUNT r)), u16 mism]
        else d
      else d)

/-- RB_LOCK_TIMEOUT (R380): a readback lane lacks block lock for 1 µs. -/
def execRbLockTimeout (r : Fin 6) (lanes : Fin 16) (s : State) : Host.Outcome State Fault Refusal :=
  s.run (fun d =>
    if isPanel r && (d.rs r).run && d.flag (F.RAS_RB_RB_EN r) then
      (d.bump (F.RAS_RB_CNT_LOST r)).eventAt 0x0E05 sevFault r [u8 lanes]
    else d)

/-! ### The Gecko path (R374-R378) -/

/-- The LUT of a Gecko path (R374 stage 4). -/
def Dev.gkLut (d : Dev) (p c : Nat) (v : Int) : Int :=
  let t (i : Nat) : Int :=
    let f := if i % 2 = 0 then F.GK_LUT_ENTRY_EVEN p c (i / 2) else F.GK_LUT_ENTRY_ODD p c (i / 2)
    d.eget f
  let n := v.toNat
  let i := n / 128
  if 511 ≤ i then t 511 else t i + sar ((t (i + 1) - t i) * (n % 128 : Nat) + 64) 7

/-- The demosaic of stage 2 at (x, y): the mean, rounded half up, of the neighbours of the missing colour (R374). -/
def gkDemosaic (g : Grid) (w h cfa x y : Nat) : Int × Int × Int :=
  let c := cfaAt cfa x y
  let p (dx dy : Int) : Int := g.refl w h ((x : Int) + dx) ((y : Int) + dy)
  let horiz := (p (-1) 0 + p 1 0 + 1) / 2
  let vert := (p 0 (-1) + p 0 1 + 1) / 2
  let orth := (p (-1) 0 + p 1 0 + p 0 (-1) + p 0 1 + 2) / 4
  let diag := (p (-1) (-1) + p 1 (-1) + p (-1) 1 + p 1 1 + 2) / 4
  let me := p 0 0
  match c with
  | 0 => (me, orth, diag)
  | 3 => (diag, orth, me)
  | 1 => (horiz, me, vert)
  | _ => (vert, me, horiz)

/-- Output row `j` of a Gecko path before guides (R374 stages 1 to 4). -/
def Dev.gkRow (d : Dev) (p j : Nat) : List (Int × Int × Int) :=
  let w := d.get (F.GK_WIN_WH_W p)
  let h := d.get (F.GK_WIN_WH_H p)
  let bx : Nat := 2 ^ d.get (F.GK_CFG_BX p)
  let by_ : Nat := 2 ^ d.get (F.GK_CFG_BY p)
  let black : Int := d.eget (F.GK_BLACK_BLACK p)
  let rows := (d.gkp p).rows
  let g : Grid := ((List.range h).map (fun r =>
    match rows.find? (fun k => k.r == r) with
    | some k => (k.px.map (fun (v : Nat) => max 0 ((v : Int) - black))).toArray
    | none => #[])).toArray
  let n : Nat := bx * by_
  (List.range (w / bx)).map (fun i =>
    let px := (List.range by_).flatMap (fun dy => (List.range bx).map (fun dx =>
      gkDemosaic g w h (d.get (F.GK_CFG_CFA p)) (i * bx + dx) (j * by_ + dy)))
    let mean (sel : Int × Int × Int → Int) : Int := ((px.map sel).foldl (· + ·) 0 + n / 2) / n
    (d.gkLut p 0 (mean (·.1)), d.gkLut p 1 (mean (·.2.1)), d.gkLut p 2 (mean (·.2.2))))

/-- The release of output row `j` in ns of DTIME: N_(y+1) + T_L (R375). -/
def Dev.gkRelease (d : Dev) (p j fs : Nat) : Nat :=
  let y := (j + 1) * 2 ^ d.get (F.GK_CFG_BY p) - 1
  fs + d.get (F.GK_ROW0_ROW0_NS p) + (y + 2) * d.get (F.GK_LINE_T_LINE p) / 16

/-- GECKO_ROW_RELEASE (R375, R378): the next output row of path `p` reaches its release. A row whose last pixel came later
than 32 ns (32 PIX cycles) before it, or not at all, is late; one that depends on a damaged row repeats the row before. -/
def execGeckoRowRelease (p : Fin 8) (s : State) : Host.Outcome State Fault Refusal :=
  s.run (fun d =>
    let g := d.gkp p
    let h := d.get (F.GK_WIN_WH_H p)
    let by_ := 2 ^ d.get (F.GK_CFG_BY p)
    let j := g.next
    match g.frame with
    | none => d
    | some (fs, fseq, _) =>
      if h / by_ ≤ j then d
      else
        let last := min ((j + 1) * by_) (h - 1)
        let need := (List.range (last + 1)).filter (fun r => decide (j * by_ ≤ r + 1))
        let have_ := need.filterMap (fun r => g.rows.find? (fun k => k.r == r))
        let late := decide (have_.length < need.length) ||
          have_.any (fun k => decide (d.gkRelease p j fs < k.at_ + 32))
        let outs := d.gkRasters p
        if late then
          let d := d.bump (F.GK_CNT_LATE p)
          let d := if !d.secOver g.lateSec then d
            else (d.eventAt 0x0E09 sevNotice p [u8 p, u32 fseq, u16 last]).modGk p (fun g => { g with lateSec := d.elapsed + 1 })
          let d := d.modGk p (fun g => { g with frame := none })
          outs.foldl (fun d r => d.underrun r j 10) d
        else
          let damaged := have_.any (·.damaged)
          let w := d.get (F.GK_WIN_WH_W p) / 2 ^ d.get (F.GK_CFG_BX p)
          let prev := if j = 0 then List.replicate w (0, 0, 0) else g.comp.getD (j - 1) []
          let d := if damaged then d.bump (F.GK_CNT_DAMAGED_ROWS p) else d
          let base := if damaged then prev else d.gkRow p j
          let row := match outs with
            | r :: _ => if damaged then base
                else base.zipIdx.map (fun q => d.composePixel r q.2 j true q.1)
            | [] => base
          let d := d.modGk p (fun g => { g with next := j + 1, comp := g.comp ++ [row] })
          outs.foldl (fun d r =>
            let d := if j = 0 then
                ((d.bump (F.RAS_FRAME_COUNT r)).setFlag (F.RAS_STATUS_VBLANK r) false).modRs r (fun x =>
                  { x with active := true, under := false, black := false })
              else d
            d.emit (.video 0 r (d.get (F.RAS_FRAME_COUNT r) :: j :: d.outputLine r row))) d)

/-- GECKO_FS_MISSING (R378): no frame start within GK_MISS_US of the expected one: the link sends HOLD_FRAME, CTRL subtype 0x12
with bytes 2 to 6 zero (R372). -/
def execGeckoFsMissing (p : Fin 8) (s : State) : Host.Outcome State Fault Refusal :=
  s.run (fun d =>
    if d.flag (F.GK_CFG_EN p) then
      (d.gkRasters p).foldl (fun d r => d.emit (.video 6 r [0x12, 0, 0, 0, 0, 0])) d
    else d)

/-! ### Start and stop -/

/-- A raster starts at mode entry (R351, R381): its shadows are in effect, and it starts at the first S_k at least 1 ms ahead. -/
def Dev.rasStart (d : Dev) (r : Nat) : Dev :=
  let d := d.latchAll (d.rasRegs r)
  let d := (d.setFlag (F.RAS_COMMIT_GO r) false).setFlag (F.RAS_STATUS_PENDING r) false
  let sh (f : Fld) : Nat := d.get f
  let bad := (if isPanel r then none else sdiBad r sh, d.rasBadReg r sh)
  match bad with
  | (some a, _) => (d.eventAt 0x0F02 sevFault r [u8 r, u32 a]).refuse (R.RAS_CFG r)
  | (none, some a) => (d.rasCfgBad r a).refuse (R.RAS_CFG r)
  | (none, none) =>
    let d := d.modRs r (fun _ =>
      { run := true, k := d.rasFirst r 1000000, blackFrames := if isPanel r then 0 else 2, lockFrom := d.elapsed })
    let d := d.checkLayers r
    if isPanel r then d.emit (.video 5 r [d.get (F.RAS_PANEL_TRAIN_US r)]) else d.showSdi r true

/-- A raster stops: its outputs go to electrical idle, its buffers are released (R381). -/
def Dev.rasStop (d : Dev) (r : Nat) : Dev :=
  if !(d.rs r).run then d
  else
    let d := (List.range 8).foldl (fun d l => d.releaseBy (holdRas r l)) d
    let d := (d.modRs r (fun _ => {})).setWord (R.RAS_STATUS r) 0
    ((d.setFlag (F.RAS_COMMIT_GO r) false).showSdi r false).emit (.video 7 r [])

/-- Every raster stops. -/
def Dev.rasStopAll (d : Dev) : Dev := (List.range 6).foldl Dev.rasStop d

end Sys2Proof.Machine
end

