-- ==== Sys2Proof/Machine/TimeServo.lean ====
section
/-!
DEFINITION. Device time (R383-R392): the PTP clock, its servo and its messages, steps, and the exposure-trigger schedules,
pulses and timecode that device time drives (R393-R398).
-/
namespace Sys2Proof.Machine

/-! ### The clock -/

/-- Changes the state of device time. -/
def Dev.modTime (d : Dev) (f : TimeSt → TimeSt) : Dev := { d with time := f d.time }

/-- The states of R390. -/
def tsFree : Nat := 0
def tsAcquiring : Nat := 1
def tsLocked : Nat := 2
def tsHoldover : Nat := 3
def Dev.timeState (d : Dev) : Nat := d.get F.TIME_STATUS_STATE

/-- The nominal increment in 2^-24 ns (R385). -/
def Dev.nominalIncr (d : Dev) : Nat := if d.get F.CLK_DIV_CFG_DIV = 1 then 0x08000000 else 0x04000000

/-- A value in 2^-16 ns to the nearest ns, halves away from 0. -/
def q16ToNs (x : Int) : Int := if x < 0 then -((-x + 32768) / 65536) else (x + 32768) / 65536

/-- A signed 32-bit item that saturates (R406). -/
def s32Item (x : Int) : Item := (4, satS32 x)
where
  /-- Saturation to 32 signed bits. -/
  satS32 (x : Int) : Nat := toBits 32 (clampInt x (-2147483648) 2147483647)

/-- STATE changes; leaving LOCKED raises TIME_UNLOCKED with the last offset (R390). -/
def Dev.setTimeState (d : Dev) (st : Nat) : Dev :=
  let old := d.timeState
  let d := (d.set F.TIME_STATUS_STATE st).modTime (fun t => { t with good := 0, bad := 0 })
  if old = tsLocked ∧ st ≠ tsLocked then d.event 0x1102 sevNotice [s32Item (q16ToNs d.time.offset)] else d

/-- The mean increment of the last 16 Sync periods (R390); the present one where there is none. -/
def Dev.meanIncr (d : Dev) : Nat :=
  if d.time.incrs.isEmpty then d.get F.TIME_INCR_INCR else sumNat d.time.incrs / d.time.incrs.length

/-- Device time enters HOLDOVER (R390): the increment is frozen at the mean of the last 16 Sync periods. -/
def Dev.timeHoldover (d : Dev) (cause : Nat) : Dev :=
  let d := d.setTimeState tsHoldover
  (d.set F.TIME_INCR_INCR d.meanIncr).event 0x1103 sevNotice [u8 cause]

/-- The counting of device time moves to the always-on domain (R386). -/
def Dev.timeToAlwaysOn (d : Dev) : Dev :=
  let st := d.timeState
  if st = tsFree then d
  else if st = tsLocked then d.timeHoldover 3
  else d.setTimeState tsHoldover

/-! ### Steps (R391, R392) -/

/-- Whether a trigger schedule runs. -/
def Dev.anyTrigRuns (d : Dev) : Bool := (List.range 8).any (fun p => d.trigRuns p)

/-- Open slots that have not accepted an FS are declared missing (R392, R129). -/
def Dev.missSlots : Nat → Dev → Nat → Dev
  | 0, d, _ => d
  | fuel + 1, d, n => if (d.ctx n).slots.isEmpty then d else Dev.missSlots fuel (d.slotMissing n) n

/-- A step of device time by `delta` in 2^-24 ns, with its effects (R391, R392, R414). -/
def Dev.timeStep (d : Dev) (delta : Int) : Dev :=
  let era : Int := 2 ^ 48 * 1000000000 * 2 ^ 24
  let ns := q16ToNs (delta / 256)
  let d := d.modTime (fun t => { t with dt := (((t.dt : Int) + delta) % era).toNat, good := 0, ms := none })
  let d := (d.setFlag F.TIME_STATUS_STEP_PENDING false).event 0x1104 sevNotice [s32Item ns]
  let d := (List.range 16).foldl (fun d n => Dev.missSlots (d.ctx n).slots.length d n) d
  let d := (List.range 8).foldl (fun d p => if d.trigRuns p then d.schedStart p else d) d
  let d := { d with net := { d.net with tx := d.net.tx.map (fun (e : Nat × TxSt) => (e.1, { e.2 with k := none, next := none })) } }
  d.audStep ns

/-- The deferred step is made, at the offset of the most recent Sync; below STEP_NS none is made (R391). -/
def Dev.stepDeferred (d : Dev) : Dev :=
  if !d.flag F.TIME_STATUS_STEP_PENDING then d
  else if d.time.offset.natAbs < d.get F.PTP_STEP_NS_STEP_NS * 65536 then d.setFlag F.TIME_STATUS_STEP_PENDING false
  else d.timeStep (-d.time.offset * 256)

/-- The servo at a Sync with a measured offset in 2^-16 ns (R390, R391). The PI loop's gains are not given: the increment it
sets is a free value within SLEW_PPM of nominal (R385). -/
def Dev.servo (d : Dev) (leader : Nat) (off : Int) : Dev :=
  let d := d.modTime (fun t => { t with offset := off })
  let ns := q16ToNs off
  let d := d.set F.TIME_OFFSET_OFFSET_NS (toBits 32 (clampInt ns (-2147483648) 2147483647))
  let acquiring := d.timeState = tsAcquiring
  if acquiring ∧ d.get F.PTP_STEP_NS_STEP_NS * 65536 ≤ off.natAbs ∧ (d.anyTrigRuns = false ∨ d.time.everLocked = false) then
    d.timeStep (-off * 256)
  else
    let d := if acquiring ∧ d.get F.PTP_STEP_NS_STEP_NS * 65536 ≤ off.natAbs ∧ d.flag F.TIME_STATUS_STEP_PENDING = false then
        (d.setFlag F.TIME_STATUS_STEP_PENDING true).event 0x1105 sevNotice [s32Item ns]
      else d
    let nom := d.nominalIncr
    let lim := nom * min 500 (d.get F.PTP_SERVO_SLEW_PPM) / 1000000
    let incr := nom - lim + d.free % (2 * lim + 1)
    let d := ((d.set F.TIME_INCR_INCR incr).tookFree 1).modTime (fun t => { t with incrs := (incr :: t.incrs).take 16 })
    if d.timeState = tsAcquiring then
      let good := if off.natAbs ≤ d.get F.PTP_SERVO_LOCK_NS * 65536 then d.time.good + 1 else 0
      let d := d.modTime (fun t => { t with good := good })
      if 16 ≤ good then
        ((d.setTimeState tsLocked).modTime (fun t => { t with everLocked := true })).event 0x1101 sevInfo [u64 leader, s32Item ns]
      else d
    else if d.timeState = tsLocked then
      let bad := if d.get F.PTP_SERVO_UNLOCK_NS * 65536 < off.natAbs then d.time.bad + 1 else 0
      let d := d.modTime (fun t => { t with bad := bad })
      if 4 ≤ bad then d.timeHoldover 2 else d
    else d

/-! ### PTP messages (R387-R390) -/

/-- PTP runs: enabled, a role that the spec gives, and the core clocks count device time. -/
def Dev.ptpOn (d : Dev) : Bool := d.flag F.PTP_CFG_EN && d.get F.PTP_CFG_ROLE ≠ 3 && d.modeCode ≠ mBrumate

/-- The interface of the PTP port (R388). -/
def Dev.ptpIf (d : Dev) : Nat := if d.flag F.TIME_STATUS_PORT_B_ACTIVE then d.get F.PTP_CFG_PORT_B else d.get F.PTP_CFG_PORT_A

/-- The interface that listens, if PORT_B names one on the other Ethernet port (R388). -/
def Dev.ptpOther (d : Dev) : Option Nat :=
  let a := d.get F.PTP_CFG_PORT_A
  let b := d.get F.PTP_CFG_PORT_B
  if b < 8 ∧ a / 4 ≠ b / 4 then some (if d.flag F.TIME_STATUS_PORT_B_ACTIVE then a else b) else none

/-- This clock's identity: the EUI-64 of the MAC address of interface PORT_A (R387). -/
def Dev.clockIdentity (d : Dev) : Nat :=
  let i := d.get F.PTP_CFG_PORT_A
  let mac := d.get (F.NET_IF_MAC_HI_MAC i) * 2 ^ 32 + d.get (F.NET_IF_MAC_LO_MAC i)
  mac / 2 ^ 24 * 2 ^ 40 + 0xFFFE * 2 ^ 24 + mac % 2 ^ 24

/-- The data set of a clock in the order of the comparison (R387): lower wins. -/
def PtpAnnounce.rank (a : PtpAnnounce) : List Nat := [a.prio1, a.cls, a.acc, a.var, a.prio2, a.gm, a.steps, a.src]

/-- Lexicographic comparison. -/
def lexLt : List Nat → List Nat → Bool
  | a :: as, b :: bs => decide (a < b) || (a == b && lexLt as bs)
  | [], _ :: _ => true
  | _, [] => false

/-- This clock's own data set (R387). -/
def Dev.ownData (d : Dev) : PtpAnnounce :=
  { src := d.clockIdentity, domain := d.get F.PTP_CFG_DOMAIN, prio1 := d.get F.PTP_PRIO_PRIORITY1, cls := d.get F.PTP_PRIO_CLOCK_CLASS
    acc := 0xFE, var := 0xFFFF, prio2 := d.get F.PTP_PRIO_PRIORITY2, gm := d.clockIdentity, steps := 0, utc := none, sm := none }

/-- The best leader heard on an interface. -/
def Dev.bestOn (d : Dev) (i : Nat) : Option PtpAnnounce :=
  (d.time.ann.filter (fun a => a.1 == i)).foldl (fun best a =>
    match best with
    | some b => if lexLt (PtpAnnounce.rank a.2) (PtpAnnounce.rank b) then some a.2 else best
    | none => some a.2) none

/-- The selected leader, where this clock follows one (R388). -/
def Dev.leaderOf (d : Dev) : Option PtpAnnounce :=
  if !d.ptpOn || d.get F.PTP_CFG_ROLE = 2 || d.flag F.TIME_STATUS_LEADER then none else d.bestOn d.ptpIf

/-- Whether BMCA chooses this clock: always in ROLE 2; in ROLE 1 where no clock heard is better. -/
def Dev.ownWins (d : Dev) : Bool :=
  match d.get F.PTP_CFG_ROLE with
  | 2 => true
  | 1 => match d.bestOn d.ptpIf with
    | some b => lexLt (PtpAnnounce.rank d.ownData) (PtpAnnounce.rank b)
    | none => true
  | _ => false

/-- Follows a change of the clock that BMCA chooses (R388, R390). -/
def Dev.setLeader (d : Dev) (own : Bool) : Dev :=
  if own = d.flag F.TIME_STATUS_LEADER then d
  else
    let d := d.setFlag F.TIME_STATUS_LEADER own
    let d := if own && d.timeState ≠ tsFree then (d.setTimeState tsFree).set F.TIME_INCR_INCR d.nominalIncr else d
    d.event 0x1106 sevInfo [u8 (b2n own)]

/-- A message timestamp in 2^-16 ns (R389): the counter, `half` steps of 0.5 ns since its last update, and the latency of
the port's direction. -/
def Dev.ptpStamp (d : Dev) (i half : Nat) (ingress : Bool) : Int :=
  let x := i / 4
  let raw : Int := d.time.dt / 256 + half * 32768
  if ingress then raw - signed 32 (d.get (F.NET_ING_LAT_LAT x)) * 256 else raw + signed 32 (d.get (F.NET_EGR_LAT_LAT x)) * 256

/-- The median of path delays: of an even count, the mean of the middle two, rounded down. -/
def medianInt (l : List Int) : Option Int :=
  let s := l.mergeSort (fun a b => decide (a ≤ b))
  match s.length with
  | 0 => none
  | n => if n % 2 = 1 then s[n / 2]? else
    match s[n / 2 - 1]?, s[n / 2]? with
    | some a, some b => some ((a + b) / 2)
    | _, _ => none

/-- A Sync from the selected leader is complete (R390): `t1` in 2^-16 ns, `t2` and the correction. -/
def Dev.syncDone (d : Dev) (leader : Nat) (t1 t2 corr : Int) : Dev :=
  let d := if d.timeState = tsFree ∨ d.timeState = tsHoldover then d.setTimeState tsAcquiring else d
  let ms := t2 - t1 - corr
  let d := d.modTime (fun t => { t with ms := some ms })
  match medianInt d.time.delays with
  | some m => d.servo leader (ms - m)
  | none => d

/-- PTP_SYNC_RX (R387, R389, R390): a Sync arrives on interface `i`: its domain, sender and sequence; whether it is two-step;
originTimestamp `t1` in ns and correctionField `corr` in 2^-16 ns; `half` 0.5 ns steps since the time counter's update. -/
def execPtpSyncRx (netIf : Fin 8) (domain src seq : Nat) (twoStep : Bool) (t1 : Nat) (corr : Int) (half : Fin 16) (s : State) :
    Host.Outcome State Fault Refusal :=
  s.run (fun d =>
    match d.leaderOf with
    | none => d
    | some l =>
      if d.ptpIf ≠ netIf ∨ domain ≠ d.get F.PTP_CFG_DOMAIN ∨ src ≠ l.src then d
      else
        let t2 := d.ptpStamp netIf half true
        if twoStep then d.modTime (fun t => { t with syncWait := some (src, seq, t2, corr) })
        else d.syncDone l.gm (t1 * 65536) t2 corr)

/-- PTP_FOLLOW_UP_RX (R387, R390): the Follow_Up of a two-step Sync. -/
def execPtpFollowUpRx (netIf : Fin 8) (domain src seq t1 : Nat) (corr : Int) (s : State) : Host.Outcome State Fault Refusal :=
  s.run (fun d =>
    match d.leaderOf, d.time.syncWait with
    | some l, some (wsrc, wseq, t2, wcorr) =>
      if d.ptpIf ≠ netIf ∨ domain ≠ d.get F.PTP_CFG_DOMAIN ∨ src ≠ wsrc ∨ seq ≠ wseq ∨ src ≠ l.src then d
      else (d.modTime (fun t => { t with syncWait := none })).syncDone l.gm (t1 * 65536) t2 (wcorr + corr)
    | _, _ => d)

/-- PTP_DELAY_RESP_RX (R390): the answer to this clock's Delay_Req: t4 in ns and its correction. -/
def execPtpDelayRespRx (netIf : Fin 8) (domain src seq t4 : Nat) (corr : Int) (s : State) : Host.Outcome State Fault Refusal :=
  s.run (fun d =>
    match d.leaderOf, d.time.reqWait, d.time.ms with
    | some l, some (wseq, t3), some ms =>
      if d.ptpIf ≠ netIf ∨ domain ≠ d.get F.PTP_CFG_DOMAIN ∨ src ≠ l.src ∨ seq ≠ wseq then d
      else
        let sm : Int := (t4 : Int) * 65536 - t3 - corr
        d.modTime (fun t => { t with reqWait := none, delays := ((ms + sm) / 2 :: t.delays).take 8 })
    | _, _, _ => d)

/-- PTP_ANNOUNCE_RX (R387, R388): an Announce arrives; BMCA runs on the PTP port, the other interface only tracks. -/
def execPtpAnnounceRx (netIf : Fin 8) (a : PtpAnnounce) (s : State) : Host.Outcome State Fault Refusal :=
  s.run (fun d =>
    if !d.ptpOn || a.domain ≠ d.get F.PTP_CFG_DOMAIN || a.src = d.clockIdentity then d
    else if netIf.val ≠ d.ptpIf ∧ some netIf.val ≠ d.ptpOther then d
    else
      let d := d.modTime (fun t => { t with ann := t.ann.filter (fun x => !(x.1 == netIf.val && x.2.src == a.src)) ++ [(netIf.val, a)] })
      if netIf.val ≠ d.ptpIf then d
      else
        let d := d.setLeader d.ownWins
        match d.leaderOf with
        | some l => d.modTime (fun t => { t with leaderUtc := l.utc, smTlv := l.sm })
        | none => d)

/-- ANNOUNCE_TIMEOUT (R388, R390): no Announce on the PTP port for the receipt timeout. -/
def execAnnounceTimeout (s : State) : Host.Outcome State Fault Refusal :=
  s.run (fun d =>
    if !d.ptpOn || d.get F.PTP_CFG_ROLE = 2 then d
    else
      let i := d.ptpIf
      let d := d.modTime (fun t => { t with ann := t.ann.filter (fun x => !(x.1 == i)), syncWait := none, reqWait := none, leaderUtc := none,
                                            smTlv := none })
      let d := if d.timeState = tsAcquiring ∨ d.timeState = tsLocked then d.timeHoldover 1 else d
      match d.ptpOther with
      | some o =>
        if (d.bestOn o).isSome then
          let d := d.setFlag F.TIME_STATUS_PORT_B_ACTIVE (!d.flag F.TIME_STATUS_PORT_B_ACTIVE)
          let d := d.modTime (fun t => { t with delays := [], ms := none })
          (d.event 0x1107 sevNotice [u8 o]).setLeader d.ownWins
        else d.setLeader d.ownWins
      | none => d.setLeader d.ownWins)

/-- PTP_DELAY_REQ_RX (R387): as leader, a Delay_Req is answered with its receive time. -/
def execPtpDelayReqRx (netIf : Fin 8) (domain src seq : Nat) (corr : Int) (half : Fin 16) (s : State) : Host.Outcome State Fault Refusal :=
  s.run (fun d =>
    if d.ptpOn && d.flag F.TIME_STATUS_LEADER && decide (d.ptpIf = netIf) && decide (domain = d.get F.PTP_CFG_DOMAIN) then
      let t4 := d.ptpStamp netIf half true
      d.emit (.packet netIf 5 [domain, d.clockIdentity, src, seq, (t4 / 65536).toNat, toBits 64 (corr + t4 % 65536)] [])
    else d)

/-- PTP_SYNC_TX (R387): as leader, a two-step Sync and its Follow_Up with the egress time. -/
def execPtpSyncTx (half : Fin 16) (s : State) : Host.Outcome State Fault Refusal :=
  s.run (fun d =>
    if d.ptpOn && d.flag F.TIME_STATUS_LEADER then
      let i := d.ptpIf
      let seq := d.time.seqSync
      let dom := d.get F.PTP_CFG_DOMAIN
      let t1 := d.ptpStamp i half false
      let d := d.modTime (fun t => { t with seqSync := (seq + 1) % 65536 })
      (d.emit (.packet i 1 [dom, d.clockIdentity, seq] [])).emit
        (.packet i 2 [dom, d.clockIdentity, seq, (t1 / 65536).toNat, (t1 % 65536).toNat] [])
    else d)

/-- PTP_ANNOUNCE_TX (R387): as leader, an Announce with the synchronization metadata TLV. -/
def execPtpAnnounceTx (s : State) : Host.Outcome State Fault Refusal :=
  s.run (fun d =>
    if d.ptpOn && d.flag F.TIME_STATUS_LEADER then
      let o := d.ownData
      let seq := d.time.seqAnn
      let d := d.modTime (fun t => { t with seqAnn := (seq + 1) % 65536 })
      d.emit (.packet d.ptpIf 3 [o.domain, o.src, seq, o.prio1, o.cls, o.acc, o.var, o.prio2, o.gm, o.steps,
        d.get F.PTP_UTC_OFFSET_UTC_OFFSET, d.get F.TC_TZ_TZ_OFFSET_S, d.get F.TC_JAM_JAM_TOD] [])
    else d)

/-- PTP_DELAY_REQ_TX (R387): as follower, a Delay_Req, multicast or to the leader in HYBRID. -/
def execPtpDelayReqTx (half : Fin 16) (s : State) : Host.Outcome State Fault Refusal :=
  s.run (fun d =>
    match d.leaderOf with
    | none => d
    | some l =>
      let i := d.ptpIf
      let seq := d.time.seqReq
      let t3 := d.ptpStamp i half false
      let d := d.modTime (fun t => { t with seqReq := (seq + 1) % 65536, reqWait := some (seq, t3) })
      d.emit (.packet i 4 [d.get F.PTP_CFG_DOMAIN, d.clockIdentity, seq, if d.flag F.PTP_CFG_HYBRID then l.src else 0] []))

/-- Raises TIME_CFG_BAD for a register. -/
def Dev.timeCfgBad (d : Dev) (a : Nat) : Dev :=
  match regSpec? a with
  | some r => if r.dims.isEmpty then d.event 0x110B sevFault [u32 a] else d.eventReg 0x110B sevFault a
  | none => d.event 0x110B sevFault [u32 a]

/-- PTP takes up its settings at mode entry (R388, R390): disabled or ROLE 2 makes STATE FREE; ROLE 3 is refused. -/
def Dev.ptpStart (d : Dev) : Dev :=
  let d := if d.flag F.PTP_CFG_EN && d.get F.PTP_CFG_ROLE = 3 then d.timeCfgBad R.PTP_CFG else d
  let free := !d.flag F.PTP_CFG_EN || d.get F.PTP_CFG_ROLE ≥ 2
  let d := if free && d.timeState ≠ tsFree then
      ((d.setTimeState tsFree).set F.TIME_INCR_INCR d.nominalIncr).modTime (fun t =>
        { t with ann := [], syncWait := none, reqWait := none, ms := none, delays := [], leaderUtc := none, smTlv := none })
    else d
  if !d.flag F.PTP_CFG_EN then d.setFlag F.TIME_STATUS_LEADER false
  else if d.get F.PTP_CFG_ROLE = 2 then d.setLeader true else d

/-! ### Setting and reading the time (R391) -/

/-- `TIME_CTRL.SET` (R391). -/
def Dev.timeSet (d : Dev) : Dev :=
  let d := d.setFlag F.TIME_CTRL_SET false
  let ns := d.get F.TIME_SET_NS_NS
  if nsPerS ≤ ns then d.timeCfgBad R.TIME_SET_NS
  else
    let sec := d.get F.TIME_SET_SEC_HI_SEC * 2 ^ 32 + d.get F.TIME_SET_SEC_LO_SEC
    d.timeStep (((sec * nsPerS + ns) * 2 ^ 24 : Nat) - (d.time.dt % (2 ^ 48 * nsPerS * 2 ^ 24) : Nat))

/-- TIME_SET (R391). -/
def execTimeSet (s : State) : Host.Outcome State Fault Refusal := s.hostCmd R.TIME_CTRL 1 Dev.timeSet

/-- `TIME_CTRL.STEP_NOW` (R391). -/
def Dev.timeStepNow (d : Dev) : Dev := (d.setFlag F.TIME_CTRL_STEP_NOW false).stepDeferred

/-- TIME_STEP_NOW (R391). -/
def execTimeStepNow (s : State) : Host.Outcome State Fault Refusal := s.hostCmd R.TIME_CTRL 2 Dev.timeStepNow

/-- A read of `TIME_NOW_SEC_LO` through a port latches the whole group for that port (R383, R519): SEC, NS, SUBNS, STIME. -/
def Dev.timeLatch (d : Dev) (port : Nat) : Dev :=
  let t := d.time.dt
  let st := stimeOf t
  let ws := [dtSec t % 2 ^ 32, dtSec t / 2 ^ 32 % 2 ^ 16, dtNs t, dtSubns t, st % 2 ^ 32, st / 2 ^ 32 % 2 ^ 32]
  { d with time := { d.time with nowLatch := setAt d.time.nowLatch port ws } }

/-! ### Trigger schedules (R393-R395) -/

/-- The schedule that the shadows of port `p` give. -/
def Dev.schedShadow (d : Dev) (p : Nat) : Sched :=
  { epoch := d.stimeToNs (d.get (F.TRIG_EPOCH_LO_EPOCH p) + d.get (F.TRIG_EPOCH_HI_EPOCH p) * 2 ^ 32)
    num := d.get (F.TRIG_RATE_NUM p), den := d.get (F.TRIG_RATE_DEN p)
    ents := (List.range 4).filterMap (fun k =>
      if d.flag (F.TRIG_ENT_EN p k) then some (d.get (F.TRIG_ENT_OFFSET_NS p k), d.get (F.TRIG_ENT_PLAN p k)) else none) }

/-- The registers of a schedule that a COMMIT latches. -/
def trigRegs (p : Nat) : List Nat :=
  [R.TRIG_EPOCH_LO p, R.TRIG_EPOCH_HI p, R.TRIG_RATE p] ++ (List.range 4).map (R.TRIG_ENT p)

/-- A running schedule takes new settings (R395): they switch in at the new schedule's first target at least 1 ms ahead. -/
def Dev.schedChange (d : Dev) (p : Nat) (new : Sched) : Dev :=
  let soon := d.nowNs + 1000000
  let first := new.first soon
  let at_ := match first with
    | some x => x.1
    | none => soon
  let ts := elemAt d.trig p {}
  -- a new schedule whose switch instant has come is the one that runs
  let run := match ts.next with
    | some (n, t) => if t ≤ d.nowNs then some n else ts.run
    | none => ts.run
  let d := { d with trig := modifyAt d.trig p (fun (t : TrigSched) => { t with run := run, next := some (new, at_) }) }
  d.eventAt 0x110A sevInfo p [u8 p, u64 (match first with | some x => stimeOfNs x.1 | none => 0)]

/-- `TIME_TRIG_Pp_CTRL.COMMIT` (R395): the shadows latch at once, unless they break the rule of R393. -/
def Dev.trigCommit (d : Dev) (p : Nat) : Dev :=
  let d := d.setFlag (F.TRIG_CTRL_COMMIT p) false
  let new := d.schedShadow p
  if !new.ok then d.timeCfgBad (R.TRIG_RATE p)
  else
    let d := d.latchAll (trigRegs p)
    if d.trigRuns p then d.schedChange p new else d

/-- TRIG_SCHED_COMMIT (R395). -/
def execTrigSchedCommit (p : Fin 8) (s : State) : Host.Outcome State Fault Refusal :=
  s.hostSet (R.TRIG_CTRL p) 2 (fun d => d.trigCommit p)

/-- TRIG_SCHED_SWITCH (R395): at the switch instant the new schedule takes over. -/
def execTrigSchedSwitch (p : Fin 8) (s : State) : Host.Outcome State Fault Refusal :=
  s.run (fun d =>
    match (elemAt d.trig p {}).next with
    | some (n, t) =>
      if t ≤ d.nowNs then
        { d with trig := modifyAt d.trig p (fun (x : TrigSched) => { x with run := some n, next := none, from_ := max x.from_ t }) }
      else d
    | none => d)

/-- Schedules start, keep running or stop at mode entry (R393, R394, R59). -/
def Dev.trigStart (d : Dev) (p : Nat) : Dev :=
  let ts := elemAt d.trig p {}
  let was := ts.run.isSome
  if !d.flag (F.TRIG_CTRL_EN p) || !d.sensing || d.bondHead p ≠ p then
    { d with trig := setAt d.trig p {} }
  else
    let new := d.schedShadow p
    if !new.ok then
      let d := d.timeCfgBad (R.TRIG_RATE p)
      if was then d else d.refuse (R.TRIG_CTRL p)
    else
      let change := decide (d.schedOf p ≠ new)
      let d := d.latchAll (trigRegs p)
      if was then (if change then d.schedChange p new else d)
      else ({ d with trig := setAt d.trig p { run := some new } }).schedStart p

/-- Every schedule stops; a step that waited for that is made (R391). -/
def Dev.trigStopAll (d : Dev) : Dev := ({ d with trig := List.replicate 8 {} }).stepDeferred

/-! ### Pulses (R397) -/

/-- The pin level of pulse generator `n`. -/
def Dev.pgDrive (d : Dev) (n : Nat) (high : Bool) : Dev :=
  let d := d.modTime (fun t => { t with pgHigh := setAt t.pgHigh n high })
  d.pin (pinGpio (d.get (F.PG_CFG_GPIO n))) (b2n (high != d.flag (F.PG_CFG_POL n)))

/-- PULSE_EDGE (R397): the output of generator `n` rises at its edge time. -/
def execPulseEdge (n : Fin 8) (s : State) : Host.Outcome State Fault Refusal :=
  s.run (fun d => if elemAt d.time.pgRun n false then d.pgDrive n true else d)

/-- PULSE_FALL (R397): a pulse of generator `n` falls after WIDTH_NS. -/
def execPulseFall (n : Fin 8) (s : State) : Host.Outcome State Fault Refusal :=
  s.run (fun d => if elemAt d.time.pgRun n false && elemAt d.time.pgHigh n false then d.pgDrive n false else d)

/-- A pulse generator starts or stops at mode entry; `on` says that pulses run in the mode (R397). -/
def Dev.pgStart (d : Dev) (n : Nat) (on : Bool) : Dev :=
  let stop := d.modTime (fun t => { t with pgRun := setAt t.pgRun n false, pgHigh := setAt t.pgHigh n false })
  if !d.flag (F.PG_CFG_EN n) || !on || d.isRefused (R.PG_CFG n) then stop
  else if d.get (F.PG_RATE_DEN n) * nsPerS < (d.get (F.PG_WIDTH_WIDTH_NS n) + 20) * d.get (F.PG_RATE_NUM n) then
    (stop.timeCfgBad (R.PG_WIDTH n)).refuse (R.PG_CFG n)
  else if !Config.gpioOutput (d.get (F.PG_CFG_GPIO n)) then (stop.timeCfgBad (R.PG_CFG n)).refuse (R.PG_CFG n)
  else if elemAt d.time.pgRun n false then d
  else (d.modTime (fun t => { t with pgRun := setAt t.pgRun n true })).pgDrive n false

/-! ### Timecode (R398) -/

/-- LTC_FRAME (R398): an LTC sync word ends; `good` says that the frame decoded, and `label` is its frame number of the day. -/
def execLtcFrame (good : Bool) (label : Nat) (s : State) : Host.Outcome State Fault Refusal :=
  s.run (fun d =>
    if !good then d.modTime (fun t => { t with ltcGood := 0 })
    else
      let n := d.time.ltcGood + 1
      let now := d.nowNs
      if d.time.ltcLocked then d.modTime (fun t => { t with ltcGood := n, ltcLast := label, ltcAt := now, ltcLost := false })
      else if 4 ≤ n then
        let d := d.modTime (fun t => { t with ltcGood := n, ltcLast := label, ltcAt := now, ltcLocked := true, ltcLost := false })
        d.event 0x1109 sevInfo [u32 (d.tcWord now)]
      else d.modTime (fun t => { t with ltcGood := n }))

/-- LTC_FRAME_MISSING (R398): two LTC frames are missing; the timecode runs on from the last value. -/
def execLtcFrameMissing (s : State) : Host.Outcome State Fault Refusal :=
  s.run (fun d =>
    if !d.time.ltcLocked then d.modTime (fun t => { t with ltcGood := 0 })
    else
      let tc := d.tcWord d.time.ltcAt
      (d.modTime (fun t => { t with ltcGood := 0, ltcLocked := false, ltcLost := true })).event 0x1108 sevNotice [u32 tc])

end Sys2Proof.Machine
end

