-- ==== Sys2Proof/Machine/Net.lean ====
section
/-!
DEFINITION. Ethernet ports and flows (R399-R406): links, ARP, ICMP and IGMP, transmit flows of the four essences, receive
flows with their reorder window.
-/
namespace Sys2Proof.Machine

def Dev.txf (d : Dev) (n : Nat) : TxSt := Sparse.get (fun _ => {}) d.net.tx n
def Dev.modTx (d : Dev) (n : Nat) (f : TxSt → TxSt) : Dev :=
  { d with net := { d.net with tx := Sparse.put (fun _ => {}) d.net.tx n (f (d.txf n)) } }
def Dev.rxf (d : Dev) (n : Nat) : RxSt := Sparse.get (fun _ => {}) d.net.rx n
def Dev.modRx (d : Dev) (n : Nat) (f : RxSt → RxSt) : Dev :=
  { d with net := { d.net with rx := Sparse.put (fun _ => {}) d.net.rx n (f (d.rxf n)) } }

/-- The transmit and receive flows that run. -/
def Dev.txRunning (d : Dev) : List Nat := (d.net.tx.filter (fun e => e.2.run)).map (·.1)
def Dev.rxRunning (d : Dev) : List Nat := (d.net.rx.filter (fun e => e.2.run)).map (·.1)

/-! ### Interfaces (R399, R400) -/

/-- Whether an interface exists in the mode of its port (R399). -/
def Dev.ifExists (d : Dev) (i : Nat) : Bool :=
  match (if i < 4 then d.get F.NET_CFG_ETH0_MODE else d.get F.NET_CFG_ETH1_MODE) with
  | 1 => i % 4 = 0
  | 2 => true
  | _ => false

/-- Whether an interface's link is up. -/
def Dev.ifUp (d : Dev) (i : Nat) : Bool := d.ifExists i && d.flag (F.NET_IF_STATUS_LINK i)
/-- The MAC address of an interface. -/
def Dev.ifMac (d : Dev) (i : Nat) : Nat := d.get (F.NET_IF_MAC_HI_MAC i) * 2 ^ 32 + d.get (F.NET_IF_MAC_LO_MAC i)

/-- A multicast IPv4 address. -/
def isMulticast (ip : Nat) : Bool := ip / 2 ^ 28 = 14

/-- The paths of a transmit flow: path, interface, destination (R404). -/
def Dev.txPaths (d : Dev) (n : Nat) : List (Nat × Nat × Nat) :=
  (0, d.get (F.TXF_CFG_IF_A n), d.get (F.TXF_DST_A_IP n)) ::
    (if d.flag (F.TXF_CFG_RED n) then [(1, d.get (F.TXF_CFG_IF_B n), d.get (F.TXF_DST_B_IP n))] else [])

/-- Whether a path's destination is on its subnet (R400). -/
def Dev.onSubnet (d : Dev) (i ip : Nat) : Bool :=
  let m := d.get (F.NET_IF_MASK_MASK i)
  ip &&& m == d.get (F.NET_IF_IP_IP i) &&& m

/-- Whether a path's destination is resolved: multicast, or answered by ARP. -/
def Dev.pathReady (d : Dev) (n : Nat) (p : Nat × Nat × Nat) : Bool :=
  isMulticast p.2.2 || ((d.txf n).mac.getD p.1 none).isSome

/-- Asks for a unicast destination on the subnet by ARP (R400). -/
def Dev.arpAsk (d : Dev) (_n : Nat) (p : Nat × Nat × Nat) : Dev :=
  if isMulticast p.2.2 || !d.onSubnet p.2.1 p.2.2 || !d.ifUp p.2.1 then d
  else d.emit (.packet p.2.1 8 [d.get (F.NET_IF_IP_IP p.2.1), d.ifMac p.2.1, p.2.2] [])

/-- Shows the state of a transmit flow: 0 off, 1 sending, 2 waiting for ARP, 3 link down. -/
def Dev.showTx (d : Dev) (n : Nat) : Dev :=
  let ps := d.txPaths n
  let st := if !(d.txf n).run then 0
    else if !ps.any (fun p => d.ifUp p.2.1) then 3
    else if !ps.any (fun p => d.ifUp p.2.1 && d.pathReady n p) then 2 else 1
  d.set (F.TXF_STATUS_STATE n) st

/-- The interfaces of a receive flow by path: path, interface, group (R404). -/
def Dev.rxPaths (d : Dev) (n : Nat) : List (Nat × Nat × Nat) :=
  (0, d.get (F.RXF_CFG_IF_A n), d.get (F.RXF_GROUP_A_IP n)) ::
    (if d.flag (F.RXF_CFG_RED n) then [(1, d.get (F.RXF_CFG_IF_B n), d.get (F.RXF_GROUP_B_IP n))] else [])

/-- Sends the IGMPv3 reports of a receive flow on an interface (R400): source-specific when SRC_IP is set. -/
def Dev.igmp (d : Dev) (n i : Nat) : Dev :=
  ((d.rxPaths n).filter (fun p => p.2.1 == i && isMulticast p.2.2)).foldl (fun d p =>
    if d.ifUp i then d.emit (.packet i 9 [p.2.2, d.get (F.RXF_SRC_IP_IP n)] []) else d) d

/-- ETH_LINK_DOWN (R404): the link of interface `i` goes down. -/
def execEthLinkDown (netIf : Fin 8) (s : State) : Host.Outcome State Fault Refusal :=
  s.run (fun d =>
    if !d.ifUp netIf then d
    else
      let d := (d.setFlag (F.NET_IF_STATUS_LINK netIf) false).bump (F.NET_ETH_CNT_DOWNS (netIf / 4))
      let d := d.eventAt 0x1001 sevDegraded netIf [u8 (netIf / 4), u8 netIf]
      d.txRunning.foldl Dev.showTx d)

/-- ETH_LINK_UP (R399, R404, R406): the link comes up; its flows start again at their next frame, or at the next key frame or
cycle start for essence 2. -/
def execEthLinkUp (netIf : Fin 8) (s : State) : Host.Outcome State Fault Refusal :=
  s.run (fun d =>
    if !d.ifExists netIf || d.flag (F.NET_IF_STATUS_LINK netIf) then d
    else
      let d := (d.setFlag (F.NET_IF_STATUS_LINK netIf) true).eventAt 0x1002 sevInfo netIf [u8 (netIf / 4), u8 netIf]
      let d := d.txRunning.foldl (fun d n =>
        let mine := (d.txPaths n).filter (fun p => p.2.1 == netIf.val)
        if mine.isEmpty then d
        else
          let others := (d.txPaths n).any (fun p => p.2.1 != netIf.val && d.ifUp p.2.1)
          let d := if others then d
            else d.modTx n (fun x => { x with k := none, cur := none, sent := 0, next := none, waitKey := true, chunkSent := 0, aud := [] })
          (mine.foldl (fun d p => if d.pathReady n p then d else d.arpAsk n p) d).showTx n) d
      d.rxRunning.foldl (fun d n => d.igmp n netIf) d)

/-- ARP_RX (R400): an ARP frame on interface `i`: a request for the interface's address is answered; a reply resolves the
flows that wait for its sender. -/
def execArpRx (netIf : Fin 8) (reply : Bool) (senderIp senderMac targetIp : Nat) (s : State) : Host.Outcome State Fault Refusal :=
  s.run (fun d =>
    if !d.ifUp netIf then d
    else if !reply then
      if targetIp = d.get (F.NET_IF_IP_IP netIf) then d.emit (.packet netIf 6 [targetIp, d.ifMac netIf, senderIp, senderMac] []) else d
    else d.txRunning.foldl (fun d n =>
      let hits := (d.txPaths n).filter (fun p => p.2.1 == netIf.val && p.2.2 == senderIp)
      (hits.foldl (fun d p => d.modTx n (fun x => { x with mac := setAt x.mac p.1 (some senderMac) })) d).showTx n) d)

/-- ICMP_ECHO_RX (R400): an echo request to the interface's address is answered. -/
def execIcmpEchoRx (netIf : Fin 8) (srcIp srcMac dstIp : Nat) (data : List Byte) (s : State) : Host.Outcome State Fault Refusal :=
  s.run (fun d =>
    if d.ifUp netIf && decide (dstIp = d.get (F.NET_IF_IP_IP netIf)) then d.emit (.packet netIf 7 [dstIp, srcIp, srcMac] data) else d)

/-- ARP_RENEW (R400): every 60 s the destination of a flow's path is resolved again. -/
def execArpRenew (n : Fin 1024) (path : Fin 2) (s : State) : Host.Outcome State Fault Refusal :=
  s.run (fun d =>
    if !(d.txf n).run then d
    else match (d.txPaths n)[path.val]? with
      | some p => d.arpAsk n p
      | none => d)

/-- ARP_RESOLVE_TIMEOUT (R400): a destination stays unresolved for 1 s. -/
def execArpResolveTimeout (n : Fin 1024) (path : Fin 2) (s : State) : Host.Outcome State Fault Refusal :=
  s.run (fun d =>
    match (d.txPaths n)[path.val]? with
    | some p =>
      if (d.txf n).run && !d.pathReady n p && decide (nth (d.txf n).askedAt path + nsPerS ≤ d.elapsed) &&
          d.secOver (d.txf n).failSec then
        (d.modTx n (fun x => { x with failSec := d.elapsed + 1 })).eventAt 0x1007 sevNotice n [u16 n, u32 p.2.2]
      else d
    | none => d)

/-- MAILBOX_FRAME_RX (R400): a frame of no other kind goes to the host mailbox, or is dropped. The spec gives the mailbox ring
no place, so the frame leaves the block towards the host. -/
def execMailboxFrameRx (netIf : Fin 8) (frame : List Byte) (fcsOk : Bool) (s : State) : Host.Outcome State Fault Refusal :=
  s.run (fun d =>
    if !fcsOk then d.bump (F.NET_ETH_CNT_FCS_ERR (netIf / 4))
    else if d.flag F.NET_CFG_MBOX_EN && d.ifUp netIf then d.emit (.packet netIf 11 [] frame) else d)

/-! ### Sending (R401-R404) -/

/-- The media clock at an instant in ns (R401): floor(t × rate) mod 2^32. -/
def mediaClock (ns rate : Nat) : Nat := ns * rate / nsPerS % 2 ^ 32

/-- Sends an RTP packet of a flow on each path that can carry it; the answer says whether the packet is done with: a flow
whose destinations are unresolved holds it back (R400), one whose link is down drops it (R404). -/
def Dev.txSend (d : Dev) (n ts : Nat) (marker : Bool) (bytes : List Byte) (count : Nat) : Dev × Bool :=
  let up := (d.txPaths n).filter (fun p => d.ifUp p.2.1)
  if up.isEmpty then ((d.add (F.TXF_CNT_DROP_COUNT n) count).modTx n (fun x => { x with seq := x.seq + count }), true)
  else
    let ready := up.filter (fun p => d.pathReady n p)
    if ready.isEmpty then (d, false)
    else
      let seq := (d.txf n).seq
      let seq := if d.get (F.TXF_CFG_ESSENCE n) = 1 then seq % 2 ^ 32 else seq % 2 ^ 16
      let d := ready.foldl (fun d p => d.emit (.packet p.2.1 10
        [n, p.1, p.2.2, ((d.txf n).mac.getD p.1 none).getD 0, d.get (F.TXF_UDP_DPORT n), d.get (F.TXF_UDP_SPORT n),
         d.get (F.TXF_RTP_PT n), d.get (F.TXF_RTP_DSCP n), d.get (F.TXF_RTP_TTL n), d.get (F.TXF_SSRC_SSRC n), seq, ts,
         b2n marker] bytes)) d
      ((d.add (F.TXF_CNT_PKT_COUNT n) count).modTx n (fun x => { x with seq := x.seq + count }), true)

/-- The holders of a flow of essence 1: the buffer being sent and the one selected (R402). -/
def holdTx (n : Nat) : Nat := 10000 + 2 * n

/-- Fields of an essence-1 flow. -/
def Dev.txNum (d : Dev) (n : Nat) : Nat := max 1 ((d.word (R.TXF_ESS0 n)).field 0 16)
def Dev.txDen (d : Dev) (n : Nat) : Nat := (d.word (R.TXF_ESS0 n)).field 16 12
def Dev.txBlocks (d : Dev) (n : Nat) : Nat := max 1 ((d.word (R.TXF_ESS0 n)).field 28 4)
def Dev.txDelayUs (d : Dev) (n : Nat) : Nat := (d.word (R.TXF_ESS2 n)).field 0 24

/-- S_k of an essence-1 flow in ns (R402); the flow's EPOCH is the SMPTE Epoch. -/
def Dev.txStart (d : Dev) (n : Nat) (k : Int) : Int :=
  k * (d.txDen n * nsPerS : Nat) / (d.txNum n : Int) + d.get (F.TXF_ESS1_WORD n)

/-- The first frame whose selection instant is not past. -/
def Dev.txFirst (d : Dev) (n : Nat) : Int :=
  let x : Int := (d.nowNs : Int) + (d.txDelayUs n * 1000 : Nat) - d.get (F.TXF_ESS1_WORD n)
  let per : Int := max 1 (d.txDen n * nsPerS)
  let k : Int := -((-(x * d.txNum n)) / per)
  k

/-- TX_FRAME_SELECT (R402): at S_k − DELAY_US a flow of essence 1 selects and holds a buffer by the rule of R354. -/
def execTxFrameSelect (n : Fin 1024) (s : State) : Host.Outcome State Fault Refusal :=
  s.run (fun d =>
    let x := d.txf n
    if !x.run || d.get (F.TXF_CFG_ESSENCE n) ≠ 1 then d
    else
      let k := x.k.getD (d.txFirst n)
      let at_ := d.txStart n k - (d.txDelayUs n * 1000 : Nat)
      let lim := stimeOfNs at_.toNat
      let best := (d.srcBufs (d.get (F.TXF_SRC_SRC n))).foldl (fun (best : Option ShownBuf) b =>
        let trig := d.poolNat poolDev (b.2 + 0x10) 8
        if d.poolNat poolDev (b.2 + 0x3C) 4 ≠ 0 ∧ signed 64 (toBits 64 ((trig : Int) - lim)) ≤ 0 then
          let sb : ShownBuf := { key := b.1, off := b.2, fseq := d.poolNat poolDev b.2 4, trig := trig }
          match best with
          | some y => if 0 < signed 64 (toBits 64 ((trig : Int) - y.trig)) then some sb else best
          | none => some sb
        else best) none
      let last := match x.next with
        | some b => some b.1
        | none => x.cur
      let d := d.modTx n (fun x => { x with k := some (k + 1) })
      match best, last with
      | some b, some o =>
        if 0 < signed 64 (toBits 64 ((b.trig : Int) - o.trig)) then
          ((d.releaseBy (holdTx n + 1)).hold b.key (holdTx n + 1)).modTx n (fun x => { x with next := some (b, false) })
        else d.modTx n (fun x => { x with next := some (o, true) })
      | some b, none => (d.hold b.key (holdTx n + 1)).modTx n (fun x => { x with next := some (b, false) })
      | none, some o => d.modTx n (fun x => { x with next := some (o, true) })
      | none, none => d)

/-- Pixel groups of ST 2110-20 (PRESUMED, assumption 21): octets and pixels of a group. -/
def pgroup (ycc422 : Bool) (depth : Nat) : Nat × Nat :=
  match ycc422, depth with
  | true, 8 => (4, 2) | true, 10 => (5, 2) | true, _ => (6, 2)
  | false, 8 => (3, 1) | false, 10 => (15, 4) | false, _ => (9, 2)

/-- Bits of a sample, most significant first. -/
def bitsBE : Nat → Nat → List Bool
  | 0, _ => []
  | n + 1, v => bitOf v n :: bitsBE n v

/-- Bytes of a bit string, padded with zeros. -/
def octetsOf : Nat → List Bool → List Byte
  | 0, _ => []
  | fuel + 1, l =>
    if l.isEmpty then []
    else BitVec.ofNat 8 ((List.range 8).foldl (fun acc i => acc * 2 + b2n (l.getD i false)) 0) :: octetsOf fuel (l.drop 8)

/-- The sample octets of line `y` of a buffer at a depth, in ST 2110-20 pixel groups: Cb Y Cr Y for 4:2:2, the three
components in order for 4:4:4. -/
def Dev.txLine (d : Dev) (off depth y : Nat) : List Byte :=
  let fmt := d.poolNat poolDev (off + 0x24) 1
  let w := d.poolNat poolDev (off + 0x20) 2
  let s (v : Int) : List Bool := bitsBE depth (v.toNat / 2 ^ (16 - depth))
  let c422 : Bool := fmt = 2 || fmt = 4
  let bits := if c422 then (List.range (w / 2)).flatMap (fun i =>
      let a := d.srcSample off (2 * i) y
      let b := d.srcSample off (2 * i + 1) y
      s a.2.1 ++ s a.1 ++ s a.2.2 ++ s b.1)
    else (List.range w).flatMap (fun x =>
      let a := d.srcSample off x y
      s a.1 ++ s a.2.1 ++ s a.2.2)
  octetsOf (bits.length / 8 + 1) bits

/-- The depth in bits of a flow's branch (R401). -/
def Dev.txDepth (d : Dev) (n : Nat) : Nat :=
  let src := d.get (F.TXF_SRC_SRC n)
  brDepth (d.get (F.COL_BR_CFG_DEPTH (src / 8) (src % 8)))

/-- Octets of a frame and packets Npk of a flow of essence 1 for a buffer. -/
def Dev.txPackets (d : Dev) (n off : Nat) : Nat × Nat :=
  let fmt := d.poolNat poolDev (off + 0x24) 1
  let (o, p) := pgroup (fmt = 2 || fmt = 4) (d.txDepth n)
  let octets := d.poolNat poolDev (off + 0x20) 2 * d.poolNat poolDev (off + 0x22) 2 * o / p
  let per := 180 * d.txBlocks n
  (octets, (octets + per - 1) / per)

/-- A flow of essence 1 takes up its selected buffer: a repeated buffer's timestamp is the last plus a frame period. -/
def Dev.txTakeUp (d : Dev) (n : Nat) : Dev :=
  let x := d.txf n
  match x.next with
  | some (b, rep) =>
    let ts := if rep ∧ x.cur.isSome = true then (x.ts + 90000 * d.txDen n / d.txNum n) % 2 ^ 32
      else mediaClock (d.stimeToNs b.trig) 90000
    (((d.releaseBy (holdTx n)).releaseBy (holdTx n + 1)).hold b.key (holdTx n)).modTx n (fun x =>
      { x with cur := some b, rep := rep, next := none, ts := ts })
  | none => d

/-- The place of a packet sent: the next packet of the frame, or the end of it. -/
def Dev.txAdvance (d : Dev) (n : Nat) (more : Bool) : Dev :=
  if more then d.modTx n (fun x => { x with sent := x.sent + 1 })
  else d.modTx n (fun x => { x with sent := 0, rep := false })

/-- The bytes of the packet at `sent` of a frame of `octets` bytes. -/
def Dev.txBytes (d : Dev) (n sent octets : Nat) (b : ShownBuf) : List Byte :=
  let h := d.poolNat poolDev (b.off + 0x22) 2
  let per := 180 * d.txBlocks n
  let line := octets / max 1 h
  let a := sent * per
  let first := a / max 1 line
  let stop := (min (a + per) octets + line - 1) / max 1 line
  (((List.range (stop - first)).flatMap (fun i => d.txLine b.off (d.txDepth n) (first + i))).drop (a - first * line)).take per

/-- The next packet of the frame in buffer `b`. -/
def Dev.txFrame (d : Dev) (n : Nat) (b : ShownBuf) : Dev :=
  let x := d.txf n
  let p := d.txPackets n b.off
  let r := d.txSend n x.ts (decide (x.sent + 1 = p.2)) (d.txBytes n x.sent p.1 b) 1
  if r.2 then r.1.txAdvance n (x.sent + 1 < p.2) else r.1

/-- TX_PACKET (R402, R404): the next packet of an essence-1 flow leaves at its time. The first packet of a frame takes up the
selected buffer; a repeated buffer's timestamp is the last plus a frame period. -/
def execTxPacket (n : Fin 1024) (s : State) : Host.Outcome State Fault Refusal :=
  s.run (fun d =>
    let x := d.txf n
    if !x.run || d.get (F.TXF_CFG_ESSENCE n) ≠ 1 || (x.sent = 0 && x.next.isNone) then d
    else
      let d := if x.sent ≠ 0 then d else d.txTakeUp n
      match (d.txf n).cur with
      | none => d
      | some b => d.txFrame n b)

/-- Tokens of an essence-2 flow's bucket now: RATE_KBPS refills it up to BURST bytes (R403). -/
def Dev.txTokens (d : Dev) (n : Nat) : Nat :=
  let x := d.txf n
  min (d.get (F.TXF_ESS1_WORD n)) (x.tokens + (d.elapsed - x.tokenAt) * d.get (F.TXF_ESS0_WORD n) / 8000000)

/-- TX_BAND_SEND (R403, R330, R310): an essence-2 flow sends what BANDS_DONE covers of the record at CONS1, within its token
bucket; with the last byte of the chunk it advances CONS1. The spec does not say how many packets that takes: the count is a
free value. -/
def execTxBandSend (n : Fin 1024) (s : State) : Host.Outcome State Fault Refusal :=
  s.run (fun d =>
    let x := d.txf n
    let ses := d.get (F.TXF_SRC_SRC n) % 256
    let k := d.get (F.SES_CONS_IDX ses 1)
    if !x.run || d.get (F.TXF_CFG_ESSENCE n) ≠ 2 || k = d.get (F.SES_PROD_IDX ses) then d
    else
      let r := d.recAt ses k
      let rd (o len : Nat) : Nat := d.poolNat poolOut (r + o) len
      let down := !(d.txPaths n).any (fun p => d.ifUp p.2.1)
      let complete := decide (rd 0x30 2 = rd 0x32 2)
      let start := rd 0xB 1 = 1 || bitOf (rd 0xC 4) 6
      let skip := x.waitKey && !start
      let avail := rd 0x2C 4 - x.chunkSent
      let tokens := d.txTokens n
      let take := if down || skip then avail else min avail tokens
      let bytes := d.poolRead poolOut (d.dataOff ses (rd 0x20 4 + rd 0x28 4 + x.chunkSent)) take
      let last := complete && decide (x.chunkSent + take = rd 0x2C 4)
      let count := if take = 0 then 0 else 1 + d.free % take
      let d := if take = 0 then d else d.tookFree 1
      let ts := mediaClock (d.stimeToNs (rd 0x38 8)) 90000
      let (d, done) := if take = 0 then (d, true)
        else if skip then (d.add (F.TXF_CNT_DROP_COUNT n) count, true)
        else d.txSend n ts last bytes count
      if !done then d
      else
        let d := d.modTx n (fun x =>
          { x with chunkSent := if last then 0 else x.chunkSent + take, waitKey := x.waitKey && skip
                   tokens := if down || skip then tokens else tokens - take, tokenAt := d.elapsed })
        if last then d.bump (F.SES_CONS_IDX ses 1) else d)

/-- Channels, bits, rate and frames per packet of an essence-3 flow (R401). -/
def Dev.txAudio (d : Dev) (n : Nat) : Nat × Nat × Nat × Nat :=
  let w := d.word (R.TXF_ESS0 n)
  let rate := if w.field 6 1 = 1 then 96000 else 48000
  (w.field 0 5, if w.field 5 1 = 1 then 24 else 16, rate, if w.field 7 1 = 1 then rate / 8000 else rate / 1000)

/-- The ports of an essence-3 flow's mask, in order. -/
def Dev.txPorts (d : Dev) (n : Nat) : List Nat := (List.range 8).filter (fun p => bitOf (d.get (F.TXF_SRC_SRC n)) p)

/-- The samples of a domain frame go to the essence-3 flows whose ports are in the domain (R419). -/
def Dev.audToFlows (d : Dev) (m : Nat) : Dev :=
  (d.txRunning.filter (fun n => d.get (F.TXF_CFG_ESSENCE n) = 3)).foldl (fun d n =>
    let ps := d.txPorts n
    if ps.isEmpty || !ps.all (fun p => d.apDom p = m) then d
    else
      let (ch, _, rate, _) := d.txAudio n
      let v := (ps.flatMap (fun p => [(d.ap p).cur.1, (d.ap p).cur.2])).take ch
      d.modTx n (fun x =>
        { x with aud := x.aud ++ [v], audFirst := if x.aud.isEmpty then d.nowNs * rate / nsPerS else x.audFirst })) d

/-- DOMAIN_FRAME (R411): a frame period of audio domain `m`; `ins` gives, per port, the words that a master input samples. -/
def execDomainFrame (m : Fin 2) (ins : List (Nat × Nat)) (s : State) : Host.Outcome State Fault Refusal :=
  s.run (fun d => if (d.adom m).run then (d.domainFrame m ins).audToFlows m else d)

/-- AUDIO_PACKET_TX (R401, R403): an essence-3 packet leaves after its last sample. -/
def execAudioPacketTx (n : Fin 1024) (s : State) : Host.Outcome State Fault Refusal :=
  s.run (fun d =>
    let x := d.txf n
    let (_, bits, _, per) := d.txAudio n
    if !x.run || d.get (F.TXF_CFG_ESSENCE n) ≠ 3 || x.aud.length < per then d
    else
      let bytes := (x.aud.take per).flatMap (fun f => f.flatMap (fun v => bytesBE (bits / 8) (v % 2 ^ 32 / 2 ^ (32 - bits))))
      let (d, done) := d.txSend n (x.audFirst % 2 ^ 32) false bytes 1
      if done then d.modTx n (fun x => { x with aud := x.aud.drop per, audFirst := x.audFirst + per }) else d)

/-- The ST 2110-40 packets of a raster frame (R401): its timecode and its payload ID. -/
def Dev.ancTx (d : Dev) (r : Nat) : Dev :=
  (d.txRunning.filter (fun n => d.get (F.TXF_CFG_ESSENCE n) = 4 && d.get (F.TXF_SRC_SRC n) = r)).foldl (fun d n =>
    let t := d.stimeToNs (d.rs r).start
    let body := d.tcBytes t ++ bytesLE 1 (d.eget (F.SDI_RS_CFG_STD r)) ++ bytesLE 2 (d.eget (F.RAS_RATE_NUM r)) ++
      bytesLE 2 (d.eget (F.RAS_RATE_DEN r)) ++ bytesLE 1 (d.eget (F.RAS_FMT_YCC r)) ++ bytesLE 1 (d.eget (F.RAS_FMT_TF r))
    (d.txSend n (mediaClock t 90000) true body 1).1) d

/-- RASTER_FRAME_START (R351, R352, R369, R401): frame k of a raster starts at S_k; `phase` is its PLL's phase error in ns. -/
def execRasterFrameStart (r : Fin 6) (phase : Int) (s : State) : Host.Outcome State Fault Refusal :=
  s.run (fun d =>
    if (d.rs r).run && !d.gkMode r then
      let d := d.rasFrameStart r phase (fun p => d.sdiAudioOk p)
      if r.val < 4 then d.ancTx r else d
    else d)

/-! ### Starting and stopping flows (R403, R404, R75) -/

/-- The bit rate in bit/s that a flow adds to an interface, headers included (R403); the packet overhead of 82 octets
(Ethernet, IPv4, UDP, RTP, preamble and gap) is PRESUMED (assumption 21). -/
def Dev.txRate (d : Dev) (n : Nat) : Nat :=
  match d.get (F.TXF_CFG_ESSENCE n) with
  | 1 =>
    let src := d.get (F.TXF_SRC_SRC n)
    let fmt := d.get (F.COL_BR_CFG_FORMAT (src / 8) (src % 8))
    let (o, p) := pgroup (fmt = 2 || fmt = 4) (d.txDepth n)
    let octets := d.get (F.COL_BR_OUT_WH_W (src / 8) (src % 8)) * d.get (F.COL_BR_OUT_WH_H (src / 8) (src % 8)) * o / p
    let per := 180 * d.txBlocks n
    (octets + (octets + per - 1) / per * 82) * 8 * d.txNum n / max 1 (d.txDen n)
  | 2 => d.get (F.TXF_ESS0_WORD n) * 1000
  | 3 =>
    let (ch, bits, rate, per) := d.txAudio n
    rate * ch * bits + rate / max 1 per * 82 * 8
  | _ => 0

/-- The interface rate in bit/s (R399). -/
def Dev.ifRate (d : Dev) (i : Nat) : Nat :=
  match (if i < 4 then d.get F.NET_CFG_ETH0_MODE else d.get F.NET_CFG_ETH1_MODE) with
  | 1 => 100000000000
  | 2 => 25000000000
  | _ => 0

/-- The register for which a flow is refused under NET_CFG_BAD (R403, R404): paths on one Ethernet port, or an interface
whose flows would exceed 98 % of its rate. -/
def Dev.txBad (d : Dev) (n : Nat) : Option Nat :=
  let ps := d.txPaths n
  let others := d.txRunning.filter (· ≠ n)
  if d.flag (F.TXF_CFG_RED n) && d.get (F.TXF_CFG_IF_A n) / 4 = d.get (F.TXF_CFG_IF_B n) / 4 then some (R.TXF_CFG n)
  else if ps.any (fun p => !d.ifExists p.2.1) then some (R.TXF_CFG n)
  else if ps.any (fun p =>
      let used := sumNat ((others.filter (fun m => (d.txPaths m).any (fun q => q.2.1 == p.2.1))).map d.txRate) + d.txRate n
      decide (d.ifRate p.2.1 * 98 < used * 100)) then some (R.TXF_ESS0 n)
  else none

/-- Whether an essence code is refused while a flow is enabled. -/
def essenceBad (e : Nat) : Bool := e = 0 || decide (5 ≤ e)

/-- The register that holds a refused code or an invalid zero of a transmit flow (R75). -/
def Dev.txZero (d : Dev) (n : Nat) : Option Nat :=
  let e := d.get (F.TXF_CFG_ESSENCE n)
  if essenceBad e then some (R.TXF_CFG n)
  else if e = 1 ∧ ((d.word (R.TXF_ESS0 n)).field 28 4 = 0 ∨ 8 < (d.word (R.TXF_ESS0 n)).field 28 4) then some (R.TXF_ESS0 n)
  else if e = 2 ∧ d.get (F.TXF_ESS1_WORD n) = 0 then some (R.TXF_ESS1 n)
  else none

/-- A transmit flow starts or is refused; its EN stands at 1. -/
def Dev.txOn (d : Dev) (n : Nat) : Dev :=
  if (d.txf n).run then d
  else match d.txBad n with
    | some a => (d.eventAt 0x1006 sevFault n [u32 a]).refuse (R.TXF_CFG n)
    | none =>
      let d := d.modTx n (fun _ => { run := true, askedAt := [d.elapsed, d.elapsed], tokens := d.get (F.TXF_ESS1_WORD n), tokenAt := d.elapsed })
      ((d.txPaths n).foldl (fun d p => d.arpAsk n p) d).showTx n

/-- A transmit flow stops. -/
def Dev.txOff (d : Dev) (n : Nat) : Dev :=
  (((d.releaseBy (holdTx n)).releaseBy (holdTx n + 1)).modTx n (fun _ => {})).showTx n

/-- A receive flow joins. -/
def Dev.rxOn (d : Dev) (n : Nat) : Dev :=
  if (d.rxf n).run then d
  else
    let d := d.modRx n (fun _ => { run := true })
    let d := if d.get (F.RXF_CFG_ESSENCE n) = 1 ∧ d.flag (F.DEC_CFG_EN (d.get (F.RXF_DEST_DEST n) % 16)) = false then
        d.modDec (d.get (F.RXF_DEST_DEST n) % 16) (fun y => { y with outs := [], nextPic := 0 })
      else d
    ((d.rxPaths n).map (·.2.1)).foldl (fun d i => d.igmp n i) d

/-- A receive flow leaves. -/
def Dev.rxOff (d : Dev) (n : Nat) : Dev := (d.modRx n (fun _ => {})).set (F.RXF_STATUS_PATHS n) 0

/-! ### Receiving (R404, R405) -/

/-- The STIME that a 90 kHz RTP timestamp names, the latest at or before now. -/
def Dev.stimeOfRtp (d : Dev) (ts : Nat) : Nat :=
  let now := d.nowNs * 90000 / nsPerS
  let t := now - (now + 2 ^ 32 - ts) % 2 ^ 32
  stimeOfNs (t * nsPerS / 90000)

/-- A packet of an essence-1 flow is written into the flow's ring of DEV_STORE buffers (R405): a new frame starts from the
samples of the previous buffer. -/
def Dev.rxVideo (d : Dev) (n : Nat) (p : RtpPacket) : Dev :=
  let k := d.get (F.RXF_DEST_DEST n) % 16
  if d.flag (F.DEC_CFG_EN k) then d
  else
    let w := d.get (F.DEC_MAX_MAX_W k)
    let h := d.get (F.DEC_MAX_MAX_H k)
    let bufs := max 1 (d.get (F.DEC_OUT_RING_BUFS k))
    let ps := pitches p.format w h
    let os := planeOffs p.format w h
    let x := d.rxf n
    let fresh := match x.frame with
      | some (_, ts, _) => ts ≠ p.ts
      | none => true
    let d :=
      if !fresh then d
      else if d.bufHeld (decBufKey k x.nextBuf) then d.modRx n (fun x => { x with frame := none })
      else
        let base := d.decBufAt k x.nextBuf
        let prev := d.decBufAt k ((x.nextBuf + bufs - 1) % bufs)
        let len := sumNat ((planesOf p.format w h).map (fun q => roundUp q.1 256 * q.2)) + 4096 * 3
        let gen := d.poolNat poolDev (base + 0x3C) 4
        let d := if x.fseq = 0 then d else d.poolWrite poolDev (base + 4096) (d.poolRead poolDev (prev + 4096) (min len (d.get (F.DEC_OUT_RING_STRIDE k) * 4096 - 4096)))
        let desc := bytesLE 4 x.fseq ++ bytesLE 2 0 ++ bytesLE 1 (0x80 + k) ++ bytesLE 1 0xFF ++ bytesLE 4 0 ++ bytesLE 4 0 ++
          bytesLE 8 (d.stimeOfRtp p.ts) ++ bytesLE 8 0 ++ bytesLE 2 w ++ bytesLE 2 h ++ bytesLE 1 p.format ++ bytesLE 3 0 ++
          (List.range 3).flatMap (fun i => bytesLE 2 (nth ps i)) ++ bytesLE 2 0 ++
          (List.range 3).flatMap (fun i => bytesLE 4 (nth os i / 4096)) ++ bytesLE 4 (gen + 1)
        (d.poolWrite poolDev base desc).modRx n (fun x => { x with frame := some (x.nextBuf, p.ts, x.lost), lost := false })
    match (d.rxf n).frame with
    | some (i, ts, lost) =>
      if ts ≠ p.ts then d
      else
        let base := d.decBufAt k i
        let sb (v : Nat) : List Byte := if p.format = 4 ∨ p.format = 5 then bytesLE 1 v else bytesLE 2 (v * 2 ^ (16 - p.depth))
        let size := if p.format = 4 ∨ p.format = 5 then 1 else 2
        let lost := lost || (d.rxf n).lost
        let d := p.rows.foldl (fun d r =>
          let (y, x0, a, b, c) := r
          if p.format = 0 then
            [a, b, c].zipIdx.foldl (fun d q =>
              d.poolWrite poolDev (base + nth os q.2 + y * nth ps q.2 + x0 / 2 * 3) (pack12 (q.1.map (fun v => v * 2 ^ (12 - min p.depth 12))))) d
          else if p.format = 1 then
            [a, b, c].zipIdx.foldl (fun d q => d.poolWrite poolDev (base + nth os q.2 + y * nth ps q.2 + 2 * x0) (q.1.flatMap sb)) d
          else
            let d := d.poolWrite poolDev (base + nth os 0 + y * nth ps 0 + size * x0) (a.flatMap sb)
            d.poolWrite poolDev (base + nth os 1 + y * nth ps 1 + size * x0) ((b.zip c).flatMap (fun q => sb q.1 ++ sb q.2))) d
        let d := d.modRx n (fun x => { x with frame := some (i, ts, lost), lost := false })
        if p.marker then
          let d := if lost then d.devPut (base + 8) 4 (2 ^ 18) else d
          let d := (d.devPut (base + 0xC) 4 h).devPut (base + 0x18) 8 d.stime
          let d := d.devPut (base + 0x3C) 4 (d.poolNat poolDev (base + 0x3C) 4 + 1)
          let d := d.modDec k (fun y =>
            let l := y.outs ++ [(i, x.fseq, d.elapsed, lost)]
            { y with outs := l.drop (l.length - 64), nextPic := (x.fseq + 1) % 2 ^ 32 })
          d.modRx n (fun x => { x with frame := none, nextBuf := (i + 1) % bufs, fseq := (x.fseq + 1) % 2 ^ 32 })
        else d
    | none => d

/-- Channels of an essence-3 packet's payload as media-clock samples of a network source (R401, R420): `bits` 16 or 24 by the
payload's length is not knowable from the wire, so the source's flow declares it by `depth`. -/
def audioFrames (bits ch : Nat) : Nat → List Byte → List (List Nat)
  | 0, _ => []
  | fuel + 1, l =>
    let size := bits / 8 * ch
    if size = 0 ∨ l.length < size then []
    else ((List.range ch).map (fun i => beNat ((l.drop (bits / 8 * i)).take (bits / 8)) * 2 ^ (32 - bits))) ::
      audioFrames bits ch fuel (l.drop size)

/-- A released packet is delivered by its flow's essence (R401, R405). -/
def Dev.rxDeliver (d : Dev) (n : Nat) (p : RtpPacket) : Dev :=
  let dest := d.get (F.RXF_DEST_DEST n)
  match d.get (F.RXF_CFG_ESSENCE n) with
  | 1 => d.rxVideo n p
  | 2 =>
    let x := d.rxf n
    let au := x.au ++ p.payload
    if p.marker then
      let d := if x.lost then d.decLoss (dest % 16) else d
      (d.decDeliver (dest % 16) au p.ts false).modRx n (fun x => { x with au := [], lost := false })
    else d.modRx n (fun x => { x with au := au })
  | 3 =>
    let k := dest % 8
    let fs := audioFrames (if p.depth = 16 then 16 else 24) (max 1 p.format) p.payload.length p.payload
    d.modAnet k (fun a => { a with samples := fs.zipIdx.foldl (fun m f =>
      Sparse.put (fun _ => []) m ((p.ts + f.2) % 2 ^ 32) f.1) a.samples })
  | _ =>
    -- the spec names the ring in HOST_WIN and neither its length nor its layout: the place is a free value
    (d.poolWrite poolHost (d.get (F.RXF_BUF_BASE n) * 4096 + d.free) p.payload).tookFree 1

/-- Numbers of a flow's sequence space. -/
def Dev.rxSpace (d : Dev) (n : Nat) : Nat := if d.get (F.RXF_CFG_ESSENCE n) = 1 then 2 ^ 32 else 2 ^ 16

/-- Whether sequence number `a` lies before `b`. -/
def seqBefore (space a b : Nat) : Bool := a ≠ b && decide ((b + space - a) % space < space / 2)

/-- Counts the packets that only path 1 supplied, once path 0 can no longer bring them (R404). -/
def Dev.rxAge (d : Dev) (n : Nat) : Dev :=
  let x := d.rxf n
  let late (g : Nat × Nat × Nat) : Bool := decide (g.2.2 + d.get (F.RXF_SKEW_SKEW_US n) * 1000 < d.elapsed)
  let rec_ := (x.got.filter (fun g => late g && g.2.1 == 1)).length
  if x.got.any late then (d.add (F.RXF_CNT_RECOVERED_COUNT n) rec_).modRx n (fun x => { x with got := x.got.filter (fun g => !late g) })
  else d

/-- Releases the packets that are next in sequence (R404). -/
def Dev.rxRelease : Nat → Dev → Nat → Dev
  | 0, d, _ => d
  | fuel + 1, d, n =>
    let x := d.rxf n
    match x.next with
    | none => d
    | some q =>
      match Sparse.get (fun _ => none) x.win q with
      | none => d
      | some k =>
        let d := d.modRx n (fun x => { x with next := some ((q + 1) % d.rxSpace n), win := Sparse.put (fun _ => none) x.win q none })
        Dev.rxRelease fuel (d.rxDeliver n k.pkt) n

/-- RX_PACKET (R404): a packet of flow `n` arrives on a path: kept once, released in sequence order, merged or discarded. -/
def execRxPacket (n : Fin 256) (path : Fin 2) (p : RtpPacket) (s : State) : Host.Outcome State Fault Refusal :=
  s.run (fun d =>
    let x := d.rxf n
    if !x.run || (path.val = 1 && !d.flag (F.RXF_CFG_RED n)) then d
    else
      let d := (d.set (F.RXF_STATUS_PATHS n) (setBit (d.get (F.RXF_STATUS_PATHS n)) path true)).rxAge n
      let x := d.rxf n
      let space := d.rxSpace n
      let q := p.seq % space
      let next := x.next.getD q
      if seqBefore space q next then
        -- already released or lost: a copy from the first path means that path 1 was not alone
        d.modRx n (fun x => { x with got := if path.val = 0 then x.got.filter (fun g => g.1 != q) else x.got })
      else if (Sparse.get (fun _ => none) x.win q).isSome then
        d.modRx n (fun x => { x with got := if path.val = 0 then x.got.filter (fun g => g.1 != q) else x.got })
      else
        let d := d.bump (F.RXF_CNT_RX_COUNT n)
        let d := d.modRx n (fun x =>
          { x with next := some next
                   win := Sparse.put (fun _ => none) x.win q (some { at_ := d.elapsed, path := path, pkt := { p with seq := q } })
                   got := x.got ++ [(q, path.val, d.elapsed)] })
        Dev.rxRelease ((d.rxf n).win.length + 1) d n)

/-- RX_REORDER_EXPIRY (R404): the window of SKEW_US ends for the next sequence number of a flow, which no path delivered: it
and its missing successors are lost. -/
def execRxReorderExpiry (n : Fin 256) (s : State) : Host.Outcome State Fault Refusal :=
  s.run (fun d =>
    let d := d.rxAge n
    let x := d.rxf n
    let space := d.rxSpace n
    match x.next with
    | none => d
    | some q =>
      let waits := x.win.filterMap (fun e => e.2.map (fun k => ((e.1 + space - q) % space, k.at_)))
      match waits.foldl (fun (m : Option (Nat × Nat)) w => match m with
          | some y => if w.1 < y.1 then some w else m
          | none => some w) none with
      | none => d
      | some (gap, _) =>
        let oldest := waits.foldl (fun m w => min m w.2) d.elapsed
        if !x.run || decide (d.elapsed < oldest + min 50000 (d.get (F.RXF_SKEW_SKEW_US n)) * 1000) || gap = 0 then d
        else
          let d := d.add (F.RXF_CNT_LOST_COUNT n) gap
          let d := if !d.secOver x.lossSec then d
            else (d.eventAt 0x1004 sevNotice n [u8 n, u32 q, u32 gap]).modRx n (fun x => { x with lossSec := d.elapsed + 1 })
          let d := d.modRx n (fun x => { x with next := some ((q + gap) % space), lost := true })
          Dev.rxRelease ((d.rxf n).win.length + 1) d n)

/-- PATH_SILENCE_TIMEOUT (R404): a receive path delivers nothing for 100 ms. -/
def execPathSilenceTimeout (n : Fin 256) (path : Fin 2) (s : State) : Host.Outcome State Fault Refusal :=
  s.run (fun d =>
    if (d.rxf n).run && bitOf (d.get (F.RXF_STATUS_PATHS n)) path then
      (d.set (F.RXF_STATUS_PATHS n) (setBit (d.get (F.RXF_STATUS_PATHS n)) path false)).eventAt 0x1003 sevDegraded n [u8 n, u8 path]
    else d)

/-- Flows start or stop at mode entry; `on` says that flows run in the mode. -/
def Dev.netStart (d : Dev) (on : Bool) : Dev :=
  -- only flows whose EN differs from reset, or that run, can change
  let words := d.regs.words.map (·.1)
  let tx := (words.filter (fun a => decide (0xA10000 ≤ a) && decide (a < 0xA20000) && a % 0x40 == 0)).map (fun a => (a - 0xA10000) / 0x40)
  let rx := (words.filter (fun a => decide (0xA20000 ≤ a) && decide (a < 0xA24000) && a % 0x40 == 0)).map (fun a => (a - 0xA20000) / 0x40)
  let d := (d.txRunning.filter (fun n => !on || !d.flag (F.TXF_CFG_EN n))).foldl Dev.txOff d
  let d := (d.rxRunning.filter (fun n => !on || !d.flag (F.RXF_CFG_EN n))).foldl Dev.rxOff d
  if !on then d
  else
    let d := (tx.filter (fun n => d.flag (F.TXF_CFG_EN n) && !d.isRefused (R.TXF_CFG n))).foldl (fun d n =>
      match d.txZero n with
      | some a => (d.cfgZero a).refuse (R.TXF_CFG n)
      | none => d.txOn n) d
    (rx.filter (fun n => d.flag (F.RXF_CFG_EN n) && !d.isRefused (R.RXF_CFG n))).foldl Dev.rxOn d

end Sys2Proof.Machine
end

