-- ==== Sys2Proof/Machine/Hold.lean ====
section
/-!
DEFINITION. Stopping work, and entering HOLD (R64, R68, R463): the shared operations by which a mode or a HOLD cause ends
what runs.
-/
namespace Sys2Proof.Machine

/-- Capture and development stop: open frames, slots and triggers go, and what they held is released (R64). FSEQ and SID stay. -/
def Dev.stopCapture (d : Dev) : Dev :=
  let d := { d with
    cap := d.cap.map (fun (c : CapCtx) => { c with started := false, slots := [], frames := [], line := none })
    wheels := List.replicate 8 {}
    link := d.link.map (fun (l : LinkPort) => { l with trigQueue := [], xtrigQueue := [], trigEnd := none, rx := none, fsxDue := false })
    trig := d.trig.map (fun (t : TrigSched) => { t with next := none })
    rawEntries := []
    ze := { d.ze with queues := List.replicate 20 [], frames := [], backlog := [] }
    recd := { d.recd with frames := List.replicate 16 [], pre := List.replicate 16 [], opening := [], startHeld := false } }
  d.zeBusy

/-- Sessions stop at once: rows in progress are dropped (R64, R68). -/
def Dev.stopSessions (d : Dev) : Dev :=
  let d := d.running.foldl (fun d s =>
    (d.modSes s (fun x => { x with pics := [], order := [] })).sesStopped s) d
  { d with code := { d.code with ve := List.replicate 68 {} } }

/-- Decoders stop at a picture boundary (R64). -/
def Dev.stopDecoders (d : Dev) : Dev :=
  let d := (List.range 16).foldl (fun d k => d.set (F.DEC_STATUS_STATE k) 0) d
  { d with decs := d.decs.map (fun (x : DecSt) => { x with run := false, input := [] }) }

/-- Open clips close after their last complete frame (R64, R277). -/
def Dev.closeClips (d : Dev) : Dev := (List.range 16).foldl (fun d n => d.closeClip n 0 false) d

/-- Every output goes to its immediate safe state (R463, R531). -/
def Dev.outputsToSafe (d : Dev) : Dev :=
  { d with mode := { d.mode with outputsSafe := true } }.pin pinAllOutputs 0

/-- The sensor links go down: their lanes are electrically idle and what they were doing is dropped (R105, R463). -/
def Dev.linksDown (d : Dev) : Dev :=
  let d := (List.range 8).foldl (fun d p =>
    (((d.setFlag (F.KSL_STATUS_LINK_UP p) false).setFlag (F.KSL_STATUS_TRAINING p) false).setFlag (F.KSL_STATUS_REBUILDING p)
      false).setFlag (F.KSL_CTRL_RETRAIN p) false) d
  { d with link := d.link.map (fun (l : LinkPort) => { bcTag := l.bcTag, trigOrd := l.trigOrd }) }

/-- Everything that outputs stops: rasters, audio, pulses, flows, trigger schedules. -/
def Dev.stopOutputs (d : Dev) : Dev :=
  let d := (d.rasStopAll.audStop.netStart false).trigStopAll
  (List.range 8).foldl (fun d n => d.pgStart n false) d

/-- All work stops (R64, R68). -/
def Dev.stopWork (d : Dev) : Dev :=
  let d := if d.recd.job.isSome then d.offAbort else d
  d.closeClips.stopSessions.stopDecoders.stopCapture.stopOutputs

/-- The bit of a HOLD cause in `DEV_HOLD_CAUSE` (R68). -/
def causeClock : Nat := 0
def causeConfig : Nat := 1
def causeCapacity : Nat := 2
def causeMemory : Nat := 3

/-- The HOLD causes in effect. -/
def Dev.holdCauses (d : Dev) : Nat := (d.word R.DEV_HOLD_CAUSE).toNat % 16

/-- Sets or clears a HOLD cause. -/
def Dev.setCause (d : Dev) (c : Nat) (b : Bool) : Dev :=
  d.setWord R.DEV_HOLD_CAUSE ((d.word R.DEV_HOLD_CAUSE).setField c 1 (b2n b))

/-- A HOLD cause arises (R64, R68): outputs go safe, work stops, and the device is in HOLD; a transition in progress is
abandoned. In HOLD itself, and in BOOT before step 8, the cause is recorded, and step 8 takes the transition; in BRUMATE
there is nothing to hold. -/
def Dev.enterHold (d : Dev) (cause : Nat) : Dev :=
  let m := d.modeCode
  if m = mBrumate then d
  else
  let d := d.setCause cause true
  if m = mHold ∨ m = mBoot ∧ d.boot.step < 8 then d
  else
    let was := d.faultAsserted
    let d := d.outputsToSafe.stopWork.linksDown
    let d := ((d.set F.DEV_MODE_MODE mHold).set F.DEV_MODE_PREV m).setFlag F.DEV_MODE_IN_TRANSITION false
    let d := (d.set F.DEV_SCHED_STATUS_TICKS 0).set F.DEV_SCHED_STATUS_MIGRATIONS 0
    let d := (d.set F.DEV_MODE_TARGET 0).setFlag F.DEV_MODE_REQ_PENDING false
    let d := { d with
      mode := { d.mode with chain := [], pendingReq := none, holdMode := m, autoLatch := [] }
      boot := { d.boot with step := 9, pwrWait := false, refWait := false } }
    let d := (d.driveFault was).keepCount 5
    (d.event 0x0101 sevInfo [u8 m, u8 mHold]).event 0x0104 sevFault [u8 d.holdCauses, u8 m]

end Sys2Proof.Machine
end

