-- ==== Sys2Proof/Machine/VeFault.lean ====
section
/-!
DEFINITION. Spare-engine substitution of coding engines (R311-R314), and the moves of R72 that a block reset makes.
-/
namespace Sys2Proof.Machine

/-- Index of a quadrant's spare VE (R17). -/
def veSpareOf (q : Nat) : Nat := 17 * q + 16

/-- Sets the fence bit of a VE (R313). -/
def Dev.setVeFence (d : Dev) (e : Nat) : Dev :=
  let d := if e < 32 then d.set F.VE_FENCE0_FENCED (setBit (d.get F.VE_FENCE0_FENCED) e true)
    else if e < 64 then d.set F.VE_FENCE1_FENCED (setBit (d.get F.VE_FENCE1_FENCED) (e - 32) true)
    else d.set F.VE_FENCE2_FENCED (setBit (d.get F.VE_FENCE2_FENCED) (e - 64) true)
  d.keepCount 4

/-- Sets what quadrant `q`'s spare VE replaces; none frees it (VE_SPARE_MAP). -/
def Dev.setVeSpare (d : Dev) (q : Nat) (e : Option Nat) : Dev :=
  let w := d.word R.VE_SPARE_MAP
  d.setWord R.VE_SPARE_MAP ((w.setField (8 * q) 7 (e.getD 0)).setField (8 * q + 7) 1 (b2n e.isSome))

/-- Whether a quadrant's spare VE is in use (R72): it replaces an engine, is lent, or is itself fenced. -/
def Dev.veSpareUsed (d : Dev) (q : Nat) : Bool := (d.veSpare q).1 || d.veFenced (veSpareOf q)

/-- Engine `a` of every session and picture becomes engine `b`; those sessions are unmarked for migration (R314). -/
def Dev.veRename (d : Dev) (a b : Nat) : Dev :=
  let sub (l : List Nat) : List Nat := l.map (fun e => if e = a then b else e)
  let d := d.running.foldl (fun d s =>
    if (d.ses s).engines.contains a ∨ (d.ses s).pics.any (fun p => p.engines.contains a) then
      d.modSes s (fun x =>
        { x with engines := sub x.engines, marked := none, pics := x.pics.map (fun (p : PicSt) => { p with engines := sub p.engines }) })
    else d) d
  (List.range 8).foldl (fun d g => d.modGrp g (fun x => { x with engines := sub x.engines })) d

/-- The rows in progress on an engine, LIVE first. -/
def VeSt.jobs (v : VeSt) : List RowJob := v.live.toList ++ v.other.toList

/-- Interrupted rows drop what they coded and wait for their re-run (R312). -/
def Dev.interrupt (d : Dev) (js : List RowJob) : Dev :=
  js.foldl (fun d j => d.modRow j.ses j.c j.row (fun r => { r with state := 5, sub := true })) d

/-- Moves the work of engine `a` to engine `b` by checkpoint: queues go over, rows in progress restart there (R313). -/
def Dev.veMove (d : Dev) (a b : Nat) : Dev :=
  let v := d.ve a
  let js := v.jobs
  let d := (d.interrupt js).veRename a b
  let d := d.modVe b (fun w => { w with queue := w.queue ++ v.queue, held := w.held ++ v.held, lastLive := v.lastLive })
  let d := d.modVe a (fun _ => {})
  let d := { d with code := { d.code with subs := setAt d.code.subs (a / 17) (some { eng := a, jobs := js }) } }
  (d.showVe a).showVe b

/-- The first session to stop for lack of engines (R314): BACKGROUND, then LADDER, lowest PRIO, highest index. -/
def Dev.nextToStop (d : Dev) (ss : List Nat) : Option Nat :=
  ([classBackground, classLadder].flatMap (fun c =>
    (List.range 8).flatMap (fun p => (ss.filter (fun s => d.sesClass s = c && d.get (F.SES_CFG_PRIO s) = p)).reverse))).head?

/-- Sessions to stop until the checks of R299 hold; none where a LIVE or RECORD session would have to stop. -/
def Dev.stopList : Nat → Dev → List Nat → Option (List Nat)
  | 0, _, _ => none
  | fuel + 1, d, ss =>
    if (d.admitFails d.veActive.length ss none).isNone then some []
    else match d.nextToStop ss with
      | none => none
      | some s => (Dev.stopList fuel d (ss.filter (· ≠ s))).map (fun l => s :: l)

/-- The rows `js` go back to waiting. -/
def Dev.rowsWait (d : Dev) (js : List RowJob) : Dev :=
  js.foldl (fun d j => d.modRow j.ses j.c j.row (fun r => { r with state := 2 })) d

/-- Replaces engine `e` by `b` among a session's engines. -/
def SesSt.swapEngine (x : SesSt) (e b : Nat) : SesSt :=
  let sub (l : List Nat) : List Nat := l.map (fun x => if x = e then b else x)
  { x with engines := sub x.engines, marked := none, pics := x.pics.map (fun (p : PicSt) => { p with engines := sub p.engines }) }

/-- The rows of session `s` on the failed engine `e`, whose state was `v` with rows `js`, go to another engine of the score order
that the session does not use yet, or else to one that it uses. -/
def Dev.veReplace (d : Dev) (e : Nat) (v : VeSt) (js : List RowJob) (s : Nat) : Dev :=
  let es := (d.ses s).engines
  let cand := d.place s (es.length + 1) (d.share s) (d.sesClass s = classLive)
  let b := ((cand.filter (fun x => !es.contains x)).head?).getD (((es.filter (· ≠ e)).head?).getD e)
  let own (l : List RowJob) : List RowJob := l.filter (fun j => j.ses == s)
  let d := (d.modSes s (fun x => x.swapEngine e b)).rowsWait (own js)
  (d.modVe b (fun w => { w with queue := w.queue ++ own js ++ own v.queue, held := w.held ++ own v.held })).veSelect b

/-- The sessions `l` stop for want of the engine `e`; none where that is not enough: the device enters HOLD. -/
def Dev.veStops (d : Dev) (e : Nat) (l : Option (List Nat)) : Dev :=
  match l with
  | some l => (l.foldl (fun d s => (d.sesStop s).1) d).eventAt 0x0D06 sevFault e [u8 e, u8 (e / 17), u16 l.length]
  | none => (d.eventAt 0x0D06 sevFault e [u8 e, u8 (e / 17), u16 0]).enterHold causeCapacity

/-- A VE fails in a quadrant whose spare is in use: it is fenced, its rows are re-placed, and sessions stop until the checks
of R299 hold, or the device enters HOLD (R314). -/
def Dev.veNoSpare (d : Dev) (e : Nat) : Dev :=
  let v := d.ve e
  let js := v.jobs
  let d := (d.setVeFence e).interrupt js
  let users := d.running.filter (fun s => (d.ses s).engines.contains e)
  let d := d.modVe e (fun _ => {})
  let d := users.foldl (fun d s => d.veReplace e v js s) d
  let ss := d.running.filter (fun s => d.get (F.SES_STATUS_STATE s) ≠ 3)
  let d := d.showLoad
  d.veStops e (Dev.stopList 257 d ss)

/-- A block reset or the return after it gives its spare up for good: its engine has failed (R72). -/
def Dev.endLoan (d : Dev) (block e : Nat) : Dev :=
  { d with
    blockReset := d.blockReset.map (fun (b : BlockResetSt) => if b.block = block ∧ b.inst = e then { b with loan := false } else b)
    srv := { d.srv with returns := d.srv.returns.filter (fun x => !(x == (block, e))) } }

/-- What a VE fault does to fences, spares and work (R313, R314, R72). -/
def Dev.veFaultWork (d : Dev) (e : Nat) : Dev :=
  let q := e / 17
  if d.veFenced e then d
  else if (d.veSpare q) = (true, e) then
    -- the engine under block reset fails: the spare keeps its work for good (R72)
    let d := (d.setVeFence e).endLoan 0x0D e
    let work := !(d.ve e).jobs.isEmpty || !(d.ve e).queue.isEmpty || !(d.ve e).held.isEmpty
    match d.code.subs.getD q none with
    | some x =>
      -- rows that the loan interrupted are still being re-run: their substitution is reported when they are done
      { d with code := { d.code with subs := setAt d.code.subs q (some { x with quiet := false }) } }.showLoad
    | none =>
      if work then ((d.veMove e (veSpareOf q)).showVe e).showLoad
      else ({ d with code := { d.code with subs := setAt d.code.subs q (some { eng := e, jobs := [], read := true }) } }.subSettle q).showLoad
  else if e = veSpareOf q ∧ (d.veSpare q).1 = false then
    -- an idle spare is fenced: it carries no work
    ((d.setVeFence e).showVe e).showLoad
  else if d.veSpareUsed q then d.veNoSpare e
  else ((((d.setVeFence e).setVeSpare q (some e)).veMove e (veSpareOf q)).showVe e).showLoad

/-- A VE fault (R313, R314, R72). -/
def Dev.veFault (d : Dev) (e : Nat) : Dev := (d.veFaultWork e).showCaps

/-- VE_FAULT (R313): parity, ECC or the control-path compare finds a fault in engine `e`. -/
def execVeFault (e : Fin 68) (s : State) : Host.Outcome State Fault Refusal := s.run (fun d => d.veFault e)

/-- ROW_WATCHDOG (R313): a row of engine `e` has run longer than FACTOR / 64 × t_row, pauses not counted; FACTOR below 72
acts as 72. -/
def execRowWatchdog (e : Fin 68) (s : State) : Host.Outcome State Fault Refusal :=
  s.run (fun d =>
    let v := d.ve e
    let factor := max 72 (d.get F.VE_ROW_WDOG_FACTOR)
    let late (j : RowJob) (pausedNow : Bool) : Bool :=
      !pausedNow && decide (factor * d.rowNs j.ses < 64 * (d.elapsed - j.start - j.paused))
    if v.live.any (fun j => late j false) || v.other.any (fun j => late j v.paused) then d.veFault e else d)

/-- CHECKPOINT_READ_DONE (R313 steps 3 and 4): the spare of quadrant `q` has read the checkpoints and re-runs the interrupted
rows from their start, LIVE first, then the queue. -/
def execCheckpointReadDone (q : Fin 4) (s : State) : Host.Outcome State Fault Refusal :=
  s.run (fun d =>
    match d.code.subs.getD q none with
    | none => d
    | some x =>
      if x.read then d
      else
        let spare := veSpareOf q
        let d := { d with code := { d.code with subs := setAt d.code.subs q (some { x with read := true }) } }
        let d := x.jobs.foldl (fun d j =>
          let live := d.sesClass j.ses = classLive
          let d := d.modRow j.ses j.c j.row (fun r =>
            { r with state := if live then 3 else 4, spent := 0, units := 0, flags := [], bytes := [], salv := r.salv0, skip := r.skip0 })
          let j := { j with start := d.elapsed, paused := 0, pausedAt := d.elapsed }
          d.modVe spare (fun v =>
            if live then { v with live := some j, lastLive := some d.elapsed } else { v with other := some j, paused := true })) d
        (d.subSettle q).veSelect spare)

end Sys2Proof.Machine
end

