-- ==== Sys2Proof/Machine/Memory.lean ====
section
/-!
DEFINITION. HBM3E memory (R423-R446): the symbol code, reads and writes of pools block by block, the stripe buffers, the
patrol scrubber, and the loss of pseudo-channels and stacks.
-/
namespace Sys2Proof.Machine

/-! ### The symbol code (R436) -/

/-- Multiplication by α in GF(2^8) with polynomial x^8 + x^4 + x^3 + x^2 + 1. -/
def gfDouble (x : Nat) : Nat := if x < 128 then 2 * x else (2 * x) ^^^ 0x11D

/-- The product of `a` and `b` in the field, over the low `n` bits of `b`. -/
def gfMul : Nat → Nat → Nat → Nat
  | 0, _, _ => 0
  | n + 1, a, b => (if b % 2 = 1 then a else 0) ^^^ gfMul n (gfDouble a) (b / 2)

/-- α^k. -/
def gfPow : Nat → Nat
  | 0 => 1
  | k + 1 => gfDouble (gfPow k)

/-- Syndrome `j` of a list of symbol errors (symbol, error value). -/
def syndrome (j : Nat) (errs : List (Nat × Nat)) : Nat :=
  errs.foldl (fun s e => s ^^^ gfMul 8 (gfPow (j * e.1)) e.2) 0

/-- What the decoder of R436 finds: a code word, one symbol in error (place and value), or more. -/
inductive EccFound where
  | clean | one (p v : Nat) | more
  deriving DecidableEq, Repr

/-- The decoder of R436 over the 67 symbols of a block. -/
def eccCheck (errs : List (Nat × Nat)) : EccFound :=
  let s0 := syndrome 0 errs
  let s1 := syndrome 1 errs
  let s2 := syndrome 2 errs
  if s0 = 0 ∧ s1 = 0 ∧ s2 = 0 then .clean
  else
    match (List.range 67).find? (fun p => gfMul 8 (gfPow p) s0 == s1 && gfMul 8 (gfPow (2 * p)) s0 == s2 && s0 != 0) with
    | some p => .one p s0
    | none => .more

/-! ### Failing parts (R439-R442) -/

/-- The pools by index. -/
def poolsAll : List Nat := [0, 1, 2, 3, 4, 5]

/-- The parity pools that the image declares. -/
def Dev.parityPools (d : Dev) : List Nat := poolsAll.filter (fun n => d.poolForm n = .parity && d.poolSize n != 0)

/-- Pools without parity that use stack `h` (R427). -/
def Dev.barePools (d : Dev) (h : Nat) : List Nat :=
  poolsAll.filter (fun n => d.poolSize n != 0 && (d.poolForm n = .interleaved || d.poolForm n = .home h))

/-- Whether some pseudo-channel index is unavailable on two stacks (R441). -/
def Dev.twoLost (d : Dev) : Bool :=
  (List.range 32).any (fun pc => decide (2 ≤ ((List.range 4).filter (fun h => !d.pcOk h pc)).length))

/-- The state of R441: HOLD with cause MEMORY, and the event as it is reached for the first time. -/
def Dev.checkRedundancy (d : Dev) : Dev :=
  if !d.twoLost || d.parityPools.isEmpty then d
  else if d.flag F.MEM_STATUS_NO_REDUNDANCY then d.enterHold causeMemory
  else
    let d := d.set F.MEM_STATUS_NO_REDUNDANCY 1
    let fail (h : Nat) : Nat := if d.flag (F.MEM_STACK_STATUS_FAILED h) then 0xFFFFFFFF else d.get (F.MEM_STACK_FAIL_PC h)
    (d.event 0x1306 sevHalt ((List.range 4).map (fun h => u32 (fail h)))).enterHold causeMemory

/-- Pools without parity lose the data of a failed part of stack `h`: reported once per pool (R442). -/
def Dev.poolsLost (d : Dev) (h : Nat) : Dev :=
  (d.barePools h).foldl (fun d n =>
    if d.mem.lostPools.contains n then d
    else ({ d with mem := { d.mem with lostPools := d.mem.lostPools ++ [n] } }).eventAt 0x130B sevFault h [u8 n, u8 h]) d

/-- A stack fails: it is fenced (R439). Cause 1 PHY, 2 pseudo-channels, 3 temperature, 4 training. -/
def Dev.stackFail (d : Dev) (h cause : Nat) : Dev :=
  if d.flag (F.MEM_STACK_STATUS_FAILED h) then d
  else
    let d := ((d.set (F.MEM_STACK_STATUS_FAILED h) 1).set (F.MEM_STACK_FAIL_PC h) 0xFFFFFFFF).set F.MEM_STATUS_DEGRADED 1
    ((d.eventAt 0x1305 sevDegraded h [u8 h, u8 cause]).poolsLost h).checkRedundancy

/-- A pseudo-channel fails: it is fenced, and with eight of them the stack (R439). Cause 1 errors, 2 timeout, 3 PHY,
4 training. -/
def Dev.pcFail (d : Dev) (h pc cause : Nat) : Dev :=
  if !d.pcOk h pc then d
  else
    let m := setBit (d.get (F.MEM_STACK_FAIL_PC h)) pc true
    let d := (d.set (F.MEM_STACK_FAIL_PC h) m).set F.MEM_STATUS_DEGRADED 1
    let d := (d.eventAt 0x1304 sevDegraded h [u8 h, u8 pc, u8 cause]).poolsLost h
    if 8 ≤ ((List.range 32).filter (bitOf m)).length then d.stackFail h 2 else d.checkRedundancy

/-- The pool byte offset of a stack-local address, or none for free space and parity blocks: (pool, offset). -/
def Dev.poolAt (d : Dev) (h l : Nat) : Option (Nat × Nat) :=
  poolsAll.findSome? (fun n =>
    let size := d.poolSize n
    let x := l - d.poolBase n
    if l < d.poolBase n then none
    else match d.poolForm n with
      | .parity =>
        if 3 * x < size ∧ h ≠ x / 4096 % 4 then some (n, x / 4096 * 12288 + (h + 3 - x / 4096 % 4) % 4 * 4096 + x % 4096) else none
      | .interleaved => if 4 * x < size then some (n, x / 4096 * 16384 + h * 4096 + x % 4096) else none
      | .home k => if k = h ∧ x < size then some (n, x) else none
      | .bad => none)

/-- The parity pool and stripe that a stack-local address belongs to, parity blocks included. -/
def Dev.stripeAt (d : Dev) (l : Nat) : Option (Nat × Nat) :=
  d.parityPools.findSome? (fun n =>
    if d.poolBase n ≤ l ∧ 3 * (l - d.poolBase n) < d.poolSize n then some (n, (l - d.poolBase n) / 4096) else none)

/-! ### One block -/

/-- How the check of a stored block ends. -/
inductive BlockState where
  | good | rebuilt | poison
  deriving DecidableEq, Repr

/-- An error list is XORed into the stored data bytes, and the block then holds a code word. -/
def Dev.bakeErr (d : Dev) (h l : Nat) (errs : List (Nat × Nat)) : Dev :=
  let b := l / 64 * 64
  let d := errs.foldl (fun d e =>
    if e.1 < 64 then d.setCell h (b + e.1) (d.cell h (b + e.1) ^^^ BitVec.ofNat 8 e.2) else d) d
  d.clearErr h l

/-- Counts an uncorrectable read of a pseudo-channel; the sixteenth in one second fails it (R439). -/
def Dev.countUncorr (d : Dev) (h pc : Nat) : Dev :=
  let l := (d.elapsed :: (Sparse.get (fun _ => []) d.mem.uncorr (32 * h + pc)).filter (fun t =>
    decide (d.elapsed < t + nsPerS))).take 16
  let d := { d with mem := { d.mem with uncorr := Sparse.put (fun _ => []) d.mem.uncorr (32 * h + pc) l } }
  let d := d.bump (F.MEM_ECC_CNT_UNCORR h)
  if 16 ≤ l.length then d.pcFail h pc 1 else d

/-- Counts a rebuilt block; the blocks counted in one second stay within 65,535 (`MEM_PARITY_CNT.RECON`). -/
def Dev.countRecon (d : Dev) : Dev :=
  let sec := d.elapsed / nsPerS
  let n := if d.mem.reconSecond = sec then d.mem.reconCount else 0
  let d' := { d with mem := { d.mem with reconSecond := sec, reconCount := n + 1 } }
  if n < 65535 then d'.bump F.MEM_PARITY_CNT_RECON else d

/-- Corrects one symbol of a block, counts it, and reports at most once per second per stack (R437). -/
def Dev.corrected (d : Dev) (h l : Nat) : Dev :=
  let d := d.bump (F.MEM_ECC_CNT_CORRECTED h)
  if !d.secOver (Sparse.get (fun _ => 0) d.mem.corrSecond h) then d
  else
    let d := { d with mem := { d.mem with corrSecond := Sparse.put (fun _ => 0) d.mem.corrSecond h (d.elapsed + 1) } }
    d.eventAt 0x1301 sevInfo h [u8 h, u8 (pcOf l), u64 (l / 64 * 64)]

/-- A block is written back with POISON set, and reported with its pool and offset (R437). -/
def Dev.poisonBlock (d : Dev) (h l pool off : Nat) : Dev :=
  ((d.setPoison h l true).clearErr h l).eventAt 0x1303 sevFault h [u8 pool, u64 off]

/-- Reads and checks the stored block of an available part, correcting a single symbol (R437): whether it holds good data
afterwards. An uncorrectable block is counted. -/
def Dev.checkStored (d : Dev) (h l : Nat) : Bool × Dev :=
  if d.poisoned h l then (false, d)
  else
    let errs := Sparse.get (fun _ => []) d.mem.err (blockKey h l)
    if errs.isEmpty then (true, d)
    else match eccCheck errs with
      | .clean => (true, d.bakeErr h l errs)
      | .one p v => (true, (d.bakeErr h l (errs ++ [(p, v)])).corrected h l)
      | .more => (false, d.countUncorr h (pcOf l))

/-- Checks the block of stack `k` at `l`; `bad` is the first that failed before it. -/
def Dev.checkOther (d : Dev) (bad : Option Nat) (k l : Nat) : Option Nat × Dev :=
  if !d.locOk k l then (bad.or (some k), d)
  else
    let r := d.checkStored k l
    (if r.1 then bad else bad.or (some k), r.2)

/-- Checks the other three blocks of a stripe's granule: whether all are good, and the first that is not. -/
def Dev.checkOthers (d : Dev) (h l : Nat) : Option Nat × Dev :=
  ((List.range 4).filter (· ≠ h)).foldl (fun p k => p.2.checkOther p.1 k l) (none, d)

/-- A second fault in one stripe, found at stack `k`: the granule is poisoned (R441). -/
def Dev.secondFault (d : Dev) (n o k l : Nat) : Dev :=
  if d.locOk k l && !d.poisoned k l then
    let p := (d.poolAt k l).getD (n, o / 64 * 64)
    d.poisonBlock k l p.1 (p.2 / 64 * 64)
  else d

/-- Reads a block whose own stack or pseudo-channel has failed: from its stripe's other blocks where the pool has parity. -/
def Dev.readLost (d : Dev) (n o h l : Nat) : BlockState × Dev :=
  match d.poolForm n with
  | .parity =>
    let r := d.checkOthers h l
    match r.1 with
    | none => (.rebuilt, r.2.countRecon)
    | some k => (.poison, r.2.secondFault n o k l)
  | _ => (.poison, d.poolsLost h)

/-- A block of a pool beyond correction: rebuilt from its stripe where the pool has parity and nothing else fails. -/
def Dev.readBad (d : Dev) (n o h l : Nat) : BlockState × Dev :=
  match d.poolForm n with
  | .parity =>
    let r := d.checkOthers h l
    if r.1.isNone then (.rebuilt, ((r.2.clearErr h l).countRecon).eventAt 0x1302 sevNotice h [u8 n, u64 (o / 64 * 64)])
    else (.poison, r.2.poisonBlock h l n (o / 64 * 64))
  | _ => (.poison, d.poisonBlock h l n (o / 64 * 64))

/-- A read of the 64-byte block at offset `o` of pool `n` from the stacks (R437, R440-R442): it is good, was rebuilt, or is
poisoned. -/
def Dev.readBlock (d : Dev) (n o : Nat) : BlockState × Dev :=
  let p := d.locate n o
  if !d.locOk p.1 p.2 then d.readLost n o p.1 p.2
  else if d.poisoned p.1 p.2 then (.poison, d)
  else
    let r := d.checkStored p.1 p.2
    if r.1 then (.good, r.2) else r.2.readBad n o p.1 p.2

/-- The requested block, served from the stripe buffer that holds its granule, else from the stacks (R433). -/
def Dev.fetchBlock (d : Dev) (n o : Nat) : BlockState × Dev :=
  match d.poolForm n with
  | .parity =>
    match d.bufOf? n (o / 12288) with
    | some b => if (Sparse.get (fun _ => []) b.gran (o % 12288 / 64)).isEmpty then d.readBlock n o else (.good, d)
    | none => d.readBlock n o
  | _ => d.readBlock n o

/-- A request leaves power-down (R445). -/
def Dev.wakePc (d : Dev) (n o : Nat) : Dev :=
  let (h, l) := d.locate n o
  { d with mem := { d.mem with powerDown := Sparse.put (fun _ => false) d.mem.powerDown (32 * h + pcOf l) false } }

/-- Symbol errors that the stacks have met: (block of the request, symbol, error value), put on the stored blocks. -/
def Dev.upset (d : Dev) (n o : Nat) (ups : List (Nat × Nat × Nat)) : Dev :=
  ups.foldl (fun d u =>
    let (h, l) := d.locate n (o / 64 * 64 + 64 * u.1)
    let k := blockKey h l
    if u.2.1 < 67 ∧ u.2.2 % 256 ≠ 0 then
      let old := Sparse.get (fun _ => []) d.mem.err k
      { d with mem := { d.mem with err := Sparse.put (fun _ => []) d.mem.err k (old ++ [(u.2.1, u.2.2 % 256)]) } }
    else d) d

/-- Offsets of the 64-byte blocks that `len` bytes from `o` touch. -/
def blocksOf (o len : Nat) : List Nat :=
  if len = 0 then [] else (List.range ((o + len - 1) / 64 - o / 64 + 1)).map (fun i => (o / 64 + i) * 64)

/-- Drops a request that passes the end of its pool: the event at most once per second per requester (R429). -/
def Dev.boundsEvent (d : Dev) (req n o : Nat) : Dev :=
  if !d.secOver (Sparse.get (fun _ => 0) d.mem.boundsSecond req) then d
  else
    let d := { d with mem := { d.mem with boundsSecond := Sparse.put (fun _ => 0) d.mem.boundsSecond req (d.elapsed + 1) } }
    d.eventAt 0x130C sevFault req [u32 req, u8 n, u64 o]

/-- Fetches the block at `o` of a read at `off`, and notes its place where it is poisoned. -/
def Dev.fetchNote (d : Dev) (bad : List Nat) (n off o : Nat) : List Nat × Dev :=
  let r := (d.wakePc n o).fetchBlock n o
  (if r.1 = .poison then bad ++ [(o - off / 64 * 64) / 64] else bad, r.2)

/-- HBM_READ (R437): requester `req` reads `len` bytes of pool `n` at `off`; `ups` are symbol errors that the stored blocks
of the request have met. The data goes back to the requester, zeros with a poison indication for poisoned blocks. -/
def execHbmRead (req : Fin 1024) (n : Fin 6) (off len : Nat) (ups : List (Nat × Nat × Nat)) (s : State) :
    Host.Outcome State Fault Refusal :=
  s.run (fun d =>
    if d.poolSize n < off + len then (d.boundsEvent req n off).emit (.memData req (List.replicate len 0) [])
    else
      let r := (blocksOf off len).foldl (fun p o => p.2.fetchNote p.1 n off o) (([] : List Nat), d.upset n off ups)
      let data := (List.range len).map (fun i =>
        if r.1.contains ((off + i) / 64 - off / 64) then (0 : Byte) else r.2.poolByte n (off + i))
      r.2.emit (.memData req data r.1))

/-- The reads of old data and old parity that a read-modify-write of a buffer's granules makes, with their handling
(R433, R437). -/
def Dev.rmwReads (d : Dev) (b : StripeBuf) : Dev :=
  if b.gran.length = 192 then d
  else b.gran.foldl (fun d g =>
    let (h, l) := d.locate b.pool (b.stripe * 12288 + g.1 * 64)
    let p := b.stripe % 4
    let d := if d.locOk h l && d.locOk p l then (d.readBlock b.pool (b.stripe * 12288 + g.1 * 64)).2 else d
    if d.locOk p l then (d.checkStored p l).2 else d) d

/-- HBM_WRITE (R433, R437): requester `req` writes bytes to pool `n` at `off`. A block that is written in part is read first,
with the handling of R437; blocks of a parity pool go to their stripe's buffer. -/
def execHbmWrite (req : Fin 1024) (n : Fin 6) (off : Nat) (bytes : List Byte) (ups : List (Nat × Nat × Nat)) (s : State) :
    Host.Outcome State Fault Refusal :=
  s.run (fun d =>
    if d.poolSize n < off + bytes.length then d.boundsEvent req n off
    else
      let d := d.upset n off ups
      let d := (blocksOf off bytes.length).foldl (fun d o =>
        let d := Dev.wakePc d n o
        if o < off ∨ off + bytes.length < o + 64 then (d.fetchBlock n o).2 else d) d
      d.poolWrite n off bytes)

/-- STRIPE_BUFFER_IDLE (R433): the buffer of stripe `stripe` of pool `n` has had no new data for 4,096 FAB cycles and is
written out by read-modify-write. -/
def execStripeBufferIdle (n : Fin 6) (stripe : Nat) (s : State) : Host.Outcome State Fault Refusal :=
  s.run (fun d =>
    match d.bufOf? n stripe with
    | some b => (d.rmwReads b).writeOut b
    | none => d)

/-! ### The scrubber (R438) -/

/-- 64-byte blocks per stack. -/
def Dev.stackBlocks (d : Dev) : Nat := d.get F.DEV_CAPS_STACK_GIB * 2 ^ 24

/-- The scrubber checks the parity of the granule at address `l`, all of whose blocks must be clean. -/
def Dev.scrubParity (d : Dev) (n stripe l : Nat) : Dev :=
  let p := stripe % 4
  let clean := (List.range 4).all (fun h =>
    d.locOk h l && !d.poisoned h l && (Sparse.get (fun _ => []) d.mem.err (blockKey h l)).isEmpty)
  let b := l / 64 * 64
  let par (i : Nat) : Byte := d.cell ((p + 1) % 4) (b + i) ^^^ d.cell ((p + 2) % 4) (b + i) ^^^ d.cell ((p + 3) % 4) (b + i)
  if clean && (List.range 64).any (fun i => d.cell p (b + i) != par i) then
    let d := (List.range 64).foldl (fun d i => d.setCell p (b + i) (par i)) d
    (d.bump F.MEM_PARITY_CNT_FIXES).eventAt 0x1307 sevNotice p [u8 n, u32 stripe]
  else d

/-- The scrubber reads a block that no pool's data holds: free space, or a parity block of a stripe. -/
def Dev.scrubFree (d : Dev) (h l : Nat) : Dev :=
  let r := d.checkStored h l
  if r.1 then r.2
  else match r.2.stripeAt l with
    | some (n, stripe) =>
      let c := r.2.checkOthers h l
      if c.1.isNone then (c.2.clearErr h l).countRecon.eventAt 0x1302 sevNotice h [u8 n, u64 (stripe * 12288)]
      else c.2.poisonBlock h l n (stripe * 12288)
    | none => (r.2.setPoison h l true).clearErr h l

/-- Counts a block that the scrubber corrected: CORRECTED of its stack moved from `count`. -/
def Dev.scrubNote (d : Dev) (h count : Nat) : Dev :=
  if d.get (F.MEM_ECC_CNT_CORRECTED h) ≠ count then { d with mem := { d.mem with scrubFixed := d.mem.scrubFixed + 1 } } else d

/-- The scrubber reads the block at a stack-local address; a stripe that a buffer holds is skipped. -/
def Dev.scrubBlock (d : Dev) (h l : Nat) : Dev :=
  if !d.locOk h l then d
  else
    let count := d.get (F.MEM_ECC_CNT_CORRECTED h)
    let d := match d.poolAt h l with
      | some (n, o) => (d.readBlock n o).2
      | none => d.scrubFree h l
    let d := d.scrubNote h count
    match d.stripeAt l with
    | some (n, stripe) => if h = stripe % 4 then d.scrubParity n stripe l else d
    | none => d

/-- A pass of the scrubber ends (R438): MEM_SCRUB_PASS with its duration and corrections. -/
def Dev.scrubEnd (d : Dev) : Dev :=
  let dur := (d.elapsed - d.mem.scrubFrom) / nsPerS
  let d := (d.bump F.MEM_SCRUB_STATUS_PASSES).event 0x1308 sevInfo [u32 dur, u32 d.mem.scrubFixed]
  { d with mem := { d.mem with scrubStack := 0, scrubBlock := 0, scrubFrom := d.elapsed, scrubFixed := 0 } }.set
    F.MEM_SCRUB_STATUS_PROGRESS 0

/-- Upsets that the scrubber meets in a block: (symbol, value) pairs. -/
def Dev.scrubMet (d : Dev) (h l : Nat) (ups : List (Nat × Nat)) : Dev :=
  let old := Sparse.get (fun _ => []) d.mem.err (blockKey h l)
  let new := (ups.filter (fun u => decide (u.1 < 67) && u.2 % 256 != 0)).map (fun u => (u.1, u.2 % 256))
  { d with mem := { d.mem with err := Sparse.put (fun _ => []) d.mem.err (blockKey h l) (old ++ new) } }

/-- Whether a stripe buffer holds the stripe of a block. -/
def Dev.scrubHeld (d : Dev) (l : Nat) : Bool :=
  match d.stripeAt l with
  | some (n, stripe) => (d.bufOf? n stripe).isSome
  | none => false

/-- Notes a block to come back to. -/
def Dev.scrubSkip (d : Dev) (h l : Nat) : Dev := { d with mem := { d.mem with scrubSkipped := d.mem.scrubSkipped ++ [(h, l)] } }

/-- The scrubber's place. -/
def Dev.scrubPlace (d : Dev) (stack block : Nat) : Dev := { d with mem := { d.mem with scrubStack := stack, scrubBlock := block } }

/-- The place after `done` blocks of a pass. -/
def Dev.scrubAt (d : Dev) (done : Nat) : Dev :=
  (d.scrubPlace (done / d.stackBlocks) (done % d.stackBlocks)).set F.MEM_SCRUB_STATUS_PROGRESS (done * 1000 / (4 * d.stackBlocks))

/-- The next block in order. -/
def Dev.scrubNext (d : Dev) (ups : List (Nat × Nat)) : Dev :=
  let h := d.mem.scrubStack
  let l := 64 * d.mem.scrubBlock
  let done := h * d.stackBlocks + d.mem.scrubBlock + 1
  let d := (if d.scrubHeld l then d.scrubSkip h l else (d.scrubMet h l ups).scrubBlock h l).scrubAt done
  if done = 4 * d.stackBlocks ∧ d.mem.scrubSkipped.isEmpty then d.scrubEnd else d

/-- The blocks left to come back to. -/
def Dev.scrubLeft (d : Dev) (l : List (Nat × Nat)) : Dev := { d with mem := { d.mem with scrubSkipped := l } }

/-- A block that was skipped: a stripe still being written is about to be rewritten whole, so the scrubber never waits for a
writer. -/
def Dev.scrubLate (d : Dev) (ups : List (Nat × Nat)) : Dev :=
  match d.mem.scrubSkipped with
  | [] => d.scrubEnd
  | (h, l) :: rest =>
    let d := d.scrubLeft rest
    let d := if d.scrubHeld l then d else (d.scrubMet h l ups).scrubBlock h l
    if d.mem.scrubSkipped.isEmpty then d.scrubEnd else d

/-- SCRUB_STEP (R438): the scrubber reads its next block; `ups` are symbol errors (symbol, value) it has met. Skipped blocks
are revisited at the end of the pass. -/
def execScrubStep (ups : List (Nat × Nat)) (s : State) : Host.Outcome State Fault Refusal :=
  s.run (fun d => if d.mem.scrubStack < 4 then d.scrubNext ups else d.scrubLate ups)

/-! ### Failures and power -/

/-- MEM_REQUEST_TIMEOUT (R439): a request to a pseudo-channel has not completed within 20 µs. -/
def execMemRequestTimeout (h : Fin 4) (pc : Fin 32) (s : State) : Host.Outcome State Fault Refusal :=
  s.run (fun d => d.pcFail h pc 2)

/-- HBM_PHY_ERROR (R439): a controller reports an error that does not clear on retry, on one pseudo-channel, or the loss of
its PHY. -/
def execHbmPhyError (h : Fin 4) (pc : Fin 32) (phy : Bool) (s : State) : Host.Outcome State Fault Refusal :=
  s.run (fun d => if phy then d.stackFail h 1 else d.pcFail h pc 3)

/-- HBM_POWER_DOWN (R445): in BASK a pseudo-channel that has had no requests for 256 controller cycles enters power-down. -/
def execHbmPowerDown (h : Fin 4) (pc : Fin 32) (s : State) : Host.Outcome State Fault Refusal :=
  s.run (fun d =>
    if d.modeCode = mBask ∧ d.inTransition = false ∧ d.pcOk h pc = true then
      { d with mem := { d.mem with powerDown := Sparse.put (fun _ => false) d.mem.powerDown (32 * h.val + pc.val) true } }
    else d)

/-- The effect of a GO in `MEM_INJ_CTRL` (R436): arms the corruption of SYMBOLS symbols in the next write of the block. A
SYMBOLS of 0 injects nothing. -/
def Dev.memInject (d : Dev) : Dev :=
  let n := d.get F.MEM_INJ_CTRL_POOL
  if 6 ≤ n then d.set F.MEM_INJ_CTRL_GO 0
  else
    let (h, l) := d.locate n (64 * d.get F.MEM_INJ_ADDR_OFFSET)
    { d with mem := { d.mem with inject := some (blockKey h l, d.get F.MEM_INJ_CTRL_SYMBOLS) } }.set F.MEM_INJ_CTRL_GO 1

/-- MEM_INJECT (R436): `MEM_INJ_CTRL.GO` is written. -/
def execMemInject (s : State) : Host.Outcome State Fault Refusal := s.hostSet R.MEM_INJ_CTRL 256 Dev.memInject

/-! ### The layout (R427, R428) -/

/-- The size in MiB that a pool uses of each stack it lies on. -/
def Dev.perStackMib (d : Dev) (n : Nat) : Nat :=
  let size := d.get (F.MEM_POOL_CFG_SIZE_MIB n)
  match d.poolForm n with
  | .parity => size / 3
  | .interleaved => size / 4
  | .home _ => size
  | .bad => 0

/-- The placement of the pools (R428): bases in MiB by pool, and the next free address of each stack. -/
def Dev.layout (d : Dev) : List (Nat × Nat) × List Nat :=
  let place (acc : List (Nat × Nat) × List Nat) (n : Nat) (hs : List Nat) : List (Nat × Nat) × List Nat :=
    let base := hs.foldl (fun m h => max m (nth acc.2 h)) 0
    (acc.1 ++ [(n, base)], hs.foldl (fun fr h => setAt fr h (base + d.perStackMib n)) acc.2)
  let forms := poolsAll.filter (fun n => d.poolForm n = .parity) ++ poolsAll.filter (fun n => d.poolForm n = .interleaved)
  let acc := forms.foldl (fun acc n => place acc n [0, 1, 2, 3]) (([] : List (Nat × Nat)), [0, 0, 0, 0])
  poolsAll.foldl (fun acc n => match d.poolForm n with
    | .home h => place acc n [h]
    | _ => acc) acc

/-- `MEM_POOLn_BASE` report the layout. -/
def Dev.layPools (d : Dev) : Dev := d.layout.1.foldl (fun d p => d.set (F.MEM_POOL_BASE_BASE_MIB p.1) p.2) d

/-- The first pool, in the order of placement, that ends beyond the capacity of a stack. -/
def Dev.overfills (d : Dev) : Option Nat :=
  (d.layout.1.find? (fun p => decide (d.get F.DEV_CAPS_STACK_GIB * 1024 < p.2 + d.perStackMib p.1))).map (·.1)

/-- The addresses of registers that R427 refuses, in rising order. -/
def Dev.memCfgBad (d : Dev) : List Nat :=
  (if 512 < d.get F.MEM_CLASS_LIMIT_RECORD ∨ 512 < d.get F.MEM_CLASS_LIMIT_LADDER ∨ 512 < d.get F.MEM_CLASS_LIMIT_BACKGROUND
    then [R.MEM_CLASS_LIMIT] else []) ++
  (if 24 < d.get F.MEM_SCRUB_CFG_PERIOD_H then [R.MEM_SCRUB_CFG] else []) ++
  (poolsAll.filter (fun n =>
    let size := d.get (F.MEM_POOL_CFG_SIZE_MIB n)
    (match d.poolForm n with
      | .parity => size % 3 ≠ 0
      | .interleaved => size % 4 ≠ 0
      | .home _ => false
      | .bad => true) || (n == poolAux && decide (0 < size ∧ size < 48)))).map R.MEM_POOL_CFG ++
  -- a set of pools that overfills a stack is reported at the first pool that no longer fits
  (d.overfills.map R.MEM_POOL_CFG).toList

end Sys2Proof.Machine
end

