-- ==== Sys2Proof/Machine/Clock.lean ====
section
/-!
DEFINITION. Clocks (R447-R471): the clock monitor, switchover, the loss of both references, PLL locks, FALLBACK_RO, clock
gating and the frequency meter.
-/
namespace Sys2Proof.Machine

def Dev.modClk (d : Dev) (f : ClkSt → ClkSt) : Dev := { d with clk := f d.clk }

/-- The fields of a reference: 0 A, 1 B. -/
def refValid (r : Nat) : Fld := if r = 0 then F.CLK_REF_STATUS_A_VALID else F.CLK_REF_STATUS_B_VALID
def refPpm (r : Nat) : Fld := if r = 0 then F.CLK_REF_STATUS_A_PPM else F.CLK_REF_STATUS_B_PPM
def refEn (r : Nat) : Fld := if r = 0 then F.CLK_REF_CFG_A_EN else F.CLK_REF_CFG_B_EN

/-- The offset of a reference that is not measured. -/
def ppmNone : Nat := 0x80
/-- An offset in ppm as its 8-bit field holds it, at most 127 either way. -/
def ppmCode (x : Int) : Nat := toBits 8 (clampInt x (-127) 127)

def Dev.refOk (d : Dev) (r : Nat) : Bool := d.flag (refValid r) && d.flag (refEn r)
def Dev.activeRef (d : Dev) : Nat := d.get F.CLK_REF_STATUS_ACTIVE
def Dev.mainLocked (d : Dev) : Bool := d.flag F.CLK_PLL_STATUS_MAIN
def Dev.roReady (d : Dev) : Bool := d.flag F.CLK_REF_STATUS_RO_READY
def Dev.bothLost (d : Dev) : Bool := d.flag F.CLK_REF_STATUS_BOTH_LOST

/-- With no clock to hold with, the device stays in reset with its outputs safe (R461, R462). -/
def Dev.deadReset (d : Dev) : Dev :=
  let was := d.faultAsserted
  let d := (d.set F.DEV_MODE_MODE mBoot).setFlag F.DEV_MODE_IN_TRANSITION false
  ({ d with boot := { d.boot with step := 0, stopped := false, refWait := false } }.outputsToSafe).driveFault was

/-- A switchover moves PLL_MAIN's input to reference `dst` and ramps to it (R451 steps 3 and 4). -/
def Dev.startSwitch (d : Dev) (dst : Nat) (loss : Bool) : Dev :=
  let old := d.activeRef
  -- the reference that was active is now measured from the new one
  let x := signed 8 (d.get (refPpm dst))
  let oldPpm := if loss || d.get (refPpm dst) = ppmNone then ppmNone else ppmCode (-x)
  let d := d.modClk (fun c => { c with from_ := old })
  (((d.set F.CLK_REF_STATUS_ACTIVE dst).set F.CLK_REF_STATUS_SLEWING 1).set (refPpm dst) 0).set (refPpm old) oldPpm

/-- With REVERT 1, PLL_MAIN returns to the preferred reference once that is valid again and no switchover is in progress
(R450). -/
def Dev.revertCheck (d : Dev) : Dev :=
  let p := d.get F.CLK_REF_CFG_PREF
  if d.flag F.CLK_REF_CFG_REVERT && d.mainLocked && !d.bothLost && !d.flag F.CLK_REF_STATUS_HOLDOVER &&
      !d.flag F.CLK_REF_STATUS_SLEWING && d.activeRef != p && d.refOk p then d.startSwitch p false
  else d

/-- The state of R463: outputs go safe, CLK_BOTH_LOST with its cause (1 references, 2 PLL_MAIN unlock), HOLD with cause
CLOCK. -/
def Dev.loseBoth (d : Dev) (cause : Nat) : Dev :=
  if !d.roReady then d.deadReset
  else
    let d := ((d.set F.CLK_REF_STATUS_BOTH_LOST 1).set F.CLK_REF_STATUS_HOLDOVER 1).set F.CLK_REF_STATUS_SLEWING 0
    let d := ((d.set F.CLK_REF_STATUS_A_PPM ppmNone).set F.CLK_REF_STATUS_B_PPM ppmNone).set F.CLK_REF_CTRL_SWITCH 0
    let d := (d.modClk (fun c => { c with past := false })).bump F.CLK_CNT_BOTH_LOST
    -- the recorder closes every open clip as under WARN (R464)
    (d.event 0x0204 sevHalt [u8 cause]).recFlush.enterHold causeClock

/-- At step 3 of boot, a check that leaves no valid reference makes BOOT wait for one (R462's section, R507); a valid reference
ends the wait, and lets an exit from BRUMATE raise `CORE_PWR_EN` (R467). -/
def Dev.refWaitCheck (d : Dev) : Dev :=
  if d.modeCode = mBoot ∧ d.boot.step = 3 ∧ d.mainLocked = false then
    d.withFault (fun d => { d with boot := { d.boot with refWait := !(d.refOk 0 || d.refOk 1) } })
  else if d.modeCode = mBrumate ∧ d.inTransition = true ∧ (d.refOk 0 || d.refOk 1) = true then d.setRails true true
  else d

/-- A reference is declared lost or invalid (R448, R450, R451, R463): cause 1 missing edge, 2 frequency. -/
def Dev.refLost (d : Dev) (r cause : Nat) : Dev :=
  let d := d.modClk (fun c =>
    { c with good := setAt c.good r 0, edges := if cause = 1 then setAt c.edges r false else c.edges })
  if !d.flag (refValid r) then d
  else
    let d := (d.setFlag (refValid r) false).set (refPpm r) ppmNone
    let d := d.modClk (fun c => { c with lost := setAt c.lost r true })
    let d := d.eventAt 0x0201 sevDegraded r [u8 r, u8 cause]
    if !d.mainLocked || d.bothLost || d.activeRef ≠ r then d
    else if d.refOk (1 - r) then
      ((d.set F.CLK_REF_STATUS_HOLDOVER 1).startSwitch (1 - r) true)
    else d.loseBoth 1

/-- REF_MISSING_EDGE (R448): no rising edge of a reference for 40 ns. Until RO_READY the verdict is ignored (R461); an input
that is not enabled raises nothing (R447). -/
def execRefMissingEdge (r : Fin 2) (s : State) : Host.Outcome State Fault Refusal :=
  s.run (fun d => if !d.roReady || !d.flag (refEn r) then d else (d.refLost r 1).refWaitCheck)

/-- Consecutive good windows that make a reference valid (R449). -/
def Dev.windowsNeeded (d : Dev) (r : Nat) : Nat :=
  if d.modeCode = mBoot && !elemAt d.clk.lost r false then 1 else 100

/-- REF_FREQ_WINDOW (R448, R449): a 1 ms window of a reference ends. `ppm` is its departure in this window, from the
calibrated FALLBACK_RO for the active reference and while PLL_MAIN is not locked, from PLL_MAIN for the standby; `edges`
says that the missing-edge detector sees edges. -/
def execRefFreqWindow (r : Fin 2) (ppm : Int) (edges : Bool) (s : State) : Host.Outcome State Fault Refusal :=
  s.run (fun d =>
    if !d.roReady || !d.flag (refEn r) then d
    else
      let d := d.modClk (fun c => { c with edges := setAt c.edges r edges })
      let active := d.mainLocked && decide (d.activeRef = r.val)
      if d.flag (refValid r) then
        if (if active then 1000 else 200) < ppm.natAbs then (d.refLost r 2).refWaitCheck
        else if active || !d.mainLocked || d.bothLost then d
        else d.set (refPpm r) (ppmCode ppm)
      else
        -- the boot check runs at ±1,000 ppm before the first calibration
        let lim := if d.modeCode = mBoot && !d.clk.cal then 1000 else 100
        -- a reference that returns during the holdover window is qualified after it
        if !edges || lim < ppm.natAbs || (d.bothLost && !d.clk.past) then (d.modClk (fun c => { c with good := setAt c.good r 0 })).refWaitCheck
        else
          let n := nth d.clk.good r + 1
          let d := d.modClk (fun c => { c with good := setAt c.good r n })
          if n < d.windowsNeeded r then d.refWaitCheck
          else
            let again := elemAt d.clk.lost r false && d.mainLocked && !d.bothLost
            let d := d.setFlag (refValid r) true
            let d := if d.mainLocked && !d.bothLost then d.set (refPpm r) (ppmCode ppm) else d
            let d := if again then d.eventAt 0x0202 sevInfo r [u8 r, i32 ppm] else d
            d.revertCheck.refWaitCheck)

/-- SWITCHOVER_RAMP_DONE (R451 step 5): ramp and phase removal are complete; `ms` is the ramp time. -/
def execSwitchoverRampDone (ms : Nat) (s : State) : Host.Outcome State Fault Refusal :=
  s.run (fun d =>
    if !d.flag F.CLK_REF_STATUS_SLEWING then d
    else
      let d := ((d.set F.CLK_REF_STATUS_HOLDOVER 0).set F.CLK_REF_STATUS_SLEWING 0).set F.CLK_REF_CTRL_SWITCH 0
      let d := d.bump F.CLK_CNT_SWITCHOVERS
      (d.eventAt 0x0203 sevNotice d.activeRef [u8 d.clk.from_, u8 d.activeRef, u32 ms]).revertCheck)

/-- A write of `CLK_REF_CTRL.SWITCH` (R450). -/
def Dev.refSwitch (d : Dev) : Dev :=
  let dst := 1 - d.activeRef
  if !d.refOk dst || !d.mainLocked || d.bothLost || d.flag F.CLK_REF_STATUS_HOLDOVER || d.flag F.CLK_REF_STATUS_SLEWING then
    (d.set F.CLK_REF_CTRL_SWITCH 0).eventAt 0x0208 sevNotice dst [u8 dst]
  else (d.set F.CLK_REF_CTRL_SWITCH 1).startSwitch dst false

/-- CLK_REF_SWITCH (R450). -/
def execClkRefSwitch (s : State) : Host.Outcome State Fault Refusal := s.hostCmd R.CLK_REF_CTRL 1 Dev.refSwitch

/-- Every stack enters self-refresh once its queues are drained and its stripe buffers written out (R445). -/
def Dev.selfRefresh (d : Dev) : Dev :=
  let d := d.drainBuffers.set F.MEM_STATUS_POWER 2
  { d with mem := { d.mem with selfRefresh := true, powerDown := [] } }

/-- HOLDOVER_WINDOW_END (R464, R465): 20 ms after both references were lost, PLL_MAIN and every derived clock stop, the stacks
are in self-refresh, and the always-on domain continues. -/
def execHoldoverWindowEnd (s : State) : Host.Outcome State Fault Refusal :=
  s.run (fun d =>
    if !d.bothLost || d.clk.past then d
    else
      let d := (d.holdEvents.selfRefresh.setWord R.CLK_PLL_STATUS 0).setWord R.CLK_PLL_STATUS2 0
      let d := (d.set F.CLK_REF_STATUS_HOLDOVER 0).modClk (fun c => { c with past := true })
      { d.timeToAlwaysOn with ep0Up := false }.pin pinAllOutputs 1)

/-- The lock bit of PLL `k` of R457: 0 MAIN, 1 HBM, 2 SREF, 4-7 VID0-VID3, 8 AUD_A, 9 AUD_B, 10-39 SerDes quads 0-29, the
positions of `CLK_PLL_STATUS` and `CLK_PLL_STATUS2` counted on. -/
def Dev.setLock (d : Dev) (k : Nat) (b : Bool) : Dev :=
  if k < 30 then d.setWord R.CLK_PLL_STATUS ((d.word R.CLK_PLL_STATUS).setField k 1 (b2n b))
  else d.setWord R.CLK_PLL_STATUS2 ((d.word R.CLK_PLL_STATUS2).setField (k - 30) 1 (b2n b))

/-- PLL_UNLOCK (R459): PLL_MAIN loses lock while its reference is valid, which acts as the loss of both references; or another
PLL loses lock, and a lost PLL_VID is reported by the rasters it clocks. -/
def execPllUnlock (k : Fin 40) (s : State) : Host.Outcome State Fault Refusal :=
  s.run (fun d =>
    if k.val = 3 then d
    else if k.val = 0 then
      if !d.mainLocked || d.bothLost then d
      else if d.refOk d.activeRef then ((d.setLock 0 false).eventAt 0x0205 sevFault 0 [u32 0]).loseBoth 2
      else d
    else
      let d := d.setLock k false
      if 4 ≤ k.val ∧ k.val < 8 then
        (List.range 6).foldl (fun d r =>
          if d.get (F.RAS_CFG_PLL r) = k.val - 4 && d.flag (F.RAS_STATUS_LOCKED r) then
            (d.setFlag (F.RAS_STATUS_LOCKED r) false).eventAt 0x0E06 sevNotice r [i32 (signed 16 (d.get (F.RAS_STATUS_PHASE_NS r)))]
          else d) d
      else d)

/-- OTHER_PLL_LOCK (R457, R466): a PLL other than PLL_MAIN locks; it cannot while PLL_MAIN does not run. -/
def execOtherPllLock (k : Fin 40) (s : State) : Host.Outcome State Fault Refusal :=
  s.run (fun d => if k.val = 0 || k.val = 3 || !d.mainLocked then d else d.setLock k true)

/-- FALLBACK_RO is found outside its window (R462). -/
def Dev.roBad (d : Dev) (ps : Nat) : Dev :=
  if !d.roReady then d
  else
    let d := d.set F.CLK_REF_STATUS_RO_READY 0
    if d.mainLocked then (d.event 0x0207 sevFault [u32 ps]).modClk (fun c => { c with alwaysOn := true })
    else d.deadReset

/-- FALLBACK_CALIBRATION (R448, R462): once per second FALLBACK_RO, of period `ps`, is recalibrated while PLL_MAIN is locked. -/
def execFallbackCalibration (ps : Nat) (s : State) : Host.Outcome State Fault Refusal :=
  s.run (fun d =>
    if !d.mainLocked || !d.roReady || d.flag F.CLK_REF_STATUS_HOLDOVER then d
    else if ps < 17800 ∨ 35800 < ps then d.roBad ps
    else d.modClk (fun c => { c with cal := true }))

/-- RO_WINDOW_FAIL (R462): the window detector finds the period `ps` of FALLBACK_RO out of range. -/
def execRoWindowFail (ps : Nat) (s : State) : Host.Outcome State Fault Refusal := s.run (fun d => d.roBad ps)

/-! ### Clock gating (R468, R469) -/

/-- Gates or ungates an instance. -/
def Dev.setGated (d : Dev) (block inst : Nat) (b : Bool) : Dev :=
  match gateBit block inst with
  | some (0, k) => d.set F.CLK_GATED0_GATED (setBit (d.get F.CLK_GATED0_GATED) k b)
  | some (_, k) => d.set F.CLK_GATED1_GATED (setBit (d.get F.CLK_GATED1_GATED) k b)
  | none => d

/-- Whether the present mode runs an instance (R469). -/
def Dev.instRuns (d : Dev) (block inst : Nat) : Bool :=
  match block with
  | 0x07 => d.portRuns inst
  | 0x0E => (d.rs inst).run
  | 0x0F => d.flag (F.SDI_CFG_EN inst) && d.flag (F.SDI_STATUS_ACTIVE inst)
  | 0x10 => (mBask ≤ d.modeCode && d.modeCode ≤ mHold) && ((List.range 4).any (fun i => d.ifExists (4 * inst + i)))
  | 0x12 => d.flag (F.AUD_AP_CFG_EN inst) && !d.isRefused (R.AUD_AP_CFG inst) && (mPreview ≤ d.modeCode && d.modeCode ≤ mReview)
  | 0x14 => decide (inst < d.rootPorts) && (mBask ≤ d.modeCode && d.modeCode ≤ mHold)
  | _ => false

/-- A gate request ends with a RESULT. -/
def Dev.gateEnd (d : Dev) (result : Nat) : Dev :=
  ((d.set F.CLK_GATE_REQ_RESULT result).set F.CLK_GATE_REQ_GO 0).modClk (fun c => { c with gate := none })

/-- A GO in `CLK_GATE_REQ` with the fields it was written with (R468, R469, R549); nothing while a request waits. -/
def Dev.gateGo (d : Dev) : Dev :=
  if d.clk.gate.isSome then d
  else
    let block := d.get F.CLK_GATE_REQ_BLOCK_ID
    let inst := d.get F.CLK_GATE_REQ_INSTANCE
    match d.get F.CLK_GATE_REQ_OP with
    | 1 =>
      if (gateBit block inst).isNone then d.gateEnd 1
      else if d.gated block inst then d.gateEnd 0
      else if d.instRuns block inst then (d.gateEnd 3).eventAt 0x020B sevNotice inst [u8 block, u8 inst]
      else (d.set F.CLK_GATE_REQ_GO 1).modClk (fun c => { c with gate := some (block, inst) })
    | 2 => if (gateBit block inst).isNone then d.gateEnd 1 else (d.setGated block inst false).gateEnd 0
    | _ => d.gateEnd 4

/-- Writes the fields of `CLK_GATE_REQ`. -/
def Dev.gateFields (d : Dev) (block inst op : Nat) : Dev :=
  ((d.set F.CLK_GATE_REQ_BLOCK_ID block).set F.CLK_GATE_REQ_INSTANCE inst).set F.CLK_GATE_REQ_OP op

/-- CLK_GATE (R468): `CLK_GATE_REQ` is written with OP 1. -/
def execClkGate (block inst : Fin 256) (s : State) : Host.Outcome State Fault Refusal :=
  s.hostCmd R.CLK_GATE_REQ (block + inst * 256 + 0x50000) (fun d =>
    if d.clk.gate.isSome then d else (d.gateFields block inst 1).gateGo)

/-- CLK_UNGATE (R468): `CLK_GATE_REQ` is written with OP 2. -/
def execClkUngate (block inst : Fin 256) (s : State) : Host.Outcome State Fault Refusal :=
  s.hostCmd R.CLK_GATE_REQ (block + inst * 256 + 0x60000) (fun d =>
    if d.clk.gate.isSome then d else (d.gateFields block inst 2).gateGo)

/-- GATE_IDLE_STOP (R468): the instance of the waiting request reports idle, and its clock stops. -/
def execGateIdleStop (s : State) : Host.Outcome State Fault Refusal :=
  s.run (fun d =>
    match d.clk.gate with
    | some (block, inst) => (d.setGated block inst true).gateEnd 0
    | none => d)

/-- GATE_IDLE_TIMEOUT (R468): it has not reported idle within 4,096 CFG cycles. -/
def execGateIdleTimeout (s : State) : Host.Outcome State Fault Refusal :=
  s.run (fun d =>
    match d.clk.gate with
    | some (block, inst) =>
      ((d.gateEnd 2).bump F.CLK_CNT_GATE_BUSY).eventAt 0x0206 sevNotice inst [u8 block, u8 inst]
    | none => d)

/-! ### Frequency meter (R470) -/

/-- A GO in `CLK_FM_CFG`: a measurement starts; a refused TARGET starts nothing (R549). -/
def Dev.fmGo (d : Dev) : Dev :=
  if 28 ≤ d.get F.CLK_FM_CFG_TARGET then d.set F.CLK_FM_CFG_GO 0
  else ((d.set F.CLK_FM_CFG_GO 1).set F.CLK_FM_CFG_DONE 0).set F.CLK_FM_CFG_TIMEOUT 0

/-- FM_MEASURE (R470): `CLK_FM_CFG` is written with TARGET, REF, SEL and GO. -/
def execFmMeasure (target ref : Fin 32) (sel : Fin 128) (s : State) : Host.Outcome State Fault Refusal :=
  s.hostCmd R.CLK_FM_CFG (target + ref * 256 + sel * 65536 + 2 ^ 24) (fun d =>
    (((d.set F.CLK_FM_CFG_TARGET target).set F.CLK_FM_CFG_REF ref).set F.CLK_FM_CFG_SEL sel).fmGo)

/-- FM_DONE (R470): the gate completes; `count` edges of the target were counted. -/
def execFmDone (count : Nat) (s : State) : Host.Outcome State Fault Refusal :=
  s.run (fun d =>
    if !d.flag F.CLK_FM_CFG_GO then d
    else ((d.set F.CLK_FM_RESULT_COUNT count).set F.CLK_FM_CFG_GO 0).set F.CLK_FM_CFG_DONE 1)

/-- FM_TIMEOUT (R470): the gate has not completed within 2^25 CFG cycles; COUNT reads what was counted. -/
def execFmTimeout (count : Nat) (s : State) : Host.Outcome State Fault Refusal :=
  s.run (fun d =>
    if !d.flag F.CLK_FM_CFG_GO then d
    else ((d.set F.CLK_FM_RESULT_COUNT count).set F.CLK_FM_CFG_GO 0).set F.CLK_FM_CFG_TIMEOUT 1)

end Sys2Proof.Machine
end

