-- ==== Sys2Proof/Machine/Power.lean ====
section
/-!
DEFINITION. Supplies (R472-R486): the voltage loop and its regulator bus, droop detection, WARN and telemetry.
-/
namespace Sys2Proof.Machine

def Dev.modPwr (d : Dev) (f : PwrSt → PwrSt) : Dev := { d with pwr := f d.pwr }

def Dev.targetMv (d : Dev) : Nat := d.get F.PWR_AVS_STATUS_TARGET_MV
def Dev.vmaxMv (d : Dev) : Nat := d.get F.PWR_AVS_LIMIT_VMAX_MV

/-- Sends the target to the regulator (R477). -/
def Dev.sendVout (d : Dev) (mv : Nat) : Dev :=
  (d.emit (.regulator (d.get F.PWR_BUS_CFG_MODE) mv)).modPwr (fun p => { p with sent := some mv, again := false })

/-- The target changes: the thresholds keep the lower of both for 100 µs (R481). -/
def Dev.setTarget (d : Dev) (mv : Nat) : Dev :=
  if mv = d.targetMv then d
  else (d.modPwr (fun p => { p with oldMv := d.targetMv, changedAt := d.elapsed })).set F.PWR_AVS_STATUS_TARGET_MV mv

/-- Whether the voltage loop may run (R476): PLL_MAIN has locked, and the mode is not BRUMATE or HOLD after the holdover
window. -/
def Dev.loopPowered (d : Dev) : Bool :=
  d.mainLocked && d.modeCode != mBrumate && !(d.modeCode = mHold && d.clk.past)

/-- The procedure of R476 with the smallest slack `m`. -/
def Dev.avsLoop (d : Dev) (m mon : Nat) : Dev :=
  let tgt := d.get F.PWR_AVS_CFG_TGT_TAPS
  let vmax := d.vmaxMv
  let mv := d.targetMv
  let low := decide (m < tgt) || d.pwr.droop
  let high := !low && decide (tgt + d.get F.PWR_AVS_CFG_HYST_TAPS < m) && !d.flag F.PWR_RAIL_STATUS_WARN_ACTIVE
  let up := 5 * max 1 (min (tgt - m) 4)
  let run := if high then d.pwr.highRun + 1 else 0
  let new := if low then min (mv + up) vmax
    else if high && run == 10 then max (mv - 5) (d.get F.PWR_AVS_LIMIT_VMIN_MV) else mv
  let lowRun := if m < tgt ∧ mv = vmax then d.pwr.lowRun + 1 else 0
  let d := d.modPwr (fun p => { p with highRun := if run = 10 then 0 else run, droop := false, lowRun := lowRun })
  let d := if 10 ≤ lowRun ∧ (d.pwr.limitAt = 0 ∨ d.pwr.limitAt - 1 + 60 * nsPerS ≤ d.elapsed) then
      (d.modPwr (fun p => { p with limitAt := d.elapsed + 1, lowRun := 0 })).eventAt 0x0304 sevNotice 0 [u8 m, u8 mon]
    else d
  if new ≠ mv ∨ d.pwr.again = true then (d.setTarget new).sendVout new else d

/-- AVS_UPDATE (R476, R478): every 100 µs of CFG_CLK time, with the smallest slack of each of the 64 monitors since the last
update. -/
def execAvsUpdate (slacks : List Nat) (s : State) : Host.Outcome State Fault Refusal :=
  s.run (fun d =>
    if !d.loopPowered then d
    else
      let sl := (List.range 64).map (fun i => min 31 (slacks.getD i 31))
      let m := sl.foldl min 31
      let mon := (sl.findIdx? (· == m)).getD 0
      let d := (List.range 64).foldl (fun d i => d.set (F.PWR_MON_SLACK i) (nth sl i)) d
      let d := (d.set F.PWR_AVS_STATUS_MIN_SLACK m).set F.PWR_AVS_STATUS_MON mon
      -- without the loop, VMAX_MV is sent once, and again until it is acknowledged
      if !d.flag F.PWR_AVS_CFG_EN then
        (if d.pwr.again || !d.pwr.fixed then ((d.setTarget d.vmaxMv).sendVout d.vmaxMv).modPwr (fun p => { p with fixed := true })
         else d)
      else
      let d := d.modPwr (fun p => { p with fixed := false })
      if d.flag F.PWR_AVS_STATUS_BUS_FAIL then
        -- every update sends VMAX_MV until a command succeeds
        ((d.setTarget d.vmaxMv).sendVout d.vmaxMv).modPwr (fun p => { p with droop := false, highRun := 0 })
      else d.avsLoop m mon)

/-- AVS_COMMAND_RESPONSE (R478): the regulator acknowledges the command, or does not. -/
def execAvsCommandResponse (ok : Bool) (s : State) : Host.Outcome State Fault Refusal :=
  s.run (fun d =>
    match d.pwr.sent with
    | none => d
    | some mv =>
      if ok then (d.modPwr (fun p => { p with sent := none, again := false, fails := 0 })).set F.PWR_AVS_STATUS_BUS_FAIL 0
      else
        let n := d.pwr.fails + 1
        let d := (d.modPwr (fun p => { p with sent := none, again := true, fails := n })).bump F.PWR_AVS_CNT_BUS_ERRS
        if n = 3 then
          (d.set F.PWR_AVS_STATUS_BUS_FAIL 1).eventAt 0x0305 sevFault 0 [u8 (d.get F.PWR_BUS_CFG_MODE), u16 mv]
        else d)

/-- DROOP_DETECT (R479): the slack of monitor `m` falls below 2 taps, and CORE_CLK is stretched. -/
def execDroopDetect (m : Fin 64) (s : State) : Host.Outcome State Fault Refusal :=
  s.run (fun d =>
    if !d.loopPowered then d
    else
      let d := ((d.set F.PWR_AVS_STATUS_STRETCH 1).bump F.PWR_AVS_CNT_DROOPS).bump (F.PWR_MON_DROOPS m)
      let d := d.modPwr (fun p => { p with droop := true })
      if !d.secOver d.pwr.droopSec then d
      else (d.modPwr (fun p => { p with droopSec := d.elapsed + 1 })).eventAt 0x0303 sevNotice m [u8 m, u16 d.targetMv])

/-- STRETCH_END (R479): every monitor has shown 4 taps or more for 64 consecutive stretched cycles. -/
def execStretchEnd (s : State) : Host.Outcome State Fault Refusal := s.run (fun d => d.set F.PWR_AVS_STATUS_STRETCH 0)

/-! ### Thresholds (R480-R482) -/

/-- The target that the VDD_CORE thresholds follow (R481). -/
def Dev.thresholdMv (d : Dev) : Nat :=
  if d.elapsed < d.pwr.changedAt + 100000 then min d.pwr.oldMv d.targetMv else d.targetMv

/-- The WARN and RESET thresholds of a rail in mV, by RAIL code (R480): 0 VDD_CORE, 1 VDD_HBM, 2 VDD_IO, 3 VDD_AON. -/
def Dev.warnMv (d : Dev) : Nat → Nat
  | 0 => d.thresholdMv - 40
  | 1 => 1050
  | 2 => 1710
  | _ => 0
def Dev.resetMv (d : Dev) : Nat → Nat
  | 0 => d.thresholdMv - 75
  | 1 => 1020
  | 2 => 1640
  | _ => 720

/-- Whether the monitor of a rail is armed (R475). -/
def Dev.railArmed (d : Dev) : Nat → Bool
  | 0 => d.flag F.PWR_RAIL_STATUS_CORE_ARMED
  | 1 => d.flag F.PWR_RAIL_STATUS_HBM_ARMED
  | _ => true

/-- A WARN cause, as a bit of `PWR_RAIL_STATUS` (R482). -/
def Dev.warnCause (d : Dev) (bit : Nat) : Dev :=
  let was := d.flag F.PWR_RAIL_STATUS_WARN_ACTIVE
  let d := d.withIrq (fun d =>
    (d.setWord R.PWR_RAIL_STATUS ((d.word R.PWR_RAIL_STATUS).setField bit 1 1)).set F.PWR_RAIL_STATUS_WARN_ACTIVE 1)
  if was then d
  else
    let d := (d.bump F.PWR_WARN_CNT_WARNS).modPwr (fun p => { p with warnFrom := d.elapsed })
    (d.event 0x0301 sevDegraded [u8 ((d.word R.PWR_RAIL_STATUS).toNat % 16)]).recFlush

/-- RAIL_WARN_CROSSING (R480): a rail has stayed at `mv` or below for its WARN filter time. -/
def execRailWarnCrossing (rail : Fin 3) (mv : Nat) (s : State) : Host.Outcome State Fault Refusal :=
  s.run (fun d => if d.railArmed rail && decide (mv < d.warnMv rail) then d.warnCause rail else d)

/-- PFAIL_FALL (R480): `PFAIL_N` has been low for 1 µs. -/
def execPfailFall (s : State) : Host.Outcome State Fault Refusal := s.run (fun d => d.warnCause 3)

/-- WARN_CLEAR (R480, R482): every WARN cause has stayed clear for 1 ms. -/
def execWarnClear (s : State) : Host.Outcome State Fault Refusal :=
  s.run (fun d =>
    if !d.flag F.PWR_RAIL_STATUS_WARN_ACTIVE then d
    else
      let us := (d.elapsed - d.pwr.warnFrom) / 1000
      let d := d.withIrq (fun d => d.setWord R.PWR_RAIL_STATUS ((d.word R.PWR_RAIL_STATUS).setField 0 5 0))
      d.event 0x0302 sevInfo [u32 us])

/-- RAIL_TELEMETRY_UPDATE (R480, `PWR_RAILn_MV`): the means in mV of the eight rails over the last 100 µs. -/
def execRailTelemetryUpdate (mvs : List Nat) (s : State) : Host.Outcome State Fault Refusal :=
  s.run (fun d => (List.range 8).foldl (fun d i => d.set (F.PWR_RAIL_MV_MV i) (min 4095 (nth mvs i))) d)

end Sys2Proof.Machine
end

