-- ==== Sys2Proof/Machine/Thermal.lean ====
section
/-!
DEFINITION. Thermal management (R487-R493): sensors and their exclusion, thresholds, the sampling rate, the rate of rise,
and the temperatures of the stacks (R439, R444). The shutdown path stands with the resets.
-/
namespace Sys2Proof.Machine

def Dev.modTherm (d : Dev) (f : ThermSt → ThermSt) : Dev := { d with therm := f d.therm }

/-- Readings in 0.125 °C. -/
def Dev.tsTemp (d : Dev) (n : Nat) : Int := signed 16 (d.get (F.THERM_TS_TEMP n))
def Dev.hbmTemp (d : Dev) (h : Nat) : Int := signed 16 (d.get (F.THERM_HBM_TEMP h))
def Dev.tsOk (d : Dev) (n : Nat) : Bool := d.flag (F.THERM_TS_VALID n)

/-- A plausible reading: −50 to +150 °C (R489). -/
def plausible (t : Int) : Bool := decide (-400 ≤ t) && decide (t ≤ 1200)

/-- The hottest of the sources named, with the first of equals: (source, reading). -/
def hottestOf (l : List (Nat × Int)) : Option (Nat × Int) :=
  l.foldl (fun m x => match m with
    | none => some x
    | some y => if y.2 < x.2 then some x else some y) none

def Dev.hotDie (d : Dev) : Option (Nat × Int) := hottestOf (((List.range 40).filter d.tsOk).map (fun n => (n, d.tsTemp n)))
def Dev.hotHbm (d : Dev) : Option (Nat × Int) :=
  hottestOf (((List.range 4).filter (fun h => d.flag (F.THERM_HBM_VALID h))).map (fun h => (h, d.hbmTemp h)))

/-- The thresholds in effect in 0.125 °C (R490): die WARN, die THROTTLE, HBM WARN, HBM THROTTLE; a value above the default
acts as the default. -/
def Dev.thresholds (d : Dev) : List Int :=
  [(F.THERM_CFG_DIE_WARN_C, 95), (F.THERM_CFG_DIE_THROTTLE_C, 100), (F.THERM_CFG_HBM_WARN_C, 85),
   (F.THERM_CFG_HBM_THROTTLE_C, 90)].map (fun c => ((8 * min (d.get c.1) c.2 : Nat) : Int))

/-- Judges one threshold (R490): `k` 0 die WARN, 1 die THROTTLE, 2 HBM WARN, 3 HBM THROTTLE. -/
def Dev.judge (d : Dev) (k : Nat) : Dev :=
  match (if k < 2 then d.hotDie else d.hotHbm) with
  | none => d
  | some (src, t) =>
    let th := d.thresholds.getD k 0
    let was := elemAt d.therm.past k false
    let now := if th ≤ t then true else if t < th - 40 then false else was
    if now = was then d
    else
      let d := d.modTherm (fun x => { x with past := setAt x.past k now })
      let thr := k % 2 = 1
      let d := if thr && now then d.bump F.THERM_CNT_THROTTLES else d
      d.eventAt (if thr then 0x0402 else 0x0401) (if thr then sevDegraded else sevNotice) src [i16 t, u8 (b2n now)]

/-- The state that follows from the readings (R488, R490): thresholds, the sampling rate, the hottest reading. -/
def Dev.thermJudge (d : Dev) : Dev :=
  let d := (List.range 4).foldl Dev.judge d
  let ov (k : Nat) : Bool := elemAt d.therm.past k false
  let d := (d.setFlag F.THERM_STATUS_WARN (ov 0 || ov 2)).setFlag F.THERM_STATUS_THROTTLE (ov 1 || ov 3)
  let margin (k : Nat) (m : Option (Nat × Int)) : Option Int := m.map (fun x => d.thresholds.getD k 0 - x.2)
  let ms := [margin 1 d.hotDie, margin 3 d.hotHbm].filterMap id
  let d :=
    if ms.any (fun m => decide (m ≤ 40)) then (d.set F.THERM_STATUS_FAST 1).modTherm (fun x => { x with cool := 0 })
    else if ms.all (fun m => decide (56 < m)) then
      let d := if d.therm.cool = 0 then d.modTherm (fun x => { x with cool := d.elapsed + 1 }) else d
      if d.therm.cool - 1 + 100000000 ≤ d.elapsed then d.set F.THERM_STATUS_FAST 0 else d
    else d.modTherm (fun x => { x with cool := 0 })
  let all := (d.hotDie.map (fun x => (x.1, x.2, false))).toList ++ (d.hotHbm.map (fun x => (x.1, x.2, true))).toList
  match all.foldl (fun (m : Option (Nat × Int × Bool)) x => match m with
      | none => some x
      | some y => if y.2.1 < x.2.1 then some x else some y) none with
  | none => d
  | some (src, t, hbm) =>
    let d := ((d.set F.THERM_STATUS_HOTTEST (toBits 16 t)).set F.THERM_STATUS_HOTTEST_SRC src).setFlag F.THERM_STATUS_HBM_HOTTEST hbm
    d.modTherm (fun x => { x with hms := some (match x.hms with | some y => max y t | none => t) })

/-- The hottest reading of all sources now. -/
def Dev.hottestNow (d : Dev) : Int := signed 16 (d.get F.THERM_STATUS_HOTTEST)

/-- A die sensor is excluded until the next reset that passes through BOOT (R489). -/
def Dev.excludeTs (d : Dev) (n : Nat) (partner : Int) : Dev :=
  if elemAt d.therm.bad n false then d
  else
    -- the other sensor of a cluster gets another reference: its second against that one starts anew
    let d := (d.modTherm (fun x =>
      { x with bad := setAt x.bad n true, diff := if n < 32 then setAt x.diff (n ^^^ 1) 0 else x.diff })).set (F.THERM_TS_VALID n) 0
    d.eventAt 0x0407 sevNotice n [i16 (d.tsTemp n), i16 partner]

/-- The sensor that a die sensor is compared with, if any (R489). -/
def Dev.tsRef (d : Dev) (n : Nat) : Option Nat :=
  if n < 32 ∧ d.tsOk (n ^^^ 1) then some (n ^^^ 1)
  else if n ≠ 36 ∧ d.tsOk 36 then some 36
  else none

/-- Whether a sensor has differed from its reference by more than 15 °C for 1 s. -/
def Dev.tsLong (d : Dev) (n : Nat) : Bool :=
  let f := nth d.therm.diff n
  f != 0 && decide (f - 1 + nsPerS ≤ d.elapsed)

/-- Follows how long a sensor has differed from its reference. -/
def Dev.tsDiff (d : Dev) (n : Nat) : Dev :=
  let far := match d.tsRef n with
    | some m => decide (120 < (d.tsTemp n - d.tsTemp m).natAbs)
    | none => false
  let old := nth d.therm.diff n
  let new := if far && d.tsOk n then (if old = 0 then d.elapsed + 1 else old) else 0
  d.modTherm (fun x => { x with diff := setAt x.diff n new })

/-- Excludes a sensor that has differed for 1 s (R489); of the two of a cluster only the one further from TS36, both where
TS36 is not valid. -/
def Dev.tsCheck (d : Dev) (n : Nat) : Dev :=
  if !d.tsOk n || !d.tsLong n then d
  else match d.tsRef n with
    | none => d
    | some m =>
      if n < 32 ∧ m = n ^^^ 1 then
        if n % 2 = 1 then d
        else if !d.tsOk 36 then (d.excludeTs n (d.tsTemp m)).excludeTs m (d.tsTemp n)
        else if (d.tsTemp n - d.tsTemp 36).natAbs < (d.tsTemp m - d.tsTemp 36).natAbs then d.excludeTs m (d.tsTemp n)
        else d.excludeTs n (d.tsTemp m)
      else d.excludeTs n (d.tsTemp m)

/-- Whether the thermal sequencer runs: VDD_CORE is up. -/
def Dev.corePowered (d : Dev) : Bool := (d.modeCode != mBrumate || d.flag F.PWR_RAIL_STATUS_CORE_ARMED) && !d.therm.shut && d.boot.step != 0

/-- THERMAL_SAMPLE (R488-R490): the readings of TS0 to TS39 in 0.125 °C. -/
def execThermalSample (temps : List Int) (s : State) : Host.Outcome State Fault Refusal :=
  s.run (fun d =>
    if !d.corePowered then d
    else
      let d := (List.range 40).foldl (fun d n =>
        let d := d.set (F.THERM_TS_TEMP n) (toBits 16 (temps.getD n (d.tsTemp n)))
        d.setFlag (F.THERM_TS_VALID n) (!elemAt d.therm.bad n false)) d
      let d := (List.range 40).foldl (fun d n =>
        if d.tsOk n && !plausible (d.tsTemp n) then
          d.excludeTs n (match d.tsRef n with | some m => d.tsTemp m | none => 0)
        else d) d
      let d := (List.range 40).foldl Dev.tsDiff d
      ((List.range 40).foldl Dev.tsCheck d).thermJudge)

/-- RISE_CHECK (R491): the procedure of each ms over the hottest valid reading. -/
def execRiseCheck (s : State) : Host.Outcome State Fault Refusal :=
  s.run (fun d =>
    if !d.corePowered then d
    else
      let h := d.therm.hms.getD d.hottestNow
      let ms := (h :: d.therm.ms).take 10
      let d := d.modTherm (fun x => { x with ms := ms, hms := none })
      if ms.length < 10 then d
      else
        let sNow := (ms.foldl (· + ·) 0).tdiv 10
        let hist := (sNow :: d.therm.hist).take 101
        let d := d.modTherm (fun x => { x with hist := hist })
        if hist.length < 101 then d
        else
          let rise := sNow - hist.getD 100 0
          let lim := d.get F.THERM_RISE_RISE_LIMIT
          let early := d.flag F.THERM_STATUS_EARLY
          if lim ≠ 0 ∧ (lim : Int) < rise then
            let d := (d.set F.THERM_STATUS_EARLY 1).modTherm (fun x => { x with calm := 0 })
            if early then d
            else (d.bump F.THERM_CNT_EARLIES).eventAt 0x0403 sevNotice (d.get F.THERM_STATUS_HOTTEST_SRC) [i32 rise]
          else if early then
            let calm := if 2 * rise < lim then d.therm.calm + 1 else 0
            let d := d.modTherm (fun x => { x with calm := calm })
            if 1000 ≤ calm then d.set F.THERM_STATUS_EARLY 0 else d
          else d)

/-- A live write of RISE_LIMIT (R491): 0 ends early throttle at once. -/
def Dev.riseWrite (d : Dev) (lim : Nat) : Dev :=
  let d := d.set F.THERM_RISE_RISE_LIMIT lim
  if lim = 0 then (d.set F.THERM_STATUS_EARLY 0).modTherm (fun x => { x with calm := 0 }) else d

/-- THERM_RISE_WRITE (R491). -/
def execThermRiseWrite (lim : Fin 256) (s : State) : Host.Outcome State Fault Refusal :=
  s.hostCmd R.THERM_RISE lim (fun d => d.riseWrite lim)

/-! ### Stack temperatures (R439, R444, R489) -/

/-- The refresh rate code that a temperature in 0.125 °C asks for (R444). -/
def refreshCode (t : Int) : Nat := if t < 680 then 0 else if t < 760 then 1 else 2

/-- Since when threshold `k` of the stacks has been met: elapsed ns plus 1, 0 where it is not. -/
def Dev.coolFrom (d : Dev) (k : Nat) : Nat := Sparse.get (fun _ => 0) d.mem.coolSince k

/-- A reading meets threshold `k` or does not. -/
def Dev.coolNote (d : Dev) (k : Nat) (cool : Bool) : Dev :=
  let new := if cool then (if d.coolFrom k = 0 then d.elapsed + 1 else d.coolFrom k) else 0
  { d with mem := { d.mem with coolSince := Sparse.put (fun _ => 0) d.mem.coolSince k new } }

/-- Threshold `k` has been met for a second. -/
def Dev.coolLong (d : Dev) (k : Nat) : Bool := d.coolFrom k != 0 && decide (d.coolFrom k - 1 + nsPerS ≤ d.elapsed)

/-- Follows a stack's refresh rate (R444): it rises at once, and falls back after the temperature has stayed 2 °C below the
threshold for 1 s. `coolSince` has key 2 × stack for the lower threshold and 2 × stack + 1 for the upper one. -/
def Dev.refresh (d : Dev) (h : Nat) (t : Int) : Dev :=
  let d := (d.coolNote (2 * h) (decide (t ≤ 664))).coolNote (2 * h + 1) (decide (t ≤ 744))
  let cur := d.get (F.MEM_STACK_STATUS_REFRESH h)
  let new := if cur < refreshCode t then refreshCode t
    else if 0 < cur ∧ d.coolLong (2 * h) = true then 0
    else if cur = 2 ∧ d.coolLong (2 * h + 1) = true then 1
    else cur
  if new = cur then d
  else (d.set (F.MEM_STACK_STATUS_REFRESH h) new).eventAt 0x130A sevInfo h [u8 h, u8 new]

/-- STACK_TEMP_READ (R444, R489, R490): stack `h` is read, `t` in 0.125 °C; `ok` says that the read answered. A failed or
implausible read excludes the stack until a plausible one, and 1 s of them fails it. -/
def execStackTempRead (h : Fin 4) (t : Int) (ok : Bool) (s : State) : Host.Outcome State Fault Refusal :=
  s.run (fun d =>
    if !d.corePowered || d.flag (F.MEM_STACK_STATUS_FAILED h) then d
    else if ok && plausible t then
      let d := ((d.set (F.THERM_HBM_TEMP h) (toBits 16 t)).set (F.THERM_HBM_VALID h) 1).set (F.MEM_STACK_STATUS_TEMP_C h)
        (toBits 8 (clampInt (t / 8) (-128) 127))
      let d := d.modTherm (fun x => { x with stackBad := setAt x.stackBad h 0 })
      (d.refresh h t).thermJudge
    else
      let d := if ok then d.set (F.THERM_HBM_TEMP h) (toBits 16 t) else d
      let from_ := nth d.therm.stackBad h
      let d := if from_ = 0 then d.modTherm (fun x => { x with stackBad := setAt x.stackBad h (d.elapsed + 1) }) else d
      let d := if d.flag (F.THERM_HBM_VALID h) then
          (d.set (F.THERM_HBM_VALID h) 0).eventAt 0x0407 sevNotice h [i16 t, i16 0]
        else d
      let d := if from_ ≠ 0 ∧ from_ - 1 + nsPerS ≤ d.elapsed then d.stackFail h 3 else d
      d.thermJudge)

/-- STACK_TEMP_TIMEOUT (R439): the temperature reads of a stack have failed for 1 s. -/
def execStackTempTimeout (h : Fin 4) (s : State) : Host.Outcome State Fault Refusal :=
  s.run (fun d => (((d.set (F.THERM_HBM_VALID h) 0).stackFail h 3)).thermJudge)

end Sys2Proof.Machine
end

