-- ==== Sys2Proof/Machine/Faults.lean ====
section
/-!
DEFINITION. Develop and compression engine faults (R500-R503), fault injection, event signalling (R507), the keep store
(R510), the fuses (R512) and JTAG (R514).
-/
namespace Sys2Proof.Machine

/-! ### Spares of DEs and ZEs -/

/-- The kinds of engine with five per quadrant. -/
inductive Kind5 where
  | de | ze
  deriving DecidableEq, Repr

def Kind5.fence : Kind5 → Fld
  | .de => F.DEV_FENCE_DE_FENCED
  | .ze => F.DEV_FENCE_ZE_FENCED
def Kind5.spareReg : Kind5 → Nat
  | .de => R.DEV_SPARE_DE
  | .ze => R.DEV_SPARE_ZE

/-- What quadrant `q`'s spare of a kind carries: whether it is in use, and for which engine. -/
def Dev.spare5 (d : Dev) (k : Kind5) (q : Nat) : Bool × Nat := spareSlot (d.word k.spareReg) q

/-- Sets what it carries; none frees it. -/
def Dev.setSpare5 (d : Dev) (k : Kind5) (q : Nat) (e : Option Nat) : Dev :=
  let w := d.word k.spareReg
  d.setWord k.spareReg ((w.setField (8 * q) 5 (e.getD 0)).setField (8 * q + 7) 1 (b2n e.isSome))

def Dev.fenced5 (d : Dev) (k : Kind5) (e : Nat) : Bool := bitOf (d.get k.fence) e

/-- Fences an engine (R503). -/
def Dev.fence5 (d : Dev) (k : Kind5) (e : Nat) : Dev := (d.set k.fence (setBit (d.get k.fence) e true)).keepCount 4

/-- Whether a quadrant's spare is in use (R72). -/
def Dev.spareUsed5 (d : Dev) (k : Kind5) (q : Nat) : Bool := (d.spare5 k q).1 || d.fenced5 k (5 * q + 4)

/-! ### Develop engines (R500, R501, R503) -/

/-- The work of DE `a` goes to DE `b` in every stripe set and wheel group. -/
def Dev.deMove (d : Dev) (a b : Nat) : Dev :=
  { d with deSets := d.deSets.map (fun (l : List Nat) => l.map (fun e => if e = a then b else e)) }

/-- The stripe that a DE develops: context, frame and stripe. -/
def Dev.deWork (d : Dev) (e : Nat) : Option (Nat × Nat × Nat) :=
  (List.range 24).findSome? (fun i =>
    let set := elemAt d.deSets i []
    if !set.contains e then none
    else
      let stripe := (set.findIdx? (· == e)).getD 0
      let ctx? := if i < 16 then some i else ((d.wheel (i - 16)).busy.map (·.1))
      match ctx? with
      | some n => ((d.ctx n).frames.find? (fun f => f.dev == 1 || f.dev == 2)).map (fun f => (n, f.fseq, stripe))
      | none => none)

/-- COL_SUBSTITUTE (R501). -/
def Dev.deSubEvent (d : Dev) (s : DeSub) : Dev :=
  (d.raise 0x0A08 sevDegraded (some s.de) (if s.ctx < 16 then s.ctx else noCtx)
    [u8 s.de, u8 s.spare, u8 s.ctx, u32 s.fseq, u8 s.stripe])

/-- COL_SUBSTITUTE for an engine without a stripe in progress. What its items then hold the spec does not say: the frame is a
free value, and so are the context and the stripe where the engine stands in no context's stripe set. -/
def Dev.deSubIdle (d : Dev) (e sp : Nat) : Dev :=
  let free (k : Nat) : Nat := Config.free (d.freeCtr + k)
  let (ctx, c, s) := match (List.range 16).find? (fun n => (elemAt d.deSets n []).contains e) with
    | some n => (n, n, ((elemAt d.deSets n []).findIdx? (· == e)).getD 0)
    | none => (noCtx, free 1 % 256, free 2 % 256)
  (d.raise 0x0A08 sevDegraded (some e) ctx [u8 e, u8 sp, u8 c, u32 (free 0), u8 s]).tookFree 3

/-- The substitution of DE `e` by its spare starts: the interrupted stripe is to be developed again from its checkpoint, and
its RAW_RING entry is held. A block reset's is not reported (`quiet`). -/
def Dev.deSubstitute (d : Dev) (e : Nat) (quiet : Bool) : Dev :=
  let q := e / 5
  let sp := 5 * q + 4
  match d.deWork e with
  | some (n, fseq, stripe) =>
    let s : DeSub := { de := e, spare := sp, ctx := n, fseq := fseq, stripe := stripe, quiet := quiet }
    let d := (d.deMove e sp).rawModify n fseq (fun r => { r with sub := true })
    { d with srv := { d.srv with deSubs := setAt d.srv.deSubs q (some s) } }
  | none =>
    (if quiet then d else d.deSubIdle e sp).deMove e sp

/-- A DE fault (R501, R503, R72). -/
def Dev.deFault (d : Dev) (e : Nat) : Dev :=
  let q := e / 5
  let sp := 5 * q + 4
  if d.fenced5 .de e then d
  else if d.spare5 .de q = (true, e) then
    let d := (d.fence5 .de e).endLoan 0x0A e
    match elemAt d.srv.deSubs q none, d.deWork sp with
    | some x, _ => { d with srv := { d.srv with deSubs := setAt d.srv.deSubs q (some { x with quiet := false }) } }.showCaps
    | none, some (n, fseq, stripe) => (d.deSubEvent { de := e, spare := sp, ctx := n, fseq := fseq, stripe := stripe }).showCaps
    | none, none => (d.deSubIdle e sp).showCaps
  else if e = sp ∧ (d.spare5 .de q).1 = false then (d.fence5 .de e).showCaps
  else if d.spareUsed5 .de q then
    let d := ((d.fence5 .de e).showCaps).eventAt 0x0A09 sevFault e [u8 e, u8 q]
    if d.modeCode = mBoot then { d with boot := { d.boot with short := true } } else d.enterHold causeCapacity
  else (((d.fence5 .de e).setSpare5 .de q (some e)).deSubstitute e false).showCaps

/-- DE_FAULT (R500, R501): parity, ECC or the control-path compare finds a fault in DE `e`. -/
def execDeFault (e : Fin 20) (s : State) : Host.Outcome State Fault Refusal := s.run (fun d => d.deFault e)

/-- STRIPE_WATCHDOG (R500): a stripe of DE `e` with input lines waiting has written no output line in time. -/
def execStripeWatchdog (e : Fin 20) (s : State) : Host.Outcome State Fault Refusal :=
  s.run (fun d => if (d.deWork e).isSome then d.deFault e else d)

/-- DE_CATCH_UP_DONE (R501): the spare of quadrant `q` has caught up with arriving lines. -/
def execDeCatchUpDone (q : Fin 4) (s : State) : Host.Outcome State Fault Refusal :=
  s.run (fun d =>
    match elemAt d.srv.deSubs q none with
    | none => d
    | some x =>
      let d := { d with srv := { d.srv with deSubs := setAt d.srv.deSubs q none } }
      let d := d.rawModify x.ctx x.fseq (fun r => { r with sub := false })
      if x.quiet then d else d.deSubEvent x)

/-! ### Compression engines (R502, R503) -/

/-- Tiles and the general job of ZE `a` go to ZE `b`; the job restarts there from its first input byte (R502, R253). -/
def Dev.zeMove (d : Dev) (a b : Nat) : Dev :=
  let qa := elemAt d.ze.queues a []
  let qb := elemAt d.ze.queues b []
  let ja := elemAt d.ze.jobs a none
  let d := { d with ze := { d.ze with
    queues := setAt (setAt d.ze.queues b (qb ++ qa)) a []
    jobs := if ja.isSome then setAt (setAt d.ze.jobs b ja) a none else d.ze.jobs } }
  let d := match ja with
    | some j => if j.source < 8 then d.set (F.ZE_RING_STATUS_ZE j.source) b else d
    | none => d
  d.zeBusy

/-- ZE_SUBSTITUTE (R502): the tile being coded; without one the spec does not say what the two items hold, and they are free
values. -/
def Dev.zeSubEvent (d : Dev) (e sp : Nat) (tile : Option TileJob) : Dev :=
  match tile with
  | some t => d.eventCtx 0x0B05 sevDegraded e t.ctx [u8 e, u8 sp, u32 t.fseq, u32 t.idx]
  | none =>
    (d.eventAt 0x0B05 sevDegraded e [u8 e, u8 sp, u32 (Config.free d.freeCtr), u32 (Config.free (d.freeCtr + 1))]).tookFree 2

/-- A ZE fault (R502, R503, R72). -/
def Dev.zeFault (d : Dev) (e : Nat) : Dev :=
  let q := e / 5
  let sp := 5 * q + 4
  if d.fenced5 .ze e then d
  else if d.spare5 .ze q = (true, e) then
    let d := ((d.fence5 .ze e).endLoan 0x0B e).zeMove e sp
    (d.zeSubEvent e sp (elemAt d.ze.queues sp []).head?).showCaps
  else if e = sp ∧ (d.spare5 .ze q).1 = false then (d.fence5 .ze e).showCaps
  else if d.spareUsed5 .ze q then
    let tiles := elemAt d.ze.queues e []
    let job := elemAt d.ze.jobs e none
    let d := ((d.fence5 .ze e).showCaps).eventAt 0x0B06 sevFault e [u8 e, u8 q]
    -- the remaining ZEs take its tiles (R242); its general job is taken again from its source
    let d := { d with ze := { d.ze with queues := setAt d.ze.queues e [], jobs := setAt d.ze.jobs e none } }
    let d := match job with
      | some j => if j.source < 8 then d.setFlag (F.ZE_RING_STATUS_RUNNING j.source) false else d
      | none => d
    (tiles.foldl (fun d t => match d.zeFor with
      | some z => { d with ze := { d.ze with queues := modifyAt d.ze.queues z (fun (l : List TileJob) => l ++ [t]) } }
      | none => d) d).zeBusy
  else
    let tile := (elemAt d.ze.queues e []).head?
    (((((d.fence5 .ze e).setSpare5 .ze q (some e)).zeMove e sp).zeSubEvent e sp tile)).showCaps

/-- ZE_FAULT (R502). -/
def execZeFault (e : Fin 20) (s : State) : Host.Outcome State Fault Refusal := s.run (fun d => d.zeFault e)

/-- TILE_WATCHDOG (R502): a tile on ZE `e` has not been emitted 34,816 PIX cycles after its last sample was read. -/
def execTileWatchdog (e : Fin 20) (s : State) : Host.Outcome State Fault Refusal :=
  s.run (fun d => if (elemAt d.ze.queues e []).isEmpty then d else d.zeFault e)

/-! ### Fault injection (`DEV_FAULT_INJ`) -/

/-- RESULT of an injection: 1 where the engine is not in use, 2 where its spare is, else 0 and the failure happens. -/
def Dev.injJudge (d : Dev) (idle used : Bool) (f : Dev → Dev) : Dev :=
  if idle then d.set F.DEV_FAULT_INJ_RESULT 1
  else if used then d.set F.DEV_FAULT_INJ_RESULT 2
  else f (d.set F.DEV_FAULT_INJ_RESULT 0)

/-- A GO in `DEV_FAULT_INJ`: 0 taken, 1 engine idle or spare, 2 quadrant spare in use, 3 code refused (R549). The row, stripe
or tile in progress is the one in which the compare fails; an engine that work is placed on has a next one, and fails before
it, so only an engine without any is idle. -/
def Dev.faultInject (d : Dev) : Dev :=
  let e := d.get F.DEV_FAULT_INJ_ENGINE
  let d := d.set F.DEV_FAULT_INJ_GO 0
  match d.get F.DEV_FAULT_INJ_KIND with
  | 1 => d.injJudge (20 ≤ e || e % 5 = 4 || d.fenced5 .de e || !d.deSets.any (fun set => set.contains e)) (d.spareUsed5 .de (e / 5))
      (fun d => d.deFault e)
  | 2 => d.injJudge (68 ≤ e || e % 17 = 16 || d.veFenced e ||
      ((d.ve e).jobs.isEmpty && !d.running.any (fun s => (d.ses s).engines.contains e))) (d.veSpareUsed (e / 17)) (fun d => d.veFault e)
  | 3 => d.injJudge (20 ≤ e || e % 5 = 4 || d.fenced5 .ze e || ((elemAt d.ze.queues e []).isEmpty &&
      (elemAt d.ze.jobs e none).isNone && !(List.range 16).any (fun n => d.krcOn n && (d.ctx n).started)))
      (d.spareUsed5 .ze (e / 5)) (fun d => d.zeFault e)
  | _ => d.set F.DEV_FAULT_INJ_RESULT 3

/-- FAULT_INJECT (R503): `DEV_FAULT_INJ` is written with KIND, ENGINE and GO. -/
def execFaultInject (kind : Fin 4) (engine : Fin 128) (s : State) : Host.Outcome State Fault Refusal :=
  s.hostCmd R.DEV_FAULT_INJ (kind + engine * 256 + 65536) (fun d =>
    ((d.set F.DEV_FAULT_INJ_KIND kind).set F.DEV_FAULT_INJ_ENGINE engine).faultInject)

/-! ### Event signalling (R507) -/

/-- MSI_COALESCE_EXPIRY (R507): the coalescing interval ends; a record raised within it is signalled now. -/
def execMsiCoalesceExpiry (s : State) : Host.Outcome State Fault Refusal :=
  s.run (fun d =>
    if d.evt.msiWait then
      { d.sendMsix (d.get F.EVT_IRQ_CFG_VECTOR) with evt := { d.evt with msiWait := false, msiBusy := true } }
    else { d with evt := { d.evt with msiBusy := false } })

/-- A W1C write of `EVT_IRQ_STATUS` (R507). -/
def Dev.irqClear (d : Dev) (mask : Nat) : Dev :=
  d.withIrq (fun d => d.set F.EVT_IRQ_STATUS_SEV (d.get F.EVT_IRQ_STATUS_SEV &&& (31 - mask % 32)))

/-- EVT_IRQ_CLEAR (R507). -/
def execEvtIrqClear (mask : Fin 32) (s : State) : Host.Outcome State Fault Refusal :=
  s.hostCmd R.EVT_IRQ_STATUS mask (fun d => d.irqClear mask)

/-! ### The keep store (R510) -/

/-- A write of `KEEP_DATA`: only the customer area, only outside BOOT and BRUMATE, one at a time. -/
def Dev.keepCmd (d : Dev) (v : Word) : Dev :=
  let a := 4 * d.get F.KEEP_ADDR_WORD
  if d.modeCode = mBoot ∨ d.modeCode = mBrumate then d.set F.KEEP_STATUS_RESULT 2
  else if d.keep.busy.isSome then d.set F.KEEP_STATUS_RESULT 1
  else if a < 0x7C0000 ∨ 0x800000 ≤ a then d.set F.KEEP_STATUS_RESULT 2
  else
    let d := { d with keep := { d.keep with busy := some (a, v) } }
    (d.set F.KEEP_STATUS_BUSY 1).set F.KEEP_STATUS_RESULT 0

/-- KEEP_WRITE (R510): `KEEP_DATA` is written. -/
def execKeepWrite (v : Word) (s : State) : Host.Outcome State Fault Refusal :=
  s.hostCmd R.KEEP_DATA v.toNat (fun d => d.keepCmd v)

/-- The write that runs completes; a reset lets it complete too. -/
def Dev.keepSettle (d : Dev) : Dev :=
  match d.keep.busy with
  | none => d
  | some (a, v) =>
    let d := d.keepWrite a (bytesLE 4 v.toNat)
    { d with keep := { d.keep with busy := none } }.set F.KEEP_STATUS_BUSY 0

/-- KEEP_WRITE_DONE (R510). -/
def execKeepWriteDone (s : State) : Host.Outcome State Fault Refusal := s.run Dev.keepSettle

/-- The number of a port in `Output.readData`. -/
def portCode : HostPort → Nat
  | .ep0 => 0
  | .mspi => 1

/-- The keep-store word at `KEEP_ADDR`; past its 8 MiB there is none, and it reads 0. -/
def Dev.keepWord (d : Dev) : Word :=
  let a := 4 * d.get F.KEEP_ADDR_WORD
  if a < 0x800000 then BitVec.ofNat 32 (d.keepNat a 4) else 0

/-! ### Fuses (R512) -/

/-- `FUSE_PROG_CTRL.OP`. -/
def fuseProgram : Nat := 1
def fuseRevoke : Nat := 2

/-- The RESULT that refuses an operation, in the order of R512; none accepts it. -/
def Dev.fuseRefusal (d : Dev) (slot op : Nat) : Option Nat :=
  let st := d.keyState slot
  let used := d.get F.DEV_BOOT_STATUS_KEY_USED
  if d.modeCode ≠ mBask ∧ d.modeCode ≠ mPreview then some 1
  else if d.flag F.PWR_RAIL_STATUS_WARN_ACTIVE then some 2
  else if op = fuseProgram ∧ st ≠ 0 ∨ op = fuseRevoke ∧ st ≠ 1 then some 3
  else if op = fuseProgram ∧ !d.keysBlank ∧ (d.flag F.DEV_BOOT_STATUS_UNSECURED = true ∨ d.keyState used ≠ 1) then some 4
  else if op = fuseRevoke ∧ (slot = used ∨ !(List.range 4).any (fun k => k != slot && d.keyState k == 1)) then some 4
  else if op ≠ fuseProgram ∧ op ≠ fuseRevoke then some 6
  else none

/-- The event of a fuse operation that has ended with a RESULT, a refusal among them (R512). -/
def Dev.fuseEvent (d : Dev) (slot op result : Nat) : Dev :=
  if result = 0 then d.event 0x0507 sevNotice [u8 slot, u8 op] else d.event 0x0508 sevFault [u8 slot, u8 op, u8 result]

/-- A GO in `FUSE_PROG_CTRL` with KEY 0x5A, once its fields are written; ignored while an operation runs. -/
def Dev.fuseGo (d : Dev) : Dev :=
  let slot := d.get F.FUSE_PROG_CTRL_SLOT
  let op := d.get F.FUSE_PROG_CTRL_OP
  if d.keep.fuseOp.isSome then d
  else match d.fuseRefusal slot op with
    | some r =>
      let d := (d.set F.FUSE_PROG_CTRL_GO 0).set F.FUSE_PROG_CTRL_RESULT r
      -- a refused code raises nothing (R549)
      if r = 6 then d else d.fuseEvent slot op r
    | none =>
      let hash := (List.range 8).flatMap (fun k => bytesLE 4 (d.get (F.FUSE_PROG_HASH_HASH k)))
      { d with keep := { d.keep with fuseOp := some { slot := slot, op := op, hash := hash } } }.set F.FUSE_PROG_CTRL_GO 1

/-- The fields of `FUSE_PROG_CTRL` as a write leaves them, unless an operation runs. -/
def Dev.fuseFields (d : Dev) (slot op : Nat) : Dev :=
  if d.keep.fuseOp.isSome then d else (d.set F.FUSE_PROG_CTRL_SLOT slot).set F.FUSE_PROG_CTRL_OP op

/-- FUSE_PROGRAM (R512): `FUSE_PROG_CTRL` is written with KEY 0x5A, OP 1 and GO. -/
def execFuseProgram (slot : Fin 4) (s : State) : Host.Outcome State Fault Refusal :=
  s.hostCmd R.FUSE_PROG_CTRL (0x145A + slot * 256) (fun d => (d.fuseFields slot fuseProgram).fuseGo)

/-- FUSE_REVOKE (R512). -/
def execFuseRevoke (slot : Fin 4) (s : State) : Host.Outcome State Fault Refusal :=
  s.hostCmd R.FUSE_PROG_CTRL (0x185A + slot * 256) (fun d => (d.fuseFields slot fuseRevoke).fuseGo)

/-- A fuse operation completes and is read back; where the readback fails, the spec leaves the slot's state and hash open. Its
event waits for step 8 of a boot that runs. -/
def Dev.fuseSettle (d : Dev) (ok : Bool) : Dev :=
  match d.keep.fuseOp with
  | none => d
  | some f =>
    let code := if f.op = fuseProgram then 1 else 3
    let state := if ok then code else if d.free % 2 = 0 then d.keyState f.slot else code
    let hash := if f.op ≠ fuseProgram then elemAt d.keep.hashes f.slot []
      else if ok then f.hash
      else (List.range 32).map (fun i => BitVec.ofNat 8 (Config.free (d.freeCtr + 1 + i)))
    let result := if ok then 0 else 5
    let d := if ok then d else d.tookFree 33
    let d := d.setWord R.FUSE_KEYS ((d.word R.FUSE_KEYS).setField (2 * f.slot) 2 state)
    let d := { d with keep := { d.keep with fuseOp := none, hashes := setAt d.keep.hashes f.slot hash } }
    let d := (d.set F.FUSE_PROG_CTRL_GO 0).set F.FUSE_PROG_CTRL_RESULT result
    if d.modeCode = mBoot then { d with keep := { d.keep with fuseEvents := d.keep.fuseEvents ++ [(f.slot, f.op, result)] } }
    else d.fuseEvent f.slot f.op result

/-- FUSE_OP_DONE (R512). -/
def execFuseOpDone (ok : Bool) (s : State) : Host.Outcome State Fault Refusal := s.run (fun d => d.fuseSettle ok)

/-! ### JTAG (R514) -/

/-- The bypass register: one bit that captures 0. -/
def Dev.bypass (d : Dev) : Dev := d.emit (.tdo 1 0)

/-- Pin codes of the pads under JTAG: driven from the boundary register, and high impedance. -/
def pinBoundary : Nat := 201
def pinHighZ : Nat := 202

/-- The boundary register between TDI and TDO: its length and what it captures are free values. -/
def Dev.jtagBoundary (d : Dev) : Dev := (d.emit (.tdo d.free (Config.free (d.freeCtr + 1)))).tookFree 2

/-- JTAG_BYPASS (R514). -/
def execJtagBypass (s : State) : Host.Outcome State Fault Refusal := s.run Dev.bypass

/-- JTAG_IDCODE (R514): version 0x1, part number 0x1690, manufacturer field as chapter 20 gives it. -/
def execJtagIdcode (s : State) : Host.Outcome State Fault Refusal := s.run (fun d => d.emit (.tdo 32 0x11690353))

/-- JTAG_SAMPLE_PRELOAD (R514): the boundary register captures the pads and is preloaded with `data`. -/
def execJtagSamplePreload (data : Nat) (s : State) : Host.Outcome State Fault Refusal :=
  s.run (fun d => { d.jtagBoundary with srv := { d.srv with bscan := data } })

/-- An instruction that takes the pads acts only while `RESET_N` is low, and as BYPASS otherwise (R514). -/
def Dev.takesPads (d : Dev) (f : Dev → Dev) : Dev := if d.srv.resetLow then f d else d.bypass

/-- JTAG_EXTEST (R514): the pads take the boundary register. -/
def execJtagExtest (s : State) : Host.Outcome State Fault Refusal :=
  s.run (fun d => d.takesPads (fun d => (d.pin pinBoundary d.srv.bscan).jtagBoundary))

/-- JTAG_EXTEST_PULSE (R514): as EXTEST, with the pulse of IEEE 1149.6 on the AC pins. -/
def execJtagExtestPulse (s : State) : Host.Outcome State Fault Refusal :=
  s.run (fun d => d.takesPads (fun d => (d.pin pinBoundary d.srv.bscan).jtagBoundary))

/-- JTAG_EXTEST_TRAIN (R514): as EXTEST, with the pulse train of IEEE 1149.6 on the AC pins. -/
def execJtagExtestTrain (s : State) : Host.Outcome State Fault Refusal :=
  s.run (fun d => d.takesPads (fun d => (d.pin pinBoundary d.srv.bscan).jtagBoundary))

/-- JTAG_CLAMP (R514): the pads take the boundary register, and the bypass register is selected. -/
def execJtagClamp (s : State) : Host.Outcome State Fault Refusal :=
  s.run (fun d => d.takesPads (fun d => (d.pin pinBoundary d.srv.bscan).bypass))

/-- JTAG_HIGHZ (R514): the pads go to high impedance, and the bypass register is selected. -/
def execJtagHighz (s : State) : Host.Outcome State Fault Refusal :=
  s.run (fun d => d.takesPads (fun d => (d.pin pinHighZ 0).bypass))

end Sys2Proof.Machine
end

