-- ==== Sys2Proof/Machine/Loans.lean ====
section
/-!
DEFINITION. Loans of spare engines (R72): a block reset moves an active engine's work to its quadrant's spare without a fence,
and the work returns at its next row, stripe, tile or job boundary.
-/
namespace Sys2Proof.Machine

/-- The block IDs of engines. -/
def blkDe : Nat := 0x0A
def blkZe : Nat := 0x0B
def blkVe : Nat := 0x0D

/-- Whether a block reset of an engine is refused (R72): the engine is active and its quadrant's spare is in use, or it is
itself a spare in use. -/
def Dev.loanRefused (d : Dev) (block e : Nat) : Bool :=
  if block = blkDe then (e % 5 = 4 || d.deActive.contains e) && d.spareUsed5 .de (e / 5)
  else if block = blkZe then (e % 5 = 4 || d.zeActive.contains e) && d.spareUsed5 .ze (e / 5)
  else if block = blkVe then (e % 17 = 16 || d.veActive.contains e) && d.veSpareUsed (e / 17)
  else false

/-- The spare takes the work of engine `e`, as after its fault but without a fence; whether it took any. An engine that is not
active, and an idle spare, have none. -/
def Dev.lend (d : Dev) (block e : Nat) : Dev × Bool :=
  if block = blkDe ∧ d.deActive.contains e = true then
    (((d.setSpare5 .de (e / 5) (some e)).deSubstitute e true).showCaps, true)
  else if block = blkZe ∧ d.zeActive.contains e = true then
    (((d.setSpare5 .ze (e / 5) (some e)).zeMove e (e / 5 * 5 + 4)).showCaps, true)
  else if block = blkVe ∧ d.veActive.contains e = true then
    let q := e / 17
    let d := (d.setVeSpare q (some e)).veMove e (veSpareOf q)
    let d : Dev := { d with code := { d.code with
      subs := modifyAt d.code.subs q (fun (x : Option VeSub) => x.map (fun (y : VeSub) => { y with quiet := true })) } }
    (((d.showVe e).showLoad).showCaps, true)
  else (d, false)

/-- A returning engine's spare is idle again. -/
def Dev.loanOver (d : Dev) (block e : Nat) : Dev :=
  let d : Dev := { d with srv := { d.srv with returns := d.srv.returns.filter (fun x => !(x == (block, e))) } }
  if block = blkDe then ((d.setSpare5 .de (e / 5) none).deMove (e / 5 * 5 + 4) e).showCaps
  else if block = blkZe then ((d.setSpare5 .ze (e / 5) none).zeMove (e / 5 * 5 + 4) e).showCaps
  else
    let q := e / 17
    ((((d.setVeSpare q none).showVe (veSpareOf q)).showVe e).showLoad).showCaps

/-- Whether the spare has reached a boundary at which the work of `e` can return: no row, stripe or general job runs on it. -/
def Dev.atBoundary (d : Dev) (block e : Nat) : Bool :=
  if block = blkDe then (d.deWork (e / 5 * 5 + 4)).isNone && (elemAt d.srv.deSubs (e / 5) none).isNone
  else if block = blkZe then (elemAt d.ze.jobs (e / 5 * 5 + 4) none).isNone && (elemAt d.ze.queues (e / 5 * 5 + 4) []).isEmpty
  else (d.ve (veSpareOf (e / 17))).jobs.isEmpty && (d.code.subs.getD (e / 17) none).isNone

/-- Work returns from the spares that have reached a boundary. -/
def Dev.workReturn (d : Dev) : Dev :=
  d.srv.returns.foldl (fun d x => if d.atBoundary x.1 x.2 then d.loanOver x.1 x.2 else d) d

/-- A block reset is over: rows that have not started return at once, all other work at its boundary. -/
def Dev.giveBack (d : Dev) (block e : Nat) : Dev :=
  let d : Dev := { d with srv := { d.srv with returns := d.srv.returns ++ [(block, e)] } }
  let d :=
    if block = blkVe then
      let sp := veSpareOf (e / 17)
      let v := d.ve sp
      let d := d.veRename sp e
      let d := d.modVe e (fun w => { w with queue := w.queue ++ v.queue, held := w.held ++ v.held })
      (d.modVe sp (fun w => { w with queue := [], held := [] })).veSelect e
    else d
  d.workReturn

/-- The spare lent to engine `e` of a block is free again. -/
def Dev.freeLoan (d : Dev) (block e : Nat) : Dev :=
  if block = blkDe then d.setSpare5 .de (e / 5) none
  else if block = blkZe then d.setSpare5 .ze (e / 5) none
  else d.setVeSpare (e / 17) none

/-- Every loan ends with the resets that pass through BOOT and with the core's power: the spares are idle. -/
def Dev.endLoans (d : Dev) : Dev :=
  let d := match d.blockReset with
    | some b => if b.loan then d.freeLoan b.block b.inst else d
    | none => d
  let d := d.srv.returns.foldl (fun d x => d.freeLoan x.1 x.2) d
  ({ d with blockReset := none, srv := { d.srv with returns := [] } } : Dev).showCaps

/-! ### The boundaries -/

/-- ROW_DONE (R312, R72): the row in progress on engine `e` is done. -/
def execRowDone (e : Fin 68) (bytes : List Byte) (s : State) : Host.Outcome State Fault Refusal :=
  s.run (fun d => (d.rowDone e bytes).workReturn)

/-- TILE_EMITTED (R242, R72): ZE `z` emits the tile at the head of its queue. -/
def execTileEmitted (z : Fin 20) (s : State) : Host.Outcome State Fault Refusal :=
  s.run (fun d =>
    let d := d.emitTile z
    let ends := d.srv.returns.filter (fun x => x.1 == blkZe && x.2 / 5 * 5 + 4 == z.val && (elemAt d.ze.jobs z none).isNone)
    ends.foldl (fun d x => d.loanOver x.1 x.2) d)

/-- GENERAL_JOB_DONE (R254, R72): the general job on ZE `z` ends. -/
def execGeneralJobDone (z : Fin 20) (s : State) : Host.Outcome State Fault Refusal := s.run (fun d => (d.jobDone z).workReturn)

/-- DEVELOP_FRAME_DONE (R143, R154, R345, R72): a frame of context `n` is developed, which is a boundary of the stripes of its
engines. -/
def execDevelopFrameDone (n : Fin 16) (hosts : List (List Nat)) (s : State) : Host.Outcome State Fault Refusal :=
  s.run (fun d =>
    let d := d.developDone n hosts
    let sets := elemAt d.deSets n [] ++ (match d.wheelOf n with | some g => elemAt d.deSets (16 + g) [] | none => [])
    let ends := d.srv.returns.filter (fun x => x.1 == blkDe && sets.contains (x.2 / 5 * 5 + 4) && (elemAt d.srv.deSubs (x.2 / 5) none).isNone)
    ends.foldl (fun d x => d.loanOver x.1 x.2) d)

end Sys2Proof.Machine
end

