-- ==== Sys2Proof/Machine/Start.lean ====
section
/-!
DEFINITION. Starting at mode entry: the checks that a block makes of its settings before it starts (R75, R85, R122-R125,
R153, R159, R174, R187, R199, R206, R212, R237, R257, R276), the placement of develop engines (R30), and the load of the
defect map (R186).
-/
namespace Sys2Proof.Machine

/-- The modes in which the device is configured and not in HOLD: BASK to OFFLOAD. -/
def Dev.inWork (d : Dev) : Bool := mBask ≤ d.modeCode && d.modeCode ≤ mOffload

/-! ### Invalid zeros (R75) -/

/-- Whether the present mode starts the block or instance that the register at `a` belongs to. -/
def Dev.modeStarts (d : Dev) (a : Nat) : Bool :=
  let m := d.modeCode
  match blockIdOf a with
  | 0x08 | 0x09 => d.sensing
  | 0x0A => d.sensing || m = mOffload
  | 0x0D => m = mCapture || m = mReview || m = mOffload
  | 0x10 => m = mCapture || m = mReview
  | 0x11 => (if 0xB01000 ≤ a ∧ a < 0xB01200 then d.sensing else d.inWork)
  | 0x12 => mPreview ≤ m && m ≤ mReview
  | _ => d.inWork

/-- The EN registers of the instances that a zero in a register of a whole block keeps stopped. -/
def blockInstances (a : Nat) : List Nat :=
  match blockIdOf a with
  | 0x07 => (List.range 8).map R.KSL_CTRL
  | 0x09 => (List.range 16).map R.CAP_BIND
  | 0x0D => (List.range 256).map R.SES_CFG
  | _ => [a]

/-- One instance or block refuses to start for a zero in the register at `a`. -/
def Dev.zeroRefuse (d : Dev) (a : Nat) : Dev :=
  let d := d.cfgZero a
  match enReg? a with
  | some e => d.refuse e
  | none => (blockInstances a).foldl Dev.refuse d

/-- The zeros of blocks that the mode starts: each is reported and keeps its instance stopped. A context that runs already
is not checked again. -/
def Dev.zeroCheck (d : Dev) : Dev :=
  (d.zeroRegs.filter (fun a => !zeroHolds a && d.modeStarts a)).foldl Dev.zeroRefuse d

/-- The zeros that send the device to HOLD (R75). -/
def Dev.zeroHoldRegs (d : Dev) : List Nat := d.zeroRegs.filter zeroHolds

/-! ### The sensor link (R80, R85, R102) -/

/-- Whether a port's bond obeys R85: every member of its block has the same code and, in a real bond, eight data lanes. -/
def Dev.bondOk (d : Dev) (p : Nat) : Bool :=
  (d.bondPorts p).all (fun q =>
    d.get F.KSL_BOND_BOND / 4 ^ q % 4 == d.get F.KSL_BOND_BOND / 4 ^ p % 4 &&
      (d.bondSize p == 1 || d.get (F.KSL_CTRL_LANES q) == 3))

/-- The checks of the sensor link: bonds (R85), the refused codes of SPREAD and RATE. -/
def Dev.kslCheck (d : Dev) : Dev :=
  let bad := (List.range 8).filter (fun p => !d.bondOk p)
  let d := match bad.head? with
    | some p => bad.foldl (fun d q => d.refuse (R.KSL_CTRL q)) (d.eventAt 0x0709 sevFault p [u16 (d.get F.KSL_BOND_BOND)])
    | none => d
  let d := if d.get F.KSL_CFG_SPREAD = 3 then d.zeroRefuse R.KSL_CFG else d
  (List.range 8).foldl (fun d p =>
    if d.flag (F.KSL_CTRL_EN p) && decide (5 ≤ d.get (F.KSL_CTRL_RATE p)) && !d.isRefused (R.KSL_CTRL p) then
      d.zeroRefuse (R.KSL_CTRL p)
    else d) d

/-- Ports at mode entry (R64, R102, R105), a bond by its head port: an enabled port that is down trains, and every port trains
on entry to a mode that runs sensors from one that does not; on leaving such modes a port that is up puts its head in
standby. `wasSensing` says that the mode before ran sensors. -/
def Dev.kslStart (d : Dev) (wasSensing : Bool) : Dev :=
  (List.range 8).foldl (fun d p =>
    if !d.portRuns p || d.bondHead p != p then d
    else if d.flag (F.KSL_STATUS_LINK_UP p) then
      (if d.sensing && !wasSensing then d.startTraining p
       else if !d.sensing && wasSensing then (d.bcSend p 8 [] none false).emit (.link p 4)
       else d)
    else if (d.port p).train ≠ 0 then d
    else d.startTraining p) d

/-! ### Capture contexts (R122-R126, R153, R159, R187) -/

/-- Contexts that want to run. -/
def Dev.ctxEnabled (d : Dev) : List Nat :=
  (List.range 16).filter (fun n => d.flag (F.CAP_BIND_EN n) && !d.isRefused (R.CAP_BIND n))

/-- A context refuses to start with an event of its own. -/
def Dev.ctxRefuse (d : Dev) (n code : Nat) (data : Item) : Dev :=
  (d.eventCtx code sevFault n n [data]).refuse (R.CAP_BIND n)

/-- The binding of a context (R122, R123): no member of a bond, no third context on a sensor, no plan twice; contexts of
lower index come first. -/
def Dev.bindBad (d : Dev) (n : Nat) : Bool :=
  let p := d.get (F.CAP_BIND_PORT n)
  let mates := d.ctxEnabled.filter (fun m => decide (m < n) && d.get (F.CAP_BIND_PORT m) == p)
  d.bondHead p != p || decide (2 ≤ mates.length) || mates.any (fun m => d.get (F.CAP_BIND_PLAN m) == d.get (F.CAP_BIND_PLAN n))

/-- The optical-black margins leave an active width of at least 16 (R160). -/
def Dev.widthOk (d : Dev) (n : Nat) : Bool :=
  decide (d.get (F.RAWC_OB_OB_LEFT n) + d.get (F.RAWC_OB_OB_RIGHT n) + 16 ≤ d.get (F.CAP_GEOM_WIDTH n))

/-- The flat-field grid breaks a limit of R187. -/
def Dev.ffBad (d : Dev) (n : Nat) : Bool :=
  let (w, h) := d.activeWH n
  let sh := d.get (F.RAWC_FF_SHIFT n)
  let nx := d.get (F.RAWC_FF_NX n)
  let ny := d.get (F.RAWC_FF_NY n)
  decide (sh < 5) || decide (9 < sh) || decide (nx < (w - 1) / 2 ^ sh + 2) || decide (ny < (h - 1) / 2 ^ sh + 2) ||
    decide (513 < nx) || decide (513 < ny)

/-- PIX_CLK in Hz (R453). -/
def Dev.pixHz (d : Dev) : Nat :=
  match d.get F.CLK_DIV_PIX_DIV with
  | 1 => 750000000
  | 2 => 500000000
  | _ => 1000000000

/-- Readout pixels and merged pixels per second of a context (R159). -/
def Dev.ctxRates (d : Dev) (n : Nat) : Nat × Nat :=
  let t := max 1 (d.get (F.CAP_TIMING_PERIOD_NS n))
  let (w, h) := d.activeWH n
  (d.get (F.CAP_GEOM_WIDTH n) * h * d.get (F.CAP_FMT_READOUTS n) * nsPerS / t, w * h * nsPerS / t)

/-- The rates of R159 are exceeded with context `n` beside the contexts of lower index. -/
def Dev.rateBad (d : Dev) (n : Nat) : Bool :=
  let rs := (n :: d.ctxEnabled.filter (fun m => decide (m < n))).map d.ctxRates
  decide (64 * d.pixHz < sumNat (rs.map (·.1))) || decide (32 * d.pixHz < sumNat (rs.map (·.2)))

/-- The bytes of AUX that a context's statistics slots take (R153). -/
def Dev.statsSpan (d : Dev) (n : Nat) : Nat × Nat :=
  let b := d.get (F.CAP_STATS_ADDR_BASE n) * 256
  (b, b + 4 * statsSlotBytes)

/-- The statistics slots of a context fail the check of R153. -/
def Dev.statsBad (d : Dev) (n : Nat) : Bool :=
  let (a, z) := d.statsSpan n
  let ring := d.get F.EVT_RING_BASE_BASE * 256
  let others := d.ctxEnabled.filter (fun m => decide (m < n) && d.statsOn m)
  d.statsOn n && (decide (a < 0x2000000) || decide (d.poolSize poolAux < z) || (decide (a < ring + 131072) && decide (ring < z)) ||
    others.any (fun m => decide (a < (d.statsSpan m).2) && decide ((d.statsSpan m).1 < z)))

/-- The checks of the contexts in index order. A started context is not checked again. -/
def Dev.ctxCheck (d : Dev) : Dev :=
  (List.range 16).foldl (fun d n =>
    if !d.flag (F.CAP_BIND_EN n) || d.isRefused (R.CAP_BIND n) || (d.ctx n).started then d
    else if d.bindBad n then d.ctxRefuse n 0x0808 (u32 (d.word (R.CAP_BIND n)).toNat)
    else if !d.widthOk n then d.zeroRefuse (R.RAWC_OB n)
    else if d.flag (F.RAWC_CFG_FF_EN n) && d.ffBad n then d.ctxRefuse n 0x0907 (u32 (R.RAWC_FF n))
    else if d.rateBad n then d.ctxRefuse n 0x0907 (u32 (R.CAP_TIMING n))
    else if d.statsBad n then d.ctxRefuse n 0x080A (u32 (R.CAP_STATS_ADDR n))
    else d) d

/-! ### Placement of develop engines (R30, R125) -/

/-- What asks for DEs, in the order of R30: stripe sets, larger ones first, then wheel groups; (place in `deSets`, engines,
contexts). -/
def Dev.deAsks (d : Dev) : List (Nat × Nat × List Nat) :=
  let ns := d.ctxEnabled
  let sets := (ns.filter (fun n => !d.flag (F.CAP_BIND_ALLOC n))).map (fun n => (n, d.get (F.CAP_BIND_UNIT n) + 1, [n]))
  let wheels := (List.range 8).filterMap (fun g =>
    let cs := ns.filter (fun n => d.wheelOf n = some g)
    if cs.isEmpty then none else some (16 + g, if d.flag (F.CAP_WG_CFG_EN g) then d.get (F.CAP_WG_CFG_ENGINES g) else 0, cs))
  sortDown (fun x => x.2.1) sets ++ wheels

/-- Assigns the active DEs in index order (R30). A request beyond the 16 that an image may ask for keeps its contexts stopped
with CAP_PLACE_FAIL, as does a wheel group that is not in use; too few active DEs send the device to HOLD (R125). -/
def Dev.placeDes (d : Dev) : Dev :=
  let d : Dev := { d with deSets := List.replicate 24 [] }
  let (d, used, short) := d.deAsks.foldl (fun (acc : Dev × Nat × Bool) x =>
    let (d, used, short) := acc
    let (i, k, cs) := x
    if k = 0 ∨ 16 < used + k then
      (cs.foldl (fun d n => (d.eventCtx 0x0807 sevFault n n [u8 k, u8 (16 - used)]).refuse (R.CAP_BIND n)) d, used, short)
    else
      let es := (d.deActive.drop used).take k
      ({ d with deSets := setAt d.deSets i es }, used + k, short || decide (es.length < k))) (d, 0, false)
  if short && decide (used ≤ 16) then d.enterHold causeCapacity else d

/-! ### Develop branches (R199, R206, R207, R209, R212, R213, R218) -/

/-- The predecimation factor of an axis (R200). -/
def predecimation (src dst : Nat) : Nat :=
  let step := src * 65536 / max 1 dst
  if 4 * 65536 < step then 4 else if 2 * 65536 < step then 2 else 1

/-- An axis that R199 refuses: the ratio in/out outside 0.5 to 8, or a crop that the predecimation factor does not divide. -/
def axisBad (src dst : Nat) : Bool :=
  decide (2 * src < dst) || decide (8 * dst < src) || (decide (2 * dst < src) && src % predecimation src dst != 0)

/-- What is wrong with a branch: the address of a register that says so. -/
def Dev.branchBad (d : Dev) (n b : Nat) : Option Nat :=
  let kind := d.get (F.COL_BR_CFG_KIND n b)
  let fmt := d.get (F.COL_BR_CFG_FORMAT n b)
  let ycc := d.get (F.COL_BR_CFG_YCC n b)
  let depth := d.get (F.COL_BR_CFG_DEPTH n b)
  let fmtOk := match fmt with
    | 0 => depth != 3
    | 1 => true
    | 2 | 3 => ycc != 0
    | 4 | 5 => depth == 0 && ycc != 0
    | 6 | 7 | 8 => kind == 2
    | _ => false
  let (cw, ch) := (d.get (F.COL_BR_CROP_WH_W n b), d.get (F.COL_BR_CROP_WH_H n b))
  let (ow, oh) := (d.get (F.COL_BR_OUT_WH_W n b), d.get (F.COL_BR_OUT_WH_H n b))
  if kind = 3 ∨ d.get (F.COL_BR_CFG_TF n b) = 7 ∨ ycc = 3 ∨ (kind ≠ 2 ∧ !fmtOk) ∨ (kind = 2 ∧ fmt < 6 ∧ !fmtOk) then
    some (R.COL_BR_CFG n b)
  else if kind = 2 then
    (if d.get F.PCIE_CFG_LANE_OPT = 3 then some (R.COL_BR_CFG n b) else none)
  else if axisBad cw ow || axisBad ch oh || decide (cw * ch < ow * oh) then some (R.COL_BR_OUT_WH n b)
  else if d.get (F.COL_BR_OUT_RING_BUFS n b) = 1 then some (R.COL_BR_OUT_RING n b)
  else if d.flag (F.COL_BR_LUT_LUT3D_EN n b) && !d.lutValid (d.get (F.COL_BR_LUT_LUT3D_IDX n b)) then some (R.COL_BR_LUT n b)
  else none

/-- The checks of the branches of the contexts that start. -/
def Dev.branchCheck (d : Dev) : Dev :=
  d.ctxEnabled.foldl (fun d n =>
    if (d.ctx n).started then d
    else (d.branches n).foldl (fun d b =>
      match d.branchBad n b with
      | some a => (d.eventCtx 0x0A01 sevFault n n [u8 b, u32 a]).refuse (R.COL_BR_CFG n b)
      | none => d) d) d

/-- The 3D tables that the branches of an engine group select are loaded before its contexts start, at most two (R205). -/
def Dev.lutsLoad (d : Dev) (n : Nat) : Dev :=
  (d.branches n).foldl (fun d b =>
    if d.eget (F.COL_BR_LUT_LUT3D_EN n b) = 0 then d
    else
      let u := d.lutUnit n
      let l := elemAt d.luts u {}
      let t := d.eget (F.COL_BR_LUT_LUT3D_IDX n b)
      if l.held.contains t then d.set (F.COL_BR_LUT_STATUS_IDX_IN_EFFECT n b) t
      else if l.held.length < 2 then
        ({ d with luts := setAt d.luts u { l with held := l.held ++ [t] } }).set (F.COL_BR_LUT_STATUS_IDX_IN_EFFECT n b) t
      else d) d

/-- A context starts (R59, R126, R161, R219). -/
def Dev.ctxStart (d : Dev) (n : Nat) : Dev :=
  if (d.ctx n).started then d
  else
    let d := (d.latch (R.CAP_WHEEL n)).latchAll (colShadows n)
    let d := d.latch (R.ZE_KRC n)
    let b := d.get (F.RAWC_BLACK_BLACK_LEVEL n) * 16
    let d := d.modCtx n (fun c =>
      { c with started := true, slots := [], frames := [], line := none, prev := none, black := List.replicate 12 b })
    let d := if d.statsOn n then d.set (F.CAP_STATS_ADDR_STRIDE n) 12 else d
    d.lutsLoad n

/-- QSEL 3 of a noise-bounded context is refused with ZE_CFG_BAD (R237, ZE_CTXn_KRC). -/
def Dev.krcCheck (d : Dev) : Dev :=
  d.ctxEnabled.foldl (fun d n =>
    if d.flag (F.ZE_KRC_EN n) && d.flag (F.ZE_KRC_NB n) && d.get (F.ZE_KRC_QSEL n) = 3 then
      (d.eventCtx 0x0B04 sevFault n n [u32 (R.ZE_KRC n)]).refuse (R.ZE_KRC n)
    else d) d

/-- Capture and development start in a mode that runs sensors; contexts that run go on (R64). -/
def Dev.captureStart (d : Dev) : Dev :=
  let d := d.ctxCheck
  let d := d.placeDes
  if d.modeCode = mHold then d
  else
    let d := d.branchCheck
    let d := d.krcCheck
    d.ctxEnabled.foldl Dev.ctxStart d

/-! ### The recorder (R257, R276) -/

/-- Whether two byte areas overlap. -/
def overlap (a la b lb : Nat) : Bool := decide (a < b + lb) && decide (b < a + la)

/-- What is wrong with the recorder's settings: the address of a register that says so. -/
def Dev.recBad (d : Dev) : Option Nat :=
  let a := d.get F.REC_OUT_BASE * 4096
  let l := d.get F.REC_OUT_SIZE_SIZE * 4096
  let ses := (List.range 256).filter (fun s => d.flag (F.SES_CFG_EN s))
  let hits := ses.any (fun s =>
    overlap a l (d.get (F.SES_OUT_DATA_BASE s) * 4096) (d.get (F.SES_OUT_SIZE_SIZE s) * 4096) ||
    overlap a l (d.get (F.SES_OUT_REC_BASE s) * 256) (64 * 2 ^ d.get (F.SES_OUT_REC_REC_LOG2 s)))
  if (List.range 4).any (fun k => bitOf (d.get F.REC_CFG_DRIVES) k && decide (d.rootPorts ≤ k)) then some R.REC_CFG
  else if l = 0 ∨ d.poolSize poolOut < a + l ∨ hits then some R.REC_OUT_SIZE
  else none

/-- The recorder checks its settings (R257, R276). -/
def Dev.recCheck (d : Dev) : Dev :=
  if !d.flag F.REC_CFG_EN || d.isRefused 0x600000 then d
  else match d.recBad with
    | some a => (d.event 0x0C09 sevFault [u32 a]).refuse 0x600000
    | none => d

/-! ### The 3D LUT library (R203) -/

/-- The address areas that the bulk-data records of an image write, (start, length). -/
def bulkAreas (rs : List Record) : List (Nat × Nat) :=
  (rs.filter (fun r => r.known && r.type % 256 == 1 && leAt r.value 0 1 == 0)).map (fun r =>
    (leAt r.value 4 8, r.value.length - 12))

/-- Whether areas together cover the bytes from `a` up to `z`; `fuel` bounds the areas used. -/
def covered : Nat → List (Nat × Nat) → Nat → Nat → Bool
  | 0, _, a, z => decide (z ≤ a)
  | fuel + 1, areas, a, z =>
    if z ≤ a then true
    else match areas.find? (fun x => decide (x.1 ≤ a) && decide (a < x.1 + x.2)) with
      | some x => covered fuel areas (x.1 + x.2) z
      | none => false

/-- The mask of tables that the records `rs` wrote whole (R203). -/
def lutValidMask (rs : List Record) : Nat :=
  let areas := bulkAreas rs
  sumNat (((List.range 8).filter (fun t =>
    let a := 0x2300000 + t * 0x1A0000
    covered (areas.length + 1) areas a (a + 1647750))).map (2 ^ ·))

/-! ### The defect map (R174, R175, R183, R186) -/

/-- Adds a number to a list unless it is there. -/
def addNew (l : List Nat) (x : Nat) : List Nat := if l.contains x then l else l ++ [x]

/-- Journal records of the keep store whose CRC passes: (JSEQ, slot, operation, the six bytes). -/
def Dev.journalRecords (d : Dev) : List (Nat × Nat × Nat × List Byte) :=
  let is := (d.keep.bytes.filter (fun e => decide (0x600010 ≤ e.1) && decide (e.1 < 0x780000))).foldl (fun l e =>
    let i := (e.1 - 0x600010) / 16
    if l.getLast? = some i then l else l ++ [i]) []
  is.filterMap (fun i =>
    let b := d.keepRead (journalAt i) 16
    if beNat (sliceBytes b 14 2) = crc16 (sliceBytes b 0 14) then some (leAt b 0 4, leAt b 4 3, leAt b 7 1, sliceBytes b 8 6)
    else none)

/-- The map copy with the journal replayed in JSEQ order from BASE_JSEQ on: the bytes of the slots. -/
def Dev.replayed (d : Dev) : Sparse Byte :=
  let base := d.keepNat 0x600004 4
  let age (r : Nat × Nat × Nat × List Byte) : Nat := (r.1 + 2 ^ 32 - base) % 2 ^ 32
  let rs := d.journalRecords.filter (fun r => decide (age r < 2 ^ 31))
  let rs := (sortDown (fun r => 2 ^ 32 - age r) rs)
  let copy := d.keep.bytes.filter (fun e => decide (e.1 < 0x600000))
  rs.foldl (fun m r => keepStore m (6 * r.2.1) (if r.2.2.1 = 2 then List.replicate 6 0 else r.2.2.2)) copy

/-- The entries of a port's banks among slots (slot, low word of the entry), sorted by (Y, X). -/
def Dev.portEntries (d : Dev) (p : Nat) (slots : List (Nat × Nat)) : List DefectEntry :=
  let first := d.get (F.RAWC_DMAP_PORT_FIRST p)
  (slots.filter (fun s => decide (first * 65536 ≤ s.1) && decide (s.1 < first * 65536 + d.dmapCap p) && s.2 / 2 ^ 28 % 16 != 0)).foldl
    (fun l s => insertDefect l { (entryOfBits s.2) with slot := s.1 }) []

/-- The slots of the keep store's map, replayed. -/
def Dev.keepSlots (d : Dev) : List (Nat × Nat) :=
  let m := d.replayed
  let is := m.foldl (fun l e => if l.getLast? = some (e.1 / 6) then l else l ++ [e.1 / 6]) []
  is.map (fun i => (i, leNat ((List.range 4).map (fun k => Sparse.get (fun _ => 0) m (6 * i + k)))))

/-- The slots of the image's window records; the copy gives entry j slot j. -/
def Dev.windowSlots (d : Dev) : List (Nat × Nat) :=
  let bs := d.windows.filter (fun e => decide (0x1000000 ≤ e.1) && decide (e.1 < 0x1800000))
  let is := bs.foldl (fun l e =>
    let i := (e.1 - 0x1000000) / 8
    if l.getLast? = some i then l else l ++ [i]) []
  is.map (fun i => (i, leNat ((List.range 4).map (fun k => Sparse.get (fun _ => 0) d.windows (0x1000000 + 8 * i + k)))))

/-- The runs of banks that the image gives the ports (R174): a run that overlaps an earlier port's, or passes the last bank,
is refused with RAWC_CFG_BAD and its port has no map. -/
def Dev.dmapRuns (d : Dev) : Dev :=
  let d : Dev := { d with dmap := d.dmap.map (fun (m : DmapPort) => { m with bad := false }) }
  let run (d : Dev) (p : Nat) : Nat × Nat := (d.get (F.RAWC_DMAP_PORT_FIRST p), d.get (F.RAWC_DMAP_PORT_COUNT p))
  (List.range 8).foldl (fun d p =>
    let (f, c) := run d p
    if c = 0 then d
    else if 16 < f + c ∨ (List.range p).any (fun q => !(elemAt d.dmap q {}).bad && overlap f c (run d q).1 (run d q).2) then
      { d with dmap := modifyAt d.dmap p (fun (m : DmapPort) => { m with bad := true }) }.eventAt 0x0907 sevFault p
        [u32 (R.RAWC_DMAP_PORT p)]
    else d) d

/-- The on-die map holds the entries of `slots`, and the journal goes on at `jseq`. -/
def Dev.dmapFrom (d : Dev) (slots : List (Nat × Nat)) (jseq : Nat) (fromKeep : Bool) : Dev :=
  { d with
    dmap := (List.range 8).map (fun p => { cur := d.portEntries p slots, bad := (elemAt d.dmap p {}).bad })
    journal := { jseq := jseq, lastBatch := d.elapsed, lastFold := d.journal.lastFold, rebuilding := !fromKeep } }

/-- Journal records up to the last that is in order after `base`. -/
def Dev.journalLast (d : Dev) (base : Nat) : Nat :=
  d.journalRecords.foldl (fun m r =>
    let a := (r.1 + 2 ^ 32 - base) % 2 ^ 32
    if a < 2 ^ 31 then max m (a + 1) else m) 0

/-- Whether the keep store holds a defect map. -/
def Dev.keepHasMap (d : Dev) : Bool := d.keepNat 0x600000 4 = 0x4E524A44

/-- USED of the journal, and the report that the map was not taken from the keep store. -/
def Dev.dmapReport (d : Dev) (fromKeep image magic : Bool) (last : Nat) : Dev :=
  if fromKeep then d.set F.RAWC_JOURNAL_USED last
  else (d.set F.RAWC_JOURNAL_USED 0).event 0x0906 sevNotice [u8 (if image then 1 else if magic then 3 else 2)]

/-- Loads the on-die map (R186): from the keep store with the journal replayed, or from the image where SOURCE says so or the
keep store does not match; then the copy is rewritten in the background and learning waits. -/
def Dev.dmapLoad (d : Dev) (keepOnly : Bool) : Dev :=
  let d := d.dmapRuns
  let magic := d.keepHasMap
  let layout := d.keepRead 0x600008 8 = d.dmapLayout
  let image := d.flag F.RAWC_DMAP_CTRL_SOURCE && !keepOnly
  let fromKeep := !image && magic && layout
  let slots := if fromKeep then d.keepSlots else d.windowSlots
  let base := d.keepNat 0x600004 4
  let last := d.journalLast base
  let d := d.dmapFrom slots ((base + last) % 2 ^ 32) fromKeep
  let d := (List.range 8).foldl (fun d p => d.set (F.RAWC_DMAP_STATUS_USED p) (elemAt d.dmap p {}).cur.length) d
  d.dmapReport fromKeep image magic last

end Sys2Proof.Machine
end

