-- ==== Sys2Proof/Machine/Resets.lean ====
section
/-!
DEFINITION. Resets (R69, R70, R73), brown-out (R483) and the thermal shutdown path (R494-R496): what each keeps, and where the
device stands afterwards.
-/
namespace Sys2Proof.Machine

/-! ### Retention of registers (R73) -/

/-- The word that the register at `a` holds after a reset that keeps the fields chosen by `keep`: all others return to their
reset values. -/
def keptWord (keep : FieldSpec → Bool) (a : Nat) (w : Word) : Word :=
  (fieldsAt a).foldl (fun (x : Word) f => if keep f then x.setField f.lo f.width (w.field f.lo f.width) else x) (resetWord a)

/-- Listed words after such a reset. -/
def keptWords (keep : Nat → FieldSpec → Bool) (m : Sparse Word) : Sparse Word :=
  m.foldl (fun acc e => Sparse.put resetWord acc e.1 (keptWord (keep e.1) e.1 e.2)) []

/-- The register space after such a reset. -/
def Regs.kept (r : Regs) (keep : Nat → FieldSpec → Bool) : Regs :=
  { words := keptWords keep r.words, eff := keptWords keep r.eff }

/-- A cold or pin reset keeps class K alone. -/
def keepCold (_ : Nat) (f : FieldSpec) : Bool := f.cls == .K

/-- A warm reset keeps classes S, A and K; and the rails stay up, so that their monitors stay armed (R475). -/
def keepWarm (a : Nat) (f : FieldSpec) : Bool := f.cls != .V || (a == R.PWR_RAIL_STATUS && (f.lo == 5 || f.lo == 6))

/-- BRUMATE keeps classes A and K; locked fields, which only a reset through BOOT changes (R521); the pointers of EVENT_RING;
the state of the time servo (R386); and VDD_HBM's monitor, whose rail stays up (R445). -/
def keepBrumate (a : Nat) (f : FieldSpec) : Bool :=
  f.cls == .A || f.cls == .K || f.acc == .rwl || a == R.EVT_PROD || a == R.EVT_CONS || a == R.TIME_INCR ||
    (a == R.TIME_STATUS && f.lo == 0) || (a == R.PWR_RAIL_STATUS && f.lo == 6)

/-! ### Starting BOOT -/

/-- The cause of a reset, as a bit of `DEV_RESET_CAUSE`. -/
def rcPor : Nat := 0
def rcBrownout : Nat := 1
def rcThermal : Nat := 2
def rcPin : Nat := 3
def rcWarmReg : Nat := 4
def rcWarmWdog : Nat := 5

/-- Exactly one cause is set, and the rail of a brown-out. -/
def Dev.resetCause (d : Dev) (bit rail : Nat) : Dev :=
  d.setWord R.DEV_RESET_CAUSE (BitVec.ofNat 32 (2 ^ bit + 256 * rail))

/-- The mode reads BOOT, and no transition and no request stand. -/
def Dev.modeBoot (d : Dev) : Dev :=
  ((d.set F.DEV_MODE_MODE mBoot).setFlag F.DEV_MODE_IN_TRANSITION false).setFlag F.DEV_MODE_REQ_PENDING false

/-- Reset is released: BOOT starts at step 1, or stops where `TEST_EN` reads high (R513). -/
def Dev.bootFrom (d : Dev) (testEn : Bool) : Dev :=
  let d := d.setWord R.DEV_BOOT_STATUS 0
  let b := { d.boot with step := if testEn then 0 else 1, stopped := testEn, releasedAt := d.elapsed }
  let d : Dev := { d with boot := b }
  if testEn then d.setFlag F.DEV_BOOT_STATUS_BOOT_FAIL true else d

/-- A cold or pin reset is released: device time restarts at 0 (R386). -/
def Dev.coldBoot (d : Dev) (testEn : Bool) : Dev := { d with time := { d.time with dt := 0 } }.bootFrom testEn

/-- What a loss of VAON leaves. -/
def Dev.coldFields (d : Dev) (aon : Nat) : Dev := {
  regs := d.regs.kept keepCold
  out := d.out
  keep := d.keep
  therm := { aonBase := aon }
  srv := { bscan := d.srv.bscan, resetLow := d.srv.resetLow }
  freeCtr := d.freeCtr }

/-- The block after a cold or pin reset (R73): class K fields, the keep store and the fuses stay; memory, device time and
everything else is lost, outputs are safe and the rails are off. `aon` is the always-on time reached. -/
def Dev.coldState (d : Dev) (aon : Nat) : Dev :=
  let was := d.faultAsserted
  let irq := d.irqAsserted
  let d := d.keepSettle.outputsToSafe.setRails false false
  let new := d.coldFields aon
  (if irq then new.pin pinIrqN 1 else new).driveFault was

/-- The always-on time in ns. -/
def Dev.aonTime (d : Dev) : Nat := d.therm.aonBase + d.elapsed

/-- Removal of VDD_AON during a keep-store write or a fuse operation leaves one of the outcomes that R510 and R512 allow. -/
def Dev.powerLost (d : Dev) : Dev :=
  let d := match d.keep.busy with
    | none => d
    | some _ =>
      if d.free % 2 = 0 then { d with keep := { d.keep with busy := none } }.tookFree 1 else d.keepSettle.tookFree 1
  let d : Dev := { d with keep := { d.keep with fuseEvents := [] } }
  match d.keep.fuseOp with
  | none => d
  | some f =>
    let old := elemAt d.keep.hashes f.slot []
    let other := (List.range 32).map (fun i => BitVec.ofNat 8 (Config.free (d.freeCtr + 1 + i)))
    let code := if f.op = fuseProgram then 1 else 3
    let (state, hash) := match d.free % 3 with
      | 0 => (d.keyState f.slot, old)
      | 1 => (code, if f.op = fuseProgram then f.hash else old)
      | _ => (code, if f.op = fuseProgram then other else old)
    let d := d.setWord R.FUSE_KEYS ((d.word R.FUSE_KEYS).setField (2 * f.slot) 2 state)
    { d with keep := { d.keep with fuseOp := none, hashes := setAt d.keep.hashes f.slot hash } }.tookFree 33

/-- POWER_ON_RESET (R69): VDD_AON rises; `testEn` is the level of `TEST_EN`. -/
def execPowerOnReset (testEn : Bool) (s : State) : Host.Outcome State Fault Refusal :=
  s.run (fun d => d.withFault (fun d =>
    let d := (d.powerLost.coldState 0).resetCause rcPor 0
    if d.srv.resetLow then
      let b := { d.boot with step := 0 }
      { d with boot := b }
    else d.coldBoot testEn))

/-- PIN_RESET (R69, R496): `RESET_N` has been low for 1 µs, or rises with `TEST_EN` at the level `testEn`. It ends a thermal
lock-out, whose restart times it keeps for step 8; a brown-out that waits for its rails goes on waiting. -/
def execPinReset (low testEn : Bool) (s : State) : Host.Outcome State Fault Refusal :=
  s.run (fun d => d.withFault (fun d =>
    if low then
      let locked := d.flag F.THERM_TRIP_STATUS_LOCKOUT
      let report := if locked then some (d.get F.THERM_TRIP_STATUS_SRC) else d.therm.report
      let times := if report.isSome then d.therm.restarts else []
      let brown := d.pwr.brown
      let held := d.boot.step = 0 && brown.isSome
      let trip := d.therm.shut
      let d := d.coldState d.aonTime
      let b := { d.boot with step := 0 }
      let d : Dev := { d with
        boot := b
        therm := { d.therm with restarts := times, report := report }
        srv := { d.srv with resetLow := true }
        pwr := { d.pwr with brown := if held then brown else none } }
      let d := if trip then d.pin pinThermTripN 1 else d
      if held then d.resetCause rcBrownout (brown.getD 0) else d.resetCause rcPin 0
    else if !d.srv.resetLow then d
    else
      let d : Dev := { d with srv := { d.srv with resetLow := false } }
      if d.pwr.brown.isSome then d else d.coldBoot testEn))

/-! ### Warm reset (R69, R70) -/

/-- Every learned defect that waits is journaled. -/
def Dev.journalAll (d : Dev) : Dev :=
  (List.range (d.journal.wait.length / 256 + 1)).foldl (fun d _ => d.journalWrite) d

/-- The defect map without what a warm reset loses: detection history and edits that are not in a generation. -/
def warmMap (m : DmapPort) : DmapPort := { cur := m.cur, bad := m.bad }

/-- What a warm reset leaves. -/
def Dev.warmFields (d : Dev) (prev : List Nat) : Dev := {
  regs := d.regs.kept keepWarm
  elapsed := d.elapsed
  out := d.out
  boot := { keepTraining := true, contentsKept := true, prevPools := prev, reloadMap := false }
  evt := { held := d.evt.held, lostBefore := d.evt.lostBefore, logCount := d.evt.logCount, logSecond := d.evt.logSecond }
  keep := d.keep
  mem := { cells := d.mem.cells, err := d.mem.err, poison := d.mem.poison, lostPools := d.mem.lostPools, selfRefresh := true }
  time := { dt := d.time.dt, everLocked := d.time.everLocked, nowLatch := d.time.nowLatch }
  windows := d.windows
  dmap := d.dmap.map warmMap
  journal := d.journal
  clk := { d.clk with gate := none }
  pwr := { coreEn := d.pwr.coreEn, hbmEn := d.pwr.hbmEn }
  therm := { aonBase := d.therm.aonBase, restarts := d.therm.restarts, report := d.therm.report }
  srv := { bscan := d.srv.bscan }
  freeCtr := d.freeCtr }

/-- A warm reset (R69, R73): clips close as on WARN, learned defects are journaled, the stacks enter self-refresh, and BOOT runs
from step 1 with training kept. -/
def Dev.warmReset (d : Dev) (cause : Nat) : Dev :=
  let was := d.faultAsserted
  let irq := d.irqAsserted
  let both := d.bothLost
  let d := ((d.endLoans.recFlush.journalAll.selfRefresh.outputsToSafe.keepSettle).keepCount 3).holdEvents
  let prev := (List.range 6).map (fun n => (d.word (R.MEM_POOL_CFG n)).toNat)
  let new := d.warmFields prev
  let new := ((new.set F.EVT_STATUS_HELD new.evt.held.length).set F.MEM_STATUS_POWER 2).setCause causeClock both
  let new := ((new.resetCause cause 0).modeBoot).bootFrom false
  (if irq then new.pin pinIrqN 1 else new).driveFault was

/-- A write of `DEV_RESET_CTRL`: it needs KEY 0xA5 and WARM. -/
def Dev.resetCtrl (d : Dev) (v : Word) : Dev :=
  if v.field 0 8 = 0xA5 ∧ v.field 8 1 = 1 then d.warmReset rcWarmReg else d

/-- WARM_RESET (R69): `DEV_RESET_CTRL` is written. -/
def execWarmReset (v : Word) (s : State) : Host.Outcome State Fault Refusal :=
  s.hostCmd R.DEV_RESET_CTRL v.toNat (fun d => d.resetCtrl v)

/-- The watchdog runs: in every mode but BOOT, HOLD and BRUMATE, with a period (R67). -/
def Dev.wdogRuns (d : Dev) : Bool := d.inWork && d.get F.DEV_WDOG_CTRL_TIMEOUT_MS != 0

/-- WATCHDOG_EXPIRY (R67): TIMEOUT_MS pass without a kick. -/
def execWatchdogExpiry (s : State) : Host.Outcome State Fault Refusal :=
  s.run (fun d =>
    if d.wdogRuns && decide (d.mode.wdogFrom + d.get F.DEV_WDOG_CTRL_TIMEOUT_MS * 1000000 ≤ d.elapsed) then
      d.warmReset rcWarmWdog
    else d)

/-- A write of `DEV_WDOG_KICK`: 0xC0DE restarts the count. -/
def Dev.wdogKick (d : Dev) (v : Nat) : Dev :=
  if v % 65536 = 0xC0DE then { d with mode := { d.mode with wdogFrom := d.elapsed } } else d

/-- WDOG_KICK (R67). -/
def execWdogKick (v : Nat) (s : State) : Host.Outcome State Fault Refusal :=
  s.hostCmd R.DEV_WDOG_KICK v (fun d => d.wdogKick v)

/-! ### Rails (R473-R475, R483) -/

/-- CORE_RAIL_ARMED (R473): VDD_CORE has stayed at 0.775 V or above for 100 µs after its enable rose. -/
def Dev.coreArmed (d : Dev) : Dev :=
  if !d.pwr.coreEn || d.boot.pwrWait then d else d.setFlag F.PWR_RAIL_STATUS_CORE_ARMED true

/-- HBM_RAIL_ARMED (R473): VDD_HBM has stayed at 1.05 V or above for 100 µs after its enable rose. -/
def execHbmRailArmed (s : State) : Host.Outcome State Fault Refusal :=
  s.run (fun d => if d.pwr.hbmEn then d.setFlag F.PWR_RAIL_STATUS_HBM_ARMED true else d)

/-- PWR_CORE_START (R474): VDD_CORE, at `mv`, has not armed within 10 ms of `CORE_PWR_EN`. -/
def execPwrCoreStart (mv : Nat) (s : State) : Host.Outcome State Fault Refusal :=
  s.run (fun d =>
    if d.modeCode ≠ mBoot ∨ d.boot.step < 2 ∨ 3 < d.boot.step ∨ d.boot.pwrWait = true ∨ d.railArmed 0 = true then d
    else (d.withFault (fun d => { d with boot := { d.boot with pwrWait := true } })).eventAt 0x0306 sevFault 0 [u16 mv])

/-- BROWNOUT (R483): rail `rail`, armed, falls to `mv`, below its RESET threshold. The device stands in a cold reset until its
rails recover. -/
def execBrownout (rail : Fin 4) (mv : Nat) (s : State) : Host.Outcome State Fault Refusal :=
  s.run (fun d =>
    if !d.railArmed rail || decide (d.resetMv rail ≤ mv) || d.pwr.brown.isSome || (rail.val < 2 && d.therm.shut) then d
    else
      let d := (d.withFault (fun d =>
        let low := d.srv.resetLow
        let d := (d.coldState 0).resetCause rcBrownout rail
        let b := { d.boot with step := 0 }
        { d with boot := b, pwr := { d.pwr with brown := some rail }, srv := { d.srv with resetLow := low } })).keepCount 2
      d)

/-- BROWNOUT_RECOVERY (R483): VDD_AON and VDD_IO have stayed above their RESET thresholds for 1 ms. The boot that follows raises
PWR_BROWNOUT. -/
def execBrownoutRecovery (testEn : Bool) (s : State) : Host.Outcome State Fault Refusal :=
  s.run (fun d =>
    if d.pwr.brown.isNone || decide (d.boot.step ≠ 0) || d.srv.resetLow then d else d.withFault (fun d => d.coldBoot testEn))

/-! ### Thermal shutdown (R494-R496) -/

/-- What the core's power going off leaves. -/
def Dev.offFields (d : Dev) : Dev := {
  regs := d.regs.kept keepBrumate
  elapsed := d.elapsed
  out := d.out
  boot := { d.boot with image := [], hdrA := [], hdrB := [] }
  mode := d.mode
  evt := { held := d.evt.held, lostBefore := d.evt.lostBefore, logCount := d.evt.logCount, logSecond := d.evt.logSecond }
  keep := d.keep
  mem := { cells := d.mem.cells, err := d.mem.err, poison := d.mem.poison, lostPools := d.mem.lostPools,
           selfRefresh := d.mem.selfRefresh }
  time := { dt := d.time.dt, everLocked := d.time.everLocked, nowLatch := d.time.nowLatch }
  windows := d.windows
  journal := { jseq := d.journal.jseq, lastBatch := d.journal.lastBatch, lastFold := d.journal.lastFold,
               rebuilding := d.journal.rebuilding }
  clk := { d.clk with gate := none }
  pwr := { coreEn := d.pwr.coreEn, hbmEn := d.pwr.hbmEn }
  therm := { bad := d.therm.bad, aonBase := d.therm.aonBase, restarts := d.therm.restarts, report := d.therm.report }
  srv := { bscan := d.srv.bscan, resetLow := d.srv.resetLow }
  freeCtr := d.freeCtr }

/-- The state that stays while VDD_CORE is off: what R73 keeps through BRUMATE. -/
def Dev.coreOff (d : Dev) : Dev :=
  let irq := d.irqAsserted
  let d := d.endLoans
  let new := d.offFields
  let new := (new.set F.EVT_STATUS_HELD new.evt.held.length).setLock 0 false
  if irq then new.pin pinIrqN 1 else new

/-- What the shutdown clears beyond the core's power going off. -/
def Dev.shutFields (d : Dev) : Dev :=
  { d with mem := {}, boot := { step := 0 }, mode := {}, ep0Up := false, therm := { d.therm with shut := true } }

/-- THERMAL_SHUTDOWN (R494, R496): `cause` 1 die comparator, 2 HBM compare, 3 catastrophic-temperature output, of sensor or stack
`src`. While VDD_CORE is off, only TS39's comparator and the stacks' outputs act. -/
def execThermalShutdown (cause : Fin 4) (src : Fin 64) (s : State) : Host.Outcome State Fault Refusal :=
  s.run (fun d =>
    let acts := cause.val = 3 && d.pwr.hbmEn && decide (src.val < 4) || cause.val = 1 && decide (src.val = 39) ||
      cause.val = 1 && d.corePowered && decide (src.val < 40) || cause.val = 2 && d.corePowered && decide (src.val < 4)
    if !acts || d.therm.shut || d.srv.resetLow || d.pwr.brown.isSome then d
    else
      let was := d.faultAsserted
      let now := d.aonTime / nsPerS
      let recent := (d.therm.restarts.filter (fun t => decide (now < t + 600))).length
      let d := ((d.outputsToSafe.pin pinThermTripN 0).keepSettle.setRails false false).coreOff.modeBoot
      let d := d.shutFields
      let d := ((d.set F.THERM_TRIP_STATUS_CAUSE cause).set F.THERM_TRIP_STATUS_SRC src).set F.THERM_TRIP_STATUS_RESTARTS (min recent 3)
      (d.setFlag F.THERM_TRIP_STATUS_LOCKOUT (decide (3 ≤ recent))).driveFault was)

/-- THERMAL_RESTART (R495, R496): TS39 has read below 90 °C for 10 s. -/
def execThermalRestart (s : State) : Host.Outcome State Fault Refusal :=
  s.run (fun d =>
    if !d.therm.shut || d.flag F.THERM_TRIP_STATUS_LOCKOUT then d
    else
      let trip := d.word R.THERM_TRIP_STATUS
      let times := d.therm.restarts ++ [d.aonTime / nsPerS]
      let times := times.drop (times.length - 3)
      d.withFault (fun d =>
        let d := ((d.keepCount 1).coldState d.aonTime).setWord R.THERM_TRIP_STATUS trip
        let d : Dev := { d with therm := { d.therm with restarts := times } }
        ((d.setRails true true).pin pinThermTripN 1).resetCause rcThermal 0 |>.coldBoot false))

end Sys2Proof.Machine
end

