-- ==== Sys2Proof/Machine/Modes.lean ====
section
/-!
DEFINITION. Operating modes (R58-R68): requests and chains of direct transitions, the records of a mode, what stops as a mode is
left and what starts as one is entered.
-/
namespace Sys2Proof.Machine

/-! ### Requests (R63, R64, R66) -/

/-- The direct transitions by which mode `m` reaches mode `r` (R64). -/
def modePath (m r : Nat) : List Nat :=
  if m = r then []
  else if m = mPreview ∧ r = mCapture ∨ m = mCapture ∧ r = mPreview then [r]
  else
    (if m = mBask then [] else if m = mCapture then [mPreview, mBask] else [mBask]) ++
      (if r = mBask then [] else if r = mCapture then [mPreview, mCapture] else [r])

/-- Work that is to end by itself before the transition completes is asked to end (R64): sessions after their pictures in
progress, clips after their last resolved slot. -/
def Dev.endCapture (d : Dev) : Dev := (d.running.foldl (fun d s => (d.sesStop s).1) d).recStop 0 false

/-- The next direct transition of a chain starts. An exit from BRUMATE raises `CORE_PWR_EN` once a reference is valid (R467). -/
def Dev.startChain (d : Dev) (path : List Nat) : Dev :=
  match path with
  | [] => d
  | dst :: rest =>
    let m := d.modeCode
    let d : Dev := { d with mode := { d.mode with chain := rest } }
    let d := (d.setFlag F.DEV_MODE_IN_TRANSITION true).set F.DEV_MODE_TARGET dst
    if m = mCapture then d.endCapture
    else if m = mBrumate ∧ (d.refOk 0 || d.refOk 1) = true then d.setRails true true
    else d

/-- A request is executed or refused from the present mode (R63, R66). -/
def Dev.runRequest (d : Dev) (r : Nat) : Dev :=
  let m := d.modeCode
  if r = mBoot ∨ r = mHold ∨ r = m ∨ m = mHold then d.event 0x0102 sevNotice [u8 r, u8 m]
  else d.startChain (modePath m r)

/-- A mode request: nothing in BOOT; held pending during a transition, where a later one replaces it. -/
def Dev.modeRequest (d : Dev) (r : Nat) : Dev :=
  if d.modeCode = mBoot then d
  else if d.inTransition then { d with mode := { d.mode with pendingReq := some r } }.setFlag F.DEV_MODE_REQ_PENDING true
  else d.runRequest r

/-- A write of `DEV_MODE_REQ`. -/
def Dev.modeReqWrite (d : Dev) (r : Nat) : Dev :=
  if d.modeCode = mBoot then d else (d.set F.DEV_MODE_REQ_REQ r).modeRequest (r % 8)

/-- MODE_REQUEST (R63): `DEV_MODE_REQ` is written through a port; EP0 is down in BRUMATE (R66). -/
def execModeRequest (port : HostPort) (mode : Fin 8) (s : State) : Host.Outcome State Fault Refusal :=
  s.run (fun d => d.gateWrite (portCode port) R.DEV_MODE_REQ (BitVec.ofNat 32 mode) (fun d => d.modeReqWrite mode))

/-- GPIO_MODE_REQUEST (R63): a GPIO input that the image maps to `mode` becomes active. -/
def execGpioModeRequest (mode : Fin 8) (s : State) : Host.Outcome State Fault Refusal := s.run (fun d => d.modeRequest mode)

/-! ### The dividers (R453, R455, R456) -/

/-- The `CLK_DIV` values that records write, in order. -/
def divWrites (rs : List Record) : List Nat :=
  ((rs.filter (fun r => r.known && r.type % 256 == 0)).flatMap Record.entries).filterMap (fun e =>
    if e.1 = R.CLK_DIV then some e.2 else none)

/-- A refused divider code (R453). -/
def divRefused (v : Nat) : Bool := v % 4 == 3 || v / 4 % 4 == 3

/-- The dividers change: rates, capacity and the nominal time increment follow (R455, R385). -/
def Dev.setDiv (d : Dev) (w : Word) : Dev :=
  let cfg := d.get F.CLK_DIV_CFG_DIV
  let d := d.setWord R.CLK_DIV w
  (if d.get F.CLK_DIV_CFG_DIV = cfg then d else d.set F.TIME_INCR_INCR d.nominalIncr).showLoad

/-- The written values take effect in order; a value with a refused code changes nothing, with CLK_CFG_BAD. -/
def Dev.divApply (d : Dev) (vs : List Nat) : Dev × Bool :=
  vs.foldl (fun acc v =>
    if divRefused v then (acc.1.event 0x0209 sevFault [u32 R.CLK_DIV], true)
    else (acc.1.setDiv (recordWord (fieldsAt R.CLK_DIV) (acc.1.word R.CLK_DIV) (BitVec.ofNat 32 v) false), acc.2)) (d, false)

/-- Transitions on which the dividers change (R456). -/
def divChanges (old new : Nat) : Bool :=
  (old == mBask && (new == mPreview || new == mReview || new == mOffload)) || (old == mBrumate && new == mBask)

/-- The dividers of a transition's records: in effect before its other records, or ignored with CLK_DIV_IGNORED; whether a
refused code was met, which R453 refuses on every transition. -/
def Dev.divStep (d : Dev) (old new : Nat) (rs : List Record) : Dev × Bool :=
  match (divWrites rs).getLast? with
  | none => (d, false)
  | some v =>
    if divChanges old new then d.divApply (divWrites rs)
    else if (divWrites rs).any divRefused then
      (((divWrites rs).filter divRefused).foldl (fun d _ => d.event 0x0209 sevFault [u32 R.CLK_DIV]) d, true)
    else (d.event 0x020A sevNotice [u8 old, u8 new, u32 v], false)

/-! ### The records of a mode (R59, R60, R469) -/

/-- The gated instances that a mode runs are ungated before its records are applied. -/
def Dev.ungateFor (d : Dev) (m : Nat) : Dev :=
  let audio := mPreview ≤ m && m ≤ mReview
  let d := (List.range 8).foldl (fun d i => if d.flag (F.KSL_CTRL_EN i) then d.setGated 0x07 i false else d) d
  let d := (List.range 6).foldl (fun d i => if d.flag (F.RAS_CFG_EN i) then d.setGated 0x0E i false else d) d
  let d := (List.range 16).foldl (fun d i => if d.flag (F.SDI_CFG_EN i) then d.setGated 0x0F i false else d) d
  let d := (List.range 2).foldl (fun d i =>
    if (List.range 4).any (fun k => d.ifExists (4 * i + k)) then d.setGated 0x10 i false else d) d
  let d := (List.range 8).foldl (fun d i => if audio && d.flag (F.AUD_AP_CFG_EN i) then d.setGated 0x12 i false else d) d
  (List.range 4).foldl (fun d i => if i < d.rootPorts then d.setGated 0x14 i false else d) d

/-- Re-reads and applies every record of the image copy whose MODES include `new` (R59). A record that fails its CRC keeps all
of them from applying (R60). Answers whether the device can enter the mode: no CRC failed, no divider code was refused, and no
zero stands in DEV, CLK, PWR, THERM or MEM (R75). -/
def Dev.applyMode (d : Dev) (old new : Nat) : Dev × Bool :=
  let rs := d.copyRecords.filter (fun r => r.inMode new)
  match rs.find? (fun r => r.crc != crc32c r.value) with
  | some r => (d.event 0x0505 sevFault [u16 r.type, u16 r.inst, u32 r.offset], false)
  | none =>
    let (d, bad) := (d.ungateFor new).divStep old new rs
    let div := d.word R.CLK_DIV
    let d := (rs.foldl (fun d r => d.applyRecord false r) d).setWord R.CLK_DIV div
    let zs := d.zeroHoldRegs
    (zs.foldl Dev.cfgZero d, !bad && zs.isEmpty)

/-- Running colour contexts whose shadows the records wrote take them (R59); running rasters take theirs at their next frame;
what starts now takes its own. -/
def Dev.latchWritten (d : Dev) : Dev :=
  let ks := d.mode.autoLatch
  let d := (List.range 16).foldl (fun d n =>
    if ks.contains (100 + n) && (d.ctx n).started then (d.colJudge n).latchAll (colShadows n) else d) d
  { d with mode := { d.mode with autoLatch := ks.filter (fun k => decide (200 ≤ k) && decide (k < 206) && (d.rs (k - 200)).run) } }

/-! ### Leaving a mode (R64) -/

/-- Coding of raw frames and what waits for the recorder end with CAPTURE. -/
def Dev.endRecording (d : Dev) : Dev :=
  let d : Dev := { d with
    rawEntries := d.rawEntries.map (fun (e : RawEntry) => { e with krc := 0 })
    ze := { d.ze with queues := List.replicate 20 [], frames := [], backlog := [] }
    recd := { d.recd with frames := List.replicate 16 [], pre := List.replicate 16 [], opening := [], startHeld := false } }
  d.zeBusy

/-- What the mode ran and its successor does not run stops. -/
def Dev.leaveMode (d : Dev) (old new : Nat) : Dev :=
  let sensing (m : Nat) : Bool := m == mPreview || m == mCapture
  let audio (m : Nat) : Bool := mPreview ≤ m && m ≤ mReview
  let d := if old = mCapture then ((d.closeClips.stopSessions.stopDecoders.netStart false)).endRecording
    else if old = mReview then d.stopSessions.stopDecoders.netStart false
    else if old = mOffload then (if d.recd.job.isSome then d.offAbort else d).stopSessions
    else d
  let d := if old = mReview && d.recd.job.isSome then d.offAbort else d
  let d := if (sensing old && !sensing new) || old = mOffload then d.stopCapture else d
  if audio old && !audio new then d.audStop else d

/-! ### Entering a mode (R62, R64, R75) -/

/-- Rasters that are enabled start or go on; others stop. -/
def Dev.rastersStart (d : Dev) : Dev :=
  (List.range 6).foldl (fun d r =>
    if d.flag (F.RAS_CFG_EN r) && !d.isRefused (R.RAS_CFG r) then (if (d.rs r).run then d else d.rasStart r)
    else d.rasStop r) d

/-- Decoders run in REVIEW and CAPTURE. -/
def Dev.decodersStart (d : Dev) : Dev :=
  if d.modeCode = mReview ∨ d.modeCode = mCapture then
    (List.range 16).foldl (fun d k =>
      if d.flag (F.DEC_CFG_EN k) && !d.isRefused (R.DEC_CFG k) && !(d.decoder k).run then d.decStart k else d) d
  else d

/-- The sessions that the image starts at entry to CAPTURE, in index order (R291, R299). -/
def Dev.autoSessions (d : Dev) : List Nat :=
  d.regs.words.filterMap (fun e =>
    let s := (e.1 - 0x701000) / 0x80
    if 0x701000 ≤ e.1 ∧ e.1 < 0x709000 ∧ e.1 % 0x80 = 0 ∧ d.flag (F.SES_CFG_EN s) = true ∧ d.flag (F.SES_CFG_AUTOSTART s) = true
    then some s else none)

/-- A session that fails a check only because fenced engines have lowered N (R299). -/
def Dev.lostCapacity (d : Dev) (ss : List Nat) (s : Nat) : Bool :=
  (d.admitFails d.veActive.length (s :: ss) (some s)).isSome && (d.admitFails 64 (s :: ss) (some s)).isNone

/-- Starts the image's sessions; one that lost engines no longer carry sends the device to HOLD with cause CAPACITY. -/
def Dev.autostart (d : Dev) : Dev :=
  d.autoSessions.foldl (fun d s =>
    if d.modeCode ≠ mCapture then d
    else if d.lostCapacity d.running s then d.enterHold causeCapacity
    else (d.sesStart s).1) d

/-- Blocks check their settings and start (R75, R64). `old` is the mode left. -/
def Dev.startBlocks (d : Dev) (old : Nat) : Dev :=
  let m := d.modeCode
  let audio (m : Nat) : Bool := mPreview ≤ m && m ≤ mReview
  let d := d.zeroCheck.kslCheck.recCheck.ptpStart
  let d := (d.kslStart (old = mPreview || old = mCapture)).rastersStart
  let d := (List.range 8).foldl (fun d n => d.pgStart n true) d
  let d := if audio m then d.audStart else d
  let d := if d.sensing then d.captureStart else if m = mOffload then d.placeDes.branchCheck else d
  if d.modeCode = mHold then d
  else
    let d := (List.range 8).foldl Dev.trigStart d
    let d := (d.netStart (m = mCapture || m = mReview)).decodersStart
    let d := d.recState.recovTry
    if m = mCapture then d.autostart else d

/-- `DEV_MODE` shows the mode entered, with MODE_ENTER (R76). -/
def Dev.showMode (d : Dev) (old new : Nat) : Dev :=
  let d := ((d.set F.DEV_MODE_MODE new).set F.DEV_MODE_PREV old).set F.DEV_MODE_TARGET 0
  (d.setFlag F.DEV_MODE_IN_TRANSITION false).event 0x0101 sevInfo [u8 old, u8 new]

/-- A mode from BASK to OFFLOAD is entered: outputs leave their safe states, the watchdog and the scheduler start afresh
(R31, R67), and blocks start. -/
def Dev.enterMode (d : Dev) (old new : Nat) : Dev :=
  let was := d.faultAsserted
  let safe := d.mode.outputsSafe
  let d := (d.showMode old new).latchWritten
  let d := (d.set F.DEV_SCHED_STATUS_TICKS 0).set F.DEV_SCHED_STATUS_MIGRATIONS 0
  let d := d.set F.MEM_STATUS_POWER (if new = mBask then 1 else 0)
  let d : Dev := { d with
    boot := { d.boot with step := 9 }
    mode := { d.mode with outputsSafe := false, refused := [], wdogFrom := d.elapsed }
    dmap := d.dmap.map (fun (m : DmapPort) => { m with fullRaised := false }) }
  let d := if safe then d.pin pinAllOutputs 1 else d
  (d.driveFault was).workReturn.startBlocks old

/-! ### BRUMATE (R62, R64, R73) -/

/-- BRUMATE is entered from BASK: the journal is flushed, the stacks enter self-refresh, and `CORE_PWR_EN` falls. -/
def Dev.brumateEnter (d : Dev) (old : Nat) : Dev :=
  let d := (d.journalAll.stopOutputs.linksDown.outputsToSafe).holdEvents
  let d := ((d.selfRefresh.timeToAlwaysOn.keepSettle).setRails false true).coreOff
  let d := d.set F.MEM_STATUS_POWER 2
  d.showMode old mBrumate

/-- The core is back: AUX can be written, the pools are laid out, and the map is reloaded (R64, R186). -/
def Dev.wakeCore (d : Dev) : Dev := (d.layPools.flushHeld.set F.MEM_STATUS_POWER 0).dmapLoad true

/-- A transition ends in HOLD with cause CONFIG. One from BRUMATE, which has no transition to HOLD, ends there by way of BASK. -/
def Dev.failMode (d : Dev) (old new : Nat) : Dev :=
  (if old = mBrumate then d.showMode old new else d).enterHold causeConfig

/-- The direct transition in progress completes (R64). An exit from BRUMATE cannot complete before PLL_MAIN runs and the stacks
have left self-refresh. -/
def Dev.arrive (d : Dev) : Dev :=
  let old := d.modeCode
  let new := d.get F.DEV_MODE_TARGET
  if new = mBrumate then d.brumateEnter old
  else if old = mBrumate ∧ (d.mem.selfRefresh = true ∨ d.mainLocked = false) then d
  else
    let d := (if old = mBrumate then d.wakeCore else d).leaveMode old new
    let (d, ok) := d.applyMode old new
    if ok then d.enterMode old new else d.failMode old new

/-- After a transition: the pending request is executed from the mode reached, in place of the rest of a chain; else the chain
goes on. -/
def Dev.nextMode (d : Dev) : Dev :=
  if d.inTransition ∨ d.modeCode = mHold then d
  else match d.mode.pendingReq with
    | some r =>
      let d : Dev := { d with mode := { d.mode with pendingReq := none, chain := [] } }
      (d.setFlag F.DEV_MODE_REQ_PENDING false).runRequest r
    | none => d.startChain d.mode.chain

end Sys2Proof.Machine
end

