-- ==== Sys2Proof/Machine/BlockReset.lean ====
section
/-!
DEFINITION. Block reset (R69, R71-R73): what one instance loses, and how it stands and starts again afterwards.
-/
namespace Sys2Proof.Machine

/-- How many instances of a block a block reset can address (R71). -/
def resetCount (block : Nat) : Nat :=
  match block with
  | 0x07 => 8
  | 0x0A => 20
  | 0x0B => 20
  | 0x0D => 68
  | 0x0E => 6
  | 0x0F => 16
  | 0x10 => 2
  | 0x12 => 8
  | 0x14 => 4
  | _ => 0

/-- What a block reset keeps of the instance's registers: every class but V, and locked fields, which only a reset through BOOT
changes (R73, R521). -/
def keepBlock (f : FieldSpec) : Bool := f.cls != .V || f.acc == .rwl

/-- The register space with the fields that `keep` chooses, the others at their reset values. -/
def Dev.keepRegs (d : Dev) (keep : Nat → FieldSpec → Bool) : Dev := { d with regs := d.regs.kept keep }

/-- The instance's registers return to their V field values. -/
def Dev.resetRegs (d : Dev) (block inst : Nat) : Dev :=
  d.keepRegs (fun a f => instOf a ≠ some (block, inst) || keepBlock f)

/-- A sensor-link port goes down with what it was doing: open frames of its contexts close as they stand. -/
def Dev.kslDown (d : Dev) (p : Nat) : Dev :=
  let d := (d.ctxOfPort (d.bondHead p)).foldl Dev.closeOpen d
  d.modPort p (fun l => { bcTag := l.bcTag, trigOrd := l.trigOrd })

/-- The PTP clock loses its lock with its Ethernet port, and acquires anew (R73). -/
def Dev.ethDown (d : Dev) (x : Nat) : Dev :=
  let d :=
    if d.ptpOn && d.ptpIf / 4 == x then
      let d := d.modTime (fun t => { t with syncWait := none, reqWait := none, ms := none, delays := [] })
      if d.timeState = tsLocked then d.setTimeState tsAcquiring else d
    else d
  d.modTime (fun t => { t with ann := t.ann.filter (fun y => !(y.1 / 4 == x)) })

/-- A root port's link and its drive's commands go; clips on the drive end (R73). -/
def Dev.rpDown (d : Dev) (k : Nat) : Dev :=
  let on := d.recDrives.contains k && !d.flag (F.REC_RP_STATUS_FAILED k)
  let d := if on then (List.range 16).foldl (fun d n => d.closeClip n 32 false) d else d
  let reads := (d.drive k).outCmds.filter (fun c => c.kind == 11 && c.use_ != 1)
  let d := d.modDrive k (fun _ => {})
  let d := d.set F.REC_STATUS_DRIVES_UP (setBit (d.get F.REC_STATUS_DRIVES_UP) k false)
  reads.foldl (fun d c => d.readAgain k c) d

/-- What an instance was doing ends as its reset begins: its outputs are safe (R73). -/
def Dev.instStop (d : Dev) (block inst : Nat) : Dev :=
  match block with
  | 0x07 => d.kslDown inst
  | 0x0A =>
    -- the detection history and the adaptive thresholds of the contexts that the engine serves are lost
    let sets := (List.range 24).filter (fun i => (elemAt d.deSets i []).contains inst)
    let ctxs := sets.flatMap (fun i => if i < 16 then [i] else d.wheelCtxs (i - 16))
    ctxs.foldl (fun d n =>
      let d := d.modCtx n (fun c => { c with sigma := List.replicate 8 2048, thr := [] })
      { d with dmap := modifyAt d.dmap (d.get (F.CAP_BIND_PORT n)) (fun (m : DmapPort) => { m with cands := [] }) }) d
  | 0x0E => d.rasStop inst
  | 0x0F => d.emit (.video 7 (16 + inst) []) -- electrical idle, as of a raster that stops
  | 0x10 => d.ethDown inst
  | 0x12 => d.modAp inst (fun _ => {})
  | 0x14 => d.rpDown inst
  | _ => d

/-- What follows a register reset in the state beside the registers. -/
def Dev.instSettle (d : Dev) (block inst : Nat) : Dev :=
  match block with
  | 0x0D => d.showVe inst
  | 0x10 => d.txRunning.foldl Dev.showTx d
  | 0x14 => ((List.range 16).foldl Dev.clipSettle d).flushSettle.recovTry
  | _ => d

/-- Starts a block reset of an instance of the table of R71 (R69, R72). -/
def Dev.blockResetStart (d : Dev) (block inst : Nat) : Dev :=
  if d.loanRefused block inst then
    (d.set F.DEV_BLOCK_RESET_GO 0).event 0x0109 sevNotice [u8 block, u8 inst]
  else
    let (d, loan) := (d.instStop block inst).lend block inst
    let d := (d.resetRegs block inst).instSettle block inst
    let d : Dev := { d with blockReset := some { block := block, inst := inst, loan := loan } }
    (d.set F.DEV_BLOCK_RESET_GO 1).set F.DEV_BLOCK_RESET_BUSY 1

/-- A GO in `DEV_BLOCK_RESET`: ignored while one runs; an instance that the table of R71 does not hold is no instance to
reset. -/
def Dev.blockResetGo (d : Dev) : Dev :=
  let block := d.get F.DEV_BLOCK_RESET_BLOCK_ID
  let inst := d.get F.DEV_BLOCK_RESET_INSTANCE
  if d.blockReset.isSome then d
  else if resetCount block ≤ inst then d.set F.DEV_BLOCK_RESET_GO 0
  else d.blockResetStart block inst

/-- An instance that the mode runs starts again (R73). A raster whose settings have become invalid zeros stays stopped. -/
def Dev.instRestart (d : Dev) (block inst : Nat) : Dev :=
  match block with
  | 0x07 => if d.portRuns inst then d.startTraining inst else d
  | 0x0E =>
    if !d.inWork || !d.flag (F.RAS_CFG_EN inst) || d.gated 0x0E inst then d
    else
      let zs := d.zeroRegs.filter (fun a => instOf a = some (0x0E, inst))
      if zs.isEmpty then d.rasStart inst else (zs.foldl Dev.cfgZero d).refuse (R.RAS_CFG inst)
  | 0x0F => d.showSdi (inst / 4) (d.rs (inst / 4)).run
  | 0x12 =>
    if mPreview ≤ d.modeCode && d.modeCode ≤ mReview && d.flag (F.AUD_AP_CFG_EN inst) && !d.isRefused (R.AUD_AP_CFG inst) then
      d.apStart inst
    else d
  | _ => d

/-- The reset is over: BUSY and GO clear, lent work returns. The writes held for the instance are still to be applied. -/
def Dev.blockResetEnd (d : Dev) (b : BlockResetSt) : Dev :=
  let d : Dev := { d with blockReset := none }
  let d := (d.set F.DEV_BLOCK_RESET_GO 0).set F.DEV_BLOCK_RESET_BUSY 0
  if b.loan then d.giveBack b.block b.inst else d

/-- BLOCK_RESET (R69, R71, R72): `DEV_BLOCK_RESET` is written with BLOCK_ID, INSTANCE and GO. -/
def execBlockReset (block inst : Fin 256) (s : State) : Host.Outcome State Fault Refusal :=
  s.hostCmd R.DEV_BLOCK_RESET (block + inst * 256 + 65536) (fun d =>
    if d.blockReset.isSome then d
    else ((d.set F.DEV_BLOCK_RESET_BLOCK_ID block).set F.DEV_BLOCK_RESET_INSTANCE inst).blockResetGo)

end Sys2Proof.Machine
end

