-- ==== Sys2Proof/Machine/HostWrite.lean ====
section
/-!
DEFINITION. Host writes by address (R6, R58, R516-R521, R549): the registers with behaviour of their own and the windows; and
the instants at which held and queued writes are applied (R61, R71).
-/
namespace Sys2Proof.Machine

/-- The instance of a register of `n` instances, the first at `base` and `stride` apart, that lies at `a`. -/
def instanceAt (base stride n a : Nat) : Option Nat :=
  if base ≤ a ∧ (a - base) % stride = 0 ∧ (a - base) / stride < n then some ((a - base) / stride) else none

/-- A written word without the bits of `mask` (self-clearing commands). -/
def without (w : Word) (mask : Nat) : Word := w &&& ~~~(BitVec.ofNat 32 mask)

/-- Registers of one instance: a write, or none where the register has no behaviour of its own. -/
def Dev.writeSingle (d : Dev) (a : Nat) (v : Word) : Option Dev :=
  if a = R.DEV_MODE_REQ then some (d.modeReqWrite (v.field 0 3))
  else if a = R.DEV_RESET_CTRL then some (d.resetCtrl v)
  else if a = R.DEV_BLOCK_RESET then
    some (if d.blockReset.isSome then d
      else
        let d := d.plainWrite a (without v 0x10000)
        if v.field 16 1 = 1 then d.blockResetGo else d)
  else if a = R.DEV_WDOG_KICK then some (d.wdogKick v.toNat)
  else if a = R.DEV_FAULT_INJ then
    some (
      let d := d.plainWrite a (without v 0x10000)
      if v.field 16 1 = 1 then d.faultInject else d)
  else if a = R.CLK_REF_CTRL then
    some (
      let d := d.plainWrite a (without v 1)
      if v.field 0 1 = 1 then d.refSwitch else d)
  else if a = R.CLK_GATE_REQ then
    some (if d.clk.gate.isSome then d
      else
        let d := d.plainWrite a (without v 0x40000)
        if v.field 18 1 = 1 then d.gateGo else d)
  else if a = R.CLK_FM_CFG then
    some (
      let d := d.plainWrite a (without v 0x1000000)
      if v.field 24 1 = 1 then d.fmGo else d)
  else if a = R.THERM_RISE then some ((d.plainWrite a v).riseWrite (v.field 0 8))
  else if a = R.KEEP_DATA then some (d.keepCmd v)
  else if a = R.FUSE_PROG_CTRL then
    some (if v.field 0 8 ≠ 0x5A then d
      else
        let d := d.fuseFields (v.field 8 2) (v.field 10 2)
        if v.field 12 1 = 1 then d.fuseGo else d)
  else if a = R.EVT_IRQ_STATUS then some (d.irqClear (v.field 0 5))
  else if a = R.CAP_EXP_COMMIT then some (((List.range 16).filter (fun i => decide (v.field i 1 = 1))).foldl Dev.expCommit d)
  else if a = R.COL_COMMIT then some (((List.range 16).filter (fun i => decide (v.field i 1 = 1))).foldl Dev.colCommit d)
  else if a = R.RAWC_DMAP_EDIT_CMD then
    some (
      let d := d.plainWrite a (without v 0x10000)
      if v.field 16 1 = 1 then
        d.hostEdit (v.field 0 2) (v.field 2 3) (v.field 8 4) (d.get F.RAWC_DMAP_EDIT_XY_X) (d.get F.RAWC_DMAP_EDIT_XY_Y)
      else d)
  else if a = R.REC_CTRL then
    some (
      let d := if v.field 0 1 = 1 then d.recStart else d
      if v.field 1 1 = 1 then d.recStopCmd else d)
  else if a = R.REC_META_CTRL then some (d.recMeta (v.field 16 16) (v.field 0 12))
  else if a = R.VE_SES_CMD then
    some (
      let d := d.plainWrite a (without v 0x10000)
      if v.field 16 1 = 1 then d.sesCommand (v.field 8 2) (v.field 0 8) else d)
  else if a = R.TIME_CTRL then
    some (
      let d := if v.field 0 1 = 1 then d.timeSet else d
      if v.field 1 1 = 1 then d.timeStepNow else d)
  else if a = R.MEM_INJ_CTRL then
    some (
      let d := d.plainWrite a (without v 0x100)
      if v.field 8 1 = 1 then d.memInject else d)
  else none

/-- A write of the configuration of RAWC context `n`: a flat-field grid that breaks R187 refuses FF_EN alone. -/
def Dev.rawcCfgWrite (d : Dev) (n : Nat) (v : Word) : Dev :=
  let was := d.flag (F.RAWC_CFG_FF_EN n)
  let d := d.plainWrite (R.RAWC_CFG n) v
  if !was && d.flag (F.RAWC_CFG_FF_EN n) && d.ffBad n then
    (d.setFlag (F.RAWC_CFG_FF_EN n) false).eventCtx 0x0907 sevFault n n [u32 (R.RAWC_FF n)]
  else d

/-- Network flows run in the present mode. -/
def Dev.netRuns (d : Dev) : Bool := d.modeCode = mCapture || d.modeCode = mReview

/-- A write of the configuration of a transmit flow (R75, R401, R402): its live EN starts and stops it. -/
def Dev.txCfgWrite (d : Dev) (n : Nat) (v : Word) : Dev :=
  let was := d.flag (F.TXF_CFG_EN n)
  let d := d.plainWrite (R.TXF_CFG n) v
  let on := d.flag (F.TXF_CFG_EN n)
  if on = was then d
  else if !on then (if (d.txf n).run then d.txOff n else d)
  else match d.txZero n with
    | some a => (d.setFlag (F.TXF_CFG_EN n) false).cfgZero a
    | none => if d.netRuns then d.txOn n else d

/-- A write of the configuration of a receive flow. -/
def Dev.rxCfgWrite (d : Dev) (n : Nat) (v : Word) : Dev :=
  let was := d.flag (F.RXF_CFG_EN n)
  let d := d.plainWrite (R.RXF_CFG n) v
  let on := d.flag (F.RXF_CFG_EN n)
  if on = was then d
  else if !on then (if (d.rxf n).run then d.rxOff n else d)
  else if d.netRuns then d.rxOn n
  else d

/-- Registers of many instances: a write, or none where the register has no behaviour of its own. -/
def Dev.writeInstance (d : Dev) (a : Nat) (v : Word) : Option Dev :=
  match instanceAt (R.FUSE_PROG_HASH 0) 4 8 a with
  | some _ => some (if d.keep.fuseOp.isSome then d else d.plainWrite a v)
  | none => match instanceAt (R.KSL_CTRL 0) 0x1000 8 a with
  | some p => some (if v.field 16 1 = 1 then ((d.plainWrite a (without v 0x10000)).setFlag (F.KSL_CTRL_RETRAIN p) true).startTraining p
      else d.plainWrite a (without v 0x10000))
  | none => match instanceAt (R.KSL_BC_CTRL 0) 0x1000 8 a with
  | some p => some (if v.field 0 1 = 1 then d.bcGo p (v.field 1 1 = 1) else d.plainWrite a v)
  | none => match instanceAt (R.RAWC_CFG 0) 0x100 16 a with
  | some n => some (d.rawcCfgWrite n v)
  | none => match instanceAt (R.ZE_RING_CTRL 0) 0x40 8 a with
  | some r => some (if v.field 0 1 = 1 then d.ringAbort r else d)
  | none => match instanceAt (R.RAS_COMMIT 0) 0x1000 6 a with
  | some r => some (if v.field 0 1 = 1 then d.rasGo r else d)
  | none => match instanceAt (R.TRIG_CTRL 0) 0x40 8 a with
  | some p => some (if v.field 1 1 = 1 then (d.plainWrite a (without v 2)).trigCommit p else d.plainWrite a (without v 2))
  | none => match instanceAt (R.TXF_CFG 0) 0x40 1024 a with
  | some n => some (d.txCfgWrite n v)
  | none => match instanceAt (R.RXF_CFG 0) 0x40 256 a with
  | some n => some (d.rxCfgWrite n v)
  | none => none

/-- The windows that only records of BOOT fill (R175, R524). -/
def inWindow (a : Nat) : Bool := 0x1000000 ≤ a && a < 0x1800000 || 0x2000000 ≤ a && a < 0x3000000

/-- What a write of `v` at `a` does once it reaches the register space (R58, R517, R549). -/
def Dev.writeEffect (d : Dev) (a : Nat) (v : Word) : Dev :=
  if inWindow a then d.cfgNonlive a
  else match d.writeSingle a v with
    | some d => d
    | none => match d.writeInstance a v with
      | some d => d
      | none => d.plainWrite a v

/-- A host write of a word (R56, R58, R61, R519): a PCIe write with partial byte enables (`full` false) is ignored with
DEV_ACCESS_BAD. -/
def Dev.hostWrite (d : Dev) (port a : Nat) (v : Word) (full : Bool) : Dev :=
  if !full && port = 0 then (if d.modeCode = mBrumate then d else d.event 0x010A sevNotice [u32 a])
  else d.gateWrite port a v (fun d => d.writeEffect a v)

/-- REGISTER_WRITE (R6, R58, R519, R521, R549). -/
def execRegisterWrite (port : HostPort) (addr : Nat) (value : Word) (full : Bool) (s : State) :
    Host.Outcome State Fault Refusal := s.run (fun d => d.hostWrite (portCode port) addr value full)

/-- MSPI_WRITE (R520): one or more words to consecutive addresses. -/
def execMspiWrite (addr : Nat) (words : List Word) (s : State) : Host.Outcome State Fault Refusal :=
  s.run (fun d => (words.zipIdx.foldl (fun d w => d.hostWrite 1 (addr + 4 * w.2) w.1 true) d))

/-- Writes that were held, in their order. -/
def Dev.replay (d : Dev) (ws : List HeldWrite) : Dev := ws.foldl (fun d w => d.hostWrite w.port w.addr w.value true) d

/-- BLOCK_RESET_DONE (R71, R72, chapter 19): BUSY clears, the held writes are applied to the instance's reset values, and the
instance starts again. -/
def execBlockResetDone (s : State) : Host.Outcome State Fault Refusal :=
  s.run (fun d =>
    match d.blockReset with
    | none => d
    | some b => ((d.blockResetEnd b).replay b.held).instRestart b.block b.inst)

/-- After a transition the queued writes are applied (R61), and a pending request or the rest of a chain follows (R63, R64). -/
def Dev.settleMode (d : Dev) : Dev :=
  if d.inTransition || d.modeCode = mHold then d
  else
    let ws := d.mode.queued
    let d : Dev := { d with mode := { d.mode with queued := [] } }
    (d.replay ws).nextMode

/-- MODE_ENTER (R59-R64): the transition in progress completes. -/
def execModeEnter (s : State) : Host.Outcome State Fault Refusal :=
  s.run (fun d => if d.inTransition then d.arrive.settleMode else d)

end Sys2Proof.Machine
end

