-- ==== Sys2Proof/Machine/Boot.lean ====
section
/-!
DEFINITION. The boot timeline (R42, R47, R52-R57, R69, R70, R443, R461, R473), and the way out of HOLD (R64, R65, R68, R466).
-/
namespace Sys2Proof.Machine

/-- Changes the boot controller. -/
def Dev.modBoot (d : Dev) (f : BootSt → BootSt) : Dev := { d with boot := f d.boot }

/-- RO_READY (R460, R42, R473): FALLBACK_RO has counted 4,096 of its cycles inside its window. The flash is reset and the
enables of VDD_CORE and VDD_HBM rise. -/
def execRoReady (s : State) : Host.Outcome State Fault Refusal :=
  s.run (fun d =>
    if d.modeCode ≠ mBoot ∨ d.boot.step ≠ 1 then d
    else
      let d := ((d.set F.CLK_REF_STATUS_RO_READY 1).pin pinXspiRstN 0).pin pinXspiRstN 1
      (d.modBoot (fun b => { b with step := 2 })).setRails true true)

/-! ### Headers and slots (R52-R54) -/

/-- The result field of a slot. -/
def slotResultFld (slot : Nat) : Fld := if slot = 0 then F.DEV_BOOT_STATUS_A_RESULT else F.DEV_BOOT_STATUS_B_RESULT

/-- The header read of a slot. -/
def Dev.slotHdr (d : Dev) (slot : Nat) : List Byte := if slot = 0 then d.boot.hdrA else d.boot.hdrB

/-- No slot passes: BOOT stops (R54). -/
def Dev.bootStop (d : Dev) : Dev :=
  (d.setFlag F.DEV_BOOT_STATUS_BOOT_FAIL true).withFault (fun d => d.modBoot (fun b => { b with stopped := true }))

/-- A command sequence of the header: byte 0 is its length. -/
def enterSeq (h : List Byte) (o : Nat) : List Byte := sliceBytes h (o + 1) (leAt h o 1)

/-- Step 4 begins once step 3 has its headers, PLL_MAIN and an armed VDD_CORE (R55, R473, R474): the flash changes to
FAST_MODE. -/
def Dev.bootAdvance (d : Dev) : Dev :=
  if d.modeCode = mBoot ∧ d.boot.step = 3 ∧ d.boot.stopped = false ∧ d.boot.pwrWait = false ∧ d.mainLocked = true ∧
      d.flag F.PWR_RAIL_STATUS_CORE_ARMED = true then
    let h := d.slotHdr d.boot.slot
    let seqs := [enterSeq h 0x060, enterSeq h 0x070].filter (fun l => !l.isEmpty)
    let d := seqs.foldl (fun d l => d.emit (.flash l)) d
    d.withFault (fun d => d.modBoot (fun b => { b with step := 4, refWait := false }))
  else d

/-- The slots to try, in order (R41, R53): `ra` and `rb` are the results of the headers, none where slot B is absent. -/
def slotOrder (a b : List Byte) (ra : Nat) (rb : Option Nat) : List Nat :=
  match ra, rb with
  | 1, some 1 => if signed 32 (toBits 32 ((hdrSeq a : Int) - hdrSeq b)) < 0 then [1, 0] else [0, 1]
  | 1, _ => [0]
  | _, some 1 => [1]
  | _, _ => []

/-- An invalid header is reported (R52). -/
def Dev.hdrBad (d : Dev) (slot result : Nat) : Dev :=
  if result = 1 then d else (d.set (slotResultFld slot) result).event 0x0501 sevNotice [u8 slot, u8 result]

/-- HEADERS_READ (R52, R53): the 256 bytes read from each slot. -/
def execHeadersRead (a b : List Byte) (s : State) : Host.Outcome State Fault Refusal :=
  s.run (fun d =>
    if d.modeCode ≠ mBoot ∨ d.boot.step ≠ 2 then d
    else
      let a := sliceBytes a 0 256
      let b := sliceBytes b 0 256
      let step := d.get F.FUSE_ID_STEP
      let ra := hdrResult a step
      let rb := if a = b then none else some (hdrResult b step)
      let d := (d.hdrBad 0 ra).hdrBad 1 (rb.getD 1)
      match slotOrder a b ra rb with
      | [] => (d.modBoot (fun x => { x with step := 3, hdrA := a, hdrB := b })).bootStop
      | f :: rest =>
        (d.modBoot (fun x => { x with step := 3, hdrA := a, hdrB := b, slot := f, first := f, toTry := rest })).bootAdvance)

/-- PLL_MAIN_LOCKED (R55, R463, R466): PLL_MAIN locks to a reference that is valid: at boot, on the way out of the loss of both
references, or on the way out of BRUMATE. -/
def execPllMainLocked (s : State) : Host.Outcome State Fault Refusal :=
  s.run (fun d =>
    let can :=
      if d.modeCode = mBoot then decide (2 ≤ d.boot.step)
      else if d.modeCode = mHold then d.bothLost && d.clk.past
      else if d.modeCode = mBrumate then d.inTransition
      else false
    if !can || d.mainLocked || !(d.refOk 0 || d.refOk 1) then d
    else
      let p := d.get F.CLK_REF_CFG_PREF
      let r := if d.refOk p then p else 1 - p
      let d := (((d.setLock 0 true).set F.CLK_REF_STATUS_ACTIVE r).set (refPpm r) 0).set F.CLK_REF_STATUS_BOTH_LOST 0
      -- the other reference has not been measured from this one yet
      let d := d.set (refPpm (1 - r)) ppmNone
      ((d.set F.CLK_REF_STATUS_HOLDOVER 0).set F.CLK_REF_STATUS_SLEWING 0).bootAdvance)

/-- CORE_RAIL_ARMED (R473). -/
def execCoreRailArmed (s : State) : Host.Outcome State Fault Refusal := s.run (fun d => d.coreArmed.bootAdvance)

/-- A slot passes (R47, R53, R54): its image is kept for step 8. -/
def Dev.slotPass (d : Dev) (image : List Byte) : Dev :=
  let slot := d.boot.slot
  let d := (d.set (slotResultFld slot) 1).set F.DEV_BOOT_STATUS_SLOT slot
  let d := if slot = d.boot.first then d
    else (d.setFlag F.DEV_BOOT_STATUS_FALLBACK true).event 0x0503 sevDegraded [u8 slot, u8 (d.get (slotResultFld d.boot.first))]
  let d := if d.keysBlank then (d.setFlag F.DEV_BOOT_STATUS_UNSECURED true).event 0x0504 sevNotice [u8 slot] else d
  let d := d.set F.DEV_BOOT_STATUS_KEY_USED (hdrKeySlot image)
  let d : Dev := { d with mode := { d.mode with autoResume := hdrFlags image % 2 = 1, startMode := hdrStartMode image } }
  d.modBoot (fun b => { b with step := 6, image := image })

/-- SLOT_READ_DONE (R53, R54): the slot being tried has been read in full. -/
def execSlotReadDone (image : List Byte) (s : State) : Host.Outcome State Fault Refusal :=
  s.run (fun d =>
    if d.modeCode ≠ mBoot ∨ d.boot.step ≠ 4 ∨ d.boot.stopped = true then d
    else
      -- the header read at step 2 says how much of the slot is read
      let image := sliceBytes image 0 (hdrImgLen (d.slotHdr d.boot.slot))
      let r := d.slotResult image
      if r = 1 then d.slotPass image
      else
        let slot := d.boot.slot
        let d := (d.set (slotResultFld slot) r).event 0x0502 sevDegraded [u8 slot, u8 r]
        match d.boot.toTry with
        | next :: rest => d.modBoot (fun b => { b with slot := next, toTry := rest })
        | [] => d.bootStop)

/-! ### Memory training (R443, R445) -/

/-- The HBM leaves self-refresh. -/
def Dev.memAwake (d : Dev) : Dev := { d with mem := { d.mem with selfRefresh := false } }

/-- The parts that failed training are fenced, the others are trained and out of self-refresh. -/
def Dev.trained (d : Dev) (pcs : List (Nat × Nat)) (bad : List Nat) : Dev :=
  let d := (d.memAwake.set F.MEM_STATUS_POWER 0).set F.MEM_STATUS_TRAINED 15
  let d := bad.foldl (fun d h => (d.set F.MEM_STATUS_TRAINED (setBit (d.get F.MEM_STATUS_TRAINED) h false)).stackFail h 4) d
  pcs.foldl (fun d p => d.pcFail p.1 p.2 4) d

/-- HBM_TRAINING_DONE (R55, R443, R445, R466): the controllers have trained the stacks at step 6, or re-verified them on the way
out of HOLD with cause CLOCK or of BRUMATE; `pcs` (stack, pseudo-channel) and `stacks` failed. -/
def execHbmTrainingDone (pcs : List (Fin 4 × Fin 32)) (bad : List (Fin 4)) (s : State) : Host.Outcome State Fault Refusal :=
  s.run (fun d =>
    let pcs := pcs.map (fun p => (p.1.val, p.2.val))
    let bad := bad.map Fin.val
    if d.modeCode = mBoot then
      if d.boot.step ≠ 6 ∨ d.flag F.PWR_RAIL_STATUS_HBM_ARMED = false then d
      else (d.trained pcs bad).modBoot (fun b => { b with step := 7 })
    else if d.modeCode = mHold ∧ d.clk.past = true ∧ d.mainLocked = true ∧ d.mem.selfRefresh = true then
      ((d.trained pcs bad).modClk (fun c => { c with past := false })).flushHeld
    else if d.modeCode = mBrumate ∧ d.inTransition = true ∧ d.mainLocked = true ∧ d.mem.selfRefresh = true then
      d.trained pcs bad
    else d)

/-! ### Step 8 (R54, R55, R59, R64, R70, R75) -/

/-- The number of a rail in `PWR_RAILn_MV` by its RAIL code (R486). -/
def railNo : Nat → Nat
  | 0 => 0
  | 1 => 2
  | 2 => 6
  | _ => 7

/-- The events that the boot owes to what ended before it: a fuse operation, a thermal restart or lock-out, a brown-out. -/
def Dev.bootReports (d : Dev) : Dev :=
  let d := d.keep.fuseEvents.foldl (fun d e => d.fuseEvent e.1 e.2.1 e.2.2) d
  let d : Dev := { d with keep := { d.keep with fuseEvents := [] } }
  let d := if d.flag F.DEV_RESET_CAUSE_THERMAL then
      let src := d.get F.THERM_TRIP_STATUS_SRC
      d.eventAt 0x0405 sevHalt src [u8 (d.get F.THERM_TRIP_STATUS_CAUSE), u8 src, u8 (d.get F.THERM_TRIP_STATUS_RESTARTS)]
    else d
  let d := match d.therm.report with
    | some src =>
      let d := d.eventAt 0x0406 sevHalt src ((List.range 3).map (fun i => u32 (nth d.therm.restarts i)))
      { d with therm := { d.therm with report := none, restarts := [] } }
    | none => d
  match d.pwr.brown with
  | some r => { d.eventAt 0x0307 sevNotice (railNo r) [u8 r] with pwr := { d.pwr with brown := none } }
  | none => d

/-- The dividers that the base records and then the records of the start mode write take effect first (R453, R455); whether a
code was refused. -/
def Dev.bootDiv (d : Dev) (rs : List Record) : Dev × Bool :=
  let past := rs.filter (fun r => !r.isBase && r.inMode d.mode.startMode)
  d.divApply (divWrites (rs.filter Record.isBase) ++ divWrites past)

/-- Applies records, leaving the dividers. -/
def Dev.bootRecords (d : Dev) (rs : List Record) : Dev :=
  let div := d.word R.CLK_DIV
  (rs.foldl (fun d r => d.applyRecord true r) d).setWord R.CLK_DIV div

/-- A record of the register-list form. -/
def Record.isRegs (r : Record) : Bool := r.type % 256 == 0

/-- The RAW ring begins at its first place. -/
def Dev.rawFirst (d : Dev) : Dev := { d with rawNext := 0 }

/-- The pools' contents are gone. -/
def Dev.poolsForget (d : Dev) : Dev := { d with mem := { d.mem with cells := [], err := [], poison := [], bufs := [] } }

/-- Memory at step 8: the pools as the base records declare them, kept after a warm reset only where no declaration changed
(R70). -/
def Dev.bootPools (d : Dev) : Dev :=
  let d := d.layPools.rawFirst
  let now := (List.range 6).map (fun n => (d.word (R.MEM_POOL_CFG n)).toNat)
  if d.boot.contentsKept && now != d.boot.prevPools then d.poolsForget.event 0x0108 sevNotice [] else d

/-- A pool declaration is refused (R427). -/
def Dev.poolsBad (d : Dev) : Bool := d.memCfgBad.any (fun a => a != R.MEM_CLASS_LIMIT && a != R.MEM_SCRUB_CFG)

/-- The image copy in AUX (R54), and the data that base records put into pools and windows (R50). -/
def Dev.bootCopy (d : Dev) (rs : List Record) : Dev :=
  let d := (d.modBoot (fun b => { b with copyLen := d.boot.image.length })).poolWrite poolAux 0 d.boot.image
  (rs.filter (fun r => r.isBase && !r.isRegs)).foldl (fun d r => d.applyRecord true r) d

/-- The HOLD causes that step 8 finds in the base records: CFG_FLOOR (R29), MEM_CFG_BAD (R427), CFG_ZERO (R75). -/
def Dev.bootChecks (d : Dev) : Dev × Bool :=
  let bad := d.memCfgBad
  let d := bad.foldl (fun d a => d.event 0x1309 sevFault [u32 a]) d
  let floors := d.get F.DEV_QOS_FLOOR_LIVE_FLOOR + d.get F.DEV_QOS_FLOOR_RECORD_FLOOR + d.get F.DEV_QOS_FLOOR_LADDER_FLOOR +
    d.get F.DEV_QOS_FLOOR_BACKGROUND_FLOOR
  let d := if 64 < floors then d.event 0x0140 sevFault [u32 (d.word R.DEV_QOS_FLOOR).toNat] else d
  let zs := d.zeroHoldRegs
  let d := zs.foldl Dev.cfgZero d
  (d, !bad.isEmpty || decide (64 < floors) || !zs.isEmpty)

/-- Milliseconds since the release of reset, saturating (BOOT_MS). -/
def Dev.bootMs (d : Dev) : Nat := min ((d.elapsed - d.boot.releasedAt) / 1000000) 65535

/-- A part short of engines boots into its start mode only where admission still accepts the sessions that the image starts there
(R57). -/
def Dev.bootShort (d : Dev) : Bool :=
  d.boot.short && d.mode.startMode = mCapture &&
    (let ss := d.autoSessions
     (d.admitFails d.veActive.length ss none).isSome && (d.admitFails 64 ss none).isNone)

/-- The records of the start mode, and its entry. -/
def Dev.bootStart (d : Dev) (rs : List Record) : Dev :=
  let m := d.mode.startMode
  let past := rs.filter (fun r => !r.isBase && r.inMode m && (r.isRegs || r.type / 256 == 0x13))
  let d := (d.ungateFor m).bootRecords past
  let zs := d.zeroHoldRegs
  let d := zs.foldl Dev.cfgZero d
  if zs.isEmpty then (d.enterMode mBoot m).settleMode else d.enterHold causeConfig

/-- The mode that BOOT enters: HOLD with its cause, or the mode that the configuration names. -/
def Dev.bootEnter (d : Dev) (rs : List Record) (bad : Bool) : Dev :=
  if d.modeCode = mHold then d
  else if bad then d.enterHold causeConfig
  else if d.bootShort then d.enterHold causeCapacity
  else match (List.range 4).find? (fun c => bitOf d.holdCauses c) with
    | some c => d.enterHold c
    | none => d.bootStart rs

/-- Applies the image: reports, dividers, base registers, pools with their copies; whether anything of it is refused. -/
def Dev.bootApply (d : Dev) (rs : List Record) : Dev × Bool :=
  let r := d.bootReports.bootDiv rs
  let d := (r.1.bootRecords (rs.filter (fun r => r.isBase && r.isRegs))).showCaps
  -- with pools that R427 refuses there is no AUX to write
  let d := if d.poolsBad then d else ((d.bootPools).bootCopy rs).flushHeld
  let c := d.bootChecks
  (c.1, r.2 || c.2)

/-- The pools that lie in failed stacks are lost. -/
def Dev.bootLosses (d : Dev) : Dev :=
  (List.range 4).foldl (fun d h =>
    if d.flag (F.MEM_STACK_STATUS_FAILED h) || d.get (F.MEM_STACK_FAIL_PC h) != 0 then d.poolsLost h else d) d

/-- The image is no longer held, and the journal's clock starts. -/
def Dev.bootForget (d : Dev) : Dev :=
  let d := d.modBoot (fun b => { b with image := [], hdrA := [], hdrB := [] })
  { d with journal := { d.journal with lastBatch := d.elapsed } }

/-- What BOOT shows once it is done. -/
def Dev.bootShow (d : Dev) (rs : List Record) : Dev :=
  let d := (d.set F.COL_LUT3D_VALID_VALID (lutValidMask (rs.filter Record.isBase))).set F.DEV_IMG_SEQ_SEQ (hdrSeq d.boot.image)
  (List.range 68).foldl Dev.showVe (d.set F.DEV_BOOT_STATUS_BOOT_MS d.bootMs)

/-- Step 8 of boot. -/
def Dev.bootLast (d : Dev) : Dev :=
  let rs := imageRecords d.boot.image
  let r := (d.modBoot (fun b => { b with step := 8 })).bootApply rs
  let d := r.1.bootLosses.checkRedundancy
  let d := if d.boot.reloadMap then d.dmapLoad false else d.dmapRuns
  -- a cause that arose before step 8, and is recorded, takes its transition now
  (d.bootShow rs).bootForget.bootEnter rs r.2

/-- SELF_TEST_DONE (R55, R57): self-test ends, having failed these engines; step 8 follows. -/
def execSelfTestDone (des zes : List (Fin 20)) (ves : List (Fin 68)) (s : State) : Host.Outcome State Fault Refusal :=
  s.run (fun d =>
    if d.modeCode ≠ mBoot ∨ d.boot.step ≠ 7 then d
    else
      let d := des.foldl (fun d e => d.deFault e) (d.keepCount 0)
      let d := zes.foldl (fun d e => d.zeFault e) d
      (ves.foldl (fun d e => d.veFault e) d).bootLast)

/-! ### Leaving HOLD (R64, R65, R68, R466) -/

/-- The cause CLOCK clears once a reference is valid, PLL_MAIN runs from it and the stacks have left self-refresh. -/
def Dev.clockClears (d : Dev) : Bool :=
  d.mainLocked && !d.bothLost && (d.refOk 0 || d.refOk 1) && !d.mem.selfRefresh && !d.clk.past

/-- HOLD_EXIT (R64, R65, R68): HOLD is left for BASK once every cause has cleared; with AUTO_RESUME the device goes on to the
CAPTURE that it held. -/
def execHoldExit (s : State) : Host.Outcome State Fault Refusal :=
  s.run (fun d =>
    if d.modeCode ≠ mHold then d
    else
      let d := if d.clockClears then d.setCause causeClock false else d
      if d.holdCauses ≠ 0 then d
      else
        let resume := d.mode.autoResume && d.mode.holdMode = mCapture
        let (d, ok) := d.applyMode mHold mBask
        if !ok then d.enterHold causeConfig
        else
          let d := (d.event 0x0105 sevNotice [u8 mBask]).enterMode mHold mBask
          let d : Dev := if resume then { d with mode := { d.mode with chain := [mPreview, mCapture] } } else d
          d.settleMode)

end Sys2Proof.Machine
end

