-- ==== Sys2Proof/Machine/Scheduler.lean ====
section
/-!
DEFINITION. The scheduler tick (R31-R36), overload and the shed order (R332-R337), and thermal throttling through it (R492,
R493).
-/
namespace Sys2Proof.Machine

/-- The tick's period in ns (R31). -/
def tickNs : Nat := 250000000

/-- Changes the shed order's state. -/
def Dev.modShed (d : Dev) (f : ShedSt → ShedSt) : Dev := { d with shed := f d.shed }

/-- Whether a limit of once a minute allows an event whose last one was at `at_` (elapsed ns plus 1, 0 for none). -/
def Dev.minuteOver (d : Dev) (at_ : Nat) : Bool := at_ = 0 || decide (at_ - 1 + 60 * nsPerS ≤ d.elapsed)

/-! ### BUSY and LAG (R332) -/

/-- Ns for which a row in progress has run so far. -/
def Dev.ranSoFar (d : Dev) (v : VeSt) : Nat :=
  let live := match v.live with
    | some j => d.elapsed - j.start - j.paused
    | none => 0
  let other := match v.other with
    | some j => (if v.paused then j.pausedAt else d.elapsed) - j.start - j.paused
    | none => 0
  live + other

/-- Ns of engine time in which rows have run in all. -/
def Dev.busyTotal (d : Dev) : Nat := d.code.busyNs + sumNat (d.code.ve.map d.ranSoFar)

/-- BUSY in permille of the tick's CORE cycles of the active VEs. -/
def Dev.busyPermille (d : Dev) : Nat :=
  min 1000 ((d.busyTotal - d.shed.lastBusy) * 1000 / (tickNs * max 1 d.veActive.length))

/-- Since when the source of picture `n` of a session has been ready, in elapsed ns; none while it is not. -/
def Dev.readyAt (d : Dev) (s n : Nat) : Option Nat :=
  let q := d.sesSeq s
  if d.get (F.SES_CFG_SRC_KIND s) = 2 then
    ((elemAt d.decs (d.get (F.SES_CFG_CTX s)) {}).outs.find? (fun o => o.2.1 == (d.ses s).slot0 + n)).map (·.2.2.1)
  else
    let (ctx, _) := d.sesFeed s
    let (t0, slot0) := match d.sesGroup s with
      | some g => ((d.grp g).t0, (d.grp g).slot0)
      | none => ((d.ses s).t0, (d.ses s).slot0)
    match (match t0 with | some t => some t | none => d.slotT0 ctx slot0) with
    | none => none
    | some t0 =>
      let bound := t0 + picNs q n + picNs q 1 / 2
      match d.slotOf ctx q t0 slot0 n with
      | none => none
      | some i =>
        match (d.ctx ctx).hist.find? (fun h => h.idx == i) with
        | none => none
        | some h =>
          if !h.missing && h.bufs.isNone then none
          else some (if bound ≤ d.nowNs then max h.since (d.elapsed - (d.nowNs - bound)) else h.since)

/-- The oldest picture of a session that has not started. -/
def Dev.oldestUnstarted (d : Dev) (s : Nat) : Nat :=
  let x := (Dev.nextPic 64 d s).1.ses s
  (x.order.map (fun (o : Nat × Nat × Nat) => o.1)).foldl min x.nextN

/-- Whether a session lags: its oldest unstarted picture has had its source ready for more than two picture periods. -/
def Dev.lags (d : Dev) (s : Nat) : Bool :=
  match d.readyAt s (d.oldestUnstarted s) with
  | some t => decide (t + 2 * picNs (d.sesSeq s) 1 < d.elapsed)
  | none => false

/-- LAG: sessions of class RECORD, LADDER or BACKGROUND that lag. -/
def Dev.lag (d : Dev) : Nat :=
  (d.running.filter (fun s => d.sesClass s != classLive && d.get (F.SES_STATUS_STATE s) != 3 && d.lags s)).length

/-! ### Halving units and the actions of a level (R333, R335) -/

/-- A halving unit: the PRIO of its group, the PRIO of its members, its group or session index, its sessions. -/
structure HalfUnit where
  grpPrio : Nat
  prio : Nat
  idx : Nat
  ses : List Nat
  deriving DecidableEq, Repr

/-- Whether unit `a` comes before unit `b`. -/
def HalfUnit.before (a b : HalfUnit) : Bool :=
  decide (a.grpPrio < b.grpPrio) || (a.grpPrio == b.grpPrio &&
    (decide (a.prio < b.prio) || (a.prio == b.prio && decide (b.idx < a.idx))))

/-- Puts a unit into its place. -/
def insertUnit (u : HalfUnit) : List HalfUnit → List HalfUnit
  | [] => [u]
  | v :: rest => if u.before v then u :: v :: rest else v :: insertUnit u rest

/-- The halving units of the running LADDER sessions, unit 0 first (R333). -/
def Dev.halfUnits (d : Dev) : List HalfUnit :=
  let ss := d.running.filter (fun s => d.sesClass s = classLadder)
  let alone := (ss.filter (fun s => (d.sesGroup s).isNone)).map (fun s =>
    { grpPrio := d.get (F.SES_CFG_PRIO s), prio := d.get (F.SES_CFG_PRIO s), idx := s, ses := [s] : HalfUnit })
  let grouped := (List.range 8).flatMap (fun g =>
    let ms := ss.filter (fun s => d.sesGroup s = some g)
    (ms.map (fun s => d.get (F.SES_CFG_PRIO s))).eraseDups.map (fun p =>
      { grpPrio := d.get (F.LG_CFG_PRIO g), prio := p, idx := g
        ses := ms.filter (fun s => d.get (F.SES_CFG_PRIO s) = p) : HalfUnit }))
  (alone ++ grouped).foldl (fun l u => insertUnit u l) []

/-- The highest level at this tick (R333). -/
def Dev.topLevel (d : Dev) : Nat := 6 + d.halfUnits.length

/-- The effort cap of a class at a level (R333): 7 for none. -/
def effortCap (cls level : Nat) : Nat :=
  let (a, b) := if cls = classBackground then (1, 2) else (3, 4)
  if cls ≠ classBackground ∧ cls ≠ classLadder then 7
  else if b ≤ level then 0
  else if a ≤ level then 2
  else 7

/-- Which pictures of a class are dropped at a level (R333): 0 none, 1 every second, 2 all but key frames and cycle starts. -/
def shedDrop (cls level : Nat) : Nat :=
  if cls ≠ classBackground then 0 else if 6 ≤ level then 2 else if 5 ≤ level then 1 else 0

/-- The actions of the level in effect on every running session (R333, R335). -/
def Dev.shedApply (d : Dev) (level : Nat) : Dev :=
  let halves := (d.halfUnits.take (level - 6)).flatMap (·.ses)
  d.running.foldl (fun d s =>
    let d := (d.set (F.SES_SHED_EFFORT_CAP s) (effortCap (d.sesClass s) level)).set (F.SES_SHED_DROP s)
      (shedDrop (d.sesClass s) level)
    d.modSes s (fun x => { x with wantHalf := halves.contains s })) d

/-- OVERLOAD_SHED (R334): a level changes; cause 1 load, 2 thermal floor, 3 release. -/
def Dev.shedEvent (d : Dev) (old new cause : Nat) : Dev :=
  (d.bump F.DEV_SHED_STATUS_CHANGES).event 0x0142 sevNotice [u16 old, u16 new, u8 cause]

/-- HOLD_TICKS: values below 4 act as 4. -/
def Dev.holdTicks (d : Dev) : Nat := max 4 (d.get F.DEV_SHED_CFG_HOLD_TICKS)

/-! ### The thermal floor (R492, R493) -/

/-- The floor's rule at a tick whose highest level is `top`. -/
def Dev.floorTick (d : Dev) (top : Nat) : Dev :=
  let thr := d.flag F.THERM_STATUS_THROTTLE
  let hot := d.hottestNow
  let old := d.get F.DEV_SHED_STATUS_THERM_FLOOR
  let cool := if thr || d.flag F.THERM_STATUS_EARLY then 0 else d.shed.cool + 1
  let want :=
    if cool = 0 then (if hot + 4 ≤ d.shed.hottest then old else old + 1)
    else if cool % d.holdTicks = 0 then old - 1 else old
  let new := min want top
  let d := d.modShed (fun x => { x with cool := cool, hottest := hot })
  let d := if new = old then d else (d.set F.DEV_SHED_STATUS_THERM_FLOOR new).shedEvent old new 2
  let since := if new = top then some (d.shed.topSince.getD d.elapsed) else none
  let d := d.modShed (fun x => { x with topSince := since })
  match since with
  | none => d
  | some t =>
    if thr = true ∧ t + 10 * nsPerS ≤ d.elapsed ∧ d.minuteOver d.shed.thermLimitAt = true then
      (d.modShed (fun x => { x with thermLimitAt := d.elapsed + 1 })).eventAt 0x0404 sevDegraded
        (d.get F.THERM_STATUS_HOTTEST_SRC) [i16 hot, u16 new]
    else d

/-! ### The load level (R334, R337) -/

/-- Whether a halving that was decided still waits for its key frame. -/
def Dev.halvingWaits (d : Dev) : Bool := d.running.any (fun s => (d.ses s).wantHalf && !(d.ses s).halved)

/-- The load level's rule at a tick. -/
def Dev.loadTick (d : Dev) (top busy lag : Nat) : Dev :=
  let x := d.shed
  let old := x.load
  let held := x.held + 1
  let low := if lag = 0 ∧ busy ≤ d.get F.DEV_SHED_CFG_DOWN_PERMILLE then x.low + 1 else 0
  let free := decide (d.holdTicks ≤ held)
  let rise := decide (0 < lag) && decide (d.get F.DEV_SHED_CFG_UP_PERMILLE ≤ busy) && free && !d.halvingWaits && decide (old < top)
  let fall := decide (d.holdTicks ≤ low) && free && decide (0 < old)
  let new := if top < old then top else if rise then old + 1 else if fall then old - 1 else old
  let d := d.modShed (fun x => { x with load := new, held := if new = old then held else 0, low := low })
  if new = old then d else d.shedEvent old new (if old < new then 1 else 3)

/-- The level in effect, its actions, and OVERLOAD_LIMIT at the highest level (R336, R337). -/
def Dev.levelTick (d : Dev) (top busy lag : Nat) : Dev :=
  let level := max d.shed.load (d.get F.DEV_SHED_STATUS_THERM_FLOOR)
  let d := (d.set F.DEV_SHED_STATUS_LEVEL level).setFlag F.DEV_SHED_STATUS_AT_LIMIT (decide (top ≤ level))
  let d := d.shedApply level
  if top ≤ level ∧ 0 < lag ∧ d.minuteOver d.shed.limitAt = true then
    (d.modShed (fun x => { x with limitAt := d.elapsed + 1 })).event 0x0143 sevNotice [u16 level, u16 busy, u16 lag]
  else d

/-! ### Migration (R34-R36) -/

/-- The present cluster of a session: its first engine's. -/
def Dev.sesCluster (d : Dev) (s : Nat) : Nat :=
  match (d.ses s).engines with
  | e :: _ => d.veCluster e
  | [] => 0

/-- Whether a session's engines take part in a substitution. -/
def Dev.substituting (d : Dev) (s : Nat) : Bool :=
  (List.range 4).any (fun q => (d.code.subs.getD q none).isSome && (d.ses s).engines.contains (veSpareOf q))

/-- What the best cluster's score gains over the present cluster's. -/
def Dev.gain (d : Dev) (s : Nat) : Nat :=
  match d.rankClusters s with
  | c :: _ => d.score c s - d.score (d.sesCluster s) s
  | [] => 0

/-- The engines that a new placement of a session gives it, its own load taken away first. -/
def Dev.replace (d : Dev) (s : Nat) : List Nat :=
  let k := (d.ses s).engines.length
  let d' := d.modSes s (fun x => { x with engines := [] })
  d'.place s k (d.sesLoad s / max 1 k) (d.sesClass s = classLive)

/-- Marks the sessions of a tick (R34): at most eight, the largest gain first; each is placed beside those marked before it. -/
def Dev.markTick (d : Dev) : Dev :=
  let d := d.running.foldl (fun d s => d.modSes s (fun x => { x with marked := none })) d
  let bar := 32 * (d.get F.DEV_SCHED_CTRL_W_LOAD + d.get F.DEV_SCHED_CTRL_W_AFF + d.get F.DEV_SCHED_CTRL_W_TEMP)
  let cands := d.running.filter (fun s => !d.substituting s && decide (bar < d.gain s))
  let chosen := if d.flag F.DEV_SCHED_CTRL_MIGRATE_HOLD then [] else (sortDown d.gain cands).take 8
  let plan := chosen.foldl (fun (a : Dev × List (Nat × List Nat)) s =>
    let es := a.1.replace s
    (a.1.modSes s (fun x => { x with engines := es }), a.2 ++ [(s, es)])) (d, [])
  let d := plan.2.foldl (fun d (m : Nat × List Nat) => d.modSes m.1 (fun x => { x with marked := some m.2 })) d
  d.set F.DEV_SCHED_STATUS_MARKED plan.2.length

/-- Modes in which ticks run (R31). -/
def Dev.ticks (d : Dev) : Bool :=
  (d.sensing || d.modeCode = mReview || d.modeCode = mOffload) && !d.inTransition

/-- The tick: the thermal decision first, then load, then placement (R31, R34, R332-R337, R492). -/
def Dev.schedTick (d : Dev) : Dev :=
  let d := d.bump F.DEV_SCHED_STATUS_TICKS
  let top := d.topLevel
  let busy := d.busyPermille
  let lag := d.lag
  let d := d.modShed (fun x => { x with lastBusy := d.busyTotal })
  (((d.floorTick top).loadTick top busy lag).levelTick top busy lag).markTick

/-- SCHEDULER_TICK (R31). -/
def execSchedulerTick (s : State) : Host.Outcome State Fault Refusal :=
  s.run (fun d => if d.ticks then d.schedTick else d)

/-- Whether the next picture of a session begins a GOP or a refresh cycle. -/
def Dev.atGopBoundary (d : Dev) (s : Nat) : Bool :=
  let n := match Dev.nextPic 64 d s with
    | (_, some (n, _, _)) => n
    | (d', none) => (d'.ses s).nextN
  d.isGopStart s n || d.isCycle s n

/-- A marked session moves to its new engines: SCHED_MIGRATE (R34, R35). -/
def Dev.migrate (d : Dev) (s : Nat) : Dev :=
  match (d.ses s).marked with
  | none => d
  | some es =>
    let old := d.sesCluster s
    let d := d.modSes s (fun x => { x with engines := es, marked := none })
    let d := (d.bump F.DEV_SCHED_STATUS_MIGRATIONS).event 0x0141 sevInfo [u8 s, u8 old, u8 (d.sesCluster s)]
    d.veActive.foldl Dev.showVe d

/-- SESSION_MIGRATION (R34-R36): a marked session is at its boundary; the marked renditions of a group move together. -/
def execSessionMigration (s : Fin 256) (st : State) : Host.Outcome State Fault Refusal :=
  st.run (fun d =>
    if !(d.ses s).run || (d.ses s).marked.isNone then d
    else
      let ms := match d.sesGroup s with
        | some g => (d.runMembers g).filter (fun t => (d.ses t).marked.isSome)
        | none => [s.val]
      if ms.all d.atGopBoundary then ms.foldl Dev.migrate d else d)

end Sys2Proof.Machine
end

