-- ==== Sys2Proof/Machine/Service.lean ====
section
/-!
DEFINITION. Host reads (R7, R56, R66, R383, R465, R469, R495, R510, R517, R519, R520, R523, R524): which addresses a port may
read, the word it gets, and the reads with side effects.
-/
namespace Sys2Proof.Machine

/-- The registers that answer at all times from step 3 of BOOT on (R56). -/
def bootRegs : List Nat := [R.DEV_MODE, R.DEV_BOOT_STATUS, R.DEV_RESET_CAUSE]

/-- Whether `port` (0 EP0, 1 management SPI) reads the register at `a`; every other address reads 0 (R56, R66, R465, R495,
R469). -/
def Dev.readable (d : Dev) (port a : Nat) : Bool :=
  let m := d.modeCode
  let always := bootRegs.contains a || a = R.DEV_MODE_REQ
  if d.therm.shut then port = 1 && (always || a = R.THERM_TRIP_STATUS)
  else if m = mBoot then
    (decide (3 ≤ d.boot.step) && bootRegs.contains a) || (d.boot.stopped && port = 1 && blockIdOf a == 0x01)
  else if m = mBrumate then port = 1 && always
  else if d.clockHeld then port = 1 && aonBlock a
  else !d.gatedAt a

/-- Entry `j` of the defect map window (R173, R523): the generation in effect of the port whose run holds its bank. -/
def Dev.dmapEntry (d : Dev) (j : Nat) : Nat :=
  match (List.range 8).find? (fun p =>
      let first := d.get (F.RAWC_DMAP_PORT_FIRST p) * 65536
      !(elemAt d.dmap p {}).bad && decide (first ≤ j) && decide (j < first + d.dmapCap p)) with
  | none => 0
  | some p =>
    let m := (elemAt d.dmap p {}).cur
    match m[j - d.get (F.RAWC_DMAP_PORT_FIRST p) * 65536]? with
    | some e => e.bits m
    | none => 0

/-- Byte address of entry `j` in the defect map window. -/
def dmapWindow (j : Nat) : Nat := 0x1000000 + 8 * j

/-- What a port keeps of an entry of the defect map between the reads of its two words. -/
def Dev.mapKeep (d : Dev) (port : Nat) (v : Option (Nat × Nat)) : Dev := { d with srv := { d.srv with latch := setAt d.srv.latch port v } }

/-- A read of the window of the defect map: the low word latches the high one for its port. -/
def Dev.mapRead (d : Dev) (port a : Nat) : Dev × Word :=
  let j := (a - 0x1000000) / 8
  let e := d.dmapEntry j
  if a % 8 = 0 then (d.mapKeep port (some (j, e / 2 ^ 32)), BitVec.ofNat 32 e)
  else match d.srv.latch.getD port none with
    | some (k, hi) => if k = j then (d.mapKeep port none, BitVec.ofNat 32 hi) else (d, BitVec.ofNat 32 (e / 2 ^ 32))
    | none => (d, BitVec.ofNat 32 (e / 2 ^ 32))

/-- A read of TIME_NOW: its first register latches the group for its port. -/
def Dev.nowRead (d : Dev) (port a : Nat) : Dev × Word :=
  let d := if a = R.TIME_NOW_SEC_LO then d.timeLatch port else d
  (d, BitVec.ofNat 32 (nth (d.time.nowLatch.getD port []) ((a - R.TIME_NOW_SEC_LO) / 4)))

/-- Whether an address is one of TIME_NOW's. -/
def isNow (a : Nat) : Bool := R.TIME_NOW_SEC_LO ≤ a && a ≤ R.TIME_NOW_STIME_HI && a % 4 = 0

/-- A word of the LUT and other write windows. -/
def Dev.windowWord (d : Dev) (a : Nat) : Word :=
  BitVec.ofNat 32 (leNat ((List.range 4).map (fun i => Sparse.get (fun _ => 0) d.windows (a + i))))

/-- What an address of the bus is. -/
inductive BusPart where
  | none
  | map
  | window
  | keep
  | now
  | reg
  deriving DecidableEq, Repr

/-- The part of the address space that port `port` reads at `a`. -/
def Dev.busPart (d : Dev) (port a : Nat) : BusPart :=
  if !d.readable port a then .none
  else if 0x1000000 ≤ a ∧ a < 0x1800000 then .map
  else if 0x2000000 ≤ a ∧ a < 0x3000000 then .window
  else if a = R.KEEP_DATA then .keep
  else if isNow a then .now
  else .reg

/-- A read of the word at `a` through `port`: the device after it, and the word (R519, R523, R524). -/
def Dev.busRead (d : Dev) (port a : Nat) : Dev × Word :=
  match d.busPart port a with
  | .none => (d, 0)
  | .map => d.mapRead port a
  | .window => (d, d.windowWord a)
  | .keep => (d, d.keepWord)
  | .now => d.nowRead port a
  | .reg => (d, d.readWord a)

/-- A read through a port, its word returned on the port. -/
def Dev.hostRead (d : Dev) (port a : Nat) : Dev :=
  let r := d.busRead port a
  r.1.emit (.readData port r.2)

/-- TIME_NOW_READ (R383): host firmware reads `TIME_NOW_SEC_LO` through a port. -/
def execTimeNowRead (port : HostPort) (s : State) : Host.Outcome State Fault Refusal :=
  s.run (fun d => d.hostRead (portCode port) R.TIME_NOW_SEC_LO)

/-- KEEP_READ (R510): `KEEP_DATA` is read. -/
def execKeepRead (port : HostPort) (s : State) : Host.Outcome State Fault Refusal :=
  s.run (fun d => d.hostRead (portCode port) R.KEEP_DATA)

/-- DMAP_ENTRY_READ (R523): the low word of entry `entry` is read, which latches its high word for the port. -/
def execDmapEntryRead (port : HostPort) (entry : Fin 1048576) (s : State) : Host.Outcome State Fault Refusal :=
  s.run (fun d => d.hostRead (portCode port) (dmapWindow entry))

/-- A word as bytes, most significant first (R520). -/
def wordBytes (w : Word) : List Byte := (bytesLE 4 w.toNat).reverse

/-- The words of a management SPI read (R520): each entry of `waits` is one word, ready after that many wait bytes; one that is
not ready after 64 ends the transaction. -/
def Dev.mspiWords : Dev → Nat → List Nat → Dev × List Byte
  | d, _, [] => (d, [])
  | d, a, w :: rest =>
    if 64 < w then (d, List.replicate 64 0xFF ++ [0xEE])
    else
      let (d, v) := d.busRead 1 a
      let (d, more) := Dev.mspiWords d (a + 4) rest
      (d, List.replicate w 0xFF ++ [0x5A] ++ wordBytes v ++ more)

/-- MSPI_READ (R520): command 0x0B and an address, with as many words as `waits` has entries. -/
def execMspiRead (addr : Nat) (waits : List Nat) (s : State) : Host.Outcome State Fault Refusal :=
  s.run (fun d =>
    let (d, out) := d.mspiWords addr waits
    d.emit (.miso out))

end Sys2Proof.Machine
end

