-- ==== Sys2Proof/Machine/Dispatch.lean ====
section
/-!
DEFINITION. What each command does: one arm per constructor, each a direct call of the meaning of that row.
-/
namespace Sys2Proof.Machine

def exec (i : Instr) (s : State) : Host.Outcome State Fault Refusal :=
  match i with
  | .powerOnReset testEn => Sys2Proof.Machine.execPowerOnReset testEn s
  | .pinReset low testEn => Sys2Proof.Machine.execPinReset low testEn s
  | .warmReset v => Sys2Proof.Machine.execWarmReset v s
  | .watchdogExpiry => Sys2Proof.Machine.execWatchdogExpiry s
  | .wdogKick v => Sys2Proof.Machine.execWdogKick v s
  | .roReady => Sys2Proof.Machine.execRoReady s
  | .headersRead a b => Sys2Proof.Machine.execHeadersRead a b s
  | .pllMainLocked => Sys2Proof.Machine.execPllMainLocked s
  | .slotReadDone image => Sys2Proof.Machine.execSlotReadDone image s
  | .hbmTrainingDone pcs bad => Sys2Proof.Machine.execHbmTrainingDone pcs bad s
  | .selfTestDone des zes ves => Sys2Proof.Machine.execSelfTestDone des zes ves s
  | .pwrCoreStart mv => Sys2Proof.Machine.execPwrCoreStart mv s
  | .coreRailArmed => Sys2Proof.Machine.execCoreRailArmed s
  | .hbmRailArmed => Sys2Proof.Machine.execHbmRailArmed s
  | .brownout rail mv => Sys2Proof.Machine.execBrownout rail mv s
  | .brownoutRecovery testEn => Sys2Proof.Machine.execBrownoutRecovery testEn s
  | .modeRequest port mode => Sys2Proof.Machine.execModeRequest port mode s
  | .gpioModeRequest mode => Sys2Proof.Machine.execGpioModeRequest mode s
  | .modeEnter => Sys2Proof.Machine.execModeEnter s
  | .holdExit => Sys2Proof.Machine.execHoldExit s
  | .registerWrite port addr value full => Sys2Proof.Machine.execRegisterWrite port addr value full s
  | .blockReset block inst => Sys2Proof.Machine.execBlockReset block inst s
  | .blockResetDone => Sys2Proof.Machine.execBlockResetDone s
  | .schedulerTick => Sys2Proof.Machine.execSchedulerTick s
  | .sessionMigration ses => Sys2Proof.Machine.execSessionMigration ses s
  | .blockLockGained p lane => Sys2Proof.Machine.execBlockLockGained p lane s
  | .blockLockLost p lane invalid => Sys2Proof.Machine.execBlockLockLost p lane invalid s
  | .alignmentMarker p lane blk bip skewNs invalid => Sys2Proof.Machine.execAlignmentMarker p lane blk bip skewNs invalid s
  | .electricalIdleEntry p => Sys2Proof.Machine.execElectricalIdleEntry p s
  | .trnBlock p lane blk => Sys2Proof.Machine.execTrnBlock p lane blk s
  | .kslRetrain p => Sys2Proof.Machine.execKslRetrain p s
  | .trainReqSend p => Sys2Proof.Machine.execTrainReqSend p s
  | .trainingLockDone p skewNs => Sys2Proof.Machine.execTrainingLockDone p skewNs s
  | .echo p blk rtt => Sys2Proof.Machine.execEcho p blk rtt s
  | .kslTrainFail p => Sys2Proof.Machine.execKslTrainFail p s
  | .ctrlStatus p blk => Sys2Proof.Machine.execCtrlStatus p blk s
  | .rdData p blk => Sys2Proof.Machine.execRdData p blk s
  | .ack p blk => Sys2Proof.Machine.execAck p blk s
  | .laneAck p blk => Sys2Proof.Machine.execLaneAck p blk s
  | .bcRegWr p => Sys2Proof.Machine.execBcRegWr p s
  | .bcRegRd p => Sys2Proof.Machine.execBcRegRd p s
  | .bcAnswerTimeout p => Sys2Proof.Machine.execBcAnswerTimeout p s
  | .eyeMeasure p lane => Sys2Proof.Machine.execEyeMeasure p lane s
  | .eyeMeasureDone p lane errors => Sys2Proof.Machine.execEyeMeasureDone p lane errors s
  | .triggerSequence p => Sys2Proof.Machine.execTriggerSequence p s
  | .xtrigRise p => Sys2Proof.Machine.execXtrigRise p s
  | .xtrigFall p => Sys2Proof.Machine.execXtrigFall p s
  | .triggerTargetHandover p => Sys2Proof.Machine.execTriggerTargetHandover p s
  | .frameStart p blk => Sys2Proof.Machine.execFrameStart p blk s
  | .fsx p blk => Sys2Proof.Machine.execFsx p blk s
  | .lineStart p blk => Sys2Proof.Machine.execLineStart p blk s
  | .lineEnd p blk data lost => Sys2Proof.Machine.execLineEnd p blk data lost s
  | .frameEnd p blk => Sys2Proof.Machine.execFrameEnd p blk s
  | .slotDeadline n => Sys2Proof.Machine.execSlotDeadline n s
  | .wheelWindowEnd g => Sys2Proof.Machine.execWheelWindowEnd g s
  | .wheelSlotStart g => Sys2Proof.Machine.execWheelSlotStart g s
  | .wheelBoundary g => Sys2Proof.Machine.execWheelBoundary g s
  | .developFrameDone n hosts => Sys2Proof.Machine.execDevelopFrameDone n hosts s
  | .capExpCommit mask => Sys2Proof.Machine.execCapExpCommit mask s
  | .expSetSend n => Sys2Proof.Machine.execExpSetSend n s
  | .dmapEditAdd p cls => Sys2Proof.Machine.execDmapEditAdd p cls s
  | .dmapEditRemove p => Sys2Proof.Machine.execDmapEditRemove p s
  | .journalBatch => Sys2Proof.Machine.execJournalBatch s
  | .keepRebuildDone => Sys2Proof.Machine.execKeepRebuildDone s
  | .colCommit mask => Sys2Proof.Machine.execColCommit mask s
  | .lut3dLoadDone n => Sys2Proof.Machine.execLut3dLoadDone n s
  | .tileEmitted z => Sys2Proof.Machine.execTileEmitted z s
  | .tileDecoded z => Sys2Proof.Machine.execTileDecoded z s
  | .zeJobStart z host => Sys2Proof.Machine.execZeJobStart z host s
  | .generalJobDone z => Sys2Proof.Machine.execGeneralJobDone z s
  | .zeRingAbort r => Sys2Proof.Machine.execZeRingAbort r s
  | .ep0LinkDown => Sys2Proof.Machine.execEp0LinkDown s
  | .recStart => Sys2Proof.Machine.execRecStart s
  | .recStop => Sys2Proof.Machine.execRecStop s
  | .recMetaQueue mask len => Sys2Proof.Machine.execRecMetaQueue mask len s
  | .pcieLinkUp k gen width => Sys2Proof.Machine.execPcieLinkUp k gen width s
  | .pcieLinkDown k => Sys2Proof.Machine.execPcieLinkDown k s
  | .nvmeCompletion k num status data => Sys2Proof.Machine.execNvmeCompletion k num status data s
  | .nvmeTimeout k => Sys2Proof.Machine.execNvmeTimeout k s
  | .offloadJobStart => Sys2Proof.Machine.execOffloadJobStart s
  | .offloadJobDone => Sys2Proof.Machine.execOffloadJobDone s
  | .sesStart ses => Sys2Proof.Machine.execSesStart ses s
  | .sesStop ses => Sys2Proof.Machine.execSesStop ses s
  | .pictureStart ses hdr => Sys2Proof.Machine.execPictureStart ses hdr s
  | .rowReady ses back row => Sys2Proof.Machine.execRowReady ses back row s
  | .liveRowRelease e => Sys2Proof.Machine.execLiveRowRelease e s
  | .unitBoundary e bits least cell sal => Sys2Proof.Machine.execUnitBoundary e bits least cell sal s
  | .rowDone e bytes => Sys2Proof.Machine.execRowDone e bytes s
  | .analysisDone g dist field cells sal => Sys2Proof.Machine.execAnalysisDone g dist field cells sal s
  | .rowWatchdog e => Sys2Proof.Machine.execRowWatchdog e s
  | .veFault e => Sys2Proof.Machine.execVeFault e s
  | .checkpointReadDone q => Sys2Proof.Machine.execCheckpointReadDone q s
  | .decoderAccessUnit k rap => Sys2Proof.Machine.execDecoderAccessUnit k rap s
  | .decoderPictureDone k p => Sys2Proof.Machine.execDecoderPictureDone k p s
  | .rasterFetchStart r => Sys2Proof.Machine.execRasterFetchStart r s
  | .rasterFrameStart r phase => Sys2Proof.Machine.execRasterFrameStart r phase s
  | .rasLockAcquired r => Sys2Proof.Machine.execRasLockAcquired r s
  | .rasterLineFetch r y fifo => Sys2Proof.Machine.execRasterLineFetch r y fifo s
  | .rasterVblank r => Sys2Proof.Machine.execRasterVblank r s
  | .rasCommit r => Sys2Proof.Machine.execRasCommit r s
  | .rasterFrameEnd r mism => Sys2Proof.Machine.execRasterFrameEnd r mism s
  | .rbLockTimeout r lanes => Sys2Proof.Machine.execRbLockTimeout r lanes s
  | .geckoRowRelease p => Sys2Proof.Machine.execGeckoRowRelease p s
  | .geckoFsMissing p => Sys2Proof.Machine.execGeckoFsMissing p s
  | .ptpSyncRx netIf domain src seq twoStep t1 corr half => Sys2Proof.Machine.execPtpSyncRx netIf domain src seq twoStep t1 corr half s
  | .ptpFollowUpRx netIf domain src seq t1 corr => Sys2Proof.Machine.execPtpFollowUpRx netIf domain src seq t1 corr s
  | .ptpAnnounceRx netIf a => Sys2Proof.Machine.execPtpAnnounceRx netIf a s
  | .ptpDelayRespRx netIf domain src seq t4 corr => Sys2Proof.Machine.execPtpDelayRespRx netIf domain src seq t4 corr s
  | .ptpDelayReqRx netIf domain src seq corr half => Sys2Proof.Machine.execPtpDelayReqRx netIf domain src seq corr half s
  | .ptpSyncTx half => Sys2Proof.Machine.execPtpSyncTx half s
  | .ptpAnnounceTx => Sys2Proof.Machine.execPtpAnnounceTx s
  | .ptpDelayReqTx half => Sys2Proof.Machine.execPtpDelayReqTx half s
  | .announceTimeout => Sys2Proof.Machine.execAnnounceTimeout s
  | .timeSet => Sys2Proof.Machine.execTimeSet s
  | .timeStepNow => Sys2Proof.Machine.execTimeStepNow s
  | .timeNowRead port => Sys2Proof.Machine.execTimeNowRead port s
  | .trigSchedCommit p => Sys2Proof.Machine.execTrigSchedCommit p s
  | .trigSchedSwitch p => Sys2Proof.Machine.execTrigSchedSwitch p s
  | .pulseEdge n => Sys2Proof.Machine.execPulseEdge n s
  | .pulseFall n => Sys2Proof.Machine.execPulseFall n s
  | .ltcFrame good label => Sys2Proof.Machine.execLtcFrame good label s
  | .ltcFrameMissing => Sys2Proof.Machine.execLtcFrameMissing s
  | .ethLinkDown netIf => Sys2Proof.Machine.execEthLinkDown netIf s
  | .ethLinkUp netIf => Sys2Proof.Machine.execEthLinkUp netIf s
  | .arpRx netIf reply senderIp senderMac targetIp => Sys2Proof.Machine.execArpRx netIf reply senderIp senderMac targetIp s
  | .icmpEchoRx netIf srcIp srcMac dstIp data => Sys2Proof.Machine.execIcmpEchoRx netIf srcIp srcMac dstIp data s
  | .arpRenew n path => Sys2Proof.Machine.execArpRenew n path s
  | .arpResolveTimeout n path => Sys2Proof.Machine.execArpResolveTimeout n path s
  | .mailboxFrameRx netIf frame fcsOk => Sys2Proof.Machine.execMailboxFrameRx netIf frame fcsOk s
  | .txFrameSelect n => Sys2Proof.Machine.execTxFrameSelect n s
  | .txPacket n => Sys2Proof.Machine.execTxPacket n s
  | .txBandSend n => Sys2Proof.Machine.execTxBandSend n s
  | .audioPacketTx n => Sys2Proof.Machine.execAudioPacketTx n s
  | .rxPacket n path p => Sys2Proof.Machine.execRxPacket n path p s
  | .rxReorderExpiry n => Sys2Proof.Machine.execRxReorderExpiry n s
  | .pathSilenceTimeout n path => Sys2Proof.Machine.execPathSilenceTimeout n path s
  | .audioFrameRx p f => Sys2Proof.Machine.execAudioFrameRx p f s
  | .audioClockTimeout p => Sys2Proof.Machine.execAudioClockTimeout p s
  | .audioLoopUpdate m => Sys2Proof.Machine.execAudioLoopUpdate m s
  | .audioPlayout k m => Sys2Proof.Machine.execAudioPlayout k m s
  | .hbmRead req n off len ups => Sys2Proof.Machine.execHbmRead req n off len ups s
  | .hbmWrite req n off bytes ups => Sys2Proof.Machine.execHbmWrite req n off bytes ups s
  | .stripeBufferIdle n stripe => Sys2Proof.Machine.execStripeBufferIdle n stripe s
  | .scrubStep ups => Sys2Proof.Machine.execScrubStep ups s
  | .memRequestTimeout h pc => Sys2Proof.Machine.execMemRequestTimeout h pc s
  | .hbmPhyError h pc phy => Sys2Proof.Machine.execHbmPhyError h pc phy s
  | .stackTempRead h t ok => Sys2Proof.Machine.execStackTempRead h t ok s
  | .stackTempTimeout h => Sys2Proof.Machine.execStackTempTimeout h s
  | .hbmPowerDown h pc => Sys2Proof.Machine.execHbmPowerDown h pc s
  | .memInject => Sys2Proof.Machine.execMemInject s
  | .refMissingEdge r => Sys2Proof.Machine.execRefMissingEdge r s
  | .refFreqWindow r ppm edges => Sys2Proof.Machine.execRefFreqWindow r ppm edges s
  | .switchoverRampDone ms => Sys2Proof.Machine.execSwitchoverRampDone ms s
  | .clkRefSwitch => Sys2Proof.Machine.execClkRefSwitch s
  | .holdoverWindowEnd => Sys2Proof.Machine.execHoldoverWindowEnd s
  | .pllUnlock k => Sys2Proof.Machine.execPllUnlock k s
  | .otherPllLock k => Sys2Proof.Machine.execOtherPllLock k s
  | .fallbackCalibration ps => Sys2Proof.Machine.execFallbackCalibration ps s
  | .roWindowFail ps => Sys2Proof.Machine.execRoWindowFail ps s
  | .clkGate block inst => Sys2Proof.Machine.execClkGate block inst s
  | .clkUngate block inst => Sys2Proof.Machine.execClkUngate block inst s
  | .gateIdleStop => Sys2Proof.Machine.execGateIdleStop s
  | .gateIdleTimeout => Sys2Proof.Machine.execGateIdleTimeout s
  | .fmMeasure target ref sel => Sys2Proof.Machine.execFmMeasure target ref sel s
  | .fmDone count => Sys2Proof.Machine.execFmDone count s
  | .fmTimeout count => Sys2Proof.Machine.execFmTimeout count s
  | .avsUpdate slacks => Sys2Proof.Machine.execAvsUpdate slacks s
  | .avsCommandResponse ok => Sys2Proof.Machine.execAvsCommandResponse ok s
  | .droopDetect m => Sys2Proof.Machine.execDroopDetect m s
  | .stretchEnd => Sys2Proof.Machine.execStretchEnd s
  | .railWarnCrossing rail mv => Sys2Proof.Machine.execRailWarnCrossing rail mv s
  | .pfailFall => Sys2Proof.Machine.execPfailFall s
  | .warnClear => Sys2Proof.Machine.execWarnClear s
  | .railTelemetryUpdate mvs => Sys2Proof.Machine.execRailTelemetryUpdate mvs s
  | .thermalSample temps => Sys2Proof.Machine.execThermalSample temps s
  | .riseCheck => Sys2Proof.Machine.execRiseCheck s
  | .thermRiseWrite lim => Sys2Proof.Machine.execThermRiseWrite lim s
  | .thermalShutdown cause src => Sys2Proof.Machine.execThermalShutdown cause src s
  | .thermalRestart => Sys2Proof.Machine.execThermalRestart s
  | .deFault e => Sys2Proof.Machine.execDeFault e s
  | .stripeWatchdog e => Sys2Proof.Machine.execStripeWatchdog e s
  | .deCatchUpDone q => Sys2Proof.Machine.execDeCatchUpDone q s
  | .zeFault e => Sys2Proof.Machine.execZeFault e s
  | .tileWatchdog e => Sys2Proof.Machine.execTileWatchdog e s
  | .faultInject kind engine => Sys2Proof.Machine.execFaultInject kind engine s
  | .msiCoalesceExpiry => Sys2Proof.Machine.execMsiCoalesceExpiry s
  | .evtIrqClear mask => Sys2Proof.Machine.execEvtIrqClear mask s
  | .keepWrite v => Sys2Proof.Machine.execKeepWrite v s
  | .keepWriteDone => Sys2Proof.Machine.execKeepWriteDone s
  | .keepRead port => Sys2Proof.Machine.execKeepRead port s
  | .fuseProgram slot => Sys2Proof.Machine.execFuseProgram slot s
  | .fuseRevoke slot => Sys2Proof.Machine.execFuseRevoke slot s
  | .fuseOpDone ok => Sys2Proof.Machine.execFuseOpDone ok s
  | .jtagBypass => Sys2Proof.Machine.execJtagBypass s
  | .jtagIdcode => Sys2Proof.Machine.execJtagIdcode s
  | .jtagSamplePreload data => Sys2Proof.Machine.execJtagSamplePreload data s
  | .jtagExtest => Sys2Proof.Machine.execJtagExtest s
  | .jtagExtestPulse => Sys2Proof.Machine.execJtagExtestPulse s
  | .jtagExtestTrain => Sys2Proof.Machine.execJtagExtestTrain s
  | .jtagClamp => Sys2Proof.Machine.execJtagClamp s
  | .jtagHighz => Sys2Proof.Machine.execJtagHighz s
  | .mspiWrite addr words => Sys2Proof.Machine.execMspiWrite addr words s
  | .mspiRead addr waits => Sys2Proof.Machine.execMspiRead addr waits s
  | .dmapEntryRead port entry => Sys2Proof.Machine.execDmapEntryRead port entry s
  | .domainFrame m ins => Sys2Proof.Machine.execDomainFrame m ins s
  | .ep0LinkUp => Sys2Proof.Machine.execEp0LinkUp s

end Sys2Proof.Machine
end

