-- ==== Sys2Proof/Machine/Tick.lean ====
section
/-!
DEFINITION. What passes on an empty queue: one cycle of CFG_CLK (assumption 2).
-/
namespace Sys2Proof.Machine

/-- Device time is counted by the always-on domain: in BRUMATE, and in HOLD with cause CLOCK after the holdover window (R386). -/
def Dev.aonCounts (d : Dev) : Bool := d.modeCode = mBrumate || (d.modeCode = mHold && d.clk.past)

/-- The period of CFG_CLK in ns (R385, `CLK_DIV.CFG_DIV`): 4 at ÷24, 8 at ÷48; 10 while the always-on domain counts device time,
one period of the reference (R386). -/
def Dev.cfgPeriod (d : Dev) : Nat :=
  if d.aonCounts then 10 else if d.get F.CLK_DIV_CFG_DIV = 1 then 8 else 4

/-- What a cycle adds to DTIME, in units of 2^-24 ns: TIME_INCR (R385), or 10 ns in the always-on domain (R386). -/
def Dev.tickIncr (d : Dev) : Nat := if d.aonCounts then 10 * 2 ^ 24 else d.get F.TIME_INCR_INCR

/-- One cycle of CFG_CLK (R385): the time counter advances, and the elapsed time of the always-on domain advances by the nominal
period. -/
def Dev.tick (d : Dev) : Dev :=
  { d with time := { d.time with dt := d.time.dt + d.tickIncr }, elapsed := d.elapsed + d.cfgPeriod }

end Sys2Proof.Machine
end

