-- ==== Sys2Proof/WellFormed.lean ====
section
/-!
DEFINITION. When a command is well formed: its operands lie in the ranges that the interface gives them.
-/
namespace Sys2Proof


/-- The well-formed commands. -/
def Instr.wellFormed : Instr → Bool
  | .powerOnReset _ => true
  | .pinReset _ _ => true
  | .warmReset _ => true
  | .watchdogExpiry => true
  | .wdogKick _ => true
  | .roReady => true
  | .headersRead _ _ => true
  | .pllMainLocked => true
  | .slotReadDone _ => true
  | .hbmTrainingDone _ _ => true
  | .selfTestDone _ _ _ => true
  | .pwrCoreStart _ => true
  | .coreRailArmed => true
  | .hbmRailArmed => true
  | .brownout _ _ => true
  | .brownoutRecovery _ => true
  | .modeRequest _ _ => true
  | .gpioModeRequest _ => true
  | .modeEnter => true
  | .holdExit => true
  | .registerWrite _ _ _ _ => true
  | .blockReset _ _ => true
  | .blockResetDone => true
  | .schedulerTick => true
  | .sessionMigration _ => true
  | .blockLockGained _ _ => true
  | .blockLockLost _ _ _ => true
  | .alignmentMarker _ _ blk _ _ _ => decide (blk.length = 8)
  | .electricalIdleEntry _ => true
  | .trnBlock _ _ blk => decide (blk.length = 8)
  | .kslRetrain _ => true
  | .trainReqSend _ => true
  | .trainingLockDone _ _ => true
  | .echo _ blk _ => decide (blk.length = 8)
  | .kslTrainFail _ => true
  | .ctrlStatus _ blk => decide (blk.length = 8)
  | .rdData _ blk => decide (blk.length = 8)
  | .ack _ blk => decide (blk.length = 8)
  | .laneAck _ blk => decide (blk.length = 8)
  | .bcRegWr _ => true
  | .bcRegRd _ => true
  | .bcAnswerTimeout _ => true
  | .eyeMeasure _ _ => true
  | .eyeMeasureDone _ _ _ => true
  | .triggerSequence _ => true
  | .xtrigRise _ => true
  | .xtrigFall _ => true
  | .triggerTargetHandover _ => true
  | .frameStart _ blk => decide (blk.length = 8)
  | .fsx _ blk => decide (blk.length = 8)
  | .lineStart _ blk => decide (blk.length = 8)
  | .lineEnd _ blk _ _ => decide (blk.length = 8)
  | .frameEnd _ blk => decide (blk.length = 8)
  | .slotDeadline _ => true
  | .wheelWindowEnd _ => true
  | .wheelSlotStart _ => true
  | .wheelBoundary _ => true
  | .developFrameDone _ _ => true
  | .capExpCommit _ => true
  | .expSetSend _ => true
  | .dmapEditAdd _ _ => true
  | .dmapEditRemove _ => true
  | .journalBatch => true
  | .keepRebuildDone => true
  | .colCommit _ => true
  | .lut3dLoadDone _ => true
  | .tileEmitted _ => true
  | .tileDecoded _ => true
  | .zeJobStart _ _ => true
  | .generalJobDone _ => true
  | .zeRingAbort _ => true
  | .ep0LinkDown => true
  | .recStart => true
  | .recStop => true
  | .recMetaQueue _ _ => true
  | .pcieLinkUp _ _ _ => true
  | .pcieLinkDown _ => true
  | .nvmeCompletion _ _ _ _ => true
  | .nvmeTimeout _ => true
  | .offloadJobStart => true
  | .offloadJobDone => true
  | .sesStart _ => true
  | .sesStop _ => true
  | .pictureStart _ _ => true
  | .rowReady _ _ _ => true
  | .liveRowRelease _ => true
  | .unitBoundary _ _ _ _ _ => true
  | .rowDone _ _ => true
  | .analysisDone _ _ _ _ _ => true
  | .rowWatchdog _ => true
  | .veFault _ => true
  | .checkpointReadDone _ => true
  | .decoderAccessUnit _ _ => true
  | .decoderPictureDone _ _ => true
  | .rasterFetchStart _ => true
  | .rasterFrameStart _ _ => true
  | .rasLockAcquired _ => true
  | .rasterLineFetch _ _ _ => true
  | .rasterVblank _ => true
  | .rasCommit _ => true
  | .rasterFrameEnd _ _ => true
  | .rbLockTimeout _ _ => true
  | .geckoRowRelease _ => true
  | .geckoFsMissing _ => true
  | .ptpSyncRx _ _ _ _ _ _ _ _ => true
  | .ptpFollowUpRx _ _ _ _ _ _ => true
  | .ptpAnnounceRx _ _ => true
  | .ptpDelayRespRx _ _ _ _ _ _ => true
  | .ptpDelayReqRx _ _ _ _ _ _ => true
  | .ptpSyncTx _ => true
  | .ptpAnnounceTx => true
  | .ptpDelayReqTx _ => true
  | .announceTimeout => true
  | .timeSet => true
  | .timeStepNow => true
  | .timeNowRead _ => true
  | .trigSchedCommit _ => true
  | .trigSchedSwitch _ => true
  | .pulseEdge _ => true
  | .pulseFall _ => true
  | .ltcFrame _ _ => true
  | .ltcFrameMissing => true
  | .ethLinkDown _ => true
  | .ethLinkUp _ => true
  | .arpRx _ _ _ _ _ => true
  | .icmpEchoRx _ _ _ _ _ => true
  | .arpRenew _ _ => true
  | .arpResolveTimeout _ _ => true
  | .mailboxFrameRx _ _ _ => true
  | .txFrameSelect _ => true
  | .txPacket _ => true
  | .txBandSend _ => true
  | .audioPacketTx _ => true
  | .rxPacket _ _ _ => true
  | .rxReorderExpiry _ => true
  | .pathSilenceTimeout _ _ => true
  | .audioFrameRx _ _ => true
  | .audioClockTimeout _ => true
  | .audioLoopUpdate _ => true
  | .audioPlayout _ _ => true
  | .hbmRead _ _ _ _ _ => true
  | .hbmWrite _ _ _ _ _ => true
  | .stripeBufferIdle _ _ => true
  | .scrubStep _ => true
  | .memRequestTimeout _ _ => true
  | .hbmPhyError _ _ _ => true
  | .stackTempRead _ _ _ => true
  | .stackTempTimeout _ => true
  | .hbmPowerDown _ _ => true
  | .memInject => true
  | .refMissingEdge _ => true
  | .refFreqWindow _ _ _ => true
  | .switchoverRampDone _ => true
  | .clkRefSwitch => true
  | .holdoverWindowEnd => true
  | .pllUnlock _ => true
  | .otherPllLock _ => true
  | .fallbackCalibration _ => true
  | .roWindowFail _ => true
  | .clkGate _ _ => true
  | .clkUngate _ _ => true
  | .gateIdleStop => true
  | .gateIdleTimeout => true
  | .fmMeasure _ _ _ => true
  | .fmDone _ => true
  | .fmTimeout _ => true
  | .avsUpdate _ => true
  | .avsCommandResponse _ => true
  | .droopDetect _ => true
  | .stretchEnd => true
  | .railWarnCrossing _ _ => true
  | .pfailFall => true
  | .warnClear => true
  | .railTelemetryUpdate _ => true
  | .thermalSample _ => true
  | .riseCheck => true
  | .thermRiseWrite _ => true
  | .thermalShutdown _ _ => true
  | .thermalRestart => true
  | .deFault _ => true
  | .stripeWatchdog _ => true
  | .deCatchUpDone _ => true
  | .zeFault _ => true
  | .tileWatchdog _ => true
  | .faultInject _ _ => true
  | .msiCoalesceExpiry => true
  | .evtIrqClear _ => true
  | .keepWrite _ => true
  | .keepWriteDone => true
  | .keepRead _ => true
  | .fuseProgram _ => true
  | .fuseRevoke _ => true
  | .fuseOpDone _ => true
  | .jtagBypass => true
  | .jtagIdcode => true
  | .jtagSamplePreload _ => true
  | .jtagExtest => true
  | .jtagExtestPulse => true
  | .jtagExtestTrain => true
  | .jtagClamp => true
  | .jtagHighz => true
  | .mspiWrite _ _ => true
  | .mspiRead _ _ => true
  | .dmapEntryRead _ _ => true
  | .domainFrame _ _ => true
  | .ep0LinkUp => true

end Sys2Proof
end

