-- ==== Sys2Proof/Safety.lean ====
section
/-!
DEFINITION. What counts as a safe state, and the words in which statements say what a command does: that it completes, which
fields of registers it may change, and what reporting an event may change.
-/
namespace Sys2Proof.Machine

/-! ### The canonical form -/

/-- The canonical form: in every list of listed contents the keys strictly rise and no entry equals what an unlisted key reads
as, so that equal contents are equal data. `words` and `eff`: the registers as written and as in effect (R6, R8); `keep`: the
keep store (R508); `cells`: the bytes of the pools (R427); `err` and `poison`: the symbol errors and the poisoned blocks of the
stacks (R436, R437). -/
structure Dev.Canonical (d : Dev) : Prop where
  words : Sparse.wf resetWord d.regs.words = true
  eff : Sparse.wf resetWord d.regs.eff = true
  keep : Sparse.wf keepDefault d.keep.bytes = true
  cells : Sparse.wf (fun _ => 0) d.mem.cells = true
  err : Sparse.wf (fun _ => []) d.mem.err = true
  poison : Sparse.wf (fun _ => false) d.mem.poison = true

/-! ### Completion -/

/-- Command `c` in state `s` answers a next state that leaves the queue as it is and whose block meets `P`. -/
def Completes (c : Instr) (s : State) (P : Dev → Prop) : Prop :=
  ∃ t, exec c s = .next t ∧ t.pending = s.pending ∧ P t.dev

/-! ### Frames -/

/-- Whether a field's bits lie within the register. -/
abbrev Fld.ok (f : Fld) : Prop := f.lo + f.width ≤ 32

/-- Whether two fields share no bit. -/
abbrev Fld.apart (f g : Fld) : Prop := f.addr ≠ g.addr ∨ f.lo + f.width ≤ g.lo ∨ g.lo + g.width ≤ f.lo

/-- The whole register at `a` as one field. -/
abbrev wholeReg (a : Nat) : Fld := ⟨a, 0, 32⟩

/-- From `d` to `e` every field of every register that shares no bit with one of `fs` keeps its value. -/
def Dev.FieldsKept (d e : Dev) (fs : List Fld) : Prop :=
  ∀ g : Fld, g.ok → (∀ f ∈ fs, g.apart f) → e.get g = d.get g

/-- From `d` to `e` nothing changes but fields of registers, each among `fs`. -/
def Dev.Only (d e : Dev) (fs : List Fld) : Prop :=
  e = { d with regs := e.regs } ∧ e.regs.eff = d.regs.eff ∧ d.FieldsKept e fs

/-- What a reset or a power state leaves of the registers (R73): outside the registers `but`, a field chosen by `keep` holds in
`e` what it held in `d`, and every other field its reset value. -/
def Dev.Retains (d e : Dev) (keep : FieldSpec → Bool) (but : List Nat) : Prop :=
  ∀ a, a ∉ but → ∀ f ∈ fieldsAt a,
    e.get ⟨a, f.lo, f.width⟩ = if keep f then d.get ⟨a, f.lo, f.width⟩ else (resetWord a).field f.lo f.width

/-- The registers that reporting an event may change: EVT's own, `DEV_BOOT_STATUS` (its count of events lost in BOOT, R57) and
`MEM_INJ_CTRL` (an injection that waits for the next write of a block of the event ring, R436). -/
def reportRegs : List Nat := [R.EVT_PROD, R.EVT_CONS, R.EVT_IRQ_STATUS, R.EVT_STATUS, R.DEV_BOOT_STATUS, R.MEM_INJ_CTRL]

/-- `e` is `d` but for the registers at `rs`, the outputs, which only grow, the event state, the keep store, the memory and the
free values taken. -/
structure Dev.Touches (d : Dev) (rs : List Nat) (e : Dev) : Prop where
  same : e = { d with regs := e.regs, out := e.out, evt := e.evt, keep := e.keep, mem := e.mem, freeCtr := e.freeCtr }
  words : ∀ a, a ∉ rs → e.word a = d.word a
  eff : e.regs.eff = d.regs.eff
  out : ∃ l, e.out = d.out ++ l

/-- `e` is `d` but for what reporting events may change (R504-R509): those registers, the outputs, the event state, the fault log
in the keep store, the memory that holds the ring, and free values. -/
abbrev Dev.Reports (d e : Dev) : Prop := d.Touches reportRegs e

/-- From `d` to `e` fields of registers among `fs` change, and then events are reported; nothing else. -/
def Dev.Within (d e : Dev) (fs : List Fld) : Prop := ∃ m, d.Only m fs ∧ m.Reports e

/-! ### Memory -/

/-- Memory without a fault (R436-R439): no part of a stack is fenced, no stored block holds an error or is poisoned, and no
injection is armed. -/
structure Dev.MemoryGood (d : Dev) : Prop where
  parts : ∀ h pc : Nat, h < 4 → pc < 32 → d.pcOk h pc = true
  err : d.mem.err = []
  poison : d.mem.poison = []
  inject : d.mem.inject = none

/-- Every byte of pool `n` lies within the stack-local addresses of its stack, which the model's keys tell apart. -/
def Dev.PoolFits (d : Dev) (n : Nat) : Prop := ∀ o, o < d.poolSize n → (d.locate n o).2 < 2 ^ 36

/-- Byte `i` of the parity block of stripe `x` of pool `n` is the XOR of that byte of the three data blocks (R431). -/
def Dev.ParityAt (d : Dev) (n x i : Nat) : Prop :=
  let l := d.poolBase n + 4096 * x + i
  d.cell (x % 4) l = d.cell ((x + 1) % 4) l ^^^ d.cell ((x + 2) % 4) l ^^^ d.cell ((x + 3) % 4) l

/-! ### Host access -/

/-- A host write to the register at `a` has its effect (R56, R61, R66, R465, R469): the device is neither in BOOT nor in
BRUMATE, no transition runs, the domain that serves the register has its clock, and the instance that the register belongs to is
neither in block reset nor gated. -/
structure Dev.Reaches (d : Dev) (a : Nat) : Prop where
  boot : d.modeCode ≠ mBoot
  brumate : d.modeCode ≠ mBrumate
  clock : d.clockHeld = false
  transition : d.inTransition = false
  blockReset : d.inBlockReset a = false
  gate : d.gatedAt a = false

end Sys2Proof.Machine
end

