-- ==== Sys2Proof/Certificates/Slice0/Obligations.lean ====
section
/-!
DEFINITION. The statements for the provers, from the numbered rules of the spec.
-/
open Sys2Proof Sys2Proof.Machine

/-! ### The machine as a whole -/

/-- A step takes the command at the front of the queue and runs it on the state with the queue's rest. -/
def Obligations.StepRunsFrontCommand : Prop :=
  ∀ (c : Instr) (s : State), step { s with pending := c :: s.pending } = exec c s

/-- On an empty queue one cycle of CFG_CLK passes (R385, R386; that a step without a command is one cycle is the model's choice,
assumption 2): DTIME advances by TIME_INCR while the core counts it, by 10 ns while the always-on domain does, the elapsed time by
the period of the clock that counts, and nothing else changes. -/
def Obligations.EmptyQueueIsOneCycle : Prop :=
  ∀ s : State, s.pending = [] →
    ∃ t, step s = .next t ∧ t.pending = [] ∧
      t.dev = { s.dev with time := { s.dev.time with dt := t.dev.time.dt }, elapsed := t.dev.elapsed } ∧
      (s.dev.modeCode = mBrumate ∨ s.dev.modeCode = mHold ∧ s.dev.clk.past = true →
        t.dev.time.dt = s.dev.time.dt + 10 * 2 ^ 24 ∧ t.dev.elapsed = s.dev.elapsed + 10) ∧
      (s.dev.modeCode ≠ mBrumate → (s.dev.modeCode ≠ mHold ∨ s.dev.clk.past = false) →
        t.dev.time.dt = s.dev.time.dt + s.dev.get F.TIME_INCR_INCR ∧
        t.dev.elapsed = s.dev.elapsed + (if s.dev.get F.CLK_DIV_CFG_DIV = 1 then 8 else 4))

/-- Every command, in every state, answers a next state and leaves the commands that wait behind it as they are: no command
faults, none is refused, and none is lost. -/
def Obligations.EveryCommandAnswers : Prop :=
  ∀ (c : Instr) (s : State), Completes c s (fun _ => True)

/-- Every step, from every canonical state, gives a canonical state: the lists that hold the registers, the keep store, the
memory's bytes, its symbol errors and its poison keep their one form, whatever command runs. -/
def Obligations.StepKeepsCanonicalForm : Prop :=
  ∀ s t : State, s.dev.Canonical → step s = .next t → t.dev.Canonical

/-- The state after reset is canonical. -/
def Obligations.ResetIsCanonical : Prop := State.reset.dev.Canonical

/-- After reset nothing waits, the device is in BOOT at step 1 with `DEV_RESET_CAUSE` POR alone (R69, R70), device time is 0
(R386), no byte of any pool is written, the keep store holds no written byte, and every other register holds its reset value. -/
def Obligations.ResetState : Prop :=
  State.reset.pending = [] ∧ State.reset.dev.modeCode = mBoot ∧ State.reset.dev.boot.step = 1 ∧
    State.reset.dev.word R.DEV_RESET_CAUSE = 1 ∧ State.reset.dev.time.dt = 0 ∧ State.reset.dev.mem.cells = [] ∧
    State.reset.dev.keep.bytes = [] ∧ ∀ a, a ≠ R.DEV_RESET_CAUSE → State.reset.dev.word a = resetWord a

/-! ### Events (R504-R507) -/

/-- Raising an event while AUX is available and the ring is not full (R504, R506): EVT_PROD advances by one, EVT_CONS and LOST stay,
and LOST_BEFORE of the next record is clear. -/
def Obligations.EventGoesToRing : Prop :=
  ∀ (d : Dev) (code sev : Nat) (inst : Option Nat) (ctx : Nat) (items : List Item),
    d.evt.auxUp = true → (d.get F.EVT_PROD_IDX + 65536 - d.get F.EVT_CONS_IDX) % 65536 ≠ 4096 →
    (d.raise code sev inst ctx items).get F.EVT_PROD_IDX = (d.get F.EVT_PROD_IDX + 1) % 65536 ∧
    (d.raise code sev inst ctx items).get F.EVT_CONS_IDX = d.get F.EVT_CONS_IDX ∧
    (d.raise code sev inst ctx items).get F.EVT_STATUS_LOST = d.get F.EVT_STATUS_LOST ∧
    (d.raise code sev inst ctx items).evt.lostBefore = false

/-- While AUX is unavailable the first 32 records are held on-die in order and HELD counts them; a further one is counted and not
recorded, in `DEV_BOOT_STATUS.EVT_LOST` until step 8 is done (R57) and in `EVT_STATUS.LOST` from then on (R465), and the next record
carries LOST_BEFORE. -/
def Obligations.EventIsHeld : Prop :=
  ∀ (d : Dev) (code sev : Nat) (inst : Option Nat) (ctx : Nat) (items : List Item), d.evt.auxUp = false →
    (d.evt.held.length < 32 → ∃ e : EventRec,
      (d.raise code sev inst ctx items).evt.held = d.evt.held ++ [e] ∧
      e.stime = d.stime ∧ e.code = code ∧ e.severity = sev ∧ e.context = ctx ∧ e.data = packItems items ∧
      (d.raise code sev inst ctx items).get F.EVT_STATUS_HELD = d.evt.held.length + 1) ∧
    (32 ≤ d.evt.held.length →
      (d.raise code sev inst ctx items).evt.held = d.evt.held ∧ (d.raise code sev inst ctx items).evt.lostBefore = true ∧
      (9 ≤ d.boot.step →
        (d.raise code sev inst ctx items).get F.EVT_STATUS_LOST = (d.get F.EVT_STATUS_LOST + 1) % 2 ^ F.EVT_STATUS_LOST.width) ∧
      (d.boot.step < 9 →
        (d.raise code sev inst ctx items).get F.DEV_BOOT_STATUS_EVT_LOST = min (d.get F.DEV_BOOT_STATUS_EVT_LOST + 1) 3))

/-- What raising an event may change, said once: the registers of EVT, `DEV_BOOT_STATUS`, the waiting injection's register, the
outputs, which only grow, the event state, the fault log, the memory that holds the ring, and free values. Every other register
and every other part of the block stays as it is. -/
def Obligations.RaisingOnlyReports : Prop :=
  ∀ (d : Dev) (code sev : Nat) (inst : Option Nat) (ctx : Nat) (items : List Item), d.Reports (d.raise code sev inst ctx items)

/-- MSI_COALESCE_EXPIRY (R507): the interval ends; a signal that waits is sent through EP0 while its link is up, with the vector of
EVT_IRQ_CFG, and the next interval begins, and without one that waits the block is free to send at once. EVT_IRQ_CLEAR: the
cleared bits of `EVT_IRQ_STATUS.SEV` read 0, the others stay, and `IRQ_N` rises when none is left and no rail warns; no
other field of any register changes. -/
def Obligations.InterruptCommands : Prop :=
  (∀ s : State, s.dev.evt.msiBusy = true → s.dev.evt.msiWait = true → s.dev.ep0Up = true →
    Completes .msiCoalesceExpiry s (fun d => d.out = s.dev.out ++ [.msix (s.dev.get F.EVT_IRQ_CFG_VECTOR)] ∧
      d.evt.msiBusy = true ∧ d.evt.msiWait = false ∧ d.regs = s.dev.regs ∧ d.mem = s.dev.mem)) ∧
  (∀ s : State, s.dev.evt.msiBusy = true → s.dev.evt.msiWait = false →
    Completes .msiCoalesceExpiry s (fun d => d.out = s.dev.out ∧ d.evt.msiBusy = false ∧ d.regs = s.dev.regs ∧
      d.mem = s.dev.mem)) ∧
  (∀ (s : State) (mask : Fin 32), s.dev.Reaches R.EVT_IRQ_STATUS →
    Completes (.evtIrqClear mask) s (fun d =>
      d.get F.EVT_IRQ_STATUS_SEV = s.dev.get F.EVT_IRQ_STATUS_SEV &&& (31 - mask) ∧
      d.out = s.dev.out ++ (if s.dev.get F.EVT_IRQ_STATUS_SEV ≠ 0 ∧ s.dev.get F.EVT_IRQ_STATUS_SEV &&& (31 - mask.val) = 0 ∧
        s.dev.flag F.PWR_RAIL_STATUS_WARN_ACTIVE = false then [.pin pinIrqN 1] else []) ∧
      s.dev.FieldsKept d [F.EVT_IRQ_STATUS_SEV] ∧ d.mem = s.dev.mem))

/-! ### Resets (R67, R69, R70, R73, R386, R483, R494-R496) -/

/-- POWER_ON_RESET (R69, R73), while no keep-store write and no fuse operation runs: the device is in BOOT at step 1, or stopped
where TEST_EN reads high, with cause POR alone; device time is 0 and memory holds nothing; class K fields, the keep store and the
key hashes stay, and every other field of every register holds its reset value. -/
def Obligations.PowerOnKeepsClassK : Prop :=
  ∀ (s : State) (testEn : Bool), s.dev.Canonical → s.dev.keep.busy = none → s.dev.keep.fuseOp = none →
    s.dev.srv.resetLow = false →
    Completes (.powerOnReset testEn) s (fun d =>
      d.modeCode = mBoot ∧ d.word R.DEV_RESET_CAUSE = 1 ∧ d.boot.step = (if testEn then 0 else 1) ∧
      d.flag F.DEV_BOOT_STATUS_BOOT_FAIL = testEn ∧ d.time.dt = 0 ∧ d.elapsed = 0 ∧ d.mem = {} ∧
      d.keep.bytes = s.dev.keep.bytes ∧ d.keep.hashes = s.dev.keep.hashes ∧
      s.dev.Retains d (fun f => f.cls == .K) [R.DEV_RESET_CAUSE, R.DEV_BOOT_STATUS])

/-- PIN_RESET (R69, R73, R496). RESET_N low, without a brown-out in progress: class K fields stay and every other field holds its
reset value, the cause is PIN, memory is lost, and the device waits in BOOT at step 0; where a thermal lock-out stood, or its
report waits, the restart times stay for step 8. Its rise, where no brown-out waits, releases BOOT at step 1 with device time 0,
or stops it where TEST_EN reads high. -/
def Obligations.PinResetAndRelease : Prop :=
  (∀ (s : State) (testEn : Bool), s.dev.Canonical → s.dev.keep.busy = none → s.dev.pwr.brown = none →
    Completes (.pinReset true testEn) s (fun d =>
      d.modeCode = mBoot ∧ d.word R.DEV_RESET_CAUSE = 8 ∧ d.boot.step = 0 ∧ d.srv.resetLow = true ∧ d.mem = {} ∧
      d.keep.bytes = s.dev.keep.bytes ∧ d.therm.shut = false ∧
      d.therm.restarts = (if s.dev.flag F.THERM_TRIP_STATUS_LOCKOUT || s.dev.therm.report.isSome then s.dev.therm.restarts else []) ∧
      s.dev.Retains d (fun f => f.cls == .K) [R.DEV_RESET_CAUSE])) ∧
  (∀ (s : State) (testEn : Bool), s.dev.srv.resetLow = true → s.dev.pwr.brown = none →
    Completes (.pinReset false testEn) s (fun d =>
      d.srv.resetLow = false ∧ d.boot.step = (if testEn then 0 else 1) ∧ d.boot.stopped = testEn ∧ d.time.dt = 0 ∧
      d.flag F.DEV_BOOT_STATUS_BOOT_FAIL = testEn ∧ d.mem = s.dev.mem ∧ d.keep = s.dev.keep ∧
      s.dev.FieldsKept d [wholeReg R.DEV_BOOT_STATUS]))

/-- WARM_RESET with KEY 0xA5 and WARM, and WATCHDOG_EXPIRY once TIMEOUT_MS have passed without a kick in a mode that the
watchdog watches (R67, R69, R73): the device is in BOOT at step 1 with its own cause alone, training is kept, the stacks are in
self-refresh, and every class V field outside the registers named holds its reset value. -/
def Obligations.WarmResetsReboot : Prop :=
  (∀ (s : State) (v : Word), s.dev.Canonical → s.dev.Reaches R.DEV_RESET_CTRL → v.field 0 8 = 0xA5 → v.field 8 1 = 1 →
    Completes (.warmReset v) s (fun d =>
      d.modeCode = mBoot ∧ d.word R.DEV_RESET_CAUSE = 16 ∧ d.boot.step = 1 ∧ d.boot.keepTraining = true ∧
      d.mem.selfRefresh = true ∧ d.get F.MEM_STATUS_POWER = 2 ∧ d.evt.auxUp = false ∧
      ∀ a ∉ [R.DEV_RESET_CAUSE, R.DEV_BOOT_STATUS, R.DEV_MODE, R.DEV_HOLD_CAUSE, R.EVT_STATUS, R.MEM_STATUS, R.PWR_RAIL_STATUS],
        ∀ f ∈ fieldsAt a, f.cls = .V → d.get ⟨a, f.lo, f.width⟩ = (resetWord a).field f.lo f.width)) ∧
  (∀ s : State, s.dev.Canonical → s.dev.inWork = true → s.dev.get F.DEV_WDOG_CTRL_TIMEOUT_MS ≠ 0 →
    s.dev.mode.wdogFrom + s.dev.get F.DEV_WDOG_CTRL_TIMEOUT_MS * 1000000 ≤ s.dev.elapsed →
    Completes .watchdogExpiry s (fun d =>
      d.modeCode = mBoot ∧ d.word R.DEV_RESET_CAUSE = 32 ∧ d.boot.step = 1 ∧ d.boot.keepTraining = true ∧
      d.mem.selfRefresh = true ∧ d.get F.MEM_STATUS_POWER = 2 ∧ d.evt.auxUp = false))

/-- A warm reset of a block that records nothing and has no journal, loan, keep-store write or stripe buffer in progress (R73): the
fields of classes S, A and K keep their values, those of class V take their reset values, outside the registers named; device
time (R386), the bytes of every pool and the keep store but for its count of warm resets stay. -/
def Obligations.WarmResetKeepsClassesSAK : Prop :=
  ∀ (s : State) (v : Word), s.dev.Canonical → s.dev.Reaches R.DEV_RESET_CTRL → v.field 0 8 = 0xA5 → v.field 8 1 = 1 →
    s.dev.blockReset = none → s.dev.srv.returns = [] → s.dev.flag F.REC_CFG_EN = false → s.dev.journal.wait = [] →
    s.dev.keep.busy = none → s.dev.mem.bufs = [] →
    Completes (.warmReset v) s (fun d =>
      d.time.dt = s.dev.time.dt ∧ d.mem.cells = s.dev.mem.cells ∧ d.journal = s.dev.journal ∧
      d.keepNat 0x78201C 4 = min (s.dev.keepNat 0x78201C 4 + 1) 0xFFFFFFFF ∧
      (∀ a, a < 0x78201C ∨ 0x782020 ≤ a → d.keepRead a 1 = s.dev.keepRead a 1) ∧
      s.dev.Retains d (fun f => f.cls != .V) [R.DEV_RESET_CAUSE, R.DEV_BOOT_STATUS, R.DEV_MODE, R.DEV_CAPS, R.DEV_HOLD_CAUSE,
        R.EVT_STATUS, R.MEM_STATUS, R.PWR_RAIL_STATUS])

/-- WDOG_KICK (R67): 0xC0DE restarts the count from the present; another value changes nothing. -/
def Obligations.WatchdogKick : Prop :=
  (∀ (s : State) (v : Nat), s.dev.Reaches R.DEV_WDOG_KICK → v % 65536 = 0xC0DE →
    Completes (.wdogKick v) s (fun d => d = { s.dev with mode := { s.dev.mode with wdogFrom := s.dev.elapsed } })) ∧
  (∀ (s : State) (v : Nat), s.dev.Reaches R.DEV_WDOG_KICK → v % 65536 ≠ 0xC0DE → Completes (.wdogKick v) s (fun d => d = s.dev))

/-- BROWNOUT (R483) of an armed rail below its RESET threshold, while no brown-out and no thermal shutdown stands and no keep-store
write runs: a cold reset with cause BROWNOUT and the rail, held at step 0 with both rails' enables low, and the keep store counts
it. BROWNOUT_RECOVERY, with RESET_N high: BOOT is released at step 1 with device time 0, and the brown-out still waits to be
reported. -/
def Obligations.BrownoutHoldsReset : Prop :=
  (∀ (s : State) (rail : Fin 4) (mv : Nat), s.dev.Canonical → s.dev.keep.busy = none → s.dev.railArmed rail = true →
    mv < s.dev.resetMv rail → s.dev.pwr.brown = none → s.dev.therm.shut = false →
    Completes (.brownout rail mv) s (fun d =>
      d.modeCode = mBoot ∧ d.boot.step = 0 ∧ d.word R.DEV_RESET_CAUSE = BitVec.ofNat 32 (2 + 256 * rail.val) ∧
      d.pwr.brown = some rail.val ∧ d.pwr.coreEn = false ∧ d.pwr.hbmEn = false ∧ d.mem = {} ∧
      d.keepNat 0x782018 4 = min (s.dev.keepNat 0x782018 4 + 1) 0xFFFFFFFF ∧
      s.dev.Retains d (fun f => f.cls == .K) [R.DEV_RESET_CAUSE])) ∧
  (∀ (s : State) (testEn : Bool), s.dev.pwr.brown.isSome = true → s.dev.boot.step = 0 → s.dev.srv.resetLow = false →
    Completes (.brownoutRecovery testEn) s (fun d =>
      d.boot.step = (if testEn then 0 else 1) ∧ d.boot.stopped = testEn ∧ d.time.dt = 0 ∧ d.pwr = s.dev.pwr ∧
      d.mem = s.dev.mem ∧ s.dev.FieldsKept d [wholeReg R.DEV_BOOT_STATUS]))

/-- THERMAL_SHUTDOWN (R494, R496) by a stack's catastrophic-temperature output while VDD_HBM is on: THERM_TRIP_STATUS shows cause 3
and the stack, RESTARTS the restarts of the last 600 s up to 3, and LOCKOUT where there were three; both rails' enables are low,
memory is lost and BOOT stands at step 0. THERMAL_RESTART (R495) of a shutdown that is not locked out: BOOT at step 1 with cause
THERMAL, both rails' enables high, THERM_TRIP_STATUS as it was, the restart among the last three, and device time 0. -/
def Obligations.ThermalShutdownAndRestart : Prop :=
  (∀ (s : State) (src : Fin 64), s.dev.pwr.hbmEn = true → src.val < 4 → s.dev.therm.shut = false → s.dev.srv.resetLow = false →
    s.dev.pwr.brown = none →
    Completes (.thermalShutdown 3 src) s (fun d =>
      d.modeCode = mBoot ∧ d.boot.step = 0 ∧ d.therm.shut = true ∧ d.mem = {} ∧ d.pwr.coreEn = false ∧ d.pwr.hbmEn = false ∧
      d.get F.THERM_TRIP_STATUS_CAUSE = 3 ∧ d.get F.THERM_TRIP_STATUS_SRC = src ∧
      d.get F.THERM_TRIP_STATUS_RESTARTS =
        min (s.dev.therm.restarts.filter (fun t => decide (s.dev.aonTime / nsPerS < t + 600))).length 3 ∧
      (d.flag F.THERM_TRIP_STATUS_LOCKOUT = true ↔
        3 ≤ (s.dev.therm.restarts.filter (fun t => decide (s.dev.aonTime / nsPerS < t + 600))).length))) ∧
  (∀ s : State, s.dev.Canonical → s.dev.keep.busy = none → s.dev.therm.shut = true →
    s.dev.flag F.THERM_TRIP_STATUS_LOCKOUT = false →
    Completes .thermalRestart s (fun d =>
      d.modeCode = mBoot ∧ d.boot.step = 1 ∧ d.word R.DEV_RESET_CAUSE = 4 ∧ d.pwr.coreEn = true ∧ d.pwr.hbmEn = true ∧
      d.therm.shut = false ∧ d.time.dt = 0 ∧ d.word R.THERM_TRIP_STATUS = s.dev.word R.THERM_TRIP_STATUS ∧
      d.therm.restarts.getLast? = some (s.dev.aonTime / nsPerS) ∧ d.therm.restarts.length ≤ 3 ∧
      s.dev.Retains d (fun f => f.cls == .K) [R.DEV_RESET_CAUSE, R.DEV_BOOT_STATUS, R.THERM_TRIP_STATUS]))

/-! ### The boot timeline (R41, R42, R47, R52-R57, R443, R460, R473, R474) -/

/-- In BOOT. RO_READY at step 1 (R42, R460, R473): RO_READY reads 1, `XSPI_RST_N` goes low and high, the enables of both rails are
high, and step 2 follows. CORE_RAIL_ARMED and HBM_RAIL_ARMED with the rail enabled (R473): the rail's ARMED bit is set and no other
field; CORE_RAIL_ARMED also completes step 3 where nothing else is missing, so the clause is for the other steps. PWR_CORE_START
(R474) at step 2 or 3 with the rail not armed: BOOT waits with FAULT_N, and PWR_CORE_START is reported. HBM_TRAINING_DONE at step 6
with VDD_HBM armed and no part failed (R443, R445): all four stacks are trained and out of self-refresh, and step 7 follows. -/
def Obligations.BootSteps : Prop :=
  (∀ s : State, s.dev.modeCode = mBoot → s.dev.boot.step = 1 →
    Completes .roReady s (fun d => d.get F.CLK_REF_STATUS_RO_READY = 1 ∧ d.boot = { s.dev.boot with step := 2 } ∧
      d.pwr = { s.dev.pwr with coreEn := true, hbmEn := true } ∧
      (∃ l, d.out = s.dev.out ++ [.pin pinXspiRstN 0, .pin pinXspiRstN 1] ++ l) ∧
      s.dev.FieldsKept d [F.CLK_REF_STATUS_RO_READY] ∧ d.mem = s.dev.mem)) ∧
  (∀ s : State, s.dev.pwr.coreEn = true → s.dev.boot.pwrWait = false → s.dev.boot.step ≠ 3 →
    Completes .coreRailArmed s (fun d => d.flag F.PWR_RAIL_STATUS_CORE_ARMED = true ∧
      s.dev.Only d [F.PWR_RAIL_STATUS_CORE_ARMED])) ∧
  (∀ s : State, s.dev.pwr.hbmEn = true →
    Completes .hbmRailArmed s (fun d => d.flag F.PWR_RAIL_STATUS_HBM_ARMED = true ∧
      s.dev.Only d [F.PWR_RAIL_STATUS_HBM_ARMED])) ∧
  (∀ (s : State) (mv : Nat), s.dev.modeCode = mBoot → 2 ≤ s.dev.boot.step → s.dev.boot.step ≤ 3 → s.dev.boot.pwrWait = false →
    s.dev.railArmed 0 = false →
    Completes (.pwrCoreStart mv) s (fun d => d.boot = { s.dev.boot with pwrWait := true } ∧
      s.dev.FieldsKept d (reportRegs.map wholeReg) ∧ d.pwr = s.dev.pwr ∧ d.mode = s.dev.mode)) ∧
  (∀ s : State, s.dev.modeCode = mBoot → s.dev.boot.step = 6 → s.dev.flag F.PWR_RAIL_STATUS_HBM_ARMED = true →
    Completes (.hbmTrainingDone [] []) s (fun d => d.boot = { s.dev.boot with step := 7 } ∧ d.get F.MEM_STATUS_TRAINED = 15 ∧
      d.get F.MEM_STATUS_POWER = 0 ∧ d.mem = { s.dev.mem with selfRefresh := false } ∧
      s.dev.FieldsKept d [F.MEM_STATUS_TRAINED, F.MEM_STATUS_POWER]))

/-- HEADERS_READ at step 2 (R41, R52, R53), the headers as 256 bytes each. With both valid and different, while PLL_MAIN is not
locked: step 3 with the slot whose SEQ is not behind the other's by the signed 32-bit difference first, the other next, and no
register changes. With no valid slot (R54): BOOT_FAIL reads 1 and BOOT has stopped at step 3. -/
def Obligations.HeadersChooseSlot : Prop :=
  (∀ (s : State) (a b : List Byte), s.dev.modeCode = mBoot → s.dev.boot.step = 2 → s.dev.mainLocked = false → a.length = 256 →
    b.length = 256 → a ≠ b → hdrResult a (s.dev.get F.FUSE_ID_STEP) = 1 → hdrResult b (s.dev.get F.FUSE_ID_STEP) = 1 →
    Completes (.headersRead a b) s (fun d =>
      (d.boot.slot = 1 ↔ signed 32 (toBits 32 ((hdrSeq a : Int) - hdrSeq b)) < 0) ∧ d.boot.slot ≤ 1 ∧
      d = { s.dev with boot := { s.dev.boot with
        step := 3, hdrA := a, hdrB := b, slot := d.boot.slot, first := d.boot.slot, toTry := [1 - d.boot.slot] } })) ∧
  (∀ (s : State) (a b : List Byte), s.dev.modeCode = mBoot → s.dev.boot.step = 2 → a.length = 256 → b.length = 256 → a ≠ b →
    hdrResult a (s.dev.get F.FUSE_ID_STEP) ≠ 1 → hdrResult b (s.dev.get F.FUSE_ID_STEP) ≠ 1 →
    Completes (.headersRead a b) s (fun d =>
      d.flag F.DEV_BOOT_STATUS_BOOT_FAIL = true ∧ d.boot = { s.dev.boot with step := 3, hdrA := a, hdrB := b, stopped := true } ∧
      d.mode = s.dev.mode ∧ s.dev.FieldsKept d (reportRegs.map wholeReg)))

/-- HEADERS_READ at step 2 with the same 256 bytes for both slots (R41): with a valid header slot A alone is to be tried, and with an
invalid one no slot is, although slot B's bytes are as invalid. Only slot A's header is reported. -/
def Obligations.IdenticalHeadersMeanNoSlotB : Prop :=
  (∀ (s : State) (a : List Byte), s.dev.modeCode = mBoot → s.dev.boot.step = 2 → s.dev.mainLocked = false → a.length = 256 →
    hdrResult a (s.dev.get F.FUSE_ID_STEP) = 1 →
    Completes (.headersRead a a) s (fun d =>
      d = { s.dev with boot := { s.dev.boot with step := 3, hdrA := a, hdrB := a, slot := 0, first := 0, toTry := [] } })) ∧
  (∀ (s : State) (a : List Byte), s.dev.modeCode = mBoot → s.dev.boot.step = 2 → a.length = 256 →
    hdrResult a (s.dev.get F.FUSE_ID_STEP) ≠ 1 →
    Completes (.headersRead a a) s (fun d => ∃ e : Dev,
      e = (s.dev.set F.DEV_BOOT_STATUS_A_RESULT (hdrResult a (s.dev.get F.FUSE_ID_STEP))).event 0x0501 sevNotice
        [u8 0, u8 (hdrResult a (s.dev.get F.FUSE_ID_STEP))] ∧
      d = ({ e with boot := { e.boot with step := 3, hdrA := a, hdrB := a } } : Dev).bootStop))

/-- PLL_MAIN_LOCKED in BOOT from step 2 on but not at step 3, with a valid reference: MAIN reads 1, ACTIVE is PREF where that
reference is valid, else the other, and only the fields named change. SLOT_READ_DONE at step 4 (R53, R54), `image` being exactly
the slot's IMG_LEN bytes: a slot that passes, is the first tried and is signed under keys that are not blank gives step 6 with the
image, the slot and its key shown and no other register changed; one that fails with the other still to try gives that one at step 4;
one that fails with none left stops BOOT with BOOT_FAIL. -/
def Obligations.ClockAndSlots : Prop :=
  (∀ s : State, s.dev.modeCode = mBoot → 2 ≤ s.dev.boot.step → s.dev.boot.step ≠ 3 → s.dev.mainLocked = false →
    (s.dev.refOk 0 || s.dev.refOk 1) = true →
    Completes .pllMainLocked s (fun d => d.mainLocked = true ∧
      d.get F.CLK_REF_STATUS_ACTIVE =
        (if s.dev.refOk (s.dev.get F.CLK_REF_CFG_PREF) then s.dev.get F.CLK_REF_CFG_PREF else 1 - s.dev.get F.CLK_REF_CFG_PREF) ∧
      d.get F.CLK_REF_STATUS_BOTH_LOST = 0 ∧ d.get F.CLK_REF_STATUS_HOLDOVER = 0 ∧ d.get F.CLK_REF_STATUS_SLEWING = 0 ∧
      s.dev.Only d [F.CLK_PLL_STATUS_MAIN, F.CLK_REF_STATUS_ACTIVE, F.CLK_REF_STATUS_BOTH_LOST, F.CLK_REF_STATUS_HOLDOVER,
        F.CLK_REF_STATUS_SLEWING, refPpm 0, refPpm 1])) ∧
  (∀ (s : State) (image : List Byte), s.dev.modeCode = mBoot → s.dev.boot.step = 4 → s.dev.boot.stopped = false →
    s.dev.boot.slot = s.dev.boot.first → s.dev.boot.slot ≤ 1 → s.dev.keysBlank = false →
    image.length = hdrImgLen (s.dev.slotHdr s.dev.boot.slot) → s.dev.slotResult image = 1 →
    Completes (.slotReadDone image) s (fun d =>
      d.boot = { s.dev.boot with step := 6, image := image } ∧ d.get (slotResultFld s.dev.boot.slot) = 1 ∧
      d.get F.DEV_BOOT_STATUS_SLOT = s.dev.boot.slot ∧ d.mode.startMode = hdrStartMode image ∧
      (d.mode.autoResume = true ↔ hdrFlags image % 2 = 1) ∧
      s.dev.FieldsKept d [slotResultFld s.dev.boot.slot, F.DEV_BOOT_STATUS_SLOT, F.DEV_BOOT_STATUS_KEY_USED] ∧
      d.mem = s.dev.mem ∧ d.out = s.dev.out)) ∧
  (∀ (s : State) (image : List Byte) (next : Nat) (rest : List Nat), s.dev.modeCode = mBoot → s.dev.boot.step = 4 →
    s.dev.boot.stopped = false → s.dev.boot.toTry = next :: rest → image.length = hdrImgLen (s.dev.slotHdr s.dev.boot.slot) →
    s.dev.slotResult image ≠ 1 →
    Completes (.slotReadDone image) s (fun d => d.boot = { s.dev.boot with slot := next, toTry := rest } ∧
      d.mode = s.dev.mode ∧ s.dev.FieldsKept d (reportRegs.map wholeReg))) ∧
  (∀ (s : State) (image : List Byte), s.dev.modeCode = mBoot → s.dev.boot.step = 4 → s.dev.boot.stopped = false →
    s.dev.boot.toTry = [] → image.length = hdrImgLen (s.dev.slotHdr s.dev.boot.slot) → s.dev.slotResult image ≠ 1 →
    Completes (.slotReadDone image) s (fun d => d.flag F.DEV_BOOT_STATUS_BOOT_FAIL = true ∧
      d.boot = { s.dev.boot with stopped := true } ∧ d.mode = s.dev.mode ∧ s.dev.FieldsKept d (reportRegs.map wholeReg)))

/-- SELF_TEST_DONE at step 7 (R55, R57): the keep store's count of boots rises (R508), the engines that failed are fenced as by their
faults, DEs first, then ZEs, then VEs, and step 8 runs from there; at any other step nothing changes. -/
def Obligations.SelfTestRunsStepEight : Prop :=
  (∀ s : State, s.dev.modeCode = mBoot → s.dev.boot.step = 7 →
    Completes (.selfTestDone [] [] []) s (fun d => ∃ e : Dev, d = e.bootLast ∧
      e = { s.dev with keep := e.keep } ∧ e.keepNat 0x782010 4 = min (s.dev.keepNat 0x782010 4 + 1) 0xFFFFFFFF ∧
      ∀ a, a < 0x782010 ∨ 0x782014 ≤ a → e.keepRead a 1 = s.dev.keepRead a 1)) ∧
  (∀ (s : State) (des zes : List (Fin 20)) (ves : List (Fin 68)), s.dev.modeCode = mBoot → s.dev.boot.step = 7 →
    Completes (.selfTestDone des zes ves) s (fun d => ∃ e f g : Dev, e = (s.dev.keepCount 0) ∧
      f = des.foldl (fun d x => d.deFault x) e ∧ g = zes.foldl (fun d x => d.zeFault x) f ∧
      d = (ves.foldl (fun d x => d.veFault x) g).bootLast)) ∧
  (∀ (s : State) (des zes : List (Fin 20)) (ves : List (Fin 68)), s.dev.modeCode ≠ mBoot ∨ s.dev.boot.step ≠ 7 →
    Completes (.selfTestDone des zes ves) s (fun d => d = s.dev))

/-! ### Modes (R58-R68) -/

/-- A mode request during a transition, by a write or a GPIO, outside BOOT: it is held pending in place of one held before, REQ_PENDING
reads 1, and nothing of the transition changes. A GPIO mode request outside transitions, in a mode other than BOOT and CAPTURE: one for
BOOT, for HOLD, for the present mode, or from HOLD is refused, with a report alone (R63); any other starts the first direct transition of
its path (R64), IN_TRANSITION and TARGET show it, the rest of the path waits, and MODE stays. From BRUMATE the rails may rise, so their
monitors are left out. -/
def Obligations.ModeRequests : Prop :=
  (∀ (s : State) (mode : Fin 8), s.dev.modeCode ≠ mBoot → s.dev.inTransition = true →
    Completes (.gpioModeRequest mode) s (fun d => d.mode = { s.dev.mode with pendingReq := some mode.val } ∧
      d.flag F.DEV_MODE_REQ_PENDING = true ∧ ({ s.dev with mode := d.mode } : Dev).Only d [F.DEV_MODE_REQ_PENDING])) ∧
  (∀ (s : State) (port : HostPort) (mode : Fin 8), s.dev.modeCode ≠ mBoot → s.dev.modeCode ≠ mBrumate → s.dev.clockHeld = false →
    s.dev.inTransition = true →
    Completes (.modeRequest port mode) s (fun d => d.mode = { s.dev.mode with pendingReq := some mode.val } ∧
      d.get F.DEV_MODE_REQ_REQ = mode ∧ d.flag F.DEV_MODE_REQ_PENDING = true ∧
      ({ s.dev with mode := d.mode } : Dev).Only d [F.DEV_MODE_REQ_REQ, F.DEV_MODE_REQ_PENDING])) ∧
  (∀ (s : State) (mode : Fin 8), s.dev.modeCode ≠ mBoot → s.dev.inTransition = false →
    mode.val = mBoot ∨ mode.val = mHold ∨ mode.val = s.dev.modeCode ∨ s.dev.modeCode = mHold →
    Completes (.gpioModeRequest mode) s (fun d => s.dev.Reports d)) ∧
  (∀ (s : State) (mode : Fin 8), s.dev.modeCode ≠ mBoot → s.dev.modeCode ≠ mHold → s.dev.modeCode ≠ mCapture →
    s.dev.inTransition = false → mode.val ≠ mBoot → mode.val ≠ mHold → mode.val ≠ s.dev.modeCode →
    Completes (.gpioModeRequest mode) s (fun d => ∃ dst rest, modePath s.dev.modeCode mode = dst :: rest ∧
      d.inTransition = true ∧ d.get F.DEV_MODE_TARGET = dst ∧ d.mode = { s.dev.mode with chain := rest } ∧
      d.modeCode = s.dev.modeCode ∧ d.mem = s.dev.mem ∧
      s.dev.FieldsKept d [F.DEV_MODE_IN_TRANSITION, F.DEV_MODE_TARGET, F.PWR_RAIL_STATUS_CORE_ARMED, F.PWR_RAIL_STATUS_HBM_ARMED]))

/-- For every mode that can make a request and every mode that can be requested (R64): the path ends at the requested mode, and each
of its steps joins BASK with another mode, or PREVIEW with CAPTURE; BASK has no step to CAPTURE. -/
def Obligations.PathsUseDirectTransitions : Prop :=
  ∀ m r : Nat, m ≤ 7 → r ≤ 7 → m ≠ mBoot → m ≠ mHold → r ≠ mBoot → r ≠ mHold → m ≠ r →
    (modePath m r).getLast? = some r ∧
      ∀ i x y, (m :: modePath m r)[i]? = some x → (m :: modePath m r)[i + 1]? = some y →
        (x = mBask ∨ y = mBask ∨ x = mPreview ∧ y = mCapture ∨ x = mCapture ∧ y = mPreview) ∧
        ¬ (x = mBask ∧ y = mCapture) ∧ x ≠ y

/-- MODE_ENTER of a transition from BASK to another mode than BRUMATE, where a record of the image copy whose MODES include that
mode fails its CRC (R60): the device is in HOLD with PREV BASK and no transition, chain or request, and no outputs' safe state is left. -/
def Obligations.BadRecordEntersHold : Prop :=
  ∀ s : State, s.dev.modeCode = mBask → s.dev.inTransition = true → s.dev.get F.DEV_MODE_TARGET ≠ mBrumate →
    (∃ r ∈ s.dev.copyRecords, r.inMode (s.dev.get F.DEV_MODE_TARGET) = true ∧ r.crc ≠ crc32c r.value) →
    Completes .modeEnter s (fun d => d.modeCode = mHold ∧ d.get F.DEV_MODE_PREV = mBask ∧ d.inTransition = false ∧
      d.get F.DEV_MODE_TARGET = 0 ∧ d.mode.chain = [] ∧ d.mode.pendingReq = none ∧ d.mode.holdMode = mBask ∧ d.boot.step = 9)

/-- MODE_ENTER of a transition to BRUMATE: the mode entered is BRUMATE with the mode left in PREV, VDD_CORE's enable is low and
VDD_HBM's high, the stacks are in self-refresh (R445), events are held on-die, and what the block stood at then settles by the
rules of a transition's end. -/
def Obligations.BrumateEntry : Prop :=
  ∀ s : State, s.dev.modeCode = mBask → s.dev.inTransition = true → s.dev.get F.DEV_MODE_TARGET = mBrumate →
    Completes .modeEnter s (fun d => ∃ e : Dev, d = e.settleMode ∧ e.modeCode = mBrumate ∧ e.get F.DEV_MODE_PREV = mBask ∧
      e.inTransition = false ∧ e.get F.DEV_MODE_TARGET = 0 ∧ e.pwr.coreEn = false ∧ e.pwr.hbmEn = true ∧
      e.mem.selfRefresh = true ∧ e.get F.MEM_STATUS_POWER = 2 ∧ e.evt.auxUp = false)

/-- HOLD_EXIT (R65, R68): with a cause other than CLOCK set nothing changes but CLOCK's own bit, and that only where the clock has
recovered (R466); outside HOLD nothing changes at all. With no cause set BASK's records are applied as on a transition; where they allow
it BASK is entered, with HOLD_EXIT reported first; where they do not, the device enters HOLD again with cause CONFIG. The way to PREVIEW
and CAPTURE that AUTO_RESUME takes up after a HOLD of CAPTURE is not part of this statement. -/
def Obligations.HoldExit : Prop :=
  (∀ s : State, s.dev.modeCode = mHold → s.dev.holdCauses / 2 ≠ 0 →
    Completes .holdExit s (fun d => d.modeCode = mHold ∧ d.holdCauses / 2 = s.dev.holdCauses / 2 ∧
      (s.dev.clockClears = false → d = s.dev) ∧
      (s.dev.clockClears = true → d.holdCauses % 2 = 0 ∧ s.dev.Only d [⟨R.DEV_HOLD_CAUSE, 0, 1⟩]))) ∧
  (∀ s : State, s.dev.modeCode ≠ mHold → Completes .holdExit s (fun d => d = s.dev)) ∧
  (∀ s : State, s.dev.modeCode = mHold → s.dev.holdCauses = 0 → s.dev.clockClears = false →
    ((s.dev.applyMode mHold mBask).2 = false →
      Completes .holdExit s (fun d => d = (s.dev.applyMode mHold mBask).1.enterHold causeConfig)) ∧
    ((s.dev.applyMode mHold mBask).2 = true → (s.dev.mode.autoResume && s.dev.mode.holdMode == mCapture) = false →
      Completes .holdExit s (fun d =>
        d = ((((s.dev.applyMode mHold mBask).1.event 0x0105 sevNotice [u8 mBask]).enterMode mHold mBask).settleMode))))

/-- A HOLD cause in a mode other than BRUMATE and HOLD, and in BOOT only from step 8 on (R64, R68): the device is in HOLD, PREV is
the mode left, no transition, chain or pending request is left, and the mode held is remembered. -/
def Obligations.HoldCauseEntersHold : Prop :=
  ∀ (d : Dev) (c : Fin 4), d.modeCode ≠ mBrumate → d.modeCode ≠ mHold → (d.modeCode = mBoot → 8 ≤ d.boot.step) →
    (d.enterHold c).modeCode = mHold ∧ (d.enterHold c).get F.DEV_MODE_PREV = d.modeCode ∧ (d.enterHold c).inTransition = false ∧
    (d.enterHold c).get F.DEV_MODE_TARGET = 0 ∧ (d.enterHold c).mode.chain = [] ∧ (d.enterHold c).mode.pendingReq = none ∧
    (d.enterHold c).mode.holdMode = d.modeCode ∧ (d.enterHold c).boot.step = 9

/-! ### Host access (R6-R8, R56, R58, R61, R383, R510, R517, R519-R523) -/

/-- A word address outside every block and window (R517), at which nothing is listed, as is so of every state that a host's writes
reach: a write through either port leaves every field, output and byte as it is, and the register there still reads 0; a
one-word read by the management SPI port returns four zero bytes after its wait bytes, and changes nothing else. -/
def Obligations.UnassignedAddresses : Prop :=
  (∀ (s : State) (port : HostPort) (addr : Nat) (v : Word), addr < 0x4000000 → blockIdOf addr = 0 → s.dev.word addr = 0 →
    s.dev.Reaches addr →
    Completes (.registerWrite port addr v true) s (fun d => s.dev.Only d [] ∧ d.word addr = 0)) ∧
  (∀ (s : State) (addr : Nat) (w : Fin 65), addr < 0x4000000 → blockIdOf addr = 0 → s.dev.word addr = 0 →
    Completes (.mspiRead addr [w.val]) s (fun d =>
      d = { s.dev with out := s.dev.out ++ [.miso (List.replicate w.val 0xFF ++ [0x5A, 0, 0, 0, 0])] }))

/-- REGISTER_WRITE of a register without behaviour of its own, through either port, where it has its effect and no enable is refused
(R8, R58, R75): a live RW or RWS field takes its bits, unless it is a size whose zero R75 refuses; a W1S field sets, a W1C field
clears; every other RW, RWS, RWL or RO field keeps its value. Where no field that is not live would change and no size is zeroed, nothing
else happens; otherwise nothing else happens but the reports. -/
def Obligations.HostWriteChangesLiveFields : Prop :=
  ∀ (s : State) (port : HostPort) (addr : Nat) (v : Word), s.dev.Reaches addr → inWindow addr = false →
    s.dev.writeSingle addr v = none → s.dev.writeInstance addr v = none → addr ∉ reportRegs →
    s.dev.enableRefusal addr (s.dev.hostWord addr v) = none →
    Completes (.registerWrite port addr v true) s (fun d =>
      (∀ f ∈ fieldsAt addr,
        ((f.acc = .rw ∨ f.acc = .rws) → f.live = true → (f.size = true → v.field f.lo f.width ≠ 0) →
          d.get ⟨addr, f.lo, f.width⟩ = v.field f.lo f.width) ∧
        ((f.acc = .ro ∨ f.acc = .rwl ∨ (f.acc = .rw ∨ f.acc = .rws) ∧ f.live = false) →
          d.get ⟨addr, f.lo, f.width⟩ = s.dev.get ⟨addr, f.lo, f.width⟩) ∧
        (f.acc = .w1c → d.get ⟨addr, f.lo, f.width⟩ =
          s.dev.get ⟨addr, f.lo, f.width⟩ &&& (2 ^ f.width - 1 - v.field f.lo f.width))) ∧
      s.dev.Within d [wholeReg addr] ∧
      (s.dev.changesNonlive addr v = false → s.dev.zeroesSize addr v = false → s.dev.Only d [wholeReg addr]))

/-- REGISTER_WRITE in BOOT changes nothing (R56). In a transition it is queued, up to 64 of them, except a mode request, and the
65th is dropped with a report (R61). With partial byte enables through EP0 it is ignored with a report (R519). -/
def Obligations.HostWritesHeldOrIgnored : Prop :=
  (∀ (s : State) (port : HostPort) (addr : Nat) (v : Word), s.dev.modeCode = mBoot →
    Completes (.registerWrite port addr v true) s (fun d => d = s.dev)) ∧
  (∀ (s : State) (port : HostPort) (addr : Nat) (v : Word), s.dev.modeCode ≠ mBoot → s.dev.modeCode ≠ mBrumate →
    s.dev.clockHeld = false → s.dev.inTransition = true → addr ≠ R.DEV_MODE_REQ →
    (s.dev.mode.queued.length < 64 → Completes (.registerWrite port addr v true) s (fun d =>
      d = { s.dev with mode := { s.dev.mode with
        queued := s.dev.mode.queued ++ [{ port := portCode port, addr := addr, value := v }] } })) ∧
    (64 ≤ s.dev.mode.queued.length → Completes (.registerWrite port addr v true) s (fun d => s.dev.Reports d))) ∧
  (∀ (s : State) (addr : Nat) (v : Word), s.dev.modeCode ≠ mBrumate →
    Completes (.registerWrite .ep0 addr v false) s (fun d => s.dev.Reports d))

/-- MSPI_WRITE (R520) writes nothing with no word, and each further word as one more write of the port, at the address 4 on from
the one before. MSPI_READ of one word of a plain register that the port may read (R8, R56, R66): its wait bytes, 0x5A, and the
word, most significant byte first; a word not ready after 64 wait bytes ends with 0xEE; neither changes anything else. -/
def Obligations.ManagementSpiWords : Prop :=
  (∀ (s : State) (addr : Nat), Completes (.mspiWrite addr []) s (fun d => d = s.dev)) ∧
  (∀ (s t : State) (addr : Nat) (ws : List Word) (w : Word), exec (.mspiWrite addr ws) s = .next t →
    exec (.mspiWrite addr (ws ++ [w])) s = exec (.registerWrite .mspi (addr + 4 * ws.length) w true) t) ∧
  (∀ (s : State) (addr n : Nat), n ≤ 64 → s.dev.readable 1 addr = true → addr < 0x1000000 → addr ≠ R.KEEP_DATA → isNow addr = false →
    Completes (.mspiRead addr [n]) s (fun d =>
      d = { s.dev with out := s.dev.out ++ [.miso (List.replicate n 0xFF ++ [0x5A] ++
        (bytesLE 4 (s.dev.readWord addr).toNat).reverse)] })) ∧
  (∀ (s : State) (addr n : Nat) (rest : List Nat), 64 < n →
    Completes (.mspiRead addr (n :: rest)) s (fun d =>
      d = { s.dev with out := s.dev.out ++ [.miso (List.replicate 64 0xFF ++ [0xEE])] }))

/-- TIME_NOW_READ where the port may read (R383, R519): the group of the present time is latched for the port, seconds low and high,
nanoseconds, sub-nanoseconds and STIME, and the low seconds are returned. KEEP_READ (R510): the keep store's word at KEEP_ADDR. DMAP_ENTRY_READ
(R523): the low word of the entry, its high word latched for the port. The other port's latches and all else stay. -/
def Obligations.ReadsWithSideEffects : Prop :=
  (∀ (s : State) (port : HostPort), s.dev.readable (portCode port) R.TIME_NOW_SEC_LO = true → s.dev.time.nowLatch.length = 2 →
    Completes (.timeNowRead port) s (fun d =>
      d.time.nowLatch.getD (portCode port) [] = [dtSec s.dev.time.dt % 2 ^ 32, dtSec s.dev.time.dt / 2 ^ 32 % 2 ^ 16,
        dtNs s.dev.time.dt, dtSubns s.dev.time.dt, s.dev.stime % 2 ^ 32, s.dev.stime / 2 ^ 32 % 2 ^ 32] ∧
      d.time.nowLatch.getD (1 - portCode port) [] = s.dev.time.nowLatch.getD (1 - portCode port) [] ∧
      d = { s.dev with
        time := { s.dev.time with nowLatch := d.time.nowLatch },
        out := s.dev.out ++ [.readData (portCode port) (BitVec.ofNat 32 (dtSec s.dev.time.dt))] })) ∧
  (∀ (s : State) (port : HostPort), s.dev.readable (portCode port) R.KEEP_DATA = true → s.dev.get F.KEEP_ADDR_WORD < 0x200000 →
    Completes (.keepRead port) s (fun d =>
      d = { s.dev with out := s.dev.out ++ [.readData (portCode port)
        (BitVec.ofNat 32 (s.dev.keepNat (4 * s.dev.get F.KEEP_ADDR_WORD) 4))] })) ∧
  (∀ (s : State) (port : HostPort) (entry : Fin 1048576), s.dev.readable (portCode port) (dmapWindow entry) = true →
    s.dev.srv.latch.length = 2 →
    Completes (.dmapEntryRead port entry) s (fun d =>
      d.srv.latch.getD (portCode port) none = some (entry.val, s.dev.dmapEntry entry / 2 ^ 32) ∧
      d.srv.latch.getD (1 - portCode port) none = s.dev.srv.latch.getD (1 - portCode port) none ∧
      d = { s.dev with
        srv := { s.dev.srv with latch := d.srv.latch },
        out := s.dev.out ++ [.readData (portCode port) (BitVec.ofNat 32 (s.dev.dmapEntry entry))] }))

/-! ### The keep store, fuses and JTAG (R508, R510, R512, R514) -/

/-- KEEP_WRITE where it reaches its register (R510): for a word of the customer area, with no write running, the write runs with its
address and word and RESULT reads 0; while one runs RESULT reads 1 and for another place 2, and nothing else changes. KEEP_WRITE_DONE
with a write running: the four bytes of its word are stored, no other byte changes, and BUSY reads 0. -/
def Obligations.KeepStoreWrites : Prop :=
  (∀ (s : State) (v : Word), s.dev.Reaches R.KEEP_DATA →
    (s.dev.keep.busy = none → 0x7C0000 ≤ 4 * s.dev.get F.KEEP_ADDR_WORD → 4 * s.dev.get F.KEEP_ADDR_WORD < 0x800000 →
      Completes (.keepWrite v) s (fun d => d.keep = { s.dev.keep with busy := some (4 * s.dev.get F.KEEP_ADDR_WORD, v) } ∧
        d.get F.KEEP_STATUS_BUSY = 1 ∧ d.get F.KEEP_STATUS_RESULT = 0 ∧
        ({ s.dev with keep := d.keep } : Dev).Only d [F.KEEP_STATUS_BUSY, F.KEEP_STATUS_RESULT])) ∧
    (s.dev.keep.busy.isSome = true → Completes (.keepWrite v) s (fun d =>
      d.get F.KEEP_STATUS_RESULT = 1 ∧ s.dev.Only d [F.KEEP_STATUS_RESULT])) ∧
    (s.dev.keep.busy = none → (4 * s.dev.get F.KEEP_ADDR_WORD < 0x7C0000 ∨ 0x800000 ≤ 4 * s.dev.get F.KEEP_ADDR_WORD) →
      Completes (.keepWrite v) s (fun d => d.get F.KEEP_STATUS_RESULT = 2 ∧ s.dev.Only d [F.KEEP_STATUS_RESULT]))) ∧
  (∀ (s : State) (a : Nat) (v : Word), s.dev.keep.busy = some (a, v) →
    Completes .keepWriteDone s (fun d => d.keep.busy = none ∧ d.keepNat a 4 = v.toNat ∧
      (∀ b, b < a ∨ a + 4 ≤ b → d.keepRead b 1 = s.dev.keepRead b 1) ∧ d.get F.KEEP_STATUS_BUSY = 0 ∧
      ({ s.dev with keep := d.keep } : Dev).Only d [F.KEEP_STATUS_BUSY]))

/-- FUSE_PROGRAM and FUSE_REVOKE (R512), where they reach their register and no operation runs: accepted, the operation runs with
its slot and the hash of the registers, and GO reads 1; refused, RESULT gives the code and GO reads 0. FUSE_OP_DONE of an operation read back
well, outside BOOT: its slot is fused (1) or revoked (3), every other slot keeps its state, a programmed slot holds the hash, RESULT and GO
read 0 and the end is reported. -/
def Obligations.FuseOperations : Prop :=
  (∀ (s : State) (slot : Fin 4), s.dev.Reaches R.FUSE_PROG_CTRL → s.dev.keep.fuseOp = none →
    (s.dev.fuseRefusal slot fuseProgram = none → Completes (.fuseProgram slot) s (fun d =>
      d.keep = { s.dev.keep with fuseOp := some (FuseOp.mk slot fuseProgram
        ((List.range 8).flatMap (fun k => bytesLE 4 (s.dev.get (F.FUSE_PROG_HASH_HASH k))))) } ∧
      d.get F.FUSE_PROG_CTRL_GO = 1 ∧ ({ s.dev with keep := d.keep } : Dev).Only d
        [F.FUSE_PROG_CTRL_SLOT, F.FUSE_PROG_CTRL_OP, F.FUSE_PROG_CTRL_GO])) ∧
    (∀ r, s.dev.fuseRefusal slot fuseProgram = some r → Completes (.fuseProgram slot) s (fun d =>
      d.get F.FUSE_PROG_CTRL_GO = 0 ∧ d.get F.FUSE_PROG_CTRL_RESULT = r % 2 ^ F.FUSE_PROG_CTRL_RESULT.width ∧
      d.keep.fuseOp = none ∧ d.keep.hashes = s.dev.keep.hashes ∧
      s.dev.Within d [F.FUSE_PROG_CTRL_SLOT, F.FUSE_PROG_CTRL_OP, F.FUSE_PROG_CTRL_GO, F.FUSE_PROG_CTRL_RESULT])) ∧
    (s.dev.fuseRefusal slot fuseRevoke = none → Completes (.fuseRevoke slot) s (fun d =>
      (∃ f : FuseOp, d.keep = { s.dev.keep with fuseOp := some f } ∧ f.slot = slot ∧ f.op = fuseRevoke) ∧
      d.get F.FUSE_PROG_CTRL_GO = 1 ∧ ({ s.dev with keep := d.keep } : Dev).Only d
        [F.FUSE_PROG_CTRL_SLOT, F.FUSE_PROG_CTRL_OP, F.FUSE_PROG_CTRL_GO]))) ∧
  (∀ (s : State) (f : FuseOp), s.dev.keep.fuseOp = some f → f.slot < 4 → f.slot < s.dev.keep.hashes.length → s.dev.modeCode ≠ mBoot →
    Completes (.fuseOpDone true) s (fun d => d.keep.fuseOp = none ∧
      d.keyState f.slot = (if f.op = fuseProgram then 1 else 3) ∧ (∀ k, k < 4 → k ≠ f.slot → d.keyState k = s.dev.keyState k) ∧
      (f.op = fuseProgram → elemAt d.keep.hashes f.slot [] = f.hash) ∧
      (f.op ≠ fuseProgram → d.keep.hashes = s.dev.keep.hashes) ∧
      d.get F.FUSE_PROG_CTRL_GO = 0 ∧ d.get F.FUSE_PROG_CTRL_RESULT = 0 ∧
      s.dev.FieldsKept d ([⟨R.FUSE_KEYS, 2 * f.slot, 2⟩, F.FUSE_PROG_CTRL_GO, F.FUSE_PROG_CTRL_RESULT] ++ reportRegs.map wholeReg)))

/-- JTAG (R514): IDCODE shifts out the 32-bit identification, BYPASS one bit; SAMPLE_PRELOAD loads the boundary register; EXTEST and
its pulse and train drive the pads from it, CLAMP too with the bypass register selected, HIGHZ releases them, all five only while
`RESET_N` is low, and otherwise they act as BYPASS. No register, byte of memory or other state changes. The bits that the boundary
register shifts out are free values (assumption 124). -/
def Obligations.JtagInstructions : Prop :=
  (∀ s : State, Completes .jtagIdcode s (fun d => d = { s.dev with out := s.dev.out ++ [.tdo 32 0x11690353] }) ∧
    Completes .jtagBypass s (fun d => d = { s.dev with out := s.dev.out ++ [.tdo 1 0] })) ∧
  (∀ (s : State) (data : Nat), Completes (.jtagSamplePreload data) s (fun d => ∃ n x, d = { s.dev with
    out := s.dev.out ++ [.tdo n x], freeCtr := d.freeCtr, srv := { s.dev.srv with bscan := data } })) ∧
  (∀ s : State, s.dev.srv.resetLow = true → ∀ c ∈ [Instr.jtagExtest, .jtagExtestPulse, .jtagExtestTrain],
    Completes c s (fun d => ∃ n x, d = { s.dev with
      out := s.dev.out ++ [.pin pinBoundary s.dev.srv.bscan, .tdo n x], freeCtr := d.freeCtr })) ∧
  (∀ s : State, s.dev.srv.resetLow = true →
    Completes .jtagClamp s (fun d => d = { s.dev with out := s.dev.out ++ [.pin pinBoundary s.dev.srv.bscan, .tdo 1 0] }) ∧
    Completes .jtagHighz s (fun d => d = { s.dev with out := s.dev.out ++ [.pin pinHighZ 0, .tdo 1 0] })) ∧
  (∀ s : State, s.dev.srv.resetLow = false →
    ∀ c ∈ [Instr.jtagExtest, .jtagExtestPulse, .jtagExtestTrain, .jtagClamp, .jtagHighz],
      Completes c s (fun d => d = { s.dev with out := s.dev.out ++ [.tdo 1 0] }))

/-! ### Memory (R429-R445) -/

/-- HBM_READ and HBM_WRITE that would pass the end of their pool (R429): the read answers zeros, the write stores nothing, and
MEM_BOUNDS is raised with the requester, the pool and the offset, unless one was raised for that requester within the last second; nothing
else happens. `dropped` is the block after that report. -/
def Obligations.RequestsPastPoolEnd : Prop :=
  ∀ (s : State) (req : Fin 1024) (n : Fin 6) (off : Nat) (ups : List (Nat × Nat × Nat)),
    let last := Sparse.get (fun _ => 0) s.dev.mem.boundsSecond req
    let dropped : Dev :=
      if 0 < last ∧ s.dev.elapsed < last - 1 + nsPerS then s.dev
      else ({ s.dev with mem := { s.dev.mem with
        boundsSecond := Sparse.put (fun _ => 0) s.dev.mem.boundsSecond req (s.dev.elapsed + 1) } } : Dev).eventAt 0x130C sevFault req
          [u32 req, u8 n, u64 off]
    (∀ len : Nat, s.dev.poolSize n < off + len →
      Completes (.hbmRead req n off len ups) s (fun d => d = dropped.emit (.memData req (List.replicate len 0) []))) ∧
    (∀ bytes : List Byte, s.dev.poolSize n < off + bytes.length → Completes (.hbmWrite req n off bytes ups) s (fun d => d = dropped))

/-- HBM_WRITE of a whole granule of 64 bytes within its pool, into memory without a fault whose buffers hold granules 0 to 191 (R432,
R433): the granule then reads as written, no register changes, and an HBM_READ of it that follows answers the bytes written, with no
poison. HBM_READ of any bytes within a pool, in memory without a fault: it answers the bytes of the pool, and nothing changes
but the power-down of the parts it wakes. -/
def Obligations.ReadReturnsWritten : Prop :=
  (∀ (s : State) (req req' : Fin 1024) (n : Fin 6) (off : Nat) (bytes : List Byte), bytes.length = 64 → off % 64 = 0 →
    off + 64 ≤ s.dev.poolSize n → s.dev.MemoryGood → s.dev.PoolFits n → (∀ b ∈ s.dev.mem.bufs, ∀ g ∈ b.gran, g.1 < 192) →
    Completes (.hbmWrite req n off bytes []) s (fun d =>
      d.poolRead n off 64 = bytes ∧ d.regs = s.dev.regs ∧
      Completes (.hbmRead req' n off 64 []) ⟨d, s.pending⟩ (fun e => e.out = d.out ++ [.memData req' bytes []]))) ∧
  (∀ (s : State) (req : Fin 1024) (n : Fin 6) (off len : Nat), off + len ≤ s.dev.poolSize n → s.dev.MemoryGood →
    Completes (.hbmRead req n off len []) s (fun d =>
      d = { s.dev with mem := { s.dev.mem with powerDown := d.mem.powerDown },
                       out := s.dev.out ++ [.memData req (s.dev.poolRead n off len) []] }))

/-- Byte `o` of a parity pool lies where R431 puts it. Writing a data byte keeps its stripe's parity at that byte. STRIPE_BUFFER_IDLE
(R433), without a fault: a buffer is written out with every byte of its pool reading as before and the parity of its stripe kept;
without a buffer nothing happens. SCRUB_STEP (R438) of a block of no stripe, without a fault: the scrubber's place moves on by one block
and PROGRESS shows it; the last block of a pass ends it, counts it, and the next begins. MEM_INJECT (R436) where it reaches its
register: the injection is armed for the block, and GO reads 1; for no pool GO reads 0. -/
def Obligations.ParityAndScrubbing : Prop :=
  (∀ (d : Dev) (n o : Nat), d.poolForm n = .parity →
    d.locate n o = ((o / 12288 % 4 + 1 + o % 12288 / 4096) % 4, d.poolBase n + 4096 * (o / 12288) + o % 4096)) ∧
  (∀ (d : Dev) (n x b i : Nat) (v : Byte), b < 3 → i < 4096 → d.poolBase n + 4096 * x + i < 2 ^ 36 → d.MemoryGood →
    d.ParityAt n x i → (d.stripeWrite n x b i v).ParityAt n x i ∧ (d.stripeWrite n x b i v).stripeByte n x b i = v) ∧
  (∀ (s : State) (n : Fin 6) (b : StripeBuf), s.dev.MemoryGood → s.dev.PoolFits n → s.dev.poolForm n = .parity → b.pool = n →
    12288 * (b.stripe + 1) ≤ s.dev.poolSize n → s.dev.mem.bufs = [b] → Sparse.wf (fun _ => []) b.gran = true →
    (∀ g ∈ b.gran, g.1 < 192 ∧ g.2.length = 64) →
    Completes (.stripeBufferIdle n b.stripe) s (fun d => d.mem.bufs = [] ∧ d.regs = s.dev.regs ∧
      (∀ o < s.dev.poolSize n, d.poolByte n o = s.dev.poolByte n o) ∧
      (∀ i < 4096, s.dev.ParityAt n b.stripe i → d.ParityAt n b.stripe i))) ∧
  (∀ (s : State) (n : Fin 6) (x : Nat), s.dev.bufOf? n x = none → Completes (.stripeBufferIdle n x) s (fun d => d = s.dev)) ∧
  (∀ s : State, s.dev.MemoryGood → s.dev.mem.scrubStack < 4 → s.dev.mem.scrubBlock < s.dev.stackBlocks →
    s.dev.stripeAt (64 * s.dev.mem.scrubBlock) = none →
    let done := s.dev.mem.scrubStack * s.dev.stackBlocks + s.dev.mem.scrubBlock + 1
    (done < 4 * s.dev.stackBlocks → Completes (.scrubStep []) s (fun d =>
      d.mem = { s.dev.mem with scrubStack := done / s.dev.stackBlocks, scrubBlock := done % s.dev.stackBlocks } ∧
      d.get F.MEM_SCRUB_STATUS_PROGRESS = done * 1000 / (4 * s.dev.stackBlocks) ∧
      ({ s.dev with mem := d.mem } : Dev).Only d [F.MEM_SCRUB_STATUS_PROGRESS])) ∧
    (done = 4 * s.dev.stackBlocks → s.dev.mem.scrubSkipped = [] → Completes (.scrubStep []) s (fun d =>
      d.mem.scrubStack = 0 ∧ d.mem.scrubBlock = 0 ∧ d.mem.scrubFrom = s.dev.elapsed ∧ d.mem.scrubFixed = 0 ∧
      d.get F.MEM_SCRUB_STATUS_PROGRESS = 0 ∧
      d.get F.MEM_SCRUB_STATUS_PASSES = (s.dev.get F.MEM_SCRUB_STATUS_PASSES + 1) % 65536))) ∧
  (∀ s : State, s.dev.Reaches R.MEM_INJ_CTRL →
    let n := s.dev.get F.MEM_INJ_CTRL_POOL
    let p := s.dev.locate n (64 * s.dev.get F.MEM_INJ_ADDR_OFFSET)
    (n < 6 → Completes .memInject s (fun d =>
      d.mem = { s.dev.mem with inject := some (blockKey p.1 p.2, s.dev.get F.MEM_INJ_CTRL_SYMBOLS) } ∧
      d.get F.MEM_INJ_CTRL_GO = 1 ∧ ({ s.dev with mem := d.mem } : Dev).Only d [F.MEM_INJ_CTRL_GO])) ∧
    (6 ≤ n → Completes .memInject s (fun d => d.get F.MEM_INJ_CTRL_GO = 0 ∧ s.dev.Only d [F.MEM_INJ_CTRL_GO])))

/-- MEM_REQUEST_TIMEOUT and HBM_PHY_ERROR (R439), with no other part failed: the pseudo-channel, or with the loss of its PHY the stack,
is fenced, DEGRADED reads 1, and only reports follow; a part already fenced changes nothing. The loss of a PHY while a
pseudo-channel of another stack is fenced, with a parity pool declared (R441): the device is in HOLD with cause MEMORY.
HBM_POWER_DOWN (R445): in BASK at rest an available pseudo-channel enters power-down; in any other mode nothing happens. -/
def Obligations.MemoryPartsFail : Prop :=
  (∀ (s : State) (h : Fin 4) (pc : Fin 32), (∀ k p : Nat, k < 4 → p < 32 → s.dev.pcOk k p = true) →
    let fenced := fun d : Dev => d.get (F.MEM_STACK_FAIL_PC h) = 2 ^ pc.val ∧ d.flag F.MEM_STATUS_DEGRADED = true ∧
      s.dev.Within d [F.MEM_STACK_FAIL_PC h, F.MEM_STATUS_DEGRADED]
    Completes (.memRequestTimeout h pc) s fenced ∧ Completes (.hbmPhyError h pc false) s fenced ∧
    Completes (.hbmPhyError h pc true) s (fun d => d.get (F.MEM_STACK_FAIL_PC h) = 0xFFFFFFFF ∧
      d.flag (F.MEM_STACK_STATUS_FAILED h) = true ∧ d.flag F.MEM_STATUS_DEGRADED = true ∧
      s.dev.Within d [F.MEM_STACK_FAIL_PC h, F.MEM_STACK_STATUS_FAILED h, F.MEM_STATUS_DEGRADED])) ∧
  (∀ (s : State) (h : Fin 4) (pc : Fin 32), s.dev.pcOk h pc = false →
    Completes (.memRequestTimeout h pc) s (fun d => d = s.dev) ∧ Completes (.hbmPhyError h pc false) s (fun d => d = s.dev)) ∧
  (∀ (s : State) (h : Fin 4) (pc : Fin 32) (k p : Nat), k < 4 → p < 32 → k ≠ h → s.dev.pcOk k p = false →
    s.dev.flag (F.MEM_STACK_STATUS_FAILED h) = false → s.dev.parityPools ≠ [] →
    s.dev.modeCode ≠ mBoot → s.dev.modeCode ≠ mHold → s.dev.modeCode ≠ mBrumate →
    Completes (.hbmPhyError h pc true) s (fun d => d.modeCode = mHold ∧ bitOf d.holdCauses causeMemory = true ∧
      d.get F.DEV_MODE_PREV = s.dev.modeCode)) ∧
  (∀ (s : State) (h : Fin 4) (pc : Fin 32),
    (s.dev.modeCode = mBask → s.dev.inTransition = false → s.dev.pcOk h pc = true →
      Completes (.hbmPowerDown h pc) s (fun d => Sparse.get (fun _ => false) d.mem.powerDown (32 * h.val + pc.val) = true ∧
        d = { s.dev with mem := { s.dev.mem with powerDown := d.mem.powerDown } })) ∧
    (s.dev.modeCode ≠ mBask → Completes (.hbmPowerDown h pc) s (fun d => d = s.dev)))

/-! ### Clocks (R447-R470) -/

/-- REF_MISSING_EDGE of a valid reference (R448): the standby's loss clears its VALID and reports (outside BRUMATE); the active one's,
with the other good, starts the switchover to that (R451); with the other not good, the device is in HOLD with cause CLOCK (R463). A reference that
is not enabled changes nothing (R447). REF_FREQ_WINDOW of a valid standby within 200 ppm: its PPM (R448). SWITCHOVER_RAMP_DONE
(R451) without REVERT, CLK_REF_SWITCH where it reaches its register (R450), HOLDOVER_WINDOW_END (R464), PLL_UNLOCK of
PLL_MAIN with its reference good (R459) and of a PLL that clocks no raster, OTHER_PLL_LOCK (R466), FALLBACK_CALIBRATION and
RO_WINDOW_FAIL while PLL_MAIN is locked (R462): each as its rule says. -/
def Obligations.ReferencesAndPlls : Prop :=
  (∀ (s : State) (r : Fin 2), s.dev.flag (refEn r) = false → Completes (.refMissingEdge r) s (fun d => d = s.dev)) ∧
  (∀ (s : State) (r : Fin 2), s.dev.roReady = true → s.dev.flag (refEn r) = true → s.dev.flag (refValid r) = true →
    s.dev.mainLocked = true → s.dev.bothLost = false → s.dev.modeCode ≠ mBrumate → s.dev.modeCode ≠ mBoot →
    (s.dev.activeRef ≠ r → Completes (.refMissingEdge r) s (fun d => d.flag (refValid r) = false ∧ d.get (refPpm r) = ppmNone ∧
      d.clk = { s.dev.clk with good := s.dev.clk.good.set r 0, edges := s.dev.clk.edges.set r false, lost := s.dev.clk.lost.set r true } ∧
      ({ s.dev with clk := d.clk } : Dev).Within d [refValid r, refPpm r])) ∧
    (s.dev.activeRef = r → s.dev.refOk (1 - r) = true → Completes (.refMissingEdge r) s (fun d =>
      d.flag (refValid r) = false ∧ d.activeRef = 1 - r ∧ d.flag F.CLK_REF_STATUS_HOLDOVER = true ∧
      d.flag F.CLK_REF_STATUS_SLEWING = true ∧ d.clk.from_ = r ∧ d.modeCode = s.dev.modeCode)) ∧
    (s.dev.activeRef = r → s.dev.refOk (1 - r) = false → s.dev.modeCode ≠ mHold → Completes (.refMissingEdge r) s (fun d =>
      d.modeCode = mHold ∧ bitOf d.holdCauses causeClock = true ∧ d.bothLost = true ∧ d.flag F.CLK_REF_STATUS_HOLDOVER = true))) ∧
  (∀ (s : State) (r : Fin 2) (ppm : Int) (edges : Bool), s.dev.roReady = true → s.dev.flag (refEn r) = true →
    s.dev.flag (refValid r) = true → s.dev.mainLocked = true → s.dev.bothLost = false → s.dev.activeRef ≠ r → ppm.natAbs ≤ 200 →
    Completes (.refFreqWindow r ppm edges) s (fun d => d.get (refPpm r) = ppmCode ppm ∧
      ({ s.dev with clk := { s.dev.clk with edges := s.dev.clk.edges.set r edges } } : Dev).Only d [refPpm r])) ∧
  (∀ (s : State) (ms : Nat), s.dev.flag F.CLK_REF_CFG_REVERT = false → s.dev.flag F.CLK_REF_STATUS_SLEWING = true →
    Completes (.switchoverRampDone ms) s (fun d => d.flag F.CLK_REF_STATUS_HOLDOVER = false ∧
      d.flag F.CLK_REF_STATUS_SLEWING = false ∧ d.get F.CLK_REF_CTRL_SWITCH = 0 ∧
      d.get F.CLK_CNT_SWITCHOVERS = (s.dev.get F.CLK_CNT_SWITCHOVERS + 1) % 65536 ∧
      s.dev.Within d [F.CLK_REF_STATUS_HOLDOVER, F.CLK_REF_STATUS_SLEWING, F.CLK_REF_CTRL_SWITCH, F.CLK_CNT_SWITCHOVERS])) ∧
  (∀ s : State, s.dev.Reaches R.CLK_REF_CTRL → s.dev.mainLocked = true → s.dev.bothLost = false →
    s.dev.flag F.CLK_REF_STATUS_HOLDOVER = false → s.dev.flag F.CLK_REF_STATUS_SLEWING = false →
    (s.dev.refOk (1 - s.dev.activeRef) = true → Completes .clkRefSwitch s (fun d => d.get F.CLK_REF_CTRL_SWITCH = 1 ∧
      d.activeRef = 1 - s.dev.activeRef ∧ d.flag F.CLK_REF_STATUS_SLEWING = true ∧ d.clk.from_ = s.dev.activeRef)) ∧
    (s.dev.refOk (1 - s.dev.activeRef) = false → Completes .clkRefSwitch s (fun d => d.get F.CLK_REF_CTRL_SWITCH = 0 ∧
      s.dev.Within d [F.CLK_REF_CTRL_SWITCH]))) ∧
  (∀ s : State, s.dev.bothLost = true → s.dev.clk.past = false → Completes .holdoverWindowEnd s (fun d =>
    d.clk.past = true ∧ d.word R.CLK_PLL_STATUS = 0 ∧ d.word R.CLK_PLL_STATUS2 = 0 ∧ d.flag F.CLK_REF_STATUS_HOLDOVER = false ∧
    d.mem.selfRefresh = true ∧ d.get F.MEM_STATUS_POWER = 2 ∧ d.ep0Up = false ∧ d.bothLost = true ∧ d.modeCode = s.dev.modeCode)) ∧
  (∀ s : State, s.dev.mainLocked = true → s.dev.bothLost = false → s.dev.refOk s.dev.activeRef = true → s.dev.roReady = true →
    s.dev.modeCode ≠ mBrumate → s.dev.modeCode ≠ mHold → s.dev.modeCode ≠ mBoot →
    Completes (.pllUnlock 0) s (fun d => d.mainLocked = false ∧ d.modeCode = mHold ∧ bitOf d.holdCauses causeClock = true)) ∧
  (∀ (s : State) (k : Fin 40), k.val = 1 ∨ k.val = 2 ∨ 8 ≤ k.val →
    let bit : Fld := if k.val < 30 then ⟨R.CLK_PLL_STATUS, k, 1⟩ else ⟨R.CLK_PLL_STATUS2, k - 30, 1⟩
    Completes (.pllUnlock k) s (fun d => d.flag bit = false ∧ s.dev.Only d [bit]) ∧
    (s.dev.mainLocked = true → Completes (.otherPllLock k) s (fun d => d.flag bit = true ∧ s.dev.Only d [bit])) ∧
    (s.dev.mainLocked = false → Completes (.otherPllLock k) s (fun d => d = s.dev))) ∧
  (∀ (s : State) (ps : Nat), s.dev.mainLocked = true → s.dev.roReady = true →
    (s.dev.flag F.CLK_REF_STATUS_HOLDOVER = false → 17800 ≤ ps → ps ≤ 35800 →
      Completes (.fallbackCalibration ps) s (fun d => d = { s.dev with clk := { s.dev.clk with cal := true } })) ∧
    Completes (.roWindowFail ps) s (fun d => d.roReady = false ∧ d.clk = { s.dev.clk with alwaysOn := true } ∧
      ({ s.dev with clk := d.clk } : Dev).Within d [F.CLK_REF_STATUS_RO_READY]))

/-- CLK_GATE and CLK_UNGATE where they reach `CLK_GATE_REQ` and no request waits (R468, R469): a gate of an instance that stands and is not
gated waits for its idle report with GO 1, one of no gateable instance ends with RESULT 1, and an ungate acts at once.
GATE_IDLE_STOP gates the instance of the waiting request; GATE_IDLE_TIMEOUT ends it with RESULT 2, counted and reported. FM_MEASURE
(R470) of a target that exists starts a measurement, of another none (R549); FM_DONE and FM_TIMEOUT end the one that runs with its count. -/
def Obligations.GatingAndMeter : Prop :=
  (∀ (s : State) (block inst : Fin 256), s.dev.Reaches R.CLK_GATE_REQ → s.dev.clk.gate = none →
    ((gateBit block inst).isSome = true → s.dev.gated block inst = false → s.dev.instRuns block inst = false →
      Completes (.clkGate block inst) s (fun d => d.clk = { s.dev.clk with gate := some (block.val, inst.val) } ∧
        d.get F.CLK_GATE_REQ_GO = 1 ∧ ({ s.dev with clk := d.clk } : Dev).Only d [wholeReg R.CLK_GATE_REQ])) ∧
    (gateBit block inst = none → Completes (.clkGate block inst) s (fun d => d.get F.CLK_GATE_REQ_RESULT = 1 ∧
      d.get F.CLK_GATE_REQ_GO = 0 ∧ s.dev.Only d [wholeReg R.CLK_GATE_REQ])) ∧
    ((gateBit block inst).isSome = true → Completes (.clkUngate block inst) s (fun d => d.gated block inst = false ∧
      d.get F.CLK_GATE_REQ_RESULT = 0 ∧ d.get F.CLK_GATE_REQ_GO = 0 ∧
      s.dev.Only d [wholeReg R.CLK_GATE_REQ, F.CLK_GATED0_GATED, F.CLK_GATED1_GATED]))) ∧
  (∀ (s : State) (block inst : Nat), s.dev.clk.gate = some (block, inst) →
    ((gateBit block inst).isSome = true → Completes .gateIdleStop s (fun d => d.gated block inst = true ∧
      d.clk = { s.dev.clk with gate := none } ∧ d.get F.CLK_GATE_REQ_GO = 0 ∧ d.get F.CLK_GATE_REQ_RESULT = 0)) ∧
    Completes .gateIdleTimeout s (fun d => d.clk = { s.dev.clk with gate := none } ∧ d.get F.CLK_GATE_REQ_GO = 0 ∧
      d.get F.CLK_GATE_REQ_RESULT = 2 ∧ d.get F.CLK_CNT_GATE_BUSY = (s.dev.get F.CLK_CNT_GATE_BUSY + 1) % 256 ∧
      ({ s.dev with clk := d.clk } : Dev).Within d [F.CLK_GATE_REQ_GO, F.CLK_GATE_REQ_RESULT, F.CLK_CNT_GATE_BUSY])) ∧
  (∀ (s : State) (target ref : Fin 32) (sel : Fin 128), s.dev.Reaches R.CLK_FM_CFG →
    Completes (.fmMeasure target ref sel) s (fun d => d.get F.CLK_FM_CFG_TARGET = target ∧ d.get F.CLK_FM_CFG_REF = ref ∧
      d.get F.CLK_FM_CFG_SEL = sel ∧ d.flag F.CLK_FM_CFG_GO = decide (target.val < 28) ∧ s.dev.Only d [wholeReg R.CLK_FM_CFG] ∧
      (target.val < 28 → d.get F.CLK_FM_CFG_DONE = 0 ∧ d.get F.CLK_FM_CFG_TIMEOUT = 0))) ∧
  (∀ (s : State) (count : Nat), s.dev.flag F.CLK_FM_CFG_GO = true →
    Completes (.fmDone count) s (fun d => d.get F.CLK_FM_RESULT_COUNT = count % 2 ^ 32 ∧ d.get F.CLK_FM_CFG_GO = 0 ∧
      d.get F.CLK_FM_CFG_DONE = 1 ∧ s.dev.Only d [F.CLK_FM_RESULT_COUNT, F.CLK_FM_CFG_GO, F.CLK_FM_CFG_DONE]) ∧
    Completes (.fmTimeout count) s (fun d => d.get F.CLK_FM_RESULT_COUNT = count % 2 ^ 32 ∧ d.get F.CLK_FM_CFG_GO = 0 ∧
      d.get F.CLK_FM_CFG_TIMEOUT = 1 ∧ s.dev.Only d [F.CLK_FM_RESULT_COUNT, F.CLK_FM_CFG_GO, F.CLK_FM_CFG_TIMEOUT]))

/-! ### Supplies and temperature (R439, R444, R476-R482, R488-R491) -/

/-- AVS_UPDATE (R476, R478) while the loop may run and is enabled, the bus has not failed, and the target lies below VMAX_MV: the slacks are
shown, and a smallest slack below TGT_TAPS raises the target by 5 mV for each tap it lacks, at most four and not above
VMAX_MV, which the regulator bus carries; where the loop may not run nothing happens. AVS_COMMAND_RESPONSE of a command sent: success ends it; a
failure counts, asks for it again, and the third in a row sets BUS_FAIL. DROOP_DETECT stretches the clock and counts; STRETCH_END
ends that (R479). RAIL_WARN_CROSSING of an armed rail below its threshold and PFAIL_FALL, while no WARN stands and nothing is recorded, set
their cause and WARN_ACTIVE and count (R480, R482); WARN_CLEAR clears both. RAIL_TELEMETRY_UPDATE shows the eight rails. -/
def Obligations.SupplyCommands : Prop :=
  (∀ (s : State) (slacks : List Nat), s.dev.loopPowered = false → Completes (.avsUpdate slacks) s (fun d => d = s.dev)) ∧
  (∀ (s : State) (slacks : List Nat), s.dev.loopPowered = true → s.dev.flag F.PWR_AVS_CFG_EN = true →
    s.dev.flag F.PWR_AVS_STATUS_BUS_FAIL = false → s.dev.targetMv < s.dev.vmaxMv →
    let m := ((List.range 64).map (fun i => min 31 (slacks.getD i 31))).foldl min 31
    m < s.dev.get F.PWR_AVS_CFG_TGT_TAPS →
    let new := min (s.dev.targetMv + 5 * max 1 (min (s.dev.get F.PWR_AVS_CFG_TGT_TAPS - m) 4)) s.dev.vmaxMv
    Completes (.avsUpdate slacks) s (fun d => d.targetMv = new ∧ d.get F.PWR_AVS_STATUS_MIN_SLACK = m ∧
      (∀ i < 64, d.get (F.PWR_MON_SLACK i) = min 31 (slacks.getD i 31)) ∧ d.pwr.sent = some new ∧
      d.out = s.dev.out ++ [.regulator (s.dev.get F.PWR_BUS_CFG_MODE) new])) ∧
  (∀ (s : State) (mv : Nat), s.dev.pwr.sent = some mv →
    Completes (.avsCommandResponse true) s (fun d => d.get F.PWR_AVS_STATUS_BUS_FAIL = 0 ∧
      ({ s.dev with pwr := { s.dev.pwr with sent := none, again := false, fails := 0 } } : Dev).Only d [F.PWR_AVS_STATUS_BUS_FAIL]) ∧
    Completes (.avsCommandResponse false) s (fun d =>
      d.pwr = { s.dev.pwr with sent := none, again := true, fails := s.dev.pwr.fails + 1 } ∧
      d.get F.PWR_AVS_CNT_BUS_ERRS = (s.dev.get F.PWR_AVS_CNT_BUS_ERRS + 1) % 65536 ∧
      (s.dev.pwr.fails = 2 → d.flag F.PWR_AVS_STATUS_BUS_FAIL = true) ∧
      (s.dev.pwr.fails ≠ 2 → d.get F.PWR_AVS_STATUS_BUS_FAIL = s.dev.get F.PWR_AVS_STATUS_BUS_FAIL))) ∧
  (∀ (s : State) (m : Fin 64), s.dev.loopPowered = true → Completes (.droopDetect m) s (fun d =>
    d.flag F.PWR_AVS_STATUS_STRETCH = true ∧ d.get F.PWR_AVS_CNT_DROOPS = (s.dev.get F.PWR_AVS_CNT_DROOPS + 1) % 65536 ∧
    d.get (F.PWR_MON_DROOPS m) = (s.dev.get (F.PWR_MON_DROOPS m) + 1) % 256 ∧ d.pwr.droop = true ∧
    ({ s.dev with pwr := d.pwr } : Dev).Within d [F.PWR_AVS_STATUS_STRETCH, F.PWR_AVS_CNT_DROOPS, F.PWR_MON_DROOPS m])) ∧
  (∀ s : State, Completes .stretchEnd s (fun d => d.get F.PWR_AVS_STATUS_STRETCH = 0 ∧ s.dev.Only d [F.PWR_AVS_STATUS_STRETCH])) ∧
  (∀ (s : State) (rail : Fin 3) (mv : Nat), s.dev.flag F.PWR_RAIL_STATUS_WARN_ACTIVE = false → s.dev.flag F.REC_CFG_EN = false →
    let warned := fun (bit : Nat) (d : Dev) => d.get ⟨R.PWR_RAIL_STATUS, bit, 1⟩ = 1 ∧
      d.flag F.PWR_RAIL_STATUS_WARN_ACTIVE = true ∧ d.get F.PWR_WARN_CNT_WARNS = (s.dev.get F.PWR_WARN_CNT_WARNS + 1) % 65536 ∧
      d.pwr = { s.dev.pwr with warnFrom := s.dev.elapsed } ∧
      ({ s.dev with pwr := d.pwr } : Dev).Within d [⟨R.PWR_RAIL_STATUS, bit, 1⟩, F.PWR_RAIL_STATUS_WARN_ACTIVE, F.PWR_WARN_CNT_WARNS]
    (s.dev.railArmed rail = true → mv < s.dev.warnMv rail → Completes (.railWarnCrossing rail mv) s (warned rail)) ∧
    Completes .pfailFall s (warned 3)) ∧
  (∀ (s : State) (rail : Fin 3) (mv : Nat), s.dev.railArmed rail = false ∨ s.dev.warnMv rail ≤ mv →
    Completes (.railWarnCrossing rail mv) s (fun d => d = s.dev)) ∧
  (∀ s : State, s.dev.flag F.PWR_RAIL_STATUS_WARN_ACTIVE = true → Completes .warnClear s (fun d =>
    d.get ⟨R.PWR_RAIL_STATUS, 0, 5⟩ = 0 ∧ s.dev.Within d [⟨R.PWR_RAIL_STATUS, 0, 5⟩])) ∧
  (∀ (s : State) (mvs : List Nat), Completes (.railTelemetryUpdate mvs) s (fun d =>
    (∀ i < 8, d.get (F.PWR_RAIL_MV_MV i) = min 4095 (mvs.getD i 0)) ∧ s.dev.Only d ((List.range 8).map F.PWR_RAIL_MV_MV)))

/-- THERMAL_SAMPLE (R488-R490) of 40 plausible readings within 15 °C of each other, with no sensor excluded, while the core is powered: each is
shown and valid, no sensor is excluded, and HOTTEST is no less than any of them; without the core's power nothing happens.
RISE_CHECK (R491) with fewer than ten readings notes the hottest; with the full history and a rise above RISE_LIMIT it sets
EARLY. THERM_RISE_WRITE where it reaches its register sets RISE_LIMIT, and 0 ends EARLY. STACK_TEMP_READ of a good stack with a plausible
reading: it is shown and valid, and REFRESH rises at once with it (R444); a failed stack changes nothing.
STACK_TEMP_TIMEOUT with no other part failed: the stack is fenced and its reading excluded (R439). -/
def Obligations.ThermalCommands : Prop :=
  (∀ (s : State) (temps : List Int), s.dev.corePowered = false → Completes (.thermalSample temps) s (fun d => d = s.dev)) ∧
  (∀ (s : State) (temps : List Int), s.dev.corePowered = true → temps.length = 40 → (∀ t ∈ temps, -400 ≤ t ∧ t ≤ 1200) →
    (∀ t ∈ temps, ∀ u ∈ temps, (t - u).natAbs ≤ 120) → s.dev.therm.bad = List.replicate 40 false →
    Completes (.thermalSample temps) s (fun d => d.therm.bad = s.dev.therm.bad ∧
      ∀ n < 40, d.tsTemp n = temps.getD n 0 ∧ d.tsOk n = true ∧ temps.getD n 0 ≤ d.hottestNow)) ∧
  (∀ s : State, s.dev.corePowered = true →
    let h := s.dev.therm.hms.getD s.dev.hottestNow
    let now := ((h :: s.dev.therm.ms).take 10).foldl (· + ·) 0 |>.tdiv 10
    (s.dev.therm.ms.length < 9 → Completes .riseCheck s (fun d =>
      d = { s.dev with therm := { s.dev.therm with ms := h :: s.dev.therm.ms, hms := none } })) ∧
    (9 ≤ s.dev.therm.ms.length → 100 ≤ s.dev.therm.hist.length → s.dev.get F.THERM_RISE_RISE_LIMIT ≠ 0 →
      (s.dev.get F.THERM_RISE_RISE_LIMIT : Int) < now - s.dev.therm.hist.getD 99 0 → Completes .riseCheck s (fun d =>
        d.flag F.THERM_STATUS_EARLY = true ∧ d.therm.calm = 0 ∧ d.therm.hist = (now :: s.dev.therm.hist).take 101 ∧
        (s.dev.flag F.THERM_STATUS_EARLY = false → d.get F.THERM_CNT_EARLIES = (s.dev.get F.THERM_CNT_EARLIES + 1) % 65536) ∧
        ({ s.dev with therm := d.therm } : Dev).Within d [F.THERM_STATUS_EARLY, F.THERM_CNT_EARLIES]))) ∧
  (∀ (s : State) (lim : Fin 256), s.dev.Reaches R.THERM_RISE → Completes (.thermRiseWrite lim) s (fun d =>
    d.get F.THERM_RISE_RISE_LIMIT = lim ∧
    (lim.val ≠ 0 → s.dev.Only d [F.THERM_RISE_RISE_LIMIT]) ∧
    (lim.val = 0 → d.get F.THERM_STATUS_EARLY = 0 ∧
      ({ s.dev with therm := { s.dev.therm with calm := 0 } } : Dev).Only d [F.THERM_RISE_RISE_LIMIT, F.THERM_STATUS_EARLY]))) ∧
  (∀ (s : State) (h : Fin 4) (t : Int) (ok : Bool), s.dev.flag (F.MEM_STACK_STATUS_FAILED h) = true →
    Completes (.stackTempRead h t ok) s (fun d => d = s.dev)) ∧
  (∀ (s : State) (h : Fin 4) (t : Int), s.dev.corePowered = true → s.dev.flag (F.MEM_STACK_STATUS_FAILED h) = false →
    -400 ≤ t → t ≤ 1200 → Completes (.stackTempRead h t true) s (fun d => d.hbmTemp h = t ∧
      d.flag (F.THERM_HBM_VALID h) = true ∧ d.get (F.MEM_STACK_STATUS_TEMP_C h) = toBits 8 (clampInt (t / 8) (-128) 127) ∧
      (s.dev.get (F.MEM_STACK_STATUS_REFRESH h) < refreshCode t → d.get (F.MEM_STACK_STATUS_REFRESH h) = refreshCode t) ∧
      t ≤ d.hottestNow)) ∧
  (∀ (s : State) (h : Fin 4), (∀ k p : Nat, k < 4 → p < 32 → s.dev.pcOk k p = true) →
    Completes (.stackTempTimeout h) s (fun d => d.flag (F.MEM_STACK_STATUS_FAILED h) = true ∧
      d.get (F.MEM_STACK_FAIL_PC h) = 0xFFFFFFFF ∧ d.flag (F.THERM_HBM_VALID h) = false ∧ d.modeCode = s.dev.modeCode))

/-! ### Engines that fail, block resets and the scheduler (R31-R36, R69-R73, R313, R332-R337, R500-R503) -/

/-- DE_FAULT and ZE_FAULT (R501-R503): a fault of a fenced engine changes nothing; one of an engine whose quadrant's spare is free fences it
alone, gives the spare its work and counts in the keep store; one of a DE whose spare is in use, from a mode that can hold, leaves the device in
HOLD with cause CAPACITY. STRIPE_WATCHDOG and TILE_WATCHDOG act as those on an engine with work, and not at all on one without.
DE_CATCH_UP_DONE: the substitution is over, and its RAW_RING entry is free of it. FAULT_INJECT where it reaches its register: a
refused kind gives RESULT 3, a DE that does not exist RESULT 1, and a DE in use with a free spare fails with RESULT 0. -/
def Obligations.DevelopAndCompressionFaults : Prop :=
  (∀ (s : State) (e : Fin 20),
    (s.dev.fenced5 .de e = true → Completes (.deFault e) s (fun d => d = s.dev)) ∧
    (s.dev.fenced5 .ze e = true → Completes (.zeFault e) s (fun d => d = s.dev)) ∧
    (s.dev.deWork e = none → Completes (.stripeWatchdog e) s (fun d => d = s.dev)) ∧
    ((s.dev.deWork e).isSome = true →
      Completes (.stripeWatchdog e) s (fun d => exec (.deFault e) s = .next ⟨d, s.pending⟩)) ∧
    (s.dev.ze.queues.getD e [] = [] → Completes (.tileWatchdog e) s (fun d => d = s.dev)) ∧
    (s.dev.ze.queues.getD e [] ≠ [] →
      Completes (.tileWatchdog e) s (fun d => exec (.zeFault e) s = .next ⟨d, s.pending⟩))) ∧
  (∀ (s : State) (e : Fin 20), e.val % 5 ≠ 4 →
    let sp := e.val / 5 * 5 + 4
    (s.dev.fenced5 .de e = false → s.dev.spareUsed5 .de (e / 5) = false → Completes (.deFault e) s (fun d =>
      d.spare5 .de (e / 5) = (true, e.val) ∧ (∀ x < 20, d.fenced5 .de x = (x == e.val || s.dev.fenced5 .de x)) ∧
      d.deSets = s.dev.deSets.map (fun l => l.map (fun x => if x = e.val then sp else x)) ∧
      d.keepNat 0x782020 4 = min (s.dev.keepNat 0x782020 4 + 1) 0xFFFFFFFF ∧ d.modeCode = s.dev.modeCode)) ∧
    (s.dev.fenced5 .de e = false → s.dev.spareUsed5 .de (e / 5) = true → s.dev.spare5 .de (e / 5) ≠ (true, e.val) →
      s.dev.modeCode ≠ mBoot → s.dev.modeCode ≠ mHold → s.dev.modeCode ≠ mBrumate → Completes (.deFault e) s (fun d =>
        d.modeCode = mHold ∧ bitOf d.holdCauses causeCapacity = true ∧ d.fenced5 .de e = true)) ∧
    (s.dev.fenced5 .ze e = false → s.dev.spareUsed5 .ze (e / 5) = false → s.dev.ze.queues.length = 20 →
      Completes (.zeFault e) s (fun d =>
        d.spare5 .ze (e / 5) = (true, e.val) ∧ (∀ x < 20, d.fenced5 .ze x = (x == e.val || s.dev.fenced5 .ze x)) ∧
        d.ze.queues.getD e [] = [] ∧
        d.ze.queues.getD sp [] = s.dev.ze.queues.getD sp [] ++ s.dev.ze.queues.getD e [] ∧
        d.keepNat 0x782020 4 = min (s.dev.keepNat 0x782020 4 + 1) 0xFFFFFFFF))) ∧
  (∀ (s : State) (q : Fin 4), (s.dev.srv.deSubs.getD q none = none → Completes (.deCatchUpDone q) s (fun d => d = s.dev)) ∧
    ∀ x, s.dev.srv.deSubs.getD q none = some x →
      let over_ : Dev := { s.dev with
        srv := { s.dev.srv with deSubs := s.dev.srv.deSubs.set q none },
        rawEntries := s.dev.rawEntries.map (fun r => if r.ctx = x.ctx ∧ r.fseq = x.fseq then { r with sub := false } else r) }
      Completes (.deCatchUpDone q) s (fun d => (x.quiet = true → d = over_) ∧ (x.quiet = false → over_.Reports d))) ∧
  (∀ (s : State) (e : Fin 128), s.dev.Reaches R.DEV_FAULT_INJ →
    Completes (.faultInject 0 e) s (fun d => d.get F.DEV_FAULT_INJ_RESULT = 3 ∧ d.get F.DEV_FAULT_INJ_GO = 0 ∧
      d.get F.DEV_FAULT_INJ_ENGINE = e ∧ s.dev.Only d [wholeReg R.DEV_FAULT_INJ]) ∧
    (20 ≤ e.val → Completes (.faultInject 1 e) s (fun d => d.get F.DEV_FAULT_INJ_RESULT = 1 ∧
      s.dev.Only d [wholeReg R.DEV_FAULT_INJ])) ∧
    (e.val < 20 → e.val % 5 ≠ 4 → s.dev.fenced5 .de e = false → (∃ l ∈ s.dev.deSets, e.val ∈ l) →
      s.dev.spareUsed5 .de (e / 5) = false → Completes (.faultInject 1 e) s (fun d =>
        d.get F.DEV_FAULT_INJ_RESULT = 0 ∧ d.fenced5 .de e = true ∧ d.spare5 .de (e / 5) = (true, e.val))))

/-- VE_FAULT of an engine that is not fenced and whose quadrant's spare is free (R313): it is fenced and idle, the spare replaces it, and the
rows that were in progress wait to be re-run. ROW_WATCHDOG: a LIVE row past FACTOR / 64 of its row time, pauses not
counted, fails the engine; an engine without a row changes nothing. CHECKPOINT_READ_DONE: nothing without a substitution or once
read; a LIVE row that was interrupted starts again on the spare from its first unit. -/
def Obligations.CodingEngineFaults : Prop :=
  (∀ (s : State) (e : Fin 68), e.val % 17 ≠ 16 → s.dev.veFenced e = false → s.dev.veSpareUsed (e / 17) = false →
    s.dev.code.subs.length = 4 → Completes (.veFault e) s (fun d =>
      (∀ x < 68, d.veFenced x = (x == e.val || s.dev.veFenced x)) ∧ d.veSpare (e / 17) = (true, e.val) ∧
      d.ve e = {} ∧ d.code.subs.getD (e / 17) none = some { eng := e, jobs := (s.dev.ve e).jobs } ∧
      d.keepNat 0x782020 4 = min (s.dev.keepNat 0x782020 4 + 1) 0xFFFFFFFF ∧ d.modeCode = s.dev.modeCode)) ∧
  (∀ (s : State) (e : Fin 68), (s.dev.ve e).live = none → (s.dev.ve e).other = none →
    Completes (.rowWatchdog e) s (fun d => d = s.dev)) ∧
  (∀ (s : State) (e : Fin 68) (j : RowJob), (s.dev.ve e).live = some j →
    max 72 (s.dev.get F.VE_ROW_WDOG_FACTOR) * s.dev.rowNs j.ses < 64 * (s.dev.elapsed - j.start - j.paused) →
    Completes (.rowWatchdog e) s (fun d => exec (.veFault e) s = .next ⟨d, s.pending⟩)) ∧
  (∀ (s : State) (q : Fin 4), (∀ x, s.dev.code.subs.getD q none = some x → x.read = true) →
    Completes (.checkpointReadDone q) s (fun d => d = s.dev)) ∧
  (∀ (s : State) (q : Fin 4) (x : VeSub) (j : RowJob) (p : PicSt), s.dev.code.subs.getD q none = some x → x.read = false →
    x.jobs = [j] → s.dev.sesClass j.ses = classLive → s.dev.pic? j.ses j.c = some p → j.row < p.rows.length →
    s.dev.code.ve.length = 68 → s.dev.code.subs.length = 4 → Completes (.checkpointReadDone q) s (fun d =>
      (d.ve (veSpareOf q)).live = some { j with start := s.dev.elapsed, paused := 0, pausedAt := s.dev.elapsed } ∧
      d.code.subs.getD q none = some { x with read := true } ∧
      (d.pic? j.ses j.c).map (fun p => ((p.row j.row).state, (p.row j.row).units, (p.row j.row).spent)) = some (3, 0, 0)))

/-- BLOCK_RESET where it reaches its register and none runs (R69, R71-R73): an instance that the table of R71 does not hold only clears GO,
one that R72 refuses clears it with a report, and an audio port is reset: its FIFO is empty, its class V fields hold their reset
values, every other field stays, and BUSY reads 1; while one runs nothing changes. BLOCK_RESET_DONE with nothing held or lent ends it.
SCHEDULER_TICK (R31): in a mode without ticks nothing happens; otherwise it is counted, the load level moves by at most one and
rises only with LAG and BUSY at UP_PERMILLE (R334), and LEVEL shows the greater of it and the thermal floor (R336). SESSION_MIGRATION: a marked session
outside a group at its boundary takes its new engines, counted; elsewhere, or unmarked, it stays. -/
def Obligations.ResetsOfBlocksAndScheduling : Prop :=
  (∀ (s : State) (block inst : Fin 256), s.dev.Reaches R.DEV_BLOCK_RESET →
    (s.dev.blockReset.isSome = true → Completes (.blockReset block inst) s (fun d => d = s.dev)) ∧
    (s.dev.blockReset = none → resetCount block ≤ inst → Completes (.blockReset block inst) s (fun d =>
      d.get F.DEV_BLOCK_RESET_GO = 0 ∧ s.dev.Only d [wholeReg R.DEV_BLOCK_RESET])) ∧
    (s.dev.blockReset = none → inst < resetCount block → s.dev.loanRefused block inst = true →
      Completes (.blockReset block inst) s (fun d =>
        d.get F.DEV_BLOCK_RESET_GO = 0 ∧ d.blockReset = none ∧ s.dev.Within d [wholeReg R.DEV_BLOCK_RESET]))) ∧
  (∀ (s : State) (inst : Fin 256), s.dev.Reaches R.DEV_BLOCK_RESET → s.dev.Canonical → s.dev.blockReset = none → inst.val < 8 →
    Completes (.blockReset 0x12 inst) s (fun d =>
      d.blockReset = some { block := 0x12, inst := inst } ∧ d.get F.DEV_BLOCK_RESET_BUSY = 1 ∧
      d.aud.ports = s.dev.aud.ports.modify inst (fun _ => {}) ∧
      ∀ a, a ≠ R.DEV_BLOCK_RESET → ∀ f ∈ fieldsAt a, d.get ⟨a, f.lo, f.width⟩ =
        if instOf a = some (0x12, inst.val) ∧ keepBlock f = false then (resetWord a).field f.lo f.width
        else s.dev.get ⟨a, f.lo, f.width⟩)) ∧
  (∀ s : State, s.dev.blockReset = none → Completes .blockResetDone s (fun d => d = s.dev)) ∧
  (∀ (s : State) (b : BlockResetSt), s.dev.blockReset = some b → b.held = [] → b.loan = false →
    Completes .blockResetDone s (fun d => d.blockReset = none ∧ d.get F.DEV_BLOCK_RESET_GO = 0 ∧
      d.get F.DEV_BLOCK_RESET_BUSY = 0)) ∧
  (∀ s : State, s.dev.ticks = false → Completes .schedulerTick s (fun d => d = s.dev)) ∧
  (∀ s : State, s.dev.ticks = true → s.dev.running.length ≤ 256 → s.dev.shed.load ≤ s.dev.topLevel →
    Completes .schedulerTick s (fun d =>
      d.get F.DEV_SCHED_STATUS_TICKS = (s.dev.get F.DEV_SCHED_STATUS_TICKS + 1) % 65536 ∧
      d.shed.load ≤ s.dev.shed.load + 1 ∧ s.dev.shed.load ≤ d.shed.load + 1 ∧
      (s.dev.shed.load < d.shed.load → 0 < (s.dev.bump F.DEV_SCHED_STATUS_TICKS).lag ∧
        s.dev.get F.DEV_SHED_CFG_UP_PERMILLE ≤ s.dev.busyPermille) ∧
      d.get F.DEV_SHED_STATUS_LEVEL = max d.shed.load (d.get F.DEV_SHED_STATUS_THERM_FLOOR) ∧ d.modeCode = s.dev.modeCode)) ∧
  (∀ (s : State) (x : Fin 256), ((s.dev.ses x).marked = none → Completes (.sessionMigration x) s (fun d => d = s.dev)) ∧
    ∀ es, (s.dev.ses x).run = true → (s.dev.ses x).marked = some es → s.dev.sesGroup x = none →
      (s.dev.atGopBoundary x = false → Completes (.sessionMigration x) s (fun d => d = s.dev)) ∧
      (s.dev.atGopBoundary x = true → Completes (.sessionMigration x) s (fun d =>
        d.ses x = { s.dev.ses x with engines := es, marked := none } ∧
        d.get F.DEV_SCHED_STATUS_MIGRATIONS = (s.dev.get F.DEV_SCHED_STATUS_MIGRATIONS + 1) % 256)))

/-! ### Coding sessions and decoders (R288-R344) -/

/-- SES_START and SES_STOP where they reach their register (R291, R299): outside the coding modes RESULT 2; a session outside a group that is
well configured and admitted runs with RESULT 0, and one that a check of R299 refuses stays stopped with RESULT 1; a stop without
pictures in progress is complete at once, with some it waits for them. PICTURE_START (R317): nothing while the session does not run or has two
pictures in progress; with the next picture and its source known the picture joins those in progress. DECODER_ACCESS_UNIT
(R338, R344): a stopped decoder takes nothing, one whose next buffer is held stalls, and one fed by a flow takes the oldest unit.
DECODER_PICTURE_DONE (R340): nothing on a stopped decoder; otherwise the picture and its record are numbered on, and its access unit is gone. -/
def Obligations.SessionsAndDecoders : Prop :=
  (∀ (s : State) (x : Fin 256), s.dev.Reaches R.VE_SES_CMD →
    let cmd := [F.VE_SES_CMD_SES, F.VE_SES_CMD_OP, F.VE_SES_CMD_RESULT]
    (s.dev.codes = false →
      Completes (.sesStart x) s (fun d => d.get F.VE_SES_CMD_RESULT = 2 ∧ s.dev.Only d cmd) ∧
      Completes (.sesStop x) s (fun d => d.get F.VE_SES_CMD_RESULT = 2 ∧ s.dev.Only d cmd)) ∧
    (s.dev.codes = true → s.dev.flag (F.SES_CFG_EN x) = true → (s.dev.ses x).run = false → s.dev.sesGroup x = none →
      s.dev.isRefused (R.SES_CFG x) = false → s.dev.sesBad x = none →
      (s.dev.admitFails s.dev.veActive.length (x.val :: s.dev.running) (some x.val) = none →
        Completes (.sesStart x) s (fun d => (d.ses x).run = true ∧ (d.ses x).first = 0 ∧ (d.ses x).pics = [] ∧
          d.get (F.SES_STATUS_STATE x) = 1 ∧ d.get F.VE_SES_CMD_RESULT = 0)) ∧
      (∀ why, s.dev.admitFails s.dev.veActive.length (x.val :: s.dev.running) (some x.val) = some why →
        Completes (.sesStart x) s (fun d => d.get F.VE_SES_CMD_RESULT = 1 ∧ s.dev.Within d cmd))) ∧
    (s.dev.codes = true → (s.dev.ses x).run = false →
      Completes (.sesStop x) s (fun d => d.get F.VE_SES_CMD_RESULT = 2 ∧ s.dev.Only d cmd)) ∧
    (s.dev.codes = true → (s.dev.ses x).run = true → Completes (.sesStop x) s (fun d =>
      d.get F.VE_SES_CMD_RESULT = 0 ∧
      ((s.dev.ses x).pics = [] → (d.ses x).run = false ∧ d.get (F.SES_STATUS_STATE x) = 0) ∧
      ((s.dev.ses x).pics ≠ [] → d.ses x = { s.dev.ses x with order := [] } ∧ d.get (F.SES_STATUS_STATE x) = 3)))) ∧
  (∀ (s : State) (x : Fin 256) (hdr : Nat), (s.dev.ses x).run = false ∨ 1 < (s.dev.ses x).pics.length →
    Completes (.pictureStart x hdr) s (fun d => d = s.dev)) ∧
  (∀ (s : State) (x : Fin 256) (hdr n pos type : Nat) (d1 d2 : Dev) (src : SrcSel), (s.dev.ses x).run = true →
    s.dev.get (F.SES_STATUS_STATE x) ≠ 3 → (s.dev.ses x).pics.length ≤ 1 →
    Dev.nextPic 64 (s.dev.jobKeys x) x = (d1, some (n, pos, type)) → d1.pickSource x n = (d2, some src) →
    Completes (.pictureStart x hdr) s (fun d => (d.ses x).coded = (d2.ses x).coded + 1 ∧ (d.ses x).lastPos = pos ∧
      (d.ses x).pics.length = (d2.ses x).pics.length + 1 ∧
      (d.ses x).pics.getLast?.map (fun p => (p.n, p.pos, p.src)) = some (n, pos, src))) ∧
  (∀ (s : State) (k : Fin 16) (rap : Bool),
    ((s.dev.decoder k).run = false → Completes (.decoderAccessUnit k rap) s (fun d => d = s.dev)) ∧
    ((s.dev.decoder k).run = true → s.dev.bufHeld (decBufKey k (s.dev.decoder k).nextBuf) = true →
      Completes (.decoderAccessUnit k rap) s (fun d => d.get (F.DEC_STATUS_STATE k) = 3 ∧ s.dev.Only d [F.DEC_STATUS_STATE k])) ∧
    (∀ u rest, (s.dev.decoder k).run = true → s.dev.bufHeld (decBufKey k (s.dev.decoder k).nextBuf) = false →
      s.dev.flag (F.DEC_CFG_SRC k) = false → (s.dev.decoder k).fifo = u :: rest → u.2.2.2 = false → s.dev.decs.length = 16 →
      Completes (.decoderAccessUnit k true) s (fun d => d.get (F.DEC_STATUS_STATE k) = 2 ∧
        ({ s.dev with decs := s.dev.decs.modify k (fun x => { x with fifo := rest, waitRap := false, input := x.input ++ [u] }) } :
          Dev).Only d [F.DEC_STATUS_STATE k]))) ∧
  (∀ (s : State) (k : Fin 16) (p : DecPic),
    ((s.dev.decoder k).run = false → Completes (.decoderPictureDone k p) s (fun d => d = s.dev)) ∧
    ((s.dev.decoder k).run = true → p.au < (s.dev.decoder k).input.length → s.dev.decs.length = 16 →
      s.dev.bufHeld (decBufKey k (s.dev.decoder k).nextBuf) = false → Completes (.decoderPictureDone k p) s (fun d =>
        (d.decoder k).nextPic = ((s.dev.decoder k).nextPic + 1) % 2 ^ 32 ∧
        (d.decoder k).nextBuf = ((s.dev.decoder k).nextBuf + 1) % max 1 (s.dev.get (F.DEC_OUT_RING_BUFS k)) ∧
        (d.decoder k).input = (s.dev.decoder k).input.eraseIdx p.au ∧ (d.decoder k).lost = false ∧
        d.get (F.DEC_IDX_REC_PROD k) = (s.dev.get (F.DEC_IDX_REC_PROD k) + 1) % 65536 ∧
        d.get (F.DEC_STATUS_STATE k) = 2)))

/-- ROW_READY of a row that R295 makes ready (R296, R297): a LIVE row whose engine started the session's last row less than three row times ago
waits, and on an idle engine any other row starts at once. LIVE_ROW_RELEASE releases the oldest row that waits. UNIT_BOUNDARY: an idle
engine does nothing, a row of another class pauses for a LIVE row that is ready, and otherwise one unit of the row is coded (R324).
ROW_DONE, with no work to return: nothing before every unit of the row is coded, and then its engine time counts and, with rows of the picture
left, its bytes stand. ANALYSIS_DONE (R303): nothing in a group that does not run; with its source known the picture is analysed. -/
def Obligations.RowsAndAnalysis : Prop :=
  (∀ (s : State) (x : Fin 256) (row : Nat) (p : PicSt), (s.dev.ses x).pics = [p] → (p.row row).state = 0 → row < p.rows.length →
    s.dev.rowReady x p row = true → p.engine row < 68 → s.dev.code.ve.length = 68 →
    let e := p.engine row
    (∀ t, s.dev.sesClass x = classLive → (s.dev.ve e).lastLive = some t → s.dev.elapsed < t + 3 * s.dev.rowNs x →
      Completes (.rowReady x 0 row) s (fun d =>
        (d.ve e).held = (s.dev.ve e).held ++ [{ ses := x, c := p.c, row := row, ready := s.dev.elapsed, release := s.dev.elapsed }] ∧
        (d.pic? x p.c).map (fun p => (p.row row).state) = some 1)) ∧
    (e % 17 ≠ 16 → (s.dev.ve e) = {} → Completes (.rowReady x 0 row) s (fun d =>
      (d.pic? x p.c).map (fun p => (p.row row).state) = some 3 ∧ (d.ve e).queue = [] ∧
      ((s.dev.sesClass x = classLive → (d.ve e).live.isSome = true) ∧
        (s.dev.sesClass x ≠ classLive → (d.ve e).other.isSome = true))))) ∧
  (∀ (s : State) (x : Fin 256) (back : Fin 2) (row : Nat), (s.dev.ses x).pics = [] →
    Completes (.rowReady x back row) s (fun d => d = s.dev)) ∧
  (∀ (s : State) (e : Fin 68), ((s.dev.ve e).held = [] → Completes (.liveRowRelease e) s (fun d => d = s.dev)) ∧
    ∀ j rest, (s.dev.ve e).held = j :: rest → s.dev.code.ve.length = 68 →
      Completes (.liveRowRelease e) s (fun d => (d.ve e).held = rest)) ∧
  (∀ (s : State) (e : Fin 68) (bits least : Nat) (cell : Int) (sal : Nat),
    ((s.dev.ve e).live = none → (s.dev.ve e).other = none → Completes (.unitBoundary e bits least cell sal) s (fun d => d = s.dev)) ∧
    (∀ j, (s.dev.ve e).live = none → (s.dev.ve e).other = some j → (s.dev.ve e).paused = false →
      (s.dev.pickLive (s.dev.ve e).queue).isSome = true → s.dev.code.ve.length = 68 →
      Completes (.unitBoundary e bits least cell sal) s (fun d => (d.ve e).paused = true ∧
        (d.ve e).other = some { j with pausedAt := s.dev.elapsed })) ∧
    (∀ j p, (s.dev.ve e).live = some j → s.dev.pic? j.ses j.c = some p → j.row < p.rows.length →
      (p.row j.row).units < s.dev.rowUnits j.ses j.row →
      Completes (.unitBoundary e bits least cell sal) s (fun d =>
        (d.pic? j.ses j.c).map (fun q => (q.row j.row).units) = some ((p.row j.row).units + 1)))) ∧
  (∀ (s : State) (e : Fin 68) (bytes : List Byte) (j : RowJob) (p : PicSt), s.dev.srv.returns = [] → (s.dev.ve e).live = some j →
    s.dev.pic? j.ses j.c = some p → j.row < p.rows.length →
    ((p.row j.row).units < s.dev.rowUnits j.ses j.row → Completes (.rowDone e bytes) s (fun d => d = s.dev)) ∧
    (s.dev.rowUnits j.ses j.row ≤ (p.row j.row).units → 8 * bytes.length ≤ (p.row j.row).budget →
      Completes (.rowDone e bytes) s (fun d =>
        d.code.busyNs = s.dev.code.busyNs + (s.dev.elapsed - j.start - j.paused) ∧
        ((s.dev.ve e).queue = [] → (s.dev.ve e).other = none → s.dev.code.ve.length = 68 →
          (∃ r < p.rows.length, r ≠ j.row ∧ (p.row r).state ≠ 6) →
          (d.pic? j.ses j.c).map (fun p => ((p.row j.row).state, (p.row j.row).bytes)) = some (6, bytes) ∧
          (d.ve e).live = none)))) ∧
  (∀ (s : State) (g : Fin 8) (dist : List Int) (field : List Byte) (cells sal : List Nat),
    ((s.dev.grp g).run = false → Completes (.analysisDone g dist field cells sal) s (fun d => d = s.dev)) ∧
    (∀ src, (s.dev.grp g).run = true → s.dev.code.grp.length = 8 →
      ((s.dev.grpSources g (s.dev.grp g).nextA).grp g).srcs.find? (fun p => p.n == (s.dev.grp g).nextA) = some src →
      Completes (.analysisDone g dist field cells sal) s (fun d => (d.grp g).nextA = (s.dev.grp g).nextA + 1 ∧
        d.get (F.LG_STATUS_PIC_NO g) = (s.dev.grp g).nextA % 2 ^ 24)))

/-! ### The sensor link (R77-R121) and exposure settings (R148-R151) -/

/-- BLOCK_LOCK_GAINED and BLOCK_LOCK_LOST (R83): the lane's lock and its error count; without parity nothing else but reports, and with
parity running a failed data lane of an up link is rebuilt and its move begun (R115, R116). ALIGNMENT_MARKER: what is no marker counts only; the first
marker of a data lane within 200 ns of skew (R91) shows its count, stream and skew. ELECTRICAL_IDLE_ENTRY of an up
link (R98) and TRN_BLOCK (R99, R102). KSL_RETRAIN where it reaches its register starts training of the whole bond, or does nothing while the
port does not run; TRAIN_REQ_SEND, TRAINING_LOCK_DONE, ECHO (R111) and KSL_TRAIN_FAIL take training on, end it with the link up, or with it
down; a command of another step changes nothing. -/
def Obligations.LanesAndTraining : Prop :=
  (∀ (s : State) (p : Fin 8) (lane : Fin 9), Completes (.blockLockGained p lane) s (fun d =>
    d.flag (F.KSL_LANE_STATUS_BLOCK_LOCK p lane) = true ∧
    ({ s.dev with link := s.dev.link.modify p (fun lp => { lp with lanes := lp.lanes.set lane {} }) } : Dev).Only d
      [F.KSL_LANE_STATUS_BLOCK_LOCK p lane])) ∧
  (∀ (s : State) (p : Fin 8) (lane : Fin 9) (invalid : Nat),
    (s.dev.flag (F.KSL_CTRL_SPARE_PARITY p) = false → Completes (.blockLockLost p lane invalid) s (fun d =>
      d.flag (F.KSL_LANE_STATUS_BLOCK_LOCK p lane) = false ∧
      d.get (F.KSL_LANE_ERR_SYNC_ERR p lane) = (s.dev.get (F.KSL_LANE_ERR_SYNC_ERR p lane) + invalid) % 65536 ∧
      s.dev.Within d [F.KSL_LANE_ERR_SYNC_ERR p lane, F.KSL_LANE_STATUS_BLOCK_LOCK p lane])) ∧
    (s.dev.link.length = 8 → s.dev.flag (F.KSL_CTRL_SPARE_PARITY p) = true → s.dev.flag (F.KSL_LANE_STATUS_BLOCK_LOCK p 8) = true →
      lane.val < 8 → s.dev.laneUsed p lane = true → s.dev.flag (F.KSL_LANE_STATUS_BLOCK_LOCK p lane) = true →
      s.dev.flag (F.KSL_STATUS_LINK_UP p) = true → s.dev.flag (F.KSL_STATUS_IN_EI p) = false → (s.dev.port p).burst = false →
      (s.dev.port p).failed = none → s.dev.get (F.KSL_STATUS_SPARE_CARRIES p) = 8 →
      s.dev.get (F.KSL_LANE_STATUS_CARRIES p lane) ≠ 8 → Completes (.blockLockLost p lane invalid) s (fun d =>
        d.flag (F.KSL_LANE_STATUS_BLOCK_LOCK p lane) = false ∧ d.flag (F.KSL_STATUS_REBUILDING p) = true ∧
        (d.port p).failed = some (s.dev.get (F.KSL_LANE_STATUS_CARRIES p lane)) ∧ (d.port p).moveTo.isSome = true ∧
        (d.port p).moveTries = 1))) ∧
  (∀ (s : State) (p : Fin 8) (lane : Fin 9) (blk : List Byte) (bip skewNs invalid : Nat),
    (blkByte blk 0 ≠ 0xA5 → Completes (.alignmentMarker p lane blk bip skewNs invalid) s (fun d =>
      d.get (F.KSL_LANE_ERR_SYNC_ERR p lane) = (s.dev.get (F.KSL_LANE_ERR_SYNC_ERR p lane) + invalid) % 65536 ∧
      s.dev.Only d [F.KSL_LANE_ERR_SYNC_ERR p lane])) ∧
    (lane.val < 8 → blkByte blk 0 = 0xA5 → blkByte blk 4 + blkByte blk 5 = 255 → blkByte blk 3 + blkByte blk 7 = 255 →
      ((s.dev.port p).lanes.getD lane {}).last = none → (s.dev.port p).burst = false →
      skewNs * 1000 ≤ 72 * blockPs (s.dev.get (F.KSL_CTRL_RATE p)) →
      Completes (.alignmentMarker p lane blk bip skewNs invalid) s (fun d =>
        d.get (F.KSL_STATUS_MARKER_COUNT p) = blkByte blk 3 ∧ d.get (F.KSL_LANE_STATUS_CARRIES p lane) = blkByte blk 1 % 16 ∧
        d.get (F.KSL_STATUS_SKEW_NS p) = max (s.dev.get (F.KSL_STATUS_SKEW_NS p)) (min skewNs 1023) ∧
        ({ s.dev with link := s.dev.link.modify p (fun lp => { lp with
            markerAt := s.dev.nowPs, lanes := lp.lanes.modify lane (fun x => { x with last := some (blkByte blk 3) }) }) } :
          Dev).Only d [F.KSL_LANE_ERR_SYNC_ERR p lane, F.KSL_STATUS_MARKER_COUNT p, F.KSL_LANE_STATUS_CARRIES p lane,
            F.KSL_STATUS_SKEW_NS p])) ∧
    (∀ x, blkByte blk 0 = 0xA5 → blkByte blk 4 + blkByte blk 5 = 255 → blkByte blk 3 + blkByte blk 7 = 255 →
      ((s.dev.port p).lanes.getD lane {}).last = some x → blkByte blk 3 ≠ (x + 1) % 256 →
      s.dev.get (F.KSL_ERR_CFG_BIP_LIMIT p) = 0 → s.dev.flag (F.KSL_STATUS_LINK_UP p) = true →
      Completes (.alignmentMarker p lane blk bip skewNs invalid) s (fun d =>
        d.get (F.KSL_EVTCNT_DESKEW_FAILS p) = (s.dev.get (F.KSL_EVTCNT_DESKEW_FAILS p) + 1) % 256))) ∧
  (∀ (s : State) (p : Fin 8),
    (s.dev.flag (F.KSL_STATUS_LINK_UP p) = false → Completes (.electricalIdleEntry p) s (fun d => d = s.dev)) ∧
    (s.dev.flag (F.KSL_STATUS_LINK_UP p) = true → Completes (.electricalIdleEntry p) s (fun d =>
      d.flag (F.KSL_STATUS_IN_EI p) = true ∧ (∀ k < 9, d.flag (F.KSL_LANE_STATUS_BLOCK_LOCK p k) = false) ∧
      ({ s.dev with link := s.dev.link.modify p (fun lp => { lp with burst := false, burstFirst := none }) } : Dev).Only d
        (F.KSL_STATUS_IN_EI p :: (List.range 9).map (F.KSL_LANE_STATUS_BLOCK_LOCK p))))) ∧
  (∀ (s : State) (p : Fin 8) (lane : Fin 9) (blk : List Byte),
    (blkByte blk 0 ≠ 0x87 → Completes (.trnBlock p lane blk) s (fun d => d = s.dev)) ∧
    (blkByte blk 0 = 0x87 → (s.dev.port p).train = 2 → Completes (.trnBlock p lane blk) s (fun d =>
      d = { s.dev with link := s.dev.link.modify p (fun lp => { lp with train := 4 }) })) ∧
    (blkByte blk 0 = 0x87 → (s.dev.port p).train ≠ 2 → s.dev.flag (F.KSL_STATUS_IN_EI p) = true → (s.dev.port p).burst = false →
      Completes (.trnBlock p lane blk) s (fun d =>
        d = { s.dev with link := s.dev.link.modify p (fun lp => { lp with burst := true, burstFirst := none }) }))) ∧
  (∀ (s : State) (p : Fin 8), s.dev.Reaches (R.KSL_CTRL p) → s.dev.link.length = 8 →
    let h := s.dev.bondHead p
    (s.dev.portRuns h = false → Completes (.kslRetrain p) s (fun d =>
      d.flag (F.KSL_CTRL_RETRAIN p) = false ∧ s.dev.Only d [F.KSL_CTRL_RETRAIN p])) ∧
    (s.dev.portRuns h = true → Completes (.kslRetrain p) s (fun d =>
      d.flag (F.KSL_CTRL_RETRAIN p) = true ∧ (d.port h).train = 1 ∧ (d.port h).trainFrom = s.dev.elapsed ∧
      d.get (F.KSL_EVTCNT_TRAININGS h) = (s.dev.get (F.KSL_EVTCNT_TRAININGS h) + 1) % 256 ∧ d.out = s.dev.out ++ [.link h 0] ∧
      ∀ q ∈ s.dev.bondPorts h, d.flag (F.KSL_STATUS_TRAINING q) = true ∧ d.flag (F.KSL_STATUS_LINK_UP q) = false))) ∧
  (∀ (s : State) (p : Fin 8),
    ((s.dev.port p).train ≠ 1 → Completes (.trainReqSend p) s (fun d => d = s.dev)) ∧
    ((s.dev.port p).train = 1 → s.dev.portRuns p = true → (s.dev.port p).bcQueue = [] → Completes (.trainReqSend p) s (fun d =>
      (d.port p).train = 2 ∧ (d.port p).bcTag = ((s.dev.port p).bcTag + 1) % 256 ∧
      d = { s.dev with link := d.link, out := s.dev.out ++ [.link p 1, .bcFrame p 5 (s.dev.port p).bcTag []] }))) ∧
  (∀ (s : State) (p : Fin 8) (skewNs : Nat),
    ((s.dev.port p).train ≠ 2 → (s.dev.port p).train ≠ 4 → Completes (.trainingLockDone p skewNs) s (fun d => d = s.dev)) ∧
    ((s.dev.port p).train = 2 ∨ (s.dev.port p).train = 4 → Completes (.trainingLockDone p skewNs) s (fun d =>
      (d.port p).train = 6 ∧ d.out.getLast? = some (.trigger p 0xFF 0 s.dev.nowPs) ∧ .link p 2 ∈ d.out ∧
      ∀ q ∈ s.dev.bondPorts p, d.get (F.KSL_STATUS_SKEW_NS q) = min skewNs 1023 ∧
        (s.dev.flag (F.KSL_CTRL_SPARE_PARITY q) = false → d.get (F.KSL_STATUS_SPARE_CARRIES q) = 15 ∧
          ∀ k < s.dev.dataLanes q, d.flag (F.KSL_LANE_STATUS_BLOCK_LOCK q k) = true ∧ d.get (F.KSL_LANE_STATUS_CARRIES q k) = k ∧
            d.get (F.KSL_LANE_STATUS_CTLE_DB q k) ≤ 18)))) ∧
  (∀ (s : State) (p : Fin 8) (blk : List Byte) (rtt : Nat),
    ((s.dev.port p).train ≠ 6 → Completes (.echo p blk rtt) s (fun d => d = s.dev)) ∧
    ((s.dev.port p).train = 6 → blkByte blk 0 = 0x66 → blkCrcOk blk = true → blkByte blk 1 = 4 → blkByte blk 2 = 0xFF →
      Completes (.echo p blk rtt) s (fun d =>
        d.get (F.KSL_TRIG_CAL_ECHO_RTT p) = rtt % 4096 ∧ d.get (F.KSL_TRIG_CAL_ONE_WAY p) = toBits 12 ((rtt : Int) - 512) ∧
        (d.port p).train = 0 ∧ (s.dev.sensing = true → .link p 3 ∈ d.out) ∧
        ∀ q ∈ s.dev.bondPorts p, d.flag (F.KSL_STATUS_LINK_UP q) = true ∧ d.flag (F.KSL_STATUS_TRAINING q) = false ∧
          d.flag (F.KSL_CTRL_RETRAIN q) = false))) ∧
  (∀ (s : State) (p : Fin 8),
    ((s.dev.port p).train = 0 → Completes (.kslTrainFail p) s (fun d => d = s.dev)) ∧
    ((s.dev.port p).train ≠ 0 → Completes (.kslTrainFail p) s (fun d =>
      (∀ q ∈ s.dev.bondPorts p, d.flag (F.KSL_STATUS_LINK_UP q) = false ∧ d.flag (F.KSL_STATUS_TRAINING q) = false ∧
        d.flag (F.KSL_CTRL_RETRAIN q) = false) ∧
      ({ s.dev with link := s.dev.link.modify p (fun lp => { lp with train := 0 }) } : Dev).Within d
        ((s.dev.bondPorts p).flatMap (fun q => [F.KSL_STATUS_LINK_UP q, F.KSL_STATUS_TRAINING q, F.KSL_CTRL_RETRAIN q])))))

/-- CTRL_STATUS, RD_DATA, ACK and LANE_ACK (R97): a block whose CRC-8 fails is only counted (R96); STATUS is kept, a word read for the host
is in BC_DATA with RESULT 0, the frame that an ACK names is answered (R106, R108), an exposure set that it carried is answered (R151), and a
LANE_ACK is kept (R118). BC_REG_WR and BC_REG_RD where they reach BC_CTRL: the frame goes out, with GO until its answer; a GO
while one runs is void. BC_ANSWER_TIMEOUT (R108): nothing waits, the oldest frame is resent at most three times, and then it is given up
with RESULT 2, counted and reported. EYE_MEASURE and EYE_MEASURE_DONE (R104): GO, then the errors counted. -/
def Obligations.BackChannel : Prop :=
  (∀ (s : State) (p : Fin 8) (blk : List Byte), blkCrcOk blk = false →
    let counted := fun d : Dev => d.get (F.KSL_ERRCNT_HDR_CRC_ERR p) = (s.dev.get (F.KSL_ERRCNT_HDR_CRC_ERR p) + 1) % 65536 ∧
      s.dev.Only d [F.KSL_ERRCNT_HDR_CRC_ERR p]
    Completes (.ctrlStatus p blk) s counted ∧ Completes (.rdData p blk) s counted ∧ Completes (.ack p blk) s counted ∧
    Completes (.laneAck p blk) s counted) ∧
  (∀ (s : State) (p : Fin 8) (blk : List Byte), blkCrcOk blk = true → blkByte blk 0 = 0x66 →
    (blkByte blk 1 = 1 → Completes (.ctrlStatus p blk) s (fun d =>
      d.get (F.KSL_SENSOR_STATUS_STATUS p) = blkBE blk 3 4 ∧ s.dev.Only d [F.KSL_SENSOR_STATUS_STATUS p])) ∧
    (blkByte blk 1 = 5 → Completes (.laneAck p blk) s (fun d => d = { s.dev with
      link := s.dev.link.modify p (fun lp => { lp with laneAck := some (blkByte blk 2, blkByte blk 3) }) })) ∧
    (∀ f, s.dev.bcWaiting p (blkByte blk 2) = some f →
      let answered : Dev := { s.dev with link := s.dev.link.modify p (fun lp => { lp with bcOut := lp.bcOut.erase f }) }
      (blkByte blk 1 = 2 → f.cmd = 2 → f.host = true → Completes (.rdData p blk) s (fun d =>
        d.get (F.KSL_BC_DATA_DATA p) = blkBE blk 3 4 ∧ d.get (F.KSL_BC_CTRL_RESULT p) = 0 ∧ d.get (F.KSL_BC_CTRL_GO p) = 0 ∧
        answered.Only d [F.KSL_BC_DATA_DATA p, F.KSL_BC_CTRL_RESULT p, F.KSL_BC_CTRL_GO p])) ∧
      (blkByte blk 1 = 3 → f.cmd ≠ 2 ∨ blkByte blk 3 ≠ 0 → f.host = true → f.ctx = none → Completes (.ack p blk) s (fun d =>
        d.get (F.KSL_BC_CTRL_RESULT p) = (if blkByte blk 3 = 0 then 0 else 1) ∧ d.get (F.KSL_BC_CTRL_GO p) = 0 ∧
        answered.Only d [F.KSL_BC_CTRL_RESULT p, F.KSL_BC_CTRL_GO p])) ∧
      (∀ n, blkByte blk 1 = 3 → f.cmd ≠ 2 → f.host = false → f.ctx = some n → Completes (.ack p blk) s (fun d =>
        d = { answered with exps := d.exps } ∧ d.exps.length = s.dev.exps.length ∧
        ∀ e ∈ d.exps.getD n [], e.sid = beNat (f.payload.take 2) → 2 ≤ e.state → e.answered = true ∧ e.lost = false)))) ∧
  (∀ (s : State) (p : Fin 8), s.dev.Reaches (R.KSL_BC_CTRL p) →
    (s.dev.flag (F.KSL_BC_CTRL_GO p) = true →
      Completes (.bcRegWr p) s (fun d => d = s.dev) ∧ Completes (.bcRegRd p) s (fun d => d = s.dev)) ∧
    (s.dev.flag (F.KSL_BC_CTRL_GO p) = false → s.dev.portRuns p = true → (s.dev.port p).bcQueue = [] → s.dev.link.length = 8 →
      let addr := bytesBE 4 (s.dev.get (F.KSL_BC_ADDR_ADDR p))
      let sent := fun (cmd : Nat) (payload : List Byte) (d : Dev) =>
        d.get (F.KSL_BC_CTRL_GO p) = 1 ∧ d.out = s.dev.out ++ [.bcFrame p cmd (s.dev.port p).bcTag payload] ∧
        (d.port p).bcOut = (s.dev.port p).bcOut ++ [{ cmd := cmd, tag := (s.dev.port p).bcTag, payload := payload, host := true }] ∧
        ({ s.dev with link := d.link, out := d.out } : Dev).Only d [F.KSL_BC_CTRL_GO p, F.KSL_BC_CTRL_READ p]
      Completes (.bcRegWr p) s (fun d => d.get (F.KSL_BC_CTRL_READ p) = 0 ∧
        sent 1 (addr ++ bytesBE 4 (s.dev.get (F.KSL_BC_DATA_DATA p))) d) ∧
      Completes (.bcRegRd p) s (fun d => d.get (F.KSL_BC_CTRL_READ p) = 1 ∧ sent 2 (addr ++ bytesBE 1 1) d))) ∧
  (∀ (s : State) (p : Fin 8),
    ((s.dev.port p).bcOut = [] → Completes (.bcAnswerTimeout p) s (fun d => d = s.dev)) ∧
    (∀ f rest, (s.dev.port p).bcOut = f :: rest → f.resends < 3 → Completes (.bcAnswerTimeout p) s (fun d => d = { s.dev with
      link := s.dev.link.modify p (fun lp => { lp with bcOut := rest ++ [{ f with resends := f.resends + 1 }] })
      out := s.dev.out ++ [.bcFrame p f.cmd f.tag f.payload] })) ∧
    (∀ f rest, (s.dev.port p).bcOut = f :: rest → 3 ≤ f.resends → f.host = true → f.ctx = none →
      Completes (.bcAnswerTimeout p) s (fun d => d.get (F.KSL_BC_CTRL_RESULT p) = 2 ∧ d.get (F.KSL_BC_CTRL_GO p) = 0 ∧
        d.get (F.KSL_EVTCNT_BC_TIMEOUTS p) = (s.dev.get (F.KSL_EVTCNT_BC_TIMEOUTS p) + 1) % 256 ∧ (d.port p).bcOut = rest ∧
        ({ s.dev with link := d.link } : Dev).Within d
          [F.KSL_BC_CTRL_RESULT p, F.KSL_BC_CTRL_GO p, F.KSL_EVTCNT_BC_TIMEOUTS p]))) ∧
  (∀ (s : State) (p : Fin 8) (lane : Fin 9), s.dev.Reaches (R.KSL_LANE_EYE p lane) → Completes (.eyeMeasure p lane) s (fun d =>
    d.get (F.KSL_LANE_EYE_GO p lane) = 1 ∧ s.dev.Only d [F.KSL_LANE_EYE_GO p lane])) ∧
  (∀ (s : State) (p : Fin 8) (lane : Fin 9) (errors : Nat),
    (s.dev.flag (F.KSL_LANE_EYE_GO p lane) = false → Completes (.eyeMeasureDone p lane errors) s (fun d => d = s.dev)) ∧
    (s.dev.flag (F.KSL_LANE_EYE_GO p lane) = true → Completes (.eyeMeasureDone p lane errors) s (fun d =>
      d.get (F.KSL_LANE_EYE_RESULT_ERRORS p lane) = errors % 2 ^ 32 ∧ d.get (F.KSL_LANE_EYE_GO p lane) = 0 ∧
      s.dev.Only d [F.KSL_LANE_EYE_RESULT_ERRORS p lane, F.KSL_LANE_EYE_GO p lane])))

/-- TRIGGER_TARGET_HANDOVER (R394) of a schedule that runs: its next target is shown, the search goes on after it, a slot with that target opens in
every running context of the port with its plan and in no other (R127), and the back channel's trigger carries the plan (R113);
a schedule that does not run changes nothing. TRIGGER_SEQUENCE, XTRIG_RISE and XTRIG_FALL (R113, R114): the oldest waiting trigger goes out.
The first trigger after an EXP_SET is its T0: the set gets its APPLY_FSEQ (R150). CAP_EXP_COMMIT for a context
where it reaches its register (R148): the staged set is latched under the next SID; an empty one changes nothing. EXP_SET_SEND
(R149): in vertical blanking the latched set goes out as one EXP_SET; while a frame is open it waits. -/
def Obligations.TargetsTriggersExposures : Prop :=
  (∀ (s : State) (p : Fin 8), s.dev.trigRuns p = false → Completes (.triggerTargetHandover p) s (fun d => d = s.dev)) ∧
  (∀ (s : State) (p : Fin 8) (t plan : Nat), s.dev.trigRuns p = true →
    (s.dev.trig.getD p {}).nextFrom (s.dev.trig.getD p {}).from_ = some (t, plan) → Completes (.triggerTargetHandover p) s (fun d =>
      (d.trig.getD p {}).from_ = t + 1 ∧
      d.get (F.TRIG_NEXT_LO_NEXT p) + 2 ^ 32 * d.get (F.TRIG_NEXT_HI_NEXT p) = stimeOfNs t ∧
      (∀ n < 16, (if s.dev.ctxRuns n = true ∧ n ∈ s.dev.ctxOfPort p ∧ s.dev.get (F.CAP_BIND_PLAN n) = plan
        then ∃ x, x.target = t ∧ d.ctx n = { s.dev.ctx n with slots := (s.dev.ctx n).slots ++ [x] }
        else d.ctx n = s.dev.ctx n)) ∧
      (s.dev.get (F.KSL_CTRL_TRIG_SRC p) = 0 → (s.dev.port p).trigEnd = none → s.dev.link.length = 8 →
        ∃ x, (d.port p).trigQueue = (s.dev.port p).trigQueue ++ [x] ∧ x.ord = (s.dev.port p).trigOrd ∧
          x.id = plan % 4 + (s.dev.port p).trigOrd % 32 * 4 ∧ x.fine < 16 ∧ (d.port p).trigOrd = (s.dev.port p).trigOrd + 1))) ∧
  (∀ (s : State) (p : Fin 8),
    ((s.dev.port p).trigQueue = [] → Completes (.triggerSequence p) s (fun d => d = s.dev)) ∧
    (∀ t rest, (s.dev.port p).trigQueue = t :: rest →
      (s.dev.ctxOfPort p = [] → Completes (.triggerSequence p) s (fun d => d = { s.dev with
        link := s.dev.link.modify p (fun lp => { lp with trigQueue := rest }),
        out := s.dev.out ++ [.trigger p t.id t.fine t.bound] })) ∧
      (∀ n e, s.dev.ctxOfPort p = [n] → s.dev.exps.getD n [] = [e] → e.state = 2 → e.lost = false →
        Completes (.triggerSequence p) s (fun d => (d.port p).trigQueue = rest ∧
          (∃ l, d.out = s.dev.out ++ .trigger p t.id t.fine t.bound :: l) ∧ d.get (F.CAP_EXP_STATUS_STATE n) = 3 ∧
          d.exps.getD n [] = [{ e with state := 3, apply := d.get (F.CAP_EXP_APPLY_APPLY_FSEQ n) }])))) ∧
  (∀ (s : State) (p : Fin 8),
    ((s.dev.port p).xtrigQueue = [] → Completes (.xtrigRise p) s (fun d => d = s.dev)) ∧
    (∀ t rest, (s.dev.port p).xtrigQueue = t :: rest → s.dev.get (F.KSL_CTRL_TRIG_SRC p) ≠ 1 ∨ s.dev.ctxOfPort p = [] →
      Completes (.xtrigRise p) s (fun d => d = { s.dev with
        link := s.dev.link.modify p (fun lp => { lp with xtrigQueue := rest })
        out := s.dev.out ++ [.pin (pinXtrig p) 1] })) ∧
    Completes (.xtrigFall p) s (fun d => d = { s.dev with out := s.dev.out ++ [.pin (pinXtrig p) 0] })) ∧
  (∀ (s : State) (mask : Fin 65536) (n : Nat), s.dev.Reaches R.CAP_EXP_COMMIT → (List.range 16).filter (bitOf mask) = [n] →
    (s.dev.get (F.CAP_EXP_CNT_COUNT n) = 0 → Completes (.capExpCommit mask) s (fun d => d = s.dev)) ∧
    (s.dev.get (F.CAP_EXP_CNT_COUNT n) ≠ 0 → s.dev.exps.getD n [] = [] → s.dev.exps.length = 16 →
      s.dev.flag (F.COL_CFG_SID_SYNC n) = false → s.dev.blanking (s.dev.get (F.CAP_BIND_PORT n)) = false →
      Completes (.capExpCommit mask) s (fun d =>
        d.get (F.CAP_EXP_STATUS_SID n) = (s.dev.get (F.CAP_EXP_STATUS_SID n) + 1) % 65536 ∧
        d.get (F.CAP_EXP_STATUS_STATE n) = 1 ∧
        (d.exps.getD n []).map (fun e => (e.sid, e.gain, e.state, e.entries)) =
          [(d.get (F.CAP_EXP_STATUS_SID n), s.dev.get (F.RAWC_GAIN_STAGE_IDX n), 1,
            (List.range (s.dev.get (F.CAP_EXP_CNT_COUNT n))).map (fun k =>
              (s.dev.get (F.CAP_EXP_ADDR_ADDR n k), s.dev.get (F.CAP_EXP_VAL_VAL n k))))] ∧
        ({ s.dev with exps := d.exps } : Dev).Only d [F.CAP_EXP_STATUS_SID n, F.CAP_EXP_STATUS_STATE n]))) ∧
  (∀ (s : State) (n : Fin 16),
    let p := s.dev.get (F.CAP_BIND_PORT n)
    (s.dev.blanking p = false → Completes (.expSetSend n) s (fun d => d = s.dev)) ∧
    (∀ e, s.dev.blanking p = true → s.dev.exps.getD n [] = [e] → e.state = 1 → s.dev.portRuns p = true →
      (s.dev.port p).bcQueue = [] → s.dev.link.length = 8 → Completes (.expSetSend n) s (fun d =>
        d.out = s.dev.out ++ [.bcFrame p 3 (s.dev.port p).bcTag (bytesBE 2 e.sid ++ bytesBE 1 e.entries.length ++
          e.entries.flatMap (fun x => bytesBE 4 x.1 ++ bytesBE 4 x.2))] ∧
        d.exps.getD n [] = [{ e with state := 2 }] ∧ d.get (F.CAP_EXP_STATUS_STATE n) = 2 ∧
        ({ s.dev with out := d.out, exps := d.exps, link := d.link } : Dev).Only d [F.CAP_EXP_STATUS_STATE n])))

/-! ### The capture front end, development and their loops (R122-R224) -/

/-- FRAME_START, FSX, LINE_START, LINE_END and FRAME_END: on a port that receives no stream they change nothing, and a packet whose CRC-8
fails is only counted (R96). An FS within the oldest slot of the port's context opens a frame of the next FSEQ (R127, R128); with no slot open it
is excess (R130). FSX goes to the open frame's record (R92). An LS in order opens its line, and one out of order or past HEIGHT is
cut (R134). An LE delivers its line, damaged where its CRC fails or the lane move loses it (R95, R133). The FE of the last readout closes
the frame (R135). SLOT_DEADLINE of a context without an open frame: its oldest slot is missing, counted and flagged (R129). -/
def Obligations.FramesAndLines : Prop :=
  (∀ (s : State) (p : Fin 8) (blk data : List Byte) (lost : Bool), s.dev.receives p = false →
    Completes (.frameStart p blk) s (fun d => d = s.dev) ∧ Completes (.fsx p blk) s (fun d => d = s.dev) ∧
    Completes (.lineStart p blk) s (fun d => d = s.dev) ∧ Completes (.lineEnd p blk data lost) s (fun d => d = s.dev) ∧
    Completes (.frameEnd p blk) s (fun d => d = s.dev)) ∧
  (∀ (s : State) (p : Fin 8) (blk : List Byte), s.dev.receives p = true → blkCrcOk blk = false →
    let counted := fun d : Dev => d.get (F.KSL_ERRCNT_HDR_CRC_ERR p) = (s.dev.get (F.KSL_ERRCNT_HDR_CRC_ERR p) + 1) % 65536 ∧
      s.dev.Only d [F.KSL_ERRCNT_HDR_CRC_ERR p]
    (blkByte blk 0 = 0x33 → Completes (.frameStart p blk) s counted) ∧ (blkByte blk 0 = 0x39 → Completes (.fsx p blk) s counted) ∧
    (blkByte blk 0 = 0x2D → Completes (.lineStart p blk) s counted) ∧ (blkByte blk 0 = 0x55 → Completes (.frameEnd p blk) s counted)) ∧
  (∀ (s : State) (p : Fin 8) (blk : List Byte) (n : Nat), s.dev.receives p = true → blkByte blk 0 = 0x33 → blkCrcOk blk = true →
    s.dev.ctxOfPort (s.dev.bondHead p) = [n] →
    (∀ sl, (s.dev.ctx n).slots = [sl] → s.dev.slotAccepts n sl = true → s.dev.leavingSensing = false → s.dev.openFrame n = none →
      s.dev.link.length = 8 → Completes (.frameStart p blk) s (fun d =>
        d.get (F.CAP_FSEQ_FSEQ n) = (s.dev.get (F.CAP_FSEQ_FSEQ n) + 1) % 2 ^ 32 ∧ (d.ctx n).slots = [] ∧ (d.port p).rx = some n ∧
        ∃ g ∈ (d.ctx n).frames, g.fseq = d.get (F.CAP_FSEQ_FSEQ n) ∧ g.sfn = blkBE blk 2 4 ∧ g.trig = sl.target ∧
          g.closed = false)) ∧
    ((s.dev.ctx n).slots = [] → s.dev.ctxRuns n = true → Completes (.frameStart p blk) s (fun d =>
      d.get (F.CAP_CNT0_EXCESS n) = (s.dev.get (F.CAP_CNT0_EXCESS n) + 1) % 65536 ∧ (d.port p).rx = none ∧
      d.ctx n = { s.dev.ctx n with evSec := (d.ctx n).evSec } ∧
      ({ s.dev with link := d.link, cap := d.cap } : Dev).Within d [F.CAP_CNT0_EXCESS n]))) ∧
  (∀ (s : State) (p : Fin 8) (blk : List Byte) (n : Nat) (f : CapFrame), s.dev.receives p = true → blkCrcOk blk = true →
    (s.dev.port p).rx = some n → s.dev.openFrame n = some f → s.dev.frame? n f.fseq = some f →
    (blkByte blk 0 = 0x39 → (s.dev.port p).fsxDue = true → Completes (.fsx p blk) s (fun d =>
      d = { s.dev with link := s.dev.link.modify p (fun lp => { lp with fsxDue := false }), cap := d.cap } ∧
      d.frame? n f.fseq = some { f with ts := (sliceBytes blk 1 6).reverse })) ∧
    (blkByte blk 0 = 0x2D → blkByte blk 1 % 4 < f.ros.length →
      let y := blkBE blk 2 2
      let have_ := (f.ros.getD (blkByte blk 1 % 4) {}).lines.length
      (y < s.dev.get (F.CAP_GEOM_HEIGHT n) → y = have_ → blkByte blk 1 / 4 % 4 = s.dev.get (F.CAP_FMT_DEPTH n) →
        Completes (.lineStart p blk) s (fun d => d = { s.dev with cap := d.cap } ∧ d.ctx n = { s.dev.ctx n with
          line := some { ro := blkByte blk 1 % 4, y := y, count := blkBE blk 4 2, depth := blkByte blk 1 / 4 % 4 } })) ∧
      (s.dev.get (F.CAP_GEOM_HEIGHT n) ≤ y ∨ y < have_ → Completes (.lineStart p blk) s (fun d =>
        d = { s.dev with cap := d.cap } ∧ (d.ctx n).line = none ∧ d.frame? n f.fseq = some { f with cut := f.cut + 1 }))) ∧
    (∀ (l : OpenLine) (data : List Byte) (lost : Bool), blkByte blk 0 = 0x4B → (s.dev.ctx n).line = some l → l.ro < f.ros.length →
      let bad := blkBE blk 2 4 ≠ crc32c data
      Completes (.lineEnd p blk data lost) s (fun d => (d.ctx n).line = none ∧
        d.get (F.KSL_ERRCNT_LE_CRC_ERR p) = (s.dev.get (F.KSL_ERRCNT_LE_CRC_ERR p) + (if bad then 1 else 0)) % 65536 ∧
        (d.frame? n f.fseq).map (fun g => (g.ros.getD l.ro {}).lines.length) = some ((f.ros.getD l.ro {}).lines.length + 1) ∧
        (d.frame? n f.fseq).map (fun g => (g.ros.getD l.ro {}).lines.getLast?.map (·.damaged)) =
          some (some (decide (bad ∨ lost = true))))) ∧
    (blkByte blk 0 = 0x55 → blkByte blk 1 / 8 % 4 < f.ros.length →
      let ros := f.ros.modify (blkByte blk 1 / 8 % 4) (fun r => { r with fe := true })
      (ros.all (·.fe) = false → Completes (.frameEnd p blk) s (fun d => d = { s.dev with cap := d.cap } ∧
        d.frame? n f.fseq = some { f with ros := ros })) ∧
      (ros.all (·.fe) = true → Completes (.frameEnd p blk) s (fun d =>
        ∀ g ∈ (d.ctx n).frames, g.fseq = f.fseq → g.closed = true)))) ∧
  (∀ (s : State) (n : Fin 16),
    (s.dev.ctxRuns n = false → Completes (.slotDeadline n) s (fun d => d = s.dev)) ∧
    ((s.dev.ctx n).slots = [] → Completes (.slotDeadline n) s (fun d => d = s.dev)) ∧
    (∀ sl rest, s.dev.ctxRuns n = true → (s.dev.ctx n).slots = sl :: rest → s.dev.openFrame n = none →
      Completes (.slotDeadline n) s (fun d => (d.ctx n).slots = rest ∧
        d.get (F.CAP_FSEQ_FSEQ n) = (s.dev.get (F.CAP_FSEQ_FSEQ n) + 1) % 2 ^ 32 ∧
        d.get (F.CAP_CNT0_MISSING n) = (s.dev.get (F.CAP_CNT0_MISSING n) + 1) % 65536 ∧
        d.get (F.CAP_LAST_FLAGS_FLAGS n) % 2 = 1)))

/-- WHEEL_WINDOW_END and WHEEL_SLOT_START of an idle group whose one pending frame lies in the RAW ring, in a slot of its context and
within its limit: it is served, deferred (R143); without such a frame, or while the group is busy, none. WHEEL_BOUNDARY (R147): slot masks take effect,
for the group's contexts alone. DEVELOP_FRAME_DONE: a developed, closed frame leaves its context and its group. DMAP_EDIT_ADD and DMAP_EDIT_REMOVE
where they reach their register (R177): the edit is queued, or refused with its result. JOURNAL_BATCH (R184, R185): edits that
wait are written once the period has passed. KEEP_REBUILD_DONE (R186): the map copy holds every map. COL_COMMIT without SID_SYNC (R223): the
context's colour shadows take effect. LUT3D_LOAD_DONE: the loaded table is held. -/
def Obligations.WheelsMapsAndColours : Prop :=
  (∀ (s : State) (g : Fin 8),
    ((s.dev.wheel g).window = none → Completes (.wheelWindowEnd g) s (fun d => d = s.dev)) ∧
    ((s.dev.wheel g).busy.isSome = true → (s.dev.wheel g).window.isSome = true → Completes (.wheelWindowEnd g) s (fun d =>
      d = { s.dev with wheels := s.dev.wheels.modify g (fun w => { w with window := none }) })) ∧
    (s.dev.pendingOn g = [] → Completes (.wheelSlotStart g) s (fun d => d.get (F.CAP_WG_STATUS_SLOT g) = s.dev.wheelSlot g s.dev.nowNs ∧
      s.dev.Only d [wholeReg (R.CAP_WG_STATUS g), F.CAP_WG_RES_LIST_LIST g])) ∧
    ∀ (n : Nat) (f : CapFrame), s.dev.pendingOn g = [(n, f)] → (s.dev.wheel g).busy = none → f.raw.isSome = true →
      bitOf (s.dev.eget (F.CAP_WHEEL_SLOT_MASK n)) (s.dev.wheelSlot g s.dev.nowNs) = true →
      s.dev.nowNs - f.fsNs ≤ s.dev.get (F.CAP_WHEEL_DEFER_LIMIT_US n) * 1000 → s.dev.wheels.length = 8 →
      let served := fun d : Dev => (d.wheel g).busy = some (n, f.fseq) ∧ (d.wheel g).resident.getLast? = some n ∧
        (d.wheel g).window = none ∧ d.flag (F.CAP_WG_STATUS_BUSY g) = true ∧
        d.get (F.CAP_CNT1_DEFERRED n) = (s.dev.get (F.CAP_CNT1_DEFERRED n) + 1) % 65536
      (∀ t, (s.dev.wheel g).window = some t → t ≠ f.fsNs → Completes (.wheelWindowEnd g) s served) ∧
      ((s.dev.wheel g).window = none → s.dev.flag (F.CAP_WG_CFG_EN g) = true → Completes (.wheelSlotStart g) s served)) ∧
  (∀ (s : State) (g : Fin 8), Completes (.wheelBoundary g) s (fun d =>
    (∀ n < 16, d.effWord (R.CAP_WHEEL n) =
      if s.dev.wheelOf n = some g.val then s.dev.word (R.CAP_WHEEL n) else s.dev.effWord (R.CAP_WHEEL n)) ∧
    d = { s.dev with regs := d.regs } ∧ d.get (F.CAP_WG_STATUS_SLOT g) = s.dev.wheelSlot g s.dev.nowNs ∧
    s.dev.FieldsKept d [wholeReg (R.CAP_WG_STATUS g), F.CAP_WG_RES_LIST_LIST g])) ∧
  (∀ (s : State) (n : Fin 16) (hosts : List (List Nat)), s.dev.srv.returns = [] →
    ((∀ f ∈ (s.dev.ctx n).frames, f.closed = false ∨ f.dev = 0 ∨ 3 ≤ f.dev) →
      Completes (.developFrameDone n hosts) s (fun d => d = s.dev)) ∧
    (∀ f, (s.dev.ctx n).frames = [f] → f.closed = true → f.dev = 1 ∨ f.dev = 2 → f.clip = none →
      Completes (.developFrameDone n hosts) s (fun d => (d.ctx n).frames = [] ∧
        (∀ g < 8, s.dev.wheelOf n = some g → (d.wheel g).busy ≠ some (n.val, f.fseq)) ∧
        ∀ e ∈ d.rawEntries, e.ctx = n ∧ e.fseq = f.fseq → e.dev = false))) ∧
  (∀ (s : State) (p : Fin 8) (cls : Fin 16), s.dev.Reaches R.RAWC_DMAP_EDIT_CMD → s.dev.dmap.length = 8 →
    let x := s.dev.get F.RAWC_DMAP_EDIT_XY_X
    let y := s.dev.get F.RAWC_DMAP_EDIT_XY_Y
    let queue := (s.dev.dmap.getD p {}).queue
    let refused := fun (r : Nat) (d : Dev) => d.get F.RAWC_DMAP_EDIT_CMD_RESULT = r ∧ d.get F.RAWC_DMAP_EDIT_CMD_GO = 0 ∧
      s.dev.Only d [wholeReg R.RAWC_DMAP_EDIT_CMD]
    let queued := fun (e : DefectEdit) (d : Dev) => d.get F.RAWC_DMAP_EDIT_CMD_RESULT = 0 ∧ d.get F.RAWC_DMAP_EDIT_CMD_GO = 0 ∧
      (d.dmap.getD p {}).queue = queue ++ [e] ∧ d.get (F.RAWC_DMAP_STATUS_PENDING p) = queue.length + 1 ∧
      (d.dmap.getD p {}).cur = (s.dev.dmap.getD p {}).cur
    (∀ r, s.dev.editResult p x y 1 cls = r → r ≠ 0 → r ≠ 2 → Completes (.dmapEditAdd p cls) s (refused r)) ∧
    (∀ r, s.dev.editResult p x y 2 0 = r → r ≠ 0 → Completes (.dmapEditRemove p) s (refused r)) ∧
    (s.dev.editResult p x y 1 cls = 0 →
      Completes (.dmapEditAdd p cls) s (queued { x := x, y := y, cls := cls, learned := false })) ∧
    (s.dev.editResult p x y 2 0 = 0 → Completes (.dmapEditRemove p) s (fun d =>
      queued { x := x, y := y, cls := 0, learned := false } d ∧
      ∀ c ∈ (d.dmap.getD p {}).cands, c.x = x → c.y ≠ y))) ∧
  (∀ s : State,
    (s.dev.journal.wait = [] ∨ s.dev.elapsed < s.dev.journal.lastBatch + s.dev.journalPeriod →
      Completes .journalBatch s (fun d => d = s.dev)) ∧
    (∀ e rest, s.dev.journal.wait = e :: rest → s.dev.journal.lastBatch + s.dev.journalPeriod ≤ s.dev.elapsed →
      let k := min 256 (rest.length + 1)
      s.dev.get F.RAWC_JOURNAL_USED + k < 86016 → Completes .journalBatch s (fun d =>
        d.get F.RAWC_JOURNAL_USED = s.dev.get F.RAWC_JOURNAL_USED + k ∧
        (s.dev.journal.jseq < 2 ^ 32 → d.journal = { s.dev.journal with
          wait := s.dev.journal.wait.drop 256, lastBatch := s.dev.elapsed, jseq := (s.dev.journal.jseq + k) % 2 ^ 32 }) ∧
        (rest = [] → d.keepRead (journalAt s.dev.journal.jseq) 16 = journalRecord s.dev.journal.jseq e.1 e.2.1 e.2.2)))) ∧
  (∀ s : State, s.dev.journal.rebuilding = false → Completes .keepRebuildDone s (fun d => d = s.dev)) ∧
  (∀ s : State, s.dev.journal.rebuilding = true → s.dev.dmap.length = 8 →
    (s.dev.dmap.flatMap (fun m => m.cur.map (·.slot))).Nodup → (∀ m ∈ s.dev.dmap, ∀ e ∈ m.cur, e.slot < 2 ^ 20) →
    Completes .keepRebuildDone s (fun d => d.journal = { s.dev.journal with rebuilding := false } ∧ d.get F.RAWC_JOURNAL_USED = 0 ∧
      d.keepRead 0x600000 8 = bytesLE 4 0x4E524A44 ++ bytesLE 4 s.dev.journal.jseq ∧
      (∀ m ∈ s.dev.dmap, ∀ e ∈ m.cur, d.keepRead (6 * e.slot) 6 = bytesLE 6 (e.bits m.cur)) ∧
      (∀ a, 0x780000 ≤ a → d.keepRead a 1 = s.dev.keepRead a 1) ∧
      ({ s.dev with keep := d.keep, journal := d.journal } : Dev).Only d [F.RAWC_JOURNAL_USED])) ∧
  (∀ (s : State) (mask : Fin 65536) (n : Nat), s.dev.Reaches R.COL_COMMIT → (List.range 16).filter (bitOf mask) = [n] →
    (s.dev.flag (F.COL_CFG_SID_SYNC n) = true → Completes (.colCommit mask) s (fun d => d = s.dev)) ∧
    (s.dev.flag (F.COL_CFG_SID_SYNC n) = false →
      (∀ b < 6, s.dev.get (F.COL_BR_LUT_LUT3D_EN n b) = 0 ∧
        s.dev.get (F.COL_BR_LUT_LUT3D_IDX n b) = s.dev.eget (F.COL_BR_LUT_LUT3D_IDX n b)) →
      Completes (.colCommit mask) s (fun d =>
        (∀ a, d.effWord a = if a ∈ colShadows n then s.dev.word a else s.dev.effWord a) ∧
        d = { s.dev with regs := { s.dev.regs with eff := d.regs.eff } }))) ∧
  (∀ (s : State) (n : Fin 16),
    let u := s.dev.lutUnit n
    ((s.dev.luts.getD u {}).loading = none → Completes (.lut3dLoadDone n) s (fun d => d = s.dev)) ∧
    (∀ m b t, (s.dev.luts.getD u {}).loading = some (m, b, t) → (s.dev.luts.getD u {}).held.length < 2 →
      Completes (.lut3dLoadDone n) s (fun d => d.get (F.COL_BR_LUT_STATUS_LOADING m b) = 0 ∧
        ({ s.dev with luts := s.dev.luts.set u { held := (s.dev.luts.getD u {}).held ++ [t], loading := none } } : Dev).Only d
          [F.COL_BR_LUT_STATUS_LOADING m b])))

/-! ### Compression, the recorder and offload (R241-R282, R345-R348) -/

/-- TILE_EMITTED (R242) on an engine from which no work returns: without a tile nothing; otherwise the oldest tile leaves the queue, its frame
counts it, and the last tile of a frame ends the frame's coding. TILE_DECODED (R244) of a frame with more tiles to come: a good tile's samples join the
frame, a bad one is counted; without a job nothing. ZE_JOB_START (R248, R249): nothing while image work has the engine or no source waits; the
recorder's job, or that of a ring in HOST_WIN, is on the engine. GENERAL_JOB_DONE of a ring's job (R254): completed with its status, counted in CONS.
ZE_RING_ABORT where it reaches its register, and EP0_LINK_DOWN (R253): the ring's job ends ABORTED. EP0_LINK_UP (R256). -/
def Obligations.TilesAndJobs : Prop :=
  (∀ (s : State) (z : Fin 20), s.dev.srv.returns = [] →
    (s.dev.ze.queues.getD z [] = [] → Completes (.tileEmitted z) s (fun d => d = s.dev)) ∧
    (∀ t rest k e, s.dev.ze.queues.getD z [] = t :: rest → t.ctx < 16 → s.dev.ze.frames = [k] → k.ctx = t.ctx → k.fseq = t.fseq →
      s.dev.rawEntries.find? (fun e => e.ctx == t.ctx && e.fseq == t.fseq) = some e → Completes (.tileEmitted z) s (fun d =>
        d.ze.queues.getD z [] = rest ∧
        (∀ e ∈ d.rawEntries, e.ctx = t.ctx → e.fseq = t.fseq → e.krc = k.total - (k.emitted + 1)) ∧
        (k.emitted + 1 = k.total → d.ze.frames = [] ∧ d.get (F.ZE_LAST_FSEQ_FSEQ t.ctx) = t.fseq % 2 ^ 32) ∧
        (k.emitted + 1 ≠ k.total → d.ze.frames.map (fun x => (x.ctx, x.fseq, x.emitted)) = [(k.ctx, k.fseq, k.emitted + 1)])))) ∧
  (∀ (s : State) (z : Fin 20), s.dev.recd.job = none ∨ s.dev.zeActive.contains z.val = false →
    Completes (.tileDecoded z) s (fun d => d = s.dev)) ∧
  (∀ (s : State) (z : Fin 20) (j : OffJob) (f : OffFrame) (t : DecTile), s.dev.zeActive.contains z.val = true →
    s.dev.recd.job = some j → j.phase = 2 → j.flight = [f] → f.next + 1 < f.total → f.tiles.find? (fun t => t.idx == f.next) = some t →
    let w := (s.dev.activeWH j.ctx).1
    let h := (s.dev.activeWH j.ctx).2
    let r := krcDecode (min 256 (w - f.next % tileCols w * 256)) (min 64 (h - f.next / tileCols w * 64)) t.bytes
    (∀ px, r = .ok px → Completes (.tileDecoded z) s (fun d => d = { s.dev with recd := { s.dev.recd with job := some { j with
      flight := [{ f with next := f.next + 1, plane := Sparse.put (fun _ => []) f.plane f.next px,
                          tiles := f.tiles.filter (fun t => t.idx != f.next) }] } } })) ∧
    (∀ c, r = .bad c → Completes (.tileDecoded z) s (fun d =>
      d.get (F.ZE_CNT_BAD_TILES j.ctx) = (s.dev.get (F.ZE_CNT_BAD_TILES j.ctx) + 1) % 65536 ∧
      d.recd.job.map (fun j => (j.bad, j.flight.map (fun f => (f.next, f.bad)))) = some (j.bad + 1, [(f.next + 1, true)])))) ∧
  (∀ (s : State) (z : Fin 20) (host : List (Nat × List Byte)),
    (s.dev.generalMayStart z = false ∨ s.dev.nextSource = none → Completes (.zeJobStart z host) s (fun d => d = s.dev)) ∧
    (∀ n input rest, s.dev.generalMayStart z = true → s.dev.nextSource = some 8 → s.dev.ze.recJobs = (n, input) :: rest →
      s.dev.ze.jobs.length = 20 → Completes (.zeJobStart z host) s (fun d =>
        d.ze = { s.dev.ze with
          jobs := s.dev.ze.jobs.set z (some { source := 8, desc := [], bufs := [], input := input, status := none }) } ∧
        ({ s.dev with ze := d.ze } : Dev).Only d [F.ZE_BUSY_IMG_ZE, F.ZE_BUSY_GEN_ZE] ∧ bitOf (d.get F.ZE_BUSY_GEN_ZE) z = true)) ∧
    (∀ r < 8, s.dev.generalMayStart z = true → s.dev.nextSource = some r → s.dev.get (F.ZE_RING_CFG_SPACE r) = 1 →
      s.dev.ze.jobs.length = 20 →
      let desc := s.dev.poolRead poolHost
        (s.dev.get (F.ZE_RING_LO_ADDR r) + s.dev.get (F.ZE_RING_HI_ADDR r) * 2 ^ 32 + 64 * s.dev.ringPos r) 64
      leAt desc 0xE 2 / 2 % 2 = 1 → Completes (.zeJobStart z host) s (fun d =>
        (d.ze.jobs.getD z none).map (fun j => (j.source, j.desc)) = some (r, desc) ∧ d.ze.lastRing = r ∧
        d.flag (F.ZE_RING_STATUS_RUNNING r) = true ∧ d.get (F.ZE_RING_STATUS_ZE r) = z))) ∧
  (∀ (s : State) (z : Fin 20), s.dev.srv.returns = [] →
    (s.dev.ze.jobs.getD z none = none → Completes (.generalJobDone z) s (fun d => d = s.dev)) ∧
    (∀ j, s.dev.ze.jobs.getD z none = some j → j.source < 8 → Completes (.generalJobDone z) s (fun d =>
      d.ze.jobs = s.dev.ze.jobs.set z none ∧ d.flag (F.ZE_RING_STATUS_RUNNING j.source) = false ∧
      d.get (F.ZE_RING_CONS_IDX j.source) = (s.dev.get (F.ZE_RING_CONS_IDX j.source) + 1) % 65536 ∧
      d.get (F.ZE_RING_STATUS_LAST_STATUS j.source) = (match j.status with
        | some st => st % 8
        | none => jobOutcome j.ngr (sumNat (j.bufs.map (·.2))) j.input.length (generalStream (leAt j.desc 0xC 1)
            (bitOf (leAt j.desc 0xE 2) 0) j.input)) ∧
      (bitOf (leAt j.desc 0xE 2) 3 = false → s.dev.ep0Up = true → .msix (s.dev.get (F.ZE_RING_CFG_VECTOR j.source)) ∈ d.out)))) ∧
  (∀ (s : State) (r : Fin 8), s.dev.Reaches (R.ZE_RING_CTRL r) →
    ((∀ z < 20, ∀ j, s.dev.ze.jobs.getD z none = some j → j.source ≠ r) → Completes (.zeRingAbort r) s (fun d =>
      d.get (F.ZE_RING_CFG_EN r) = 0 ∧ d.get (F.ZE_RING_CTRL_ABORT r) = 0 ∧
      s.dev.Only d [F.ZE_RING_CFG_EN r, F.ZE_RING_CTRL_ABORT r])) ∧
    (∀ z < 20, ∀ j, s.dev.ze.jobs.getD z none = some j → j.source = r → (∀ x < z, s.dev.ze.jobs.getD x none = none) →
      Completes (.zeRingAbort r) s (fun d => d.ze.jobs.getD z none = none ∧ d.get (F.ZE_RING_STATUS_LAST_STATUS r) = 5 ∧
        d.get (F.ZE_RING_CONS_IDX r) = (s.dev.get (F.ZE_RING_CONS_IDX r) + 1) % 65536 ∧ d.get (F.ZE_RING_CFG_EN r) = 0))) ∧
  (∀ s : State, (∀ z < 20, ∀ j, s.dev.ze.jobs.getD z none = some j → j.source < 8 → s.dev.flag (F.ZE_RING_CFG_SPACE j.source) = true) →
    Completes .ep0LinkDown s (fun d => d = { s.dev with ep0Up := false })) ∧
  (∀ (s : State) (z : Nat) (j : GenJob), z < 20 → s.dev.ze.jobs.getD z none = some j → j.source < 8 →
    s.dev.flag (F.ZE_RING_CFG_SPACE j.source) = false → (∀ x, x ≠ z → s.dev.ze.jobs.getD x none = none) →
    Completes .ep0LinkDown s (fun d => d.ep0Up = false ∧ d.ze.jobs.getD z none = none ∧
      d.get (F.ZE_RING_STATUS_LAST_STATUS j.source) = 5)) ∧
  (∀ s : State, Completes .ep0LinkUp s (fun d => d = { s.dev with ep0Up := decide (s.dev.get F.PCIE_CFG_LANE_OPT ≠ 2) }))

/-- REC_START and REC_STOP where they reach REC_CTRL (R274, R277): clips are awaited for every masked recording context, START is held while one
still closes, and a stop ends the open clip after its last slot. REC_META_QUEUE (R268): the bytes join the LENS records of the masked
clips. PCIE_LINK_UP (R257): initialisation starts with Identify; PCIE_LINK_DOWN and NVME_TIMEOUT (R261): the drive fails, degraded where its
group has another. NVME_COMPLETION: a transient error is retried, each step of initialisation leads to the next (R258).
OFFLOAD_JOB_START (R345): the next job reads its directory, or is refused; OFFLOAD_JOB_DONE (R348): completed and counted. -/
def Obligations.RecorderAndDrives : Prop :=
  (∀ s : State, s.dev.Reaches R.REC_CTRL →
    (s.dev.modeCode ≠ mCapture ∨ s.dev.flag F.REC_CFG_EN = false → Completes .recStart s (fun d => d = s.dev)) ∧
    (s.dev.modeCode = mCapture → s.dev.flag F.REC_CFG_EN = true → s.dev.isRefused R.REC_CFG = false → s.dev.recd.recov = none →
      let ns := (List.range 16).filter (fun n => bitOf (s.dev.get F.REC_CTX_MASK_MASK) n && s.dev.flag (F.ZE_KRC_EN n))
      (s.dev.recd.clips = List.replicate 16 none → Completes .recStart s (fun d =>
        d.recd = { s.dev.recd with opening := ns, startHeld := false, flushFrom := none } ∧
        d.get F.REC_CTRL_START = (if ns = [] then 0 else 1) ∧
        ({ s.dev with recd := d.recd } : Dev).Only d [F.REC_CTRL_START, F.REC_STATUS_STATE])) ∧
      ((∃ c, some c ∈ s.dev.recd.clips ∧ c.closing = 1) → Completes .recStart s (fun d =>
        d.recd = { s.dev.recd with startHeld := true } ∧ d.get F.REC_CTRL_START = 1 ∧
        ({ s.dev with recd := d.recd } : Dev).Only d [F.REC_CTRL_START]))) ∧
    (s.dev.recd.clips = List.replicate 16 none → Completes .recStop s (fun d =>
      d.recd = { s.dev.recd with opening := [], startHeld := false } ∧ d.get F.REC_CTRL_START = 0 ∧
      ({ s.dev with recd := d.recd } : Dev).Only d [F.REC_CTRL_START])) ∧
    (∀ n c, n < 16 → s.dev.recd.clips = (List.replicate 16 none).set n (some c) → c.closing ≠ 1 → c.blobs ≠ [] →
      Completes .recStop s (fun d => d.recd = { s.dev.recd with
          opening := [], startHeld := false, clips := (List.replicate 16 none).set n (some { c with ending := some 0 }) } ∧
        d.get F.REC_CTRL_STOP = 1 ∧ ({ s.dev with recd := d.recd } : Dev).Only d [F.REC_CTRL_STOP]))) ∧
  (∀ (s : State) (mask len : Nat), s.dev.Reaches R.REC_META_CTRL → Completes (.recMetaQueue mask len) s (fun d =>
    d.get F.REC_META_CTRL_LEN = len % 4096 ∧ d.recd = { s.dev.recd with clips := d.recd.clips } ∧
    (∀ n < 16, d.clip? n = (s.dev.clip? n).map (fun c =>
      if bitOf mask n = true ∧ len % 4096 ≠ 0 then
        { c with lens := c.lens ++ [s.dev.poolRead poolHost (s.dev.get F.REC_META_OFFSET * 16) (len % 4096)] } else c)) ∧
    ({ s.dev with recd := d.recd } : Dev).Only d [F.REC_META_CTRL_LEN])) ∧
  (∀ (s : State) (k : Fin 4) (gen width : Nat),
    (s.dev.rootPorts ≤ k.val ∨ (s.dev.drive k).up = true → Completes (.pcieLinkUp k gen width) s (fun d => d = s.dev)) ∧
    (k.val < s.dev.rootPorts → (s.dev.drive k).up = false → s.dev.recd.drives.length = 4 →
      Completes (.pcieLinkUp k gen width) s (fun d => (d.drive k).up = true ∧ (d.drive k).hdrRead = false ∧
        d.get (F.REC_RP_STATUS_GEN k) = min gen (s.dev.get F.PCIE_CFG_RP_MAX_GEN) % 8 ∧
        d.get (F.REC_RP_STATUS_WIDTH k) = min width 4 ∧
        (if s.dev.flag (F.REC_RP_STATUS_FAILED k) = true then (d.drive k).outCmds = [] ∧ d.out = s.dev.out
          else (d.drive k).outCmds = [{ num := (s.dev.drive k).nextNum, kind := 1 }] ∧ d.out = s.dev.out ++ [.nvme k 1 0 []]) ∧
        ({ s.dev with recd := d.recd, out := d.out } : Dev).Only d [F.REC_RP_STATUS_GEN k, F.REC_RP_STATUS_WIDTH k]))) ∧
  (∀ (s : State) (k : Fin 4),
    ((s.dev.drive k).up = false → Completes (.pcieLinkDown k) s (fun d => d = s.dev)) ∧
    ((s.dev.drive k).outCmds = [] → Completes (.nvmeTimeout k) s (fun d => d = s.dev)) ∧
    (s.dev.flag (F.REC_RP_STATUS_FAILED k) = false → s.dev.flag F.REC_CFG_EN = false → s.dev.recd.clips = List.replicate 16 none →
      s.dev.recd.flushFrom = none → (∀ c ∈ (s.dev.drive k).outCmds, c.kind ≠ 11) →
      let g := ((List.range s.dev.recGroups).find? (fun g => (s.dev.groupDrives g).contains k.val)).getD 0
      let spare := (s.dev.groupDrives g).any (fun i => i != k.val && !s.dev.flag (F.REC_RP_STATUS_FAILED i))
      let failed := fun (also : List Fld) (d : Dev) =>
        d.flag (F.REC_RP_STATUS_FAILED k) = true ∧ d.flag (F.REC_RP_STATUS_READY k) = false ∧ (d.drive k).outCmds = [] ∧
        (s.dev.recDrives.contains k.val = true → spare = true → d.flag F.REC_STATUS_DEGRADED = true) ∧
        ({ s.dev with recd := d.recd } : Dev).Within d
          ([F.REC_RP_STATUS_FAILED k, F.REC_RP_STATUS_READY k, F.REC_STATUS_DRIVES_UP, F.REC_STATUS_DEGRADED] ++ also)
      ((s.dev.drive k).up = true → Completes (.pcieLinkDown k) s (fun d => (d.drive k).up = false ∧
        d.get (F.REC_RP_STATUS_GEN k) = 0 ∧ d.get (F.REC_RP_STATUS_WIDTH k) = 0 ∧
        failed [F.REC_RP_STATUS_GEN k, F.REC_RP_STATUS_WIDTH k] d)) ∧
      ((s.dev.drive k).outCmds ≠ [] → Completes (.nvmeTimeout k) s (fun d =>
        d.get (F.REC_RP_CNT_TIMEOUTS k) = (s.dev.get (F.REC_RP_CNT_TIMEOUTS k) + 1) % 65536 ∧
        failed [F.REC_RP_CNT_TIMEOUTS k] d)))) ∧
  (∀ (s : State) (k : Fin 4) (num : Nat) (data : List Byte),
    ((∀ c ∈ (s.dev.drive k).outCmds, c.num ≠ num) → ∀ st, Completes (.nvmeCompletion k num st data) s (fun d => d = s.dev)) ∧
    (∀ c, (s.dev.drive k).outCmds.find? (fun c => c.num == num) = some c →
      let others := (s.dev.drive k).outCmds.filter (fun y => !(y.num == num))
      let next := fun (kind : Nat) (d : Dev) => (d.drive k).outCmds = others ++ [{ num := (s.dev.drive k).nextNum, kind := kind }] ∧
        d = { s.dev with recd := d.recd, out := s.dev.out ++ [.nvme k kind 0 []] }
      (c.retries < 2 → Completes (.nvmeCompletion k num 1 data) s (fun d =>
        d.get (F.REC_RP_CNT_RETRIES k) = (s.dev.get (F.REC_RP_CNT_RETRIES k) + 1) % 65536 ∧
        (d.drive k).outCmds = others ++ [{ c with num := (s.dev.drive k).nextNum, retries := c.retries + 1 }] ∧
        ({ s.dev with recd := d.recd, out := d.out } : Dev).Only d [F.REC_RP_CNT_RETRIES k])) ∧
      (c.kind = 3 → Completes (.nvmeCompletion k num 0 data) s (next (if (s.dev.drive k).vwc = true then 4 else 5))) ∧
      (c.kind = 5 → Completes (.nvmeCompletion k num 0 data) s (next 6)) ∧
      (c.kind = 6 → s.dev.flag F.REC_CFG_BACKING = true → Completes (.nvmeCompletion k num 0 data) s (fun d =>
        d.flag (F.REC_RP_STATUS_READY k) = true ∧ bitOf (d.get F.REC_STATUS_DRIVES_UP) k = true ∧
        (d.drive k).hdrRead = true ∧ (d.drive k).outCmds = others ∧
        ({ s.dev with recd := d.recd } : Dev).Only d [F.REC_RP_STATUS_READY k, F.REC_STATUS_DRIVES_UP])))) ∧
  (∀ s : State, (s.dev.offMay = false → Completes .offloadJobStart s (fun d => d = s.dev)) ∧
    (s.dev.offMay = true →
      let bay := leAt s.dev.offDesc 0x18 1
      (∀ lba, s.dev.offDir s.dev.offDesc = some lba → bay < 4 → s.dev.driveOk bay = true → leAt s.dev.offDesc 0x19 1 < 16 →
        Completes .offloadJobStart s (fun d =>
          d.recd.job = some { desc := s.dev.offDesc, from_ := s.dev.elapsed, spool := lba } ∧
          d = { s.dev with recd := d.recd, out := s.dev.out ++ [.nvme bay 11 lba (bytesLE 4 (s.dev.readChunk bay))] })) ∧
      (s.dev.offDir s.dev.offDesc = none ∨ 4 ≤ bay → Completes .offloadJobStart s (fun d => d = { s.dev with recd := { s.dev.recd with
        job := some { desc := s.dev.offDesc, from_ := s.dev.elapsed, status := some 4, phase := 2 } } })))) ∧
  (∀ s : State, (s.dev.recd.job = none → Completes .offloadJobDone s (fun d => d = s.dev)) ∧
    (∀ j, s.dev.recd.job = some j → (j.phase ≠ 2 ∨ j.flight ≠ [] ∨ s.dev.offDeveloping = true →
        Completes .offloadJobDone s (fun d => d = s.dev)) ∧
      (j.phase = 2 → j.flight = [] → s.dev.offDeveloping = false → Completes .offloadJobDone s (fun d => d.recd.job = none ∧
        d.get F.REC_OFF_IDX_CONS = (s.dev.get F.REC_OFF_IDX_CONS + 1) % 65536 ∧
        (s.dev.ep0Up = true → .msix (s.dev.get F.REC_OFF_COMPL_VECTOR) ∈ d.out)))))

/-! ### Rasters and Gecko paths (R350-R382) -/

/-- RASTER_FETCH_START (R354) of a raster with one VIDEO layer, outside BASK: the layer shows the selected buffer that fits the raster and holds it;
with none to select it repeats. RASTER_FRAME_START (R351, R352, R364): the frame counts and runs, its phase error is shown, LOCKED falls beyond
1,000 ns. RAS_LOCK_ACQUIRED (R352). RASTER_LINE_FETCH (R357, R362, R363): a line goes out, black in a black frame; a source that is not
complete or a FIFO without a sample is an underrun. RASTER_VBLANK (R359): the frame ends, and requested shadows take effect. RASTER_FRAME_END (R379,
R380): the freeze detector and the readback counter. GECKO_ROW_RELEASE (R375, R378): a row on time is composed, a damaged one repeats
the row before, a late one ends the frame. Lists have the lengths they have in every state that a run reaches. -/
def Obligations.RastersAndGecko : Prop :=
  (∀ (s : State) (r : Fin 6),
    ((s.dev.rasScans r = false ∨ s.dev.gkMode r = true ∨ (s.dev.rs r).fetched = true ∨ (s.dev.rs r).blackFrames ≠ 0) →
      Completes (.rasterFetchStart r) s (fun d => d = s.dev)) ∧
    (s.dev.rasScans r = true → s.dev.gkMode r = false → (s.dev.rs r).fetched = false → (s.dev.rs r).blackFrames = 0 →
      s.dev.ras.length = 6 → (s.dev.rs r).shown.length = 8 → s.dev.modeCode ≠ mBask → s.dev.layers r = [0] → s.dev.layKind r 0 = 0 →
      s.dev.layUsed r 0 = true →
      (∀ n, (s.dev.rs r).shown.getD 0 none = none → s.dev.selectBuf r 0 (s.dev.rasNext r) = some n → s.dev.bufMatches r n.off = true →
        Completes (.rasterFetchStart r) s (fun d => (d.rs r).shown.getD 0 none = some n ∧ (d.rs r).fetched = true ∧
          (d.rs r).repeat0 = false ∧ d.bufHeld n.key = true ∧ d.get (F.RAS_LAY_SHOWN_FSEQ r 0) = n.fseq % 2 ^ 32 ∧
          ({ s.dev with ras := d.ras, holds := d.holds } : Dev).Only d [F.RAS_LAY_SHOWN_FSEQ r 0])) ∧
      (∀ o, (s.dev.rs r).shown.getD 0 none = some o → s.dev.selectBuf r 0 (s.dev.rasNext r) = none →
        Completes (.rasterFetchStart r) s (fun d => (d.rs r).shown.getD 0 none = some o ∧ (d.rs r).fetched = true ∧
          (d.rs r).repeat0 = true ∧ d.get (F.RAS_CNT_REPEATS r) = (s.dev.get (F.RAS_CNT_REPEATS r) + 1) % 65536 ∧
          ({ s.dev with ras := d.ras, holds := d.holds } : Dev).Only d [F.RAS_CNT_REPEATS r])))) ∧
  (∀ (s : State) (r : Fin 6) (phase : Int),
    ((s.dev.rs r).run = false ∨ s.dev.gkMode r = true → Completes (.rasterFrameStart r phase) s (fun d => d = s.dev)) ∧
    ((s.dev.rs r).run = true → s.dev.gkMode r = false → s.dev.ras.length = 6 →
      ((s.dev.rs r).fetched = true ∨ (s.dev.rs r).blackFrames ≠ 0 ∨ s.dev.rasScans r = false) →
      let count := (s.dev.get (F.RAS_FRAME_COUNT r) + 1) % 2 ^ 32
      let slew : Int := s.dev.rasLineNs r * s.dev.get (F.RAS_PANEL_V_SLEW r)
      Completes (.rasterFrameStart r phase) s (fun d =>
        d.get (F.RAS_FRAME_COUNT r) = count ∧ d.flag (F.RAS_STATUS_VBLANK r) = false ∧
        d.get (F.RAS_STATUS_PHASE_NS r) = satSigned 16 phase ∧
        d.flag (F.RAS_STATUS_LOCKED r) = (s.dev.flag (F.RAS_STATUS_LOCKED r) && decide (phase.natAbs ≤ 1000)) ∧
        (d.rs r).active = true ∧ (d.rs r).black = false ∧ (d.rs r).under = false ∧ (d.rs r).fetched = false ∧
        (d.rs r).k = (s.dev.rs r).k + 1 ∧ (d.rs r).start = s.dev.rasNext r ∧
        (d.rs r).off = (s.dev.rs r).off - clampInt (s.dev.rs r).off (-slew) slew ∧
        (4 ≤ r.val → .video 2 r [r.val - 4, count, match (s.dev.rs r).shown.getD 0 none with
          | some b => b.trig % 2 ^ 48
          | none => 0] ∈ d.out) ∧
        (r.val < 4 → ∃ rest, .video 3 r ([s.dev.eget (F.SDI_RS_CFG_STD r), s.dev.eget (F.RAS_RATE_NUM r), s.dev.eget (F.RAS_RATE_DEN r),
          s.dev.eget (F.RAS_FMT_YCC r), s.dev.eget (F.RAS_FMT_TF r)] ++ rest) ∈ d.out)))) ∧
  (∀ (s : State) (r : Fin 6),
    ((s.dev.rs r).run = true → (s.dev.rs r).lockFrom + nsPerS ≤ s.dev.elapsed → Completes (.rasLockAcquired r) s (fun d =>
      d.flag (F.RAS_STATUS_LOCKED r) = true ∧ s.dev.Only d [F.RAS_STATUS_LOCKED r])) ∧
    ((s.dev.rs r).run = false ∨ s.dev.elapsed < (s.dev.rs r).lockFrom + nsPerS → Completes (.rasLockAcquired r) s (fun d => d = s.dev)) ∧
    (s.dev.Reaches (R.RAS_COMMIT r) → Completes (.rasCommit r) s (fun d => d.flag (F.RAS_COMMIT_GO r) = true ∧
      d.flag (F.RAS_STATUS_PENDING r) = true ∧ s.dev.Only d [F.RAS_COMMIT_GO r, F.RAS_STATUS_PENDING r]))) ∧
  (∀ (s : State) (r : Fin 6) (y : Nat) (fifo : Fin 11),
    let line := s.dev.get (F.RAS_FRAME_COUNT r) :: y :: s.dev.outputLine r (s.dev.composeLine r y)
    let complete := ∀ l ∈ s.dev.layers r, s.dev.layKind r l = 0 → s.dev.layFetched r l y = true →
      ∀ b, (s.dev.rs r).shown.getD l none = some b →
        s.dev.eget (F.RAS_LAY_SRC_XY_Y r l) + (y - s.dev.eget (F.RAS_LAY_POS_Y r l)) < s.dev.poolNat poolDev (b.off + 0xC) 4
    ((s.dev.rs r).active = false ∨ s.dev.gkMode r = true ∨ s.dev.eget (F.RAS_TIMING0_V_ACTIVE r) ≤ y →
      Completes (.rasterLineFetch r y fifo) s (fun d => d = s.dev)) ∧
    ((s.dev.rs r).active = true → s.dev.gkMode r = false → y < s.dev.eget (F.RAS_TIMING0_V_ACTIVE r) →
      ((s.dev.rs r).black = true ∨ 0 < (s.dev.rs r).blackFrames ∨ s.dev.rasScans r = false →
        Completes (.rasterLineFetch r y fifo) s (fun d => d = { s.dev with out := s.dev.out ++ [.video 1 r line] })) ∧
      ((s.dev.rs r).black = false → (s.dev.rs r).blackFrames = 0 → s.dev.rasScans r = true →
        (complete → fifo.val = 0 →
          Completes (.rasterLineFetch r y fifo) s (fun d => d = { s.dev with out := s.dev.out ++ [.video 0 r line] })) ∧
        (¬ complete ∨ fifo.val ≠ 0 → s.dev.get (F.RAS_CFG_GROUP r) = 0 → s.dev.ras.length = 6 →
          Completes (.rasterLineFetch r y fifo) s (fun d =>
            d.get (F.RAS_CNT_UNDERRUN r) = (s.dev.get (F.RAS_CNT_UNDERRUN r) + 1) % 65536 ∧ (d.rs r).under = true ∧
            (r.val < 4 → (d.rs r).black = true ∧ (d.rs r).active = true ∧
              ({ s.dev with ras := d.ras } : Dev).Within d [F.RAS_CNT_UNDERRUN r]) ∧
            (4 ≤ r.val → (d.rs r).active = false ∧ (d.rs r).fetched = false ∧
              .video 4 r [s.dev.get (F.RAS_FRAME_COUNT r), y] ∈ d.out)))))) ∧
  (∀ (s : State) (r : Fin 6),
    ((s.dev.rs r).run = false → Completes (.rasterVblank r) s (fun d => d = s.dev)) ∧
    ((s.dev.rs r).run = true → s.dev.ras.length = 6 →
      (s.dev.flag (F.RAS_COMMIT_GO r) = false → s.dev.mode.autoLatch.contains (200 + r.val) = false →
        Completes (.rasterVblank r) s (fun d => d.flag (F.RAS_STATUS_VBLANK r) = true ∧
          d.rs r = { s.dev.rs r with active := false, blackFrames := (s.dev.rs r).blackFrames - 1 } ∧
          ({ s.dev with ras := d.ras } : Dev).Only d [F.RAS_STATUS_VBLANK r])) ∧
      (s.dev.flag (F.RAS_COMMIT_GO r) = true → s.dev.get (F.RAS_CFG_GROUP r) = 0 → (r.val < 4 → sdiBad r s.dev.get = none) →
        s.dev.rasBadReg r s.dev.get = none → Completes (.rasterVblank r) s (fun d => d.flag (F.RAS_STATUS_VBLANK r) = true ∧
          (d.rs r).active = false ∧ d.flag (F.RAS_COMMIT_GO r) = false ∧ d.flag (F.RAS_STATUS_PENDING r) = false ∧
          ∀ a ∈ s.dev.rasRegs r, d.effWord a = s.dev.word a)))) ∧
  (∀ (s : State) (r : Fin 6) (mism : Nat),
    ((s.dev.rs r).active = false → Completes (.rasterFrameEnd r mism) s (fun d => d = s.dev)) ∧
    ((s.dev.rs r).active = true → s.dev.eget (F.RAS_FRZ_EN r) = 0 →
      (r.val < 4 ∨ s.dev.flag (F.RAS_RB_RB_EN r) = false → Completes (.rasterFrameEnd r mism) s (fun d => d = s.dev)) ∧
      (4 ≤ r.val → s.dev.flag (F.RAS_RB_RB_EN r) = true → Completes (.rasterFrameEnd r mism) s (fun d =>
        d.get (F.RAS_RB_CNT_MISMATCH r) = (s.dev.get (F.RAS_RB_CNT_MISMATCH r) + mism) % 65536 ∧
        s.dev.Within d [F.RAS_RB_CNT_MISMATCH r]))) ∧
    (∀ src, (s.dev.rs r).active = true → s.dev.eget (F.RAS_FRZ_EN r) = 1 → (s.dev.rs r).under = false → s.dev.ras.length = 6 →
      r.val < 4 ∨ s.dev.flag (F.RAS_RB_RB_EN r) = false → s.dev.rasSrc r = some src →
      0 < signed 64 (toBits 64 ((src : Int) - (s.dev.rs r).lastSrc)) →
      let sig := s.dev.rasSig r
      let same := if sig = (s.dev.rs r).lastSig then min ((s.dev.rs r).same + 1) 255 else 0
      Completes (.rasterFrameEnd r mism) s (fun d => d.get (F.RAS_SIG_SIG r) = sig % 2 ^ 32 ∧
        d.rs r = { s.dev.rs r with lastSig := sig, lastSrc := src, same := same } ∧
        d.flag (F.RAS_STATUS_FROZEN r) = (if same = s.dev.eget (F.RAS_FRZ_FRAMES r) ∧ s.dev.flag (F.RAS_STATUS_FROZEN r) = false then true
          else if same = 0 then false else s.dev.flag (F.RAS_STATUS_FROZEN r)) ∧
        ({ s.dev with ras := d.ras } : Dev).Within d [F.RAS_SIG_SIG r, F.RAS_STATUS_FROZEN r]))) ∧
  (∀ (s : State) (r : Fin 6) (lanes : Fin 16),
    (4 ≤ r.val → (s.dev.rs r).run = true → s.dev.flag (F.RAS_RB_RB_EN r) = true → Completes (.rbLockTimeout r lanes) s (fun d =>
      d.get (F.RAS_RB_CNT_LOST r) = (s.dev.get (F.RAS_RB_CNT_LOST r) + 1) % 65536 ∧ s.dev.Within d [F.RAS_RB_CNT_LOST r])) ∧
    (r.val < 4 ∨ (s.dev.rs r).run = false ∨ s.dev.flag (F.RAS_RB_RB_EN r) = false →
      Completes (.rbLockTimeout r lanes) s (fun d => d = s.dev))) ∧
  (∀ (s : State) (p : Fin 8),
    ((s.dev.gkp p).frame = none → Completes (.geckoRowRelease p) s (fun d => d = s.dev)) ∧
    (∀ fs fseq st, (s.dev.gkp p).frame = some (fs, fseq, st) → s.dev.gk.length = 8 →
      let g := s.dev.gkp p
      let by_ := 2 ^ s.dev.get (F.GK_CFG_BY p)
      let w := s.dev.get (F.GK_WIN_WH_W p) / 2 ^ s.dev.get (F.GK_CFG_BX p)
      let onTime := fun (row : Nat) (k : GkRow) => g.rows.find? (fun k => k.r == row) = some k ∧ k.at_ + 32 ≤ s.dev.gkRelease p g.next fs
      let need := (List.range (min ((g.next + 1) * by_) (s.dev.get (F.GK_WIN_WH_H p) - 1) + 1)).filter (fun row => g.next * by_ ≤ row + 1)
      (s.dev.get (F.GK_WIN_WH_H p) / by_ ≤ g.next → Completes (.geckoRowRelease p) s (fun d => d = s.dev)) ∧
      (g.next < s.dev.get (F.GK_WIN_WH_H p) / by_ →
        ((∃ row ∈ need, ∀ k, ¬ onTime row k) → Completes (.geckoRowRelease p) s (fun d => (d.gkp p).frame = none ∧
          d.get (F.GK_CNT_LATE p) = (s.dev.get (F.GK_CNT_LATE p) + 1) % 65536 ∧
          (s.dev.gkRasters p = [] → ({ s.dev with gk := d.gk } : Dev).Within d [F.GK_CNT_LATE p]))) ∧
        ((∀ row ∈ need, ∃ k, onTime row k ∧ k.damaged = false) →
          (s.dev.gkRasters p = [] → Completes (.geckoRowRelease p) s (fun d =>
            d.gkp p = { g with next := g.next + 1, comp := g.comp ++ [s.dev.gkRow p g.next] } ∧ d = { s.dev with gk := d.gk })) ∧
          (∀ r, s.dev.gkRasters p = [r] → g.next ≠ 0 →
            let row := (s.dev.gkRow p g.next).zipIdx.map (fun q => s.dev.composePixel r q.2 g.next true q.1)
            Completes (.geckoRowRelease p) s (fun d =>
              d.gkp p = { g with next := g.next + 1, comp := g.comp ++ [row] } ∧
              d = { s.dev with gk := d.gk, out := s.dev.out ++
                [.video 0 r (s.dev.get (F.RAS_FRAME_COUNT r) :: g.next :: s.dev.outputLine r row)] }))) ∧
        ((∀ row ∈ need, ∃ k, onTime row k) → (∃ row ∈ need, ∃ k, onTime row k ∧ k.damaged = true) → s.dev.gkRasters p = [] →
          Completes (.geckoRowRelease p) s (fun d =>
            d.get (F.GK_CNT_DAMAGED_ROWS p) = (s.dev.get (F.GK_CNT_DAMAGED_ROWS p) + 1) % 65536 ∧
            d.gkp p = { g with next := g.next + 1, comp := g.comp ++
              [if g.next = 0 then List.replicate w (0, 0, 0) else g.comp.getD (g.next - 1) []] } ∧
            ({ s.dev with gk := d.gk } : Dev).Only d [F.GK_CNT_DAMAGED_ROWS p]))))) ∧
  (∀ (s : State) (p : Fin 8),
    (s.dev.flag (F.GK_CFG_EN p) = true → Completes (.geckoFsMissing p) s (fun d =>
      d = { s.dev with out := s.dev.out ++ (s.dev.gkRasters p).map (fun r => .video 6 r [0x12, 0, 0, 0, 0, 0]) })) ∧
    (s.dev.flag (F.GK_CFG_EN p) = false → Completes (.geckoFsMissing p) s (fun d => d = s.dev)))

/-! ### Device time, PTP, schedules, pulses and timecode (R383-R398) -/

/-- As follower (R390): a Sync or its Follow_Up from the leader measures; with path delays known the servo shows the offset, moves the increment
within SLEW_PPM, locks after 16 good Syncs and holds over after 4 bad ones; a Delay_Resp adds a path delay. Announce messages and their timeout run BMCA
(R388). As leader (R387) Sync, Follow_Up, Announce and Delay_Resp go out. TIME_SET and TIME_STEP_NOW (R391, R392) where they reach TIME_CTRL and no frame
slot is open. TRIG_SCHED_COMMIT and TRIG_SCHED_SWITCH (R395), PULSE_EDGE and PULSE_FALL (R397), LTC_FRAME and LTC_FRAME_MISSING (R398). The increment
is a free value within its bounds: the spec gives no gains. -/
def Obligations.DeviceTime : Prop :=
  (∀ (s : State) (i : Fin 8) (dom src seq t1 : Nat) (corr : Int) (half : Fin 16) (two : Bool),
    (s.dev.leaderOf = none → Completes (.ptpSyncRx i dom src seq two t1 corr half) s (fun d => d = s.dev)) ∧
    (∀ l, s.dev.leaderOf = some l →
      let t2 := s.dev.ptpStamp i half true
      let ms := t2 - (t1 : Int) * 65536 - corr
      let st := if s.dev.timeState = tsFree ∨ s.dev.timeState = tsHoldover then tsAcquiring else s.dev.timeState
      (s.dev.ptpIf ≠ i ∨ dom ≠ s.dev.get F.PTP_CFG_DOMAIN ∨ src ≠ l.src →
        Completes (.ptpSyncRx i dom src seq two t1 corr half) s (fun d => d = s.dev)) ∧
      (s.dev.ptpIf = i → dom = s.dev.get F.PTP_CFG_DOMAIN → src = l.src →
        Completes (.ptpSyncRx i dom src seq true t1 corr half) s (fun d =>
          d = { s.dev with time := { s.dev.time with syncWait := some (src, seq, t2, corr) } }) ∧
        (s.dev.time.delays = [] → Completes (.ptpSyncRx i dom src seq false t1 corr half) s (fun d =>
          d.time.ms = some ms ∧ d.timeState = st ∧ ({ s.dev with time := d.time } : Dev).Only d [F.TIME_STATUS_STATE])) ∧
        (∀ m, medianInt s.dev.time.delays = some m →
          let off := ms - m
          (s.dev.timeState = tsLocked → off.natAbs ≤ s.dev.get F.PTP_SERVO_UNLOCK_NS * 65536 →
            let lim := s.dev.nominalIncr * min 500 (s.dev.get F.PTP_SERVO_SLEW_PPM) / 1000000
            Completes (.ptpSyncRx i dom src seq false t1 corr half) s (fun d => d.timeState = tsLocked ∧ d.time.offset = off ∧
              d.get F.TIME_OFFSET_OFFSET_NS = toBits 32 (clampInt (q16ToNs off) (-2147483648) 2147483647) ∧
              s.dev.nominalIncr - lim ≤ d.get F.TIME_INCR_INCR ∧ d.get F.TIME_INCR_INCR ≤ s.dev.nominalIncr + lim ∧
              ({ s.dev with time := d.time, freeCtr := s.dev.freeCtr + 1 } : Dev).Only d [F.TIME_OFFSET_OFFSET_NS, F.TIME_INCR_INCR])) ∧
          (s.dev.timeState = tsLocked → s.dev.get F.PTP_SERVO_UNLOCK_NS * 65536 < off.natAbs → 3 ≤ s.dev.time.bad →
            Completes (.ptpSyncRx i dom src seq false t1 corr half) s (fun d => d.timeState = tsHoldover)) ∧
          (s.dev.timeState = tsAcquiring → off.natAbs ≤ s.dev.get F.PTP_SERVO_LOCK_NS * 65536 →
            off.natAbs < s.dev.get F.PTP_STEP_NS_STEP_NS * 65536 → 15 ≤ s.dev.time.good →
            Completes (.ptpSyncRx i dom src seq false t1 corr half) s (fun d => d.timeState = tsLocked ∧ d.time.everLocked = true)))))) ∧
  (∀ (s : State) (i : Fin 8) (dom src seq t1 : Nat) (corr : Int),
    (s.dev.leaderOf = none ∨ s.dev.time.syncWait = none → Completes (.ptpFollowUpRx i dom src seq t1 corr) s (fun d => d = s.dev)) ∧
    (∀ l t2 wcorr, s.dev.leaderOf = some l → s.dev.time.syncWait = some (src, seq, t2, wcorr) → s.dev.ptpIf = i →
      dom = s.dev.get F.PTP_CFG_DOMAIN → src = l.src → s.dev.time.delays = [] →
      Completes (.ptpFollowUpRx i dom src seq t1 corr) s (fun d => d.time.syncWait = none ∧
        d.time.ms = some (t2 - (t1 : Int) * 65536 - (wcorr + corr)) ∧
        d.timeState = (if s.dev.timeState = tsFree ∨ s.dev.timeState = tsHoldover then tsAcquiring else s.dev.timeState) ∧
        ({ s.dev with time := d.time } : Dev).Only d [F.TIME_STATUS_STATE]))) ∧
  (∀ (s : State) (i : Fin 8) (dom src seq t4 : Nat) (corr : Int),
    (s.dev.leaderOf = none ∨ s.dev.time.reqWait = none ∨ s.dev.time.ms = none →
      Completes (.ptpDelayRespRx i dom src seq t4 corr) s (fun d => d = s.dev)) ∧
    (∀ l t3 ms, s.dev.leaderOf = some l → s.dev.time.reqWait = some (seq, t3) → s.dev.time.ms = some ms → s.dev.ptpIf = i →
      dom = s.dev.get F.PTP_CFG_DOMAIN → src = l.src → Completes (.ptpDelayRespRx i dom src seq t4 corr) s (fun d =>
        d = { s.dev with time := { s.dev.time with
          reqWait := none, delays := ((ms + ((t4 : Int) * 65536 - t3 - corr)) / 2 :: s.dev.time.delays).take 8 } }))) ∧
  (∀ (s : State) (i : Fin 8) (a : PtpAnnounce),
    let ann := s.dev.time.ann.filter (fun x => !(x.1 == i.val && x.2.src == a.src)) ++ [(i.val, a)]
    let heard : Dev := { s.dev with time := { s.dev.time with ann := ann } }
    (s.dev.ptpOn = false ∨ a.domain ≠ s.dev.get F.PTP_CFG_DOMAIN ∨ a.src = s.dev.clockIdentity ∨
        (s.dev.ptpIf ≠ i ∧ s.dev.ptpOther ≠ some i.val) → Completes (.ptpAnnounceRx i a) s (fun d => d = s.dev)) ∧
    (s.dev.ptpOn = true → a.domain = s.dev.get F.PTP_CFG_DOMAIN → a.src ≠ s.dev.clockIdentity →
      (s.dev.ptpIf ≠ i → s.dev.ptpOther = some i.val → Completes (.ptpAnnounceRx i a) s (fun d => d = heard)) ∧
      (s.dev.ptpIf = i → Completes (.ptpAnnounceRx i a) s (fun d => d.time.ann = ann ∧
        d.flag F.TIME_STATUS_LEADER = heard.ownWins ∧
        ({ s.dev with time := d.time } : Dev).Within d [F.TIME_STATUS_LEADER, F.TIME_STATUS_STATE, F.TIME_INCR_INCR])))) ∧
  (∀ s : State,
    (s.dev.ptpOn = false ∨ s.dev.get F.PTP_CFG_ROLE = 2 → Completes .announceTimeout s (fun d => d = s.dev)) ∧
    (s.dev.ptpOn = true → s.dev.get F.PTP_CFG_ROLE = 0 → s.dev.flag F.TIME_STATUS_LEADER = false →
      let moves := match s.dev.ptpOther with
        | some o => (s.dev.bestOn o).isSome
        | none => false
      Completes .announceTimeout s (fun d => d.time.ann = s.dev.time.ann.filter (fun x => !(x.1 == s.dev.ptpIf)) ∧
        d.time.syncWait = none ∧ d.time.reqWait = none ∧
        d.timeState = (if s.dev.timeState = tsAcquiring ∨ s.dev.timeState = tsLocked then tsHoldover else s.dev.timeState) ∧
        d.flag F.TIME_STATUS_PORT_B_ACTIVE = (s.dev.flag F.TIME_STATUS_PORT_B_ACTIVE != moves) ∧
        ({ s.dev with time := d.time } : Dev).Within d [F.TIME_STATUS_STATE, F.TIME_INCR_INCR, F.TIME_STATUS_PORT_B_ACTIVE])) ∧
    (s.dev.ptpOn = true → s.dev.get F.PTP_CFG_ROLE = 1 → s.dev.flag F.TIME_STATUS_LEADER = false → s.dev.ptpOther = none →
      Completes .announceTimeout s (fun d => d.flag F.TIME_STATUS_LEADER = true ∧ d.timeState = tsFree))) ∧
  (∀ (s : State) (i : Fin 8) (dom src seq : Nat) (corr : Int) (half : Fin 16),
    let leads := s.dev.ptpOn = true ∧ s.dev.flag F.TIME_STATUS_LEADER = true
    let me := s.dev.clockIdentity
    let port := s.dev.ptpIf
    let own := s.dev.get F.PTP_CFG_DOMAIN
    let t4 := s.dev.ptpStamp i half true
    let t1 := s.dev.ptpStamp port half false
    (leads → port = i → dom = own → Completes (.ptpDelayReqRx i dom src seq corr half) s (fun d => d = { s.dev with
      out := s.dev.out ++ [.packet i 5 [dom, me, src, seq, (t4 / 65536).toNat, toBits 64 (corr + t4 % 65536)] []] })) ∧
    (¬ leads ∨ port ≠ i ∨ dom ≠ own → Completes (.ptpDelayReqRx i dom src seq corr half) s (fun d => d = s.dev)) ∧
    (leads → Completes (.ptpSyncTx half) s (fun d => d = { s.dev with
      time := { s.dev.time with seqSync := (s.dev.time.seqSync + 1) % 65536 }
      out := s.dev.out ++ [.packet port 1 [own, me, s.dev.time.seqSync] [],
        .packet port 2 [own, me, s.dev.time.seqSync, (t1 / 65536).toNat, (t1 % 65536).toNat] []] })) ∧
    (leads → Completes .ptpAnnounceTx s (fun d => d = { s.dev with
      time := { s.dev.time with seqAnn := (s.dev.time.seqAnn + 1) % 65536 }
      out := s.dev.out ++ [.packet port 3 [own, me, s.dev.time.seqAnn, s.dev.get F.PTP_PRIO_PRIORITY1, s.dev.get F.PTP_PRIO_CLOCK_CLASS,
        0xFE, 0xFFFF, s.dev.get F.PTP_PRIO_PRIORITY2, me, 0, s.dev.get F.PTP_UTC_OFFSET_UTC_OFFSET, s.dev.get F.TC_TZ_TZ_OFFSET_S,
        s.dev.get F.TC_JAM_JAM_TOD] []] })) ∧
    (¬ leads → Completes (.ptpSyncTx half) s (fun d => d = s.dev) ∧ Completes .ptpAnnounceTx s (fun d => d = s.dev)) ∧
    (s.dev.leaderOf = none → Completes (.ptpDelayReqTx half) s (fun d => d = s.dev)) ∧
    (∀ l, s.dev.leaderOf = some l → Completes (.ptpDelayReqTx half) s (fun d => d = { s.dev with
      time := { s.dev.time with seqReq := (s.dev.time.seqReq + 1) % 65536, reqWait := some (s.dev.time.seqReq, t1) }
      out := s.dev.out ++ [.packet port 4 [own, me, s.dev.time.seqReq, if s.dev.flag F.PTP_CFG_HYBRID = true then l.src else 0] []] }))) ∧
  (∀ s : State, s.dev.Reaches R.TIME_CTRL →
    let ns := s.dev.get F.TIME_SET_NS_NS
    let sec := s.dev.get F.TIME_SET_SEC_HI_SEC * 2 ^ 32 + s.dev.get F.TIME_SET_SEC_LO_SEC
    let stepped := fun (d : Dev) => d.time.ms = none ∧ d.flag F.TIME_STATUS_STEP_PENDING = false ∧
      (∀ e ∈ d.net.tx, e.2.k = none ∧ e.2.next = none) ∧
      (∀ p < 8, s.dev.trigRuns p = true → (d.trig.getD p {}).from_ = d.nowNs + 1000000)
    (nsPerS ≤ ns → Completes .timeSet s (fun d => d.flag F.TIME_CTRL_SET = false ∧ s.dev.Within d [F.TIME_CTRL_SET])) ∧
    (ns < nsPerS → (∀ n < 16, (s.dev.ctx n).slots = []) → Completes .timeSet s (fun d =>
      d.time.dt = (sec * nsPerS + ns) * 2 ^ 24 ∧ d.flag F.TIME_CTRL_SET = false ∧ stepped d)) ∧
    (s.dev.flag F.TIME_STATUS_STEP_PENDING = false → Completes .timeStepNow s (fun d =>
      d.flag F.TIME_CTRL_STEP_NOW = false ∧ s.dev.Only d [F.TIME_CTRL_STEP_NOW])) ∧
    (s.dev.flag F.TIME_STATUS_STEP_PENDING = true → s.dev.time.offset.natAbs < s.dev.get F.PTP_STEP_NS_STEP_NS * 65536 →
      Completes .timeStepNow s (fun d => d.flag F.TIME_CTRL_STEP_NOW = false ∧ d.flag F.TIME_STATUS_STEP_PENDING = false ∧
        s.dev.Only d [F.TIME_CTRL_STEP_NOW, F.TIME_STATUS_STEP_PENDING])) ∧
    (s.dev.flag F.TIME_STATUS_STEP_PENDING = true → s.dev.get F.PTP_STEP_NS_STEP_NS * 65536 ≤ s.dev.time.offset.natAbs →
      (∀ n < 16, (s.dev.ctx n).slots = []) → Completes .timeStepNow s (fun d =>
        (d.time.dt : Int) = ((s.dev.time.dt : Int) - s.dev.time.offset * 256) % (2 ^ 48 * 1000000000 * 2 ^ 24) ∧
        d.flag F.TIME_CTRL_STEP_NOW = false ∧ stepped d))) ∧
  (∀ (s : State) (p : Fin 8), s.dev.Reaches (R.TRIG_CTRL p) →
    let new := s.dev.schedShadow p
    let soon := s.dev.nowNs + 1000000
    (new.ok = false → Completes (.trigSchedCommit p) s (fun d =>
      d.flag (F.TRIG_CTRL_COMMIT p) = false ∧ s.dev.Within d [F.TRIG_CTRL_COMMIT p])) ∧
    (new.ok = true → s.dev.trigRuns p = false → Completes (.trigSchedCommit p) s (fun d =>
      d.flag (F.TRIG_CTRL_COMMIT p) = false ∧ (∀ a ∈ trigRegs p, d.effWord a = s.dev.word a) ∧
      (∀ a, a ∉ trigRegs p → d.effWord a = s.dev.effWord a) ∧ s.dev.FieldsKept d [F.TRIG_CTRL_COMMIT p] ∧
      d = { s.dev with regs := d.regs })) ∧
    (new.ok = true → s.dev.trigRuns p = true → Completes (.trigSchedCommit p) s (fun d =>
      d.flag (F.TRIG_CTRL_COMMIT p) = false ∧ (∀ a ∈ trigRegs p, d.effWord a = s.dev.word a) ∧
      (d.trig.getD p {}).next = some (new, match new.first soon with
        | some x => x.1
        | none => soon)))) ∧
  (∀ (s : State) (p : Fin 8),
    (∀ n t, (s.dev.trig.getD p {}).next = some (n, t) → t ≤ s.dev.nowNs → Completes (.trigSchedSwitch p) s (fun d =>
      d = { s.dev with trig := s.dev.trig.set p { run := some n, next := none, from_ := max (s.dev.trig.getD p {}).from_ t } })) ∧
    ((∀ n t, (s.dev.trig.getD p {}).next = some (n, t) → s.dev.nowNs < t) → Completes (.trigSchedSwitch p) s (fun d => d = s.dev))) ∧
  (∀ (s : State) (n : Fin 8),
    let pin := fun (level : Bool) => s.dev.out ++ [.pin (pinGpio (s.dev.get (F.PG_CFG_GPIO n))) (b2n level)]
    let runs := s.dev.time.pgRun.getD n false
    let high := s.dev.time.pgHigh.getD n false
    (runs = true → Completes (.pulseEdge n) s (fun d => d = { s.dev with
      time := { s.dev.time with pgHigh := s.dev.time.pgHigh.set n true }, out := pin (!s.dev.flag (F.PG_CFG_POL n)) })) ∧
    (runs = false → Completes (.pulseEdge n) s (fun d => d = s.dev)) ∧
    (runs = true → high = true → Completes (.pulseFall n) s (fun d => d = { s.dev with
      time := { s.dev.time with pgHigh := s.dev.time.pgHigh.set n false }, out := pin (s.dev.flag (F.PG_CFG_POL n)) })) ∧
    (runs = false ∨ high = false → Completes (.pulseFall n) s (fun d => d = s.dev))) ∧
  (∀ (s : State) (label : Nat),
    let n := s.dev.time.ltcGood + 1
    Completes (.ltcFrame false label) s (fun d => d = { s.dev with time := { s.dev.time with ltcGood := 0 } }) ∧
    (s.dev.time.ltcLocked = true → Completes (.ltcFrame true label) s (fun d =>
      d = { s.dev with time := { s.dev.time with ltcGood := n, ltcLast := label, ltcAt := s.dev.nowNs, ltcLost := false } })) ∧
    (s.dev.time.ltcLocked = false → n < 4 → Completes (.ltcFrame true label) s (fun d =>
      d = { s.dev with time := { s.dev.time with ltcGood := n } })) ∧
    (s.dev.time.ltcLocked = false → 4 ≤ n → Completes (.ltcFrame true label) s (fun d =>
      d.time = { s.dev.time with ltcGood := n, ltcLast := label, ltcAt := s.dev.nowNs, ltcLocked := true, ltcLost := false } ∧
      ({ s.dev with time := d.time } : Dev).Reports d)) ∧
    (s.dev.time.ltcLocked = false → Completes .ltcFrameMissing s (fun d =>
      d = { s.dev with time := { s.dev.time with ltcGood := 0 } })) ∧
    (s.dev.time.ltcLocked = true → Completes .ltcFrameMissing s (fun d =>
      d.time = { s.dev.time with ltcGood := 0, ltcLocked := false, ltcLost := true } ∧
      ({ s.dev with time := d.time } : Dev).Reports d)))

/-! ### The network (R399-R406) -/

/-- ETH_LINK_DOWN and ETH_LINK_UP (R404): LINK, the counter, and the flows of the interface, which start again. ARP_RX, ARP_RENEW,
ARP_RESOLVE_TIMEOUT, ICMP_ECHO_RX and MAILBOX_FRAME_RX (R400). TX_FRAME_SELECT and TX_PACKET (R402): a buffer is selected and held, its packets leave
on each path, or are dropped with the link down. TX_BAND_SEND (R403): the bytes at hand leave within the bucket, the number of packets being a
free value. AUDIO_PACKET_TX. RX_PACKET (R404): a packet ahead of its turn waits, one in turn is delivered, a second copy is discarded.
RX_REORDER_EXPIRY: the gap is lost. PATH_SILENCE_TIMEOUT. -/
def Obligations.Network : Prop :=
  (∀ (s : State) (i : Fin 8),
    (s.dev.ifUp i = false → Completes (.ethLinkDown i) s (fun d => d = s.dev)) ∧
    (s.dev.ifUp i = true → Completes (.ethLinkDown i) s (fun d => d.flag (F.NET_IF_STATUS_LINK i) = false ∧
      d.get (F.NET_ETH_CNT_DOWNS (i.val / 4)) = (s.dev.get (F.NET_ETH_CNT_DOWNS (i.val / 4)) + 1) % 65536 ∧
      (∀ n < 1024, n ∈ s.dev.txRunning → (s.dev.txf n).run = true → (∀ q ∈ s.dev.txPaths n, q.2.1 = i.val) →
        d.get (F.TXF_STATUS_STATE n) = 3) ∧
      (s.dev.txRunning = [] → s.dev.Within d [F.NET_IF_STATUS_LINK i, F.NET_ETH_CNT_DOWNS (i.val / 4)]))) ∧
    (s.dev.ifExists i = false ∨ s.dev.flag (F.NET_IF_STATUS_LINK i) = true → Completes (.ethLinkUp i) s (fun d => d = s.dev)) ∧
    (s.dev.ifExists i = true → s.dev.flag (F.NET_IF_STATUS_LINK i) = false →
      (s.dev.txRunning = [] → s.dev.rxRunning = [] → Completes (.ethLinkUp i) s (fun d =>
        d.flag (F.NET_IF_STATUS_LINK i) = true ∧ s.dev.Within d [F.NET_IF_STATUS_LINK i])) ∧
      (∀ n, s.dev.txRunning = [n] → s.dev.rxRunning = [] → (∀ q ∈ s.dev.txPaths n, q.2.1 = i.val) → Completes (.ethLinkUp i) s (fun d =>
        d.flag (F.NET_IF_STATUS_LINK i) = true ∧ d.txf n = { s.dev.txf n with
          k := none, cur := none, sent := 0, next := none, waitKey := true, chunkSent := 0, aud := [] })) ∧
      (∀ n, s.dev.txRunning = [] → s.dev.rxRunning = [n] → s.dev.get (F.RXF_CFG_IF_A n) = i →
        isMulticast (s.dev.get (F.RXF_GROUP_A_IP n)) = true → Completes (.ethLinkUp i) s (fun d =>
          .packet i 9 [s.dev.get (F.RXF_GROUP_A_IP n), s.dev.get (F.RXF_SRC_IP_IP n)] [] ∈ d.out)))) ∧
  (∀ (s : State) (i : Fin 8) (senderIp senderMac targetIp : Nat) (data : List Byte),
    let ip := s.dev.get (F.NET_IF_IP_IP i)
    (s.dev.ifUp i = false → Completes (.arpRx i false senderIp senderMac targetIp) s (fun d => d = s.dev) ∧
      Completes (.arpRx i true senderIp senderMac targetIp) s (fun d => d = s.dev)) ∧
    (s.dev.ifUp i = true →
      (targetIp = ip → Completes (.arpRx i false senderIp senderMac targetIp) s (fun d => d = { s.dev with
        out := s.dev.out ++ [.packet i 6 [targetIp, s.dev.ifMac i, senderIp, senderMac] []] })) ∧
      (targetIp ≠ ip → Completes (.arpRx i false senderIp senderMac targetIp) s (fun d => d = s.dev)) ∧
      (∀ n < 1024, s.dev.txRunning = [n] → (s.dev.txf n).run = true → (s.dev.txf n).mac.length = 2 →
        s.dev.txPaths n = [(0, i.val, senderIp)] → Completes (.arpRx i true senderIp senderMac targetIp) s (fun d =>
          d.txf n = { s.dev.txf n with mac := (s.dev.txf n).mac.set 0 (some senderMac) } ∧ d.get (F.TXF_STATUS_STATE n) = 1 ∧
          ({ s.dev with net := d.net } : Dev).Only d [F.TXF_STATUS_STATE n]))) ∧
    (s.dev.ifUp i = true → targetIp = ip → Completes (.icmpEchoRx i senderIp senderMac targetIp data) s (fun d =>
      d = { s.dev with out := s.dev.out ++ [.packet i 7 [targetIp, senderIp, senderMac] data] })) ∧
    (s.dev.ifUp i = false ∨ targetIp ≠ ip → Completes (.icmpEchoRx i senderIp senderMac targetIp data) s (fun d => d = s.dev)) ∧
    Completes (.mailboxFrameRx i data false) s (fun d =>
      d.get (F.NET_ETH_CNT_FCS_ERR (i.val / 4)) = (s.dev.get (F.NET_ETH_CNT_FCS_ERR (i.val / 4)) + 1) % 65536 ∧
      s.dev.Only d [F.NET_ETH_CNT_FCS_ERR (i.val / 4)]) ∧
    (s.dev.flag F.NET_CFG_MBOX_EN = true → s.dev.ifUp i = true → Completes (.mailboxFrameRx i data true) s (fun d =>
      d = { s.dev with out := s.dev.out ++ [.packet i 11 [] data] })) ∧
    (s.dev.flag F.NET_CFG_MBOX_EN = false ∨ s.dev.ifUp i = false → Completes (.mailboxFrameRx i data true) s (fun d => d = s.dev))) ∧
  (∀ (s : State) (n : Fin 1024) (path : Fin 2),
    ((s.dev.txf n).run = false → Completes (.arpRenew n path) s (fun d => d = s.dev) ∧
      Completes (.arpResolveTimeout n path) s (fun d => d = s.dev)) ∧
    (∀ q, (s.dev.txf n).run = true → (s.dev.txPaths n)[path.val]? = some q →
      let asks := isMulticast q.2.2 = false ∧ s.dev.onSubnet q.2.1 q.2.2 = true ∧ s.dev.ifUp q.2.1 = true
      let fails := s.dev.pathReady n q = false ∧ nth (s.dev.txf n).askedAt path + nsPerS ≤ s.dev.elapsed ∧
        s.dev.secOver (s.dev.txf n).failSec = true
      (asks → Completes (.arpRenew n path) s (fun d => d = { s.dev with
        out := s.dev.out ++ [.packet q.2.1 8 [s.dev.get (F.NET_IF_IP_IP q.2.1), s.dev.ifMac q.2.1, q.2.2] []] })) ∧
      (¬ asks → Completes (.arpRenew n path) s (fun d => d = s.dev)) ∧
      (fails → Completes (.arpResolveTimeout n path) s (fun d =>
        d.txf n = { s.dev.txf n with failSec := s.dev.elapsed + 1 } ∧ ({ s.dev with net := d.net } : Dev).Reports d)) ∧
      (¬ fails → Completes (.arpResolveTimeout n path) s (fun d => d = s.dev)))) ∧
  (∀ (s : State) (n : Fin 1024),
    ((s.dev.txf n).run = false ∨ s.dev.get (F.TXF_CFG_ESSENCE n) ≠ 1 → Completes (.txFrameSelect n) s (fun d => d = s.dev) ∧
      Completes (.txPacket n) s (fun d => d = s.dev)) ∧
    ((s.dev.txf n).run = true → s.dev.get (F.TXF_CFG_ESSENCE n) = 1 →
      let x := s.dev.txf n
      let k := x.k.getD (s.dev.txFirst n)
      let lim := stimeOfNs (s.dev.txStart n k - (s.dev.txDelayUs n * 1000 : Nat)).toNat
      let last := match x.next with
        | some b => some b.1
        | none => x.cur
      (s.dev.srcBufs (s.dev.get (F.TXF_SRC_SRC n)) = [] → Completes (.txFrameSelect n) s (fun d =>
        d = { s.dev with net := d.net } ∧
        d.txf n = { x with k := some (k + 1), next := match last with | some o => some (o, true) | none => none })) ∧
      (∀ key off, s.dev.srcBufs (s.dev.get (F.TXF_SRC_SRC n)) = [(key, off)] → s.dev.poolNat poolDev (off + 0x3C) 4 ≠ 0 →
        let trig := s.dev.poolNat poolDev (off + 0x10) 8
        let b : ShownBuf := { key := key, off := off, fseq := s.dev.poolNat poolDev off 4, trig := trig }
        signed 64 (toBits 64 ((trig : Int) - lim)) ≤ 0 →
        (∀ o, last = some o → 0 < signed 64 (toBits 64 ((trig : Int) - o.trig))) → Completes (.txFrameSelect n) s (fun d =>
          d.txf n = { x with k := some (k + 1), next := some (b, false) } ∧ d.bufHeld key = true ∧
          d = { s.dev with net := d.net, holds := d.holds })))) ∧
  (∀ (s : State) (n : Fin 1024), (s.dev.txf n).run = true →
    let x := s.dev.txf n
    let sent := fun (seq ts : Nat) (marker : Bool) (bytes : List Byte) => s.dev.out ++ (s.dev.txPaths n).map (fun q => .packet q.2.1 10
      [n.val, q.1, q.2.2, (x.mac.getD q.1 none).getD 0, s.dev.get (F.TXF_UDP_DPORT n), s.dev.get (F.TXF_UDP_SPORT n),
       s.dev.get (F.TXF_RTP_PT n), s.dev.get (F.TXF_RTP_DSCP n), s.dev.get (F.TXF_RTP_TTL n), s.dev.get (F.TXF_SSRC_SSRC n), seq, ts,
       b2n marker] bytes)
    let ready := ∀ q ∈ s.dev.txPaths n, s.dev.ifUp q.2.1 = true ∧ s.dev.pathReady n q = true
    let down := ∀ q ∈ s.dev.txPaths n, s.dev.ifUp q.2.1 = false
    let more := fun (f : Fld) (c : Nat) (d : Dev) => d.get f = (s.dev.get f + c) % 2 ^ 32
    (s.dev.get (F.TXF_CFG_ESSENCE n) = 1 →
      (∀ b, x.sent ≠ 0 → x.cur = some b →
        let p := s.dev.txPackets n b.off
        let y := if x.sent + 1 < p.2 then { x with seq := x.seq + 1, sent := x.sent + 1 }
          else { x with seq := x.seq + 1, sent := 0, rep := false }
        (ready → Completes (.txPacket n) s (fun d => d.txf n = y ∧ more (F.TXF_CNT_PKT_COUNT n) 1 d ∧
          d.out = sent (x.seq % 2 ^ 32) x.ts (decide (x.sent + 1 = p.2)) (s.dev.txBytes n x.sent p.1 b) ∧
          ({ s.dev with net := d.net, out := d.out } : Dev).Only d [F.TXF_CNT_PKT_COUNT n])) ∧
        (down → Completes (.txPacket n) s (fun d => d.txf n = y ∧ more (F.TXF_CNT_DROP_COUNT n) 1 d ∧
          ({ s.dev with net := d.net } : Dev).Only d [F.TXF_CNT_DROP_COUNT n]))) ∧
      (∀ b, x.sent = 0 → x.next = some (b, false) → Completes (.txPacket n) s (fun d => (d.txf n).cur = some b ∧
        (d.txf n).next = none ∧ (d.txf n).ts = mediaClock (s.dev.stimeToNs b.trig) 90000 ∧ d.bufHeld b.key = true))) ∧
    (s.dev.get (F.TXF_CFG_ESSENCE n) = 3 →
      let bits := (s.dev.txAudio n).2.1
      let per := (s.dev.txAudio n).2.2.2
      (x.aud.length < per → Completes (.audioPacketTx n) s (fun d => d = s.dev)) ∧
      (per ≤ x.aud.length → ready → Completes (.audioPacketTx n) s (fun d =>
        d.txf n = { x with seq := x.seq + 1, aud := x.aud.drop per, audFirst := x.audFirst + per } ∧
        more (F.TXF_CNT_PKT_COUNT n) 1 d ∧
        d.out = sent (x.seq % 2 ^ 16) (x.audFirst % 2 ^ 32) false
          ((x.aud.take per).flatMap (fun f => f.flatMap (fun v => bytesBE (bits / 8) (v % 2 ^ 32 / 2 ^ (32 - bits))))) ∧
        ({ s.dev with net := d.net, out := d.out } : Dev).Only d [F.TXF_CNT_PKT_COUNT n]))) ∧
    (s.dev.get (F.TXF_CFG_ESSENCE n) = 2 →
      let ses := s.dev.get (F.TXF_SRC_SRC n) % 256
      let k := s.dev.get (F.SES_CONS_IDX ses 1)
      let rd := fun (o len : Nat) => s.dev.poolNat poolOut (s.dev.recAt ses k + o) len
      let size := rd 0x2C 4
      let complete := rd 0x30 2 = rd 0x32 2
      let goes := fun (count : Fld) (tokens : Nat) (d : Dev) => ∃ c, 1 ≤ c ∧ c ≤ size - x.chunkSent ∧ more count c d ∧
        d.txf n = { x with seq := x.seq + c, chunkSent := if complete then 0 else size, waitKey := false, tokens := tokens
                           tokenAt := s.dev.elapsed } ∧
        d.get (F.SES_CONS_IDX ses 1) = (if complete then (k + 1) % 65536 else k) ∧
        ({ s.dev with net := d.net, out := d.out, freeCtr := s.dev.freeCtr + 1 } : Dev).Only d [count, F.SES_CONS_IDX ses 1]
      (k = s.dev.get (F.SES_PROD_IDX ses) → Completes (.txBandSend n) s (fun d => d = s.dev)) ∧
      (k ≠ s.dev.get (F.SES_PROD_IDX ses) → x.waitKey = false → x.chunkSent < size →
        (ready → size - x.chunkSent ≤ s.dev.txTokens n →
          Completes (.txBandSend n) s (goes (F.TXF_CNT_PKT_COUNT n) (s.dev.txTokens n - (size - x.chunkSent)))) ∧
        (down → Completes (.txBandSend n) s (goes (F.TXF_CNT_DROP_COUNT n) (s.dev.txTokens n)))))) ∧
  (∀ (s : State) (n : Fin 256) (path : Fin 2) (p : RtpPacket),
    let x := s.dev.rxf n
    let fresh := ∀ g ∈ x.got, s.dev.elapsed ≤ g.2.2 + s.dev.get (F.RXF_SKEW_SKEW_US n) * 1000
    let q := p.seq % s.dev.rxSpace n
    let seen := fun (d : Dev) => d.get (F.RXF_STATUS_PATHS n) = setBit (s.dev.get (F.RXF_STATUS_PATHS n)) path true
    let counts := fun (d : Dev) => seen d ∧ d.get (F.RXF_CNT_RX_COUNT n) = (s.dev.get (F.RXF_CNT_RX_COUNT n) + 1) % 2 ^ 32 ∧
      ({ s.dev with net := d.net } : Dev).Only d [F.RXF_STATUS_PATHS n, F.RXF_CNT_RX_COUNT n]
    let pkt : RxPkt := { at_ := s.dev.elapsed, path := path, pkt := { p with seq := q } }
    (x.run = false ∨ (path = 1 ∧ s.dev.flag (F.RXF_CFG_RED n) = false) → Completes (.rxPacket n path p) s (fun d => d = s.dev)) ∧
    (x.run = true → path = 0 ∨ s.dev.flag (F.RXF_CFG_RED n) = true → fresh →
      (∀ m, x.next = some m → seqBefore (s.dev.rxSpace n) q m = true → Completes (.rxPacket n path p) s (fun d => seen d ∧
        d.rxf n = { x with got := if path = 0 then x.got.filter (fun g => g.1 != q) else x.got } ∧
        ({ s.dev with net := d.net } : Dev).Only d [F.RXF_STATUS_PATHS n])) ∧
      (∀ m, x.next = some m → q ≠ m → seqBefore (s.dev.rxSpace n) q m = false → x.win = [] →
        Completes (.rxPacket n path p) s (fun d => counts d ∧
          d.rxf n = { x with win := [(q, some pkt)], got := x.got ++ [(q, path.val, s.dev.elapsed)] })) ∧
      (x.next = none ∨ x.next = some q → x.win = [] → s.dev.get (F.RXF_CFG_ESSENCE n) = 2 → p.marker = false →
        Completes (.rxPacket n path p) s (fun d => counts d ∧
          d.rxf n = { x with next := some ((q + 1) % 65536), got := x.got ++ [(q, path.val, s.dev.elapsed)],
                             au := x.au ++ p.payload })))) ∧
  (∀ (s : State) (n : Fin 256) (path : Fin 2),
    let x := s.dev.rxf n
    let paths := s.dev.get (F.RXF_STATUS_PATHS n)
    (∀ g ∈ x.got, s.dev.elapsed ≤ g.2.2 + s.dev.get (F.RXF_SKEW_SKEW_US n) * 1000) →
    (x.run = false ∨ x.next = none ∨ x.win = [] → Completes (.rxReorderExpiry n) s (fun d => d = s.dev)) ∧
    (∀ q m k, x.run = true → x.next = some q → x.win = [(m, some k)] → q < 65536 → m < 65536 → q ≠ m →
      s.dev.get (F.RXF_CFG_ESSENCE n) = 2 → k.pkt.marker = false →
      k.at_ + min 50000 (s.dev.get (F.RXF_SKEW_SKEW_US n)) * 1000 ≤ s.dev.elapsed → Completes (.rxReorderExpiry n) s (fun d =>
        d.get (F.RXF_CNT_LOST_COUNT n) = (s.dev.get (F.RXF_CNT_LOST_COUNT n) + (m + 65536 - q) % 65536) % 2 ^ 32 ∧
        (d.rxf n).next = some ((m + 1) % 65536) ∧ (d.rxf n).win = [] ∧ (d.rxf n).lost = true ∧ (d.rxf n).au = x.au ++ k.pkt.payload ∧
        ({ s.dev with net := d.net } : Dev).Within d [F.RXF_CNT_LOST_COUNT n])) ∧
    (x.run = true → bitOf paths path = true → Completes (.pathSilenceTimeout n path) s (fun d =>
      d.get (F.RXF_STATUS_PATHS n) = setBit paths path false ∧ s.dev.Within d [F.RXF_STATUS_PATHS n])) ∧
    (x.run = false ∨ bitOf paths path = false → Completes (.pathSilenceTimeout n path) s (fun d => d = s.dev)))

/-! ### Audio (R407-R422) -/

/-- AUDIO_FRAME_RX of a follower (R415-R417): a frame that fails the check, like AUDIO_CLOCK_TIMEOUT, is a loss: muted, counted once, and the
domain of a reference holds; a good one joins an input's FIFO or empties an output's onto its pins, and the 64th in a row unmutes.
AUDIO_LOOP_UPDATE (R412): the loop's formula, and LOCKED. AUDIO_PLAYOUT (R420): a sample plays, or is late. DOMAIN_FRAME (R411, R419, R421) of a
domain with one port: a master input delivers its words, to flows too; a follower input its FIFO's oldest frame, and a reference's fill is
summed; a master output drives what its network source plays. Lists have the lengths they have in every state that a run reaches. -/
def Obligations.Audio : Prop :=
  (∀ (s : State) (p : Fin 8) (f : AudFrame),
    let a := s.dev.ap p
    let m := s.dev.apDom p
    let get := fun (g : Nat → Fld) => s.dev.get (g p)
    let status : List Fld := [F.AUD_AP_STATUS_MUTED p, F.AUD_AP_STATUS_CLK_OK p, F.AUD_AP_STATUS_RAMPING p, F.AUD_AP_STATUS_GOOD p]
    let lost := fun (d : Dev) => d.flag (F.AUD_AP_STATUS_MUTED p) = true ∧ d.flag (F.AUD_AP_STATUS_CLK_OK p) = false ∧
      d.get (F.AUD_AP_STATUS_GOOD p) = 0 ∧
      d.get (F.AUD_AP_CNT_LOSSES p) = (get F.AUD_AP_CNT_LOSSES + get F.AUD_AP_STATUS_CLK_OK) % 65536 ∧
      (s.dev.audRef m = some p.val → get F.AUD_AP_STATUS_CLK_OK = 1 → s.dev.flag (F.AUD_DOM_STATUS_HOLD m) = false →
        d.flag (F.AUD_DOM_STATUS_HOLD m) = true ∧
        d.get (F.AUD_DOM_CNT_HOLDS m) = (s.dev.get (F.AUD_DOM_CNT_HOLDS m) + 1) % 65536) ∧
      ({ s.dev with aud := d.aud } : Dev).Within d
        (status ++ [F.AUD_AP_CNT_LOSSES p, F.AUD_DOM_STATUS_HOLD m, F.AUD_DOM_CNT_HOLDS m])
    let follows := s.dev.apRuns p = true ∧ get F.AUD_AP_CFG_MASTER = 0
    let good := min 64 (get F.AUD_AP_STATUS_GOOD + 1)
    let fifo := (if 64 ≤ a.fifo.length then a.fifo.drop 1 else a.fifo) ++ [(s.dev.apIn p f.left, s.dev.apIn p f.right)]
    (¬ follows → Completes (.audioFrameRx p f) s (fun d => d = s.dev) ∧ Completes (.audioClockTimeout p) s (fun d => d = s.dev)) ∧
    (follows → Completes (.audioClockTimeout p) s lost) ∧
    (follows → s.dev.audCheck p f ≠ 0 → Completes (.audioFrameRx p f) s lost) ∧
    (follows → s.dev.audCheck p f = 0 → s.dev.aud.ports.length = 8 →
      (get F.AUD_AP_CFG_DIR = 0 → get F.AUD_AP_STATUS_MUTED = 0 ∨ good ≠ 64 → Completes (.audioFrameRx p f) s (fun d =>
        (d.ap p).fifo = fifo ∧ d.flag (F.AUD_AP_STATUS_CLK_OK p) = true ∧ d.get (F.AUD_AP_STATUS_GOOD p) = good ∧
        ({ s.dev with aud := d.aud } : Dev).Within d (status ++ [F.AUD_AP_CNT_SLIPS p]))) ∧
      (get F.AUD_AP_CFG_DIR = 0 → get F.AUD_AP_STATUS_MUTED = 1 → good = 64 → Completes (.audioFrameRx p f) s (fun d =>
        (d.ap p).fifo = fifo32 fifo a.last ∧ (d.ap p).ramp = 0 ∧ d.flag (F.AUD_AP_STATUS_MUTED p) = false ∧
        d.flag (F.AUD_AP_STATUS_RAMPING p) = true ∧
        (s.dev.audRef m = some p.val → d.flag (F.AUD_DOM_STATUS_HOLD m) = false))) ∧
      (∀ x rest, get F.AUD_AP_CFG_DIR = 1 → get F.AUD_AP_STATUS_MUTED = 0 → a.fifo = x :: rest →
        Completes (.audioFrameRx p f) s (fun d => d.ap p = { a with fifo := rest, last := x } ∧
          d.out = s.dev.out ++ [.video 10 p [s.dev.apOut p x.1, s.dev.apOut p x.2]] ∧
          ({ s.dev with aud := d.aud, out := d.out } : Dev).Only d [F.AUD_AP_STATUS_CLK_OK p, F.AUD_AP_STATUS_GOOD p])))) ∧
  (∀ (s : State) (m : Fin 2),
    let x := s.dev.adom m
    let turns := x.run = true ∧ x.reading = true ∧ 64 ≤ x.frames ∧ s.dev.flag (F.AUD_DOM_CFG_MODE m) = false ∧
      s.dev.flag (F.AUD_DOM_STATUS_HOLD m) = false
    let e : Int := (x.fillSum * 4 : Nat) - 8192
    let lim : Int := (min 20 (s.dev.get (F.AUD_DOM_CFG_MAX_PPM m)) * 10 * 4294967296 / 1000000 : Nat)
    let ki := s.dev.get (F.AUD_DOM_CFG_KI m)
    let integ := clampInt (x.integ + e) (-(lim / 2 ^ ki)) (lim / 2 ^ ki)
    let good := if e.natAbs ≤ 64 then x.good + 1 else 0
    (¬ turns → Completes (.audioLoopUpdate m) s (fun d => d = s.dev)) ∧
    (turns → s.dev.aud.doms.length = 2 → Completes (.audioLoopUpdate m) s (fun d =>
      d.get (F.AUD_DOM_FREQ_FREQ_ADJ m) =
        toBits 32 (clampInt (e * 2 ^ s.dev.get (F.AUD_DOM_CFG_KP m) + integ * 2 ^ ki) (-lim) lim) ∧
      d.adom m = { x with integ := integ, good := good, fillSum := 0, frames := 0 } ∧
      d.flag (F.AUD_DOM_STATUS_LOCKED m) = (if 512 < e.natAbs then false
        else if 256 ≤ good then true else s.dev.flag (F.AUD_DOM_STATUS_LOCKED m)) ∧
      ({ s.dev with aud := d.aud } : Dev).Within d [F.AUD_DOM_FREQ_FREQ_ADJ m, F.AUD_DOM_STATUS_LOCKED m]))) ∧
  (∀ (s : State) (k : Fin 8) (i : Nat),
    let x := s.dev.anet k
    let runs := s.dev.flag (F.AUD_NA_CFG_EN k) = true ∧ s.dev.isRefused (R.AUD_NA_CFG k) = false
    (¬ runs → Completes (.audioPlayout k i) s (fun d => d = s.dev)) ∧
    (runs → s.dev.aud.nets.length = 8 →
      (Sparse.get (fun _ => []) x.samples i = [] → Completes (.audioPlayout k i) s (fun d =>
        d.get (F.AUD_NA_CNT_LATE k) = (s.dev.get (F.AUD_NA_CNT_LATE k) + 1) % 65536 ∧ d.anet k = { x with cur := [], absent := true } ∧
        ({ s.dev with aud := d.aud } : Dev).Only d [F.AUD_NA_CNT_LATE k])) ∧
      (∀ v, v ≠ [] → Sparse.get (fun _ => []) x.samples i = v → Completes (.audioPlayout k i) s (fun d =>
        d.anet k = { x with cur := v, absent := false, samples := x.samples.filter (fun e => decide (i < e.1)) } ∧
        d = { s.dev with aud := d.aud })))) ∧
  (∀ (s : State) (m : Fin 2) (ins : List (Nat × Nat)),
    ((s.dev.adom m).run = false → Completes (.domainFrame m ins) s (fun d => d = s.dev)) ∧
    (∀ p < 8, (s.dev.adom m).run = true → (List.range 8).filter (fun p => s.dev.apRuns p && s.dev.apDom p = m) = [p] →
      s.dev.aud.ports.length = 8 → s.dev.aud.doms.length = 2 → s.dev.flag (F.AUD_AP_STATUS_MUTED p) = false →
      (s.dev.ap p).changed = 0 →
      let a := s.dev.ap p
      let plays := fun (x : Nat × Nat) (d : Dev) => (d.ap p).cur = (rampOf x.1 a.ramp, rampOf x.2 a.ramp) ∧
        (d.ap p).ramp = min 32 (a.ramp + 1)
      (s.dev.flag (F.AUD_AP_CFG_DIR p) = false → s.dev.flag (F.AUD_AP_CFG_MASTER p) = true →
        let x := (s.dev.apIn p (ins.getD p (0, 0)).1, s.dev.apIn p (ins.getD p (0, 0)).2)
        Completes (.domainFrame m ins) s (fun d => plays x d ∧ (d.ap p).curMuted = false ∧
          ∀ n, s.dev.txRunning = [n] → s.dev.get (F.TXF_CFG_ESSENCE n) = 3 → s.dev.txPorts n = [p] →
            (d.txf n).aud = (s.dev.txf n).aud ++ [[rampOf x.1 a.ramp, rampOf x.2 a.ramp].take (s.dev.txAudio n).1])) ∧
      (∀ x rest, s.dev.flag (F.AUD_AP_CFG_DIR p) = false → s.dev.flag (F.AUD_AP_CFG_MASTER p) = false →
        (s.dev.adom m).reading = true → a.fifo = x :: rest → Completes (.domainFrame m ins) s (fun d => plays x d ∧
          (d.ap p).fifo = rest ∧ (d.ap p).last = x ∧ (d.ap p).curMuted = false ∧
          (s.dev.audRef m = some p → d.get (F.AUD_DOM_STATUS_FILL m) = rest.length % 128 ∧
            (s.dev.flag (F.AUD_DOM_STATUS_HOLD m) = false → (s.dev.adom m).frames < 64 →
              d.adom m = { s.dev.adom m with
                fillSum := (s.dev.adom m).fillSum + rest.length, frames := (s.dev.adom m).frames + 1 })))) ∧
      (s.dev.flag (F.AUD_AP_CFG_DIR p) = true → s.dev.flag (F.AUD_AP_CFG_MASTER p) = true →
        s.dev.word (R.AUD_AP_SRC p) = s.dev.effWord (R.AUD_AP_SRC p) → s.dev.get (F.AUD_AP_SRC_KIND p) = 2 →
        let x := (s.dev.anet (s.dev.get (F.AUD_AP_SRC_INDEX p))).pair (s.dev.get (F.AUD_AP_SRC_PAIR p))
        Completes (.domainFrame m ins) s (fun d => plays x d ∧
          d.out = s.dev.out ++ [.video 10 p [s.dev.apOut p (rampOf x.1 a.ramp), s.dev.apOut p (rampOf x.2 a.ramp)]]))))
end

