-- ==== Sys2Proof/Laws/CanonicalBase.lean ====
section
/-!
SUPPORT. The canonical form (`Dev.Canonical`) is kept: the shared operations, the links and the capture path.
-/
set_option linter.all false
set_option linter.unusedTactic false
set_option linter.unreachableTactic false
namespace Sys2Proof.Machine

/-! ### Ops -/

theorem Dev.Canonical.same {d e : Dev} (h : d.Canonical) (h1 : e.regs.words = d.regs.words) (h2 : e.regs.eff = d.regs.eff)
    (h3 : e.keep.bytes = d.keep.bytes) (h4 : e.mem.cells = d.mem.cells) (h5 : e.mem.err = d.mem.err)
    (h6 : e.mem.poison = d.mem.poison) : e.Canonical :=
  ⟨h1 ▸ h.words, h2 ▸ h.eff, h3 ▸ h.keep, h4 ▸ h.cells, h5 ▸ h.err, h6 ▸ h.poison⟩

theorem Sparse.above_erase {α : Type} {m : Sparse α} {a k : Nat} (h : Sparse.above a m = true) : Sparse.above a (m.erase k) = true := by
  induction m with
  | nil => rfl
  | cons e rest ih =>
    obtain ⟨k', v⟩ := e
    simp only [Sparse.above, List.all_cons, Bool.and_eq_true] at h ih
    simp only [Sparse.erase]
    split
    · exact ih h.2
    · simp only [Sparse.above, List.all_cons, Bool.and_eq_true]
      exact ⟨h.1, ih h.2⟩

theorem Sparse.wf_erase {α : Type} [DecidableEq α] {dflt : Nat → α} {m : Sparse α} {k : Nat} (h : Sparse.wf dflt m = true) :
    Sparse.wf dflt (m.erase k) = true := by
  induction m with
  | nil => rfl
  | cons e rest ih =>
    obtain ⟨k', v⟩ := e
    simp only [Sparse.wf, Bool.and_eq_true] at h
    simp only [Sparse.erase]
    split
    · exact ih h.2
    · simp only [Sparse.wf, Bool.and_eq_true]
      exact ⟨⟨Sparse.above_erase h.1.1, h.1.2⟩, ih h.2⟩

/-- Whether no key of the list is `k`. -/
theorem Sparse.above_insert {α : Type} {m : Sparse α} {a k : Nat} {v : α} (h : Sparse.above a m = true) (hk : a < k) :
    Sparse.above a (m.insert k v) = true := by
  induction m with
  | nil => simp [Sparse.insert, Sparse.above, hk]
  | cons e rest ih =>
    obtain ⟨k', v'⟩ := e
    simp only [Sparse.above, List.all_cons, Bool.and_eq_true] at h ih
    simp only [Sparse.insert]
    split
    · simp only [Sparse.above, List.all_cons, Bool.and_eq_true]
      exact ⟨by simpa using hk, h.1, h.2⟩
    · simp only [Sparse.above, List.all_cons, Bool.and_eq_true]
      exact ⟨h.1, ih h.2⟩

theorem Sparse.above_trans {α : Type} {m : Sparse α} {a b : Nat} (h : Sparse.above b m = true) (hk : a ≤ b) : Sparse.above a m = true := by
  simp only [Sparse.above, List.all_eq_true, decide_eq_true_eq] at *
  intro x hx
  exact Nat.lt_of_le_of_lt hk (h x hx)

theorem Sparse.wf_insert {α : Type} [DecidableEq α] {dflt : Nat → α} {m : Sparse α} {k : Nat} {v : α} (h : Sparse.wf dflt m = true)
    (hv : v ≠ dflt k) (hn : ∀ e ∈ m, e.1 ≠ k) : Sparse.wf dflt (m.insert k v) = true := by
  induction m with
  | nil => simp [Sparse.insert, Sparse.wf, Sparse.above, hv]
  | cons e rest ih =>
    obtain ⟨k', v'⟩ := e
    have hk : k' ≠ k := hn (k', v') (by simp)
    simp only [Sparse.wf, Bool.and_eq_true] at h
    simp only [Sparse.insert]
    split
    · rename_i hlt
      simp only [Sparse.wf, Bool.and_eq_true, Sparse.above, List.all_cons]
      refine ⟨⟨⟨by simpa using hlt, ?_⟩, by simpa using hv⟩, ⟨h.1.1, h.1.2⟩, h.2⟩
      exact Sparse.above_trans h.1.1 (Nat.le_of_lt hlt)
    · rename_i hge
      simp only [Sparse.wf, Bool.and_eq_true]
      exact ⟨⟨Sparse.above_insert h.1.1 (by omega), h.1.2⟩, ih h.2 (fun e he => hn e (by simp [he]))⟩

theorem Sparse.erase_ne {α : Type} {m : Sparse α} {k : Nat} : ∀ e ∈ m.erase k, e.1 ≠ k := by
  induction m with
  | nil => simp [Sparse.erase]
  | cons e rest ih =>
    obtain ⟨k', v'⟩ := e
    simp only [Sparse.erase]
    split
    · exact ih
    · rename_i hne
      intro e he
      rcases List.mem_cons.mp he with rfl | he
      · exact hne
      · exact ih e he

theorem Sparse.wf_put {α : Type} [DecidableEq α] {dflt : Nat → α} {m : Sparse α} {k : Nat} {v : α} (h : Sparse.wf dflt m = true) :
    Sparse.wf dflt (Sparse.put dflt m k v) = true := by
  unfold Sparse.put
  split
  · exact Sparse.wf_erase h
  · rename_i hv
    exact Sparse.wf_insert (Sparse.wf_erase h) hv Sparse.erase_ne

theorem Sparse.above_filter {α : Type} {m : Sparse α} {a : Nat} {p : Nat × α → Bool} (h : Sparse.above a m = true) :
    Sparse.above a (m.filter p) = true := by
  simp only [Sparse.above, List.all_eq_true, List.mem_filter] at *
  exact fun x hx => h x hx.1

theorem Sparse.wf_filter {α : Type} [DecidableEq α] {dflt : Nat → α} {m : Sparse α} {p : Nat × α → Bool} (h : Sparse.wf dflt m = true) :
    Sparse.wf dflt (m.filter p) = true := by
  induction m with
  | nil => rfl
  | cons e rest ih =>
    obtain ⟨k', v⟩ := e
    simp only [Sparse.wf, Bool.and_eq_true] at h
    by_cases hp : p (k', v)
    · rw [List.filter_cons_of_pos hp]
      simp only [Sparse.wf, Bool.and_eq_true]
      exact ⟨⟨Sparse.above_filter h.1.1, h.1.2⟩, ih h.2⟩
    · rw [List.filter_cons_of_neg hp]
      exact ih h.2

theorem keepStore_wf {m : Sparse Byte} {a : Nat} {bs : List Byte} (h : Sparse.wf keepDefault m = true) :
    Sparse.wf keepDefault (keepStore m a bs) = true := by
  induction bs generalizing m a with
  | nil => exact h
  | cons b rest ih => exact ih (Sparse.wf_put h)

theorem ite_canonical {c : Prop} [Decidable c] {a b : Dev} (ha : a.Canonical) (hb : b.Canonical) : (if c then a else b).Canonical := by
  split <;> assumption
theorem ite_fst_canonical {α : Type} {c : Prop} [Decidable c] {a b : Dev × α} (ha : a.1.Canonical) (hb : b.1.Canonical) : (if c then a else b).1.Canonical := by
  split <;> assumption
theorem ite_snd_canonical {α : Type} {c : Prop} [Decidable c] {a b : α × Dev} (ha : a.2.Canonical) (hb : b.2.Canonical) : (if c then a else b).2.Canonical := by
  split <;> assumption
theorem foldl_canonical {α : Type} {l : List α} {f : Dev → α → Dev} {d : Dev} (h : d.Canonical)
    (hf : ∀ d x, Dev.Canonical d → (f d x).Canonical) : (l.foldl f d).Canonical := by
  induction l generalizing d with
  | nil => exact h
  | cons x l ih => exact ih (hf _ _ h)
theorem foldl_fst_canonical {α β : Type} {l : List α} {f : Dev × β → α → Dev × β} {p : Dev × β} (h : p.1.Canonical)
    (hf : ∀ p x, Dev.Canonical p.1 → (f p x).1.Canonical) : (l.foldl f p).1.Canonical := by
  induction l generalizing p with
  | nil => exact h
  | cons x l ih => exact ih (hf _ _ h)
theorem foldl_snd_canonical {α β : Type} {l : List α} {f : β × Dev → α → β × Dev} {p : β × Dev} (h : p.2.Canonical)
    (hf : ∀ p x, Dev.Canonical p.2 → (f p x).2.Canonical) : (l.foldl f p).2.Canonical := by
  induction l generalizing p with
  | nil => exact h
  | cons x l ih => exact ih (hf _ _ h)
theorem fst_of_eq {α : Type} {p : Dev × α} {d : Dev} {x : α} (e : p = (d, x)) (h : p.1.Canonical) : d.Canonical := by rw [e] at h; exact h
theorem snd_of_eq {α : Type} {p : α × Dev} {d : Dev} {x : α} (e : p = (x, d)) (h : p.2.Canonical) : d.Canonical := by rw [e] at h; exact h
theorem run_canonical {s t : State} {f : Dev → Dev} (h : s.dev.Canonical) (e : s.run f = .next t)
    (hf : ∀ d, Dev.Canonical d → (f d).Canonical) : t.dev.Canonical := by
  cases e
  exact hf _ h
theorem Dev.setWord_canonical {d : Dev} {a : Nat} {w : Word} (hd : d.Canonical) : (Dev.setWord d a w).Canonical := by
  unfold Dev.setWord
  repeat' (first | ((try lift_lets); intro dX; first | (have hX : MemSt := dX; clear hX) | (have hX : Regs := dX; clear hX) | (have hX : KeepSt := dX; clear hX) | clear_value dX | skip) | (apply Dev.Canonical.mk <;> (try dsimp only) <;> with_reducible first | exact Dev.Canonical.words ‹_› | exact Dev.Canonical.eff ‹_› | exact Dev.Canonical.keep ‹_› | exact Dev.Canonical.cells ‹_› | exact Dev.Canonical.err ‹_› | exact Dev.Canonical.poison ‹_› | exact Sparse.wf_put (Dev.Canonical.words ‹_›) | exact Sparse.wf_put (Dev.Canonical.eff ‹_›) | exact Sparse.wf_put (Dev.Canonical.cells ‹_›) | exact Sparse.wf_put (Dev.Canonical.err ‹_›) | exact Sparse.wf_put (Dev.Canonical.poison ‹_›) | exact keepStore_wf (Dev.Canonical.keep ‹_›)))

theorem Dev.setEff_canonical {d : Dev} {a : Nat} {w : Word} (hd : d.Canonical) : (Dev.setEff d a w).Canonical := by
  unfold Dev.setEff
  repeat' (first | ((try lift_lets); intro dX; first | (have hX : MemSt := dX; clear hX) | (have hX : Regs := dX; clear hX) | (have hX : KeepSt := dX; clear hX) | clear_value dX | skip) | (apply Dev.Canonical.mk <;> (try dsimp only) <;> with_reducible first | exact Dev.Canonical.words ‹_› | exact Dev.Canonical.eff ‹_› | exact Dev.Canonical.keep ‹_› | exact Dev.Canonical.cells ‹_› | exact Dev.Canonical.err ‹_› | exact Dev.Canonical.poison ‹_› | exact Sparse.wf_put (Dev.Canonical.words ‹_›) | exact Sparse.wf_put (Dev.Canonical.eff ‹_›) | exact Sparse.wf_put (Dev.Canonical.cells ‹_›) | exact Sparse.wf_put (Dev.Canonical.err ‹_›) | exact Sparse.wf_put (Dev.Canonical.poison ‹_›) | exact keepStore_wf (Dev.Canonical.keep ‹_›)))

theorem Dev.set_canonical {d : Dev} {f : Fld} {v : Nat} (hd : d.Canonical) : (Dev.set d f v).Canonical := by
  unfold Dev.set
  repeat' (with_reducible first | assumption | apply Dev.setWord_canonical)

theorem Dev.setFlag_canonical {d : Dev} {f : Fld} {b : Bool} (hd : d.Canonical) : (Dev.setFlag d f b).Canonical := by
  unfold Dev.setFlag
  repeat' (with_reducible first | assumption | apply Dev.set_canonical)

theorem Dev.bump_canonical {d : Dev} {f : Fld} (hd : d.Canonical) : (Dev.bump d f).Canonical := by
  unfold Dev.bump
  repeat' (with_reducible first | assumption | apply Dev.set_canonical)

theorem Dev.add_canonical {d : Dev} {f : Fld} {n : Nat} (hd : d.Canonical) : (Dev.add d f n).Canonical := by
  unfold Dev.add
  repeat' (with_reducible first | assumption | apply Dev.set_canonical)

theorem Dev.addSat_canonical {d : Dev} {f : Fld} {n : Nat} (hd : d.Canonical) : (Dev.addSat d f n).Canonical := by
  unfold Dev.addSat
  repeat' (with_reducible first | assumption | apply Dev.set_canonical)

theorem Dev.latch_canonical {d : Dev} {a : Nat} (hd : d.Canonical) : (Dev.latch d a).Canonical := by
  unfold Dev.latch
  repeat' (with_reducible first | assumption | apply Dev.setEff_canonical)

theorem Dev.latchAll_canonical {d : Dev} {as : List Nat} (hd : d.Canonical) : (Dev.latchAll d as).Canonical := by
  unfold Dev.latchAll
  repeat' (with_reducible first | assumption | refine foldl_canonical ?_ (fun d x hd => ?_) | apply Dev.latch_canonical)

theorem Dev.emit_canonical {d : Dev} {o : Output} (hd : d.Canonical) : (Dev.emit d o).Canonical := by
  unfold Dev.emit
  repeat' (apply Dev.Canonical.mk <;> (try dsimp only) <;> with_reducible first | exact Dev.Canonical.words ‹_› | exact Dev.Canonical.eff ‹_› | exact Dev.Canonical.keep ‹_› | exact Dev.Canonical.cells ‹_› | exact Dev.Canonical.err ‹_› | exact Dev.Canonical.poison ‹_› | exact Sparse.wf_put (Dev.Canonical.words ‹_›) | exact Sparse.wf_put (Dev.Canonical.eff ‹_›) | exact Sparse.wf_put (Dev.Canonical.cells ‹_›) | exact Sparse.wf_put (Dev.Canonical.err ‹_›) | exact Sparse.wf_put (Dev.Canonical.poison ‹_›) | exact keepStore_wf (Dev.Canonical.keep ‹_›))

theorem Dev.pin_canonical {d : Dev} {code : Nat} {level : Nat} (hd : d.Canonical) : (Dev.pin d code level).Canonical := by
  unfold Dev.pin
  repeat' (with_reducible first | assumption | apply Dev.emit_canonical)

theorem Dev.tookFree_canonical {d : Dev} {n : Nat} (hd : d.Canonical) : (Dev.tookFree d n).Canonical := by
  unfold Dev.tookFree
  repeat' (apply Dev.Canonical.mk <;> (try dsimp only) <;> with_reducible first | exact Dev.Canonical.words ‹_› | exact Dev.Canonical.eff ‹_› | exact Dev.Canonical.keep ‹_› | exact Dev.Canonical.cells ‹_› | exact Dev.Canonical.err ‹_› | exact Dev.Canonical.poison ‹_› | exact Sparse.wf_put (Dev.Canonical.words ‹_›) | exact Sparse.wf_put (Dev.Canonical.eff ‹_›) | exact Sparse.wf_put (Dev.Canonical.cells ‹_›) | exact Sparse.wf_put (Dev.Canonical.err ‹_›) | exact Sparse.wf_put (Dev.Canonical.poison ‹_›) | exact keepStore_wf (Dev.Canonical.keep ‹_›))

theorem Dev.setCell_canonical {d : Dev} {h : Nat} {l : Nat} {b : Byte} (hd : d.Canonical) : (Dev.setCell d h l b).Canonical := by
  unfold Dev.setCell
  repeat' (first | with_reducible assumption | ((try lift_lets); intro dX; first | (have hX : MemSt := dX; clear hX) | (have hX : Regs := dX; clear hX) | (have hX : KeepSt := dX; clear hX) | clear_value dX | skip) | with_reducible apply ite_canonical | (apply Dev.Canonical.mk <;> (try dsimp only) <;> with_reducible first | exact Dev.Canonical.words ‹_› | exact Dev.Canonical.eff ‹_› | exact Dev.Canonical.keep ‹_› | exact Dev.Canonical.cells ‹_› | exact Dev.Canonical.err ‹_› | exact Dev.Canonical.poison ‹_› | exact Sparse.wf_put (Dev.Canonical.words ‹_›) | exact Sparse.wf_put (Dev.Canonical.eff ‹_›) | exact Sparse.wf_put (Dev.Canonical.cells ‹_›) | exact Sparse.wf_put (Dev.Canonical.err ‹_›) | exact Sparse.wf_put (Dev.Canonical.poison ‹_›) | exact keepStore_wf (Dev.Canonical.keep ‹_›)))

theorem Dev.setPoison_canonical {d : Dev} {h : Nat} {l : Nat} {p : Bool} (hd : d.Canonical) : (Dev.setPoison d h l p).Canonical := by
  unfold Dev.setPoison
  repeat' (first | ((try lift_lets); intro dX; first | (have hX : MemSt := dX; clear hX) | (have hX : Regs := dX; clear hX) | (have hX : KeepSt := dX; clear hX) | clear_value dX | skip) | (apply Dev.Canonical.mk <;> (try dsimp only) <;> with_reducible first | exact Dev.Canonical.words ‹_› | exact Dev.Canonical.eff ‹_› | exact Dev.Canonical.keep ‹_› | exact Dev.Canonical.cells ‹_› | exact Dev.Canonical.err ‹_› | exact Dev.Canonical.poison ‹_› | exact Sparse.wf_put (Dev.Canonical.words ‹_›) | exact Sparse.wf_put (Dev.Canonical.eff ‹_›) | exact Sparse.wf_put (Dev.Canonical.cells ‹_›) | exact Sparse.wf_put (Dev.Canonical.err ‹_›) | exact Sparse.wf_put (Dev.Canonical.poison ‹_›) | exact keepStore_wf (Dev.Canonical.keep ‹_›)))

theorem Dev.clearErr_canonical {d : Dev} {h : Nat} {l : Nat} (hd : d.Canonical) : (Dev.clearErr d h l).Canonical := by
  unfold Dev.clearErr
  repeat' (first | ((try lift_lets); intro dX; first | (have hX : MemSt := dX; clear hX) | (have hX : Regs := dX; clear hX) | (have hX : KeepSt := dX; clear hX) | clear_value dX | skip) | (apply Dev.Canonical.mk <;> (try dsimp only) <;> with_reducible first | exact Dev.Canonical.words ‹_› | exact Dev.Canonical.eff ‹_› | exact Dev.Canonical.keep ‹_› | exact Dev.Canonical.cells ‹_› | exact Dev.Canonical.err ‹_› | exact Dev.Canonical.poison ‹_› | exact Sparse.wf_put (Dev.Canonical.words ‹_›) | exact Sparse.wf_put (Dev.Canonical.eff ‹_›) | exact Sparse.wf_put (Dev.Canonical.cells ‹_›) | exact Sparse.wf_put (Dev.Canonical.err ‹_›) | exact Sparse.wf_put (Dev.Canonical.poison ‹_›) | exact keepStore_wf (Dev.Canonical.keep ‹_›)))

theorem Dev.freshBlock_canonical {d : Dev} {h : Nat} {l : Nat} (hd : d.Canonical) : (Dev.freshBlock d h l).Canonical := by
  unfold Dev.freshBlock
  repeat' (first | with_reducible assumption | ((try lift_lets); intro d1; refine (fun (hd1 : Dev.Canonical d1) => ?_) ?_; (try clear_value d1); on_goal 2 => unfold d1) | ((try lift_lets); intro dX; first | (have hX : MemSt := dX; clear hX) | (have hX : Regs := dX; clear hX) | (have hX : KeepSt := dX; clear hX) | clear_value dX | skip) | (with_reducible first | apply Dev.setPoison_canonical | apply Dev.clearErr_canonical | apply Dev.tookFree_canonical | apply Dev.set_canonical | apply ite_canonical) | (apply Dev.Canonical.mk <;> (try dsimp only) <;> with_reducible first | exact Dev.Canonical.words ‹_› | exact Dev.Canonical.eff ‹_› | exact Dev.Canonical.keep ‹_› | exact Dev.Canonical.cells ‹_› | exact Dev.Canonical.err ‹_› | exact Dev.Canonical.poison ‹_› | exact Sparse.wf_put (Dev.Canonical.words ‹_›) | exact Sparse.wf_put (Dev.Canonical.eff ‹_›) | exact Sparse.wf_put (Dev.Canonical.cells ‹_›) | exact Sparse.wf_put (Dev.Canonical.err ‹_›) | exact Sparse.wf_put (Dev.Canonical.poison ‹_›) | exact keepStore_wf (Dev.Canonical.keep ‹_›)) | split)

theorem Dev.formParity_canonical {d : Dev} {n : Nat} {s : Nat} {i : Nat} (hd : d.Canonical) : (Dev.formParity d n s i).Canonical := by
  unfold Dev.formParity
  repeat' (first | with_reducible assumption | ((try lift_lets); intro dX; first | (have hX : MemSt := dX; clear hX) | (have hX : Regs := dX; clear hX) | (have hX : KeepSt := dX; clear hX) | clear_value dX | skip) | with_reducible apply Dev.setCell_canonical)

theorem Dev.stripeWrite_canonical {d : Dev} {n : Nat} {s : Nat} {b : Nat} {i : Nat} {v : Byte} (hd : d.Canonical) : (Dev.stripeWrite d n s b i v).Canonical := by
  unfold Dev.stripeWrite
  repeat' (first | with_reducible assumption | ((try lift_lets); intro dX; first | (have hX : MemSt := dX; clear hX) | (have hX : Regs := dX; clear hX) | (have hX : KeepSt := dX; clear hX) | clear_value dX | skip) | with_reducible apply Dev.setCell_canonical)

theorem Dev.writeOut_canonical {d : Dev} {b : StripeBuf} (hd : d.Canonical) : (Dev.writeOut d b).Canonical := by
  unfold Dev.writeOut
  repeat' (first | (with_reducible first | assumption | refine foldl_canonical ?_ (fun d x hd => ?_)) | ((try lift_lets); intro d1; refine (fun (hd1 : Dev.Canonical d1) => ?_) ?_; (try clear_value d1); on_goal 2 => unfold d1) | ((try lift_lets); intro dX; first | (have hX : MemSt := dX; clear hX) | (have hX : Regs := dX; clear hX) | (have hX : KeepSt := dX; clear hX) | clear_value dX | skip) | (with_reducible first | apply Dev.freshBlock_canonical | apply Dev.stripeWrite_canonical) | (apply Dev.Canonical.mk <;> (try dsimp only) <;> with_reducible first | exact Dev.Canonical.words ‹_› | exact Dev.Canonical.eff ‹_› | exact Dev.Canonical.keep ‹_› | exact Dev.Canonical.cells ‹_› | exact Dev.Canonical.err ‹_› | exact Dev.Canonical.poison ‹_› | exact Sparse.wf_put (Dev.Canonical.words ‹_›) | exact Sparse.wf_put (Dev.Canonical.eff ‹_›) | exact Sparse.wf_put (Dev.Canonical.cells ‹_›) | exact Sparse.wf_put (Dev.Canonical.err ‹_›) | exact Sparse.wf_put (Dev.Canonical.poison ‹_›) | exact keepStore_wf (Dev.Canonical.keep ‹_›)))

theorem Dev.drainBuffers_canonical {d : Dev} (hd : d.Canonical) : (Dev.drainBuffers d).Canonical := by
  unfold Dev.drainBuffers
  repeat' (with_reducible first | assumption | refine foldl_canonical ?_ (fun d x hd => ?_) | apply Dev.writeOut_canonical)

theorem Dev.roomInHub_canonical {d : Dev} {q : Nat} (hd : d.Canonical) : (Dev.roomInHub d q).Canonical := by
  unfold Dev.roomInHub
  repeat' (first | with_reducible assumption | ((try lift_lets); intro dX; first | (have hX : MemSt := dX; clear hX) | (have hX : Regs := dX; clear hX) | (have hX : KeepSt := dX; clear hX) | clear_value dX | skip) | (with_reducible first | apply Dev.writeOut_canonical | apply ite_canonical) | split)

theorem Dev.holdGranule_canonical {d : Dev} {n : Nat} {s : Nat} {g : Nat} {bytes : List Byte} (hd : d.Canonical) : (Dev.holdGranule d n s g bytes).Canonical := by
  unfold Dev.holdGranule
  repeat' (first | with_reducible assumption | ((try lift_lets); intro d1; refine (fun (hd1 : Dev.Canonical d1) => ?_) ?_; (try clear_value d1); on_goal 2 => unfold d1) | ((try lift_lets); intro dX; first | (have hX : MemSt := dX; clear hX) | (have hX : Regs := dX; clear hX) | (have hX : KeepSt := dX; clear hX) | clear_value dX | skip) | (with_reducible first | apply Dev.roomInHub_canonical | apply Dev.writeOut_canonical | apply ite_canonical) | (apply Dev.Canonical.mk <;> (try dsimp only) <;> with_reducible first | exact Dev.Canonical.words ‹_› | exact Dev.Canonical.eff ‹_› | exact Dev.Canonical.keep ‹_› | exact Dev.Canonical.cells ‹_› | exact Dev.Canonical.err ‹_› | exact Dev.Canonical.poison ‹_› | exact Sparse.wf_put (Dev.Canonical.words ‹_›) | exact Sparse.wf_put (Dev.Canonical.eff ‹_›) | exact Sparse.wf_put (Dev.Canonical.cells ‹_›) | exact Sparse.wf_put (Dev.Canonical.err ‹_›) | exact Sparse.wf_put (Dev.Canonical.poison ‹_›) | exact keepStore_wf (Dev.Canonical.keep ‹_›)))

theorem Dev.writeBlock_canonical {d : Dev} {n : Nat} {o : Nat} {i : Nat} {bs : List Byte} (hd : d.Canonical) : (Dev.writeBlock d n o i bs).Canonical := by
  unfold Dev.writeBlock
  repeat' (first | (with_reducible first | assumption | refine foldl_canonical ?_ (fun d x hd => ?_)) | ((try lift_lets); intro dX; first | (have hX : MemSt := dX; clear hX) | (have hX : Regs := dX; clear hX) | (have hX : KeepSt := dX; clear hX) | clear_value dX | skip) | (with_reducible first | apply Dev.holdGranule_canonical | apply Dev.freshBlock_canonical | apply Dev.setCell_canonical | apply ite_canonical) | split)

theorem Dev.writeBlocks_canonical {x0 : Nat} {x1 : Dev} {x2 : Nat} {x3 : Nat} {x4 : List Byte} (hx1 : x1.Canonical) : (Dev.writeBlocks x0 x1 x2 x3 x4).Canonical := by
  induction x0 generalizing x1 x2 x3 x4 hx1 with
  | zero => exact hx1
  | succ n ih =>
    unfold Dev.writeBlocks
    repeat' (first | (with_reducible first | assumption | apply ih) | ((try lift_lets); intro dX; first | (have hX : MemSt := dX; clear hX) | (have hX : Regs := dX; clear hX) | (have hX : KeepSt := dX; clear hX) | clear_value dX | skip) | (with_reducible first | apply Dev.writeBlock_canonical | apply ite_canonical))

theorem Dev.poolWrite_canonical {d : Dev} {n : Nat} {o : Nat} {bs : List Byte} (hd : d.Canonical) : (Dev.poolWrite d n o bs).Canonical := by
  unfold Dev.poolWrite
  repeat' (with_reducible first | assumption | apply Dev.writeBlocks_canonical | apply ite_canonical)

theorem Dev.keepWrite_canonical {d : Dev} {a : Nat} {bs : List Byte} (hd : d.Canonical) : (Dev.keepWrite d a bs).Canonical := by
  unfold Dev.keepWrite
  repeat' (first | ((try lift_lets); intro dX; first | (have hX : MemSt := dX; clear hX) | (have hX : Regs := dX; clear hX) | (have hX : KeepSt := dX; clear hX) | clear_value dX | skip) | (apply Dev.Canonical.mk <;> (try dsimp only) <;> with_reducible first | exact Dev.Canonical.words ‹_› | exact Dev.Canonical.eff ‹_› | exact Dev.Canonical.keep ‹_› | exact Dev.Canonical.cells ‹_› | exact Dev.Canonical.err ‹_› | exact Dev.Canonical.poison ‹_› | exact Sparse.wf_put (Dev.Canonical.words ‹_›) | exact Sparse.wf_put (Dev.Canonical.eff ‹_›) | exact Sparse.wf_put (Dev.Canonical.cells ‹_›) | exact Sparse.wf_put (Dev.Canonical.err ‹_›) | exact Sparse.wf_put (Dev.Canonical.poison ‹_›) | exact keepStore_wf (Dev.Canonical.keep ‹_›)))

theorem Dev.keepCount_canonical {d : Dev} {k : Nat} (hd : d.Canonical) : (Dev.keepCount d k).Canonical := by
  unfold Dev.keepCount
  repeat' (first | with_reducible assumption | ((try lift_lets); intro dX; first | (have hX : MemSt := dX; clear hX) | (have hX : Regs := dX; clear hX) | (have hX : KeepSt := dX; clear hX) | clear_value dX | skip) | with_reducible apply Dev.keepWrite_canonical)

/-! ### Flags -/

theorem Dev.sendMsix_canonical {d : Dev} {vector : Nat} (hd : d.Canonical) : (Dev.sendMsix d vector).Canonical := by
  unfold Dev.sendMsix
  repeat' (with_reducible first | assumption | apply Dev.emit_canonical | apply ite_canonical)

theorem Dev.withIrq_canonical {d : Dev} {f : Dev → Dev} (hd : d.Canonical) (hf : ∀ d : Dev, d.Canonical → (f d).Canonical) : (Dev.withIrq d f).Canonical := by
  unfold Dev.withIrq
  repeat' (first | (with_reducible first | assumption | apply hf) | ((try lift_lets); intro d1; refine (fun (hd1 : Dev.Canonical d1) => ?_) ?_; (try clear_value d1); on_goal 2 => unfold d1) | (with_reducible first | apply Dev.pin_canonical | apply ite_canonical))

theorem Dev.signalEvent_canonical {d : Dev} {severity : Nat} (hd : d.Canonical) : (Dev.signalEvent d severity).Canonical := by
  unfold Dev.signalEvent
  repeat' (first | with_reducible assumption | ((try lift_lets); intro d1; refine (fun (hd1 : Dev.Canonical d1) => ?_) ?_; (try clear_value d1); on_goal 2 => unfold d1) | ((try lift_lets); intro dX; first | (have hX : MemSt := dX; clear hX) | (have hX : Regs := dX; clear hX) | (have hX : KeepSt := dX; clear hX) | clear_value dX | skip) | (with_reducible first | refine Dev.withIrq_canonical (hf := fun d hd => ?_) ?_ | apply Dev.set_canonical | apply Dev.sendMsix_canonical | apply ite_canonical) | (apply Dev.Canonical.mk <;> (try dsimp only) <;> with_reducible first | exact Dev.Canonical.words ‹_› | exact Dev.Canonical.eff ‹_› | exact Dev.Canonical.keep ‹_› | exact Dev.Canonical.cells ‹_› | exact Dev.Canonical.err ‹_› | exact Dev.Canonical.poison ‹_› | exact Sparse.wf_put (Dev.Canonical.words ‹_›) | exact Sparse.wf_put (Dev.Canonical.eff ‹_›) | exact Sparse.wf_put (Dev.Canonical.cells ‹_›) | exact Sparse.wf_put (Dev.Canonical.err ‹_›) | exact Sparse.wf_put (Dev.Canonical.poison ‹_›) | exact keepStore_wf (Dev.Canonical.keep ‹_›)))

theorem Dev.faultLog_canonical {d : Dev} {e : EventRec} (hd : d.Canonical) : (Dev.faultLog d e).Canonical := by
  unfold Dev.faultLog
  repeat' (first | with_reducible assumption | ((try lift_lets); intro d1; refine (fun (hd1 : Dev.Canonical d1) => ?_) ?_; (try clear_value d1); on_goal 2 => unfold d1) | ((try lift_lets); intro dX; first | (have hX : MemSt := dX; clear hX) | (have hX : Regs := dX; clear hX) | (have hX : KeepSt := dX; clear hX) | clear_value dX | skip) | (with_reducible first | apply Dev.keepWrite_canonical | apply ite_canonical) | (apply Dev.Canonical.mk <;> (try dsimp only) <;> with_reducible first | exact Dev.Canonical.words ‹_› | exact Dev.Canonical.eff ‹_› | exact Dev.Canonical.keep ‹_› | exact Dev.Canonical.cells ‹_› | exact Dev.Canonical.err ‹_› | exact Dev.Canonical.poison ‹_› | exact Sparse.wf_put (Dev.Canonical.words ‹_›) | exact Sparse.wf_put (Dev.Canonical.eff ‹_›) | exact Sparse.wf_put (Dev.Canonical.cells ‹_›) | exact Sparse.wf_put (Dev.Canonical.err ‹_›) | exact Sparse.wf_put (Dev.Canonical.poison ‹_›) | exact keepStore_wf (Dev.Canonical.keep ‹_›)))

theorem Dev.ringWrite_canonical {d : Dev} {e : EventRec} (hd : d.Canonical) : (Dev.ringWrite d e).Canonical := by
  unfold Dev.ringWrite
  repeat' (first | with_reducible assumption | ((try lift_lets); intro d1; refine (fun (hd1 : Dev.Canonical d1) => ?_) ?_; (try clear_value d1); on_goal 2 => unfold d1) | ((try lift_lets); intro dX; first | (have hX : MemSt := dX; clear hX) | (have hX : Regs := dX; clear hX) | (have hX : KeepSt := dX; clear hX) | clear_value dX | skip) | (with_reducible first | apply Dev.bump_canonical | apply Dev.poolWrite_canonical | apply Dev.faultLog_canonical | apply Dev.signalEvent_canonical | apply ite_canonical))

theorem Dev.raiseFrom_canonical {d : Dev} {code : Nat} {severity : Nat} {source : Nat} {noInst : Bool} {ctx : Nat} {items : List Item} (hd : d.Canonical) : (Dev.raiseFrom d code severity source noInst ctx items).Canonical := by
  unfold Dev.raiseFrom
  repeat' (first | with_reducible assumption | ((try lift_lets); intro d1; refine (fun (hd1 : Dev.Canonical d1) => ?_) ?_; (try clear_value d1); on_goal 2 => unfold d1) | ((try lift_lets); intro dX; first | (have hX : MemSt := dX; clear hX) | (have hX : Regs := dX; clear hX) | (have hX : KeepSt := dX; clear hX) | clear_value dX | skip) | (with_reducible first | apply Dev.ringWrite_canonical | apply Dev.set_canonical | apply Dev.addSat_canonical | apply Dev.bump_canonical | apply ite_canonical) | (apply Dev.Canonical.mk <;> (try dsimp only) <;> with_reducible first | exact Dev.Canonical.words ‹_› | exact Dev.Canonical.eff ‹_› | exact Dev.Canonical.keep ‹_› | exact Dev.Canonical.cells ‹_› | exact Dev.Canonical.err ‹_› | exact Dev.Canonical.poison ‹_› | exact Sparse.wf_put (Dev.Canonical.words ‹_›) | exact Sparse.wf_put (Dev.Canonical.eff ‹_›) | exact Sparse.wf_put (Dev.Canonical.cells ‹_›) | exact Sparse.wf_put (Dev.Canonical.err ‹_›) | exact Sparse.wf_put (Dev.Canonical.poison ‹_›) | exact keepStore_wf (Dev.Canonical.keep ‹_›)))

theorem Dev.raise_canonical {d : Dev} {code : Nat} {severity : Nat} {inst : Option Nat} {ctx : Nat} {items : List Item} (hd : d.Canonical) : (Dev.raise d code severity inst ctx items).Canonical := by
  unfold Dev.raise
  repeat' (first | (with_reducible first | assumption | apply Dev.raiseFrom_canonical) | split)

theorem Dev.event_canonical {d : Dev} {code : Nat} {severity : Nat} {items : List Item} (hd : d.Canonical) : (Dev.event d code severity items).Canonical := by
  unfold Dev.event
  repeat' (with_reducible first | assumption | apply Dev.raise_canonical)

theorem Dev.eventAt_canonical {d : Dev} {code : Nat} {severity : Nat} {inst : Nat} {items : List Item} (hd : d.Canonical) : (Dev.eventAt d code severity inst items).Canonical := by
  unfold Dev.eventAt
  repeat' (with_reducible first | assumption | apply Dev.raise_canonical)

theorem Dev.eventCtx_canonical {d : Dev} {code : Nat} {severity : Nat} {inst : Nat} {ctx : Nat} {items : List Item} (hd : d.Canonical) : (Dev.eventCtx d code severity inst ctx items).Canonical := by
  unfold Dev.eventCtx
  repeat' (with_reducible first | assumption | apply Dev.raise_canonical)

theorem Dev.flushHeld_canonical {d : Dev} (hd : d.Canonical) : (Dev.flushHeld d).Canonical := by
  unfold Dev.flushHeld
  repeat' (first | (with_reducible first | assumption | refine foldl_canonical ?_ (fun d x hd => ?_)) | ((try lift_lets); intro dX; first | (have hX : MemSt := dX; clear hX) | (have hX : Regs := dX; clear hX) | (have hX : KeepSt := dX; clear hX) | clear_value dX | skip) | (with_reducible first | apply Dev.set_canonical | apply Dev.ringWrite_canonical) | (apply Dev.Canonical.mk <;> (try dsimp only) <;> with_reducible first | exact Dev.Canonical.words ‹_› | exact Dev.Canonical.eff ‹_› | exact Dev.Canonical.keep ‹_› | exact Dev.Canonical.cells ‹_› | exact Dev.Canonical.err ‹_› | exact Dev.Canonical.poison ‹_› | exact Sparse.wf_put (Dev.Canonical.words ‹_›) | exact Sparse.wf_put (Dev.Canonical.eff ‹_›) | exact Sparse.wf_put (Dev.Canonical.cells ‹_›) | exact Sparse.wf_put (Dev.Canonical.err ‹_›) | exact Sparse.wf_put (Dev.Canonical.poison ‹_›) | exact keepStore_wf (Dev.Canonical.keep ‹_›)))

theorem Dev.holdEvents_canonical {d : Dev} (hd : d.Canonical) : (Dev.holdEvents d).Canonical := by
  unfold Dev.holdEvents
  repeat' (first | ((try lift_lets); intro dX; first | (have hX : MemSt := dX; clear hX) | (have hX : Regs := dX; clear hX) | (have hX : KeepSt := dX; clear hX) | clear_value dX | skip) | (apply Dev.Canonical.mk <;> (try dsimp only) <;> with_reducible first | exact Dev.Canonical.words ‹_› | exact Dev.Canonical.eff ‹_› | exact Dev.Canonical.keep ‹_› | exact Dev.Canonical.cells ‹_› | exact Dev.Canonical.err ‹_› | exact Dev.Canonical.poison ‹_› | exact Sparse.wf_put (Dev.Canonical.words ‹_›) | exact Sparse.wf_put (Dev.Canonical.eff ‹_›) | exact Sparse.wf_put (Dev.Canonical.cells ‹_›) | exact Sparse.wf_put (Dev.Canonical.err ‹_›) | exact Sparse.wf_put (Dev.Canonical.poison ‹_›) | exact keepStore_wf (Dev.Canonical.keep ‹_›)))

theorem Dev.eventReg_canonical {d : Dev} {code : Nat} {severity : Nat} {a : Nat} (hd : d.Canonical) : (Dev.eventReg d code severity a).Canonical := by
  unfold Dev.eventReg
  repeat' (with_reducible first | assumption | apply Dev.raiseFrom_canonical)

theorem Dev.cfgNonlive_canonical {d : Dev} {a : Nat} (hd : d.Canonical) : (Dev.cfgNonlive d a).Canonical := by
  unfold Dev.cfgNonlive
  repeat' (with_reducible first | assumption | apply Dev.eventReg_canonical)

theorem Dev.cfgZero_canonical {d : Dev} {a : Nat} (hd : d.Canonical) : (Dev.cfgZero d a).Canonical := by
  unfold Dev.cfgZero
  repeat' (with_reducible first | assumption | apply Dev.eventReg_canonical)

/-! ### Operands -/

theorem Dev.applyEntry_canonical {d : Dev} {inBoot : Bool} {rwl : Bool} {a : Nat} {v : Word} (hd : d.Canonical) : (Dev.applyEntry d inBoot rwl a v).Canonical := by
  unfold Dev.applyEntry
  repeat' (first | with_reducible assumption | ((try lift_lets); intro d1; refine (fun (hd1 : Dev.Canonical d1) => ?_) ?_; (try clear_value d1); on_goal 2 => unfold d1) | ((try lift_lets); intro dX; first | (have hX : MemSt := dX; clear hX) | (have hX : Regs := dX; clear hX) | (have hX : KeepSt := dX; clear hX) | clear_value dX | skip) | (with_reducible first | apply Dev.setWord_canonical | apply Dev.latch_canonical | apply ite_canonical) | (apply Dev.Canonical.mk <;> (try dsimp only) <;> with_reducible first | exact Dev.Canonical.words ‹_› | exact Dev.Canonical.eff ‹_› | exact Dev.Canonical.keep ‹_› | exact Dev.Canonical.cells ‹_› | exact Dev.Canonical.err ‹_› | exact Dev.Canonical.poison ‹_› | exact Sparse.wf_put (Dev.Canonical.words ‹_›) | exact Sparse.wf_put (Dev.Canonical.eff ‹_›) | exact Sparse.wf_put (Dev.Canonical.cells ‹_›) | exact Sparse.wf_put (Dev.Canonical.err ‹_›) | exact Sparse.wf_put (Dev.Canonical.poison ‹_›) | exact keepStore_wf (Dev.Canonical.keep ‹_›)) | split)

theorem Dev.plainWrite_canonical {d : Dev} {a : Nat} {v : Word} (hd : d.Canonical) : (Dev.plainWrite d a v).Canonical := by
  unfold Dev.plainWrite
  repeat' (first | with_reducible assumption | ((try lift_lets); intro d1; refine (fun (hd1 : Dev.Canonical d1) => ?_) ?_; (try clear_value d1); on_goal 2 => unfold d1) | ((try lift_lets); intro dX; first | (have hX : MemSt := dX; clear hX) | (have hX : Regs := dX; clear hX) | (have hX : KeepSt := dX; clear hX) | clear_value dX | skip) | (with_reducible first | apply Dev.setWord_canonical | apply Dev.cfgZero_canonical | apply Dev.cfgNonlive_canonical | apply ite_canonical) | split)

theorem Dev.refuse_canonical {d : Dev} {enAddr : Nat} (hd : d.Canonical) : (Dev.refuse d enAddr).Canonical := by
  unfold Dev.refuse
  repeat' (first | ((try lift_lets); intro dX; first | (have hX : MemSt := dX; clear hX) | (have hX : Regs := dX; clear hX) | (have hX : KeepSt := dX; clear hX) | clear_value dX | skip) | (apply Dev.Canonical.mk <;> (try dsimp only) <;> with_reducible first | exact Dev.Canonical.words ‹_› | exact Dev.Canonical.eff ‹_› | exact Dev.Canonical.keep ‹_› | exact Dev.Canonical.cells ‹_› | exact Dev.Canonical.err ‹_› | exact Dev.Canonical.poison ‹_› | exact Sparse.wf_put (Dev.Canonical.words ‹_›) | exact Sparse.wf_put (Dev.Canonical.eff ‹_›) | exact Sparse.wf_put (Dev.Canonical.cells ‹_›) | exact Sparse.wf_put (Dev.Canonical.err ‹_›) | exact Sparse.wf_put (Dev.Canonical.poison ‹_›) | exact keepStore_wf (Dev.Canonical.keep ‹_›)))

theorem Dev.gateWrite_canonical {d : Dev} {port : Nat} {a : Nat} {v : Word} {f : Dev → Dev} (hd : d.Canonical) (hf : ∀ d : Dev, d.Canonical → (f d).Canonical) : (Dev.gateWrite d port a v f).Canonical := by
  unfold Dev.gateWrite
  repeat' (first | (with_reducible first | assumption | apply hf) | ((try lift_lets); intro dX; first | (have hX : MemSt := dX; clear hX) | (have hX : Regs := dX; clear hX) | (have hX : KeepSt := dX; clear hX) | clear_value dX | skip) | (with_reducible first | apply Dev.event_canonical | apply ite_canonical) | (apply Dev.Canonical.mk <;> (try dsimp only) <;> with_reducible first | exact Dev.Canonical.words ‹_› | exact Dev.Canonical.eff ‹_› | exact Dev.Canonical.keep ‹_› | exact Dev.Canonical.cells ‹_› | exact Dev.Canonical.err ‹_› | exact Dev.Canonical.poison ‹_› | exact Sparse.wf_put (Dev.Canonical.words ‹_›) | exact Sparse.wf_put (Dev.Canonical.eff ‹_›) | exact Sparse.wf_put (Dev.Canonical.cells ‹_›) | exact Sparse.wf_put (Dev.Canonical.err ‹_›) | exact Sparse.wf_put (Dev.Canonical.poison ‹_›) | exact keepStore_wf (Dev.Canonical.keep ‹_›)))

/-! ### Pins -/

theorem Dev.setRails_canonical {d : Dev} {core : Bool} {hbm : Bool} (hd : d.Canonical) : (Dev.setRails d core hbm).Canonical := by
  unfold Dev.setRails
  repeat' (first | with_reducible assumption | ((try lift_lets); intro d1; refine (fun (hd1 : Dev.Canonical d1) => ?_) ?_; (try clear_value d1); on_goal 2 => unfold d1) | ((try lift_lets); intro dX; first | (have hX : MemSt := dX; clear hX) | (have hX : Regs := dX; clear hX) | (have hX : KeepSt := dX; clear hX) | clear_value dX | skip) | (with_reducible first | apply Dev.pin_canonical | apply Dev.setFlag_canonical | apply ite_canonical) | (apply Dev.Canonical.mk <;> (try dsimp only) <;> with_reducible first | exact Dev.Canonical.words ‹_› | exact Dev.Canonical.eff ‹_› | exact Dev.Canonical.keep ‹_› | exact Dev.Canonical.cells ‹_› | exact Dev.Canonical.err ‹_› | exact Dev.Canonical.poison ‹_› | exact Sparse.wf_put (Dev.Canonical.words ‹_›) | exact Sparse.wf_put (Dev.Canonical.eff ‹_›) | exact Sparse.wf_put (Dev.Canonical.cells ‹_›) | exact Sparse.wf_put (Dev.Canonical.err ‹_›) | exact Sparse.wf_put (Dev.Canonical.poison ‹_›) | exact keepStore_wf (Dev.Canonical.keep ‹_›)))

theorem Dev.driveFault_canonical {d : Dev} {was : Bool} (hd : d.Canonical) : (Dev.driveFault d was).Canonical := by
  unfold Dev.driveFault
  repeat' (with_reducible first | assumption | apply Dev.pin_canonical | apply ite_canonical)

theorem Dev.withFault_canonical {d : Dev} {f : Dev → Dev} (hd : d.Canonical) (hf : ∀ d : Dev, d.Canonical → (f d).Canonical) : (Dev.withFault d f).Canonical := by
  unfold Dev.withFault
  repeat' (with_reducible first | assumption | apply hf | apply Dev.driveFault_canonical)

/-! ### Link -/

theorem Dev.modPort_canonical {d : Dev} {p : Nat} {f : LinkPort → LinkPort} (hd : d.Canonical) : (Dev.modPort d p f).Canonical := by
  unfold Dev.modPort
  repeat' (apply Dev.Canonical.mk <;> (try dsimp only) <;> with_reducible first | exact Dev.Canonical.words ‹_› | exact Dev.Canonical.eff ‹_› | exact Dev.Canonical.keep ‹_› | exact Dev.Canonical.cells ‹_› | exact Dev.Canonical.err ‹_› | exact Dev.Canonical.poison ‹_› | exact Sparse.wf_put (Dev.Canonical.words ‹_›) | exact Sparse.wf_put (Dev.Canonical.eff ‹_›) | exact Sparse.wf_put (Dev.Canonical.cells ‹_›) | exact Sparse.wf_put (Dev.Canonical.err ‹_›) | exact Sparse.wf_put (Dev.Canonical.poison ‹_›) | exact keepStore_wf (Dev.Canonical.keep ‹_›))

theorem Dev.expSent_canonical {d : Dev} {n : Nat} (hd : d.Canonical) : (Dev.expSent d n).Canonical := by
  unfold Dev.expSent
  repeat' (first | with_reducible assumption | ((try lift_lets); intro dX; first | (have hX : MemSt := dX; clear hX) | (have hX : Regs := dX; clear hX) | (have hX : KeepSt := dX; clear hX) | clear_value dX | skip) | (with_reducible first | apply Dev.set_canonical | apply ite_canonical) | (apply Dev.Canonical.mk <;> (try dsimp only) <;> with_reducible first | exact Dev.Canonical.words ‹_› | exact Dev.Canonical.eff ‹_› | exact Dev.Canonical.keep ‹_› | exact Dev.Canonical.cells ‹_› | exact Dev.Canonical.err ‹_› | exact Dev.Canonical.poison ‹_› | exact Sparse.wf_put (Dev.Canonical.words ‹_›) | exact Sparse.wf_put (Dev.Canonical.eff ‹_›) | exact Sparse.wf_put (Dev.Canonical.cells ‹_›) | exact Sparse.wf_put (Dev.Canonical.err ‹_›) | exact Sparse.wf_put (Dev.Canonical.poison ‹_›) | exact keepStore_wf (Dev.Canonical.keep ‹_›)))

theorem Dev.bcPump_canonical {x0 : Nat} {x1 : Dev} {x2 : Nat} (hx1 : x1.Canonical) : (Dev.bcPump x0 x1 x2).Canonical := by
  induction x0 generalizing x1 x2 hx1 with
  | zero => exact hx1
  | succ n ih =>
    unfold Dev.bcPump
    repeat' (first | (with_reducible first | assumption | apply ih | apply Dev.emit_canonical | apply Dev.modPort_canonical | apply Dev.expSent_canonical) | split)

theorem Dev.bcSend_canonical {d : Dev} {p : Nat} {cmd : Nat} {payload : List Byte} {ctx : Option Nat} {host : Bool} (hd : d.Canonical) : (Dev.bcSend d p cmd payload ctx host).Canonical := by
  unfold Dev.bcSend
  repeat' (first | with_reducible assumption | ((try lift_lets); intro d1; refine (fun (hd1 : Dev.Canonical d1) => ?_) ?_; (try clear_value d1); on_goal 2 => unfold d1) | ((try lift_lets); intro dX; first | (have hX : MemSt := dX; clear hX) | (have hX : Regs := dX; clear hX) | (have hX : KeepSt := dX; clear hX) | clear_value dX | skip) | (with_reducible first | apply Dev.modPort_canonical | apply Dev.bcPump_canonical | apply ite_canonical))

theorem Dev.bcDone_canonical {d : Dev} {p : Nat} {f : BcFrame} (hd : d.Canonical) : (Dev.bcDone d p f).Canonical := by
  unfold Dev.bcDone
  repeat' (with_reducible first | assumption | apply Dev.modPort_canonical)

theorem Dev.bcWake_canonical {d : Dev} {p : Nat} (hd : d.Canonical) : (Dev.bcWake d p).Canonical := by
  unfold Dev.bcWake
  repeat' (with_reducible first | assumption | apply Dev.bcSend_canonical)

theorem Dev.trainReset_canonical {d : Dev} {p : Nat} (hd : d.Canonical) : (Dev.trainReset d p).Canonical := by
  unfold Dev.trainReset
  repeat' (first | (with_reducible first | assumption | refine foldl_canonical ?_ (fun d x hd => ?_)) | ((try lift_lets); intro d1; refine (fun (hd1 : Dev.Canonical d1) => ?_) ?_; (try clear_value d1); on_goal 2 => unfold d1) | (with_reducible first | apply Dev.set_canonical | apply Dev.setFlag_canonical | apply Dev.modPort_canonical))

theorem Dev.startTraining_canonical {d : Dev} {p : Nat} (hd : d.Canonical) : (Dev.startTraining d p).Canonical := by
  unfold Dev.startTraining
  repeat' (first | (with_reducible first | assumption | refine foldl_canonical ?_ (fun d x hd => ?_)) | ((try lift_lets); intro d1; refine (fun (hd1 : Dev.Canonical d1) => ?_) ?_; (try clear_value d1); on_goal 2 => unfold d1) | ((try lift_lets); intro dX; first | (have hX : MemSt := dX; clear hX) | (have hX : Regs := dX; clear hX) | (have hX : KeepSt := dX; clear hX) | clear_value dX | skip) | (with_reducible first | apply Dev.setFlag_canonical | apply Dev.trainReset_canonical | apply Dev.modPort_canonical | apply Dev.bump_canonical | apply Dev.emit_canonical | apply ite_canonical))

theorem Dev.sendMove_canonical {d : Dev} {p : Nat} {l : Nat} (hd : d.Canonical) : (Dev.sendMove d p l).Canonical := by
  unfold Dev.sendMove
  repeat' (first | with_reducible assumption | ((try lift_lets); intro d1; refine (fun (hd1 : Dev.Canonical d1) => ?_) ?_; (try clear_value d1); on_goal 2 => unfold d1) | ((try lift_lets); intro dX; first | (have hX : MemSt := dX; clear hX) | (have hX : Regs := dX; clear hX) | (have hX : KeepSt := dX; clear hX) | clear_value dX | skip) | (with_reducible first | apply Dev.modPort_canonical | apply Dev.bcSend_canonical))

theorem Dev.laneFail_canonical {d : Dev} {p : Nat} {k : Nat} {cause : Nat} (hd : d.Canonical) : (Dev.laneFail d p k cause).Canonical := by
  unfold Dev.laneFail
  repeat' (first | with_reducible assumption | ((try lift_lets); intro d1; refine (fun (hd1 : Dev.Canonical d1) => ?_) ?_; (try clear_value d1); on_goal 2 => unfold d1) | ((try lift_lets); intro dX; first | (have hX : MemSt := dX; clear hX) | (have hX : Regs := dX; clear hX) | (have hX : KeepSt := dX; clear hX) | clear_value dX | skip) | (with_reducible first | apply Dev.eventAt_canonical | apply Dev.modPort_canonical | apply Dev.setFlag_canonical | apply Dev.sendMove_canonical | apply ite_canonical))

theorem execBlockLockGained_canonical {p : Fin 8} {lane : Fin 9} {s : State} {st' : State} (hcan : s.dev.Canonical) (ht : execBlockLockGained p lane s = .next st') : st'.dev.Canonical := by
  unfold execBlockLockGained at ht
  refine run_canonical hcan ht ?_
  intro d hd
  repeat' (with_reducible first | assumption | apply Dev.setFlag_canonical | apply Dev.modPort_canonical)

theorem execBlockLockLost_canonical {p : Fin 8} {lane : Fin 9} {invalid : Nat} {s : State} {st' : State} (hcan : s.dev.Canonical) (ht : execBlockLockLost p lane invalid s = .next st') : st'.dev.Canonical := by
  unfold execBlockLockLost at ht
  refine run_canonical hcan ht ?_
  intro d hd
  repeat' (first | with_reducible assumption | ((try lift_lets); intro d1; refine (fun (hd1 : Dev.Canonical d1) => ?_) ?_; (try clear_value d1); on_goal 2 => unfold d1) | ((try lift_lets); intro dX; first | (have hX : MemSt := dX; clear hX) | (have hX : Regs := dX; clear hX) | (have hX : KeepSt := dX; clear hX) | clear_value dX | skip) | (with_reducible first | apply Dev.add_canonical | apply Dev.setFlag_canonical | apply Dev.laneFail_canonical | apply ite_canonical))

theorem Dev.deskewFail_canonical {d : Dev} {p : Nat} {lanes : Nat} {skew : Nat} (hd : d.Canonical) : (Dev.deskewFail d p lanes skew).Canonical := by
  unfold Dev.deskewFail
  repeat' (with_reducible first | assumption | apply Dev.eventAt_canonical | apply Dev.bump_canonical | apply Dev.startTraining_canonical)

theorem Dev.relockCheck_canonical {d : Dev} {p : Nat} (hd : d.Canonical) : (Dev.relockCheck d p).Canonical := by
  unfold Dev.relockCheck
  repeat' (first | with_reducible assumption | ((try lift_lets); intro d1; refine (fun (hd1 : Dev.Canonical d1) => ?_) ?_; (try clear_value d1); on_goal 2 => unfold d1) | ((try lift_lets); intro dX; first | (have hX : MemSt := dX; clear hX) | (have hX : Regs := dX; clear hX) | (have hX : KeepSt := dX; clear hX) | clear_value dX | skip) | (with_reducible first | apply Dev.modPort_canonical | apply Dev.setFlag_canonical | apply Dev.eventAt_canonical | apply Dev.bump_canonical | apply Dev.laneFail_canonical | apply Dev.startTraining_canonical | apply ite_canonical) | split)

theorem Dev.moveCheck_canonical {d : Dev} {p : Nat} {c : Nat} {carried : Nat} (hd : d.Canonical) : (Dev.moveCheck d p c carried).Canonical := by
  unfold Dev.moveCheck
  repeat' (first | with_reducible assumption | ((try lift_lets); intro d1; refine (fun (hd1 : Dev.Canonical d1) => ?_) ?_; (try clear_value d1); on_goal 2 => unfold d1) | (with_reducible first | apply Dev.modPort_canonical | apply Dev.set_canonical | apply Dev.setFlag_canonical | apply Dev.eventAt_canonical | apply Dev.sendMove_canonical | apply ite_canonical) | split)

theorem Dev.bipCheck_canonical {d : Dev} {p : Nat} {k : Nat} {mismatch : Bool} (hd : d.Canonical) : (Dev.bipCheck d p k mismatch).Canonical := by
  unfold Dev.bipCheck
  repeat' (first | with_reducible assumption | ((try lift_lets); intro d1; refine (fun (hd1 : Dev.Canonical d1) => ?_) ?_; (try clear_value d1); on_goal 2 => unfold d1) | ((try lift_lets); intro dX; first | (have hX : MemSt := dX; clear hX) | (have hX : Regs := dX; clear hX) | (have hX : KeepSt := dX; clear hX) | clear_value dX | skip) | (with_reducible first | apply Dev.bump_canonical | apply Dev.modPort_canonical | apply Dev.laneFail_canonical | apply ite_canonical))

theorem execAlignmentMarker_canonical {p : Fin 8} {lane : Fin 9} {blk : List Byte} {bip : Nat} {skewNs : Nat} {invalid : Nat} {s : State} {st' : State} (hcan : s.dev.Canonical) (ht : execAlignmentMarker p lane blk bip skewNs invalid s = .next st') : st'.dev.Canonical := by
  unfold execAlignmentMarker at ht
  refine run_canonical hcan ht ?_
  intro d hd
  repeat' (first | with_reducible assumption | ((try lift_lets); intro d1; refine (fun (hd1 : Dev.Canonical d1) => ?_) ?_; (try clear_value d1); on_goal 2 => unfold d1) | ((try lift_lets); intro dX; first | (have hX : MemSt := dX; clear hX) | (have hX : Regs := dX; clear hX) | (have hX : KeepSt := dX; clear hX) | clear_value dX | skip) | (with_reducible first | apply Dev.add_canonical | apply Dev.modPort_canonical | apply Dev.set_canonical | apply Dev.bipCheck_canonical | apply Dev.deskewFail_canonical | apply Dev.moveCheck_canonical | apply Dev.relockCheck_canonical | apply ite_canonical) | split)

theorem execElectricalIdleEntry_canonical {p : Fin 8} {s : State} {st' : State} (hcan : s.dev.Canonical) (ht : execElectricalIdleEntry p s = .next st') : st'.dev.Canonical := by
  unfold execElectricalIdleEntry at ht
  refine run_canonical hcan ht ?_
  intro d hd
  repeat' (first | (with_reducible first | assumption | refine foldl_canonical ?_ (fun d x hd => ?_)) | ((try lift_lets); intro d1; refine (fun (hd1 : Dev.Canonical d1) => ?_) ?_; (try clear_value d1); on_goal 2 => unfold d1) | (with_reducible first | apply Dev.setFlag_canonical | apply Dev.modPort_canonical | apply ite_canonical))

theorem execTrnBlock_canonical {p : Fin 8} {_lane : Fin 9} {blk : List Byte} {s : State} {st' : State} (hcan : s.dev.Canonical) (ht : execTrnBlock p _lane blk s = .next st') : st'.dev.Canonical := by
  unfold execTrnBlock at ht
  refine run_canonical hcan ht ?_
  intro d hd
  repeat' (with_reducible first | assumption | apply Dev.modPort_canonical | apply ite_canonical)

theorem execKslRetrain_canonical {p : Fin 8} {s : State} {st' : State} (hcan : s.dev.Canonical) (ht : execKslRetrain p s = .next st') : st'.dev.Canonical := by
  unfold execKslRetrain at ht
  refine run_canonical hcan ht ?_
  intro d hd
  repeat' (with_reducible first | assumption | refine Dev.gateWrite_canonical (hf := fun d hd => ?_) ?_ | apply Dev.setFlag_canonical | apply Dev.startTraining_canonical)

theorem execTrainReqSend_canonical {p : Fin 8} {s : State} {st' : State} (hcan : s.dev.Canonical) (ht : execTrainReqSend p s = .next st') : st'.dev.Canonical := by
  unfold execTrainReqSend at ht
  refine run_canonical hcan ht ?_
  intro d hd
  repeat' (with_reducible first | assumption | apply Dev.modPort_canonical | apply Dev.emit_canonical | apply Dev.bcSend_canonical | apply ite_canonical)

theorem Dev.adaptLane_canonical {d : Dev} {p : Nat} {k : Nat} (hd : d.Canonical) : (Dev.adaptLane d p k).Canonical := by
  unfold Dev.adaptLane
  repeat' (first | with_reducible assumption | ((try lift_lets); intro d1; refine (fun (hd1 : Dev.Canonical d1) => ?_) ?_; (try clear_value d1); on_goal 2 => unfold d1) | (with_reducible first | apply Dev.set_canonical | apply Dev.tookFree_canonical))

theorem Dev.lanesTrained_canonical {d : Dev} {p : Nat} {skewNs : Nat} (hd : d.Canonical) : (Dev.lanesTrained d p skewNs).Canonical := by
  unfold Dev.lanesTrained
  repeat' (first | (with_reducible first | assumption | refine foldl_canonical ?_ (fun d x hd => ?_)) | ((try lift_lets); intro d1; refine (fun (hd1 : Dev.Canonical d1) => ?_) ?_; (try clear_value d1); on_goal 2 => unfold d1) | ((try lift_lets); intro dX; first | (have hX : MemSt := dX; clear hX) | (have hX : Regs := dX; clear hX) | (have hX : KeepSt := dX; clear hX) | clear_value dX | skip) | (with_reducible first | apply Dev.set_canonical | apply Dev.setFlag_canonical | apply Dev.adaptLane_canonical | apply ite_canonical) | split)

theorem execTrainingLockDone_canonical {p : Fin 8} {skewNs : Nat} {s : State} {st' : State} (hcan : s.dev.Canonical) (ht : execTrainingLockDone p skewNs s = .next st') : st'.dev.Canonical := by
  unfold execTrainingLockDone at ht
  refine run_canonical hcan ht ?_
  intro d hd
  repeat' (first | (with_reducible first | assumption | refine foldl_canonical ?_ (fun d x hd => ?_)) | ((try lift_lets); intro d1; refine (fun (hd1 : Dev.Canonical d1) => ?_) ?_; (try clear_value d1); on_goal 2 => unfold d1) | (with_reducible first | apply Dev.lanesTrained_canonical | apply Dev.emit_canonical | apply Dev.bcSend_canonical | apply Dev.modPort_canonical | apply ite_canonical))

theorem execKslTrainFail_canonical {p : Fin 8} {s : State} {st' : State} (hcan : s.dev.Canonical) (ht : execKslTrainFail p s = .next st') : st'.dev.Canonical := by
  unfold execKslTrainFail at ht
  refine run_canonical hcan ht ?_
  intro d hd
  repeat' (first | (with_reducible first | assumption | refine foldl_canonical ?_ (fun d x hd => ?_)) | ((try lift_lets); intro d1; refine (fun (hd1 : Dev.Canonical d1) => ?_) ?_; (try clear_value d1); on_goal 2 => unfold d1) | ((try lift_lets); intro dX; first | (have hX : MemSt := dX; clear hX) | (have hX : Regs := dX; clear hX) | (have hX : KeepSt := dX; clear hX) | clear_value dX | skip) | (with_reducible first | apply Dev.modPort_canonical | apply Dev.setFlag_canonical | apply Dev.eventAt_canonical | apply ite_canonical))

theorem Dev.ctrlBlock_canonical {d : Dev} {p : Nat} {blk : List Byte} {sub : Nat} {f : Dev → Dev} (hd : d.Canonical) (hf : ∀ d : Dev, d.Canonical → (f d).Canonical) : (Dev.ctrlBlock d p blk sub f).Canonical := by
  unfold Dev.ctrlBlock
  repeat' (with_reducible first | assumption | apply hf | apply Dev.bump_canonical | apply ite_canonical)

theorem execCtrlStatus_canonical {p : Fin 8} {blk : List Byte} {s : State} {st' : State} (hcan : s.dev.Canonical) (ht : execCtrlStatus p blk s = .next st') : st'.dev.Canonical := by
  unfold execCtrlStatus at ht
  refine run_canonical hcan ht ?_
  intro d hd
  repeat' (with_reducible first | assumption | refine Dev.ctrlBlock_canonical (hf := fun d hd => ?_) ?_ | apply Dev.set_canonical)

theorem execRdData_canonical {p : Fin 8} {blk : List Byte} {s : State} {st' : State} (hcan : s.dev.Canonical) (ht : execRdData p blk s = .next st') : st'.dev.Canonical := by
  unfold execRdData at ht
  refine run_canonical hcan ht ?_
  intro d hd
  repeat' (first | with_reducible assumption | ((try lift_lets); intro d1; refine (fun (hd1 : Dev.Canonical d1) => ?_) ?_; (try clear_value d1); on_goal 2 => unfold d1) | (with_reducible first | refine Dev.ctrlBlock_canonical (hf := fun d hd => ?_) ?_ | apply Dev.set_canonical | apply Dev.setFlag_canonical | apply Dev.bcDone_canonical | apply ite_canonical) | split)

theorem Dev.expAnswer_canonical {d : Dev} {n : Nat} {sid : Nat} {answered : Bool} (hd : d.Canonical) : (Dev.expAnswer d n sid answered).Canonical := by
  unfold Dev.expAnswer
  repeat' (apply Dev.Canonical.mk <;> (try dsimp only) <;> with_reducible first | exact Dev.Canonical.words ‹_› | exact Dev.Canonical.eff ‹_› | exact Dev.Canonical.keep ‹_› | exact Dev.Canonical.cells ‹_› | exact Dev.Canonical.err ‹_› | exact Dev.Canonical.poison ‹_› | exact Sparse.wf_put (Dev.Canonical.words ‹_›) | exact Sparse.wf_put (Dev.Canonical.eff ‹_›) | exact Sparse.wf_put (Dev.Canonical.cells ‹_›) | exact Sparse.wf_put (Dev.Canonical.err ‹_›) | exact Sparse.wf_put (Dev.Canonical.poison ‹_›) | exact keepStore_wf (Dev.Canonical.keep ‹_›))

theorem execAck_canonical {p : Fin 8} {blk : List Byte} {s : State} {st' : State} (hcan : s.dev.Canonical) (ht : execAck p blk s = .next st') : st'.dev.Canonical := by
  unfold execAck at ht
  refine run_canonical hcan ht ?_
  intro d hd
  repeat' (first | with_reducible assumption | ((try lift_lets); intro d1; refine (fun (hd1 : Dev.Canonical d1) => ?_) ?_; (try clear_value d1); on_goal 2 => unfold d1) | (with_reducible first | refine Dev.ctrlBlock_canonical (hf := fun d hd => ?_) ?_ | apply Dev.set_canonical | apply Dev.setFlag_canonical | apply Dev.expAnswer_canonical | apply Dev.bcDone_canonical | apply ite_canonical) | split)

theorem execLaneAck_canonical {p : Fin 8} {blk : List Byte} {s : State} {st' : State} (hcan : s.dev.Canonical) (ht : execLaneAck p blk s = .next st') : st'.dev.Canonical := by
  unfold execLaneAck at ht
  refine run_canonical hcan ht ?_
  intro d hd
  repeat' (with_reducible first | assumption | refine Dev.ctrlBlock_canonical (hf := fun d hd => ?_) ?_ | apply Dev.modPort_canonical)

theorem Dev.bcGo_canonical {d : Dev} {p : Nat} {read : Bool} (hd : d.Canonical) : (Dev.bcGo d p read).Canonical := by
  unfold Dev.bcGo
  repeat' (first | with_reducible assumption | ((try lift_lets); intro d1; refine (fun (hd1 : Dev.Canonical d1) => ?_) ?_; (try clear_value d1); on_goal 2 => unfold d1) | ((try lift_lets); intro dX; first | (have hX : MemSt := dX; clear hX) | (have hX : Regs := dX; clear hX) | (have hX : KeepSt := dX; clear hX) | clear_value dX | skip) | (with_reducible first | apply Dev.setFlag_canonical | apply Dev.bcSend_canonical | apply ite_canonical))

theorem execBcRegWr_canonical {p : Fin 8} {s : State} {st' : State} (hcan : s.dev.Canonical) (ht : execBcRegWr p s = .next st') : st'.dev.Canonical := by
  unfold execBcRegWr at ht
  refine run_canonical hcan ht ?_
  intro d hd
  repeat' (with_reducible first | assumption | refine Dev.gateWrite_canonical (hf := fun d hd => ?_) ?_ | apply Dev.bcGo_canonical)

theorem execBcRegRd_canonical {p : Fin 8} {s : State} {st' : State} (hcan : s.dev.Canonical) (ht : execBcRegRd p s = .next st') : st'.dev.Canonical := by
  unfold execBcRegRd at ht
  refine run_canonical hcan ht ?_
  intro d hd
  repeat' (with_reducible first | assumption | refine Dev.gateWrite_canonical (hf := fun d hd => ?_) ?_ | apply Dev.bcGo_canonical)

theorem Dev.expLostEvent_canonical {d : Dev} {n : Nat} {e : ExpSet} (hd : d.Canonical) : (Dev.expLostEvent d n e).Canonical := by
  unfold Dev.expLostEvent
  repeat' (with_reducible first | assumption | apply Dev.eventCtx_canonical)

theorem Dev.expUnanswered_canonical {d : Dev} {n : Nat} {sid : Nat} (hd : d.Canonical) : (Dev.expUnanswered d n sid).Canonical := by
  unfold Dev.expUnanswered
  repeat' (first | with_reducible assumption | ((try lift_lets); intro d1; refine (fun (hd1 : Dev.Canonical d1) => ?_) ?_; (try clear_value d1); on_goal 2 => unfold d1) | (with_reducible first | apply Dev.expAnswer_canonical | apply Dev.set_canonical | apply Dev.expLostEvent_canonical | apply ite_canonical) | split)

theorem execBcAnswerTimeout_canonical {p : Fin 8} {s : State} {st' : State} (hcan : s.dev.Canonical) (ht : execBcAnswerTimeout p s = .next st') : st'.dev.Canonical := by
  unfold execBcAnswerTimeout at ht
  refine run_canonical hcan ht ?_
  intro d hd
  repeat' (first | with_reducible assumption | ((try lift_lets); intro d1; refine (fun (hd1 : Dev.Canonical d1) => ?_) ?_; (try clear_value d1); on_goal 2 => unfold d1) | (with_reducible first | apply Dev.modPort_canonical | apply Dev.emit_canonical | apply Dev.eventAt_canonical | apply Dev.bump_canonical | apply Dev.set_canonical | apply Dev.setFlag_canonical | apply Dev.expUnanswered_canonical | apply Dev.bcDone_canonical | apply ite_canonical) | split)

theorem execEyeMeasure_canonical {p : Fin 8} {lane : Fin 9} {s : State} {st' : State} (hcan : s.dev.Canonical) (ht : execEyeMeasure p lane s = .next st') : st'.dev.Canonical := by
  unfold execEyeMeasure at ht
  refine run_canonical hcan ht ?_
  intro d hd
  repeat' (with_reducible first | assumption | refine Dev.gateWrite_canonical (hf := fun d hd => ?_) ?_ | apply Dev.setFlag_canonical)

theorem execEyeMeasureDone_canonical {p : Fin 8} {lane : Fin 9} {errors : Nat} {s : State} {st' : State} (hcan : s.dev.Canonical) (ht : execEyeMeasureDone p lane errors s = .next st') : st'.dev.Canonical := by
  unfold execEyeMeasureDone at ht
  refine run_canonical hcan ht ?_
  intro d hd
  repeat' (with_reducible first | assumption | apply Dev.set_canonical | apply Dev.setFlag_canonical | apply ite_canonical)

theorem Dev.queueTrigger_canonical {d : Dev} {p : Nat} {target : Nat} {plan : Nat} (hd : d.Canonical) : (Dev.queueTrigger d p target plan).1.Canonical := by
  unfold Dev.queueTrigger
  repeat' (first | with_reducible assumption | ((try lift_lets); intro dX; first | (have hX : MemSt := dX; clear hX) | (have hX : Regs := dX; clear hX) | (have hX : KeepSt := dX; clear hX) | clear_value dX | skip) | (with_reducible first | apply Dev.eventAt_canonical | apply Dev.modPort_canonical) | split | dsimp only)

/-! ### Capture -/

theorem Dev.showNext_canonical {d : Dev} {p : Nat} {t : Nat} (hd : d.Canonical) : (Dev.showNext d p t).Canonical := by
  unfold Dev.showNext
  repeat' (with_reducible first | assumption | apply Dev.set_canonical)

theorem Dev.schedStart_canonical {d : Dev} {p : Nat} (hd : d.Canonical) : (Dev.schedStart d p).Canonical := by
  unfold Dev.schedStart
  repeat' (apply Dev.Canonical.mk <;> (try dsimp only) <;> with_reducible first | exact Dev.Canonical.words ‹_› | exact Dev.Canonical.eff ‹_› | exact Dev.Canonical.keep ‹_› | exact Dev.Canonical.cells ‹_› | exact Dev.Canonical.err ‹_› | exact Dev.Canonical.poison ‹_› | exact Sparse.wf_put (Dev.Canonical.words ‹_›) | exact Sparse.wf_put (Dev.Canonical.eff ‹_›) | exact Sparse.wf_put (Dev.Canonical.cells ‹_›) | exact Sparse.wf_put (Dev.Canonical.err ‹_›) | exact Sparse.wf_put (Dev.Canonical.poison ‹_›) | exact keepStore_wf (Dev.Canonical.keep ‹_›))

theorem Dev.modCtx_canonical {d : Dev} {n : Nat} {f : CapCtx → CapCtx} (hd : d.Canonical) : (Dev.modCtx d n f).Canonical := by
  unfold Dev.modCtx
  repeat' (apply Dev.Canonical.mk <;> (try dsimp only) <;> with_reducible first | exact Dev.Canonical.words ‹_› | exact Dev.Canonical.eff ‹_› | exact Dev.Canonical.keep ‹_› | exact Dev.Canonical.cells ‹_› | exact Dev.Canonical.err ‹_› | exact Dev.Canonical.poison ‹_› | exact Sparse.wf_put (Dev.Canonical.words ‹_›) | exact Sparse.wf_put (Dev.Canonical.eff ‹_›) | exact Sparse.wf_put (Dev.Canonical.cells ‹_›) | exact Sparse.wf_put (Dev.Canonical.err ‹_›) | exact Sparse.wf_put (Dev.Canonical.poison ‹_›) | exact keepStore_wf (Dev.Canonical.keep ‹_›))

theorem Dev.slotSeen_canonical {d : Dev} {n : Nat} {fseq : Nat} {sid : Nat} {trig : Nat} {missing : Bool} {jobFirst : Bool} (hd : d.Canonical) : (Dev.slotSeen d n fseq sid trig missing jobFirst).Canonical := by
  unfold Dev.slotSeen
  repeat' (with_reducible first | assumption | apply Dev.modCtx_canonical)

theorem Dev.slotBufs_canonical {d : Dev} {n : Nat} {fseq : Nat} {bufs : List (Option Nat)} (hd : d.Canonical) : (Dev.slotBufs d n fseq bufs).Canonical := by
  unfold Dev.slotBufs
  repeat' (with_reducible first | assumption | apply Dev.modCtx_canonical)

theorem Dev.limited_canonical {d : Dev} {n : Nat} {code : Nat} {f : Dev → Dev} (hd : d.Canonical) (hf : ∀ d : Dev, d.Canonical → (f d).Canonical) : (Dev.limited d n code f).Canonical := by
  unfold Dev.limited
  repeat' (first | (with_reducible first | assumption | apply hf) | ((try lift_lets); intro dX; first | (have hX : MemSt := dX; clear hX) | (have hX : Regs := dX; clear hX) | (have hX : KeepSt := dX; clear hX) | clear_value dX | skip) | (with_reducible first | apply Dev.modCtx_canonical | apply ite_canonical))

theorem execTriggerTargetHandover_canonical {p : Fin 8} {s : State} {st' : State} (hcan : s.dev.Canonical) (ht : execTriggerTargetHandover p s = .next st') : st'.dev.Canonical := by
  unfold execTriggerTargetHandover at ht
  refine run_canonical hcan ht ?_
  intro d hd
  repeat' (first | (with_reducible first | assumption | refine foldl_canonical ?_ (fun d x hd => ?_)) | ((try lift_lets); intro dX; first | (have hX : MemSt := dX; clear hX) | (have hX : Regs := dX; clear hX) | (have hX : KeepSt := dX; clear hX) | clear_value dX | skip) | (with_reducible first | apply Dev.queueTrigger_canonical | apply Dev.modCtx_canonical | apply Dev.showNext_canonical) | split | (apply Dev.Canonical.mk <;> (try dsimp only) <;> with_reducible first | apply Dev.Canonical.words | apply Dev.Canonical.eff | apply Dev.Canonical.keep | apply Dev.Canonical.cells | apply Dev.Canonical.err | apply Dev.Canonical.poison))
  all_goals (apply Dev.Canonical.mk <;> (try dsimp only) <;> with_reducible first | apply Dev.Canonical.words | apply Dev.Canonical.eff | apply Dev.Canonical.keep | apply Dev.Canonical.cells | apply Dev.Canonical.err | apply Dev.Canonical.poison)
  all_goals repeat' (first | (with_reducible first | assumption | refine foldl_canonical ?_ (fun d x hd => ?_)) | ((try lift_lets); intro dX; first | (have hX : MemSt := dX; clear hX) | (have hX : Regs := dX; clear hX) | (have hX : KeepSt := dX; clear hX) | clear_value dX | skip) | (with_reducible first | apply Dev.queueTrigger_canonical | apply Dev.modCtx_canonical | apply Dev.showNext_canonical) | split | (apply Dev.Canonical.mk <;> (try dsimp only) <;> with_reducible first | apply Dev.Canonical.words | apply Dev.Canonical.eff | apply Dev.Canonical.keep | apply Dev.Canonical.cells | apply Dev.Canonical.err | apply Dev.Canonical.poison))

theorem Dev.expT0_canonical {d : Dev} {p : Nat} {ord : Nat} (hd : d.Canonical) : (Dev.expT0 d p ord).Canonical := by
  unfold Dev.expT0
  repeat' (first | (with_reducible first | assumption | refine foldl_canonical ?_ (fun d x hd => ?_)) | ((try lift_lets); intro d1; refine (fun (hd1 : Dev.Canonical d1) => ?_) ?_; (try clear_value d1); on_goal 2 => unfold d1) | ((try lift_lets); intro dX; first | (have hX : MemSt := dX; clear hX) | (have hX : Regs := dX; clear hX) | (have hX : KeepSt := dX; clear hX) | clear_value dX | skip) | (with_reducible first | apply Dev.set_canonical | apply Dev.eventCtx_canonical | apply Dev.expLostEvent_canonical | apply ite_canonical) | (apply Dev.Canonical.mk <;> (try dsimp only) <;> with_reducible first | exact Dev.Canonical.words ‹_› | exact Dev.Canonical.eff ‹_› | exact Dev.Canonical.keep ‹_› | exact Dev.Canonical.cells ‹_› | exact Dev.Canonical.err ‹_› | exact Dev.Canonical.poison ‹_› | exact Sparse.wf_put (Dev.Canonical.words ‹_›) | exact Sparse.wf_put (Dev.Canonical.eff ‹_›) | exact Sparse.wf_put (Dev.Canonical.cells ‹_›) | exact Sparse.wf_put (Dev.Canonical.err ‹_›) | exact Sparse.wf_put (Dev.Canonical.poison ‹_›) | exact keepStore_wf (Dev.Canonical.keep ‹_›)) | split)

theorem Dev.expSend_canonical {d : Dev} {n : Nat} (hd : d.Canonical) : (Dev.expSend d n).Canonical := by
  unfold Dev.expSend
  repeat' (first | with_reducible assumption | ((try lift_lets); intro dX; first | (have hX : MemSt := dX; clear hX) | (have hX : Regs := dX; clear hX) | (have hX : KeepSt := dX; clear hX) | clear_value dX | skip) | (with_reducible first | apply Dev.bcSend_canonical | apply ite_canonical) | split)

theorem execExpSetSend_canonical {n : Fin 16} {s : State} {st' : State} (hcan : s.dev.Canonical) (ht : execExpSetSend n s = .next st') : st'.dev.Canonical := by
  unfold execExpSetSend at ht
  refine run_canonical hcan ht ?_
  intro d hd
  repeat' (with_reducible first | assumption | apply Dev.expSend_canonical | apply ite_canonical)

theorem execTriggerSequence_canonical {p : Fin 8} {s : State} {st' : State} (hcan : s.dev.Canonical) (ht : execTriggerSequence p s = .next st') : st'.dev.Canonical := by
  unfold execTriggerSequence at ht
  refine run_canonical hcan ht ?_
  intro d hd
  repeat' (first | with_reducible assumption | ((try lift_lets); intro d1; refine (fun (hd1 : Dev.Canonical d1) => ?_) ?_; (try clear_value d1); on_goal 2 => unfold d1) | (with_reducible first | apply Dev.modPort_canonical | apply Dev.emit_canonical | apply Dev.expT0_canonical) | split)

theorem execXtrigRise_canonical {p : Fin 8} {s : State} {st' : State} (hcan : s.dev.Canonical) (ht : execXtrigRise p s = .next st') : st'.dev.Canonical := by
  unfold execXtrigRise at ht
  refine run_canonical hcan ht ?_
  intro d hd
  repeat' (first | with_reducible assumption | ((try lift_lets); intro d1; refine (fun (hd1 : Dev.Canonical d1) => ?_) ?_; (try clear_value d1); on_goal 2 => unfold d1) | (with_reducible first | apply Dev.modPort_canonical | apply Dev.pin_canonical | apply Dev.expT0_canonical | apply ite_canonical) | split)

theorem execXtrigFall_canonical {p : Fin 8} {s : State} {st' : State} (hcan : s.dev.Canonical) (ht : execXtrigFall p s = .next st') : st'.dev.Canonical := by
  unfold execXtrigFall at ht
  refine run_canonical hcan ht ?_
  intro d hd
  repeat' (with_reducible first | assumption | apply Dev.pin_canonical)

theorem Dev.rawTake_canonical {d : Dev} {off : Nat} {len : Nat} {ctx : Nat} {fseq : Nat} (hd : d.Canonical) : (Dev.rawTake d off len ctx fseq).Canonical := by
  unfold Dev.rawTake
  repeat' (apply Dev.Canonical.mk <;> (try dsimp only) <;> with_reducible first | exact Dev.Canonical.words ‹_› | exact Dev.Canonical.eff ‹_› | exact Dev.Canonical.keep ‹_› | exact Dev.Canonical.cells ‹_› | exact Dev.Canonical.err ‹_› | exact Dev.Canonical.poison ‹_› | exact Sparse.wf_put (Dev.Canonical.words ‹_›) | exact Sparse.wf_put (Dev.Canonical.eff ‹_›) | exact Sparse.wf_put (Dev.Canonical.cells ‹_›) | exact Sparse.wf_put (Dev.Canonical.err ‹_›) | exact Sparse.wf_put (Dev.Canonical.poison ‹_›) | exact keepStore_wf (Dev.Canonical.keep ‹_›))

theorem Dev.rawModify_canonical {d : Dev} {ctx : Nat} {fseq : Nat} {f : RawEntry → RawEntry} (hd : d.Canonical) : (Dev.rawModify d ctx fseq f).Canonical := by
  unfold Dev.rawModify
  repeat' (apply Dev.Canonical.mk <;> (try dsimp only) <;> with_reducible first | exact Dev.Canonical.words ‹_› | exact Dev.Canonical.eff ‹_› | exact Dev.Canonical.keep ‹_› | exact Dev.Canonical.cells ‹_› | exact Dev.Canonical.err ‹_› | exact Dev.Canonical.poison ‹_› | exact Sparse.wf_put (Dev.Canonical.words ‹_›) | exact Sparse.wf_put (Dev.Canonical.eff ‹_›) | exact Sparse.wf_put (Dev.Canonical.cells ‹_›) | exact Sparse.wf_put (Dev.Canonical.err ‹_›) | exact Sparse.wf_put (Dev.Canonical.poison ‹_›) | exact keepStore_wf (Dev.Canonical.keep ‹_›))

theorem Dev.recordAlone_canonical {d : Dev} {n : Nat} {fseq : Nat} {rec : List Byte} (hd : d.Canonical) : (Dev.recordAlone d n fseq rec).Canonical := by
  unfold Dev.recordAlone
  repeat' (first | with_reducible assumption | ((try lift_lets); intro dX; first | (have hX : MemSt := dX; clear hX) | (have hX : Regs := dX; clear hX) | (have hX : KeepSt := dX; clear hX) | clear_value dX | skip) | (with_reducible first | apply Dev.modCtx_canonical | apply Dev.rawTake_canonical | apply Dev.poolWrite_canonical | apply ite_canonical) | split)

theorem Dev.statsHeader_canonical {d : Dev} {n : Nat} {fseq : Nat} {sid : Nat} {state : Nat} {done : Nat} (hd : d.Canonical) : (Dev.statsHeader d n fseq sid state done).Canonical := by
  unfold Dev.statsHeader
  repeat' (first | with_reducible assumption | ((try lift_lets); intro dX; first | (have hX : MemSt := dX; clear hX) | (have hX : Regs := dX; clear hX) | (have hX : KeepSt := dX; clear hX) | clear_value dX | skip) | (with_reducible first | apply Dev.poolWrite_canonical | apply ite_canonical))

/-! ### Develop -/

theorem Dev.modFrame_canonical {d : Dev} {n : Nat} {fseq : Nat} {g : CapFrame → CapFrame} (hd : d.Canonical) : (Dev.modFrame d n fseq g).Canonical := by
  unfold Dev.modFrame
  repeat' (with_reducible first | assumption | apply Dev.modCtx_canonical)

theorem Dev.hold_canonical {d : Dev} {key : Nat} {by_ : Nat} (hd : d.Canonical) : (Dev.hold d key by_).Canonical := by
  unfold Dev.hold
  repeat' (first | (with_reducible first | assumption | apply ite_canonical) | (apply Dev.Canonical.mk <;> (try dsimp only) <;> with_reducible first | exact Dev.Canonical.words ‹_› | exact Dev.Canonical.eff ‹_› | exact Dev.Canonical.keep ‹_› | exact Dev.Canonical.cells ‹_› | exact Dev.Canonical.err ‹_› | exact Dev.Canonical.poison ‹_› | exact Sparse.wf_put (Dev.Canonical.words ‹_›) | exact Sparse.wf_put (Dev.Canonical.eff ‹_›) | exact Sparse.wf_put (Dev.Canonical.cells ‹_›) | exact Sparse.wf_put (Dev.Canonical.err ‹_›) | exact Sparse.wf_put (Dev.Canonical.poison ‹_›) | exact keepStore_wf (Dev.Canonical.keep ‹_›)))

theorem Dev.releaseBy_canonical {d : Dev} {by_ : Nat} (hd : d.Canonical) : (Dev.releaseBy d by_).Canonical := by
  unfold Dev.releaseBy
  repeat' (apply Dev.Canonical.mk <;> (try dsimp only) <;> with_reducible first | exact Dev.Canonical.words ‹_› | exact Dev.Canonical.eff ‹_› | exact Dev.Canonical.keep ‹_› | exact Dev.Canonical.cells ‹_› | exact Dev.Canonical.err ‹_› | exact Dev.Canonical.poison ‹_› | exact Sparse.wf_put (Dev.Canonical.words ‹_›) | exact Sparse.wf_put (Dev.Canonical.eff ‹_›) | exact Sparse.wf_put (Dev.Canonical.cells ‹_›) | exact Sparse.wf_put (Dev.Canonical.err ‹_›) | exact Sparse.wf_put (Dev.Canonical.poison ‹_›) | exact keepStore_wf (Dev.Canonical.keep ‹_›))

theorem Dev.release_canonical {d : Dev} {key : Nat} {by_ : Nat} (hd : d.Canonical) : (Dev.release d key by_).Canonical := by
  unfold Dev.release
  repeat' (apply Dev.Canonical.mk <;> (try dsimp only) <;> with_reducible first | exact Dev.Canonical.words ‹_› | exact Dev.Canonical.eff ‹_› | exact Dev.Canonical.keep ‹_› | exact Dev.Canonical.cells ‹_› | exact Dev.Canonical.err ‹_› | exact Dev.Canonical.poison ‹_› | exact Sparse.wf_put (Dev.Canonical.words ‹_›) | exact Sparse.wf_put (Dev.Canonical.eff ‹_›) | exact Sparse.wf_put (Dev.Canonical.cells ‹_›) | exact Sparse.wf_put (Dev.Canonical.err ‹_›) | exact Sparse.wf_put (Dev.Canonical.poison ‹_›) | exact keepStore_wf (Dev.Canonical.keep ‹_›))

theorem Dev.devPut_canonical {d : Dev} {off : Nat} {len : Nat} {v : Nat} (hd : d.Canonical) : (Dev.devPut d off len v).Canonical := by
  unfold Dev.devPut
  repeat' (with_reducible first | assumption | apply Dev.poolWrite_canonical)

theorem Dev.writeLines_canonical {d : Dev} {n : Nat} {b : Nat} {i : Nat} {f : CapFrame} {p : Rgb} {a : Nat} {z : Nat} (hd : d.Canonical) : (Dev.writeLines d n b i f p a z).Canonical := by
  unfold Dev.writeLines
  repeat' (with_reducible first | assumption | refine foldl_canonical ?_ (fun d x hd => ?_) | apply Dev.poolWrite_canonical)

theorem Dev.advanceBranches_canonical {d : Dev} {n : Nat} {fseq : Nat} {rows : List Row} (hd : d.Canonical) : (Dev.advanceBranches d n fseq rows).Canonical := by
  unfold Dev.advanceBranches
  repeat' (first | (with_reducible first | assumption | refine foldl_canonical ?_ (fun d x hd => ?_)) | ((try lift_lets); intro dX; first | (have hX : MemSt := dX; clear hX) | (have hX : Regs := dX; clear hX) | (have hX : KeepSt := dX; clear hX) | clear_value dX | skip) | (with_reducible first | apply Dev.writeLines_canonical | apply Dev.modFrame_canonical | apply Dev.devPut_canonical | apply Dev.set_canonical | apply ite_canonical) | split)

theorem Dev.dmapFull_canonical {d : Dev} {p : Nat} (hd : d.Canonical) : (Dev.dmapFull d p).Canonical := by
  unfold Dev.dmapFull
  repeat' (first | with_reducible assumption | ((try lift_lets); intro d1; refine (fun (hd1 : Dev.Canonical d1) => ?_) ?_; (try clear_value d1); on_goal 2 => unfold d1) | ((try lift_lets); intro dX; first | (have hX : MemSt := dX; clear hX) | (have hX : Regs := dX; clear hX) | (have hX : KeepSt := dX; clear hX) | clear_value dX | skip) | (with_reducible first | apply Dev.eventAt_canonical | apply ite_canonical) | (apply Dev.Canonical.mk <;> (try dsimp only) <;> with_reducible first | exact Dev.Canonical.words ‹_› | exact Dev.Canonical.eff ‹_› | exact Dev.Canonical.keep ‹_› | exact Dev.Canonical.cells ‹_› | exact Dev.Canonical.err ‹_› | exact Dev.Canonical.poison ‹_› | exact Sparse.wf_put (Dev.Canonical.words ‹_›) | exact Sparse.wf_put (Dev.Canonical.eff ‹_›) | exact Sparse.wf_put (Dev.Canonical.cells ‹_›) | exact Sparse.wf_put (Dev.Canonical.err ‹_›) | exact Sparse.wf_put (Dev.Canonical.poison ‹_›) | exact keepStore_wf (Dev.Canonical.keep ‹_›)))

theorem Dev.mapEdited_canonical {d : Dev} {p : Nat} {op : Nat} {x : DefectEntry} {l : List DefectEntry} (hd : d.Canonical) : (Dev.mapEdited d p op x l).Canonical := by
  unfold Dev.mapEdited
  repeat' (first | ((try lift_lets); intro dX; first | (have hX : MemSt := dX; clear hX) | (have hX : Regs := dX; clear hX) | (have hX : KeepSt := dX; clear hX) | clear_value dX | skip) | (apply Dev.Canonical.mk <;> (try dsimp only) <;> with_reducible first | exact Dev.Canonical.words ‹_› | exact Dev.Canonical.eff ‹_› | exact Dev.Canonical.keep ‹_› | exact Dev.Canonical.cells ‹_› | exact Dev.Canonical.err ‹_› | exact Dev.Canonical.poison ‹_› | exact Sparse.wf_put (Dev.Canonical.words ‹_›) | exact Sparse.wf_put (Dev.Canonical.eff ‹_›) | exact Sparse.wf_put (Dev.Canonical.cells ‹_›) | exact Sparse.wf_put (Dev.Canonical.err ‹_›) | exact Sparse.wf_put (Dev.Canonical.poison ‹_›) | exact keepStore_wf (Dev.Canonical.keep ‹_›)))

theorem Dev.applyEdit_canonical {d : Dev} {p : Nat} {e : DefectEdit} (hd : d.Canonical) : (Dev.applyEdit d p e).Canonical := by
  unfold Dev.applyEdit
  repeat' (first | with_reducible assumption | ((try lift_lets); intro dX; first | (have hX : MemSt := dX; clear hX) | (have hX : Regs := dX; clear hX) | (have hX : KeepSt := dX; clear hX) | clear_value dX | skip) | (with_reducible first | apply Dev.mapEdited_canonical | apply Dev.dmapFull_canonical | apply ite_canonical) | split)

theorem Dev.applyEdits_canonical {d : Dev} {p : Nat} (hd : d.Canonical) : (Dev.applyEdits d p).Canonical := by
  unfold Dev.applyEdits
  repeat' (first | (with_reducible first | assumption | refine foldl_canonical ?_ (fun d x hd => ?_)) | ((try lift_lets); intro d1; refine (fun (hd1 : Dev.Canonical d1) => ?_) ?_; (try clear_value d1); on_goal 2 => unfold d1) | ((try lift_lets); intro dX; first | (have hX : MemSt := dX; clear hX) | (have hX : Regs := dX; clear hX) | (have hX : KeepSt := dX; clear hX) | clear_value dX | skip) | (with_reducible first | apply Dev.applyEdit_canonical | apply Dev.bump_canonical | apply Dev.set_canonical | apply ite_canonical) | (apply Dev.Canonical.mk <;> (try dsimp only) <;> with_reducible first | exact Dev.Canonical.words ‹_› | exact Dev.Canonical.eff ‹_› | exact Dev.Canonical.keep ‹_› | exact Dev.Canonical.cells ‹_› | exact Dev.Canonical.err ‹_› | exact Dev.Canonical.poison ‹_› | exact Sparse.wf_put (Dev.Canonical.words ‹_›) | exact Sparse.wf_put (Dev.Canonical.eff ‹_›) | exact Sparse.wf_put (Dev.Canonical.cells ‹_›) | exact Sparse.wf_put (Dev.Canonical.err ‹_›) | exact Sparse.wf_put (Dev.Canonical.poison ‹_›) | exact keepStore_wf (Dev.Canonical.keep ‹_›)))

theorem Dev.useColSet_canonical {d : Dev} {n : Nat} {sid : Nat} {ws : Sparse Word} (hd : d.Canonical) : (Dev.useColSet d n sid ws).Canonical := by
  unfold Dev.useColSet
  repeat' (first | (with_reducible first | assumption | refine foldl_canonical ?_ (fun d x hd => ?_)) | ((try lift_lets); intro d1; refine (fun (hd1 : Dev.Canonical d1) => ?_) ?_; (try clear_value d1); on_goal 2 => unfold d1) | (with_reducible first | apply Dev.modCtx_canonical | apply Dev.setEff_canonical | apply Dev.set_canonical))

theorem Dev.lutSwitch_canonical {d : Dev} {n : Nat} {b : Nat} {fseq : Nat} (hd : d.Canonical) : (Dev.lutSwitch d n b fseq).1.Canonical := by
  unfold Dev.lutSwitch
  repeat' (first | with_reducible assumption | ((try lift_lets); intro dX; first | (have hX : MemSt := dX; clear hX) | (have hX : Regs := dX; clear hX) | (have hX : KeepSt := dX; clear hX) | clear_value dX | skip) | (with_reducible first | apply Dev.set_canonical | apply Dev.eventCtx_canonical) | split)

theorem Dev.devStart_canonical {d : Dev} {n : Nat} {fseq : Nat} {live : Bool} (hd : d.Canonical) : (Dev.devStart d n fseq live).Canonical := by
  unfold Dev.devStart
  repeat' (first | (with_reducible first | assumption | refine foldl_canonical ?_ (fun d x hd => ?_)) | ((try lift_lets); intro d1; refine (fun (hd1 : Dev.Canonical d1) => ?_) ?_; (try clear_value d1); on_goal 2 => unfold d1) | ((try lift_lets); intro dX; first | (have hX : MemSt := dX; clear hX) | (have hX : Regs := dX; clear hX) | (have hX : KeepSt := dX; clear hX) | clear_value dX | skip) | (with_reducible first | apply Dev.applyEdits_canonical | apply Dev.useColSet_canonical | apply Dev.lutSwitch_canonical | apply Dev.bump_canonical | refine Dev.limited_canonical (hf := fun d hd => ?_) ?_ | apply Dev.eventCtx_canonical | apply Dev.modFrame_canonical | apply Dev.slotBufs_canonical | apply Dev.poolWrite_canonical | apply Dev.statsHeader_canonical | apply ite_canonical | refine foldl_fst_canonical ?_ (fun p x hp => ?_)) | (apply Dev.Canonical.mk <;> (try dsimp only) <;> with_reducible first | exact Dev.Canonical.words ‹_› | exact Dev.Canonical.eff ‹_› | exact Dev.Canonical.keep ‹_› | exact Dev.Canonical.cells ‹_› | exact Dev.Canonical.err ‹_› | exact Dev.Canonical.poison ‹_› | exact Sparse.wf_put (Dev.Canonical.words ‹_›) | exact Sparse.wf_put (Dev.Canonical.eff ‹_›) | exact Sparse.wf_put (Dev.Canonical.cells ‹_›) | exact Sparse.wf_put (Dev.Canonical.err ‹_›) | exact Sparse.wf_put (Dev.Canonical.poison ‹_›) | exact keepStore_wf (Dev.Canonical.keep ‹_›)) | split)

theorem Dev.mvMiss_canonical {d : Dev} {n : Nat} {b : Nat} {code : Nat} {f : CapFrame} (hd : d.Canonical) : (Dev.mvMiss d n b code f).Canonical := by
  unfold Dev.mvMiss
  repeat' (with_reducible first | assumption | apply Dev.bump_canonical | refine Dev.limited_canonical (hf := fun d hd => ?_) ?_ | apply Dev.eventCtx_canonical)

theorem Dev.mvPush_canonical {d : Dev} {n : Nat} {b : Nat} {f : CapFrame} {ap0 : Rgb} {addrs : List Nat} (hd : d.Canonical) : (Dev.mvPush d n b f ap0 addrs).Canonical := by
  unfold Dev.mvPush
  repeat' (first | (with_reducible first | assumption | refine foldl_canonical ?_ (fun d x hd => ?_)) | ((try lift_lets); intro d1; refine (fun (hd1 : Dev.Canonical d1) => ?_) ?_; (try clear_value d1); on_goal 2 => unfold d1) | ((try lift_lets); intro dX; first | (have hX : MemSt := dX; clear hX) | (have hX : Regs := dX; clear hX) | (have hX : KeepSt := dX; clear hX) | clear_value dX | skip) | (with_reducible first | apply Dev.mvMiss_canonical | apply Dev.emit_canonical | apply Dev.bump_canonical | apply Dev.sendMsix_canonical | apply ite_canonical))

end Sys2Proof.Machine
end

