-- ==== Sys2Proof/Laws/CanonicalPipeline.lean ====
section
/-!
SUPPORT. The canonical form (`Dev.Canonical`) is kept: recording, the frame pipeline, general jobs and the offload.
-/
set_option linter.all false
set_option linter.unusedTactic false
set_option linter.unreachableTactic false
namespace Sys2Proof.Machine

/-! ### Record -/

theorem Dev.modDrive_canonical {d : Dev} {k : Nat} {f : DriveSt → DriveSt} (hd : d.Canonical) : (Dev.modDrive d k f).Canonical := by
  unfold Dev.modDrive
  repeat' (first | ((try lift_lets); intro dX; first | (have hX : MemSt := dX; clear hX) | (have hX : Regs := dX; clear hX) | (have hX : KeepSt := dX; clear hX) | clear_value dX | skip) | (apply Dev.Canonical.mk <;> (try dsimp only) <;> with_reducible first | exact Dev.Canonical.words ‹_› | exact Dev.Canonical.eff ‹_› | exact Dev.Canonical.keep ‹_› | exact Dev.Canonical.cells ‹_› | exact Dev.Canonical.err ‹_› | exact Dev.Canonical.poison ‹_› | exact Sparse.wf_put (Dev.Canonical.words ‹_›) | exact Sparse.wf_put (Dev.Canonical.eff ‹_›) | exact Sparse.wf_put (Dev.Canonical.cells ‹_›) | exact Sparse.wf_put (Dev.Canonical.err ‹_›) | exact Sparse.wf_put (Dev.Canonical.poison ‹_›) | exact keepStore_wf (Dev.Canonical.keep ‹_›)))

theorem Dev.nvmeCmd_canonical {d : Dev} {k : Nat} {c : NvmeCmd} (hd : d.Canonical) : (Dev.nvmeCmd d k c).Canonical := by
  unfold Dev.nvmeCmd
  repeat' (first | with_reducible assumption | ((try lift_lets); intro dX; first | (have hX : MemSt := dX; clear hX) | (have hX : Regs := dX; clear hX) | (have hX : KeepSt := dX; clear hX) | clear_value dX | skip) | (with_reducible first | apply Dev.modDrive_canonical | apply Dev.emit_canonical))

theorem Dev.nvme_canonical {d : Dev} {k : Nat} {kind : Nat} {lba : Nat} {bytes : List Byte} {ctx : Option Nat} (hd : d.Canonical) : (Dev.nvme d k kind lba bytes ctx).Canonical := by
  unfold Dev.nvme
  repeat' (with_reducible first | assumption | apply Dev.nvmeCmd_canonical)

theorem Dev.nvmeRead_canonical {d : Dev} {k : Nat} {lba : Nat} {len : Nat} {use_ : Nat} (hd : d.Canonical) : (Dev.nvmeRead d k lba len use_).Canonical := by
  unfold Dev.nvmeRead
  repeat' (with_reducible first | assumption | apply Dev.nvmeCmd_canonical)

theorem Dev.groupWrite_canonical {d : Dev} {g : Nat} {lba : Nat} {bytes : List Byte} {n : Nat} {seq : Nat} (hd : d.Canonical) : (Dev.groupWrite d g lba bytes n seq).Canonical := by
  unfold Dev.groupWrite
  repeat' (with_reducible first | assumption | refine foldl_canonical ?_ (fun d x hd => ?_) | apply Dev.nvmeCmd_canonical)

theorem Dev.setClip_canonical {d : Dev} {n : Nat} {c : Option ClipSt} (hd : d.Canonical) : (Dev.setClip d n c).Canonical := by
  unfold Dev.setClip
  repeat' (first | ((try lift_lets); intro dX; first | (have hX : MemSt := dX; clear hX) | (have hX : Regs := dX; clear hX) | (have hX : KeepSt := dX; clear hX) | clear_value dX | skip) | (apply Dev.Canonical.mk <;> (try dsimp only) <;> with_reducible first | exact Dev.Canonical.words ‹_› | exact Dev.Canonical.eff ‹_› | exact Dev.Canonical.keep ‹_› | exact Dev.Canonical.cells ‹_› | exact Dev.Canonical.err ‹_› | exact Dev.Canonical.poison ‹_› | exact Sparse.wf_put (Dev.Canonical.words ‹_›) | exact Sparse.wf_put (Dev.Canonical.eff ‹_›) | exact Sparse.wf_put (Dev.Canonical.cells ‹_›) | exact Sparse.wf_put (Dev.Canonical.err ‹_›) | exact Sparse.wf_put (Dev.Canonical.poison ‹_›) | exact keepStore_wf (Dev.Canonical.keep ‹_›)))

theorem Dev.submit_canonical {x0 : Nat} {x1 : Dev} {x2 : Nat} {x3 : ClipSt} {x4 : Bool} (hx1 : x1.Canonical) : (Dev.submit x0 x1 x2 x3 x4).1.Canonical := by
  induction x0 generalizing x1 x2 x3 x4 hx1 with
  | zero => exact hx1
  | succ n ih =>
    unfold Dev.submit
    repeat' (first | (with_reducible first | assumption | apply ih) | ((try lift_lets); intro d1; refine (fun (hd1 : Dev.Canonical d1) => ?_) ?_; (try clear_value d1); on_goal 2 => unfold d1) | ((try lift_lets); intro dX; first | (have hX : MemSt := dX; clear hX) | (have hX : Regs := dX; clear hX) | (have hX : KeepSt := dX; clear hX) | clear_value dX | skip) | with_reducible apply Dev.groupWrite_canonical | split)

theorem Dev.takeSpool_canonical {d : Dev} {g : Nat} (hd : d.Canonical) : ∀ x, (Dev.takeSpool d g) = some x → x.2.Canonical := by
  unfold Dev.takeSpool
  intro x hx
  dsimp only at hx
  repeat' split at hx
  all_goals first | (cases hx; repeat' (first | (with_reducible first | assumption | refine foldl_canonical ?_ (fun d x hd => ?_) | apply Dev.modDrive_canonical | apply Dev.bump_canonical))) | (cases hx)

theorem Dev.openSpool_canonical {d : Dev} {n : Nat} {c : ClipSt} (hd : d.Canonical) : ∀ x, (Dev.openSpool d n c) = some x → x.1.Canonical := by
  unfold Dev.openSpool
  intro x hx
  dsimp only at hx
  split at hx
  · cases hx
  · rename_i a b e
    have h2 := Dev.takeSpool_canonical hd _ e
    replace h2 : b.Canonical := h2
    split at hx
    · rw [← Option.some.inj hx]
      with_reducible exact Dev.eventCtx_canonical (Dev.set_canonical h2)
    · rw [← Option.some.inj hx]
      with_reducible exact Dev.set_canonical h2

theorem Dev.closeSpool_canonical {d : Dev} {n : Nat} {c : ClipSt} (hd : d.Canonical) : (Dev.closeSpool d n c).1.Canonical := by
  unfold Dev.closeSpool
  repeat' (first | with_reducible assumption | ((try lift_lets); intro dX; first | (have hX : MemSt := dX; clear hX) | (have hX : Regs := dX; clear hX) | (have hX : KeepSt := dX; clear hX) | clear_value dX | skip) | with_reducible apply Dev.submit_canonical)

theorem Dev.clipAdd_canonical {d : Dev} {n : Nat} {c : ClipSt} {type : Nat} {body : List Byte} (hd : d.Canonical) : ∀ x, (Dev.clipAdd d n c type body) = some x → x.1.Canonical := by
  unfold Dev.clipAdd
  intro x hx
  dsimp only at hx
  repeat' split at hx
  all_goals first | (cases hx; repeat' (first | (with_reducible first | assumption | apply Dev.submit_canonical | apply Dev.closeSpool_canonical) | (refine Dev.openSpool_canonical ?_ _ ‹_›))) | (cases hx)

theorem Dev.volumeHeader_canonical {d : Dev} {k : Nat} {state : Nat} {clip : Option (Nat × Nat)} {ctx : Option Nat} (hd : d.Canonical) : (Dev.volumeHeader d k state clip ctx).Canonical := by
  unfold Dev.volumeHeader
  repeat' (first | with_reducible assumption | ((try lift_lets); intro d1; refine (fun (hd1 : Dev.Canonical d1) => ?_) ?_; (try clear_value d1); on_goal 2 => unfold d1) | ((try lift_lets); intro dX; first | (have hX : MemSt := dX; clear hX) | (have hX : Regs := dX; clear hX) | (have hX : KeepSt := dX; clear hX) | clear_value dX | skip) | (with_reducible first | apply Dev.modDrive_canonical | apply Dev.nvme_canonical))

theorem Dev.recState_canonical {d : Dev} (hd : d.Canonical) : (Dev.recState d).Canonical := by
  unfold Dev.recState
  repeat' (first | with_reducible assumption | ((try lift_lets); intro dX; first | (have hX : MemSt := dX; clear hX) | (have hX : Regs := dX; clear hX) | (have hX : KeepSt := dX; clear hX) | clear_value dX | skip) | with_reducible apply Dev.set_canonical)

theorem Dev.clipSettle_canonical {d : Dev} {n : Nat} (hd : d.Canonical) : (Dev.clipSettle d n).Canonical := by
  unfold Dev.clipSettle
  repeat' (first | with_reducible assumption | ((try lift_lets); intro d1; refine (fun (hd1 : Dev.Canonical d1) => ?_) ?_; (try clear_value d1); on_goal 2 => unfold d1) | (with_reducible first | apply Dev.setClip_canonical | apply Dev.recState_canonical | apply Dev.eventCtx_canonical | apply Dev.setFlag_canonical | apply ite_canonical) | split)

theorem Dev.closeClip_canonical {d : Dev} {n : Nat} {dflags : Nat} {flush : Bool} (hd : d.Canonical) : (Dev.closeClip d n dflags flush).Canonical := by
  unfold Dev.closeClip
  repeat' (first | (with_reducible first | assumption | refine foldl_canonical ?_ (fun d x hd => ?_)) | ((try lift_lets); intro d1; refine (fun (hd1 : Dev.Canonical d1) => ?_) ?_; (try clear_value d1); on_goal 2 => unfold d1) | ((try lift_lets); intro dX; first | (have hX : MemSt := dX; clear hX) | (have hX : Regs := dX; clear hX) | (have hX : KeepSt := dX; clear hX) | clear_value dX | skip) | (with_reducible first | apply Dev.submit_canonical | apply Dev.nvme_canonical | apply Dev.modDrive_canonical | apply Dev.volumeHeader_canonical | apply Dev.setClip_canonical | apply Dev.recState_canonical | apply Dev.clipSettle_canonical | apply ite_canonical) | split)

theorem Dev.recFull_canonical {d : Dev} {n : Nat} {c : ClipSt} (hd : d.Canonical) : (Dev.recFull d n c).Canonical := by
  unfold Dev.recFull
  repeat' (first | with_reducible assumption | ((try lift_lets); intro d1; refine (fun (hd1 : Dev.Canonical d1) => ?_) ?_; (try clear_value d1); on_goal 2 => unfold d1) | ((try lift_lets); intro dX; first | (have hX : MemSt := dX; clear hX) | (have hX : Regs := dX; clear hX) | (have hX : KeepSt := dX; clear hX) | clear_value dX | skip) | (with_reducible first | apply Dev.setClip_canonical | apply Dev.eventCtx_canonical | apply Dev.closeClip_canonical))

theorem Dev.clipAddAll_canonical {d : Dev} {n : Nat} {c : ClipSt} {l : List (Nat × List Byte)} (hd : d.Canonical) :
    (Dev.clipAddAll d n c l).1.Canonical := by
  induction l generalizing d c with
  | nil => exact hd
  | cons e rest ih =>
    obtain ⟨t, b⟩ := e
    unfold Dev.clipAddAll
    split
    · exact ih (Dev.clipAdd_canonical hd _ ‹_›)
    · exact Dev.recFull_canonical hd

theorem Dev.writeTiles_canonical {l : List (Nat × Nat × List Byte)} {d : Dev} {n : Nat} {c : ClipSt} {fseq : Nat}
    {tiles : List (List Byte)} {locs : List (Nat × Nat × Nat)} (hd : d.Canonical) :
    (Dev.writeTiles l d n c fseq tiles locs).1.Canonical := by
  induction l generalizing d c locs with
  | nil => exact hd
  | cons e rest ih =>
    obtain ⟨first, count, bytes⟩ := e
    unfold Dev.writeTiles
    split
    · exact Dev.recFull_canonical hd
    · exact ih (Dev.clipAdd_canonical hd _ ‹_›)

theorem Dev.audioRecords_canonical {d : Dev} {n : Nat} (hd : d.Canonical) : (Dev.audioRecords d n).2.Canonical := by
  unfold Dev.audioRecords
  repeat' (first | with_reducible assumption | ((try lift_lets); intro d1; refine (fun (hd1 : Dev.Canonical d1) => ?_) ?_; (try clear_value d1); on_goal 2 => unfold d1) | ((try lift_lets); intro dX; first | (have hX : MemSt := dX; clear hX) | (have hX : Regs := dX; clear hX) | (have hX : KeepSt := dX; clear hX) | clear_value dX | skip) | with_reducible refine foldl_snd_canonical ?_ (fun p x hp => ?_) | (apply Dev.Canonical.mk <;> (try dsimp only) <;> with_reducible first | exact Dev.Canonical.words ‹_› | exact Dev.Canonical.eff ‹_› | exact Dev.Canonical.keep ‹_› | exact Dev.Canonical.cells ‹_› | exact Dev.Canonical.err ‹_› | exact Dev.Canonical.poison ‹_› | exact Sparse.wf_put (Dev.Canonical.words ‹_›) | exact Sparse.wf_put (Dev.Canonical.eff ‹_›) | exact Sparse.wf_put (Dev.Canonical.cells ‹_›) | exact Sparse.wf_put (Dev.Canonical.err ‹_›) | exact Sparse.wf_put (Dev.Canonical.poison ‹_›) | exact keepStore_wf (Dev.Canonical.keep ‹_›)) | split)

theorem Dev.writeFrame_canonical {d : Dev} {n : Nat} {c : ClipSt} {f : RecFrame} (hd : d.Canonical) : (Dev.writeFrame d n c f).Canonical := by
  unfold Dev.writeFrame
  repeat' (first | with_reducible assumption | ((try lift_lets); intro dX; first | (have hX : MemSt := dX; clear hX) | (have hX : Regs := dX; clear hX) | (have hX : KeepSt := dX; clear hX) | clear_value dX | skip) | (with_reducible first | apply Dev.clipAddAll_canonical | apply Dev.setClip_canonical | apply Dev.writeTiles_canonical | apply Dev.audioRecords_canonical | apply ite_canonical | refine fst_of_eq ‹_› ?_) | split | dsimp only)

theorem Dev.recAdvance_canonical {x0 : Nat} {x1 : Dev} {x2 : Nat} (hx1 : x1.Canonical) : (Dev.recAdvance x0 x1 x2).Canonical := by
  induction x0 generalizing x1 x2 hx1 with
  | zero => exact hx1
  | succ n ih =>
    unfold Dev.recAdvance
    split <;> repeat' (first | (with_reducible first | assumption | apply ih) | ((try lift_lets); intro d1; refine (fun (hd1 : Dev.Canonical d1) => ?_) ?_; (try clear_value d1); on_goal 2 => unfold d1) | ((try lift_lets); intro dX; first | (have hX : MemSt := dX; clear hX) | (have hX : Regs := dX; clear hX) | (have hX : KeepSt := dX; clear hX) | clear_value dX | skip) | (with_reducible first | apply Dev.writeFrame_canonical | apply Dev.closeClip_canonical | apply ite_canonical) | (apply Dev.Canonical.mk <;> (try dsimp only) <;> with_reducible first | exact Dev.Canonical.words ‹_› | exact Dev.Canonical.eff ‹_› | exact Dev.Canonical.keep ‹_› | exact Dev.Canonical.cells ‹_› | exact Dev.Canonical.err ‹_› | exact Dev.Canonical.poison ‹_› | exact Sparse.wf_put (Dev.Canonical.words ‹_›) | exact Sparse.wf_put (Dev.Canonical.eff ‹_›) | exact Sparse.wf_put (Dev.Canonical.cells ‹_›) | exact Sparse.wf_put (Dev.Canonical.err ‹_›) | exact Sparse.wf_put (Dev.Canonical.poison ‹_›) | exact keepStore_wf (Dev.Canonical.keep ‹_›)) | split)

theorem Dev.modRec_canonical {d : Dev} {n : Nat} {fseq : Nat} {g : RecFrame → RecFrame} (hd : d.Canonical) : (Dev.modRec d n fseq g).Canonical := by
  unfold Dev.modRec
  repeat' (first | ((try lift_lets); intro dX; first | (have hX : MemSt := dX; clear hX) | (have hX : Regs := dX; clear hX) | (have hX : KeepSt := dX; clear hX) | clear_value dX | skip) | (apply Dev.Canonical.mk <;> (try dsimp only) <;> with_reducible first | exact Dev.Canonical.words ‹_› | exact Dev.Canonical.eff ‹_› | exact Dev.Canonical.keep ‹_› | exact Dev.Canonical.cells ‹_› | exact Dev.Canonical.err ‹_› | exact Dev.Canonical.poison ‹_› | exact Sparse.wf_put (Dev.Canonical.words ‹_›) | exact Sparse.wf_put (Dev.Canonical.eff ‹_›) | exact Sparse.wf_put (Dev.Canonical.cells ‹_›) | exact Sparse.wf_put (Dev.Canonical.err ‹_›) | exact Sparse.wf_put (Dev.Canonical.poison ‹_›) | exact keepStore_wf (Dev.Canonical.keep ‹_›)))

theorem Dev.recDrop_canonical {d : Dev} {n : Nat} {fseq : Nat} (hd : d.Canonical) : (Dev.recDrop d n fseq).Canonical := by
  unfold Dev.recDrop
  repeat' (first | with_reducible assumption | ((try lift_lets); intro d1; refine (fun (hd1 : Dev.Canonical d1) => ?_) ?_; (try clear_value d1); on_goal 2 => unfold d1) | ((try lift_lets); intro dX; first | (have hX : MemSt := dX; clear hX) | (have hX : Regs := dX; clear hX) | (have hX : KeepSt := dX; clear hX) | clear_value dX | skip) | (with_reducible first | apply Dev.modRec_canonical | apply Dev.bump_canonical | apply Dev.eventCtx_canonical | apply ite_canonical) | (apply Dev.Canonical.mk <;> (try dsimp only) <;> with_reducible first | exact Dev.Canonical.words ‹_› | exact Dev.Canonical.eff ‹_› | exact Dev.Canonical.keep ‹_› | exact Dev.Canonical.cells ‹_› | exact Dev.Canonical.err ‹_› | exact Dev.Canonical.poison ‹_› | exact Sparse.wf_put (Dev.Canonical.words ‹_›) | exact Sparse.wf_put (Dev.Canonical.eff ‹_›) | exact Sparse.wf_put (Dev.Canonical.cells ‹_›) | exact Sparse.wf_put (Dev.Canonical.err ‹_›) | exact Sparse.wf_put (Dev.Canonical.poison ‹_›) | exact keepStore_wf (Dev.Canonical.keep ‹_›)))

theorem Dev.recTile_canonical {d : Dev} {n : Nat} {fseq : Nat} {tile : List Byte} (hd : d.Canonical) : (Dev.recTile d n fseq tile).Canonical := by
  unfold Dev.recTile
  repeat' (first | with_reducible assumption | ((try lift_lets); intro dX; first | (have hX : MemSt := dX; clear hX) | (have hX : Regs := dX; clear hX) | (have hX : KeepSt := dX; clear hX) | clear_value dX | skip) | (with_reducible first | apply Dev.recDrop_canonical | apply Dev.modRec_canonical | apply ite_canonical))

theorem Dev.recPump_canonical {d : Dev} {n : Nat} (hd : d.Canonical) : (Dev.recPump d n).Canonical := by
  unfold Dev.recPump
  repeat' (with_reducible first | assumption | apply Dev.recAdvance_canonical)

theorem Dev.openHeaders_canonical {d : Dev} {n : Nat} {c : ClipSt} (hd : d.Canonical) : (Dev.openHeaders d n c).Canonical := by
  unfold Dev.openHeaders
  repeat' (with_reducible first | assumption | refine foldl_canonical ?_ (fun d x hd => ?_) | apply Dev.volumeHeader_canonical | apply ite_canonical)

theorem Dev.blobJobs_canonical {d : Dev} {n : Nat} {blobs : List (Nat × List Byte)} (hd : d.Canonical) : (Dev.blobJobs d n blobs).Canonical := by
  unfold Dev.blobJobs
  repeat' (first | ((try lift_lets); intro dX; first | (have hX : MemSt := dX; clear hX) | (have hX : Regs := dX; clear hX) | (have hX : KeepSt := dX; clear hX) | clear_value dX | skip) | (apply Dev.Canonical.mk <;> (try dsimp only) <;> with_reducible first | exact Dev.Canonical.words ‹_› | exact Dev.Canonical.eff ‹_› | exact Dev.Canonical.keep ‹_› | exact Dev.Canonical.cells ‹_› | exact Dev.Canonical.err ‹_› | exact Dev.Canonical.poison ‹_› | exact Sparse.wf_put (Dev.Canonical.words ‹_›) | exact Sparse.wf_put (Dev.Canonical.eff ‹_›) | exact Sparse.wf_put (Dev.Canonical.cells ‹_›) | exact Sparse.wf_put (Dev.Canonical.err ‹_›) | exact Sparse.wf_put (Dev.Canonical.poison ‹_›) | exact keepStore_wf (Dev.Canonical.keep ‹_›)))

theorem Dev.openTaken_canonical {d : Dev} {n : Nat} (hd : d.Canonical) : (Dev.openTaken d n).Canonical := by
  unfold Dev.openTaken
  repeat' (first | ((try lift_lets); intro dX; first | (have hX : MemSt := dX; clear hX) | (have hX : Regs := dX; clear hX) | (have hX : KeepSt := dX; clear hX) | clear_value dX | skip) | (apply Dev.Canonical.mk <;> (try dsimp only) <;> with_reducible first | exact Dev.Canonical.words ‹_› | exact Dev.Canonical.eff ‹_› | exact Dev.Canonical.keep ‹_› | exact Dev.Canonical.cells ‹_› | exact Dev.Canonical.err ‹_› | exact Dev.Canonical.poison ‹_› | exact Sparse.wf_put (Dev.Canonical.words ‹_›) | exact Sparse.wf_put (Dev.Canonical.eff ‹_›) | exact Sparse.wf_put (Dev.Canonical.cells ‹_›) | exact Sparse.wf_put (Dev.Canonical.err ‹_›) | exact Sparse.wf_put (Dev.Canonical.poison ‹_›) | exact keepStore_wf (Dev.Canonical.keep ‹_›)))

theorem Dev.openPreroll_canonical {d : Dev} {n : Nat} {held : List RecFrame} (hd : d.Canonical) : (Dev.openPreroll d n held).Canonical := by
  unfold Dev.openPreroll
  repeat' (first | ((try lift_lets); intro dX; first | (have hX : MemSt := dX; clear hX) | (have hX : Regs := dX; clear hX) | (have hX : KeepSt := dX; clear hX) | clear_value dX | skip) | (apply Dev.Canonical.mk <;> (try dsimp only) <;> with_reducible first | exact Dev.Canonical.words ‹_› | exact Dev.Canonical.eff ‹_› | exact Dev.Canonical.keep ‹_› | exact Dev.Canonical.cells ‹_› | exact Dev.Canonical.err ‹_› | exact Dev.Canonical.poison ‹_› | exact Sparse.wf_put (Dev.Canonical.words ‹_›) | exact Sparse.wf_put (Dev.Canonical.eff ‹_›) | exact Sparse.wf_put (Dev.Canonical.cells ‹_›) | exact Sparse.wf_put (Dev.Canonical.err ‹_›) | exact Sparse.wf_put (Dev.Canonical.poison ‹_›) | exact keepStore_wf (Dev.Canonical.keep ‹_›)))

theorem Dev.openShow_canonical {d : Dev} {n : Nat} {first : Nat} {held : Nat} {want : Nat} {c : ClipSt} (hd : d.Canonical) : (Dev.openShow d n first held want c).Canonical := by
  unfold Dev.openShow
  repeat' (first | with_reducible assumption | ((try lift_lets); intro d1; refine (fun (hd1 : Dev.Canonical d1) => ?_) ?_; (try clear_value d1); on_goal 2 => unfold d1) | (with_reducible first | apply Dev.setClip_canonical | apply Dev.eventCtx_canonical | apply ite_canonical))

theorem Dev.openWith_canonical {d : Dev} {n : Nat} {fseq : Nat} {c : ClipSt} (hd : d.Canonical) : (Dev.openWith d n fseq c).Canonical := by
  unfold Dev.openWith
  repeat' (first | with_reducible assumption | ((try lift_lets); intro d1; refine (fun (hd1 : Dev.Canonical d1) => ?_) ?_; (try clear_value d1); on_goal 2 => unfold d1) | ((try lift_lets); intro dX; first | (have hX : MemSt := dX; clear hX) | (have hX : Regs := dX; clear hX) | (have hX : KeepSt := dX; clear hX) | clear_value dX | skip) | (with_reducible first | apply Dev.openHeaders_canonical | apply Dev.blobJobs_canonical | apply Dev.openTaken_canonical | apply Dev.openShow_canonical | apply Dev.openPreroll_canonical | apply Dev.setFlag_canonical | apply Dev.recState_canonical | apply ite_canonical))

theorem Dev.openClip_canonical {d : Dev} {n : Nat} {fseq : Nat} (hd : d.Canonical) : (Dev.openClip d n fseq).Canonical := by
  unfold Dev.openClip
  repeat' (first | with_reducible assumption | ((try lift_lets); intro dX; first | (have hX : MemSt := dX; clear hX) | (have hX : Regs := dX; clear hX) | (have hX : KeepSt := dX; clear hX) | clear_value dX | skip) | (with_reducible first | apply Dev.recFull_canonical | apply Dev.openWith_canonical) | (refine Dev.openSpool_canonical ?_ _ ‹_›) | split)

theorem Dev.recSlot_canonical {d : Dev} {n : Nat} {fseq : Nat} {sid : Nat} {trig : Nat} {total : Nat} (hd : d.Canonical) : (Dev.recSlot d n fseq sid trig total).Canonical := by
  unfold Dev.recSlot
  repeat' (first | with_reducible assumption | ((try lift_lets); intro d1; refine (fun (hd1 : Dev.Canonical d1) => ?_) ?_; (try clear_value d1); on_goal 2 => unfold d1) | ((try lift_lets); intro dX; first | (have hX : MemSt := dX; clear hX) | (have hX : Regs := dX; clear hX) | (have hX : KeepSt := dX; clear hX) | clear_value dX | skip) | (with_reducible first | apply Dev.openClip_canonical | apply ite_canonical) | (apply Dev.Canonical.mk <;> (try dsimp only) <;> with_reducible first | exact Dev.Canonical.words ‹_› | exact Dev.Canonical.eff ‹_› | exact Dev.Canonical.keep ‹_› | exact Dev.Canonical.cells ‹_› | exact Dev.Canonical.err ‹_› | exact Dev.Canonical.poison ‹_› | exact Sparse.wf_put (Dev.Canonical.words ‹_›) | exact Sparse.wf_put (Dev.Canonical.eff ‹_›) | exact Sparse.wf_put (Dev.Canonical.cells ‹_›) | exact Sparse.wf_put (Dev.Canonical.err ‹_›) | exact Sparse.wf_put (Dev.Canonical.poison ‹_›) | exact keepStore_wf (Dev.Canonical.keep ‹_›)))

theorem Dev.recClose_canonical {d : Dev} {n : Nat} {fseq : Nat} {record : List Byte} {gen : Nat} {resid : List Byte} {dropped : Bool} (hd : d.Canonical) : (Dev.recClose d n fseq record gen resid dropped).Canonical := by
  unfold Dev.recClose
  repeat' (first | with_reducible assumption | ((try lift_lets); intro d1; refine (fun (hd1 : Dev.Canonical d1) => ?_) ?_; (try clear_value d1); on_goal 2 => unfold d1) | ((try lift_lets); intro dX; first | (have hX : MemSt := dX; clear hX) | (have hX : Regs := dX; clear hX) | (have hX : KeepSt := dX; clear hX) | clear_value dX | skip) | (with_reducible first | apply Dev.modRec_canonical | apply Dev.recPump_canonical) | (apply Dev.Canonical.mk <;> (try dsimp only) <;> with_reducible first | exact Dev.Canonical.words ‹_› | exact Dev.Canonical.eff ‹_› | exact Dev.Canonical.keep ‹_› | exact Dev.Canonical.cells ‹_› | exact Dev.Canonical.err ‹_› | exact Dev.Canonical.poison ‹_› | exact Sparse.wf_put (Dev.Canonical.words ‹_›) | exact Sparse.wf_put (Dev.Canonical.eff ‹_›) | exact Sparse.wf_put (Dev.Canonical.cells ‹_›) | exact Sparse.wf_put (Dev.Canonical.err ‹_›) | exact Sparse.wf_put (Dev.Canonical.poison ‹_›) | exact keepStore_wf (Dev.Canonical.keep ‹_›)))

theorem Dev.recAwait_canonical {d : Dev} {ns : List Nat} (hd : d.Canonical) : (Dev.recAwait d ns).Canonical := by
  unfold Dev.recAwait
  dsimp only
  with_reducible refine ite_canonical (Dev.set_canonical ?_) ?_ <;> exact ⟨hd.words, hd.eff, hd.keep, hd.cells, hd.err, hd.poison⟩

theorem Dev.recStart_canonical {d : Dev} (hd : d.Canonical) : (Dev.recStart d).Canonical := by
  unfold Dev.recStart
  repeat' (first | with_reducible assumption | ((try lift_lets); intro d1; refine (fun (hd1 : Dev.Canonical d1) => ?_) ?_; (try clear_value d1); on_goal 2 => unfold d1) | ((try lift_lets); intro dX; first | (have hX : MemSt := dX; clear hX) | (have hX : Regs := dX; clear hX) | (have hX : KeepSt := dX; clear hX) | clear_value dX | skip) | (with_reducible first | apply Dev.setFlag_canonical | apply Dev.recAwait_canonical | apply ite_canonical) | (apply Dev.Canonical.mk <;> (try dsimp only) <;> with_reducible first | exact Dev.Canonical.words ‹_› | exact Dev.Canonical.eff ‹_› | exact Dev.Canonical.keep ‹_› | exact Dev.Canonical.cells ‹_› | exact Dev.Canonical.err ‹_› | exact Dev.Canonical.poison ‹_› | exact Sparse.wf_put (Dev.Canonical.words ‹_›) | exact Sparse.wf_put (Dev.Canonical.eff ‹_›) | exact Sparse.wf_put (Dev.Canonical.cells ‹_›) | exact Sparse.wf_put (Dev.Canonical.err ‹_›) | exact Sparse.wf_put (Dev.Canonical.poison ‹_›) | exact keepStore_wf (Dev.Canonical.keep ‹_›)))

theorem execRecStart_canonical {s : State} {st' : State} (hcan : s.dev.Canonical) (ht : execRecStart s = .next st') : st'.dev.Canonical := by
  unfold execRecStart at ht
  refine run_canonical hcan ht ?_
  intro d hd
  repeat' (with_reducible first | assumption | refine Dev.gateWrite_canonical (hf := fun d hd => ?_) ?_ | apply Dev.recStart_canonical)

theorem Dev.recStop_canonical {d : Dev} {dflags : Nat} {flush : Bool} (hd : d.Canonical) : (Dev.recStop d dflags flush).Canonical := by
  unfold Dev.recStop
  repeat' (first | (with_reducible first | assumption | refine foldl_canonical ?_ (fun d x hd => ?_)) | ((try lift_lets); intro dX; first | (have hX : MemSt := dX; clear hX) | (have hX : Regs := dX; clear hX) | (have hX : KeepSt := dX; clear hX) | clear_value dX | skip) | (with_reducible first | apply Dev.closeClip_canonical | apply Dev.setClip_canonical | apply Dev.recPump_canonical | apply ite_canonical) | (apply Dev.Canonical.mk <;> (try dsimp only) <;> with_reducible first | exact Dev.Canonical.words ‹_› | exact Dev.Canonical.eff ‹_› | exact Dev.Canonical.keep ‹_› | exact Dev.Canonical.cells ‹_› | exact Dev.Canonical.err ‹_› | exact Dev.Canonical.poison ‹_› | exact Sparse.wf_put (Dev.Canonical.words ‹_›) | exact Sparse.wf_put (Dev.Canonical.eff ‹_›) | exact Sparse.wf_put (Dev.Canonical.cells ‹_›) | exact Sparse.wf_put (Dev.Canonical.err ‹_›) | exact Sparse.wf_put (Dev.Canonical.poison ‹_›) | exact keepStore_wf (Dev.Canonical.keep ‹_›)) | split)

theorem Dev.recStopCmd_canonical {d : Dev} (hd : d.Canonical) : (Dev.recStopCmd d).Canonical := by
  unfold Dev.recStopCmd
  repeat' (first | with_reducible assumption | ((try lift_lets); intro dX; first | (have hX : MemSt := dX; clear hX) | (have hX : Regs := dX; clear hX) | (have hX : KeepSt := dX; clear hX) | clear_value dX | skip) | (with_reducible first | apply Dev.setFlag_canonical | apply Dev.recStop_canonical | apply ite_canonical) | (apply Dev.Canonical.mk <;> (try dsimp only) <;> with_reducible first | exact Dev.Canonical.words ‹_› | exact Dev.Canonical.eff ‹_› | exact Dev.Canonical.keep ‹_› | exact Dev.Canonical.cells ‹_› | exact Dev.Canonical.err ‹_› | exact Dev.Canonical.poison ‹_› | exact Sparse.wf_put (Dev.Canonical.words ‹_›) | exact Sparse.wf_put (Dev.Canonical.eff ‹_›) | exact Sparse.wf_put (Dev.Canonical.cells ‹_›) | exact Sparse.wf_put (Dev.Canonical.err ‹_›) | exact Sparse.wf_put (Dev.Canonical.poison ‹_›) | exact keepStore_wf (Dev.Canonical.keep ‹_›)))

theorem execRecStop_canonical {s : State} {st' : State} (hcan : s.dev.Canonical) (ht : execRecStop s = .next st') : st'.dev.Canonical := by
  unfold execRecStop at ht
  refine run_canonical hcan ht ?_
  intro d hd
  repeat' (with_reducible first | assumption | refine Dev.gateWrite_canonical (hf := fun d hd => ?_) ?_ | apply Dev.recStopCmd_canonical)

theorem Dev.flushSettle_canonical {d : Dev} (hd : d.Canonical) : (Dev.flushSettle d).Canonical := by
  unfold Dev.flushSettle
  repeat' (first | (with_reducible first | assumption | apply Dev.event_canonical | apply Dev.set_canonical | apply ite_canonical) | split)

theorem Dev.recFlush_canonical {d : Dev} (hd : d.Canonical) : (Dev.recFlush d).Canonical := by
  unfold Dev.recFlush
  repeat' (first | with_reducible assumption | ((try lift_lets); intro d1; refine (fun (hd1 : Dev.Canonical d1) => ?_) ?_; (try clear_value d1); on_goal 2 => unfold d1) | ((try lift_lets); intro dX; first | (have hX : MemSt := dX; clear hX) | (have hX : Regs := dX; clear hX) | (have hX : KeepSt := dX; clear hX) | clear_value dX | skip) | (with_reducible first | apply Dev.recStop_canonical | apply Dev.flushSettle_canonical | apply ite_canonical) | (apply Dev.Canonical.mk <;> (try dsimp only) <;> with_reducible first | exact Dev.Canonical.words ‹_› | exact Dev.Canonical.eff ‹_› | exact Dev.Canonical.keep ‹_› | exact Dev.Canonical.cells ‹_› | exact Dev.Canonical.err ‹_› | exact Dev.Canonical.poison ‹_› | exact Sparse.wf_put (Dev.Canonical.words ‹_›) | exact Sparse.wf_put (Dev.Canonical.eff ‹_›) | exact Sparse.wf_put (Dev.Canonical.cells ‹_›) | exact Sparse.wf_put (Dev.Canonical.err ‹_›) | exact Sparse.wf_put (Dev.Canonical.poison ‹_›) | exact keepStore_wf (Dev.Canonical.keep ‹_›)))

theorem Dev.recMeta_canonical {d : Dev} {mask : Nat} {len : Nat} (hd : d.Canonical) : (Dev.recMeta d mask len).Canonical := by
  unfold Dev.recMeta
  repeat' (first | (with_reducible first | assumption | refine foldl_canonical ?_ (fun d x hd => ?_) | apply Dev.set_canonical | apply Dev.setClip_canonical) | split)

theorem execRecMetaQueue_canonical {mask : Nat} {len : Nat} {s : State} {st' : State} (hcan : s.dev.Canonical) (ht : execRecMetaQueue mask len s = .next st') : st'.dev.Canonical := by
  unfold execRecMetaQueue at ht
  refine run_canonical hcan ht ?_
  intro d hd
  repeat' (with_reducible first | assumption | refine Dev.gateWrite_canonical (hf := fun d hd => ?_) ?_ | apply Dev.recMeta_canonical)

/-! ### Audio -/

theorem Dev.modAp_canonical {d : Dev} {p : Nat} {f : AudPort → AudPort} (hd : d.Canonical) : (Dev.modAp d p f).Canonical := by
  unfold Dev.modAp
  repeat' (first | ((try lift_lets); intro dX; first | (have hX : MemSt := dX; clear hX) | (have hX : Regs := dX; clear hX) | (have hX : KeepSt := dX; clear hX) | clear_value dX | skip) | (apply Dev.Canonical.mk <;> (try dsimp only) <;> with_reducible first | exact Dev.Canonical.words ‹_› | exact Dev.Canonical.eff ‹_› | exact Dev.Canonical.keep ‹_› | exact Dev.Canonical.cells ‹_› | exact Dev.Canonical.err ‹_› | exact Dev.Canonical.poison ‹_› | exact Sparse.wf_put (Dev.Canonical.words ‹_›) | exact Sparse.wf_put (Dev.Canonical.eff ‹_›) | exact Sparse.wf_put (Dev.Canonical.cells ‹_›) | exact Sparse.wf_put (Dev.Canonical.err ‹_›) | exact Sparse.wf_put (Dev.Canonical.poison ‹_›) | exact keepStore_wf (Dev.Canonical.keep ‹_›)))

theorem Dev.modAdom_canonical {d : Dev} {m : Nat} {f : AudDom → AudDom} (hd : d.Canonical) : (Dev.modAdom d m f).Canonical := by
  unfold Dev.modAdom
  repeat' (first | ((try lift_lets); intro dX; first | (have hX : MemSt := dX; clear hX) | (have hX : Regs := dX; clear hX) | (have hX : KeepSt := dX; clear hX) | clear_value dX | skip) | (apply Dev.Canonical.mk <;> (try dsimp only) <;> with_reducible first | exact Dev.Canonical.words ‹_› | exact Dev.Canonical.eff ‹_› | exact Dev.Canonical.keep ‹_› | exact Dev.Canonical.cells ‹_› | exact Dev.Canonical.err ‹_› | exact Dev.Canonical.poison ‹_› | exact Sparse.wf_put (Dev.Canonical.words ‹_›) | exact Sparse.wf_put (Dev.Canonical.eff ‹_›) | exact Sparse.wf_put (Dev.Canonical.cells ‹_›) | exact Sparse.wf_put (Dev.Canonical.err ‹_›) | exact Sparse.wf_put (Dev.Canonical.poison ‹_›) | exact keepStore_wf (Dev.Canonical.keep ‹_›)))

theorem Dev.modAnet_canonical {d : Dev} {k : Nat} {f : AudNet → AudNet} (hd : d.Canonical) : (Dev.modAnet d k f).Canonical := by
  unfold Dev.modAnet
  repeat' (first | ((try lift_lets); intro dX; first | (have hX : MemSt := dX; clear hX) | (have hX : Regs := dX; clear hX) | (have hX : KeepSt := dX; clear hX) | clear_value dX | skip) | (apply Dev.Canonical.mk <;> (try dsimp only) <;> with_reducible first | exact Dev.Canonical.words ‹_› | exact Dev.Canonical.eff ‹_› | exact Dev.Canonical.keep ‹_› | exact Dev.Canonical.cells ‹_› | exact Dev.Canonical.err ‹_› | exact Dev.Canonical.poison ‹_› | exact Sparse.wf_put (Dev.Canonical.words ‹_›) | exact Sparse.wf_put (Dev.Canonical.eff ‹_›) | exact Sparse.wf_put (Dev.Canonical.cells ‹_›) | exact Sparse.wf_put (Dev.Canonical.err ‹_›) | exact Sparse.wf_put (Dev.Canonical.poison ‹_›) | exact keepStore_wf (Dev.Canonical.keep ‹_›)))

theorem Dev.audSlip_canonical {d : Dev} {p : Nat} {what : Nat} (hd : d.Canonical) : (Dev.audSlip d p what).Canonical := by
  unfold Dev.audSlip
  repeat' (first | with_reducible assumption | ((try lift_lets); intro d1; refine (fun (hd1 : Dev.Canonical d1) => ?_) ?_; (try clear_value d1); on_goal 2 => unfold d1) | (with_reducible first | apply Dev.bump_canonical | apply Dev.eventAt_canonical | apply Dev.modAp_canonical | apply ite_canonical))

theorem Dev.apMute_canonical {d : Dev} {p : Nat} (hd : d.Canonical) : (Dev.apMute d p).Canonical := by
  unfold Dev.apMute
  repeat' (first | with_reducible assumption | ((try lift_lets); intro d1; refine (fun (hd1 : Dev.Canonical d1) => ?_) ?_; (try clear_value d1); on_goal 2 => unfold d1) | (with_reducible first | apply Dev.modAp_canonical | apply Dev.setFlag_canonical | apply Dev.set_canonical | apply ite_canonical))

theorem Dev.audLost_canonical {d : Dev} {p : Nat} {cause : Nat} (hd : d.Canonical) : (Dev.audLost d p cause).Canonical := by
  unfold Dev.audLost
  repeat' (first | with_reducible assumption | ((try lift_lets); intro d1; refine (fun (hd1 : Dev.Canonical d1) => ?_) ?_; (try clear_value d1); on_goal 2 => unfold d1) | ((try lift_lets); intro dX; first | (have hX : MemSt := dX; clear hX) | (have hX : Regs := dX; clear hX) | (have hX : KeepSt := dX; clear hX) | clear_value dX | skip) | (with_reducible first | apply Dev.apMute_canonical | apply Dev.setFlag_canonical | apply Dev.bump_canonical | apply Dev.eventAt_canonical | apply ite_canonical))

theorem Dev.audGood_canonical {d : Dev} {p : Nat} (hd : d.Canonical) : (Dev.audGood d p).Canonical := by
  unfold Dev.audGood
  repeat' (first | with_reducible assumption | ((try lift_lets); intro d1; refine (fun (hd1 : Dev.Canonical d1) => ?_) ?_; (try clear_value d1); on_goal 2 => unfold d1) | ((try lift_lets); intro dX; first | (have hX : MemSt := dX; clear hX) | (have hX : Regs := dX; clear hX) | (have hX : KeepSt := dX; clear hX) | clear_value dX | skip) | (with_reducible first | apply Dev.setFlag_canonical | apply Dev.set_canonical | apply Dev.modAp_canonical | apply Dev.eventAt_canonical | apply ite_canonical))

theorem execAudioFrameRx_canonical {p : Fin 8} {f : AudFrame} {s : State} {st' : State} (hcan : s.dev.Canonical) (ht : execAudioFrameRx p f s = .next st') : st'.dev.Canonical := by
  unfold execAudioFrameRx at ht
  refine run_canonical hcan ht ?_
  intro d hd
  repeat' (first | with_reducible assumption | ((try lift_lets); intro d1; refine (fun (hd1 : Dev.Canonical d1) => ?_) ?_; (try clear_value d1); on_goal 2 => unfold d1) | ((try lift_lets); intro dX; first | (have hX : MemSt := dX; clear hX) | (have hX : Regs := dX; clear hX) | (have hX : KeepSt := dX; clear hX) | clear_value dX | skip) | (with_reducible first | apply Dev.modAp_canonical | apply Dev.audSlip_canonical | apply Dev.emit_canonical | apply Dev.audGood_canonical | apply Dev.audLost_canonical | apply Dev.modAdom_canonical | apply ite_canonical) | split)

theorem execAudioClockTimeout_canonical {p : Fin 8} {s : State} {st' : State} (hcan : s.dev.Canonical) (ht : execAudioClockTimeout p s = .next st') : st'.dev.Canonical := by
  unfold execAudioClockTimeout at ht
  refine run_canonical hcan ht ?_
  intro d hd
  repeat' (with_reducible first | assumption | apply Dev.audLost_canonical | apply ite_canonical)

theorem execAudioLoopUpdate_canonical {m : Fin 2} {s : State} {st' : State} (hcan : s.dev.Canonical) (ht : execAudioLoopUpdate m s = .next st') : st'.dev.Canonical := by
  unfold execAudioLoopUpdate at ht
  refine run_canonical hcan ht ?_
  intro d hd
  repeat' (first | with_reducible assumption | ((try lift_lets); intro d1; refine (fun (hd1 : Dev.Canonical d1) => ?_) ?_; (try clear_value d1); on_goal 2 => unfold d1) | ((try lift_lets); intro dX; first | (have hX : MemSt := dX; clear hX) | (have hX : Regs := dX; clear hX) | (have hX : KeepSt := dX; clear hX) | clear_value dX | skip) | (with_reducible first | apply Dev.modAdom_canonical | apply Dev.set_canonical | apply Dev.setFlag_canonical | apply Dev.eventAt_canonical | apply ite_canonical))

theorem execAudioPlayout_canonical {k : Fin 8} {m : Nat} {s : State} {st' : State} (hcan : s.dev.Canonical) (ht : execAudioPlayout k m s = .next st') : st'.dev.Canonical := by
  unfold execAudioPlayout at ht
  refine run_canonical hcan ht ?_
  intro d hd
  repeat' (first | with_reducible assumption | ((try lift_lets); intro dX; first | (have hX : MemSt := dX; clear hX) | (have hX : Regs := dX; clear hX) | (have hX : KeepSt := dX; clear hX) | clear_value dX | skip) | (with_reducible first | apply Dev.bump_canonical | apply Dev.modAnet_canonical | apply ite_canonical) | split)

theorem Dev.srcCommit_canonical {d : Dev} {p : Nat} (hd : d.Canonical) : (Dev.srcCommit d p).Canonical := by
  unfold Dev.srcCommit
  repeat' (first | with_reducible assumption | ((try lift_lets); intro dX; first | (have hX : MemSt := dX; clear hX) | (have hX : Regs := dX; clear hX) | (have hX : KeepSt := dX; clear hX) | clear_value dX | skip) | (with_reducible first | apply Dev.setWord_canonical | apply Dev.eventAt_canonical | apply Dev.latch_canonical | apply Dev.modAp_canonical | apply ite_canonical))

theorem Dev.apDeliver_canonical {d : Dev} {p : Nat} {x : Nat × Nat} {absent : Bool} (hd : d.Canonical) : (Dev.apDeliver d p x absent).Canonical := by
  unfold Dev.apDeliver
  repeat' (first | with_reducible assumption | ((try lift_lets); intro d1; refine (fun (hd1 : Dev.Canonical d1) => ?_) ?_; (try clear_value d1); on_goal 2 => unfold d1) | ((try lift_lets); intro dX; first | (have hX : MemSt := dX; clear hX) | (have hX : Regs := dX; clear hX) | (have hX : KeepSt := dX; clear hX) | clear_value dX | skip) | (with_reducible first | apply Dev.setFlag_canonical | apply Dev.modAp_canonical))

theorem Dev.audRecord_canonical {d : Dev} {p : Nat} (hd : d.Canonical) : (Dev.audRecord d p).Canonical := by
  unfold Dev.audRecord
  repeat' (first | (with_reducible first | assumption | refine foldl_canonical ?_ (fun d x hd => ?_)) | ((try lift_lets); intro dX; first | (have hX : MemSt := dX; clear hX) | (have hX : Regs := dX; clear hX) | (have hX : KeepSt := dX; clear hX) | clear_value dX | skip) | with_reducible apply ite_canonical | (apply Dev.Canonical.mk <;> (try dsimp only) <;> with_reducible first | exact Dev.Canonical.words ‹_› | exact Dev.Canonical.eff ‹_› | exact Dev.Canonical.keep ‹_› | exact Dev.Canonical.cells ‹_› | exact Dev.Canonical.err ‹_› | exact Dev.Canonical.poison ‹_› | exact Sparse.wf_put (Dev.Canonical.words ‹_›) | exact Sparse.wf_put (Dev.Canonical.eff ‹_›) | exact Sparse.wf_put (Dev.Canonical.cells ‹_›) | exact Sparse.wf_put (Dev.Canonical.err ‹_›) | exact Sparse.wf_put (Dev.Canonical.poison ‹_›) | exact keepStore_wf (Dev.Canonical.keep ‹_›)))

theorem Dev.inFrame_canonical {d : Dev} {p : Nat} {ins : List (Nat × Nat)} (hd : d.Canonical) : (Dev.inFrame d p ins).Canonical := by
  unfold Dev.inFrame
  repeat' (first | with_reducible assumption | ((try lift_lets); intro d1; refine (fun (hd1 : Dev.Canonical d1) => ?_) ?_; (try clear_value d1); on_goal 2 => unfold d1) | ((try lift_lets); intro dX; first | (have hX : MemSt := dX; clear hX) | (have hX : Regs := dX; clear hX) | (have hX : KeepSt := dX; clear hX) | clear_value dX | skip) | (with_reducible first | apply Dev.audGood_canonical | apply Dev.apDeliver_canonical | apply Dev.audRecord_canonical | apply Dev.modAp_canonical | apply Dev.audSlip_canonical | apply ite_canonical) | split)

theorem Dev.outFrame_canonical {d : Dev} {p : Nat} (hd : d.Canonical) : (Dev.outFrame d p).Canonical := by
  unfold Dev.outFrame
  repeat' (first | with_reducible assumption | ((try lift_lets); intro d1; refine (fun (hd1 : Dev.Canonical d1) => ?_) ?_; (try clear_value d1); on_goal 2 => unfold d1) | ((try lift_lets); intro dX; first | (have hX : MemSt := dX; clear hX) | (have hX : Regs := dX; clear hX) | (have hX : KeepSt := dX; clear hX) | clear_value dX | skip) | (with_reducible first | apply Dev.srcCommit_canonical | apply Dev.audGood_canonical | apply Dev.apDeliver_canonical | apply Dev.emit_canonical | apply Dev.modAp_canonical | apply Dev.audSlip_canonical | apply ite_canonical))

theorem Dev.domainFrame_canonical {d : Dev} {m : Nat} {ins : List (Nat × Nat)} (hd : d.Canonical) : (Dev.domainFrame d m ins).Canonical := by
  unfold Dev.domainFrame
  repeat' (first | (with_reducible first | assumption | refine foldl_canonical ?_ (fun d x hd => ?_)) | ((try lift_lets); intro d1; refine (fun (hd1 : Dev.Canonical d1) => ?_) ?_; (try clear_value d1); on_goal 2 => unfold d1) | ((try lift_lets); intro dX; first | (have hX : MemSt := dX; clear hX) | (have hX : Regs := dX; clear hX) | (have hX : KeepSt := dX; clear hX) | clear_value dX | skip) | (with_reducible first | apply Dev.inFrame_canonical | apply Dev.outFrame_canonical | apply Dev.set_canonical | apply Dev.modAdom_canonical | apply ite_canonical) | split)

theorem Dev.audStep_canonical {d : Dev} {ns : Int} (hd : d.Canonical) : (Dev.audStep d ns).Canonical := by
  unfold Dev.audStep
  repeat' (first | (with_reducible first | assumption | refine foldl_canonical ?_ (fun d x hd => ?_)) | ((try lift_lets); intro d1; refine (fun (hd1 : Dev.Canonical d1) => ?_) ?_; (try clear_value d1); on_goal 2 => unfold d1) | ((try lift_lets); intro dX; first | (have hX : MemSt := dX; clear hX) | (have hX : Regs := dX; clear hX) | (have hX : KeepSt := dX; clear hX) | clear_value dX | skip) | (with_reducible first | apply Dev.audSlip_canonical | apply Dev.add_canonical | apply ite_canonical))

theorem Dev.apStart_canonical {d : Dev} {p : Nat} (hd : d.Canonical) : (Dev.apStart d p).Canonical := by
  unfold Dev.apStart
  repeat' (first | with_reducible assumption | ((try lift_lets); intro d1; refine (fun (hd1 : Dev.Canonical d1) => ?_) ?_; (try clear_value d1); on_goal 2 => unfold d1) | (with_reducible first | apply Dev.modAp_canonical | apply Dev.apMute_canonical | apply Dev.setFlag_canonical | apply Dev.latch_canonical))

theorem Dev.audStart_canonical {d : Dev} (hd : d.Canonical) : (Dev.audStart d).Canonical := by
  unfold Dev.audStart
  repeat' (first | (with_reducible first | assumption | refine foldl_canonical ?_ (fun d x hd => ?_)) | ((try lift_lets); intro d1; refine (fun (hd1 : Dev.Canonical d1) => ?_) ?_; (try clear_value d1); on_goal 2 => unfold d1) | ((try lift_lets); intro dX; first | (have hX : MemSt := dX; clear hX) | (have hX : Regs := dX; clear hX) | (have hX : KeepSt := dX; clear hX) | clear_value dX | skip) | (with_reducible first | apply Dev.modAdom_canonical | apply Dev.eventAt_canonical | apply Dev.refuse_canonical | apply Dev.set_canonical | apply Dev.setFlag_canonical | apply Dev.apStart_canonical | apply Dev.setWord_canonical | apply Dev.setEff_canonical | apply ite_canonical))

theorem Dev.audStop_canonical {d : Dev} (hd : d.Canonical) : (Dev.audStop d).Canonical := by
  unfold Dev.audStop
  repeat' (first | (with_reducible first | assumption | refine foldl_canonical ?_ (fun d x hd => ?_)) | ((try lift_lets); intro d1; refine (fun (hd1 : Dev.Canonical d1) => ?_) ?_; (try clear_value d1); on_goal 2 => unfold d1) | ((try lift_lets); intro dX; first | (have hX : MemSt := dX; clear hX) | (have hX : Regs := dX; clear hX) | (have hX : KeepSt := dX; clear hX) | clear_value dX | skip) | (with_reducible first | apply Dev.setWord_canonical | apply Dev.modAp_canonical | apply Dev.modAdom_canonical) | (apply Dev.Canonical.mk <;> (try dsimp only) <;> with_reducible first | exact Dev.Canonical.words ‹_› | exact Dev.Canonical.eff ‹_› | exact Dev.Canonical.keep ‹_› | exact Dev.Canonical.cells ‹_› | exact Dev.Canonical.err ‹_› | exact Dev.Canonical.poison ‹_› | exact Sparse.wf_put (Dev.Canonical.words ‹_›) | exact Sparse.wf_put (Dev.Canonical.eff ‹_›) | exact Sparse.wf_put (Dev.Canonical.cells ‹_›) | exact Sparse.wf_put (Dev.Canonical.err ‹_›) | exact Sparse.wf_put (Dev.Canonical.poison ‹_›) | exact keepStore_wf (Dev.Canonical.keep ‹_›)))

/-! ### Engines -/

theorem Dev.showCaps_canonical {d : Dev} (hd : d.Canonical) : (Dev.showCaps d).Canonical := by
  unfold Dev.showCaps
  repeat' (with_reducible first | assumption | apply Dev.set_canonical)

/-! ### Gecko -/

theorem Dev.modGk_canonical {d : Dev} {p : Nat} {f : GkSt → GkSt} (hd : d.Canonical) : (Dev.modGk d p f).Canonical := by
  unfold Dev.modGk
  repeat' (apply Dev.Canonical.mk <;> (try dsimp only) <;> with_reducible first | exact Dev.Canonical.words ‹_› | exact Dev.Canonical.eff ‹_› | exact Dev.Canonical.keep ‹_› | exact Dev.Canonical.cells ‹_› | exact Dev.Canonical.err ‹_› | exact Dev.Canonical.poison ‹_› | exact Sparse.wf_put (Dev.Canonical.words ‹_›) | exact Sparse.wf_put (Dev.Canonical.eff ‹_›) | exact Sparse.wf_put (Dev.Canonical.cells ‹_›) | exact Sparse.wf_put (Dev.Canonical.err ‹_›) | exact Sparse.wf_put (Dev.Canonical.poison ‹_›) | exact keepStore_wf (Dev.Canonical.keep ‹_›))

theorem Dev.latchRange_canonical {d : Dev} {lo : Nat} {hi : Nat} (hd : d.Canonical) : (Dev.latchRange d lo hi).Canonical := by
  unfold Dev.latchRange
  repeat' (with_reducible first | assumption | refine foldl_canonical ?_ (fun d x hd => ?_) | apply Dev.latch_canonical)

theorem Dev.gkFrameStart_canonical {d : Dev} {p : Nat} {fseq : Nat} (hd : d.Canonical) : (Dev.gkFrameStart d p fseq).Canonical := by
  unfold Dev.gkFrameStart
  repeat' (first | with_reducible assumption | ((try lift_lets); intro d1; refine (fun (hd1 : Dev.Canonical d1) => ?_) ?_; (try clear_value d1); on_goal 2 => unfold d1) | ((try lift_lets); intro dX; first | (have hX : MemSt := dX; clear hX) | (have hX : Regs := dX; clear hX) | (have hX : KeepSt := dX; clear hX) | clear_value dX | skip) | (with_reducible first | apply Dev.latchRange_canonical | apply Dev.modGk_canonical | apply ite_canonical))

theorem Dev.gkLine_canonical {d : Dev} {p : Nat} {y : Nat} {bits : Nat} {px : List Nat} {damaged : Bool} (hd : d.Canonical) : (Dev.gkLine d p y bits px damaged).Canonical := by
  unfold Dev.gkLine
  repeat' (first | with_reducible assumption | ((try lift_lets); intro dX; first | (have hX : MemSt := dX; clear hX) | (have hX : Regs := dX; clear hX) | (have hX : KeepSt := dX; clear hX) | clear_value dX | skip) | (with_reducible first | apply Dev.modGk_canonical | apply ite_canonical))

/-! ### Pipeline -/

theorem Dev.zeBusy_canonical {d : Dev} (hd : d.Canonical) : (Dev.zeBusy d).Canonical := by
  unfold Dev.zeBusy
  repeat' (first | with_reducible assumption | ((try lift_lets); intro dX; first | (have hX : MemSt := dX; clear hX) | (have hX : Regs := dX; clear hX) | (have hX : KeepSt := dX; clear hX) | clear_value dX | skip) | with_reducible apply Dev.set_canonical)

theorem Dev.backlogCheck_canonical {d : Dev} {n : Nat} (hd : d.Canonical) : (Dev.backlogCheck d n).Canonical := by
  unfold Dev.backlogCheck
  repeat' (first | with_reducible assumption | ((try lift_lets); intro d1; refine (fun (hd1 : Dev.Canonical d1) => ?_) ?_; (try clear_value d1); on_goal 2 => unfold d1) | ((try lift_lets); intro dX; first | (have hX : MemSt := dX; clear hX) | (have hX : Regs := dX; clear hX) | (have hX : KeepSt := dX; clear hX) | clear_value dX | skip) | (with_reducible first | refine Dev.limited_canonical (hf := fun d hd => ?_) ?_ | apply Dev.eventCtx_canonical | apply ite_canonical) | (apply Dev.Canonical.mk <;> (try dsimp only) <;> with_reducible first | exact Dev.Canonical.words ‹_› | exact Dev.Canonical.eff ‹_› | exact Dev.Canonical.keep ‹_› | exact Dev.Canonical.cells ‹_› | exact Dev.Canonical.err ‹_› | exact Dev.Canonical.poison ‹_› | exact Sparse.wf_put (Dev.Canonical.words ‹_›) | exact Sparse.wf_put (Dev.Canonical.eff ‹_›) | exact Sparse.wf_put (Dev.Canonical.cells ‹_›) | exact Sparse.wf_put (Dev.Canonical.err ‹_›) | exact Sparse.wf_put (Dev.Canonical.poison ‹_›) | exact keepStore_wf (Dev.Canonical.keep ‹_›)))

theorem Dev.tileRowsReady_canonical {d : Dev} {n : Nat} {fseq : Nat} (hd : d.Canonical) : (Dev.tileRowsReady d n fseq).Canonical := by
  unfold Dev.tileRowsReady
  repeat' (first | (with_reducible first | assumption | refine foldl_canonical ?_ (fun d x hd => ?_)) | ((try lift_lets); intro d1; refine (fun (hd1 : Dev.Canonical d1) => ?_) ?_; (try clear_value d1); on_goal 2 => unfold d1) | ((try lift_lets); intro dX; first | (have hX : MemSt := dX; clear hX) | (have hX : Regs := dX; clear hX) | (have hX : KeepSt := dX; clear hX) | clear_value dX | skip) | (with_reducible first | apply Dev.modFrame_canonical | apply Dev.backlogCheck_canonical | apply Dev.zeBusy_canonical | apply ite_canonical) | (apply Dev.Canonical.mk <;> (try dsimp only) <;> with_reducible first | exact Dev.Canonical.words ‹_› | exact Dev.Canonical.eff ‹_› | exact Dev.Canonical.keep ‹_› | exact Dev.Canonical.cells ‹_› | exact Dev.Canonical.err ‹_› | exact Dev.Canonical.poison ‹_› | exact Sparse.wf_put (Dev.Canonical.words ‹_›) | exact Sparse.wf_put (Dev.Canonical.eff ‹_›) | exact Sparse.wf_put (Dev.Canonical.cells ‹_›) | exact Sparse.wf_put (Dev.Canonical.err ‹_›) | exact Sparse.wf_put (Dev.Canonical.poison ‹_›) | exact keepStore_wf (Dev.Canonical.keep ‹_›)) | split)

theorem Dev.concealNote_canonical {d : Dev} {n : Nat} {e : List Byte} (hd : d.Canonical) : (Dev.concealNote d n e).Canonical := by
  unfold Dev.concealNote
  repeat' (first | ((try lift_lets); intro dX; first | (have hX : MemSt := dX; clear hX) | (have hX : Regs := dX; clear hX) | (have hX : KeepSt := dX; clear hX) | clear_value dX | skip) | (apply Dev.Canonical.mk <;> (try dsimp only) <;> with_reducible first | exact Dev.Canonical.words ‹_› | exact Dev.Canonical.eff ‹_› | exact Dev.Canonical.keep ‹_› | exact Dev.Canonical.cells ‹_› | exact Dev.Canonical.err ‹_› | exact Dev.Canonical.poison ‹_› | exact Sparse.wf_put (Dev.Canonical.words ‹_›) | exact Sparse.wf_put (Dev.Canonical.eff ‹_›) | exact Sparse.wf_put (Dev.Canonical.cells ‹_›) | exact Sparse.wf_put (Dev.Canonical.err ‹_›) | exact Sparse.wf_put (Dev.Canonical.poison ‹_›) | exact keepStore_wf (Dev.Canonical.keep ‹_›)))

theorem Dev.concealed_canonical {d : Dev} {n : Nat} {fseq : Nat} {y : Nat} {ro : Nat} {rule : Nat} (hd : d.Canonical) : (Dev.concealed d n fseq y ro rule).Canonical := by
  unfold Dev.concealed
  repeat' (first | with_reducible assumption | ((try lift_lets); intro d1; refine (fun (hd1 : Dev.Canonical d1) => ?_) ?_; (try clear_value d1); on_goal 2 => unfold d1) | ((try lift_lets); intro dX; first | (have hX : MemSt := dX; clear hX) | (have hX : Regs := dX; clear hX) | (have hX : KeepSt := dX; clear hX) | clear_value dX | skip) | (with_reducible first | apply Dev.poolWrite_canonical | apply Dev.bump_canonical | apply Dev.concealNote_canonical | refine Dev.limited_canonical (hf := fun d hd => ?_) ?_ | apply Dev.eventCtx_canonical))

theorem Dev.mergeRow_canonical {d : Dev} {n : Nat} {fseq : Nat} {y : Nat} {ros : List (Nat × List Line)} {full : Bool} (hd : d.Canonical) : (Dev.mergeRow d n fseq y ros full).Canonical := by
  unfold Dev.mergeRow
  repeat' (first | (with_reducible first | assumption | refine foldl_canonical ?_ (fun d x hd => ?_)) | ((try lift_lets); intro d1; refine (fun (hd1 : Dev.Canonical d1) => ?_) ?_; (try clear_value d1); on_goal 2 => unfold d1) | ((try lift_lets); intro dX; first | (have hX : MemSt := dX; clear hX) | (have hX : Regs := dX; clear hX) | (have hX : KeepSt := dX; clear hX) | clear_value dX | skip) | (with_reducible first | apply Dev.concealed_canonical | apply Dev.bump_canonical | apply Dev.modFrame_canonical | apply Dev.poolWrite_canonical | apply ite_canonical) | split)

theorem Dev.mergeReady_canonical {x0 : Nat} {x1 : Dev} {x2 : Nat} {x3 : Nat} (hx1 : x1.Canonical) : (Dev.mergeReady x0 x1 x2 x3).Canonical := by
  induction x0 generalizing x1 x2 x3 hx1 with
  | zero => exact hx1
  | succ n ih =>
    unfold Dev.mergeReady
    repeat' (first | (with_reducible first | assumption | apply ih) | ((try lift_lets); intro dX; first | (have hX : MemSt := dX; clear hX) | (have hX : Regs := dX; clear hX) | (have hX : KeepSt := dX; clear hX) | clear_value dX | skip) | (with_reducible first | apply Dev.mergeRow_canonical | apply ite_canonical) | split)

theorem Dev.padTo_canonical {x0 : Nat} {x1 : Dev} {x2 : Nat} {x3 : Nat} {x4 : Nat} {x5 : Nat} (hx1 : x1.Canonical) : (Dev.padTo x0 x1 x2 x3 x4 x5).Canonical := by
  induction x0 generalizing x1 x2 x3 x4 x5 hx1 with
  | zero => exact hx1
  | succ n ih =>
    unfold Dev.padTo
    repeat' (first | (with_reducible first | assumption | apply ih) | ((try lift_lets); intro dX; first | (have hX : MemSt := dX; clear hX) | (have hX : Regs := dX; clear hX) | (have hX : KeepSt := dX; clear hX) | clear_value dX | skip) | (with_reducible first | apply Dev.modCtx_canonical | apply Dev.modFrame_canonical | apply ite_canonical) | split)

theorem Dev.lineCut_canonical {d : Dev} {n : Nat} {fseq : Nat} (hd : d.Canonical) : (Dev.lineCut d n fseq).Canonical := by
  unfold Dev.lineCut
  repeat' (with_reducible first | assumption | apply Dev.modFrame_canonical)

theorem Dev.mergeClose_canonical {x0 : Nat} {x1 : Dev} {x2 : Nat} {x3 : Nat} (hx1 : x1.Canonical) : (Dev.mergeClose x0 x1 x2 x3).Canonical := by
  induction x0 generalizing x1 x2 x3 hx1 with
  | zero => exact hx1
  | succ n ih =>
    unfold Dev.mergeClose
    repeat' (first | (with_reducible first | assumption | apply ih | refine foldl_canonical ?_ (fun d x hd => ?_)) | ((try lift_lets); intro d1; refine (fun (hd1 : Dev.Canonical d1) => ?_) ?_; (try clear_value d1); on_goal 2 => unfold d1) | ((try lift_lets); intro dX; first | (have hX : MemSt := dX; clear hX) | (have hX : Regs := dX; clear hX) | (have hX : KeepSt := dX; clear hX) | clear_value dX | skip) | (with_reducible first | apply Dev.padTo_canonical | apply Dev.mergeRow_canonical | apply ite_canonical) | split)

theorem Dev.dropEnded_canonical {d : Dev} {n : Nat} (hd : d.Canonical) : (Dev.dropEnded d n).Canonical := by
  unfold Dev.dropEnded
  repeat' (with_reducible first | assumption | apply Dev.modCtx_canonical)

theorem Dev.closeFrame_canonical {d : Dev} {n : Nat} {fseq : Nat} (hd : d.Canonical) : (Dev.closeFrame d n fseq).Canonical := by
  unfold Dev.closeFrame
  repeat' (first | (with_reducible first | assumption | refine foldl_canonical ?_ (fun d x hd => ?_)) | ((try lift_lets); intro d1; refine (fun (hd1 : Dev.Canonical d1) => ?_) ?_; (try clear_value d1); on_goal 2 => unfold d1) | ((try lift_lets); intro dX; first | (have hX : MemSt := dX; clear hX) | (have hX : Regs := dX; clear hX) | (have hX : KeepSt := dX; clear hX) | clear_value dX | skip) | (with_reducible first | apply Dev.mergeReady_canonical | apply Dev.mergeClose_canonical | apply Dev.padTo_canonical | apply Dev.modFrame_canonical | apply Dev.poolWrite_canonical | apply Dev.recordAlone_canonical | apply Dev.bump_canonical | refine Dev.limited_canonical (hf := fun d hd => ?_) ?_ | apply Dev.eventCtx_canonical | apply Dev.set_canonical | apply Dev.add_canonical | apply Dev.tileRowsReady_canonical | apply Dev.recClose_canonical | apply Dev.expSend_canonical | apply Dev.dropEnded_canonical | apply ite_canonical) | split)

theorem Dev.closeOpen_canonical {d : Dev} {n : Nat} (hd : d.Canonical) : (Dev.closeOpen d n).Canonical := by
  unfold Dev.closeOpen
  repeat' (first | (with_reducible first | assumption | apply Dev.closeFrame_canonical) | split)

theorem Dev.resolve_canonical {d : Dev} {n : Nat} (hd : d.Canonical) : (Dev.resolve d n).Canonical := by
  unfold Dev.resolve
  repeat' (first | with_reducible assumption | ((try lift_lets); intro d1; refine (fun (hd1 : Dev.Canonical d1) => ?_) ?_; (try clear_value d1); on_goal 2 => unfold d1) | (with_reducible first | apply Dev.modCtx_canonical | apply Dev.bump_canonical | apply Dev.set_canonical))

theorem Dev.slotMissing_canonical {d : Dev} {n : Nat} (hd : d.Canonical) : (Dev.slotMissing d n).Canonical := by
  unfold Dev.slotMissing
  split <;> repeat' (first | with_reducible assumption | ((try lift_lets); intro d1; refine (fun (hd1 : Dev.Canonical d1) => ?_) ?_; (try clear_value d1); on_goal 2 => unfold d1) | ((try lift_lets); intro dX; first | (have hX : MemSt := dX; clear hX) | (have hX : Regs := dX; clear hX) | (have hX : KeepSt := dX; clear hX) | clear_value dX | skip) | (with_reducible first | apply Dev.closeOpen_canonical | apply Dev.resolve_canonical | apply Dev.bump_canonical | apply Dev.set_canonical | refine Dev.limited_canonical (hf := fun d hd => ?_) ?_ | apply Dev.eventCtx_canonical | apply Dev.recordAlone_canonical | apply Dev.statsHeader_canonical | apply Dev.slotSeen_canonical | apply Dev.recSlot_canonical | apply Dev.recClose_canonical | apply ite_canonical))

theorem execSlotDeadline_canonical {n : Fin 16} {s : State} {st' : State} (hcan : s.dev.Canonical) (ht : execSlotDeadline n s = .next st') : st'.dev.Canonical := by
  unfold execSlotDeadline at ht
  refine run_canonical hcan ht ?_
  intro d hd
  repeat' (with_reducible first | assumption | apply Dev.slotMissing_canonical | apply ite_canonical)

theorem Dev.expireSlots_canonical {x0 : Nat} {x1 : Dev} {x2 : Nat} (hx1 : x1.Canonical) : (Dev.expireSlots x0 x1 x2).Canonical := by
  induction x0 generalizing x1 x2 hx1 with
  | zero => exact hx1
  | succ n ih =>
    unfold Dev.expireSlots
    repeat' (first | (with_reducible first | assumption | apply ih | apply Dev.slotMissing_canonical | apply ite_canonical) | split)

theorem Dev.modWheel_canonical {d : Dev} {g : Nat} {f : WheelSt → WheelSt} (hd : d.Canonical) : (Dev.modWheel d g f).Canonical := by
  unfold Dev.modWheel
  repeat' (apply Dev.Canonical.mk <;> (try dsimp only) <;> with_reducible first | exact Dev.Canonical.words ‹_› | exact Dev.Canonical.eff ‹_› | exact Dev.Canonical.keep ‹_› | exact Dev.Canonical.cells ‹_› | exact Dev.Canonical.err ‹_› | exact Dev.Canonical.poison ‹_› | exact Sparse.wf_put (Dev.Canonical.words ‹_›) | exact Sparse.wf_put (Dev.Canonical.eff ‹_›) | exact Sparse.wf_put (Dev.Canonical.cells ‹_›) | exact Sparse.wf_put (Dev.Canonical.err ‹_›) | exact Sparse.wf_put (Dev.Canonical.poison ‹_›) | exact keepStore_wf (Dev.Canonical.keep ‹_›))

theorem Dev.showWheel_canonical {d : Dev} {g : Nat} (hd : d.Canonical) : (Dev.showWheel d g).Canonical := by
  unfold Dev.showWheel
  repeat' (first | with_reducible assumption | ((try lift_lets); intro d1; refine (fun (hd1 : Dev.Canonical d1) => ?_) ?_; (try clear_value d1); on_goal 2 => unfold d1) | ((try lift_lets); intro dX; first | (have hX : MemSt := dX; clear hX) | (have hX : Regs := dX; clear hX) | (have hX : KeepSt := dX; clear hX) | clear_value dX | skip) | (with_reducible first | apply Dev.set_canonical | apply Dev.setFlag_canonical) | split)

theorem Dev.devSkip_canonical {d : Dev} {n : Nat} {g : Nat} {f : CapFrame} (hd : d.Canonical) : (Dev.devSkip d n g f).Canonical := by
  unfold Dev.devSkip
  repeat' (first | with_reducible assumption | ((try lift_lets); intro d1; refine (fun (hd1 : Dev.Canonical d1) => ?_) ?_; (try clear_value d1); on_goal 2 => unfold d1) | ((try lift_lets); intro dX; first | (have hX : MemSt := dX; clear hX) | (have hX : Regs := dX; clear hX) | (have hX : KeepSt := dX; clear hX) | clear_value dX | skip) | (with_reducible first | apply Dev.modFrame_canonical | apply Dev.slotBufs_canonical | apply Dev.bump_canonical | refine Dev.limited_canonical (hf := fun d hd => ?_) ?_ | apply Dev.eventCtx_canonical | apply Dev.statsHeader_canonical | apply Dev.rawModify_canonical | apply Dev.dropEnded_canonical))

theorem Dev.windowOver_canonical {d : Dev} {g : Nat} (hd : d.Canonical) : (Dev.windowOver d g).Canonical := by
  unfold Dev.windowOver
  repeat' (with_reducible first | assumption | refine foldl_canonical ?_ (fun d x hd => ?_) | apply Dev.modCtx_canonical)

theorem Dev.windowLost_canonical {d : Dev} {g : Nat} {closing : Bool} (hd : d.Canonical) : (Dev.windowLost d g closing).Canonical := by
  unfold Dev.windowLost
  repeat' (with_reducible first | assumption | refine foldl_canonical ?_ (fun d x hd => ?_) | apply Dev.devSkip_canonical | apply Dev.windowOver_canonical | apply ite_canonical)

theorem Dev.wheelService_canonical {d : Dev} {g : Nat} {win : Option Nat} (hd : d.Canonical) : (Dev.wheelService d g win).Canonical := by
  unfold Dev.wheelService
  repeat' (first | (with_reducible first | assumption | refine foldl_canonical ?_ (fun d x hd => ?_)) | ((try lift_lets); intro d1; refine (fun (hd1 : Dev.Canonical d1) => ?_) ?_; (try clear_value d1); on_goal 2 => unfold d1) | ((try lift_lets); intro dX; first | (have hX : MemSt := dX; clear hX) | (have hX : Regs := dX; clear hX) | (have hX : KeepSt := dX; clear hX) | clear_value dX | skip) | (with_reducible first | apply Dev.devSkip_canonical | apply Dev.windowLost_canonical | apply Dev.showWheel_canonical | apply Dev.modWheel_canonical | apply Dev.devStart_canonical | apply Dev.rawModify_canonical | apply Dev.modFrame_canonical | apply Dev.bump_canonical | apply ite_canonical) | split)

theorem execWheelWindowEnd_canonical {g : Fin 8} {s : State} {st' : State} (hcan : s.dev.Canonical) (ht : execWheelWindowEnd g s = .next st') : st'.dev.Canonical := by
  unfold execWheelWindowEnd at ht
  refine run_canonical hcan ht ?_
  intro d hd
  repeat' (first | (with_reducible first | assumption | apply Dev.modWheel_canonical | apply Dev.wheelService_canonical) | split)

theorem execWheelSlotStart_canonical {g : Fin 8} {s : State} {st' : State} (hcan : s.dev.Canonical) (ht : execWheelSlotStart g s = .next st') : st'.dev.Canonical := by
  unfold execWheelSlotStart at ht
  refine run_canonical hcan ht ?_
  intro d hd
  repeat' (with_reducible first | assumption | apply Dev.wheelService_canonical | apply Dev.showWheel_canonical | apply ite_canonical)

theorem execWheelBoundary_canonical {g : Fin 8} {s : State} {st' : State} (hcan : s.dev.Canonical) (ht : execWheelBoundary g s = .next st') : st'.dev.Canonical := by
  unfold execWheelBoundary at ht
  refine run_canonical hcan ht ?_
  intro d hd
  repeat' (with_reducible first | assumption | refine foldl_canonical ?_ (fun d x hd => ?_) | apply Dev.latch_canonical | apply Dev.showWheel_canonical)

theorem Dev.excess_canonical {d : Dev} {n : Nat} {p : Nat} {sfn : Nat} (hd : d.Canonical) : (Dev.excess d n p sfn).Canonical := by
  unfold Dev.excess
  repeat' (first | with_reducible assumption | ((try lift_lets); intro d1; refine (fun (hd1 : Dev.Canonical d1) => ?_) ?_; (try clear_value d1); on_goal 2 => unfold d1) | (with_reducible first | apply Dev.bump_canonical | apply Dev.modPort_canonical | refine Dev.limited_canonical (hf := fun d hd => ?_) ?_ | apply Dev.eventCtx_canonical))

theorem Dev.rawEnter_canonical {d : Dev} {n : Nat} {fseq : Nat} {len : Nat} {tiles : Nat} {wheel : Bool} (hd : d.Canonical) : (Dev.rawEnter d n fseq len tiles wheel).1.Canonical := by
  unfold Dev.rawEnter
  with_reducible refine ite_fst_canonical hd ?_
  split
  · exact hd
  · with_reducible exact Dev.rawModify_canonical (Dev.rawTake_canonical hd)

theorem Dev.wheelArrive_canonical {d : Dev} {n : Nat} {g : Nat} {fseq : Nat} (hd : d.Canonical) : (Dev.wheelArrive d n g fseq).Canonical := by
  unfold Dev.wheelArrive
  repeat' (first | with_reducible assumption | ((try lift_lets); intro d1; refine (fun (hd1 : Dev.Canonical d1) => ?_) ?_; (try clear_value d1); on_goal 2 => unfold d1) | (with_reducible first | apply Dev.modWheel_canonical | apply Dev.showWheel_canonical | apply Dev.modFrame_canonical | apply Dev.devSkip_canonical | apply ite_canonical) | split)

theorem Dev.krcExpect_canonical {d : Dev} {n : Nat} {fseq : Nat} {tiles : Nat} (hd : d.Canonical) : (Dev.krcExpect d n fseq tiles).Canonical := by
  unfold Dev.krcExpect
  repeat' (first | ((try lift_lets); intro dX; first | (have hX : MemSt := dX; clear hX) | (have hX : Regs := dX; clear hX) | (have hX : KeepSt := dX; clear hX) | clear_value dX | skip) | (apply Dev.Canonical.mk <;> (try dsimp only) <;> with_reducible first | exact Dev.Canonical.words ‹_› | exact Dev.Canonical.eff ‹_› | exact Dev.Canonical.keep ‹_› | exact Dev.Canonical.cells ‹_› | exact Dev.Canonical.err ‹_› | exact Dev.Canonical.poison ‹_› | exact Sparse.wf_put (Dev.Canonical.words ‹_›) | exact Sparse.wf_put (Dev.Canonical.eff ‹_›) | exact Sparse.wf_put (Dev.Canonical.cells ‹_›) | exact Sparse.wf_put (Dev.Canonical.err ‹_›) | exact Sparse.wf_put (Dev.Canonical.poison ‹_›) | exact keepStore_wf (Dev.Canonical.keep ‹_›)))

theorem Dev.frameEnters_canonical {d : Dev} {n : Nat} {p : Nat} {sfn : Nat} {top : Nat} {fsx : Bool} {sl : Slot} {fseq : Nat} {sid : Nat} {tiles : Nat} {krc : Bool} {raw : Option Nat} {blocker : Nat} (hd : d.Canonical) : (Dev.frameEnters d n p sfn top fsx sl fseq sid tiles krc raw blocker).Canonical := by
  unfold Dev.frameEnters
  repeat' (first | with_reducible assumption | ((try lift_lets); intro d1; refine (fun (hd1 : Dev.Canonical d1) => ?_) ?_; (try clear_value d1); on_goal 2 => unfold d1) | ((try lift_lets); intro dX; first | (have hX : MemSt := dX; clear hX) | (have hX : Regs := dX; clear hX) | (have hX : KeepSt := dX; clear hX) | clear_value dX | skip) | (with_reducible first | apply Dev.modCtx_canonical | apply Dev.modPort_canonical | apply Dev.gkFrameStart_canonical | apply Dev.krcExpect_canonical | apply Dev.slotSeen_canonical | apply Dev.recSlot_canonical | apply Dev.devStart_canonical | apply Dev.wheelArrive_canonical | apply ite_canonical) | split)

theorem Dev.acceptFrame_canonical {d : Dev} {n : Nat} {p : Nat} {sfn : Nat} {top : Nat} {fsx : Bool} {sl : Slot} (hd : d.Canonical) : (Dev.acceptFrame d n p sfn top fsx sl).Canonical := by
  unfold Dev.acceptFrame
  with_reducible refine Dev.frameEnters_canonical ?_
  with_reducible exact Dev.rawEnter_canonical (Dev.latch_canonical (Dev.resolve_canonical (Dev.closeOpen_canonical hd)))

theorem Dev.packet_canonical {d : Dev} {p : Nat} {ty : Nat} {blk : List Byte} {f : Dev → Dev} (hd : d.Canonical) (hf : ∀ d : Dev, d.Canonical → (f d).Canonical) : (Dev.packet d p ty blk f).Canonical := by
  unfold Dev.packet
  repeat' (with_reducible first | assumption | apply hf | apply Dev.bump_canonical | apply ite_canonical)

theorem execFrameStart_canonical {p : Fin 8} {blk : List Byte} {s : State} {st' : State} (hcan : s.dev.Canonical) (ht : execFrameStart p blk s = .next st') : st'.dev.Canonical := by
  unfold execFrameStart at ht
  refine run_canonical hcan ht ?_
  intro d hd
  repeat' (first | (with_reducible first | assumption | refine foldl_canonical ?_ (fun d x hd => ?_)) | ((try lift_lets); intro d1; refine (fun (hd1 : Dev.Canonical d1) => ?_) ?_; (try clear_value d1); on_goal 2 => unfold d1) | ((try lift_lets); intro dX; first | (have hX : MemSt := dX; clear hX) | (have hX : Regs := dX; clear hX) | (have hX : KeepSt := dX; clear hX) | clear_value dX | skip) | (with_reducible first | refine Dev.packet_canonical (hf := fun d hd => ?_) ?_ | apply Dev.expireSlots_canonical | apply Dev.closeOpen_canonical | apply Dev.modPort_canonical | apply Dev.acceptFrame_canonical | apply Dev.excess_canonical | apply ite_canonical) | split)

theorem execFsx_canonical {p : Fin 8} {blk : List Byte} {s : State} {st' : State} (hcan : s.dev.Canonical) (ht : execFsx p blk s = .next st') : st'.dev.Canonical := by
  unfold execFsx at ht
  refine run_canonical hcan ht ?_
  intro d hd
  repeat' (first | with_reducible assumption | ((try lift_lets); intro d1; refine (fun (hd1 : Dev.Canonical d1) => ?_) ?_; (try clear_value d1); on_goal 2 => unfold d1) | (with_reducible first | refine Dev.packet_canonical (hf := fun d hd => ?_) ?_ | apply Dev.modPort_canonical | apply Dev.modFrame_canonical | apply ite_canonical) | split)

theorem execLineStart_canonical {p : Fin 8} {blk : List Byte} {s : State} {st' : State} (hcan : s.dev.Canonical) (ht : execLineStart p blk s = .next st') : st'.dev.Canonical := by
  unfold execLineStart at ht
  refine run_canonical hcan ht ?_
  intro d hd
  repeat' (first | with_reducible assumption | ((try lift_lets); intro d1; refine (fun (hd1 : Dev.Canonical d1) => ?_) ?_; (try clear_value d1); on_goal 2 => unfold d1) | ((try lift_lets); intro dX; first | (have hX : MemSt := dX; clear hX) | (have hX : Regs := dX; clear hX) | (have hX : KeepSt := dX; clear hX) | clear_value dX | skip) | (with_reducible first | refine Dev.packet_canonical (hf := fun d hd => ?_) ?_ | apply Dev.modCtx_canonical | apply Dev.add_canonical | apply Dev.lineCut_canonical | apply Dev.padTo_canonical | apply Dev.modFrame_canonical | apply Dev.mergeReady_canonical | apply ite_canonical) | split)

theorem Dev.rowsMoved_canonical {d : Dev} {n : Nat} {fseq : Nat} (hd : d.Canonical) : (Dev.rowsMoved d n fseq).Canonical := by
  unfold Dev.rowsMoved
  repeat' (first | with_reducible assumption | ((try lift_lets); intro d1; refine (fun (hd1 : Dev.Canonical d1) => ?_) ?_; (try clear_value d1); on_goal 2 => unfold d1) | (with_reducible first | apply Dev.tileRowsReady_canonical | apply Dev.advanceBranches_canonical | apply ite_canonical) | split)

theorem execLineEnd_canonical {p : Fin 8} {blk : List Byte} {data : List Byte} {lost : Bool} {s : State} {st' : State} (hcan : s.dev.Canonical) (ht : execLineEnd p blk data lost s = .next st') : st'.dev.Canonical := by
  unfold execLineEnd at ht
  refine run_canonical hcan ht ?_
  intro d hd
  apply ite_canonical
  · exact hd
  · apply ite_canonical
    · exact hd
    · repeat' (first | with_reducible assumption | ((try lift_lets); intro d1; refine (fun (hd1 : Dev.Canonical d1) => ?_) ?_; (try clear_value d1); on_goal 2 => unfold d1) | ((try lift_lets); intro dX; first | (have hX : MemSt := dX; clear hX) | (have hX : Regs := dX; clear hX) | (have hX : KeepSt := dX; clear hX) | clear_value dX | skip) | (with_reducible first | apply Dev.bump_canonical | apply Dev.modCtx_canonical | apply Dev.gkLine_canonical | apply Dev.modFrame_canonical | apply Dev.mergeReady_canonical | apply Dev.rowsMoved_canonical | apply ite_canonical) | split | (apply Dev.Canonical.mk <;> (try dsimp only) <;> with_reducible first | apply Dev.Canonical.words | apply Dev.Canonical.eff | apply Dev.Canonical.keep | apply Dev.Canonical.cells | apply Dev.Canonical.err | apply Dev.Canonical.poison))

theorem execFrameEnd_canonical {p : Fin 8} {blk : List Byte} {s : State} {st' : State} (hcan : s.dev.Canonical) (ht : execFrameEnd p blk s = .next st') : st'.dev.Canonical := by
  unfold execFrameEnd at ht
  refine run_canonical hcan ht ?_
  intro d hd
  repeat' (first | with_reducible assumption | ((try lift_lets); intro d1; refine (fun (hd1 : Dev.Canonical d1) => ?_) ?_; (try clear_value d1); on_goal 2 => unfold d1) | ((try lift_lets); intro dX; first | (have hX : MemSt := dX; clear hX) | (have hX : Regs := dX; clear hX) | (have hX : KeepSt := dX; clear hX) | clear_value dX | skip) | (with_reducible first | refine Dev.packet_canonical (hf := fun d hd => ?_) ?_ | apply Dev.modFrame_canonical | apply Dev.closeFrame_canonical | apply Dev.rowsMoved_canonical | apply ite_canonical) | split)

/-! ### Loops -/

theorem Dev.showDmap_canonical {d : Dev} {p : Nat} (hd : d.Canonical) : (Dev.showDmap d p).Canonical := by
  unfold Dev.showDmap
  repeat' (first | with_reducible assumption | ((try lift_lets); intro dX; first | (have hX : MemSt := dX; clear hX) | (have hX : Regs := dX; clear hX) | (have hX : KeepSt := dX; clear hX) | clear_value dX | skip) | with_reducible apply Dev.set_canonical)

theorem Dev.queueEdit_canonical {d : Dev} {p : Nat} {e : DefectEdit} (hd : d.Canonical) : (Dev.queueEdit d p e).Canonical := by
  unfold Dev.queueEdit
  repeat' (first | with_reducible apply Dev.showDmap_canonical | (apply Dev.Canonical.mk <;> (try dsimp only) <;> with_reducible first | exact Dev.Canonical.words ‹_› | exact Dev.Canonical.eff ‹_› | exact Dev.Canonical.keep ‹_› | exact Dev.Canonical.cells ‹_› | exact Dev.Canonical.err ‹_› | exact Dev.Canonical.poison ‹_› | exact Sparse.wf_put (Dev.Canonical.words ‹_›) | exact Sparse.wf_put (Dev.Canonical.eff ‹_›) | exact Sparse.wf_put (Dev.Canonical.cells ‹_›) | exact Sparse.wf_put (Dev.Canonical.err ‹_›) | exact Sparse.wf_put (Dev.Canonical.poison ‹_›) | exact keepStore_wf (Dev.Canonical.keep ‹_›)))

theorem Dev.shiftCandidates_canonical {d : Dev} {n : Nat} {p : Nat} {flags : List (Nat × Nat)} (hd : d.Canonical) : (Dev.shiftCandidates d n p flags).Canonical := by
  unfold Dev.shiftCandidates
  repeat' (first | ((try lift_lets); intro dX; first | (have hX : MemSt := dX; clear hX) | (have hX : Regs := dX; clear hX) | (have hX : KeepSt := dX; clear hX) | clear_value dX | skip) | with_reducible apply Dev.add_canonical | (apply Dev.Canonical.mk <;> (try dsimp only) <;> with_reducible first | exact Dev.Canonical.words ‹_› | exact Dev.Canonical.eff ‹_› | exact Dev.Canonical.keep ‹_› | exact Dev.Canonical.cells ‹_› | exact Dev.Canonical.err ‹_› | exact Dev.Canonical.poison ‹_› | exact Sparse.wf_put (Dev.Canonical.words ‹_›) | exact Sparse.wf_put (Dev.Canonical.eff ‹_›) | exact Sparse.wf_put (Dev.Canonical.cells ‹_›) | exact Sparse.wf_put (Dev.Canonical.err ‹_›) | exact Sparse.wf_put (Dev.Canonical.poison ‹_›) | exact keepStore_wf (Dev.Canonical.keep ‹_›)))

theorem Dev.learn_canonical {d : Dev} {p : Nat} (hd : d.Canonical) : (Dev.learn d p).Canonical := by
  unfold Dev.learn
  repeat' (first | (with_reducible first | assumption | refine foldl_canonical ?_ (fun d x hd => ?_)) | ((try lift_lets); intro d1; refine (fun (hd1 : Dev.Canonical d1) => ?_) ?_; (try clear_value d1); on_goal 2 => unfold d1) | ((try lift_lets); intro dX; first | (have hX : MemSt := dX; clear hX) | (have hX : Regs := dX; clear hX) | (have hX : KeepSt := dX; clear hX) | clear_value dX | skip) | (with_reducible first | apply Dev.dmapFull_canonical | apply Dev.queueEdit_canonical | apply Dev.eventAt_canonical | apply ite_canonical) | (apply Dev.Canonical.mk <;> (try dsimp only) <;> with_reducible first | exact Dev.Canonical.words ‹_› | exact Dev.Canonical.eff ‹_› | exact Dev.Canonical.keep ‹_› | exact Dev.Canonical.cells ‹_› | exact Dev.Canonical.err ‹_› | exact Dev.Canonical.poison ‹_› | exact Sparse.wf_put (Dev.Canonical.words ‹_›) | exact Sparse.wf_put (Dev.Canonical.eff ‹_›) | exact Sparse.wf_put (Dev.Canonical.cells ‹_›) | exact Sparse.wf_put (Dev.Canonical.err ‹_›) | exact Sparse.wf_put (Dev.Canonical.poison ‹_›) | exact keepStore_wf (Dev.Canonical.keep ‹_›)))

theorem Dev.hostEdit_canonical {d : Dev} {op : Nat} {p : Nat} {cls : Nat} {x : Nat} {y : Nat} (hd : d.Canonical) : (Dev.hostEdit d op p cls x y).Canonical := by
  unfold Dev.hostEdit
  repeat' (first | with_reducible assumption | ((try lift_lets); intro d1; refine (fun (hd1 : Dev.Canonical d1) => ?_) ?_; (try clear_value d1); on_goal 2 => unfold d1) | ((try lift_lets); intro dX; first | (have hX : MemSt := dX; clear hX) | (have hX : Regs := dX; clear hX) | (have hX : KeepSt := dX; clear hX) | clear_value dX | skip) | (with_reducible first | apply Dev.set_canonical | apply Dev.setFlag_canonical | apply Dev.dmapFull_canonical | apply Dev.queueEdit_canonical | apply ite_canonical) | (apply Dev.Canonical.mk <;> (try dsimp only) <;> with_reducible first | exact Dev.Canonical.words ‹_› | exact Dev.Canonical.eff ‹_› | exact Dev.Canonical.keep ‹_› | exact Dev.Canonical.cells ‹_› | exact Dev.Canonical.err ‹_› | exact Dev.Canonical.poison ‹_› | exact Sparse.wf_put (Dev.Canonical.words ‹_›) | exact Sparse.wf_put (Dev.Canonical.eff ‹_›) | exact Sparse.wf_put (Dev.Canonical.cells ‹_›) | exact Sparse.wf_put (Dev.Canonical.err ‹_›) | exact Sparse.wf_put (Dev.Canonical.poison ‹_›) | exact keepStore_wf (Dev.Canonical.keep ‹_›)))

theorem execDmapEditAdd_canonical {p : Fin 8} {cls : Fin 16} {s : State} {st' : State} (hcan : s.dev.Canonical) (ht : execDmapEditAdd p cls s = .next st') : st'.dev.Canonical := by
  unfold execDmapEditAdd at ht
  refine run_canonical hcan ht ?_
  intro d hd
  repeat' (first | with_reducible assumption | ((try lift_lets); intro d1; refine (fun (hd1 : Dev.Canonical d1) => ?_) ?_; (try clear_value d1); on_goal 2 => unfold d1) | (with_reducible first | refine Dev.gateWrite_canonical (hf := fun d hd => ?_) ?_ | apply Dev.set_canonical | apply Dev.hostEdit_canonical))

theorem execDmapEditRemove_canonical {p : Fin 8} {s : State} {st' : State} (hcan : s.dev.Canonical) (ht : execDmapEditRemove p s = .next st') : st'.dev.Canonical := by
  unfold execDmapEditRemove at ht
  refine run_canonical hcan ht ?_
  intro d hd
  repeat' (first | with_reducible assumption | ((try lift_lets); intro d1; refine (fun (hd1 : Dev.Canonical d1) => ?_) ?_; (try clear_value d1); on_goal 2 => unfold d1) | (with_reducible first | refine Dev.gateWrite_canonical (hf := fun d hd => ?_) ?_ | apply Dev.set_canonical | apply Dev.hostEdit_canonical))

theorem Dev.journalWrite_canonical {d : Dev} (hd : d.Canonical) : (Dev.journalWrite d).Canonical := by
  unfold Dev.journalWrite
  repeat' (first | (with_reducible first | assumption | refine foldl_canonical ?_ (fun d x hd => ?_)) | ((try lift_lets); intro d1; refine (fun (hd1 : Dev.Canonical d1) => ?_) ?_; (try clear_value d1); on_goal 2 => unfold d1) | ((try lift_lets); intro dX; first | (have hX : MemSt := dX; clear hX) | (have hX : Regs := dX; clear hX) | (have hX : KeepSt := dX; clear hX) | clear_value dX | skip) | (with_reducible first | apply Dev.keepWrite_canonical | apply Dev.add_canonical | apply Dev.event_canonical | apply ite_canonical) | (apply Dev.Canonical.mk <;> (try dsimp only) <;> with_reducible first | exact Dev.Canonical.words ‹_› | exact Dev.Canonical.eff ‹_› | exact Dev.Canonical.keep ‹_› | exact Dev.Canonical.cells ‹_› | exact Dev.Canonical.err ‹_› | exact Dev.Canonical.poison ‹_› | exact Sparse.wf_put (Dev.Canonical.words ‹_›) | exact Sparse.wf_put (Dev.Canonical.eff ‹_›) | exact Sparse.wf_put (Dev.Canonical.cells ‹_›) | exact Sparse.wf_put (Dev.Canonical.err ‹_›) | exact Sparse.wf_put (Dev.Canonical.poison ‹_›) | exact keepStore_wf (Dev.Canonical.keep ‹_›)))

theorem Dev.journalFold_canonical {d : Dev} (hd : d.Canonical) : (Dev.journalFold d).Canonical := by
  unfold Dev.journalFold
  repeat' (first | (with_reducible first | assumption | refine foldl_canonical ?_ (fun d x hd => ?_)) | ((try lift_lets); intro d1; refine (fun (hd1 : Dev.Canonical d1) => ?_) ?_; (try clear_value d1); on_goal 2 => unfold d1) | ((try lift_lets); intro dX; first | (have hX : MemSt := dX; clear hX) | (have hX : Regs := dX; clear hX) | (have hX : KeepSt := dX; clear hX) | clear_value dX | skip) | (with_reducible first | apply Dev.keepWrite_canonical | apply Dev.set_canonical | apply Dev.bump_canonical | apply Dev.event_canonical) | (apply Dev.Canonical.mk <;> (try dsimp only) <;> with_reducible first | exact Dev.Canonical.words ‹_› | exact Dev.Canonical.eff ‹_› | exact Dev.Canonical.keep ‹_› | exact Dev.Canonical.cells ‹_› | exact Dev.Canonical.err ‹_› | exact Dev.Canonical.poison ‹_› | exact Sparse.wf_put (Dev.Canonical.words ‹_›) | exact Sparse.wf_put (Dev.Canonical.eff ‹_›) | exact Sparse.wf_put (Dev.Canonical.cells ‹_›) | exact Sparse.wf_put (Dev.Canonical.err ‹_›) | exact Sparse.wf_put (Dev.Canonical.poison ‹_›) | exact keepStore_wf (Dev.Canonical.keep ‹_›)))

theorem execJournalBatch_canonical {s : State} {st' : State} (hcan : s.dev.Canonical) (ht : execJournalBatch s = .next st') : st'.dev.Canonical := by
  unfold execJournalBatch at ht
  refine run_canonical hcan ht ?_
  intro d hd
  repeat' (first | with_reducible assumption | ((try lift_lets); intro d1; refine (fun (hd1 : Dev.Canonical d1) => ?_) ?_; (try clear_value d1); on_goal 2 => unfold d1) | (with_reducible first | apply Dev.journalWrite_canonical | apply Dev.journalFold_canonical | apply ite_canonical))

theorem execKeepRebuildDone_canonical {s : State} {st' : State} (hcan : s.dev.Canonical) (ht : execKeepRebuildDone s = .next st') : st'.dev.Canonical := by
  unfold execKeepRebuildDone at ht
  refine run_canonical hcan ht ?_
  intro d hd
  with_reducible refine ite_canonical hd ?_
  have h1 : ({ d with keep := { d.keep with bytes := d.keep.bytes.filter (fun e => 0x780000 ≤ e.1) },
                        journal := { d.journal with rebuilding := false } } : Dev).Canonical :=
    ⟨hd.words, hd.eff, Sparse.wf_filter hd.keep, hd.cells, hd.err, hd.poison⟩
  with_reducible refine Dev.set_canonical (Dev.keepWrite_canonical ?_)
  with_reducible refine foldl_canonical h1 (fun d p hd => ?_)
  with_reducible exact foldl_canonical hd (fun d e hd => Dev.keepWrite_canonical hd)

theorem Dev.noiseLoop_canonical {d : Dev} {n : Nat} {f : CapFrame} {o : DefectOut} (hd : d.Canonical) : (Dev.noiseLoop d n f o).Canonical := by
  unfold Dev.noiseLoop
  repeat' (first | with_reducible assumption | ((try lift_lets); intro d1; refine (fun (hd1 : Dev.Canonical d1) => ?_) ?_; (try clear_value d1); on_goal 2 => unfold d1) | ((try lift_lets); intro dX; first | (have hX : MemSt := dX; clear hX) | (have hX : Regs := dX; clear hX) | (have hX : KeepSt := dX; clear hX) | clear_value dX | skip) | (with_reducible first | apply Dev.modCtx_canonical | apply Dev.set_canonical))

theorem Dev.frameDeveloped_canonical {d : Dev} {n : Nat} {fseq : Nat} {hosts : List (List Nat)} (hd : d.Canonical) : (Dev.frameDeveloped d n fseq hosts).Canonical := by
  unfold Dev.frameDeveloped
  repeat' (first | (with_reducible first | assumption | refine foldl_canonical ?_ (fun d x hd => ?_)) | ((try lift_lets); intro d1; refine (fun (hd1 : Dev.Canonical d1) => ?_) ?_; (try clear_value d1); on_goal 2 => unfold d1) | ((try lift_lets); intro dX; first | (have hX : MemSt := dX; clear hX) | (have hX : Regs := dX; clear hX) | (have hX : KeepSt := dX; clear hX) | clear_value dX | skip) | (with_reducible first | apply Dev.advanceBranches_canonical | apply Dev.poolWrite_canonical | apply Dev.statsHeader_canonical | apply Dev.bump_canonical | apply Dev.noiseLoop_canonical | apply Dev.shiftCandidates_canonical | apply Dev.learn_canonical | apply Dev.mvPush_canonical | apply Dev.modFrame_canonical | apply Dev.rawModify_canonical | apply Dev.dropEnded_canonical | apply Dev.modWheel_canonical | apply Dev.wheelService_canonical | apply ite_canonical) | split)

theorem Dev.lutCommit_canonical {d : Dev} {n : Nat} {b : Nat} (hd : d.Canonical) : (Dev.lutCommit d n b).Canonical := by
  unfold Dev.lutCommit
  repeat' (first | with_reducible assumption | ((try lift_lets); intro dX; first | (have hX : MemSt := dX; clear hX) | (have hX : Regs := dX; clear hX) | (have hX : KeepSt := dX; clear hX) | clear_value dX | skip) | (with_reducible first | apply Dev.set_canonical | apply Dev.eventCtx_canonical | apply Dev.setFlag_canonical | apply ite_canonical) | (apply Dev.Canonical.mk <;> (try dsimp only) <;> with_reducible first | exact Dev.Canonical.words ‹_› | exact Dev.Canonical.eff ‹_› | exact Dev.Canonical.keep ‹_› | exact Dev.Canonical.cells ‹_› | exact Dev.Canonical.err ‹_› | exact Dev.Canonical.poison ‹_› | exact Sparse.wf_put (Dev.Canonical.words ‹_›) | exact Sparse.wf_put (Dev.Canonical.eff ‹_›) | exact Sparse.wf_put (Dev.Canonical.cells ‹_›) | exact Sparse.wf_put (Dev.Canonical.err ‹_›) | exact Sparse.wf_put (Dev.Canonical.poison ‹_›) | exact keepStore_wf (Dev.Canonical.keep ‹_›)))

theorem Dev.colJudge_canonical {d : Dev} {n : Nat} (hd : d.Canonical) : (Dev.colJudge d n).Canonical := by
  unfold Dev.colJudge
  repeat' (with_reducible first | assumption | refine foldl_canonical ?_ (fun d x hd => ?_) | apply Dev.lutCommit_canonical)

theorem Dev.colCommit_canonical {d : Dev} {n : Nat} (hd : d.Canonical) : (Dev.colCommit d n).Canonical := by
  unfold Dev.colCommit
  repeat' (with_reducible first | assumption | apply Dev.colJudge_canonical | apply Dev.latchAll_canonical | apply ite_canonical)

theorem execColCommit_canonical {mask : Fin 65536} {s : State} {st' : State} (hcan : s.dev.Canonical) (ht : execColCommit mask s = .next st') : st'.dev.Canonical := by
  unfold execColCommit at ht
  refine run_canonical hcan ht ?_
  intro d hd
  repeat' (with_reducible first | assumption | refine foldl_canonical ?_ (fun d x hd => ?_) | refine Dev.gateWrite_canonical (hf := fun d hd => ?_) ?_ | apply Dev.colCommit_canonical)

theorem execLut3dLoadDone_canonical {n : Fin 16} {s : State} {st' : State} (hcan : s.dev.Canonical) (ht : execLut3dLoadDone n s = .next st') : st'.dev.Canonical := by
  unfold execLut3dLoadDone at ht
  refine run_canonical hcan ht ?_
  intro d hd
  repeat' (first | with_reducible assumption | ((try lift_lets); intro dX; first | (have hX : MemSt := dX; clear hX) | (have hX : Regs := dX; clear hX) | (have hX : KeepSt := dX; clear hX) | clear_value dX | skip) | with_reducible apply Dev.setFlag_canonical | (apply Dev.Canonical.mk <;> (try dsimp only) <;> with_reducible first | exact Dev.Canonical.words ‹_› | exact Dev.Canonical.eff ‹_› | exact Dev.Canonical.keep ‹_› | exact Dev.Canonical.cells ‹_› | exact Dev.Canonical.err ‹_› | exact Dev.Canonical.poison ‹_› | exact Sparse.wf_put (Dev.Canonical.words ‹_›) | exact Sparse.wf_put (Dev.Canonical.eff ‹_›) | exact Sparse.wf_put (Dev.Canonical.cells ‹_›) | exact Sparse.wf_put (Dev.Canonical.err ‹_›) | exact Sparse.wf_put (Dev.Canonical.poison ‹_›) | exact keepStore_wf (Dev.Canonical.keep ‹_›)) | split)

theorem Dev.colSetLatch_canonical {d : Dev} {n : Nat} {sid : Nat} (hd : d.Canonical) : (Dev.colSetLatch d n sid).Canonical := by
  unfold Dev.colSetLatch
  repeat' (first | with_reducible assumption | ((try lift_lets); intro d1; refine (fun (hd1 : Dev.Canonical d1) => ?_) ?_; (try clear_value d1); on_goal 2 => unfold d1) | ((try lift_lets); intro dX; first | (have hX : MemSt := dX; clear hX) | (have hX : Regs := dX; clear hX) | (have hX : KeepSt := dX; clear hX) | clear_value dX | skip) | (with_reducible first | apply Dev.colJudge_canonical | apply Dev.modCtx_canonical | apply Dev.eventCtx_canonical | apply Dev.set_canonical | apply ite_canonical) | split)

theorem Dev.expPrune_canonical {d : Dev} {n : Nat} (hd : d.Canonical) : (Dev.expPrune d n).Canonical := by
  unfold Dev.expPrune
  repeat' (first | ((try lift_lets); intro dX; first | (have hX : MemSt := dX; clear hX) | (have hX : Regs := dX; clear hX) | (have hX : KeepSt := dX; clear hX) | clear_value dX | skip) | (apply Dev.Canonical.mk <;> (try dsimp only) <;> with_reducible first | exact Dev.Canonical.words ‹_› | exact Dev.Canonical.eff ‹_› | exact Dev.Canonical.keep ‹_› | exact Dev.Canonical.cells ‹_› | exact Dev.Canonical.err ‹_› | exact Dev.Canonical.poison ‹_› | exact Sparse.wf_put (Dev.Canonical.words ‹_›) | exact Sparse.wf_put (Dev.Canonical.eff ‹_›) | exact Sparse.wf_put (Dev.Canonical.cells ‹_›) | exact Sparse.wf_put (Dev.Canonical.err ‹_›) | exact Sparse.wf_put (Dev.Canonical.poison ‹_›) | exact keepStore_wf (Dev.Canonical.keep ‹_›)))

theorem Dev.expCommit_canonical {d : Dev} {n : Nat} (hd : d.Canonical) : (Dev.expCommit d n).Canonical := by
  unfold Dev.expCommit
  repeat' (first | with_reducible assumption | ((try lift_lets); intro d1; refine (fun (hd1 : Dev.Canonical d1) => ?_) ?_; (try clear_value d1); on_goal 2 => unfold d1) | ((try lift_lets); intro dX; first | (have hX : MemSt := dX; clear hX) | (have hX : Regs := dX; clear hX) | (have hX : KeepSt := dX; clear hX) | clear_value dX | skip) | (with_reducible first | apply Dev.expPrune_canonical | apply Dev.modPort_canonical | apply Dev.bump_canonical | apply Dev.eventCtx_canonical | apply Dev.set_canonical | apply Dev.colSetLatch_canonical | apply Dev.expSend_canonical | apply ite_canonical) | (apply Dev.Canonical.mk <;> (try dsimp only) <;> with_reducible first | exact Dev.Canonical.words ‹_› | exact Dev.Canonical.eff ‹_› | exact Dev.Canonical.keep ‹_› | exact Dev.Canonical.cells ‹_› | exact Dev.Canonical.err ‹_› | exact Dev.Canonical.poison ‹_› | exact Sparse.wf_put (Dev.Canonical.words ‹_›) | exact Sparse.wf_put (Dev.Canonical.eff ‹_›) | exact Sparse.wf_put (Dev.Canonical.cells ‹_›) | exact Sparse.wf_put (Dev.Canonical.err ‹_›) | exact Sparse.wf_put (Dev.Canonical.poison ‹_›) | exact keepStore_wf (Dev.Canonical.keep ‹_›)) | split)

theorem execCapExpCommit_canonical {mask : Fin 65536} {s : State} {st' : State} (hcan : s.dev.Canonical) (ht : execCapExpCommit mask s = .next st') : st'.dev.Canonical := by
  unfold execCapExpCommit at ht
  refine run_canonical hcan ht ?_
  intro d hd
  repeat' (with_reducible first | assumption | refine foldl_canonical ?_ (fun d x hd => ?_) | refine Dev.gateWrite_canonical (hf := fun d hd => ?_) ?_ | apply Dev.expCommit_canonical)

theorem Dev.expBase_canonical {d : Dev} {n : Nat} (hd : d.Canonical) : (Dev.expBase d n).Canonical := by
  unfold Dev.expBase
  repeat' (first | with_reducible assumption | ((try lift_lets); intro d1; refine (fun (hd1 : Dev.Canonical d1) => ?_) ?_; (try clear_value d1); on_goal 2 => unfold d1) | ((try lift_lets); intro dX; first | (have hX : MemSt := dX; clear hX) | (have hX : Regs := dX; clear hX) | (have hX : KeepSt := dX; clear hX) | clear_value dX | skip) | (with_reducible first | apply Dev.set_canonical | apply Dev.bcSend_canonical | apply ite_canonical) | (apply Dev.Canonical.mk <;> (try dsimp only) <;> with_reducible first | exact Dev.Canonical.words ‹_› | exact Dev.Canonical.eff ‹_› | exact Dev.Canonical.keep ‹_› | exact Dev.Canonical.cells ‹_› | exact Dev.Canonical.err ‹_› | exact Dev.Canonical.poison ‹_› | exact Sparse.wf_put (Dev.Canonical.words ‹_›) | exact Sparse.wf_put (Dev.Canonical.eff ‹_›) | exact Sparse.wf_put (Dev.Canonical.cells ‹_›) | exact Sparse.wf_put (Dev.Canonical.err ‹_›) | exact Sparse.wf_put (Dev.Canonical.poison ‹_›) | exact keepStore_wf (Dev.Canonical.keep ‹_›)))

theorem Dev.wakePort_canonical {d : Dev} {p : Nat} (hd : d.Canonical) : (Dev.wakePort d p).Canonical := by
  unfold Dev.wakePort
  repeat' (with_reducible first | assumption | refine foldl_canonical ?_ (fun d x hd => ?_) | apply Dev.expBase_canonical | apply Dev.bcWake_canonical | apply Dev.emit_canonical)

theorem Dev.echoDone_canonical {d : Dev} {p : Nat} {rtt : Nat} (hd : d.Canonical) : (Dev.echoDone d p rtt).Canonical := by
  unfold Dev.echoDone
  repeat' (first | (with_reducible first | assumption | refine foldl_canonical ?_ (fun d x hd => ?_)) | ((try lift_lets); intro d1; refine (fun (hd1 : Dev.Canonical d1) => ?_) ?_; (try clear_value d1); on_goal 2 => unfold d1) | ((try lift_lets); intro dX; first | (have hX : MemSt := dX; clear hX) | (have hX : Regs := dX; clear hX) | (have hX : KeepSt := dX; clear hX) | clear_value dX | skip) | (with_reducible first | apply Dev.set_canonical | apply Dev.setFlag_canonical | apply Dev.modPort_canonical | apply Dev.eventAt_canonical))

theorem execEcho_canonical {p : Fin 8} {blk : List Byte} {rtt : Nat} {s : State} {st' : State} (hcan : s.dev.Canonical) (ht : execEcho p blk rtt s = .next st') : st'.dev.Canonical := by
  unfold execEcho at ht
  refine run_canonical hcan ht ?_
  intro d hd
  repeat' (first | with_reducible assumption | ((try lift_lets); intro d1; refine (fun (hd1 : Dev.Canonical d1) => ?_) ?_; (try clear_value d1); on_goal 2 => unfold d1) | (with_reducible first | apply Dev.echoDone_canonical | apply Dev.wakePort_canonical | apply ite_canonical))

/-! ### General -/

theorem Dev.deliver_canonical {x0 : Nat} {x1 : Dev} {x2 : KrcFrame} (hx1 : x1.Canonical) : (Dev.deliver x0 x1 x2).1.Canonical := by
  induction x0 generalizing x1 x2 hx1 with
  | zero => exact hx1
  | succ n ih =>
    unfold Dev.deliver
    repeat' (first | (with_reducible first | assumption | apply ih | apply Dev.recTile_canonical | apply ite_canonical) | split)

theorem Dev.zeQueue_canonical {d : Dev} {z : Nat} {l : List TileJob} (hd : d.Canonical) : (Dev.zeQueue d z l).Canonical := by
  unfold Dev.zeQueue
  repeat' (first | ((try lift_lets); intro dX; first | (have hX : MemSt := dX; clear hX) | (have hX : Regs := dX; clear hX) | (have hX : KeepSt := dX; clear hX) | clear_value dX | skip) | (apply Dev.Canonical.mk <;> (try dsimp only) <;> with_reducible first | exact Dev.Canonical.words ‹_› | exact Dev.Canonical.eff ‹_› | exact Dev.Canonical.keep ‹_› | exact Dev.Canonical.cells ‹_› | exact Dev.Canonical.err ‹_› | exact Dev.Canonical.poison ‹_› | exact Sparse.wf_put (Dev.Canonical.words ‹_›) | exact Sparse.wf_put (Dev.Canonical.eff ‹_›) | exact Sparse.wf_put (Dev.Canonical.cells ‹_›) | exact Sparse.wf_put (Dev.Canonical.err ‹_›) | exact Sparse.wf_put (Dev.Canonical.poison ‹_›) | exact keepStore_wf (Dev.Canonical.keep ‹_›)))

theorem Dev.zeFrames_canonical {d : Dev} {l : List KrcFrame} (hd : d.Canonical) : (Dev.zeFrames d l).Canonical := by
  unfold Dev.zeFrames
  repeat' (first | ((try lift_lets); intro dX; first | (have hX : MemSt := dX; clear hX) | (have hX : Regs := dX; clear hX) | (have hX : KeepSt := dX; clear hX) | clear_value dX | skip) | (apply Dev.Canonical.mk <;> (try dsimp only) <;> with_reducible first | exact Dev.Canonical.words ‹_› | exact Dev.Canonical.eff ‹_› | exact Dev.Canonical.keep ‹_› | exact Dev.Canonical.cells ‹_› | exact Dev.Canonical.err ‹_› | exact Dev.Canonical.poison ‹_› | exact Sparse.wf_put (Dev.Canonical.words ‹_›) | exact Sparse.wf_put (Dev.Canonical.eff ‹_›) | exact Sparse.wf_put (Dev.Canonical.cells ‹_›) | exact Sparse.wf_put (Dev.Canonical.err ‹_›) | exact Sparse.wf_put (Dev.Canonical.poison ‹_›) | exact keepStore_wf (Dev.Canonical.keep ‹_›)))

theorem Dev.krcAfter_canonical {d : Dev} {k : KrcFrame} (hd : d.Canonical) : (Dev.krcAfter d k).Canonical := by
  unfold Dev.krcAfter
  repeat' (with_reducible first | assumption | apply Dev.zeFrames_canonical | apply Dev.set_canonical | apply ite_canonical)

theorem Dev.tileOut_canonical {d : Dev} {t : TileJob} {k : KrcFrame} {off : Nat} (hd : d.Canonical) : (Dev.tileOut d t k off).Canonical := by
  unfold Dev.tileOut
  repeat' (first | with_reducible assumption | ((try lift_lets); intro d1; refine (fun (hd1 : Dev.Canonical d1) => ?_) ?_; (try clear_value d1); on_goal 2 => unfold d1) | ((try lift_lets); intro r1; refine (fun (hr1 : Dev.Canonical r1.1) => ?_) ?_; (try clear_value r1); on_goal 2 => unfold r1) | ((try lift_lets); intro dX; first | (have hX : MemSt := dX; clear hX) | (have hX : Regs := dX; clear hX) | (have hX : KeepSt := dX; clear hX) | clear_value dX | skip) | (with_reducible first | apply Dev.bump_canonical | apply Dev.deliver_canonical | apply Dev.rawModify_canonical | apply Dev.krcAfter_canonical | apply Dev.backlogCheck_canonical | apply Dev.recPump_canonical | apply Dev.zeBusy_canonical | apply ite_canonical))

theorem Dev.emitTile_canonical {d : Dev} {z : Nat} (hd : d.Canonical) : (Dev.emitTile d z).Canonical := by
  unfold Dev.emitTile
  repeat' (first | with_reducible assumption | ((try lift_lets); intro d1; refine (fun (hd1 : Dev.Canonical d1) => ?_) ?_; (try clear_value d1); on_goal 2 => unfold d1) | (with_reducible first | apply Dev.zeQueue_canonical | apply Dev.tileOut_canonical | apply Dev.zeBusy_canonical) | split)

theorem Dev.spaceWrite_canonical {d : Dev} {space : Nat} {a : Nat} {bs : List Byte} (hd : d.Canonical) : (Dev.spaceWrite d space a bs).Canonical := by
  unfold Dev.spaceWrite
  repeat' (with_reducible first | assumption | apply Dev.poolWrite_canonical | apply Dev.emit_canonical | apply ite_canonical)

theorem Dev.jobComplete_canonical {d : Dev} {r : Nat} {desc : List Byte} {status : Nat} {outLen : Nat} {check : Nat} {lastBuf : Nat} (hd : d.Canonical) : (Dev.jobComplete d r desc status outLen check lastBuf).Canonical := by
  unfold Dev.jobComplete
  repeat' (first | with_reducible assumption | ((try lift_lets); intro d1; refine (fun (hd1 : Dev.Canonical d1) => ?_) ?_; (try clear_value d1); on_goal 2 => unfold d1) | ((try lift_lets); intro dX; first | (have hX : MemSt := dX; clear hX) | (have hX : Regs := dX; clear hX) | (have hX : KeepSt := dX; clear hX) | clear_value dX | skip) | (with_reducible first | apply Dev.spaceWrite_canonical | apply Dev.bump_canonical | apply Dev.set_canonical | apply Dev.setFlag_canonical | apply Dev.sendMsix_canonical | apply ite_canonical))

theorem Dev.ringFault_canonical {d : Dev} {r : Nat} {desc : List Byte} {addr : Nat} (hd : d.Canonical) : (Dev.ringFault d r desc addr).Canonical := by
  unfold Dev.ringFault
  repeat' (first | with_reducible assumption | ((try lift_lets); intro d1; refine (fun (hd1 : Dev.Canonical d1) => ?_) ?_; (try clear_value d1); on_goal 2 => unfold d1) | (with_reducible first | apply Dev.eventAt_canonical | apply Dev.jobComplete_canonical | apply Dev.tookFree_canonical))

theorem Dev.startJob_canonical {d : Dev} {z : Nat} {j : GenJob} (hd : d.Canonical) : (Dev.startJob d z j).Canonical := by
  unfold Dev.startJob
  repeat' (first | ((try lift_lets); intro dX; first | (have hX : MemSt := dX; clear hX) | (have hX : Regs := dX; clear hX) | (have hX : KeepSt := dX; clear hX) | clear_value dX | skip) | with_reducible apply Dev.zeBusy_canonical | (apply Dev.Canonical.mk <;> (try dsimp only) <;> with_reducible first | exact Dev.Canonical.words ‹_› | exact Dev.Canonical.eff ‹_› | exact Dev.Canonical.keep ‹_› | exact Dev.Canonical.cells ‹_› | exact Dev.Canonical.err ‹_› | exact Dev.Canonical.poison ‹_› | exact Sparse.wf_put (Dev.Canonical.words ‹_›) | exact Sparse.wf_put (Dev.Canonical.eff ‹_›) | exact Sparse.wf_put (Dev.Canonical.cells ‹_›) | exact Sparse.wf_put (Dev.Canonical.err ‹_›) | exact Sparse.wf_put (Dev.Canonical.poison ‹_›) | exact keepStore_wf (Dev.Canonical.keep ‹_›)))

theorem execZeJobStart_canonical {z : Fin 20} {host : List (Nat × List Byte)} {s : State} {st' : State} (hcan : s.dev.Canonical) (ht : execZeJobStart z host s = .next st') : st'.dev.Canonical := by
  unfold execZeJobStart at ht
  refine run_canonical hcan ht ?_
  intro d hd
  with_reducible refine ite_canonical hd ?_
  split
  · exact hd
  · with_reducible refine ite_canonical ?_ ?_
    · split
      · with_reducible exact Dev.startJob_canonical hd
      · exact hd
    · dsimp only
      repeat' (first | (with_reducible first | apply Dev.startJob_canonical | apply Dev.ringFault_canonical | apply Dev.setFlag_canonical | apply Dev.set_canonical) | (apply Dev.Canonical.mk <;> (try dsimp only) <;> with_reducible first | exact Dev.Canonical.words ‹_› | exact Dev.Canonical.eff ‹_› | exact Dev.Canonical.keep ‹_› | exact Dev.Canonical.cells ‹_› | exact Dev.Canonical.err ‹_› | exact Dev.Canonical.poison ‹_› | exact Sparse.wf_put (Dev.Canonical.words ‹_›) | exact Sparse.wf_put (Dev.Canonical.eff ‹_›) | exact Sparse.wf_put (Dev.Canonical.cells ‹_›) | exact Sparse.wf_put (Dev.Canonical.err ‹_›) | exact Sparse.wf_put (Dev.Canonical.poison ‹_›) | exact keepStore_wf (Dev.Canonical.keep ‹_›)) | split)

theorem Dev.spoilBuffers_canonical {d : Dev} {dstSp : Nat} {bufs : List (Nat × Nat)} (hd : d.Canonical) : (Dev.spoilBuffers d dstSp bufs).Canonical := by
  unfold Dev.spoilBuffers
  repeat' (with_reducible first | assumption | refine foldl_canonical ?_ (fun d x hd => ?_) | apply Dev.poolWrite_canonical | apply Dev.tookFree_canonical | apply ite_canonical)

theorem Dev.recJobDone_canonical {d : Dev} (hd : d.Canonical) : (Dev.recJobDone d).Canonical := by
  unfold Dev.recJobDone
  repeat' (first | with_reducible assumption | ((try lift_lets); intro dX; first | (have hX : MemSt := dX; clear hX) | (have hX : Regs := dX; clear hX) | (have hX : KeepSt := dX; clear hX) | clear_value dX | skip) | (with_reducible first | apply Dev.setClip_canonical | apply Dev.clipAddAll_canonical | apply Dev.recPump_canonical | apply ite_canonical | refine fst_of_eq ‹_› ?_) | (apply Dev.Canonical.mk <;> (try dsimp only) <;> with_reducible first | exact Dev.Canonical.words ‹_› | exact Dev.Canonical.eff ‹_› | exact Dev.Canonical.keep ‹_› | exact Dev.Canonical.cells ‹_› | exact Dev.Canonical.err ‹_› | exact Dev.Canonical.poison ‹_› | exact Sparse.wf_put (Dev.Canonical.words ‹_›) | exact Sparse.wf_put (Dev.Canonical.eff ‹_›) | exact Sparse.wf_put (Dev.Canonical.cells ‹_›) | exact Sparse.wf_put (Dev.Canonical.err ‹_›) | exact Sparse.wf_put (Dev.Canonical.poison ‹_›) | exact keepStore_wf (Dev.Canonical.keep ‹_›)) | split | dsimp only)

theorem Dev.jobDone_canonical {d : Dev} {z : Nat} (hd : d.Canonical) : (Dev.jobDone d z).Canonical := by
  unfold Dev.jobDone
  repeat' (first | (with_reducible first | assumption | refine foldl_canonical ?_ (fun d x hd => ?_)) | ((try lift_lets); intro d1; refine (fun (hd1 : Dev.Canonical d1) => ?_) ?_; (try clear_value d1); on_goal 2 => unfold d1) | ((try lift_lets); intro dX; first | (have hX : MemSt := dX; clear hX) | (have hX : Regs := dX; clear hX) | (have hX : KeepSt := dX; clear hX) | clear_value dX | skip) | (with_reducible first | apply Dev.zeBusy_canonical | apply Dev.recJobDone_canonical | apply Dev.spoilBuffers_canonical | apply Dev.jobComplete_canonical | apply Dev.spaceWrite_canonical | apply ite_canonical) | (apply Dev.Canonical.mk <;> (try dsimp only) <;> with_reducible first | exact Dev.Canonical.words ‹_› | exact Dev.Canonical.eff ‹_› | exact Dev.Canonical.keep ‹_› | exact Dev.Canonical.cells ‹_› | exact Dev.Canonical.err ‹_› | exact Dev.Canonical.poison ‹_› | exact Sparse.wf_put (Dev.Canonical.words ‹_›) | exact Sparse.wf_put (Dev.Canonical.eff ‹_›) | exact Sparse.wf_put (Dev.Canonical.cells ‹_›) | exact Sparse.wf_put (Dev.Canonical.err ‹_›) | exact Sparse.wf_put (Dev.Canonical.poison ‹_›) | exact keepStore_wf (Dev.Canonical.keep ‹_›)) | split)

theorem Dev.abortJob_canonical {d : Dev} {r : Nat} (hd : d.Canonical) : (Dev.abortJob d r).Canonical := by
  unfold Dev.abortJob
  repeat' (first | with_reducible assumption | ((try lift_lets); intro d1; refine (fun (hd1 : Dev.Canonical d1) => ?_) ?_; (try clear_value d1); on_goal 2 => unfold d1) | ((try lift_lets); intro dX; first | (have hX : MemSt := dX; clear hX) | (have hX : Regs := dX; clear hX) | (have hX : KeepSt := dX; clear hX) | clear_value dX | skip) | with_reducible apply Dev.jobDone_canonical | (apply Dev.Canonical.mk <;> (try dsimp only) <;> with_reducible first | exact Dev.Canonical.words ‹_› | exact Dev.Canonical.eff ‹_› | exact Dev.Canonical.keep ‹_› | exact Dev.Canonical.cells ‹_› | exact Dev.Canonical.err ‹_› | exact Dev.Canonical.poison ‹_› | exact Sparse.wf_put (Dev.Canonical.words ‹_›) | exact Sparse.wf_put (Dev.Canonical.eff ‹_›) | exact Sparse.wf_put (Dev.Canonical.cells ‹_›) | exact Sparse.wf_put (Dev.Canonical.err ‹_›) | exact Sparse.wf_put (Dev.Canonical.poison ‹_›) | exact keepStore_wf (Dev.Canonical.keep ‹_›)) | split)

theorem Dev.ringAbort_canonical {d : Dev} {r : Nat} (hd : d.Canonical) : (Dev.ringAbort d r).Canonical := by
  unfold Dev.ringAbort
  repeat' (with_reducible first | assumption | apply Dev.abortJob_canonical | apply Dev.setFlag_canonical)

theorem execZeRingAbort_canonical {r : Fin 8} {s : State} {st' : State} (hcan : s.dev.Canonical) (ht : execZeRingAbort r s = .next st') : st'.dev.Canonical := by
  unfold execZeRingAbort at ht
  refine run_canonical hcan ht ?_
  intro d hd
  repeat' (with_reducible first | assumption | refine Dev.gateWrite_canonical (hf := fun d hd => ?_) ?_ | apply Dev.ringAbort_canonical)

theorem execEp0LinkDown_canonical {s : State} {st' : State} (hcan : s.dev.Canonical) (ht : execEp0LinkDown s = .next st') : st'.dev.Canonical := by
  unfold execEp0LinkDown at ht
  refine run_canonical hcan ht ?_
  intro d hd
  repeat' (first | (with_reducible first | assumption | refine foldl_canonical ?_ (fun d x hd => ?_) | apply Dev.abortJob_canonical | apply ite_canonical) | (apply Dev.Canonical.mk <;> (try dsimp only) <;> with_reducible first | exact Dev.Canonical.words ‹_› | exact Dev.Canonical.eff ‹_› | exact Dev.Canonical.keep ‹_› | exact Dev.Canonical.cells ‹_› | exact Dev.Canonical.err ‹_› | exact Dev.Canonical.poison ‹_› | exact Sparse.wf_put (Dev.Canonical.words ‹_›) | exact Sparse.wf_put (Dev.Canonical.eff ‹_›) | exact Sparse.wf_put (Dev.Canonical.cells ‹_›) | exact Sparse.wf_put (Dev.Canonical.err ‹_›) | exact Sparse.wf_put (Dev.Canonical.poison ‹_›) | exact keepStore_wf (Dev.Canonical.keep ‹_›)))

theorem execEp0LinkUp_canonical {s : State} {st' : State} (hcan : s.dev.Canonical) (ht : execEp0LinkUp s = .next st') : st'.dev.Canonical := by
  unfold execEp0LinkUp at ht
  refine run_canonical hcan ht ?_
  intro d hd
  repeat' (apply Dev.Canonical.mk <;> (try dsimp only) <;> with_reducible first | exact Dev.Canonical.words ‹_› | exact Dev.Canonical.eff ‹_› | exact Dev.Canonical.keep ‹_› | exact Dev.Canonical.cells ‹_› | exact Dev.Canonical.err ‹_› | exact Dev.Canonical.poison ‹_› | exact Sparse.wf_put (Dev.Canonical.words ‹_›) | exact Sparse.wf_put (Dev.Canonical.eff ‹_›) | exact Sparse.wf_put (Dev.Canonical.cells ‹_›) | exact Sparse.wf_put (Dev.Canonical.err ‹_›) | exact Sparse.wf_put (Dev.Canonical.poison ‹_›) | exact keepStore_wf (Dev.Canonical.keep ‹_›))

/-! ### Media -/

theorem Dev.modJob_canonical {d : Dev} {f : OffJob → OffJob} (hd : d.Canonical) : (Dev.modJob d f).Canonical := by
  unfold Dev.modJob
  repeat' (first | ((try lift_lets); intro dX; first | (have hX : MemSt := dX; clear hX) | (have hX : Regs := dX; clear hX) | (have hX : KeepSt := dX; clear hX) | clear_value dX | skip) | (apply Dev.Canonical.mk <;> (try dsimp only) <;> with_reducible first | exact Dev.Canonical.words ‹_› | exact Dev.Canonical.eff ‹_› | exact Dev.Canonical.keep ‹_› | exact Dev.Canonical.cells ‹_› | exact Dev.Canonical.err ‹_› | exact Dev.Canonical.poison ‹_› | exact Sparse.wf_put (Dev.Canonical.words ‹_›) | exact Sparse.wf_put (Dev.Canonical.eff ‹_›) | exact Sparse.wf_put (Dev.Canonical.cells ‹_›) | exact Sparse.wf_put (Dev.Canonical.err ‹_›) | exact Sparse.wf_put (Dev.Canonical.poison ‹_›) | exact keepStore_wf (Dev.Canonical.keep ‹_›)))

theorem Dev.offRecord_canonical {d : Dev} {type : Nat} {body : List Byte} (hd : d.Canonical) : (Dev.offRecord d type body).Canonical := by
  unfold Dev.offRecord
  repeat' (first | with_reducible assumption | ((try lift_lets); intro dX; first | (have hX : MemSt := dX; clear hX) | (have hX : Regs := dX; clear hX) | (have hX : KeepSt := dX; clear hX) | clear_value dX | skip) | (with_reducible first | apply Dev.modJob_canonical | apply ite_canonical) | split)

theorem Dev.offParse_canonical {x0 : Nat} {x1 : Dev} (hx1 : x1.Canonical) : (Dev.offParse x0 x1).Canonical := by
  induction x0 generalizing x1 hx1 with
  | zero => exact hx1
  | succ n ih =>
    unfold Dev.offParse
    repeat' (first | (with_reducible first | assumption | apply ih) | ((try lift_lets); intro dX; first | (have hX : MemSt := dX; clear hX) | (have hX : Regs := dX; clear hX) | (have hX : KeepSt := dX; clear hX) | clear_value dX | skip) | (with_reducible first | apply Dev.modJob_canonical | apply Dev.offRecord_canonical | apply ite_canonical) | split)

theorem Dev.offRead_canonical {d : Dev} (hd : d.Canonical) : (Dev.offRead d).Canonical := by
  unfold Dev.offRead
  repeat' (first | with_reducible assumption | ((try lift_lets); intro dX; first | (have hX : MemSt := dX; clear hX) | (have hX : Regs := dX; clear hX) | (have hX : KeepSt := dX; clear hX) | clear_value dX | skip) | (with_reducible first | apply Dev.nvmeRead_canonical | apply Dev.modJob_canonical | apply ite_canonical) | split)

theorem Dev.offStart_canonical {x0 : Nat} {x1 : Dev} (hx1 : x1.Canonical) : (Dev.offStart x0 x1).Canonical := by
  induction x0 generalizing x1 hx1 with
  | zero => exact hx1
  | succ n ih =>
    unfold Dev.offStart
    split
    · exact hx1
    · split
      · exact hx1
      · repeat' (first | (with_reducible first | assumption | apply ih) | ((try lift_lets); intro d1; refine (fun (hd1 : Dev.Canonical d1) => ?_) ?_; (try clear_value d1); on_goal 2 => unfold d1) | ((try lift_lets); intro dX; first | (have hX : MemSt := dX; clear hX) | (have hX : Regs := dX; clear hX) | (have hX : KeepSt := dX; clear hX) | clear_value dX | skip) | (with_reducible first | apply Dev.slotSeen_canonical | apply Dev.modJob_canonical | apply Dev.rawTake_canonical | apply Dev.rawModify_canonical | apply Dev.poolWrite_canonical | apply Dev.modCtx_canonical | apply Dev.devStart_canonical | apply ite_canonical))

theorem Dev.offPump_canonical {d : Dev} (hd : d.Canonical) : (Dev.offPump d).Canonical := by
  unfold Dev.offPump
  repeat' (with_reducible first | assumption | apply Dev.offRead_canonical | apply Dev.offStart_canonical | apply Dev.offParse_canonical)

theorem Dev.jobBad_canonical {d : Dev} (hd : d.Canonical) : (Dev.jobBad d).Canonical := by
  unfold Dev.jobBad
  repeat' (with_reducible first | assumption | apply Dev.modJob_canonical)

theorem Dev.offDirectory_canonical {d : Dev} {k : Nat} {data : List Byte} (hd : d.Canonical) : (Dev.offDirectory d k data).Canonical := by
  unfold Dev.offDirectory
  repeat' (first | with_reducible assumption | ((try lift_lets); intro dX; first | (have hX : MemSt := dX; clear hX) | (have hX : Regs := dX; clear hX) | (have hX : KeepSt := dX; clear hX) | clear_value dX | skip) | (with_reducible first | apply Dev.modJob_canonical | apply Dev.nvmeRead_canonical | apply Dev.offPump_canonical | apply Dev.jobBad_canonical | apply ite_canonical) | split)

theorem Dev.offHolds_canonical {d : Dev} {j : OffJob} (hd : d.Canonical) : (Dev.offHolds d j).Canonical := by
  unfold Dev.offHolds
  repeat' (first | ((try lift_lets); intro dX; first | (have hX : MemSt := dX; clear hX) | (have hX : Regs := dX; clear hX) | (have hX : KeepSt := dX; clear hX) | clear_value dX | skip) | (apply Dev.Canonical.mk <;> (try dsimp only) <;> with_reducible first | exact Dev.Canonical.words ‹_› | exact Dev.Canonical.eff ‹_› | exact Dev.Canonical.keep ‹_› | exact Dev.Canonical.cells ‹_› | exact Dev.Canonical.err ‹_› | exact Dev.Canonical.poison ‹_› | exact Sparse.wf_put (Dev.Canonical.words ‹_›) | exact Sparse.wf_put (Dev.Canonical.eff ‹_›) | exact Sparse.wf_put (Dev.Canonical.cells ‹_›) | exact Sparse.wf_put (Dev.Canonical.err ‹_›) | exact Sparse.wf_put (Dev.Canonical.poison ‹_›) | exact keepStore_wf (Dev.Canonical.keep ‹_›)))

theorem Dev.offFrom_canonical {d : Dev} {j : OffJob} {bay : Nat} {dir : Option Nat} {ok : Bool} (hd : d.Canonical) : (Dev.offFrom d j bay dir ok).Canonical := by
  unfold Dev.offFrom
  repeat' (first | (with_reducible first | assumption | apply Dev.offHolds_canonical | apply Dev.nvmeRead_canonical | apply ite_canonical) | split)

theorem Dev.offBegin_canonical {d : Dev} (hd : d.Canonical) : (Dev.offBegin d).Canonical := by
  unfold Dev.offBegin
  repeat' (first | with_reducible assumption | ((try lift_lets); intro dX; first | (have hX : MemSt := dX; clear hX) | (have hX : Regs := dX; clear hX) | (have hX : KeepSt := dX; clear hX) | clear_value dX | skip) | with_reducible apply Dev.offFrom_canonical)

theorem execOffloadJobStart_canonical {s : State} {st' : State} (hcan : s.dev.Canonical) (ht : execOffloadJobStart s = .next st') : st'.dev.Canonical := by
  unfold execOffloadJobStart at ht
  refine run_canonical hcan ht ?_
  intro d hd
  repeat' (with_reducible first | assumption | apply Dev.offBegin_canonical | apply ite_canonical)

theorem Dev.offFinish_canonical {d : Dev} {status : Nat} (hd : d.Canonical) : (Dev.offFinish d status).Canonical := by
  unfold Dev.offFinish
  repeat' (first | with_reducible assumption | ((try lift_lets); intro d1; refine (fun (hd1 : Dev.Canonical d1) => ?_) ?_; (try clear_value d1); on_goal 2 => unfold d1) | ((try lift_lets); intro dX; first | (have hX : MemSt := dX; clear hX) | (have hX : Regs := dX; clear hX) | (have hX : KeepSt := dX; clear hX) | clear_value dX | skip) | (with_reducible first | apply Dev.poolWrite_canonical | apply Dev.bump_canonical | apply Dev.eventAt_canonical | apply Dev.sendMsix_canonical) | (apply Dev.Canonical.mk <;> (try dsimp only) <;> with_reducible first | exact Dev.Canonical.words ‹_› | exact Dev.Canonical.eff ‹_› | exact Dev.Canonical.keep ‹_› | exact Dev.Canonical.cells ‹_› | exact Dev.Canonical.err ‹_› | exact Dev.Canonical.poison ‹_› | exact Sparse.wf_put (Dev.Canonical.words ‹_›) | exact Sparse.wf_put (Dev.Canonical.eff ‹_›) | exact Sparse.wf_put (Dev.Canonical.cells ‹_›) | exact Sparse.wf_put (Dev.Canonical.err ‹_›) | exact Sparse.wf_put (Dev.Canonical.poison ‹_›) | exact keepStore_wf (Dev.Canonical.keep ‹_›)) | split)

theorem execOffloadJobDone_canonical {s : State} {st' : State} (hcan : s.dev.Canonical) (ht : execOffloadJobDone s = .next st') : st'.dev.Canonical := by
  unfold execOffloadJobDone at ht
  refine run_canonical hcan ht ?_
  intro d hd
  repeat' (first | (with_reducible first | assumption | apply Dev.offFinish_canonical | apply ite_canonical) | split)

theorem Dev.offAbort_canonical {d : Dev} (hd : d.Canonical) : (Dev.offAbort d).Canonical := by
  unfold Dev.offAbort
  repeat' (first | with_reducible assumption | ((try lift_lets); intro d1; refine (fun (hd1 : Dev.Canonical d1) => ?_) ?_; (try clear_value d1); on_goal 2 => unfold d1) | with_reducible apply Dev.offFinish_canonical | (apply Dev.Canonical.mk <;> (try dsimp only) <;> with_reducible first | exact Dev.Canonical.words ‹_› | exact Dev.Canonical.eff ‹_› | exact Dev.Canonical.keep ‹_› | exact Dev.Canonical.cells ‹_› | exact Dev.Canonical.err ‹_› | exact Dev.Canonical.poison ‹_› | exact Sparse.wf_put (Dev.Canonical.words ‹_›) | exact Sparse.wf_put (Dev.Canonical.eff ‹_›) | exact Sparse.wf_put (Dev.Canonical.cells ‹_›) | exact Sparse.wf_put (Dev.Canonical.err ‹_›) | exact Sparse.wf_put (Dev.Canonical.poison ‹_›) | exact keepStore_wf (Dev.Canonical.keep ‹_›)))

theorem Dev.decodeTile_canonical {d : Dev} (hd : d.Canonical) : (Dev.decodeTile d).Canonical := by
  unfold Dev.decodeTile
  repeat' (first | with_reducible assumption | ((try lift_lets); intro dX; first | (have hX : MemSt := dX; clear hX) | (have hX : Regs := dX; clear hX) | (have hX : KeepSt := dX; clear hX) | clear_value dX | skip) | (with_reducible first | apply Dev.modJob_canonical | apply Dev.bump_canonical | refine Dev.limited_canonical (hf := fun d hd => ?_) ?_ | apply Dev.eventCtx_canonical | apply Dev.offPump_canonical) | split)

theorem execTileDecoded_canonical {z : Fin 20} {s : State} {st' : State} (hcan : s.dev.Canonical) (ht : execTileDecoded z s = .next st') : st'.dev.Canonical := by
  unfold execTileDecoded at ht
  refine run_canonical hcan ht ?_
  intro d hd
  repeat' (with_reducible first | assumption | apply Dev.decodeTile_canonical | apply ite_canonical)

theorem Dev.developDone_canonical {d : Dev} {n : Nat} {hosts : List (List Nat)} (hd : d.Canonical) : (Dev.developDone d n hosts).Canonical := by
  unfold Dev.developDone
  repeat' (first | with_reducible assumption | ((try lift_lets); intro d1; refine (fun (hd1 : Dev.Canonical d1) => ?_) ?_; (try clear_value d1); on_goal 2 => unfold d1) | (with_reducible first | apply Dev.frameDeveloped_canonical | apply Dev.modJob_canonical | apply Dev.offPump_canonical | apply ite_canonical) | split)

theorem Dev.offData_canonical {d : Dev} {k : Nat} {data : List Byte} (hd : d.Canonical) : (Dev.offData d k data).Canonical := by
  unfold Dev.offData
  repeat' (first | (with_reducible first | assumption | apply Dev.offDirectory_canonical | apply Dev.modJob_canonical | apply Dev.offPump_canonical | apply ite_canonical) | split)

theorem Dev.offLost_canonical {d : Dev} {k : Nat} {len : Nat} (hd : d.Canonical) : (Dev.offLost d k len).Canonical := by
  unfold Dev.offLost
  repeat' (first | with_reducible assumption | ((try lift_lets); intro d1; refine (fun (hd1 : Dev.Canonical d1) => ?_) ?_; (try clear_value d1); on_goal 2 => unfold d1) | ((try lift_lets); intro dX; first | (have hX : MemSt := dX; clear hX) | (have hX : Regs := dX; clear hX) | (have hX : KeepSt := dX; clear hX) | clear_value dX | skip) | (with_reducible first | apply Dev.modJob_canonical | apply Dev.eventAt_canonical | apply Dev.offData_canonical | apply ite_canonical) | split)

theorem Dev.modRecov_canonical {d : Dev} {f : RecovSt → RecovSt} (hd : d.Canonical) : (Dev.modRecov d f).Canonical := by
  unfold Dev.modRecov
  repeat' (first | ((try lift_lets); intro dX; first | (have hX : MemSt := dX; clear hX) | (have hX : Regs := dX; clear hX) | (have hX : KeepSt := dX; clear hX) | clear_value dX | skip) | (apply Dev.Canonical.mk <;> (try dsimp only) <;> with_reducible first | exact Dev.Canonical.words ‹_› | exact Dev.Canonical.eff ‹_› | exact Dev.Canonical.keep ‹_› | exact Dev.Canonical.cells ‹_› | exact Dev.Canonical.err ‹_› | exact Dev.Canonical.poison ‹_› | exact Sparse.wf_put (Dev.Canonical.words ‹_›) | exact Sparse.wf_put (Dev.Canonical.eff ‹_›) | exact Sparse.wf_put (Dev.Canonical.cells ‹_›) | exact Sparse.wf_put (Dev.Canonical.err ‹_›) | exact Sparse.wf_put (Dev.Canonical.poison ‹_›) | exact keepStore_wf (Dev.Canonical.keep ‹_›)))

theorem Dev.recovFinish_canonical {d : Dev} (hd : d.Canonical) : (Dev.recovFinish d).Canonical := by
  unfold Dev.recovFinish
  repeat' (first | (with_reducible first | assumption | refine foldl_canonical ?_ (fun d x hd => ?_)) | ((try lift_lets); intro d1; refine (fun (hd1 : Dev.Canonical d1) => ?_) ?_; (try clear_value d1); on_goal 2 => unfold d1) | ((try lift_lets); intro dX; first | (have hX : MemSt := dX; clear hX) | (have hX : Regs := dX; clear hX) | (have hX : KeepSt := dX; clear hX) | clear_value dX | skip) | (with_reducible first | apply Dev.nvme_canonical | apply Dev.modDrive_canonical | apply Dev.volumeHeader_canonical | apply Dev.recState_canonical | apply Dev.event_canonical) | (apply Dev.Canonical.mk <;> (try dsimp only) <;> with_reducible first | exact Dev.Canonical.words ‹_› | exact Dev.Canonical.eff ‹_› | exact Dev.Canonical.keep ‹_› | exact Dev.Canonical.cells ‹_› | exact Dev.Canonical.err ‹_› | exact Dev.Canonical.poison ‹_› | exact Sparse.wf_put (Dev.Canonical.words ‹_›) | exact Sparse.wf_put (Dev.Canonical.eff ‹_›) | exact Sparse.wf_put (Dev.Canonical.cells ‹_›) | exact Sparse.wf_put (Dev.Canonical.err ‹_›) | exact Sparse.wf_put (Dev.Canonical.poison ‹_›) | exact keepStore_wf (Dev.Canonical.keep ‹_›)) | split)

theorem Dev.recovRead_canonical {d : Dev} (hd : d.Canonical) : (Dev.recovRead d).Canonical := by
  unfold Dev.recovRead
  repeat' (first | with_reducible assumption | ((try lift_lets); intro dX; first | (have hX : MemSt := dX; clear hX) | (have hX : Regs := dX; clear hX) | (have hX : KeepSt := dX; clear hX) | clear_value dX | skip) | (with_reducible first | apply Dev.nvmeRead_canonical | apply Dev.recovFinish_canonical) | split)

theorem Dev.recovWalkEnd_canonical {d : Dev} (hd : d.Canonical) : (Dev.recovWalkEnd d).Canonical := by
  unfold Dev.recovWalkEnd
  repeat' (first | with_reducible assumption | ((try lift_lets); intro d1; refine (fun (hd1 : Dev.Canonical d1) => ?_) ?_; (try clear_value d1); on_goal 2 => unfold d1) | (with_reducible first | apply Dev.modRecov_canonical | apply Dev.recovRead_canonical | apply Dev.recovFinish_canonical | apply ite_canonical) | split)

theorem Dev.recovWalk_canonical {x0 : Nat} {x1 : Dev} (hx1 : x1.Canonical) : (Dev.recovWalk x0 x1).Canonical := by
  induction x0 generalizing x1 hx1 with
  | zero => exact hx1
  | succ n ih =>
    unfold Dev.recovWalk
    repeat' (first | (with_reducible first | assumption | apply ih) | ((try lift_lets); intro d1; refine (fun (hd1 : Dev.Canonical d1) => ?_) ?_; (try clear_value d1); on_goal 2 => unfold d1) | (with_reducible first | apply Dev.recovRead_canonical | apply Dev.recovWalkEnd_canonical | apply Dev.modRecov_canonical | apply ite_canonical) | split)

theorem Dev.recovData_canonical {d : Dev} {data : List Byte} (hd : d.Canonical) : (Dev.recovData d data).Canonical := by
  unfold Dev.recovData
  repeat' (first | with_reducible assumption | ((try lift_lets); intro dX; first | (have hX : MemSt := dX; clear hX) | (have hX : Regs := dX; clear hX) | (have hX : KeepSt := dX; clear hX) | clear_value dX | skip) | (with_reducible first | apply Dev.modRecov_canonical | apply Dev.recovRead_canonical | apply Dev.recovFinish_canonical | apply Dev.recovWalk_canonical | apply ite_canonical) | split)

theorem Dev.recovTry_canonical {d : Dev} (hd : d.Canonical) : (Dev.recovTry d).Canonical := by
  unfold Dev.recovTry
  repeat' (first | with_reducible assumption | ((try lift_lets); intro dX; first | (have hX : MemSt := dX; clear hX) | (have hX : Regs := dX; clear hX) | (have hX : KeepSt := dX; clear hX) | clear_value dX | skip) | (with_reducible first | apply Dev.recState_canonical | apply Dev.recovRead_canonical | apply ite_canonical) | (apply Dev.Canonical.mk <;> (try dsimp only) <;> with_reducible first | exact Dev.Canonical.words ‹_› | exact Dev.Canonical.eff ‹_› | exact Dev.Canonical.keep ‹_› | exact Dev.Canonical.cells ‹_› | exact Dev.Canonical.err ‹_› | exact Dev.Canonical.poison ‹_› | exact Sparse.wf_put (Dev.Canonical.words ‹_›) | exact Sparse.wf_put (Dev.Canonical.eff ‹_›) | exact Sparse.wf_put (Dev.Canonical.cells ‹_›) | exact Sparse.wf_put (Dev.Canonical.err ‹_›) | exact Sparse.wf_put (Dev.Canonical.poison ‹_›) | exact keepStore_wf (Dev.Canonical.keep ‹_›)) | split)

theorem Dev.readAgain_canonical {d : Dev} {k : Nat} {c : NvmeCmd} (hd : d.Canonical) : (Dev.readAgain d k c).Canonical := by
  unfold Dev.readAgain
  repeat' (first | with_reducible assumption | ((try lift_lets); intro dX; first | (have hX : MemSt := dX; clear hX) | (have hX : Regs := dX; clear hX) | (have hX : KeepSt := dX; clear hX) | clear_value dX | skip) | (with_reducible first | apply Dev.nvmeRead_canonical | apply Dev.offLost_canonical | apply Dev.recovRead_canonical | apply ite_canonical) | split)

theorem Dev.driveFail_canonical {d : Dev} {k : Nat} {cause : Nat} (hd : d.Canonical) : (Dev.driveFail d k cause).Canonical := by
  unfold Dev.driveFail
  repeat' (first | (with_reducible first | assumption | refine foldl_canonical ?_ (fun d x hd => ?_)) | ((try lift_lets); intro d1; refine (fun (hd1 : Dev.Canonical d1) => ?_) ?_; (try clear_value d1); on_goal 2 => unfold d1) | ((try lift_lets); intro dX; first | (have hX : MemSt := dX; clear hX) | (have hX : Regs := dX; clear hX) | (have hX : KeepSt := dX; clear hX) | clear_value dX | skip) | (with_reducible first | apply Dev.setFlag_canonical | apply Dev.set_canonical | apply Dev.modDrive_canonical | apply Dev.eventAt_canonical | apply Dev.closeClip_canonical | apply Dev.clipSettle_canonical | apply Dev.flushSettle_canonical | apply Dev.readAgain_canonical | apply Dev.recovTry_canonical | apply ite_canonical) | (apply Dev.Canonical.mk <;> (try dsimp only) <;> with_reducible first | exact Dev.Canonical.words ‹_› | exact Dev.Canonical.eff ‹_› | exact Dev.Canonical.keep ‹_› | exact Dev.Canonical.cells ‹_› | exact Dev.Canonical.err ‹_› | exact Dev.Canonical.poison ‹_› | exact Sparse.wf_put (Dev.Canonical.words ‹_›) | exact Sparse.wf_put (Dev.Canonical.eff ‹_›) | exact Sparse.wf_put (Dev.Canonical.cells ‹_›) | exact Sparse.wf_put (Dev.Canonical.err ‹_›) | exact Sparse.wf_put (Dev.Canonical.poison ‹_›) | exact keepStore_wf (Dev.Canonical.keep ‹_›)))

theorem execPcieLinkDown_canonical {k : Fin 4} {s : State} {st' : State} (hcan : s.dev.Canonical) (ht : execPcieLinkDown k s = .next st') : st'.dev.Canonical := by
  unfold execPcieLinkDown at ht
  refine run_canonical hcan ht ?_
  intro d hd
  repeat' (first | with_reducible assumption | ((try lift_lets); intro d1; refine (fun (hd1 : Dev.Canonical d1) => ?_) ?_; (try clear_value d1); on_goal 2 => unfold d1) | (with_reducible first | apply Dev.modDrive_canonical | apply Dev.set_canonical | apply Dev.driveFail_canonical | apply ite_canonical))

theorem execNvmeTimeout_canonical {k : Fin 4} {s : State} {st' : State} (hcan : s.dev.Canonical) (ht : execNvmeTimeout k s = .next st') : st'.dev.Canonical := by
  unfold execNvmeTimeout at ht
  refine run_canonical hcan ht ?_
  intro d hd
  repeat' (with_reducible first | assumption | apply Dev.bump_canonical | apply Dev.driveFail_canonical | apply ite_canonical)

theorem execPcieLinkUp_canonical {k : Fin 4} {gen : Nat} {width : Nat} {s : State} {st' : State} (hcan : s.dev.Canonical) (ht : execPcieLinkUp k gen width s = .next st') : st'.dev.Canonical := by
  unfold execPcieLinkUp at ht
  refine run_canonical hcan ht ?_
  intro d hd
  repeat' (first | with_reducible assumption | ((try lift_lets); intro d1; refine (fun (hd1 : Dev.Canonical d1) => ?_) ?_; (try clear_value d1); on_goal 2 => unfold d1) | ((try lift_lets); intro dX; first | (have hX : MemSt := dX; clear hX) | (have hX : Regs := dX; clear hX) | (have hX : KeepSt := dX; clear hX) | clear_value dX | skip) | (with_reducible first | apply Dev.modDrive_canonical | apply Dev.set_canonical | apply Dev.nvme_canonical | apply ite_canonical))

theorem Dev.showLastF_canonical {d : Dev} {n : Nat} (hd : d.Canonical) : (Dev.showLastF d n).Canonical := by
  unfold Dev.showLastF
  repeat' (first | with_reducible assumption | ((try lift_lets); intro dX; first | (have hX : MemSt := dX; clear hX) | (have hX : Regs := dX; clear hX) | (have hX : KeepSt := dX; clear hX) | clear_value dX | skip) | (with_reducible first | apply Dev.setClip_canonical | apply Dev.set_canonical) | split)

theorem Dev.writeDone_canonical {d : Dev} {ctx : Option Nat} (hd : d.Canonical) : (Dev.writeDone d ctx).Canonical := by
  unfold Dev.writeDone
  repeat' (first | with_reducible assumption | ((try lift_lets); intro d1; refine (fun (hd1 : Dev.Canonical d1) => ?_) ?_; (try clear_value d1); on_goal 2 => unfold d1) | (with_reducible first | apply Dev.showLastF_canonical | apply Dev.clipSettle_canonical | apply Dev.flushSettle_canonical | apply Dev.recStart_canonical | apply ite_canonical) | split)

theorem Dev.driveReady_canonical {d : Dev} {k : Nat} (hd : d.Canonical) : (Dev.driveReady d k).Canonical := by
  unfold Dev.driveReady
  repeat' (first | with_reducible assumption | ((try lift_lets); intro d1; refine (fun (hd1 : Dev.Canonical d1) => ?_) ?_; (try clear_value d1); on_goal 2 => unfold d1) | (with_reducible first | apply Dev.setFlag_canonical | apply Dev.set_canonical | apply Dev.modDrive_canonical | apply Dev.nvmeRead_canonical | apply ite_canonical))

theorem Dev.headerData_canonical {d : Dev} {k : Nat} {data : List Byte} (hd : d.Canonical) : (Dev.headerData d k data).Canonical := by
  unfold Dev.headerData
  repeat' (first | with_reducible assumption | ((try lift_lets); intro d1; refine (fun (hd1 : Dev.Canonical d1) => ?_) ?_; (try clear_value d1); on_goal 2 => unfold d1) | ((try lift_lets); intro dX; first | (have hX : MemSt := dX; clear hX) | (have hX : Regs := dX; clear hX) | (have hX : KeepSt := dX; clear hX) | clear_value dX | skip) | (with_reducible first | apply Dev.modDrive_canonical | apply Dev.recovTry_canonical))

theorem Dev.identifyCtrl_canonical {d : Dev} {k : Nat} {data : List Byte} (hd : d.Canonical) : (Dev.identifyCtrl d k data).Canonical := by
  unfold Dev.identifyCtrl
  repeat' (first | with_reducible assumption | ((try lift_lets); intro d1; refine (fun (hd1 : Dev.Canonical d1) => ?_) ?_; (try clear_value d1); on_goal 2 => unfold d1) | ((try lift_lets); intro dX; first | (have hX : MemSt := dX; clear hX) | (have hX : Regs := dX; clear hX) | (have hX : KeepSt := dX; clear hX) | clear_value dX | skip) | (with_reducible first | apply Dev.modDrive_canonical | apply Dev.driveFail_canonical | apply Dev.nvme_canonical | apply ite_canonical))

theorem Dev.identifyNs_canonical {d : Dev} {k : Nat} {data : List Byte} (hd : d.Canonical) : (Dev.identifyNs d k data).Canonical := by
  unfold Dev.identifyNs
  repeat' (first | (with_reducible first | assumption | refine foldl_canonical ?_ (fun d x hd => ?_)) | ((try lift_lets); intro d1; refine (fun (hd1 : Dev.Canonical d1) => ?_) ?_; (try clear_value d1); on_goal 2 => unfold d1) | ((try lift_lets); intro dX; first | (have hX : MemSt := dX; clear hX) | (have hX : Regs := dX; clear hX) | (have hX : KeepSt := dX; clear hX) | clear_value dX | skip) | (with_reducible first | apply Dev.driveFail_canonical | apply Dev.set_canonical | apply Dev.nvme_canonical | apply ite_canonical))

theorem execNvmeCompletion_canonical {k : Fin 4} {num : Nat} {status : Fin 3} {data : List Byte} {s : State} {st' : State} (hcan : s.dev.Canonical) (ht : execNvmeCompletion k num status data s = .next st') : st'.dev.Canonical := by
  unfold execNvmeCompletion at ht
  refine run_canonical hcan ht ?_
  intro d hd
  repeat' (first | with_reducible assumption | ((try lift_lets); intro d1; refine (fun (hd1 : Dev.Canonical d1) => ?_) ?_; (try clear_value d1); on_goal 2 => unfold d1) | ((try lift_lets); intro dX; first | (have hX : MemSt := dX; clear hX) | (have hX : Regs := dX; clear hX) | (have hX : KeepSt := dX; clear hX) | clear_value dX | skip) | (with_reducible first | apply Dev.modDrive_canonical | apply Dev.bump_canonical | apply Dev.nvmeCmd_canonical | apply Dev.setFlag_canonical | apply Dev.nvme_canonical | apply Dev.driveFail_canonical | apply Dev.identifyCtrl_canonical | apply Dev.identifyNs_canonical | apply Dev.driveReady_canonical | apply Dev.writeDone_canonical | apply Dev.headerData_canonical | apply Dev.recovData_canonical | apply Dev.offData_canonical | apply ite_canonical) | split)

end Sys2Proof.Machine
end

