-- ==== Sys2Proof/Laws/CanonicalCode.lean ====
section
/-!
SUPPORT. The canonical form (`Dev.Canonical`) is kept: sessions, coding, time, the outputs, decoders and network flows.
-/
set_option linter.all false
set_option linter.unusedTactic false
set_option linter.unreachableTactic false
namespace Sys2Proof.Machine

/-! ### Session -/

theorem Dev.modSes_canonical {d : Dev} {s : Nat} {f : SesSt → SesSt} (hd : d.Canonical) : (Dev.modSes d s f).Canonical := by
  unfold Dev.modSes
  repeat' (first | ((try lift_lets); intro dX; first | (have hX : MemSt := dX; clear hX) | (have hX : Regs := dX; clear hX) | (have hX : KeepSt := dX; clear hX) | clear_value dX | skip) | (apply Dev.Canonical.mk <;> (try dsimp only) <;> with_reducible first | exact Dev.Canonical.words ‹_› | exact Dev.Canonical.eff ‹_› | exact Dev.Canonical.keep ‹_› | exact Dev.Canonical.cells ‹_› | exact Dev.Canonical.err ‹_› | exact Dev.Canonical.poison ‹_› | exact Sparse.wf_put (Dev.Canonical.words ‹_›) | exact Sparse.wf_put (Dev.Canonical.eff ‹_›) | exact Sparse.wf_put (Dev.Canonical.cells ‹_›) | exact Sparse.wf_put (Dev.Canonical.err ‹_›) | exact Sparse.wf_put (Dev.Canonical.poison ‹_›) | exact keepStore_wf (Dev.Canonical.keep ‹_›)))

theorem Dev.modGrp_canonical {d : Dev} {g : Nat} {f : GrpSt → GrpSt} (hd : d.Canonical) : (Dev.modGrp d g f).Canonical := by
  unfold Dev.modGrp
  repeat' (first | ((try lift_lets); intro dX; first | (have hX : MemSt := dX; clear hX) | (have hX : Regs := dX; clear hX) | (have hX : KeepSt := dX; clear hX) | clear_value dX | skip) | (apply Dev.Canonical.mk <;> (try dsimp only) <;> with_reducible first | exact Dev.Canonical.words ‹_› | exact Dev.Canonical.eff ‹_› | exact Dev.Canonical.keep ‹_› | exact Dev.Canonical.cells ‹_› | exact Dev.Canonical.err ‹_› | exact Dev.Canonical.poison ‹_› | exact Sparse.wf_put (Dev.Canonical.words ‹_›) | exact Sparse.wf_put (Dev.Canonical.eff ‹_›) | exact Sparse.wf_put (Dev.Canonical.cells ‹_›) | exact Sparse.wf_put (Dev.Canonical.err ‹_›) | exact Sparse.wf_put (Dev.Canonical.poison ‹_›) | exact keepStore_wf (Dev.Canonical.keep ‹_›)))

theorem Dev.showLoad_canonical {d : Dev} (hd : d.Canonical) : (Dev.showLoad d).Canonical := by
  unfold Dev.showLoad
  repeat' (first | with_reducible assumption | ((try lift_lets); intro dX; first | (have hX : MemSt := dX; clear hX) | (have hX : Regs := dX; clear hX) | (have hX : KeepSt := dX; clear hX) | clear_value dX | skip) | with_reducible apply Dev.set_canonical)

theorem Dev.plan_canonical {d : Dev} {s : Nat} (hd : d.Canonical) : (Dev.plan d s).Canonical := by
  unfold Dev.plan
  repeat' (first | with_reducible assumption | ((try lift_lets); intro dX; first | (have hX : MemSt := dX; clear hX) | (have hX : Regs := dX; clear hX) | (have hX : KeepSt := dX; clear hX) | clear_value dX | skip) | (with_reducible first | apply Dev.modSes_canonical | apply ite_canonical))

/-! ### Rate -/

theorem Dev.foldDone_canonical {d : Dev} {s : Nat} {c : Nat} (hd : d.Canonical) : (Dev.foldDone d s c).Canonical := by
  unfold Dev.foldDone
  repeat' (with_reducible first | assumption | refine foldl_canonical ?_ (fun d x hd => ?_) | apply Dev.modSes_canonical)

theorem Dev.rcStart_canonical {d : Dev} {s : Nat} {type : Nat} {n : Nat} {pos : Nat} {gop : Nat} {left : Nat} (hd : d.Canonical) : (Dev.rcStart d s type n pos gop left).1.Canonical := by
  unfold Dev.rcStart
  repeat' (first | with_reducible assumption | ((try lift_lets); intro d1; refine (fun (hd1 : Dev.Canonical d1) => ?_) ?_; (try clear_value d1); on_goal 2 => unfold d1) | ((try lift_lets); intro dX; first | (have hX : MemSt := dX; clear hX) | (have hX : Regs := dX; clear hX) | (have hX : KeepSt := dX; clear hX) | clear_value dX | skip) | (with_reducible first | apply Dev.modSes_canonical | apply Dev.tookFree_canonical) | split)

theorem Dev.recPut_canonical {d : Dev} {s : Nat} {k : Nat} {o : Nat} {len : Nat} {v : Nat} (hd : d.Canonical) : (Dev.recPut d s k o len v).Canonical := by
  unfold Dev.recPut
  repeat' (with_reducible first | assumption | apply Dev.poolWrite_canonical)

theorem Dev.recGen_canonical {d : Dev} {s : Nat} {k : Nat} (hd : d.Canonical) : (Dev.recGen d s k).Canonical := by
  unfold Dev.recGen
  repeat' (with_reducible first | assumption | apply Dev.recPut_canonical)

theorem Dev.recOpen_canonical {d : Dev} {s : Nat} {k : Nat} {off : Nat} {len : Nat} {pic : Nat} {fseq : Nat} {sid : Nat} {type : Nat} {flags : Nat} {pts : Nat} {cto : Int} {payload : Nat} {bands : Nat} {trig : Nat} (hd : d.Canonical) : (Dev.recOpen d s k off len pic fseq sid type flags pts cto payload bands trig).Canonical := by
  unfold Dev.recOpen
  repeat' (first | with_reducible assumption | ((try lift_lets); intro d1; refine (fun (hd1 : Dev.Canonical d1) => ?_) ?_; (try clear_value d1); on_goal 2 => unfold d1) | ((try lift_lets); intro dX; first | (have hX : MemSt := dX; clear hX) | (have hX : Regs := dX; clear hX) | (have hX : KeepSt := dX; clear hX) | clear_value dX | skip) | (with_reducible first | apply Dev.poolWrite_canonical | apply Dev.bump_canonical | apply Dev.modSes_canonical))

/-! ### Coding -/

theorem Dev.showGroup_canonical {d : Dev} {g : Nat} (hd : d.Canonical) : (Dev.showGroup d g).Canonical := by
  unfold Dev.showGroup
  repeat' (first | with_reducible assumption | ((try lift_lets); intro dX; first | (have hX : MemSt := dX; clear hX) | (have hX : Regs := dX; clear hX) | (have hX : KeepSt := dX; clear hX) | clear_value dX | skip) | (with_reducible first | apply Dev.set_canonical | apply Dev.setFlag_canonical))

theorem Dev.grpStart_canonical {d : Dev} {g : Nat} {s : Nat} (hd : d.Canonical) : (Dev.grpStart d g s).Canonical := by
  unfold Dev.grpStart
  repeat' (first | with_reducible assumption | ((try lift_lets); intro d1; refine (fun (hd1 : Dev.Canonical d1) => ?_) ?_; (try clear_value d1); on_goal 2 => unfold d1) | ((try lift_lets); intro dX; first | (have hX : MemSt := dX; clear hX) | (have hX : Regs := dX; clear hX) | (have hX : KeepSt := dX; clear hX) | clear_value dX | skip) | (with_reducible first | apply Dev.modGrp_canonical | apply ite_canonical))

theorem Dev.headerRecord_canonical {d : Dev} {s : Nat} (hd : d.Canonical) : (Dev.headerRecord d s).Canonical := by
  unfold Dev.headerRecord
  repeat' (first | with_reducible assumption | ((try lift_lets); intro d1; refine (fun (hd1 : Dev.Canonical d1) => ?_) ?_; (try clear_value d1); on_goal 2 => unfold d1) | ((try lift_lets); intro dX; first | (have hX : MemSt := dX; clear hX) | (have hX : Regs := dX; clear hX) | (have hX : KeepSt := dX; clear hX) | clear_value dX | skip) | (with_reducible first | apply Dev.tookFree_canonical | apply Dev.recOpen_canonical | apply Dev.poolWrite_canonical | apply Dev.recPut_canonical | apply Dev.recGen_canonical) | split)

theorem Dev.sesBegin_canonical {d : Dev} {s : Nat} (hd : d.Canonical) : (Dev.sesBegin d s).Canonical := by
  unfold Dev.sesBegin
  repeat' (first | with_reducible assumption | ((try lift_lets); intro d1; refine (fun (hd1 : Dev.Canonical d1) => ?_) ?_; (try clear_value d1); on_goal 2 => unfold d1) | ((try lift_lets); intro dX; first | (have hX : MemSt := dX; clear hX) | (have hX : Regs := dX; clear hX) | (have hX : KeepSt := dX; clear hX) | clear_value dX | skip) | (with_reducible first | apply Dev.grpStart_canonical | apply Dev.latchAll_canonical | apply Dev.modSes_canonical | apply Dev.set_canonical | apply Dev.setFlag_canonical | apply Dev.eventAt_canonical | apply Dev.showGroup_canonical | apply Dev.headerRecord_canonical | apply Dev.showLoad_canonical) | split)

theorem Dev.sesRefuse_canonical {d : Dev} {s : Nat} {inst : Nat} {addr : Nat} (hd : d.Canonical) : (Dev.sesRefuse d s inst addr).Canonical := by
  unfold Dev.sesRefuse
  repeat' (with_reducible first | assumption | apply Dev.eventAt_canonical | apply Dev.set_canonical)

theorem Dev.sesStart_canonical {d : Dev} {s : Nat} (hd : d.Canonical) : (Dev.sesStart d s).1.Canonical := by
  unfold Dev.sesStart
  repeat' (first | with_reducible assumption | ((try lift_lets); intro dX; first | (have hX : MemSt := dX; clear hX) | (have hX : Regs := dX; clear hX) | (have hX : KeepSt := dX; clear hX) | clear_value dX | skip) | (with_reducible first | apply Dev.sesRefuse_canonical | apply Dev.eventAt_canonical | apply Dev.sesBegin_canonical) | split)

theorem Dev.sesStopped_canonical {d : Dev} {s : Nat} (hd : d.Canonical) : (Dev.sesStopped d s).Canonical := by
  unfold Dev.sesStopped
  repeat' (first | with_reducible assumption | ((try lift_lets); intro d1; refine (fun (hd1 : Dev.Canonical d1) => ?_) ?_; (try clear_value d1); on_goal 2 => unfold d1) | ((try lift_lets); intro dX; first | (have hX : MemSt := dX; clear hX) | (have hX : Regs := dX; clear hX) | (have hX : KeepSt := dX; clear hX) | clear_value dX | skip) | (with_reducible first | apply Dev.modSes_canonical | apply Dev.releaseBy_canonical | apply Dev.set_canonical | apply Dev.setFlag_canonical | apply Dev.eventAt_canonical | apply Dev.modGrp_canonical | apply Dev.showGroup_canonical | apply Dev.showLoad_canonical | apply ite_canonical) | split)

theorem Dev.sesStop_canonical {d : Dev} {s : Nat} (hd : d.Canonical) : (Dev.sesStop d s).1.Canonical := by
  unfold Dev.sesStop
  repeat' (first | with_reducible assumption | ((try lift_lets); intro d1; refine (fun (hd1 : Dev.Canonical d1) => ?_) ?_; (try clear_value d1); on_goal 2 => unfold d1) | (with_reducible first | apply Dev.modSes_canonical | apply Dev.set_canonical | apply Dev.sesStopped_canonical | apply ite_canonical) | split)

theorem Dev.sesCommand_canonical {d : Dev} {op : Nat} {s : Nat} (hd : d.Canonical) : (Dev.sesCommand d op s).Canonical := by
  unfold Dev.sesCommand
  repeat' (first | with_reducible assumption | ((try lift_lets); intro d1; refine (fun (hd1 : Dev.Canonical d1) => ?_) ?_; (try clear_value d1); on_goal 2 => unfold d1) | (with_reducible first | apply Dev.set_canonical | apply Dev.sesStart_canonical | apply Dev.sesStop_canonical | apply ite_canonical) | split)

theorem execSesStart_canonical {s : Fin 256} {st : State} {st' : State} (hcan : st.dev.Canonical) (ht : execSesStart s st = .next st') : st'.dev.Canonical := by
  unfold execSesStart at ht
  refine run_canonical hcan ht ?_
  intro d hd
  repeat' (with_reducible first | assumption | refine Dev.gateWrite_canonical (hf := fun d hd => ?_) ?_ | apply Dev.sesCommand_canonical)

theorem execSesStop_canonical {s : Fin 256} {st : State} {st' : State} (hcan : st.dev.Canonical) (ht : execSesStop s st = .next st') : st'.dev.Canonical := by
  unfold execSesStop at ht
  refine run_canonical hcan ht ?_
  intro d hd
  repeat' (with_reducible first | assumption | refine Dev.gateWrite_canonical (hf := fun d hd => ?_) ?_ | apply Dev.sesCommand_canonical)

theorem Dev.grpSources_canonical {d : Dev} {g : Nat} {n : Nat} (hd : d.Canonical) : (Dev.grpSources d g n).Canonical := by
  unfold Dev.grpSources
  repeat' (first | (with_reducible first | assumption | refine foldl_canonical ?_ (fun d x hd => ?_)) | ((try lift_lets); intro d1; refine (fun (hd1 : Dev.Canonical d1) => ?_) ?_; (try clear_value d1); on_goal 2 => unfold d1) | ((try lift_lets); intro dX; first | (have hX : MemSt := dX; clear hX) | (have hX : Regs := dX; clear hX) | (have hX : KeepSt := dX; clear hX) | clear_value dX | skip) | (with_reducible first | apply Dev.modGrp_canonical | apply Dev.hold_canonical) | split)

theorem Dev.sesSources_canonical {d : Dev} {s : Nat} {n : Nat} (hd : d.Canonical) : (Dev.sesSources d s n).Canonical := by
  unfold Dev.sesSources
  repeat' (first | (with_reducible first | assumption | refine foldl_canonical ?_ (fun d x hd => ?_)) | ((try lift_lets); intro d1; refine (fun (hd1 : Dev.Canonical d1) => ?_) ?_; (try clear_value d1); on_goal 2 => unfold d1) | ((try lift_lets); intro dX; first | (have hX : MemSt := dX; clear hX) | (have hX : Regs := dX; clear hX) | (have hX : KeepSt := dX; clear hX) | clear_value dX | skip) | (with_reducible first | apply Dev.hold_canonical | apply Dev.modSes_canonical | apply ite_canonical) | split | (apply Dev.Canonical.mk <;> (try dsimp only) <;> with_reducible first | apply Dev.Canonical.words | apply Dev.Canonical.eff | apply Dev.Canonical.keep | apply Dev.Canonical.cells | apply Dev.Canonical.err | apply Dev.Canonical.poison))

theorem Dev.grpRelease_canonical {d : Dev} {g : Nat} (hd : d.Canonical) : (Dev.grpRelease d g).Canonical := by
  unfold Dev.grpRelease
  repeat' (with_reducible first | assumption | refine foldl_canonical ?_ (fun d x hd => ?_) | apply Dev.modGrp_canonical | apply Dev.hold_canonical | apply Dev.releaseBy_canonical)

theorem Dev.sesRelease_canonical {d : Dev} {s : Nat} (hd : d.Canonical) : (Dev.sesRelease d s).Canonical := by
  unfold Dev.sesRelease
  repeat' (with_reducible first | assumption | refine foldl_canonical ?_ (fun d x hd => ?_) | apply Dev.modSes_canonical | apply Dev.hold_canonical | apply Dev.releaseBy_canonical)

theorem Dev.srcRelease_canonical {d : Dev} {s : Nat} (hd : d.Canonical) : (Dev.srcRelease d s).Canonical := by
  unfold Dev.srcRelease
  repeat' (first | (with_reducible first | assumption | apply Dev.grpRelease_canonical | apply Dev.sesRelease_canonical) | split)

theorem Dev.pickSource_canonical {d : Dev} {s : Nat} {n : Nat} (hd : d.Canonical) : (Dev.pickSource d s n).1.Canonical := by
  unfold Dev.pickSource
  repeat' (first | with_reducible assumption | ((try lift_lets); intro d1; refine (fun (hd1 : Dev.Canonical d1) => ?_) ?_; (try clear_value d1); on_goal 2 => unfold d1) | (with_reducible first | apply Dev.grpSources_canonical | apply Dev.sesSources_canonical) | split)

theorem Dev.jobKeys_canonical {d : Dev} {s : Nat} (hd : d.Canonical) : (Dev.jobKeys d s).Canonical := by
  unfold Dev.jobKeys
  repeat' (first | with_reducible assumption | ((try lift_lets); intro dX; first | (have hX : MemSt := dX; clear hX) | (have hX : Regs := dX; clear hX) | (have hX : KeepSt := dX; clear hX) | clear_value dX | skip) | (with_reducible first | apply Dev.modGrp_canonical | apply Dev.modSes_canonical | apply ite_canonical) | split)

theorem Dev.nextPic_canonical {x0 : Nat} {x1 : Dev} {x2 : Nat} (hx1 : x1.Canonical) : (Dev.nextPic x0 x1 x2).1.Canonical := by
  induction x0 generalizing x1 x2 hx1 with
  | zero => exact hx1
  | succ n ih =>
    unfold Dev.nextPic
    repeat' (first | (with_reducible first | assumption | apply ih) | ((try lift_lets); intro d1; refine (fun (hd1 : Dev.Canonical d1) => ?_) ?_; (try clear_value d1); on_goal 2 => unfold d1) | (with_reducible first | apply Dev.plan_canonical | apply Dev.modSes_canonical) | split)

theorem Dev.boundary_canonical {d : Dev} {s : Nat} {n : Nat} {key : Bool} (hd : d.Canonical) : (Dev.boundary d s n key).Canonical := by
  unfold Dev.boundary
  repeat' (first | with_reducible assumption | ((try lift_lets); intro d1; refine (fun (hd1 : Dev.Canonical d1) => ?_) ?_; (try clear_value d1); on_goal 2 => unfold d1) | ((try lift_lets); intro dX; first | (have hX : MemSt := dX; clear hX) | (have hX : Regs := dX; clear hX) | (have hX : KeepSt := dX; clear hX) | clear_value dX | skip) | (with_reducible first | apply Dev.latchAll_canonical | apply Dev.modSes_canonical | apply Dev.setFlag_canonical | apply Dev.modGrp_canonical | apply Dev.showGroup_canonical | apply ite_canonical) | split)

theorem Dev.refreshLate_canonical {d : Dev} {s : Nat} {n : Nat} {late : List (Nat × Nat)} (hd : d.Canonical) : (Dev.refreshLate d s n late).Canonical := by
  unfold Dev.refreshLate
  repeat' (with_reducible first | assumption | apply Dev.eventAt_canonical | apply ite_canonical)

theorem Dev.picTurn_canonical {d : Dev} {s : Nat} {n : Nat} {key : Bool} (hd : d.Canonical) : (Dev.picTurn d s n key).Canonical := by
  unfold Dev.picTurn
  repeat' (first | with_reducible assumption | ((try lift_lets); intro d1; refine (fun (hd1 : Dev.Canonical d1) => ?_) ?_; (try clear_value d1); on_goal 2 => unfold d1) | (with_reducible first | apply Dev.latchAll_canonical | apply Dev.boundary_canonical | apply Dev.modSes_canonical | apply ite_canonical))

theorem Dev.picOutput_canonical {d : Dev} {t : PicTurn} {flags : Nat} {payload : Nat} {maxLen : Nat} (hd : d.Canonical) : (Dev.picOutput d t flags payload maxLen).1.Canonical := by
  unfold Dev.picOutput
  repeat' (first | with_reducible assumption | ((try lift_lets); intro d1; refine (fun (hd1 : Dev.Canonical d1) => ?_) ?_; (try clear_value d1); on_goal 2 => unfold d1) | ((try lift_lets); intro dX; first | (have hX : MemSt := dX; clear hX) | (have hX : Regs := dX; clear hX) | (have hX : KeepSt := dX; clear hX) | clear_value dX | skip) | (with_reducible first | apply Dev.recOpen_canonical | apply Dev.modSes_canonical | apply Dev.set_canonical | apply Dev.bump_canonical | apply Dev.eventAt_canonical | apply ite_canonical) | split)

theorem Dev.picAgain_canonical {d : Dev} {s : Nat} {n : Nat} {src : SrcSel} (hd : d.Canonical) : (Dev.picAgain d s n src).Canonical := by
  unfold Dev.picAgain
  repeat' (first | with_reducible assumption | ((try lift_lets); intro d1; refine (fun (hd1 : Dev.Canonical d1) => ?_) ?_; (try clear_value d1); on_goal 2 => unfold d1) | (with_reducible first | apply Dev.bump_canonical | apply Dev.modSes_canonical | apply Dev.eventAt_canonical | apply ite_canonical))

theorem Dev.picJoins_canonical {d : Dev} {t : PicTurn} {rc : RcIn} {pic : PicSt} (hd : d.Canonical) : (Dev.picJoins d t rc pic).Canonical := by
  unfold Dev.picJoins
  repeat' (first | with_reducible assumption | ((try lift_lets); intro d1; refine (fun (hd1 : Dev.Canonical d1) => ?_) ?_; (try clear_value d1); on_goal 2 => unfold d1) | ((try lift_lets); intro dX; first | (have hX : MemSt := dX; clear hX) | (have hX : Regs := dX; clear hX) | (have hX : KeepSt := dX; clear hX) | clear_value dX | skip) | (with_reducible first | apply Dev.modSes_canonical | apply Dev.set_canonical | apply Dev.modGrp_canonical | apply Dev.srcRelease_canonical | apply ite_canonical) | split)

theorem Dev.picCode_canonical {d : Dev} {t : PicTurn} {rc : RcIn} (hd : d.Canonical) : (Dev.picCode d t rc).Canonical := by
  unfold Dev.picCode
  repeat' (first | with_reducible assumption | ((try lift_lets); intro d1; refine (fun (hd1 : Dev.Canonical d1) => ?_) ?_; (try clear_value d1); on_goal 2 => unfold d1) | ((try lift_lets); intro r1; refine (fun (hr1 : Dev.Canonical r1.1) => ?_) ?_; (try clear_value r1); on_goal 2 => unfold r1) | ((try lift_lets); intro dX; first | (have hX : MemSt := dX; clear hX) | (have hX : Regs := dX; clear hX) | (have hX : KeepSt := dX; clear hX) | clear_value dX | skip) | (with_reducible first | apply Dev.refreshLate_canonical | apply Dev.picOutput_canonical | apply Dev.picAgain_canonical | apply Dev.picJoins_canonical))

theorem Dev.picBegin_canonical {d : Dev} {s : Nat} {n : Nat} {pos : Nat} {type : Nat} {src : SrcSel} {hdr : Nat} (hd : d.Canonical) : (Dev.picBegin d s n pos type src hdr).Canonical := by
  unfold Dev.picBegin
  repeat' (first | with_reducible assumption | ((try lift_lets); intro d1; refine (fun (hd1 : Dev.Canonical d1) => ?_) ?_; (try clear_value d1); on_goal 2 => unfold d1) | ((try lift_lets); intro r1; refine (fun (hr1 : Dev.Canonical r1.1) => ?_) ?_; (try clear_value r1); on_goal 2 => unfold r1) | ((try lift_lets); intro dX; first | (have hX : MemSt := dX; clear hX) | (have hX : Regs := dX; clear hX) | (have hX : KeepSt := dX; clear hX) | clear_value dX | skip) | (with_reducible first | apply Dev.picTurn_canonical | apply Dev.modSes_canonical | apply Dev.foldDone_canonical | apply Dev.rcStart_canonical | apply Dev.picCode_canonical | apply ite_canonical))

theorem execPictureStart_canonical {s : Fin 256} {hdr : Nat} {st : State} {st' : State} (hcan : st.dev.Canonical) (ht : execPictureStart s hdr st = .next st') : st'.dev.Canonical := by
  unfold execPictureStart at ht
  refine run_canonical hcan ht ?_
  intro d hd
  repeat' (first | with_reducible assumption | ((try lift_lets); intro d1; refine (fun (hd1 : Dev.Canonical d1) => ?_) ?_; (try clear_value d1); on_goal 2 => unfold d1) | (with_reducible first | apply Dev.jobKeys_canonical | apply Dev.nextPic_canonical | apply Dev.pickSource_canonical | apply Dev.picBegin_canonical | apply ite_canonical | refine fst_of_eq ‹_› ?_) | split)

theorem Dev.modPic_canonical {d : Dev} {s : Nat} {c : Nat} {f : PicSt → PicSt} (hd : d.Canonical) : (Dev.modPic d s c f).Canonical := by
  unfold Dev.modPic
  repeat' (with_reducible first | assumption | apply Dev.modSes_canonical)

theorem Dev.modRow_canonical {d : Dev} {s : Nat} {c : Nat} {r : Nat} {f : RowSt → RowSt} (hd : d.Canonical) : (Dev.modRow d s c r f).Canonical := by
  unfold Dev.modRow
  repeat' (with_reducible first | assumption | apply Dev.modPic_canonical)

theorem Dev.modVe_canonical {d : Dev} {e : Nat} {f : VeSt → VeSt} (hd : d.Canonical) : (Dev.modVe d e f).Canonical := by
  unfold Dev.modVe
  repeat' (first | ((try lift_lets); intro dX; first | (have hX : MemSt := dX; clear hX) | (have hX : Regs := dX; clear hX) | (have hX : KeepSt := dX; clear hX) | clear_value dX | skip) | (apply Dev.Canonical.mk <;> (try dsimp only) <;> with_reducible first | exact Dev.Canonical.words ‹_› | exact Dev.Canonical.eff ‹_› | exact Dev.Canonical.keep ‹_› | exact Dev.Canonical.cells ‹_› | exact Dev.Canonical.err ‹_› | exact Dev.Canonical.poison ‹_› | exact Sparse.wf_put (Dev.Canonical.words ‹_›) | exact Sparse.wf_put (Dev.Canonical.eff ‹_›) | exact Sparse.wf_put (Dev.Canonical.cells ‹_›) | exact Sparse.wf_put (Dev.Canonical.err ‹_›) | exact Sparse.wf_put (Dev.Canonical.poison ‹_›) | exact keepStore_wf (Dev.Canonical.keep ‹_›)))

theorem Dev.showVe_canonical {d : Dev} {e : Nat} (hd : d.Canonical) : (Dev.showVe d e).Canonical := by
  unfold Dev.showVe
  repeat' (first | with_reducible assumption | ((try lift_lets); intro d1; refine (fun (hd1 : Dev.Canonical d1) => ?_) ?_; (try clear_value d1); on_goal 2 => unfold d1) | ((try lift_lets); intro dX; first | (have hX : MemSt := dX; clear hX) | (have hX : Regs := dX; clear hX) | (have hX : KeepSt := dX; clear hX) | clear_value dX | skip) | (with_reducible first | apply Dev.setFlag_canonical | apply Dev.set_canonical))

theorem Dev.rowStart_canonical {d : Dev} {e : Nat} {j : RowJob} (hd : d.Canonical) : (Dev.rowStart d e j).Canonical := by
  unfold Dev.rowStart
  repeat' (first | with_reducible assumption | ((try lift_lets); intro d1; refine (fun (hd1 : Dev.Canonical d1) => ?_) ?_; (try clear_value d1); on_goal 2 => unfold d1) | ((try lift_lets); intro dX; first | (have hX : MemSt := dX; clear hX) | (have hX : Regs := dX; clear hX) | (have hX : KeepSt := dX; clear hX) | clear_value dX | skip) | (with_reducible first | apply Dev.modRow_canonical | apply Dev.modVe_canonical) | split)

theorem Dev.veSelect_canonical {d : Dev} {e : Nat} (hd : d.Canonical) : (Dev.veSelect d e).Canonical := by
  unfold Dev.veSelect
  repeat' (first | with_reducible assumption | ((try lift_lets); intro d1; refine (fun (hd1 : Dev.Canonical d1) => ?_) ?_; (try clear_value d1); on_goal 2 => unfold d1) | ((try lift_lets); intro dX; first | (have hX : MemSt := dX; clear hX) | (have hX : Regs := dX; clear hX) | (have hX : KeepSt := dX; clear hX) | clear_value dX | skip) | (with_reducible first | apply Dev.rowStart_canonical | apply Dev.modRow_canonical | apply Dev.modVe_canonical | apply Dev.showVe_canonical | apply ite_canonical) | split)

theorem execRowReady_canonical {s : Fin 256} {back : Fin 2} {row : Nat} {st : State} {st' : State} (hcan : st.dev.Canonical) (ht : execRowReady s back row st = .next st') : st'.dev.Canonical := by
  unfold execRowReady at ht
  refine run_canonical hcan ht ?_
  intro d hd
  repeat' (first | with_reducible assumption | ((try lift_lets); intro dX; first | (have hX : MemSt := dX; clear hX) | (have hX : Regs := dX; clear hX) | (have hX : KeepSt := dX; clear hX) | clear_value dX | skip) | (with_reducible first | apply Dev.modRow_canonical | apply Dev.modVe_canonical | apply Dev.showVe_canonical | apply Dev.veSelect_canonical | apply ite_canonical) | split)

theorem execLiveRowRelease_canonical {e : Fin 68} {st : State} {st' : State} (hcan : st.dev.Canonical) (ht : execLiveRowRelease e st = .next st') : st'.dev.Canonical := by
  unfold execLiveRowRelease at ht
  refine run_canonical hcan ht ?_
  intro d hd
  repeat' (first | with_reducible assumption | ((try lift_lets); intro d1; refine (fun (hd1 : Dev.Canonical d1) => ?_) ?_; (try clear_value d1); on_goal 2 => unfold d1) | (with_reducible first | apply Dev.modRow_canonical | apply Dev.modVe_canonical | apply Dev.veSelect_canonical) | split)

theorem Dev.unitMissed_canonical {d : Dev} {s : Nat} {c : Nat} {r : Nat} {u : Nat} {wasRepeat : Bool} (hd : d.Canonical) : (Dev.unitMissed d s c r u wasRepeat).Canonical := by
  unfold Dev.unitMissed
  repeat' (first | with_reducible assumption | ((try lift_lets); intro d1; refine (fun (hd1 : Dev.Canonical d1) => ?_) ?_; (try clear_value d1); on_goal 2 => unfold d1) | ((try lift_lets); intro dX; first | (have hX : MemSt := dX; clear hX) | (have hX : Regs := dX; clear hX) | (have hX : KeepSt := dX; clear hX) | clear_value dX | skip) | (with_reducible first | apply Dev.modPic_canonical | apply Dev.recPut_canonical | apply Dev.refreshLate_canonical | apply ite_canonical) | split)

theorem Dev.codeUnit_canonical {d : Dev} {j : RowJob} {bits : Nat} {least : Nat} {cell : Int} {sal : Nat} (hd : d.Canonical) : (Dev.codeUnit d j bits least cell sal).Canonical := by
  unfold Dev.codeUnit
  repeat' (first | with_reducible assumption | ((try lift_lets); intro dX; first | (have hX : MemSt := dX; clear hX) | (have hX : Regs := dX; clear hX) | (have hX : KeepSt := dX; clear hX) | clear_value dX | skip) | (with_reducible first | apply Dev.modRow_canonical | apply Dev.modPic_canonical | apply Dev.unitMissed_canonical | apply ite_canonical) | split)

theorem execUnitBoundary_canonical {e : Fin 68} {bits : Nat} {least : Nat} {cell : Int} {sal : Nat} {st : State} {st' : State} (hcan : st.dev.Canonical) (ht : execUnitBoundary e bits least cell sal st = .next st') : st'.dev.Canonical := by
  unfold execUnitBoundary at ht
  refine run_canonical hcan ht ?_
  intro d hd
  repeat' (first | with_reducible assumption | ((try lift_lets); intro d1; refine (fun (hd1 : Dev.Canonical d1) => ?_) ?_; (try clear_value d1); on_goal 2 => unfold d1) | ((try lift_lets); intro dX; first | (have hX : MemSt := dX; clear hX) | (have hX : Regs := dX; clear hX) | (have hX : KeepSt := dX; clear hX) | clear_value dX | skip) | (with_reducible first | apply Dev.codeUnit_canonical | apply Dev.modRow_canonical | apply Dev.modVe_canonical | apply Dev.veSelect_canonical | apply ite_canonical) | split)

theorem Dev.publish_canonical {d : Dev} {s : Nat} {c : Nat} (hd : d.Canonical) : (Dev.publish d s c).Canonical := by
  unfold Dev.publish
  repeat' (first | with_reducible assumption | ((try lift_lets); intro d1; refine (fun (hd1 : Dev.Canonical d1) => ?_) ?_; (try clear_value d1); on_goal 2 => unfold d1) | ((try lift_lets); intro dX; first | (have hX : MemSt := dX; clear hX) | (have hX : Regs := dX; clear hX) | (have hX : KeepSt := dX; clear hX) | clear_value dX | skip) | (with_reducible first | apply Dev.poolWrite_canonical | apply Dev.recPut_canonical | apply Dev.modPic_canonical | apply ite_canonical) | split)

theorem Dev.picDone_canonical {d : Dev} {s : Nat} {c : Nat} (hd : d.Canonical) : (Dev.picDone d s c).Canonical := by
  unfold Dev.picDone
  repeat' (first | with_reducible assumption | ((try lift_lets); intro d1; refine (fun (hd1 : Dev.Canonical d1) => ?_) ?_; (try clear_value d1); on_goal 2 => unfold d1) | ((try lift_lets); intro dX; first | (have hX : MemSt := dX; clear hX) | (have hX : Regs := dX; clear hX) | (have hX : KeepSt := dX; clear hX) | clear_value dX | skip) | (with_reducible first | apply Dev.poolWrite_canonical | apply Dev.recPut_canonical | apply Dev.recGen_canonical | apply Dev.modSes_canonical | apply Dev.set_canonical | apply Dev.bump_canonical | apply Dev.add_canonical | apply Dev.eventAt_canonical | apply Dev.modGrp_canonical | apply Dev.srcRelease_canonical | apply Dev.sesStopped_canonical | apply ite_canonical) | split | (apply Dev.Canonical.mk <;> (try dsimp only) <;> with_reducible first | apply Dev.Canonical.words | apply Dev.Canonical.eff | apply Dev.Canonical.keep | apply Dev.Canonical.cells | apply Dev.Canonical.err | apply Dev.Canonical.poison))

theorem Dev.subSettle_canonical {d : Dev} {q : Nat} (hd : d.Canonical) : (Dev.subSettle d q).Canonical := by
  unfold Dev.subSettle
  repeat' (first | with_reducible assumption | ((try lift_lets); intro d1; refine (fun (hd1 : Dev.Canonical d1) => ?_) ?_; (try clear_value d1); on_goal 2 => unfold d1) | ((try lift_lets); intro dX; first | (have hX : MemSt := dX; clear hX) | (have hX : Regs := dX; clear hX) | (have hX : KeepSt := dX; clear hX) | clear_value dX | skip) | (with_reducible first | apply Dev.eventAt_canonical | apply ite_canonical) | (apply Dev.Canonical.mk <;> (try dsimp only) <;> with_reducible first | exact Dev.Canonical.words ‹_› | exact Dev.Canonical.eff ‹_› | exact Dev.Canonical.keep ‹_› | exact Dev.Canonical.cells ‹_› | exact Dev.Canonical.err ‹_› | exact Dev.Canonical.poison ‹_› | exact Sparse.wf_put (Dev.Canonical.words ‹_›) | exact Sparse.wf_put (Dev.Canonical.eff ‹_›) | exact Sparse.wf_put (Dev.Canonical.cells ‹_›) | exact Sparse.wf_put (Dev.Canonical.err ‹_›) | exact Sparse.wf_put (Dev.Canonical.poison ‹_›) | exact keepStore_wf (Dev.Canonical.keep ‹_›)) | split)

theorem Dev.rowDone_canonical {d : Dev} {e : Nat} {bytes : List Byte} (hd : d.Canonical) : (Dev.rowDone d e bytes).Canonical := by
  unfold Dev.rowDone
  repeat' (first | with_reducible assumption | ((try lift_lets); intro d1; refine (fun (hd1 : Dev.Canonical d1) => ?_) ?_; (try clear_value d1); on_goal 2 => unfold d1) | ((try lift_lets); intro dX; first | (have hX : MemSt := dX; clear hX) | (have hX : Regs := dX; clear hX) | (have hX : KeepSt := dX; clear hX) | clear_value dX | skip) | (with_reducible first | apply Dev.modRow_canonical | apply Dev.modVe_canonical | apply Dev.modPic_canonical | apply Dev.recPut_canonical | apply Dev.publish_canonical | apply Dev.subSettle_canonical | apply Dev.picDone_canonical | apply Dev.srcRelease_canonical | apply Dev.veSelect_canonical | apply ite_canonical) | (apply Dev.Canonical.mk <;> (try dsimp only) <;> with_reducible first | exact Dev.Canonical.words ‹_› | exact Dev.Canonical.eff ‹_› | exact Dev.Canonical.keep ‹_› | exact Dev.Canonical.cells ‹_› | exact Dev.Canonical.err ‹_› | exact Dev.Canonical.poison ‹_› | exact Sparse.wf_put (Dev.Canonical.words ‹_›) | exact Sparse.wf_put (Dev.Canonical.eff ‹_›) | exact Sparse.wf_put (Dev.Canonical.cells ‹_›) | exact Sparse.wf_put (Dev.Canonical.err ‹_›) | exact Sparse.wf_put (Dev.Canonical.poison ‹_›) | exact keepStore_wf (Dev.Canonical.keep ‹_›)) | split)

theorem Dev.sceneCut_canonical {d : Dev} {g : Nat} {n : Nat} {score : Nat} (hd : d.Canonical) : (Dev.sceneCut d g n score).Canonical := by
  unfold Dev.sceneCut
  repeat' (first | with_reducible assumption | ((try lift_lets); intro d1; refine (fun (hd1 : Dev.Canonical d1) => ?_) ?_; (try clear_value d1); on_goal 2 => unfold d1) | ((try lift_lets); intro dX; first | (have hX : MemSt := dX; clear hX) | (have hX : Regs := dX; clear hX) | (have hX : KeepSt := dX; clear hX) | clear_value dX | skip) | (with_reducible first | apply Dev.eventAt_canonical | apply Dev.modGrp_canonical | apply ite_canonical))

theorem execAnalysisDone_canonical {g : Fin 8} {dist : List Int} {field : List Byte} {cells : List Nat} {sal : List Nat} {st : State} {st' : State} (hcan : st.dev.Canonical) (ht : execAnalysisDone g dist field cells sal st = .next st') : st'.dev.Canonical := by
  unfold execAnalysisDone at ht
  refine run_canonical hcan ht ?_
  intro d hd
  repeat' (first | with_reducible assumption | ((try lift_lets); intro d1; refine (fun (hd1 : Dev.Canonical d1) => ?_) ?_; (try clear_value d1); on_goal 2 => unfold d1) | ((try lift_lets); intro dX; first | (have hX : MemSt := dX; clear hX) | (have hX : Regs := dX; clear hX) | (have hX : KeepSt := dX; clear hX) | clear_value dX | skip) | (with_reducible first | apply Dev.grpSources_canonical | apply Dev.latch_canonical | apply Dev.modGrp_canonical | apply Dev.set_canonical | apply Dev.sceneCut_canonical | apply Dev.grpRelease_canonical | apply ite_canonical) | split)

/-! ### TimeServo -/

theorem Dev.modTime_canonical {d : Dev} {f : TimeSt → TimeSt} (hd : d.Canonical) : (Dev.modTime d f).Canonical := by
  unfold Dev.modTime
  repeat' (apply Dev.Canonical.mk <;> (try dsimp only) <;> with_reducible first | exact Dev.Canonical.words ‹_› | exact Dev.Canonical.eff ‹_› | exact Dev.Canonical.keep ‹_› | exact Dev.Canonical.cells ‹_› | exact Dev.Canonical.err ‹_› | exact Dev.Canonical.poison ‹_› | exact Sparse.wf_put (Dev.Canonical.words ‹_›) | exact Sparse.wf_put (Dev.Canonical.eff ‹_›) | exact Sparse.wf_put (Dev.Canonical.cells ‹_›) | exact Sparse.wf_put (Dev.Canonical.err ‹_›) | exact Sparse.wf_put (Dev.Canonical.poison ‹_›) | exact keepStore_wf (Dev.Canonical.keep ‹_›))

theorem Dev.setTimeState_canonical {d : Dev} {st : Nat} (hd : d.Canonical) : (Dev.setTimeState d st).Canonical := by
  unfold Dev.setTimeState
  repeat' (first | with_reducible assumption | ((try lift_lets); intro d1; refine (fun (hd1 : Dev.Canonical d1) => ?_) ?_; (try clear_value d1); on_goal 2 => unfold d1) | ((try lift_lets); intro dX; first | (have hX : MemSt := dX; clear hX) | (have hX : Regs := dX; clear hX) | (have hX : KeepSt := dX; clear hX) | clear_value dX | skip) | (with_reducible first | apply Dev.set_canonical | apply Dev.modTime_canonical | apply Dev.event_canonical | apply ite_canonical))

theorem Dev.timeHoldover_canonical {d : Dev} {cause : Nat} (hd : d.Canonical) : (Dev.timeHoldover d cause).Canonical := by
  unfold Dev.timeHoldover
  repeat' (first | with_reducible assumption | ((try lift_lets); intro d1; refine (fun (hd1 : Dev.Canonical d1) => ?_) ?_; (try clear_value d1); on_goal 2 => unfold d1) | (with_reducible first | apply Dev.setTimeState_canonical | apply Dev.set_canonical | apply Dev.event_canonical))

theorem Dev.timeToAlwaysOn_canonical {d : Dev} (hd : d.Canonical) : (Dev.timeToAlwaysOn d).Canonical := by
  unfold Dev.timeToAlwaysOn
  repeat' (first | with_reducible assumption | ((try lift_lets); intro dX; first | (have hX : MemSt := dX; clear hX) | (have hX : Regs := dX; clear hX) | (have hX : KeepSt := dX; clear hX) | clear_value dX | skip) | (with_reducible first | apply Dev.timeHoldover_canonical | apply Dev.setTimeState_canonical | apply ite_canonical))

theorem Dev.missSlots_canonical {x0 : Nat} {x1 : Dev} {x2 : Nat} (hx1 : x1.Canonical) : (Dev.missSlots x0 x1 x2).Canonical := by
  induction x0 generalizing x1 x2 hx1 with
  | zero => exact hx1
  | succ n ih =>
    unfold Dev.missSlots
    repeat' (with_reducible first | assumption | apply ih | apply Dev.slotMissing_canonical | apply ite_canonical)

theorem Dev.timeStep_canonical {d : Dev} {delta : Int} (hd : d.Canonical) : (Dev.timeStep d delta).Canonical := by
  unfold Dev.timeStep
  repeat' (first | (with_reducible first | assumption | refine foldl_canonical ?_ (fun d x hd => ?_)) | ((try lift_lets); intro d1; refine (fun (hd1 : Dev.Canonical d1) => ?_) ?_; (try clear_value d1); on_goal 2 => unfold d1) | ((try lift_lets); intro dX; first | (have hX : MemSt := dX; clear hX) | (have hX : Regs := dX; clear hX) | (have hX : KeepSt := dX; clear hX) | clear_value dX | skip) | (with_reducible first | apply Dev.modTime_canonical | apply Dev.setFlag_canonical | apply Dev.event_canonical | apply Dev.missSlots_canonical | apply Dev.schedStart_canonical | apply Dev.audStep_canonical | apply ite_canonical) | (apply Dev.Canonical.mk <;> (try dsimp only) <;> with_reducible first | exact Dev.Canonical.words ‹_› | exact Dev.Canonical.eff ‹_› | exact Dev.Canonical.keep ‹_› | exact Dev.Canonical.cells ‹_› | exact Dev.Canonical.err ‹_› | exact Dev.Canonical.poison ‹_› | exact Sparse.wf_put (Dev.Canonical.words ‹_›) | exact Sparse.wf_put (Dev.Canonical.eff ‹_›) | exact Sparse.wf_put (Dev.Canonical.cells ‹_›) | exact Sparse.wf_put (Dev.Canonical.err ‹_›) | exact Sparse.wf_put (Dev.Canonical.poison ‹_›) | exact keepStore_wf (Dev.Canonical.keep ‹_›)))

theorem Dev.stepDeferred_canonical {d : Dev} (hd : d.Canonical) : (Dev.stepDeferred d).Canonical := by
  unfold Dev.stepDeferred
  repeat' (with_reducible first | assumption | apply Dev.setFlag_canonical | apply Dev.timeStep_canonical | apply ite_canonical)

theorem Dev.servo_canonical {d : Dev} {leader : Nat} {off : Int} (hd : d.Canonical) : (Dev.servo d leader off).Canonical := by
  unfold Dev.servo
  repeat' (first | with_reducible assumption | ((try lift_lets); intro d1; refine (fun (hd1 : Dev.Canonical d1) => ?_) ?_; (try clear_value d1); on_goal 2 => unfold d1) | ((try lift_lets); intro dX; first | (have hX : MemSt := dX; clear hX) | (have hX : Regs := dX; clear hX) | (have hX : KeepSt := dX; clear hX) | clear_value dX | skip) | (with_reducible first | apply Dev.modTime_canonical | apply Dev.set_canonical | apply Dev.timeStep_canonical | apply Dev.setFlag_canonical | apply Dev.event_canonical | apply Dev.tookFree_canonical | apply Dev.setTimeState_canonical | apply Dev.timeHoldover_canonical | apply ite_canonical))

theorem Dev.setLeader_canonical {d : Dev} {own : Bool} (hd : d.Canonical) : (Dev.setLeader d own).Canonical := by
  unfold Dev.setLeader
  repeat' (first | with_reducible assumption | ((try lift_lets); intro d1; refine (fun (hd1 : Dev.Canonical d1) => ?_) ?_; (try clear_value d1); on_goal 2 => unfold d1) | (with_reducible first | apply Dev.setFlag_canonical | apply Dev.setTimeState_canonical | apply Dev.set_canonical | apply Dev.event_canonical | apply ite_canonical))

theorem Dev.syncDone_canonical {d : Dev} {leader : Nat} {t1 : Int} {t2 : Int} {corr : Int} (hd : d.Canonical) : (Dev.syncDone d leader t1 t2 corr).Canonical := by
  unfold Dev.syncDone
  repeat' (first | with_reducible assumption | ((try lift_lets); intro d1; refine (fun (hd1 : Dev.Canonical d1) => ?_) ?_; (try clear_value d1); on_goal 2 => unfold d1) | ((try lift_lets); intro dX; first | (have hX : MemSt := dX; clear hX) | (have hX : Regs := dX; clear hX) | (have hX : KeepSt := dX; clear hX) | clear_value dX | skip) | (with_reducible first | apply Dev.setTimeState_canonical | apply Dev.modTime_canonical | apply Dev.servo_canonical | apply ite_canonical) | split)

theorem execPtpSyncRx_canonical {i : Fin 8} {domain : Nat} {src : Nat} {seq : Nat} {twoStep : Bool} {t1 : Nat} {corr : Int} {half : Fin 16} {s : State} {st' : State} (hcan : s.dev.Canonical) (ht : execPtpSyncRx i domain src seq twoStep t1 corr half s = .next st') : st'.dev.Canonical := by
  unfold execPtpSyncRx at ht
  refine run_canonical hcan ht ?_
  intro d hd
  repeat' (first | with_reducible assumption | ((try lift_lets); intro dX; first | (have hX : MemSt := dX; clear hX) | (have hX : Regs := dX; clear hX) | (have hX : KeepSt := dX; clear hX) | clear_value dX | skip) | (with_reducible first | apply Dev.modTime_canonical | apply Dev.syncDone_canonical | apply ite_canonical) | split)

theorem execPtpFollowUpRx_canonical {i : Fin 8} {domain : Nat} {src : Nat} {seq : Nat} {t1 : Nat} {corr : Int} {s : State} {st' : State} (hcan : s.dev.Canonical) (ht : execPtpFollowUpRx i domain src seq t1 corr s = .next st') : st'.dev.Canonical := by
  unfold execPtpFollowUpRx at ht
  refine run_canonical hcan ht ?_
  intro d hd
  repeat' (first | (with_reducible first | assumption | apply Dev.modTime_canonical | apply Dev.syncDone_canonical | apply ite_canonical) | split)

theorem execPtpDelayRespRx_canonical {i : Fin 8} {domain : Nat} {src : Nat} {seq : Nat} {t4 : Nat} {corr : Int} {s : State} {st' : State} (hcan : s.dev.Canonical) (ht : execPtpDelayRespRx i domain src seq t4 corr s = .next st') : st'.dev.Canonical := by
  unfold execPtpDelayRespRx at ht
  refine run_canonical hcan ht ?_
  intro d hd
  repeat' (first | with_reducible assumption | ((try lift_lets); intro dX; first | (have hX : MemSt := dX; clear hX) | (have hX : Regs := dX; clear hX) | (have hX : KeepSt := dX; clear hX) | clear_value dX | skip) | (with_reducible first | apply Dev.modTime_canonical | apply ite_canonical) | split)

theorem execPtpAnnounceRx_canonical {i : Fin 8} {a : PtpAnnounce} {s : State} {st' : State} (hcan : s.dev.Canonical) (ht : execPtpAnnounceRx i a s = .next st') : st'.dev.Canonical := by
  unfold execPtpAnnounceRx at ht
  refine run_canonical hcan ht ?_
  intro d hd
  repeat' (first | with_reducible assumption | ((try lift_lets); intro d1; refine (fun (hd1 : Dev.Canonical d1) => ?_) ?_; (try clear_value d1); on_goal 2 => unfold d1) | (with_reducible first | apply Dev.modTime_canonical | apply Dev.setLeader_canonical | apply ite_canonical) | split)

theorem execAnnounceTimeout_canonical {s : State} {st' : State} (hcan : s.dev.Canonical) (ht : execAnnounceTimeout s = .next st') : st'.dev.Canonical := by
  unfold execAnnounceTimeout at ht
  refine run_canonical hcan ht ?_
  intro d hd
  repeat' (first | with_reducible assumption | ((try lift_lets); intro d1; refine (fun (hd1 : Dev.Canonical d1) => ?_) ?_; (try clear_value d1); on_goal 2 => unfold d1) | ((try lift_lets); intro dX; first | (have hX : MemSt := dX; clear hX) | (have hX : Regs := dX; clear hX) | (have hX : KeepSt := dX; clear hX) | clear_value dX | skip) | (with_reducible first | apply Dev.modTime_canonical | apply Dev.timeHoldover_canonical | apply Dev.setFlag_canonical | apply Dev.event_canonical | apply Dev.setLeader_canonical | apply ite_canonical) | split)

theorem execPtpDelayReqRx_canonical {i : Fin 8} {domain : Nat} {src : Nat} {seq : Nat} {corr : Int} {half : Fin 16} {s : State} {st' : State} (hcan : s.dev.Canonical) (ht : execPtpDelayReqRx i domain src seq corr half s = .next st') : st'.dev.Canonical := by
  unfold execPtpDelayReqRx at ht
  refine run_canonical hcan ht ?_
  intro d hd
  repeat' (first | with_reducible assumption | ((try lift_lets); intro dX; first | (have hX : MemSt := dX; clear hX) | (have hX : Regs := dX; clear hX) | (have hX : KeepSt := dX; clear hX) | clear_value dX | skip) | (with_reducible first | apply Dev.emit_canonical | apply ite_canonical))

theorem execPtpSyncTx_canonical {half : Fin 16} {s : State} {st' : State} (hcan : s.dev.Canonical) (ht : execPtpSyncTx half s = .next st') : st'.dev.Canonical := by
  unfold execPtpSyncTx at ht
  refine run_canonical hcan ht ?_
  intro d hd
  repeat' (first | with_reducible assumption | ((try lift_lets); intro d1; refine (fun (hd1 : Dev.Canonical d1) => ?_) ?_; (try clear_value d1); on_goal 2 => unfold d1) | ((try lift_lets); intro dX; first | (have hX : MemSt := dX; clear hX) | (have hX : Regs := dX; clear hX) | (have hX : KeepSt := dX; clear hX) | clear_value dX | skip) | (with_reducible first | apply Dev.modTime_canonical | apply Dev.emit_canonical | apply ite_canonical))

theorem execPtpAnnounceTx_canonical {s : State} {st' : State} (hcan : s.dev.Canonical) (ht : execPtpAnnounceTx s = .next st') : st'.dev.Canonical := by
  unfold execPtpAnnounceTx at ht
  refine run_canonical hcan ht ?_
  intro d hd
  repeat' (first | with_reducible assumption | ((try lift_lets); intro d1; refine (fun (hd1 : Dev.Canonical d1) => ?_) ?_; (try clear_value d1); on_goal 2 => unfold d1) | ((try lift_lets); intro dX; first | (have hX : MemSt := dX; clear hX) | (have hX : Regs := dX; clear hX) | (have hX : KeepSt := dX; clear hX) | clear_value dX | skip) | (with_reducible first | apply Dev.modTime_canonical | apply Dev.emit_canonical | apply ite_canonical))

theorem execPtpDelayReqTx_canonical {half : Fin 16} {s : State} {st' : State} (hcan : s.dev.Canonical) (ht : execPtpDelayReqTx half s = .next st') : st'.dev.Canonical := by
  unfold execPtpDelayReqTx at ht
  refine run_canonical hcan ht ?_
  intro d hd
  repeat' (first | with_reducible assumption | ((try lift_lets); intro d1; refine (fun (hd1 : Dev.Canonical d1) => ?_) ?_; (try clear_value d1); on_goal 2 => unfold d1) | ((try lift_lets); intro dX; first | (have hX : MemSt := dX; clear hX) | (have hX : Regs := dX; clear hX) | (have hX : KeepSt := dX; clear hX) | clear_value dX | skip) | (with_reducible first | apply Dev.modTime_canonical | apply Dev.emit_canonical) | split)

theorem Dev.timeCfgBad_canonical {d : Dev} {a : Nat} (hd : d.Canonical) : (Dev.timeCfgBad d a).Canonical := by
  unfold Dev.timeCfgBad
  repeat' (first | (with_reducible first | assumption | apply Dev.event_canonical | apply Dev.eventReg_canonical | apply ite_canonical) | split)

theorem Dev.ptpStart_canonical {d : Dev} (hd : d.Canonical) : (Dev.ptpStart d).Canonical := by
  unfold Dev.ptpStart
  repeat' (first | with_reducible assumption | ((try lift_lets); intro d1; refine (fun (hd1 : Dev.Canonical d1) => ?_) ?_; (try clear_value d1); on_goal 2 => unfold d1) | ((try lift_lets); intro dX; first | (have hX : MemSt := dX; clear hX) | (have hX : Regs := dX; clear hX) | (have hX : KeepSt := dX; clear hX) | clear_value dX | skip) | (with_reducible first | apply Dev.timeCfgBad_canonical | apply Dev.setTimeState_canonical | apply Dev.set_canonical | apply Dev.modTime_canonical | apply Dev.setFlag_canonical | apply Dev.setLeader_canonical | apply ite_canonical))

theorem Dev.timeSet_canonical {d : Dev} (hd : d.Canonical) : (Dev.timeSet d).Canonical := by
  unfold Dev.timeSet
  repeat' (first | with_reducible assumption | ((try lift_lets); intro d1; refine (fun (hd1 : Dev.Canonical d1) => ?_) ?_; (try clear_value d1); on_goal 2 => unfold d1) | ((try lift_lets); intro dX; first | (have hX : MemSt := dX; clear hX) | (have hX : Regs := dX; clear hX) | (have hX : KeepSt := dX; clear hX) | clear_value dX | skip) | (with_reducible first | apply Dev.setFlag_canonical | apply Dev.timeCfgBad_canonical | apply Dev.timeStep_canonical | apply ite_canonical))

theorem execTimeSet_canonical {s : State} {st' : State} (hcan : s.dev.Canonical) (ht : execTimeSet s = .next st') : st'.dev.Canonical := by
  unfold execTimeSet at ht
  refine run_canonical hcan ht ?_
  intro d hd
  repeat' (with_reducible first | assumption | refine Dev.gateWrite_canonical (hf := fun d hd => ?_) ?_ | apply Dev.timeSet_canonical)

theorem Dev.timeStepNow_canonical {d : Dev} (hd : d.Canonical) : (Dev.timeStepNow d).Canonical := by
  unfold Dev.timeStepNow
  repeat' (with_reducible first | assumption | apply Dev.setFlag_canonical | apply Dev.stepDeferred_canonical)

theorem execTimeStepNow_canonical {s : State} {st' : State} (hcan : s.dev.Canonical) (ht : execTimeStepNow s = .next st') : st'.dev.Canonical := by
  unfold execTimeStepNow at ht
  refine run_canonical hcan ht ?_
  intro d hd
  repeat' (with_reducible first | assumption | refine Dev.gateWrite_canonical (hf := fun d hd => ?_) ?_ | apply Dev.timeStepNow_canonical)

theorem Dev.timeLatch_canonical {d : Dev} {port : Nat} (hd : d.Canonical) : (Dev.timeLatch d port).Canonical := by
  unfold Dev.timeLatch
  repeat' (first | ((try lift_lets); intro dX; first | (have hX : MemSt := dX; clear hX) | (have hX : Regs := dX; clear hX) | (have hX : KeepSt := dX; clear hX) | clear_value dX | skip) | (apply Dev.Canonical.mk <;> (try dsimp only) <;> with_reducible first | exact Dev.Canonical.words ‹_› | exact Dev.Canonical.eff ‹_› | exact Dev.Canonical.keep ‹_› | exact Dev.Canonical.cells ‹_› | exact Dev.Canonical.err ‹_› | exact Dev.Canonical.poison ‹_› | exact Sparse.wf_put (Dev.Canonical.words ‹_›) | exact Sparse.wf_put (Dev.Canonical.eff ‹_›) | exact Sparse.wf_put (Dev.Canonical.cells ‹_›) | exact Sparse.wf_put (Dev.Canonical.err ‹_›) | exact Sparse.wf_put (Dev.Canonical.poison ‹_›) | exact keepStore_wf (Dev.Canonical.keep ‹_›)))

theorem Dev.schedChange_canonical {d : Dev} {p : Nat} {new : Sched} (hd : d.Canonical) : (Dev.schedChange d p new).Canonical := by
  unfold Dev.schedChange
  repeat' (first | with_reducible assumption | ((try lift_lets); intro d1; refine (fun (hd1 : Dev.Canonical d1) => ?_) ?_; (try clear_value d1); on_goal 2 => unfold d1) | ((try lift_lets); intro dX; first | (have hX : MemSt := dX; clear hX) | (have hX : Regs := dX; clear hX) | (have hX : KeepSt := dX; clear hX) | clear_value dX | skip) | with_reducible apply Dev.eventAt_canonical | (apply Dev.Canonical.mk <;> (try dsimp only) <;> with_reducible first | exact Dev.Canonical.words ‹_› | exact Dev.Canonical.eff ‹_› | exact Dev.Canonical.keep ‹_› | exact Dev.Canonical.cells ‹_› | exact Dev.Canonical.err ‹_› | exact Dev.Canonical.poison ‹_› | exact Sparse.wf_put (Dev.Canonical.words ‹_›) | exact Sparse.wf_put (Dev.Canonical.eff ‹_›) | exact Sparse.wf_put (Dev.Canonical.cells ‹_›) | exact Sparse.wf_put (Dev.Canonical.err ‹_›) | exact Sparse.wf_put (Dev.Canonical.poison ‹_›) | exact keepStore_wf (Dev.Canonical.keep ‹_›)))

theorem Dev.trigCommit_canonical {d : Dev} {p : Nat} (hd : d.Canonical) : (Dev.trigCommit d p).Canonical := by
  unfold Dev.trigCommit
  repeat' (first | with_reducible assumption | ((try lift_lets); intro d1; refine (fun (hd1 : Dev.Canonical d1) => ?_) ?_; (try clear_value d1); on_goal 2 => unfold d1) | ((try lift_lets); intro dX; first | (have hX : MemSt := dX; clear hX) | (have hX : Regs := dX; clear hX) | (have hX : KeepSt := dX; clear hX) | clear_value dX | skip) | (with_reducible first | apply Dev.setFlag_canonical | apply Dev.timeCfgBad_canonical | apply Dev.latchAll_canonical | apply Dev.schedChange_canonical | apply ite_canonical))

theorem execTrigSchedCommit_canonical {p : Fin 8} {s : State} {st' : State} (hcan : s.dev.Canonical) (ht : execTrigSchedCommit p s = .next st') : st'.dev.Canonical := by
  unfold execTrigSchedCommit at ht
  refine run_canonical hcan ht ?_
  intro d hd
  repeat' (with_reducible first | assumption | refine Dev.gateWrite_canonical (hf := fun d hd => ?_) ?_ | apply Dev.trigCommit_canonical)

theorem execTrigSchedSwitch_canonical {p : Fin 8} {s : State} {st' : State} (hcan : s.dev.Canonical) (ht : execTrigSchedSwitch p s = .next st') : st'.dev.Canonical := by
  unfold execTrigSchedSwitch at ht
  refine run_canonical hcan ht ?_
  intro d hd
  repeat' (first | (with_reducible first | assumption | apply ite_canonical) | (apply Dev.Canonical.mk <;> (try dsimp only) <;> with_reducible first | exact Dev.Canonical.words ‹_› | exact Dev.Canonical.eff ‹_› | exact Dev.Canonical.keep ‹_› | exact Dev.Canonical.cells ‹_› | exact Dev.Canonical.err ‹_› | exact Dev.Canonical.poison ‹_› | exact Sparse.wf_put (Dev.Canonical.words ‹_›) | exact Sparse.wf_put (Dev.Canonical.eff ‹_›) | exact Sparse.wf_put (Dev.Canonical.cells ‹_›) | exact Sparse.wf_put (Dev.Canonical.err ‹_›) | exact Sparse.wf_put (Dev.Canonical.poison ‹_›) | exact keepStore_wf (Dev.Canonical.keep ‹_›)) | split)

theorem Dev.trigStart_canonical {d : Dev} {p : Nat} (hd : d.Canonical) : (Dev.trigStart d p).Canonical := by
  unfold Dev.trigStart
  repeat' (first | with_reducible assumption | ((try lift_lets); intro d1; refine (fun (hd1 : Dev.Canonical d1) => ?_) ?_; (try clear_value d1); on_goal 2 => unfold d1) | ((try lift_lets); intro dX; first | (have hX : MemSt := dX; clear hX) | (have hX : Regs := dX; clear hX) | (have hX : KeepSt := dX; clear hX) | clear_value dX | skip) | (with_reducible first | apply Dev.timeCfgBad_canonical | apply Dev.refuse_canonical | apply Dev.latchAll_canonical | apply Dev.schedChange_canonical | apply Dev.schedStart_canonical | apply ite_canonical) | (apply Dev.Canonical.mk <;> (try dsimp only) <;> with_reducible first | exact Dev.Canonical.words ‹_› | exact Dev.Canonical.eff ‹_› | exact Dev.Canonical.keep ‹_› | exact Dev.Canonical.cells ‹_› | exact Dev.Canonical.err ‹_› | exact Dev.Canonical.poison ‹_› | exact Sparse.wf_put (Dev.Canonical.words ‹_›) | exact Sparse.wf_put (Dev.Canonical.eff ‹_›) | exact Sparse.wf_put (Dev.Canonical.cells ‹_›) | exact Sparse.wf_put (Dev.Canonical.err ‹_›) | exact Sparse.wf_put (Dev.Canonical.poison ‹_›) | exact keepStore_wf (Dev.Canonical.keep ‹_›)))

theorem Dev.trigStopAll_canonical {d : Dev} (hd : d.Canonical) : (Dev.trigStopAll d).Canonical := by
  unfold Dev.trigStopAll
  repeat' (first | with_reducible apply Dev.stepDeferred_canonical | (apply Dev.Canonical.mk <;> (try dsimp only) <;> with_reducible first | exact Dev.Canonical.words ‹_› | exact Dev.Canonical.eff ‹_› | exact Dev.Canonical.keep ‹_› | exact Dev.Canonical.cells ‹_› | exact Dev.Canonical.err ‹_› | exact Dev.Canonical.poison ‹_› | exact Sparse.wf_put (Dev.Canonical.words ‹_›) | exact Sparse.wf_put (Dev.Canonical.eff ‹_›) | exact Sparse.wf_put (Dev.Canonical.cells ‹_›) | exact Sparse.wf_put (Dev.Canonical.err ‹_›) | exact Sparse.wf_put (Dev.Canonical.poison ‹_›) | exact keepStore_wf (Dev.Canonical.keep ‹_›)))

theorem Dev.pgDrive_canonical {d : Dev} {n : Nat} {high : Bool} (hd : d.Canonical) : (Dev.pgDrive d n high).Canonical := by
  unfold Dev.pgDrive
  repeat' (first | with_reducible assumption | ((try lift_lets); intro d1; refine (fun (hd1 : Dev.Canonical d1) => ?_) ?_; (try clear_value d1); on_goal 2 => unfold d1) | (with_reducible first | apply Dev.modTime_canonical | apply Dev.pin_canonical))

theorem execPulseEdge_canonical {n : Fin 8} {s : State} {st' : State} (hcan : s.dev.Canonical) (ht : execPulseEdge n s = .next st') : st'.dev.Canonical := by
  unfold execPulseEdge at ht
  refine run_canonical hcan ht ?_
  intro d hd
  repeat' (with_reducible first | assumption | apply Dev.pgDrive_canonical | apply ite_canonical)

theorem execPulseFall_canonical {n : Fin 8} {s : State} {st' : State} (hcan : s.dev.Canonical) (ht : execPulseFall n s = .next st') : st'.dev.Canonical := by
  unfold execPulseFall at ht
  refine run_canonical hcan ht ?_
  intro d hd
  repeat' (with_reducible first | assumption | apply Dev.pgDrive_canonical | apply ite_canonical)

theorem Dev.pgStart_canonical {d : Dev} {n : Nat} {on : Bool} (hd : d.Canonical) : (Dev.pgStart d n on).Canonical := by
  unfold Dev.pgStart
  repeat' (first | with_reducible assumption | ((try lift_lets); intro d1; refine (fun (hd1 : Dev.Canonical d1) => ?_) ?_; (try clear_value d1); on_goal 2 => unfold d1) | (with_reducible first | apply Dev.modTime_canonical | apply Dev.timeCfgBad_canonical | apply Dev.refuse_canonical | apply Dev.pgDrive_canonical | apply ite_canonical))

theorem execLtcFrame_canonical {good : Bool} {label : Nat} {s : State} {st' : State} (hcan : s.dev.Canonical) (ht : execLtcFrame good label s = .next st') : st'.dev.Canonical := by
  unfold execLtcFrame at ht
  refine run_canonical hcan ht ?_
  intro d hd
  repeat' (first | with_reducible assumption | ((try lift_lets); intro d1; refine (fun (hd1 : Dev.Canonical d1) => ?_) ?_; (try clear_value d1); on_goal 2 => unfold d1) | ((try lift_lets); intro dX; first | (have hX : MemSt := dX; clear hX) | (have hX : Regs := dX; clear hX) | (have hX : KeepSt := dX; clear hX) | clear_value dX | skip) | (with_reducible first | apply Dev.modTime_canonical | apply Dev.event_canonical | apply ite_canonical))

theorem execLtcFrameMissing_canonical {s : State} {st' : State} (hcan : s.dev.Canonical) (ht : execLtcFrameMissing s = .next st') : st'.dev.Canonical := by
  unfold execLtcFrameMissing at ht
  refine run_canonical hcan ht ?_
  intro d hd
  repeat' (first | with_reducible assumption | ((try lift_lets); intro dX; first | (have hX : MemSt := dX; clear hX) | (have hX : Regs := dX; clear hX) | (have hX : KeepSt := dX; clear hX) | clear_value dX | skip) | (with_reducible first | apply Dev.modTime_canonical | apply Dev.event_canonical | apply ite_canonical))

/-! ### Raster -/

theorem Dev.modRs_canonical {d : Dev} {r : Nat} {f : RasSt → RasSt} (hd : d.Canonical) : (Dev.modRs d r f).Canonical := by
  unfold Dev.modRs
  repeat' (apply Dev.Canonical.mk <;> (try dsimp only) <;> with_reducible first | exact Dev.Canonical.words ‹_› | exact Dev.Canonical.eff ‹_› | exact Dev.Canonical.keep ‹_› | exact Dev.Canonical.cells ‹_› | exact Dev.Canonical.err ‹_› | exact Dev.Canonical.poison ‹_› | exact Sparse.wf_put (Dev.Canonical.words ‹_›) | exact Sparse.wf_put (Dev.Canonical.eff ‹_›) | exact Sparse.wf_put (Dev.Canonical.cells ‹_›) | exact Sparse.wf_put (Dev.Canonical.err ‹_›) | exact Sparse.wf_put (Dev.Canonical.poison ‹_›) | exact keepStore_wf (Dev.Canonical.keep ‹_›))

theorem Dev.rasCfgBad_canonical {d : Dev} {r : Nat} {addr : Nat} (hd : d.Canonical) : (Dev.rasCfgBad d r addr).Canonical := by
  unfold Dev.rasCfgBad
  repeat' (with_reducible first | assumption | apply Dev.eventAt_canonical)

theorem Dev.refuseLayer_canonical {d : Dev} {r : Nat} {l : Nat} (hd : d.Canonical) : (Dev.refuseLayer d r l).Canonical := by
  unfold Dev.refuseLayer
  repeat' (with_reducible first | assumption | apply Dev.modRs_canonical | apply Dev.releaseBy_canonical | apply Dev.rasCfgBad_canonical)

theorem Dev.rasSelect_canonical {d : Dev} {r : Nat} (hd : d.Canonical) : (Dev.rasSelect d r).Canonical := by
  unfold Dev.rasSelect
  repeat' (first | (with_reducible first | assumption | refine foldl_canonical ?_ (fun d x hd => ?_)) | ((try lift_lets); intro d1; refine (fun (hd1 : Dev.Canonical d1) => ?_) ?_; (try clear_value d1); on_goal 2 => unfold d1) | ((try lift_lets); intro dX; first | (have hX : MemSt := dX; clear hX) | (have hX : Regs := dX; clear hX) | (have hX : KeepSt := dX; clear hX) | clear_value dX | skip) | (with_reducible first | apply Dev.modRs_canonical | apply Dev.releaseBy_canonical | apply Dev.hold_canonical | apply Dev.set_canonical | apply Dev.refuseLayer_canonical | apply Dev.bump_canonical | apply ite_canonical) | split)

theorem execRasterFetchStart_canonical {r : Fin 6} {s : State} {st' : State} (hcan : s.dev.Canonical) (ht : execRasterFetchStart r s = .next st') : st'.dev.Canonical := by
  unfold execRasterFetchStart at ht
  refine run_canonical hcan ht ?_
  intro d hd
  repeat' (with_reducible first | assumption | apply Dev.rasSelect_canonical | apply ite_canonical)

theorem Dev.underrunOne_canonical {d : Dev} {r : Nat} {y : Nat} {what : Nat} (hd : d.Canonical) : (Dev.underrunOne d r y what).Canonical := by
  unfold Dev.underrunOne
  repeat' (first | with_reducible assumption | ((try lift_lets); intro d1; refine (fun (hd1 : Dev.Canonical d1) => ?_) ?_; (try clear_value d1); on_goal 2 => unfold d1) | ((try lift_lets); intro dX; first | (have hX : MemSt := dX; clear hX) | (have hX : Regs := dX; clear hX) | (have hX : KeepSt := dX; clear hX) | clear_value dX | skip) | (with_reducible first | apply Dev.bump_canonical | apply Dev.eventAt_canonical | apply Dev.modRs_canonical | apply Dev.emit_canonical | apply ite_canonical))

theorem Dev.underrun_canonical {d : Dev} {r : Nat} {y : Nat} {what : Nat} (hd : d.Canonical) : (Dev.underrun d r y what).Canonical := by
  unfold Dev.underrun
  repeat' (with_reducible first | assumption | refine foldl_canonical ?_ (fun d x hd => ?_) | apply Dev.underrunOne_canonical | apply ite_canonical)

theorem execRasterLineFetch_canonical {r : Fin 6} {y : Nat} {fifo : Fin 11} {s : State} {st' : State} (hcan : s.dev.Canonical) (ht : execRasterLineFetch r y fifo s = .next st') : st'.dev.Canonical := by
  unfold execRasterLineFetch at ht
  refine run_canonical hcan ht ?_
  intro d hd
  repeat' (first | with_reducible assumption | ((try lift_lets); intro dX; first | (have hX : MemSt := dX; clear hX) | (have hX : Regs := dX; clear hX) | (have hX : KeepSt := dX; clear hX) | clear_value dX | skip) | (with_reducible first | apply Dev.emit_canonical | apply Dev.underrun_canonical | apply ite_canonical) | split)

theorem Dev.rasPhase_canonical {d : Dev} {r : Nat} {phase : Int} (hd : d.Canonical) : (Dev.rasPhase d r phase).Canonical := by
  unfold Dev.rasPhase
  repeat' (first | with_reducible assumption | ((try lift_lets); intro d1; refine (fun (hd1 : Dev.Canonical d1) => ?_) ?_; (try clear_value d1); on_goal 2 => unfold d1) | (with_reducible first | apply Dev.set_canonical | apply Dev.modRs_canonical | apply Dev.setFlag_canonical | apply Dev.eventAt_canonical | apply ite_canonical))

theorem Dev.rasFrameStart_canonical {d : Dev} {r : Nat} {phase : Int} {audioOk : Nat → Bool} (hd : d.Canonical) : (Dev.rasFrameStart d r phase audioOk).Canonical := by
  unfold Dev.rasFrameStart
  repeat' (first | (with_reducible first | assumption | refine foldl_canonical ?_ (fun d x hd => ?_)) | ((try lift_lets); intro d1; refine (fun (hd1 : Dev.Canonical d1) => ?_) ?_; (try clear_value d1); on_goal 2 => unfold d1) | ((try lift_lets); intro dX; first | (have hX : MemSt := dX; clear hX) | (have hX : Regs := dX; clear hX) | (have hX : KeepSt := dX; clear hX) | clear_value dX | skip) | (with_reducible first | apply Dev.rasPhase_canonical | apply Dev.bump_canonical | apply Dev.setFlag_canonical | apply Dev.rasSelect_canonical | apply Dev.modRs_canonical | apply Dev.emit_canonical | apply Dev.eventAt_canonical | apply ite_canonical))

theorem execRasLockAcquired_canonical {r : Fin 6} {s : State} {st' : State} (hcan : s.dev.Canonical) (ht : execRasLockAcquired r s = .next st') : st'.dev.Canonical := by
  unfold execRasLockAcquired at ht
  refine run_canonical hcan ht ?_
  intro d hd
  repeat' (with_reducible first | assumption | apply Dev.setFlag_canonical | apply ite_canonical)

theorem Dev.rasGo_canonical {d : Dev} {r : Nat} (hd : d.Canonical) : (Dev.rasGo d r).Canonical := by
  unfold Dev.rasGo
  repeat' (with_reducible first | assumption | apply Dev.setFlag_canonical)

theorem execRasCommit_canonical {r : Fin 6} {s : State} {st' : State} (hcan : s.dev.Canonical) (ht : execRasCommit r s = .next st') : st'.dev.Canonical := by
  unfold execRasCommit at ht
  refine run_canonical hcan ht ?_
  intro d hd
  repeat' (with_reducible first | assumption | refine Dev.gateWrite_canonical (hf := fun d hd => ?_) ?_ | apply Dev.rasGo_canonical)

theorem Dev.checkLayers_canonical {d : Dev} {r : Nat} (hd : d.Canonical) : (Dev.checkLayers d r).Canonical := by
  unfold Dev.checkLayers
  repeat' (with_reducible first | assumption | refine foldl_canonical ?_ (fun d x hd => ?_) | apply Dev.modRs_canonical | apply Dev.refuseLayer_canonical)

theorem Dev.showSdi_canonical {d : Dev} {r : Nat} {on : Bool} (hd : d.Canonical) : (Dev.showSdi d r on).Canonical := by
  unfold Dev.showSdi
  repeat' (first | (with_reducible first | assumption | refine foldl_canonical ?_ (fun d x hd => ?_)) | ((try lift_lets); intro dX; first | (have hX : MemSt := dX; clear hX) | (have hX : Regs := dX; clear hX) | (have hX : KeepSt := dX; clear hX) | clear_value dX | skip) | (with_reducible first | apply Dev.setFlag_canonical | apply Dev.set_canonical | apply ite_canonical))

theorem Dev.rasLatch_canonical {d : Dev} {r : Nat} (hd : d.Canonical) : (Dev.rasLatch d r).Canonical := by
  unfold Dev.rasLatch
  repeat' (first | (with_reducible first | assumption | refine foldl_canonical ?_ (fun d x hd => ?_)) | ((try lift_lets); intro d1; refine (fun (hd1 : Dev.Canonical d1) => ?_) ?_; (try clear_value d1); on_goal 2 => unfold d1) | ((try lift_lets); intro dX; first | (have hX : MemSt := dX; clear hX) | (have hX : Regs := dX; clear hX) | (have hX : KeepSt := dX; clear hX) | clear_value dX | skip) | (with_reducible first | apply Dev.latchAll_canonical | apply Dev.setEff_canonical | apply Dev.setFlag_canonical | apply Dev.eventAt_canonical | apply Dev.rasCfgBad_canonical | apply Dev.checkLayers_canonical | apply Dev.modRs_canonical | apply Dev.emit_canonical | apply Dev.showSdi_canonical | apply ite_canonical) | (apply Dev.Canonical.mk <;> (try dsimp only) <;> with_reducible first | exact Dev.Canonical.words ‹_› | exact Dev.Canonical.eff ‹_› | exact Dev.Canonical.keep ‹_› | exact Dev.Canonical.cells ‹_› | exact Dev.Canonical.err ‹_› | exact Dev.Canonical.poison ‹_› | exact Sparse.wf_put (Dev.Canonical.words ‹_›) | exact Sparse.wf_put (Dev.Canonical.eff ‹_›) | exact Sparse.wf_put (Dev.Canonical.cells ‹_›) | exact Sparse.wf_put (Dev.Canonical.err ‹_›) | exact Sparse.wf_put (Dev.Canonical.poison ‹_›) | exact keepStore_wf (Dev.Canonical.keep ‹_›)) | split)

theorem execRasterVblank_canonical {r : Fin 6} {s : State} {st' : State} (hcan : s.dev.Canonical) (ht : execRasterVblank r s = .next st') : st'.dev.Canonical := by
  unfold execRasterVblank at ht
  refine run_canonical hcan ht ?_
  intro d hd
  repeat' (first | with_reducible assumption | ((try lift_lets); intro d1; refine (fun (hd1 : Dev.Canonical d1) => ?_) ?_; (try clear_value d1); on_goal 2 => unfold d1) | (with_reducible first | apply Dev.setFlag_canonical | apply Dev.modRs_canonical | apply Dev.rasLatch_canonical | apply ite_canonical))

theorem Dev.rasFreeze_canonical {d : Dev} {r : Nat} (hd : d.Canonical) : (Dev.rasFreeze d r).Canonical := by
  unfold Dev.rasFreeze
  repeat' (first | with_reducible assumption | ((try lift_lets); intro d1; refine (fun (hd1 : Dev.Canonical d1) => ?_) ?_; (try clear_value d1); on_goal 2 => unfold d1) | ((try lift_lets); intro dX; first | (have hX : MemSt := dX; clear hX) | (have hX : Regs := dX; clear hX) | (have hX : KeepSt := dX; clear hX) | clear_value dX | skip) | (with_reducible first | apply Dev.modRs_canonical | apply Dev.set_canonical | apply Dev.setFlag_canonical | apply Dev.eventAt_canonical | apply ite_canonical) | split)

theorem execRasterFrameEnd_canonical {r : Fin 6} {mism : Nat} {s : State} {st' : State} (hcan : s.dev.Canonical) (ht : execRasterFrameEnd r mism s = .next st') : st'.dev.Canonical := by
  unfold execRasterFrameEnd at ht
  refine run_canonical hcan ht ?_
  intro d hd
  repeat' (first | with_reducible assumption | ((try lift_lets); intro d1; refine (fun (hd1 : Dev.Canonical d1) => ?_) ?_; (try clear_value d1); on_goal 2 => unfold d1) | ((try lift_lets); intro dX; first | (have hX : MemSt := dX; clear hX) | (have hX : Regs := dX; clear hX) | (have hX : KeepSt := dX; clear hX) | clear_value dX | skip) | (with_reducible first | apply Dev.rasFreeze_canonical | apply Dev.add_canonical | apply Dev.eventAt_canonical | apply ite_canonical))

theorem execRbLockTimeout_canonical {r : Fin 6} {lanes : Fin 16} {s : State} {st' : State} (hcan : s.dev.Canonical) (ht : execRbLockTimeout r lanes s = .next st') : st'.dev.Canonical := by
  unfold execRbLockTimeout at ht
  refine run_canonical hcan ht ?_
  intro d hd
  repeat' (with_reducible first | assumption | apply Dev.bump_canonical | apply Dev.eventAt_canonical | apply ite_canonical)

theorem execGeckoRowRelease_canonical {p : Fin 8} {s : State} {st' : State} (hcan : s.dev.Canonical) (ht : execGeckoRowRelease p s = .next st') : st'.dev.Canonical := by
  unfold execGeckoRowRelease at ht
  refine run_canonical hcan ht ?_
  intro d hd
  repeat' (first | (with_reducible first | assumption | refine foldl_canonical ?_ (fun d x hd => ?_)) | ((try lift_lets); intro d1; refine (fun (hd1 : Dev.Canonical d1) => ?_) ?_; (try clear_value d1); on_goal 2 => unfold d1) | ((try lift_lets); intro dX; first | (have hX : MemSt := dX; clear hX) | (have hX : Regs := dX; clear hX) | (have hX : KeepSt := dX; clear hX) | clear_value dX | skip) | (with_reducible first | apply Dev.bump_canonical | apply Dev.eventAt_canonical | apply Dev.modGk_canonical | apply Dev.underrun_canonical | apply Dev.setFlag_canonical | apply Dev.modRs_canonical | apply Dev.emit_canonical | apply ite_canonical) | split | (apply Dev.Canonical.mk <;> (try dsimp only) <;> with_reducible first | apply Dev.Canonical.words | apply Dev.Canonical.eff | apply Dev.Canonical.keep | apply Dev.Canonical.cells | apply Dev.Canonical.err | apply Dev.Canonical.poison))

theorem execGeckoFsMissing_canonical {p : Fin 8} {s : State} {st' : State} (hcan : s.dev.Canonical) (ht : execGeckoFsMissing p s = .next st') : st'.dev.Canonical := by
  unfold execGeckoFsMissing at ht
  refine run_canonical hcan ht ?_
  intro d hd
  repeat' (with_reducible first | assumption | refine foldl_canonical ?_ (fun d x hd => ?_) | apply Dev.emit_canonical | apply ite_canonical)

theorem Dev.rasStart_canonical {d : Dev} {r : Nat} (hd : d.Canonical) : (Dev.rasStart d r).Canonical := by
  unfold Dev.rasStart
  repeat' (first | with_reducible assumption | ((try lift_lets); intro d1; refine (fun (hd1 : Dev.Canonical d1) => ?_) ?_; (try clear_value d1); on_goal 2 => unfold d1) | ((try lift_lets); intro dX; first | (have hX : MemSt := dX; clear hX) | (have hX : Regs := dX; clear hX) | (have hX : KeepSt := dX; clear hX) | clear_value dX | skip) | (with_reducible first | apply Dev.latchAll_canonical | apply Dev.setFlag_canonical | apply Dev.eventAt_canonical | apply Dev.refuse_canonical | apply Dev.rasCfgBad_canonical | apply Dev.modRs_canonical | apply Dev.checkLayers_canonical | apply Dev.emit_canonical | apply Dev.showSdi_canonical | apply ite_canonical) | split)

theorem Dev.rasStop_canonical {d : Dev} {r : Nat} (hd : d.Canonical) : (Dev.rasStop d r).Canonical := by
  unfold Dev.rasStop
  repeat' (first | (with_reducible first | assumption | refine foldl_canonical ?_ (fun d x hd => ?_)) | ((try lift_lets); intro d1; refine (fun (hd1 : Dev.Canonical d1) => ?_) ?_; (try clear_value d1); on_goal 2 => unfold d1) | (with_reducible first | apply Dev.releaseBy_canonical | apply Dev.modRs_canonical | apply Dev.setWord_canonical | apply Dev.setFlag_canonical | apply Dev.showSdi_canonical | apply Dev.emit_canonical | apply ite_canonical))

theorem Dev.rasStopAll_canonical {d : Dev} (hd : d.Canonical) : (Dev.rasStopAll d).Canonical := by
  unfold Dev.rasStopAll
  repeat' (with_reducible first | assumption | refine foldl_canonical ?_ (fun d x hd => ?_) | apply Dev.rasStop_canonical)

/-! ### Decoder -/

theorem Dev.modDec_canonical {d : Dev} {k : Nat} {f : DecSt → DecSt} (hd : d.Canonical) : (Dev.modDec d k f).Canonical := by
  unfold Dev.modDec
  repeat' (apply Dev.Canonical.mk <;> (try dsimp only) <;> with_reducible first | exact Dev.Canonical.words ‹_› | exact Dev.Canonical.eff ‹_› | exact Dev.Canonical.keep ‹_› | exact Dev.Canonical.cells ‹_› | exact Dev.Canonical.err ‹_› | exact Dev.Canonical.poison ‹_› | exact Sparse.wf_put (Dev.Canonical.words ‹_›) | exact Sparse.wf_put (Dev.Canonical.eff ‹_›) | exact Sparse.wf_put (Dev.Canonical.cells ‹_›) | exact Sparse.wf_put (Dev.Canonical.err ‹_›) | exact Sparse.wf_put (Dev.Canonical.poison ‹_›) | exact keepStore_wf (Dev.Canonical.keep ‹_›))

theorem Dev.decStart_canonical {d : Dev} {k : Nat} (hd : d.Canonical) : (Dev.decStart d k).Canonical := by
  unfold Dev.decStart
  repeat' (first | with_reducible assumption | ((try lift_lets); intro dX; first | (have hX : MemSt := dX; clear hX) | (have hX : Regs := dX; clear hX) | (have hX : KeepSt := dX; clear hX) | clear_value dX | skip) | (with_reducible first | apply Dev.modDec_canonical | apply Dev.set_canonical))

theorem Dev.decLoss_canonical {d : Dev} {k : Nat} (hd : d.Canonical) : (Dev.decLoss d k).Canonical := by
  unfold Dev.decLoss
  repeat' (first | with_reducible assumption | ((try lift_lets); intro d1; refine (fun (hd1 : Dev.Canonical d1) => ?_) ?_; (try clear_value d1); on_goal 2 => unfold d1) | ((try lift_lets); intro dX; first | (have hX : MemSt := dX; clear hX) | (have hX : Regs := dX; clear hX) | (have hX : KeepSt := dX; clear hX) | clear_value dX | skip) | (with_reducible first | apply Dev.modDec_canonical | apply Dev.set_canonical | apply ite_canonical))

theorem Dev.decDeliver_canonical {d : Dev} {k : Nat} {data : List Byte} {pts : Nat} {disc : Bool} (hd : d.Canonical) : (Dev.decDeliver d k data pts disc).Canonical := by
  unfold Dev.decDeliver
  repeat' (first | with_reducible assumption | ((try lift_lets); intro dX; first | (have hX : MemSt := dX; clear hX) | (have hX : Regs := dX; clear hX) | (have hX : KeepSt := dX; clear hX) | clear_value dX | skip) | (with_reducible first | apply Dev.modDec_canonical | apply ite_canonical))

theorem Dev.decTake_canonical {d : Dev} {k : Nat} (hd : d.Canonical) : ∀ x, (Dev.decTake d k) = some x → x.1.Canonical := by
  unfold Dev.decTake
  intro x hx
  by_cases h1 : d.flag (F.DEC_CFG_SRC k) = true
  · rw [if_pos h1] at hx
    by_cases h2 : d.get (F.DEC_STATUS_IN_CONS k) = d.get (F.DEC_IDX_IN_PROD k)
    · simp only [if_pos h2] at hx
      cases hx
    · simp only [if_neg h2] at hx
      rw [← Option.some.inj hx]
      with_reducible exact Dev.bump_canonical hd
  · rw [if_neg h1] at hx
    split at hx
    · cases hx
    · rw [← Option.some.inj hx]
      with_reducible exact Dev.modDec_canonical hd

theorem execDecoderAccessUnit_canonical {k : Fin 16} {rap : Bool} {s : State} {st' : State} (hcan : s.dev.Canonical) (ht : execDecoderAccessUnit k rap s = .next st') : st'.dev.Canonical := by
  unfold execDecoderAccessUnit at ht
  refine run_canonical hcan ht ?_
  intro d hd
  repeat' (first | with_reducible assumption | ((try lift_lets); intro d1; refine (fun (hd1 : Dev.Canonical d1) => ?_) ?_; (try clear_value d1); on_goal 2 => unfold d1) | ((try lift_lets); intro dX; first | (have hX : MemSt := dX; clear hX) | (have hX : Regs := dX; clear hX) | (have hX : KeepSt := dX; clear hX) | clear_value dX | skip) | (with_reducible first | apply Dev.set_canonical | apply Dev.decLoss_canonical | apply Dev.modDec_canonical | apply ite_canonical) | (refine Dev.decTake_canonical ?_ _ ‹_›) | split)

theorem Dev.decWrite_canonical {d : Dev} {k : Nat} {i : Nat} {pic : Nat} {p : DecPic} {concealed : Bool} {planes : List (List Nat) × List (List Nat)} {recv : Nat} (hd : d.Canonical) : (Dev.decWrite d k i pic p concealed planes recv).Canonical := by
  unfold Dev.decWrite
  repeat' (first | (with_reducible first | assumption | refine foldl_canonical ?_ (fun d x hd => ?_)) | ((try lift_lets); intro d1; refine (fun (hd1 : Dev.Canonical d1) => ?_) ?_; (try clear_value d1); on_goal 2 => unfold d1) | ((try lift_lets); intro dX; first | (have hX : MemSt := dX; clear hX) | (have hX : Regs := dX; clear hX) | (have hX : KeepSt := dX; clear hX) | clear_value dX | skip) | with_reducible apply Dev.poolWrite_canonical)

theorem execDecoderPictureDone_canonical {k : Fin 16} {p : DecPic} {s : State} {st' : State} (hcan : s.dev.Canonical) (ht : execDecoderPictureDone k p s = .next st') : st'.dev.Canonical := by
  unfold execDecoderPictureDone at ht
  refine run_canonical hcan ht ?_
  intro d hd
  repeat' (first | with_reducible assumption | ((try lift_lets); intro d1; refine (fun (hd1 : Dev.Canonical d1) => ?_) ?_; (try clear_value d1); on_goal 2 => unfold d1) | ((try lift_lets); intro dX; first | (have hX : MemSt := dX; clear hX) | (have hX : Regs := dX; clear hX) | (have hX : KeepSt := dX; clear hX) | clear_value dX | skip) | (with_reducible first | apply Dev.set_canonical | apply Dev.decWrite_canonical | apply Dev.poolWrite_canonical | apply Dev.tookFree_canonical | apply Dev.bump_canonical | apply Dev.add_canonical | apply Dev.eventAt_canonical | apply Dev.setFlag_canonical | apply Dev.modDec_canonical | apply ite_canonical) | split)

/-! ### Net -/

theorem Dev.modTx_canonical {d : Dev} {n : Nat} {f : TxSt → TxSt} (hd : d.Canonical) : (Dev.modTx d n f).Canonical := by
  unfold Dev.modTx
  repeat' (first | ((try lift_lets); intro dX; first | (have hX : MemSt := dX; clear hX) | (have hX : Regs := dX; clear hX) | (have hX : KeepSt := dX; clear hX) | clear_value dX | skip) | (apply Dev.Canonical.mk <;> (try dsimp only) <;> with_reducible first | exact Dev.Canonical.words ‹_› | exact Dev.Canonical.eff ‹_› | exact Dev.Canonical.keep ‹_› | exact Dev.Canonical.cells ‹_› | exact Dev.Canonical.err ‹_› | exact Dev.Canonical.poison ‹_› | exact Sparse.wf_put (Dev.Canonical.words ‹_›) | exact Sparse.wf_put (Dev.Canonical.eff ‹_›) | exact Sparse.wf_put (Dev.Canonical.cells ‹_›) | exact Sparse.wf_put (Dev.Canonical.err ‹_›) | exact Sparse.wf_put (Dev.Canonical.poison ‹_›) | exact keepStore_wf (Dev.Canonical.keep ‹_›)))

theorem Dev.modRx_canonical {d : Dev} {n : Nat} {f : RxSt → RxSt} (hd : d.Canonical) : (Dev.modRx d n f).Canonical := by
  unfold Dev.modRx
  repeat' (first | ((try lift_lets); intro dX; first | (have hX : MemSt := dX; clear hX) | (have hX : Regs := dX; clear hX) | (have hX : KeepSt := dX; clear hX) | clear_value dX | skip) | (apply Dev.Canonical.mk <;> (try dsimp only) <;> with_reducible first | exact Dev.Canonical.words ‹_› | exact Dev.Canonical.eff ‹_› | exact Dev.Canonical.keep ‹_› | exact Dev.Canonical.cells ‹_› | exact Dev.Canonical.err ‹_› | exact Dev.Canonical.poison ‹_› | exact Sparse.wf_put (Dev.Canonical.words ‹_›) | exact Sparse.wf_put (Dev.Canonical.eff ‹_›) | exact Sparse.wf_put (Dev.Canonical.cells ‹_›) | exact Sparse.wf_put (Dev.Canonical.err ‹_›) | exact Sparse.wf_put (Dev.Canonical.poison ‹_›) | exact keepStore_wf (Dev.Canonical.keep ‹_›)))

theorem Dev.arpAsk_canonical {d : Dev} {_n : Nat} {p : Nat × Nat × Nat} (hd : d.Canonical) : (Dev.arpAsk d _n p).Canonical := by
  unfold Dev.arpAsk
  repeat' (with_reducible first | assumption | apply Dev.emit_canonical | apply ite_canonical)

theorem Dev.showTx_canonical {d : Dev} {n : Nat} (hd : d.Canonical) : (Dev.showTx d n).Canonical := by
  unfold Dev.showTx
  repeat' (first | with_reducible assumption | ((try lift_lets); intro dX; first | (have hX : MemSt := dX; clear hX) | (have hX : Regs := dX; clear hX) | (have hX : KeepSt := dX; clear hX) | clear_value dX | skip) | with_reducible apply Dev.set_canonical)

theorem Dev.igmp_canonical {d : Dev} {n : Nat} {i : Nat} (hd : d.Canonical) : (Dev.igmp d n i).Canonical := by
  unfold Dev.igmp
  repeat' (with_reducible first | assumption | refine foldl_canonical ?_ (fun d x hd => ?_) | apply Dev.emit_canonical | apply ite_canonical)

theorem execEthLinkDown_canonical {i : Fin 8} {s : State} {st' : State} (hcan : s.dev.Canonical) (ht : execEthLinkDown i s = .next st') : st'.dev.Canonical := by
  unfold execEthLinkDown at ht
  refine run_canonical hcan ht ?_
  intro d hd
  repeat' (first | (with_reducible first | assumption | refine foldl_canonical ?_ (fun d x hd => ?_)) | ((try lift_lets); intro d1; refine (fun (hd1 : Dev.Canonical d1) => ?_) ?_; (try clear_value d1); on_goal 2 => unfold d1) | (with_reducible first | apply Dev.setFlag_canonical | apply Dev.bump_canonical | apply Dev.eventAt_canonical | apply Dev.showTx_canonical | apply ite_canonical))

theorem execEthLinkUp_canonical {i : Fin 8} {s : State} {st' : State} (hcan : s.dev.Canonical) (ht : execEthLinkUp i s = .next st') : st'.dev.Canonical := by
  unfold execEthLinkUp at ht
  refine run_canonical hcan ht ?_
  intro d hd
  repeat' (first | (with_reducible first | assumption | refine foldl_canonical ?_ (fun d x hd => ?_)) | ((try lift_lets); intro d1; refine (fun (hd1 : Dev.Canonical d1) => ?_) ?_; (try clear_value d1); on_goal 2 => unfold d1) | ((try lift_lets); intro dX; first | (have hX : MemSt := dX; clear hX) | (have hX : Regs := dX; clear hX) | (have hX : KeepSt := dX; clear hX) | clear_value dX | skip) | (with_reducible first | apply Dev.setFlag_canonical | apply Dev.eventAt_canonical | apply Dev.modTx_canonical | apply Dev.arpAsk_canonical | apply Dev.showTx_canonical | apply Dev.igmp_canonical | apply ite_canonical))

theorem execArpRx_canonical {i : Fin 8} {reply : Bool} {senderIp : Nat} {senderMac : Nat} {targetIp : Nat} {s : State} {st' : State} (hcan : s.dev.Canonical) (ht : execArpRx i reply senderIp senderMac targetIp s = .next st') : st'.dev.Canonical := by
  unfold execArpRx at ht
  refine run_canonical hcan ht ?_
  intro d hd
  repeat' (first | (with_reducible first | assumption | refine foldl_canonical ?_ (fun d x hd => ?_)) | ((try lift_lets); intro dX; first | (have hX : MemSt := dX; clear hX) | (have hX : Regs := dX; clear hX) | (have hX : KeepSt := dX; clear hX) | clear_value dX | skip) | (with_reducible first | apply Dev.emit_canonical | apply Dev.modTx_canonical | apply Dev.showTx_canonical | apply ite_canonical))

theorem execIcmpEchoRx_canonical {i : Fin 8} {srcIp : Nat} {srcMac : Nat} {dstIp : Nat} {data : List Byte} {s : State} {st' : State} (hcan : s.dev.Canonical) (ht : execIcmpEchoRx i srcIp srcMac dstIp data s = .next st') : st'.dev.Canonical := by
  unfold execIcmpEchoRx at ht
  refine run_canonical hcan ht ?_
  intro d hd
  repeat' (with_reducible first | assumption | apply Dev.emit_canonical | apply ite_canonical)

theorem execArpRenew_canonical {n : Fin 1024} {path : Fin 2} {s : State} {st' : State} (hcan : s.dev.Canonical) (ht : execArpRenew n path s = .next st') : st'.dev.Canonical := by
  unfold execArpRenew at ht
  refine run_canonical hcan ht ?_
  intro d hd
  repeat' (first | (with_reducible first | assumption | apply Dev.arpAsk_canonical | apply ite_canonical) | split)

theorem execArpResolveTimeout_canonical {n : Fin 1024} {path : Fin 2} {s : State} {st' : State} (hcan : s.dev.Canonical) (ht : execArpResolveTimeout n path s = .next st') : st'.dev.Canonical := by
  unfold execArpResolveTimeout at ht
  refine run_canonical hcan ht ?_
  intro d hd
  repeat' (first | (with_reducible first | assumption | apply Dev.modTx_canonical | apply Dev.eventAt_canonical | apply ite_canonical) | split)

theorem execMailboxFrameRx_canonical {i : Fin 8} {frame : List Byte} {fcsOk : Bool} {s : State} {st' : State} (hcan : s.dev.Canonical) (ht : execMailboxFrameRx i frame fcsOk s = .next st') : st'.dev.Canonical := by
  unfold execMailboxFrameRx at ht
  refine run_canonical hcan ht ?_
  intro d hd
  repeat' (with_reducible first | assumption | apply Dev.bump_canonical | apply Dev.emit_canonical | apply ite_canonical)

theorem Dev.txSend_canonical {d : Dev} {n : Nat} {ts : Nat} {marker : Bool} {bytes : List Byte} {count : Nat} (hd : d.Canonical) : (Dev.txSend d n ts marker bytes count).1.Canonical := by
  unfold Dev.txSend
  repeat' (first | (with_reducible first | assumption | refine foldl_canonical ?_ (fun d x hd => ?_)) | ((try lift_lets); intro d1; refine (fun (hd1 : Dev.Canonical d1) => ?_) ?_; (try clear_value d1); on_goal 2 => unfold d1) | ((try lift_lets); intro dX; first | (have hX : MemSt := dX; clear hX) | (have hX : Regs := dX; clear hX) | (have hX : KeepSt := dX; clear hX) | clear_value dX | skip) | (with_reducible first | apply Dev.add_canonical | apply Dev.modTx_canonical | apply Dev.emit_canonical) | split)

theorem execTxFrameSelect_canonical {n : Fin 1024} {s : State} {st' : State} (hcan : s.dev.Canonical) (ht : execTxFrameSelect n s = .next st') : st'.dev.Canonical := by
  unfold execTxFrameSelect at ht
  refine run_canonical hcan ht ?_
  intro d hd
  repeat' (first | with_reducible assumption | ((try lift_lets); intro d1; refine (fun (hd1 : Dev.Canonical d1) => ?_) ?_; (try clear_value d1); on_goal 2 => unfold d1) | ((try lift_lets); intro dX; first | (have hX : MemSt := dX; clear hX) | (have hX : Regs := dX; clear hX) | (have hX : KeepSt := dX; clear hX) | clear_value dX | skip) | (with_reducible first | apply Dev.modTx_canonical | apply Dev.releaseBy_canonical | apply Dev.hold_canonical | apply ite_canonical) | split)

theorem Dev.txTakeUp_canonical {d : Dev} {n : Nat} (hd : d.Canonical) : (Dev.txTakeUp d n).Canonical := by
  unfold Dev.txTakeUp
  repeat' (first | with_reducible assumption | ((try lift_lets); intro dX; first | (have hX : MemSt := dX; clear hX) | (have hX : Regs := dX; clear hX) | (have hX : KeepSt := dX; clear hX) | clear_value dX | skip) | (with_reducible first | apply Dev.releaseBy_canonical | apply Dev.hold_canonical | apply Dev.modTx_canonical) | split)

theorem Dev.txAdvance_canonical {d : Dev} {n : Nat} {more : Bool} (hd : d.Canonical) : (Dev.txAdvance d n more).Canonical := by
  unfold Dev.txAdvance
  repeat' (with_reducible first | assumption | apply Dev.modTx_canonical | apply ite_canonical)

theorem Dev.txFrame_canonical {d : Dev} {n : Nat} {b : ShownBuf} (hd : d.Canonical) : (Dev.txFrame d n b).Canonical := by
  unfold Dev.txFrame
  repeat' (first | with_reducible assumption | ((try lift_lets); intro r1; refine (fun (hr1 : Dev.Canonical r1.1) => ?_) ?_; (try clear_value r1); on_goal 2 => unfold r1) | ((try lift_lets); intro dX; first | (have hX : MemSt := dX; clear hX) | (have hX : Regs := dX; clear hX) | (have hX : KeepSt := dX; clear hX) | clear_value dX | skip) | (with_reducible first | apply Dev.txSend_canonical | apply Dev.txAdvance_canonical | apply ite_canonical))

theorem execTxPacket_canonical {n : Fin 1024} {s : State} {st' : State} (hcan : s.dev.Canonical) (ht : execTxPacket n s = .next st') : st'.dev.Canonical := by
  unfold execTxPacket at ht
  refine run_canonical hcan ht ?_
  intro d hd
  repeat' (first | with_reducible assumption | ((try lift_lets); intro d1; refine (fun (hd1 : Dev.Canonical d1) => ?_) ?_; (try clear_value d1); on_goal 2 => unfold d1) | ((try lift_lets); intro dX; first | (have hX : MemSt := dX; clear hX) | (have hX : Regs := dX; clear hX) | (have hX : KeepSt := dX; clear hX) | clear_value dX | skip) | (with_reducible first | apply Dev.txTakeUp_canonical | apply Dev.txFrame_canonical | apply ite_canonical) | split)

theorem execTxBandSend_canonical {n : Fin 1024} {s : State} {st' : State} (hcan : s.dev.Canonical) (ht : execTxBandSend n s = .next st') : st'.dev.Canonical := by
  unfold execTxBandSend at ht
  refine run_canonical hcan ht ?_
  intro d hd
  repeat' (first | with_reducible assumption | ((try lift_lets); intro d1; refine (fun (hd1 : Dev.Canonical d1) => ?_) ?_; (try clear_value d1); on_goal 2 => unfold d1) | ((try lift_lets); intro dX; first | (have hX : MemSt := dX; clear hX) | (have hX : Regs := dX; clear hX) | (have hX : KeepSt := dX; clear hX) | clear_value dX | skip) | (with_reducible first | apply Dev.tookFree_canonical | apply Dev.add_canonical | apply Dev.txSend_canonical | apply Dev.modTx_canonical | apply Dev.bump_canonical | apply ite_canonical) | split)

theorem Dev.audToFlows_canonical {d : Dev} {m : Nat} (hd : d.Canonical) : (Dev.audToFlows d m).Canonical := by
  unfold Dev.audToFlows
  repeat' (first | (with_reducible first | assumption | refine foldl_canonical ?_ (fun d x hd => ?_)) | ((try lift_lets); intro dX; first | (have hX : MemSt := dX; clear hX) | (have hX : Regs := dX; clear hX) | (have hX : KeepSt := dX; clear hX) | clear_value dX | skip) | (with_reducible first | apply Dev.modTx_canonical | apply ite_canonical))

theorem execDomainFrame_canonical {m : Fin 2} {ins : List (Nat × Nat)} {s : State} {st' : State} (hcan : s.dev.Canonical) (ht : execDomainFrame m ins s = .next st') : st'.dev.Canonical := by
  unfold execDomainFrame at ht
  refine run_canonical hcan ht ?_
  intro d hd
  repeat' (with_reducible first | assumption | apply Dev.domainFrame_canonical | apply Dev.audToFlows_canonical | apply ite_canonical)

theorem execAudioPacketTx_canonical {n : Fin 1024} {s : State} {st' : State} (hcan : s.dev.Canonical) (ht : execAudioPacketTx n s = .next st') : st'.dev.Canonical := by
  unfold execAudioPacketTx at ht
  refine run_canonical hcan ht ?_
  intro d hd
  repeat' (first | with_reducible assumption | ((try lift_lets); intro dX; first | (have hX : MemSt := dX; clear hX) | (have hX : Regs := dX; clear hX) | (have hX : KeepSt := dX; clear hX) | clear_value dX | skip) | (with_reducible first | apply Dev.txSend_canonical | apply Dev.modTx_canonical | apply ite_canonical))

theorem Dev.ancTx_canonical {d : Dev} {r : Nat} (hd : d.Canonical) : (Dev.ancTx d r).Canonical := by
  unfold Dev.ancTx
  repeat' (first | (with_reducible first | assumption | refine foldl_canonical ?_ (fun d x hd => ?_)) | ((try lift_lets); intro dX; first | (have hX : MemSt := dX; clear hX) | (have hX : Regs := dX; clear hX) | (have hX : KeepSt := dX; clear hX) | clear_value dX | skip) | with_reducible apply Dev.txSend_canonical)

theorem execRasterFrameStart_canonical {r : Fin 6} {phase : Int} {s : State} {st' : State} (hcan : s.dev.Canonical) (ht : execRasterFrameStart r phase s = .next st') : st'.dev.Canonical := by
  unfold execRasterFrameStart at ht
  refine run_canonical hcan ht ?_
  intro d hd
  repeat' (first | with_reducible assumption | ((try lift_lets); intro d1; refine (fun (hd1 : Dev.Canonical d1) => ?_) ?_; (try clear_value d1); on_goal 2 => unfold d1) | (with_reducible first | apply Dev.rasFrameStart_canonical | apply Dev.ancTx_canonical | apply ite_canonical))

theorem Dev.txOn_canonical {d : Dev} {n : Nat} (hd : d.Canonical) : (Dev.txOn d n).Canonical := by
  unfold Dev.txOn
  repeat' (first | (with_reducible first | assumption | refine foldl_canonical ?_ (fun d x hd => ?_)) | ((try lift_lets); intro d1; refine (fun (hd1 : Dev.Canonical d1) => ?_) ?_; (try clear_value d1); on_goal 2 => unfold d1) | (with_reducible first | apply Dev.eventAt_canonical | apply Dev.refuse_canonical | apply Dev.modTx_canonical | apply Dev.arpAsk_canonical | apply Dev.showTx_canonical | apply ite_canonical) | split)

theorem Dev.txOff_canonical {d : Dev} {n : Nat} (hd : d.Canonical) : (Dev.txOff d n).Canonical := by
  unfold Dev.txOff
  repeat' (with_reducible first | assumption | apply Dev.releaseBy_canonical | apply Dev.modTx_canonical | apply Dev.showTx_canonical)

theorem Dev.rxOn_canonical {d : Dev} {n : Nat} (hd : d.Canonical) : (Dev.rxOn d n).Canonical := by
  unfold Dev.rxOn
  repeat' (first | (with_reducible first | assumption | refine foldl_canonical ?_ (fun d x hd => ?_)) | ((try lift_lets); intro d1; refine (fun (hd1 : Dev.Canonical d1) => ?_) ?_; (try clear_value d1); on_goal 2 => unfold d1) | (with_reducible first | apply Dev.modRx_canonical | apply Dev.modDec_canonical | apply Dev.igmp_canonical | apply ite_canonical))

theorem Dev.rxOff_canonical {d : Dev} {n : Nat} (hd : d.Canonical) : (Dev.rxOff d n).Canonical := by
  unfold Dev.rxOff
  repeat' (with_reducible first | assumption | apply Dev.modRx_canonical | apply Dev.set_canonical)

theorem Dev.rxVideo_canonical {d : Dev} {n : Nat} {p : RtpPacket} (hd : d.Canonical) : (Dev.rxVideo d n p).Canonical := by
  unfold Dev.rxVideo
  repeat' (first | (with_reducible first | assumption | refine foldl_canonical ?_ (fun d x hd => ?_)) | ((try lift_lets); intro d1; refine (fun (hd1 : Dev.Canonical d1) => ?_) ?_; (try clear_value d1); on_goal 2 => unfold d1) | ((try lift_lets); intro dX; first | (have hX : MemSt := dX; clear hX) | (have hX : Regs := dX; clear hX) | (have hX : KeepSt := dX; clear hX) | clear_value dX | skip) | (with_reducible first | apply Dev.modRx_canonical | apply Dev.poolWrite_canonical | apply Dev.devPut_canonical | apply Dev.modDec_canonical | apply ite_canonical) | split | (apply Dev.Canonical.mk <;> (try dsimp only) <;> with_reducible first | apply Dev.Canonical.words | apply Dev.Canonical.eff | apply Dev.Canonical.keep | apply Dev.Canonical.cells | apply Dev.Canonical.err | apply Dev.Canonical.poison))

theorem Dev.rxDeliver_canonical {d : Dev} {n : Nat} {p : RtpPacket} (hd : d.Canonical) : (Dev.rxDeliver d n p).Canonical := by
  unfold Dev.rxDeliver
  repeat' (first | with_reducible assumption | ((try lift_lets); intro d1; refine (fun (hd1 : Dev.Canonical d1) => ?_) ?_; (try clear_value d1); on_goal 2 => unfold d1) | ((try lift_lets); intro dX; first | (have hX : MemSt := dX; clear hX) | (have hX : Regs := dX; clear hX) | (have hX : KeepSt := dX; clear hX) | clear_value dX | skip) | (with_reducible first | apply Dev.rxVideo_canonical | apply Dev.decLoss_canonical | apply Dev.decDeliver_canonical | apply Dev.modRx_canonical | apply Dev.modAnet_canonical | apply Dev.poolWrite_canonical | apply Dev.tookFree_canonical | apply ite_canonical) | split)

theorem Dev.rxAge_canonical {d : Dev} {n : Nat} (hd : d.Canonical) : (Dev.rxAge d n).Canonical := by
  unfold Dev.rxAge
  repeat' (first | with_reducible assumption | ((try lift_lets); intro dX; first | (have hX : MemSt := dX; clear hX) | (have hX : Regs := dX; clear hX) | (have hX : KeepSt := dX; clear hX) | clear_value dX | skip) | (with_reducible first | apply Dev.add_canonical | apply Dev.modRx_canonical | apply ite_canonical))

theorem Dev.rxRelease_canonical {x0 : Nat} {x1 : Dev} {x2 : Nat} (hx1 : x1.Canonical) : (Dev.rxRelease x0 x1 x2).Canonical := by
  induction x0 generalizing x1 x2 hx1 with
  | zero => exact hx1
  | succ n ih =>
    unfold Dev.rxRelease
    repeat' (first | (with_reducible first | assumption | apply ih) | ((try lift_lets); intro d1; refine (fun (hd1 : Dev.Canonical d1) => ?_) ?_; (try clear_value d1); on_goal 2 => unfold d1) | ((try lift_lets); intro dX; first | (have hX : MemSt := dX; clear hX) | (have hX : Regs := dX; clear hX) | (have hX : KeepSt := dX; clear hX) | clear_value dX | skip) | (with_reducible first | apply Dev.modRx_canonical | apply Dev.rxDeliver_canonical) | split)

theorem execRxPacket_canonical {n : Fin 256} {path : Fin 2} {p : RtpPacket} {s : State} {st' : State} (hcan : s.dev.Canonical) (ht : execRxPacket n path p s = .next st') : st'.dev.Canonical := by
  unfold execRxPacket at ht
  refine run_canonical hcan ht ?_
  intro d hd
  repeat' (first | with_reducible assumption | ((try lift_lets); intro d1; refine (fun (hd1 : Dev.Canonical d1) => ?_) ?_; (try clear_value d1); on_goal 2 => unfold d1) | ((try lift_lets); intro dX; first | (have hX : MemSt := dX; clear hX) | (have hX : Regs := dX; clear hX) | (have hX : KeepSt := dX; clear hX) | clear_value dX | skip) | (with_reducible first | apply Dev.set_canonical | apply Dev.rxAge_canonical | apply Dev.modRx_canonical | apply Dev.bump_canonical | apply Dev.rxRelease_canonical | apply ite_canonical))

theorem execRxReorderExpiry_canonical {n : Fin 256} {s : State} {st' : State} (hcan : s.dev.Canonical) (ht : execRxReorderExpiry n s = .next st') : st'.dev.Canonical := by
  unfold execRxReorderExpiry at ht
  refine run_canonical hcan ht ?_
  intro d hd
  repeat' (first | with_reducible assumption | ((try lift_lets); intro d1; refine (fun (hd1 : Dev.Canonical d1) => ?_) ?_; (try clear_value d1); on_goal 2 => unfold d1) | ((try lift_lets); intro dX; first | (have hX : MemSt := dX; clear hX) | (have hX : Regs := dX; clear hX) | (have hX : KeepSt := dX; clear hX) | clear_value dX | skip) | (with_reducible first | apply Dev.rxAge_canonical | apply Dev.add_canonical | apply Dev.eventAt_canonical | apply Dev.modRx_canonical | apply Dev.rxRelease_canonical | apply ite_canonical) | split | (apply Dev.Canonical.mk <;> (try dsimp only) <;> with_reducible first | apply Dev.Canonical.words | apply Dev.Canonical.eff | apply Dev.Canonical.keep | apply Dev.Canonical.cells | apply Dev.Canonical.err | apply Dev.Canonical.poison))

theorem execPathSilenceTimeout_canonical {n : Fin 256} {path : Fin 2} {s : State} {st' : State} (hcan : s.dev.Canonical) (ht : execPathSilenceTimeout n path s = .next st') : st'.dev.Canonical := by
  unfold execPathSilenceTimeout at ht
  refine run_canonical hcan ht ?_
  intro d hd
  repeat' (with_reducible first | assumption | apply Dev.set_canonical | apply Dev.eventAt_canonical | apply ite_canonical)

theorem Dev.netStart_canonical {d : Dev} {on : Bool} (hd : d.Canonical) : (Dev.netStart d on).Canonical := by
  unfold Dev.netStart
  repeat' (first | (with_reducible first | assumption | refine foldl_canonical ?_ (fun d x hd => ?_)) | ((try lift_lets); intro d1; refine (fun (hd1 : Dev.Canonical d1) => ?_) ?_; (try clear_value d1); on_goal 2 => unfold d1) | ((try lift_lets); intro dX; first | (have hX : MemSt := dX; clear hX) | (have hX : Regs := dX; clear hX) | (have hX : KeepSt := dX; clear hX) | clear_value dX | skip) | (with_reducible first | apply Dev.txOff_canonical | apply Dev.rxOff_canonical | apply Dev.cfgZero_canonical | apply Dev.refuse_canonical | apply Dev.txOn_canonical | apply Dev.rxOn_canonical | apply ite_canonical) | split)

end Sys2Proof.Machine
end

