-- ==== Sys2Proof/Laws/CanonicalPower.lean ====
section
/-!
SUPPORT. The canonical form (`Dev.Canonical`) is kept: engine failures, memory, clocks, power, thermal, start and resets.
-/
set_option linter.all false
set_option linter.unusedTactic false
set_option linter.unreachableTactic false
namespace Sys2Proof.Machine

/-! ### Hold -/

theorem Dev.stopCapture_canonical {d : Dev} (hd : d.Canonical) : (Dev.stopCapture d).Canonical := by
  unfold Dev.stopCapture
  repeat' (first | with_reducible assumption | ((try lift_lets); intro d1; refine (fun (hd1 : Dev.Canonical d1) => ?_) ?_; (try clear_value d1); on_goal 2 => unfold d1) | ((try lift_lets); intro dX; first | (have hX : MemSt := dX; clear hX) | (have hX : Regs := dX; clear hX) | (have hX : KeepSt := dX; clear hX) | clear_value dX | skip) | with_reducible apply Dev.zeBusy_canonical | (apply Dev.Canonical.mk <;> (try dsimp only) <;> with_reducible first | exact Dev.Canonical.words ‹_› | exact Dev.Canonical.eff ‹_› | exact Dev.Canonical.keep ‹_› | exact Dev.Canonical.cells ‹_› | exact Dev.Canonical.err ‹_› | exact Dev.Canonical.poison ‹_› | exact Sparse.wf_put (Dev.Canonical.words ‹_›) | exact Sparse.wf_put (Dev.Canonical.eff ‹_›) | exact Sparse.wf_put (Dev.Canonical.cells ‹_›) | exact Sparse.wf_put (Dev.Canonical.err ‹_›) | exact Sparse.wf_put (Dev.Canonical.poison ‹_›) | exact keepStore_wf (Dev.Canonical.keep ‹_›)))

theorem Dev.stopSessions_canonical {d : Dev} (hd : d.Canonical) : (Dev.stopSessions d).Canonical := by
  unfold Dev.stopSessions
  repeat' (first | (with_reducible first | assumption | refine foldl_canonical ?_ (fun d x hd => ?_)) | ((try lift_lets); intro d1; refine (fun (hd1 : Dev.Canonical d1) => ?_) ?_; (try clear_value d1); on_goal 2 => unfold d1) | ((try lift_lets); intro dX; first | (have hX : MemSt := dX; clear hX) | (have hX : Regs := dX; clear hX) | (have hX : KeepSt := dX; clear hX) | clear_value dX | skip) | (with_reducible first | apply Dev.modSes_canonical | apply Dev.sesStopped_canonical) | (apply Dev.Canonical.mk <;> (try dsimp only) <;> with_reducible first | exact Dev.Canonical.words ‹_› | exact Dev.Canonical.eff ‹_› | exact Dev.Canonical.keep ‹_› | exact Dev.Canonical.cells ‹_› | exact Dev.Canonical.err ‹_› | exact Dev.Canonical.poison ‹_› | exact Sparse.wf_put (Dev.Canonical.words ‹_›) | exact Sparse.wf_put (Dev.Canonical.eff ‹_›) | exact Sparse.wf_put (Dev.Canonical.cells ‹_›) | exact Sparse.wf_put (Dev.Canonical.err ‹_›) | exact Sparse.wf_put (Dev.Canonical.poison ‹_›) | exact keepStore_wf (Dev.Canonical.keep ‹_›)))

theorem Dev.stopDecoders_canonical {d : Dev} (hd : d.Canonical) : (Dev.stopDecoders d).Canonical := by
  unfold Dev.stopDecoders
  repeat' (first | (with_reducible first | assumption | refine foldl_canonical ?_ (fun d x hd => ?_)) | ((try lift_lets); intro d1; refine (fun (hd1 : Dev.Canonical d1) => ?_) ?_; (try clear_value d1); on_goal 2 => unfold d1) | with_reducible apply Dev.set_canonical | (apply Dev.Canonical.mk <;> (try dsimp only) <;> with_reducible first | exact Dev.Canonical.words ‹_› | exact Dev.Canonical.eff ‹_› | exact Dev.Canonical.keep ‹_› | exact Dev.Canonical.cells ‹_› | exact Dev.Canonical.err ‹_› | exact Dev.Canonical.poison ‹_› | exact Sparse.wf_put (Dev.Canonical.words ‹_›) | exact Sparse.wf_put (Dev.Canonical.eff ‹_›) | exact Sparse.wf_put (Dev.Canonical.cells ‹_›) | exact Sparse.wf_put (Dev.Canonical.err ‹_›) | exact Sparse.wf_put (Dev.Canonical.poison ‹_›) | exact keepStore_wf (Dev.Canonical.keep ‹_›)))

theorem Dev.closeClips_canonical {d : Dev} (hd : d.Canonical) : (Dev.closeClips d).Canonical := by
  unfold Dev.closeClips
  repeat' (with_reducible first | assumption | refine foldl_canonical ?_ (fun d x hd => ?_) | apply Dev.closeClip_canonical)

theorem Dev.outputsToSafe_canonical {d : Dev} (hd : d.Canonical) : (Dev.outputsToSafe d).Canonical := by
  unfold Dev.outputsToSafe
  repeat' (first | ((try lift_lets); intro dX; first | (have hX : MemSt := dX; clear hX) | (have hX : Regs := dX; clear hX) | (have hX : KeepSt := dX; clear hX) | clear_value dX | skip) | with_reducible apply Dev.pin_canonical | (apply Dev.Canonical.mk <;> (try dsimp only) <;> with_reducible first | exact Dev.Canonical.words ‹_› | exact Dev.Canonical.eff ‹_› | exact Dev.Canonical.keep ‹_› | exact Dev.Canonical.cells ‹_› | exact Dev.Canonical.err ‹_› | exact Dev.Canonical.poison ‹_› | exact Sparse.wf_put (Dev.Canonical.words ‹_›) | exact Sparse.wf_put (Dev.Canonical.eff ‹_›) | exact Sparse.wf_put (Dev.Canonical.cells ‹_›) | exact Sparse.wf_put (Dev.Canonical.err ‹_›) | exact Sparse.wf_put (Dev.Canonical.poison ‹_›) | exact keepStore_wf (Dev.Canonical.keep ‹_›)))

theorem Dev.linksDown_canonical {d : Dev} (hd : d.Canonical) : (Dev.linksDown d).Canonical := by
  unfold Dev.linksDown
  repeat' (first | (with_reducible first | assumption | refine foldl_canonical ?_ (fun d x hd => ?_)) | ((try lift_lets); intro d1; refine (fun (hd1 : Dev.Canonical d1) => ?_) ?_; (try clear_value d1); on_goal 2 => unfold d1) | with_reducible apply Dev.setFlag_canonical | (apply Dev.Canonical.mk <;> (try dsimp only) <;> with_reducible first | exact Dev.Canonical.words ‹_› | exact Dev.Canonical.eff ‹_› | exact Dev.Canonical.keep ‹_› | exact Dev.Canonical.cells ‹_› | exact Dev.Canonical.err ‹_› | exact Dev.Canonical.poison ‹_› | exact Sparse.wf_put (Dev.Canonical.words ‹_›) | exact Sparse.wf_put (Dev.Canonical.eff ‹_›) | exact Sparse.wf_put (Dev.Canonical.cells ‹_›) | exact Sparse.wf_put (Dev.Canonical.err ‹_›) | exact Sparse.wf_put (Dev.Canonical.poison ‹_›) | exact keepStore_wf (Dev.Canonical.keep ‹_›)))

theorem Dev.stopOutputs_canonical {d : Dev} (hd : d.Canonical) : (Dev.stopOutputs d).Canonical := by
  unfold Dev.stopOutputs
  repeat' (with_reducible first | assumption | refine foldl_canonical ?_ (fun d x hd => ?_) | apply Dev.rasStopAll_canonical | apply Dev.audStop_canonical | apply Dev.netStart_canonical | apply Dev.trigStopAll_canonical | apply Dev.pgStart_canonical)

theorem Dev.stopWork_canonical {d : Dev} (hd : d.Canonical) : (Dev.stopWork d).Canonical := by
  unfold Dev.stopWork
  repeat' (first | with_reducible assumption | ((try lift_lets); intro d1; refine (fun (hd1 : Dev.Canonical d1) => ?_) ?_; (try clear_value d1); on_goal 2 => unfold d1) | (with_reducible first | apply Dev.offAbort_canonical | apply Dev.closeClips_canonical | apply Dev.stopSessions_canonical | apply Dev.stopDecoders_canonical | apply Dev.stopCapture_canonical | apply Dev.stopOutputs_canonical | apply ite_canonical))

theorem Dev.setCause_canonical {d : Dev} {c : Nat} {b : Bool} (hd : d.Canonical) : (Dev.setCause d c b).Canonical := by
  unfold Dev.setCause
  repeat' (with_reducible first | assumption | apply Dev.setWord_canonical)

theorem Dev.enterHold_canonical {d : Dev} {cause : Nat} (hd : d.Canonical) : (Dev.enterHold d cause).Canonical := by
  unfold Dev.enterHold
  repeat' (first | with_reducible assumption | ((try lift_lets); intro d1; refine (fun (hd1 : Dev.Canonical d1) => ?_) ?_; (try clear_value d1); on_goal 2 => unfold d1) | ((try lift_lets); intro dX; first | (have hX : MemSt := dX; clear hX) | (have hX : Regs := dX; clear hX) | (have hX : KeepSt := dX; clear hX) | clear_value dX | skip) | (with_reducible first | apply Dev.setCause_canonical | apply Dev.outputsToSafe_canonical | apply Dev.stopWork_canonical | apply Dev.linksDown_canonical | apply Dev.set_canonical | apply Dev.setFlag_canonical | apply Dev.driveFault_canonical | apply Dev.keepCount_canonical | apply Dev.event_canonical | apply ite_canonical) | (apply Dev.Canonical.mk <;> (try dsimp only) <;> with_reducible first | exact Dev.Canonical.words ‹_› | exact Dev.Canonical.eff ‹_› | exact Dev.Canonical.keep ‹_› | exact Dev.Canonical.cells ‹_› | exact Dev.Canonical.err ‹_› | exact Dev.Canonical.poison ‹_› | exact Sparse.wf_put (Dev.Canonical.words ‹_›) | exact Sparse.wf_put (Dev.Canonical.eff ‹_›) | exact Sparse.wf_put (Dev.Canonical.cells ‹_›) | exact Sparse.wf_put (Dev.Canonical.err ‹_›) | exact Sparse.wf_put (Dev.Canonical.poison ‹_›) | exact keepStore_wf (Dev.Canonical.keep ‹_›)))

/-! ### VeFault -/

theorem Dev.setVeFence_canonical {d : Dev} {e : Nat} (hd : d.Canonical) : (Dev.setVeFence d e).Canonical := by
  unfold Dev.setVeFence
  repeat' (first | with_reducible assumption | ((try lift_lets); intro d1; refine (fun (hd1 : Dev.Canonical d1) => ?_) ?_; (try clear_value d1); on_goal 2 => unfold d1) | (with_reducible first | apply Dev.set_canonical | apply Dev.keepCount_canonical | apply ite_canonical))

theorem Dev.setVeSpare_canonical {d : Dev} {q : Nat} {e : Option Nat} (hd : d.Canonical) : (Dev.setVeSpare d q e).Canonical := by
  unfold Dev.setVeSpare
  repeat' (first | with_reducible assumption | ((try lift_lets); intro dX; first | (have hX : MemSt := dX; clear hX) | (have hX : Regs := dX; clear hX) | (have hX : KeepSt := dX; clear hX) | clear_value dX | skip) | with_reducible apply Dev.setWord_canonical)

theorem Dev.veRename_canonical {d : Dev} {a : Nat} {b : Nat} (hd : d.Canonical) : (Dev.veRename d a b).Canonical := by
  unfold Dev.veRename
  repeat' (with_reducible first | assumption | refine foldl_canonical ?_ (fun d x hd => ?_) | apply Dev.modSes_canonical | apply Dev.modGrp_canonical | apply ite_canonical)

theorem Dev.interrupt_canonical {d : Dev} {js : List RowJob} (hd : d.Canonical) : (Dev.interrupt d js).Canonical := by
  unfold Dev.interrupt
  repeat' (with_reducible first | assumption | refine foldl_canonical ?_ (fun d x hd => ?_) | apply Dev.modRow_canonical)

theorem Dev.veMove_canonical {d : Dev} {a : Nat} {b : Nat} (hd : d.Canonical) : (Dev.veMove d a b).Canonical := by
  unfold Dev.veMove
  repeat' (first | with_reducible assumption | ((try lift_lets); intro d1; refine (fun (hd1 : Dev.Canonical d1) => ?_) ?_; (try clear_value d1); on_goal 2 => unfold d1) | ((try lift_lets); intro dX; first | (have hX : MemSt := dX; clear hX) | (have hX : Regs := dX; clear hX) | (have hX : KeepSt := dX; clear hX) | clear_value dX | skip) | (with_reducible first | apply Dev.interrupt_canonical | apply Dev.veRename_canonical | apply Dev.modVe_canonical | apply Dev.showVe_canonical) | (apply Dev.Canonical.mk <;> (try dsimp only) <;> with_reducible first | exact Dev.Canonical.words ‹_› | exact Dev.Canonical.eff ‹_› | exact Dev.Canonical.keep ‹_› | exact Dev.Canonical.cells ‹_› | exact Dev.Canonical.err ‹_› | exact Dev.Canonical.poison ‹_› | exact Sparse.wf_put (Dev.Canonical.words ‹_›) | exact Sparse.wf_put (Dev.Canonical.eff ‹_›) | exact Sparse.wf_put (Dev.Canonical.cells ‹_›) | exact Sparse.wf_put (Dev.Canonical.err ‹_›) | exact Sparse.wf_put (Dev.Canonical.poison ‹_›) | exact keepStore_wf (Dev.Canonical.keep ‹_›)))

theorem Dev.rowsWait_canonical {d : Dev} {js : List RowJob} (hd : d.Canonical) : (Dev.rowsWait d js).Canonical := by
  unfold Dev.rowsWait
  repeat' (with_reducible first | assumption | refine foldl_canonical ?_ (fun d x hd => ?_) | apply Dev.modRow_canonical)

theorem Dev.veReplace_canonical {d : Dev} {e : Nat} {v : VeSt} {js : List RowJob} {s : Nat} (hd : d.Canonical) : (Dev.veReplace d e v js s).Canonical := by
  unfold Dev.veReplace
  repeat' (first | with_reducible assumption | ((try lift_lets); intro d1; refine (fun (hd1 : Dev.Canonical d1) => ?_) ?_; (try clear_value d1); on_goal 2 => unfold d1) | ((try lift_lets); intro dX; first | (have hX : MemSt := dX; clear hX) | (have hX : Regs := dX; clear hX) | (have hX : KeepSt := dX; clear hX) | clear_value dX | skip) | (with_reducible first | apply Dev.modSes_canonical | apply Dev.rowsWait_canonical | apply Dev.modVe_canonical | apply Dev.veSelect_canonical))

theorem Dev.veStops_canonical {d : Dev} {e : Nat} {l : Option (List Nat)} (hd : d.Canonical) : (Dev.veStops d e l).Canonical := by
  unfold Dev.veStops
  repeat' (first | (with_reducible first | assumption | refine foldl_canonical ?_ (fun d x hd => ?_) | apply Dev.sesStop_canonical | apply Dev.eventAt_canonical | apply Dev.enterHold_canonical) | split)

theorem Dev.veNoSpare_canonical {d : Dev} {e : Nat} (hd : d.Canonical) : (Dev.veNoSpare d e).Canonical := by
  unfold Dev.veNoSpare
  repeat' (first | (with_reducible first | assumption | refine foldl_canonical ?_ (fun d x hd => ?_)) | ((try lift_lets); intro d1; refine (fun (hd1 : Dev.Canonical d1) => ?_) ?_; (try clear_value d1); on_goal 2 => unfold d1) | ((try lift_lets); intro dX; first | (have hX : MemSt := dX; clear hX) | (have hX : Regs := dX; clear hX) | (have hX : KeepSt := dX; clear hX) | clear_value dX | skip) | (with_reducible first | apply Dev.setVeFence_canonical | apply Dev.interrupt_canonical | apply Dev.modVe_canonical | apply Dev.veReplace_canonical | apply Dev.showLoad_canonical | apply Dev.veStops_canonical))

theorem Dev.endLoan_canonical {d : Dev} {block : Nat} {e : Nat} (hd : d.Canonical) : (Dev.endLoan d block e).Canonical := by
  unfold Dev.endLoan
  repeat' (first | ((try lift_lets); intro dX; first | (have hX : MemSt := dX; clear hX) | (have hX : Regs := dX; clear hX) | (have hX : KeepSt := dX; clear hX) | clear_value dX | skip) | (apply Dev.Canonical.mk <;> (try dsimp only) <;> with_reducible first | exact Dev.Canonical.words ‹_› | exact Dev.Canonical.eff ‹_› | exact Dev.Canonical.keep ‹_› | exact Dev.Canonical.cells ‹_› | exact Dev.Canonical.err ‹_› | exact Dev.Canonical.poison ‹_› | exact Sparse.wf_put (Dev.Canonical.words ‹_›) | exact Sparse.wf_put (Dev.Canonical.eff ‹_›) | exact Sparse.wf_put (Dev.Canonical.cells ‹_›) | exact Sparse.wf_put (Dev.Canonical.err ‹_›) | exact Sparse.wf_put (Dev.Canonical.poison ‹_›) | exact keepStore_wf (Dev.Canonical.keep ‹_›)))

theorem Dev.veFaultWork_canonical {d : Dev} {e : Nat} (hd : d.Canonical) : (Dev.veFaultWork d e).Canonical := by
  unfold Dev.veFaultWork
  repeat' (first | with_reducible assumption | ((try lift_lets); intro d1; refine (fun (hd1 : Dev.Canonical d1) => ?_) ?_; (try clear_value d1); on_goal 2 => unfold d1) | ((try lift_lets); intro dX; first | (have hX : MemSt := dX; clear hX) | (have hX : Regs := dX; clear hX) | (have hX : KeepSt := dX; clear hX) | clear_value dX | skip) | (with_reducible first | apply Dev.setVeFence_canonical | apply Dev.endLoan_canonical | apply Dev.showLoad_canonical | apply Dev.veMove_canonical | apply Dev.showVe_canonical | apply Dev.subSettle_canonical | apply Dev.veNoSpare_canonical | apply Dev.setVeSpare_canonical | apply ite_canonical) | (apply Dev.Canonical.mk <;> (try dsimp only) <;> with_reducible first | exact Dev.Canonical.words ‹_› | exact Dev.Canonical.eff ‹_› | exact Dev.Canonical.keep ‹_› | exact Dev.Canonical.cells ‹_› | exact Dev.Canonical.err ‹_› | exact Dev.Canonical.poison ‹_› | exact Sparse.wf_put (Dev.Canonical.words ‹_›) | exact Sparse.wf_put (Dev.Canonical.eff ‹_›) | exact Sparse.wf_put (Dev.Canonical.cells ‹_›) | exact Sparse.wf_put (Dev.Canonical.err ‹_›) | exact Sparse.wf_put (Dev.Canonical.poison ‹_›) | exact keepStore_wf (Dev.Canonical.keep ‹_›)) | split)

theorem Dev.veFault_canonical {d : Dev} {e : Nat} (hd : d.Canonical) : (Dev.veFault d e).Canonical := by
  unfold Dev.veFault
  repeat' (with_reducible first | assumption | apply Dev.veFaultWork_canonical | apply Dev.showCaps_canonical)

theorem execVeFault_canonical {e : Fin 68} {s : State} {st' : State} (hcan : s.dev.Canonical) (ht : execVeFault e s = .next st') : st'.dev.Canonical := by
  unfold execVeFault at ht
  refine run_canonical hcan ht ?_
  intro d hd
  repeat' (with_reducible first | assumption | apply Dev.veFault_canonical)

theorem execRowWatchdog_canonical {e : Fin 68} {s : State} {st' : State} (hcan : s.dev.Canonical) (ht : execRowWatchdog e s = .next st') : st'.dev.Canonical := by
  unfold execRowWatchdog at ht
  refine run_canonical hcan ht ?_
  intro d hd
  repeat' (first | with_reducible assumption | ((try lift_lets); intro dX; first | (have hX : MemSt := dX; clear hX) | (have hX : Regs := dX; clear hX) | (have hX : KeepSt := dX; clear hX) | clear_value dX | skip) | (with_reducible first | apply Dev.veFault_canonical | apply ite_canonical))

theorem execCheckpointReadDone_canonical {q : Fin 4} {s : State} {st' : State} (hcan : s.dev.Canonical) (ht : execCheckpointReadDone q s = .next st') : st'.dev.Canonical := by
  unfold execCheckpointReadDone at ht
  refine run_canonical hcan ht ?_
  intro d hd
  repeat' (first | (with_reducible first | assumption | refine foldl_canonical ?_ (fun d x hd => ?_)) | ((try lift_lets); intro d1; refine (fun (hd1 : Dev.Canonical d1) => ?_) ?_; (try clear_value d1); on_goal 2 => unfold d1) | ((try lift_lets); intro dX; first | (have hX : MemSt := dX; clear hX) | (have hX : Regs := dX; clear hX) | (have hX : KeepSt := dX; clear hX) | clear_value dX | skip) | (with_reducible first | apply Dev.modRow_canonical | apply Dev.modVe_canonical | apply Dev.subSettle_canonical | apply Dev.veSelect_canonical | apply ite_canonical) | (apply Dev.Canonical.mk <;> (try dsimp only) <;> with_reducible first | exact Dev.Canonical.words ‹_› | exact Dev.Canonical.eff ‹_› | exact Dev.Canonical.keep ‹_› | exact Dev.Canonical.cells ‹_› | exact Dev.Canonical.err ‹_› | exact Dev.Canonical.poison ‹_› | exact Sparse.wf_put (Dev.Canonical.words ‹_›) | exact Sparse.wf_put (Dev.Canonical.eff ‹_›) | exact Sparse.wf_put (Dev.Canonical.cells ‹_›) | exact Sparse.wf_put (Dev.Canonical.err ‹_›) | exact Sparse.wf_put (Dev.Canonical.poison ‹_›) | exact keepStore_wf (Dev.Canonical.keep ‹_›)) | split)

/-! ### Memory -/

theorem Dev.checkRedundancy_canonical {d : Dev} (hd : d.Canonical) : (Dev.checkRedundancy d).Canonical := by
  unfold Dev.checkRedundancy
  repeat' (first | with_reducible assumption | ((try lift_lets); intro d1; refine (fun (hd1 : Dev.Canonical d1) => ?_) ?_; (try clear_value d1); on_goal 2 => unfold d1) | ((try lift_lets); intro dX; first | (have hX : MemSt := dX; clear hX) | (have hX : Regs := dX; clear hX) | (have hX : KeepSt := dX; clear hX) | clear_value dX | skip) | (with_reducible first | apply Dev.enterHold_canonical | apply Dev.set_canonical | apply Dev.event_canonical | apply ite_canonical))

theorem Dev.poolsLost_canonical {d : Dev} {h : Nat} (hd : d.Canonical) : (Dev.poolsLost d h).Canonical := by
  unfold Dev.poolsLost
  repeat' (first | (with_reducible first | assumption | refine foldl_canonical ?_ (fun d x hd => ?_)) | ((try lift_lets); intro dX; first | (have hX : MemSt := dX; clear hX) | (have hX : Regs := dX; clear hX) | (have hX : KeepSt := dX; clear hX) | clear_value dX | skip) | (with_reducible first | apply Dev.eventAt_canonical | apply ite_canonical) | (apply Dev.Canonical.mk <;> (try dsimp only) <;> with_reducible first | exact Dev.Canonical.words ‹_› | exact Dev.Canonical.eff ‹_› | exact Dev.Canonical.keep ‹_› | exact Dev.Canonical.cells ‹_› | exact Dev.Canonical.err ‹_› | exact Dev.Canonical.poison ‹_› | exact Sparse.wf_put (Dev.Canonical.words ‹_›) | exact Sparse.wf_put (Dev.Canonical.eff ‹_›) | exact Sparse.wf_put (Dev.Canonical.cells ‹_›) | exact Sparse.wf_put (Dev.Canonical.err ‹_›) | exact Sparse.wf_put (Dev.Canonical.poison ‹_›) | exact keepStore_wf (Dev.Canonical.keep ‹_›)))

theorem Dev.stackFail_canonical {d : Dev} {h : Nat} {cause : Nat} (hd : d.Canonical) : (Dev.stackFail d h cause).Canonical := by
  unfold Dev.stackFail
  repeat' (first | with_reducible assumption | ((try lift_lets); intro d1; refine (fun (hd1 : Dev.Canonical d1) => ?_) ?_; (try clear_value d1); on_goal 2 => unfold d1) | (with_reducible first | apply Dev.set_canonical | apply Dev.eventAt_canonical | apply Dev.poolsLost_canonical | apply Dev.checkRedundancy_canonical | apply ite_canonical))

theorem Dev.pcFail_canonical {d : Dev} {h : Nat} {pc : Nat} {cause : Nat} (hd : d.Canonical) : (Dev.pcFail d h pc cause).Canonical := by
  unfold Dev.pcFail
  repeat' (first | with_reducible assumption | ((try lift_lets); intro d1; refine (fun (hd1 : Dev.Canonical d1) => ?_) ?_; (try clear_value d1); on_goal 2 => unfold d1) | ((try lift_lets); intro dX; first | (have hX : MemSt := dX; clear hX) | (have hX : Regs := dX; clear hX) | (have hX : KeepSt := dX; clear hX) | clear_value dX | skip) | (with_reducible first | apply Dev.set_canonical | apply Dev.eventAt_canonical | apply Dev.poolsLost_canonical | apply Dev.stackFail_canonical | apply Dev.checkRedundancy_canonical | apply ite_canonical))

theorem Dev.bakeErr_canonical {d : Dev} {h : Nat} {l : Nat} {errs : List (Nat × Nat)} (hd : d.Canonical) : (Dev.bakeErr d h l errs).Canonical := by
  unfold Dev.bakeErr
  repeat' (first | (with_reducible first | assumption | refine foldl_canonical ?_ (fun d x hd => ?_)) | ((try lift_lets); intro d1; refine (fun (hd1 : Dev.Canonical d1) => ?_) ?_; (try clear_value d1); on_goal 2 => unfold d1) | ((try lift_lets); intro dX; first | (have hX : MemSt := dX; clear hX) | (have hX : Regs := dX; clear hX) | (have hX : KeepSt := dX; clear hX) | clear_value dX | skip) | (with_reducible first | apply Dev.setCell_canonical | apply Dev.clearErr_canonical | apply ite_canonical))

theorem Dev.countUncorr_canonical {d : Dev} {h : Nat} {pc : Nat} (hd : d.Canonical) : (Dev.countUncorr d h pc).Canonical := by
  unfold Dev.countUncorr
  repeat' (first | with_reducible assumption | ((try lift_lets); intro d1; refine (fun (hd1 : Dev.Canonical d1) => ?_) ?_; (try clear_value d1); on_goal 2 => unfold d1) | ((try lift_lets); intro dX; first | (have hX : MemSt := dX; clear hX) | (have hX : Regs := dX; clear hX) | (have hX : KeepSt := dX; clear hX) | clear_value dX | skip) | (with_reducible first | apply Dev.bump_canonical | apply Dev.pcFail_canonical | apply ite_canonical) | (apply Dev.Canonical.mk <;> (try dsimp only) <;> with_reducible first | exact Dev.Canonical.words ‹_› | exact Dev.Canonical.eff ‹_› | exact Dev.Canonical.keep ‹_› | exact Dev.Canonical.cells ‹_› | exact Dev.Canonical.err ‹_› | exact Dev.Canonical.poison ‹_› | exact Sparse.wf_put (Dev.Canonical.words ‹_›) | exact Sparse.wf_put (Dev.Canonical.eff ‹_›) | exact Sparse.wf_put (Dev.Canonical.cells ‹_›) | exact Sparse.wf_put (Dev.Canonical.err ‹_›) | exact Sparse.wf_put (Dev.Canonical.poison ‹_›) | exact keepStore_wf (Dev.Canonical.keep ‹_›)))

theorem Dev.countRecon_canonical {d : Dev} (hd : d.Canonical) : (Dev.countRecon d).Canonical := by
  unfold Dev.countRecon
  repeat' (first | with_reducible assumption | ((try lift_lets); intro d1; refine (fun (hd1 : Dev.Canonical d1) => ?_) ?_; (try clear_value d1); on_goal 2 => unfold d1) | ((try lift_lets); intro dX; first | (have hX : MemSt := dX; clear hX) | (have hX : Regs := dX; clear hX) | (have hX : KeepSt := dX; clear hX) | clear_value dX | skip) | (with_reducible first | apply Dev.bump_canonical | apply ite_canonical) | (apply Dev.Canonical.mk <;> (try dsimp only) <;> with_reducible first | exact Dev.Canonical.words ‹_› | exact Dev.Canonical.eff ‹_› | exact Dev.Canonical.keep ‹_› | exact Dev.Canonical.cells ‹_› | exact Dev.Canonical.err ‹_› | exact Dev.Canonical.poison ‹_› | exact Sparse.wf_put (Dev.Canonical.words ‹_›) | exact Sparse.wf_put (Dev.Canonical.eff ‹_›) | exact Sparse.wf_put (Dev.Canonical.cells ‹_›) | exact Sparse.wf_put (Dev.Canonical.err ‹_›) | exact Sparse.wf_put (Dev.Canonical.poison ‹_›) | exact keepStore_wf (Dev.Canonical.keep ‹_›)))

theorem Dev.corrected_canonical {d : Dev} {h : Nat} {l : Nat} (hd : d.Canonical) : (Dev.corrected d h l).Canonical := by
  unfold Dev.corrected
  repeat' (first | with_reducible assumption | ((try lift_lets); intro d1; refine (fun (hd1 : Dev.Canonical d1) => ?_) ?_; (try clear_value d1); on_goal 2 => unfold d1) | ((try lift_lets); intro dX; first | (have hX : MemSt := dX; clear hX) | (have hX : Regs := dX; clear hX) | (have hX : KeepSt := dX; clear hX) | clear_value dX | skip) | (with_reducible first | apply Dev.bump_canonical | apply Dev.eventAt_canonical | apply ite_canonical) | (apply Dev.Canonical.mk <;> (try dsimp only) <;> with_reducible first | exact Dev.Canonical.words ‹_› | exact Dev.Canonical.eff ‹_› | exact Dev.Canonical.keep ‹_› | exact Dev.Canonical.cells ‹_› | exact Dev.Canonical.err ‹_› | exact Dev.Canonical.poison ‹_› | exact Sparse.wf_put (Dev.Canonical.words ‹_›) | exact Sparse.wf_put (Dev.Canonical.eff ‹_›) | exact Sparse.wf_put (Dev.Canonical.cells ‹_›) | exact Sparse.wf_put (Dev.Canonical.err ‹_›) | exact Sparse.wf_put (Dev.Canonical.poison ‹_›) | exact keepStore_wf (Dev.Canonical.keep ‹_›)))

theorem Dev.poisonBlock_canonical {d : Dev} {h : Nat} {l : Nat} {pool : Nat} {off : Nat} (hd : d.Canonical) : (Dev.poisonBlock d h l pool off).Canonical := by
  unfold Dev.poisonBlock
  repeat' (with_reducible first | assumption | apply Dev.setPoison_canonical | apply Dev.clearErr_canonical | apply Dev.eventAt_canonical)

theorem Dev.checkStored_canonical {d : Dev} {h : Nat} {l : Nat} (hd : d.Canonical) : (Dev.checkStored d h l).2.Canonical := by
  unfold Dev.checkStored
  repeat' (first | with_reducible assumption | ((try lift_lets); intro dX; first | (have hX : MemSt := dX; clear hX) | (have hX : Regs := dX; clear hX) | (have hX : KeepSt := dX; clear hX) | clear_value dX | skip) | (with_reducible first | apply Dev.bakeErr_canonical | apply Dev.corrected_canonical | apply Dev.countUncorr_canonical) | split)

theorem Dev.checkOther_canonical {d : Dev} {bad : Option Nat} {k : Nat} {l : Nat} (hd : d.Canonical) : (Dev.checkOther d bad k l).2.Canonical := by
  unfold Dev.checkOther
  repeat' (first | with_reducible assumption | ((try lift_lets); intro r2; refine (fun (hr2 : Dev.Canonical r2.2) => ?_) ?_; (try clear_value r2); on_goal 2 => unfold r2) | with_reducible apply Dev.checkStored_canonical | split)

theorem Dev.checkOthers_canonical {d : Dev} {h : Nat} {l : Nat} (hd : d.Canonical) : (Dev.checkOthers d h l).2.Canonical := by
  unfold Dev.checkOthers
  repeat' (with_reducible first | assumption | apply Dev.checkOther_canonical | refine foldl_snd_canonical ?_ (fun p x hp => ?_))

theorem Dev.secondFault_canonical {d : Dev} {n : Nat} {o : Nat} {k : Nat} {l : Nat} (hd : d.Canonical) : (Dev.secondFault d n o k l).Canonical := by
  unfold Dev.secondFault
  repeat' (first | with_reducible assumption | ((try lift_lets); intro dX; first | (have hX : MemSt := dX; clear hX) | (have hX : Regs := dX; clear hX) | (have hX : KeepSt := dX; clear hX) | clear_value dX | skip) | (with_reducible first | apply Dev.poisonBlock_canonical | apply ite_canonical))

theorem Dev.readLost_canonical {d : Dev} {n : Nat} {o : Nat} {h : Nat} {l : Nat} (hd : d.Canonical) : (Dev.readLost d n o h l).2.Canonical := by
  unfold Dev.readLost
  repeat' (first | with_reducible assumption | ((try lift_lets); intro r2; refine (fun (hr2 : Dev.Canonical r2.2) => ?_) ?_; (try clear_value r2); on_goal 2 => unfold r2) | (with_reducible first | apply Dev.checkOthers_canonical | apply Dev.countRecon_canonical | apply Dev.secondFault_canonical | apply Dev.poolsLost_canonical) | split)

theorem Dev.readBad_canonical {d : Dev} {n : Nat} {o : Nat} {h : Nat} {l : Nat} (hd : d.Canonical) : (Dev.readBad d n o h l).2.Canonical := by
  unfold Dev.readBad
  repeat' (first | with_reducible assumption | ((try lift_lets); intro r2; refine (fun (hr2 : Dev.Canonical r2.2) => ?_) ?_; (try clear_value r2); on_goal 2 => unfold r2) | (with_reducible first | apply Dev.checkOthers_canonical | apply Dev.clearErr_canonical | apply Dev.countRecon_canonical | apply Dev.eventAt_canonical | apply Dev.poisonBlock_canonical) | split)

theorem Dev.readBlock_canonical {d : Dev} {n : Nat} {o : Nat} (hd : d.Canonical) : (Dev.readBlock d n o).2.Canonical := by
  unfold Dev.readBlock
  repeat' (first | with_reducible assumption | ((try lift_lets); intro r2; refine (fun (hr2 : Dev.Canonical r2.2) => ?_) ?_; (try clear_value r2); on_goal 2 => unfold r2) | ((try lift_lets); intro dX; first | (have hX : MemSt := dX; clear hX) | (have hX : Regs := dX; clear hX) | (have hX : KeepSt := dX; clear hX) | clear_value dX | skip) | (with_reducible first | apply Dev.readLost_canonical | apply Dev.checkStored_canonical | apply Dev.readBad_canonical) | split)

theorem Dev.fetchBlock_canonical {d : Dev} {n : Nat} {o : Nat} (hd : d.Canonical) : (Dev.fetchBlock d n o).2.Canonical := by
  unfold Dev.fetchBlock
  repeat' (first | (with_reducible first | assumption | apply Dev.readBlock_canonical) | split)

theorem Dev.wakePc_canonical {d : Dev} {n : Nat} {o : Nat} (hd : d.Canonical) : (Dev.wakePc d n o).Canonical := by
  unfold Dev.wakePc
  repeat' (first | ((try lift_lets); intro dX; first | (have hX : MemSt := dX; clear hX) | (have hX : Regs := dX; clear hX) | (have hX : KeepSt := dX; clear hX) | clear_value dX | skip) | (apply Dev.Canonical.mk <;> (try dsimp only) <;> with_reducible first | exact Dev.Canonical.words ‹_› | exact Dev.Canonical.eff ‹_› | exact Dev.Canonical.keep ‹_› | exact Dev.Canonical.cells ‹_› | exact Dev.Canonical.err ‹_› | exact Dev.Canonical.poison ‹_› | exact Sparse.wf_put (Dev.Canonical.words ‹_›) | exact Sparse.wf_put (Dev.Canonical.eff ‹_›) | exact Sparse.wf_put (Dev.Canonical.cells ‹_›) | exact Sparse.wf_put (Dev.Canonical.err ‹_›) | exact Sparse.wf_put (Dev.Canonical.poison ‹_›) | exact keepStore_wf (Dev.Canonical.keep ‹_›)))

theorem Dev.upset_canonical {d : Dev} {n : Nat} {o : Nat} {ups : List (Nat × Nat × Nat)} (hd : d.Canonical) : (Dev.upset d n o ups).Canonical := by
  unfold Dev.upset
  repeat' (first | (with_reducible first | assumption | refine foldl_canonical ?_ (fun d x hd => ?_)) | ((try lift_lets); intro dX; first | (have hX : MemSt := dX; clear hX) | (have hX : Regs := dX; clear hX) | (have hX : KeepSt := dX; clear hX) | clear_value dX | skip) | with_reducible apply ite_canonical | (apply Dev.Canonical.mk <;> (try dsimp only) <;> with_reducible first | exact Dev.Canonical.words ‹_› | exact Dev.Canonical.eff ‹_› | exact Dev.Canonical.keep ‹_› | exact Dev.Canonical.cells ‹_› | exact Dev.Canonical.err ‹_› | exact Dev.Canonical.poison ‹_› | exact Sparse.wf_put (Dev.Canonical.words ‹_›) | exact Sparse.wf_put (Dev.Canonical.eff ‹_›) | exact Sparse.wf_put (Dev.Canonical.cells ‹_›) | exact Sparse.wf_put (Dev.Canonical.err ‹_›) | exact Sparse.wf_put (Dev.Canonical.poison ‹_›) | exact keepStore_wf (Dev.Canonical.keep ‹_›)))

theorem Dev.boundsEvent_canonical {d : Dev} {req : Nat} {n : Nat} {o : Nat} (hd : d.Canonical) : (Dev.boundsEvent d req n o).Canonical := by
  unfold Dev.boundsEvent
  repeat' (first | with_reducible assumption | ((try lift_lets); intro d1; refine (fun (hd1 : Dev.Canonical d1) => ?_) ?_; (try clear_value d1); on_goal 2 => unfold d1) | ((try lift_lets); intro dX; first | (have hX : MemSt := dX; clear hX) | (have hX : Regs := dX; clear hX) | (have hX : KeepSt := dX; clear hX) | clear_value dX | skip) | (with_reducible first | apply Dev.eventAt_canonical | apply ite_canonical) | (apply Dev.Canonical.mk <;> (try dsimp only) <;> with_reducible first | exact Dev.Canonical.words ‹_› | exact Dev.Canonical.eff ‹_› | exact Dev.Canonical.keep ‹_› | exact Dev.Canonical.cells ‹_› | exact Dev.Canonical.err ‹_› | exact Dev.Canonical.poison ‹_› | exact Sparse.wf_put (Dev.Canonical.words ‹_›) | exact Sparse.wf_put (Dev.Canonical.eff ‹_›) | exact Sparse.wf_put (Dev.Canonical.cells ‹_›) | exact Sparse.wf_put (Dev.Canonical.err ‹_›) | exact Sparse.wf_put (Dev.Canonical.poison ‹_›) | exact keepStore_wf (Dev.Canonical.keep ‹_›)))

theorem Dev.fetchNote_canonical {d : Dev} {bad : List Nat} {n : Nat} {off : Nat} {o : Nat} (hd : d.Canonical) : (Dev.fetchNote d bad n off o).2.Canonical := by
  unfold Dev.fetchNote
  repeat' (first | with_reducible assumption | ((try lift_lets); intro r2; refine (fun (hr2 : Dev.Canonical r2.2) => ?_) ?_; (try clear_value r2); on_goal 2 => unfold r2) | (with_reducible first | apply Dev.wakePc_canonical | apply Dev.fetchBlock_canonical))

theorem execHbmRead_canonical {req : Fin 1024} {n : Fin 6} {off : Nat} {len : Nat} {ups : List (Nat × Nat × Nat)} {s : State} {st' : State} (hcan : s.dev.Canonical) (ht : execHbmRead req n off len ups s = .next st') : st'.dev.Canonical := by
  unfold execHbmRead at ht
  refine run_canonical hcan ht ?_
  intro d hd
  repeat' (first | with_reducible assumption | ((try lift_lets); intro r2; refine (fun (hr2 : Dev.Canonical r2.2) => ?_) ?_; (try clear_value r2); on_goal 2 => unfold r2) | ((try lift_lets); intro dX; first | (have hX : MemSt := dX; clear hX) | (have hX : Regs := dX; clear hX) | (have hX : KeepSt := dX; clear hX) | clear_value dX | skip) | (with_reducible first | apply Dev.boundsEvent_canonical | apply Dev.emit_canonical | apply Dev.fetchNote_canonical | apply Dev.upset_canonical | apply ite_canonical | refine foldl_snd_canonical ?_ (fun p x hp => ?_)))

theorem Dev.rmwReads_canonical {d : Dev} {b : StripeBuf} (hd : d.Canonical) : (Dev.rmwReads d b).Canonical := by
  unfold Dev.rmwReads
  repeat' (first | (with_reducible first | assumption | refine foldl_canonical ?_ (fun d x hd => ?_)) | ((try lift_lets); intro dX; first | (have hX : MemSt := dX; clear hX) | (have hX : Regs := dX; clear hX) | (have hX : KeepSt := dX; clear hX) | clear_value dX | skip) | (with_reducible first | apply Dev.readBlock_canonical | apply Dev.checkStored_canonical | apply ite_canonical))

theorem execHbmWrite_canonical {req : Fin 1024} {n : Fin 6} {off : Nat} {bytes : List Byte} {ups : List (Nat × Nat × Nat)} {s : State} {st' : State} (hcan : s.dev.Canonical) (ht : execHbmWrite req n off bytes ups s = .next st') : st'.dev.Canonical := by
  unfold execHbmWrite at ht
  refine run_canonical hcan ht ?_
  intro d hd
  repeat' (first | (with_reducible first | assumption | refine foldl_canonical ?_ (fun d x hd => ?_)) | ((try lift_lets); intro d1; refine (fun (hd1 : Dev.Canonical d1) => ?_) ?_; (try clear_value d1); on_goal 2 => unfold d1) | (with_reducible first | apply Dev.boundsEvent_canonical | apply Dev.upset_canonical | apply Dev.wakePc_canonical | apply Dev.fetchBlock_canonical | apply Dev.poolWrite_canonical | apply ite_canonical))

theorem execStripeBufferIdle_canonical {n : Fin 6} {stripe : Nat} {s : State} {st' : State} (hcan : s.dev.Canonical) (ht : execStripeBufferIdle n stripe s = .next st') : st'.dev.Canonical := by
  unfold execStripeBufferIdle at ht
  refine run_canonical hcan ht ?_
  intro d hd
  repeat' (first | (with_reducible first | assumption | apply Dev.rmwReads_canonical | apply Dev.writeOut_canonical) | split)

theorem Dev.scrubParity_canonical {d : Dev} {n : Nat} {stripe : Nat} {l : Nat} (hd : d.Canonical) : (Dev.scrubParity d n stripe l).Canonical := by
  unfold Dev.scrubParity
  repeat' (first | (with_reducible first | assumption | refine foldl_canonical ?_ (fun d x hd => ?_)) | ((try lift_lets); intro d1; refine (fun (hd1 : Dev.Canonical d1) => ?_) ?_; (try clear_value d1); on_goal 2 => unfold d1) | ((try lift_lets); intro dX; first | (have hX : MemSt := dX; clear hX) | (have hX : Regs := dX; clear hX) | (have hX : KeepSt := dX; clear hX) | clear_value dX | skip) | (with_reducible first | apply Dev.setCell_canonical | apply Dev.bump_canonical | apply Dev.eventAt_canonical | apply ite_canonical))

theorem Dev.scrubFree_canonical {d : Dev} {h : Nat} {l : Nat} (hd : d.Canonical) : (Dev.scrubFree d h l).Canonical := by
  unfold Dev.scrubFree
  repeat' (first | with_reducible assumption | ((try lift_lets); intro r2; refine (fun (hr2 : Dev.Canonical r2.2) => ?_) ?_; (try clear_value r2); on_goal 2 => unfold r2) | (with_reducible first | apply Dev.checkStored_canonical | apply Dev.checkOthers_canonical | apply Dev.clearErr_canonical | apply Dev.countRecon_canonical | apply Dev.eventAt_canonical | apply Dev.poisonBlock_canonical | apply Dev.setPoison_canonical | apply ite_canonical) | split)

theorem Dev.scrubNote_canonical {d : Dev} {h : Nat} {count : Nat} (hd : d.Canonical) : (Dev.scrubNote d h count).Canonical := by
  unfold Dev.scrubNote
  repeat' (first | with_reducible assumption | ((try lift_lets); intro dX; first | (have hX : MemSt := dX; clear hX) | (have hX : Regs := dX; clear hX) | (have hX : KeepSt := dX; clear hX) | clear_value dX | skip) | with_reducible apply ite_canonical | (apply Dev.Canonical.mk <;> (try dsimp only) <;> with_reducible first | exact Dev.Canonical.words ‹_› | exact Dev.Canonical.eff ‹_› | exact Dev.Canonical.keep ‹_› | exact Dev.Canonical.cells ‹_› | exact Dev.Canonical.err ‹_› | exact Dev.Canonical.poison ‹_› | exact Sparse.wf_put (Dev.Canonical.words ‹_›) | exact Sparse.wf_put (Dev.Canonical.eff ‹_›) | exact Sparse.wf_put (Dev.Canonical.cells ‹_›) | exact Sparse.wf_put (Dev.Canonical.err ‹_›) | exact Sparse.wf_put (Dev.Canonical.poison ‹_›) | exact keepStore_wf (Dev.Canonical.keep ‹_›)))

theorem Dev.scrubBlock_canonical {d : Dev} {h : Nat} {l : Nat} (hd : d.Canonical) : (Dev.scrubBlock d h l).Canonical := by
  unfold Dev.scrubBlock
  repeat' (first | with_reducible assumption | ((try lift_lets); intro d1; refine (fun (hd1 : Dev.Canonical d1) => ?_) ?_; (try clear_value d1); on_goal 2 => unfold d1) | ((try lift_lets); intro dX; first | (have hX : MemSt := dX; clear hX) | (have hX : Regs := dX; clear hX) | (have hX : KeepSt := dX; clear hX) | clear_value dX | skip) | (with_reducible first | apply Dev.readBlock_canonical | apply Dev.scrubFree_canonical | apply Dev.scrubNote_canonical | apply Dev.scrubParity_canonical | apply ite_canonical) | split)

theorem Dev.scrubEnd_canonical {d : Dev} (hd : d.Canonical) : (Dev.scrubEnd d).Canonical := by
  unfold Dev.scrubEnd
  repeat' (first | with_reducible assumption | ((try lift_lets); intro d1; refine (fun (hd1 : Dev.Canonical d1) => ?_) ?_; (try clear_value d1); on_goal 2 => unfold d1) | ((try lift_lets); intro dX; first | (have hX : MemSt := dX; clear hX) | (have hX : Regs := dX; clear hX) | (have hX : KeepSt := dX; clear hX) | clear_value dX | skip) | (with_reducible first | apply Dev.bump_canonical | apply Dev.event_canonical | apply Dev.set_canonical) | (apply Dev.Canonical.mk <;> (try dsimp only) <;> with_reducible first | exact Dev.Canonical.words ‹_› | exact Dev.Canonical.eff ‹_› | exact Dev.Canonical.keep ‹_› | exact Dev.Canonical.cells ‹_› | exact Dev.Canonical.err ‹_› | exact Dev.Canonical.poison ‹_› | exact Sparse.wf_put (Dev.Canonical.words ‹_›) | exact Sparse.wf_put (Dev.Canonical.eff ‹_›) | exact Sparse.wf_put (Dev.Canonical.cells ‹_›) | exact Sparse.wf_put (Dev.Canonical.err ‹_›) | exact Sparse.wf_put (Dev.Canonical.poison ‹_›) | exact keepStore_wf (Dev.Canonical.keep ‹_›)))

theorem Dev.scrubMet_canonical {d : Dev} {h : Nat} {l : Nat} {ups : List (Nat × Nat)} (hd : d.Canonical) : (Dev.scrubMet d h l ups).Canonical := by
  unfold Dev.scrubMet
  repeat' (first | ((try lift_lets); intro dX; first | (have hX : MemSt := dX; clear hX) | (have hX : Regs := dX; clear hX) | (have hX : KeepSt := dX; clear hX) | clear_value dX | skip) | (apply Dev.Canonical.mk <;> (try dsimp only) <;> with_reducible first | exact Dev.Canonical.words ‹_› | exact Dev.Canonical.eff ‹_› | exact Dev.Canonical.keep ‹_› | exact Dev.Canonical.cells ‹_› | exact Dev.Canonical.err ‹_› | exact Dev.Canonical.poison ‹_› | exact Sparse.wf_put (Dev.Canonical.words ‹_›) | exact Sparse.wf_put (Dev.Canonical.eff ‹_›) | exact Sparse.wf_put (Dev.Canonical.cells ‹_›) | exact Sparse.wf_put (Dev.Canonical.err ‹_›) | exact Sparse.wf_put (Dev.Canonical.poison ‹_›) | exact keepStore_wf (Dev.Canonical.keep ‹_›)))

theorem Dev.scrubSkip_canonical {d : Dev} {h : Nat} {l : Nat} (hd : d.Canonical) : (Dev.scrubSkip d h l).Canonical := by
  unfold Dev.scrubSkip
  repeat' (first | ((try lift_lets); intro dX; first | (have hX : MemSt := dX; clear hX) | (have hX : Regs := dX; clear hX) | (have hX : KeepSt := dX; clear hX) | clear_value dX | skip) | (apply Dev.Canonical.mk <;> (try dsimp only) <;> with_reducible first | exact Dev.Canonical.words ‹_› | exact Dev.Canonical.eff ‹_› | exact Dev.Canonical.keep ‹_› | exact Dev.Canonical.cells ‹_› | exact Dev.Canonical.err ‹_› | exact Dev.Canonical.poison ‹_› | exact Sparse.wf_put (Dev.Canonical.words ‹_›) | exact Sparse.wf_put (Dev.Canonical.eff ‹_›) | exact Sparse.wf_put (Dev.Canonical.cells ‹_›) | exact Sparse.wf_put (Dev.Canonical.err ‹_›) | exact Sparse.wf_put (Dev.Canonical.poison ‹_›) | exact keepStore_wf (Dev.Canonical.keep ‹_›)))

theorem Dev.scrubPlace_canonical {d : Dev} {stack : Nat} {block : Nat} (hd : d.Canonical) : (Dev.scrubPlace d stack block).Canonical := by
  unfold Dev.scrubPlace
  repeat' (first | ((try lift_lets); intro dX; first | (have hX : MemSt := dX; clear hX) | (have hX : Regs := dX; clear hX) | (have hX : KeepSt := dX; clear hX) | clear_value dX | skip) | (apply Dev.Canonical.mk <;> (try dsimp only) <;> with_reducible first | exact Dev.Canonical.words ‹_› | exact Dev.Canonical.eff ‹_› | exact Dev.Canonical.keep ‹_› | exact Dev.Canonical.cells ‹_› | exact Dev.Canonical.err ‹_› | exact Dev.Canonical.poison ‹_› | exact Sparse.wf_put (Dev.Canonical.words ‹_›) | exact Sparse.wf_put (Dev.Canonical.eff ‹_›) | exact Sparse.wf_put (Dev.Canonical.cells ‹_›) | exact Sparse.wf_put (Dev.Canonical.err ‹_›) | exact Sparse.wf_put (Dev.Canonical.poison ‹_›) | exact keepStore_wf (Dev.Canonical.keep ‹_›)))

theorem Dev.scrubAt_canonical {d : Dev} {done : Nat} (hd : d.Canonical) : (Dev.scrubAt d done).Canonical := by
  unfold Dev.scrubAt
  with_reducible exact Dev.set_canonical (Dev.scrubPlace_canonical hd)

theorem Dev.scrubNext_canonical {d : Dev} {ups : List (Nat × Nat)} (hd : d.Canonical) : (Dev.scrubNext d ups).Canonical := by
  unfold Dev.scrubNext
  repeat' (first | with_reducible assumption | ((try lift_lets); intro d1; refine (fun (hd1 : Dev.Canonical d1) => ?_) ?_; (try clear_value d1); on_goal 2 => unfold d1) | ((try lift_lets); intro dX; first | (have hX : MemSt := dX; clear hX) | (have hX : Regs := dX; clear hX) | (have hX : KeepSt := dX; clear hX) | clear_value dX | skip) | (with_reducible first | apply Dev.scrubBlock_canonical | apply Dev.scrubSkip_canonical | apply Dev.scrubMet_canonical | apply Dev.scrubAt_canonical | apply Dev.scrubEnd_canonical | apply ite_canonical))

theorem Dev.scrubLeft_canonical {d : Dev} {l : List (Nat × Nat)} (hd : d.Canonical) : (Dev.scrubLeft d l).Canonical := by
  unfold Dev.scrubLeft
  repeat' (first | ((try lift_lets); intro dX; first | (have hX : MemSt := dX; clear hX) | (have hX : Regs := dX; clear hX) | (have hX : KeepSt := dX; clear hX) | clear_value dX | skip) | (apply Dev.Canonical.mk <;> (try dsimp only) <;> with_reducible first | exact Dev.Canonical.words ‹_› | exact Dev.Canonical.eff ‹_› | exact Dev.Canonical.keep ‹_› | exact Dev.Canonical.cells ‹_› | exact Dev.Canonical.err ‹_› | exact Dev.Canonical.poison ‹_› | exact Sparse.wf_put (Dev.Canonical.words ‹_›) | exact Sparse.wf_put (Dev.Canonical.eff ‹_›) | exact Sparse.wf_put (Dev.Canonical.cells ‹_›) | exact Sparse.wf_put (Dev.Canonical.err ‹_›) | exact Sparse.wf_put (Dev.Canonical.poison ‹_›) | exact keepStore_wf (Dev.Canonical.keep ‹_›)))

theorem Dev.scrubLate_canonical {d : Dev} {ups : List (Nat × Nat)} (hd : d.Canonical) : (Dev.scrubLate d ups).Canonical := by
  unfold Dev.scrubLate
  repeat' (first | with_reducible assumption | ((try lift_lets); intro d1; refine (fun (hd1 : Dev.Canonical d1) => ?_) ?_; (try clear_value d1); on_goal 2 => unfold d1) | (with_reducible first | apply Dev.scrubEnd_canonical | apply Dev.scrubLeft_canonical | apply Dev.scrubMet_canonical | apply Dev.scrubBlock_canonical | apply ite_canonical) | split)

theorem execScrubStep_canonical {ups : List (Nat × Nat)} {s : State} {st' : State} (hcan : s.dev.Canonical) (ht : execScrubStep ups s = .next st') : st'.dev.Canonical := by
  unfold execScrubStep at ht
  refine run_canonical hcan ht ?_
  intro d hd
  repeat' (with_reducible first | assumption | apply Dev.scrubNext_canonical | apply Dev.scrubLate_canonical | apply ite_canonical)

theorem execMemRequestTimeout_canonical {h : Fin 4} {pc : Fin 32} {s : State} {st' : State} (hcan : s.dev.Canonical) (ht : execMemRequestTimeout h pc s = .next st') : st'.dev.Canonical := by
  unfold execMemRequestTimeout at ht
  refine run_canonical hcan ht ?_
  intro d hd
  repeat' (with_reducible first | assumption | apply Dev.pcFail_canonical)

theorem execHbmPhyError_canonical {h : Fin 4} {pc : Fin 32} {phy : Bool} {s : State} {st' : State} (hcan : s.dev.Canonical) (ht : execHbmPhyError h pc phy s = .next st') : st'.dev.Canonical := by
  unfold execHbmPhyError at ht
  refine run_canonical hcan ht ?_
  intro d hd
  repeat' (with_reducible first | assumption | apply Dev.stackFail_canonical | apply Dev.pcFail_canonical | apply ite_canonical)

theorem execHbmPowerDown_canonical {h : Fin 4} {pc : Fin 32} {s : State} {st' : State} (hcan : s.dev.Canonical) (ht : execHbmPowerDown h pc s = .next st') : st'.dev.Canonical := by
  unfold execHbmPowerDown at ht
  refine run_canonical hcan ht ?_
  intro d hd
  repeat' (first | with_reducible assumption | ((try lift_lets); intro dX; first | (have hX : MemSt := dX; clear hX) | (have hX : Regs := dX; clear hX) | (have hX : KeepSt := dX; clear hX) | clear_value dX | skip) | with_reducible apply ite_canonical | (apply Dev.Canonical.mk <;> (try dsimp only) <;> with_reducible first | exact Dev.Canonical.words ‹_› | exact Dev.Canonical.eff ‹_› | exact Dev.Canonical.keep ‹_› | exact Dev.Canonical.cells ‹_› | exact Dev.Canonical.err ‹_› | exact Dev.Canonical.poison ‹_› | exact Sparse.wf_put (Dev.Canonical.words ‹_›) | exact Sparse.wf_put (Dev.Canonical.eff ‹_›) | exact Sparse.wf_put (Dev.Canonical.cells ‹_›) | exact Sparse.wf_put (Dev.Canonical.err ‹_›) | exact Sparse.wf_put (Dev.Canonical.poison ‹_›) | exact keepStore_wf (Dev.Canonical.keep ‹_›)))

theorem Dev.memInject_canonical {d : Dev} (hd : d.Canonical) : (Dev.memInject d).Canonical := by
  unfold Dev.memInject
  repeat' (first | with_reducible assumption | ((try lift_lets); intro dX; first | (have hX : MemSt := dX; clear hX) | (have hX : Regs := dX; clear hX) | (have hX : KeepSt := dX; clear hX) | clear_value dX | skip) | (with_reducible first | apply Dev.set_canonical | apply ite_canonical) | (apply Dev.Canonical.mk <;> (try dsimp only) <;> with_reducible first | exact Dev.Canonical.words ‹_› | exact Dev.Canonical.eff ‹_› | exact Dev.Canonical.keep ‹_› | exact Dev.Canonical.cells ‹_› | exact Dev.Canonical.err ‹_› | exact Dev.Canonical.poison ‹_› | exact Sparse.wf_put (Dev.Canonical.words ‹_›) | exact Sparse.wf_put (Dev.Canonical.eff ‹_›) | exact Sparse.wf_put (Dev.Canonical.cells ‹_›) | exact Sparse.wf_put (Dev.Canonical.err ‹_›) | exact Sparse.wf_put (Dev.Canonical.poison ‹_›) | exact keepStore_wf (Dev.Canonical.keep ‹_›)))

theorem execMemInject_canonical {s : State} {st' : State} (hcan : s.dev.Canonical) (ht : execMemInject s = .next st') : st'.dev.Canonical := by
  unfold execMemInject at ht
  refine run_canonical hcan ht ?_
  intro d hd
  repeat' (with_reducible first | assumption | refine Dev.gateWrite_canonical (hf := fun d hd => ?_) ?_ | apply Dev.memInject_canonical)

theorem Dev.layPools_canonical {d : Dev} (hd : d.Canonical) : (Dev.layPools d).Canonical := by
  unfold Dev.layPools
  repeat' (with_reducible first | assumption | refine foldl_canonical ?_ (fun d x hd => ?_) | apply Dev.set_canonical)

/-! ### Clock -/

theorem Dev.modClk_canonical {d : Dev} {f : ClkSt → ClkSt} (hd : d.Canonical) : (Dev.modClk d f).Canonical := by
  unfold Dev.modClk
  repeat' (apply Dev.Canonical.mk <;> (try dsimp only) <;> with_reducible first | exact Dev.Canonical.words ‹_› | exact Dev.Canonical.eff ‹_› | exact Dev.Canonical.keep ‹_› | exact Dev.Canonical.cells ‹_› | exact Dev.Canonical.err ‹_› | exact Dev.Canonical.poison ‹_› | exact Sparse.wf_put (Dev.Canonical.words ‹_›) | exact Sparse.wf_put (Dev.Canonical.eff ‹_›) | exact Sparse.wf_put (Dev.Canonical.cells ‹_›) | exact Sparse.wf_put (Dev.Canonical.err ‹_›) | exact Sparse.wf_put (Dev.Canonical.poison ‹_›) | exact keepStore_wf (Dev.Canonical.keep ‹_›))

theorem Dev.deadReset_canonical {d : Dev} (hd : d.Canonical) : (Dev.deadReset d).Canonical := by
  unfold Dev.deadReset
  repeat' (first | with_reducible assumption | ((try lift_lets); intro d1; refine (fun (hd1 : Dev.Canonical d1) => ?_) ?_; (try clear_value d1); on_goal 2 => unfold d1) | ((try lift_lets); intro dX; first | (have hX : MemSt := dX; clear hX) | (have hX : Regs := dX; clear hX) | (have hX : KeepSt := dX; clear hX) | clear_value dX | skip) | (with_reducible first | apply Dev.set_canonical | apply Dev.setFlag_canonical | apply Dev.outputsToSafe_canonical | apply Dev.driveFault_canonical) | (apply Dev.Canonical.mk <;> (try dsimp only) <;> with_reducible first | exact Dev.Canonical.words ‹_› | exact Dev.Canonical.eff ‹_› | exact Dev.Canonical.keep ‹_› | exact Dev.Canonical.cells ‹_› | exact Dev.Canonical.err ‹_› | exact Dev.Canonical.poison ‹_› | exact Sparse.wf_put (Dev.Canonical.words ‹_›) | exact Sparse.wf_put (Dev.Canonical.eff ‹_›) | exact Sparse.wf_put (Dev.Canonical.cells ‹_›) | exact Sparse.wf_put (Dev.Canonical.err ‹_›) | exact Sparse.wf_put (Dev.Canonical.poison ‹_›) | exact keepStore_wf (Dev.Canonical.keep ‹_›)))

theorem Dev.startSwitch_canonical {d : Dev} {to_ : Nat} {loss : Bool} (hd : d.Canonical) : (Dev.startSwitch d to_ loss).Canonical := by
  unfold Dev.startSwitch
  repeat' (first | with_reducible assumption | ((try lift_lets); intro d1; refine (fun (hd1 : Dev.Canonical d1) => ?_) ?_; (try clear_value d1); on_goal 2 => unfold d1) | ((try lift_lets); intro dX; first | (have hX : MemSt := dX; clear hX) | (have hX : Regs := dX; clear hX) | (have hX : KeepSt := dX; clear hX) | clear_value dX | skip) | (with_reducible first | apply Dev.modClk_canonical | apply Dev.set_canonical))

theorem Dev.revertCheck_canonical {d : Dev} (hd : d.Canonical) : (Dev.revertCheck d).Canonical := by
  unfold Dev.revertCheck
  repeat' (first | with_reducible assumption | ((try lift_lets); intro dX; first | (have hX : MemSt := dX; clear hX) | (have hX : Regs := dX; clear hX) | (have hX : KeepSt := dX; clear hX) | clear_value dX | skip) | (with_reducible first | apply Dev.startSwitch_canonical | apply ite_canonical))

theorem Dev.loseBoth_canonical {d : Dev} {cause : Nat} (hd : d.Canonical) : (Dev.loseBoth d cause).Canonical := by
  unfold Dev.loseBoth
  repeat' (first | with_reducible assumption | ((try lift_lets); intro d1; refine (fun (hd1 : Dev.Canonical d1) => ?_) ?_; (try clear_value d1); on_goal 2 => unfold d1) | (with_reducible first | apply Dev.deadReset_canonical | apply Dev.set_canonical | apply Dev.modClk_canonical | apply Dev.bump_canonical | apply Dev.event_canonical | apply Dev.recFlush_canonical | apply Dev.enterHold_canonical | apply ite_canonical))

theorem Dev.refWaitCheck_canonical {d : Dev} (hd : d.Canonical) : (Dev.refWaitCheck d).Canonical := by
  unfold Dev.refWaitCheck
  repeat' (first | with_reducible assumption | ((try lift_lets); intro dX; first | (have hX : MemSt := dX; clear hX) | (have hX : Regs := dX; clear hX) | (have hX : KeepSt := dX; clear hX) | clear_value dX | skip) | (with_reducible first | refine Dev.withFault_canonical (hf := fun d hd => ?_) ?_ | apply Dev.setRails_canonical | apply ite_canonical) | (apply Dev.Canonical.mk <;> (try dsimp only) <;> with_reducible first | exact Dev.Canonical.words ‹_› | exact Dev.Canonical.eff ‹_› | exact Dev.Canonical.keep ‹_› | exact Dev.Canonical.cells ‹_› | exact Dev.Canonical.err ‹_› | exact Dev.Canonical.poison ‹_› | exact Sparse.wf_put (Dev.Canonical.words ‹_›) | exact Sparse.wf_put (Dev.Canonical.eff ‹_›) | exact Sparse.wf_put (Dev.Canonical.cells ‹_›) | exact Sparse.wf_put (Dev.Canonical.err ‹_›) | exact Sparse.wf_put (Dev.Canonical.poison ‹_›) | exact keepStore_wf (Dev.Canonical.keep ‹_›)))

theorem Dev.refLost_canonical {d : Dev} {r : Nat} {cause : Nat} (hd : d.Canonical) : (Dev.refLost d r cause).Canonical := by
  unfold Dev.refLost
  repeat' (first | with_reducible assumption | ((try lift_lets); intro d1; refine (fun (hd1 : Dev.Canonical d1) => ?_) ?_; (try clear_value d1); on_goal 2 => unfold d1) | (with_reducible first | apply Dev.modClk_canonical | apply Dev.setFlag_canonical | apply Dev.set_canonical | apply Dev.eventAt_canonical | apply Dev.startSwitch_canonical | apply Dev.loseBoth_canonical | apply ite_canonical))

theorem execRefMissingEdge_canonical {r : Fin 2} {s : State} {st' : State} (hcan : s.dev.Canonical) (ht : execRefMissingEdge r s = .next st') : st'.dev.Canonical := by
  unfold execRefMissingEdge at ht
  refine run_canonical hcan ht ?_
  intro d hd
  repeat' (with_reducible first | assumption | apply Dev.refLost_canonical | apply Dev.refWaitCheck_canonical | apply ite_canonical)

theorem execRefFreqWindow_canonical {r : Fin 2} {ppm : Int} {edges : Bool} {s : State} {st' : State} (hcan : s.dev.Canonical) (ht : execRefFreqWindow r ppm edges s = .next st') : st'.dev.Canonical := by
  unfold execRefFreqWindow at ht
  refine run_canonical hcan ht ?_
  intro d hd
  repeat' (first | with_reducible assumption | ((try lift_lets); intro d1; refine (fun (hd1 : Dev.Canonical d1) => ?_) ?_; (try clear_value d1); on_goal 2 => unfold d1) | ((try lift_lets); intro dX; first | (have hX : MemSt := dX; clear hX) | (have hX : Regs := dX; clear hX) | (have hX : KeepSt := dX; clear hX) | clear_value dX | skip) | (with_reducible first | apply Dev.modClk_canonical | apply Dev.refLost_canonical | apply Dev.refWaitCheck_canonical | apply Dev.set_canonical | apply Dev.setFlag_canonical | apply Dev.eventAt_canonical | apply Dev.revertCheck_canonical | apply ite_canonical))

theorem execSwitchoverRampDone_canonical {ms : Nat} {s : State} {st' : State} (hcan : s.dev.Canonical) (ht : execSwitchoverRampDone ms s = .next st') : st'.dev.Canonical := by
  unfold execSwitchoverRampDone at ht
  refine run_canonical hcan ht ?_
  intro d hd
  repeat' (first | with_reducible assumption | ((try lift_lets); intro d1; refine (fun (hd1 : Dev.Canonical d1) => ?_) ?_; (try clear_value d1); on_goal 2 => unfold d1) | (with_reducible first | apply Dev.set_canonical | apply Dev.bump_canonical | apply Dev.eventAt_canonical | apply Dev.revertCheck_canonical | apply ite_canonical))

theorem Dev.refSwitch_canonical {d : Dev} (hd : d.Canonical) : (Dev.refSwitch d).Canonical := by
  unfold Dev.refSwitch
  repeat' (first | with_reducible assumption | ((try lift_lets); intro dX; first | (have hX : MemSt := dX; clear hX) | (have hX : Regs := dX; clear hX) | (have hX : KeepSt := dX; clear hX) | clear_value dX | skip) | (with_reducible first | apply Dev.set_canonical | apply Dev.eventAt_canonical | apply Dev.startSwitch_canonical | apply ite_canonical))

theorem execClkRefSwitch_canonical {s : State} {st' : State} (hcan : s.dev.Canonical) (ht : execClkRefSwitch s = .next st') : st'.dev.Canonical := by
  unfold execClkRefSwitch at ht
  refine run_canonical hcan ht ?_
  intro d hd
  repeat' (with_reducible first | assumption | refine Dev.gateWrite_canonical (hf := fun d hd => ?_) ?_ | apply Dev.refSwitch_canonical)

theorem Dev.selfRefresh_canonical {d : Dev} (hd : d.Canonical) : (Dev.selfRefresh d).Canonical := by
  unfold Dev.selfRefresh
  repeat' (first | with_reducible assumption | ((try lift_lets); intro d1; refine (fun (hd1 : Dev.Canonical d1) => ?_) ?_; (try clear_value d1); on_goal 2 => unfold d1) | ((try lift_lets); intro dX; first | (have hX : MemSt := dX; clear hX) | (have hX : Regs := dX; clear hX) | (have hX : KeepSt := dX; clear hX) | clear_value dX | skip) | (with_reducible first | apply Dev.drainBuffers_canonical | apply Dev.set_canonical) | (apply Dev.Canonical.mk <;> (try dsimp only) <;> with_reducible first | exact Dev.Canonical.words ‹_› | exact Dev.Canonical.eff ‹_› | exact Dev.Canonical.keep ‹_› | exact Dev.Canonical.cells ‹_› | exact Dev.Canonical.err ‹_› | exact Dev.Canonical.poison ‹_› | exact Sparse.wf_put (Dev.Canonical.words ‹_›) | exact Sparse.wf_put (Dev.Canonical.eff ‹_›) | exact Sparse.wf_put (Dev.Canonical.cells ‹_›) | exact Sparse.wf_put (Dev.Canonical.err ‹_›) | exact Sparse.wf_put (Dev.Canonical.poison ‹_›) | exact keepStore_wf (Dev.Canonical.keep ‹_›)))

theorem execHoldoverWindowEnd_canonical {s : State} {st' : State} (hcan : s.dev.Canonical) (ht : execHoldoverWindowEnd s = .next st') : st'.dev.Canonical := by
  unfold execHoldoverWindowEnd at ht
  refine run_canonical hcan ht ?_
  intro d hd
  repeat' (first | with_reducible assumption | ((try lift_lets); intro d1; refine (fun (hd1 : Dev.Canonical d1) => ?_) ?_; (try clear_value d1); on_goal 2 => unfold d1) | (with_reducible first | apply Dev.holdEvents_canonical | apply Dev.selfRefresh_canonical | apply Dev.setWord_canonical | apply Dev.set_canonical | apply Dev.modClk_canonical | apply Dev.timeToAlwaysOn_canonical | apply Dev.pin_canonical | apply ite_canonical) | (apply Dev.Canonical.mk <;> (try dsimp only) <;> with_reducible first | exact Dev.Canonical.words ‹_› | exact Dev.Canonical.eff ‹_› | exact Dev.Canonical.keep ‹_› | exact Dev.Canonical.cells ‹_› | exact Dev.Canonical.err ‹_› | exact Dev.Canonical.poison ‹_› | exact Sparse.wf_put (Dev.Canonical.words ‹_›) | exact Sparse.wf_put (Dev.Canonical.eff ‹_›) | exact Sparse.wf_put (Dev.Canonical.cells ‹_›) | exact Sparse.wf_put (Dev.Canonical.err ‹_›) | exact Sparse.wf_put (Dev.Canonical.poison ‹_›) | exact keepStore_wf (Dev.Canonical.keep ‹_›)))

theorem Dev.setLock_canonical {d : Dev} {k : Nat} {b : Bool} (hd : d.Canonical) : (Dev.setLock d k b).Canonical := by
  unfold Dev.setLock
  repeat' (with_reducible first | assumption | apply Dev.setWord_canonical | apply ite_canonical)

theorem execPllUnlock_canonical {k : Fin 40} {s : State} {st' : State} (hcan : s.dev.Canonical) (ht : execPllUnlock k s = .next st') : st'.dev.Canonical := by
  unfold execPllUnlock at ht
  refine run_canonical hcan ht ?_
  intro d hd
  repeat' (first | (with_reducible first | assumption | refine foldl_canonical ?_ (fun d x hd => ?_)) | ((try lift_lets); intro d1; refine (fun (hd1 : Dev.Canonical d1) => ?_) ?_; (try clear_value d1); on_goal 2 => unfold d1) | (with_reducible first | apply Dev.setLock_canonical | apply Dev.eventAt_canonical | apply Dev.loseBoth_canonical | apply Dev.setFlag_canonical | apply ite_canonical))

theorem execOtherPllLock_canonical {k : Fin 40} {s : State} {st' : State} (hcan : s.dev.Canonical) (ht : execOtherPllLock k s = .next st') : st'.dev.Canonical := by
  unfold execOtherPllLock at ht
  refine run_canonical hcan ht ?_
  intro d hd
  repeat' (with_reducible first | assumption | apply Dev.setLock_canonical | apply ite_canonical)

theorem Dev.roBad_canonical {d : Dev} {ps : Nat} (hd : d.Canonical) : (Dev.roBad d ps).Canonical := by
  unfold Dev.roBad
  repeat' (first | with_reducible assumption | ((try lift_lets); intro d1; refine (fun (hd1 : Dev.Canonical d1) => ?_) ?_; (try clear_value d1); on_goal 2 => unfold d1) | (with_reducible first | apply Dev.set_canonical | apply Dev.event_canonical | apply Dev.modClk_canonical | apply Dev.deadReset_canonical | apply ite_canonical))

theorem execFallbackCalibration_canonical {ps : Nat} {s : State} {st' : State} (hcan : s.dev.Canonical) (ht : execFallbackCalibration ps s = .next st') : st'.dev.Canonical := by
  unfold execFallbackCalibration at ht
  refine run_canonical hcan ht ?_
  intro d hd
  repeat' (with_reducible first | assumption | apply Dev.roBad_canonical | apply Dev.modClk_canonical | apply ite_canonical)

theorem execRoWindowFail_canonical {ps : Nat} {s : State} {st' : State} (hcan : s.dev.Canonical) (ht : execRoWindowFail ps s = .next st') : st'.dev.Canonical := by
  unfold execRoWindowFail at ht
  refine run_canonical hcan ht ?_
  intro d hd
  repeat' (with_reducible first | assumption | apply Dev.roBad_canonical)

theorem Dev.setGated_canonical {d : Dev} {block : Nat} {inst : Nat} {b : Bool} (hd : d.Canonical) : (Dev.setGated d block inst b).Canonical := by
  unfold Dev.setGated
  repeat' (first | (with_reducible first | assumption | apply Dev.set_canonical) | split)

theorem Dev.gateEnd_canonical {d : Dev} {result : Nat} (hd : d.Canonical) : (Dev.gateEnd d result).Canonical := by
  unfold Dev.gateEnd
  repeat' (with_reducible first | assumption | apply Dev.set_canonical | apply Dev.modClk_canonical)

theorem Dev.gateGo_canonical {d : Dev} (hd : d.Canonical) : (Dev.gateGo d).Canonical := by
  unfold Dev.gateGo
  repeat' (first | with_reducible assumption | ((try lift_lets); intro dX; first | (have hX : MemSt := dX; clear hX) | (have hX : Regs := dX; clear hX) | (have hX : KeepSt := dX; clear hX) | clear_value dX | skip) | (with_reducible first | apply Dev.gateEnd_canonical | apply Dev.eventAt_canonical | apply Dev.set_canonical | apply Dev.modClk_canonical | apply Dev.setGated_canonical | apply ite_canonical) | split)

theorem Dev.gateFields_canonical {d : Dev} {block : Nat} {inst : Nat} {op : Nat} (hd : d.Canonical) : (Dev.gateFields d block inst op).Canonical := by
  unfold Dev.gateFields
  repeat' (with_reducible first | assumption | apply Dev.set_canonical)

theorem execClkGate_canonical {block : Fin 256} {inst : Fin 256} {s : State} {st' : State} (hcan : s.dev.Canonical) (ht : execClkGate block inst s = .next st') : st'.dev.Canonical := by
  unfold execClkGate at ht
  refine run_canonical hcan ht ?_
  intro d hd
  repeat' (with_reducible first | assumption | refine Dev.gateWrite_canonical (hf := fun d hd => ?_) ?_ | apply Dev.gateFields_canonical | apply Dev.gateGo_canonical | apply ite_canonical)

theorem execClkUngate_canonical {block : Fin 256} {inst : Fin 256} {s : State} {st' : State} (hcan : s.dev.Canonical) (ht : execClkUngate block inst s = .next st') : st'.dev.Canonical := by
  unfold execClkUngate at ht
  refine run_canonical hcan ht ?_
  intro d hd
  repeat' (with_reducible first | assumption | refine Dev.gateWrite_canonical (hf := fun d hd => ?_) ?_ | apply Dev.gateFields_canonical | apply Dev.gateGo_canonical | apply ite_canonical)

theorem execGateIdleStop_canonical {s : State} {st' : State} (hcan : s.dev.Canonical) (ht : execGateIdleStop s = .next st') : st'.dev.Canonical := by
  unfold execGateIdleStop at ht
  refine run_canonical hcan ht ?_
  intro d hd
  repeat' (first | (with_reducible first | assumption | apply Dev.setGated_canonical | apply Dev.gateEnd_canonical) | split)

theorem execGateIdleTimeout_canonical {s : State} {st' : State} (hcan : s.dev.Canonical) (ht : execGateIdleTimeout s = .next st') : st'.dev.Canonical := by
  unfold execGateIdleTimeout at ht
  refine run_canonical hcan ht ?_
  intro d hd
  repeat' (first | (with_reducible first | assumption | apply Dev.gateEnd_canonical | apply Dev.bump_canonical | apply Dev.eventAt_canonical) | split)

theorem Dev.fmGo_canonical {d : Dev} (hd : d.Canonical) : (Dev.fmGo d).Canonical := by
  unfold Dev.fmGo
  repeat' (with_reducible first | assumption | apply Dev.set_canonical | apply ite_canonical)

theorem execFmMeasure_canonical {target : Fin 32} {ref : Fin 32} {sel : Fin 128} {s : State} {st' : State} (hcan : s.dev.Canonical) (ht : execFmMeasure target ref sel s = .next st') : st'.dev.Canonical := by
  unfold execFmMeasure at ht
  refine run_canonical hcan ht ?_
  intro d hd
  repeat' (with_reducible first | assumption | refine Dev.gateWrite_canonical (hf := fun d hd => ?_) ?_ | apply Dev.set_canonical | apply Dev.fmGo_canonical)

theorem execFmDone_canonical {count : Nat} {s : State} {st' : State} (hcan : s.dev.Canonical) (ht : execFmDone count s = .next st') : st'.dev.Canonical := by
  unfold execFmDone at ht
  refine run_canonical hcan ht ?_
  intro d hd
  repeat' (with_reducible first | assumption | apply Dev.set_canonical | apply ite_canonical)

theorem execFmTimeout_canonical {count : Nat} {s : State} {st' : State} (hcan : s.dev.Canonical) (ht : execFmTimeout count s = .next st') : st'.dev.Canonical := by
  unfold execFmTimeout at ht
  refine run_canonical hcan ht ?_
  intro d hd
  repeat' (with_reducible first | assumption | apply Dev.set_canonical | apply ite_canonical)

/-! ### Power -/

theorem Dev.modPwr_canonical {d : Dev} {f : PwrSt → PwrSt} (hd : d.Canonical) : (Dev.modPwr d f).Canonical := by
  unfold Dev.modPwr
  repeat' (apply Dev.Canonical.mk <;> (try dsimp only) <;> with_reducible first | exact Dev.Canonical.words ‹_› | exact Dev.Canonical.eff ‹_› | exact Dev.Canonical.keep ‹_› | exact Dev.Canonical.cells ‹_› | exact Dev.Canonical.err ‹_› | exact Dev.Canonical.poison ‹_› | exact Sparse.wf_put (Dev.Canonical.words ‹_›) | exact Sparse.wf_put (Dev.Canonical.eff ‹_›) | exact Sparse.wf_put (Dev.Canonical.cells ‹_›) | exact Sparse.wf_put (Dev.Canonical.err ‹_›) | exact Sparse.wf_put (Dev.Canonical.poison ‹_›) | exact keepStore_wf (Dev.Canonical.keep ‹_›))

theorem Dev.sendVout_canonical {d : Dev} {mv : Nat} (hd : d.Canonical) : (Dev.sendVout d mv).Canonical := by
  unfold Dev.sendVout
  repeat' (with_reducible first | assumption | apply Dev.emit_canonical | apply Dev.modPwr_canonical)

theorem Dev.setTarget_canonical {d : Dev} {mv : Nat} (hd : d.Canonical) : (Dev.setTarget d mv).Canonical := by
  unfold Dev.setTarget
  repeat' (with_reducible first | assumption | apply Dev.modPwr_canonical | apply Dev.set_canonical | apply ite_canonical)

theorem Dev.avsLoop_canonical {d : Dev} {m : Nat} {mon : Nat} (hd : d.Canonical) : (Dev.avsLoop d m mon).Canonical := by
  unfold Dev.avsLoop
  repeat' (first | with_reducible assumption | ((try lift_lets); intro d1; refine (fun (hd1 : Dev.Canonical d1) => ?_) ?_; (try clear_value d1); on_goal 2 => unfold d1) | ((try lift_lets); intro dX; first | (have hX : MemSt := dX; clear hX) | (have hX : Regs := dX; clear hX) | (have hX : KeepSt := dX; clear hX) | clear_value dX | skip) | (with_reducible first | apply Dev.modPwr_canonical | apply Dev.eventAt_canonical | apply Dev.setTarget_canonical | apply Dev.sendVout_canonical | apply ite_canonical))

theorem execAvsUpdate_canonical {slacks : List Nat} {s : State} {st' : State} (hcan : s.dev.Canonical) (ht : execAvsUpdate slacks s = .next st') : st'.dev.Canonical := by
  unfold execAvsUpdate at ht
  refine run_canonical hcan ht ?_
  intro d hd
  repeat' (first | (with_reducible first | assumption | refine foldl_canonical ?_ (fun d x hd => ?_)) | ((try lift_lets); intro d1; refine (fun (hd1 : Dev.Canonical d1) => ?_) ?_; (try clear_value d1); on_goal 2 => unfold d1) | ((try lift_lets); intro dX; first | (have hX : MemSt := dX; clear hX) | (have hX : Regs := dX; clear hX) | (have hX : KeepSt := dX; clear hX) | clear_value dX | skip) | (with_reducible first | apply Dev.set_canonical | apply Dev.setTarget_canonical | apply Dev.sendVout_canonical | apply Dev.modPwr_canonical | apply Dev.avsLoop_canonical | apply ite_canonical))

theorem execAvsCommandResponse_canonical {ok : Bool} {s : State} {st' : State} (hcan : s.dev.Canonical) (ht : execAvsCommandResponse ok s = .next st') : st'.dev.Canonical := by
  unfold execAvsCommandResponse at ht
  refine run_canonical hcan ht ?_
  intro d hd
  repeat' (first | with_reducible assumption | ((try lift_lets); intro d1; refine (fun (hd1 : Dev.Canonical d1) => ?_) ?_; (try clear_value d1); on_goal 2 => unfold d1) | ((try lift_lets); intro dX; first | (have hX : MemSt := dX; clear hX) | (have hX : Regs := dX; clear hX) | (have hX : KeepSt := dX; clear hX) | clear_value dX | skip) | (with_reducible first | apply Dev.modPwr_canonical | apply Dev.set_canonical | apply Dev.bump_canonical | apply Dev.eventAt_canonical | apply ite_canonical) | split)

theorem execDroopDetect_canonical {m : Fin 64} {s : State} {st' : State} (hcan : s.dev.Canonical) (ht : execDroopDetect m s = .next st') : st'.dev.Canonical := by
  unfold execDroopDetect at ht
  refine run_canonical hcan ht ?_
  intro d hd
  repeat' (first | with_reducible assumption | ((try lift_lets); intro d1; refine (fun (hd1 : Dev.Canonical d1) => ?_) ?_; (try clear_value d1); on_goal 2 => unfold d1) | (with_reducible first | apply Dev.set_canonical | apply Dev.bump_canonical | apply Dev.modPwr_canonical | apply Dev.eventAt_canonical | apply ite_canonical))

theorem execStretchEnd_canonical {s : State} {st' : State} (hcan : s.dev.Canonical) (ht : execStretchEnd s = .next st') : st'.dev.Canonical := by
  unfold execStretchEnd at ht
  refine run_canonical hcan ht ?_
  intro d hd
  repeat' (with_reducible first | assumption | apply Dev.set_canonical)

theorem Dev.warnCause_canonical {d : Dev} {bit : Nat} (hd : d.Canonical) : (Dev.warnCause d bit).Canonical := by
  unfold Dev.warnCause
  repeat' (first | with_reducible assumption | ((try lift_lets); intro d1; refine (fun (hd1 : Dev.Canonical d1) => ?_) ?_; (try clear_value d1); on_goal 2 => unfold d1) | ((try lift_lets); intro dX; first | (have hX : MemSt := dX; clear hX) | (have hX : Regs := dX; clear hX) | (have hX : KeepSt := dX; clear hX) | clear_value dX | skip) | (with_reducible first | refine Dev.withIrq_canonical (hf := fun d hd => ?_) ?_ | apply Dev.setWord_canonical | apply Dev.set_canonical | apply Dev.bump_canonical | apply Dev.modPwr_canonical | apply Dev.event_canonical | apply Dev.recFlush_canonical | apply ite_canonical))

theorem execRailWarnCrossing_canonical {rail : Fin 3} {mv : Nat} {s : State} {st' : State} (hcan : s.dev.Canonical) (ht : execRailWarnCrossing rail mv s = .next st') : st'.dev.Canonical := by
  unfold execRailWarnCrossing at ht
  refine run_canonical hcan ht ?_
  intro d hd
  repeat' (with_reducible first | assumption | apply Dev.warnCause_canonical | apply ite_canonical)

theorem execPfailFall_canonical {s : State} {st' : State} (hcan : s.dev.Canonical) (ht : execPfailFall s = .next st') : st'.dev.Canonical := by
  unfold execPfailFall at ht
  refine run_canonical hcan ht ?_
  intro d hd
  repeat' (with_reducible first | assumption | apply Dev.warnCause_canonical)

theorem execWarnClear_canonical {s : State} {st' : State} (hcan : s.dev.Canonical) (ht : execWarnClear s = .next st') : st'.dev.Canonical := by
  unfold execWarnClear at ht
  refine run_canonical hcan ht ?_
  intro d hd
  repeat' (first | with_reducible assumption | ((try lift_lets); intro d1; refine (fun (hd1 : Dev.Canonical d1) => ?_) ?_; (try clear_value d1); on_goal 2 => unfold d1) | ((try lift_lets); intro dX; first | (have hX : MemSt := dX; clear hX) | (have hX : Regs := dX; clear hX) | (have hX : KeepSt := dX; clear hX) | clear_value dX | skip) | (with_reducible first | refine Dev.withIrq_canonical (hf := fun d hd => ?_) ?_ | apply Dev.setWord_canonical | apply Dev.event_canonical | apply ite_canonical))

theorem execRailTelemetryUpdate_canonical {mvs : List Nat} {s : State} {st' : State} (hcan : s.dev.Canonical) (ht : execRailTelemetryUpdate mvs s = .next st') : st'.dev.Canonical := by
  unfold execRailTelemetryUpdate at ht
  refine run_canonical hcan ht ?_
  intro d hd
  repeat' (with_reducible first | assumption | refine foldl_canonical ?_ (fun d x hd => ?_) | apply Dev.set_canonical)

/-! ### Thermal -/

theorem Dev.modTherm_canonical {d : Dev} {f : ThermSt → ThermSt} (hd : d.Canonical) : (Dev.modTherm d f).Canonical := by
  unfold Dev.modTherm
  repeat' (apply Dev.Canonical.mk <;> (try dsimp only) <;> with_reducible first | exact Dev.Canonical.words ‹_› | exact Dev.Canonical.eff ‹_› | exact Dev.Canonical.keep ‹_› | exact Dev.Canonical.cells ‹_› | exact Dev.Canonical.err ‹_› | exact Dev.Canonical.poison ‹_› | exact Sparse.wf_put (Dev.Canonical.words ‹_›) | exact Sparse.wf_put (Dev.Canonical.eff ‹_›) | exact Sparse.wf_put (Dev.Canonical.cells ‹_›) | exact Sparse.wf_put (Dev.Canonical.err ‹_›) | exact Sparse.wf_put (Dev.Canonical.poison ‹_›) | exact keepStore_wf (Dev.Canonical.keep ‹_›))

theorem Dev.judge_canonical {d : Dev} {k : Nat} (hd : d.Canonical) : (Dev.judge d k).Canonical := by
  unfold Dev.judge
  repeat' (first | with_reducible assumption | ((try lift_lets); intro d1; refine (fun (hd1 : Dev.Canonical d1) => ?_) ?_; (try clear_value d1); on_goal 2 => unfold d1) | ((try lift_lets); intro dX; first | (have hX : MemSt := dX; clear hX) | (have hX : Regs := dX; clear hX) | (have hX : KeepSt := dX; clear hX) | clear_value dX | skip) | (with_reducible first | apply Dev.modTherm_canonical | apply Dev.bump_canonical | apply Dev.eventAt_canonical | apply ite_canonical) | split)

theorem Dev.thermJudge_canonical {d : Dev} (hd : d.Canonical) : (Dev.thermJudge d).Canonical := by
  unfold Dev.thermJudge
  repeat' (first | (with_reducible first | assumption | refine foldl_canonical ?_ (fun d x hd => ?_)) | ((try lift_lets); intro d1; refine (fun (hd1 : Dev.Canonical d1) => ?_) ?_; (try clear_value d1); on_goal 2 => unfold d1) | ((try lift_lets); intro dX; first | (have hX : MemSt := dX; clear hX) | (have hX : Regs := dX; clear hX) | (have hX : KeepSt := dX; clear hX) | clear_value dX | skip) | (with_reducible first | apply Dev.judge_canonical | apply Dev.setFlag_canonical | apply Dev.set_canonical | apply Dev.modTherm_canonical | apply ite_canonical) | split)

theorem Dev.excludeTs_canonical {d : Dev} {n : Nat} {partner : Int} (hd : d.Canonical) : (Dev.excludeTs d n partner).Canonical := by
  unfold Dev.excludeTs
  repeat' (first | with_reducible assumption | ((try lift_lets); intro d1; refine (fun (hd1 : Dev.Canonical d1) => ?_) ?_; (try clear_value d1); on_goal 2 => unfold d1) | (with_reducible first | apply Dev.modTherm_canonical | apply Dev.set_canonical | apply Dev.eventAt_canonical | apply ite_canonical))

theorem Dev.tsDiff_canonical {d : Dev} {n : Nat} (hd : d.Canonical) : (Dev.tsDiff d n).Canonical := by
  unfold Dev.tsDiff
  repeat' (first | with_reducible assumption | ((try lift_lets); intro dX; first | (have hX : MemSt := dX; clear hX) | (have hX : Regs := dX; clear hX) | (have hX : KeepSt := dX; clear hX) | clear_value dX | skip) | with_reducible apply Dev.modTherm_canonical)

theorem Dev.tsCheck_canonical {d : Dev} {n : Nat} (hd : d.Canonical) : (Dev.tsCheck d n).Canonical := by
  unfold Dev.tsCheck
  repeat' (first | (with_reducible first | assumption | apply Dev.excludeTs_canonical | apply ite_canonical) | split)

theorem execThermalSample_canonical {temps : List Int} {s : State} {st' : State} (hcan : s.dev.Canonical) (ht : execThermalSample temps s = .next st') : st'.dev.Canonical := by
  unfold execThermalSample at ht
  refine run_canonical hcan ht ?_
  intro d hd
  repeat' (first | (with_reducible first | assumption | refine foldl_canonical ?_ (fun d x hd => ?_)) | ((try lift_lets); intro d1; refine (fun (hd1 : Dev.Canonical d1) => ?_) ?_; (try clear_value d1); on_goal 2 => unfold d1) | (with_reducible first | apply Dev.set_canonical | apply Dev.setFlag_canonical | apply Dev.excludeTs_canonical | apply Dev.tsDiff_canonical | apply Dev.tsCheck_canonical | apply Dev.thermJudge_canonical | apply ite_canonical))

theorem execRiseCheck_canonical {s : State} {st' : State} (hcan : s.dev.Canonical) (ht : execRiseCheck s = .next st') : st'.dev.Canonical := by
  unfold execRiseCheck at ht
  refine run_canonical hcan ht ?_
  intro d hd
  repeat' (first | with_reducible assumption | ((try lift_lets); intro d1; refine (fun (hd1 : Dev.Canonical d1) => ?_) ?_; (try clear_value d1); on_goal 2 => unfold d1) | ((try lift_lets); intro dX; first | (have hX : MemSt := dX; clear hX) | (have hX : Regs := dX; clear hX) | (have hX : KeepSt := dX; clear hX) | clear_value dX | skip) | (with_reducible first | apply Dev.modTherm_canonical | apply Dev.set_canonical | apply Dev.bump_canonical | apply Dev.eventAt_canonical | apply ite_canonical))

theorem Dev.riseWrite_canonical {d : Dev} {lim : Nat} (hd : d.Canonical) : (Dev.riseWrite d lim).Canonical := by
  unfold Dev.riseWrite
  repeat' (first | with_reducible assumption | ((try lift_lets); intro d1; refine (fun (hd1 : Dev.Canonical d1) => ?_) ?_; (try clear_value d1); on_goal 2 => unfold d1) | (with_reducible first | apply Dev.set_canonical | apply Dev.modTherm_canonical | apply ite_canonical))

theorem execThermRiseWrite_canonical {lim : Fin 256} {s : State} {st' : State} (hcan : s.dev.Canonical) (ht : execThermRiseWrite lim s = .next st') : st'.dev.Canonical := by
  unfold execThermRiseWrite at ht
  refine run_canonical hcan ht ?_
  intro d hd
  repeat' (with_reducible first | assumption | refine Dev.gateWrite_canonical (hf := fun d hd => ?_) ?_ | apply Dev.riseWrite_canonical)

theorem Dev.coolNote_canonical {d : Dev} {k : Nat} {cool : Bool} (hd : d.Canonical) : (Dev.coolNote d k cool).Canonical := by
  unfold Dev.coolNote
  repeat' (first | ((try lift_lets); intro dX; first | (have hX : MemSt := dX; clear hX) | (have hX : Regs := dX; clear hX) | (have hX : KeepSt := dX; clear hX) | clear_value dX | skip) | (apply Dev.Canonical.mk <;> (try dsimp only) <;> with_reducible first | exact Dev.Canonical.words ‹_› | exact Dev.Canonical.eff ‹_› | exact Dev.Canonical.keep ‹_› | exact Dev.Canonical.cells ‹_› | exact Dev.Canonical.err ‹_› | exact Dev.Canonical.poison ‹_› | exact Sparse.wf_put (Dev.Canonical.words ‹_›) | exact Sparse.wf_put (Dev.Canonical.eff ‹_›) | exact Sparse.wf_put (Dev.Canonical.cells ‹_›) | exact Sparse.wf_put (Dev.Canonical.err ‹_›) | exact Sparse.wf_put (Dev.Canonical.poison ‹_›) | exact keepStore_wf (Dev.Canonical.keep ‹_›)))

theorem Dev.refresh_canonical {d : Dev} {h : Nat} {t : Int} (hd : d.Canonical) : (Dev.refresh d h t).Canonical := by
  unfold Dev.refresh
  repeat' (first | with_reducible assumption | ((try lift_lets); intro d1; refine (fun (hd1 : Dev.Canonical d1) => ?_) ?_; (try clear_value d1); on_goal 2 => unfold d1) | ((try lift_lets); intro dX; first | (have hX : MemSt := dX; clear hX) | (have hX : Regs := dX; clear hX) | (have hX : KeepSt := dX; clear hX) | clear_value dX | skip) | (with_reducible first | apply Dev.coolNote_canonical | apply Dev.set_canonical | apply Dev.eventAt_canonical | apply ite_canonical))

theorem execStackTempRead_canonical {h : Fin 4} {t : Int} {ok : Bool} {s : State} {st' : State} (hcan : s.dev.Canonical) (ht : execStackTempRead h t ok s = .next st') : st'.dev.Canonical := by
  unfold execStackTempRead at ht
  refine run_canonical hcan ht ?_
  intro d hd
  repeat' (first | with_reducible assumption | ((try lift_lets); intro d1; refine (fun (hd1 : Dev.Canonical d1) => ?_) ?_; (try clear_value d1); on_goal 2 => unfold d1) | ((try lift_lets); intro dX; first | (have hX : MemSt := dX; clear hX) | (have hX : Regs := dX; clear hX) | (have hX : KeepSt := dX; clear hX) | clear_value dX | skip) | (with_reducible first | apply Dev.set_canonical | apply Dev.modTherm_canonical | apply Dev.refresh_canonical | apply Dev.thermJudge_canonical | apply Dev.eventAt_canonical | apply Dev.stackFail_canonical | apply ite_canonical))

theorem execStackTempTimeout_canonical {h : Fin 4} {s : State} {st' : State} (hcan : s.dev.Canonical) (ht : execStackTempTimeout h s = .next st') : st'.dev.Canonical := by
  unfold execStackTempTimeout at ht
  refine run_canonical hcan ht ?_
  intro d hd
  repeat' (with_reducible first | assumption | apply Dev.set_canonical | apply Dev.stackFail_canonical | apply Dev.thermJudge_canonical)

/-! ### Image -/

theorem Dev.applyRecord_canonical {d : Dev} {inBoot : Bool} {r : Record} (hd : d.Canonical) : (Dev.applyRecord d inBoot r).Canonical := by
  unfold Dev.applyRecord
  repeat' (first | (with_reducible first | assumption | refine foldl_canonical ?_ (fun d x hd => ?_)) | ((try lift_lets); intro dX; first | (have hX : MemSt := dX; clear hX) | (have hX : Regs := dX; clear hX) | (have hX : KeepSt := dX; clear hX) | clear_value dX | skip) | (with_reducible first | apply Dev.applyEntry_canonical | apply Dev.poolWrite_canonical | apply ite_canonical) | (apply Dev.Canonical.mk <;> (try dsimp only) <;> with_reducible first | exact Dev.Canonical.words ‹_› | exact Dev.Canonical.eff ‹_› | exact Dev.Canonical.keep ‹_› | exact Dev.Canonical.cells ‹_› | exact Dev.Canonical.err ‹_› | exact Dev.Canonical.poison ‹_› | exact Sparse.wf_put (Dev.Canonical.words ‹_›) | exact Sparse.wf_put (Dev.Canonical.eff ‹_›) | exact Sparse.wf_put (Dev.Canonical.cells ‹_›) | exact Sparse.wf_put (Dev.Canonical.err ‹_›) | exact Sparse.wf_put (Dev.Canonical.poison ‹_›) | exact keepStore_wf (Dev.Canonical.keep ‹_›)))

/-! ### Faults -/

theorem Dev.setSpare5_canonical {d : Dev} {k : Kind5} {q : Nat} {e : Option Nat} (hd : d.Canonical) : (Dev.setSpare5 d k q e).Canonical := by
  unfold Dev.setSpare5
  repeat' (first | with_reducible assumption | ((try lift_lets); intro dX; first | (have hX : MemSt := dX; clear hX) | (have hX : Regs := dX; clear hX) | (have hX : KeepSt := dX; clear hX) | clear_value dX | skip) | with_reducible apply Dev.setWord_canonical)

theorem Dev.fence5_canonical {d : Dev} {k : Kind5} {e : Nat} (hd : d.Canonical) : (Dev.fence5 d k e).Canonical := by
  unfold Dev.fence5
  repeat' (with_reducible first | assumption | apply Dev.set_canonical | apply Dev.keepCount_canonical)

theorem Dev.deMove_canonical {d : Dev} {a : Nat} {b : Nat} (hd : d.Canonical) : (Dev.deMove d a b).Canonical := by
  unfold Dev.deMove
  repeat' (apply Dev.Canonical.mk <;> (try dsimp only) <;> with_reducible first | exact Dev.Canonical.words ‹_› | exact Dev.Canonical.eff ‹_› | exact Dev.Canonical.keep ‹_› | exact Dev.Canonical.cells ‹_› | exact Dev.Canonical.err ‹_› | exact Dev.Canonical.poison ‹_› | exact Sparse.wf_put (Dev.Canonical.words ‹_›) | exact Sparse.wf_put (Dev.Canonical.eff ‹_›) | exact Sparse.wf_put (Dev.Canonical.cells ‹_›) | exact Sparse.wf_put (Dev.Canonical.err ‹_›) | exact Sparse.wf_put (Dev.Canonical.poison ‹_›) | exact keepStore_wf (Dev.Canonical.keep ‹_›))

theorem Dev.deSubEvent_canonical {d : Dev} {s : DeSub} (hd : d.Canonical) : (Dev.deSubEvent d s).Canonical := by
  unfold Dev.deSubEvent
  repeat' (with_reducible first | assumption | apply Dev.raise_canonical)

theorem Dev.deSubIdle_canonical {d : Dev} {e : Nat} {sp : Nat} (hd : d.Canonical) : (Dev.deSubIdle d e sp).Canonical := by
  unfold Dev.deSubIdle
  repeat' (first | with_reducible assumption | ((try lift_lets); intro dX; first | (have hX : MemSt := dX; clear hX) | (have hX : Regs := dX; clear hX) | (have hX : KeepSt := dX; clear hX) | clear_value dX | skip) | (with_reducible first | apply Dev.raise_canonical | apply Dev.tookFree_canonical))

theorem Dev.deSubstitute_canonical {d : Dev} {e : Nat} {quiet : Bool} (hd : d.Canonical) : (Dev.deSubstitute d e quiet).Canonical := by
  unfold Dev.deSubstitute
  repeat' (first | with_reducible assumption | ((try lift_lets); intro dX; first | (have hX : MemSt := dX; clear hX) | (have hX : Regs := dX; clear hX) | (have hX : KeepSt := dX; clear hX) | clear_value dX | skip) | (with_reducible first | apply Dev.deMove_canonical | apply Dev.rawModify_canonical | apply Dev.deSubIdle_canonical) | split | (apply Dev.Canonical.mk <;> (try dsimp only) <;> with_reducible first | apply Dev.Canonical.words | apply Dev.Canonical.eff | apply Dev.Canonical.keep | apply Dev.Canonical.cells | apply Dev.Canonical.err | apply Dev.Canonical.poison))

theorem Dev.deFault_canonical {d : Dev} {e : Nat} (hd : d.Canonical) : (Dev.deFault d e).Canonical := by
  unfold Dev.deFault
  repeat' (first | with_reducible assumption | ((try lift_lets); intro d1; refine (fun (hd1 : Dev.Canonical d1) => ?_) ?_; (try clear_value d1); on_goal 2 => unfold d1) | ((try lift_lets); intro dX; first | (have hX : MemSt := dX; clear hX) | (have hX : Regs := dX; clear hX) | (have hX : KeepSt := dX; clear hX) | clear_value dX | skip) | (with_reducible first | apply Dev.fence5_canonical | apply Dev.endLoan_canonical | apply Dev.showCaps_canonical | apply Dev.deSubEvent_canonical | apply Dev.deSubIdle_canonical | apply Dev.eventAt_canonical | apply Dev.enterHold_canonical | apply Dev.setSpare5_canonical | apply Dev.deSubstitute_canonical | apply ite_canonical) | (apply Dev.Canonical.mk <;> (try dsimp only) <;> with_reducible first | exact Dev.Canonical.words ‹_› | exact Dev.Canonical.eff ‹_› | exact Dev.Canonical.keep ‹_› | exact Dev.Canonical.cells ‹_› | exact Dev.Canonical.err ‹_› | exact Dev.Canonical.poison ‹_› | exact Sparse.wf_put (Dev.Canonical.words ‹_›) | exact Sparse.wf_put (Dev.Canonical.eff ‹_›) | exact Sparse.wf_put (Dev.Canonical.cells ‹_›) | exact Sparse.wf_put (Dev.Canonical.err ‹_›) | exact Sparse.wf_put (Dev.Canonical.poison ‹_›) | exact keepStore_wf (Dev.Canonical.keep ‹_›)) | split)

theorem execDeFault_canonical {e : Fin 20} {s : State} {st' : State} (hcan : s.dev.Canonical) (ht : execDeFault e s = .next st') : st'.dev.Canonical := by
  unfold execDeFault at ht
  refine run_canonical hcan ht ?_
  intro d hd
  repeat' (with_reducible first | assumption | apply Dev.deFault_canonical)

theorem execStripeWatchdog_canonical {e : Fin 20} {s : State} {st' : State} (hcan : s.dev.Canonical) (ht : execStripeWatchdog e s = .next st') : st'.dev.Canonical := by
  unfold execStripeWatchdog at ht
  refine run_canonical hcan ht ?_
  intro d hd
  repeat' (with_reducible first | assumption | apply Dev.deFault_canonical | apply ite_canonical)

theorem execDeCatchUpDone_canonical {q : Fin 4} {s : State} {st' : State} (hcan : s.dev.Canonical) (ht : execDeCatchUpDone q s = .next st') : st'.dev.Canonical := by
  unfold execDeCatchUpDone at ht
  refine run_canonical hcan ht ?_
  intro d hd
  repeat' (first | with_reducible assumption | ((try lift_lets); intro d1; refine (fun (hd1 : Dev.Canonical d1) => ?_) ?_; (try clear_value d1); on_goal 2 => unfold d1) | ((try lift_lets); intro dX; first | (have hX : MemSt := dX; clear hX) | (have hX : Regs := dX; clear hX) | (have hX : KeepSt := dX; clear hX) | clear_value dX | skip) | (with_reducible first | apply Dev.rawModify_canonical | apply Dev.deSubEvent_canonical | apply ite_canonical) | (apply Dev.Canonical.mk <;> (try dsimp only) <;> with_reducible first | exact Dev.Canonical.words ‹_› | exact Dev.Canonical.eff ‹_› | exact Dev.Canonical.keep ‹_› | exact Dev.Canonical.cells ‹_› | exact Dev.Canonical.err ‹_› | exact Dev.Canonical.poison ‹_› | exact Sparse.wf_put (Dev.Canonical.words ‹_›) | exact Sparse.wf_put (Dev.Canonical.eff ‹_›) | exact Sparse.wf_put (Dev.Canonical.cells ‹_›) | exact Sparse.wf_put (Dev.Canonical.err ‹_›) | exact Sparse.wf_put (Dev.Canonical.poison ‹_›) | exact keepStore_wf (Dev.Canonical.keep ‹_›)) | split)

theorem Dev.zeMove_canonical {d : Dev} {a : Nat} {b : Nat} (hd : d.Canonical) : (Dev.zeMove d a b).Canonical := by
  unfold Dev.zeMove
  repeat' (first | with_reducible assumption | ((try lift_lets); intro d1; refine (fun (hd1 : Dev.Canonical d1) => ?_) ?_; (try clear_value d1); on_goal 2 => unfold d1) | ((try lift_lets); intro dX; first | (have hX : MemSt := dX; clear hX) | (have hX : Regs := dX; clear hX) | (have hX : KeepSt := dX; clear hX) | clear_value dX | skip) | (with_reducible first | apply Dev.set_canonical | apply Dev.zeBusy_canonical | apply ite_canonical) | (apply Dev.Canonical.mk <;> (try dsimp only) <;> with_reducible first | exact Dev.Canonical.words ‹_› | exact Dev.Canonical.eff ‹_› | exact Dev.Canonical.keep ‹_› | exact Dev.Canonical.cells ‹_› | exact Dev.Canonical.err ‹_› | exact Dev.Canonical.poison ‹_› | exact Sparse.wf_put (Dev.Canonical.words ‹_›) | exact Sparse.wf_put (Dev.Canonical.eff ‹_›) | exact Sparse.wf_put (Dev.Canonical.cells ‹_›) | exact Sparse.wf_put (Dev.Canonical.err ‹_›) | exact Sparse.wf_put (Dev.Canonical.poison ‹_›) | exact keepStore_wf (Dev.Canonical.keep ‹_›)) | split)

theorem Dev.zeSubEvent_canonical {d : Dev} {e : Nat} {sp : Nat} {tile : Option TileJob} (hd : d.Canonical) : (Dev.zeSubEvent d e sp tile).Canonical := by
  unfold Dev.zeSubEvent
  repeat' (first | (with_reducible first | assumption | apply Dev.eventCtx_canonical | apply Dev.eventAt_canonical | apply Dev.tookFree_canonical) | split)

theorem Dev.zeFault_canonical {d : Dev} {e : Nat} (hd : d.Canonical) : (Dev.zeFault d e).Canonical := by
  unfold Dev.zeFault
  repeat' (first | (with_reducible first | assumption | refine foldl_canonical ?_ (fun d x hd => ?_)) | ((try lift_lets); intro d1; refine (fun (hd1 : Dev.Canonical d1) => ?_) ?_; (try clear_value d1); on_goal 2 => unfold d1) | ((try lift_lets); intro dX; first | (have hX : MemSt := dX; clear hX) | (have hX : Regs := dX; clear hX) | (have hX : KeepSt := dX; clear hX) | clear_value dX | skip) | (with_reducible first | apply Dev.fence5_canonical | apply Dev.endLoan_canonical | apply Dev.zeMove_canonical | apply Dev.zeSubEvent_canonical | apply Dev.showCaps_canonical | apply Dev.eventAt_canonical | apply Dev.setFlag_canonical | apply Dev.zeBusy_canonical | apply Dev.setSpare5_canonical | apply ite_canonical) | (apply Dev.Canonical.mk <;> (try dsimp only) <;> with_reducible first | exact Dev.Canonical.words ‹_› | exact Dev.Canonical.eff ‹_› | exact Dev.Canonical.keep ‹_› | exact Dev.Canonical.cells ‹_› | exact Dev.Canonical.err ‹_› | exact Dev.Canonical.poison ‹_› | exact Sparse.wf_put (Dev.Canonical.words ‹_›) | exact Sparse.wf_put (Dev.Canonical.eff ‹_›) | exact Sparse.wf_put (Dev.Canonical.cells ‹_›) | exact Sparse.wf_put (Dev.Canonical.err ‹_›) | exact Sparse.wf_put (Dev.Canonical.poison ‹_›) | exact keepStore_wf (Dev.Canonical.keep ‹_›)) | split)

theorem execZeFault_canonical {e : Fin 20} {s : State} {st' : State} (hcan : s.dev.Canonical) (ht : execZeFault e s = .next st') : st'.dev.Canonical := by
  unfold execZeFault at ht
  refine run_canonical hcan ht ?_
  intro d hd
  repeat' (with_reducible first | assumption | apply Dev.zeFault_canonical)

theorem execTileWatchdog_canonical {e : Fin 20} {s : State} {st' : State} (hcan : s.dev.Canonical) (ht : execTileWatchdog e s = .next st') : st'.dev.Canonical := by
  unfold execTileWatchdog at ht
  refine run_canonical hcan ht ?_
  intro d hd
  repeat' (with_reducible first | assumption | apply Dev.zeFault_canonical | apply ite_canonical)

theorem Dev.injJudge_canonical {d : Dev} {idle : Bool} {used : Bool} {f : Dev → Dev} (hd : d.Canonical) (hf : ∀ d : Dev, d.Canonical → (f d).Canonical) : (Dev.injJudge d idle used f).Canonical := by
  unfold Dev.injJudge
  repeat' (with_reducible first | assumption | apply hf | apply Dev.set_canonical | apply ite_canonical)

theorem Dev.faultInject_canonical {d : Dev} (hd : d.Canonical) : (Dev.faultInject d).Canonical := by
  unfold Dev.faultInject
  repeat' (first | with_reducible assumption | ((try lift_lets); intro d1; refine (fun (hd1 : Dev.Canonical d1) => ?_) ?_; (try clear_value d1); on_goal 2 => unfold d1) | ((try lift_lets); intro dX; first | (have hX : MemSt := dX; clear hX) | (have hX : Regs := dX; clear hX) | (have hX : KeepSt := dX; clear hX) | clear_value dX | skip) | (with_reducible first | apply Dev.set_canonical | refine Dev.injJudge_canonical (hf := fun d hd => ?_) ?_ | apply Dev.deFault_canonical | apply Dev.veFault_canonical | apply Dev.zeFault_canonical) | split)

theorem execFaultInject_canonical {kind : Fin 4} {engine : Fin 128} {s : State} {st' : State} (hcan : s.dev.Canonical) (ht : execFaultInject kind engine s = .next st') : st'.dev.Canonical := by
  unfold execFaultInject at ht
  refine run_canonical hcan ht ?_
  intro d hd
  repeat' (with_reducible first | assumption | refine Dev.gateWrite_canonical (hf := fun d hd => ?_) ?_ | apply Dev.set_canonical | apply Dev.faultInject_canonical)

theorem execMsiCoalesceExpiry_canonical {s : State} {st' : State} (hcan : s.dev.Canonical) (ht : execMsiCoalesceExpiry s = .next st') : st'.dev.Canonical := by
  unfold execMsiCoalesceExpiry at ht
  refine run_canonical hcan ht ?_
  intro d hd
  repeat' (first | with_reducible assumption | ((try lift_lets); intro d1; refine (fun (hd1 : Dev.Canonical d1) => ?_) ?_; (try clear_value d1); on_goal 2 => unfold d1) | ((try lift_lets); intro dX; first | (have hX : MemSt := dX; clear hX) | (have hX : Regs := dX; clear hX) | (have hX : KeepSt := dX; clear hX) | clear_value dX | skip) | (with_reducible first | apply Dev.sendMsix_canonical | apply ite_canonical) | (apply Dev.Canonical.mk <;> (try dsimp only) <;> with_reducible first | exact Dev.Canonical.words ‹_› | exact Dev.Canonical.eff ‹_› | exact Dev.Canonical.keep ‹_› | exact Dev.Canonical.cells ‹_› | exact Dev.Canonical.err ‹_› | exact Dev.Canonical.poison ‹_› | exact Sparse.wf_put (Dev.Canonical.words ‹_›) | exact Sparse.wf_put (Dev.Canonical.eff ‹_›) | exact Sparse.wf_put (Dev.Canonical.cells ‹_›) | exact Sparse.wf_put (Dev.Canonical.err ‹_›) | exact Sparse.wf_put (Dev.Canonical.poison ‹_›) | exact keepStore_wf (Dev.Canonical.keep ‹_›)))

theorem Dev.irqClear_canonical {d : Dev} {mask : Nat} (hd : d.Canonical) : (Dev.irqClear d mask).Canonical := by
  unfold Dev.irqClear
  repeat' (with_reducible first | assumption | refine Dev.withIrq_canonical (hf := fun d hd => ?_) ?_ | apply Dev.set_canonical)

theorem execEvtIrqClear_canonical {mask : Fin 32} {s : State} {st' : State} (hcan : s.dev.Canonical) (ht : execEvtIrqClear mask s = .next st') : st'.dev.Canonical := by
  unfold execEvtIrqClear at ht
  refine run_canonical hcan ht ?_
  intro d hd
  repeat' (with_reducible first | assumption | refine Dev.gateWrite_canonical (hf := fun d hd => ?_) ?_ | apply Dev.irqClear_canonical)

theorem Dev.keepCmd_canonical {d : Dev} {v : Word} (hd : d.Canonical) : (Dev.keepCmd d v).Canonical := by
  unfold Dev.keepCmd
  repeat' (first | with_reducible assumption | ((try lift_lets); intro d1; refine (fun (hd1 : Dev.Canonical d1) => ?_) ?_; (try clear_value d1); on_goal 2 => unfold d1) | ((try lift_lets); intro dX; first | (have hX : MemSt := dX; clear hX) | (have hX : Regs := dX; clear hX) | (have hX : KeepSt := dX; clear hX) | clear_value dX | skip) | (with_reducible first | apply Dev.set_canonical | apply ite_canonical) | (apply Dev.Canonical.mk <;> (try dsimp only) <;> with_reducible first | exact Dev.Canonical.words ‹_› | exact Dev.Canonical.eff ‹_› | exact Dev.Canonical.keep ‹_› | exact Dev.Canonical.cells ‹_› | exact Dev.Canonical.err ‹_› | exact Dev.Canonical.poison ‹_› | exact Sparse.wf_put (Dev.Canonical.words ‹_›) | exact Sparse.wf_put (Dev.Canonical.eff ‹_›) | exact Sparse.wf_put (Dev.Canonical.cells ‹_›) | exact Sparse.wf_put (Dev.Canonical.err ‹_›) | exact Sparse.wf_put (Dev.Canonical.poison ‹_›) | exact keepStore_wf (Dev.Canonical.keep ‹_›)))

theorem execKeepWrite_canonical {v : Word} {s : State} {st' : State} (hcan : s.dev.Canonical) (ht : execKeepWrite v s = .next st') : st'.dev.Canonical := by
  unfold execKeepWrite at ht
  refine run_canonical hcan ht ?_
  intro d hd
  repeat' (with_reducible first | assumption | refine Dev.gateWrite_canonical (hf := fun d hd => ?_) ?_ | apply Dev.keepCmd_canonical)

theorem Dev.keepSettle_canonical {d : Dev} (hd : d.Canonical) : (Dev.keepSettle d).Canonical := by
  unfold Dev.keepSettle
  repeat' (first | with_reducible assumption | ((try lift_lets); intro d1; refine (fun (hd1 : Dev.Canonical d1) => ?_) ?_; (try clear_value d1); on_goal 2 => unfold d1) | ((try lift_lets); intro dX; first | (have hX : MemSt := dX; clear hX) | (have hX : Regs := dX; clear hX) | (have hX : KeepSt := dX; clear hX) | clear_value dX | skip) | (with_reducible first | apply Dev.keepWrite_canonical | apply Dev.set_canonical) | (apply Dev.Canonical.mk <;> (try dsimp only) <;> with_reducible first | exact Dev.Canonical.words ‹_› | exact Dev.Canonical.eff ‹_› | exact Dev.Canonical.keep ‹_› | exact Dev.Canonical.cells ‹_› | exact Dev.Canonical.err ‹_› | exact Dev.Canonical.poison ‹_› | exact Sparse.wf_put (Dev.Canonical.words ‹_›) | exact Sparse.wf_put (Dev.Canonical.eff ‹_›) | exact Sparse.wf_put (Dev.Canonical.cells ‹_›) | exact Sparse.wf_put (Dev.Canonical.err ‹_›) | exact Sparse.wf_put (Dev.Canonical.poison ‹_›) | exact keepStore_wf (Dev.Canonical.keep ‹_›)) | split)

theorem execKeepWriteDone_canonical {s : State} {st' : State} (hcan : s.dev.Canonical) (ht : execKeepWriteDone s = .next st') : st'.dev.Canonical := by
  unfold execKeepWriteDone at ht
  refine run_canonical hcan ht ?_
  intro d hd
  repeat' (with_reducible first | assumption | apply Dev.keepSettle_canonical)

theorem Dev.fuseEvent_canonical {d : Dev} {slot : Nat} {op : Nat} {result : Nat} (hd : d.Canonical) : (Dev.fuseEvent d slot op result).Canonical := by
  unfold Dev.fuseEvent
  repeat' (with_reducible first | assumption | apply Dev.event_canonical | apply ite_canonical)

theorem Dev.fuseGo_canonical {d : Dev} (hd : d.Canonical) : (Dev.fuseGo d).Canonical := by
  unfold Dev.fuseGo
  repeat' (first | with_reducible assumption | ((try lift_lets); intro d1; refine (fun (hd1 : Dev.Canonical d1) => ?_) ?_; (try clear_value d1); on_goal 2 => unfold d1) | ((try lift_lets); intro dX; first | (have hX : MemSt := dX; clear hX) | (have hX : Regs := dX; clear hX) | (have hX : KeepSt := dX; clear hX) | clear_value dX | skip) | (with_reducible first | apply Dev.set_canonical | apply Dev.fuseEvent_canonical | apply ite_canonical) | (apply Dev.Canonical.mk <;> (try dsimp only) <;> with_reducible first | exact Dev.Canonical.words ‹_› | exact Dev.Canonical.eff ‹_› | exact Dev.Canonical.keep ‹_› | exact Dev.Canonical.cells ‹_› | exact Dev.Canonical.err ‹_› | exact Dev.Canonical.poison ‹_› | exact Sparse.wf_put (Dev.Canonical.words ‹_›) | exact Sparse.wf_put (Dev.Canonical.eff ‹_›) | exact Sparse.wf_put (Dev.Canonical.cells ‹_›) | exact Sparse.wf_put (Dev.Canonical.err ‹_›) | exact Sparse.wf_put (Dev.Canonical.poison ‹_›) | exact keepStore_wf (Dev.Canonical.keep ‹_›)) | split)

theorem Dev.fuseFields_canonical {d : Dev} {slot : Nat} {op : Nat} (hd : d.Canonical) : (Dev.fuseFields d slot op).Canonical := by
  unfold Dev.fuseFields
  repeat' (with_reducible first | assumption | apply Dev.set_canonical | apply ite_canonical)

theorem execFuseProgram_canonical {slot : Fin 4} {s : State} {st' : State} (hcan : s.dev.Canonical) (ht : execFuseProgram slot s = .next st') : st'.dev.Canonical := by
  unfold execFuseProgram at ht
  refine run_canonical hcan ht ?_
  intro d hd
  repeat' (with_reducible first | assumption | refine Dev.gateWrite_canonical (hf := fun d hd => ?_) ?_ | apply Dev.fuseFields_canonical | apply Dev.fuseGo_canonical)

theorem execFuseRevoke_canonical {slot : Fin 4} {s : State} {st' : State} (hcan : s.dev.Canonical) (ht : execFuseRevoke slot s = .next st') : st'.dev.Canonical := by
  unfold execFuseRevoke at ht
  refine run_canonical hcan ht ?_
  intro d hd
  repeat' (with_reducible first | assumption | refine Dev.gateWrite_canonical (hf := fun d hd => ?_) ?_ | apply Dev.fuseFields_canonical | apply Dev.fuseGo_canonical)

theorem Dev.fuseSettle_canonical {d : Dev} {ok : Bool} (hd : d.Canonical) : (Dev.fuseSettle d ok).Canonical := by
  unfold Dev.fuseSettle
  repeat' (first | with_reducible assumption | ((try lift_lets); intro d1; refine (fun (hd1 : Dev.Canonical d1) => ?_) ?_; (try clear_value d1); on_goal 2 => unfold d1) | ((try lift_lets); intro dX; first | (have hX : MemSt := dX; clear hX) | (have hX : Regs := dX; clear hX) | (have hX : KeepSt := dX; clear hX) | clear_value dX | skip) | (with_reducible first | apply Dev.tookFree_canonical | apply Dev.setWord_canonical | apply Dev.set_canonical | apply Dev.fuseEvent_canonical | apply ite_canonical) | (apply Dev.Canonical.mk <;> (try dsimp only) <;> with_reducible first | exact Dev.Canonical.words ‹_› | exact Dev.Canonical.eff ‹_› | exact Dev.Canonical.keep ‹_› | exact Dev.Canonical.cells ‹_› | exact Dev.Canonical.err ‹_› | exact Dev.Canonical.poison ‹_› | exact Sparse.wf_put (Dev.Canonical.words ‹_›) | exact Sparse.wf_put (Dev.Canonical.eff ‹_›) | exact Sparse.wf_put (Dev.Canonical.cells ‹_›) | exact Sparse.wf_put (Dev.Canonical.err ‹_›) | exact Sparse.wf_put (Dev.Canonical.poison ‹_›) | exact keepStore_wf (Dev.Canonical.keep ‹_›)) | split)

theorem execFuseOpDone_canonical {ok : Bool} {s : State} {st' : State} (hcan : s.dev.Canonical) (ht : execFuseOpDone ok s = .next st') : st'.dev.Canonical := by
  unfold execFuseOpDone at ht
  refine run_canonical hcan ht ?_
  intro d hd
  repeat' (with_reducible first | assumption | apply Dev.fuseSettle_canonical)

theorem Dev.bypass_canonical {d : Dev} (hd : d.Canonical) : (Dev.bypass d).Canonical := by
  unfold Dev.bypass
  repeat' (with_reducible first | assumption | apply Dev.emit_canonical)

theorem Dev.jtagBoundary_canonical {d : Dev} (hd : d.Canonical) : (Dev.jtagBoundary d).Canonical := by
  unfold Dev.jtagBoundary
  repeat' (with_reducible first | assumption | apply Dev.emit_canonical | apply Dev.tookFree_canonical)

theorem execJtagBypass_canonical {s : State} {st' : State} (hcan : s.dev.Canonical) (ht : execJtagBypass s = .next st') : st'.dev.Canonical := by
  unfold execJtagBypass at ht
  refine run_canonical hcan ht ?_
  intro d hd
  repeat' (with_reducible first | assumption | apply Dev.bypass_canonical)

theorem execJtagIdcode_canonical {s : State} {st' : State} (hcan : s.dev.Canonical) (ht : execJtagIdcode s = .next st') : st'.dev.Canonical := by
  unfold execJtagIdcode at ht
  refine run_canonical hcan ht ?_
  intro d hd
  repeat' (with_reducible first | assumption | apply Dev.emit_canonical)

theorem execJtagSamplePreload_canonical {data : Nat} {s : State} {st' : State} (hcan : s.dev.Canonical) (ht : execJtagSamplePreload data s = .next st') : st'.dev.Canonical := by
  unfold execJtagSamplePreload at ht
  refine run_canonical hcan ht ?_
  intro d hd
  repeat' (first | with_reducible assumption | ((try lift_lets); intro d1; refine (fun (hd1 : Dev.Canonical d1) => ?_) ?_; (try clear_value d1); on_goal 2 => unfold d1) | ((try lift_lets); intro dX; first | (have hX : MemSt := dX; clear hX) | (have hX : Regs := dX; clear hX) | (have hX : KeepSt := dX; clear hX) | clear_value dX | skip) | with_reducible apply Dev.jtagBoundary_canonical | (apply Dev.Canonical.mk <;> (try dsimp only) <;> with_reducible first | exact Dev.Canonical.words ‹_› | exact Dev.Canonical.eff ‹_› | exact Dev.Canonical.keep ‹_› | exact Dev.Canonical.cells ‹_› | exact Dev.Canonical.err ‹_› | exact Dev.Canonical.poison ‹_› | exact Sparse.wf_put (Dev.Canonical.words ‹_›) | exact Sparse.wf_put (Dev.Canonical.eff ‹_›) | exact Sparse.wf_put (Dev.Canonical.cells ‹_›) | exact Sparse.wf_put (Dev.Canonical.err ‹_›) | exact Sparse.wf_put (Dev.Canonical.poison ‹_›) | exact keepStore_wf (Dev.Canonical.keep ‹_›)))

theorem Dev.takesPads_canonical {d : Dev} {f : Dev → Dev} (hd : d.Canonical) (hf : ∀ d : Dev, d.Canonical → (f d).Canonical) : (Dev.takesPads d f).Canonical := by
  unfold Dev.takesPads
  repeat' (with_reducible first | assumption | apply hf | apply Dev.bypass_canonical | apply ite_canonical)

theorem execJtagExtest_canonical {s : State} {st' : State} (hcan : s.dev.Canonical) (ht : execJtagExtest s = .next st') : st'.dev.Canonical := by
  unfold execJtagExtest at ht
  refine run_canonical hcan ht ?_
  intro d hd
  repeat' (with_reducible first | assumption | refine Dev.takesPads_canonical (hf := fun d hd => ?_) ?_ | apply Dev.pin_canonical | apply Dev.jtagBoundary_canonical)

theorem execJtagExtestPulse_canonical {s : State} {st' : State} (hcan : s.dev.Canonical) (ht : execJtagExtestPulse s = .next st') : st'.dev.Canonical := by
  unfold execJtagExtestPulse at ht
  refine run_canonical hcan ht ?_
  intro d hd
  repeat' (with_reducible first | assumption | refine Dev.takesPads_canonical (hf := fun d hd => ?_) ?_ | apply Dev.pin_canonical | apply Dev.jtagBoundary_canonical)

theorem execJtagExtestTrain_canonical {s : State} {st' : State} (hcan : s.dev.Canonical) (ht : execJtagExtestTrain s = .next st') : st'.dev.Canonical := by
  unfold execJtagExtestTrain at ht
  refine run_canonical hcan ht ?_
  intro d hd
  repeat' (with_reducible first | assumption | refine Dev.takesPads_canonical (hf := fun d hd => ?_) ?_ | apply Dev.pin_canonical | apply Dev.jtagBoundary_canonical)

theorem execJtagClamp_canonical {s : State} {st' : State} (hcan : s.dev.Canonical) (ht : execJtagClamp s = .next st') : st'.dev.Canonical := by
  unfold execJtagClamp at ht
  refine run_canonical hcan ht ?_
  intro d hd
  repeat' (with_reducible first | assumption | refine Dev.takesPads_canonical (hf := fun d hd => ?_) ?_ | apply Dev.pin_canonical | apply Dev.bypass_canonical)

theorem execJtagHighz_canonical {s : State} {st' : State} (hcan : s.dev.Canonical) (ht : execJtagHighz s = .next st') : st'.dev.Canonical := by
  unfold execJtagHighz at ht
  refine run_canonical hcan ht ?_
  intro d hd
  repeat' (with_reducible first | assumption | refine Dev.takesPads_canonical (hf := fun d hd => ?_) ?_ | apply Dev.pin_canonical | apply Dev.bypass_canonical)

/-! ### Start -/

theorem Dev.zeroRefuse_canonical {d : Dev} {a : Nat} (hd : d.Canonical) : (Dev.zeroRefuse d a).Canonical := by
  unfold Dev.zeroRefuse
  repeat' (first | (with_reducible first | assumption | refine foldl_canonical ?_ (fun d x hd => ?_)) | ((try lift_lets); intro d1; refine (fun (hd1 : Dev.Canonical d1) => ?_) ?_; (try clear_value d1); on_goal 2 => unfold d1) | (with_reducible first | apply Dev.cfgZero_canonical | apply Dev.refuse_canonical) | split)

theorem Dev.zeroCheck_canonical {d : Dev} (hd : d.Canonical) : (Dev.zeroCheck d).Canonical := by
  unfold Dev.zeroCheck
  repeat' (with_reducible first | assumption | refine foldl_canonical ?_ (fun d x hd => ?_) | apply Dev.zeroRefuse_canonical)

theorem Dev.kslCheck_canonical {d : Dev} (hd : d.Canonical) : (Dev.kslCheck d).Canonical := by
  unfold Dev.kslCheck
  repeat' (first | (with_reducible first | assumption | refine foldl_canonical ?_ (fun d x hd => ?_) | apply Dev.refuse_canonical | apply Dev.eventAt_canonical | apply Dev.zeroRefuse_canonical | apply ite_canonical) | split)

theorem Dev.kslStart_canonical {d : Dev} {wasSensing : Bool} (hd : d.Canonical) : (Dev.kslStart d wasSensing).Canonical := by
  unfold Dev.kslStart
  repeat' (with_reducible first | assumption | refine foldl_canonical ?_ (fun d x hd => ?_) | apply Dev.startTraining_canonical | apply Dev.bcSend_canonical | apply Dev.emit_canonical | apply ite_canonical)

theorem Dev.ctxRefuse_canonical {d : Dev} {n : Nat} {code : Nat} {data : Item} (hd : d.Canonical) : (Dev.ctxRefuse d n code data).Canonical := by
  unfold Dev.ctxRefuse
  repeat' (with_reducible first | assumption | apply Dev.eventCtx_canonical | apply Dev.refuse_canonical)

theorem Dev.ctxCheck_canonical {d : Dev} (hd : d.Canonical) : (Dev.ctxCheck d).Canonical := by
  unfold Dev.ctxCheck
  repeat' (with_reducible first | assumption | refine foldl_canonical ?_ (fun d x hd => ?_) | apply Dev.ctxRefuse_canonical | apply Dev.zeroRefuse_canonical | apply ite_canonical)

theorem Dev.placeDes_canonical {d : Dev} (hd : d.Canonical) : (Dev.placeDes d).Canonical := by
  unfold Dev.placeDes
  repeat' (first | (with_reducible first | assumption | refine foldl_canonical ?_ (fun d x hd => ?_)) | ((try lift_lets); intro d1; refine (fun (hd1 : Dev.Canonical d1) => ?_) ?_; (try clear_value d1); on_goal 2 => unfold d1) | ((try lift_lets); intro dX; first | (have hX : MemSt := dX; clear hX) | (have hX : Regs := dX; clear hX) | (have hX : KeepSt := dX; clear hX) | clear_value dX | skip) | (with_reducible first | apply Dev.eventCtx_canonical | apply Dev.refuse_canonical | apply Dev.enterHold_canonical | apply ite_canonical | refine foldl_fst_canonical ?_ (fun p x hp => ?_)) | (apply Dev.Canonical.mk <;> (try dsimp only) <;> with_reducible first | exact Dev.Canonical.words ‹_› | exact Dev.Canonical.eff ‹_› | exact Dev.Canonical.keep ‹_› | exact Dev.Canonical.cells ‹_› | exact Dev.Canonical.err ‹_› | exact Dev.Canonical.poison ‹_› | exact Sparse.wf_put (Dev.Canonical.words ‹_›) | exact Sparse.wf_put (Dev.Canonical.eff ‹_›) | exact Sparse.wf_put (Dev.Canonical.cells ‹_›) | exact Sparse.wf_put (Dev.Canonical.err ‹_›) | exact Sparse.wf_put (Dev.Canonical.poison ‹_›) | exact keepStore_wf (Dev.Canonical.keep ‹_›)) | split)

theorem Dev.branchCheck_canonical {d : Dev} (hd : d.Canonical) : (Dev.branchCheck d).Canonical := by
  unfold Dev.branchCheck
  repeat' (first | (with_reducible first | assumption | refine foldl_canonical ?_ (fun d x hd => ?_) | apply Dev.eventCtx_canonical | apply Dev.refuse_canonical | apply ite_canonical) | split)

theorem Dev.lutsLoad_canonical {d : Dev} {n : Nat} (hd : d.Canonical) : (Dev.lutsLoad d n).Canonical := by
  unfold Dev.lutsLoad
  repeat' (first | (with_reducible first | assumption | refine foldl_canonical ?_ (fun d x hd => ?_)) | ((try lift_lets); intro dX; first | (have hX : MemSt := dX; clear hX) | (have hX : Regs := dX; clear hX) | (have hX : KeepSt := dX; clear hX) | clear_value dX | skip) | (with_reducible first | apply Dev.set_canonical | apply ite_canonical) | (apply Dev.Canonical.mk <;> (try dsimp only) <;> with_reducible first | exact Dev.Canonical.words ‹_› | exact Dev.Canonical.eff ‹_› | exact Dev.Canonical.keep ‹_› | exact Dev.Canonical.cells ‹_› | exact Dev.Canonical.err ‹_› | exact Dev.Canonical.poison ‹_› | exact Sparse.wf_put (Dev.Canonical.words ‹_›) | exact Sparse.wf_put (Dev.Canonical.eff ‹_›) | exact Sparse.wf_put (Dev.Canonical.cells ‹_›) | exact Sparse.wf_put (Dev.Canonical.err ‹_›) | exact Sparse.wf_put (Dev.Canonical.poison ‹_›) | exact keepStore_wf (Dev.Canonical.keep ‹_›)))

theorem Dev.ctxStart_canonical {d : Dev} {n : Nat} (hd : d.Canonical) : (Dev.ctxStart d n).Canonical := by
  unfold Dev.ctxStart
  repeat' (first | with_reducible assumption | ((try lift_lets); intro d1; refine (fun (hd1 : Dev.Canonical d1) => ?_) ?_; (try clear_value d1); on_goal 2 => unfold d1) | ((try lift_lets); intro dX; first | (have hX : MemSt := dX; clear hX) | (have hX : Regs := dX; clear hX) | (have hX : KeepSt := dX; clear hX) | clear_value dX | skip) | (with_reducible first | apply Dev.latch_canonical | apply Dev.latchAll_canonical | apply Dev.modCtx_canonical | apply Dev.set_canonical | apply Dev.lutsLoad_canonical | apply ite_canonical))

theorem Dev.krcCheck_canonical {d : Dev} (hd : d.Canonical) : (Dev.krcCheck d).Canonical := by
  unfold Dev.krcCheck
  repeat' (with_reducible first | assumption | refine foldl_canonical ?_ (fun d x hd => ?_) | apply Dev.eventCtx_canonical | apply Dev.refuse_canonical | apply ite_canonical)

theorem Dev.captureStart_canonical {d : Dev} (hd : d.Canonical) : (Dev.captureStart d).Canonical := by
  unfold Dev.captureStart
  repeat' (first | (with_reducible first | assumption | refine foldl_canonical ?_ (fun d x hd => ?_)) | ((try lift_lets); intro d1; refine (fun (hd1 : Dev.Canonical d1) => ?_) ?_; (try clear_value d1); on_goal 2 => unfold d1) | (with_reducible first | apply Dev.ctxCheck_canonical | apply Dev.placeDes_canonical | apply Dev.branchCheck_canonical | apply Dev.krcCheck_canonical | apply Dev.ctxStart_canonical | apply ite_canonical))

theorem Dev.recCheck_canonical {d : Dev} (hd : d.Canonical) : (Dev.recCheck d).Canonical := by
  unfold Dev.recCheck
  repeat' (first | (with_reducible first | assumption | apply Dev.event_canonical | apply Dev.refuse_canonical | apply ite_canonical) | split)

theorem Dev.dmapRuns_canonical {d : Dev} (hd : d.Canonical) : (Dev.dmapRuns d).Canonical := by
  unfold Dev.dmapRuns
  repeat' (first | (with_reducible first | assumption | refine foldl_canonical ?_ (fun d x hd => ?_) | apply Dev.eventAt_canonical | apply ite_canonical) | (apply Dev.Canonical.mk <;> (try dsimp only) <;> with_reducible first | exact Dev.Canonical.words ‹_› | exact Dev.Canonical.eff ‹_› | exact Dev.Canonical.keep ‹_› | exact Dev.Canonical.cells ‹_› | exact Dev.Canonical.err ‹_› | exact Dev.Canonical.poison ‹_› | exact Sparse.wf_put (Dev.Canonical.words ‹_›) | exact Sparse.wf_put (Dev.Canonical.eff ‹_›) | exact Sparse.wf_put (Dev.Canonical.cells ‹_›) | exact Sparse.wf_put (Dev.Canonical.err ‹_›) | exact Sparse.wf_put (Dev.Canonical.poison ‹_›) | exact keepStore_wf (Dev.Canonical.keep ‹_›)))

theorem Dev.dmapFrom_canonical {d : Dev} {slots : List (Nat × Nat)} {jseq : Nat} {fromKeep : Bool} (hd : d.Canonical) : (Dev.dmapFrom d slots jseq fromKeep).Canonical := by
  unfold Dev.dmapFrom
  repeat' (apply Dev.Canonical.mk <;> (try dsimp only) <;> with_reducible first | exact Dev.Canonical.words ‹_› | exact Dev.Canonical.eff ‹_› | exact Dev.Canonical.keep ‹_› | exact Dev.Canonical.cells ‹_› | exact Dev.Canonical.err ‹_› | exact Dev.Canonical.poison ‹_› | exact Sparse.wf_put (Dev.Canonical.words ‹_›) | exact Sparse.wf_put (Dev.Canonical.eff ‹_›) | exact Sparse.wf_put (Dev.Canonical.cells ‹_›) | exact Sparse.wf_put (Dev.Canonical.err ‹_›) | exact Sparse.wf_put (Dev.Canonical.poison ‹_›) | exact keepStore_wf (Dev.Canonical.keep ‹_›))

theorem Dev.dmapReport_canonical {d : Dev} {fromKeep : Bool} {image : Bool} {magic : Bool} {last : Nat} (hd : d.Canonical) : (Dev.dmapReport d fromKeep image magic last).Canonical := by
  unfold Dev.dmapReport
  repeat' (with_reducible first | assumption | apply Dev.set_canonical | apply Dev.event_canonical | apply ite_canonical)

theorem Dev.dmapLoad_canonical {d : Dev} {keepOnly : Bool} (hd : d.Canonical) : (Dev.dmapLoad d keepOnly).Canonical := by
  unfold Dev.dmapLoad
  repeat' (first | (with_reducible first | assumption | refine foldl_canonical ?_ (fun d x hd => ?_)) | ((try lift_lets); intro d1; refine (fun (hd1 : Dev.Canonical d1) => ?_) ?_; (try clear_value d1); on_goal 2 => unfold d1) | ((try lift_lets); intro dX; first | (have hX : MemSt := dX; clear hX) | (have hX : Regs := dX; clear hX) | (have hX : KeepSt := dX; clear hX) | clear_value dX | skip) | (with_reducible first | apply Dev.dmapRuns_canonical | apply Dev.dmapFrom_canonical | apply Dev.set_canonical | apply Dev.dmapReport_canonical))

/-! ### Loans -/

theorem Dev.lend_canonical {d : Dev} {block : Nat} {e : Nat} (hd : d.Canonical) : (Dev.lend d block e).1.Canonical := by
  unfold Dev.lend
  repeat' (first | with_reducible assumption | ((try lift_lets); intro d1; refine (fun (hd1 : Dev.Canonical d1) => ?_) ?_; (try clear_value d1); on_goal 2 => unfold d1) | ((try lift_lets); intro dX; first | (have hX : MemSt := dX; clear hX) | (have hX : Regs := dX; clear hX) | (have hX : KeepSt := dX; clear hX) | clear_value dX | skip) | (with_reducible first | apply Dev.setSpare5_canonical | apply Dev.deSubstitute_canonical | apply Dev.showCaps_canonical | apply Dev.zeMove_canonical | apply Dev.setVeSpare_canonical | apply Dev.veMove_canonical | apply Dev.showVe_canonical | apply Dev.showLoad_canonical) | (apply Dev.Canonical.mk <;> (try dsimp only) <;> with_reducible first | exact Dev.Canonical.words ‹_› | exact Dev.Canonical.eff ‹_› | exact Dev.Canonical.keep ‹_› | exact Dev.Canonical.cells ‹_› | exact Dev.Canonical.err ‹_› | exact Dev.Canonical.poison ‹_› | exact Sparse.wf_put (Dev.Canonical.words ‹_›) | exact Sparse.wf_put (Dev.Canonical.eff ‹_›) | exact Sparse.wf_put (Dev.Canonical.cells ‹_›) | exact Sparse.wf_put (Dev.Canonical.err ‹_›) | exact Sparse.wf_put (Dev.Canonical.poison ‹_›) | exact keepStore_wf (Dev.Canonical.keep ‹_›)) | split)

theorem Dev.loanOver_canonical {d : Dev} {block : Nat} {e : Nat} (hd : d.Canonical) : (Dev.loanOver d block e).Canonical := by
  unfold Dev.loanOver
  repeat' (first | with_reducible assumption | ((try lift_lets); intro d1; refine (fun (hd1 : Dev.Canonical d1) => ?_) ?_; (try clear_value d1); on_goal 2 => unfold d1) | ((try lift_lets); intro dX; first | (have hX : MemSt := dX; clear hX) | (have hX : Regs := dX; clear hX) | (have hX : KeepSt := dX; clear hX) | clear_value dX | skip) | (with_reducible first | apply Dev.setSpare5_canonical | apply Dev.deMove_canonical | apply Dev.showCaps_canonical | apply Dev.zeMove_canonical | apply Dev.setVeSpare_canonical | apply Dev.showVe_canonical | apply Dev.showLoad_canonical | apply ite_canonical) | (apply Dev.Canonical.mk <;> (try dsimp only) <;> with_reducible first | exact Dev.Canonical.words ‹_› | exact Dev.Canonical.eff ‹_› | exact Dev.Canonical.keep ‹_› | exact Dev.Canonical.cells ‹_› | exact Dev.Canonical.err ‹_› | exact Dev.Canonical.poison ‹_› | exact Sparse.wf_put (Dev.Canonical.words ‹_›) | exact Sparse.wf_put (Dev.Canonical.eff ‹_›) | exact Sparse.wf_put (Dev.Canonical.cells ‹_›) | exact Sparse.wf_put (Dev.Canonical.err ‹_›) | exact Sparse.wf_put (Dev.Canonical.poison ‹_›) | exact keepStore_wf (Dev.Canonical.keep ‹_›)))

theorem Dev.workReturn_canonical {d : Dev} (hd : d.Canonical) : (Dev.workReturn d).Canonical := by
  unfold Dev.workReturn
  repeat' (with_reducible first | assumption | refine foldl_canonical ?_ (fun d x hd => ?_) | apply Dev.loanOver_canonical | apply ite_canonical)

theorem Dev.giveBack_canonical {d : Dev} {block : Nat} {e : Nat} (hd : d.Canonical) : (Dev.giveBack d block e).Canonical := by
  unfold Dev.giveBack
  repeat' (first | with_reducible assumption | ((try lift_lets); intro d1; refine (fun (hd1 : Dev.Canonical d1) => ?_) ?_; (try clear_value d1); on_goal 2 => unfold d1) | ((try lift_lets); intro dX; first | (have hX : MemSt := dX; clear hX) | (have hX : Regs := dX; clear hX) | (have hX : KeepSt := dX; clear hX) | clear_value dX | skip) | (with_reducible first | apply Dev.veRename_canonical | apply Dev.modVe_canonical | apply Dev.veSelect_canonical | apply Dev.workReturn_canonical | apply ite_canonical) | (apply Dev.Canonical.mk <;> (try dsimp only) <;> with_reducible first | exact Dev.Canonical.words ‹_› | exact Dev.Canonical.eff ‹_› | exact Dev.Canonical.keep ‹_› | exact Dev.Canonical.cells ‹_› | exact Dev.Canonical.err ‹_› | exact Dev.Canonical.poison ‹_› | exact Sparse.wf_put (Dev.Canonical.words ‹_›) | exact Sparse.wf_put (Dev.Canonical.eff ‹_›) | exact Sparse.wf_put (Dev.Canonical.cells ‹_›) | exact Sparse.wf_put (Dev.Canonical.err ‹_›) | exact Sparse.wf_put (Dev.Canonical.poison ‹_›) | exact keepStore_wf (Dev.Canonical.keep ‹_›)))

theorem Dev.freeLoan_canonical {d : Dev} {block : Nat} {e : Nat} (hd : d.Canonical) : (Dev.freeLoan d block e).Canonical := by
  unfold Dev.freeLoan
  repeat' (with_reducible first | assumption | apply Dev.setSpare5_canonical | apply Dev.setVeSpare_canonical | apply ite_canonical)

theorem Dev.endLoans_canonical {d : Dev} (hd : d.Canonical) : (Dev.endLoans d).Canonical := by
  unfold Dev.endLoans
  repeat' (first | (with_reducible first | assumption | refine foldl_canonical ?_ (fun d x hd => ?_)) | ((try lift_lets); intro d1; refine (fun (hd1 : Dev.Canonical d1) => ?_) ?_; (try clear_value d1); on_goal 2 => unfold d1) | ((try lift_lets); intro dX; first | (have hX : MemSt := dX; clear hX) | (have hX : Regs := dX; clear hX) | (have hX : KeepSt := dX; clear hX) | clear_value dX | skip) | (with_reducible first | apply Dev.freeLoan_canonical | apply Dev.showCaps_canonical | apply ite_canonical) | (apply Dev.Canonical.mk <;> (try dsimp only) <;> with_reducible first | exact Dev.Canonical.words ‹_› | exact Dev.Canonical.eff ‹_› | exact Dev.Canonical.keep ‹_› | exact Dev.Canonical.cells ‹_› | exact Dev.Canonical.err ‹_› | exact Dev.Canonical.poison ‹_› | exact Sparse.wf_put (Dev.Canonical.words ‹_›) | exact Sparse.wf_put (Dev.Canonical.eff ‹_›) | exact Sparse.wf_put (Dev.Canonical.cells ‹_›) | exact Sparse.wf_put (Dev.Canonical.err ‹_›) | exact Sparse.wf_put (Dev.Canonical.poison ‹_›) | exact keepStore_wf (Dev.Canonical.keep ‹_›)) | split)

theorem execRowDone_canonical {e : Fin 68} {bytes : List Byte} {s : State} {st' : State} (hcan : s.dev.Canonical) (ht : execRowDone e bytes s = .next st') : st'.dev.Canonical := by
  unfold execRowDone at ht
  refine run_canonical hcan ht ?_
  intro d hd
  repeat' (with_reducible first | assumption | apply Dev.rowDone_canonical | apply Dev.workReturn_canonical)

theorem execTileEmitted_canonical {z : Fin 20} {s : State} {st' : State} (hcan : s.dev.Canonical) (ht : execTileEmitted z s = .next st') : st'.dev.Canonical := by
  unfold execTileEmitted at ht
  refine run_canonical hcan ht ?_
  intro d hd
  repeat' (with_reducible first | assumption | refine foldl_canonical ?_ (fun d x hd => ?_) | apply Dev.emitTile_canonical | apply Dev.loanOver_canonical)

theorem execGeneralJobDone_canonical {z : Fin 20} {s : State} {st' : State} (hcan : s.dev.Canonical) (ht : execGeneralJobDone z s = .next st') : st'.dev.Canonical := by
  unfold execGeneralJobDone at ht
  refine run_canonical hcan ht ?_
  intro d hd
  repeat' (with_reducible first | assumption | apply Dev.jobDone_canonical | apply Dev.workReturn_canonical)

theorem execDevelopFrameDone_canonical {n : Fin 16} {hosts : List (List Nat)} {s : State} {st' : State} (hcan : s.dev.Canonical) (ht : execDevelopFrameDone n hosts s = .next st') : st'.dev.Canonical := by
  unfold execDevelopFrameDone at ht
  refine run_canonical hcan ht ?_
  intro d hd
  repeat' (with_reducible first | assumption | refine foldl_canonical ?_ (fun d x hd => ?_) | apply Dev.developDone_canonical | apply Dev.loanOver_canonical)

/-! ### Resets -/

theorem keptWords_wf {keep : Nat → FieldSpec → Bool} {m : Sparse Word} : Sparse.wf resetWord (keptWords keep m) = true := by
  unfold keptWords
  have h : ∀ (l : Sparse Word) (acc : Sparse Word), Sparse.wf resetWord acc = true →
      Sparse.wf resetWord (l.foldl (fun acc e => Sparse.put resetWord acc e.1 (keptWord (keep e.1) e.1 e.2)) acc) = true := by
    intro l
    induction l with
    | nil => exact fun acc h => h
    | cons e l ih => exact fun acc h => ih _ (Sparse.wf_put h)
  exact h m [] rfl
theorem Dev.resetCause_canonical {d : Dev} {bit : Nat} {rail : Nat} (hd : d.Canonical) : (Dev.resetCause d bit rail).Canonical := by
  unfold Dev.resetCause
  repeat' (with_reducible first | assumption | apply Dev.setWord_canonical)

theorem Dev.modeBoot_canonical {d : Dev} (hd : d.Canonical) : (Dev.modeBoot d).Canonical := by
  unfold Dev.modeBoot
  repeat' (with_reducible first | assumption | apply Dev.set_canonical | apply Dev.setFlag_canonical)

theorem Dev.bootFrom_canonical {d : Dev} {testEn : Bool} (hd : d.Canonical) : (Dev.bootFrom d testEn).Canonical := by
  unfold Dev.bootFrom
  repeat' (first | with_reducible assumption | ((try lift_lets); intro d1; refine (fun (hd1 : Dev.Canonical d1) => ?_) ?_; (try clear_value d1); on_goal 2 => unfold d1) | ((try lift_lets); intro dX; first | (have hX : MemSt := dX; clear hX) | (have hX : Regs := dX; clear hX) | (have hX : KeepSt := dX; clear hX) | clear_value dX | skip) | (with_reducible first | apply Dev.setWord_canonical | apply Dev.setFlag_canonical | apply ite_canonical) | (apply Dev.Canonical.mk <;> (try dsimp only) <;> with_reducible first | exact Dev.Canonical.words ‹_› | exact Dev.Canonical.eff ‹_› | exact Dev.Canonical.keep ‹_› | exact Dev.Canonical.cells ‹_› | exact Dev.Canonical.err ‹_› | exact Dev.Canonical.poison ‹_› | exact Sparse.wf_put (Dev.Canonical.words ‹_›) | exact Sparse.wf_put (Dev.Canonical.eff ‹_›) | exact Sparse.wf_put (Dev.Canonical.cells ‹_›) | exact Sparse.wf_put (Dev.Canonical.err ‹_›) | exact Sparse.wf_put (Dev.Canonical.poison ‹_›) | exact keepStore_wf (Dev.Canonical.keep ‹_›)))

theorem Dev.coldBoot_canonical {d : Dev} {testEn : Bool} (hd : d.Canonical) : (Dev.coldBoot d testEn).Canonical := by
  unfold Dev.coldBoot
  repeat' (first | ((try lift_lets); intro dX; first | (have hX : MemSt := dX; clear hX) | (have hX : Regs := dX; clear hX) | (have hX : KeepSt := dX; clear hX) | clear_value dX | skip) | with_reducible apply Dev.bootFrom_canonical | (apply Dev.Canonical.mk <;> (try dsimp only) <;> with_reducible first | exact Dev.Canonical.words ‹_› | exact Dev.Canonical.eff ‹_› | exact Dev.Canonical.keep ‹_› | exact Dev.Canonical.cells ‹_› | exact Dev.Canonical.err ‹_› | exact Dev.Canonical.poison ‹_› | exact Sparse.wf_put (Dev.Canonical.words ‹_›) | exact Sparse.wf_put (Dev.Canonical.eff ‹_›) | exact Sparse.wf_put (Dev.Canonical.cells ‹_›) | exact Sparse.wf_put (Dev.Canonical.err ‹_›) | exact Sparse.wf_put (Dev.Canonical.poison ‹_›) | exact keepStore_wf (Dev.Canonical.keep ‹_›)))

theorem Dev.coldFields_canonical {d : Dev} {aon : Nat} (hd : d.Canonical) : (Dev.coldFields d aon).Canonical := by
  unfold Dev.coldFields
  exact ⟨keptWords_wf, keptWords_wf, hd.keep, rfl, rfl, rfl⟩

theorem Dev.coldState_canonical {d : Dev} {aon : Nat} (hd : d.Canonical) : (Dev.coldState d aon).Canonical := by
  unfold Dev.coldState
  repeat' (first | with_reducible assumption | ((try lift_lets); intro d1; refine (fun (hd1 : Dev.Canonical d1) => ?_) ?_; (try clear_value d1); on_goal 2 => unfold d1) | ((try lift_lets); intro dX; first | (have hX : MemSt := dX; clear hX) | (have hX : Regs := dX; clear hX) | (have hX : KeepSt := dX; clear hX) | clear_value dX | skip) | (with_reducible first | apply Dev.keepSettle_canonical | apply Dev.outputsToSafe_canonical | apply Dev.setRails_canonical | apply Dev.coldFields_canonical | apply Dev.pin_canonical | apply Dev.driveFault_canonical | apply ite_canonical))

theorem Dev.powerLost_canonical {d : Dev} (hd : d.Canonical) : (Dev.powerLost d).Canonical := by
  unfold Dev.powerLost
  repeat' (first | with_reducible assumption | ((try lift_lets); intro d1; refine (fun (hd1 : Dev.Canonical d1) => ?_) ?_; (try clear_value d1); on_goal 2 => unfold d1) | ((try lift_lets); intro dX; first | (have hX : MemSt := dX; clear hX) | (have hX : Regs := dX; clear hX) | (have hX : KeepSt := dX; clear hX) | clear_value dX | skip) | (with_reducible first | apply Dev.tookFree_canonical | apply Dev.keepSettle_canonical | apply Dev.setWord_canonical | apply ite_canonical) | (apply Dev.Canonical.mk <;> (try dsimp only) <;> with_reducible first | exact Dev.Canonical.words ‹_› | exact Dev.Canonical.eff ‹_› | exact Dev.Canonical.keep ‹_› | exact Dev.Canonical.cells ‹_› | exact Dev.Canonical.err ‹_› | exact Dev.Canonical.poison ‹_› | exact Sparse.wf_put (Dev.Canonical.words ‹_›) | exact Sparse.wf_put (Dev.Canonical.eff ‹_›) | exact Sparse.wf_put (Dev.Canonical.cells ‹_›) | exact Sparse.wf_put (Dev.Canonical.err ‹_›) | exact Sparse.wf_put (Dev.Canonical.poison ‹_›) | exact keepStore_wf (Dev.Canonical.keep ‹_›)) | split | (apply Dev.Canonical.mk <;> (try dsimp only) <;> with_reducible first | apply Dev.Canonical.words | apply Dev.Canonical.eff | apply Dev.Canonical.keep | apply Dev.Canonical.cells | apply Dev.Canonical.err | apply Dev.Canonical.poison))

theorem execPowerOnReset_canonical {testEn : Bool} {s : State} {st' : State} (hcan : s.dev.Canonical) (ht : execPowerOnReset testEn s = .next st') : st'.dev.Canonical := by
  unfold execPowerOnReset at ht
  refine run_canonical hcan ht ?_
  intro d hd
  repeat' (first | with_reducible assumption | ((try lift_lets); intro d1; refine (fun (hd1 : Dev.Canonical d1) => ?_) ?_; (try clear_value d1); on_goal 2 => unfold d1) | ((try lift_lets); intro dX; first | (have hX : MemSt := dX; clear hX) | (have hX : Regs := dX; clear hX) | (have hX : KeepSt := dX; clear hX) | clear_value dX | skip) | (with_reducible first | refine Dev.withFault_canonical (hf := fun d hd => ?_) ?_ | apply Dev.powerLost_canonical | apply Dev.coldState_canonical | apply Dev.resetCause_canonical | apply Dev.coldBoot_canonical | apply ite_canonical) | (apply Dev.Canonical.mk <;> (try dsimp only) <;> with_reducible first | exact Dev.Canonical.words ‹_› | exact Dev.Canonical.eff ‹_› | exact Dev.Canonical.keep ‹_› | exact Dev.Canonical.cells ‹_› | exact Dev.Canonical.err ‹_› | exact Dev.Canonical.poison ‹_› | exact Sparse.wf_put (Dev.Canonical.words ‹_›) | exact Sparse.wf_put (Dev.Canonical.eff ‹_›) | exact Sparse.wf_put (Dev.Canonical.cells ‹_›) | exact Sparse.wf_put (Dev.Canonical.err ‹_›) | exact Sparse.wf_put (Dev.Canonical.poison ‹_›) | exact keepStore_wf (Dev.Canonical.keep ‹_›)))

theorem execPinReset_canonical {low : Bool} {testEn : Bool} {s : State} {st' : State} (hcan : s.dev.Canonical) (ht : execPinReset low testEn s = .next st') : st'.dev.Canonical := by
  unfold execPinReset at ht
  refine run_canonical hcan ht ?_
  intro d hd
  repeat' (first | with_reducible assumption | ((try lift_lets); intro d1; refine (fun (hd1 : Dev.Canonical d1) => ?_) ?_; (try clear_value d1); on_goal 2 => unfold d1) | ((try lift_lets); intro dX; first | (have hX : MemSt := dX; clear hX) | (have hX : Regs := dX; clear hX) | (have hX : KeepSt := dX; clear hX) | clear_value dX | skip) | (with_reducible first | refine Dev.withFault_canonical (hf := fun d hd => ?_) ?_ | apply Dev.coldState_canonical | apply Dev.pin_canonical | apply Dev.resetCause_canonical | apply Dev.coldBoot_canonical | apply ite_canonical) | (apply Dev.Canonical.mk <;> (try dsimp only) <;> with_reducible first | exact Dev.Canonical.words ‹_› | exact Dev.Canonical.eff ‹_› | exact Dev.Canonical.keep ‹_› | exact Dev.Canonical.cells ‹_› | exact Dev.Canonical.err ‹_› | exact Dev.Canonical.poison ‹_› | exact Sparse.wf_put (Dev.Canonical.words ‹_›) | exact Sparse.wf_put (Dev.Canonical.eff ‹_›) | exact Sparse.wf_put (Dev.Canonical.cells ‹_›) | exact Sparse.wf_put (Dev.Canonical.err ‹_›) | exact Sparse.wf_put (Dev.Canonical.poison ‹_›) | exact keepStore_wf (Dev.Canonical.keep ‹_›)))

theorem Dev.journalAll_canonical {d : Dev} (hd : d.Canonical) : (Dev.journalAll d).Canonical := by
  unfold Dev.journalAll
  repeat' (with_reducible first | assumption | refine foldl_canonical ?_ (fun d x hd => ?_) | apply Dev.journalWrite_canonical)

theorem Dev.warmFields_canonical {d : Dev} {prev : List Nat} (hd : d.Canonical) : (Dev.warmFields d prev).Canonical := by
  unfold Dev.warmFields
  exact ⟨keptWords_wf, keptWords_wf, hd.keep, hd.cells, hd.err, hd.poison⟩

theorem Dev.warmReset_canonical {d : Dev} {cause : Nat} (hd : d.Canonical) : (Dev.warmReset d cause).Canonical := by
  unfold Dev.warmReset
  repeat' (first | with_reducible assumption | ((try lift_lets); intro d1; refine (fun (hd1 : Dev.Canonical d1) => ?_) ?_; (try clear_value d1); on_goal 2 => unfold d1) | ((try lift_lets); intro dX; first | (have hX : MemSt := dX; clear hX) | (have hX : Regs := dX; clear hX) | (have hX : KeepSt := dX; clear hX) | clear_value dX | skip) | (with_reducible first | apply Dev.endLoans_canonical | apply Dev.recFlush_canonical | apply Dev.journalAll_canonical | apply Dev.selfRefresh_canonical | apply Dev.outputsToSafe_canonical | apply Dev.keepSettle_canonical | apply Dev.keepCount_canonical | apply Dev.holdEvents_canonical | apply Dev.warmFields_canonical | apply Dev.set_canonical | apply Dev.setCause_canonical | apply Dev.resetCause_canonical | apply Dev.modeBoot_canonical | apply Dev.bootFrom_canonical | apply Dev.pin_canonical | apply Dev.driveFault_canonical | apply ite_canonical))

theorem Dev.resetCtrl_canonical {d : Dev} {v : Word} (hd : d.Canonical) : (Dev.resetCtrl d v).Canonical := by
  unfold Dev.resetCtrl
  repeat' (with_reducible first | assumption | apply Dev.warmReset_canonical | apply ite_canonical)

theorem execWarmReset_canonical {v : Word} {s : State} {st' : State} (hcan : s.dev.Canonical) (ht : execWarmReset v s = .next st') : st'.dev.Canonical := by
  unfold execWarmReset at ht
  refine run_canonical hcan ht ?_
  intro d hd
  repeat' (with_reducible first | assumption | refine Dev.gateWrite_canonical (hf := fun d hd => ?_) ?_ | apply Dev.resetCtrl_canonical)

theorem execWatchdogExpiry_canonical {s : State} {st' : State} (hcan : s.dev.Canonical) (ht : execWatchdogExpiry s = .next st') : st'.dev.Canonical := by
  unfold execWatchdogExpiry at ht
  refine run_canonical hcan ht ?_
  intro d hd
  repeat' (with_reducible first | assumption | apply Dev.warmReset_canonical | apply ite_canonical)

theorem Dev.wdogKick_canonical {d : Dev} {v : Nat} (hd : d.Canonical) : (Dev.wdogKick d v).Canonical := by
  unfold Dev.wdogKick
  repeat' (first | with_reducible assumption | ((try lift_lets); intro dX; first | (have hX : MemSt := dX; clear hX) | (have hX : Regs := dX; clear hX) | (have hX : KeepSt := dX; clear hX) | clear_value dX | skip) | with_reducible apply ite_canonical | (apply Dev.Canonical.mk <;> (try dsimp only) <;> with_reducible first | exact Dev.Canonical.words ‹_› | exact Dev.Canonical.eff ‹_› | exact Dev.Canonical.keep ‹_› | exact Dev.Canonical.cells ‹_› | exact Dev.Canonical.err ‹_› | exact Dev.Canonical.poison ‹_› | exact Sparse.wf_put (Dev.Canonical.words ‹_›) | exact Sparse.wf_put (Dev.Canonical.eff ‹_›) | exact Sparse.wf_put (Dev.Canonical.cells ‹_›) | exact Sparse.wf_put (Dev.Canonical.err ‹_›) | exact Sparse.wf_put (Dev.Canonical.poison ‹_›) | exact keepStore_wf (Dev.Canonical.keep ‹_›)))

theorem execWdogKick_canonical {v : Nat} {s : State} {st' : State} (hcan : s.dev.Canonical) (ht : execWdogKick v s = .next st') : st'.dev.Canonical := by
  unfold execWdogKick at ht
  refine run_canonical hcan ht ?_
  intro d hd
  repeat' (with_reducible first | assumption | refine Dev.gateWrite_canonical (hf := fun d hd => ?_) ?_ | apply Dev.wdogKick_canonical)

theorem Dev.coreArmed_canonical {d : Dev} (hd : d.Canonical) : (Dev.coreArmed d).Canonical := by
  unfold Dev.coreArmed
  repeat' (with_reducible first | assumption | apply Dev.setFlag_canonical | apply ite_canonical)

theorem execHbmRailArmed_canonical {s : State} {st' : State} (hcan : s.dev.Canonical) (ht : execHbmRailArmed s = .next st') : st'.dev.Canonical := by
  unfold execHbmRailArmed at ht
  refine run_canonical hcan ht ?_
  intro d hd
  repeat' (with_reducible first | assumption | apply Dev.setFlag_canonical | apply ite_canonical)

theorem execPwrCoreStart_canonical {mv : Nat} {s : State} {st' : State} (hcan : s.dev.Canonical) (ht : execPwrCoreStart mv s = .next st') : st'.dev.Canonical := by
  unfold execPwrCoreStart at ht
  refine run_canonical hcan ht ?_
  intro d hd
  repeat' (first | with_reducible assumption | ((try lift_lets); intro dX; first | (have hX : MemSt := dX; clear hX) | (have hX : Regs := dX; clear hX) | (have hX : KeepSt := dX; clear hX) | clear_value dX | skip) | (with_reducible first | refine Dev.withFault_canonical (hf := fun d hd => ?_) ?_ | apply Dev.eventAt_canonical | apply ite_canonical) | (apply Dev.Canonical.mk <;> (try dsimp only) <;> with_reducible first | exact Dev.Canonical.words ‹_› | exact Dev.Canonical.eff ‹_› | exact Dev.Canonical.keep ‹_› | exact Dev.Canonical.cells ‹_› | exact Dev.Canonical.err ‹_› | exact Dev.Canonical.poison ‹_› | exact Sparse.wf_put (Dev.Canonical.words ‹_›) | exact Sparse.wf_put (Dev.Canonical.eff ‹_›) | exact Sparse.wf_put (Dev.Canonical.cells ‹_›) | exact Sparse.wf_put (Dev.Canonical.err ‹_›) | exact Sparse.wf_put (Dev.Canonical.poison ‹_›) | exact keepStore_wf (Dev.Canonical.keep ‹_›)))

theorem execBrownout_canonical {rail : Fin 4} {mv : Nat} {s : State} {st' : State} (hcan : s.dev.Canonical) (ht : execBrownout rail mv s = .next st') : st'.dev.Canonical := by
  unfold execBrownout at ht
  refine run_canonical hcan ht ?_
  intro d hd
  repeat' (first | with_reducible assumption | ((try lift_lets); intro d1; refine (fun (hd1 : Dev.Canonical d1) => ?_) ?_; (try clear_value d1); on_goal 2 => unfold d1) | ((try lift_lets); intro dX; first | (have hX : MemSt := dX; clear hX) | (have hX : Regs := dX; clear hX) | (have hX : KeepSt := dX; clear hX) | clear_value dX | skip) | (with_reducible first | refine Dev.withFault_canonical (hf := fun d hd => ?_) ?_ | apply Dev.coldState_canonical | apply Dev.resetCause_canonical | apply Dev.keepCount_canonical | apply ite_canonical) | (apply Dev.Canonical.mk <;> (try dsimp only) <;> with_reducible first | exact Dev.Canonical.words ‹_› | exact Dev.Canonical.eff ‹_› | exact Dev.Canonical.keep ‹_› | exact Dev.Canonical.cells ‹_› | exact Dev.Canonical.err ‹_› | exact Dev.Canonical.poison ‹_› | exact Sparse.wf_put (Dev.Canonical.words ‹_›) | exact Sparse.wf_put (Dev.Canonical.eff ‹_›) | exact Sparse.wf_put (Dev.Canonical.cells ‹_›) | exact Sparse.wf_put (Dev.Canonical.err ‹_›) | exact Sparse.wf_put (Dev.Canonical.poison ‹_›) | exact keepStore_wf (Dev.Canonical.keep ‹_›)))

theorem execBrownoutRecovery_canonical {testEn : Bool} {s : State} {st' : State} (hcan : s.dev.Canonical) (ht : execBrownoutRecovery testEn s = .next st') : st'.dev.Canonical := by
  unfold execBrownoutRecovery at ht
  refine run_canonical hcan ht ?_
  intro d hd
  repeat' (with_reducible first | assumption | refine Dev.withFault_canonical (hf := fun d hd => ?_) ?_ | apply Dev.coldBoot_canonical | apply ite_canonical)

theorem Dev.offFields_canonical {d : Dev} (hd : d.Canonical) : (Dev.offFields d).Canonical := by
  unfold Dev.offFields
  exact ⟨keptWords_wf, keptWords_wf, hd.keep, hd.cells, hd.err, hd.poison⟩

theorem Dev.coreOff_canonical {d : Dev} (hd : d.Canonical) : (Dev.coreOff d).Canonical := by
  unfold Dev.coreOff
  repeat' (first | with_reducible assumption | ((try lift_lets); intro d1; refine (fun (hd1 : Dev.Canonical d1) => ?_) ?_; (try clear_value d1); on_goal 2 => unfold d1) | ((try lift_lets); intro dX; first | (have hX : MemSt := dX; clear hX) | (have hX : Regs := dX; clear hX) | (have hX : KeepSt := dX; clear hX) | clear_value dX | skip) | (with_reducible first | apply Dev.endLoans_canonical | apply Dev.offFields_canonical | apply Dev.set_canonical | apply Dev.setLock_canonical | apply Dev.pin_canonical | apply ite_canonical))

theorem Dev.shutFields_canonical {d : Dev} (hd : d.Canonical) : (Dev.shutFields d).Canonical := by
  unfold Dev.shutFields
  exact ⟨hd.words, hd.eff, hd.keep, rfl, rfl, rfl⟩

theorem execThermalShutdown_canonical {cause : Fin 4} {src : Fin 64} {s : State} {st' : State} (hcan : s.dev.Canonical) (ht : execThermalShutdown cause src s = .next st') : st'.dev.Canonical := by
  unfold execThermalShutdown at ht
  refine run_canonical hcan ht ?_
  intro d hd
  repeat' (first | with_reducible assumption | ((try lift_lets); intro d1; refine (fun (hd1 : Dev.Canonical d1) => ?_) ?_; (try clear_value d1); on_goal 2 => unfold d1) | ((try lift_lets); intro dX; first | (have hX : MemSt := dX; clear hX) | (have hX : Regs := dX; clear hX) | (have hX : KeepSt := dX; clear hX) | clear_value dX | skip) | (with_reducible first | apply Dev.outputsToSafe_canonical | apply Dev.pin_canonical | apply Dev.keepSettle_canonical | apply Dev.setRails_canonical | apply Dev.coreOff_canonical | apply Dev.modeBoot_canonical | apply Dev.shutFields_canonical | apply Dev.set_canonical | apply Dev.setFlag_canonical | apply Dev.driveFault_canonical | apply ite_canonical))

theorem execThermalRestart_canonical {s : State} {st' : State} (hcan : s.dev.Canonical) (ht : execThermalRestart s = .next st') : st'.dev.Canonical := by
  unfold execThermalRestart at ht
  refine run_canonical hcan ht ?_
  intro d hd
  repeat' (first | with_reducible assumption | ((try lift_lets); intro d1; refine (fun (hd1 : Dev.Canonical d1) => ?_) ?_; (try clear_value d1); on_goal 2 => unfold d1) | ((try lift_lets); intro dX; first | (have hX : MemSt := dX; clear hX) | (have hX : Regs := dX; clear hX) | (have hX : KeepSt := dX; clear hX) | clear_value dX | skip) | (with_reducible first | refine Dev.withFault_canonical (hf := fun d hd => ?_) ?_ | apply Dev.keepCount_canonical | apply Dev.coldState_canonical | apply Dev.setWord_canonical | apply Dev.setRails_canonical | apply Dev.pin_canonical | apply Dev.resetCause_canonical | apply Dev.coldBoot_canonical | apply ite_canonical) | (apply Dev.Canonical.mk <;> (try dsimp only) <;> with_reducible first | exact Dev.Canonical.words ‹_› | exact Dev.Canonical.eff ‹_› | exact Dev.Canonical.keep ‹_› | exact Dev.Canonical.cells ‹_› | exact Dev.Canonical.err ‹_› | exact Dev.Canonical.poison ‹_› | exact Sparse.wf_put (Dev.Canonical.words ‹_›) | exact Sparse.wf_put (Dev.Canonical.eff ‹_›) | exact Sparse.wf_put (Dev.Canonical.cells ‹_›) | exact Sparse.wf_put (Dev.Canonical.err ‹_›) | exact Sparse.wf_put (Dev.Canonical.poison ‹_›) | exact keepStore_wf (Dev.Canonical.keep ‹_›)))

end Sys2Proof.Machine
end

