-- ==== Sys2Proof/Laws/CanonicalControl.lean ====
section
/-!
SUPPORT. The canonical form (`Dev.Canonical`) is kept: mode transitions, host writes, BOOT, scheduled work, reads and the tick.
-/
set_option linter.all false
set_option linter.unusedTactic false
set_option linter.unreachableTactic false
namespace Sys2Proof.Machine

/-! ### Modes -/

theorem Dev.endCapture_canonical {d : Dev} (hd : d.Canonical) : (Dev.endCapture d).Canonical := by
  unfold Dev.endCapture
  repeat' (with_reducible first | assumption | refine foldl_canonical ?_ (fun d x hd => ?_) | apply Dev.sesStop_canonical | apply Dev.recStop_canonical)

theorem Dev.startChain_canonical {d : Dev} {path : List Nat} (hd : d.Canonical) : (Dev.startChain d path).Canonical := by
  unfold Dev.startChain
  repeat' (first | with_reducible assumption | ((try lift_lets); intro d1; refine (fun (hd1 : Dev.Canonical d1) => ?_) ?_; (try clear_value d1); on_goal 2 => unfold d1) | ((try lift_lets); intro dX; first | (have hX : MemSt := dX; clear hX) | (have hX : Regs := dX; clear hX) | (have hX : KeepSt := dX; clear hX) | clear_value dX | skip) | (with_reducible first | apply Dev.setFlag_canonical | apply Dev.set_canonical | apply Dev.endCapture_canonical | apply Dev.setRails_canonical | apply ite_canonical) | (apply Dev.Canonical.mk <;> (try dsimp only) <;> with_reducible first | exact Dev.Canonical.words ‹_› | exact Dev.Canonical.eff ‹_› | exact Dev.Canonical.keep ‹_› | exact Dev.Canonical.cells ‹_› | exact Dev.Canonical.err ‹_› | exact Dev.Canonical.poison ‹_› | exact Sparse.wf_put (Dev.Canonical.words ‹_›) | exact Sparse.wf_put (Dev.Canonical.eff ‹_›) | exact Sparse.wf_put (Dev.Canonical.cells ‹_›) | exact Sparse.wf_put (Dev.Canonical.err ‹_›) | exact Sparse.wf_put (Dev.Canonical.poison ‹_›) | exact keepStore_wf (Dev.Canonical.keep ‹_›)) | split)

theorem Dev.runRequest_canonical {d : Dev} {r : Nat} (hd : d.Canonical) : (Dev.runRequest d r).Canonical := by
  unfold Dev.runRequest
  repeat' (first | with_reducible assumption | ((try lift_lets); intro dX; first | (have hX : MemSt := dX; clear hX) | (have hX : Regs := dX; clear hX) | (have hX : KeepSt := dX; clear hX) | clear_value dX | skip) | (with_reducible first | apply Dev.event_canonical | apply Dev.startChain_canonical | apply ite_canonical))

theorem Dev.modeRequest_canonical {d : Dev} {r : Nat} (hd : d.Canonical) : (Dev.modeRequest d r).Canonical := by
  unfold Dev.modeRequest
  repeat' (first | with_reducible assumption | ((try lift_lets); intro dX; first | (have hX : MemSt := dX; clear hX) | (have hX : Regs := dX; clear hX) | (have hX : KeepSt := dX; clear hX) | clear_value dX | skip) | (with_reducible first | apply Dev.setFlag_canonical | apply Dev.runRequest_canonical | apply ite_canonical) | (apply Dev.Canonical.mk <;> (try dsimp only) <;> with_reducible first | exact Dev.Canonical.words ‹_› | exact Dev.Canonical.eff ‹_› | exact Dev.Canonical.keep ‹_› | exact Dev.Canonical.cells ‹_› | exact Dev.Canonical.err ‹_› | exact Dev.Canonical.poison ‹_› | exact Sparse.wf_put (Dev.Canonical.words ‹_›) | exact Sparse.wf_put (Dev.Canonical.eff ‹_›) | exact Sparse.wf_put (Dev.Canonical.cells ‹_›) | exact Sparse.wf_put (Dev.Canonical.err ‹_›) | exact Sparse.wf_put (Dev.Canonical.poison ‹_›) | exact keepStore_wf (Dev.Canonical.keep ‹_›)))

theorem Dev.modeReqWrite_canonical {d : Dev} {r : Nat} (hd : d.Canonical) : (Dev.modeReqWrite d r).Canonical := by
  unfold Dev.modeReqWrite
  repeat' (with_reducible first | assumption | apply Dev.set_canonical | apply Dev.modeRequest_canonical | apply ite_canonical)

theorem execModeRequest_canonical {port : HostPort} {mode : Fin 8} {s : State} {st' : State} (hcan : s.dev.Canonical) (ht : execModeRequest port mode s = .next st') : st'.dev.Canonical := by
  unfold execModeRequest at ht
  refine run_canonical hcan ht ?_
  intro d hd
  repeat' (with_reducible first | assumption | refine Dev.gateWrite_canonical (hf := fun d hd => ?_) ?_ | apply Dev.modeReqWrite_canonical)

theorem execGpioModeRequest_canonical {mode : Fin 8} {s : State} {st' : State} (hcan : s.dev.Canonical) (ht : execGpioModeRequest mode s = .next st') : st'.dev.Canonical := by
  unfold execGpioModeRequest at ht
  refine run_canonical hcan ht ?_
  intro d hd
  repeat' (with_reducible first | assumption | apply Dev.modeRequest_canonical)

theorem Dev.setDiv_canonical {d : Dev} {w : Word} (hd : d.Canonical) : (Dev.setDiv d w).Canonical := by
  unfold Dev.setDiv
  repeat' (first | with_reducible assumption | ((try lift_lets); intro d1; refine (fun (hd1 : Dev.Canonical d1) => ?_) ?_; (try clear_value d1); on_goal 2 => unfold d1) | ((try lift_lets); intro dX; first | (have hX : MemSt := dX; clear hX) | (have hX : Regs := dX; clear hX) | (have hX : KeepSt := dX; clear hX) | clear_value dX | skip) | (with_reducible first | apply Dev.setWord_canonical | apply Dev.set_canonical | apply Dev.showLoad_canonical | apply ite_canonical))

theorem Dev.divApply_canonical {d : Dev} {vs : List Nat} (hd : d.Canonical) : (Dev.divApply d vs).1.Canonical := by
  unfold Dev.divApply
  repeat' (first | (with_reducible first | assumption | apply Dev.event_canonical | apply Dev.setDiv_canonical | refine foldl_fst_canonical ?_ (fun p x hp => ?_)) | split)

theorem Dev.divStep_canonical {d : Dev} {old : Nat} {new : Nat} {rs : List Record} (hd : d.Canonical) : (Dev.divStep d old new rs).1.Canonical := by
  unfold Dev.divStep
  repeat' (first | (with_reducible first | assumption | refine foldl_canonical ?_ (fun d x hd => ?_) | apply Dev.divApply_canonical | apply Dev.event_canonical) | split)

theorem Dev.ungateFor_canonical {d : Dev} {m : Nat} (hd : d.Canonical) : (Dev.ungateFor d m).Canonical := by
  unfold Dev.ungateFor
  repeat' (with_reducible first | assumption | refine foldl_canonical ?_ (fun d x hd => ?_) | apply Dev.setGated_canonical | apply ite_canonical)

theorem Dev.applyMode_canonical {d : Dev} {old : Nat} {new : Nat} (hd : d.Canonical) : (Dev.applyMode d old new).1.Canonical := by
  unfold Dev.applyMode
  repeat' (first | (with_reducible first | assumption | refine foldl_canonical ?_ (fun d x hd => ?_)) | ((try lift_lets); intro dX; first | (have hX : MemSt := dX; clear hX) | (have hX : Regs := dX; clear hX) | (have hX : KeepSt := dX; clear hX) | clear_value dX | skip) | (with_reducible first | apply Dev.event_canonical | apply Dev.ungateFor_canonical | apply Dev.divStep_canonical | apply Dev.applyRecord_canonical | apply Dev.setWord_canonical | apply Dev.cfgZero_canonical) | split)

theorem Dev.latchWritten_canonical {d : Dev} (hd : d.Canonical) : (Dev.latchWritten d).Canonical := by
  unfold Dev.latchWritten
  repeat' (first | (with_reducible first | assumption | refine foldl_canonical ?_ (fun d x hd => ?_)) | ((try lift_lets); intro d1; refine (fun (hd1 : Dev.Canonical d1) => ?_) ?_; (try clear_value d1); on_goal 2 => unfold d1) | ((try lift_lets); intro dX; first | (have hX : MemSt := dX; clear hX) | (have hX : Regs := dX; clear hX) | (have hX : KeepSt := dX; clear hX) | clear_value dX | skip) | (with_reducible first | apply Dev.colJudge_canonical | apply Dev.latchAll_canonical | apply ite_canonical) | (apply Dev.Canonical.mk <;> (try dsimp only) <;> with_reducible first | exact Dev.Canonical.words ‹_› | exact Dev.Canonical.eff ‹_› | exact Dev.Canonical.keep ‹_› | exact Dev.Canonical.cells ‹_› | exact Dev.Canonical.err ‹_› | exact Dev.Canonical.poison ‹_› | exact Sparse.wf_put (Dev.Canonical.words ‹_›) | exact Sparse.wf_put (Dev.Canonical.eff ‹_›) | exact Sparse.wf_put (Dev.Canonical.cells ‹_›) | exact Sparse.wf_put (Dev.Canonical.err ‹_›) | exact Sparse.wf_put (Dev.Canonical.poison ‹_›) | exact keepStore_wf (Dev.Canonical.keep ‹_›)))

theorem Dev.endRecording_canonical {d : Dev} (hd : d.Canonical) : (Dev.endRecording d).Canonical := by
  unfold Dev.endRecording
  repeat' (first | with_reducible assumption | ((try lift_lets); intro d1; refine (fun (hd1 : Dev.Canonical d1) => ?_) ?_; (try clear_value d1); on_goal 2 => unfold d1) | ((try lift_lets); intro dX; first | (have hX : MemSt := dX; clear hX) | (have hX : Regs := dX; clear hX) | (have hX : KeepSt := dX; clear hX) | clear_value dX | skip) | with_reducible apply Dev.zeBusy_canonical | (apply Dev.Canonical.mk <;> (try dsimp only) <;> with_reducible first | exact Dev.Canonical.words ‹_› | exact Dev.Canonical.eff ‹_› | exact Dev.Canonical.keep ‹_› | exact Dev.Canonical.cells ‹_› | exact Dev.Canonical.err ‹_› | exact Dev.Canonical.poison ‹_› | exact Sparse.wf_put (Dev.Canonical.words ‹_›) | exact Sparse.wf_put (Dev.Canonical.eff ‹_›) | exact Sparse.wf_put (Dev.Canonical.cells ‹_›) | exact Sparse.wf_put (Dev.Canonical.err ‹_›) | exact Sparse.wf_put (Dev.Canonical.poison ‹_›) | exact keepStore_wf (Dev.Canonical.keep ‹_›)))

theorem Dev.leaveMode_canonical {d : Dev} {old : Nat} {new : Nat} (hd : d.Canonical) : (Dev.leaveMode d old new).Canonical := by
  unfold Dev.leaveMode
  repeat' (first | with_reducible assumption | ((try lift_lets); intro d1; refine (fun (hd1 : Dev.Canonical d1) => ?_) ?_; (try clear_value d1); on_goal 2 => unfold d1) | ((try lift_lets); intro dX; first | (have hX : MemSt := dX; clear hX) | (have hX : Regs := dX; clear hX) | (have hX : KeepSt := dX; clear hX) | clear_value dX | skip) | (with_reducible first | apply Dev.closeClips_canonical | apply Dev.stopSessions_canonical | apply Dev.stopDecoders_canonical | apply Dev.netStart_canonical | apply Dev.endRecording_canonical | apply Dev.offAbort_canonical | apply Dev.stopCapture_canonical | apply Dev.audStop_canonical | apply ite_canonical))

theorem Dev.rastersStart_canonical {d : Dev} (hd : d.Canonical) : (Dev.rastersStart d).Canonical := by
  unfold Dev.rastersStart
  repeat' (with_reducible first | assumption | refine foldl_canonical ?_ (fun d x hd => ?_) | apply Dev.rasStart_canonical | apply Dev.rasStop_canonical | apply ite_canonical)

theorem Dev.decodersStart_canonical {d : Dev} (hd : d.Canonical) : (Dev.decodersStart d).Canonical := by
  unfold Dev.decodersStart
  repeat' (with_reducible first | assumption | refine foldl_canonical ?_ (fun d x hd => ?_) | apply Dev.decStart_canonical | apply ite_canonical)

theorem Dev.autostart_canonical {d : Dev} (hd : d.Canonical) : (Dev.autostart d).Canonical := by
  unfold Dev.autostart
  repeat' (with_reducible first | assumption | refine foldl_canonical ?_ (fun d x hd => ?_) | apply Dev.enterHold_canonical | apply Dev.sesStart_canonical | apply ite_canonical)

theorem Dev.startBlocks_canonical {d : Dev} {old : Nat} (hd : d.Canonical) : (Dev.startBlocks d old).Canonical := by
  unfold Dev.startBlocks
  repeat' (first | (with_reducible first | assumption | refine foldl_canonical ?_ (fun d x hd => ?_)) | ((try lift_lets); intro d1; refine (fun (hd1 : Dev.Canonical d1) => ?_) ?_; (try clear_value d1); on_goal 2 => unfold d1) | ((try lift_lets); intro dX; first | (have hX : MemSt := dX; clear hX) | (have hX : Regs := dX; clear hX) | (have hX : KeepSt := dX; clear hX) | clear_value dX | skip) | (with_reducible first | apply Dev.zeroCheck_canonical | apply Dev.kslCheck_canonical | apply Dev.recCheck_canonical | apply Dev.ptpStart_canonical | apply Dev.kslStart_canonical | apply Dev.rastersStart_canonical | apply Dev.pgStart_canonical | apply Dev.audStart_canonical | apply Dev.captureStart_canonical | apply Dev.placeDes_canonical | apply Dev.branchCheck_canonical | apply Dev.trigStart_canonical | apply Dev.netStart_canonical | apply Dev.decodersStart_canonical | apply Dev.recState_canonical | apply Dev.recovTry_canonical | apply Dev.autostart_canonical | apply ite_canonical))

theorem Dev.showMode_canonical {d : Dev} {old : Nat} {new : Nat} (hd : d.Canonical) : (Dev.showMode d old new).Canonical := by
  unfold Dev.showMode
  repeat' (first | with_reducible assumption | ((try lift_lets); intro d1; refine (fun (hd1 : Dev.Canonical d1) => ?_) ?_; (try clear_value d1); on_goal 2 => unfold d1) | (with_reducible first | apply Dev.set_canonical | apply Dev.setFlag_canonical | apply Dev.event_canonical))

theorem Dev.enterMode_canonical {d : Dev} {old : Nat} {new : Nat} (hd : d.Canonical) : (Dev.enterMode d old new).Canonical := by
  unfold Dev.enterMode
  repeat' (first | with_reducible assumption | ((try lift_lets); intro d1; refine (fun (hd1 : Dev.Canonical d1) => ?_) ?_; (try clear_value d1); on_goal 2 => unfold d1) | ((try lift_lets); intro dX; first | (have hX : MemSt := dX; clear hX) | (have hX : Regs := dX; clear hX) | (have hX : KeepSt := dX; clear hX) | clear_value dX | skip) | (with_reducible first | apply Dev.showMode_canonical | apply Dev.latchWritten_canonical | apply Dev.set_canonical | apply Dev.pin_canonical | apply Dev.driveFault_canonical | apply Dev.workReturn_canonical | apply Dev.startBlocks_canonical | apply ite_canonical) | (apply Dev.Canonical.mk <;> (try dsimp only) <;> with_reducible first | exact Dev.Canonical.words ‹_› | exact Dev.Canonical.eff ‹_› | exact Dev.Canonical.keep ‹_› | exact Dev.Canonical.cells ‹_› | exact Dev.Canonical.err ‹_› | exact Dev.Canonical.poison ‹_› | exact Sparse.wf_put (Dev.Canonical.words ‹_›) | exact Sparse.wf_put (Dev.Canonical.eff ‹_›) | exact Sparse.wf_put (Dev.Canonical.cells ‹_›) | exact Sparse.wf_put (Dev.Canonical.err ‹_›) | exact Sparse.wf_put (Dev.Canonical.poison ‹_›) | exact keepStore_wf (Dev.Canonical.keep ‹_›)))

theorem Dev.brumateEnter_canonical {d : Dev} {old : Nat} (hd : d.Canonical) : (Dev.brumateEnter d old).Canonical := by
  unfold Dev.brumateEnter
  repeat' (first | with_reducible assumption | ((try lift_lets); intro d1; refine (fun (hd1 : Dev.Canonical d1) => ?_) ?_; (try clear_value d1); on_goal 2 => unfold d1) | (with_reducible first | apply Dev.journalAll_canonical | apply Dev.stopOutputs_canonical | apply Dev.linksDown_canonical | apply Dev.outputsToSafe_canonical | apply Dev.holdEvents_canonical | apply Dev.selfRefresh_canonical | apply Dev.timeToAlwaysOn_canonical | apply Dev.keepSettle_canonical | apply Dev.setRails_canonical | apply Dev.coreOff_canonical | apply Dev.set_canonical | apply Dev.showMode_canonical))

theorem Dev.wakeCore_canonical {d : Dev} (hd : d.Canonical) : (Dev.wakeCore d).Canonical := by
  unfold Dev.wakeCore
  repeat' (with_reducible first | assumption | apply Dev.layPools_canonical | apply Dev.flushHeld_canonical | apply Dev.set_canonical | apply Dev.dmapLoad_canonical)

theorem Dev.failMode_canonical {d : Dev} {old : Nat} {new : Nat} (hd : d.Canonical) : (Dev.failMode d old new).Canonical := by
  unfold Dev.failMode
  repeat' (with_reducible first | assumption | apply Dev.showMode_canonical | apply Dev.enterHold_canonical | apply ite_canonical)

theorem Dev.arrive_canonical {d : Dev} (hd : d.Canonical) : (Dev.arrive d).Canonical := by
  unfold Dev.arrive
  repeat' (first | with_reducible assumption | ((try lift_lets); intro d1; refine (fun (hd1 : Dev.Canonical d1) => ?_) ?_; (try clear_value d1); on_goal 2 => unfold d1) | ((try lift_lets); intro dX; first | (have hX : MemSt := dX; clear hX) | (have hX : Regs := dX; clear hX) | (have hX : KeepSt := dX; clear hX) | clear_value dX | skip) | (with_reducible first | apply Dev.brumateEnter_canonical | apply Dev.wakeCore_canonical | apply Dev.leaveMode_canonical | apply Dev.applyMode_canonical | apply Dev.enterMode_canonical | apply Dev.failMode_canonical | apply ite_canonical))

theorem Dev.nextMode_canonical {d : Dev} (hd : d.Canonical) : (Dev.nextMode d).Canonical := by
  unfold Dev.nextMode
  repeat' (first | with_reducible assumption | ((try lift_lets); intro d1; refine (fun (hd1 : Dev.Canonical d1) => ?_) ?_; (try clear_value d1); on_goal 2 => unfold d1) | ((try lift_lets); intro dX; first | (have hX : MemSt := dX; clear hX) | (have hX : Regs := dX; clear hX) | (have hX : KeepSt := dX; clear hX) | clear_value dX | skip) | (with_reducible first | apply Dev.setFlag_canonical | apply Dev.runRequest_canonical | apply Dev.startChain_canonical | apply ite_canonical) | (apply Dev.Canonical.mk <;> (try dsimp only) <;> with_reducible first | exact Dev.Canonical.words ‹_› | exact Dev.Canonical.eff ‹_› | exact Dev.Canonical.keep ‹_› | exact Dev.Canonical.cells ‹_› | exact Dev.Canonical.err ‹_› | exact Dev.Canonical.poison ‹_› | exact Sparse.wf_put (Dev.Canonical.words ‹_›) | exact Sparse.wf_put (Dev.Canonical.eff ‹_›) | exact Sparse.wf_put (Dev.Canonical.cells ‹_›) | exact Sparse.wf_put (Dev.Canonical.err ‹_›) | exact Sparse.wf_put (Dev.Canonical.poison ‹_›) | exact keepStore_wf (Dev.Canonical.keep ‹_›)) | split)

/-! ### BlockReset -/

theorem Dev.keepRegs_canonical {d : Dev} {keep : Nat → FieldSpec → Bool} (hd : d.Canonical) : (Dev.keepRegs d keep).Canonical := by
  unfold Dev.keepRegs
  exact ⟨keptWords_wf, keptWords_wf, hd.keep, hd.cells, hd.err, hd.poison⟩

theorem Dev.resetRegs_canonical {d : Dev} {block : Nat} {inst : Nat} (hd : d.Canonical) : (Dev.resetRegs d block inst).Canonical := by
  unfold Dev.resetRegs
  repeat' (with_reducible first | assumption | apply Dev.keepRegs_canonical)

theorem Dev.kslDown_canonical {d : Dev} {p : Nat} (hd : d.Canonical) : (Dev.kslDown d p).Canonical := by
  unfold Dev.kslDown
  repeat' (first | (with_reducible first | assumption | refine foldl_canonical ?_ (fun d x hd => ?_)) | ((try lift_lets); intro d1; refine (fun (hd1 : Dev.Canonical d1) => ?_) ?_; (try clear_value d1); on_goal 2 => unfold d1) | (with_reducible first | apply Dev.closeOpen_canonical | apply Dev.modPort_canonical))

theorem Dev.ethDown_canonical {d : Dev} {x : Nat} (hd : d.Canonical) : (Dev.ethDown d x).Canonical := by
  unfold Dev.ethDown
  repeat' (first | with_reducible assumption | ((try lift_lets); intro d1; refine (fun (hd1 : Dev.Canonical d1) => ?_) ?_; (try clear_value d1); on_goal 2 => unfold d1) | (with_reducible first | apply Dev.modTime_canonical | apply Dev.setTimeState_canonical | apply ite_canonical))

theorem Dev.rpDown_canonical {d : Dev} {k : Nat} (hd : d.Canonical) : (Dev.rpDown d k).Canonical := by
  unfold Dev.rpDown
  repeat' (with_reducible first | assumption | refine foldl_canonical ?_ (fun d x hd => ?_) | apply Dev.closeClip_canonical | apply Dev.modDrive_canonical | apply Dev.set_canonical | apply Dev.readAgain_canonical | apply ite_canonical)

theorem Dev.instStop_canonical {d : Dev} {block : Nat} {inst : Nat} (hd : d.Canonical) : (Dev.instStop d block inst).Canonical := by
  unfold Dev.instStop
  repeat' (first | (with_reducible first | assumption | refine foldl_canonical ?_ (fun d x hd => ?_)) | ((try lift_lets); intro d1; refine (fun (hd1 : Dev.Canonical d1) => ?_) ?_; (try clear_value d1); on_goal 2 => unfold d1) | ((try lift_lets); intro dX; first | (have hX : MemSt := dX; clear hX) | (have hX : Regs := dX; clear hX) | (have hX : KeepSt := dX; clear hX) | clear_value dX | skip) | (with_reducible first | apply Dev.kslDown_canonical | apply Dev.modCtx_canonical | apply Dev.rasStop_canonical | apply Dev.emit_canonical | apply Dev.ethDown_canonical | apply Dev.modAp_canonical | apply Dev.rpDown_canonical) | (apply Dev.Canonical.mk <;> (try dsimp only) <;> with_reducible first | exact Dev.Canonical.words ‹_› | exact Dev.Canonical.eff ‹_› | exact Dev.Canonical.keep ‹_› | exact Dev.Canonical.cells ‹_› | exact Dev.Canonical.err ‹_› | exact Dev.Canonical.poison ‹_› | exact Sparse.wf_put (Dev.Canonical.words ‹_›) | exact Sparse.wf_put (Dev.Canonical.eff ‹_›) | exact Sparse.wf_put (Dev.Canonical.cells ‹_›) | exact Sparse.wf_put (Dev.Canonical.err ‹_›) | exact Sparse.wf_put (Dev.Canonical.poison ‹_›) | exact keepStore_wf (Dev.Canonical.keep ‹_›)) | split)

theorem Dev.instSettle_canonical {d : Dev} {block : Nat} {inst : Nat} (hd : d.Canonical) : (Dev.instSettle d block inst).Canonical := by
  unfold Dev.instSettle
  repeat' (first | (with_reducible first | assumption | refine foldl_canonical ?_ (fun d x hd => ?_) | apply Dev.showVe_canonical | apply Dev.showTx_canonical | apply Dev.clipSettle_canonical | apply Dev.flushSettle_canonical | apply Dev.recovTry_canonical) | split)

theorem Dev.blockResetStart_canonical {d : Dev} {block : Nat} {inst : Nat} (hd : d.Canonical) : (Dev.blockResetStart d block inst).Canonical := by
  unfold Dev.blockResetStart
  repeat' (first | (with_reducible first | assumption | apply Dev.set_canonical | apply Dev.event_canonical | apply Dev.instStop_canonical | apply Dev.lend_canonical | apply Dev.resetRegs_canonical | apply Dev.instSettle_canonical | apply ite_canonical) | (apply Dev.Canonical.mk <;> (try dsimp only) <;> with_reducible first | apply Dev.Canonical.words | apply Dev.Canonical.eff | apply Dev.Canonical.keep | apply Dev.Canonical.cells | apply Dev.Canonical.err | apply Dev.Canonical.poison))

theorem Dev.blockResetGo_canonical {d : Dev} (hd : d.Canonical) : (Dev.blockResetGo d).Canonical := by
  unfold Dev.blockResetGo
  repeat' (first | with_reducible assumption | ((try lift_lets); intro dX; first | (have hX : MemSt := dX; clear hX) | (have hX : Regs := dX; clear hX) | (have hX : KeepSt := dX; clear hX) | clear_value dX | skip) | (with_reducible first | apply Dev.set_canonical | apply Dev.blockResetStart_canonical | apply ite_canonical))

theorem Dev.instRestart_canonical {d : Dev} {block : Nat} {inst : Nat} (hd : d.Canonical) : (Dev.instRestart d block inst).Canonical := by
  unfold Dev.instRestart
  repeat' (first | (with_reducible first | assumption | refine foldl_canonical ?_ (fun d x hd => ?_)) | ((try lift_lets); intro dX; first | (have hX : MemSt := dX; clear hX) | (have hX : Regs := dX; clear hX) | (have hX : KeepSt := dX; clear hX) | clear_value dX | skip) | (with_reducible first | apply Dev.startTraining_canonical | apply Dev.rasStart_canonical | apply Dev.cfgZero_canonical | apply Dev.refuse_canonical | apply Dev.showSdi_canonical | apply Dev.apStart_canonical | apply ite_canonical) | split)

theorem Dev.blockResetEnd_canonical {d : Dev} {b : BlockResetSt} (hd : d.Canonical) : (Dev.blockResetEnd d b).Canonical := by
  unfold Dev.blockResetEnd
  repeat' (first | with_reducible assumption | ((try lift_lets); intro d1; refine (fun (hd1 : Dev.Canonical d1) => ?_) ?_; (try clear_value d1); on_goal 2 => unfold d1) | (with_reducible first | apply Dev.set_canonical | apply Dev.giveBack_canonical | apply ite_canonical) | (apply Dev.Canonical.mk <;> (try dsimp only) <;> with_reducible first | exact Dev.Canonical.words ‹_› | exact Dev.Canonical.eff ‹_› | exact Dev.Canonical.keep ‹_› | exact Dev.Canonical.cells ‹_› | exact Dev.Canonical.err ‹_› | exact Dev.Canonical.poison ‹_› | exact Sparse.wf_put (Dev.Canonical.words ‹_›) | exact Sparse.wf_put (Dev.Canonical.eff ‹_›) | exact Sparse.wf_put (Dev.Canonical.cells ‹_›) | exact Sparse.wf_put (Dev.Canonical.err ‹_›) | exact Sparse.wf_put (Dev.Canonical.poison ‹_›) | exact keepStore_wf (Dev.Canonical.keep ‹_›)))

theorem execBlockReset_canonical {block : Fin 256} {inst : Fin 256} {s : State} {st' : State} (hcan : s.dev.Canonical) (ht : execBlockReset block inst s = .next st') : st'.dev.Canonical := by
  unfold execBlockReset at ht
  refine run_canonical hcan ht ?_
  intro d hd
  repeat' (with_reducible first | assumption | refine Dev.gateWrite_canonical (hf := fun d hd => ?_) ?_ | apply Dev.set_canonical | apply Dev.blockResetGo_canonical | apply ite_canonical)

/-! ### HostWrite -/

theorem ite_opt {c : Prop} [Decidable c] {a b : Option Dev} (ha : ∀ x, a = some x → x.Canonical) (hb : ∀ x, b = some x → x.Canonical) :
    ∀ x, (if c then a else b) = some x → x.Canonical := by
  split <;> assumption
theorem some_opt {a : Dev} (h : a.Canonical) : ∀ x, some a = some x → x.Canonical := by
  intro x e
  rw [← Option.some.inj e]
  exact h
theorem none_opt : ∀ x, (none : Option Dev) = some x → x.Canonical := by
  intro x e
  cases e
theorem Dev.writeSingle_canonical {d : Dev} {a : Nat} {v : Word} (hd : d.Canonical) : ∀ x, (Dev.writeSingle d a v) = some x → x.Canonical := by
  unfold Dev.writeSingle
  repeat' (with_reducible refine ite_opt ?_ ?_)
  all_goals first | exact none_opt | (with_reducible refine some_opt ?_)
  all_goals repeat' (first | (with_reducible first | assumption | refine foldl_canonical ?_ (fun d x hd => ?_)) | ((try lift_lets); intro d1; refine (fun (hd1 : Dev.Canonical d1) => ?_) ?_; (try clear_value d1); on_goal 2 => unfold d1) | (with_reducible first | apply Dev.modeReqWrite_canonical | apply Dev.resetCtrl_canonical | apply Dev.plainWrite_canonical | apply Dev.blockResetGo_canonical | apply Dev.wdogKick_canonical | apply Dev.faultInject_canonical | apply Dev.refSwitch_canonical | apply Dev.gateGo_canonical | apply Dev.fmGo_canonical | apply Dev.riseWrite_canonical | apply Dev.keepCmd_canonical | apply Dev.fuseFields_canonical | apply Dev.fuseGo_canonical | apply Dev.irqClear_canonical | apply Dev.expCommit_canonical | apply Dev.colCommit_canonical | apply Dev.hostEdit_canonical | apply Dev.recStart_canonical | apply Dev.recStopCmd_canonical | apply Dev.recMeta_canonical | apply Dev.sesCommand_canonical | apply Dev.timeSet_canonical | apply Dev.timeStepNow_canonical | apply Dev.memInject_canonical | apply ite_canonical))

theorem Dev.rawcCfgWrite_canonical {d : Dev} {n : Nat} {v : Word} (hd : d.Canonical) : (Dev.rawcCfgWrite d n v).Canonical := by
  unfold Dev.rawcCfgWrite
  repeat' (first | with_reducible assumption | ((try lift_lets); intro d1; refine (fun (hd1 : Dev.Canonical d1) => ?_) ?_; (try clear_value d1); on_goal 2 => unfold d1) | ((try lift_lets); intro dX; first | (have hX : MemSt := dX; clear hX) | (have hX : Regs := dX; clear hX) | (have hX : KeepSt := dX; clear hX) | clear_value dX | skip) | (with_reducible first | apply Dev.plainWrite_canonical | apply Dev.setFlag_canonical | apply Dev.eventCtx_canonical | apply ite_canonical))

theorem Dev.txCfgWrite_canonical {d : Dev} {n : Nat} {v : Word} (hd : d.Canonical) : (Dev.txCfgWrite d n v).Canonical := by
  unfold Dev.txCfgWrite
  repeat' (first | with_reducible assumption | ((try lift_lets); intro d1; refine (fun (hd1 : Dev.Canonical d1) => ?_) ?_; (try clear_value d1); on_goal 2 => unfold d1) | ((try lift_lets); intro dX; first | (have hX : MemSt := dX; clear hX) | (have hX : Regs := dX; clear hX) | (have hX : KeepSt := dX; clear hX) | clear_value dX | skip) | (with_reducible first | apply Dev.plainWrite_canonical | apply Dev.txOff_canonical | apply Dev.setFlag_canonical | apply Dev.cfgZero_canonical | apply Dev.txOn_canonical | apply ite_canonical) | split)

theorem Dev.rxCfgWrite_canonical {d : Dev} {n : Nat} {v : Word} (hd : d.Canonical) : (Dev.rxCfgWrite d n v).Canonical := by
  unfold Dev.rxCfgWrite
  repeat' (first | with_reducible assumption | ((try lift_lets); intro d1; refine (fun (hd1 : Dev.Canonical d1) => ?_) ?_; (try clear_value d1); on_goal 2 => unfold d1) | ((try lift_lets); intro dX; first | (have hX : MemSt := dX; clear hX) | (have hX : Regs := dX; clear hX) | (have hX : KeepSt := dX; clear hX) | clear_value dX | skip) | (with_reducible first | apply Dev.plainWrite_canonical | apply Dev.rxOff_canonical | apply Dev.rxOn_canonical | apply ite_canonical))

theorem Dev.writeInstance_canonical {d : Dev} {a : Nat} {v : Word} (hd : d.Canonical) : ∀ x, (Dev.writeInstance d a v) = some x → x.Canonical := by
  unfold Dev.writeInstance
  repeat' split
  all_goals first | exact none_opt | (with_reducible refine some_opt ?_)
  all_goals repeat' (first | (with_reducible first | assumption | apply Dev.plainWrite_canonical | apply Dev.setFlag_canonical | apply Dev.startTraining_canonical | apply Dev.bcGo_canonical | apply Dev.rawcCfgWrite_canonical | apply Dev.ringAbort_canonical | apply Dev.rasGo_canonical | apply Dev.trigCommit_canonical | apply Dev.txCfgWrite_canonical | apply Dev.rxCfgWrite_canonical))

theorem Dev.writeEffect_canonical {d : Dev} {a : Nat} {v : Word} (hd : d.Canonical) : (Dev.writeEffect d a v).Canonical := by
  unfold Dev.writeEffect
  repeat' (first | (with_reducible first | assumption | apply Dev.cfgNonlive_canonical | apply Dev.plainWrite_canonical | apply ite_canonical) | (refine Dev.writeSingle_canonical ?_ _ ‹_›) | (refine Dev.writeInstance_canonical ?_ _ ‹_›) | split)

theorem Dev.hostWrite_canonical {d : Dev} {port : Nat} {a : Nat} {v : Word} {full : Bool} (hd : d.Canonical) : (Dev.hostWrite d port a v full).Canonical := by
  unfold Dev.hostWrite
  repeat' (with_reducible first | assumption | apply Dev.event_canonical | refine Dev.gateWrite_canonical (hf := fun d hd => ?_) ?_ | apply Dev.writeEffect_canonical | apply ite_canonical)

theorem execRegisterWrite_canonical {port : HostPort} {addr : Nat} {value : Word} {full : Bool} {s : State} {st' : State} (hcan : s.dev.Canonical) (ht : execRegisterWrite port addr value full s = .next st') : st'.dev.Canonical := by
  unfold execRegisterWrite at ht
  refine run_canonical hcan ht ?_
  intro d hd
  repeat' (with_reducible first | assumption | apply Dev.hostWrite_canonical)

theorem execMspiWrite_canonical {addr : Nat} {words : List Word} {s : State} {st' : State} (hcan : s.dev.Canonical) (ht : execMspiWrite addr words s = .next st') : st'.dev.Canonical := by
  unfold execMspiWrite at ht
  refine run_canonical hcan ht ?_
  intro d hd
  repeat' (with_reducible first | assumption | refine foldl_canonical ?_ (fun d x hd => ?_) | apply Dev.hostWrite_canonical)

theorem Dev.replay_canonical {d : Dev} {ws : List HeldWrite} (hd : d.Canonical) : (Dev.replay d ws).Canonical := by
  unfold Dev.replay
  repeat' (with_reducible first | assumption | refine foldl_canonical ?_ (fun d x hd => ?_) | apply Dev.hostWrite_canonical)

theorem execBlockResetDone_canonical {s : State} {st' : State} (hcan : s.dev.Canonical) (ht : execBlockResetDone s = .next st') : st'.dev.Canonical := by
  unfold execBlockResetDone at ht
  refine run_canonical hcan ht ?_
  intro d hd
  repeat' (first | (with_reducible first | assumption | apply Dev.blockResetEnd_canonical | apply Dev.replay_canonical | apply Dev.instRestart_canonical) | split)

theorem Dev.settleMode_canonical {d : Dev} (hd : d.Canonical) : (Dev.settleMode d).Canonical := by
  unfold Dev.settleMode
  repeat' (first | with_reducible assumption | ((try lift_lets); intro d1; refine (fun (hd1 : Dev.Canonical d1) => ?_) ?_; (try clear_value d1); on_goal 2 => unfold d1) | ((try lift_lets); intro dX; first | (have hX : MemSt := dX; clear hX) | (have hX : Regs := dX; clear hX) | (have hX : KeepSt := dX; clear hX) | clear_value dX | skip) | (with_reducible first | apply Dev.replay_canonical | apply Dev.nextMode_canonical | apply ite_canonical) | (apply Dev.Canonical.mk <;> (try dsimp only) <;> with_reducible first | exact Dev.Canonical.words ‹_› | exact Dev.Canonical.eff ‹_› | exact Dev.Canonical.keep ‹_› | exact Dev.Canonical.cells ‹_› | exact Dev.Canonical.err ‹_› | exact Dev.Canonical.poison ‹_› | exact Sparse.wf_put (Dev.Canonical.words ‹_›) | exact Sparse.wf_put (Dev.Canonical.eff ‹_›) | exact Sparse.wf_put (Dev.Canonical.cells ‹_›) | exact Sparse.wf_put (Dev.Canonical.err ‹_›) | exact Sparse.wf_put (Dev.Canonical.poison ‹_›) | exact keepStore_wf (Dev.Canonical.keep ‹_›)))

theorem execModeEnter_canonical {s : State} {st' : State} (hcan : s.dev.Canonical) (ht : execModeEnter s = .next st') : st'.dev.Canonical := by
  unfold execModeEnter at ht
  refine run_canonical hcan ht ?_
  intro d hd
  repeat' (with_reducible first | assumption | apply Dev.arrive_canonical | apply Dev.settleMode_canonical | apply ite_canonical)

/-! ### Boot -/

theorem Dev.modBoot_canonical {d : Dev} {f : BootSt → BootSt} (hd : d.Canonical) : (Dev.modBoot d f).Canonical := by
  unfold Dev.modBoot
  repeat' (apply Dev.Canonical.mk <;> (try dsimp only) <;> with_reducible first | exact Dev.Canonical.words ‹_› | exact Dev.Canonical.eff ‹_› | exact Dev.Canonical.keep ‹_› | exact Dev.Canonical.cells ‹_› | exact Dev.Canonical.err ‹_› | exact Dev.Canonical.poison ‹_› | exact Sparse.wf_put (Dev.Canonical.words ‹_›) | exact Sparse.wf_put (Dev.Canonical.eff ‹_›) | exact Sparse.wf_put (Dev.Canonical.cells ‹_›) | exact Sparse.wf_put (Dev.Canonical.err ‹_›) | exact Sparse.wf_put (Dev.Canonical.poison ‹_›) | exact keepStore_wf (Dev.Canonical.keep ‹_›))

theorem execRoReady_canonical {s : State} {st' : State} (hcan : s.dev.Canonical) (ht : execRoReady s = .next st') : st'.dev.Canonical := by
  unfold execRoReady at ht
  refine run_canonical hcan ht ?_
  intro d hd
  repeat' (first | with_reducible assumption | ((try lift_lets); intro d1; refine (fun (hd1 : Dev.Canonical d1) => ?_) ?_; (try clear_value d1); on_goal 2 => unfold d1) | (with_reducible first | apply Dev.set_canonical | apply Dev.pin_canonical | apply Dev.modBoot_canonical | apply Dev.setRails_canonical | apply ite_canonical))

theorem Dev.bootStop_canonical {d : Dev} (hd : d.Canonical) : (Dev.bootStop d).Canonical := by
  unfold Dev.bootStop
  repeat' (with_reducible first | assumption | apply Dev.setFlag_canonical | refine Dev.withFault_canonical (hf := fun d hd => ?_) ?_ | apply Dev.modBoot_canonical)

theorem Dev.bootAdvance_canonical {d : Dev} (hd : d.Canonical) : (Dev.bootAdvance d).Canonical := by
  unfold Dev.bootAdvance
  repeat' (first | (with_reducible first | assumption | refine foldl_canonical ?_ (fun d x hd => ?_)) | ((try lift_lets); intro d1; refine (fun (hd1 : Dev.Canonical d1) => ?_) ?_; (try clear_value d1); on_goal 2 => unfold d1) | ((try lift_lets); intro dX; first | (have hX : MemSt := dX; clear hX) | (have hX : Regs := dX; clear hX) | (have hX : KeepSt := dX; clear hX) | clear_value dX | skip) | (with_reducible first | apply Dev.emit_canonical | refine Dev.withFault_canonical (hf := fun d hd => ?_) ?_ | apply Dev.modBoot_canonical | apply ite_canonical))

theorem Dev.hdrBad_canonical {d : Dev} {slot : Nat} {result : Nat} (hd : d.Canonical) : (Dev.hdrBad d slot result).Canonical := by
  unfold Dev.hdrBad
  repeat' (with_reducible first | assumption | apply Dev.set_canonical | apply Dev.event_canonical | apply ite_canonical)

theorem execHeadersRead_canonical {a : List Byte} {b : List Byte} {s : State} {st' : State} (hcan : s.dev.Canonical) (ht : execHeadersRead a b s = .next st') : st'.dev.Canonical := by
  unfold execHeadersRead at ht
  refine run_canonical hcan ht ?_
  intro d hd
  repeat' (first | with_reducible assumption | ((try lift_lets); intro d1; refine (fun (hd1 : Dev.Canonical d1) => ?_) ?_; (try clear_value d1); on_goal 2 => unfold d1) | ((try lift_lets); intro dX; first | (have hX : MemSt := dX; clear hX) | (have hX : Regs := dX; clear hX) | (have hX : KeepSt := dX; clear hX) | clear_value dX | skip) | (with_reducible first | apply Dev.hdrBad_canonical | apply Dev.modBoot_canonical | apply Dev.bootStop_canonical | apply Dev.bootAdvance_canonical | apply ite_canonical) | split)

theorem execPllMainLocked_canonical {s : State} {st' : State} (hcan : s.dev.Canonical) (ht : execPllMainLocked s = .next st') : st'.dev.Canonical := by
  unfold execPllMainLocked at ht
  refine run_canonical hcan ht ?_
  intro d hd
  repeat' (first | with_reducible assumption | ((try lift_lets); intro d1; refine (fun (hd1 : Dev.Canonical d1) => ?_) ?_; (try clear_value d1); on_goal 2 => unfold d1) | ((try lift_lets); intro dX; first | (have hX : MemSt := dX; clear hX) | (have hX : Regs := dX; clear hX) | (have hX : KeepSt := dX; clear hX) | clear_value dX | skip) | (with_reducible first | apply Dev.setLock_canonical | apply Dev.set_canonical | apply Dev.bootAdvance_canonical | apply ite_canonical))

theorem execCoreRailArmed_canonical {s : State} {st' : State} (hcan : s.dev.Canonical) (ht : execCoreRailArmed s = .next st') : st'.dev.Canonical := by
  unfold execCoreRailArmed at ht
  refine run_canonical hcan ht ?_
  intro d hd
  repeat' (with_reducible first | assumption | apply Dev.coreArmed_canonical | apply Dev.bootAdvance_canonical)

theorem Dev.slotPass_canonical {d : Dev} {image : List Byte} (hd : d.Canonical) : (Dev.slotPass d image).Canonical := by
  unfold Dev.slotPass
  repeat' (first | with_reducible assumption | ((try lift_lets); intro d1; refine (fun (hd1 : Dev.Canonical d1) => ?_) ?_; (try clear_value d1); on_goal 2 => unfold d1) | ((try lift_lets); intro dX; first | (have hX : MemSt := dX; clear hX) | (have hX : Regs := dX; clear hX) | (have hX : KeepSt := dX; clear hX) | clear_value dX | skip) | (with_reducible first | apply Dev.set_canonical | apply Dev.setFlag_canonical | apply Dev.event_canonical | apply Dev.modBoot_canonical | apply ite_canonical) | (apply Dev.Canonical.mk <;> (try dsimp only) <;> with_reducible first | exact Dev.Canonical.words ‹_› | exact Dev.Canonical.eff ‹_› | exact Dev.Canonical.keep ‹_› | exact Dev.Canonical.cells ‹_› | exact Dev.Canonical.err ‹_› | exact Dev.Canonical.poison ‹_› | exact Sparse.wf_put (Dev.Canonical.words ‹_›) | exact Sparse.wf_put (Dev.Canonical.eff ‹_›) | exact Sparse.wf_put (Dev.Canonical.cells ‹_›) | exact Sparse.wf_put (Dev.Canonical.err ‹_›) | exact Sparse.wf_put (Dev.Canonical.poison ‹_›) | exact keepStore_wf (Dev.Canonical.keep ‹_›)))

theorem execSlotReadDone_canonical {image : List Byte} {s : State} {st' : State} (hcan : s.dev.Canonical) (ht : execSlotReadDone image s = .next st') : st'.dev.Canonical := by
  unfold execSlotReadDone at ht
  refine run_canonical hcan ht ?_
  intro d hd
  repeat' (first | with_reducible assumption | ((try lift_lets); intro d1; refine (fun (hd1 : Dev.Canonical d1) => ?_) ?_; (try clear_value d1); on_goal 2 => unfold d1) | ((try lift_lets); intro dX; first | (have hX : MemSt := dX; clear hX) | (have hX : Regs := dX; clear hX) | (have hX : KeepSt := dX; clear hX) | clear_value dX | skip) | (with_reducible first | apply Dev.slotPass_canonical | apply Dev.set_canonical | apply Dev.event_canonical | apply Dev.modBoot_canonical | apply Dev.bootStop_canonical | apply ite_canonical) | split)

theorem Dev.memAwake_canonical {d : Dev} (hd : d.Canonical) : (Dev.memAwake d).Canonical := by
  unfold Dev.memAwake
  repeat' (first | ((try lift_lets); intro dX; first | (have hX : MemSt := dX; clear hX) | (have hX : Regs := dX; clear hX) | (have hX : KeepSt := dX; clear hX) | clear_value dX | skip) | (apply Dev.Canonical.mk <;> (try dsimp only) <;> with_reducible first | exact Dev.Canonical.words ‹_› | exact Dev.Canonical.eff ‹_› | exact Dev.Canonical.keep ‹_› | exact Dev.Canonical.cells ‹_› | exact Dev.Canonical.err ‹_› | exact Dev.Canonical.poison ‹_› | exact Sparse.wf_put (Dev.Canonical.words ‹_›) | exact Sparse.wf_put (Dev.Canonical.eff ‹_›) | exact Sparse.wf_put (Dev.Canonical.cells ‹_›) | exact Sparse.wf_put (Dev.Canonical.err ‹_›) | exact Sparse.wf_put (Dev.Canonical.poison ‹_›) | exact keepStore_wf (Dev.Canonical.keep ‹_›)))

theorem Dev.trained_canonical {d : Dev} {pcs : List (Nat × Nat)} {bad : List Nat} (hd : d.Canonical) : (Dev.trained d pcs bad).Canonical := by
  unfold Dev.trained
  repeat' (with_reducible first | assumption | refine foldl_canonical ?_ (fun d x hd => ?_) | apply Dev.memAwake_canonical | apply Dev.set_canonical | apply Dev.stackFail_canonical | apply Dev.pcFail_canonical)

theorem execHbmTrainingDone_canonical {pcs : List (Fin 4 × Fin 32)} {bad : List (Fin 4)} {s : State} {st' : State} (hcan : s.dev.Canonical) (ht : execHbmTrainingDone pcs bad s = .next st') : st'.dev.Canonical := by
  unfold execHbmTrainingDone at ht
  refine run_canonical hcan ht ?_
  intro d hd
  repeat' (first | with_reducible assumption | ((try lift_lets); intro dX; first | (have hX : MemSt := dX; clear hX) | (have hX : Regs := dX; clear hX) | (have hX : KeepSt := dX; clear hX) | clear_value dX | skip) | (with_reducible first | apply Dev.trained_canonical | apply Dev.modBoot_canonical | apply Dev.modClk_canonical | apply Dev.flushHeld_canonical | apply ite_canonical))

theorem Dev.bootReports_canonical {d : Dev} (hd : d.Canonical) : (Dev.bootReports d).Canonical := by
  unfold Dev.bootReports
  repeat' (first | (with_reducible first | assumption | refine foldl_canonical ?_ (fun d x hd => ?_)) | ((try lift_lets); intro d1; refine (fun (hd1 : Dev.Canonical d1) => ?_) ?_; (try clear_value d1); on_goal 2 => unfold d1) | ((try lift_lets); intro dX; first | (have hX : MemSt := dX; clear hX) | (have hX : Regs := dX; clear hX) | (have hX : KeepSt := dX; clear hX) | clear_value dX | skip) | (with_reducible first | apply Dev.fuseEvent_canonical | apply Dev.eventAt_canonical | apply ite_canonical) | (apply Dev.Canonical.mk <;> (try dsimp only) <;> with_reducible first | exact Dev.Canonical.words ‹_› | exact Dev.Canonical.eff ‹_› | exact Dev.Canonical.keep ‹_› | exact Dev.Canonical.cells ‹_› | exact Dev.Canonical.err ‹_› | exact Dev.Canonical.poison ‹_› | exact Sparse.wf_put (Dev.Canonical.words ‹_›) | exact Sparse.wf_put (Dev.Canonical.eff ‹_›) | exact Sparse.wf_put (Dev.Canonical.cells ‹_›) | exact Sparse.wf_put (Dev.Canonical.err ‹_›) | exact Sparse.wf_put (Dev.Canonical.poison ‹_›) | exact keepStore_wf (Dev.Canonical.keep ‹_›)) | split)

theorem Dev.bootDiv_canonical {d : Dev} {rs : List Record} (hd : d.Canonical) : (Dev.bootDiv d rs).1.Canonical := by
  unfold Dev.bootDiv
  repeat' (first | with_reducible assumption | ((try lift_lets); intro dX; first | (have hX : MemSt := dX; clear hX) | (have hX : Regs := dX; clear hX) | (have hX : KeepSt := dX; clear hX) | clear_value dX | skip) | with_reducible apply Dev.divApply_canonical)

theorem Dev.bootRecords_canonical {d : Dev} {rs : List Record} (hd : d.Canonical) : (Dev.bootRecords d rs).Canonical := by
  unfold Dev.bootRecords
  repeat' (first | (with_reducible first | assumption | refine foldl_canonical ?_ (fun d x hd => ?_)) | ((try lift_lets); intro dX; first | (have hX : MemSt := dX; clear hX) | (have hX : Regs := dX; clear hX) | (have hX : KeepSt := dX; clear hX) | clear_value dX | skip) | (with_reducible first | apply Dev.applyRecord_canonical | apply Dev.setWord_canonical))

theorem Dev.rawFirst_canonical {d : Dev} (hd : d.Canonical) : (Dev.rawFirst d).Canonical := by
  unfold Dev.rawFirst
  repeat' (apply Dev.Canonical.mk <;> (try dsimp only) <;> with_reducible first | exact Dev.Canonical.words ‹_› | exact Dev.Canonical.eff ‹_› | exact Dev.Canonical.keep ‹_› | exact Dev.Canonical.cells ‹_› | exact Dev.Canonical.err ‹_› | exact Dev.Canonical.poison ‹_› | exact Sparse.wf_put (Dev.Canonical.words ‹_›) | exact Sparse.wf_put (Dev.Canonical.eff ‹_›) | exact Sparse.wf_put (Dev.Canonical.cells ‹_›) | exact Sparse.wf_put (Dev.Canonical.err ‹_›) | exact Sparse.wf_put (Dev.Canonical.poison ‹_›) | exact keepStore_wf (Dev.Canonical.keep ‹_›))

theorem Dev.poolsForget_canonical {d : Dev} (hd : d.Canonical) : (Dev.poolsForget d).Canonical := by
  unfold Dev.poolsForget
  exact ⟨hd.words, hd.eff, hd.keep, rfl, rfl, rfl⟩

theorem Dev.bootPools_canonical {d : Dev} (hd : d.Canonical) : (Dev.bootPools d).Canonical := by
  unfold Dev.bootPools
  repeat' (first | with_reducible assumption | ((try lift_lets); intro d1; refine (fun (hd1 : Dev.Canonical d1) => ?_) ?_; (try clear_value d1); on_goal 2 => unfold d1) | ((try lift_lets); intro dX; first | (have hX : MemSt := dX; clear hX) | (have hX : Regs := dX; clear hX) | (have hX : KeepSt := dX; clear hX) | clear_value dX | skip) | (with_reducible first | apply Dev.layPools_canonical | apply Dev.rawFirst_canonical | apply Dev.poolsForget_canonical | apply Dev.event_canonical | apply ite_canonical))

theorem Dev.bootCopy_canonical {d : Dev} {rs : List Record} (hd : d.Canonical) : (Dev.bootCopy d rs).Canonical := by
  unfold Dev.bootCopy
  repeat' (with_reducible first | assumption | refine foldl_canonical ?_ (fun d x hd => ?_) | apply Dev.modBoot_canonical | apply Dev.poolWrite_canonical | apply Dev.applyRecord_canonical)

theorem Dev.bootChecks_canonical {d : Dev} (hd : d.Canonical) : (Dev.bootChecks d).1.Canonical := by
  unfold Dev.bootChecks
  repeat' (with_reducible first | assumption | refine foldl_canonical ?_ (fun d x hd => ?_) | apply Dev.event_canonical | apply Dev.cfgZero_canonical | apply ite_canonical)

theorem Dev.bootStart_canonical {d : Dev} {rs : List Record} (hd : d.Canonical) : (Dev.bootStart d rs).Canonical := by
  unfold Dev.bootStart
  repeat' (first | (with_reducible first | assumption | refine foldl_canonical ?_ (fun d x hd => ?_)) | ((try lift_lets); intro d1; refine (fun (hd1 : Dev.Canonical d1) => ?_) ?_; (try clear_value d1); on_goal 2 => unfold d1) | ((try lift_lets); intro dX; first | (have hX : MemSt := dX; clear hX) | (have hX : Regs := dX; clear hX) | (have hX : KeepSt := dX; clear hX) | clear_value dX | skip) | (with_reducible first | apply Dev.ungateFor_canonical | apply Dev.bootRecords_canonical | apply Dev.cfgZero_canonical | apply Dev.enterMode_canonical | apply Dev.settleMode_canonical | apply Dev.enterHold_canonical | apply ite_canonical))

theorem Dev.bootEnter_canonical {d : Dev} {rs : List Record} {bad : Bool} (hd : d.Canonical) : (Dev.bootEnter d rs bad).Canonical := by
  unfold Dev.bootEnter
  repeat' (first | (with_reducible first | assumption | apply Dev.enterHold_canonical | apply Dev.bootStart_canonical | apply ite_canonical) | split)

theorem Dev.bootApply_canonical {d : Dev} {rs : List Record} (hd : d.Canonical) : (Dev.bootApply d rs).1.Canonical := by
  unfold Dev.bootApply
  repeat' (first | with_reducible assumption | ((try lift_lets); intro d1; refine (fun (hd1 : Dev.Canonical d1) => ?_) ?_; (try clear_value d1); on_goal 2 => unfold d1) | ((try lift_lets); intro r1; refine (fun (hr1 : Dev.Canonical r1.1) => ?_) ?_; (try clear_value r1); on_goal 2 => unfold r1) | (with_reducible first | apply Dev.bootReports_canonical | apply Dev.bootDiv_canonical | apply Dev.bootRecords_canonical | apply Dev.showCaps_canonical | apply Dev.bootPools_canonical | apply Dev.bootCopy_canonical | apply Dev.flushHeld_canonical | apply Dev.bootChecks_canonical | apply ite_canonical))

theorem Dev.bootLosses_canonical {d : Dev} (hd : d.Canonical) : (Dev.bootLosses d).Canonical := by
  unfold Dev.bootLosses
  repeat' (with_reducible first | assumption | refine foldl_canonical ?_ (fun d x hd => ?_) | apply Dev.poolsLost_canonical | apply ite_canonical)

theorem Dev.bootForget_canonical {d : Dev} (hd : d.Canonical) : (Dev.bootForget d).Canonical := by
  unfold Dev.bootForget
  repeat' (first | with_reducible assumption | ((try lift_lets); intro d1; refine (fun (hd1 : Dev.Canonical d1) => ?_) ?_; (try clear_value d1); on_goal 2 => unfold d1) | ((try lift_lets); intro dX; first | (have hX : MemSt := dX; clear hX) | (have hX : Regs := dX; clear hX) | (have hX : KeepSt := dX; clear hX) | clear_value dX | skip) | with_reducible apply Dev.modBoot_canonical | (apply Dev.Canonical.mk <;> (try dsimp only) <;> with_reducible first | exact Dev.Canonical.words ‹_› | exact Dev.Canonical.eff ‹_› | exact Dev.Canonical.keep ‹_› | exact Dev.Canonical.cells ‹_› | exact Dev.Canonical.err ‹_› | exact Dev.Canonical.poison ‹_› | exact Sparse.wf_put (Dev.Canonical.words ‹_›) | exact Sparse.wf_put (Dev.Canonical.eff ‹_›) | exact Sparse.wf_put (Dev.Canonical.cells ‹_›) | exact Sparse.wf_put (Dev.Canonical.err ‹_›) | exact Sparse.wf_put (Dev.Canonical.poison ‹_›) | exact keepStore_wf (Dev.Canonical.keep ‹_›)))

theorem Dev.bootShow_canonical {d : Dev} {rs : List Record} (hd : d.Canonical) : (Dev.bootShow d rs).Canonical := by
  unfold Dev.bootShow
  repeat' (with_reducible first | assumption | refine foldl_canonical ?_ (fun d x hd => ?_) | apply Dev.set_canonical | apply Dev.showVe_canonical)

theorem Dev.bootLast_canonical {d : Dev} (hd : d.Canonical) : (Dev.bootLast d).Canonical := by
  unfold Dev.bootLast
  repeat' (first | with_reducible assumption | ((try lift_lets); intro d1; refine (fun (hd1 : Dev.Canonical d1) => ?_) ?_; (try clear_value d1); on_goal 2 => unfold d1) | ((try lift_lets); intro r1; refine (fun (hr1 : Dev.Canonical r1.1) => ?_) ?_; (try clear_value r1); on_goal 2 => unfold r1) | ((try lift_lets); intro dX; first | (have hX : MemSt := dX; clear hX) | (have hX : Regs := dX; clear hX) | (have hX : KeepSt := dX; clear hX) | clear_value dX | skip) | (with_reducible first | apply Dev.modBoot_canonical | apply Dev.bootApply_canonical | apply Dev.bootLosses_canonical | apply Dev.checkRedundancy_canonical | apply Dev.dmapLoad_canonical | apply Dev.dmapRuns_canonical | apply Dev.bootShow_canonical | apply Dev.bootForget_canonical | apply Dev.bootEnter_canonical | apply ite_canonical))

theorem execSelfTestDone_canonical {des : List (Fin 20)} {zes : List (Fin 20)} {ves : List (Fin 68)} {s : State} {st' : State} (hcan : s.dev.Canonical) (ht : execSelfTestDone des zes ves s = .next st') : st'.dev.Canonical := by
  unfold execSelfTestDone at ht
  refine run_canonical hcan ht ?_
  intro d hd
  repeat' (first | (with_reducible first | assumption | refine foldl_canonical ?_ (fun d x hd => ?_)) | ((try lift_lets); intro d1; refine (fun (hd1 : Dev.Canonical d1) => ?_) ?_; (try clear_value d1); on_goal 2 => unfold d1) | (with_reducible first | apply Dev.deFault_canonical | apply Dev.keepCount_canonical | apply Dev.zeFault_canonical | apply Dev.veFault_canonical | apply Dev.bootLast_canonical | apply ite_canonical))

theorem execHoldExit_canonical {s : State} {st' : State} (hcan : s.dev.Canonical) (ht : execHoldExit s = .next st') : st'.dev.Canonical := by
  unfold execHoldExit at ht
  refine run_canonical hcan ht ?_
  intro d hd
  repeat' (first | with_reducible assumption | ((try lift_lets); intro d1; refine (fun (hd1 : Dev.Canonical d1) => ?_) ?_; (try clear_value d1); on_goal 2 => unfold d1) | ((try lift_lets); intro dX; first | (have hX : MemSt := dX; clear hX) | (have hX : Regs := dX; clear hX) | (have hX : KeepSt := dX; clear hX) | clear_value dX | skip) | (with_reducible first | apply Dev.setCause_canonical | apply Dev.applyMode_canonical | apply Dev.enterHold_canonical | apply Dev.event_canonical | apply Dev.enterMode_canonical | apply Dev.settleMode_canonical | apply ite_canonical) | (apply Dev.Canonical.mk <;> (try dsimp only) <;> with_reducible first | apply Dev.Canonical.words | apply Dev.Canonical.eff | apply Dev.Canonical.keep | apply Dev.Canonical.cells | apply Dev.Canonical.err | apply Dev.Canonical.poison))

/-! ### Scheduler -/

theorem Dev.modShed_canonical {d : Dev} {f : ShedSt → ShedSt} (hd : d.Canonical) : (Dev.modShed d f).Canonical := by
  unfold Dev.modShed
  repeat' (apply Dev.Canonical.mk <;> (try dsimp only) <;> with_reducible first | exact Dev.Canonical.words ‹_› | exact Dev.Canonical.eff ‹_› | exact Dev.Canonical.keep ‹_› | exact Dev.Canonical.cells ‹_› | exact Dev.Canonical.err ‹_› | exact Dev.Canonical.poison ‹_› | exact Sparse.wf_put (Dev.Canonical.words ‹_›) | exact Sparse.wf_put (Dev.Canonical.eff ‹_›) | exact Sparse.wf_put (Dev.Canonical.cells ‹_›) | exact Sparse.wf_put (Dev.Canonical.err ‹_›) | exact Sparse.wf_put (Dev.Canonical.poison ‹_›) | exact keepStore_wf (Dev.Canonical.keep ‹_›))

theorem Dev.shedApply_canonical {d : Dev} {level : Nat} (hd : d.Canonical) : (Dev.shedApply d level).Canonical := by
  unfold Dev.shedApply
  repeat' (first | (with_reducible first | assumption | refine foldl_canonical ?_ (fun d x hd => ?_)) | ((try lift_lets); intro d1; refine (fun (hd1 : Dev.Canonical d1) => ?_) ?_; (try clear_value d1); on_goal 2 => unfold d1) | (with_reducible first | apply Dev.set_canonical | apply Dev.modSes_canonical))

theorem Dev.shedEvent_canonical {d : Dev} {old : Nat} {new : Nat} {cause : Nat} (hd : d.Canonical) : (Dev.shedEvent d old new cause).Canonical := by
  unfold Dev.shedEvent
  repeat' (with_reducible first | assumption | apply Dev.bump_canonical | apply Dev.event_canonical)

theorem Dev.floorTick_canonical {d : Dev} {top : Nat} (hd : d.Canonical) : (Dev.floorTick d top).Canonical := by
  unfold Dev.floorTick
  repeat' (first | with_reducible assumption | ((try lift_lets); intro d1; refine (fun (hd1 : Dev.Canonical d1) => ?_) ?_; (try clear_value d1); on_goal 2 => unfold d1) | ((try lift_lets); intro dX; first | (have hX : MemSt := dX; clear hX) | (have hX : Regs := dX; clear hX) | (have hX : KeepSt := dX; clear hX) | clear_value dX | skip) | (with_reducible first | apply Dev.modShed_canonical | apply Dev.set_canonical | apply Dev.shedEvent_canonical | apply Dev.eventAt_canonical | apply ite_canonical) | split)

theorem Dev.loadTick_canonical {d : Dev} {top : Nat} {busy : Nat} {lag : Nat} (hd : d.Canonical) : (Dev.loadTick d top busy lag).Canonical := by
  unfold Dev.loadTick
  repeat' (first | with_reducible assumption | ((try lift_lets); intro d1; refine (fun (hd1 : Dev.Canonical d1) => ?_) ?_; (try clear_value d1); on_goal 2 => unfold d1) | ((try lift_lets); intro dX; first | (have hX : MemSt := dX; clear hX) | (have hX : Regs := dX; clear hX) | (have hX : KeepSt := dX; clear hX) | clear_value dX | skip) | (with_reducible first | apply Dev.modShed_canonical | apply Dev.shedEvent_canonical | apply ite_canonical))

theorem Dev.levelTick_canonical {d : Dev} {top : Nat} {busy : Nat} {lag : Nat} (hd : d.Canonical) : (Dev.levelTick d top busy lag).Canonical := by
  unfold Dev.levelTick
  repeat' (first | with_reducible assumption | ((try lift_lets); intro d1; refine (fun (hd1 : Dev.Canonical d1) => ?_) ?_; (try clear_value d1); on_goal 2 => unfold d1) | ((try lift_lets); intro dX; first | (have hX : MemSt := dX; clear hX) | (have hX : Regs := dX; clear hX) | (have hX : KeepSt := dX; clear hX) | clear_value dX | skip) | (with_reducible first | apply Dev.set_canonical | apply Dev.setFlag_canonical | apply Dev.shedApply_canonical | apply Dev.modShed_canonical | apply Dev.event_canonical | apply ite_canonical))

theorem Dev.markTick_canonical {d : Dev} (hd : d.Canonical) : (Dev.markTick d).Canonical := by
  unfold Dev.markTick
  repeat' (first | (with_reducible first | assumption | refine foldl_canonical ?_ (fun d x hd => ?_)) | ((try lift_lets); intro d1; refine (fun (hd1 : Dev.Canonical d1) => ?_) ?_; (try clear_value d1); on_goal 2 => unfold d1) | ((try lift_lets); intro r1; refine (fun (hr1 : Dev.Canonical r1.1) => ?_) ?_; (try clear_value r1); on_goal 2 => unfold r1) | ((try lift_lets); intro dX; first | (have hX : MemSt := dX; clear hX) | (have hX : Regs := dX; clear hX) | (have hX : KeepSt := dX; clear hX) | clear_value dX | skip) | (with_reducible first | apply Dev.modSes_canonical | apply Dev.set_canonical | refine foldl_fst_canonical ?_ (fun p x hp => ?_)))

theorem Dev.schedTick_canonical {d : Dev} (hd : d.Canonical) : (Dev.schedTick d).Canonical := by
  unfold Dev.schedTick
  repeat' (first | with_reducible assumption | ((try lift_lets); intro d1; refine (fun (hd1 : Dev.Canonical d1) => ?_) ?_; (try clear_value d1); on_goal 2 => unfold d1) | ((try lift_lets); intro dX; first | (have hX : MemSt := dX; clear hX) | (have hX : Regs := dX; clear hX) | (have hX : KeepSt := dX; clear hX) | clear_value dX | skip) | (with_reducible first | apply Dev.bump_canonical | apply Dev.modShed_canonical | apply Dev.floorTick_canonical | apply Dev.loadTick_canonical | apply Dev.levelTick_canonical | apply Dev.markTick_canonical))

theorem execSchedulerTick_canonical {s : State} {st' : State} (hcan : s.dev.Canonical) (ht : execSchedulerTick s = .next st') : st'.dev.Canonical := by
  unfold execSchedulerTick at ht
  refine run_canonical hcan ht ?_
  intro d hd
  repeat' (with_reducible first | assumption | apply Dev.schedTick_canonical | apply ite_canonical)

theorem Dev.migrate_canonical {d : Dev} {s : Nat} (hd : d.Canonical) : (Dev.migrate d s).Canonical := by
  unfold Dev.migrate
  repeat' (first | (with_reducible first | assumption | refine foldl_canonical ?_ (fun d x hd => ?_)) | ((try lift_lets); intro dX; first | (have hX : MemSt := dX; clear hX) | (have hX : Regs := dX; clear hX) | (have hX : KeepSt := dX; clear hX) | clear_value dX | skip) | (with_reducible first | apply Dev.modSes_canonical | apply Dev.bump_canonical | apply Dev.event_canonical | apply Dev.showVe_canonical) | split)

theorem execSessionMigration_canonical {s : Fin 256} {st : State} {st' : State} (hcan : st.dev.Canonical) (ht : execSessionMigration s st = .next st') : st'.dev.Canonical := by
  unfold execSessionMigration at ht
  refine run_canonical hcan ht ?_
  intro d hd
  repeat' (first | (with_reducible first | assumption | refine foldl_canonical ?_ (fun d x hd => ?_)) | ((try lift_lets); intro dX; first | (have hX : MemSt := dX; clear hX) | (have hX : Regs := dX; clear hX) | (have hX : KeepSt := dX; clear hX) | clear_value dX | skip) | (with_reducible first | apply Dev.migrate_canonical | apply ite_canonical))

/-! ### Service -/

theorem Dev.mapKeep_canonical {d : Dev} {port : Nat} {v : Option (Nat × Nat)} (hd : d.Canonical) : (Dev.mapKeep d port v).Canonical := by
  unfold Dev.mapKeep
  repeat' (first | ((try lift_lets); intro dX; first | (have hX : MemSt := dX; clear hX) | (have hX : Regs := dX; clear hX) | (have hX : KeepSt := dX; clear hX) | clear_value dX | skip) | (apply Dev.Canonical.mk <;> (try dsimp only) <;> with_reducible first | exact Dev.Canonical.words ‹_› | exact Dev.Canonical.eff ‹_› | exact Dev.Canonical.keep ‹_› | exact Dev.Canonical.cells ‹_› | exact Dev.Canonical.err ‹_› | exact Dev.Canonical.poison ‹_› | exact Sparse.wf_put (Dev.Canonical.words ‹_›) | exact Sparse.wf_put (Dev.Canonical.eff ‹_›) | exact Sparse.wf_put (Dev.Canonical.cells ‹_›) | exact Sparse.wf_put (Dev.Canonical.err ‹_›) | exact Sparse.wf_put (Dev.Canonical.poison ‹_›) | exact keepStore_wf (Dev.Canonical.keep ‹_›)))

theorem Dev.mapRead_canonical {d : Dev} {port : Nat} {a : Nat} (hd : d.Canonical) : (Dev.mapRead d port a).1.Canonical := by
  unfold Dev.mapRead
  repeat' (first | with_reducible assumption | ((try lift_lets); intro dX; first | (have hX : MemSt := dX; clear hX) | (have hX : Regs := dX; clear hX) | (have hX : KeepSt := dX; clear hX) | clear_value dX | skip) | with_reducible apply Dev.mapKeep_canonical | split)

theorem Dev.nowRead_canonical {d : Dev} {port : Nat} {a : Nat} (hd : d.Canonical) : (Dev.nowRead d port a).1.Canonical := by
  unfold Dev.nowRead
  repeat' (first | with_reducible assumption | ((try lift_lets); intro d1; refine (fun (hd1 : Dev.Canonical d1) => ?_) ?_; (try clear_value d1); on_goal 2 => unfold d1) | (with_reducible first | apply Dev.timeLatch_canonical | apply ite_canonical))

theorem Dev.busRead_canonical {d : Dev} {port : Nat} {a : Nat} (hd : d.Canonical) : (Dev.busRead d port a).1.Canonical := by
  unfold Dev.busRead
  repeat' (first | (with_reducible first | assumption | apply Dev.mapRead_canonical | apply Dev.nowRead_canonical) | split)

theorem Dev.hostRead_canonical {d : Dev} {port : Nat} {a : Nat} (hd : d.Canonical) : (Dev.hostRead d port a).Canonical := by
  unfold Dev.hostRead
  repeat' (first | with_reducible assumption | ((try lift_lets); intro r1; refine (fun (hr1 : Dev.Canonical r1.1) => ?_) ?_; (try clear_value r1); on_goal 2 => unfold r1) | (with_reducible first | apply Dev.busRead_canonical | apply Dev.emit_canonical))

theorem execTimeNowRead_canonical {port : HostPort} {s : State} {st' : State} (hcan : s.dev.Canonical) (ht : execTimeNowRead port s = .next st') : st'.dev.Canonical := by
  unfold execTimeNowRead at ht
  refine run_canonical hcan ht ?_
  intro d hd
  repeat' (with_reducible first | assumption | apply Dev.hostRead_canonical)

theorem execKeepRead_canonical {port : HostPort} {s : State} {st' : State} (hcan : s.dev.Canonical) (ht : execKeepRead port s = .next st') : st'.dev.Canonical := by
  unfold execKeepRead at ht
  refine run_canonical hcan ht ?_
  intro d hd
  repeat' (with_reducible first | assumption | apply Dev.hostRead_canonical)

theorem execDmapEntryRead_canonical {port : HostPort} {entry : Fin 1048576} {s : State} {st' : State} (hcan : s.dev.Canonical) (ht : execDmapEntryRead port entry s = .next st') : st'.dev.Canonical := by
  unfold execDmapEntryRead at ht
  refine run_canonical hcan ht ?_
  intro d hd
  repeat' (with_reducible first | assumption | apply Dev.hostRead_canonical)

theorem Dev.mspiWords_canonical {d : Dev} {a : Nat} {l : List Nat} (hd : d.Canonical) : (Dev.mspiWords d a l).1.Canonical := by
  induction l generalizing d a with
  | nil => exact hd
  | cons w rest ih =>
    unfold Dev.mspiWords
    split
    · exact hd
    · exact ih (Dev.busRead_canonical hd)

theorem execMspiRead_canonical {addr : Nat} {waits : List Nat} {s : State} {st' : State} (hcan : s.dev.Canonical) (ht : execMspiRead addr waits s = .next st') : st'.dev.Canonical := by
  unfold execMspiRead at ht
  refine run_canonical hcan ht ?_
  intro d hd
  repeat' (with_reducible first | assumption | apply Dev.mspiWords_canonical | apply Dev.emit_canonical)

/-! ### Tick -/

theorem Dev.tick_canonical {d : Dev} (hd : d.Canonical) : (Dev.tick d).Canonical := by
  unfold Dev.tick
  repeat' (first | ((try lift_lets); intro dX; first | (have hX : MemSt := dX; clear hX) | (have hX : Regs := dX; clear hX) | (have hX : KeepSt := dX; clear hX) | clear_value dX | skip) | (apply Dev.Canonical.mk <;> (try dsimp only) <;> with_reducible first | exact Dev.Canonical.words ‹_› | exact Dev.Canonical.eff ‹_› | exact Dev.Canonical.keep ‹_› | exact Dev.Canonical.cells ‹_› | exact Dev.Canonical.err ‹_› | exact Dev.Canonical.poison ‹_› | exact Sparse.wf_put (Dev.Canonical.words ‹_›) | exact Sparse.wf_put (Dev.Canonical.eff ‹_›) | exact Sparse.wf_put (Dev.Canonical.cells ‹_›) | exact Sparse.wf_put (Dev.Canonical.err ‹_›) | exact Sparse.wf_put (Dev.Canonical.poison ‹_›) | exact keepStore_wf (Dev.Canonical.keep ‹_›)))

end Sys2Proof.Machine
end

