-- ==== Sys2Proof/Laws/State.lean ====
section
/-!
SUPPORT. One lemma per field per named update of the state, true by unfolding: a proof never opens a record update.
-/
namespace Sys2Proof.Machine

variable (d : Dev)

/-! ### The outcome of a command -/

/-- A command with effect `f` answers a next state whose block is `f` of the present one and whose queue is unchanged. -/
theorem State.run_eq (s : State) (f : Dev → Dev) : s.run f = .next { s with dev := f s.dev } := rfl

/-! ### `Dev.setWord` -/

@[simp] theorem Dev.setWord_elapsed (a : Nat) (w : Word) : (d.setWord a w).elapsed = d.elapsed := rfl
@[simp] theorem Dev.setWord_out (a : Nat) (w : Word) : (d.setWord a w).out = d.out := rfl
@[simp] theorem Dev.setWord_boot (a : Nat) (w : Word) : (d.setWord a w).boot = d.boot := rfl
@[simp] theorem Dev.setWord_mode (a : Nat) (w : Word) : (d.setWord a w).mode = d.mode := rfl
@[simp] theorem Dev.setWord_blockReset (a : Nat) (w : Word) : (d.setWord a w).blockReset = d.blockReset := rfl
@[simp] theorem Dev.setWord_evt (a : Nat) (w : Word) : (d.setWord a w).evt = d.evt := rfl
@[simp] theorem Dev.setWord_keep (a : Nat) (w : Word) : (d.setWord a w).keep = d.keep := rfl
@[simp] theorem Dev.setWord_mem (a : Nat) (w : Word) : (d.setWord a w).mem = d.mem := rfl
@[simp] theorem Dev.setWord_time (a : Nat) (w : Word) : (d.setWord a w).time = d.time := rfl
@[simp] theorem Dev.setWord_ep0Up (a : Nat) (w : Word) : (d.setWord a w).ep0Up = d.ep0Up := rfl
@[simp] theorem Dev.setWord_windows (a : Nat) (w : Word) : (d.setWord a w).windows = d.windows := rfl
@[simp] theorem Dev.setWord_link (a : Nat) (w : Word) : (d.setWord a w).link = d.link := rfl
@[simp] theorem Dev.setWord_trig (a : Nat) (w : Word) : (d.setWord a w).trig = d.trig := rfl
@[simp] theorem Dev.setWord_exps (a : Nat) (w : Word) : (d.setWord a w).exps = d.exps := rfl
@[simp] theorem Dev.setWord_cap (a : Nat) (w : Word) : (d.setWord a w).cap = d.cap := rfl
@[simp] theorem Dev.setWord_wheels (a : Nat) (w : Word) : (d.setWord a w).wheels = d.wheels := rfl
@[simp] theorem Dev.setWord_rawEntries (a : Nat) (w : Word) : (d.setWord a w).rawEntries = d.rawEntries := rfl
@[simp] theorem Dev.setWord_rawNext (a : Nat) (w : Word) : (d.setWord a w).rawNext = d.rawNext := rfl
@[simp] theorem Dev.setWord_dmap (a : Nat) (w : Word) : (d.setWord a w).dmap = d.dmap := rfl
@[simp] theorem Dev.setWord_journal (a : Nat) (w : Word) : (d.setWord a w).journal = d.journal := rfl
@[simp] theorem Dev.setWord_luts (a : Nat) (w : Word) : (d.setWord a w).luts = d.luts := rfl
@[simp] theorem Dev.setWord_holds (a : Nat) (w : Word) : (d.setWord a w).holds = d.holds := rfl
@[simp] theorem Dev.setWord_brNext (a : Nat) (w : Word) : (d.setWord a w).brNext = d.brNext := rfl
@[simp] theorem Dev.setWord_deSets (a : Nat) (w : Word) : (d.setWord a w).deSets = d.deSets := rfl
@[simp] theorem Dev.setWord_ze (a : Nat) (w : Word) : (d.setWord a w).ze = d.ze := rfl
@[simp] theorem Dev.setWord_recd (a : Nat) (w : Word) : (d.setWord a w).recd = d.recd := rfl
@[simp] theorem Dev.setWord_code (a : Nat) (w : Word) : (d.setWord a w).code = d.code := rfl
@[simp] theorem Dev.setWord_shed (a : Nat) (w : Word) : (d.setWord a w).shed = d.shed := rfl
@[simp] theorem Dev.setWord_decs (a : Nat) (w : Word) : (d.setWord a w).decs = d.decs := rfl
@[simp] theorem Dev.setWord_ras (a : Nat) (w : Word) : (d.setWord a w).ras = d.ras := rfl
@[simp] theorem Dev.setWord_gk (a : Nat) (w : Word) : (d.setWord a w).gk = d.gk := rfl
@[simp] theorem Dev.setWord_aud (a : Nat) (w : Word) : (d.setWord a w).aud = d.aud := rfl
@[simp] theorem Dev.setWord_net (a : Nat) (w : Word) : (d.setWord a w).net = d.net := rfl
@[simp] theorem Dev.setWord_clk (a : Nat) (w : Word) : (d.setWord a w).clk = d.clk := rfl
@[simp] theorem Dev.setWord_pwr (a : Nat) (w : Word) : (d.setWord a w).pwr = d.pwr := rfl
@[simp] theorem Dev.setWord_therm (a : Nat) (w : Word) : (d.setWord a w).therm = d.therm := rfl
@[simp] theorem Dev.setWord_srv (a : Nat) (w : Word) : (d.setWord a w).srv = d.srv := rfl
@[simp] theorem Dev.setWord_freeCtr (a : Nat) (w : Word) : (d.setWord a w).freeCtr = d.freeCtr := rfl

/-! ### `Dev.setEff` -/

@[simp] theorem Dev.setEff_elapsed (a : Nat) (w : Word) : (d.setEff a w).elapsed = d.elapsed := rfl
@[simp] theorem Dev.setEff_out (a : Nat) (w : Word) : (d.setEff a w).out = d.out := rfl
@[simp] theorem Dev.setEff_boot (a : Nat) (w : Word) : (d.setEff a w).boot = d.boot := rfl
@[simp] theorem Dev.setEff_mode (a : Nat) (w : Word) : (d.setEff a w).mode = d.mode := rfl
@[simp] theorem Dev.setEff_blockReset (a : Nat) (w : Word) : (d.setEff a w).blockReset = d.blockReset := rfl
@[simp] theorem Dev.setEff_evt (a : Nat) (w : Word) : (d.setEff a w).evt = d.evt := rfl
@[simp] theorem Dev.setEff_keep (a : Nat) (w : Word) : (d.setEff a w).keep = d.keep := rfl
@[simp] theorem Dev.setEff_mem (a : Nat) (w : Word) : (d.setEff a w).mem = d.mem := rfl
@[simp] theorem Dev.setEff_time (a : Nat) (w : Word) : (d.setEff a w).time = d.time := rfl
@[simp] theorem Dev.setEff_ep0Up (a : Nat) (w : Word) : (d.setEff a w).ep0Up = d.ep0Up := rfl
@[simp] theorem Dev.setEff_windows (a : Nat) (w : Word) : (d.setEff a w).windows = d.windows := rfl
@[simp] theorem Dev.setEff_link (a : Nat) (w : Word) : (d.setEff a w).link = d.link := rfl
@[simp] theorem Dev.setEff_trig (a : Nat) (w : Word) : (d.setEff a w).trig = d.trig := rfl
@[simp] theorem Dev.setEff_exps (a : Nat) (w : Word) : (d.setEff a w).exps = d.exps := rfl
@[simp] theorem Dev.setEff_cap (a : Nat) (w : Word) : (d.setEff a w).cap = d.cap := rfl
@[simp] theorem Dev.setEff_wheels (a : Nat) (w : Word) : (d.setEff a w).wheels = d.wheels := rfl
@[simp] theorem Dev.setEff_rawEntries (a : Nat) (w : Word) : (d.setEff a w).rawEntries = d.rawEntries := rfl
@[simp] theorem Dev.setEff_rawNext (a : Nat) (w : Word) : (d.setEff a w).rawNext = d.rawNext := rfl
@[simp] theorem Dev.setEff_dmap (a : Nat) (w : Word) : (d.setEff a w).dmap = d.dmap := rfl
@[simp] theorem Dev.setEff_journal (a : Nat) (w : Word) : (d.setEff a w).journal = d.journal := rfl
@[simp] theorem Dev.setEff_luts (a : Nat) (w : Word) : (d.setEff a w).luts = d.luts := rfl
@[simp] theorem Dev.setEff_holds (a : Nat) (w : Word) : (d.setEff a w).holds = d.holds := rfl
@[simp] theorem Dev.setEff_brNext (a : Nat) (w : Word) : (d.setEff a w).brNext = d.brNext := rfl
@[simp] theorem Dev.setEff_deSets (a : Nat) (w : Word) : (d.setEff a w).deSets = d.deSets := rfl
@[simp] theorem Dev.setEff_ze (a : Nat) (w : Word) : (d.setEff a w).ze = d.ze := rfl
@[simp] theorem Dev.setEff_recd (a : Nat) (w : Word) : (d.setEff a w).recd = d.recd := rfl
@[simp] theorem Dev.setEff_code (a : Nat) (w : Word) : (d.setEff a w).code = d.code := rfl
@[simp] theorem Dev.setEff_shed (a : Nat) (w : Word) : (d.setEff a w).shed = d.shed := rfl
@[simp] theorem Dev.setEff_decs (a : Nat) (w : Word) : (d.setEff a w).decs = d.decs := rfl
@[simp] theorem Dev.setEff_ras (a : Nat) (w : Word) : (d.setEff a w).ras = d.ras := rfl
@[simp] theorem Dev.setEff_gk (a : Nat) (w : Word) : (d.setEff a w).gk = d.gk := rfl
@[simp] theorem Dev.setEff_aud (a : Nat) (w : Word) : (d.setEff a w).aud = d.aud := rfl
@[simp] theorem Dev.setEff_net (a : Nat) (w : Word) : (d.setEff a w).net = d.net := rfl
@[simp] theorem Dev.setEff_clk (a : Nat) (w : Word) : (d.setEff a w).clk = d.clk := rfl
@[simp] theorem Dev.setEff_pwr (a : Nat) (w : Word) : (d.setEff a w).pwr = d.pwr := rfl
@[simp] theorem Dev.setEff_therm (a : Nat) (w : Word) : (d.setEff a w).therm = d.therm := rfl
@[simp] theorem Dev.setEff_srv (a : Nat) (w : Word) : (d.setEff a w).srv = d.srv := rfl
@[simp] theorem Dev.setEff_freeCtr (a : Nat) (w : Word) : (d.setEff a w).freeCtr = d.freeCtr := rfl

/-! ### `Dev.set` -/

@[simp] theorem Dev.set_elapsed (f : Fld) (v : Nat) : (d.set f v).elapsed = d.elapsed := rfl
@[simp] theorem Dev.set_out (f : Fld) (v : Nat) : (d.set f v).out = d.out := rfl
@[simp] theorem Dev.set_boot (f : Fld) (v : Nat) : (d.set f v).boot = d.boot := rfl
@[simp] theorem Dev.set_mode (f : Fld) (v : Nat) : (d.set f v).mode = d.mode := rfl
@[simp] theorem Dev.set_blockReset (f : Fld) (v : Nat) : (d.set f v).blockReset = d.blockReset := rfl
@[simp] theorem Dev.set_evt (f : Fld) (v : Nat) : (d.set f v).evt = d.evt := rfl
@[simp] theorem Dev.set_keep (f : Fld) (v : Nat) : (d.set f v).keep = d.keep := rfl
@[simp] theorem Dev.set_mem (f : Fld) (v : Nat) : (d.set f v).mem = d.mem := rfl
@[simp] theorem Dev.set_time (f : Fld) (v : Nat) : (d.set f v).time = d.time := rfl
@[simp] theorem Dev.set_ep0Up (f : Fld) (v : Nat) : (d.set f v).ep0Up = d.ep0Up := rfl
@[simp] theorem Dev.set_windows (f : Fld) (v : Nat) : (d.set f v).windows = d.windows := rfl
@[simp] theorem Dev.set_link (f : Fld) (v : Nat) : (d.set f v).link = d.link := rfl
@[simp] theorem Dev.set_trig (f : Fld) (v : Nat) : (d.set f v).trig = d.trig := rfl
@[simp] theorem Dev.set_exps (f : Fld) (v : Nat) : (d.set f v).exps = d.exps := rfl
@[simp] theorem Dev.set_cap (f : Fld) (v : Nat) : (d.set f v).cap = d.cap := rfl
@[simp] theorem Dev.set_wheels (f : Fld) (v : Nat) : (d.set f v).wheels = d.wheels := rfl
@[simp] theorem Dev.set_rawEntries (f : Fld) (v : Nat) : (d.set f v).rawEntries = d.rawEntries := rfl
@[simp] theorem Dev.set_rawNext (f : Fld) (v : Nat) : (d.set f v).rawNext = d.rawNext := rfl
@[simp] theorem Dev.set_dmap (f : Fld) (v : Nat) : (d.set f v).dmap = d.dmap := rfl
@[simp] theorem Dev.set_journal (f : Fld) (v : Nat) : (d.set f v).journal = d.journal := rfl
@[simp] theorem Dev.set_luts (f : Fld) (v : Nat) : (d.set f v).luts = d.luts := rfl
@[simp] theorem Dev.set_holds (f : Fld) (v : Nat) : (d.set f v).holds = d.holds := rfl
@[simp] theorem Dev.set_brNext (f : Fld) (v : Nat) : (d.set f v).brNext = d.brNext := rfl
@[simp] theorem Dev.set_deSets (f : Fld) (v : Nat) : (d.set f v).deSets = d.deSets := rfl
@[simp] theorem Dev.set_ze (f : Fld) (v : Nat) : (d.set f v).ze = d.ze := rfl
@[simp] theorem Dev.set_recd (f : Fld) (v : Nat) : (d.set f v).recd = d.recd := rfl
@[simp] theorem Dev.set_code (f : Fld) (v : Nat) : (d.set f v).code = d.code := rfl
@[simp] theorem Dev.set_shed (f : Fld) (v : Nat) : (d.set f v).shed = d.shed := rfl
@[simp] theorem Dev.set_decs (f : Fld) (v : Nat) : (d.set f v).decs = d.decs := rfl
@[simp] theorem Dev.set_ras (f : Fld) (v : Nat) : (d.set f v).ras = d.ras := rfl
@[simp] theorem Dev.set_gk (f : Fld) (v : Nat) : (d.set f v).gk = d.gk := rfl
@[simp] theorem Dev.set_aud (f : Fld) (v : Nat) : (d.set f v).aud = d.aud := rfl
@[simp] theorem Dev.set_net (f : Fld) (v : Nat) : (d.set f v).net = d.net := rfl
@[simp] theorem Dev.set_clk (f : Fld) (v : Nat) : (d.set f v).clk = d.clk := rfl
@[simp] theorem Dev.set_pwr (f : Fld) (v : Nat) : (d.set f v).pwr = d.pwr := rfl
@[simp] theorem Dev.set_therm (f : Fld) (v : Nat) : (d.set f v).therm = d.therm := rfl
@[simp] theorem Dev.set_srv (f : Fld) (v : Nat) : (d.set f v).srv = d.srv := rfl
@[simp] theorem Dev.set_freeCtr (f : Fld) (v : Nat) : (d.set f v).freeCtr = d.freeCtr := rfl

/-! ### `Dev.setFlag` -/

@[simp] theorem Dev.setFlag_elapsed (f : Fld) (b : Bool) : (d.setFlag f b).elapsed = d.elapsed := rfl
@[simp] theorem Dev.setFlag_out (f : Fld) (b : Bool) : (d.setFlag f b).out = d.out := rfl
@[simp] theorem Dev.setFlag_boot (f : Fld) (b : Bool) : (d.setFlag f b).boot = d.boot := rfl
@[simp] theorem Dev.setFlag_mode (f : Fld) (b : Bool) : (d.setFlag f b).mode = d.mode := rfl
@[simp] theorem Dev.setFlag_blockReset (f : Fld) (b : Bool) : (d.setFlag f b).blockReset = d.blockReset := rfl
@[simp] theorem Dev.setFlag_evt (f : Fld) (b : Bool) : (d.setFlag f b).evt = d.evt := rfl
@[simp] theorem Dev.setFlag_keep (f : Fld) (b : Bool) : (d.setFlag f b).keep = d.keep := rfl
@[simp] theorem Dev.setFlag_mem (f : Fld) (b : Bool) : (d.setFlag f b).mem = d.mem := rfl
@[simp] theorem Dev.setFlag_time (f : Fld) (b : Bool) : (d.setFlag f b).time = d.time := rfl
@[simp] theorem Dev.setFlag_ep0Up (f : Fld) (b : Bool) : (d.setFlag f b).ep0Up = d.ep0Up := rfl
@[simp] theorem Dev.setFlag_windows (f : Fld) (b : Bool) : (d.setFlag f b).windows = d.windows := rfl
@[simp] theorem Dev.setFlag_link (f : Fld) (b : Bool) : (d.setFlag f b).link = d.link := rfl
@[simp] theorem Dev.setFlag_trig (f : Fld) (b : Bool) : (d.setFlag f b).trig = d.trig := rfl
@[simp] theorem Dev.setFlag_exps (f : Fld) (b : Bool) : (d.setFlag f b).exps = d.exps := rfl
@[simp] theorem Dev.setFlag_cap (f : Fld) (b : Bool) : (d.setFlag f b).cap = d.cap := rfl
@[simp] theorem Dev.setFlag_wheels (f : Fld) (b : Bool) : (d.setFlag f b).wheels = d.wheels := rfl
@[simp] theorem Dev.setFlag_rawEntries (f : Fld) (b : Bool) : (d.setFlag f b).rawEntries = d.rawEntries := rfl
@[simp] theorem Dev.setFlag_rawNext (f : Fld) (b : Bool) : (d.setFlag f b).rawNext = d.rawNext := rfl
@[simp] theorem Dev.setFlag_dmap (f : Fld) (b : Bool) : (d.setFlag f b).dmap = d.dmap := rfl
@[simp] theorem Dev.setFlag_journal (f : Fld) (b : Bool) : (d.setFlag f b).journal = d.journal := rfl
@[simp] theorem Dev.setFlag_luts (f : Fld) (b : Bool) : (d.setFlag f b).luts = d.luts := rfl
@[simp] theorem Dev.setFlag_holds (f : Fld) (b : Bool) : (d.setFlag f b).holds = d.holds := rfl
@[simp] theorem Dev.setFlag_brNext (f : Fld) (b : Bool) : (d.setFlag f b).brNext = d.brNext := rfl
@[simp] theorem Dev.setFlag_deSets (f : Fld) (b : Bool) : (d.setFlag f b).deSets = d.deSets := rfl
@[simp] theorem Dev.setFlag_ze (f : Fld) (b : Bool) : (d.setFlag f b).ze = d.ze := rfl
@[simp] theorem Dev.setFlag_recd (f : Fld) (b : Bool) : (d.setFlag f b).recd = d.recd := rfl
@[simp] theorem Dev.setFlag_code (f : Fld) (b : Bool) : (d.setFlag f b).code = d.code := rfl
@[simp] theorem Dev.setFlag_shed (f : Fld) (b : Bool) : (d.setFlag f b).shed = d.shed := rfl
@[simp] theorem Dev.setFlag_decs (f : Fld) (b : Bool) : (d.setFlag f b).decs = d.decs := rfl
@[simp] theorem Dev.setFlag_ras (f : Fld) (b : Bool) : (d.setFlag f b).ras = d.ras := rfl
@[simp] theorem Dev.setFlag_gk (f : Fld) (b : Bool) : (d.setFlag f b).gk = d.gk := rfl
@[simp] theorem Dev.setFlag_aud (f : Fld) (b : Bool) : (d.setFlag f b).aud = d.aud := rfl
@[simp] theorem Dev.setFlag_net (f : Fld) (b : Bool) : (d.setFlag f b).net = d.net := rfl
@[simp] theorem Dev.setFlag_clk (f : Fld) (b : Bool) : (d.setFlag f b).clk = d.clk := rfl
@[simp] theorem Dev.setFlag_pwr (f : Fld) (b : Bool) : (d.setFlag f b).pwr = d.pwr := rfl
@[simp] theorem Dev.setFlag_therm (f : Fld) (b : Bool) : (d.setFlag f b).therm = d.therm := rfl
@[simp] theorem Dev.setFlag_srv (f : Fld) (b : Bool) : (d.setFlag f b).srv = d.srv := rfl
@[simp] theorem Dev.setFlag_freeCtr (f : Fld) (b : Bool) : (d.setFlag f b).freeCtr = d.freeCtr := rfl

/-! ### `Dev.bump` -/

@[simp] theorem Dev.bump_elapsed (f : Fld) : (d.bump f).elapsed = d.elapsed := rfl
@[simp] theorem Dev.bump_out (f : Fld) : (d.bump f).out = d.out := rfl
@[simp] theorem Dev.bump_boot (f : Fld) : (d.bump f).boot = d.boot := rfl
@[simp] theorem Dev.bump_mode (f : Fld) : (d.bump f).mode = d.mode := rfl
@[simp] theorem Dev.bump_blockReset (f : Fld) : (d.bump f).blockReset = d.blockReset := rfl
@[simp] theorem Dev.bump_evt (f : Fld) : (d.bump f).evt = d.evt := rfl
@[simp] theorem Dev.bump_keep (f : Fld) : (d.bump f).keep = d.keep := rfl
@[simp] theorem Dev.bump_mem (f : Fld) : (d.bump f).mem = d.mem := rfl
@[simp] theorem Dev.bump_time (f : Fld) : (d.bump f).time = d.time := rfl
@[simp] theorem Dev.bump_ep0Up (f : Fld) : (d.bump f).ep0Up = d.ep0Up := rfl
@[simp] theorem Dev.bump_windows (f : Fld) : (d.bump f).windows = d.windows := rfl
@[simp] theorem Dev.bump_link (f : Fld) : (d.bump f).link = d.link := rfl
@[simp] theorem Dev.bump_trig (f : Fld) : (d.bump f).trig = d.trig := rfl
@[simp] theorem Dev.bump_exps (f : Fld) : (d.bump f).exps = d.exps := rfl
@[simp] theorem Dev.bump_cap (f : Fld) : (d.bump f).cap = d.cap := rfl
@[simp] theorem Dev.bump_wheels (f : Fld) : (d.bump f).wheels = d.wheels := rfl
@[simp] theorem Dev.bump_rawEntries (f : Fld) : (d.bump f).rawEntries = d.rawEntries := rfl
@[simp] theorem Dev.bump_rawNext (f : Fld) : (d.bump f).rawNext = d.rawNext := rfl
@[simp] theorem Dev.bump_dmap (f : Fld) : (d.bump f).dmap = d.dmap := rfl
@[simp] theorem Dev.bump_journal (f : Fld) : (d.bump f).journal = d.journal := rfl
@[simp] theorem Dev.bump_luts (f : Fld) : (d.bump f).luts = d.luts := rfl
@[simp] theorem Dev.bump_holds (f : Fld) : (d.bump f).holds = d.holds := rfl
@[simp] theorem Dev.bump_brNext (f : Fld) : (d.bump f).brNext = d.brNext := rfl
@[simp] theorem Dev.bump_deSets (f : Fld) : (d.bump f).deSets = d.deSets := rfl
@[simp] theorem Dev.bump_ze (f : Fld) : (d.bump f).ze = d.ze := rfl
@[simp] theorem Dev.bump_recd (f : Fld) : (d.bump f).recd = d.recd := rfl
@[simp] theorem Dev.bump_code (f : Fld) : (d.bump f).code = d.code := rfl
@[simp] theorem Dev.bump_shed (f : Fld) : (d.bump f).shed = d.shed := rfl
@[simp] theorem Dev.bump_decs (f : Fld) : (d.bump f).decs = d.decs := rfl
@[simp] theorem Dev.bump_ras (f : Fld) : (d.bump f).ras = d.ras := rfl
@[simp] theorem Dev.bump_gk (f : Fld) : (d.bump f).gk = d.gk := rfl
@[simp] theorem Dev.bump_aud (f : Fld) : (d.bump f).aud = d.aud := rfl
@[simp] theorem Dev.bump_net (f : Fld) : (d.bump f).net = d.net := rfl
@[simp] theorem Dev.bump_clk (f : Fld) : (d.bump f).clk = d.clk := rfl
@[simp] theorem Dev.bump_pwr (f : Fld) : (d.bump f).pwr = d.pwr := rfl
@[simp] theorem Dev.bump_therm (f : Fld) : (d.bump f).therm = d.therm := rfl
@[simp] theorem Dev.bump_srv (f : Fld) : (d.bump f).srv = d.srv := rfl
@[simp] theorem Dev.bump_freeCtr (f : Fld) : (d.bump f).freeCtr = d.freeCtr := rfl

/-! ### `Dev.add` -/

@[simp] theorem Dev.add_elapsed (f : Fld) (n : Nat) : (d.add f n).elapsed = d.elapsed := rfl
@[simp] theorem Dev.add_out (f : Fld) (n : Nat) : (d.add f n).out = d.out := rfl
@[simp] theorem Dev.add_boot (f : Fld) (n : Nat) : (d.add f n).boot = d.boot := rfl
@[simp] theorem Dev.add_mode (f : Fld) (n : Nat) : (d.add f n).mode = d.mode := rfl
@[simp] theorem Dev.add_blockReset (f : Fld) (n : Nat) : (d.add f n).blockReset = d.blockReset := rfl
@[simp] theorem Dev.add_evt (f : Fld) (n : Nat) : (d.add f n).evt = d.evt := rfl
@[simp] theorem Dev.add_keep (f : Fld) (n : Nat) : (d.add f n).keep = d.keep := rfl
@[simp] theorem Dev.add_mem (f : Fld) (n : Nat) : (d.add f n).mem = d.mem := rfl
@[simp] theorem Dev.add_time (f : Fld) (n : Nat) : (d.add f n).time = d.time := rfl
@[simp] theorem Dev.add_ep0Up (f : Fld) (n : Nat) : (d.add f n).ep0Up = d.ep0Up := rfl
@[simp] theorem Dev.add_windows (f : Fld) (n : Nat) : (d.add f n).windows = d.windows := rfl
@[simp] theorem Dev.add_link (f : Fld) (n : Nat) : (d.add f n).link = d.link := rfl
@[simp] theorem Dev.add_trig (f : Fld) (n : Nat) : (d.add f n).trig = d.trig := rfl
@[simp] theorem Dev.add_exps (f : Fld) (n : Nat) : (d.add f n).exps = d.exps := rfl
@[simp] theorem Dev.add_cap (f : Fld) (n : Nat) : (d.add f n).cap = d.cap := rfl
@[simp] theorem Dev.add_wheels (f : Fld) (n : Nat) : (d.add f n).wheels = d.wheels := rfl
@[simp] theorem Dev.add_rawEntries (f : Fld) (n : Nat) : (d.add f n).rawEntries = d.rawEntries := rfl
@[simp] theorem Dev.add_rawNext (f : Fld) (n : Nat) : (d.add f n).rawNext = d.rawNext := rfl
@[simp] theorem Dev.add_dmap (f : Fld) (n : Nat) : (d.add f n).dmap = d.dmap := rfl
@[simp] theorem Dev.add_journal (f : Fld) (n : Nat) : (d.add f n).journal = d.journal := rfl
@[simp] theorem Dev.add_luts (f : Fld) (n : Nat) : (d.add f n).luts = d.luts := rfl
@[simp] theorem Dev.add_holds (f : Fld) (n : Nat) : (d.add f n).holds = d.holds := rfl
@[simp] theorem Dev.add_brNext (f : Fld) (n : Nat) : (d.add f n).brNext = d.brNext := rfl
@[simp] theorem Dev.add_deSets (f : Fld) (n : Nat) : (d.add f n).deSets = d.deSets := rfl
@[simp] theorem Dev.add_ze (f : Fld) (n : Nat) : (d.add f n).ze = d.ze := rfl
@[simp] theorem Dev.add_recd (f : Fld) (n : Nat) : (d.add f n).recd = d.recd := rfl
@[simp] theorem Dev.add_code (f : Fld) (n : Nat) : (d.add f n).code = d.code := rfl
@[simp] theorem Dev.add_shed (f : Fld) (n : Nat) : (d.add f n).shed = d.shed := rfl
@[simp] theorem Dev.add_decs (f : Fld) (n : Nat) : (d.add f n).decs = d.decs := rfl
@[simp] theorem Dev.add_ras (f : Fld) (n : Nat) : (d.add f n).ras = d.ras := rfl
@[simp] theorem Dev.add_gk (f : Fld) (n : Nat) : (d.add f n).gk = d.gk := rfl
@[simp] theorem Dev.add_aud (f : Fld) (n : Nat) : (d.add f n).aud = d.aud := rfl
@[simp] theorem Dev.add_net (f : Fld) (n : Nat) : (d.add f n).net = d.net := rfl
@[simp] theorem Dev.add_clk (f : Fld) (n : Nat) : (d.add f n).clk = d.clk := rfl
@[simp] theorem Dev.add_pwr (f : Fld) (n : Nat) : (d.add f n).pwr = d.pwr := rfl
@[simp] theorem Dev.add_therm (f : Fld) (n : Nat) : (d.add f n).therm = d.therm := rfl
@[simp] theorem Dev.add_srv (f : Fld) (n : Nat) : (d.add f n).srv = d.srv := rfl
@[simp] theorem Dev.add_freeCtr (f : Fld) (n : Nat) : (d.add f n).freeCtr = d.freeCtr := rfl

/-! ### `Dev.addSat` -/

@[simp] theorem Dev.addSat_elapsed (f : Fld) (n : Nat) : (d.addSat f n).elapsed = d.elapsed := rfl
@[simp] theorem Dev.addSat_out (f : Fld) (n : Nat) : (d.addSat f n).out = d.out := rfl
@[simp] theorem Dev.addSat_boot (f : Fld) (n : Nat) : (d.addSat f n).boot = d.boot := rfl
@[simp] theorem Dev.addSat_mode (f : Fld) (n : Nat) : (d.addSat f n).mode = d.mode := rfl
@[simp] theorem Dev.addSat_blockReset (f : Fld) (n : Nat) : (d.addSat f n).blockReset = d.blockReset := rfl
@[simp] theorem Dev.addSat_evt (f : Fld) (n : Nat) : (d.addSat f n).evt = d.evt := rfl
@[simp] theorem Dev.addSat_keep (f : Fld) (n : Nat) : (d.addSat f n).keep = d.keep := rfl
@[simp] theorem Dev.addSat_mem (f : Fld) (n : Nat) : (d.addSat f n).mem = d.mem := rfl
@[simp] theorem Dev.addSat_time (f : Fld) (n : Nat) : (d.addSat f n).time = d.time := rfl
@[simp] theorem Dev.addSat_ep0Up (f : Fld) (n : Nat) : (d.addSat f n).ep0Up = d.ep0Up := rfl
@[simp] theorem Dev.addSat_windows (f : Fld) (n : Nat) : (d.addSat f n).windows = d.windows := rfl
@[simp] theorem Dev.addSat_link (f : Fld) (n : Nat) : (d.addSat f n).link = d.link := rfl
@[simp] theorem Dev.addSat_trig (f : Fld) (n : Nat) : (d.addSat f n).trig = d.trig := rfl
@[simp] theorem Dev.addSat_exps (f : Fld) (n : Nat) : (d.addSat f n).exps = d.exps := rfl
@[simp] theorem Dev.addSat_cap (f : Fld) (n : Nat) : (d.addSat f n).cap = d.cap := rfl
@[simp] theorem Dev.addSat_wheels (f : Fld) (n : Nat) : (d.addSat f n).wheels = d.wheels := rfl
@[simp] theorem Dev.addSat_rawEntries (f : Fld) (n : Nat) : (d.addSat f n).rawEntries = d.rawEntries := rfl
@[simp] theorem Dev.addSat_rawNext (f : Fld) (n : Nat) : (d.addSat f n).rawNext = d.rawNext := rfl
@[simp] theorem Dev.addSat_dmap (f : Fld) (n : Nat) : (d.addSat f n).dmap = d.dmap := rfl
@[simp] theorem Dev.addSat_journal (f : Fld) (n : Nat) : (d.addSat f n).journal = d.journal := rfl
@[simp] theorem Dev.addSat_luts (f : Fld) (n : Nat) : (d.addSat f n).luts = d.luts := rfl
@[simp] theorem Dev.addSat_holds (f : Fld) (n : Nat) : (d.addSat f n).holds = d.holds := rfl
@[simp] theorem Dev.addSat_brNext (f : Fld) (n : Nat) : (d.addSat f n).brNext = d.brNext := rfl
@[simp] theorem Dev.addSat_deSets (f : Fld) (n : Nat) : (d.addSat f n).deSets = d.deSets := rfl
@[simp] theorem Dev.addSat_ze (f : Fld) (n : Nat) : (d.addSat f n).ze = d.ze := rfl
@[simp] theorem Dev.addSat_recd (f : Fld) (n : Nat) : (d.addSat f n).recd = d.recd := rfl
@[simp] theorem Dev.addSat_code (f : Fld) (n : Nat) : (d.addSat f n).code = d.code := rfl
@[simp] theorem Dev.addSat_shed (f : Fld) (n : Nat) : (d.addSat f n).shed = d.shed := rfl
@[simp] theorem Dev.addSat_decs (f : Fld) (n : Nat) : (d.addSat f n).decs = d.decs := rfl
@[simp] theorem Dev.addSat_ras (f : Fld) (n : Nat) : (d.addSat f n).ras = d.ras := rfl
@[simp] theorem Dev.addSat_gk (f : Fld) (n : Nat) : (d.addSat f n).gk = d.gk := rfl
@[simp] theorem Dev.addSat_aud (f : Fld) (n : Nat) : (d.addSat f n).aud = d.aud := rfl
@[simp] theorem Dev.addSat_net (f : Fld) (n : Nat) : (d.addSat f n).net = d.net := rfl
@[simp] theorem Dev.addSat_clk (f : Fld) (n : Nat) : (d.addSat f n).clk = d.clk := rfl
@[simp] theorem Dev.addSat_pwr (f : Fld) (n : Nat) : (d.addSat f n).pwr = d.pwr := rfl
@[simp] theorem Dev.addSat_therm (f : Fld) (n : Nat) : (d.addSat f n).therm = d.therm := rfl
@[simp] theorem Dev.addSat_srv (f : Fld) (n : Nat) : (d.addSat f n).srv = d.srv := rfl
@[simp] theorem Dev.addSat_freeCtr (f : Fld) (n : Nat) : (d.addSat f n).freeCtr = d.freeCtr := rfl

/-! ### `Dev.latch` -/

@[simp] theorem Dev.latch_elapsed (a : Nat) : (d.latch a).elapsed = d.elapsed := rfl
@[simp] theorem Dev.latch_out (a : Nat) : (d.latch a).out = d.out := rfl
@[simp] theorem Dev.latch_boot (a : Nat) : (d.latch a).boot = d.boot := rfl
@[simp] theorem Dev.latch_mode (a : Nat) : (d.latch a).mode = d.mode := rfl
@[simp] theorem Dev.latch_blockReset (a : Nat) : (d.latch a).blockReset = d.blockReset := rfl
@[simp] theorem Dev.latch_evt (a : Nat) : (d.latch a).evt = d.evt := rfl
@[simp] theorem Dev.latch_keep (a : Nat) : (d.latch a).keep = d.keep := rfl
@[simp] theorem Dev.latch_mem (a : Nat) : (d.latch a).mem = d.mem := rfl
@[simp] theorem Dev.latch_time (a : Nat) : (d.latch a).time = d.time := rfl
@[simp] theorem Dev.latch_ep0Up (a : Nat) : (d.latch a).ep0Up = d.ep0Up := rfl
@[simp] theorem Dev.latch_windows (a : Nat) : (d.latch a).windows = d.windows := rfl
@[simp] theorem Dev.latch_link (a : Nat) : (d.latch a).link = d.link := rfl
@[simp] theorem Dev.latch_trig (a : Nat) : (d.latch a).trig = d.trig := rfl
@[simp] theorem Dev.latch_exps (a : Nat) : (d.latch a).exps = d.exps := rfl
@[simp] theorem Dev.latch_cap (a : Nat) : (d.latch a).cap = d.cap := rfl
@[simp] theorem Dev.latch_wheels (a : Nat) : (d.latch a).wheels = d.wheels := rfl
@[simp] theorem Dev.latch_rawEntries (a : Nat) : (d.latch a).rawEntries = d.rawEntries := rfl
@[simp] theorem Dev.latch_rawNext (a : Nat) : (d.latch a).rawNext = d.rawNext := rfl
@[simp] theorem Dev.latch_dmap (a : Nat) : (d.latch a).dmap = d.dmap := rfl
@[simp] theorem Dev.latch_journal (a : Nat) : (d.latch a).journal = d.journal := rfl
@[simp] theorem Dev.latch_luts (a : Nat) : (d.latch a).luts = d.luts := rfl
@[simp] theorem Dev.latch_holds (a : Nat) : (d.latch a).holds = d.holds := rfl
@[simp] theorem Dev.latch_brNext (a : Nat) : (d.latch a).brNext = d.brNext := rfl
@[simp] theorem Dev.latch_deSets (a : Nat) : (d.latch a).deSets = d.deSets := rfl
@[simp] theorem Dev.latch_ze (a : Nat) : (d.latch a).ze = d.ze := rfl
@[simp] theorem Dev.latch_recd (a : Nat) : (d.latch a).recd = d.recd := rfl
@[simp] theorem Dev.latch_code (a : Nat) : (d.latch a).code = d.code := rfl
@[simp] theorem Dev.latch_shed (a : Nat) : (d.latch a).shed = d.shed := rfl
@[simp] theorem Dev.latch_decs (a : Nat) : (d.latch a).decs = d.decs := rfl
@[simp] theorem Dev.latch_ras (a : Nat) : (d.latch a).ras = d.ras := rfl
@[simp] theorem Dev.latch_gk (a : Nat) : (d.latch a).gk = d.gk := rfl
@[simp] theorem Dev.latch_aud (a : Nat) : (d.latch a).aud = d.aud := rfl
@[simp] theorem Dev.latch_net (a : Nat) : (d.latch a).net = d.net := rfl
@[simp] theorem Dev.latch_clk (a : Nat) : (d.latch a).clk = d.clk := rfl
@[simp] theorem Dev.latch_pwr (a : Nat) : (d.latch a).pwr = d.pwr := rfl
@[simp] theorem Dev.latch_therm (a : Nat) : (d.latch a).therm = d.therm := rfl
@[simp] theorem Dev.latch_srv (a : Nat) : (d.latch a).srv = d.srv := rfl
@[simp] theorem Dev.latch_freeCtr (a : Nat) : (d.latch a).freeCtr = d.freeCtr := rfl

/-! ### `Dev.emit` -/

@[simp] theorem Dev.emit_regs (o : Output) : (d.emit o).regs = d.regs := rfl
@[simp] theorem Dev.emit_elapsed (o : Output) : (d.emit o).elapsed = d.elapsed := rfl
@[simp] theorem Dev.emit_boot (o : Output) : (d.emit o).boot = d.boot := rfl
@[simp] theorem Dev.emit_mode (o : Output) : (d.emit o).mode = d.mode := rfl
@[simp] theorem Dev.emit_blockReset (o : Output) : (d.emit o).blockReset = d.blockReset := rfl
@[simp] theorem Dev.emit_evt (o : Output) : (d.emit o).evt = d.evt := rfl
@[simp] theorem Dev.emit_keep (o : Output) : (d.emit o).keep = d.keep := rfl
@[simp] theorem Dev.emit_mem (o : Output) : (d.emit o).mem = d.mem := rfl
@[simp] theorem Dev.emit_time (o : Output) : (d.emit o).time = d.time := rfl
@[simp] theorem Dev.emit_ep0Up (o : Output) : (d.emit o).ep0Up = d.ep0Up := rfl
@[simp] theorem Dev.emit_windows (o : Output) : (d.emit o).windows = d.windows := rfl
@[simp] theorem Dev.emit_link (o : Output) : (d.emit o).link = d.link := rfl
@[simp] theorem Dev.emit_trig (o : Output) : (d.emit o).trig = d.trig := rfl
@[simp] theorem Dev.emit_exps (o : Output) : (d.emit o).exps = d.exps := rfl
@[simp] theorem Dev.emit_cap (o : Output) : (d.emit o).cap = d.cap := rfl
@[simp] theorem Dev.emit_wheels (o : Output) : (d.emit o).wheels = d.wheels := rfl
@[simp] theorem Dev.emit_rawEntries (o : Output) : (d.emit o).rawEntries = d.rawEntries := rfl
@[simp] theorem Dev.emit_rawNext (o : Output) : (d.emit o).rawNext = d.rawNext := rfl
@[simp] theorem Dev.emit_dmap (o : Output) : (d.emit o).dmap = d.dmap := rfl
@[simp] theorem Dev.emit_journal (o : Output) : (d.emit o).journal = d.journal := rfl
@[simp] theorem Dev.emit_luts (o : Output) : (d.emit o).luts = d.luts := rfl
@[simp] theorem Dev.emit_holds (o : Output) : (d.emit o).holds = d.holds := rfl
@[simp] theorem Dev.emit_brNext (o : Output) : (d.emit o).brNext = d.brNext := rfl
@[simp] theorem Dev.emit_deSets (o : Output) : (d.emit o).deSets = d.deSets := rfl
@[simp] theorem Dev.emit_ze (o : Output) : (d.emit o).ze = d.ze := rfl
@[simp] theorem Dev.emit_recd (o : Output) : (d.emit o).recd = d.recd := rfl
@[simp] theorem Dev.emit_code (o : Output) : (d.emit o).code = d.code := rfl
@[simp] theorem Dev.emit_shed (o : Output) : (d.emit o).shed = d.shed := rfl
@[simp] theorem Dev.emit_decs (o : Output) : (d.emit o).decs = d.decs := rfl
@[simp] theorem Dev.emit_ras (o : Output) : (d.emit o).ras = d.ras := rfl
@[simp] theorem Dev.emit_gk (o : Output) : (d.emit o).gk = d.gk := rfl
@[simp] theorem Dev.emit_aud (o : Output) : (d.emit o).aud = d.aud := rfl
@[simp] theorem Dev.emit_net (o : Output) : (d.emit o).net = d.net := rfl
@[simp] theorem Dev.emit_clk (o : Output) : (d.emit o).clk = d.clk := rfl
@[simp] theorem Dev.emit_pwr (o : Output) : (d.emit o).pwr = d.pwr := rfl
@[simp] theorem Dev.emit_therm (o : Output) : (d.emit o).therm = d.therm := rfl
@[simp] theorem Dev.emit_srv (o : Output) : (d.emit o).srv = d.srv := rfl
@[simp] theorem Dev.emit_freeCtr (o : Output) : (d.emit o).freeCtr = d.freeCtr := rfl

/-! ### `Dev.pin` -/

@[simp] theorem Dev.pin_regs (c l : Nat) : (d.pin c l).regs = d.regs := rfl
@[simp] theorem Dev.pin_elapsed (c l : Nat) : (d.pin c l).elapsed = d.elapsed := rfl
@[simp] theorem Dev.pin_boot (c l : Nat) : (d.pin c l).boot = d.boot := rfl
@[simp] theorem Dev.pin_mode (c l : Nat) : (d.pin c l).mode = d.mode := rfl
@[simp] theorem Dev.pin_blockReset (c l : Nat) : (d.pin c l).blockReset = d.blockReset := rfl
@[simp] theorem Dev.pin_evt (c l : Nat) : (d.pin c l).evt = d.evt := rfl
@[simp] theorem Dev.pin_keep (c l : Nat) : (d.pin c l).keep = d.keep := rfl
@[simp] theorem Dev.pin_mem (c l : Nat) : (d.pin c l).mem = d.mem := rfl
@[simp] theorem Dev.pin_time (c l : Nat) : (d.pin c l).time = d.time := rfl
@[simp] theorem Dev.pin_ep0Up (c l : Nat) : (d.pin c l).ep0Up = d.ep0Up := rfl
@[simp] theorem Dev.pin_windows (c l : Nat) : (d.pin c l).windows = d.windows := rfl
@[simp] theorem Dev.pin_link (c l : Nat) : (d.pin c l).link = d.link := rfl
@[simp] theorem Dev.pin_trig (c l : Nat) : (d.pin c l).trig = d.trig := rfl
@[simp] theorem Dev.pin_exps (c l : Nat) : (d.pin c l).exps = d.exps := rfl
@[simp] theorem Dev.pin_cap (c l : Nat) : (d.pin c l).cap = d.cap := rfl
@[simp] theorem Dev.pin_wheels (c l : Nat) : (d.pin c l).wheels = d.wheels := rfl
@[simp] theorem Dev.pin_rawEntries (c l : Nat) : (d.pin c l).rawEntries = d.rawEntries := rfl
@[simp] theorem Dev.pin_rawNext (c l : Nat) : (d.pin c l).rawNext = d.rawNext := rfl
@[simp] theorem Dev.pin_dmap (c l : Nat) : (d.pin c l).dmap = d.dmap := rfl
@[simp] theorem Dev.pin_journal (c l : Nat) : (d.pin c l).journal = d.journal := rfl
@[simp] theorem Dev.pin_luts (c l : Nat) : (d.pin c l).luts = d.luts := rfl
@[simp] theorem Dev.pin_holds (c l : Nat) : (d.pin c l).holds = d.holds := rfl
@[simp] theorem Dev.pin_brNext (c l : Nat) : (d.pin c l).brNext = d.brNext := rfl
@[simp] theorem Dev.pin_deSets (c l : Nat) : (d.pin c l).deSets = d.deSets := rfl
@[simp] theorem Dev.pin_ze (c l : Nat) : (d.pin c l).ze = d.ze := rfl
@[simp] theorem Dev.pin_recd (c l : Nat) : (d.pin c l).recd = d.recd := rfl
@[simp] theorem Dev.pin_code (c l : Nat) : (d.pin c l).code = d.code := rfl
@[simp] theorem Dev.pin_shed (c l : Nat) : (d.pin c l).shed = d.shed := rfl
@[simp] theorem Dev.pin_decs (c l : Nat) : (d.pin c l).decs = d.decs := rfl
@[simp] theorem Dev.pin_ras (c l : Nat) : (d.pin c l).ras = d.ras := rfl
@[simp] theorem Dev.pin_gk (c l : Nat) : (d.pin c l).gk = d.gk := rfl
@[simp] theorem Dev.pin_aud (c l : Nat) : (d.pin c l).aud = d.aud := rfl
@[simp] theorem Dev.pin_net (c l : Nat) : (d.pin c l).net = d.net := rfl
@[simp] theorem Dev.pin_clk (c l : Nat) : (d.pin c l).clk = d.clk := rfl
@[simp] theorem Dev.pin_pwr (c l : Nat) : (d.pin c l).pwr = d.pwr := rfl
@[simp] theorem Dev.pin_therm (c l : Nat) : (d.pin c l).therm = d.therm := rfl
@[simp] theorem Dev.pin_srv (c l : Nat) : (d.pin c l).srv = d.srv := rfl
@[simp] theorem Dev.pin_freeCtr (c l : Nat) : (d.pin c l).freeCtr = d.freeCtr := rfl

/-! ### `Dev.tookFree` -/

@[simp] theorem Dev.tookFree_regs (n : Nat) : (d.tookFree n).regs = d.regs := rfl
@[simp] theorem Dev.tookFree_elapsed (n : Nat) : (d.tookFree n).elapsed = d.elapsed := rfl
@[simp] theorem Dev.tookFree_out (n : Nat) : (d.tookFree n).out = d.out := rfl
@[simp] theorem Dev.tookFree_boot (n : Nat) : (d.tookFree n).boot = d.boot := rfl
@[simp] theorem Dev.tookFree_mode (n : Nat) : (d.tookFree n).mode = d.mode := rfl
@[simp] theorem Dev.tookFree_blockReset (n : Nat) : (d.tookFree n).blockReset = d.blockReset := rfl
@[simp] theorem Dev.tookFree_evt (n : Nat) : (d.tookFree n).evt = d.evt := rfl
@[simp] theorem Dev.tookFree_keep (n : Nat) : (d.tookFree n).keep = d.keep := rfl
@[simp] theorem Dev.tookFree_mem (n : Nat) : (d.tookFree n).mem = d.mem := rfl
@[simp] theorem Dev.tookFree_time (n : Nat) : (d.tookFree n).time = d.time := rfl
@[simp] theorem Dev.tookFree_ep0Up (n : Nat) : (d.tookFree n).ep0Up = d.ep0Up := rfl
@[simp] theorem Dev.tookFree_windows (n : Nat) : (d.tookFree n).windows = d.windows := rfl
@[simp] theorem Dev.tookFree_link (n : Nat) : (d.tookFree n).link = d.link := rfl
@[simp] theorem Dev.tookFree_trig (n : Nat) : (d.tookFree n).trig = d.trig := rfl
@[simp] theorem Dev.tookFree_exps (n : Nat) : (d.tookFree n).exps = d.exps := rfl
@[simp] theorem Dev.tookFree_cap (n : Nat) : (d.tookFree n).cap = d.cap := rfl
@[simp] theorem Dev.tookFree_wheels (n : Nat) : (d.tookFree n).wheels = d.wheels := rfl
@[simp] theorem Dev.tookFree_rawEntries (n : Nat) : (d.tookFree n).rawEntries = d.rawEntries := rfl
@[simp] theorem Dev.tookFree_rawNext (n : Nat) : (d.tookFree n).rawNext = d.rawNext := rfl
@[simp] theorem Dev.tookFree_dmap (n : Nat) : (d.tookFree n).dmap = d.dmap := rfl
@[simp] theorem Dev.tookFree_journal (n : Nat) : (d.tookFree n).journal = d.journal := rfl
@[simp] theorem Dev.tookFree_luts (n : Nat) : (d.tookFree n).luts = d.luts := rfl
@[simp] theorem Dev.tookFree_holds (n : Nat) : (d.tookFree n).holds = d.holds := rfl
@[simp] theorem Dev.tookFree_brNext (n : Nat) : (d.tookFree n).brNext = d.brNext := rfl
@[simp] theorem Dev.tookFree_deSets (n : Nat) : (d.tookFree n).deSets = d.deSets := rfl
@[simp] theorem Dev.tookFree_ze (n : Nat) : (d.tookFree n).ze = d.ze := rfl
@[simp] theorem Dev.tookFree_recd (n : Nat) : (d.tookFree n).recd = d.recd := rfl
@[simp] theorem Dev.tookFree_code (n : Nat) : (d.tookFree n).code = d.code := rfl
@[simp] theorem Dev.tookFree_shed (n : Nat) : (d.tookFree n).shed = d.shed := rfl
@[simp] theorem Dev.tookFree_decs (n : Nat) : (d.tookFree n).decs = d.decs := rfl
@[simp] theorem Dev.tookFree_ras (n : Nat) : (d.tookFree n).ras = d.ras := rfl
@[simp] theorem Dev.tookFree_gk (n : Nat) : (d.tookFree n).gk = d.gk := rfl
@[simp] theorem Dev.tookFree_aud (n : Nat) : (d.tookFree n).aud = d.aud := rfl
@[simp] theorem Dev.tookFree_net (n : Nat) : (d.tookFree n).net = d.net := rfl
@[simp] theorem Dev.tookFree_clk (n : Nat) : (d.tookFree n).clk = d.clk := rfl
@[simp] theorem Dev.tookFree_pwr (n : Nat) : (d.tookFree n).pwr = d.pwr := rfl
@[simp] theorem Dev.tookFree_therm (n : Nat) : (d.tookFree n).therm = d.therm := rfl
@[simp] theorem Dev.tookFree_srv (n : Nat) : (d.tookFree n).srv = d.srv := rfl

/-! ### `Dev.keepWrite` -/

@[simp] theorem Dev.keepWrite_regs (a : Nat) (bs : List Byte) : (d.keepWrite a bs).regs = d.regs := rfl
@[simp] theorem Dev.keepWrite_elapsed (a : Nat) (bs : List Byte) : (d.keepWrite a bs).elapsed = d.elapsed := rfl
@[simp] theorem Dev.keepWrite_out (a : Nat) (bs : List Byte) : (d.keepWrite a bs).out = d.out := rfl
@[simp] theorem Dev.keepWrite_boot (a : Nat) (bs : List Byte) : (d.keepWrite a bs).boot = d.boot := rfl
@[simp] theorem Dev.keepWrite_mode (a : Nat) (bs : List Byte) : (d.keepWrite a bs).mode = d.mode := rfl
@[simp] theorem Dev.keepWrite_blockReset (a : Nat) (bs : List Byte) : (d.keepWrite a bs).blockReset = d.blockReset := rfl
@[simp] theorem Dev.keepWrite_evt (a : Nat) (bs : List Byte) : (d.keepWrite a bs).evt = d.evt := rfl
@[simp] theorem Dev.keepWrite_mem (a : Nat) (bs : List Byte) : (d.keepWrite a bs).mem = d.mem := rfl
@[simp] theorem Dev.keepWrite_time (a : Nat) (bs : List Byte) : (d.keepWrite a bs).time = d.time := rfl
@[simp] theorem Dev.keepWrite_ep0Up (a : Nat) (bs : List Byte) : (d.keepWrite a bs).ep0Up = d.ep0Up := rfl
@[simp] theorem Dev.keepWrite_windows (a : Nat) (bs : List Byte) : (d.keepWrite a bs).windows = d.windows := rfl
@[simp] theorem Dev.keepWrite_link (a : Nat) (bs : List Byte) : (d.keepWrite a bs).link = d.link := rfl
@[simp] theorem Dev.keepWrite_trig (a : Nat) (bs : List Byte) : (d.keepWrite a bs).trig = d.trig := rfl
@[simp] theorem Dev.keepWrite_exps (a : Nat) (bs : List Byte) : (d.keepWrite a bs).exps = d.exps := rfl
@[simp] theorem Dev.keepWrite_cap (a : Nat) (bs : List Byte) : (d.keepWrite a bs).cap = d.cap := rfl
@[simp] theorem Dev.keepWrite_wheels (a : Nat) (bs : List Byte) : (d.keepWrite a bs).wheels = d.wheels := rfl
@[simp] theorem Dev.keepWrite_rawEntries (a : Nat) (bs : List Byte) : (d.keepWrite a bs).rawEntries = d.rawEntries := rfl
@[simp] theorem Dev.keepWrite_rawNext (a : Nat) (bs : List Byte) : (d.keepWrite a bs).rawNext = d.rawNext := rfl
@[simp] theorem Dev.keepWrite_dmap (a : Nat) (bs : List Byte) : (d.keepWrite a bs).dmap = d.dmap := rfl
@[simp] theorem Dev.keepWrite_journal (a : Nat) (bs : List Byte) : (d.keepWrite a bs).journal = d.journal := rfl
@[simp] theorem Dev.keepWrite_luts (a : Nat) (bs : List Byte) : (d.keepWrite a bs).luts = d.luts := rfl
@[simp] theorem Dev.keepWrite_holds (a : Nat) (bs : List Byte) : (d.keepWrite a bs).holds = d.holds := rfl
@[simp] theorem Dev.keepWrite_brNext (a : Nat) (bs : List Byte) : (d.keepWrite a bs).brNext = d.brNext := rfl
@[simp] theorem Dev.keepWrite_deSets (a : Nat) (bs : List Byte) : (d.keepWrite a bs).deSets = d.deSets := rfl
@[simp] theorem Dev.keepWrite_ze (a : Nat) (bs : List Byte) : (d.keepWrite a bs).ze = d.ze := rfl
@[simp] theorem Dev.keepWrite_recd (a : Nat) (bs : List Byte) : (d.keepWrite a bs).recd = d.recd := rfl
@[simp] theorem Dev.keepWrite_code (a : Nat) (bs : List Byte) : (d.keepWrite a bs).code = d.code := rfl
@[simp] theorem Dev.keepWrite_shed (a : Nat) (bs : List Byte) : (d.keepWrite a bs).shed = d.shed := rfl
@[simp] theorem Dev.keepWrite_decs (a : Nat) (bs : List Byte) : (d.keepWrite a bs).decs = d.decs := rfl
@[simp] theorem Dev.keepWrite_ras (a : Nat) (bs : List Byte) : (d.keepWrite a bs).ras = d.ras := rfl
@[simp] theorem Dev.keepWrite_gk (a : Nat) (bs : List Byte) : (d.keepWrite a bs).gk = d.gk := rfl
@[simp] theorem Dev.keepWrite_aud (a : Nat) (bs : List Byte) : (d.keepWrite a bs).aud = d.aud := rfl
@[simp] theorem Dev.keepWrite_net (a : Nat) (bs : List Byte) : (d.keepWrite a bs).net = d.net := rfl
@[simp] theorem Dev.keepWrite_clk (a : Nat) (bs : List Byte) : (d.keepWrite a bs).clk = d.clk := rfl
@[simp] theorem Dev.keepWrite_pwr (a : Nat) (bs : List Byte) : (d.keepWrite a bs).pwr = d.pwr := rfl
@[simp] theorem Dev.keepWrite_therm (a : Nat) (bs : List Byte) : (d.keepWrite a bs).therm = d.therm := rfl
@[simp] theorem Dev.keepWrite_srv (a : Nat) (bs : List Byte) : (d.keepWrite a bs).srv = d.srv := rfl
@[simp] theorem Dev.keepWrite_freeCtr (a : Nat) (bs : List Byte) : (d.keepWrite a bs).freeCtr = d.freeCtr := rfl

@[simp] theorem Dev.emit_out (o : Output) : (d.emit o).out = d.out ++ [o] := rfl
@[simp] theorem Dev.pin_out (c l : Nat) : (d.pin c l).out = d.out ++ [.pin c l] := rfl
@[simp] theorem Dev.tookFree_freeCtr (n : Nat) : (d.tookFree n).freeCtr = d.freeCtr + n := rfl

/-! ### `Dev.modPort` -/

@[simp] theorem Dev.modPort_regs (p : Nat) (f : LinkPort → LinkPort) : (d.modPort p f).regs = d.regs := rfl
@[simp] theorem Dev.modPort_elapsed (p : Nat) (f : LinkPort → LinkPort) : (d.modPort p f).elapsed = d.elapsed := rfl
@[simp] theorem Dev.modPort_out (p : Nat) (f : LinkPort → LinkPort) : (d.modPort p f).out = d.out := rfl
@[simp] theorem Dev.modPort_mode (p : Nat) (f : LinkPort → LinkPort) : (d.modPort p f).mode = d.mode := rfl
@[simp] theorem Dev.modPort_evt (p : Nat) (f : LinkPort → LinkPort) : (d.modPort p f).evt = d.evt := rfl
@[simp] theorem Dev.modPort_keep (p : Nat) (f : LinkPort → LinkPort) : (d.modPort p f).keep = d.keep := rfl
@[simp] theorem Dev.modPort_mem (p : Nat) (f : LinkPort → LinkPort) : (d.modPort p f).mem = d.mem := rfl
@[simp] theorem Dev.modPort_time (p : Nat) (f : LinkPort → LinkPort) : (d.modPort p f).time = d.time := rfl
@[simp] theorem Dev.modPort_boot (p : Nat) (f : LinkPort → LinkPort) : (d.modPort p f).boot = d.boot := rfl
@[simp] theorem Dev.modPort_cap (p : Nat) (f : LinkPort → LinkPort) : (d.modPort p f).cap = d.cap := rfl
@[simp] theorem Dev.modPort_code (p : Nat) (f : LinkPort → LinkPort) : (d.modPort p f).code = d.code := rfl
@[simp] theorem Dev.modPort_freeCtr (p : Nat) (f : LinkPort → LinkPort) : (d.modPort p f).freeCtr = d.freeCtr := rfl
@[simp] theorem Dev.modPort_link (p : Nat) (f : LinkPort → LinkPort) : (d.modPort p f).link = modifyAt d.link p f := rfl

/-! ### `Dev.modCtx` -/

@[simp] theorem Dev.modCtx_regs (n : Nat) (f : CapCtx → CapCtx) : (d.modCtx n f).regs = d.regs := rfl
@[simp] theorem Dev.modCtx_elapsed (n : Nat) (f : CapCtx → CapCtx) : (d.modCtx n f).elapsed = d.elapsed := rfl
@[simp] theorem Dev.modCtx_out (n : Nat) (f : CapCtx → CapCtx) : (d.modCtx n f).out = d.out := rfl
@[simp] theorem Dev.modCtx_mode (n : Nat) (f : CapCtx → CapCtx) : (d.modCtx n f).mode = d.mode := rfl
@[simp] theorem Dev.modCtx_evt (n : Nat) (f : CapCtx → CapCtx) : (d.modCtx n f).evt = d.evt := rfl
@[simp] theorem Dev.modCtx_keep (n : Nat) (f : CapCtx → CapCtx) : (d.modCtx n f).keep = d.keep := rfl
@[simp] theorem Dev.modCtx_mem (n : Nat) (f : CapCtx → CapCtx) : (d.modCtx n f).mem = d.mem := rfl
@[simp] theorem Dev.modCtx_time (n : Nat) (f : CapCtx → CapCtx) : (d.modCtx n f).time = d.time := rfl
@[simp] theorem Dev.modCtx_boot (n : Nat) (f : CapCtx → CapCtx) : (d.modCtx n f).boot = d.boot := rfl
@[simp] theorem Dev.modCtx_code (n : Nat) (f : CapCtx → CapCtx) : (d.modCtx n f).code = d.code := rfl
@[simp] theorem Dev.modCtx_freeCtr (n : Nat) (f : CapCtx → CapCtx) : (d.modCtx n f).freeCtr = d.freeCtr := rfl
@[simp] theorem Dev.modCtx_cap (n : Nat) (f : CapCtx → CapCtx) : (d.modCtx n f).cap = modifyAt d.cap n f := rfl

/-! ### `Dev.modWheel` -/

@[simp] theorem Dev.modWheel_regs (g : Nat) (f : WheelSt → WheelSt) : (d.modWheel g f).regs = d.regs := rfl
@[simp] theorem Dev.modWheel_elapsed (g : Nat) (f : WheelSt → WheelSt) : (d.modWheel g f).elapsed = d.elapsed := rfl
@[simp] theorem Dev.modWheel_out (g : Nat) (f : WheelSt → WheelSt) : (d.modWheel g f).out = d.out := rfl
@[simp] theorem Dev.modWheel_mode (g : Nat) (f : WheelSt → WheelSt) : (d.modWheel g f).mode = d.mode := rfl
@[simp] theorem Dev.modWheel_evt (g : Nat) (f : WheelSt → WheelSt) : (d.modWheel g f).evt = d.evt := rfl
@[simp] theorem Dev.modWheel_keep (g : Nat) (f : WheelSt → WheelSt) : (d.modWheel g f).keep = d.keep := rfl
@[simp] theorem Dev.modWheel_mem (g : Nat) (f : WheelSt → WheelSt) : (d.modWheel g f).mem = d.mem := rfl
@[simp] theorem Dev.modWheel_time (g : Nat) (f : WheelSt → WheelSt) : (d.modWheel g f).time = d.time := rfl
@[simp] theorem Dev.modWheel_boot (g : Nat) (f : WheelSt → WheelSt) : (d.modWheel g f).boot = d.boot := rfl
@[simp] theorem Dev.modWheel_cap (g : Nat) (f : WheelSt → WheelSt) : (d.modWheel g f).cap = d.cap := rfl
@[simp] theorem Dev.modWheel_code (g : Nat) (f : WheelSt → WheelSt) : (d.modWheel g f).code = d.code := rfl
@[simp] theorem Dev.modWheel_freeCtr (g : Nat) (f : WheelSt → WheelSt) : (d.modWheel g f).freeCtr = d.freeCtr := rfl
@[simp] theorem Dev.modWheel_wheels (g : Nat) (f : WheelSt → WheelSt) : (d.modWheel g f).wheels = modifyAt d.wheels g f := rfl

/-! ### `Dev.modDrive` -/

@[simp] theorem Dev.modDrive_regs (k : Nat) (f : DriveSt → DriveSt) : (d.modDrive k f).regs = d.regs := rfl
@[simp] theorem Dev.modDrive_elapsed (k : Nat) (f : DriveSt → DriveSt) : (d.modDrive k f).elapsed = d.elapsed := rfl
@[simp] theorem Dev.modDrive_out (k : Nat) (f : DriveSt → DriveSt) : (d.modDrive k f).out = d.out := rfl
@[simp] theorem Dev.modDrive_mode (k : Nat) (f : DriveSt → DriveSt) : (d.modDrive k f).mode = d.mode := rfl
@[simp] theorem Dev.modDrive_evt (k : Nat) (f : DriveSt → DriveSt) : (d.modDrive k f).evt = d.evt := rfl
@[simp] theorem Dev.modDrive_keep (k : Nat) (f : DriveSt → DriveSt) : (d.modDrive k f).keep = d.keep := rfl
@[simp] theorem Dev.modDrive_mem (k : Nat) (f : DriveSt → DriveSt) : (d.modDrive k f).mem = d.mem := rfl
@[simp] theorem Dev.modDrive_time (k : Nat) (f : DriveSt → DriveSt) : (d.modDrive k f).time = d.time := rfl
@[simp] theorem Dev.modDrive_boot (k : Nat) (f : DriveSt → DriveSt) : (d.modDrive k f).boot = d.boot := rfl
@[simp] theorem Dev.modDrive_cap (k : Nat) (f : DriveSt → DriveSt) : (d.modDrive k f).cap = d.cap := rfl
@[simp] theorem Dev.modDrive_code (k : Nat) (f : DriveSt → DriveSt) : (d.modDrive k f).code = d.code := rfl
@[simp] theorem Dev.modDrive_freeCtr (k : Nat) (f : DriveSt → DriveSt) : (d.modDrive k f).freeCtr = d.freeCtr := rfl

/-! ### `Dev.setClip` -/

@[simp] theorem Dev.setClip_regs (n : Nat) (c : Option ClipSt) : (d.setClip n c).regs = d.regs := rfl
@[simp] theorem Dev.setClip_elapsed (n : Nat) (c : Option ClipSt) : (d.setClip n c).elapsed = d.elapsed := rfl
@[simp] theorem Dev.setClip_out (n : Nat) (c : Option ClipSt) : (d.setClip n c).out = d.out := rfl
@[simp] theorem Dev.setClip_mode (n : Nat) (c : Option ClipSt) : (d.setClip n c).mode = d.mode := rfl
@[simp] theorem Dev.setClip_evt (n : Nat) (c : Option ClipSt) : (d.setClip n c).evt = d.evt := rfl
@[simp] theorem Dev.setClip_keep (n : Nat) (c : Option ClipSt) : (d.setClip n c).keep = d.keep := rfl
@[simp] theorem Dev.setClip_mem (n : Nat) (c : Option ClipSt) : (d.setClip n c).mem = d.mem := rfl
@[simp] theorem Dev.setClip_time (n : Nat) (c : Option ClipSt) : (d.setClip n c).time = d.time := rfl
@[simp] theorem Dev.setClip_boot (n : Nat) (c : Option ClipSt) : (d.setClip n c).boot = d.boot := rfl
@[simp] theorem Dev.setClip_cap (n : Nat) (c : Option ClipSt) : (d.setClip n c).cap = d.cap := rfl
@[simp] theorem Dev.setClip_code (n : Nat) (c : Option ClipSt) : (d.setClip n c).code = d.code := rfl
@[simp] theorem Dev.setClip_freeCtr (n : Nat) (c : Option ClipSt) : (d.setClip n c).freeCtr = d.freeCtr := rfl

/-! ### `Dev.modSes` -/

@[simp] theorem Dev.modSes_regs (s : Nat) (f : SesSt → SesSt) : (d.modSes s f).regs = d.regs := rfl
@[simp] theorem Dev.modSes_elapsed (s : Nat) (f : SesSt → SesSt) : (d.modSes s f).elapsed = d.elapsed := rfl
@[simp] theorem Dev.modSes_out (s : Nat) (f : SesSt → SesSt) : (d.modSes s f).out = d.out := rfl
@[simp] theorem Dev.modSes_mode (s : Nat) (f : SesSt → SesSt) : (d.modSes s f).mode = d.mode := rfl
@[simp] theorem Dev.modSes_evt (s : Nat) (f : SesSt → SesSt) : (d.modSes s f).evt = d.evt := rfl
@[simp] theorem Dev.modSes_keep (s : Nat) (f : SesSt → SesSt) : (d.modSes s f).keep = d.keep := rfl
@[simp] theorem Dev.modSes_mem (s : Nat) (f : SesSt → SesSt) : (d.modSes s f).mem = d.mem := rfl
@[simp] theorem Dev.modSes_time (s : Nat) (f : SesSt → SesSt) : (d.modSes s f).time = d.time := rfl
@[simp] theorem Dev.modSes_boot (s : Nat) (f : SesSt → SesSt) : (d.modSes s f).boot = d.boot := rfl
@[simp] theorem Dev.modSes_cap (s : Nat) (f : SesSt → SesSt) : (d.modSes s f).cap = d.cap := rfl
@[simp] theorem Dev.modSes_freeCtr (s : Nat) (f : SesSt → SesSt) : (d.modSes s f).freeCtr = d.freeCtr := rfl

/-! ### `Dev.modGrp` -/

@[simp] theorem Dev.modGrp_regs (g : Nat) (f : GrpSt → GrpSt) : (d.modGrp g f).regs = d.regs := rfl
@[simp] theorem Dev.modGrp_elapsed (g : Nat) (f : GrpSt → GrpSt) : (d.modGrp g f).elapsed = d.elapsed := rfl
@[simp] theorem Dev.modGrp_out (g : Nat) (f : GrpSt → GrpSt) : (d.modGrp g f).out = d.out := rfl
@[simp] theorem Dev.modGrp_mode (g : Nat) (f : GrpSt → GrpSt) : (d.modGrp g f).mode = d.mode := rfl
@[simp] theorem Dev.modGrp_evt (g : Nat) (f : GrpSt → GrpSt) : (d.modGrp g f).evt = d.evt := rfl
@[simp] theorem Dev.modGrp_keep (g : Nat) (f : GrpSt → GrpSt) : (d.modGrp g f).keep = d.keep := rfl
@[simp] theorem Dev.modGrp_mem (g : Nat) (f : GrpSt → GrpSt) : (d.modGrp g f).mem = d.mem := rfl
@[simp] theorem Dev.modGrp_time (g : Nat) (f : GrpSt → GrpSt) : (d.modGrp g f).time = d.time := rfl
@[simp] theorem Dev.modGrp_boot (g : Nat) (f : GrpSt → GrpSt) : (d.modGrp g f).boot = d.boot := rfl
@[simp] theorem Dev.modGrp_cap (g : Nat) (f : GrpSt → GrpSt) : (d.modGrp g f).cap = d.cap := rfl
@[simp] theorem Dev.modGrp_freeCtr (g : Nat) (f : GrpSt → GrpSt) : (d.modGrp g f).freeCtr = d.freeCtr := rfl

/-! ### `Dev.modVe` -/

@[simp] theorem Dev.modVe_regs (e : Nat) (f : VeSt → VeSt) : (d.modVe e f).regs = d.regs := rfl
@[simp] theorem Dev.modVe_elapsed (e : Nat) (f : VeSt → VeSt) : (d.modVe e f).elapsed = d.elapsed := rfl
@[simp] theorem Dev.modVe_out (e : Nat) (f : VeSt → VeSt) : (d.modVe e f).out = d.out := rfl
@[simp] theorem Dev.modVe_mode (e : Nat) (f : VeSt → VeSt) : (d.modVe e f).mode = d.mode := rfl
@[simp] theorem Dev.modVe_evt (e : Nat) (f : VeSt → VeSt) : (d.modVe e f).evt = d.evt := rfl
@[simp] theorem Dev.modVe_keep (e : Nat) (f : VeSt → VeSt) : (d.modVe e f).keep = d.keep := rfl
@[simp] theorem Dev.modVe_mem (e : Nat) (f : VeSt → VeSt) : (d.modVe e f).mem = d.mem := rfl
@[simp] theorem Dev.modVe_time (e : Nat) (f : VeSt → VeSt) : (d.modVe e f).time = d.time := rfl
@[simp] theorem Dev.modVe_boot (e : Nat) (f : VeSt → VeSt) : (d.modVe e f).boot = d.boot := rfl
@[simp] theorem Dev.modVe_cap (e : Nat) (f : VeSt → VeSt) : (d.modVe e f).cap = d.cap := rfl
@[simp] theorem Dev.modVe_freeCtr (e : Nat) (f : VeSt → VeSt) : (d.modVe e f).freeCtr = d.freeCtr := rfl

/-! ### `Dev.modTime` -/

@[simp] theorem Dev.modTime_regs (f : TimeSt → TimeSt) : (d.modTime f).regs = d.regs := rfl
@[simp] theorem Dev.modTime_elapsed (f : TimeSt → TimeSt) : (d.modTime f).elapsed = d.elapsed := rfl
@[simp] theorem Dev.modTime_out (f : TimeSt → TimeSt) : (d.modTime f).out = d.out := rfl
@[simp] theorem Dev.modTime_mode (f : TimeSt → TimeSt) : (d.modTime f).mode = d.mode := rfl
@[simp] theorem Dev.modTime_evt (f : TimeSt → TimeSt) : (d.modTime f).evt = d.evt := rfl
@[simp] theorem Dev.modTime_keep (f : TimeSt → TimeSt) : (d.modTime f).keep = d.keep := rfl
@[simp] theorem Dev.modTime_mem (f : TimeSt → TimeSt) : (d.modTime f).mem = d.mem := rfl
@[simp] theorem Dev.modTime_boot (f : TimeSt → TimeSt) : (d.modTime f).boot = d.boot := rfl
@[simp] theorem Dev.modTime_cap (f : TimeSt → TimeSt) : (d.modTime f).cap = d.cap := rfl
@[simp] theorem Dev.modTime_code (f : TimeSt → TimeSt) : (d.modTime f).code = d.code := rfl
@[simp] theorem Dev.modTime_freeCtr (f : TimeSt → TimeSt) : (d.modTime f).freeCtr = d.freeCtr := rfl
@[simp] theorem Dev.modTime_time (f : TimeSt → TimeSt) : (d.modTime f).time = f d.time := rfl

/-! ### `Dev.modRs` -/

@[simp] theorem Dev.modRs_regs (r : Nat) (f : RasSt → RasSt) : (d.modRs r f).regs = d.regs := rfl
@[simp] theorem Dev.modRs_elapsed (r : Nat) (f : RasSt → RasSt) : (d.modRs r f).elapsed = d.elapsed := rfl
@[simp] theorem Dev.modRs_out (r : Nat) (f : RasSt → RasSt) : (d.modRs r f).out = d.out := rfl
@[simp] theorem Dev.modRs_mode (r : Nat) (f : RasSt → RasSt) : (d.modRs r f).mode = d.mode := rfl
@[simp] theorem Dev.modRs_evt (r : Nat) (f : RasSt → RasSt) : (d.modRs r f).evt = d.evt := rfl
@[simp] theorem Dev.modRs_keep (r : Nat) (f : RasSt → RasSt) : (d.modRs r f).keep = d.keep := rfl
@[simp] theorem Dev.modRs_mem (r : Nat) (f : RasSt → RasSt) : (d.modRs r f).mem = d.mem := rfl
@[simp] theorem Dev.modRs_time (r : Nat) (f : RasSt → RasSt) : (d.modRs r f).time = d.time := rfl
@[simp] theorem Dev.modRs_boot (r : Nat) (f : RasSt → RasSt) : (d.modRs r f).boot = d.boot := rfl
@[simp] theorem Dev.modRs_cap (r : Nat) (f : RasSt → RasSt) : (d.modRs r f).cap = d.cap := rfl
@[simp] theorem Dev.modRs_code (r : Nat) (f : RasSt → RasSt) : (d.modRs r f).code = d.code := rfl
@[simp] theorem Dev.modRs_freeCtr (r : Nat) (f : RasSt → RasSt) : (d.modRs r f).freeCtr = d.freeCtr := rfl
@[simp] theorem Dev.modRs_ras (r : Nat) (f : RasSt → RasSt) : (d.modRs r f).ras = modifyAt d.ras r f := rfl

/-! ### `Dev.modDec` -/

@[simp] theorem Dev.modDec_regs (k : Nat) (f : DecSt → DecSt) : (d.modDec k f).regs = d.regs := rfl
@[simp] theorem Dev.modDec_elapsed (k : Nat) (f : DecSt → DecSt) : (d.modDec k f).elapsed = d.elapsed := rfl
@[simp] theorem Dev.modDec_out (k : Nat) (f : DecSt → DecSt) : (d.modDec k f).out = d.out := rfl
@[simp] theorem Dev.modDec_mode (k : Nat) (f : DecSt → DecSt) : (d.modDec k f).mode = d.mode := rfl
@[simp] theorem Dev.modDec_evt (k : Nat) (f : DecSt → DecSt) : (d.modDec k f).evt = d.evt := rfl
@[simp] theorem Dev.modDec_keep (k : Nat) (f : DecSt → DecSt) : (d.modDec k f).keep = d.keep := rfl
@[simp] theorem Dev.modDec_mem (k : Nat) (f : DecSt → DecSt) : (d.modDec k f).mem = d.mem := rfl
@[simp] theorem Dev.modDec_time (k : Nat) (f : DecSt → DecSt) : (d.modDec k f).time = d.time := rfl
@[simp] theorem Dev.modDec_boot (k : Nat) (f : DecSt → DecSt) : (d.modDec k f).boot = d.boot := rfl
@[simp] theorem Dev.modDec_cap (k : Nat) (f : DecSt → DecSt) : (d.modDec k f).cap = d.cap := rfl
@[simp] theorem Dev.modDec_code (k : Nat) (f : DecSt → DecSt) : (d.modDec k f).code = d.code := rfl
@[simp] theorem Dev.modDec_freeCtr (k : Nat) (f : DecSt → DecSt) : (d.modDec k f).freeCtr = d.freeCtr := rfl
@[simp] theorem Dev.modDec_decs (k : Nat) (f : DecSt → DecSt) : (d.modDec k f).decs = modifyAt d.decs k f := rfl

/-! ### `Dev.modTx` -/

@[simp] theorem Dev.modTx_regs (n : Nat) (f : TxSt → TxSt) : (d.modTx n f).regs = d.regs := rfl
@[simp] theorem Dev.modTx_elapsed (n : Nat) (f : TxSt → TxSt) : (d.modTx n f).elapsed = d.elapsed := rfl
@[simp] theorem Dev.modTx_out (n : Nat) (f : TxSt → TxSt) : (d.modTx n f).out = d.out := rfl
@[simp] theorem Dev.modTx_mode (n : Nat) (f : TxSt → TxSt) : (d.modTx n f).mode = d.mode := rfl
@[simp] theorem Dev.modTx_evt (n : Nat) (f : TxSt → TxSt) : (d.modTx n f).evt = d.evt := rfl
@[simp] theorem Dev.modTx_keep (n : Nat) (f : TxSt → TxSt) : (d.modTx n f).keep = d.keep := rfl
@[simp] theorem Dev.modTx_mem (n : Nat) (f : TxSt → TxSt) : (d.modTx n f).mem = d.mem := rfl
@[simp] theorem Dev.modTx_time (n : Nat) (f : TxSt → TxSt) : (d.modTx n f).time = d.time := rfl
@[simp] theorem Dev.modTx_boot (n : Nat) (f : TxSt → TxSt) : (d.modTx n f).boot = d.boot := rfl
@[simp] theorem Dev.modTx_cap (n : Nat) (f : TxSt → TxSt) : (d.modTx n f).cap = d.cap := rfl
@[simp] theorem Dev.modTx_code (n : Nat) (f : TxSt → TxSt) : (d.modTx n f).code = d.code := rfl
@[simp] theorem Dev.modTx_freeCtr (n : Nat) (f : TxSt → TxSt) : (d.modTx n f).freeCtr = d.freeCtr := rfl

/-! ### `Dev.modRx` -/

@[simp] theorem Dev.modRx_regs (n : Nat) (f : RxSt → RxSt) : (d.modRx n f).regs = d.regs := rfl
@[simp] theorem Dev.modRx_elapsed (n : Nat) (f : RxSt → RxSt) : (d.modRx n f).elapsed = d.elapsed := rfl
@[simp] theorem Dev.modRx_out (n : Nat) (f : RxSt → RxSt) : (d.modRx n f).out = d.out := rfl
@[simp] theorem Dev.modRx_mode (n : Nat) (f : RxSt → RxSt) : (d.modRx n f).mode = d.mode := rfl
@[simp] theorem Dev.modRx_evt (n : Nat) (f : RxSt → RxSt) : (d.modRx n f).evt = d.evt := rfl
@[simp] theorem Dev.modRx_keep (n : Nat) (f : RxSt → RxSt) : (d.modRx n f).keep = d.keep := rfl
@[simp] theorem Dev.modRx_mem (n : Nat) (f : RxSt → RxSt) : (d.modRx n f).mem = d.mem := rfl
@[simp] theorem Dev.modRx_time (n : Nat) (f : RxSt → RxSt) : (d.modRx n f).time = d.time := rfl
@[simp] theorem Dev.modRx_boot (n : Nat) (f : RxSt → RxSt) : (d.modRx n f).boot = d.boot := rfl
@[simp] theorem Dev.modRx_cap (n : Nat) (f : RxSt → RxSt) : (d.modRx n f).cap = d.cap := rfl
@[simp] theorem Dev.modRx_code (n : Nat) (f : RxSt → RxSt) : (d.modRx n f).code = d.code := rfl
@[simp] theorem Dev.modRx_freeCtr (n : Nat) (f : RxSt → RxSt) : (d.modRx n f).freeCtr = d.freeCtr := rfl

/-! ### `Dev.modAp` -/

@[simp] theorem Dev.modAp_regs (p : Nat) (f : AudPort → AudPort) : (d.modAp p f).regs = d.regs := rfl
@[simp] theorem Dev.modAp_elapsed (p : Nat) (f : AudPort → AudPort) : (d.modAp p f).elapsed = d.elapsed := rfl
@[simp] theorem Dev.modAp_out (p : Nat) (f : AudPort → AudPort) : (d.modAp p f).out = d.out := rfl
@[simp] theorem Dev.modAp_mode (p : Nat) (f : AudPort → AudPort) : (d.modAp p f).mode = d.mode := rfl
@[simp] theorem Dev.modAp_evt (p : Nat) (f : AudPort → AudPort) : (d.modAp p f).evt = d.evt := rfl
@[simp] theorem Dev.modAp_keep (p : Nat) (f : AudPort → AudPort) : (d.modAp p f).keep = d.keep := rfl
@[simp] theorem Dev.modAp_mem (p : Nat) (f : AudPort → AudPort) : (d.modAp p f).mem = d.mem := rfl
@[simp] theorem Dev.modAp_time (p : Nat) (f : AudPort → AudPort) : (d.modAp p f).time = d.time := rfl
@[simp] theorem Dev.modAp_boot (p : Nat) (f : AudPort → AudPort) : (d.modAp p f).boot = d.boot := rfl
@[simp] theorem Dev.modAp_cap (p : Nat) (f : AudPort → AudPort) : (d.modAp p f).cap = d.cap := rfl
@[simp] theorem Dev.modAp_code (p : Nat) (f : AudPort → AudPort) : (d.modAp p f).code = d.code := rfl
@[simp] theorem Dev.modAp_freeCtr (p : Nat) (f : AudPort → AudPort) : (d.modAp p f).freeCtr = d.freeCtr := rfl

/-! ### `Dev.modAdom` -/

@[simp] theorem Dev.modAdom_regs (m : Nat) (f : AudDom → AudDom) : (d.modAdom m f).regs = d.regs := rfl
@[simp] theorem Dev.modAdom_elapsed (m : Nat) (f : AudDom → AudDom) : (d.modAdom m f).elapsed = d.elapsed := rfl
@[simp] theorem Dev.modAdom_out (m : Nat) (f : AudDom → AudDom) : (d.modAdom m f).out = d.out := rfl
@[simp] theorem Dev.modAdom_mode (m : Nat) (f : AudDom → AudDom) : (d.modAdom m f).mode = d.mode := rfl
@[simp] theorem Dev.modAdom_evt (m : Nat) (f : AudDom → AudDom) : (d.modAdom m f).evt = d.evt := rfl
@[simp] theorem Dev.modAdom_keep (m : Nat) (f : AudDom → AudDom) : (d.modAdom m f).keep = d.keep := rfl
@[simp] theorem Dev.modAdom_mem (m : Nat) (f : AudDom → AudDom) : (d.modAdom m f).mem = d.mem := rfl
@[simp] theorem Dev.modAdom_time (m : Nat) (f : AudDom → AudDom) : (d.modAdom m f).time = d.time := rfl
@[simp] theorem Dev.modAdom_boot (m : Nat) (f : AudDom → AudDom) : (d.modAdom m f).boot = d.boot := rfl
@[simp] theorem Dev.modAdom_cap (m : Nat) (f : AudDom → AudDom) : (d.modAdom m f).cap = d.cap := rfl
@[simp] theorem Dev.modAdom_code (m : Nat) (f : AudDom → AudDom) : (d.modAdom m f).code = d.code := rfl
@[simp] theorem Dev.modAdom_freeCtr (m : Nat) (f : AudDom → AudDom) : (d.modAdom m f).freeCtr = d.freeCtr := rfl

/-! ### `Dev.modAnet` -/

@[simp] theorem Dev.modAnet_regs (k : Nat) (f : AudNet → AudNet) : (d.modAnet k f).regs = d.regs := rfl
@[simp] theorem Dev.modAnet_elapsed (k : Nat) (f : AudNet → AudNet) : (d.modAnet k f).elapsed = d.elapsed := rfl
@[simp] theorem Dev.modAnet_out (k : Nat) (f : AudNet → AudNet) : (d.modAnet k f).out = d.out := rfl
@[simp] theorem Dev.modAnet_mode (k : Nat) (f : AudNet → AudNet) : (d.modAnet k f).mode = d.mode := rfl
@[simp] theorem Dev.modAnet_evt (k : Nat) (f : AudNet → AudNet) : (d.modAnet k f).evt = d.evt := rfl
@[simp] theorem Dev.modAnet_keep (k : Nat) (f : AudNet → AudNet) : (d.modAnet k f).keep = d.keep := rfl
@[simp] theorem Dev.modAnet_mem (k : Nat) (f : AudNet → AudNet) : (d.modAnet k f).mem = d.mem := rfl
@[simp] theorem Dev.modAnet_time (k : Nat) (f : AudNet → AudNet) : (d.modAnet k f).time = d.time := rfl
@[simp] theorem Dev.modAnet_boot (k : Nat) (f : AudNet → AudNet) : (d.modAnet k f).boot = d.boot := rfl
@[simp] theorem Dev.modAnet_cap (k : Nat) (f : AudNet → AudNet) : (d.modAnet k f).cap = d.cap := rfl
@[simp] theorem Dev.modAnet_code (k : Nat) (f : AudNet → AudNet) : (d.modAnet k f).code = d.code := rfl
@[simp] theorem Dev.modAnet_freeCtr (k : Nat) (f : AudNet → AudNet) : (d.modAnet k f).freeCtr = d.freeCtr := rfl

/-! ### `Dev.modGk` -/

@[simp] theorem Dev.modGk_regs (p : Nat) (f : GkSt → GkSt) : (d.modGk p f).regs = d.regs := rfl
@[simp] theorem Dev.modGk_elapsed (p : Nat) (f : GkSt → GkSt) : (d.modGk p f).elapsed = d.elapsed := rfl
@[simp] theorem Dev.modGk_out (p : Nat) (f : GkSt → GkSt) : (d.modGk p f).out = d.out := rfl
@[simp] theorem Dev.modGk_mode (p : Nat) (f : GkSt → GkSt) : (d.modGk p f).mode = d.mode := rfl
@[simp] theorem Dev.modGk_evt (p : Nat) (f : GkSt → GkSt) : (d.modGk p f).evt = d.evt := rfl
@[simp] theorem Dev.modGk_keep (p : Nat) (f : GkSt → GkSt) : (d.modGk p f).keep = d.keep := rfl
@[simp] theorem Dev.modGk_mem (p : Nat) (f : GkSt → GkSt) : (d.modGk p f).mem = d.mem := rfl
@[simp] theorem Dev.modGk_time (p : Nat) (f : GkSt → GkSt) : (d.modGk p f).time = d.time := rfl
@[simp] theorem Dev.modGk_boot (p : Nat) (f : GkSt → GkSt) : (d.modGk p f).boot = d.boot := rfl
@[simp] theorem Dev.modGk_cap (p : Nat) (f : GkSt → GkSt) : (d.modGk p f).cap = d.cap := rfl
@[simp] theorem Dev.modGk_code (p : Nat) (f : GkSt → GkSt) : (d.modGk p f).code = d.code := rfl
@[simp] theorem Dev.modGk_freeCtr (p : Nat) (f : GkSt → GkSt) : (d.modGk p f).freeCtr = d.freeCtr := rfl
@[simp] theorem Dev.modGk_gk (p : Nat) (f : GkSt → GkSt) : (d.modGk p f).gk = modifyAt d.gk p f := rfl

/-! ### `Dev.modClk` -/

@[simp] theorem Dev.modClk_regs (f : ClkSt → ClkSt) : (d.modClk f).regs = d.regs := rfl
@[simp] theorem Dev.modClk_elapsed (f : ClkSt → ClkSt) : (d.modClk f).elapsed = d.elapsed := rfl
@[simp] theorem Dev.modClk_out (f : ClkSt → ClkSt) : (d.modClk f).out = d.out := rfl
@[simp] theorem Dev.modClk_mode (f : ClkSt → ClkSt) : (d.modClk f).mode = d.mode := rfl
@[simp] theorem Dev.modClk_evt (f : ClkSt → ClkSt) : (d.modClk f).evt = d.evt := rfl
@[simp] theorem Dev.modClk_keep (f : ClkSt → ClkSt) : (d.modClk f).keep = d.keep := rfl
@[simp] theorem Dev.modClk_mem (f : ClkSt → ClkSt) : (d.modClk f).mem = d.mem := rfl
@[simp] theorem Dev.modClk_time (f : ClkSt → ClkSt) : (d.modClk f).time = d.time := rfl
@[simp] theorem Dev.modClk_boot (f : ClkSt → ClkSt) : (d.modClk f).boot = d.boot := rfl
@[simp] theorem Dev.modClk_cap (f : ClkSt → ClkSt) : (d.modClk f).cap = d.cap := rfl
@[simp] theorem Dev.modClk_code (f : ClkSt → ClkSt) : (d.modClk f).code = d.code := rfl
@[simp] theorem Dev.modClk_freeCtr (f : ClkSt → ClkSt) : (d.modClk f).freeCtr = d.freeCtr := rfl
@[simp] theorem Dev.modClk_clk (f : ClkSt → ClkSt) : (d.modClk f).clk = f d.clk := rfl

/-! ### `Dev.modPwr` -/

@[simp] theorem Dev.modPwr_regs (f : PwrSt → PwrSt) : (d.modPwr f).regs = d.regs := rfl
@[simp] theorem Dev.modPwr_elapsed (f : PwrSt → PwrSt) : (d.modPwr f).elapsed = d.elapsed := rfl
@[simp] theorem Dev.modPwr_out (f : PwrSt → PwrSt) : (d.modPwr f).out = d.out := rfl
@[simp] theorem Dev.modPwr_mode (f : PwrSt → PwrSt) : (d.modPwr f).mode = d.mode := rfl
@[simp] theorem Dev.modPwr_evt (f : PwrSt → PwrSt) : (d.modPwr f).evt = d.evt := rfl
@[simp] theorem Dev.modPwr_keep (f : PwrSt → PwrSt) : (d.modPwr f).keep = d.keep := rfl
@[simp] theorem Dev.modPwr_mem (f : PwrSt → PwrSt) : (d.modPwr f).mem = d.mem := rfl
@[simp] theorem Dev.modPwr_time (f : PwrSt → PwrSt) : (d.modPwr f).time = d.time := rfl
@[simp] theorem Dev.modPwr_boot (f : PwrSt → PwrSt) : (d.modPwr f).boot = d.boot := rfl
@[simp] theorem Dev.modPwr_cap (f : PwrSt → PwrSt) : (d.modPwr f).cap = d.cap := rfl
@[simp] theorem Dev.modPwr_code (f : PwrSt → PwrSt) : (d.modPwr f).code = d.code := rfl
@[simp] theorem Dev.modPwr_freeCtr (f : PwrSt → PwrSt) : (d.modPwr f).freeCtr = d.freeCtr := rfl
@[simp] theorem Dev.modPwr_pwr (f : PwrSt → PwrSt) : (d.modPwr f).pwr = f d.pwr := rfl

/-! ### `Dev.modTherm` -/

@[simp] theorem Dev.modTherm_regs (f : ThermSt → ThermSt) : (d.modTherm f).regs = d.regs := rfl
@[simp] theorem Dev.modTherm_elapsed (f : ThermSt → ThermSt) : (d.modTherm f).elapsed = d.elapsed := rfl
@[simp] theorem Dev.modTherm_out (f : ThermSt → ThermSt) : (d.modTherm f).out = d.out := rfl
@[simp] theorem Dev.modTherm_mode (f : ThermSt → ThermSt) : (d.modTherm f).mode = d.mode := rfl
@[simp] theorem Dev.modTherm_evt (f : ThermSt → ThermSt) : (d.modTherm f).evt = d.evt := rfl
@[simp] theorem Dev.modTherm_keep (f : ThermSt → ThermSt) : (d.modTherm f).keep = d.keep := rfl
@[simp] theorem Dev.modTherm_mem (f : ThermSt → ThermSt) : (d.modTherm f).mem = d.mem := rfl
@[simp] theorem Dev.modTherm_time (f : ThermSt → ThermSt) : (d.modTherm f).time = d.time := rfl
@[simp] theorem Dev.modTherm_boot (f : ThermSt → ThermSt) : (d.modTherm f).boot = d.boot := rfl
@[simp] theorem Dev.modTherm_cap (f : ThermSt → ThermSt) : (d.modTherm f).cap = d.cap := rfl
@[simp] theorem Dev.modTherm_code (f : ThermSt → ThermSt) : (d.modTherm f).code = d.code := rfl
@[simp] theorem Dev.modTherm_freeCtr (f : ThermSt → ThermSt) : (d.modTherm f).freeCtr = d.freeCtr := rfl
@[simp] theorem Dev.modTherm_therm (f : ThermSt → ThermSt) : (d.modTherm f).therm = f d.therm := rfl

/-! ### `Dev.modBoot` -/

@[simp] theorem Dev.modBoot_regs (f : BootSt → BootSt) : (d.modBoot f).regs = d.regs := rfl
@[simp] theorem Dev.modBoot_elapsed (f : BootSt → BootSt) : (d.modBoot f).elapsed = d.elapsed := rfl
@[simp] theorem Dev.modBoot_out (f : BootSt → BootSt) : (d.modBoot f).out = d.out := rfl
@[simp] theorem Dev.modBoot_mode (f : BootSt → BootSt) : (d.modBoot f).mode = d.mode := rfl
@[simp] theorem Dev.modBoot_evt (f : BootSt → BootSt) : (d.modBoot f).evt = d.evt := rfl
@[simp] theorem Dev.modBoot_keep (f : BootSt → BootSt) : (d.modBoot f).keep = d.keep := rfl
@[simp] theorem Dev.modBoot_mem (f : BootSt → BootSt) : (d.modBoot f).mem = d.mem := rfl
@[simp] theorem Dev.modBoot_time (f : BootSt → BootSt) : (d.modBoot f).time = d.time := rfl
@[simp] theorem Dev.modBoot_cap (f : BootSt → BootSt) : (d.modBoot f).cap = d.cap := rfl
@[simp] theorem Dev.modBoot_code (f : BootSt → BootSt) : (d.modBoot f).code = d.code := rfl
@[simp] theorem Dev.modBoot_freeCtr (f : BootSt → BootSt) : (d.modBoot f).freeCtr = d.freeCtr := rfl
@[simp] theorem Dev.modBoot_boot (f : BootSt → BootSt) : (d.modBoot f).boot = f d.boot := rfl

/-! ### `Dev.modShed` -/

@[simp] theorem Dev.modShed_regs (f : ShedSt → ShedSt) : (d.modShed f).regs = d.regs := rfl
@[simp] theorem Dev.modShed_elapsed (f : ShedSt → ShedSt) : (d.modShed f).elapsed = d.elapsed := rfl
@[simp] theorem Dev.modShed_out (f : ShedSt → ShedSt) : (d.modShed f).out = d.out := rfl
@[simp] theorem Dev.modShed_mode (f : ShedSt → ShedSt) : (d.modShed f).mode = d.mode := rfl
@[simp] theorem Dev.modShed_evt (f : ShedSt → ShedSt) : (d.modShed f).evt = d.evt := rfl
@[simp] theorem Dev.modShed_keep (f : ShedSt → ShedSt) : (d.modShed f).keep = d.keep := rfl
@[simp] theorem Dev.modShed_mem (f : ShedSt → ShedSt) : (d.modShed f).mem = d.mem := rfl
@[simp] theorem Dev.modShed_time (f : ShedSt → ShedSt) : (d.modShed f).time = d.time := rfl
@[simp] theorem Dev.modShed_boot (f : ShedSt → ShedSt) : (d.modShed f).boot = d.boot := rfl
@[simp] theorem Dev.modShed_cap (f : ShedSt → ShedSt) : (d.modShed f).cap = d.cap := rfl
@[simp] theorem Dev.modShed_code (f : ShedSt → ShedSt) : (d.modShed f).code = d.code := rfl
@[simp] theorem Dev.modShed_freeCtr (f : ShedSt → ShedSt) : (d.modShed f).freeCtr = d.freeCtr := rfl
@[simp] theorem Dev.modShed_shed (f : ShedSt → ShedSt) : (d.modShed f).shed = f d.shed := rfl

end Sys2Proof.Machine
end

