-- ==== Sys2Proof/Laws/Registers.lean ====
section
/-!
SUPPORT. Reading back what was put: sparse lists, fields of a word, registers and their fields.
-/
namespace Sys2Proof.Machine

/-! ### Sparse lists -/

theorem Sparse.get_erase_same {α : Type} (dflt : Nat → α) (m : Sparse α) (k : Nat) : Sparse.get dflt (m.erase k) k = dflt k := by
  induction m with
  | nil => rfl
  | cons e rest ih =>
    obtain ⟨k', v⟩ := e
    simp only [Sparse.erase]
    split
    · exact ih
    · simp only [Sparse.get]
      rw [if_neg ‹_›]
      exact ih

theorem Sparse.get_erase_ne {α : Type} (dflt : Nat → α) (m : Sparse α) {k j : Nat} (h : j ≠ k) :
    Sparse.get dflt (m.erase k) j = Sparse.get dflt m j := by
  induction m with
  | nil => rfl
  | cons e rest ih =>
    obtain ⟨k', v⟩ := e
    simp only [Sparse.erase, Sparse.get]
    split
    · subst_vars
      rw [ih, if_neg (fun e => h e.symm)]
    · simp only [Sparse.get, ih]

theorem Sparse.get_insert_same {α : Type} (dflt : Nat → α) (m : Sparse α) (k : Nat) (v : α) (hn : ∀ e ∈ m, e.1 ≠ k) :
    Sparse.get dflt (m.insert k v) k = v := by
  induction m with
  | nil => simp [Sparse.insert, Sparse.get]
  | cons e rest ih =>
    obtain ⟨k', w⟩ := e
    have hk : k' ≠ k := hn (k', w) (by simp)
    simp only [Sparse.insert]
    split
    · simp [Sparse.get]
    · simp only [Sparse.get]
      rw [if_neg hk]
      exact ih (fun e he => hn e (by simp [he]))

theorem Sparse.get_insert_ne {α : Type} (dflt : Nat → α) (m : Sparse α) {k j : Nat} (v : α) (h : j ≠ k) :
    Sparse.get dflt (m.insert k v) j = Sparse.get dflt m j := by
  induction m with
  | nil => simp [Sparse.insert, Sparse.get, Ne.symm h]
  | cons e rest ih =>
    obtain ⟨k', w⟩ := e
    simp only [Sparse.insert]
    split
    · simp [Sparse.get, Ne.symm h]
    · simp only [Sparse.get, ih]

theorem Sparse.mem_erase_ne {α : Type} (m : Sparse α) (k : Nat) : ∀ e ∈ m.erase k, e.1 ≠ k := by
  induction m with
  | nil => simp [Sparse.erase]
  | cons e rest ih =>
    obtain ⟨k', v⟩ := e
    simp only [Sparse.erase]
    split
    · exact ih
    · intro e he
      rcases List.mem_cons.mp he with rfl | he
      · assumption
      · exact ih e he

/-- What was put at a key is read there. -/
@[simp] theorem Sparse.get_put_same {α : Type} [DecidableEq α] (dflt : Nat → α) (m : Sparse α) (k : Nat) (v : α) :
    Sparse.get dflt (Sparse.put dflt m k v) k = v := by
  unfold Sparse.put
  split
  · subst_vars
    exact Sparse.get_erase_same dflt m k
  · exact Sparse.get_insert_same dflt _ k v (Sparse.mem_erase_ne m k)

/-- Putting at a key leaves every other key. -/
theorem Sparse.get_put_ne {α : Type} [DecidableEq α] (dflt : Nat → α) (m : Sparse α) {k j : Nat} (v : α) (h : j ≠ k) :
    Sparse.get dflt (Sparse.put dflt m k v) j = Sparse.get dflt m j := by
  unfold Sparse.put
  split
  · exact Sparse.get_erase_ne dflt m h
  · rw [Sparse.get_insert_ne _ _ _ h, Sparse.get_erase_ne _ _ h]

/-! ### Fields of a word -/

/-- Below 2^32 the word made of a field's new value is that number. -/
theorem setField_toNat (w : Word) {lo width : Nat} (v : Nat) (h : lo + width ≤ 32) :
    (w.setField lo width v).toNat =
      w.toNat % 2 ^ lo + (v % 2 ^ width) * 2 ^ lo + w.toNat / 2 ^ (lo + width) * 2 ^ (lo + width) := by
  unfold Word.setField
  rw [BitVec.toNat_ofNat]
  apply Nat.mod_eq_of_lt
  have hw := w.isLt
  have h1 : w.toNat % 2 ^ lo < 2 ^ lo := Nat.mod_lt _ (by positivity)
  have h2 : v % 2 ^ width < 2 ^ width := Nat.mod_lt _ (by positivity)
  have h3 : (v % 2 ^ width + 1) * 2 ^ lo ≤ 2 ^ width * 2 ^ lo := Nat.mul_le_mul_right _ h2
  have h4 : 2 ^ (lo + width) = 2 ^ width * 2 ^ lo := by rw [pow_add, Nat.mul_comm]
  have h5 : (w.toNat / 2 ^ (lo + width) + 1) * 2 ^ (lo + width) ≤ 2 ^ 32 := by
    have : w.toNat / 2 ^ (lo + width) < 2 ^ (32 - (lo + width)) := by
      apply Nat.div_lt_of_lt_mul
      rw [← pow_add, Nat.add_sub_cancel' h]
      exact hw
    calc (w.toNat / 2 ^ (lo + width) + 1) * 2 ^ (lo + width) ≤ 2 ^ (32 - (lo + width)) * 2 ^ (lo + width) :=
          Nat.mul_le_mul_right _ this
      _ = 2 ^ 32 := by rw [← pow_add, Nat.sub_add_cancel h]
  rw [Nat.add_mul, Nat.one_mul] at h3 h5
  omega

/-- A field reads back what was put into it, wrapped to its width. -/
theorem field_setField_same (w : Word) {lo width : Nat} (v : Nat) (h : lo + width ≤ 32) :
    (w.setField lo width v).field lo width = v % 2 ^ width := by
  unfold Word.field
  rw [setField_toNat w v h]
  have h1 : w.toNat % 2 ^ lo < 2 ^ lo := Nat.mod_lt _ (by positivity)
  have h4 : 2 ^ (lo + width) = 2 ^ width * 2 ^ lo := by rw [pow_add, Nat.mul_comm]
  have : w.toNat % 2 ^ lo + v % 2 ^ width * 2 ^ lo + w.toNat / 2 ^ (lo + width) * 2 ^ (lo + width) =
      w.toNat % 2 ^ lo + 2 ^ lo * (v % 2 ^ width + w.toNat / 2 ^ (lo + width) * 2 ^ width) := by
    rw [h4]
    ring
  rw [this, Nat.add_mul_div_left _ _ (by positivity), Nat.div_eq_of_lt h1, Nat.zero_add, Nat.add_mul_mod_self_right]
  exact Nat.mod_mod _ _

/-- A field below the one that was put keeps its value. -/
theorem field_setField_below (w : Word) {lo width a b : Nat} (v : Nat) (h : lo + width ≤ 32) (hd : a + b ≤ lo) :
    (w.setField lo width v).field a b = w.field a b := by
  unfold Word.field
  rw [setField_toNat w v h]
  have e1 : 2 ^ lo = 2 ^ (a + b) * 2 ^ (lo - (a + b)) := by rw [← pow_add, Nat.add_sub_cancel' hd]
  have e2 : 2 ^ (lo + width) = 2 ^ lo * 2 ^ width := pow_add _ _ _
  have key : ∀ x : Nat, x / 2 ^ a % 2 ^ b = x % 2 ^ (a + b) / 2 ^ a := fun x => by
    rw [pow_add, Nat.mod_mul_right_div_self]
  rw [key, key]
  congr 1
  have : w.toNat % 2 ^ lo + v % 2 ^ width * 2 ^ lo + w.toNat / 2 ^ (lo + width) * 2 ^ (lo + width) =
      w.toNat % 2 ^ lo + 2 ^ (a + b) * (2 ^ (lo - (a + b)) * (v % 2 ^ width + w.toNat / 2 ^ (lo + width) * 2 ^ width)) := by
    rw [e2, e1]
    ring
  rw [this, Nat.add_mul_mod_self_left]
  exact Nat.mod_mod_of_dvd _ ⟨_, e1⟩

/-- A field above the one that was put keeps its value. -/
theorem field_setField_above (w : Word) {lo width a b : Nat} (v : Nat) (h : lo + width ≤ 32) (hd : lo + width ≤ a) :
    (w.setField lo width v).field a b = w.field a b := by
  unfold Word.field
  rw [setField_toNat w v h]
  have h1 : w.toNat % 2 ^ lo < 2 ^ lo := Nat.mod_lt _ (by positivity)
  have h2 : v % 2 ^ width < 2 ^ width := Nat.mod_lt _ (by positivity)
  have h3 : (v % 2 ^ width + 1) * 2 ^ lo ≤ 2 ^ width * 2 ^ lo := Nat.mul_le_mul_right _ h2
  rw [Nat.add_mul, Nat.one_mul] at h3
  have h4 : 2 ^ (lo + width) = 2 ^ width * 2 ^ lo := by rw [pow_add, Nat.mul_comm]
  have e : 2 ^ a = 2 ^ (lo + width) * 2 ^ (a - (lo + width)) := by rw [← pow_add, Nat.add_sub_cancel' hd]
  have hlt : w.toNat % 2 ^ lo + v % 2 ^ width * 2 ^ lo < 2 ^ (lo + width) := by omega
  rw [e, ← Nat.div_div_eq_div_mul, ← Nat.div_div_eq_div_mul, Nat.mul_comm (w.toNat / 2 ^ (lo + width)),
    Nat.add_mul_div_left _ _ (by positivity), Nat.div_eq_of_lt hlt, Nat.zero_add]

/-- A number of a field is below 2 to the field's width. -/
theorem field_lt (w : Word) (lo width : Nat) : w.field lo width < 2 ^ width := Nat.mod_lt _ (by positivity)

/-! ### Registers and their fields -/

@[simp] theorem Dev.word_setWord_same (d : Dev) (a : Nat) (w : Word) : (d.setWord a w).word a = w := by
  simp [Dev.setWord, Dev.word]

theorem Dev.word_setWord_ne (d : Dev) {a b : Nat} (w : Word) (h : b ≠ a) : (d.setWord a w).word b = d.word b := by
  simp [Dev.setWord, Dev.word, Sparse.get_put_ne _ _ _ h]

theorem Dev.effWord_setWord (d : Dev) (a b : Nat) (w : Word) : (d.setWord a w).effWord b = d.effWord b := rfl

theorem Dev.word_setEff (d : Dev) (a b : Nat) (w : Word) : (d.setEff a w).word b = d.word b := rfl

theorem Dev.word_set_ne (d : Dev) (f : Fld) (v : Nat) {a : Nat} (h : a ≠ f.addr) : (d.set f v).word a = d.word a :=
  Dev.word_setWord_ne d _ h

/-- A field reads back what was put into it, wrapped to its width. -/
theorem Dev.get_set_same (d : Dev) (f : Fld) (v : Nat) (h : f.ok) : (d.set f v).get f = v % 2 ^ f.width := by
  simp only [Dev.get, Dev.set, Dev.word_setWord_same]
  exact field_setField_same _ _ h

/-- Putting a field leaves every field that shares no bit with it. -/
theorem Dev.get_set_apart (d : Dev) (f g : Fld) (v : Nat) (h : f.ok) (hd : g.apart f) : (d.set f v).get g = d.get g := by
  simp only [Dev.get, Dev.set]
  by_cases ha : g.addr = f.addr
  · rw [ha, Dev.word_setWord_same]
    rcases hd with hd | hd | hd
    · exact absurd ha hd
    · exact field_setField_below _ _ h hd
    · exact field_setField_above _ _ h hd
  · rw [Dev.word_setWord_ne d _ ha]

theorem Dev.flag_set_apart (d : Dev) (f g : Fld) (v : Nat) (h : f.ok) (hd : g.apart f) : (d.set f v).flag g = d.flag g := by
  simp only [Dev.flag, Dev.get_set_apart d f g v h hd]

theorem Dev.get_bump_same (d : Dev) (f : Fld) (h : f.ok) : (d.bump f).get f = (d.get f + 1) % 2 ^ f.width :=
  Dev.get_set_same d f _ h

theorem Dev.get_setFlag_same (d : Dev) (f : Fld) (b : Bool) (h : f.ok) (hw : f.width = 1) : (d.setFlag f b).get f = b2n b := by
  unfold Dev.setFlag
  rw [Dev.get_set_same d f _ h, hw]
  cases b <;> rfl

theorem Dev.flag_setFlag_same (d : Dev) (f : Fld) (b : Bool) (h : f.ok) (hw : f.width = 1) : (d.setFlag f b).flag f = b := by
  unfold Dev.flag
  rw [Dev.get_setFlag_same d f b h hw]
  cases b <;> rfl

theorem Dev.get_lt (d : Dev) (f : Fld) : d.get f < 2 ^ f.width := field_lt _ _ _

theorem Dev.word_congr {d e : Dev} (h : d.regs = e.regs) (a : Nat) : d.word a = e.word a := by
  simp only [Dev.word, h]

theorem Dev.get_congr {d e : Dev} (h : d.regs = e.regs) (f : Fld) : d.get f = e.get f := by
  simp only [Dev.get, Dev.word_congr h]

/-! ### Frames over fields -/

theorem Dev.FieldsKept.refl (d : Dev) (fs : List Fld) : d.FieldsKept d fs := fun _ _ _ => rfl

theorem Dev.FieldsKept.trans {d e f : Dev} {fs : List Fld} (h : d.FieldsKept e fs) (k : e.FieldsKept f fs) : d.FieldsKept f fs :=
  fun g hg ha => (k g hg ha).trans (h g hg ha)

theorem Dev.FieldsKept.mono {d e : Dev} {fs gs : List Fld} (h : d.FieldsKept e fs) (hs : ∀ f ∈ fs, f ∈ gs) : d.FieldsKept e gs :=
  fun g hg ha => h g hg (fun f hf => ha f (hs f hf))

theorem Dev.FieldsKept.of_regs {d e : Dev} (h : e.regs = d.regs) (fs : List Fld) : d.FieldsKept e fs :=
  fun g _ _ => Dev.get_congr h g

/-- Putting a field of the list keeps every other. -/
theorem Dev.set_kept (d : Dev) {f : Fld} (v : Nat) {fs : List Fld} (h : f ∈ fs) (hf : f.ok) : d.FieldsKept (d.set f v) fs :=
  fun g _ ha => Dev.get_set_apart d f g v hf (ha f h)

/-- A command's gate is open: the write has its effect. -/
theorem Dev.gateWrite_open {d : Dev} {a : Nat} (h : d.Reaches a) (port : Nat) (v : Word) (f : Dev → Dev) :
    d.gateWrite port a v f = f d := by
  unfold Dev.gateWrite
  simp [h.boot, h.brumate, h.clock, h.transition, h.blockReset, h.gate]

end Sys2Proof.Machine
end

