-- ==== Sys2Proof/Laws/Events.lean ====
section
/-!
SUPPORT. What raising an event can do, said once (`Dev.Reports`): it changes the registers of EVT, the count of lost events, the
ring in AUX, the fault log and the outputs, and nothing else of the block.
-/
namespace Sys2Proof.Machine

theorem Dev.Touches.refl (d : Dev) (rs : List Nat) : d.Touches rs d := ⟨rfl, fun _ _ => rfl, rfl, [], by simp⟩

theorem Dev.Touches.trans {a b c : Dev} {rs : List Nat} (h : a.Touches rs b) (k : b.Touches rs c) : a.Touches rs c := by
  refine ⟨?_, fun x hx => (k.words x hx).trans (h.words x hx), k.eff.trans h.eff, ?_⟩
  · have h1 := h.same
    have k1 := k.same
    rw [h1] at k1
    exact k1
  · obtain ⟨l, hl⟩ := h.out
    obtain ⟨m, hm⟩ := k.out
    exact ⟨l ++ m, by rw [hm, hl, List.append_assoc]⟩

/-- More registers may always be touched. -/
theorem Dev.Touches.mono {d e : Dev} {rs ss : List Nat} (h : d.Touches rs e) (hs : ∀ a ∈ rs, a ∈ ss) : d.Touches ss e :=
  ⟨h.same, fun a ha => h.words a (fun x => ha (hs a x)), h.eff, h.out⟩

/-- A field of a register that is not touched keeps its value. -/
theorem Dev.Touches.get {d e : Dev} {rs : List Nat} (h : d.Touches rs e) (f : Fld) (hf : f.addr ∉ rs) : e.get f = d.get f := by
  simp only [Dev.get, h.words _ hf]

theorem Dev.Touches.flag {d e : Dev} {rs : List Nat} (h : d.Touches rs e) (f : Fld) (hf : f.addr ∉ rs) : e.flag f = d.flag f := by
  simp only [Dev.flag, h.get f hf]

theorem Dev.Touches.effWord {d e : Dev} {rs : List Nat} (h : d.Touches rs e) (a : Nat) : e.effWord a = d.effWord a := by
  simp only [Dev.effWord, h.eff]

theorem Dev.Touches.eget {d e : Dev} {rs : List Nat} (h : d.Touches rs e) (f : Fld) : e.eget f = d.eget f := by
  simp only [Dev.eget, h.effWord]

/-- Fields outside the registers touched are kept. -/
theorem Dev.Touches.kept {d e : Dev} {rs : List Nat} (h : d.Touches rs e) (fs : List Fld) (hf : ∀ a ∈ rs, wholeReg a ∈ fs) :
    d.FieldsKept e fs := by
  intro g hg ha
  by_cases hm : g.addr ∈ rs
  · rcases ha _ (hf _ hm) with h1 | h1 | h1
    · exact absurd rfl h1
    · have h0 : g.width = 0 := by simp only [wholeReg, Fld.ok] at h1 hg; omega
      simp only [Dev.get, Word.field, h0, pow_zero, Nat.mod_one]
    · have h0 : g.width = 0 := by simp only [wholeReg, Fld.ok] at h1 hg; omega
      simp only [Dev.get, Word.field, h0, pow_zero, Nat.mod_one]
  · exact h.get g hm

theorem Dev.Touches.elapsed {d e : Dev} {rs : List Nat} (h : d.Touches rs e) : e.elapsed = d.elapsed := by rw [h.same]
theorem Dev.Touches.boot {d e : Dev} {rs : List Nat} (h : d.Touches rs e) : e.boot = d.boot := by rw [h.same]
theorem Dev.Touches.mode {d e : Dev} {rs : List Nat} (h : d.Touches rs e) : e.mode = d.mode := by rw [h.same]
theorem Dev.Touches.blockReset {d e : Dev} {rs : List Nat} (h : d.Touches rs e) : e.blockReset = d.blockReset := by rw [h.same]
theorem Dev.Touches.time {d e : Dev} {rs : List Nat} (h : d.Touches rs e) : e.time = d.time := by rw [h.same]
theorem Dev.Touches.ep0Up {d e : Dev} {rs : List Nat} (h : d.Touches rs e) : e.ep0Up = d.ep0Up := by rw [h.same]
theorem Dev.Touches.windows {d e : Dev} {rs : List Nat} (h : d.Touches rs e) : e.windows = d.windows := by rw [h.same]
theorem Dev.Touches.link {d e : Dev} {rs : List Nat} (h : d.Touches rs e) : e.link = d.link := by rw [h.same]
theorem Dev.Touches.trig {d e : Dev} {rs : List Nat} (h : d.Touches rs e) : e.trig = d.trig := by rw [h.same]
theorem Dev.Touches.exps {d e : Dev} {rs : List Nat} (h : d.Touches rs e) : e.exps = d.exps := by rw [h.same]
theorem Dev.Touches.cap {d e : Dev} {rs : List Nat} (h : d.Touches rs e) : e.cap = d.cap := by rw [h.same]
theorem Dev.Touches.wheels {d e : Dev} {rs : List Nat} (h : d.Touches rs e) : e.wheels = d.wheels := by rw [h.same]
theorem Dev.Touches.rawEntries {d e : Dev} {rs : List Nat} (h : d.Touches rs e) : e.rawEntries = d.rawEntries := by rw [h.same]
theorem Dev.Touches.rawNext {d e : Dev} {rs : List Nat} (h : d.Touches rs e) : e.rawNext = d.rawNext := by rw [h.same]
theorem Dev.Touches.dmap {d e : Dev} {rs : List Nat} (h : d.Touches rs e) : e.dmap = d.dmap := by rw [h.same]
theorem Dev.Touches.journal {d e : Dev} {rs : List Nat} (h : d.Touches rs e) : e.journal = d.journal := by rw [h.same]
theorem Dev.Touches.luts {d e : Dev} {rs : List Nat} (h : d.Touches rs e) : e.luts = d.luts := by rw [h.same]
theorem Dev.Touches.holds {d e : Dev} {rs : List Nat} (h : d.Touches rs e) : e.holds = d.holds := by rw [h.same]
theorem Dev.Touches.brNext {d e : Dev} {rs : List Nat} (h : d.Touches rs e) : e.brNext = d.brNext := by rw [h.same]
theorem Dev.Touches.deSets {d e : Dev} {rs : List Nat} (h : d.Touches rs e) : e.deSets = d.deSets := by rw [h.same]
theorem Dev.Touches.ze {d e : Dev} {rs : List Nat} (h : d.Touches rs e) : e.ze = d.ze := by rw [h.same]
theorem Dev.Touches.recd {d e : Dev} {rs : List Nat} (h : d.Touches rs e) : e.recd = d.recd := by rw [h.same]
theorem Dev.Touches.code {d e : Dev} {rs : List Nat} (h : d.Touches rs e) : e.code = d.code := by rw [h.same]
theorem Dev.Touches.shed {d e : Dev} {rs : List Nat} (h : d.Touches rs e) : e.shed = d.shed := by rw [h.same]
theorem Dev.Touches.decs {d e : Dev} {rs : List Nat} (h : d.Touches rs e) : e.decs = d.decs := by rw [h.same]
theorem Dev.Touches.ras {d e : Dev} {rs : List Nat} (h : d.Touches rs e) : e.ras = d.ras := by rw [h.same]
theorem Dev.Touches.gk {d e : Dev} {rs : List Nat} (h : d.Touches rs e) : e.gk = d.gk := by rw [h.same]
theorem Dev.Touches.aud {d e : Dev} {rs : List Nat} (h : d.Touches rs e) : e.aud = d.aud := by rw [h.same]
theorem Dev.Touches.net {d e : Dev} {rs : List Nat} (h : d.Touches rs e) : e.net = d.net := by rw [h.same]
theorem Dev.Touches.clk {d e : Dev} {rs : List Nat} (h : d.Touches rs e) : e.clk = d.clk := by rw [h.same]
theorem Dev.Touches.pwr {d e : Dev} {rs : List Nat} (h : d.Touches rs e) : e.pwr = d.pwr := by rw [h.same]
theorem Dev.Touches.therm {d e : Dev} {rs : List Nat} (h : d.Touches rs e) : e.therm = d.therm := by rw [h.same]
theorem Dev.Touches.srv {d e : Dev} {rs : List Nat} (h : d.Touches rs e) : e.srv = d.srv := by rw [h.same]

/-! ### The parts of it -/

/-- A change of parts that reporting may change, which leaves the registers. -/
theorem Dev.Touches.of_same {d e : Dev} {rs : List Nat} (hs : e = { d with out := e.out, evt := e.evt, keep := e.keep, mem := e.mem, freeCtr := e.freeCtr })
    (ho : ∃ l, e.out = d.out ++ l) : d.Touches rs e := by
  have hr : e.regs = d.regs := by rw [hs]
  refine ⟨?_, fun a _ => ?_, by rw [hr], ho⟩
  · rw [hr]
    exact hs
  · simp only [Dev.word, hr]

theorem Dev.set_touches (d : Dev) (f : Fld) (v : Nat) {rs : List Nat} (hf : f.addr ∈ rs) : d.Touches rs (d.set f v) :=
  ⟨rfl, fun a ha => Dev.word_set_ne d f v (fun e => ha (e ▸ hf)), rfl, [], by simp⟩

theorem Dev.emit_touches {rs : List Nat} (d : Dev) (o : Output) : d.Touches rs (d.emit o) := Dev.Touches.of_same rfl ⟨[o], rfl⟩

theorem Dev.keepWrite_touches {rs : List Nat} (d : Dev) (a : Nat) (bs : List Byte) : d.Touches rs (d.keepWrite a bs) :=
  Dev.Touches.of_same rfl ⟨[], by simp⟩

theorem Dev.setCell_touches {rs : List Nat} (d : Dev) (h l : Nat) (b : Byte) : d.Touches rs (d.setCell h l b) := by
  unfold Dev.setCell
  split
  · exact Dev.Touches.of_same rfl ⟨[], by simp⟩
  · exact Dev.Touches.refl d _

theorem foldl_touches {α : Type} {rs : List Nat} {f : Dev → α → Dev} (hf : ∀ d x, Dev.Touches d rs (f d x)) (l : List α) (d : Dev) :
    d.Touches rs (l.foldl f d) := by
  induction l generalizing d with
  | nil => exact Dev.Touches.refl d _
  | cons x l ih => exact (hf d x).trans (ih _)

theorem Dev.freshBlock_touches (d : Dev) (h l : Nat) : d.Touches [R.MEM_INJ_CTRL] (d.freshBlock h l) := by
  have h0 : d.Touches [R.MEM_INJ_CTRL] ((d.setPoison h l false).clearErr h l) := Dev.Touches.of_same rfl ⟨[], by simp [Dev.setPoison, Dev.clearErr]⟩
  unfold Dev.freshBlock
  simp only []
  split
  · exact h0
  · split
    · exact h0
    · refine h0.trans (Dev.Touches.trans ?_ (Dev.set_touches _ F.MEM_INJ_CTRL_GO 0 (by decide)))
      exact Dev.Touches.of_same rfl ⟨[], by simp [Dev.tookFree]⟩

theorem Dev.stripeWrite_touches (d : Dev) (n s b i : Nat) (v : Byte) : d.Touches [R.MEM_INJ_CTRL] (d.stripeWrite n s b i v) :=
  (Dev.setCell_touches _ _ _ _).trans (Dev.setCell_touches _ _ _ _)

theorem Dev.writeOut_touches (d : Dev) (b : StripeBuf) : d.Touches [R.MEM_INJ_CTRL] (d.writeOut b) := by
  unfold Dev.writeOut
  refine Dev.Touches.trans (foldl_touches (fun d g => ?_) b.gran d) (Dev.Touches.of_same rfl ⟨[], by simp⟩)
  simp only []
  refine Dev.Touches.trans ?_ (foldl_touches (fun d i => Dev.stripeWrite_touches d _ _ _ _ _) _ _)
  exact (Dev.freshBlock_touches d _ _).trans (Dev.freshBlock_touches _ _ _)

theorem Dev.roomInHub_touches (d : Dev) (q : Nat) : d.Touches [R.MEM_INJ_CTRL] (d.roomInHub q) := by
  unfold Dev.roomInHub
  simp only []
  split
  · exact Dev.Touches.refl d _
  · split
    · exact Dev.writeOut_touches d _
    · exact Dev.Touches.refl d _

theorem Dev.holdGranule_touches (d : Dev) (n s g : Nat) (bytes : List Byte) : d.Touches [R.MEM_INJ_CTRL] (d.holdGranule n s g bytes) := by
  unfold Dev.holdGranule
  have h1 : d.Touches [R.MEM_INJ_CTRL] (if (d.bufOf? n s).isSome then d else d.roomInHub (s % 4)) := by
    split
    · exact Dev.Touches.refl d _
    · exact Dev.roomInHub_touches d _
  generalize (if (d.bufOf? n s).isSome then d else d.roomInHub (s % 4)) = d1 at h1
  refine h1.trans ?_
  simp only []
  split
  · exact Dev.Touches.trans (Dev.Touches.of_same rfl ⟨[], by simp⟩) (Dev.writeOut_touches _ _)
  · exact Dev.Touches.of_same rfl ⟨[], by simp⟩

theorem Dev.writeBlock_touches (d : Dev) (n o i : Nat) (bs : List Byte) : d.Touches [R.MEM_INJ_CTRL] (d.writeBlock n o i bs) := by
  unfold Dev.writeBlock
  simp only []
  split
  · exact Dev.Touches.refl d _
  · split
    · exact Dev.holdGranule_touches d _ _ _ _
    · exact (Dev.freshBlock_touches d _ _).trans (foldl_touches (fun d k => Dev.setCell_touches d _ _ _) _ _)

theorem Dev.writeBlocks_touches (fuel : Nat) (d : Dev) (n o : Nat) (bs : List Byte) : d.Touches [R.MEM_INJ_CTRL] (Dev.writeBlocks fuel d n o bs) := by
  induction fuel generalizing d o bs with
  | zero => exact Dev.Touches.refl d _
  | succ f ih =>
    unfold Dev.writeBlocks
    split
    · exact Dev.Touches.refl d _
    · exact (Dev.writeBlock_touches d _ _ _ _).trans (ih _ _ _)

/-- A write to a pool reports nothing, and changes no more than reporting may. -/
theorem Dev.poolWrite_touches (d : Dev) (n o : Nat) (bs : List Byte) : d.Touches [R.MEM_INJ_CTRL] (d.poolWrite n o bs) := by
  unfold Dev.poolWrite
  split
  · exact Dev.writeBlocks_touches _ d n o bs
  · exact Dev.Touches.refl d _

theorem Dev.sendMsix_touches {rs : List Nat} (d : Dev) (v : Nat) : d.Touches rs (d.sendMsix v) := by
  unfold Dev.sendMsix
  split
  · exact Dev.emit_touches d _
  · exact Dev.Touches.refl d _

theorem Dev.withIrq_touches {rs : List Nat} {d : Dev} {f : Dev → Dev} (h : d.Touches rs (f d)) : d.Touches rs (d.withIrq f) := by
  unfold Dev.withIrq
  simp only []
  split
  · exact h
  · exact h.trans (Dev.emit_touches _ _)

theorem Dev.signalEvent_touches (d : Dev) (sev : Nat) : d.Touches [R.EVT_IRQ_STATUS] (d.signalEvent sev) := by
  unfold Dev.signalEvent
  have h1 : d.Touches [R.EVT_IRQ_STATUS] (if d.get F.EVT_IRQ_CFG_IRQ_MIN ≤ sev then
      d.withIrq (fun d => d.set F.EVT_IRQ_STATUS_SEV (setBit (d.get F.EVT_IRQ_STATUS_SEV) sev true)) else d) := by
    split
    · exact Dev.withIrq_touches (Dev.set_touches d _ _ (by decide))
    · exact Dev.Touches.refl d _
  generalize (if d.get F.EVT_IRQ_CFG_IRQ_MIN ≤ sev then
      d.withIrq (fun d => d.set F.EVT_IRQ_STATUS_SEV (setBit (d.get F.EVT_IRQ_STATUS_SEV) sev true)) else d) = d1 at h1
  refine h1.trans ?_
  simp only []
  split
  · split
    · exact Dev.sendMsix_touches d1 _
    · split
      · exact Dev.Touches.of_same rfl ⟨[], by simp⟩
      · exact (Dev.sendMsix_touches d1 _).trans (Dev.Touches.of_same rfl ⟨[], by simp⟩)
  · exact Dev.Touches.refl d1 _

theorem Dev.faultLog_touches {rs : List Nat} (d : Dev) (e : EventRec) : d.Touches rs (d.faultLog e) := by
  unfold Dev.faultLog
  split
  · exact Dev.Touches.refl d _
  · simp only []
    have h : ∀ v : EvtSt, d.Touches rs { d with evt := v } := fun v => Dev.Touches.of_same rfl ⟨[], by simp⟩
    generalize (if d.evt.logSecond = d.elapsed / nsPerS then d.evt.logCount else 0) = n
    split
    · exact (h _).trans ((Dev.keepWrite_touches _ _ _).trans (Dev.keepWrite_touches _ _ _))
    · exact (h _).trans (Dev.keepWrite_touches _ _ _)

theorem Dev.ringWrite_reports (d : Dev) (e : EventRec) : d.Reports (d.ringWrite e) := by
  unfold Dev.ringWrite
  simp only []
  refine Dev.Touches.trans ?_ ((Dev.signalEvent_touches _ _).mono (by decide))
  refine Dev.Touches.trans ?_ (Dev.faultLog_touches _ _)
  refine Dev.Touches.trans ?_ (Dev.set_touches _ _ _ (by decide))
  refine Dev.Touches.trans ?_ ((Dev.poolWrite_touches _ _ _ _).mono (by decide))
  split
  · exact (Dev.set_touches _ _ _ (by decide)).trans (Dev.set_touches _ _ _ (by decide))
  · exact Dev.Touches.refl d _

/-- Raising an event is a report. -/
theorem Dev.raiseFrom_reports (d : Dev) (code sev source : Nat) (noInst : Bool) (ctx : Nat) (items : List Item) :
    d.Reports (d.raiseFrom code sev source noInst ctx items) := by
  unfold Dev.raiseFrom
  have h : ∀ v : EvtSt, d.Reports { d with evt := v } := fun v => Dev.Touches.of_same rfl ⟨[], by simp⟩
  simp only []
  split
  · exact (h _).trans (Dev.ringWrite_reports _ _)
  · split
    · exact (h _).trans (Dev.set_touches _ _ _ (by decide))
    · split
      · exact (h _).trans (Dev.set_touches _ _ _ (by decide))
      · exact (h _).trans (Dev.set_touches _ _ _ (by decide))

theorem Dev.raise_reports (d : Dev) (code sev : Nat) (inst : Option Nat) (ctx : Nat) (items : List Item) :
    d.Reports (d.raise code sev inst ctx items) := by
  unfold Dev.raise
  split
  · exact Dev.raiseFrom_reports ..
  · exact Dev.raiseFrom_reports ..

theorem Dev.event_reports (d : Dev) (code sev : Nat) (items : List Item) : d.Reports (d.event code sev items) :=
  Dev.raise_reports ..

theorem Dev.eventAt_reports (d : Dev) (code sev inst : Nat) (items : List Item) : d.Reports (d.eventAt code sev inst items) :=
  Dev.raise_reports ..

theorem Dev.eventCtx_reports (d : Dev) (code sev inst ctx : Nat) (items : List Item) :
    d.Reports (d.eventCtx code sev inst ctx items) := Dev.raise_reports ..

theorem Dev.cfgNonlive_reports (d : Dev) (a : Nat) : d.Reports (d.cfgNonlive a) := Dev.raiseFrom_reports ..

theorem Dev.cfgZero_reports (d : Dev) (a : Nat) : d.Reports (d.cfgZero a) := Dev.raiseFrom_reports ..

theorem Dev.flushHeld_reports (d : Dev) : d.Reports d.flushHeld := by
  unfold Dev.flushHeld
  simp only []
  refine Dev.Touches.trans ?_ (foldl_touches (fun d e => Dev.ringWrite_reports d e) _ _)
  have h : ∀ v : EvtSt, d.Reports { d with evt := v } := fun v => Dev.Touches.of_same rfl ⟨[], by simp⟩
  exact (h _).trans (Dev.set_touches _ _ _ (by decide))

end Sys2Proof.Machine
end

