-- ==== Sys2Proof/Laws/Retention.lean ====
section
/-!
SUPPORT. The register map is sound (fields lie within a register and share no bit), and what a reset leaves of a register (R73).
-/
namespace Sys2Proof.Machine

/-! ### The register map -/

/-- Whether two fields of a register share no bit. -/
def FieldSpec.apart (f g : FieldSpec) : Bool := decide (f.lo + f.width ≤ g.lo) || decide (g.lo + g.width ≤ f.lo)

/-- Whether fields lie within 32 bits and share none. -/
def soundFields : List FieldSpec → Bool
  | [] => true
  | f :: rest => decide (f.lo + f.width ≤ 32) && rest.all f.apart && soundFields rest

theorem regsAt_sound (a : Nat) : ((regsAt a).all fun r => soundFields r.fields) = true := by
  unfold regsAt
  split <;> rfl

/-- The fields of every register lie within 32 bits and share no bit. -/
theorem fieldsAt_sound (a : Nat) : soundFields (fieldsAt a) = true := by
  unfold fieldsAt
  split
  · next r h =>
    have hm := List.mem_of_find?_eq_some h
    exact List.all_eq_true.mp (regsAt_sound a) r hm
  · rfl

theorem fieldsAt_ok {a : Nat} {f : FieldSpec} (h : f ∈ fieldsAt a) : f.lo + f.width ≤ 32 := by
  have hs := fieldsAt_sound a
  generalize fieldsAt a = l at h hs
  induction l with
  | nil => cases h
  | cons g rest ih =>
    simp only [soundFields, Bool.and_eq_true, decide_eq_true_eq] at hs
    rcases List.mem_cons.mp h with rfl | h
    · exact hs.1.1
    · exact ih h hs.2

/-! ### What a reset leaves (R73) -/

/-- A field that shares no bit with those put keeps its value through the puts. -/
theorem keptFold_other (keep : FieldSpec → Bool) (w : Word) (l : List FieldSpec) (x : Word) {f : FieldSpec}
    (hl : soundFields l = true) (hf : l.all f.apart = true) :
    (l.foldl (fun (x : Word) g => if keep g then x.setField g.lo g.width (w.field g.lo g.width) else x) x).field f.lo f.width =
      x.field f.lo f.width := by
  induction l generalizing x with
  | nil => rfl
  | cons g rest ih =>
    simp only [soundFields, List.all_cons, Bool.and_eq_true, decide_eq_true_eq] at hl hf
    rw [List.foldl_cons, ih _ hl.2 hf.2]
    split
    · have h1 := hf.1
      simp only [FieldSpec.apart, Bool.or_eq_true, decide_eq_true_eq] at h1
      rcases h1 with h1 | h1
      · exact field_setField_below _ _ hl.1.1 h1
      · exact field_setField_above _ _ hl.1.1 h1
    · rfl

theorem keptFold_field (keep : FieldSpec → Bool) (w : Word) (l : List FieldSpec) (x : Word) {f : FieldSpec}
    (hl : soundFields l = true) (hf : f ∈ l) :
    (l.foldl (fun (x : Word) g => if keep g then x.setField g.lo g.width (w.field g.lo g.width) else x) x).field f.lo f.width =
      if keep f then w.field f.lo f.width else x.field f.lo f.width := by
  induction l generalizing x with
  | nil => cases hf
  | cons g rest ih =>
    simp only [soundFields, Bool.and_eq_true, decide_eq_true_eq] at hl
    rw [List.foldl_cons]
    rcases List.mem_cons.mp hf with rfl | hm
    · rw [keptFold_other keep w rest _ hl.2 hl.1.2]
      split
      · rw [field_setField_same _ _ hl.1.1, Nat.mod_eq_of_lt (field_lt _ _ _)]
      · rfl
    · rw [ih _ hl.2 hm]
      split
      · rfl
      · split
        · have h1 := List.all_eq_true.mp hl.1.2 f hm
          simp only [FieldSpec.apart, Bool.or_eq_true, decide_eq_true_eq] at h1
          rcases h1 with h1 | h1
          · exact field_setField_above _ _ hl.1.1 h1
          · exact field_setField_below _ _ hl.1.1 h1
        · rfl

/-- A field of a register after a reset: kept where the reset keeps it, else its reset value. -/
theorem keptWord_field (keep : FieldSpec → Bool) {a : Nat} (w : Word) {f : FieldSpec} (hf : f ∈ fieldsAt a) :
    (keptWord keep a w).field f.lo f.width = if keep f then w.field f.lo f.width else (resetWord a).field f.lo f.width :=
  keptFold_field keep w _ _ (fieldsAt_sound a) hf

theorem keptWords_unlisted (keep : Nat → FieldSpec → Bool) (m acc : Sparse Word) {a : Nat} (h : ∀ e ∈ m, e.1 ≠ a) :
    Sparse.get resetWord (m.foldl (fun acc e => Sparse.put resetWord acc e.1 (keptWord (keep e.1) e.1 e.2)) acc) a =
      Sparse.get resetWord acc a := by
  induction m generalizing acc with
  | nil => rfl
  | cons e rest ih =>
    rw [List.foldl_cons, ih _ (fun x hx => h x (List.mem_cons_of_mem _ hx)),
      Sparse.get_put_ne _ _ _ (fun hh => h e List.mem_cons_self hh.symm)]

theorem Sparse.above_ne {α : Type} {k : Nat} {m : Sparse α} (h : Sparse.above k m = true) : ∀ e ∈ m, e.1 ≠ k := fun e he => by
  have := List.all_eq_true.mp h e he
  simp only [decide_eq_true_eq] at this
  omega

/-- The register at `a` after a reset, field by field. -/
theorem keptWords_field (keep : Nat → FieldSpec → Bool) {m : Sparse Word} (hw : Sparse.wf resetWord m = true) {a : Nat}
    {f : FieldSpec} (hf : f ∈ fieldsAt a) :
    (Sparse.get resetWord (keptWords keep m) a).field f.lo f.width =
      if keep a f then (Sparse.get resetWord m a).field f.lo f.width else (resetWord a).field f.lo f.width := by
  unfold keptWords
  suffices H : ∀ acc : Sparse Word, Sparse.get resetWord acc a = resetWord a →
      (Sparse.get resetWord (m.foldl (fun acc e => Sparse.put resetWord acc e.1 (keptWord (keep e.1) e.1 e.2)) acc) a).field f.lo
        f.width = if keep a f then (Sparse.get resetWord m a).field f.lo f.width else (resetWord a).field f.lo f.width from
    H [] rfl
  induction m with
  | nil => intro acc h; simp only [List.foldl_nil, h, Sparse.get]; split <;> rfl
  | cons e rest ih =>
    obtain ⟨k, v⟩ := e
    simp only [Sparse.wf, Bool.and_eq_true] at hw
    intro acc h
    rw [List.foldl_cons]
    by_cases hk : k = a
    · subst hk
      rw [keptWords_unlisted keep rest _ (Sparse.above_ne hw.1.1), Sparse.get_put_same, keptWord_field _ _ hf]
      simp only [Sparse.get, if_pos]
    · rw [ih hw.2 _ (by rw [Sparse.get_put_ne _ _ _ (Ne.symm hk), h])]
      simp only [Sparse.get, hk, if_false]

/-- What a reset leaves of a block's registers. -/
theorem Dev.kept_retains {d e : Dev} (keep : Nat → FieldSpec → Bool) (hc : d.Canonical) (he : e.regs = d.regs.kept keep) {a : Nat}
    {f : FieldSpec} (hf : f ∈ fieldsAt a) :
    e.get ⟨a, f.lo, f.width⟩ = if keep a f then d.get ⟨a, f.lo, f.width⟩ else (resetWord a).field f.lo f.width := by
  simp only [Dev.get, Dev.word, he, Regs.kept]
  exact keptWords_field keep hc.words hf

end Sys2Proof.Machine
end

