-- ==== Sys2Proof/Tests/Slice0.lean ====
section
/-!
SUPPORT. Tests: each check of WellFormed refuses an ill-formed command, no row of the table gives bits to decode, and for
every obligation with hypotheses a concrete state and operands meet them. What a test expects of a single step comes from the
rule that its comment names.
-/
open Sys2Proof Sys2Proof.Machine
namespace Sys2Proof.Tests

/-! ### Builders -/

/-- Fields of registers set in order. -/
def sets (l : List (Fld × Nat)) (d : Dev) : Dev := l.foldl (fun d x => d.set x.1 x.2) d

/-- Fields in effect set in order. -/
def esets (l : List (Fld × Nat)) (d : Dev) : Dev :=
  l.foldl (fun d x => d.setEff x.1.addr ((d.effWord x.1.addr).setField x.1.lo x.1.width x.2)) d

/-- The block after reset in a mode, with fields of registers set. -/
def dev (mode : Nat) (l : List (Fld × Nat)) : Dev := sets ((F.DEV_MODE_MODE, mode) :: l) State.reset.dev

/-- A state of the block alone. -/
def st (d : Dev) : State := { dev := d, pending := [] }

/-- The block after a command; the block as it was where the command answers no next state. -/
def after (c : Instr) (d : Dev) : Dev :=
  match exec c (st d) with
  | .next t => t.dev
  | _ => d

/-- `Dev.Reaches` as a test. -/
def reaches (d : Dev) (a : Nat) : Bool :=
  d.modeCode != mBoot && d.modeCode != mBrumate && !d.clockHeld && !d.inTransition && !d.inBlockReset a && !d.gatedAt a

theorem reaches_of {d : Dev} {a : Nat} (h : reaches d a = true) : d.Reaches a := by
  simp [reaches] at h
  exact ⟨h.1.1.1.1.1, h.1.1.1.1.2, h.1.1.1.2, h.1.1.2, h.1.2, h.2⟩

/-- `Dev.Canonical` as a test. -/
def canon (d : Dev) : Bool :=
  Sparse.wf resetWord d.regs.words && Sparse.wf resetWord d.regs.eff && Sparse.wf keepDefault d.keep.bytes &&
    Sparse.wf (fun _ => 0) d.mem.cells && Sparse.wf (fun _ => []) d.mem.err && Sparse.wf (fun _ => false) d.mem.poison

theorem canonical_of {d : Dev} (h : canon d = true) : d.Canonical := by
  simp [canon] at h
  exact ⟨h.1.1.1.1.1, h.1.1.1.1.2, h.1.1.1.2, h.1.1.2, h.1.2, h.2⟩

/-- Every pseudo-channel can be used. -/
def allOk (d : Dev) : Bool := (List.range 4).all (fun h => (List.range 32).all (fun pc => d.pcOk h pc))

theorem allOk_of {d : Dev} (h : allOk d = true) : ∀ k p : Nat, k < 4 → p < 32 → d.pcOk k p = true := by
  simp [allOk] at h
  exact fun k p hk hp => h k hk p hp

/-- `Dev.MemoryGood` as a test. -/
def good (d : Dev) : Bool := allOk d && d.mem.err.isEmpty && d.mem.poison.isEmpty && d.mem.inject.isNone

theorem good_of {d : Dev} (h : good d = true) : d.MemoryGood := by
  simp [good] at h
  exact ⟨allOk_of h.1.1.1, h.1.1.2, h.1.2, h.2⟩

/-! ### Well-formedness: a packet or control block has eight bytes -/

theorem test_wf_alignmentMarker : (Instr.alignmentMarker 0 0 [0xA5] 0 0 0).wellFormed = false := by decide
theorem test_wf_trnBlock : (Instr.trnBlock 0 0 []).wellFormed = false := by decide
theorem test_wf_echo : (Instr.echo 0 (List.replicate 9 0) 0).wellFormed = false := by decide
theorem test_wf_ctrlStatus : (Instr.ctrlStatus 0 (List.replicate 7 0)).wellFormed = false := by decide
theorem test_wf_rdData : (Instr.rdData 0 []).wellFormed = false := by decide
theorem test_wf_ack : (Instr.ack 0 []).wellFormed = false := by decide
theorem test_wf_laneAck : (Instr.laneAck 0 []).wellFormed = false := by decide
theorem test_wf_frameStart : (Instr.frameStart 0 (List.replicate 7 0)).wellFormed = false := by decide
theorem test_wf_fsx : (Instr.fsx 0 []).wellFormed = false := by decide
theorem test_wf_lineStart : (Instr.lineStart 0 []).wellFormed = false := by decide
theorem test_wf_lineEnd : (Instr.lineEnd 0 [] [] false).wellFormed = false := by decide
theorem test_wf_frameEnd : (Instr.frameEnd 0 (List.replicate 9 0)).wellFormed = false := by decide
theorem test_wf_good : (Instr.frameStart 0 (List.replicate 8 0)).wellFormed = true := by decide

/-! ### The table gives no row bits -/

theorem test_decode_none : decodeTableWord 8 0 = none ∧ decodeTableWord 32 0xFFFFFFFF = none := by decide
theorem test_withFetchWord : (State.reset.withFetchWord 8 1) = State.reset := by decide

/-! ### The machine as a whole -/

theorem test_EmptyQueueIsOneCycle :
    (st (dev mBrumate [])).pending = [] ∧ (dev mBrumate []).modeCode = mBrumate ∧
    State.reset.pending = [] ∧ State.reset.dev.modeCode ≠ mBrumate ∧ State.reset.dev.modeCode ≠ mHold := by decide

theorem test_StepKeepsCanonicalForm : State.reset.dev.Canonical ∧ ∃ t, step State.reset = .next t :=
  ⟨canonical_of (by decide), _, rfl⟩

theorem test_EventGoesToRing : let d : Dev := { dev mBask [] with evt := { auxUp := true } }
    d.evt.auxUp = true ∧ (d.get F.EVT_PROD_IDX + 65536 - d.get F.EVT_CONS_IDX) % 65536 ≠ 4096 := by decide

theorem test_EventIsHeld : let e : EventRec := { stime := 0, code := 0, source := 0, severity := 0, flags := 0, context := 0, data := [] }
    State.reset.dev.evt.auxUp = false ∧ State.reset.dev.evt.held.length < 32 ∧
    (let d : Dev := { dev mBoot [] with evt := { held := List.replicate 32 e }, boot := { step := 9 } };
      d.evt.auxUp = false ∧ 32 ≤ d.evt.held.length ∧ 9 ≤ d.boot.step) ∧
    (let d : Dev := { dev mBoot [] with evt := { held := List.replicate 32 e }, boot := { step := 8 } };
      32 ≤ d.evt.held.length ∧ d.boot.step < 9) := by decide

theorem test_InterruptCommands_coalesce :
    (let d : Dev := { dev mBask [] with evt := { msiBusy := true, msiWait := true }, ep0Up := true };
      d.evt.msiBusy = true ∧ d.evt.msiWait = true ∧ d.ep0Up = true) ∧
    (let d : Dev := { dev mBask [] with evt := { msiBusy := true } };
      d.evt.msiBusy = true ∧ d.evt.msiWait = false) := by decide

theorem test_InterruptCommands_clear : (dev mBask [(F.EVT_IRQ_STATUS_SEV, 5)]).Reaches R.EVT_IRQ_STATUS := reaches_of (by decide)

/-- R507: a cleared bit of SEV reads 0 and `IRQ_N` rises when none is left. -/
theorem test_evtIrqClear : (after (.evtIrqClear 4) (dev mBask [(F.EVT_IRQ_STATUS_SEV, 4)])).out = [.pin pinIrqN 1] := by decide

/-! ### Resets -/

theorem test_PowerOnKeepsClassK : State.reset.dev.Canonical ∧ State.reset.dev.keep.busy = none ∧
    State.reset.dev.keep.fuseOp = none ∧ State.reset.dev.srv.resetLow = false := ⟨canonical_of (by decide), by decide⟩

theorem test_PinResetAndRelease :
    State.reset.dev.Canonical ∧ State.reset.dev.keep.busy = none ∧ State.reset.dev.pwr.brown = none ∧
    (let d : Dev := { dev mBoot [] with srv := { resetLow := true } };
      d.srv.resetLow = true ∧ d.pwr.brown = none) := ⟨canonical_of (by decide), by decide⟩

theorem test_WarmResetsReboot_write : (dev mBask []).Canonical ∧ (dev mBask []).Reaches R.DEV_RESET_CTRL ∧
    (0x1A5 : Word).field 0 8 = 0xA5 ∧ (0x1A5 : Word).field 8 1 = 1 :=
  ⟨canonical_of (by decide), reaches_of (by decide), by decide⟩

theorem test_WarmResetsReboot_watchdog : let d : Dev := { dev mBask [(F.DEV_WDOG_CTRL_TIMEOUT_MS, 1)] with elapsed := 1000000 }
    d.Canonical ∧ d.inWork = true ∧ d.get F.DEV_WDOG_CTRL_TIMEOUT_MS ≠ 0 ∧
    d.mode.wdogFrom + d.get F.DEV_WDOG_CTRL_TIMEOUT_MS * 1000000 ≤ d.elapsed := ⟨canonical_of (by decide), by decide⟩

theorem test_WarmResetKeepsClassesSAK : let d := dev mBask []
    d.Canonical ∧ d.Reaches R.DEV_RESET_CTRL ∧ d.blockReset = none ∧ d.srv.returns = [] ∧ d.flag F.REC_CFG_EN = false ∧
    d.journal.wait = [] ∧ d.keep.busy = none ∧ d.mem.bufs = [] := ⟨canonical_of (by decide), reaches_of (by decide), by decide⟩

theorem test_WatchdogKick : (dev mBask []).Reaches R.DEV_WDOG_KICK ∧ 0xC0DE % 65536 = 0xC0DE ∧ 0 % 65536 ≠ 0xC0DE :=
  ⟨reaches_of (by decide), by decide⟩

theorem test_BrownoutHoldsReset :
    (let d := dev mBask [(F.PWR_RAIL_STATUS_HBM_ARMED, 1)];
      d.Canonical ∧ d.keep.busy = none ∧ d.railArmed 1 = true ∧ 1000 < d.resetMv 1 ∧ d.pwr.brown = none ∧ d.therm.shut = false) ∧
    (let d : Dev := { dev mBoot [] with pwr := { brown := some 1 }, boot := { step := 0 } };
      d.pwr.brown.isSome = true ∧ d.boot.step = 0 ∧ d.srv.resetLow = false) :=
  ⟨⟨canonical_of (by decide), by decide⟩, by decide⟩

/-- R483: the lowest threshold is the boundary: at 1,020 mV on VDD_HBM no brown-out follows. -/
theorem test_brownout_at_threshold : (after (.brownout 1 1020) (dev mBask [(F.PWR_RAIL_STATUS_HBM_ARMED, 1)])).modeCode = mBask := by
  decide

theorem test_ThermalShutdownAndRestart :
    (let d : Dev := { dev mBask [] with pwr := { hbmEn := true } };
      d.pwr.hbmEn = true ∧ d.therm.shut = false ∧ d.srv.resetLow = false ∧ d.pwr.brown = none) ∧
    (let d : Dev := { dev mBoot [] with therm := { shut := true } };
      d.Canonical ∧ d.keep.busy = none ∧ d.therm.shut = true ∧ d.flag F.THERM_TRIP_STATUS_LOCKOUT = false) :=
  ⟨by decide, canonical_of (by decide), by decide⟩

end Sys2Proof.Tests
end

section
/-!
The canonical form is kept by every step: each command's lemma of `Laws/Canonical*.lean`, joined along the commands, and the
cycle that passes on an empty queue.
-/
namespace Sys2Proof.Machine

/-! ### One step of the queue -/

theorem step_of_pending_nil {s : State} (hp : s.pending = []) : step s = .next { s with dev := s.dev.tick } := by
  simp only [step, hp]

theorem step_of_pending_cons {s : State} {c : Instr} {rest : List Instr} (hp : s.pending = c :: rest) :
    step s = exec c { s with pending := rest } := by
  simp only [step, hp]

/-! ### The canonical form -/

/-- The commands reach the registers, the keep store and the memory's lists only through operations that store canonically, so
each case is the lemma of the command's own meaning. -/
theorem exec_canonical {c : Instr} {s t : State} (hcan : s.dev.Canonical) (ht : exec c s = .next t) : t.dev.Canonical := by
  cases c with
  | powerOnReset => exact execPowerOnReset_canonical hcan ht
  | pinReset => exact execPinReset_canonical hcan ht
  | warmReset => exact execWarmReset_canonical hcan ht
  | watchdogExpiry => exact execWatchdogExpiry_canonical hcan ht
  | wdogKick => exact execWdogKick_canonical hcan ht
  | roReady => exact execRoReady_canonical hcan ht
  | headersRead => exact execHeadersRead_canonical hcan ht
  | pllMainLocked => exact execPllMainLocked_canonical hcan ht
  | slotReadDone => exact execSlotReadDone_canonical hcan ht
  | hbmTrainingDone => exact execHbmTrainingDone_canonical hcan ht
  | selfTestDone => exact execSelfTestDone_canonical hcan ht
  | pwrCoreStart => exact execPwrCoreStart_canonical hcan ht
  | coreRailArmed => exact execCoreRailArmed_canonical hcan ht
  | hbmRailArmed => exact execHbmRailArmed_canonical hcan ht
  | brownout => exact execBrownout_canonical hcan ht
  | brownoutRecovery => exact execBrownoutRecovery_canonical hcan ht
  | modeRequest => exact execModeRequest_canonical hcan ht
  | gpioModeRequest => exact execGpioModeRequest_canonical hcan ht
  | modeEnter => exact execModeEnter_canonical hcan ht
  | holdExit => exact execHoldExit_canonical hcan ht
  | registerWrite => exact execRegisterWrite_canonical hcan ht
  | blockReset => exact execBlockReset_canonical hcan ht
  | blockResetDone => exact execBlockResetDone_canonical hcan ht
  | schedulerTick => exact execSchedulerTick_canonical hcan ht
  | sessionMigration => exact execSessionMigration_canonical hcan ht
  | blockLockGained => exact execBlockLockGained_canonical hcan ht
  | blockLockLost => exact execBlockLockLost_canonical hcan ht
  | alignmentMarker => exact execAlignmentMarker_canonical hcan ht
  | electricalIdleEntry => exact execElectricalIdleEntry_canonical hcan ht
  | trnBlock _ lane => exact execTrnBlock_canonical (_lane := lane) hcan ht
  | kslRetrain => exact execKslRetrain_canonical hcan ht
  | trainReqSend => exact execTrainReqSend_canonical hcan ht
  | trainingLockDone => exact execTrainingLockDone_canonical hcan ht
  | echo => exact execEcho_canonical hcan ht
  | kslTrainFail => exact execKslTrainFail_canonical hcan ht
  | ctrlStatus => exact execCtrlStatus_canonical hcan ht
  | rdData => exact execRdData_canonical hcan ht
  | ack => exact execAck_canonical hcan ht
  | laneAck => exact execLaneAck_canonical hcan ht
  | bcRegWr => exact execBcRegWr_canonical hcan ht
  | bcRegRd => exact execBcRegRd_canonical hcan ht
  | bcAnswerTimeout => exact execBcAnswerTimeout_canonical hcan ht
  | eyeMeasure => exact execEyeMeasure_canonical hcan ht
  | eyeMeasureDone => exact execEyeMeasureDone_canonical hcan ht
  | triggerSequence => exact execTriggerSequence_canonical hcan ht
  | xtrigRise => exact execXtrigRise_canonical hcan ht
  | xtrigFall => exact execXtrigFall_canonical hcan ht
  | triggerTargetHandover => exact execTriggerTargetHandover_canonical hcan ht
  | frameStart => exact execFrameStart_canonical hcan ht
  | fsx => exact execFsx_canonical hcan ht
  | lineStart => exact execLineStart_canonical hcan ht
  | lineEnd => exact execLineEnd_canonical hcan ht
  | frameEnd => exact execFrameEnd_canonical hcan ht
  | slotDeadline => exact execSlotDeadline_canonical hcan ht
  | wheelWindowEnd => exact execWheelWindowEnd_canonical hcan ht
  | wheelSlotStart => exact execWheelSlotStart_canonical hcan ht
  | wheelBoundary => exact execWheelBoundary_canonical hcan ht
  | developFrameDone => exact execDevelopFrameDone_canonical hcan ht
  | capExpCommit => exact execCapExpCommit_canonical hcan ht
  | expSetSend => exact execExpSetSend_canonical hcan ht
  | dmapEditAdd => exact execDmapEditAdd_canonical hcan ht
  | dmapEditRemove => exact execDmapEditRemove_canonical hcan ht
  | journalBatch => exact execJournalBatch_canonical hcan ht
  | keepRebuildDone => exact execKeepRebuildDone_canonical hcan ht
  | colCommit => exact execColCommit_canonical hcan ht
  | lut3dLoadDone => exact execLut3dLoadDone_canonical hcan ht
  | tileEmitted => exact execTileEmitted_canonical hcan ht
  | tileDecoded => exact execTileDecoded_canonical hcan ht
  | zeJobStart => exact execZeJobStart_canonical hcan ht
  | generalJobDone => exact execGeneralJobDone_canonical hcan ht
  | zeRingAbort => exact execZeRingAbort_canonical hcan ht
  | ep0LinkDown => exact execEp0LinkDown_canonical hcan ht
  | recStart => exact execRecStart_canonical hcan ht
  | recStop => exact execRecStop_canonical hcan ht
  | recMetaQueue => exact execRecMetaQueue_canonical hcan ht
  | pcieLinkUp => exact execPcieLinkUp_canonical hcan ht
  | pcieLinkDown => exact execPcieLinkDown_canonical hcan ht
  | nvmeCompletion => exact execNvmeCompletion_canonical hcan ht
  | nvmeTimeout => exact execNvmeTimeout_canonical hcan ht
  | offloadJobStart => exact execOffloadJobStart_canonical hcan ht
  | offloadJobDone => exact execOffloadJobDone_canonical hcan ht
  | sesStart => exact execSesStart_canonical hcan ht
  | sesStop => exact execSesStop_canonical hcan ht
  | pictureStart => exact execPictureStart_canonical hcan ht
  | rowReady => exact execRowReady_canonical hcan ht
  | liveRowRelease => exact execLiveRowRelease_canonical hcan ht
  | unitBoundary => exact execUnitBoundary_canonical hcan ht
  | rowDone => exact execRowDone_canonical hcan ht
  | analysisDone => exact execAnalysisDone_canonical hcan ht
  | rowWatchdog => exact execRowWatchdog_canonical hcan ht
  | veFault => exact execVeFault_canonical hcan ht
  | checkpointReadDone => exact execCheckpointReadDone_canonical hcan ht
  | decoderAccessUnit => exact execDecoderAccessUnit_canonical hcan ht
  | decoderPictureDone => exact execDecoderPictureDone_canonical hcan ht
  | rasterFetchStart => exact execRasterFetchStart_canonical hcan ht
  | rasterFrameStart => exact execRasterFrameStart_canonical hcan ht
  | rasLockAcquired => exact execRasLockAcquired_canonical hcan ht
  | rasterLineFetch => exact execRasterLineFetch_canonical hcan ht
  | rasterVblank => exact execRasterVblank_canonical hcan ht
  | rasCommit => exact execRasCommit_canonical hcan ht
  | rasterFrameEnd => exact execRasterFrameEnd_canonical hcan ht
  | rbLockTimeout => exact execRbLockTimeout_canonical hcan ht
  | geckoRowRelease => exact execGeckoRowRelease_canonical hcan ht
  | geckoFsMissing => exact execGeckoFsMissing_canonical hcan ht
  | ptpSyncRx => exact execPtpSyncRx_canonical hcan ht
  | ptpFollowUpRx => exact execPtpFollowUpRx_canonical hcan ht
  | ptpAnnounceRx => exact execPtpAnnounceRx_canonical hcan ht
  | ptpDelayRespRx => exact execPtpDelayRespRx_canonical hcan ht
  | ptpDelayReqRx => exact execPtpDelayReqRx_canonical hcan ht
  | ptpSyncTx => exact execPtpSyncTx_canonical hcan ht
  | ptpAnnounceTx => exact execPtpAnnounceTx_canonical hcan ht
  | ptpDelayReqTx => exact execPtpDelayReqTx_canonical hcan ht
  | announceTimeout => exact execAnnounceTimeout_canonical hcan ht
  | timeSet => exact execTimeSet_canonical hcan ht
  | timeStepNow => exact execTimeStepNow_canonical hcan ht
  | timeNowRead => exact execTimeNowRead_canonical hcan ht
  | trigSchedCommit => exact execTrigSchedCommit_canonical hcan ht
  | trigSchedSwitch => exact execTrigSchedSwitch_canonical hcan ht
  | pulseEdge => exact execPulseEdge_canonical hcan ht
  | pulseFall => exact execPulseFall_canonical hcan ht
  | ltcFrame => exact execLtcFrame_canonical hcan ht
  | ltcFrameMissing => exact execLtcFrameMissing_canonical hcan ht
  | ethLinkDown => exact execEthLinkDown_canonical hcan ht
  | ethLinkUp => exact execEthLinkUp_canonical hcan ht
  | arpRx => exact execArpRx_canonical hcan ht
  | icmpEchoRx => exact execIcmpEchoRx_canonical hcan ht
  | arpRenew => exact execArpRenew_canonical hcan ht
  | arpResolveTimeout => exact execArpResolveTimeout_canonical hcan ht
  | mailboxFrameRx => exact execMailboxFrameRx_canonical hcan ht
  | txFrameSelect => exact execTxFrameSelect_canonical hcan ht
  | txPacket => exact execTxPacket_canonical hcan ht
  | txBandSend => exact execTxBandSend_canonical hcan ht
  | audioPacketTx => exact execAudioPacketTx_canonical hcan ht
  | rxPacket => exact execRxPacket_canonical hcan ht
  | rxReorderExpiry => exact execRxReorderExpiry_canonical hcan ht
  | pathSilenceTimeout => exact execPathSilenceTimeout_canonical hcan ht
  | audioFrameRx => exact execAudioFrameRx_canonical hcan ht
  | audioClockTimeout => exact execAudioClockTimeout_canonical hcan ht
  | audioLoopUpdate => exact execAudioLoopUpdate_canonical hcan ht
  | audioPlayout => exact execAudioPlayout_canonical hcan ht
  | hbmRead => exact execHbmRead_canonical hcan ht
  | hbmWrite => exact execHbmWrite_canonical hcan ht
  | stripeBufferIdle => exact execStripeBufferIdle_canonical hcan ht
  | scrubStep => exact execScrubStep_canonical hcan ht
  | memRequestTimeout => exact execMemRequestTimeout_canonical hcan ht
  | hbmPhyError => exact execHbmPhyError_canonical hcan ht
  | stackTempRead => exact execStackTempRead_canonical hcan ht
  | stackTempTimeout => exact execStackTempTimeout_canonical hcan ht
  | hbmPowerDown => exact execHbmPowerDown_canonical hcan ht
  | memInject => exact execMemInject_canonical hcan ht
  | refMissingEdge => exact execRefMissingEdge_canonical hcan ht
  | refFreqWindow => exact execRefFreqWindow_canonical hcan ht
  | switchoverRampDone => exact execSwitchoverRampDone_canonical hcan ht
  | clkRefSwitch => exact execClkRefSwitch_canonical hcan ht
  | holdoverWindowEnd => exact execHoldoverWindowEnd_canonical hcan ht
  | pllUnlock => exact execPllUnlock_canonical hcan ht
  | otherPllLock => exact execOtherPllLock_canonical hcan ht
  | fallbackCalibration => exact execFallbackCalibration_canonical hcan ht
  | roWindowFail => exact execRoWindowFail_canonical hcan ht
  | clkGate => exact execClkGate_canonical hcan ht
  | clkUngate => exact execClkUngate_canonical hcan ht
  | gateIdleStop => exact execGateIdleStop_canonical hcan ht
  | gateIdleTimeout => exact execGateIdleTimeout_canonical hcan ht
  | fmMeasure => exact execFmMeasure_canonical hcan ht
  | fmDone => exact execFmDone_canonical hcan ht
  | fmTimeout => exact execFmTimeout_canonical hcan ht
  | avsUpdate => exact execAvsUpdate_canonical hcan ht
  | avsCommandResponse => exact execAvsCommandResponse_canonical hcan ht
  | droopDetect => exact execDroopDetect_canonical hcan ht
  | stretchEnd => exact execStretchEnd_canonical hcan ht
  | railWarnCrossing => exact execRailWarnCrossing_canonical hcan ht
  | pfailFall => exact execPfailFall_canonical hcan ht
  | warnClear => exact execWarnClear_canonical hcan ht
  | railTelemetryUpdate => exact execRailTelemetryUpdate_canonical hcan ht
  | thermalSample => exact execThermalSample_canonical hcan ht
  | riseCheck => exact execRiseCheck_canonical hcan ht
  | thermRiseWrite => exact execThermRiseWrite_canonical hcan ht
  | thermalShutdown => exact execThermalShutdown_canonical hcan ht
  | thermalRestart => exact execThermalRestart_canonical hcan ht
  | deFault => exact execDeFault_canonical hcan ht
  | stripeWatchdog => exact execStripeWatchdog_canonical hcan ht
  | deCatchUpDone => exact execDeCatchUpDone_canonical hcan ht
  | zeFault => exact execZeFault_canonical hcan ht
  | tileWatchdog => exact execTileWatchdog_canonical hcan ht
  | faultInject => exact execFaultInject_canonical hcan ht
  | msiCoalesceExpiry => exact execMsiCoalesceExpiry_canonical hcan ht
  | evtIrqClear => exact execEvtIrqClear_canonical hcan ht
  | keepWrite => exact execKeepWrite_canonical hcan ht
  | keepWriteDone => exact execKeepWriteDone_canonical hcan ht
  | keepRead => exact execKeepRead_canonical hcan ht
  | fuseProgram => exact execFuseProgram_canonical hcan ht
  | fuseRevoke => exact execFuseRevoke_canonical hcan ht
  | fuseOpDone => exact execFuseOpDone_canonical hcan ht
  | jtagBypass => exact execJtagBypass_canonical hcan ht
  | jtagIdcode => exact execJtagIdcode_canonical hcan ht
  | jtagSamplePreload => exact execJtagSamplePreload_canonical hcan ht
  | jtagExtest => exact execJtagExtest_canonical hcan ht
  | jtagExtestPulse => exact execJtagExtestPulse_canonical hcan ht
  | jtagExtestTrain => exact execJtagExtestTrain_canonical hcan ht
  | jtagClamp => exact execJtagClamp_canonical hcan ht
  | jtagHighz => exact execJtagHighz_canonical hcan ht
  | mspiWrite => exact execMspiWrite_canonical hcan ht
  | mspiRead => exact execMspiRead_canonical hcan ht
  | dmapEntryRead => exact execDmapEntryRead_canonical hcan ht
  | domainFrame => exact execDomainFrame_canonical hcan ht
  | ep0LinkUp => exact execEp0LinkUp_canonical hcan ht

theorem step_canonical {s t : State} (hcan : s.dev.Canonical) (ht : step s = .next t) : t.dev.Canonical := by
  cases hp : s.pending with
  | nil =>
    rw [step_of_pending_nil hp] at ht
    cases ht
    exact Dev.tick_canonical hcan
  | cons c rest =>
    rw [step_of_pending_cons hp] at ht
    exact exec_canonical (s := { s with pending := rest }) hcan ht

/-- Settles O4, by the front of the queue: an empty queue is one cycle of CFG_CLK, which touches none of the lists, and a command
keeps the form by its own lemma. -/
theorem stepKeepsCanonicalForm : Obligations.StepKeepsCanonicalForm :=
  fun _ _ => step_canonical

end Sys2Proof.Machine
end

section
/-!
What holds of every command, the state after reset, and the watchdog's kick.
-/
namespace Sys2Proof.Machine

/-- Every command's meaning is a change of the block, so each answers a next state with the queue as it was. -/
theorem exec_keeps_queue (c : Instr) (s : State) : ∃ d : Dev, exec c s = .next { s with dev := d } := by
  cases c <;> exact ⟨_, rfl⟩

/-- Settles O3: a command that cannot occur leaves the block as it is (assumption 3), and so answers too. -/
theorem everyCommandAnswers : Obligations.EveryCommandAnswers := fun c s => by
  obtain ⟨d, hd⟩ := exec_keeps_queue c s
  exact ⟨_, hd, rfl, trivial⟩

/-- Settles O5: after reset one register is listed, `DEV_RESET_CAUSE`, and nothing else. -/
theorem resetIsCanonical : Obligations.ResetIsCanonical := ⟨rfl, rfl, rfl, rfl, rfl, rfl⟩

/-- Settles O6: `DEV_RESET_CAUSE` is the one register that is listed after reset. -/
theorem resetState : Obligations.ResetState :=
  ⟨rfl, rfl, rfl, rfl, rfl, rfl, rfl, fun _ ha => if_neg (Ne.symm ha)⟩

/-- Settles O15: where the write reaches its register, its value alone decides. -/
theorem watchdogKick : Obligations.WatchdogKick := by
  refine ⟨fun s v hr hv => ⟨_, rfl, rfl, ?_⟩, fun s v hr hv => ⟨_, rfl, rfl, ?_⟩⟩
  · simp only [Dev.gateWrite_open hr, Dev.wdogKick, if_pos hv]
  · simp only [Dev.gateWrite_open hr, Dev.wdogKick, if_neg hv]

end Sys2Proof.Machine
end

section
/-!
Resets: what a cold or pin reset leaves of the block (R69, R73).
-/
namespace Sys2Proof.Machine

/-! ### Reading fields -/

theorem Dev.get_of_word {d e : Dev} (f : Fld) (h : e.word f.addr = d.word f.addr) : e.get f = d.get f := by
  simp only [Dev.get, h]

theorem Dev.flag_of_word {d e : Dev} (f : Fld) (h : e.word f.addr = d.word f.addr) : e.flag f = d.flag f := by
  simp only [Dev.flag, Dev.get_of_word f h]

/-! ### Pins, rails and the keep store's write in progress -/

/-- `FAULT_N` only adds to the outputs. -/
theorem Dev.driveFault_eq (d : Dev) (was : Bool) : ∃ l, d.driveFault was = { d with out := l } := by
  unfold Dev.driveFault
  split
  · exact ⟨d.out, rfl⟩
  · exact ⟨_, rfl⟩

@[simp] theorem Dev.driveFault_elapsed (d : Dev) (was : Bool) : (d.driveFault was).elapsed = d.elapsed := by
  unfold Dev.driveFault
  split <;> rfl
@[simp] theorem Dev.driveFault_boot (d : Dev) (was : Bool) : (d.driveFault was).boot = d.boot := by
  unfold Dev.driveFault
  split <;> rfl
@[simp] theorem Dev.driveFault_mode (d : Dev) (was : Bool) : (d.driveFault was).mode = d.mode := by
  unfold Dev.driveFault
  split <;> rfl
@[simp] theorem Dev.driveFault_evt (d : Dev) (was : Bool) : (d.driveFault was).evt = d.evt := by
  unfold Dev.driveFault
  split <;> rfl
@[simp] theorem Dev.driveFault_keep (d : Dev) (was : Bool) : (d.driveFault was).keep = d.keep := by
  unfold Dev.driveFault
  split <;> rfl
@[simp] theorem Dev.driveFault_mem (d : Dev) (was : Bool) : (d.driveFault was).mem = d.mem := by
  unfold Dev.driveFault
  split <;> rfl
@[simp] theorem Dev.driveFault_time (d : Dev) (was : Bool) : (d.driveFault was).time = d.time := by
  unfold Dev.driveFault
  split <;> rfl
@[simp] theorem Dev.driveFault_journal (d : Dev) (was : Bool) : (d.driveFault was).journal = d.journal := by
  unfold Dev.driveFault
  split <;> rfl
@[simp] theorem Dev.driveFault_pwr (d : Dev) (was : Bool) : (d.driveFault was).pwr = d.pwr := by
  unfold Dev.driveFault
  split <;> rfl
@[simp] theorem Dev.driveFault_therm (d : Dev) (was : Bool) : (d.driveFault was).therm = d.therm := by
  unfold Dev.driveFault
  split <;> rfl
@[simp] theorem Dev.driveFault_srv (d : Dev) (was : Bool) : (d.driveFault was).srv = d.srv := by
  unfold Dev.driveFault
  split <;> rfl
@[simp] theorem Dev.driveFault_regs (d : Dev) (was : Bool) : (d.driveFault was).regs = d.regs := by
  unfold Dev.driveFault
  split <;> rfl

@[simp] theorem Dev.driveFault_word (d : Dev) (was : Bool) (a : Nat) : (d.driveFault was).word a = d.word a :=
  Dev.word_congr (d.driveFault_regs was) a

@[simp] theorem Dev.driveFault_get (d : Dev) (was : Bool) (f : Fld) : (d.driveFault was).get f = d.get f :=
  Dev.get_congr (d.driveFault_regs was) f

@[simp] theorem Dev.driveFault_flag (d : Dev) (was : Bool) (f : Fld) : (d.driveFault was).flag f = d.flag f := by
  simp only [Dev.flag, Dev.driveFault_get]

/-- Driving a pin under a condition only adds to the outputs. -/
theorem Dev.pinUnless_eq (d : Dev) (p : Prop) [Decidable p] (c l : Nat) : ∃ o, (if p then d else d.pin c l) = { d with out := o } := by
  split
  · exact ⟨d.out, rfl⟩
  · exact ⟨_, rfl⟩

theorem Dev.setFlagUnless_eq (d : Dev) (c : Bool) (f : Fld) (b : Bool) :
    ∃ r, (if c then d else d.setFlag f b) = { d with regs := r } ∧ ∀ a, a ≠ f.addr → ({ d with regs := r } : Dev).word a = d.word a := by
  cases c
  · exact ⟨_, rfl, fun a ha => Dev.word_set_ne d f _ ha⟩
  · exact ⟨d.regs, rfl, fun _ _ => rfl⟩

/-- Switching the rails changes their enables, their monitors and the outputs. -/
theorem Dev.setRails_eq (d : Dev) (core hbm : Bool) : ∃ r o,
    d.setRails core hbm = { d with regs := r, out := o, pwr := { d.pwr with coreEn := core, hbmEn := hbm } } ∧
      ∀ a, a ≠ R.PWR_RAIL_STATUS → ({ d with regs := r } : Dev).word a = d.word a := by
  unfold Dev.setRails
  obtain ⟨o1, h1⟩ := d.pinUnless_eq (d.pwr.coreEn = core) pinCorePwrEn (b2n core)
  obtain ⟨o2, h2⟩ := Dev.pinUnless_eq { d with out := o1 } (d.pwr.hbmEn = hbm) pinHbmPwrEn (b2n hbm)
  obtain ⟨r1, h3, k3⟩ := Dev.setFlagUnless_eq { d with out := o2 } core F.PWR_RAIL_STATUS_CORE_ARMED false
  obtain ⟨r2, h4, k4⟩ := Dev.setFlagUnless_eq { d with out := o2, regs := r1 } hbm F.PWR_RAIL_STATUS_HBM_ARMED false
  simp only [h1, h2, h3, h4]
  exact ⟨r2, o2, rfl, fun a ha => (k4 a ha).trans (k3 a ha)⟩

/-- Without a write in progress there is none to settle. -/
theorem Dev.keepSettle_idle {d : Dev} (h : d.keep.busy = none) : d.keepSettle = d := by
  simp only [Dev.keepSettle, h]

/-! ### Retention -/

/-- Changes of registers that are left out of a retention do not matter to it. -/
theorem Dev.Retains.of_words {d e e' : Dev} {keep : FieldSpec → Bool} {rs ss : List Nat} (h : d.Retains e keep rs)
    (hw : ∀ a, a ∉ ss → e'.word a = e.word a) (hs : ∀ a ∈ rs, a ∈ ss) : d.Retains e' keep ss := fun a ha f hf => by
  simp only [Dev.get, hw a ha]
  exact h a (fun hm => ha (hs a hm)) f hf

theorem Dev.Retains.of_source {d d' e : Dev} {keep : FieldSpec → Bool} {rs : List Nat} (h : d.Retains e keep rs)
    (hr : d.regs = d'.regs) : d'.Retains e keep rs := fun a ha f hf => by
  rw [h a ha f hf, Dev.get_congr hr]

/-- A register whose fields are not kept holds its reset values. -/
theorem Dev.Retains.get_reset {d e : Dev} {keep : FieldSpec → Bool} {rs : List Nat} (h : d.Retains e keep rs) {a : Nat} (ha : a ∉ rs)
    {f : FieldSpec} (hf : f ∈ fieldsAt a) (hk : keep f = false) :
    e.get ⟨a, f.lo, f.width⟩ = (resetWord a).field f.lo f.width := by
  rw [h a ha f hf, hk]
  rfl

theorem railStatus_fields_volatile : ∀ f ∈ fieldsAt R.PWR_RAIL_STATUS, f.cls = .V := by decide

/-! ### A cold or pin reset (R69, R73) -/

/-- What a cold or pin reset leaves, while no keep-store write runs: everything but the parts named is as after power-on. -/
theorem Dev.coldState_eq {d : Dev} (hk : d.keep.busy = none) (aon : Nat) : ∃ o,
    d.coldState aon = {
      regs := (d.outputsToSafe.setRails false false).regs.kept keepCold
      out := o
      keep := d.keep
      therm := { aonBase := aon }
      srv := { bscan := d.srv.bscan, resetLow := d.srv.resetLow }
      freeCtr := d.freeCtr } := by
  unfold Dev.coldState
  rw [Dev.keepSettle_idle hk]
  obtain ⟨r, o, h, -⟩ := d.outputsToSafe.setRails_eq false false
  simp only [h]
  split
  all_goals
    obtain ⟨o', h'⟩ := Dev.driveFault_eq _ d.faultAsserted
    exact ⟨o', h'⟩

section
variable {d : Dev} (hk : d.keep.busy = none) (aon : Nat)
include hk

theorem Dev.coldState_elapsed : (d.coldState aon).elapsed = 0 := by
  obtain ⟨o, h⟩ := Dev.coldState_eq hk aon
  rw [h]
theorem Dev.coldState_boot : (d.coldState aon).boot = {} := by
  obtain ⟨o, h⟩ := Dev.coldState_eq hk aon
  rw [h]
theorem Dev.coldState_mode : (d.coldState aon).mode = {} := by
  obtain ⟨o, h⟩ := Dev.coldState_eq hk aon
  rw [h]
theorem Dev.coldState_mem : (d.coldState aon).mem = {} := by
  obtain ⟨o, h⟩ := Dev.coldState_eq hk aon
  rw [h]
theorem Dev.coldState_time : (d.coldState aon).time = {} := by
  obtain ⟨o, h⟩ := Dev.coldState_eq hk aon
  rw [h]
theorem Dev.coldState_pwr : (d.coldState aon).pwr = {} := by
  obtain ⟨o, h⟩ := Dev.coldState_eq hk aon
  rw [h]
theorem Dev.coldState_keep : (d.coldState aon).keep = d.keep := by
  obtain ⟨o, h⟩ := Dev.coldState_eq hk aon
  rw [h]
theorem Dev.coldState_therm : (d.coldState aon).therm = { aonBase := aon } := by
  obtain ⟨o, h⟩ := Dev.coldState_eq hk aon
  rw [h]
theorem Dev.coldState_srv : (d.coldState aon).srv = { bscan := d.srv.bscan, resetLow := d.srv.resetLow } := by
  obtain ⟨o, h⟩ := Dev.coldState_eq hk aon
  rw [h]

end

/-- A cold or pin reset keeps class K (R73): switching the rails off only touches monitors, which are of class V. -/
theorem Dev.coldState_retains {d : Dev} (hc : d.Canonical) (hk : d.keep.busy = none) (aon : Nat) :
    d.Retains (d.coldState aon) (fun f => f.cls == .K) [] := fun a _ f hf => by
  obtain ⟨o, h⟩ := Dev.coldState_eq hk aon
  have hs : (d.outputsToSafe.setRails false false).Canonical := Dev.setRails_canonical (Dev.outputsToSafe_canonical hc)
  refine (Dev.kept_retains keepCold hs (by rw [h]) hf).trans ?_
  by_cases hK : f.cls = .K
  · have ha : a ≠ R.PWR_RAIL_STATUS := fun e => by
      rw [railStatus_fields_volatile f (e ▸ hf)] at hK
      cases hK
    obtain ⟨r, o', hr, hw⟩ := d.outputsToSafe.setRails_eq false false
    have hword : (d.outputsToSafe.setRails false false).word a = d.word a := by
      rw [hr]
      exact hw a ha
    simp only [keepCold, hK, beq_self_eq_true, if_true, Dev.get, hword]
  · simp only [keepCold, beq_eq_false_iff_ne.mpr hK]
    rfl

theorem Dev.coldState_modeCode {d : Dev} (hc : d.Canonical) (hk : d.keep.busy = none) (aon : Nat) :
    (d.coldState aon).modeCode = mBoot :=
  (Dev.coldState_retains hc hk aon).get_reset (a := R.DEV_MODE) (f := ⟨0, 3, .ro, .A, 0, false, false⟩) (by simp) (by decide) rfl

/-! ### The release of reset -/

@[simp] theorem Dev.bootFrom_elapsed (d : Dev) (testEn : Bool) : (d.bootFrom testEn).elapsed = d.elapsed := by cases testEn <;> rfl
@[simp] theorem Dev.bootFrom_mode (d : Dev) (testEn : Bool) : (d.bootFrom testEn).mode = d.mode := by cases testEn <;> rfl
@[simp] theorem Dev.bootFrom_evt (d : Dev) (testEn : Bool) : (d.bootFrom testEn).evt = d.evt := by cases testEn <;> rfl
@[simp] theorem Dev.bootFrom_keep (d : Dev) (testEn : Bool) : (d.bootFrom testEn).keep = d.keep := by cases testEn <;> rfl
@[simp] theorem Dev.bootFrom_mem (d : Dev) (testEn : Bool) : (d.bootFrom testEn).mem = d.mem := by cases testEn <;> rfl
@[simp] theorem Dev.bootFrom_time (d : Dev) (testEn : Bool) : (d.bootFrom testEn).time = d.time := by cases testEn <;> rfl
@[simp] theorem Dev.bootFrom_journal (d : Dev) (testEn : Bool) : (d.bootFrom testEn).journal = d.journal := by cases testEn <;> rfl
@[simp] theorem Dev.bootFrom_pwr (d : Dev) (testEn : Bool) : (d.bootFrom testEn).pwr = d.pwr := by cases testEn <;> rfl
@[simp] theorem Dev.bootFrom_therm (d : Dev) (testEn : Bool) : (d.bootFrom testEn).therm = d.therm := by cases testEn <;> rfl
@[simp] theorem Dev.bootFrom_srv (d : Dev) (testEn : Bool) : (d.bootFrom testEn).srv = d.srv := by cases testEn <;> rfl

@[simp] theorem Dev.bootFrom_boot (d : Dev) (testEn : Bool) : (d.bootFrom testEn).boot =
    { d.boot with step := if testEn then 0 else 1, stopped := testEn, releasedAt := d.elapsed } := by
  cases testEn <;> rfl

/-- The release of reset touches no register but `DEV_BOOT_STATUS`. -/
theorem Dev.word_bootFrom_ne (d : Dev) (testEn : Bool) {a : Nat} (h : a ≠ R.DEV_BOOT_STATUS) :
    (d.bootFrom testEn).word a = d.word a := by
  cases testEn
  · exact Dev.word_setWord_ne d _ h
  · exact (Dev.word_set_ne _ F.DEV_BOOT_STATUS_BOOT_FAIL 1 h).trans (Dev.word_setWord_ne d _ h)

/-- BOOT shows that it has stopped where `TEST_EN` reads high (R513). -/
theorem Dev.bootFrom_fail (d : Dev) (testEn : Bool) : (d.bootFrom testEn).flag F.DEV_BOOT_STATUS_BOOT_FAIL = testEn := by
  cases testEn
  · simp only [Dev.bootFrom, Bool.false_eq_true, if_false, Dev.flag, Dev.get]
    exact congrArg (fun w : Word => decide (w.field _ _ = 1)) (Dev.word_setWord_same d R.DEV_BOOT_STATUS 0)
  · exact Dev.flag_setFlag_same _ F.DEV_BOOT_STATUS_BOOT_FAIL true (by decide) rfl

/-- Without a keep-store write and a fuse operation the loss of VDD_AON only drops the reports of fuse operations. -/
theorem Dev.powerLost_idle {d : Dev} (hk : d.keep.busy = none) (hf : d.keep.fuseOp = none) :
    d.powerLost = { d with keep := { d.keep with fuseEvents := [] } } := by
  simp only [Dev.powerLost, hk, hf]

section
variable {d : Dev} (hk : d.keep.busy = none) (hf : d.keep.fuseOp = none)
include hk hf

theorem Dev.powerLost_regs : d.powerLost.regs = d.regs := by rw [Dev.powerLost_idle hk hf]
theorem Dev.powerLost_srv : d.powerLost.srv = d.srv := by rw [Dev.powerLost_idle hk hf]
theorem Dev.powerLost_keep : d.powerLost.keep = { d.keep with fuseEvents := [] } := by rw [Dev.powerLost_idle hk hf]

end

/-- Settles O11: what the loss of VAON leaves is `Dev.coldState_eq`, and the cause and the release of reset touch only
`DEV_RESET_CAUSE` and `DEV_BOOT_STATUS`. -/
theorem powerOnKeepsClassK : Obligations.PowerOnKeepsClassK := by
  intro s testEn hc hk hf hl
  have hkeep := Dev.powerLost_keep hk hf
  have hkp : s.dev.powerLost.keep.busy = none := by rw [hkeep]; exact hk
  have hcp : s.dev.powerLost.Canonical := Dev.powerLost_canonical hc
  have hdev : s.dev.withFault (fun d =>
      let d := (d.powerLost.coldState 0).resetCause rcPor 0
      if d.srv.resetLow then { d with boot := { d.boot with step := 0 } } else d.coldBoot testEn) =
      (((s.dev.powerLost.coldState 0).resetCause rcPor 0).coldBoot testEn).driveFault s.dev.faultAsserted :=
    congrArg (Dev.driveFault · _) (if_neg (by simp [Dev.resetCause, Dev.coldState_srv hkp, Dev.powerLost_srv hk hf, hl]))
  have hword : ∀ a, a ∉ [R.DEV_RESET_CAUSE, R.DEV_BOOT_STATUS] →
      ((((s.dev.powerLost.coldState 0).resetCause rcPor 0).coldBoot testEn).driveFault s.dev.faultAsserted).word a =
        (s.dev.powerLost.coldState 0).word a := fun a ha => by
    simp only [List.mem_cons, List.not_mem_nil, or_false, not_or] at ha
    exact (Dev.driveFault_word _ _ a).trans ((Dev.word_bootFrom_ne _ _ ha.2).trans (Dev.word_setWord_ne _ _ ha.1))
  refine ⟨_, rfl, rfl, ?_⟩
  simp only
  rw [hdev]
  refine ⟨?mode, ?cause, ?step, ?fail, ?time, ?elapsed, ?mem, ?bytes, ?hashes, ?retained⟩
  case mode => exact (Dev.get_of_word _ (hword _ (by decide))).trans (Dev.coldState_modeCode hcp hkp 0)
  case cause =>
    rw [Dev.driveFault_word]
    exact (Dev.word_bootFrom_ne _ _ (by decide)).trans (Dev.word_setWord_same _ _ _)
  case fail => exact (Dev.driveFault_flag _ _ _).trans (Dev.bootFrom_fail _ _)
  case retained =>
    have hret := (Dev.coldState_retains hcp hkp 0).of_words hword (fun _ h => absurd h List.not_mem_nil)
    exact hret.of_source (Dev.powerLost_regs hk hf)
  all_goals simp [Dev.coldBoot, Dev.resetCause, Dev.coldState_elapsed hkp, Dev.coldState_mem hkp, Dev.coldState_keep hkp, hkeep]

/-- What `RESET_N` low leaves of the block where no brown-out waits, before its cause and `THERM_TRIP_N` are shown (R69, R496). -/
def Dev.pinHeld (d : Dev) : Dev :=
  let c := d.coldState d.aonTime
  let report := if d.flag F.THERM_TRIP_STATUS_LOCKOUT then some (d.get F.THERM_TRIP_STATUS_SRC) else d.therm.report
  { c with
    boot := { c.boot with step := 0 }
    therm := { c.therm with restarts := if report.isSome then d.therm.restarts else [], report := report }
    srv := { c.srv with resetLow := true }
    pwr := { c.pwr with brown := none } }

/-- `RESET_N` low where no brown-out waits: `THERM_TRIP_N` rises where a thermal shutdown stood, and the cause is PIN. -/
theorem execPinReset_low {s : State} (hb : s.dev.pwr.brown = none) (testEn : Bool) :
    execPinReset true testEn s = .next { s with dev :=
      (((if s.dev.therm.shut then s.dev.pinHeld.pin pinThermTripN 1 else s.dev.pinHeld).resetCause rcPin 0).driveFault s.dev.faultAsserted) } := by
  simp only [execPinReset, State.run, Dev.withFault, if_true, hb, Option.isSome_none, Bool.and_false, Bool.false_eq_true, if_false]
  rfl

/-- `RESET_N` rises where no brown-out waits: BOOT is released as after any cold reset. -/
theorem execPinReset_rise {s : State} (hl : s.dev.srv.resetLow = true) (hb : s.dev.pwr.brown = none) (testEn : Bool) :
    execPinReset false testEn s = .next { s with dev :=
      (({ s.dev with srv := { s.dev.srv with resetLow := false } } : Dev).coldBoot testEn).driveFault s.dev.faultAsserted } := by
  simp only [execPinReset, State.run, Dev.withFault, Bool.false_eq_true, if_false, hl, hb, Option.isSome_none, Bool.not_true]

/-- A lock-out, or the report of one that waits, keeps the restart times over `RESET_N` (R496). -/
theorem restartTimes_kept (locked : Bool) (src : Nat) (report : Option Nat) (times : List Nat) :
    (if (if locked then some src else report).isSome then times else []) = if locked || report.isSome then times else [] := by
  cases locked <;> rfl

/-- Fields outside the registers that change are kept. -/
theorem Dev.FieldsKept.of_words {d e : Dev} {rs : List Nat} {fs : List Fld} (h : ∀ a, a ∉ rs → e.word a = d.word a)
    (hs : ∀ a ∈ rs, wholeReg a ∈ fs) : d.FieldsKept e fs := fun g hg ha => by
  by_cases hm : g.addr ∈ rs
  · have h0 : g.width = 0 := by
      rcases ha _ (hs _ hm) with h1 | h1 | h1
      · exact absurd rfl h1
      all_goals simp only [Fld.ok] at h1 hg; omega
    simp only [Dev.get, Word.field, h0, pow_zero, Nat.mod_one]
  · exact Dev.get_of_word g (h _ hm)

/-- Settles O12: `RESET_N` low leaves `Dev.pinHeld` with the cause PIN, and its rise is the release of a cold reset. -/
theorem pinResetAndRelease : Obligations.PinResetAndRelease := by
  refine ⟨fun s testEn hc hk hb => ⟨_, execPinReset_low hb testEn, rfl, ?_⟩,
    fun s testEn hl hb => ⟨_, execPinReset_rise hl hb testEn, rfl, ?_⟩⟩
  · obtain ⟨o, ho⟩ : ∃ o, (if s.dev.therm.shut then s.dev.pinHeld.pin pinThermTripN 1 else s.dev.pinHeld) =
        { s.dev.pinHeld with out := o } := by
      split
      · exact ⟨_, rfl⟩
      · exact ⟨s.dev.pinHeld.out, rfl⟩
    have hword : ∀ a, a ∉ [R.DEV_RESET_CAUSE] →
        ((({ s.dev.pinHeld with out := o } : Dev).resetCause rcPin 0).driveFault s.dev.faultAsserted).word a =
          (s.dev.coldState s.dev.aonTime).word a := fun a ha =>
      (Dev.driveFault_word _ _ a).trans (Dev.word_setWord_ne _ _ (by simpa using ha))
    simp only [ho]
    refine ⟨?mode, ?cause, ?step, ?low, ?mem, ?bytes, ?shut, ?restarts, ?retained⟩
    case mode => exact (Dev.get_of_word _ (hword _ (by decide))).trans (Dev.coldState_modeCode hc hk _)
    case cause => exact (Dev.driveFault_word _ _ _).trans (Dev.word_setWord_same _ _ _)
    case retained => exact (Dev.coldState_retains hc hk _).of_words hword (fun _ h => absurd h List.not_mem_nil)
    case restarts =>
      rw [← restartTimes_kept _ (s.dev.get F.THERM_TRIP_STATUS_SRC)]
      exact congrArg ThermSt.restarts (Dev.driveFault_therm _ _)
    all_goals simp [Dev.resetCause, Dev.pinHeld, Dev.coldState_mem hk, Dev.coldState_keep hk, Dev.coldState_therm hk]
  · refine ⟨?_, ?_, ?_, ?_, (Dev.driveFault_flag _ _ _).trans (Dev.bootFrom_fail _ _), ?_, ?_,
      Dev.FieldsKept.of_words (rs := [R.DEV_BOOT_STATUS]) (fun a ha => ?_) (by simp)⟩
    case refine_7 => exact (Dev.driveFault_word _ _ a).trans (Dev.word_bootFrom_ne _ _ (by simpa using ha))
    all_goals simp [Dev.coldBoot]

end Sys2Proof.Machine
end

section
/-!
A warm reset (R69, R73).
-/
namespace Sys2Proof.Machine

/-- A write of `DEV_RESET_CTRL` with its key and WARM, where it has its effect, is a warm reset (R69). -/
theorem execWarmReset_open {s : State} {v : Word} (hr : s.dev.Reaches R.DEV_RESET_CTRL) (hk : v.field 0 8 = 0xA5) (hw : v.field 8 1 = 1) :
    execWarmReset v s = .next { s with dev := s.dev.warmReset rcWarmReg } := by
  simp only [execWarmReset, State.hostCmd, State.run, Dev.gateWrite_open hr, Dev.resetCtrl, hk, hw, and_self, if_true]

/-- A mode request that waits does not outlive a warm reset. -/
theorem Dev.warmReset_pending (d : Dev) (cause : Nat) : (d.warmReset cause).flag F.DEV_MODE_REQ_PENDING = false := by
  have hmode : ∀ e : Dev, (e.modeBoot.bootFrom false).flag F.DEV_MODE_REQ_PENDING = false := fun e =>
    (Dev.flag_of_word _ (Dev.word_bootFrom_ne _ _ (by decide))).trans
      (Dev.flag_setFlag_same _ F.DEV_MODE_REQ_PENDING false (by decide) rfl)
  have hpin : ∀ (e : Dev) (p : Prop) [Decidable p], (if p then e.pin pinIrqN 1 else e).flag F.DEV_MODE_REQ_PENDING =
      e.flag F.DEV_MODE_REQ_PENDING := fun e p _ => by split <;> rfl
  simp only [Dev.warmReset, Dev.driveFault_flag, hpin, hmode]

/-- BASK with `DEV_MODE_REQ.PENDING` set and no transition. -/
def pendingInBask : State := { dev := (State.reset.dev.set F.DEV_MODE_MODE mBask).set F.DEV_MODE_REQ_PENDING 1, pending := [] }

/-- Refutes O14: `DEV_MODE_REQ.PENDING` is of class A, and a warm reset clears it, as every reset drops the mode request that
waits; `DEV_MODE_REQ` is not among the registers that the statement leaves out. In `pendingInBask` the field reads 1 before the
warm reset and 0 after it. -/
theorem not_warmResetKeepsClassesSAK : ¬ Obligations.WarmResetKeepsClassesSAK := by
  intro h
  have hr : pendingInBask.dev.Reaches R.DEV_RESET_CTRL := ⟨by decide, by decide, by decide, by decide, by decide, by decide⟩
  have hc : pendingInBask.dev.Canonical := ⟨by decide, by decide, by decide, by decide, by decide, by decide⟩
  obtain ⟨t, ht, -, -, -, -, -, -, hret⟩ := h pendingInBask 0x1A5 hc hr (by decide) (by decide) (by decide) (by decide) (by decide)
    (by decide) (by decide) (by decide)
  have hexec : t.dev = pendingInBask.dev.warmReset rcWarmReg := by
    have h' := (execWarmReset_open (v := 0x1A5) hr (by decide) (by decide)).symm.trans ht
    injection h' with h'
    rw [← h']
  have hkept : t.dev.get F.DEV_MODE_REQ_PENDING = 1 :=
    hret R.DEV_MODE_REQ (by decide) ⟨8, 1, .ro, .A, 0, false, false⟩ (by decide)
  have hcleared := Dev.warmReset_pending pendingInBask.dev rcWarmReg
  rw [← hexec, Dev.flag, hkept] at hcleared
  exact absurd hcleared (by decide)

end Sys2Proof.Machine
end

section
/-!
Events while AUX is unavailable (R57, R465, R504): what is held on-die and what is counted.
-/
namespace Sys2Proof.Machine

/-- The record of an event (R504): its flags say whether device time was locked, the record was held, one before it was lost, and
whether it names no single unit (`noInst`). -/
def Dev.eventRec (d : Dev) (code severity source : Nat) (noInst : Bool) (ctx : Nat) (items : List Item) : EventRec :=
  { stime := d.stime, code := code, source := source, severity := severity
    flags := b2n (!d.time.everLocked) + 2 * b2n (!d.evt.auxUp) + 4 * b2n d.evt.lostBefore + 8 * b2n noInst
    context := ctx, data := packItems items }

theorem Dev.raise_eq_raiseFrom (d : Dev) (code severity : Nat) (inst : Option Nat) (ctx : Nat) (items : List Item) :
    ∃ source noInst, d.raise code severity inst ctx items = d.raiseFrom code severity source noInst ctx items := by
  cases inst with
  | none => exact ⟨_, _, rfl⟩
  | some i => exact ⟨_, _, rfl⟩

section
variable {d : Dev} (haux : d.evt.auxUp = false) (code severity source : Nat) (noInst : Bool) (ctx : Nat) (items : List Item)
include haux

/-- While AUX is unavailable one of the first 32 records is held on-die. -/
theorem Dev.raiseFrom_held (hlen : d.evt.held.length < 32) : d.raiseFrom code severity source noInst ctx items =
    ({ d with evt := { d.evt with held := d.evt.held ++ [d.eventRec code severity source noInst ctx items], lostBefore := false } } :
      Dev).set F.EVT_STATUS_HELD (d.evt.held.length + 1) := by
  simp only [Dev.raiseFrom, haux, hlen, if_true, Bool.false_eq_true, if_false, Dev.eventRec]

/-- A record beyond the 32 held ones is lost and counted: before step 8 is done in `DEV_BOOT_STATUS`, later in `EVT_STATUS`. -/
theorem Dev.raiseFrom_lost (hlen : 32 ≤ d.evt.held.length) : d.raiseFrom code severity source noInst ctx items =
    if d.boot.step < 9 then ({ d with evt := { d.evt with lostBefore := true } } : Dev).addSat F.DEV_BOOT_STATUS_EVT_LOST 1
    else ({ d with evt := { d.evt with lostBefore := true } } : Dev).bump F.EVT_STATUS_LOST := by
  simp only [Dev.raiseFrom, haux, Nat.not_lt.mpr hlen, Bool.false_eq_true, if_false]

end

/-- Settles O8: a record is held as `Dev.raiseFrom_held` says and counted as `Dev.raiseFrom_lost` says; which register counts a
lost one is assumption 29. -/
theorem eventIsHeld : Obligations.EventIsHeld := by
  intro d code sev inst ctx items haux
  obtain ⟨source, noInst, hraise⟩ := d.raise_eq_raiseFrom code sev inst ctx items
  rw [hraise]
  refine ⟨fun hlen => ⟨d.eventRec code sev source noInst ctx items, ?_⟩, fun hlen => ?_⟩
  · rw [Dev.raiseFrom_held haux _ _ _ _ _ _ hlen]
    refine ⟨rfl, rfl, rfl, rfl, rfl, rfl, (Dev.get_set_same _ _ _ (by decide)).trans (Nat.mod_eq_of_lt ?_)⟩
    calc d.evt.held.length + 1 < 33 := by omega
      _ ≤ 2 ^ F.EVT_STATUS_HELD.width := by decide
  · rw [Dev.raiseFrom_lost haux _ _ _ _ _ _ hlen]
    refine ⟨by split <;> rfl, by split <;> rfl, fun hstep => ?_, fun hstep => ?_⟩
    · rw [if_neg (Nat.not_lt.mpr hstep)]
      exact Dev.get_bump_same _ _ (by decide)
    · rw [if_pos hstep]
      exact (Dev.get_set_same _ _ _ (by decide)).trans (Nat.mod_eq_of_lt (lt_of_le_of_lt (min_le_right _ _) (by decide)))

end Sys2Proof.Machine
end

section
/-!
Entering HOLD and BRUMATE (R62, R64, R68, R445): what `DEV_MODE` and the mode's state show afterwards.
-/
namespace Sys2Proof.Machine

/-! ### The keep store's counters -/

@[simp] theorem Dev.keepCount_regs (d : Dev) (k : Nat) : (d.keepCount k).regs = d.regs := Dev.keepWrite_regs _ _ _
@[simp] theorem Dev.keepCount_mode (d : Dev) (k : Nat) : (d.keepCount k).mode = d.mode := Dev.keepWrite_mode _ _ _
@[simp] theorem Dev.keepCount_boot (d : Dev) (k : Nat) : (d.keepCount k).boot = d.boot := Dev.keepWrite_boot _ _ _

@[simp] theorem Dev.keepCount_get (d : Dev) (k : Nat) (f : Fld) : (d.keepCount k).get f = d.get f :=
  Dev.get_congr (d.keepCount_regs k) f

/-! ### HOLD -/

/-- What the entry to HOLD shows once outputs are safe and work has stopped: the mode, the mode left, and no transition, chain or
request. -/
def Dev.holdShow (w : Dev) (m : Nat) : Dev :=
  let d := ((w.set F.DEV_MODE_MODE mHold).set F.DEV_MODE_PREV m).setFlag F.DEV_MODE_IN_TRANSITION false
  let d := (d.set F.DEV_SCHED_STATUS_TICKS 0).set F.DEV_SCHED_STATUS_MIGRATIONS 0
  let d := (d.set F.DEV_MODE_TARGET 0).setFlag F.DEV_MODE_REQ_PENDING false
  { d with
    mode := { d.mode with chain := [], pendingReq := none, holdMode := m, autoLatch := [] }
    boot := { d.boot with step := 9, pwrWait := false, refWait := false } }

/-- Where a cause leads to HOLD, the mode is shown, HOLD is counted, and the rest is reports. -/
theorem Dev.enterHold_reports {d : Dev} {c : Nat} (hb : d.modeCode ≠ mBrumate) (hh : d.modeCode ≠ mHold)
    (hs : d.modeCode = mBoot → 8 ≤ d.boot.step) :
    ∃ (w : Dev) (was : Bool), (((w.holdShow d.modeCode).driveFault was).keepCount 5).Reports (d.enterHold c) := by
  have hgo : ¬ (d.modeCode = mHold ∨ d.modeCode = mBoot ∧ (d.setCause c true).boot.step < 8) := by
    rintro (h | ⟨h, h8⟩)
    · exact hh h
    · exact absurd (hs h) (Nat.not_le.mpr h8)
  refine ⟨(d.setCause c true).outputsToSafe.stopWork.linksDown, (d.setCause c true).faultAsserted, ?_⟩
  rw [Dev.enterHold, if_neg hb]
  simp only [if_neg hgo]
  exact (Dev.event_reports _ _ _ _).trans (Dev.event_reports _ _ _ _)

theorem Dev.holdShow_devMode (w : Dev) (m : Nat) : (w.holdShow m).modeCode = mHold ∧ (w.holdShow m).get F.DEV_MODE_PREV = m % 8 ∧
    (w.holdShow m).inTransition = false ∧ (w.holdShow m).get F.DEV_MODE_TARGET = 0 := by
  have hregs : (w.holdShow m).regs =
      (((((((w.set F.DEV_MODE_MODE mHold).set F.DEV_MODE_PREV m).setFlag F.DEV_MODE_IN_TRANSITION false).set F.DEV_SCHED_STATUS_TICKS 0).set
        F.DEV_SCHED_STATUS_MIGRATIONS 0).set F.DEV_MODE_TARGET 0).setFlag F.DEV_MODE_REQ_PENDING false).regs := rfl
  simp only [Dev.modeCode, Dev.inTransition, Dev.flag, Dev.get_congr hregs, Dev.setFlag]
  refine ⟨?_, ?_, ?_, ?_⟩
  all_goals simp (disch := decide) only [Dev.get_set_apart, Dev.get_set_same]
  all_goals rfl

/-- Settles O28. -/
theorem holdCauseEntersHold : Obligations.HoldCauseEntersHold := by
  intro d c hb hh hs
  obtain ⟨w, was, h⟩ := Dev.enterHold_reports (c := c) hb hh hs
  obtain ⟨hmode, hprev, htrans, htarget⟩ := w.holdShow_devMode d.modeCode
  have hget : ∀ f : Fld, f.addr = R.DEV_MODE → (d.enterHold c).get f = (w.holdShow d.modeCode).get f := fun f hf =>
    (h.get f (by rw [hf]; decide)).trans (by rw [Dev.keepCount_get, Dev.driveFault_get])
  have hm : (d.enterHold c).mode = (w.holdShow d.modeCode).mode := h.mode.trans (by rw [Dev.keepCount_mode, Dev.driveFault_mode])
  have hb : (d.enterHold c).boot = (w.holdShow d.modeCode).boot := h.boot.trans (by rw [Dev.keepCount_boot, Dev.driveFault_boot])
  refine ⟨(hget _ rfl).trans hmode, ?_, ?_, (hget _ rfl).trans htarget, ?_⟩
  · rw [hget _ rfl, hprev]
    exact Nat.mod_eq_of_lt (Dev.get_lt d F.DEV_MODE_MODE)
  · rw [← htrans]
    exact congrArg (fun n : Nat => decide (n = 1)) (hget _ rfl)
  · rw [hm, hb]
    exact ⟨rfl, rfl, rfl, rfl⟩

/-! ### What keeps a part of the block through a loop -/

/-- A loop whose every turn keeps a part of the block keeps it. -/
theorem foldl_keeps {α β : Type} {p : Dev → β} {f : Dev → α → Dev} (hf : ∀ d x, p (f d x) = p d) (l : List α) (d : Dev) :
    p (l.foldl f d) = p d := by
  induction l generalizing d with
  | nil => rfl
  | cons x l ih => exact (ih _).trans (hf d x)

/-! ### Reporting while AUX is unavailable -/

/-- While AUX is unavailable an event changes neither that nor the memory. -/
theorem Dev.raise_auxDown {d : Dev} (haux : d.evt.auxUp = false) (code sev : Nat) (inst : Option Nat) (ctx : Nat) (items : List Item) :
    (d.raise code sev inst ctx items).evt.auxUp = false ∧ (d.raise code sev inst ctx items).mem = d.mem := by
  obtain ⟨source, noInst, hraise⟩ := d.raise_eq_raiseFrom code sev inst ctx items
  rw [hraise]
  rcases Nat.lt_or_ge d.evt.held.length 32 with hlen | hlen
  · rw [Dev.raiseFrom_held haux _ _ _ _ _ _ hlen, Dev.set_evt, Dev.set_mem]
    exact ⟨haux, rfl⟩
  · rw [Dev.raiseFrom_lost haux _ _ _ _ _ _ hlen]
    split
    · rw [Dev.addSat_evt, Dev.addSat_mem]
      exact ⟨haux, rfl⟩
    · rw [Dev.bump_evt, Dev.bump_mem]
      exact ⟨haux, rfl⟩

theorem Dev.event_auxDown {d : Dev} (haux : d.evt.auxUp = false) (code sev : Nat) (items : List Item) :
    (d.event code sev items).evt.auxUp = false ∧ (d.event code sev items).mem = d.mem := Dev.raise_auxDown haux ..

theorem Dev.setTimeState_auxDown {d : Dev} (haux : d.evt.auxUp = false) (st : Nat) :
    (d.setTimeState st).evt.auxUp = false ∧ (d.setTimeState st).mem = d.mem := by
  unfold Dev.setTimeState
  generalize hx : (d.set F.TIME_STATUS_STATE st).modTime (fun t => { t with good := 0, bad := 0 }) = x
  have haux' : x.evt.auxUp = false := by rw [← hx, Dev.modTime_evt, Dev.set_evt, haux]
  have hmem : x.mem = d.mem := by rw [← hx, Dev.modTime_mem, Dev.set_mem]
  dsimp only
  split
  · rw [← hmem]
    exact Dev.event_auxDown haux' _ _ _
  · exact ⟨haux', hmem⟩

/-- The always-on domain takes over device time (R386): its reports are held too. -/
theorem Dev.timeToAlwaysOn_mem {d : Dev} (haux : d.evt.auxUp = false) : d.timeToAlwaysOn.mem = d.mem := by
  obtain ⟨haux', hmem⟩ := Dev.setTimeState_auxDown haux tsHoldover
  unfold Dev.timeToAlwaysOn
  dsimp only
  split
  · rfl
  · split
    · unfold Dev.timeHoldover
      rw [(Dev.event_auxDown (by rw [Dev.set_evt, haux']) _ _ _).2, Dev.set_mem, hmem]
    · exact hmem

/-! ### Self-refresh (R445) -/

theorem Dev.setCell_evt (d : Dev) (h l : Nat) (b : Byte) : (d.setCell h l b).evt = d.evt := by
  unfold Dev.setCell
  split <;> rfl

theorem Dev.freshBlock_evt (d : Dev) (h l : Nat) : (d.freshBlock h l).evt = d.evt := by
  unfold Dev.freshBlock
  simp only
  split
  · rfl
  · split <;> rfl

theorem Dev.writeOut_evt (d : Dev) (b : StripeBuf) : (d.writeOut b).evt = d.evt := by
  refine foldl_keeps (p := Dev.evt) (fun d g => ?_) b.gran d
  refine (foldl_keeps (p := Dev.evt) (fun d i => ?_) _ _).trans ?_
  · exact (Dev.setCell_evt _ _ _ _).trans (Dev.setCell_evt _ _ _ _)
  · exact (Dev.freshBlock_evt _ _ _).trans (Dev.freshBlock_evt _ _ _)

theorem Dev.selfRefresh_evt (d : Dev) : d.selfRefresh.evt = d.evt :=
  foldl_keeps (p := Dev.evt) Dev.writeOut_evt d.mem.bufs d

/-! ### BRUMATE -/

theorem Dev.keepSettle_mem (d : Dev) : d.keepSettle.mem = d.mem := by
  unfold Dev.keepSettle
  split <;> rfl

theorem Dev.freeLoan_regs_only (d : Dev) (block e : Nat) : ∃ r, d.freeLoan block e = { d with regs := r } := by
  unfold Dev.freeLoan
  split
  · exact ⟨_, rfl⟩
  · split <;> exact ⟨_, rfl⟩

/-- The end of the loans frees their spares: a part of the block that is neither register nor loan stays. -/
theorem Dev.endLoans_keeps {β : Type} {p : Dev → β} (hregs : ∀ d r, p { d with regs := r } = p d)
    (hloans : ∀ d : Dev, p { d with blockReset := none, srv := { d.srv with returns := [] } } = p d) (d : Dev) :
    p d.endLoans = p d := by
  have hfree : ∀ (d : Dev) (block e : Nat), p (d.freeLoan block e) = p d := fun d block e => by
    obtain ⟨r, hr⟩ := d.freeLoan_regs_only block e
    rw [hr]
    exact hregs d r
  have hset : ∀ (d : Dev) (f : Fld) (v : Nat), p (d.set f v) = p d := fun d _ _ => hregs d _
  have hcaps : ∀ d : Dev, p d.showCaps = p d := fun d => (hset _ _ _).trans ((hset _ _ _).trans (hset _ _ _))
  refine (hcaps _).trans ?_
  refine (hloans _).trans ?_
  refine (foldl_keeps (fun d (x : Nat × Nat) => hfree d x.1 x.2) _ _).trans ?_
  split
  · split
    · exact hfree d _ _
    · rfl
  · rfl

theorem Dev.endLoans_pwr (d : Dev) : d.endLoans.pwr = d.pwr := Dev.endLoans_keeps (p := Dev.pwr) (fun _ _ => rfl) (fun _ => rfl) d

theorem Dev.endLoans_mem (d : Dev) : d.endLoans.mem = d.mem := Dev.endLoans_keeps (p := Dev.mem) (fun _ _ => rfl) (fun _ => rfl) d

theorem Dev.setLock_main (d : Dev) (b : Bool) : d.setLock 0 b = d.set F.CLK_PLL_STATUS_MAIN (b2n b) := rfl

theorem Dev.coreOff_eq (d : Dev) : d.coreOff =
    if d.irqAsserted then ((d.endLoans.offFields.set F.EVT_STATUS_HELD d.endLoans.offFields.evt.held.length).setLock 0 false).pin pinIrqN 1
    else (d.endLoans.offFields.set F.EVT_STATUS_HELD d.endLoans.offFields.evt.held.length).setLock 0 false := rfl

theorem Dev.coreOff_pwr (d : Dev) : d.coreOff.pwr = { coreEn := d.pwr.coreEn, hbmEn := d.pwr.hbmEn } := by
  rw [← d.endLoans_pwr, d.coreOff_eq]
  split
  · rw [Dev.pin_pwr, Dev.setLock_main, Dev.set_pwr, Dev.set_pwr, Dev.offFields]
  · rw [Dev.setLock_main, Dev.set_pwr, Dev.set_pwr, Dev.offFields]

theorem Dev.coreOff_selfRefresh (d : Dev) : d.coreOff.mem.selfRefresh = d.mem.selfRefresh := by
  rw [← d.endLoans_mem, d.coreOff_eq]
  split
  · rw [Dev.pin_mem, Dev.setLock_main, Dev.set_mem, Dev.set_mem, Dev.offFields]
  · rw [Dev.setLock_main, Dev.set_mem, Dev.set_mem, Dev.offFields]

/-- With the core's power off AUX is unavailable. -/
theorem Dev.coreOff_auxDown (d : Dev) : d.coreOff.evt.auxUp = false := by
  rw [d.coreOff_eq]
  split
  · rw [Dev.pin_evt, Dev.setLock_main, Dev.set_evt, Dev.set_evt, Dev.offFields]
  · rw [Dev.setLock_main, Dev.set_evt, Dev.set_evt, Dev.offFields]

/-- `DEV_MODE` shows the mode entered, the mode left and no transition. -/
theorem Dev.showMode_devMode (d : Dev) (old new : Nat) : (d.showMode old new).modeCode = new % 8 ∧
    (d.showMode old new).get F.DEV_MODE_PREV = old % 8 ∧ (d.showMode old new).inTransition = false ∧
    (d.showMode old new).get F.DEV_MODE_TARGET = 0 := by
  have h : ∀ f : Fld, f.addr = R.DEV_MODE → (d.showMode old new).get f =
      ((((d.set F.DEV_MODE_MODE new).set F.DEV_MODE_PREV old).set F.DEV_MODE_TARGET 0).setFlag F.DEV_MODE_IN_TRANSITION false).get f :=
    fun f hf => (Dev.event_reports _ _ _ _).get f (by rw [hf]; decide)
  simp only [Dev.modeCode, Dev.inTransition, Dev.flag, h F.DEV_MODE_MODE rfl, h F.DEV_MODE_PREV rfl, h F.DEV_MODE_IN_TRANSITION rfl,
    h F.DEV_MODE_TARGET rfl, Dev.setFlag]
  refine ⟨?_, ?_, ?_, ?_⟩
  all_goals simp (disch := decide) only [Dev.get_set_apart, Dev.get_set_same]
  all_goals rfl

/-- Beside `DEV_MODE` it only reports the entry. -/
theorem Dev.showMode_touches (d : Dev) (old new : Nat) : d.Touches (R.DEV_MODE :: reportRegs) (d.showMode old new) := by
  refine Dev.Touches.trans ?_ ((Dev.event_reports _ _ _ _).mono (fun a h => List.mem_cons_of_mem _ h))
  have hset : ∀ (e : Dev) (f : Fld) (v : Nat), f.addr = R.DEV_MODE → e.Touches (R.DEV_MODE :: reportRegs) (e.set f v) :=
    fun e f v hf => Dev.set_touches e f v (by rw [hf]; exact List.mem_cons_self)
  exact (((hset _ _ _ rfl).trans (hset _ _ _ rfl)).trans (hset _ _ _ rfl)).trans (hset _ _ _ rfl)

/-- While AUX is unavailable the report of the entry is held. -/
theorem Dev.showMode_auxDown {d : Dev} (haux : d.evt.auxUp = false) (old new : Nat) :
    (d.showMode old new).evt.auxUp = false ∧ (d.showMode old new).mem = d.mem := by
  have h := Dev.event_auxDown
    (d := ((((d.set F.DEV_MODE_MODE new).set F.DEV_MODE_PREV old).set F.DEV_MODE_TARGET 0).setFlag F.DEV_MODE_IN_TRANSITION false))
    (by rw [Dev.setFlag_evt, Dev.set_evt, Dev.set_evt, Dev.set_evt, haux]) 0x0101 sevInfo [u8 old, u8 new]
  rw [Dev.setFlag_mem, Dev.set_mem, Dev.set_mem, Dev.set_mem] at h
  exact h

/-- The stacks in self-refresh, with the counting of device time and the rails switched over for BRUMATE (R62, R445, R467). -/
def Dev.brumateRails (d : Dev) : Dev :=
  ((d.journalAll.stopOutputs.linksDown.outputsToSafe.holdEvents).selfRefresh.timeToAlwaysOn.keepSettle).setRails false true

theorem Dev.brumateEnter_eq (d : Dev) (old : Nat) :
    d.brumateEnter old = (d.brumateRails.coreOff.set F.MEM_STATUS_POWER 2).showMode old mBrumate := rfl

theorem Dev.brumateRails_pwr (d : Dev) : d.brumateRails.pwr.coreEn = false ∧ d.brumateRails.pwr.hbmEn = true := by
  obtain ⟨r, o, h, -⟩ := Dev.setRails_eq
    ((d.journalAll.stopOutputs.linksDown.outputsToSafe.holdEvents).selfRefresh.timeToAlwaysOn.keepSettle) false true
  rw [Dev.brumateRails, h]
  exact ⟨rfl, rfl⟩

theorem Dev.brumateRails_selfRefresh (d : Dev) : d.brumateRails.mem.selfRefresh = true := by
  generalize hx : d.journalAll.stopOutputs.linksDown.outputsToSafe.holdEvents = x
  have haux : x.selfRefresh.evt.auxUp = false := by rw [x.selfRefresh_evt, ← hx, Dev.holdEvents]
  obtain ⟨r, o, h, -⟩ := Dev.setRails_eq (x.selfRefresh.timeToAlwaysOn.keepSettle) false true
  have hmem : d.brumateRails.mem = x.selfRefresh.mem := by
    rw [Dev.brumateRails, hx, h]
    exact (Dev.keepSettle_mem _).trans (Dev.timeToAlwaysOn_mem haux)
  rw [hmem, Dev.selfRefresh]

/-- Settles O26: the core's power goes off with the stacks in self-refresh, and `DEV_MODE` shows BRUMATE last, while events are held
on-die (assumption 142). -/
theorem brumateEntry : Obligations.BrumateEntry := by
  intro s hm ht htarget
  have harrive : (if s.dev.inTransition then s.dev.arrive.settleMode else s.dev) = (s.dev.brumateEnter mBask).settleMode := by
    rw [if_pos ht, Dev.arrive]
    dsimp only
    rw [if_pos htarget, hm]
  refine ⟨_, rfl, rfl, s.dev.brumateEnter mBask, harrive, ?_⟩
  rw [Dev.brumateEnter_eq]
  generalize hx : s.dev.brumateRails.coreOff.set F.MEM_STATUS_POWER 2 = x
  have htouch := x.showMode_touches mBask mBrumate
  obtain ⟨hmode, hprev, htrans, htgt⟩ := x.showMode_devMode mBask mBrumate
  obtain ⟨hcore, hhbm⟩ := s.dev.brumateRails_pwr
  obtain ⟨haux', hmem⟩ := Dev.showMode_auxDown (d := x) (by rw [← hx, Dev.set_evt, Dev.coreOff_auxDown]) mBask mBrumate
  refine ⟨hmode, hprev, htrans, htgt, ?_, ?_, ?_, ?_, haux'⟩
  · rw [htouch.pwr, ← hx, Dev.set_pwr, Dev.coreOff_pwr, hcore]
  · rw [htouch.pwr, ← hx, Dev.set_pwr, Dev.coreOff_pwr, hhbm]
  · rw [hmem, ← hx, Dev.set_mem, Dev.coreOff_selfRefresh, Dev.brumateRails_selfRefresh]
  · rw [htouch.get _ (by decide), ← hx]
    exact Dev.get_set_same _ _ _ (by decide)

end Sys2Proof.Machine
end

section
/-!
Headers, slots and the lock of PLL_MAIN at boot (R41, R52-R55).
-/
namespace Sys2Proof.Machine

/-! ### Shared steps of BOOT -/

theorem sliceBytes_all {l : List Byte} {n : Nat} (h : l.length = n) : sliceBytes l 0 n = l := by
  simp [sliceBytes, ← h]

theorem slotResultFld_addr (slot : Nat) : (slotResultFld slot).addr = R.DEV_BOOT_STATUS := by
  unfold slotResultFld
  split <;> rfl

theorem Dev.hdrBad_reports (d : Dev) (slot result : Nat) : d.Reports (d.hdrBad slot result) := by
  unfold Dev.hdrBad
  split
  · exact Dev.Touches.refl d _
  · exact (Dev.set_touches d _ _ (by rw [slotResultFld_addr]; decide)).trans (Dev.event_reports _ _ _ _)

@[simp] theorem Dev.hdrBad_valid (d : Dev) (slot : Nat) : d.hdrBad slot 1 = d := if_pos rfl

theorem Dev.bootStop_boot (d : Dev) : d.bootStop.boot = { d.boot with stopped := true } := by
  simp [Dev.bootStop, Dev.withFault, Dev.modBoot]

theorem Dev.bootStop_mode (d : Dev) : d.bootStop.mode = d.mode := by
  simp [Dev.bootStop, Dev.withFault, Dev.modBoot]

theorem Dev.bootStop_fail (d : Dev) : d.bootStop.flag F.DEV_BOOT_STATUS_BOOT_FAIL = true := by
  rw [Dev.bootStop, Dev.withFault, Dev.driveFault_flag]
  exact Dev.flag_setFlag_same d F.DEV_BOOT_STATUS_BOOT_FAIL true (by decide) rfl

theorem Dev.word_bootStop_ne (d : Dev) {a : Nat} (h : a ≠ R.DEV_BOOT_STATUS) : d.bootStop.word a = d.word a := by
  rw [Dev.bootStop, Dev.withFault, Dev.driveFault_word]
  exact Dev.word_set_ne d F.DEV_BOOT_STATUS_BOOT_FAIL _ h

/-- BOOT does not go on from step 3 before PLL_MAIN has locked, nor from any other step. -/
theorem Dev.bootAdvance_waits {d : Dev} (h : d.boot.step ≠ 3 ∨ d.mainLocked = false) : d.bootAdvance = d := by
  refine if_neg ?_
  rintro ⟨-, hstep, -, -, hlock, -⟩
  rcases h with h | h
  · exact h hstep
  · rw [h] at hlock
    cases hlock

theorem Dev.bootAdvance_modBoot {d : Dev} (h : d.mainLocked = false) (f : BootSt → BootSt) :
    (d.modBoot f).bootAdvance = d.modBoot f :=
  Dev.bootAdvance_waits (.inr ((Dev.flag_of_word _ (Dev.word_congr (d.modBoot_regs f) _)).trans h))

/-- What reports leave, with the boot controller changed before `BOOT_FAIL` stops it. -/
theorem Dev.Touches.bootStopped {d e : Dev} (h : d.Reports e) (f : BootSt → BootSt) :
    ((e.modBoot f).bootStop).flag F.DEV_BOOT_STATUS_BOOT_FAIL = true ∧
      ((e.modBoot f).bootStop).boot = { f d.boot with stopped := true } ∧ ((e.modBoot f).bootStop).mode = d.mode ∧
      d.FieldsKept ((e.modBoot f).bootStop) (reportRegs.map wholeReg) := by
  refine ⟨Dev.bootStop_fail _, ?_, ?_, Dev.FieldsKept.of_words (rs := reportRegs) (fun a ha => ?_) (fun a ha => List.mem_map_of_mem ha)⟩
  · rw [Dev.bootStop_boot, Dev.modBoot, h.boot]
  · rw [Dev.bootStop_mode, Dev.modBoot_mode, h.mode]
  · rw [Dev.word_bootStop_ne _ (fun h => ha (by rw [h]; decide)), ← h.words a ha]
    exact Dev.word_congr (Dev.modBoot_regs e f) a

/-! ### HEADERS_READ -/

/-- The result of slot B's header: none where slot B is absent (R41). -/
def Dev.hdrResultB (d : Dev) (a b : List Byte) : Option Nat := if a = b then none else some (hdrResult b (d.get F.FUSE_ID_STEP))

/-- The block once the invalid headers are reported. -/
def Dev.hdrsReported (d : Dev) (a b : List Byte) : Dev :=
  (d.hdrBad 0 (hdrResult a (d.get F.FUSE_ID_STEP))).hdrBad 1 ((d.hdrResultB a b).getD 1)

theorem Dev.hdrsReported_reports (d : Dev) (a b : List Byte) : d.Reports (d.hdrsReported a b) :=
  (d.hdrBad_reports _ _).trans (Dev.hdrBad_reports _ _ _)

section
variable {s : State} {a b : List Byte} (hm : s.dev.modeCode = mBoot) (hs : s.dev.boot.step = 2) (ha : a.length = 256)
  (hb : b.length = 256)
include hm hs ha hb

/-- HEADERS_READ at step 2 with a slot to try: step 3. -/
theorem execHeadersRead_cons {f : Nat} {rest : List Nat}
    (h : slotOrder a b (hdrResult a (s.dev.get F.FUSE_ID_STEP)) (s.dev.hdrResultB a b) = f :: rest) :
    execHeadersRead a b s = .next { s with dev := ((s.dev.hdrsReported a b).modBoot (fun x =>
      { x with step := 3, hdrA := a, hdrB := b, slot := f, first := f, toTry := rest })).bootAdvance } := by
  unfold Dev.hdrResultB at h
  simp only [execHeadersRead, State.run, hm, hs, ne_eq, not_true_eq_false, or_self, if_false, sliceBytes_all ha, sliceBytes_all hb, h]
  rfl

/-- HEADERS_READ at step 2 without a slot to try: BOOT stops. -/
theorem execHeadersRead_nil (h : slotOrder a b (hdrResult a (s.dev.get F.FUSE_ID_STEP)) (s.dev.hdrResultB a b) = []) :
    execHeadersRead a b s = .next { s with dev :=
      ((s.dev.hdrsReported a b).modBoot (fun x => { x with step := 3, hdrA := a, hdrB := b })).bootStop } := by
  unfold Dev.hdrResultB at h
  simp only [execHeadersRead, State.run, hm, hs, ne_eq, not_true_eq_false, or_self, if_false, sliceBytes_all ha, sliceBytes_all hb, h]
  rfl

end

/-- Of two valid slots the one whose SEQ is not behind the other's is tried first (R53). -/
theorem slotOrder_valid (a b : List Byte) : ∃ f, slotOrder a b 1 (some 1) = [f, 1 - f] ∧ f ≤ 1 ∧
    (f = 1 ↔ signed 32 (toBits 32 ((hdrSeq a : Int) - hdrSeq b)) < 0) := by
  unfold slotOrder
  by_cases h : signed 32 (toBits 32 ((hdrSeq a : Int) - hdrSeq b)) < 0
  · exact ⟨1, if_pos h, le_rfl, iff_of_true rfl h⟩
  · exact ⟨0, if_neg h, Nat.zero_le _, iff_of_false (by decide) h⟩

theorem slotOrder_invalid (a b : List Byte) {ra : Nat} {rb : Option Nat} (ha : ra ≠ 1) (hb : rb ≠ some 1) : slotOrder a b ra rb = [] := by
  unfold slotOrder
  split
  · exact absurd rfl ha
  · exact absurd rfl ha
  · exact absurd rfl hb
  · rfl

/-- Settles O19. -/
theorem headersChooseSlot : Obligations.HeadersChooseSlot := by
  refine ⟨fun s a b hm hs hl ha hb hne hra hrb => ?_, fun s a b hm hs ha hb hne hra hrb => ?_⟩
  · obtain ⟨f, hord, hle, hiff⟩ := slotOrder_valid a b
    have hB : s.dev.hdrResultB a b = some 1 := by rw [Dev.hdrResultB, if_neg hne, hrb]
    have hrep : s.dev.hdrsReported a b = s.dev := by
      rw [Dev.hdrsReported, hra, hB, Option.getD_some, Dev.hdrBad_valid, Dev.hdrBad_valid]
    refine ⟨_, execHeadersRead_cons hm hs ha hb (by rw [hra, hB, hord]), rfl, ?_⟩
    rw [hrep, Dev.bootAdvance_modBoot hl]
    exact ⟨hiff, hle, rfl⟩
  · have hB : s.dev.hdrResultB a b ≠ some 1 := by
      rw [Dev.hdrResultB, if_neg hne]
      exact fun h => hrb (Option.some.inj h)
    exact ⟨_, execHeadersRead_nil hm hs ha hb (slotOrder_invalid a b hra hB), rfl, (s.dev.hdrsReported_reports a b).bootStopped _⟩

/-- Settles O20: with equal headers there is no result for slot B (R41), so none is reported and it is not tried (assumption 48). -/
theorem identicalHeadersMeanNoSlotB : Obligations.IdenticalHeadersMeanNoSlotB := by
  have hB : ∀ (d : Dev) (a : List Byte), d.hdrResultB a a = none := fun d a => if_pos rfl
  have hrep : ∀ (d : Dev) (a : List Byte), d.hdrsReported a a = d.hdrBad 0 (hdrResult a (d.get F.FUSE_ID_STEP)) := fun d a => by
    rw [Dev.hdrsReported, hB, Option.getD_none, Dev.hdrBad_valid]
  refine ⟨fun s a hm hs hl ha hra => ?_, fun s a hm hs ha hra => ?_⟩
  · refine ⟨_, execHeadersRead_cons hm hs ha ha (f := 0) (rest := []) (by rw [hra, hB]; rfl), rfl, ?_⟩
    rw [hrep, hra, Dev.hdrBad_valid]
    exact Dev.bootAdvance_modBoot hl _
  · refine ⟨_, execHeadersRead_nil hm hs ha ha (slotOrder_invalid a a hra (by rw [hB]; decide)), rfl, _, rfl, ?_⟩
    rw [hrep, Dev.hdrBad, if_neg hra]
    rfl

/-! ### PLL_MAIN_LOCKED -/

/-- The reference that PLL_MAIN locks to: the preferred one where it is valid, else the other. -/
def Dev.lockRef (d : Dev) : Nat := if d.refOk (d.get F.CLK_REF_CFG_PREF) then d.get F.CLK_REF_CFG_PREF else 1 - d.get F.CLK_REF_CFG_PREF

/-- What the lock shows: MAIN, the active reference at offset 0, the other not measured, and the signs of a loss cleared. -/
def Dev.showLock (d : Dev) : Dev :=
  ((((((d.set F.CLK_PLL_STATUS_MAIN 1).set F.CLK_REF_STATUS_ACTIVE d.lockRef).set (refPpm d.lockRef) 0).set
    F.CLK_REF_STATUS_BOTH_LOST 0).set (refPpm (1 - d.lockRef)) ppmNone).set F.CLK_REF_STATUS_HOLDOVER 0).set F.CLK_REF_STATUS_SLEWING 0

theorem execPllMainLocked_boot {s : State} (hm : s.dev.modeCode = mBoot) (h2 : 2 ≤ s.dev.boot.step) (h3 : s.dev.boot.step ≠ 3)
    (hl : s.dev.mainLocked = false) (hr : (s.dev.refOk 0 || s.dev.refOk 1) = true) :
    execPllMainLocked s = .next { s with dev := s.dev.showLock } := by
  have hadv : s.dev.showLock.bootAdvance = s.dev.showLock := Dev.bootAdvance_waits (.inl h3)
  rw [← hadv]
  simp only [execPllMainLocked, State.run, hm, if_true, h2, decide_true, hl, hr, Bool.not_true, Bool.or_self, Bool.false_eq_true, if_false]
  rfl

theorem Dev.lockRef_le (d : Dev) : d.lockRef ≤ 1 := by
  have h := d.get_lt F.CLK_REF_CFG_PREF
  rw [show F.CLK_REF_CFG_PREF.width = 1 from rfl] at h
  unfold Dev.lockRef
  split <;> omega

theorem Dev.Only.refl (d : Dev) (fs : List Fld) : d.Only d fs := ⟨rfl, rfl, Dev.FieldsKept.refl d fs⟩

/-- One more of the fields named may be put. -/
theorem Dev.Only.set {d e : Dev} {fs : List Fld} (h : d.Only e fs) {f : Fld} (v : Nat) (hf : f ∈ fs) (hok : f.ok) : d.Only (e.set f v) fs := by
  obtain ⟨hsame, heff, hkept⟩ := h
  refine ⟨?_, heff, hkept.trans (Dev.set_kept e v hf hok)⟩
  have := congrArg (fun x : Dev => { x with regs := (e.set f v).regs }) hsame
  exact this

theorem refPpm_of_le {r : Nat} (h : r ≤ 1) : refPpm r = F.CLK_REF_STATUS_A_PPM ∧ refPpm (1 - r) = F.CLK_REF_STATUS_B_PPM ∨
    refPpm r = F.CLK_REF_STATUS_B_PPM ∧ refPpm (1 - r) = F.CLK_REF_STATUS_A_PPM := by
  rcases Nat.le_one_iff_eq_zero_or_eq_one.mp h with rfl | rfl
  · exact .inl ⟨rfl, rfl⟩
  · exact .inr ⟨rfl, rfl⟩

theorem Dev.showLock_shows (d : Dev) : d.showLock.get F.CLK_PLL_STATUS_MAIN = 1 ∧ d.showLock.get F.CLK_REF_STATUS_ACTIVE = d.lockRef ∧
    d.showLock.get F.CLK_REF_STATUS_BOTH_LOST = 0 ∧ d.showLock.get F.CLK_REF_STATUS_HOLDOVER = 0 ∧
    d.showLock.get F.CLK_REF_STATUS_SLEWING = 0 := by
  have hactive : d.lockRef % 2 ^ F.CLK_REF_STATUS_ACTIVE.width = d.lockRef := Nat.mod_eq_of_lt (Nat.lt_succ_of_le d.lockRef_le)
  unfold Dev.showLock
  rcases refPpm_of_le d.lockRef_le with ⟨h1, h2⟩ | ⟨h1, h2⟩
  all_goals
    rw [h1, h2]
    simp (disch := decide) only [Dev.get_set_apart, Dev.get_set_same, hactive]
    exact ⟨rfl, trivial, rfl, rfl, rfl⟩

theorem Dev.showLock_only (d : Dev) : d.Only d.showLock [F.CLK_PLL_STATUS_MAIN, F.CLK_REF_STATUS_ACTIVE, F.CLK_REF_STATUS_BOTH_LOST,
    F.CLK_REF_STATUS_HOLDOVER, F.CLK_REF_STATUS_SLEWING, refPpm 0, refPpm 1] := by
  unfold Dev.showLock
  rcases refPpm_of_le d.lockRef_le with ⟨h1, h2⟩ | ⟨h1, h2⟩
  all_goals
    rw [h1, h2]
    refine Dev.Only.set (Dev.Only.set (Dev.Only.set (Dev.Only.set (Dev.Only.set (Dev.Only.set (Dev.Only.set (Dev.Only.refl d _)
      _ ?_ ?_) _ ?_ ?_) _ ?_ ?_) _ ?_ ?_) _ ?_ ?_) _ ?_ ?_) _ ?_ ?_
    all_goals decide

/-! ### SLOT_READ_DONE -/

/-- The report of a slot that fails. -/
def Dev.slotFailed (d : Dev) (r : Nat) : Dev :=
  (d.set (slotResultFld d.boot.slot) r).event 0x0502 sevDegraded [u8 d.boot.slot, u8 r]

theorem Dev.slotFailed_reports (d : Dev) (r : Nat) : d.Reports (d.slotFailed r) :=
  (Dev.set_touches d _ _ (by rw [slotResultFld_addr]; decide)).trans (Dev.event_reports _ _ _ _)

section
variable {s : State} {image : List Byte} (hm : s.dev.modeCode = mBoot) (hs : s.dev.boot.step = 4) (hrun : s.dev.boot.stopped = false)
  (hlen : image.length = hdrImgLen (s.dev.slotHdr s.dev.boot.slot))
include hm hs hrun hlen

/-- A slot that passes. -/
theorem execSlotReadDone_pass (hr : s.dev.slotResult image = 1) : execSlotReadDone image s = .next { s with dev := s.dev.slotPass image } := by
  simp only [execSlotReadDone, State.run, hm, hs, hrun, ne_eq, not_true_eq_false, Bool.false_eq_true, or_self, if_false,
    sliceBytes_all hlen, hr, if_true]

/-- A slot that fails with another still to try. -/
theorem execSlotReadDone_next (hr : s.dev.slotResult image ≠ 1) {next : Nat} {rest : List Nat} (ht : s.dev.boot.toTry = next :: rest) :
    execSlotReadDone image s = .next { s with dev :=
      (s.dev.slotFailed (s.dev.slotResult image)).modBoot (fun b => { b with slot := next, toTry := rest }) } := by
  have htry : (s.dev.slotFailed (s.dev.slotResult image)).boot.toTry = next :: rest := by
    rw [(s.dev.slotFailed_reports _).boot, ht]
  unfold Dev.slotFailed at htry
  simp only [execSlotReadDone, State.run, hm, hs, hrun, ne_eq, not_true_eq_false, Bool.false_eq_true, or_self, if_false,
    sliceBytes_all hlen, hr, htry]
  rfl

/-- A slot that fails with none left. -/
theorem execSlotReadDone_last (hr : s.dev.slotResult image ≠ 1) (ht : s.dev.boot.toTry = []) :
    execSlotReadDone image s = .next { s with dev := (s.dev.slotFailed (s.dev.slotResult image)).bootStop } := by
  have htry : (s.dev.slotFailed (s.dev.slotResult image)).boot.toTry = [] := by
    rw [(s.dev.slotFailed_reports _).boot, ht]
  unfold Dev.slotFailed at htry
  simp only [execSlotReadDone, State.run, hm, hs, hrun, ne_eq, not_true_eq_false, Bool.false_eq_true, or_self, if_false,
    sliceBytes_all hlen, hr, htry]
  rfl

end

theorem slotResultFld_cases (slot : Nat) : slotResultFld slot = F.DEV_BOOT_STATUS_A_RESULT ∨
    slotResultFld slot = F.DEV_BOOT_STATUS_B_RESULT := by
  unfold slotResultFld
  split
  · exact .inl rfl
  · exact .inr rfl

/-- What a slot that passes shows. -/
def Dev.slotShown (d : Dev) (key : Nat) : Dev :=
  ((d.set (slotResultFld d.boot.slot) 1).set F.DEV_BOOT_STATUS_SLOT d.boot.slot).set F.DEV_BOOT_STATUS_KEY_USED key

/-- The first slot tried passes under keys that are not blank: nothing is reported. -/
theorem Dev.slotPass_first {d : Dev} (hf : d.boot.slot = d.boot.first) (hk : d.keysBlank = false) (image : List Byte) :
    d.slotPass image = { d.slotShown (hdrKeySlot image) with
      mode := { d.mode with autoResume := hdrFlags image % 2 = 1, startMode := hdrStartMode image }
      boot := { d.boot with step := 6, image := image } } := by
  have hkeys : ((d.set (slotResultFld d.boot.slot) 1).set F.DEV_BOOT_STATUS_SLOT d.boot.slot).keysBlank = false := by
    have hword : ((d.set (slotResultFld d.boot.slot) 1).set F.DEV_BOOT_STATUS_SLOT d.boot.slot).word R.FUSE_KEYS = d.word R.FUSE_KEYS :=
      (Dev.word_set_ne _ _ _ (by decide)).trans (Dev.word_set_ne _ _ _ (by rw [slotResultFld_addr]; decide))
    simpa only [Dev.keysBlank, Dev.keyState, hword] using hk
  simp only [Dev.slotPass, Dev.set_boot, eq_true hf, if_true, hkeys, Bool.false_eq_true, if_false]
  rfl

theorem Dev.slotShown_shows {d : Dev} (h : d.boot.slot ≤ 1) (key : Nat) : (d.slotShown key).get (slotResultFld d.boot.slot) = 1 ∧
    (d.slotShown key).get F.DEV_BOOT_STATUS_SLOT = d.boot.slot := by
  have hslot : d.boot.slot % 2 ^ F.DEV_BOOT_STATUS_SLOT.width = d.boot.slot := Nat.mod_eq_of_lt (Nat.lt_succ_of_le h)
  unfold Dev.slotShown
  rcases slotResultFld_cases d.boot.slot with hf | hf
  all_goals
    rw [hf]
    simp (disch := decide) only [Dev.get_set_apart, Dev.get_set_same, hslot]
    exact ⟨rfl, trivial⟩

theorem Dev.slotShown_only (d : Dev) (key : Nat) : d.Only (d.slotShown key)
    [slotResultFld d.boot.slot, F.DEV_BOOT_STATUS_SLOT, F.DEV_BOOT_STATUS_KEY_USED] := by
  unfold Dev.slotShown
  rcases slotResultFld_cases d.boot.slot with hf | hf
  all_goals
    rw [hf]
    refine Dev.Only.set (Dev.Only.set (Dev.Only.set (Dev.Only.refl d _) _ ?_ ?_) _ ?_ ?_) _ ?_ ?_
    all_goals decide

/-- Settles O21. -/
theorem clockAndSlots : Obligations.ClockAndSlots := by
  refine ⟨fun s hm h2 h3 hl hr => ⟨_, execPllMainLocked_boot hm h2 h3 hl hr, rfl, ?_⟩,
    fun s image hm hs hrun hf hle hk hlen hr => ⟨_, execSlotReadDone_pass hm hs hrun hlen hr, rfl, ?_⟩,
    fun s image next rest hm hs hrun ht hlen hr => ⟨_, execSlotReadDone_next hm hs hrun hlen hr ht, rfl, ?_⟩,
    fun s image hm hs hrun ht hlen hr => ⟨_, execSlotReadDone_last hm hs hrun hlen hr ht, rfl, ?_⟩⟩
  · obtain ⟨hmain, hactive, hboth, hhold, hslew⟩ := s.dev.showLock_shows
    exact ⟨decide_eq_true hmain, hactive, hboth, hhold, hslew, s.dev.showLock_only⟩
  · obtain ⟨hresult, hslot⟩ := Dev.slotShown_shows hle (hdrKeySlot image)
    obtain ⟨-, -, hkept⟩ := s.dev.slotShown_only (hdrKeySlot image)
    have hmem : (s.dev.slotShown (hdrKeySlot image)).mem = s.dev.mem := by simp only [Dev.slotShown, Dev.set_mem]
    have hout : (s.dev.slotShown (hdrKeySlot image)).out = s.dev.out := by simp only [Dev.slotShown, Dev.set_out]
    rw [show State.dev _ = _ from Dev.slotPass_first hf hk image]
    generalize s.dev.slotShown (hdrKeySlot image) = shown at hresult hslot hkept hmem hout ⊢
    exact ⟨rfl, hresult, hslot, rfl, decide_eq_true_iff, hkept, hmem, hout⟩
  · have hrep := s.dev.slotFailed_reports (s.dev.slotResult image)
    refine ⟨?_, ?_, Dev.FieldsKept.trans (hrep.kept _ (fun a ha => List.mem_map_of_mem ha)) (Dev.FieldsKept.of_regs (Dev.modBoot_regs _ _) _)⟩
    · rw [← hrep.boot]
      rfl
    · rw [← hrep.mode]
      rfl
  · exact (s.dev.slotFailed_reports (s.dev.slotResult image)).bootStopped id

end Sys2Proof.Machine
end

section
/-!
A coding engine that fails, and the spare that takes its rows by checkpoint (R311-R314).
-/
namespace Sys2Proof.Machine

/-! ### Counters of the keep store -/

@[simp] theorem length_bytesLE (n v : Nat) : (bytesLE n v).length = n := by
  induction n generalizing v with
  | zero => rfl
  | succ n ih => simp [bytesLE, ih]

theorem leNat_bytesLE (n v : Nat) : leNat (bytesLE n v) = v % 256 ^ n := by
  induction n generalizing v with
  | zero => simp [bytesLE, leNat, Nat.mod_one]
  | succ n ih =>
    rw [bytesLE, leNat, ih, BitVec.toNat_ofNat, Nat.pow_succ' (n := n), Nat.mod_mul]

/-- Storing from `a` on leaves what lies below `a`. -/
theorem get_keepStore_below (m : Sparse Byte) {a k : Nat} (bs : List Byte) (h : k < a) :
    Sparse.get keepDefault (keepStore m a bs) k = Sparse.get keepDefault m k := by
  induction bs generalizing m a with
  | nil => rfl
  | cons b bs ih => rw [keepStore, ih _ (by omega), Sparse.get_put_ne _ _ _ (by omega)]

/-- The bytes stored from `a` on read back. -/
theorem map_get_keepStore (m : Sparse Byte) (a : Nat) (bs : List Byte) :
    (List.range bs.length).map (fun i => Sparse.get keepDefault (keepStore m a bs) (a + i)) = bs := by
  induction bs generalizing m a with
  | nil => rfl
  | cons b bs ih =>
    have hrest := ih (Sparse.put keepDefault m a b) (a + 1)
    simp only [List.length_cons, List.range_succ_eq_map, List.map_cons, List.map_map, keepStore, Nat.add_zero]
    rw [get_keepStore_below _ _ (Nat.lt_succ_self a), Sparse.get_put_same]
    simp only [Function.comp_def, Nat.succ_eq_add_one, ← Nat.add_assoc, Nat.add_right_comm a _ 1, hrest]

theorem Dev.keepNat_keepWrite (d : Dev) (a n v : Nat) : (d.keepWrite a (bytesLE n v)).keepNat a n = v % 256 ^ n := by
  have h := map_get_keepStore d.keep.bytes a (bytesLE n v)
  rw [length_bytesLE] at h
  rw [Dev.keepNat, Dev.keepRead, Dev.keepWrite, h, leNat_bytesLE]

theorem Dev.keepNat_congr {d e : Dev} (h : d.keep = e.keep) (a n : Nat) : d.keepNat a n = e.keepNat a n := by
  simp only [Dev.keepNat, Dev.keepRead, h]

/-- A saturating counter of the keep store counts one. -/
theorem Dev.keepNat_keepCount (d : Dev) (k : Nat) :
    (d.keepCount k).keepNat (0x782010 + 4 * k) 4 = min (d.keepNat (0x782010 + 4 * k) 4 + 1) 0xFFFFFFFF := by
  rw [Dev.keepCount, Dev.keepNat_keepWrite]
  exact Nat.mod_eq_of_lt (by omega)

/-! ### Bits of a mask -/

theorem bitOf_eq_testBit (m i : Nat) : bitOf m i = m.testBit i := Nat.testBit_eq_decide_div_mod_eq.symm

/-- Adding an absent power of two sets its bit and no other. -/
theorem testBit_add_two_pow {m i : Nat} (h : m.testBit i = false) (j : Nat) :
    (m + 2 ^ i).testBit j = (j == i || m.testBit j) := by
  induction i generalizing m j with
  | zero =>
    rw [Nat.testBit_zero, decide_eq_false_iff_not] at h
    cases j with
    | zero =>
      have hodd : (m + 1) % 2 = 1 := by omega
      simp [hodd]
    | succ j =>
      have hhalf : (m + 1) / 2 = m / 2 := by omega
      simp [Nat.testBit_succ, hhalf]
  | succ i ih =>
    rw [Nat.testBit_succ] at h
    have hpow : 2 ^ (i + 1) = 2 * 2 ^ i := Nat.pow_succ'
    cases j with
    | zero =>
      have hlow : (m + 2 ^ (i + 1)) % 2 = m % 2 := by omega
      simp [Nat.testBit_zero, hlow]
    | succ j =>
      have hhalf : (m + 2 ^ (i + 1)) / 2 = m / 2 + 2 ^ i := by omega
      simp [Nat.testBit_succ, hhalf, ih h]

theorem testBit_setBit_true (m i j : Nat) : (setBit m i true).testBit j = (j == i || m.testBit j) := by
  unfold setBit
  rw [bitOf_eq_testBit]
  split
  next h =>
    by_cases hj : j = i
    · simp [hj, h]
    · simp [hj]
  next h => simpa using testBit_add_two_pow (Bool.eq_false_of_not_eq_true h) j

theorem setBit_true_lt {m i w : Nat} (hm : m < 2 ^ w) (hi : i < w) : setBit m i true < 2 ^ w := by
  refine Nat.lt_pow_two_of_testBit _ (fun j hj => ?_)
  have hhigh : m.testBit j = false := Nat.testBit_lt_two_pow (hm.trans_le (Nat.pow_le_pow_right (by omega) hj))
  rw [testBit_setBit_true, hhigh, Bool.or_false, beq_eq_false_iff_ne]
  omega

/-- A mask field in which a bit was set. -/
theorem Dev.bitOf_set_setBit (d : Dev) {f : Fld} (hf : f.ok) {i : Nat} (hi : i < f.width) (j : Nat) :
    bitOf ((d.set f (setBit (d.get f) i true)).get f) j = (j == i || bitOf (d.get f) j) := by
  rw [Dev.get_set_same d f _ hf, Nat.mod_eq_of_lt (setBit_true_lt (d.get_lt f) hi), bitOf_eq_testBit, testBit_setBit_true,
    bitOf_eq_testBit]

/-! ### Lists of engines and of substitutions -/

theorem elemAt_modifyAt {α : Type} {l : List α} {i : Nat} (f : α → α) (x : α) (h : i < l.length) :
    elemAt (modifyAt l i f) i x = f (elemAt l i x) := by
  simp [elemAt, modifyAt, h]

theorem getD_setAt {α : Type} {l : List α} {i : Nat} (x y : α) (h : i < l.length) : (setAt l i x).getD i y = x := by
  simp [setAt, h]

/-! ### Fences and spares -/

/-- The register field that holds the fence bit of a coding engine. -/
def veFenceFld (e : Nat) : Fld :=
  if e < 32 then F.VE_FENCE0_FENCED else if e < 64 then F.VE_FENCE1_FENCED else F.VE_FENCE2_FENCED

theorem Dev.veFenced_eq (d : Dev) {e : Nat} (h : e < 68) : d.veFenced e = bitOf (d.get (veFenceFld e)) (e % 32) := by
  unfold Dev.veFenced veFenceFld
  split
  · rw [Nat.mod_eq_of_lt ‹_›]
  · split
    · rw [show e % 32 = e - 32 by omega]
    · rw [show e % 32 = e - 64 by omega]

theorem Dev.setVeFence_eq (d : Dev) {e : Nat} (h : e < 68) :
    d.setVeFence e = (d.set (veFenceFld e) (setBit (d.get (veFenceFld e)) (e % 32) true)).keepCount 4 := by
  unfold Dev.setVeFence veFenceFld
  split
  · rw [Nat.mod_eq_of_lt ‹_›]
  · split
    · rw [show e % 32 = e - 32 by omega]
    · rw [show e % 32 = e - 64 by omega]

theorem veFenceFld_addr (e : Nat) : (veFenceFld e).addr = if e < 32 then R.VE_FENCE0 else if e < 64 then R.VE_FENCE1 else R.VE_FENCE2 := by
  unfold veFenceFld
  split
  · rfl
  · split <;> rfl

theorem veFenceFld_ok (e : Nat) : (veFenceFld e).ok := by
  unfold veFenceFld
  split
  · decide
  · split <;> decide

theorem lt_veFenceFld_width {e : Nat} (h : e < 68) : e % 32 < (veFenceFld e).width := by
  unfold veFenceFld
  split
  · exact Nat.mod_lt _ (by decide)
  · split
    · exact Nat.mod_lt _ (by decide)
    · show e % 32 < 4
      omega

theorem Dev.veFenced_congr {d e : Dev} (h : ∀ a ∈ [R.VE_FENCE0, R.VE_FENCE1, R.VE_FENCE2], e.word a = d.word a) (x : Nat) :
    e.veFenced x = d.veFenced x := by
  simp only [List.forall_mem_cons] at h
  obtain ⟨h0, h1, h2, -⟩ := h
  simp only [Dev.veFenced, Dev.get, F.VE_FENCE0_FENCED, F.VE_FENCE1_FENCED, F.VE_FENCE2_FENCED, h0, h1, h2]

/-- The fence of one coding engine is set, and no other. -/
theorem Dev.setVeFence_veFenced (d : Dev) {e x : Nat} (he : e < 68) (hx : x < 68) :
    (d.setVeFence e).veFenced x = (x == e || d.veFenced x) := by
  rw [Dev.veFenced_eq _ hx, Dev.veFenced_eq _ hx, Dev.setVeFence_eq _ he, Dev.keepCount_get]
  by_cases hreg : (veFenceFld x).addr = (veFenceFld e).addr
  · have hword : x / 32 = e / 32 := by
      simp only [veFenceFld_addr, R.VE_FENCE0, R.VE_FENCE1, R.VE_FENCE2] at hreg
      repeat' split at hreg
      all_goals omega
    have hfld : veFenceFld x = veFenceFld e := by
      have h32 : x < 32 ↔ e < 32 := by omega
      have h64 : x < 64 ↔ e < 64 := by omega
      simp only [veFenceFld, h32, h64]
    have hbit : (x % 32 == e % 32) = (x == e) := by
      rw [Bool.eq_iff_iff, beq_iff_eq, beq_iff_eq]
      omega
    rw [hfld, Dev.bitOf_set_setBit d (veFenceFld_ok e) (lt_veFenceFld_width he), hbit]
  · have hne : x ≠ e := fun h => hreg (by rw [h])
    rw [Dev.get_set_apart d _ _ _ (veFenceFld_ok e) (.inl hreg), beq_eq_false_iff_ne.mpr hne, Bool.false_or]

theorem Dev.word_setVeFence_ne (d : Dev) {e a : Nat} (he : e < 68) (ha : a ∉ [R.VE_FENCE0, R.VE_FENCE1, R.VE_FENCE2]) :
    (d.setVeFence e).word a = d.word a := by
  rw [Dev.setVeFence_eq _ he, Dev.word_congr (Dev.keepCount_regs _ _)]
  refine Dev.word_set_ne d _ _ (fun h => ha ?_)
  rw [h, veFenceFld_addr]
  split
  · decide
  · split <;> decide

theorem Dev.setVeFence_code (d : Dev) {e : Nat} (he : e < 68) : (d.setVeFence e).code = d.code := by
  rw [Dev.setVeFence_eq _ he, Dev.keepCount, Dev.keepWrite_code, Dev.set_code]

theorem Dev.setVeFence_count (d : Dev) {e : Nat} (he : e < 68) :
    (d.setVeFence e).keepNat 0x782020 4 = min (d.keepNat 0x782020 4 + 1) 0xFFFFFFFF := by
  rw [Dev.setVeFence_eq _ he, Dev.keepNat_keepCount _ 4, Dev.keepNat_congr (Dev.set_keep _ _ _)]

theorem Dev.setVeSpare_veSpare (d : Dev) {q e : Nat} (hq : q < 4) (he : e < 128) :
    (d.setVeSpare q (some e)).veSpare q = (true, e) := by
  simp only [Dev.veSpare, Dev.setVeSpare, Dev.word_setWord_same, Option.getD_some, Option.isSome_some]
  rw [field_setField_same _ _ (by omega), field_setField_below _ _ (by omega) (by omega), field_setField_same _ _ (by omega),
    Nat.mod_eq_of_lt (show e < 2 ^ 7 from he)]
  rfl

/-! ### What the coding engines show -/

/-- `e` differs from `d` by what engine status registers, the loads and `DEV_CAPS` show of it: its coding state, its keep store
and the registers of its mode, fences and spares are those of `d`. -/
structure Dev.Shown (d e : Dev) : Prop where
  code : e.code = d.code
  keep : e.keep = d.keep
  words : ∀ a < 0x700800, a ∉ [R.DEV_CAPS, R.VE_LOAD, R.VE_MEM_EST] → e.word a = d.word a

theorem Dev.Shown.refl (d : Dev) : d.Shown d := ⟨rfl, rfl, fun _ _ _ => rfl⟩

theorem Dev.Shown.trans {a b c : Dev} (h : a.Shown b) (k : b.Shown c) : a.Shown c :=
  ⟨k.code.trans h.code, k.keep.trans h.keep, fun x hx hn => (k.words x hx hn).trans (h.words x hx hn)⟩

theorem Dev.Shown.set {d e : Dev} (h : d.Shown e) (f : Fld) (v : Nat)
    (hf : 0x700800 ≤ f.addr ∨ f.addr ∈ [R.DEV_CAPS, R.VE_LOAD, R.VE_MEM_EST]) : d.Shown (e.set f v) := by
  refine ⟨(Dev.set_code _ _ _).trans h.code, (Dev.set_keep _ _ _).trans h.keep, fun a ha hn => ?_⟩
  have hne : a ≠ f.addr := by
    rintro rfl
    rcases hf with hf | hf
    · omega
    · exact hn hf
  exact (Dev.word_set_ne e f v hne).trans (h.words a ha hn)

theorem le_VE_ENG_STATUS (i : Nat) : 0x700800 ≤ R.VE_ENG_STATUS i := Nat.le_add_right _ _

theorem Dev.showVe_shown (d : Dev) (i : Nat) : d.Shown (d.showVe i) :=
  (((((Dev.Shown.refl d).set (F.VE_ENG_STATUS_ACTIVE i) _ (.inl (le_VE_ENG_STATUS i))).set (F.VE_ENG_STATUS_SPARE i) _
    (.inl (le_VE_ENG_STATUS i))).set (F.VE_ENG_STATUS_FENCED i) _ (.inl (le_VE_ENG_STATUS i))).set (F.VE_ENG_STATUS_ROWS_QUEUED i) _
    (.inl (le_VE_ENG_STATUS i))).set (F.VE_ENG_STATUS_LOAD_PCT i) _ (.inl (le_VE_ENG_STATUS i))

theorem Dev.showLoad_shown (d : Dev) : d.Shown d.showLoad :=
  (((((Dev.Shown.refl d).set F.VE_LOAD_COMMITTED _ (.inr (by decide))).set F.VE_LOAD_CAPACITY _ (.inr (by decide))).set
    F.VE_MEM_EST_ALL_GBS _ (.inr (by decide))).set F.VE_MEM_EST_LIVE_GBS _ (.inr (by decide))).set F.DEV_CAPS_VE_ACTIVE _
    (.inr (by decide))

theorem Dev.showCaps_shown (d : Dev) : d.Shown d.showCaps :=
  (((Dev.Shown.refl d).set F.DEV_CAPS_DE_ACTIVE _ (.inr (by decide))).set F.DEV_CAPS_VE_ACTIVE _ (.inr (by decide))).set
    F.DEV_CAPS_ZE_ACTIVE _ (.inr (by decide))

theorem Dev.Shown.veFenced {d e : Dev} (h : d.Shown e) (x : Nat) : e.veFenced x = d.veFenced x := by
  refine Dev.veFenced_congr (fun a ha => ?_) x
  fin_cases ha <;> exact h.words _ (by decide) (by decide)

theorem Dev.Shown.veSpare {d e : Dev} (h : d.Shown e) (q : Nat) : e.veSpare q = d.veSpare q := by
  simp only [Dev.veSpare, h.words R.VE_SPARE_MAP (by decide) (by decide)]

theorem Dev.Shown.modeCode {d e : Dev} (h : d.Shown e) : e.modeCode = d.modeCode :=
  Dev.get_of_word F.DEV_MODE_MODE (h.words R.DEV_MODE (by decide) (by decide))

/-! ### Work that moves to the spare -/

/-- What the moves of rows between engines leave: every register, the keep store and the substitutions. -/
def Dev.besides (d : Dev) : Regs × KeepSt × List (Option VeSub) := (d.regs, d.keep, d.code.subs)

theorem Dev.modSes_besides (d : Dev) (s : Nat) (f : SesSt → SesSt) : (d.modSes s f).besides = d.besides := rfl

theorem Dev.modGrp_besides (d : Dev) (g : Nat) (f : GrpSt → GrpSt) : (d.modGrp g f).besides = d.besides := rfl

theorem Dev.interrupt_besides (d : Dev) (js : List RowJob) : (d.interrupt js).besides = d.besides := by
  refine foldl_keeps (p := Dev.besides) (fun d j => ?_) js d
  exact Dev.modSes_besides _ _ _

theorem Dev.veRename_besides (d : Dev) (a b : Nat) : (d.veRename a b).besides = d.besides := by
  refine (foldl_keeps (p := Dev.besides) (fun d g => ?_) _ _).trans (foldl_keeps (p := Dev.besides) (fun d s => ?_) _ d)
  · exact Dev.modGrp_besides _ _ _
  · split
    · exact Dev.modSes_besides _ _ _
    · rfl

/-- Engine `b` takes over the queues `v` of engine `a`, which is idle from now on and whose rows `v.jobs` wait for the checkpoint. -/
def Dev.handOver (d : Dev) (a b : Nat) (v : VeSt) : Dev :=
  let m := (d.modVe b (fun w => { w with queue := w.queue ++ v.queue, held := w.held ++ v.held, lastLive := v.lastLive })).modVe a
    (fun _ => {})
  { m with code := { m.code with subs := setAt m.code.subs (a / 17) (some { eng := a, jobs := v.jobs }) } }

theorem Dev.handOver_besides (d : Dev) (a b : Nat) (v : VeSt) :
    (d.handOver a b v).besides = (d.regs, d.keep, setAt d.code.subs (a / 17) (some { eng := a, jobs := v.jobs })) := rfl

theorem Dev.handOver_ve (d : Dev) (a b : Nat) (v : VeSt) : (d.handOver a b v).ve a = {} := by
  simp only [Dev.handOver, Dev.modVe, Dev.ve, elemAt, modifyAt, List.getD_eq_getElem?_getD, List.getElem?_modify_eq]
  cases (d.code.ve.modify b _)[a]? <;> rfl

/-- `d` after the work of engine `a` has moved to engine `b`, before the engines show it. -/
def Dev.veMoved (d : Dev) (a b : Nat) : Dev := ((d.interrupt (d.ve a).jobs).veRename a b).handOver a b (d.ve a)

theorem Dev.veMove_shown (d : Dev) (a b : Nat) : (d.veMoved a b).Shown (d.veMove a b) :=
  (Dev.showVe_shown _ a).trans (Dev.showVe_shown _ b)

/-- The engine that the work has left is idle. -/
theorem Dev.veMoved_ve (d : Dev) (a b : Nat) : (d.veMoved a b).ve a = {} := Dev.handOver_ve _ a b _

theorem Dev.veMoved_besides (d : Dev) (a b : Nat) :
    (d.veMoved a b).besides = (d.regs, d.keep, setAt d.code.subs (a / 17) (some { eng := a, jobs := (d.ve a).jobs })) := by
  have h := (Dev.veRename_besides (d.interrupt (d.ve a).jobs) a b).trans (Dev.interrupt_besides d (d.ve a).jobs)
  simp only [Dev.besides, Prod.mk.injEq] at h
  obtain ⟨hregs, hkeep, hsubs⟩ := h
  rw [Dev.veMoved, Dev.handOver_besides, hregs, hkeep, hsubs]

/-! ### The fault of an engine whose spare is free -/

/-- An engine fails and the free spare of its quadrant takes its work. -/
theorem Dev.veFault_spareFree (d : Dev) {e : Nat} (hspare : e % 17 ≠ 16) (hfence : d.veFenced e = false)
    (hfree : d.veSpareUsed (e / 17) = false) :
    d.veFault e = ((((d.setVeFence e).setVeSpare (e / 17) (some e)).veMove e (veSpareOf (e / 17))).showVe e).showLoad.showCaps := by
  have hunused : (d.veSpare (e / 17)).1 = false := (Bool.or_eq_false_iff.mp hfree).1
  have hlent : ¬ d.veSpare (e / 17) = (true, e) := fun h => by
    rw [h] at hunused
    cases hunused
  have hself : ¬ (e = veSpareOf (e / 17) ∧ (d.veSpare (e / 17)).1 = false) := fun h => by
    have heq := h.1
    unfold veSpareOf at heq
    omega
  unfold Dev.veFault Dev.veFaultWork
  simp only [hfence, hlent, hself, hfree, Bool.false_eq_true, if_false]

/-- The fenced engine and the spare in use, before any work moves. -/
def Dev.veSubstituted (d : Dev) (e : Nat) : Dev := (d.setVeFence e).setVeSpare (e / 17) (some e)

theorem Dev.veSubstituted_code (d : Dev) {e : Nat} (he : e < 68) : (d.veSubstituted e).code = d.code :=
  (Dev.setWord_code _ _ _).trans (d.setVeFence_code he)

theorem Dev.veSubstituted_veSpare (d : Dev) {e : Nat} (he : e < 68) : (d.veSubstituted e).veSpare (e / 17) = (true, e) :=
  Dev.setVeSpare_veSpare _ (by omega) (by omega)

theorem Dev.veSubstituted_veFenced (d : Dev) {e x : Nat} (he : e < 68) (hx : x < 68) :
    (d.veSubstituted e).veFenced x = (x == e || d.veFenced x) := by
  rw [← Dev.setVeFence_veFenced d he hx]
  refine Dev.veFenced_congr (fun a ha => ?_) x
  exact Dev.word_setWord_ne _ _ (by rintro rfl; revert ha; decide)

theorem Dev.veSubstituted_count (d : Dev) {e : Nat} (he : e < 68) :
    (d.veSubstituted e).keepNat 0x782020 4 = min (d.keepNat 0x782020 4 + 1) 0xFFFFFFFF := by
  rw [← Dev.setVeFence_count d he]
  exact Dev.keepNat_congr (Dev.setWord_keep _ _ _) _ _

theorem Dev.veSubstituted_modeCode (d : Dev) {e : Nat} (he : e < 68) : (d.veSubstituted e).modeCode = d.modeCode := by
  refine Dev.get_of_word F.DEV_MODE_MODE ?_
  exact (Dev.word_setWord_ne _ _ (by decide)).trans (d.word_setVeFence_ne he (by decide))

/-- What the fault of an engine with a free spare leaves (R313). -/
theorem Dev.veFault_substitutes (d : Dev) {e : Nat} (he : e < 68) (hspare : e % 17 ≠ 16) (hfence : d.veFenced e = false)
    (hfree : d.veSpareUsed (e / 17) = false) (hsubs : d.code.subs.length = 4) :
    (∀ x < 68, (d.veFault e).veFenced x = (x == e || d.veFenced x)) ∧ (d.veFault e).veSpare (e / 17) = (true, e) ∧
      (d.veFault e).ve e = {} ∧ (d.veFault e).code.subs.getD (e / 17) none = some { eng := e, jobs := (d.ve e).jobs } ∧
      (d.veFault e).keepNat 0x782020 4 = min (d.keepNat 0x782020 4 + 1) 0xFFFFFFFF ∧ (d.veFault e).modeCode = d.modeCode := by
  have hshown : ((d.veSubstituted e).veMoved e (veSpareOf (e / 17))).Shown (d.veFault e) := by
    rw [Dev.veFault_spareFree d hspare hfence hfree]
    exact (((Dev.veMove_shown _ _ _).trans (Dev.showVe_shown _ _)).trans (Dev.showLoad_shown _)).trans (Dev.showCaps_shown _)
  have hmoved := (d.veSubstituted e).veMoved_besides e (veSpareOf (e / 17))
  have hidle := (d.veSubstituted e).veMoved_ve e (veSpareOf (e / 17))
  generalize (d.veSubstituted e).veMoved e (veSpareOf (e / 17)) = m at hshown hmoved hidle
  simp only [Dev.besides, Prod.mk.injEq] at hmoved
  obtain ⟨hregs, hkeep, hsub⟩ := hmoved
  refine ⟨fun x hx => ?_, ?_, ?_, ?_, ?_, ?_⟩
  · rw [hshown.veFenced, ← Dev.veSubstituted_veFenced d he hx]
    exact Dev.veFenced_congr (fun a _ => Dev.word_congr hregs a) x
  · rw [hshown.veSpare, ← Dev.veSubstituted_veSpare d he, Dev.veSpare, Dev.veSpare, Dev.word_congr hregs]
  · rw [← hidle, Dev.ve, Dev.ve, hshown.code]
  · rw [hshown.code, hsub, Dev.veSubstituted_code d he, getD_setAt _ _ (by omega), Dev.ve, Dev.ve, Dev.veSubstituted_code d he]
  · rw [Dev.keepNat_congr (hshown.keep.trans hkeep), Dev.veSubstituted_count d he]
  · rw [hshown.modeCode, ← Dev.veSubstituted_modeCode d he]
    exact Dev.get_congr hregs F.DEV_MODE_MODE

/-! ### The row watchdog -/

theorem execRowWatchdog_idle (s : State) (e : Fin 68) (hlive : (s.dev.ve e).live = none) (hother : (s.dev.ve e).other = none) :
    execRowWatchdog e s = .next s := by
  simp [execRowWatchdog, State.run, hlive, hother]

theorem execRowWatchdog_late (s : State) (e : Fin 68) (j : RowJob) (hlive : (s.dev.ve e).live = some j)
    (hlate : max 72 (s.dev.get F.VE_ROW_WDOG_FACTOR) * s.dev.rowNs j.ses < 64 * (s.dev.elapsed - j.start - j.paused)) :
    execRowWatchdog e s = execVeFault e s := by
  unfold execRowWatchdog execVeFault State.run
  dsimp only
  simp only [hlive, Option.any_some, Bool.not_false, Bool.true_and, hlate, decide_true, Bool.true_or, if_true]

/-! ### Rows that start again from their checkpoint -/

theorem execCheckpointReadDone_nothing (s : State) (q : Fin 4) (h : ∀ x, s.dev.code.subs.getD q none = some x → x.read = true) :
    execCheckpointReadDone q s = .next s := by
  unfold execCheckpointReadDone State.run
  dsimp only
  cases hsub : s.dev.code.subs.getD q none with
  | none => rfl
  | some x => simp only [h x hsub, if_true]

theorem Dev.pic?_modPic_same (d : Dev) (s c : Nat) (f : PicSt → PicSt) (hf : ∀ p : PicSt, (f p).c = p.c) :
    (d.modPic s c f).pic? s c = (d.pic? s c).map f := by
  simp only [Dev.pic?, Dev.modPic, Dev.modSes, Dev.ses, Sparse.get_put_same, List.find?_map]
  have hkey : ((fun p : PicSt => p.c == c) ∘ fun p => if p.c = c then f p else p) = fun p => p.c == c := by
    funext p
    by_cases hp : p.c = c <;> simp [hp, hf]
  rw [hkey]
  cases hfind : (Sparse.get (fun _ => ({} : SesSt)) d.code.ses s).pics.find? (fun p => p.c == c) with
  | none => rfl
  | some p => simp [beq_iff_eq.mp (List.find?_some (p := fun p : PicSt => p.c == c) hfind)]

theorem Dev.pic?_modRow_same (d : Dev) (s c r : Nat) (f : RowSt → RowSt) :
    (d.modRow s c r f).pic? s c = (d.pic? s c).map (fun p => { p with rows := modifyAt p.rows r f }) :=
  Dev.pic?_modPic_same d s c _ (fun _ => rfl)

theorem Dev.pic?_congr {d e : Dev} (h : e.code.ses = d.code.ses) (s c : Nat) : e.pic? s c = d.pic? s c := by
  rw [Dev.pic?, Dev.pic?, Dev.ses, Dev.ses, h]

/-- A substitution does not settle before its only row is complete. -/
theorem Dev.subSettle_open {d : Dev} {q : Nat} {x : VeSub} {j : RowJob} {p : PicSt} (hsub : d.code.subs.getD q none = some x)
    (hjobs : x.jobs = [j]) (hpic : d.pic? j.ses j.c = some p) (hrow : (p.row j.row).state ≠ 6) : d.subSettle q = d := by
  unfold Dev.subSettle
  simp only [hsub]
  refine if_pos ?_
  simp [hjobs, hpic, hrow]

/-- An engine with a LIVE row in progress takes no other. -/
theorem Dev.veSelect_live {d : Dev} {e : Nat} (h : (d.ve e).live.isSome = true) : d.veSelect e = d.showVe e := by
  unfold Dev.veSelect
  simp [h]

/-- A LIVE row that starts again from its checkpoint (R313). -/
def RowSt.again (r : RowSt) : RowSt :=
  { r with state := 3, spent := 0, units := 0, flags := [], bytes := [], salv := r.salv0, skip := r.skip0 }

/-- A row on an engine that starts again at `now`. -/
def RowJob.again (j : RowJob) (now : Nat) : RowJob := { j with start := now, paused := 0, pausedAt := now }

/-- The row `j` starts again on the engine `spare`; it pauses there unless its session is LIVE. -/
def Dev.rowAgain (d : Dev) (spare : Nat) (j : RowJob) : Dev :=
  (d.modRow j.ses j.c j.row (fun r => { r.again with state := if d.sesClass j.ses = classLive then 3 else 4 })).modVe spare (fun v =>
    if d.sesClass j.ses = classLive then { v with live := some (j.again d.elapsed), lastLive := some d.elapsed }
    else { v with other := some (j.again d.elapsed), paused := true })

theorem Dev.rowAgain_live (d : Dev) (spare : Nat) {j : RowJob} (h : d.sesClass j.ses = classLive) :
    d.rowAgain spare j = (d.modRow j.ses j.c j.row RowSt.again).modVe spare (fun v =>
      { v with live := some (j.again d.elapsed), lastLive := some d.elapsed }) := by
  simp only [Dev.rowAgain, h, if_true]
  rfl

/-- Sets the substitution of a quadrant. -/
def Dev.setSub (d : Dev) (q : Nat) (x : Option VeSub) : Dev := { d with code := { d.code with subs := setAt d.code.subs q x } }

/-- Once the checkpoints are read the interrupted rows start again on the spare. -/
theorem execCheckpointReadDone_reads (s : State) (q : Fin 4) {x : VeSub} (hsub : s.dev.code.subs.getD q none = some x)
    (hread : x.read = false) :
    execCheckpointReadDone q s = .next { s with dev := ((x.jobs.foldl (fun d j => d.rowAgain (veSpareOf q) j)
      (s.dev.setSub q (some { x with read := true }))).subSettle q).veSelect (veSpareOf q) } := by
  unfold execCheckpointReadDone State.run
  simp only [hsub, hread, Bool.false_eq_true, if_false]
  rfl

/-- `d` once the spare of quadrant `q` has read the checkpoint of the LIVE row `j` of the substitution `x`, before it settles. -/
def Dev.liveAgain (d : Dev) (q : Nat) (x : VeSub) (j : RowJob) : Dev :=
  ((d.setSub q (some { x with read := true })).modRow j.ses j.c j.row RowSt.again).modVe (veSpareOf q) (fun v =>
    { v with live := some (j.again d.elapsed), lastLive := some d.elapsed })

theorem execCheckpointReadDone_live (s : State) (q : Fin 4) {x : VeSub} {j : RowJob} (hsub : s.dev.code.subs.getD q none = some x)
    (hread : x.read = false) (hjobs : x.jobs = [j]) (hlive : s.dev.sesClass j.ses = classLive) :
    execCheckpointReadDone q s = .next { s with dev := ((s.dev.liveAgain q x j).subSettle q).veSelect (veSpareOf q) } := by
  have hclass : (s.dev.setSub q (some { x with read := true })).sesClass j.ses = classLive := hlive
  rw [execCheckpointReadDone_reads s q hsub hread]
  simp only [hjobs, List.foldl_cons, List.foldl_nil]
  rw [hjobs] at hclass
  rw [Dev.rowAgain_live _ _ hclass, Dev.liveAgain, hjobs]
  rfl

theorem Dev.liveAgain_subs (d : Dev) {q : Nat} (x : VeSub) (j : RowJob) (h : q < d.code.subs.length) :
    (d.liveAgain q x j).code.subs.getD q none = some { x with read := true } :=
  getD_setAt _ _ h

theorem Dev.liveAgain_ve (d : Dev) {q : Nat} (x : VeSub) (j : RowJob) (h : veSpareOf q < d.code.ve.length) :
    ((d.liveAgain q x j).ve (veSpareOf q)).live = some (j.again d.elapsed) :=
  congrArg VeSt.live (elemAt_modifyAt _ _ h)

theorem Dev.liveAgain_pic? (d : Dev) (q : Nat) (x : VeSub) (j : RowJob) :
    (d.liveAgain q x j).pic? j.ses j.c = (d.pic? j.ses j.c).map (fun p => { p with rows := modifyAt p.rows j.row RowSt.again }) :=
  Dev.pic?_modRow_same (d.setSub q (some { x with read := true })) _ _ _ _

/-- What the checkpoint of a substitution's one row, LIVE, leaves: the row runs on the spare from its first unit (R313). -/
theorem Dev.liveAgain_settled (d : Dev) {q : Nat} {x : VeSub} {j : RowJob} {p : PicSt} (hjobs : x.jobs = [j])
    (hpic : d.pic? j.ses j.c = some p) (hrow : j.row < p.rows.length) (hve : veSpareOf q < d.code.ve.length)
    (hsubs : q < d.code.subs.length) :
    (d.liveAgain q x j).Shown (((d.liveAgain q x j).subSettle q).veSelect (veSpareOf q)) := by
  have hagain := d.liveAgain_pic? q x j
  rw [hpic, Option.map_some] at hagain
  have hstate : (elemAt (modifyAt p.rows j.row RowSt.again) j.row {}).state ≠ 6 := by
    rw [elemAt_modifyAt _ _ hrow]
    exact (by decide : 3 ≠ 6)
  rw [Dev.subSettle_open (d.liveAgain_subs x j hsubs) hjobs hagain hstate,
    Dev.veSelect_live (by rw [d.liveAgain_ve x j hve]; rfl)]
  exact Dev.showVe_shown _ _

/-- Settles O46: the free spare takes the failed engine's work (R313), the row watchdog fails an engine as a fault does, and a
LIVE row starts again on the spare once its checkpoint is read. -/
theorem codingEngineFaults : Obligations.CodingEngineFaults := by
  unfold Obligations.CodingEngineFaults
  refine ⟨fun s e hspare hfence hfree hsubs => ?_, fun s e hlive hother => ?_, fun s e j hlive hlate => ?_, fun s q h => ?_,
    fun s q x j p hsub hread hjobs hclass hpic hrow hve hsubs => ?_⟩
  · exact ⟨_, rfl, rfl, Dev.veFault_substitutes s.dev e.isLt hspare hfence hfree hsubs⟩
  · exact ⟨s, execRowWatchdog_idle s e hlive hother, rfl, rfl⟩
  · exact ⟨_, execRowWatchdog_late s e j hlive hlate, rfl, rfl⟩
  · exact ⟨s, execCheckpointReadDone_nothing s q h, rfl, rfl⟩
  · have hspare : veSpareOf q < s.dev.code.ve.length := by
      unfold veSpareOf
      omega
    have hshown := s.dev.liveAgain_settled (q := q) hjobs hpic hrow hspare (by omega)
    refine ⟨_, execCheckpointReadDone_live s q hsub hread hjobs hclass, rfl, ?_, ?_, ?_⟩
    · rw [Dev.ve, hshown.code]
      exact s.dev.liveAgain_ve x j hspare
    · rw [hshown.code]
      exact s.dev.liveAgain_subs x j (by omega)
    · rw [Dev.pic?_congr (congrArg CodeSt.ses hshown.code), s.dev.liveAgain_pic? q x j, hpic]
      simp only [Option.map_some, PicSt.row, elemAt_modifyAt _ _ hrow]
      rfl

end Sys2Proof.Machine
end

section
/-!
The state of ports and contexts beside their registers, and what reports leave of it (R113, R122, R127).
-/
namespace Sys2Proof.Machine

/-! ### Ports and contexts -/

/-- An element that is not what a read past the end gives lies within the list. -/
theorem lt_length_of_elemAt_ne {α : Type} {l : List α} {i : Nat} {x : α} (h : elemAt l i x ≠ x) : i < l.length := by
  by_contra hge
  exact h (List.getD_eq_default l x (Nat.le_of_not_lt hge))

theorem elemAt_modifyAt_ne {α : Type} (l : List α) {i j : Nat} (f : α → α) (x : α) (h : j ≠ i) :
    elemAt (modifyAt l i f) j x = elemAt l j x := by
  simp [elemAt, modifyAt, List.getD_eq_getElem?_getD, Ne.symm h]

theorem Dev.port_modPort (d : Dev) {p : Nat} (f : LinkPort → LinkPort) (h : p < d.link.length) :
    (d.modPort p f).port p = f (d.port p) := elemAt_modifyAt f {} h

theorem Dev.ctx_modCtx (d : Dev) {n : Nat} (f : CapCtx → CapCtx) (h : n < d.cap.length) :
    (d.modCtx n f).ctx n = f (d.ctx n) := elemAt_modifyAt f {} h

theorem Dev.ctx_modCtx_ne (d : Dev) {m n : Nat} (f : CapCtx → CapCtx) (h : m ≠ n) : (d.modCtx n f).ctx m = d.ctx m :=
  elemAt_modifyAt_ne d.cap f {} h

theorem Dev.ctx_congr {d e : Dev} (h : e.cap = d.cap) (n : Nat) : e.ctx n = d.ctx n := by
  simp only [Dev.ctx, h]

theorem Dev.port_congr {d e : Dev} (h : e.link = d.link) (p : Nat) : e.port p = d.port p := by
  simp only [Dev.port, h]

/-- A context with any state of its own is one of the listed. -/
theorem Dev.lt_cap_of_ne {d : Dev} {n : Nat} (h : d.ctx n ≠ {}) : n < d.cap.length := lt_length_of_elemAt_ne h

theorem Dev.lt_cap_of_started {d : Dev} {n : Nat} (h : (d.ctx n).started = true) : n < d.cap.length :=
  Dev.lt_cap_of_ne (fun he => by rw [he] at h; cases h)

theorem Dev.mem_ctxOfPort {d : Dev} {p n : Nat} : n ∈ d.ctxOfPort p ↔
    n < 16 ∧ d.flag (F.CAP_BIND_EN n) = true ∧ d.get (F.CAP_BIND_PORT n) = p ∧ (d.ctx n).started = true := by
  simp only [Dev.ctxOfPort, List.mem_filter, List.mem_range, Bool.and_eq_true, decide_eq_true_eq, and_assoc]

/-- A field whose bits lie within the register, by computing. -/
theorem Fld.ok_of_ble {f : Fld} (h : Nat.ble (f.lo + f.width) 32 = true) : f.ok := Nat.le_of_ble_eq_true h

/-! ### What reports leave -/

/-- The blocks KSL to CLK hold no register of EVT, of MEM's injection or of BOOT's status. -/
theorem not_mem_reportRegs {a : Nat} (hlo : 0x100000 ≤ a) (hhi : a < 0xD00000) : a ∉ reportRegs := by
  intro h
  simp only [reportRegs, R.EVT_PROD, R.EVT_CONS, R.EVT_IRQ_STATUS, R.EVT_STATUS, R.DEV_BOOT_STATUS, R.MEM_INJ_CTRL, List.mem_cons,
    List.not_mem_nil, or_false] at h
  omega

theorem Dev.ctxRuns_congr {d e : Dev} (hcap : e.cap = d.cap) (hmode : e.word R.DEV_MODE = d.word R.DEV_MODE) (n : Nat) :
    e.ctxRuns n = d.ctxRuns n := by
  have hget : ∀ f : Fld, f.addr = R.DEV_MODE → e.get f = d.get f := fun f hf => Dev.get_of_word f (by rw [hf, hmode])
  have hleave : e.leavingSensing = d.leavingSensing := by
    unfold Dev.leavingSensing Dev.inTransition Dev.sensing Dev.modeCode Dev.flag
    rw [hget F.DEV_MODE_MODE rfl, hget F.DEV_MODE_IN_TRANSITION rfl, hget F.DEV_MODE_TARGET rfl]
  simp only [Dev.ctxRuns, hleave, Dev.ctx_congr hcap]

theorem Dev.ctxOfPort_congr {d e : Dev} (hcap : e.cap = d.cap) (hbind : ∀ n < 16, e.word (R.CAP_BIND n) = d.word (R.CAP_BIND n))
    (p : Nat) : e.ctxOfPort p = d.ctxOfPort p := by
  refine List.filter_congr (fun n hn => ?_)
  have hword := hbind n (List.mem_range.mp hn)
  simp only [Dev.flag, Dev.get_of_word (F.CAP_BIND_EN n) hword, Dev.get_of_word (F.CAP_BIND_PORT n) hword, Dev.ctx_congr hcap]

theorem CAP_BIND_not_reported {n : Nat} (hn : n < 16) : R.CAP_BIND n ∉ reportRegs :=
  not_mem_reportRegs (by simp only [R.CAP_BIND]; omega) (by simp only [R.CAP_BIND]; omega)

end Sys2Proof.Machine
end

section
/-!
Targets of a port's schedule go to the link and open slots (R113, R127, R394).
-/
namespace Sys2Proof.Machine

/-! ### TRIGGER_TARGET_HANDOVER (R113, R127, R394) -/

theorem stimeOfNs_lt (n : Nat) : stimeOfNs n < 2 ^ 32 * 2 ^ 32 := by
  have hfrac : n % nsPerS * 2 ^ 32 / nsPerS < 2 ^ 32 :=
    Nat.div_lt_of_lt_mul (Nat.mul_lt_mul_of_pos_right (Nat.mod_lt n (by decide)) (by decide))
  unfold stimeOfNs
  omega

/-- FINE counts half character times within a character (R113). -/
theorem launchAt_fine_lt (phase : Nat) (tx : Int) : (launchAt phase tx).2 < 16 := by
  unfold launchAt
  dsimp only
  split
  · exact Nat.zero_lt_succ 15
  · omega

/-- A trigger that is too late is reported, and every other one changes the port's queues (R113, R114). -/
theorem Dev.queueTrigger_cases (d : Dev) (p t plan : Nat) :
    d.queueTrigger p t plan = (d.eventAt 0x070B sevNotice p [u64 (stimeOfNs t)], true) ∨
      ∃ f, d.queueTrigger p t plan = (d.modPort p f, false) := by
  unfold Dev.queueTrigger
  dsimp only
  generalize (d.get (F.KSL_CTRL_TRIG_SRC p) != 1 && _) = late
  cases late with
  | true => exact .inl rfl
  | false => exact .inr ⟨_, rfl⟩

/-- Queueing a trigger changes the port and reports at most that it is too late. -/
theorem Dev.queueTrigger_same (d : Dev) (p t plan : Nat) : (d.queueTrigger p t plan).1.cap = d.cap ∧
    (d.queueTrigger p t plan).1.trig = d.trig ∧ ∀ a, a ∉ reportRegs → (d.queueTrigger p t plan).1.word a = d.word a := by
  rcases d.queueTrigger_cases p t plan with h | ⟨f, h⟩
  · rw [h]
    have hrep := d.eventAt_reports 0x070B sevNotice p [u64 (stimeOfNs t)]
    exact ⟨hrep.cap, hrep.trig, hrep.words⟩
  · rw [h]
    exact ⟨rfl, rfl, fun _ _ => rfl⟩

/-- The sequence that carries a plan by the back channel on a port where no earlier one ends later (R113). -/
theorem Dev.queueTrigger_free (d : Dev) {p : Nat} (t plan : Nat) (hsrc : d.get (F.KSL_CTRL_TRIG_SRC p) = 0)
    (hend : (d.port p).trigEnd = none) (hp : p < d.link.length) : ∃ x : TrigSeq,
    ((d.queueTrigger p t plan).1.port p).trigQueue = (d.port p).trigQueue ++ [x] ∧ x.ord = (d.port p).trigOrd ∧
      x.id = plan % 4 + (d.port p).trigOrd % 32 * 4 ∧ x.fine < 16 ∧
      ((d.queueTrigger p t plan).1.port p).trigOrd = (d.port p).trigOrd + 1 := by
  unfold Dev.queueTrigger
  simp only [hsrc, hend, Bool.and_false, Bool.false_eq_true, if_false, Dev.port_modPort d _ hp]
  exact ⟨_, rfl, rfl, rfl, launchAt_fine_lt _ _, trivial⟩

/-- The contexts in which a target of `plan` on port `p` opens a slot (R127). -/
def Dev.slotCtxs (d : Dev) (p plan : Nat) : List Nat :=
  (d.ctxOfPort p).filter (fun n => d.ctxRuns n && decide (d.get (F.CAP_BIND_PLAN n) = plan))

theorem Dev.mem_slotCtxs {d : Dev} {p plan n : Nat} :
    n ∈ d.slotCtxs p plan ↔ d.ctxRuns n = true ∧ n ∈ d.ctxOfPort p ∧ d.get (F.CAP_BIND_PLAN n) = plan := by
  simp only [Dev.slotCtxs, List.mem_filter, Bool.and_eq_true, decide_eq_true_eq]
  tauto

theorem Dev.slotCtxs_congr {d e : Dev} (hcap : e.cap = d.cap) (hmode : e.word R.DEV_MODE = d.word R.DEV_MODE)
    (hbind : ∀ n < 16, e.word (R.CAP_BIND n) = d.word (R.CAP_BIND n)) (p plan : Nat) : e.slotCtxs p plan = d.slotCtxs p plan := by
  unfold Dev.slotCtxs
  rw [Dev.ctxOfPort_congr hcap hbind]
  refine List.filter_congr (fun n hn => ?_)
  obtain ⟨hlt, -⟩ := Dev.mem_ctxOfPort.mp hn
  rw [Dev.ctxRuns_congr hcap hmode, Dev.get_of_word (F.CAP_BIND_PLAN n) (hbind n hlt)]

/-- A slot opens in the contexts `l`. -/
def Dev.openSlots (d : Dev) (l : List Nat) (slot : Slot) : Dev :=
  l.foldl (fun d n => d.modCtx n (fun c => { c with slots := c.slots ++ [slot] })) d

@[simp] theorem Dev.openSlots_trig (d : Dev) (l : List Nat) (slot : Slot) : (d.openSlots l slot).trig = d.trig := by
  refine foldl_keeps (p := Dev.trig) (fun d n => ?_) l d
  rfl

@[simp] theorem Dev.openSlots_link (d : Dev) (l : List Nat) (slot : Slot) : (d.openSlots l slot).link = d.link := by
  refine foldl_keeps (p := Dev.link) (fun d n => ?_) l d
  rfl

theorem Dev.openSlots_ctx (d : Dev) {l : List Nat} (slot : Slot) (hd : l.Nodup) (hl : ∀ n ∈ l, n < d.cap.length) (m : Nat) :
    (d.openSlots l slot).ctx m = if m ∈ l then { d.ctx m with slots := (d.ctx m).slots ++ [slot] } else d.ctx m := by
  induction l generalizing d with
  | nil => rfl
  | cons n l ih =>
    obtain ⟨hn, hd⟩ := List.nodup_cons.mp hd
    have hcap : ∀ k ∈ l, k < (d.modCtx n (fun c => { c with slots := c.slots ++ [slot] })).cap.length := fun k hk => by
      simpa [modifyAt] using hl k (List.mem_cons_of_mem _ hk)
    refine (ih _ hd hcap).trans ?_
    by_cases hm : m = n
    · subst hm
      rw [if_neg hn, if_pos List.mem_cons_self, Dev.ctx_modCtx d _ (hl m List.mem_cons_self)]
    · rw [Dev.ctx_modCtx_ne d _ hm]
      simp only [List.mem_cons, hm, false_or]

/-- The slot that a target opens: behind the triggers that were queued before it (R127). -/
def handoverSlot (q : Dev × Bool) (p t : Nat) : Slot :=
  { target := t, ord2 := if q.2 then 2 * (q.1.port p).trigOrd else 2 * ((q.1.port p).trigOrd - 1) + 1 }

/-- Changes the schedule of a port. -/
def Dev.modTrig (d : Dev) (p : Nat) (f : TrigSched → TrigSched) : Dev := { d with trig := modifyAt d.trig p f }

@[simp] theorem Dev.modTrig_trig (d : Dev) (p : Nat) (f : TrigSched → TrigSched) : (d.modTrig p f).trig = modifyAt d.trig p f := rfl
@[simp] theorem Dev.modTrig_link (d : Dev) (p : Nat) (f : TrigSched → TrigSched) : (d.modTrig p f).link = d.link := rfl
@[simp] theorem Dev.modTrig_cap (d : Dev) (p : Nat) (f : TrigSched → TrigSched) : (d.modTrig p f).cap = d.cap := rfl

@[simp] theorem Dev.showNext_trig (d : Dev) (p t : Nat) : (d.showNext p t).trig = d.trig := by
  rw [Dev.showNext, Dev.set_trig, Dev.set_trig]
@[simp] theorem Dev.showNext_link (d : Dev) (p t : Nat) : (d.showNext p t).link = d.link := by
  rw [Dev.showNext, Dev.set_link, Dev.set_link]
@[simp] theorem Dev.showNext_cap (d : Dev) (p t : Nat) : (d.showNext p t).cap = d.cap := by
  rw [Dev.showNext, Dev.set_cap, Dev.set_cap]

/-- What queueing the target's trigger and opening its slots leave. -/
def Dev.slotsOpened (d : Dev) (p t plan : Nat) : Dev :=
  (d.queueTrigger p t plan).1.openSlots ((d.queueTrigger p t plan).1.slotCtxs p plan) (handoverSlot (d.queueTrigger p t plan) p t)

/-- What the handover of the target `t` leaves (R394). -/
def Dev.handedOver (d : Dev) (p t plan : Nat) : Dev :=
  ((d.slotsOpened p t plan).modTrig p (fun ts => { ts with from_ := t + 1 })).showNext p t

theorem execTriggerTargetHandover_runs {s : State} {p : Fin 8} {t plan : Nat} (hruns : s.dev.trigRuns p = true)
    (hnext : (s.dev.trig.getD p {}).nextFrom (s.dev.trig.getD p {}).from_ = some (t, plan)) :
    execTriggerTargetHandover p s = .next { s with dev := s.dev.handedOver p t plan } := by
  have hnext' : (elemAt s.dev.trig p {}).nextFrom (elemAt s.dev.trig p {}).from_ = some (t, plan) := hnext
  simp only [execTriggerTargetHandover, State.run, hruns, hnext']
  rfl

theorem execTriggerTargetHandover_stopped {s : State} {p : Fin 8} (hruns : s.dev.trigRuns p = false) :
    execTriggerTargetHandover p s = .next s := by
  simp only [execTriggerTargetHandover, State.run, hruns]

/-- The schedule of a port that runs is one of the listed. -/
theorem Dev.lt_trig_of_runs {d : Dev} {p : Nat} (h : d.trigRuns p = true) : p < d.trig.length := by
  simp only [Dev.trigRuns, Bool.and_eq_true] at h
  obtain ⟨-, hrun⟩ := h
  exact lt_length_of_elemAt_ne (x := ({} : TrigSched)) (fun he => by rw [he] at hrun; cases hrun)

/-- The two halves of TRIG_NEXT read the target's STIME. -/
theorem Dev.showNext_next (d : Dev) (p t : Nat) : (d.showNext p t).get (F.TRIG_NEXT_LO_NEXT p) +
    2 ^ 32 * (d.showNext p t).get (F.TRIG_NEXT_HI_NEXT p) = stimeOfNs t := by
  have hne : (F.TRIG_NEXT_LO_NEXT p).apart (F.TRIG_NEXT_HI_NEXT p) := .inl (by
    simp only [F.TRIG_NEXT_LO_NEXT, F.TRIG_NEXT_HI_NEXT, R.TRIG_NEXT_LO, R.TRIG_NEXT_HI]
    omega)
  have hhi : stimeOfNs t / 2 ^ 32 < 2 ^ 32 := Nat.div_lt_of_lt_mul (stimeOfNs_lt t)
  unfold Dev.showNext
  rw [Dev.get_set_apart _ _ _ _ (Fld.ok_of_ble rfl) hne, Dev.get_set_same _ _ _ (Fld.ok_of_ble rfl),
    Dev.get_set_same _ _ _ (Fld.ok_of_ble rfl)]
  simp only [F.TRIG_NEXT_LO_NEXT, F.TRIG_NEXT_HI_NEXT]
  omega

theorem Dev.handedOver_next (d : Dev) (p t plan : Nat) : (d.handedOver p t plan).get (F.TRIG_NEXT_LO_NEXT p) +
    2 ^ 32 * (d.handedOver p t plan).get (F.TRIG_NEXT_HI_NEXT p) = stimeOfNs t := Dev.showNext_next _ p t

theorem Dev.handedOver_trig {d : Dev} {p t plan : Nat} (h : p < d.trig.length) :
    ((d.handedOver p t plan).trig.getD p {}).from_ = t + 1 := by
  obtain ⟨-, hq, -⟩ := d.queueTrigger_same p t plan
  have htrig : (d.slotsOpened p t plan).trig = d.trig := by rw [Dev.slotsOpened, Dev.openSlots_trig, hq]
  have hmod : (d.handedOver p t plan).trig = modifyAt (d.slotsOpened p t plan).trig p (fun ts => { ts with from_ := t + 1 }) := by
    rw [Dev.handedOver, Dev.showNext_trig, Dev.modTrig_trig]
  rw [hmod, htrig]
  exact congrArg TrigSched.from_ (elemAt_modifyAt _ {} h)

theorem Dev.handedOver_port (d : Dev) (p t plan : Nat) : (d.handedOver p t plan).port p = (d.queueTrigger p t plan).1.port p := by
  have hlink : (d.handedOver p t plan).link = (d.slotsOpened p t plan).link := by
    rw [Dev.handedOver, Dev.showNext_link, Dev.modTrig_link]
  rw [Dev.slotsOpened, Dev.openSlots_link] at hlink
  exact Dev.port_congr hlink p

/-- The target opens a slot in the contexts that wait for its plan, and in no other (R127). -/
theorem Dev.handedOver_ctx (d : Dev) (p t plan n : Nat) :
    if d.ctxRuns n = true ∧ n ∈ d.ctxOfPort p ∧ d.get (F.CAP_BIND_PLAN n) = plan
    then ∃ x : Slot, x.target = t ∧ (d.handedOver p t plan).ctx n = { d.ctx n with slots := (d.ctx n).slots ++ [x] }
    else (d.handedOver p t plan).ctx n = d.ctx n := by
  obtain ⟨hcap, -, hword⟩ := d.queueTrigger_same p t plan
  have hctx : ∀ m, (d.queueTrigger p t plan).1.ctx m = d.ctx m := Dev.ctx_congr hcap
  have hslots : (d.queueTrigger p t plan).1.slotCtxs p plan = d.slotCtxs p plan :=
    Dev.slotCtxs_congr hcap (hword _ (by decide)) (fun m hm => hword _ (CAP_BIND_not_reported hm)) p plan
  have hlen : ∀ m ∈ d.slotCtxs p plan, m < (d.queueTrigger p t plan).1.cap.length := fun m hm => by
    obtain ⟨-, hport, -⟩ := Dev.mem_slotCtxs.mp hm
    obtain ⟨-, -, -, hstarted⟩ := Dev.mem_ctxOfPort.mp hport
    exact Dev.lt_cap_of_started ((hctx m).symm ▸ hstarted)
  have hnodup : (d.slotCtxs p plan).Nodup := (List.nodup_range.filter _).filter _
  have hkept : (d.handedOver p t plan).cap = (d.slotsOpened p t plan).cap := by
    rw [Dev.handedOver, Dev.showNext_cap, Dev.modTrig_cap]
  have hopen := Dev.ctx_congr hkept n
  rw [Dev.slotsOpened, hslots, Dev.openSlots_ctx _ _ hnodup hlen, hctx] at hopen
  simp only [Dev.mem_slotCtxs] at hopen
  split
  · next h => exact ⟨_, rfl, hopen.trans (if_pos h)⟩
  · next h => exact hopen.trans (if_neg h)

end Sys2Proof.Machine
end

section
/-!
The start of triggers, the exposure sets that they give effect to, and the sets' commit and sending (R113, R114, R148-R151).
-/
namespace Sys2Proof.Machine

/-! ### The start of a trigger is T0 of the sets that were sent (R150) -/

theorem Dev.expT0_unbound {d : Dev} {p : Nat} (h : d.ctxOfPort p = []) (ord : Nat) : d.expT0 p ord = d := by
  rw [Dev.expT0, h, List.foldl_nil]

/-- The set `e` of context `n` takes effect from slot `a` on. -/
def Dev.expTimed (d : Dev) (n a : Nat) (e : ExpSet) : Dev :=
  ({ d with exps := setAt d.exps n [{ e with state := 3, apply := a }] }.set (F.CAP_EXP_APPLY_APPLY_FSEQ n) a).set
    (F.CAP_EXP_STATUS_STATE n) 3

theorem Dev.expT0_sent {d : Dev} {p n : Nat} {e : ExpSet} (hctx : d.ctxOfPort p = [n]) (hexps : d.exps.getD n [] = [e])
    (hsent : e.state = 2) (hlost : e.lost = false) (ord : Nat) : ∃ a < 2 ^ 32,
    d.expT0 p ord = (d.expTimed n a e).eventCtx 0x0805 sevInfo n n [u16 e.sid, u32 a] := by
  refine ⟨d.applyFseq n p (ord + d.get (F.CAP_LATCH_LATCH_DELAY n)), Nat.mod_lt _ (by decide), ?_⟩
  have helem : elemAt d.exps n [] = [e] := hexps
  have hfind : [e].find? (fun e => e.state == 2) = some e := by simp [hsent]
  simp only [Dev.expT0, hctx, List.foldl_cons, List.foldl_nil, helem, hfind, hlost, Bool.false_eq_true, if_false, List.map_cons,
    List.map_nil, if_true]
  generalize d.applyFseq n p (ord + d.get (F.CAP_LATCH_LATCH_DELAY n)) = a
  rw [Dev.expTimed, hlost]

theorem CAP_EXP_not_reported {n : Nat} (hn : n < 16) : R.CAP_EXP_STATUS n ∉ reportRegs ∧ R.CAP_EXP_APPLY n ∉ reportRegs := by
  refine ⟨not_mem_reportRegs ?_ ?_, not_mem_reportRegs ?_ ?_⟩
  all_goals simp only [R.CAP_EXP_STATUS, R.CAP_EXP_APPLY]; omega

@[simp] theorem Dev.expTimed_link (d : Dev) (n a : Nat) (e : ExpSet) : (d.expTimed n a e).link = d.link := by
  rw [Dev.expTimed, Dev.set_link, Dev.set_link]

/-- What a set shows whose APPLY_FSEQ is known. -/
theorem Dev.expTimed_shows (d : Dev) {n a : Nat} {e : ExpSet} (ha : a < 2 ^ 32) (hexps : d.exps.getD n [] = [e]) :
    (d.expTimed n a e).get (F.CAP_EXP_STATUS_STATE n) = 3 ∧ (d.expTimed n a e).get (F.CAP_EXP_APPLY_APPLY_FSEQ n) = a ∧
      (d.expTimed n a e).exps.getD n [] = [{ e with state := 3, apply := a }] := by
  have hapart : (F.CAP_EXP_APPLY_APPLY_FSEQ n).apart (F.CAP_EXP_STATUS_STATE n) := .inl (by
    simp only [F.CAP_EXP_APPLY_APPLY_FSEQ, F.CAP_EXP_STATUS_STATE, R.CAP_EXP_APPLY, R.CAP_EXP_STATUS]
    omega)
  have hlen : n < d.exps.length := lt_length_of_elemAt_ne (x := []) (by rw [elemAt, hexps]; exact List.cons_ne_nil e [])
  unfold Dev.expTimed
  refine ⟨Dev.get_set_same _ _ _ (Fld.ok_of_ble rfl), ?_, ?_⟩
  · rw [Dev.get_set_apart _ _ _ _ (Fld.ok_of_ble rfl) hapart, Dev.get_set_same _ _ _ (Fld.ok_of_ble rfl)]
    exact Nat.mod_eq_of_lt ha
  · rw [Dev.set_exps, Dev.set_exps]
    exact getD_setAt _ _ hlen

/-! ### TRIGGER_SEQUENCE, XTRIG_RISE and XTRIG_FALL (R110, R113, R114) -/

/-- The oldest sequence `t` of a port goes out. -/
def Dev.launched (d : Dev) (p : Nat) (t : TrigSeq) (rest : List TrigSeq) : Dev :=
  (d.modPort p (fun lp => { lp with trigQueue := rest })).emit (.trigger p t.id t.fine t.bound)

/-- `XTRIG[p]` rises for the oldest rise that waits. -/
def Dev.xtrigRaised (d : Dev) (p : Nat) (rest : List (Nat × Nat)) : Dev :=
  (d.modPort p (fun lp => { lp with xtrigQueue := rest })).pin (pinXtrig p) 1

theorem Dev.launched_port (d : Dev) {p : Nat} (t : TrigSeq) (rest : List TrigSeq) (h : p < d.link.length) :
    (d.launched p t rest).port p = { d.port p with trigQueue := rest } :=
  d.port_modPort (fun lp => { lp with trigQueue := rest }) h

theorem Dev.launched_ctxOfPort (d : Dev) (p q : Nat) (t : TrigSeq) (rest : List TrigSeq) :
    (d.launched p t rest).ctxOfPort q = d.ctxOfPort q := rfl

theorem Dev.xtrigRaised_ctxOfPort (d : Dev) (p q : Nat) (rest : List (Nat × Nat)) :
    (d.xtrigRaised p rest).ctxOfPort q = d.ctxOfPort q := rfl

theorem execTriggerSequence_empty {s : State} {p : Fin 8} (h : (s.dev.port p).trigQueue = []) : execTriggerSequence p s = .next s := by
  simp only [execTriggerSequence, State.run, h]

theorem execTriggerSequence_cons {s : State} {p : Fin 8} {t : TrigSeq} {rest : List TrigSeq}
    (h : (s.dev.port p).trigQueue = t :: rest) :
    execTriggerSequence p s = .next { s with dev := (s.dev.launched p t rest).expT0 p t.ord } := by
  simp only [execTriggerSequence, State.run, h]
  rfl

theorem execXtrigRise_empty {s : State} {p : Fin 8} (h : (s.dev.port p).xtrigQueue = []) : execXtrigRise p s = .next s := by
  simp only [execXtrigRise, State.run, h]

/-- A rise that is not T0 of a set. -/
theorem execXtrigRise_cons {s : State} {p : Fin 8} {t : Nat × Nat} {rest : List (Nat × Nat)} (h : (s.dev.port p).xtrigQueue = t :: rest)
    (hT0 : s.dev.get (F.KSL_CTRL_TRIG_SRC p) ≠ 1 ∨ s.dev.ctxOfPort p = []) :
    execXtrigRise p s = .next { s with dev := s.dev.xtrigRaised p rest } := by
  have hrise : execXtrigRise p s = .next { s with dev :=
      (if (s.dev.xtrigRaised p rest).get (F.KSL_CTRL_TRIG_SRC p) = 1 then (s.dev.xtrigRaised p rest).expT0 p t.2
        else s.dev.xtrigRaised p rest) } := by
    simp only [execXtrigRise, State.run, h]
    rfl
  rw [hrise]
  rcases hT0 with hsrc | hctx
  · rw [if_neg (show ¬ (s.dev.xtrigRaised p rest).get (F.KSL_CTRL_TRIG_SRC p) = 1 from hsrc)]
  · rw [Dev.expT0_unbound (hctx ▸ s.dev.xtrigRaised_ctxOfPort p p rest), ite_self]

/-- The first trigger after an EXP_SET gives the set its APPLY_FSEQ (R150). -/
theorem execTriggerSequence_sent {s : State} {p : Fin 8} {t : TrigSeq} {rest : List TrigSeq} {n : Nat} {e : ExpSet}
    (hq : (s.dev.port p).trigQueue = t :: rest) (hctx : s.dev.ctxOfPort p = [n]) (hexps : s.dev.exps.getD n [] = [e])
    (hsent : e.state = 2) (hlost : e.lost = false) : Completes (.triggerSequence p) s (fun d => (d.port p).trigQueue = rest ∧
      (∃ l, d.out = s.dev.out ++ .trigger p t.id t.fine t.bound :: l) ∧ d.get (F.CAP_EXP_STATUS_STATE n) = 3 ∧
      d.exps.getD n [] = [{ e with state := 3, apply := d.get (F.CAP_EXP_APPLY_APPLY_FSEQ n) }]) := by
  obtain ⟨hn, -⟩ := Dev.mem_ctxOfPort.mp (hctx ▸ List.mem_cons_self : n ∈ s.dev.ctxOfPort p)
  have hlen : p.val < s.dev.link.length :=
    lt_length_of_elemAt_ne (x := ({} : LinkPort)) (fun he => by rw [Dev.port, he] at hq; cases hq)
  obtain ⟨a, ha, hT0⟩ := Dev.expT0_sent (d := s.dev.launched p t rest) hctx hexps hsent hlost t.ord
  obtain ⟨hstate, happly, hset⟩ := (s.dev.launched p t rest).expTimed_shows ha hexps
  have hrep := ((s.dev.launched p t rest).expTimed n a e).eventCtx_reports 0x0805 sevInfo n n [u16 e.sid, u32 a]
  obtain ⟨hstatusReg, happlyReg⟩ := CAP_EXP_not_reported hn
  obtain ⟨l, hout⟩ := hrep.out
  refine ⟨_, execTriggerSequence_cons hq, rfl, ?_⟩
  simp only [hT0]
  refine ⟨?_, ⟨l, ?_⟩, ?_, ?_⟩
  · rw [Dev.port_congr hrep.link, Dev.port_congr (Dev.expTimed_link _ _ _ _), s.dev.launched_port t rest hlen]
  · rw [hout, Dev.expTimed, Dev.set_out, Dev.set_out, Dev.launched, Dev.emit, Dev.modPort_out, List.append_assoc]
    rfl
  · rw [hrep.get _ hstatusReg, hstate]
  · rw [hrep.exps, hrep.get _ happlyReg, happly, hset]

/-! ### EXP_SET_SEND (R149) -/

/-- The frame `f` goes out on port `p`, before those in `rest`. -/
def Dev.bcGone (d : Dev) (p : Nat) (f : BcFrame) (rest : List BcFrame) : Dev :=
  (d.emit (.bcFrame p f.cmd f.tag f.payload)).modPort p (fun lp =>
    { lp with bcQueue := rest, bcOut := if bcAnswered f.cmd then lp.bcOut ++ [f] else lp.bcOut })

theorem Dev.bcGone_queue (d : Dev) {p : Nat} (f : BcFrame) (rest : List BcFrame) (hp : p < d.link.length) :
    ((d.bcGone p f rest).port p).bcQueue = rest := by
  rw [Dev.bcGone, Dev.port_modPort (d.emit _) _ hp]

@[simp] theorem Dev.expSent_link (d : Dev) (n : Nat) : (d.expSent n).link = d.link := by
  unfold Dev.expSent
  dsimp only
  split
  · rw [Dev.set_link]
  · rfl

/-- The latched set of a context, the only one it has, is SENT. -/
theorem Dev.expSent_latched {d : Dev} {n : Nat} {e : ExpSet} (hexps : d.exps.getD n [] = [e]) (hlatched : e.state = 1) :
    d.expSent n = { d with exps := setAt d.exps n [{ e with state := 2 }] }.set (F.CAP_EXP_STATUS_STATE n) 2 := by
  have helem : elemAt d.exps n [] = [e] := hexps
  simp [Dev.expSent, helem, hlatched]

theorem Dev.bcPump_nil {d : Dev} {p : Nat} (h : (d.port p).bcQueue = []) (fuel : Nat) : Dev.bcPump fuel d p = d := by
  cases fuel with
  | zero => rfl
  | succ fuel => simp only [Dev.bcPump, h]

/-- A frame with an exposure set of context `n` that waits alone goes out. -/
theorem Dev.bcPump_single {d : Dev} {p n : Nat} {f : BcFrame} (hq : (d.port p).bcQueue = [f]) (hctx : f.ctx = some n)
    (hp : p < d.link.length) (fuel : Nat) : Dev.bcPump (fuel + 1) d p = (d.bcGone p f []).expSent n := by
  have hgone : Dev.bcPump (fuel + 1) d p = Dev.bcPump fuel ((d.bcGone p f []).expSent n) p := by
    simp only [Dev.bcPump, hq, hctx, Dev.bcGone]
  rw [hgone, Dev.bcPump_nil]
  rw [Dev.port_congr (Dev.expSent_link _ n), d.bcGone_queue f [] hp]

/-- A frame joins the empty queue of a port. -/
def Dev.bcQueued (d : Dev) (p : Nat) (f : BcFrame) : Dev :=
  d.modPort p (fun lp => { lp with bcTag := (lp.bcTag + 1) % 256, bcQueue := bcInsert lp.bcQueue f })

theorem Dev.bcSend_alone {d : Dev} {p : Nat} (hruns : d.portRuns p = true) (hq : (d.port p).bcQueue = []) (hp : p < d.link.length)
    (cmd : Nat) (payload : List Byte) (n : Nat) (host : Bool) {f : BcFrame}
    (hf : f = { cmd := cmd, tag := (d.port p).bcTag, payload := payload, ctx := some n, host := host }) :
    d.bcSend p cmd payload (some n) host = ((d.bcQueued p f).bcGone p f []).expSent n := by
  have hqueue : ((d.bcQueued p f).port p).bcQueue = [f] := by
    rw [Dev.bcQueued, Dev.port_modPort d _ hp, hq]
    rfl
  have hlen : p < (d.bcQueued p f).link.length := by
    rw [Dev.bcQueued, Dev.modPort_link, modifyAt, List.length_modify]
    exact hp
  rw [← Dev.bcPump_single hqueue (by rw [hf]) hlen 1]
  have hsend : d.bcSend p cmd payload (some n) host =
      if (d.bcQueued p f).portRuns p then Dev.bcPump (((d.bcQueued p f).port p).bcQueue.length + 1) (d.bcQueued p f) p
        else d.bcQueued p f := by
    rw [hf]
    rfl
  rw [hsend, if_pos (show (d.bcQueued p f).portRuns p = true from hruns), hqueue]
  rfl

/-- An exposure set `e` as the payload of its EXP_SET (R106). -/
def ExpSet.payload (e : ExpSet) : List Byte :=
  bytesBE 2 e.sid ++ bytesBE 1 e.entries.length ++ e.entries.flatMap (fun (x : Nat × Nat) => bytesBE 4 x.1 ++ bytesBE 4 x.2)

/-- Context `n`'s set `e` went out by port `p`. -/
def Dev.expOut (d : Dev) (n p : Nat) (e : ExpSet) (link : List LinkPort) : Dev :=
  { d with link := link
           out := d.out ++ [Output.bcFrame p 3 (d.port p).bcTag e.payload]
           exps := setAt d.exps n [{ e with state := 2 }] }.set (F.CAP_EXP_STATUS_STATE n) 2

/-- An exposure set goes out on a port whose back channel is free. -/
theorem Dev.expSend_latched {d : Dev} {n p : Nat} {e : ExpSet} (hport : d.get (F.CAP_BIND_PORT n) = p)
    (hexps : d.exps.getD n [] = [e]) (hlatched : e.state = 1) (hruns : d.portRuns p = true) (hq : (d.port p).bcQueue = [])
    (hp : p < d.link.length) : ∃ link, d.expSend n = d.expOut n p e link := by
  have helem : elemAt d.exps n [] = [e] := hexps
  have hfind : [e].find? (fun e => e.state == 1) = some e := by simp [hlatched]
  have hsend : d.expSend n = d.bcSend p 3 e.payload (some n) false := by
    simp only [Dev.expSend, hport, helem, hfind, hq, List.any_nil, Bool.false_eq_true, if_false, ExpSet.payload]
  rw [hsend, Dev.bcSend_alone hruns hq hp 3 e.payload n false rfl]
  refine ⟨_, (Dev.expSent_latched (e := e) ?_ hlatched).trans rfl⟩
  exact hexps

/-- What context `n` shows once its set went out. -/
theorem Dev.expOut_shows (d : Dev) {n p : Nat} (e : ExpSet) (link : List LinkPort) (hexps : d.exps.getD n [] = [e]) :
    (d.expOut n p e link).out = d.out ++ [.bcFrame p 3 (d.port p).bcTag e.payload] ∧
      (d.expOut n p e link).exps.getD n [] = [{ e with state := 2 }] ∧ (d.expOut n p e link).get (F.CAP_EXP_STATUS_STATE n) = 2 := by
  have hlen : n < d.exps.length := lt_length_of_elemAt_ne (x := []) (by rw [elemAt, hexps]; exact List.cons_ne_nil e [])
  unfold Dev.expOut
  refine ⟨?_, ?_, Dev.get_set_same _ _ _ (Fld.ok_of_ble rfl)⟩
  · rw [Dev.set_out]
  · rw [Dev.set_exps]
    exact getD_setAt _ _ hlen

theorem Dev.expOut_only (d : Dev) (n p : Nat) (e : ExpSet) (link : List LinkPort) :
    ({ d with out := (d.expOut n p e link).out, exps := (d.expOut n p e link).exps, link := (d.expOut n p e link).link } : Dev).Only
      (d.expOut n p e link) [F.CAP_EXP_STATUS_STATE n] := by
  have hout : (d.expOut n p e link).out = d.out ++ [.bcFrame p 3 (d.port p).bcTag e.payload] := by rw [Dev.expOut, Dev.set_out]
  have hset : (d.expOut n p e link).exps = setAt d.exps n [{ e with state := 2 }] := by rw [Dev.expOut, Dev.set_exps]
  have hlink : (d.expOut n p e link).link = link := by rw [Dev.expOut, Dev.set_link]
  rw [hout, hset, hlink]
  exact (Dev.Only.refl _ _).set 2 List.mem_cons_self (Fld.ok_of_ble rfl)

theorem execExpSetSend_blanking {s : State} {n : Fin 16} (h : s.dev.blanking (s.dev.get (F.CAP_BIND_PORT n)) = true) :
    execExpSetSend n s = .next { s with dev := s.dev.expSend n } := by
  simp only [execExpSetSend, State.run, h, if_true]

theorem execExpSetSend_open {s : State} {n : Fin 16} (h : s.dev.blanking (s.dev.get (F.CAP_BIND_PORT n)) = false) :
    execExpSetSend n s = .next s := by
  simp only [execExpSetSend, State.run, h, Bool.false_eq_true, if_false]

/-! ### CAP_EXP_COMMIT (R148) -/

/-- The staged set of context `n`, latched under `sid`. -/
def Dev.expStaged (d : Dev) (n sid : Nat) : ExpSet :=
  { sid := sid, gain := d.get (F.RAWC_GAIN_STAGE_IDX n)
    entries := (List.range (d.get (F.CAP_EXP_CNT_COUNT n))).map (fun k =>
      (d.get (F.CAP_EXP_ADDR_ADDR n k), d.get (F.CAP_EXP_VAL_VAL n k))) }

/-- The SID of context `n`'s next set. -/
def Dev.sidNext (d : Dev) (n : Nat) : Nat := (d.get (F.CAP_EXP_STATUS_SID n) + 1) % 65536

/-- Context `n`'s staged set is latched where it has no other. -/
def Dev.expLatched (d : Dev) (n : Nat) : Dev :=
  ({ d with exps := setAt (setAt d.exps n []) n [d.expStaged n (d.sidNext n)] }.set (F.CAP_EXP_STATUS_SID n) (d.sidNext n)).set
    (F.CAP_EXP_STATUS_STATE n) 1

theorem Dev.expCommit_empty {d : Dev} {n : Nat} (h : d.get (F.CAP_EXP_CNT_COUNT n) = 0) : d.expCommit n = d := by
  rw [Dev.expCommit, if_pos h]

theorem Dev.expPrune_none {d : Dev} {n : Nat} (h : d.exps.getD n [] = []) : d.expPrune n = { d with exps := setAt d.exps n [] } := by
  have helem : elemAt d.exps n [] = [] := h
  simp only [Dev.expPrune, helem, List.drop_nil]

theorem Dev.colSetLatch_unsynced {d : Dev} {n : Nat} (h : d.flag (F.COL_CFG_SID_SYNC n) = false) (sid : Nat) : d.colSetLatch n sid = d := by
  rw [Dev.colSetLatch, h]
  rfl

theorem Dev.blanking_congr {d e : Dev} (hcap : e.cap = d.cap) (hbind : ∀ n < 16, e.word (R.CAP_BIND n) = d.word (R.CAP_BIND n))
    (p : Nat) : e.blanking p = d.blanking p := by
  simp only [Dev.blanking, Dev.ctxOfPort_congr hcap hbind, Dev.ctx_congr hcap]

/-- A commit outside vertical blanking latches the staged set, which then waits. -/
theorem Dev.expCommit_staged {d : Dev} {n : Nat} (hcount : d.get (F.CAP_EXP_CNT_COUNT n) ≠ 0) (hexps : d.exps.getD n [] = [])
    (hlen : n < d.exps.length) (hsync : d.flag (F.COL_CFG_SID_SYNC n) = false)
    (hblank : d.blanking (d.get (F.CAP_BIND_PORT n)) = false) (hn : n < 16) : d.expCommit n = d.expLatched n := by
  have helem : elemAt (setAt d.exps n []) n [] = [] := getD_setAt [] [] hlen
  have hstep : d.expCommit n = if ((d.expLatched n).colSetLatch n (d.sidNext n)).blanking
      (((d.expLatched n).colSetLatch n (d.sidNext n)).get (F.CAP_BIND_PORT n))
      then ((d.expLatched n).colSetLatch n (d.sidNext n)).expSend n else (d.expLatched n).colSetLatch n (d.sidNext n) := by
    simp only [Dev.expCommit, hcount, if_false, Dev.expPrune_none hexps, helem, List.find?_nil, List.filter_nil, List.nil_append]
    rfl
  have hword : ∀ a, a ≠ R.CAP_EXP_STATUS n → (d.expLatched n).word a = d.word a := fun a ha => by
    rw [Dev.expLatched, Dev.word_set_ne _ _ _ ha, Dev.word_set_ne _ _ _ ha]
    rfl
  have hsync' : (d.expLatched n).flag (F.COL_CFG_SID_SYNC n) = false := by
    rw [Dev.flag_of_word (F.COL_CFG_SID_SYNC n) (hword _ ?_), hsync]
    simp only [F.COL_CFG_SID_SYNC, R.COL_CFG, R.CAP_EXP_STATUS]
    omega
  have hbind : ∀ m < 16, (d.expLatched n).word (R.CAP_BIND m) = d.word (R.CAP_BIND m) := fun m hm => hword _ (by
    simp only [R.CAP_BIND, R.CAP_EXP_STATUS]
    omega)
  have hcap : (d.expLatched n).cap = d.cap := by rw [Dev.expLatched, Dev.set_cap, Dev.set_cap]
  rw [hstep, Dev.colSetLatch_unsynced hsync', Dev.get_of_word (F.CAP_BIND_PORT n) (hbind n hn), Dev.blanking_congr hcap hbind, hblank]
  rfl

/-- What a latched set shows (R148). -/
theorem Dev.expLatched_shows (d : Dev) {n : Nat} (hlen : n < d.exps.length) :
    (d.expLatched n).get (F.CAP_EXP_STATUS_SID n) = d.sidNext n ∧ (d.expLatched n).get (F.CAP_EXP_STATUS_STATE n) = 1 ∧
      (d.expLatched n).exps.getD n [] = [d.expStaged n (d.sidNext n)] := by
  have hsid : d.sidNext n < 2 ^ 16 := Nat.mod_lt _ (by decide)
  unfold Dev.expLatched
  refine ⟨?_, Dev.get_set_same _ _ _ (Fld.ok_of_ble rfl), ?_⟩
  · have hapart : (F.CAP_EXP_STATUS_SID n).apart (F.CAP_EXP_STATUS_STATE n) := .inr (.inl (Nat.le_refl 16))
    rw [Dev.get_set_apart _ _ _ _ (Fld.ok_of_ble rfl) hapart, Dev.get_set_same _ _ _ (Fld.ok_of_ble rfl)]
    exact Nat.mod_eq_of_lt hsid
  · rw [Dev.set_exps, Dev.set_exps]
    exact getD_setAt _ _ (by rw [setAt, List.length_set]; exact hlen)

theorem Dev.expLatched_only (d : Dev) (n : Nat) : ({ d with exps := (d.expLatched n).exps } : Dev).Only (d.expLatched n)
    [F.CAP_EXP_STATUS_SID n, F.CAP_EXP_STATUS_STATE n] := by
  have hexps : (d.expLatched n).exps = setAt (setAt d.exps n []) n [d.expStaged n (d.sidNext n)] := by
    rw [Dev.expLatched, Dev.set_exps, Dev.set_exps]
  rw [hexps]
  exact ((Dev.Only.refl _ _).set _ List.mem_cons_self (Fld.ok_of_ble rfl)).set 1 (List.mem_cons_of_mem _ List.mem_cons_self)
    (Fld.ok_of_ble rfl)

theorem execCapExpCommit_single {s : State} {mask : Fin 65536} {n : Nat} (hreach : s.dev.Reaches R.CAP_EXP_COMMIT)
    (hmask : (List.range 16).filter (bitOf mask) = [n]) : execCapExpCommit mask s = .next { s with dev := s.dev.expCommit n } := by
  rw [execCapExpCommit, State.hostCmd, State.run, Dev.gateWrite_open hreach, hmask]
  rfl

/-- A commit of context `n`'s staged set where it has no other and a frame is open (R148). -/
theorem capExpCommit_completes {s : State} {mask : Fin 65536} {n : Nat} (hreach : s.dev.Reaches R.CAP_EXP_COMMIT)
    (hmask : (List.range 16).filter (bitOf mask) = [n]) (hcount : s.dev.get (F.CAP_EXP_CNT_COUNT n) ≠ 0)
    (hexps : s.dev.exps.getD n [] = []) (hlen : s.dev.exps.length = 16) (hsync : s.dev.flag (F.COL_CFG_SID_SYNC n) = false)
    (hblank : s.dev.blanking (s.dev.get (F.CAP_BIND_PORT n)) = false) : Completes (.capExpCommit mask) s (fun d =>
      d.get (F.CAP_EXP_STATUS_SID n) = s.dev.sidNext n ∧ d.get (F.CAP_EXP_STATUS_STATE n) = 1 ∧
        d.exps.getD n [] = [s.dev.expStaged n (s.dev.sidNext n)] ∧
        ({ s.dev with exps := d.exps } : Dev).Only d [F.CAP_EXP_STATUS_SID n, F.CAP_EXP_STATUS_STATE n]) := by
  have hn : n < 16 := List.mem_range.mp (List.mem_filter.mp (hmask ▸ List.mem_cons_self : n ∈ (List.range 16).filter (bitOf mask))).1
  have hn' : n < s.dev.exps.length := hlen ▸ hn
  obtain ⟨hsid, hstate, hset⟩ := s.dev.expLatched_shows hn'
  refine ⟨_, execCapExpCommit_single hreach hmask, rfl, ?_⟩
  simp only [Dev.expCommit_staged hcount hexps hn' hsync hblank hn]
  exact ⟨hsid, hstate, hset, s.dev.expLatched_only n⟩

/-! ### The obligation -/

/-- Settles O52, by what each of the six commands does in the case named. -/
theorem targetsTriggersExposures : Obligations.TargetsTriggersExposures := by
  unfold Obligations.TargetsTriggersExposures
  refine ⟨fun s p hstop => ⟨_, execTriggerTargetHandover_stopped hstop, rfl, rfl⟩, fun s p t plan hruns hnext => ?_,
    fun s p => ⟨fun hq => ⟨_, execTriggerSequence_empty hq, rfl, rfl⟩, fun t rest hq => ⟨fun hctx => ?_, fun n e => ?_⟩⟩,
    fun s p => ⟨fun hq => ⟨_, execXtrigRise_empty hq, rfl, rfl⟩, fun t rest hq hT0 => ⟨_, execXtrigRise_cons hq hT0, rfl, rfl⟩,
      ⟨_, rfl, rfl, rfl⟩⟩,
    fun s mask n hreach hmask => ⟨fun hcount => ?_, fun hcount hexps hlen hsync hblank => ?_⟩,
    fun s n => ⟨fun hopen => ⟨_, execExpSetSend_open hopen, rfl, rfl⟩, fun e hblank hexps hlatched hruns hq hlen => ?_⟩⟩
  · refine ⟨_, execTriggerTargetHandover_runs hruns hnext, rfl, Dev.handedOver_trig (Dev.lt_trig_of_runs hruns),
      Dev.handedOver_next _ _ _ _, fun n _ => Dev.handedOver_ctx _ _ _ _ n, fun hsrc hend hlen => ?_⟩
    simp only [Dev.handedOver_port]
    exact Dev.queueTrigger_free _ _ _ hsrc hend (lt_of_lt_of_eq p.isLt hlen.symm)
  · refine ⟨_, execTriggerSequence_cons hq, rfl, ?_⟩
    exact Dev.expT0_unbound (hctx ▸ s.dev.launched_ctxOfPort p p t rest) _
  · exact execTriggerSequence_sent hq
  · refine ⟨_, execCapExpCommit_single hreach hmask, rfl, Dev.expCommit_empty hcount⟩
  · obtain ⟨s', hstep, hrest, hsid, hstate, hset, honly⟩ := capExpCommit_completes hreach hmask hcount hexps hlen hsync hblank
    refine ⟨s', hstep, hrest, hsid, hstate, ?_, honly⟩
    rw [hset, hsid]
    rfl
  · have hp : s.dev.get (F.CAP_BIND_PORT n) < s.dev.link.length :=
      lt_of_lt_of_eq (s.dev.get_lt (F.CAP_BIND_PORT n)) hlen.symm
    obtain ⟨link, hsend⟩ := Dev.expSend_latched rfl hexps hlatched hruns hq hp
    obtain ⟨hout, hset, hstate⟩ := s.dev.expOut_shows e link hexps
    refine ⟨_, execExpSetSend_blanking hblank, rfl, ?_⟩
    simp only [hsend]
    exact ⟨hout, hset, hstate, s.dev.expOut_only n _ e link⟩

end Sys2Proof.Machine
end

section
/-!
The capture front end as it is seen from behind: what the merge, the development, the recorder and every report leave as it is
(R113, R127-R136).
-/
namespace Sys2Proof.Machine

/-! ### The view -/

/-- What a frame keeps from its FS on, apart from its close: FSEQ, SFN, target, readouts and whether it is closed. -/
structure FrontFrame where
  fseq : Nat
  sfn : Nat
  trig : Nat
  closed : Bool
  ros : List Readout

/-- What the front end alone changes of a context. -/
structure FrontCtx where
  slots : List Slot
  line : Option OpenLine
  frames : List FrontFrame

/-- The registers of KSL, TRIG and CAP, the ports, and the front end's part of the contexts. -/
structure Front where
  words : Nat → Word
  link : List LinkPort
  cap : List FrontCtx

def CapFrame.front (f : CapFrame) : FrontFrame := ⟨f.fseq, f.sfn, f.trig, f.closed, f.ros⟩

def CapCtx.front (c : CapCtx) : FrontCtx := ⟨c.slots, c.line, c.frames.map CapFrame.front⟩

def Dev.front (d : Dev) : Front :=
  ⟨fun a => if 0x100000 ≤ a ∧ a < 0x300000 then d.word a else 0, d.link, d.cap.map CapCtx.front⟩

/-- A register of another block than KSL, TRIG and CAP. -/
def behindFront (a : Nat) : Prop := a < 0x100000 ∨ 0x300000 ≤ a

theorem behindFront_of_le {a b : Nat} (h : Nat.ble 0x300000 a = true) : behindFront (a + b) :=
  .inr (Nat.le_add_right_of_le (Nat.le_of_ble_eq_true h))

theorem behindFront_of_le_add {a b c : Nat} (h : Nat.ble 0x300000 a = true) : behindFront (a + b + c) :=
  Nat.add_assoc a b c ▸ behindFront_of_le h

theorem Dev.front_link {d e : Dev} (h : e.front = d.front) : e.link = d.link := congrArg Front.link h

theorem Dev.front_port {d e : Dev} (h : e.front = d.front) (p : Nat) : e.port p = d.port p := Dev.port_congr (Dev.front_link h) p

theorem Dev.front_word {d e : Dev} (h : e.front = d.front) {a : Nat} (hlo : 0x100000 ≤ a) (hhi : a < 0x300000) : e.word a = d.word a := by
  have hword := congrFun (congrArg Front.words h) a
  simpa only [Dev.front, hlo, hhi, and_self, if_true] using hword

theorem Dev.front_ctx {d e : Dev} (h : e.front = d.front) (n : Nat) : (e.ctx n).front = (d.ctx n).front := by
  have hcap : e.cap.map CapCtx.front = d.cap.map CapCtx.front := congrArg Front.cap h
  have hget : ∀ x : Dev, (x.ctx n).front = (x.cap.map CapCtx.front).getD n (CapCtx.front {}) := fun x => by
    rw [Dev.ctx, elemAt, List.getD_map]
  rw [hget, hget, hcap]

theorem Dev.front_slots {d e : Dev} (h : e.front = d.front) (n : Nat) : (e.ctx n).slots = (d.ctx n).slots :=
  congrArg FrontCtx.slots (Dev.front_ctx h n)

theorem Dev.front_line {d e : Dev} (h : e.front = d.front) (n : Nat) : (e.ctx n).line = (d.ctx n).line :=
  congrArg FrontCtx.line (Dev.front_ctx h n)

theorem Dev.front_frames {d e : Dev} (h : e.front = d.front) (n : Nat) :
    (e.ctx n).frames.map CapFrame.front = (d.ctx n).frames.map CapFrame.front :=
  congrArg FrontCtx.frames (Dev.front_ctx h n)

/-! ### What changes nothing of it -/

theorem Dev.Touches.front {d e : Dev} {rs : List Nat} (h : d.Touches rs e) (hrs : ∀ a ∈ rs, behindFront a) : e.front = d.front := by
  have hword : ∀ a, 0x100000 ≤ a ∧ a < 0x300000 → e.word a = d.word a := fun a ha => h.words a (fun hin => by
    rcases hrs a hin with hlt | hge
    all_goals omega)
  unfold Dev.front
  rw [h.link, h.cap]
  congr 1
  funext a
  split
  · next ha => exact hword a ha
  · rfl

theorem Dev.set_front (d : Dev) {f : Fld} (v : Nat) (h : behindFront f.addr) : (d.set f v).front = d.front :=
  (d.set_touches f v (rs := [f.addr]) List.mem_cons_self).front (by simpa using h)

theorem Dev.setFlag_front (d : Dev) {f : Fld} (b : Bool) (h : behindFront f.addr) : (d.setFlag f b).front = d.front := d.set_front _ h

theorem Dev.bump_front (d : Dev) {f : Fld} (h : behindFront f.addr) : (d.bump f).front = d.front := d.set_front _ h

theorem Dev.Reports.front {d e : Dev} (h : d.Reports e) : e.front = d.front := by
  refine Dev.Touches.front h ?_
  simp only [reportRegs, behindFront, List.forall_mem_cons]
  decide

theorem Dev.eventCtx_front (d : Dev) (code severity inst ctx : Nat) (items : List Item) :
    (d.eventCtx code severity inst ctx items).front = d.front :=
  (d.eventCtx_reports code severity inst ctx items).front

theorem Dev.eventAt_front (d : Dev) (code severity inst : Nat) (items : List Item) :
    (d.eventAt code severity inst items).front = d.front :=
  (d.eventAt_reports code severity inst items).front

theorem Dev.poolWrite_front (d : Dev) (n o : Nat) (bs : List Byte) : (d.poolWrite n o bs).front = d.front :=
  (d.poolWrite_touches n o bs).front (by simp only [behindFront, List.forall_mem_cons]; decide)

theorem Dev.setEff_front (d : Dev) (a : Nat) (w : Word) : (d.setEff a w).front = d.front := rfl

theorem Dev.latch_front (d : Dev) (a : Nat) : (d.latch a).front = d.front := rfl

/-- A change of a context that the front end's part does not show. -/
theorem Dev.modCtx_front (d : Dev) (n : Nat) {f : CapCtx → CapCtx} (h : ∀ c, (f c).front = c.front) : (d.modCtx n f).front = d.front := by
  have hcap : (modifyAt d.cap n f).map CapCtx.front = d.cap.map CapCtx.front := by
    refine List.ext_getElem (by simp [modifyAt]) (fun i _ _ => ?_)
    simp only [modifyAt, List.getElem_map, List.getElem_modify]
    split
    · exact h _
    · rfl
  unfold Dev.front
  rw [Dev.modCtx_cap, hcap]
  rfl

/-- A change of a frame that the front end's part does not show. -/
theorem Dev.modFrame_front (d : Dev) (n fseq : Nat) {g : CapFrame → CapFrame} (h : ∀ f, (g f).front = f.front) :
    (d.modFrame n fseq g).front = d.front := by
  refine d.modCtx_front n (fun c => ?_)
  simp only [CapCtx.front, List.map_map]
  congr 1
  refine List.map_congr_left (fun f _ => ?_)
  simp only [Function.comp]
  split
  · exact h f
  · rfl

theorem Dev.limited_front (d : Dev) (n code : Nat) {f : Dev → Dev} (hf : ∀ d, (f d).front = d.front) :
    (d.limited n code f).front = d.front := by
  unfold Dev.limited
  dsimp only
  split
  · rfl
  · exact (hf _).trans (d.modCtx_front n (fun _ => rfl))

theorem Dev.limited_eventCtx_front (d : Dev) (n code event severity : Nat) (items : Dev → List Item) :
    (d.limited n code (fun d => d.eventCtx event severity n n (items d))).front = d.front :=
  d.limited_front n code (fun d => d.eventCtx_front _ _ _ _ _)

theorem ite_front {c : Prop} [Decidable c] {a b : Dev} {v : Front} (ha : a.front = v) (hb : b.front = v) :
    (if c then a else b).front = v := by
  split
  · exact ha
  · exact hb

theorem ite_fst_front {α : Type} {c : Prop} [Decidable c] {a b : Dev × α} {v : Front} (ha : a.1.front = v) (hb : b.1.front = v) :
    (if c then a else b).1.front = v := by
  split
  · exact ha
  · exact hb

theorem ite_snd_front {α : Type} {c : Prop} [Decidable c] {a b : α × Dev} {v : Front} (ha : a.2.front = v) (hb : b.2.front = v) :
    (if c then a else b).2.front = v := by
  split
  · exact ha
  · exact hb

theorem fst_front_of_eq {α : Type} {p : Dev × α} {d : Dev} {x : α} {v : Front} (h : p = (d, x)) (hp : p.1.front = v) : d.front = v := by
  rw [h] at hp
  exact hp

theorem snd_front_of_eq {α : Type} {p : α × Dev} {d : Dev} {x : α} {v : Front} (h : p = (x, d)) (hp : p.2.front = v) : d.front = v := by
  rw [h] at hp
  exact hp

theorem foldl_front {α : Type} {f : Dev → α → Dev} (hf : ∀ d x, (f d x).front = d.front) (l : List α) (d : Dev) :
    (l.foldl f d).front = d.front := foldl_keeps (p := Dev.front) hf l d

/-- A fold that carries the block beside something else. -/
theorem foldl_fst_front {α β : Type} {f : Dev × β → α → Dev × β} (hf : ∀ a x, (f a x).1.front = a.1.front) (l : List α) (a : Dev × β) :
    (l.foldl f a).1.front = a.1.front := by
  induction l generalizing a with
  | nil => rfl
  | cons x l ih => exact (ih _).trans (hf a x)

theorem foldl_snd_front {α β : Type} {f : β × Dev → α → β × Dev} (hf : ∀ a x, (f a x).2.front = a.2.front) (l : List α) (a : β × Dev) :
    (l.foldl f a).2.front = a.2.front := by
  induction l generalizing a with
  | nil => rfl
  | cons x l ih => exact (ih _).trans (hf a x)

end Sys2Proof.Machine
end

section
/-!
The recorder works behind the capture front end (R256-R282).
-/
namespace Sys2Proof.Machine

/-! ### Drives and spools -/

theorem Dev.modDrive_front (d : Dev) (k : Nat) (f : DriveSt → DriveSt) : (d.modDrive k f).front = d.front := rfl

theorem Dev.setClip_front (d : Dev) (n : Nat) (c : Option ClipSt) : (d.setClip n c).front = d.front := rfl

theorem Dev.modRec_front (d : Dev) (n fseq : Nat) (g : RecFrame → RecFrame) : (d.modRec n fseq g).front = d.front := rfl

theorem Dev.nvmeCmd_front (d : Dev) (k : Nat) (c : NvmeCmd) : (d.nvmeCmd k c).front = d.front := rfl

theorem Dev.nvme_front (d : Dev) (k kind lba : Nat) (bytes : List Byte) (ctx : Option Nat) :
    (d.nvme k kind lba bytes ctx).front = d.front := d.nvmeCmd_front _ _

theorem Dev.groupWrite_front (d : Dev) (g lba : Nat) (bytes : List Byte) (n seq : Nat) :
    (d.groupWrite g lba bytes n seq).front = d.front := foldl_front (fun d k => d.nvmeCmd_front k _) _ d

theorem Dev.volumeHeader_front (d : Dev) (k state : Nat) (clip : Option (Nat × Nat)) (ctx : Option Nat) :
    (d.volumeHeader k state clip ctx).front = d.front := (Dev.nvme_front _ _ _ _ _ _).trans (d.modDrive_front k _)

theorem Dev.recState_front (d : Dev) : d.recState.front = d.front := d.set_front _ (.inr (by decide))

theorem Dev.submit_front (fuel : Nat) (d : Dev) (n : Nat) (c : ClipSt) (all : Bool) : (Dev.submit fuel d n c all).1.front = d.front := by
  induction fuel generalizing d c with
  | zero => rfl
  | succ fuel ih =>
    unfold Dev.submit
    exact ite_fst_front rfl ((ih _ _).trans (d.groupWrite_front _ _ _ _ _))

theorem Dev.closeSpool_front (d : Dev) (n : Nat) (c : ClipSt) : (d.closeSpool n c).1.front = d.front := Dev.submit_front _ d n _ true

theorem Dev.takeSpool_front (d : Dev) (g : Nat) : ∀ x, d.takeSpool g = some x → x.2.front = d.front := by
  intro x hx
  unfold Dev.takeSpool at hx
  dsimp only at hx
  split at hx
  · cases hx
  · split at hx
    · split at hx
      · cases hx
      · rw [← Option.some.inj hx]
        exact ite_front ((Dev.bump_front _ (behindFront_of_le rfl)).trans (d.modDrive_front _ _)) (d.modDrive_front _ _)
    · split at hx
      · cases hx
      · rw [← Option.some.inj hx]
        exact foldl_front (fun d k => d.modDrive_front k _) _ d

theorem Dev.openSpool_front (d : Dev) (n : Nat) (c : ClipSt) : ∀ x, d.openSpool n c = some x → x.1.front = d.front := by
  intro x hx
  unfold Dev.openSpool at hx
  dsimp only at hx
  split at hx
  · cases hx
  · next lba d' htake =>
    have htaken : d'.front = d.front := d.takeSpool_front _ _ htake
    split at hx
    · rw [← Option.some.inj hx]
      exact (Dev.eventCtx_front _ _ _ _ _ _).trans ((Dev.set_front _ _ (behindFront_of_le rfl)).trans htaken)
    · rw [← Option.some.inj hx]
      exact (Dev.set_front _ _ (behindFront_of_le rfl)).trans htaken

theorem Dev.clipAdd_front (d : Dev) (n : Nat) (c : ClipSt) (type : Nat) (body : List Byte) :
    ∀ x, d.clipAdd n c type body = some x → x.1.front = d.front := by
  intro x hx
  unfold Dev.clipAdd at hx
  dsimp only at hx
  split at hx
  · rw [← Option.some.inj hx]
    exact Dev.submit_front _ d n _ false
  · split at hx
    · cases hx
    · next d' c' hopen =>
      rw [← Option.some.inj hx]
      exact (Dev.submit_front _ d' n _ false).trans ((Dev.openSpool_front _ _ _ _ hopen).trans (d.closeSpool_front n c))

/-! ### Clips -/

theorem Dev.clipSettle_front (d : Dev) (n : Nat) : (d.clipSettle n).front = d.front := by
  have hended : ∀ c : ClipSt, ((((d.setClip n none).recState).eventCtx 0x0C02 sevInfo n n
      [u16 c.dflags, u32 (c.lastF.getD 0), u32 c.lbas.length])).front = d.front := fun c =>
    (Dev.eventCtx_front _ _ _ _ _ _).trans (Dev.recState_front _)
  unfold Dev.clipSettle
  split
  · next c _ =>
    exact ite_front (ite_front ((Dev.setFlag_front _ _ (.inr (by decide))).trans (hended c)) (hended c)) rfl
  · rfl

theorem Dev.closeClip_front (d : Dev) (n dflags : Nat) (flush : Bool) : (d.closeClip n dflags flush).front = d.front := by
  unfold Dev.closeClip
  split
  · rfl
  · refine ite_front rfl ?_
    extract_lets c1 c2 pad c3 c4
    split
    next d' c' hsubmit =>
    have hd : d'.front = d.front := fst_front_of_eq hsubmit (Dev.submit_front _ d n _ true)
    refine (Dev.clipSettle_front _ n).trans ((Dev.recState_front _).trans ((Dev.setClip_front _ n _).trans ?_))
    refine (foldl_front (fun d g => foldl_front (fun d k => ?_) _ d) _ _).trans hd
    exact ite_front (d.nvme_front _ _ _ _ _)
      ((Dev.volumeHeader_front _ _ _ _ _).trans ((Dev.modDrive_front _ _ _).trans (d.nvme_front _ _ _ _ _)))

theorem Dev.recFull_front (d : Dev) (n : Nat) (c : ClipSt) : (d.recFull n c).front = d.front :=
  (Dev.closeClip_front _ n 16 false).trans (Dev.eventCtx_front _ _ _ _ _ _)

theorem Dev.clipAddAll_front (d : Dev) (n : Nat) (c : ClipSt) (l : List (Nat × List Byte)) :
    (Dev.clipAddAll d n c l).1.front = d.front := by
  induction l generalizing d c with
  | nil => rfl
  | cons x l ih =>
    obtain ⟨t, b⟩ := x
    unfold Dev.clipAddAll
    split
    · next d' c' hadd => exact (ih d' c').trans (d.clipAdd_front n c t b _ hadd)
    · exact d.recFull_front n c

theorem Dev.writeTiles_front (l : List (Nat × Nat × List Byte)) (d : Dev) (n : Nat) (c : ClipSt) (fseq : Nat)
    (tiles : List (List Byte)) (locs : List (Nat × Nat × Nat)) : (Dev.writeTiles l d n c fseq tiles locs).1.front = d.front := by
  induction l generalizing d c locs with
  | nil => rfl
  | cons x l ih =>
    obtain ⟨first, count, bytes⟩ := x
    unfold Dev.writeTiles
    split
    · exact d.recFull_front n c
    · next d' c' hadd => exact (ih d' c' _).trans (d.clipAdd_front n c _ _ _ hadd)

/-! ### Frames of a clip -/

theorem Dev.audioRecords_front (d : Dev) (n : Nat) : (d.audioRecords n).2.front = d.front :=
  foldl_snd_front (fun _ _ => by exact ite_snd_front rfl rfl) _ ([], d)

theorem Dev.writeFrame_front (d : Dev) (n : Nat) (c : ClipSt) (f : RecFrame) : (d.writeFrame n c f).front = d.front := by
  unfold Dev.writeFrame
  extract_lets gap c1 delta es data sidMeta tiles hflags head
  split
  · next d1 hadd => exact fst_front_of_eq hadd (d.clipAddAll_front _ _ _)
  · next d1 c2 hadd =>
    have h1 : d1.front = d.front := fst_front_of_eq hadd (d.clipAddAll_front _ _ _)
    refine ite_front h1 ?_
    split
    · next d2 hwrite => exact (fst_front_of_eq hwrite (Dev.writeTiles_front _ _ _ _ _ _ _)).trans h1
    · next d2 c3 locs hwrite =>
      have h2 : d2.front = d.front := (fst_front_of_eq hwrite (Dev.writeTiles_front _ _ _ _ _ _ _)).trans h1
      extract_lets idxLen home
      split
      · next d3 hindex => exact (fst_front_of_eq hindex (Dev.clipAddAll_front _ _ _ _)).trans h2
      · next d3 c4 hindex =>
        have h3 : d3.front = d.front := (fst_front_of_eq hindex (Dev.clipAddAll_front _ _ _ _)).trans h2
        extract_lets c5
        split
        next audio d4 haudio =>
        have h4 : d4.front = d.front := (snd_front_of_eq haudio (d3.audioRecords_front n)).trans h3
        extract_lets lens con
        split
        · next d5 hlast => exact (fst_front_of_eq hlast (Dev.clipAddAll_front _ _ _ _)).trans h4
        · next d5 c6 hlast => exact (fst_front_of_eq hlast (Dev.clipAddAll_front _ _ _ _)).trans h4

theorem Dev.recAdvance_front (fuel : Nat) (d : Dev) (n : Nat) : (Dev.recAdvance fuel d n).front = d.front := by
  induction fuel generalizing d with
  | zero => rfl
  | succ fuel ih =>
    unfold Dev.recAdvance
    split
    · exact ite_front ((ih _).trans (ite_front (Dev.writeFrame_front _ n _ _) rfl)) rfl
    · exact ite_front (ih _) rfl
    · split
      · exact ite_front (d.closeClip_front n _ false) rfl
      · rfl
    · rfl

/-- The record of a slot goes to the recorder's queue, which moves on. -/
theorem Dev.recClose_front (d : Dev) (n fseq : Nat) (record : List Byte) (gen : Nat) (resid : List Byte) (dropped : Bool) :
    (d.recClose n fseq record gen resid dropped).front = d.front :=
  (Dev.recAdvance_front _ _ n).trans (Dev.modRec_front _ n fseq _)

/-! ### Opening a clip -/

theorem Dev.openHeaders_front (d : Dev) (n : Nat) (c : ClipSt) : (d.openHeaders n c).front = d.front := by
  unfold Dev.openHeaders
  exact ite_front rfl (foldl_front (fun d g => foldl_front (fun d k => d.volumeHeader_front k 1 _ _) _ d) _ d)

theorem Dev.openShow_front (d : Dev) (n first held want : Nat) (c : ClipSt) : (d.openShow n first held want c).front = d.front := by
  have hopen : ((d.setClip n (some c)).eventCtx 0x0C01 sevInfo n n [u64 c.start, u32 first]).front = d.front :=
    Dev.eventCtx_front _ _ _ _ _ _
  unfold Dev.openShow
  exact ite_front ((Dev.eventCtx_front _ _ _ _ _ _).trans hopen) hopen

theorem Dev.blobJobs_front (d : Dev) (n : Nat) (blobs : List (Nat × List Byte)) : (d.blobJobs n blobs).front = d.front := rfl

theorem Dev.openTaken_front (d : Dev) (n : Nat) : (d.openTaken n).front = d.front := rfl

theorem Dev.openPreroll_front (d : Dev) (n : Nat) (held : List RecFrame) : (d.openPreroll n held).front = d.front := rfl

theorem Dev.openWith_front (d : Dev) (n fseq : Nat) (c : ClipSt) : (d.openWith n fseq c).front = d.front := by
  unfold Dev.openWith
  extract_lets d1 blobs d2 want held first c1 d3 d4
  have h2 : d2.front = d.front := (d1.blobJobs_front n blobs).trans (d.openHeaders_front n c)
  have h3 : d3.front = d2.front :=
    (Dev.openPreroll_front _ n held).trans ((Dev.openShow_front _ n first held.length want c1).trans (d2.openTaken_front n))
  have h4 : d4.front = d3.front := ite_front (d3.setFlag_front false (.inr (by decide))) rfl
  exact d4.recState_front.trans (h4.trans (h3.trans h2))

theorem Dev.openClip_front (d : Dev) (n fseq : Nat) : (d.openClip n fseq).front = d.front := by
  unfold Dev.openClip
  extract_lets c
  split
  · exact d.recFull_front n c
  · next d' c' hopen => exact (d'.openWith_front n fseq c').trans (d.openSpool_front n c _ hopen)

/-- A resolved slot opens a clip or queues its frame. -/
theorem Dev.recSlot_front (d : Dev) (n fseq sid trig total : Nat) : (d.recSlot n fseq sid trig total).front = d.front := by
  unfold Dev.recSlot
  extract_lets d1
  have h1 : d1.front = d.front := ite_front (d.openClip_front n fseq) rfl
  exact ite_front h1 h1

end Sys2Proof.Machine
end

section
/-!
The merge, the development and the tap of a Gecko path work behind the capture front end (R139, R165-R224, R242, R374).
-/
namespace Sys2Proof.Machine

/-! ### Slots, records and statistics -/

theorem Dev.slotSeen_front (d : Dev) (n fseq sid trig : Nat) (missing jobFirst : Bool) :
    (d.slotSeen n fseq sid trig missing jobFirst).front = d.front := d.modCtx_front n (fun _ => rfl)

theorem Dev.slotBufs_front (d : Dev) (n fseq : Nat) (bufs : List (Option Nat)) : (d.slotBufs n fseq bufs).front = d.front :=
  d.modCtx_front n (fun _ => rfl)

theorem Dev.rawTake_front (d : Dev) (off len ctx fseq : Nat) : (d.rawTake off len ctx fseq).front = d.front := rfl

theorem Dev.rawModify_front (d : Dev) (ctx fseq : Nat) (f : RawEntry → RawEntry) : (d.rawModify ctx fseq f).front = d.front := rfl

theorem Dev.recordAlone_front (d : Dev) (n fseq : Nat) (record : List Byte) : (d.recordAlone n fseq record).front = d.front := by
  unfold Dev.recordAlone
  refine ite_front (d.modCtx_front n (fun _ => rfl)) ?_
  split
  · exact (Dev.poolWrite_front _ _ _ _).trans (d.rawTake_front _ _ _ _)
  · exact d.modCtx_front n (fun _ => rfl)

theorem Dev.statsHeader_front (d : Dev) (n fseq sid state done : Nat) : (d.statsHeader n fseq sid state done).front = d.front :=
  ite_front rfl (d.poolWrite_front _ _ _)

theorem Dev.krcExpect_front (d : Dev) (n fseq tiles : Nat) : (d.krcExpect n fseq tiles).front = d.front := rfl

/-! ### The tap of a Gecko path -/

theorem Dev.modGk_front (d : Dev) (p : Nat) (f : GkSt → GkSt) : (d.modGk p f).front = d.front := rfl

theorem Dev.latchRange_front (d : Dev) (lo hi : Nat) : (d.latchRange lo hi).front = d.front := foldl_front Dev.latch_front _ d

theorem Dev.gkFrameStart_front (d : Dev) (p fseq : Nat) : (d.gkFrameStart p fseq).front = d.front := by
  unfold Dev.gkFrameStart
  extract_lets d1 g take
  have h1 : d1.front = d.front := d.latchRange_front _ _
  exact ite_front rfl ((d1.modGk_front p _).trans h1)

theorem Dev.gkLine_front (d : Dev) (p y bits : Nat) (px : List Nat) (damaged : Bool) : (d.gkLine p y bits px damaged).front = d.front :=
  ite_front rfl (d.modGk_front p _)

/-! ### The merge -/

theorem Dev.concealNote_front (d : Dev) (n : Nat) (e : List Byte) : (d.concealNote n e).front = d.front := rfl

theorem Dev.concealed_front (d : Dev) (n fseq y ro rule : Nat) : (d.concealed n fseq y ro rule).front = d.front := by
  unfold Dev.concealed
  extract_lets e i d1 d2 d3
  have h1 : d1.front = d.front := d.poolWrite_front _ _ _
  have h2 : d2.front = d1.front :=
    (Dev.bump_front _ (behindFront_of_le rfl)).trans (d1.bump_front (behindFront_of_le rfl))
  have h3 : d3.front = d2.front := d2.concealNote_front n e
  exact (d3.limited_eventCtx_front n _ _ _ _).trans (h3.trans (h2.trans h1))

theorem Dev.mergeRow_front (d : Dev) (n fseq y : Nat) (ros : List (Nat × List Line)) (full : Bool) :
    (d.mergeRow n fseq y ros full).front = d.front := by
  unfold Dev.mergeRow
  split
  · rfl
  · next f _ =>
    extract_lets c lines d1 d2
    have h1 : d1.front = d.front := foldl_front (fun d l => ite_front (d.concealed_front _ _ _ _ _) rfl) _ d
    have h2 : d2.front = d1.front := ite_front rfl (d1.bump_front (behindFront_of_le rfl))
    split
    next row merged clipped _ =>
    extract_lets d3
    have h3 : d3.front = d2.front := d2.modFrame_front n fseq (fun _ => rfl)
    have h13 : d3.front = d.front := h3.trans (h2.trans h1)
    split
    · exact (d3.poolWrite_front _ _ _).trans h13
    · exact h13

theorem Dev.mergeReady_front (fuel : Nat) (d : Dev) (n fseq : Nat) : (Dev.mergeReady fuel d n fseq).front = d.front := by
  induction fuel generalizing d with
  | zero => rfl
  | succ fuel ih =>
    unfold Dev.mergeReady
    split
    · rfl
    · extract_lets c y has parts
      exact ite_front rfl (ite_front ((ih _).trans (d.mergeRow_front n fseq y _ true))
        (ite_front ((ih _).trans (d.mergeRow_front n fseq y _ _)) rfl))

/-! ### Tiles and branches -/

theorem Dev.zeBusy_front (d : Dev) : d.zeBusy.front = d.front :=
  (Dev.set_front _ _ (.inr (by decide))).trans (d.set_front _ (.inr (by decide)))

theorem Dev.backlogCheck_front (d : Dev) (n : Nat) : (d.backlogCheck n).front = d.front := by
  unfold Dev.backlogCheck
  split
  exact ite_front (ite_front rfl (Dev.limited_eventCtx_front _ n _ _ _ _)) rfl

theorem Dev.tileRowsReady_front (d : Dev) (n fseq : Nat) : (d.tileRowsReady n fseq).front = d.front := by
  unfold Dev.tileRowsReady
  split
  · rfl
  · next f _ =>
    split
    next w h _ =>
    extract_lets ready d1 idx d2
    have h1 : d1.front = d.front := d.modFrame_front n fseq (fun _ => rfl)
    have h2 : d2.front = d1.front := foldl_front (fun d i => by split <;> rfl) _ d1
    exact ite_front rfl ((Dev.zeBusy_front _).trans ((d2.backlogCheck_front n).trans (h2.trans h1)))

theorem Dev.devPut_front (d : Dev) (off len v : Nat) : (d.devPut off len v).front = d.front := d.poolWrite_front _ _ _

theorem Dev.writeLines_front (d : Dev) (n b i : Nat) (f : CapFrame) (p : Rgb) (a z : Nat) :
    (d.writeLines n b i f p a z).front = d.front :=
  foldl_front (fun d _ => foldl_front (fun d _ => d.poolWrite_front _ _ _) _ d) _ d

theorem Dev.advanceBranches_front (d : Dev) (n fseq : Nat) (rows : List Row) : (d.advanceBranches n fseq rows).front = d.front := by
  unfold Dev.advanceBranches
  split
  · rfl
  · extract_lets todo pics
    refine ite_front rfl (foldl_front (fun d t => ?_) _ d)
    split
    next b i z =>
    extract_lets pic d1 d2 base d3
    have h1 : d1.front = d.front := d.writeLines_front n b i _ pic _ z
    have h2 : d2.front = d1.front := d1.modFrame_front n fseq (fun _ => rfl)
    have h3 : d3.front = d.front := (d2.devPut_front _ _ _).trans (h2.trans h1)
    exact ite_front ((Dev.set_front _ _ (behindFront_of_le_add rfl)).trans ((Dev.devPut_front _ _ _ _).trans
      ((d3.devPut_front _ _ _).trans h3))) h3

theorem Dev.rowsMoved_front (d : Dev) (n fseq : Nat) : (d.rowsMoved n fseq).front = d.front := by
  unfold Dev.rowsMoved
  extract_lets d1
  have h1 : d1.front = d.front := d.tileRowsReady_front n fseq
  split
  · exact ite_front ((d1.advanceBranches_front n fseq _).trans h1) h1
  · exact h1

/-! ### Development start -/

theorem Dev.dmapFull_front (d : Dev) (p : Nat) : (d.dmapFull p).front = d.front := ite_front rfl (Dev.eventAt_front _ _ _ _ _)

theorem Dev.mapEdited_front (d : Dev) (p op : Nat) (x : DefectEntry) (l : List DefectEntry) : (d.mapEdited p op x l).front = d.front := rfl

theorem Dev.applyEdit_front (d : Dev) (p : Nat) (e : DefectEdit) : (d.applyEdit p e).front = d.front := by
  unfold Dev.applyEdit
  extract_lets m
  split
  · exact ite_front (d.mapEdited_front p 2 _ _) (ite_front rfl (d.mapEdited_front p 1 _ _))
  · exact ite_front rfl (ite_front (d.dmapFull_front p) (d.mapEdited_front p 1 _ _))

theorem Dev.applyEdits_front (d : Dev) (p : Nat) : (d.applyEdits p).front = d.front := by
  unfold Dev.applyEdits
  extract_lets m q d1 d2 d3
  have h2 : d2.front = d1.front := foldl_front (fun d e => d.applyEdit_front p e) _ d1
  have h3 : d3.front = d2.front := (Dev.set_front _ _ (behindFront_of_le rfl)).trans (d2.bump_front (behindFront_of_le rfl))
  exact ite_front rfl ((d3.set_front _ (behindFront_of_le rfl)).trans (h3.trans h2))

theorem Dev.useColSet_front (d : Dev) (n sid : Nat) (ws : Sparse Word) : (d.useColSet n sid ws).front = d.front := by
  unfold Dev.useColSet
  extract_lets d1 d2
  have h1 : d1.front = d.front := d.modCtx_front n (fun _ => rfl)
  have h2 : d2.front = d1.front := foldl_front (fun d e => d.setEff_front _ _) _ d1
  exact (Dev.set_front _ _ (behindFront_of_le rfl)).trans ((d2.set_front _ (behindFront_of_le rfl)).trans (h2.trans h1))

theorem Dev.lutSwitch_front (d : Dev) (n b fseq : Nat) : (d.lutSwitch n b fseq).1.front = d.front :=
  ite_fst_front ((Dev.eventCtx_front _ _ _ _ _ _).trans (d.set_front _ (behindFront_of_le_add rfl))) rfl

theorem Dev.devStart_front (d : Dev) (n fseq : Nat) (live : Bool) : (d.devStart n fseq live).front = d.front := by
  unfold Dev.devStart
  split
  · rfl
  · next f _ =>
    extract_lets p gen d1 sync set? d2 flags
    have h1 : d1.front = d.front := ite_front (d.applyEdits_front p) rfl
    have h2 : d2.front = d1.front := by
      unfold d2
      clear_value set?
      split
      · exact d1.useColSet_front n _ _
      · rfl
    split
    next d3 marks hmarks =>
    have h3 : d3.front = d2.front := by
      refine fst_front_of_eq hmarks (foldl_fst_front (fun a b => ?_) _ _)
      refine ite_fst_front ?_ rfl
      split
      next d' m hswitch => exact fst_front_of_eq hswitch (a.1.lutSwitch_front n b fseq)
    split
    next d4 bufs hbufs =>
    have h4 : d4.front = d3.front := by
      refine fst_front_of_eq hbufs (foldl_fst_front (fun a b => ?_) _ _)
      extract_lets d i e m
      have he : e.front = d.front := d.bump_front (behindFront_of_le_add rfl)
      refine ite_fst_front (ite_fst_front ?_ rfl) rfl
      exact (e.limited_front n _ (fun d => d.eventCtx_front _ _ _ _ _)).trans he
    extract_lets lost flags' d5 d6 d7
    have h5 : d5.front = d4.front := d4.modFrame_front n fseq (fun _ => rfl)
    have h6 : d6.front = d5.front := d5.slotBufs_front n fseq bufs
    have h7 : d7.front = d6.front := by
      unfold d7
      split
      · rfl
      · refine foldl_front (fun d b => ?_) _ d6
        split
        · rfl
        · exact d.poolWrite_front _ _ _
    exact (d7.statsHeader_front _ _ _ _ _).trans (h7.trans (h6.trans (h5.trans (h4.trans (h3.trans (h2.trans h1))))))

end Sys2Proof.Machine
end

section
/-!
Packets of a sensor's stream that change the block little (R92-R96, R134).
-/
namespace Sys2Proof.Machine

/-! ### Frames of a context -/

/-- A context's frames are as they were where a change leaves them. -/
theorem Dev.frames_modCtx (d : Dev) (n m : Nat) {f : CapCtx → CapCtx} (h : ∀ c, (f c).frames = c.frames) :
    ((d.modCtx n f).ctx m).frames = (d.ctx m).frames := by
  by_cases hm : m = n
  · subst hm
    by_cases hlen : m < d.cap.length
    · rw [Dev.ctx_modCtx d f hlen, h]
    · rw [Dev.ctx, Dev.modCtx_cap, modifyAt, List.modify_eq_self (Nat.le_of_not_lt hlen)]
      rfl
  · rw [Dev.ctx_modCtx_ne d f hm]

theorem Dev.frame?_congr {d e : Dev} {n : Nat} (h : (e.ctx n).frames = (d.ctx n).frames) (fseq : Nat) : e.frame? n fseq = d.frame? n fseq := by
  rw [Dev.frame?, Dev.frame?, h]

theorem Dev.openFrame_congr {d e : Dev} {n : Nat} (h : (e.ctx n).frames = (d.ctx n).frames) : e.openFrame n = d.openFrame n := by
  rw [Dev.openFrame, Dev.openFrame, h]

/-- A context with a frame is one of the listed. -/
theorem Dev.lt_cap_of_frame? {d : Dev} {n fseq : Nat} {f : CapFrame} (h : d.frame? n fseq = some f) : n < d.cap.length :=
  Dev.lt_cap_of_ne (fun he => by
    rw [Dev.frame?, he] at h
    cases h)

theorem Dev.ctx_modFrame (d : Dev) {n : Nat} (fseq : Nat) (g : CapFrame → CapFrame) (hn : n < d.cap.length) :
    (d.modFrame n fseq g).ctx n =
      { d.ctx n with frames := (d.ctx n).frames.map (fun f => if f.fseq = fseq then g f else f) } := Dev.ctx_modCtx d _ hn

/-- A changed frame that keeps its FSEQ is found in its place. -/
theorem Dev.frame?_modFrame {d : Dev} {n fseq : Nat} {f : CapFrame} {g : CapFrame → CapFrame} (h : d.frame? n fseq = some f)
    (hg : ∀ x, (g x).fseq = x.fseq) : (d.modFrame n fseq g).frame? n fseq = some (g f) := by
  have hfind : ∀ l : List CapFrame, (l.map (fun f => if f.fseq = fseq then g f else f)).find? (fun f => f.fseq == fseq) =
      (l.find? (fun f => f.fseq == fseq)).map g := fun l => by
    induction l with
    | nil => rfl
    | cons x l ih =>
      by_cases hx : x.fseq = fseq
      · simp [hx, hg]
      · simp [hx, ih]
  rw [Dev.frame?, Dev.ctx_modFrame d fseq g (Dev.lt_cap_of_frame? h), hfind, ← Dev.frame?, h, Option.map_some]

/-! ### Packets (R96) -/

theorem Dev.packet_wellFormed {d : Dev} {ty : Nat} {blk : List Byte} (hty : blkByte blk 0 = ty) (hcrc : blkCrcOk blk = true) (p : Nat)
    (f : Dev → Dev) : d.packet p ty blk f = f d := by
  simp [Dev.packet, hty, hcrc]

/-- A packet whose CRC-8 fails is counted and nothing else. -/
theorem Dev.packet_damaged {ty : Nat} {blk : List Byte} (hty : blkByte blk 0 = ty) (hcrc : blkCrcOk blk = false) (d : Dev) (p : Nat)
    (f : Dev → Dev) : (d.packet p ty blk f).get (F.KSL_ERRCNT_HDR_CRC_ERR p) = (d.get (F.KSL_ERRCNT_HDR_CRC_ERR p) + 1) % 65536 ∧
      d.Only (d.packet p ty blk f) [F.KSL_ERRCNT_HDR_CRC_ERR p] := by
  have hbump : d.packet p ty blk f = d.bump (F.KSL_ERRCNT_HDR_CRC_ERR p) := by simp [Dev.packet, hty, hcrc]
  rw [hbump]
  exact ⟨d.get_bump_same _ (Fld.ok_of_ble rfl), (Dev.Only.refl d _).set _ List.mem_cons_self (Fld.ok_of_ble rfl)⟩

theorem State.run_received {s : State} {p : Nat} (hr : s.dev.receives p = true) (f : Dev → Dev) :
    s.run (fun d => if !d.receives p then d else f d) = .next { s with dev := f s.dev } := by
  simp only [State.run, hr, Bool.not_true, Bool.false_eq_true, if_false]

/-- On a port that receives a stream, FRAME_START, FSX, LINE_START and FRAME_END check their packet first. -/
theorem execFrameStart_packet {s : State} {p : Fin 8} (hr : s.dev.receives p = true) (blk : List Byte) :
    ∃ f, execFrameStart p blk s = .next { s with dev := s.dev.packet p 0x33 blk f } :=
  ⟨_, State.run_received hr _⟩

theorem execFsx_packet {s : State} {p : Fin 8} (hr : s.dev.receives p = true) (blk : List Byte) :
    ∃ f, execFsx p blk s = .next { s with dev := s.dev.packet p 0x39 blk f } :=
  ⟨_, State.run_received hr _⟩

theorem execLineStart_packet {s : State} {p : Fin 8} (hr : s.dev.receives p = true) (blk : List Byte) :
    ∃ f, execLineStart p blk s = .next { s with dev := s.dev.packet p 0x2D blk f } :=
  ⟨_, State.run_received hr _⟩

theorem execFrameEnd_packet {s : State} {p : Fin 8} (hr : s.dev.receives p = true) (blk : List Byte) :
    ∃ f, execFrameEnd p blk s = .next { s with dev := s.dev.packet p 0x55 blk f } :=
  ⟨_, State.run_received hr _⟩

theorem streamPackets_unreceived {s : State} {p : Fin 8} (hr : s.dev.receives p = false) (blk data : List Byte) (lost : Bool) :
    execFrameStart p blk s = .next s ∧ execFsx p blk s = .next s ∧ execLineStart p blk s = .next s ∧
      execLineEnd p blk data lost s = .next s ∧ execFrameEnd p blk s = .next s := by
  refine ⟨?_, ?_, ?_, ?_, ?_⟩
  · simp only [execFrameStart, State.run, hr, Bool.not_false, if_true]
  · simp only [execFsx, State.run, hr, Bool.not_false, if_true]
  · simp only [execLineStart, State.run, hr, Bool.not_false, if_true]
  · simp only [execLineEnd, State.run, hr, Bool.not_false, if_true]
  · simp only [execFrameEnd, State.run, hr, Bool.not_false, if_true]

/-! ### FSX (R92) -/

/-- The sensor's timestamp `ts` goes to the record of the frame. -/
def Dev.fsxTaken (d : Dev) (p n fseq : Nat) (ts : List Byte) : Dev :=
  (d.modPort p (fun lp => { lp with fsxDue := false })).modFrame n fseq (fun f => { f with ts := ts })

theorem execFsx_taken {s : State} {p : Fin 8} {blk : List Byte} {n : Nat} {f : CapFrame} (hr : s.dev.receives p = true)
    (hty : blkByte blk 0 = 0x39) (hcrc : blkCrcOk blk = true) (hdue : (s.dev.port p).fsxDue = true)
    (hrx : (s.dev.port p).rx = some n) (hopen : s.dev.openFrame n = some f) :
    execFsx p blk s = .next { s with dev := s.dev.fsxTaken p n f.fseq (sliceBytes blk 1 6).reverse } := by
  have hopen' : (s.dev.modPort p (fun lp => { lp with fsxDue := false })).openFrame n = some f := hopen
  simp only [execFsx, State.run, hr, Bool.not_true, Bool.false_eq_true, if_false, Dev.packet_wellFormed hty hcrc, hdue, hrx, hopen',
    Dev.fsxTaken]

/-! ### LINE_START (R93, R134) -/

/-- Context `n` has no open line. -/
def Dev.lineClosed (d : Dev) (n : Nat) : Dev := d.modCtx n (fun c => { c with line := none })

@[simp] theorem Dev.lineClosed_frames (d : Dev) (n : Nat) : ((d.lineClosed n).ctx n).frames = (d.ctx n).frames :=
  d.frames_modCtx n n (fun _ => rfl)

theorem Dev.lineClosed_frame? (d : Dev) (n fseq : Nat) : (d.lineClosed n).frame? n fseq = d.frame? n fseq :=
  Dev.frame?_congr (d.lineClosed_frames n) fseq

theorem Dev.lineClosed_openFrame (d : Dev) (n : Nat) : (d.lineClosed n).openFrame n = d.openFrame n :=
  Dev.openFrame_congr (d.lineClosed_frames n)

theorem Dev.lineOpened_ctx (d : Dev) {n : Nat} (hn : n < d.cap.length) (l : OpenLine) :
    ((d.lineClosed n).modCtx n (fun c => { c with line := some l })).ctx n = { d.ctx n with line := some l } := by
  have hn' : n < (d.lineClosed n).cap.length := lt_of_lt_of_eq hn (List.length_modify ..).symm
  rw [Dev.ctx_modCtx _ _ hn', Dev.lineClosed, Dev.ctx_modCtx d _ hn]

/-- A readout that has the lines before `y` needs no padding. -/
theorem Dev.padTo_padded {d : Dev} {n fseq ro y : Nat} {f : CapFrame} (hf : d.frame? n fseq = some f)
    (hy : y ≤ (elemAt f.ros ro {}).lines.length) (fuel : Nat) : Dev.padTo (fuel + 1) d n fseq ro y = d := by
  simp only [Dev.padTo, hf, hy, if_true]

section
variable {s : State} {p : Fin 8} {blk : List Byte} {n : Nat} {f : CapFrame} (hr : s.dev.receives p = true)
  (hty : blkByte blk 0 = 0x2D) (hcrc : blkCrcOk blk = true) (hrx : (s.dev.port p).rx = some n) (hopen : s.dev.openFrame n = some f)
  (hro : blkByte blk 1 % 4 < f.ros.length)

include hr hty hcrc hrx hopen hro

/-- The line that comes next in its readout opens. -/
theorem execLineStart_inOrder (hf : s.dev.frame? n f.fseq = some f) (hy : blkBE blk 2 2 < s.dev.get (F.CAP_GEOM_HEIGHT n))
    (hnext : blkBE blk 2 2 = (elemAt f.ros (blkByte blk 1 % 4) {}).lines.length)
    (hdepth : blkByte blk 1 / 4 % 4 = s.dev.get (F.CAP_FMT_DEPTH n)) :
    execLineStart p blk s = .next { s with dev := (s.dev.lineClosed n).modCtx n (fun c => { c with
      line := some { ro := blkByte blk 1 % 4, y := blkBE blk 2 2, count := blkBE blk 4 2, depth := blkByte blk 1 / 4 % 4 } }) } := by
  have hopen' : (s.dev.modCtx n (fun c => { c with line := none })).openFrame n = some f := (s.dev.lineClosed_openFrame n).trans hopen
  have hf' : (s.dev.modCtx n (fun c => { c with line := none })).frame? n f.fseq = some f := (s.dev.lineClosed_frame? n f.fseq).trans hf
  have hpad := Dev.padTo_padded hf' hnext.le (blkBE blk 2 2)
  have hheight : (s.dev.modCtx n (fun c => { c with line := none })).get (F.CAP_GEOM_HEIGHT n) = s.dev.get (F.CAP_GEOM_HEIGHT n) := rfl
  have hfmt : (s.dev.modCtx n (fun c => { c with line := none })).get (F.CAP_FMT_DEPTH n) = s.dev.get (F.CAP_FMT_DEPTH n) := rfl
  have horder : ¬ (s.dev.get (F.CAP_GEOM_HEIGHT n) ≤ blkBE blk 2 2 ∨ blkBE blk 2 2 < (elemAt f.ros (blkByte blk 1 % 4) {}).lines.length) := by
    omega
  simp only [execLineStart, State.run, hr, Bool.not_true, Bool.false_eq_true, if_false, Dev.packet_wellFormed hty hcrc, hrx, hopen',
    Nat.not_le.mpr hro, hheight, horder, hpad, hfmt, hdepth, ne_eq, not_true_eq_false, Dev.lineClosed]

/-- A line out of order or past HEIGHT is cut. -/
theorem execLineStart_cut (hcut : s.dev.get (F.CAP_GEOM_HEIGHT n) ≤ blkBE blk 2 2 ∨
      blkBE blk 2 2 < (elemAt f.ros (blkByte blk 1 % 4) {}).lines.length) :
    execLineStart p blk s = .next { s with dev := (s.dev.lineClosed n).lineCut n f.fseq } := by
  have hopen' : (s.dev.modCtx n (fun c => { c with line := none })).openFrame n = some f := (s.dev.lineClosed_openFrame n).trans hopen
  have hheight : (s.dev.modCtx n (fun c => { c with line := none })).get (F.CAP_GEOM_HEIGHT n) = s.dev.get (F.CAP_GEOM_HEIGHT n) := rfl
  simp only [execLineStart, State.run, hr, Bool.not_true, Bool.false_eq_true, if_false, Dev.packet_wellFormed hty hcrc, hrx, hopen',
    Nat.not_le.mpr hro, hheight, hcut, if_true, Dev.lineClosed]

end

end Sys2Proof.Machine
end

section
/-!
Lines that end and frames that close (R95, R133, R135).
-/
namespace Sys2Proof.Machine

/-! ### LINE_END (R95, R133) -/

/-- An LE on port `p` is counted where its CRC fails. -/
def Dev.leCounted (d : Dev) (p : Nat) (bad : Bool) : Dev := if bad then d.bump (F.KSL_ERRCNT_LE_CRC_ERR p) else d

/-- The line `l` that ends closes its place in context `n`, moves the black estimates, and reaches the port's Gecko path where it is of
exposure index 0. -/
def Dev.lineTaken (d : Dev) (p n : Nat) (l : OpenLine) (bad damaged : Bool) (black px : List Nat) : Dev :=
  let d := ((d.lineClosed n).leCounted p bad).modCtx n (fun c => { c with black := black })
  if l.ro = 0 then d.gkLine (d.bondHead p) l.y (depthBits l.depth) px damaged else d

/-- The line `ln` joins readout `ro` of a frame, and the frame's counts of short, long and damaged lines rise. -/
def CapFrame.withLine (f : CapFrame) (ro short long damaged : Nat) (ln : Line) : CapFrame :=
  { f with short := f.short + short, long := f.long + long, damagedN := f.damagedN + damaged
           ros := modifyAt f.ros ro (fun r => { r with lines := r.lines ++ [ln] }) }

/-- The line `ln` is delivered: it joins its frame, and what waited for it is merged and goes on. -/
def Dev.lineDelivered (d : Dev) (n fseq ro short long damaged : Nat) (ln : Line) : Dev :=
  (Dev.mergeReady 66 (d.modFrame n fseq (fun f => f.withLine ro short long damaged ln)) n fseq).rowsMoved n fseq

theorem execLineEnd_taken {s : State} {p : Fin 8} {blk data : List Byte} {n : Nat} {f : CapFrame} {l : OpenLine} {bad : Bool}
    (hr : s.dev.receives p = true) (hty : blkByte blk 0 = 0x4B) (hcrc : blkCrcOk blk = true) (hrx : (s.dev.port p).rx = some n)
    (hopen : s.dev.openFrame n = some f) (hline : (s.dev.ctx n).line = some l) (hbad : (blkBE blk 2 4 == crc32c data) = !bad)
    (lost : Bool) : ∃ black px short long damaged ln, execLineEnd p blk data lost s = .next { s with
      dev := (s.dev.lineTaken p n l bad (bad || lost) black px).lineDelivered n f.fseq l.ro short long damaged ln } ∧
        ln.damaged = (bad || lost) := by
  simp only [execLineEnd, State.run_received hr, hty, hcrc, hrx, hopen, hline, ne_eq, not_true_eq_false, if_false, if_true, Bool.true_and,
    Bool.not_true, Bool.false_or, hbad, Bool.not_not]
  exact ⟨_, _, _, _, _, _, rfl, rfl⟩

theorem Dev.gkLine_cap (d : Dev) (p y bits : Nat) (px : List Nat) (damaged : Bool) : (d.gkLine p y bits px damaged).cap = d.cap := by
  unfold Dev.gkLine
  extract_lets y0 row
  split
  · rfl
  · rfl

theorem Dev.leCounted_cap (d : Dev) (p : Nat) (bad : Bool) : (d.leCounted p bad).cap = d.cap := by
  unfold Dev.leCounted
  split
  · exact d.bump_cap _
  · rfl

theorem Dev.leCounted_count (d : Dev) (p : Nat) (bad : Bool) : (d.leCounted p bad).get (F.KSL_ERRCNT_LE_CRC_ERR p) =
    (d.get (F.KSL_ERRCNT_LE_CRC_ERR p) + if bad = true then 1 else 0) % 65536 := by
  unfold Dev.leCounted
  split
  · exact d.get_bump_same _ (Fld.ok_of_ble rfl)
  · exact (Nat.mod_eq_of_lt (d.get_lt _)).symm

theorem Dev.lineTaken_front (d : Dev) (p n : Nat) (l : OpenLine) (bad damaged : Bool) (black px : List Nat) :
    (d.lineTaken p n l bad damaged black px).front = ((d.lineClosed n).leCounted p bad).front := by
  unfold Dev.lineTaken
  extract_lets d1
  have h1 : d1.front = ((d.lineClosed n).leCounted p bad).front := Dev.modCtx_front _ n (fun _ => rfl)
  exact ite_front ((d1.gkLine_front _ _ _ px damaged).trans h1) h1

theorem Dev.lineTaken_frames (d : Dev) (p n : Nat) (l : OpenLine) (bad damaged : Bool) (black px : List Nat) :
    ((d.lineTaken p n l bad damaged black px).ctx n).frames = (d.ctx n).frames := by
  unfold Dev.lineTaken
  extract_lets d1
  have hmoved : (d1.ctx n).frames = (((d.lineClosed n).leCounted p bad).ctx n).frames := Dev.frames_modCtx _ n n (fun _ => rfl)
  have h1 : (d1.ctx n).frames = (d.ctx n).frames := by
    rw [hmoved, Dev.ctx_congr (Dev.leCounted_cap _ p bad), Dev.lineClosed_frames]
  split
  · rw [Dev.ctx_congr (d1.gkLine_cap _ _ _ px damaged), h1]
  · exact h1

theorem Dev.lineClosed_line (d : Dev) {n : Nat} (hn : n < d.cap.length) : ((d.lineClosed n).ctx n).line = none := by
  rw [Dev.lineClosed, Dev.ctx_modCtx d _ hn]

theorem Dev.frame?_front {d e : Dev} (h : e.front = d.front) (n fseq : Nat) :
    (e.frame? n fseq).map CapFrame.front = (d.frame? n fseq).map CapFrame.front := by
  have hfind : ∀ x : Dev, (x.frame? n fseq).map CapFrame.front =
      ((x.ctx n).frames.map CapFrame.front).find? (fun f => f.fseq == fseq) := fun x => by
    rw [List.find?_map]
    rfl
  rw [hfind, hfind, Dev.front_frames h]

theorem Dev.lineDelivered_front (d : Dev) (n fseq ro short long damaged : Nat) (ln : Line) :
    (d.lineDelivered n fseq ro short long damaged ln).front =
      (d.modFrame n fseq (fun f => f.withLine ro short long damaged ln)).front :=
  (Dev.rowsMoved_front _ n fseq).trans (Dev.mergeReady_front 66 _ n fseq)

/-- The readout that a line joins: it has one more, and that is the last. -/
theorem CapFrame.withLine_ros {f : CapFrame} {ro : Nat} (h : ro < f.ros.length) (short long damaged : Nat) (ln : Line) :
    ((f.withLine ro short long damaged ln).ros.getD ro {}).lines = (f.ros.getD ro {}).lines ++ [ln] :=
  congrArg Readout.lines (elemAt_modifyAt (fun r : Readout => { r with lines := r.lines ++ [ln] }) {} h)

/-- What a delivered line leaves (R95, R133). -/
theorem Dev.lineDelivered_shows (d : Dev) {p n : Nat} {f : CapFrame} {l : OpenLine} (hf : d.frame? n f.fseq = some f) (hp : p < 8)
    (hro : l.ro < f.ros.length) (bad damaged : Bool) (black px : List Nat) (short long count : Nat) (ln : Line) {e : Dev}
    (he : e = (d.lineTaken p n l bad damaged black px).lineDelivered n f.fseq l.ro short long count ln) :
    (e.ctx n).line = none ∧
      e.get (F.KSL_ERRCNT_LE_CRC_ERR p) = (d.get (F.KSL_ERRCNT_LE_CRC_ERR p) + if bad = true then 1 else 0) % 65536 ∧
      (e.frame? n f.fseq).map (fun g => (g.ros.getD l.ro {}).lines) = some ((f.ros.getD l.ro {}).lines ++ [ln]) := by
  subst he
  have hfront := (d.lineTaken p n l bad damaged black px).lineDelivered_front n f.fseq l.ro short long count ln
  have htaken := d.lineTaken_front p n l bad damaged black px
  have hn := Dev.lt_cap_of_frame? hf
  have hf' : (d.lineTaken p n l bad damaged black px).frame? n f.fseq = some f :=
    (Dev.frame?_congr (d.lineTaken_frames p n l bad damaged black px) _).trans hf
  refine ⟨?_, ?_, ?_⟩
  · rw [Dev.front_line hfront, Dev.ctx_modFrame _ _ _ (Dev.lt_cap_of_frame? hf')]
    exact (Dev.front_line htaken n).trans ((congrArg CapCtx.line (Dev.ctx_congr (Dev.leCounted_cap _ p bad) n)).trans
      (d.lineClosed_line hn))
  · have hword : ∀ x y : Dev, x.front = y.front → x.get (F.KSL_ERRCNT_LE_CRC_ERR p) = y.get (F.KSL_ERRCNT_LE_CRC_ERR p) := fun x y h =>
      Dev.get_of_word _ (Dev.front_word h (by simp only [F.KSL_ERRCNT_LE_CRC_ERR, R.KSL_ERRCNT]; omega)
        (by simp only [F.KSL_ERRCNT_LE_CRC_ERR, R.KSL_ERRCNT]; omega))
    rw [hword _ _ hfront]
    exact (hword _ _ htaken).trans ((d.lineClosed n).leCounted_count p bad)
  · have hlines := congrArg (Option.map (fun x : FrontFrame => (x.ros.getD l.ro {}).lines)) (Dev.frame?_front hfront n f.fseq)
    have hjoined := Dev.frame?_modFrame (g := fun f => f.withLine l.ro short long count ln) hf' (fun _ => rfl)
    rw [Option.map_map, Option.map_map, hjoined] at hlines
    exact hlines.trans (congrArg some (CapFrame.withLine_ros hro short long count ln))

/-- LINE_END of the open line. -/
theorem lineEnd_completes {s : State} {p : Fin 8} {blk data : List Byte} {n : Nat} {f : CapFrame} {l : OpenLine}
    (hr : s.dev.receives p = true) (hty : blkByte blk 0 = 0x4B) (hcrc : blkCrcOk blk = true) (hrx : (s.dev.port p).rx = some n)
    (hopen : s.dev.openFrame n = some f) (hf : s.dev.frame? n f.fseq = some f) (hline : (s.dev.ctx n).line = some l)
    (hro : l.ro < f.ros.length) (lost : Bool) : Completes (.lineEnd p blk data lost) s (fun d => (d.ctx n).line = none ∧
      d.get (F.KSL_ERRCNT_LE_CRC_ERR p) =
        (s.dev.get (F.KSL_ERRCNT_LE_CRC_ERR p) + (if blkBE blk 2 4 ≠ crc32c data then 1 else 0)) % 65536 ∧
      (d.frame? n f.fseq).map (fun g => (g.ros.getD l.ro {}).lines.length) = some ((f.ros.getD l.ro {}).lines.length + 1) ∧
      (d.frame? n f.fseq).map (fun g => (g.ros.getD l.ro {}).lines.getLast?.map (·.damaged)) =
        some (some (decide (blkBE blk 2 4 ≠ crc32c data ∨ lost = true)))) := by
  have hbad : (blkBE blk 2 4 == crc32c data) = !decide (blkBE blk 2 4 ≠ crc32c data) := by
    rw [beq_eq_decide, decide_not, Bool.not_not]
  obtain ⟨black, px, short, long, count, ln, hexec, hdamaged⟩ := execLineEnd_taken hr hty hcrc hrx hopen hline hbad lost
  refine ⟨_, hexec, rfl, ?_⟩
  obtain ⟨hclosed, hcount, hlines⟩ := s.dev.lineDelivered_shows hf p.isLt hro (decide (blkBE blk 2 4 ≠ crc32c data)) _ black px short long
    count ln rfl
  refine ⟨hclosed, by simpa only [decide_eq_true_eq] using hcount, ?_, ?_⟩
  · have hlen := congrArg (Option.map List.length) hlines
    rw [Option.map_map] at hlen
    exact hlen.trans (congrArg some List.length_append)
  · have hlast := congrArg (Option.map (fun ls : List Line => ls.getLast?.map (·.damaged))) hlines
    rw [Option.map_map, Option.map_some, List.getLast?_concat, Option.map_some, hdamaged] at hlast
    refine hlast.trans ?_
    simp

end Sys2Proof.Machine
end

section
/-!
Frames that close and slots that no frame comes for (R129, R135).
-/
namespace Sys2Proof.Machine

/-! ### A closed frame stays closed -/

/-- Context `n` has no open frame `fseq`. -/
def Dev.FrameShut (d : Dev) (n fseq : Nat) : Prop := ∀ g ∈ (d.ctx n).frames, g.fseq = fseq → g.closed = true

theorem Dev.FrameShut.of_front {d e : Dev} {n fseq : Nat} (hd : d.FrameShut n fseq) (h : e.front = d.front) : e.FrameShut n fseq := by
  intro g hg hfseq
  have hmem : g.front ∈ (d.ctx n).frames.map CapFrame.front := Dev.front_frames h n ▸ List.mem_map_of_mem hg
  obtain ⟨g', hg', heq⟩ := List.mem_map.mp hmem
  have hclosed := hd g' hg' ((congrArg FrontFrame.fseq heq).trans hfseq)
  exact (congrArg FrontFrame.closed heq).symm.trans hclosed

theorem Dev.FrameShut.of_cap {d e : Dev} {n fseq : Nat} (hd : d.FrameShut n fseq) (h : e.cap = d.cap) : e.FrameShut n fseq := by
  unfold Dev.FrameShut
  rw [Dev.ctx_congr h]
  exact hd

theorem Dev.frameShut_of_none {d : Dev} {n fseq : Nat} (h : d.frame? n fseq = none) : d.FrameShut n fseq := by
  intro g hg hfseq
  have hne := List.find?_eq_none.mp h g hg
  exact absurd (beq_iff_eq.mpr hfseq) hne

/-- A change that closes the frame. -/
theorem Dev.frameShut_modFrame (d : Dev) {n fseq : Nat} {g : CapFrame → CapFrame} (hclosed : ∀ f, (g f).closed = true)
    (hn : n < d.cap.length) : (d.modFrame n fseq g).FrameShut n fseq := by
  intro x hx hxf
  rw [Dev.ctx_modFrame d fseq g hn] at hx
  obtain ⟨f, -, rfl⟩ := List.mem_map.mp hx
  split at hxf
  · next h => rw [if_pos h, hclosed]
  · next h => exact absurd hxf h

theorem Dev.FrameShut.dropEnded {d : Dev} {n fseq : Nat} (hd : d.FrameShut n fseq) : (d.dropEnded n).FrameShut n fseq := by
  intro g hg hfseq
  by_cases hn : n < d.cap.length
  · rw [Dev.dropEnded, Dev.ctx_modCtx d _ hn] at hg
    exact hd g (List.mem_of_mem_filter hg) hfseq
  · rw [Dev.dropEnded, Dev.ctx, Dev.modCtx_cap, modifyAt, List.modify_eq_self (Nat.le_of_not_lt hn)] at hg
    exact hd g hg hfseq

/-! ### Exposure sets that a close sends leave the contexts as they are (R149) -/

theorem Dev.expSent_cap (d : Dev) (n : Nat) : (d.expSent n).cap = d.cap := by
  unfold Dev.expSent
  extract_lets l
  split
  · rw [Dev.set_cap]
  · rfl

theorem Dev.bcPump_cap (fuel : Nat) (d : Dev) (p : Nat) : (Dev.bcPump fuel d p).cap = d.cap := by
  induction fuel generalizing d with
  | zero => rfl
  | succ fuel ih =>
    unfold Dev.bcPump
    split
    · extract_lets d1 d2
      have h2 : d2.cap = d1.cap := by
        unfold d2
        split
        · exact d1.expSent_cap _
        · rfl
      exact (ih d2).trans h2
    · rfl

theorem Dev.bcSend_cap (d : Dev) (p cmd : Nat) (payload : List Byte) (ctx : Option Nat) (host : Bool) :
    (d.bcSend p cmd payload ctx host).cap = d.cap := by
  unfold Dev.bcSend
  extract_lets f d1
  split
  · exact (Dev.bcPump_cap _ d1 p).trans (d.modPort_cap p _)
  · exact d.modPort_cap p _

theorem Dev.expSend_cap (d : Dev) (n : Nat) : (d.expSend n).cap = d.cap := by
  unfold Dev.expSend
  extract_lets p out
  split
  · split
    · rfl
    · exact d.bcSend_cap _ _ _ _ _
  · rfl

/-! ### The close (R135) -/

theorem Dev.FrameShut.ite {c : Prop} [Decidable c] {a b : Dev} {n fseq : Nat} (ha : a.FrameShut n fseq) (hb : b.FrameShut n fseq) :
    (if c then a else b).FrameShut n fseq := by
  split
  · exact ha
  · exact hb

theorem Dev.FrameShut.limited {d : Dev} {n fseq : Nat} (hd : d.FrameShut n fseq) (code event severity : Nat) (items : Dev → List Item) :
    (d.limited n code (fun d => d.eventCtx event severity n n (items d))).FrameShut n fseq :=
  hd.of_front (d.limited_eventCtx_front n code event severity items)

theorem Dev.closeFrame_shut (d : Dev) (n fseq : Nat) : (d.closeFrame n fseq).FrameShut n fseq := by
  unfold Dev.closeFrame
  extract_lets h d1 d2
  split
  · next hnone => exact Dev.frameShut_of_none hnone
  · next f hf =>
    extract_lets d3 d4
    split
    · next hnone => exact Dev.frameShut_of_none hnone
    · next f' hf' =>
      have hlen : n < d3.cap.length := lt_of_lt_of_eq (Dev.lt_cap_of_frame? hf') (List.length_modify ..)
      have h4 : d4.FrameShut n fseq := d3.frameShut_modFrame (fun _ => rfl) hlen
      extract_lets rec_ resid dropped
      split
      next w height _ =>
      extract_lets d5 d6 d7 d8 d9 d10 d11 p d12
      have h5 : d5.FrameShut n fseq := by
        unfold d5
        split
        · exact h4.of_front ((Dev.poolWrite_front _ _ _ _).trans (d4.poolWrite_front _ _ _))
        · have hdropped : dropped.FrameShut n fseq :=
            (h4.of_front (d4.recordAlone_front n fseq rec_)).of_cap (Dev.bump_cap _ _)
          exact hdropped.limited _ _ _ _
      have h6 : d6.FrameShut n fseq := ((h5.of_cap (Dev.set_cap _ _ _)).of_cap (Dev.set_cap _ _ _)).of_cap (Dev.set_cap _ _ _)
      have h7 : d7.FrameShut n fseq := Dev.FrameShut.ite (h6.limited _ _ _ _) h6
      have h8 : d8.FrameShut n fseq := Dev.FrameShut.ite h7 (h7.of_cap (Dev.bump_cap _ _))
      have h9 : d9.FrameShut n fseq := Dev.FrameShut.ite h8 (h8.limited _ _ _ _)
      have h10 : d10.FrameShut n fseq := h9.of_front (d9.tileRowsReady_front n fseq)
      have h11 : d11.FrameShut n fseq := Dev.FrameShut.ite (h10.of_front (d10.recClose_front _ _ _ _ _ _)) h10
      have h12 : d12.FrameShut n fseq := Dev.FrameShut.ite (h11.of_cap (foldl_keeps (p := Dev.cap) Dev.expSend_cap _ d11)) h11
      exact h12.dropEnded

/-! ### FRAME_END -/

/-- The FE of readout `ro` has come. -/
def CapFrame.withFe (f : CapFrame) (ro : Nat) : CapFrame := { f with ros := modifyAt f.ros ro (fun r => { r with fe := true }) }

section
variable {s : State} {p : Fin 8} {blk : List Byte} {n : Nat} {f : CapFrame} (hr : s.dev.receives p = true)
  (hty : blkByte blk 0 = 0x55) (hcrc : blkCrcOk blk = true) (hrx : (s.dev.port p).rx = some n) (hopen : s.dev.openFrame n = some f)
  (hf : s.dev.frame? n f.fseq = some f) (hro : blkByte blk 1 / 8 % 4 < f.ros.length)

include hr hty hcrc hrx hopen hf hro

/-- A frame that waits for other readouts stays open. -/
theorem execFrameEnd_partial (hfe : (f.withFe (blkByte blk 1 / 8 % 4)).ros.all (·.fe) = false) : execFrameEnd p blk s = .next { s with
    dev := s.dev.modFrame n f.fseq (fun f => f.withFe (blkByte blk 1 / 8 % 4)) } := by
  have hf' := Dev.frame?_modFrame (g := fun f => f.withFe (blkByte blk 1 / 8 % 4)) hf (fun _ => rfl)
  simp only [CapFrame.withFe] at hf' hfe ⊢
  simp only [execFrameEnd, State.run_received hr, Dev.packet_wellFormed hty hcrc, hrx, hopen, Nat.not_le.mpr hro, if_false, hf', hfe,
    Bool.false_eq_true]

/-- The FE of the last readout closes the frame (R135). -/
theorem execFrameEnd_last (hfe : (f.withFe (blkByte blk 1 / 8 % 4)).ros.all (·.fe) = true) :
    ∃ d : Dev, execFrameEnd p blk s = .next { s with dev := d } ∧ d.FrameShut n f.fseq := by
  have hf' := Dev.frame?_modFrame (g := fun f => f.withFe (blkByte blk 1 / 8 % 4)) hf (fun _ => rfl)
  simp only [CapFrame.withFe] at hf' hfe
  simp only [execFrameEnd, State.run_received hr, Dev.packet_wellFormed hty hcrc, hrx, hopen, Nat.not_le.mpr hro, if_false, hf', hfe,
    if_true]
  exact ⟨_, rfl, (Dev.closeFrame_shut _ n f.fseq).of_front (Dev.rowsMoved_front _ n f.fseq)⟩

end

/-! ### Slots (R127-R129) -/

theorem Dev.resolve_fseq (d : Dev) (n : Nat) : (d.resolve n).get (F.CAP_FSEQ_FSEQ n) = (d.get (F.CAP_FSEQ_FSEQ n) + 1) % 2 ^ 32 := by
  have hapart : (F.CAP_FSEQ_FSEQ n).apart (F.CAP_SID_SID n) := .inl (by
    simp only [F.CAP_FSEQ_FSEQ, F.CAP_SID_SID, R.CAP_FSEQ, R.CAP_SID]
    omega)
  unfold Dev.resolve
  rw [Dev.get_set_apart _ _ _ _ (Fld.ok_of_ble rfl) hapart, Dev.get_bump_same _ _ (Fld.ok_of_ble rfl)]
  rfl

theorem Dev.resolve_word (d : Dev) {n a : Nat} (hfseq : a ≠ R.CAP_FSEQ n) (hsid : a ≠ R.CAP_SID n) :
    (d.resolve n).word a = d.word a := by
  unfold Dev.resolve Dev.bump
  rw [Dev.word_set_ne _ _ _ hsid, Dev.word_set_ne _ _ _ hfseq]
  rfl

theorem Dev.resolve_cap (d : Dev) (n : Nat) : (d.resolve n).cap = modifyAt d.cap n (fun c => { c with slots := c.slots.drop 1 }) := by
  rw [Dev.resolve, Dev.set_cap, Dev.bump_cap, Dev.modCtx_cap]

theorem Dev.resolve_link (d : Dev) (n : Nat) : (d.resolve n).link = d.link := by
  rw [Dev.resolve, Dev.set_link, Dev.bump_link]
  rfl

theorem Dev.resolve_ctx (d : Dev) {n : Nat} (hn : n < d.cap.length) :
    (d.resolve n).ctx n = { d.ctx n with slots := (d.ctx n).slots.drop 1 } := by
  rw [Dev.ctx, Dev.resolve_cap]
  exact elemAt_modifyAt _ {} hn

theorem Dev.closeOpen_none {d : Dev} {n : Nat} (h : d.openFrame n = none) : d.closeOpen n = d := by
  simp only [Dev.closeOpen, h]

theorem sliceBytes_middle (a b c : List Byte) : sliceBytes (a ++ (b ++ c)) a.length b.length = b := by
  simp [sliceBytes]

/-- The flags of a record are the four bytes at its place 8 (R136). -/
theorem leAt_recordBytes_flags (fseq sid ctx port flags sfn trig fs : Nat) (ts : List Byte)
    (ros w h padded cut short long damaged defer raw : Nat) :
    leAt (recordBytes fseq sid ctx port flags sfn trig fs ts ros w h padded cut short long damaged defer raw) 8 4 = flags % 256 ^ 4 := by
  have hsplit : ∃ rest, recordBytes fseq sid ctx port flags sfn trig fs ts ros w h padded cut short long damaged defer raw =
      (bytesLE 4 fseq ++ bytesLE 2 sid ++ bytesLE 1 ctx ++ bytesLE 1 port) ++ (bytesLE 4 flags ++ rest) := by
    unfold recordBytes
    extract_lets sat b
    generalize bytesLE 4 (crc32c b) = crc
    unfold b
    clear_value sat
    simp only [List.append_assoc]
    exact ⟨_, rfl⟩
  obtain ⟨rest, hrest⟩ := hsplit
  have hslice := sliceBytes_middle (bytesLE 4 fseq ++ bytesLE 2 sid ++ bytesLE 1 ctx ++ bytesLE 1 port) (bytesLE 4 flags) rest
  simp only [List.length_append, length_bytesLE] at hslice
  rw [leAt, hrest, hslice, leNat_bytesLE]

/-- The oldest slot of context `n` is counted missing, with the flags of its record (R129). -/
def Dev.missed (d : Dev) (n flags : Nat) : Dev :=
  ((d.resolve n).bump (F.CAP_CNT0_MISSING n)).set (F.CAP_LAST_FLAGS_FLAGS n) flags

theorem Dev.slotMissing_front {d : Dev} {n : Nat} {sl : Slot} {rest : List Slot} (hslots : (d.ctx n).slots = sl :: rest)
    (hopen : d.openFrame n = none) : ∃ flags, flags % 2 = 1 ∧ (d.slotMissing n).front = (d.missed n flags).front := by
  unfold Dev.slotMissing
  split
  · next hnil => rw [hnil] at hslots; cases hslots
  · next sl' rest' _ =>
    extract_lets d1 dead d2 fseq sid rec_ d3 d4 d5 d6
    have h3 : d3 = d.missed n (leAt rec_ 8 4) := by
      unfold d3 d2 d1
      rw [Dev.closeOpen_none hopen]
      rfl
    have h4 : d4.front = d3.front := d3.limited_eventCtx_front n _ _ _ _
    have h5 : d5.front = d4.front := (Dev.statsHeader_front _ n _ _ _ _).trans (d4.recordAlone_front n fseq rec_)
    have h6 : d6.front = d5.front := (Dev.recSlot_front _ n _ _ _ _).trans (d5.slotSeen_front n _ _ _ _ _)
    have h36 : d6.front = (d.missed n (leAt rec_ 8 4)).front := h3 ▸ h6.trans (h5.trans h4)
    refine ⟨leAt rec_ 8 4, ?_, ite_front ((d6.recClose_front n fseq rec_ 0 [] false).trans h36) h36⟩
    unfold rec_
    rw [leAt_recordBytes_flags]
    split <;> split <;> omega

/-- What a missing slot shows (R129). -/
theorem Dev.missed_shows (d : Dev) {n flags : Nat} (hflags : flags % 2 = 1) (hn : n < d.cap.length) :
    ((d.missed n flags).ctx n).slots = (d.ctx n).slots.drop 1 ∧
      (d.missed n flags).get (F.CAP_FSEQ_FSEQ n) = (d.get (F.CAP_FSEQ_FSEQ n) + 1) % 2 ^ 32 ∧
      (d.missed n flags).get (F.CAP_CNT0_MISSING n) = (d.get (F.CAP_CNT0_MISSING n) + 1) % 65536 ∧
      (d.missed n flags).get (F.CAP_LAST_FLAGS_FLAGS n) % 2 = 1 := by
  have hcap : (d.missed n flags).cap = (d.resolve n).cap := by rw [Dev.missed, Dev.set_cap, Dev.bump_cap]
  have hfseq : (F.CAP_FSEQ_FSEQ n).addr ≠ (F.CAP_CNT0_MISSING n).addr ∧ (F.CAP_FSEQ_FSEQ n).addr ≠ (F.CAP_LAST_FLAGS_FLAGS n).addr ∧
      (F.CAP_CNT0_MISSING n).addr ≠ (F.CAP_LAST_FLAGS_FLAGS n).addr ∧ (F.CAP_CNT0_MISSING n).addr ≠ R.CAP_SID n := by
    simp only [F.CAP_FSEQ_FSEQ, F.CAP_CNT0_MISSING, F.CAP_LAST_FLAGS_FLAGS, R.CAP_FSEQ, R.CAP_CNT0, R.CAP_LAST_FLAGS, R.CAP_SID]
    omega
  obtain ⟨hmissing, hlast, hcount, hsid⟩ := hfseq
  refine ⟨?_, ?_, ?_, ?_⟩
  · rw [Dev.ctx_congr hcap, d.resolve_ctx hn]
  · rw [← d.resolve_fseq, Dev.missed, Dev.get_set_apart _ _ _ _ (Fld.ok_of_ble rfl) (.inl hlast), Dev.bump,
      Dev.get_set_apart _ _ _ _ (Fld.ok_of_ble rfl) (.inl hmissing)]
  · rw [Dev.missed, Dev.get_set_apart _ _ _ _ (Fld.ok_of_ble rfl) (.inl hcount), Dev.get_bump_same _ _ (Fld.ok_of_ble rfl),
      Dev.get_of_word _ (d.resolve_word hmissing.symm hsid)]
    rfl
  · rw [Dev.missed, Dev.get_set_same _ _ _ (Fld.ok_of_ble rfl)]
    simp only [F.CAP_LAST_FLAGS_FLAGS]
    omega

theorem execSlotDeadline_stopped {s : State} {n : Fin 16} (h : s.dev.ctxRuns n = false) : execSlotDeadline n s = .next s := by
  simp only [execSlotDeadline, State.run, h, Bool.false_eq_true, if_false]

theorem execSlotDeadline_runs {s : State} {n : Fin 16} (h : s.dev.ctxRuns n = true) :
    execSlotDeadline n s = .next { s with dev := s.dev.slotMissing n } := by
  simp only [execSlotDeadline, State.run, h, if_true]

theorem Dev.slotMissing_empty {d : Dev} {n : Nat} (h : (d.ctx n).slots = []) : d.slotMissing n = d := by
  simp only [Dev.slotMissing, h]

/-- SLOT_DEADLINE of a context without an open frame (R129). -/
theorem slotDeadline_completes {s : State} {n : Fin 16} {sl : Slot} {rest : List Slot} (hruns : s.dev.ctxRuns n = true)
    (hslots : (s.dev.ctx n).slots = sl :: rest) (hopen : s.dev.openFrame n = none) : Completes (.slotDeadline n) s (fun d =>
      (d.ctx n).slots = rest ∧ d.get (F.CAP_FSEQ_FSEQ n) = (s.dev.get (F.CAP_FSEQ_FSEQ n) + 1) % 2 ^ 32 ∧
        d.get (F.CAP_CNT0_MISSING n) = (s.dev.get (F.CAP_CNT0_MISSING n) + 1) % 65536 ∧
        d.get (F.CAP_LAST_FLAGS_FLAGS n) % 2 = 1) := by
  have hn : n.val < s.dev.cap.length := Dev.lt_cap_of_ne (fun he => by rw [he] at hslots; cases hslots)
  obtain ⟨flags, hodd, hfront⟩ := Dev.slotMissing_front hslots hopen
  obtain ⟨hs, hfseq, hmissing, hflags⟩ := s.dev.missed_shows hodd hn
  have hget : ∀ f : Fld, 0x201000 ≤ f.addr → f.addr < 0x209000 → (s.dev.slotMissing n).get f = (s.dev.missed n flags).get f :=
    fun f hlo hhi => Dev.get_of_word f (Dev.front_word hfront (by omega) (by omega))
  refine ⟨_, execSlotDeadline_runs hruns, rfl, ?_, ?_, ?_, ?_⟩
  · exact (Dev.front_slots hfront n).trans (hs.trans (congrArg (List.drop 1) hslots))
  · rw [hget, hfseq]
    all_goals simp only [F.CAP_FSEQ_FSEQ, R.CAP_FSEQ]; omega
  · rw [hget, hmissing]
    all_goals simp only [F.CAP_CNT0_MISSING, R.CAP_CNT0]; omega
  · rw [hget, hflags]
    all_goals simp only [F.CAP_LAST_FLAGS_FLAGS, R.CAP_LAST_FLAGS]; omega

end Sys2Proof.Machine
end

section
/-!
An FS opens a frame or is excess (R127, R128, R130, R143).
-/
namespace Sys2Proof.Machine

/-! ### The frame that an FS opened -/

/-- On port `p` the frame of FSEQ `fseq`, SFN `sfn` and target `trig` is open in context `n`, which waits in no other slot. -/
structure Dev.Opened (d : Dev) (n p fseq sfn trig : Nat) : Prop where
  count : d.get (F.CAP_FSEQ_FSEQ n) = fseq
  waits : (d.ctx n).slots = []
  port : (d.port p).rx = some n
  frame : ∃ g ∈ (d.ctx n).frames, g.fseq = fseq ∧ g.sfn = sfn ∧ g.trig = trig ∧ g.closed = false

section
variable {d e : Dev} {n p fseq sfn trig : Nat}

theorem Dev.Opened.of_front (hd : d.Opened n p fseq sfn trig) (h : e.front = d.front) (hn : n < 16) : e.Opened n p fseq sfn trig := by
  obtain ⟨hfseq, hslots, hrx, g, hg, hgf, hgs, hgt, hgc⟩ := hd
  have hword : e.get (F.CAP_FSEQ_FSEQ n) = d.get (F.CAP_FSEQ_FSEQ n) := Dev.get_of_word _
    (Dev.front_word h (by simp only [F.CAP_FSEQ_FSEQ, R.CAP_FSEQ]; omega) (by simp only [F.CAP_FSEQ_FSEQ, R.CAP_FSEQ]; omega))
  have hmem : g.front ∈ (e.ctx n).frames.map CapFrame.front := (Dev.front_frames h n).symm ▸ List.mem_map_of_mem hg
  obtain ⟨g', hg', heq⟩ := List.mem_map.mp hmem
  exact ⟨hword.trans hfseq, (Dev.front_slots h n).trans hslots, (congrArg LinkPort.rx (Dev.front_port h p)).trans hrx, g', hg',
    (congrArg FrontFrame.fseq heq).trans hgf, (congrArg FrontFrame.sfn heq).trans hgs, (congrArg FrontFrame.trig heq).trans hgt,
    (congrArg FrontFrame.closed heq).trans hgc⟩

/-- Another register than FSEQ may be written. -/
theorem Dev.Opened.set (hd : d.Opened n p fseq sfn trig) {f : Fld} (v : Nat) (hf : R.CAP_FSEQ n ≠ f.addr) :
    (d.set f v).Opened n p fseq sfn trig := by
  obtain ⟨hfseq, hslots, hrx, hframe⟩ := hd
  have hctx := Dev.ctx_congr (d.set_cap f v) n
  refine ⟨?_, by rw [hctx, hslots], by rw [Dev.port_congr (d.set_link f v), hrx], by rw [hctx]; exact hframe⟩
  rw [Dev.get_of_word _ (d.word_set_ne f v hf), hfseq]

theorem Dev.Opened.dropEnded (hd : d.Opened n p fseq sfn trig) : (d.dropEnded n).Opened n p fseq sfn trig := by
  obtain ⟨hfseq, hslots, hrx, g, hg, hgf, hgs, hgt, hgc⟩ := hd
  have hn : n < d.cap.length := Dev.lt_cap_of_ne (fun he => by rw [he] at hg; cases hg)
  have hctx : (d.dropEnded n).ctx n = { d.ctx n with frames := (d.ctx n).frames.filter (fun f => !(f.closed && 3 ≤ f.dev)) } :=
    Dev.ctx_modCtx d _ hn
  refine ⟨hfseq, by rw [hctx, hslots], hrx, g, ?_, hgf, hgs, hgt, hgc⟩
  rw [hctx]
  exact List.mem_filter.mpr ⟨hg, by rw [hgc]; rfl⟩

/-! ### Its wheel group (R143) -/

theorem Dev.Opened.showWheel (hd : d.Opened n p fseq sfn trig) {g : Nat} (hg : g < 8) : (d.showWheel g).Opened n p fseq sfn trig := by
  have hstatus : R.CAP_FSEQ n ≠ R.CAP_WG_STATUS g := by simp only [R.CAP_FSEQ, R.CAP_WG_STATUS]; omega
  have hlist : R.CAP_FSEQ n ≠ R.CAP_WG_RES_LIST g := by simp only [R.CAP_FSEQ, R.CAP_WG_RES_LIST]; omega
  unfold Dev.showWheel
  extract_lets w d1 d2 d3 list
  have h1 : d1.Opened n p fseq sfn trig := (hd.set _ hstatus).set _ hstatus
  have h2 : d2.Opened n p fseq sfn trig := by
    unfold d2
    split
    · exact (h1.set _ hstatus).set _ hstatus
    · exact (h1.set _ hstatus).set _ hstatus
  exact ((h2.set _ hstatus).set _ hlist).set _ hstatus

theorem Dev.Opened.devSkip (hd : d.Opened n p fseq sfn trig) (hn : n < 16) (g : Nat) (f : CapFrame) :
    (d.devSkip n g f).Opened n p fseq sfn trig := by
  have hcnt : R.CAP_FSEQ n ≠ R.CAP_CNT1 n := by simp only [R.CAP_FSEQ, R.CAP_CNT1]; omega
  unfold Dev.devSkip
  extract_lets us d1 d2 d3 d4 d5
  have h1 : d1.Opened n p fseq sfn trig := hd.of_front (d.modFrame_front n f.fseq (fun _ => rfl)) hn
  have h2 : d2.Opened n p fseq sfn trig := h1.of_front (d1.slotBufs_front n f.fseq []) hn
  have h3 : d3.Opened n p fseq sfn trig := h2.set _ hcnt
  have h4 : d4.Opened n p fseq sfn trig := h3.of_front (d3.limited_eventCtx_front n _ _ _ _) hn
  have h5 : d5.Opened n p fseq sfn trig := h4.of_front ((Dev.rawModify_front _ n f.fseq _).trans (d4.statsHeader_front n _ _ _ _)) hn
  exact h5.dropEnded

theorem Dev.modWheel_front (d : Dev) (g : Nat) (f : WheelSt → WheelSt) : (d.modWheel g f).front = d.front := rfl

theorem Dev.Opened.wheelArrive (hd : d.Opened n p fseq sfn trig) (hn : n < 16) {g : Nat} (hg : g < 8) (k : Nat) :
    (d.wheelArrive n g k).Opened n p fseq sfn trig := by
  unfold Dev.wheelArrive
  extract_lets d1
  have h1 : d1.Opened n p fseq sfn trig := hd.of_front (d.modFrame_front n k (fun _ => rfl)) hn
  split
  · exact (hd.of_front (d.modWheel_front g _) hn).showWheel hg
  · split
    · exact hd.showWheel hg
    · split
      · next f _ =>
        split
        · exact (h1.devSkip hn g f).showWheel hg
        · exact h1.showWheel hg
      · exact h1

end

/-! ### The accepted FS -/

theorem Dev.rawEnter_front (d : Dev) (n fseq len tiles : Nat) (wheel : Bool) : (d.rawEnter n fseq len tiles wheel).1.front = d.front := by
  unfold Dev.rawEnter
  extract_lets off
  refine ite_fst_front rfl ?_
  split
  · rfl
  · exact (Dev.rawModify_front _ n fseq _).trans (d.rawTake_front off len n fseq)

theorem Dev.wheelOf_lt {d : Dev} {n g : Nat} (h : d.wheelOf n = some g) : g < 8 := by
  unfold Dev.wheelOf at h
  split at h
  · rw [← Option.some.inj h]
    exact Nat.mod_lt _ (by decide)
  · cases h

/-- A frame that enters the pipeline is open. -/
theorem Dev.frameEnters_opened {d : Dev} {n p : Nat} {sl : Slot} {fseq : Nat} (sfn top : Nat) (fsx : Bool) (sid tiles : Nat) (krc : Bool)
    (raw : Option Nat) (blocker : Nat) (hn : n < 16) (hcap : n < d.cap.length) (hp : p < d.link.length)
    (hfseq : d.get (F.CAP_FSEQ_FSEQ n) = fseq) (hslots : (d.ctx n).slots = []) :
    (d.frameEnters n p sfn top fsx sl fseq sid tiles krc raw blocker).Opened n p fseq sfn sl.target := by
  unfold Dev.frameEnters
  extract_lets f d1 d2 d3 d4
  have hctx : d1.ctx n = { d.ctx n with frames := (d.ctx n).frames ++ [f], prev := some (sfn, fseq), line := none } :=
    Dev.ctx_modCtx d _ hcap
  have h0 : (d1.modPort p (fun lp => { lp with rx := some n, fsxDue := fsx })).Opened n p fseq sfn sl.target := by
    refine ⟨hfseq, (congrArg CapCtx.slots hctx).trans hslots, congrArg LinkPort.rx (d1.port_modPort _ hp), f, ?_, rfl, rfl, rfl, rfl⟩
    exact (congrArg CapCtx.frames hctx).symm ▸ List.mem_append_right _ List.mem_cons_self
  have h2 : d2.Opened n p fseq sfn sl.target := h0.of_front (Dev.gkFrameStart_front _ _ fseq) hn
  have h3 : d3.Opened n p fseq sfn sl.target := h2.of_front (ite_front (d2.krcExpect_front n fseq tiles) rfl) hn
  have h4 : d4.Opened n p fseq sfn sl.target :=
    h3.of_front ((Dev.recSlot_front _ n _ _ _ _).trans (d3.slotSeen_front n _ _ _ _ _)) hn
  split
  · exact h4.of_front (d4.devStart_front n fseq true) hn
  · next g hg => exact h4.wheelArrive hn (Dev.wheelOf_lt hg) fseq

/-- An accepted FS takes its slot and its place in the RAW ring, and its frame enters the pipeline. -/
theorem Dev.acceptFrame_enters {d : Dev} {n : Nat} (hopen : d.openFrame n = none) (p sfn top : Nat) (fsx : Bool) (sl : Slot) :
    ∃ (e : Dev) (sid tiles : Nat) (krc : Bool) (raw : Option Nat) (blocker : Nat), e.front = (d.resolve n).front ∧
      d.acceptFrame n p sfn top fsx sl =
        e.frameEnters n p sfn top fsx sl ((d.resolve n).get (F.CAP_FSEQ_FSEQ n)) sid tiles krc raw blocker := by
  unfold Dev.acceptFrame
  rw [Dev.closeOpen_none hopen]
  generalize d.resolve n = d1
  refine ⟨_, _, _, _, _, _, ?_, rfl⟩
  exact (Dev.rawEnter_front _ n _ _ _ _).trans (d1.latch_front _)

theorem Dev.acceptFrame_opened {d : Dev} {n p : Nat} {sl : Slot} (sfn top : Nat) (fsx : Bool) (hn : n < 16) (hcap : n < d.cap.length)
    (hp : p < d.link.length) (hslots : (d.ctx n).slots = [sl]) (hopen : d.openFrame n = none) :
    (d.acceptFrame n p sfn top fsx sl).Opened n p ((d.get (F.CAP_FSEQ_FSEQ n) + 1) % 2 ^ 32) sfn sl.target := by
  obtain ⟨e, sid, tiles, krc, raw, blocker, hfront, haccept⟩ := Dev.acceptFrame_enters hopen p sfn top fsx sl
  have hlen : e.cap.length = d.cap.length := by
    have hlist := congrArg (fun x : Front => x.cap.length) hfront
    simpa only [Dev.front, List.length_map, d.resolve_cap n, modifyAt, List.length_modify] using hlist
  have hcount : e.get (F.CAP_FSEQ_FSEQ n) = (d.resolve n).get (F.CAP_FSEQ_FSEQ n) := Dev.get_of_word _
    (Dev.front_word hfront (by simp only [F.CAP_FSEQ_FSEQ, R.CAP_FSEQ]; omega) (by simp only [F.CAP_FSEQ_FSEQ, R.CAP_FSEQ]; omega))
  have hwaits : (e.ctx n).slots = [] := by
    rw [Dev.front_slots hfront, d.resolve_ctx hcap, hslots]
    rfl
  have hlink : e.link = d.link := (Dev.front_link hfront).trans (d.resolve_link n)
  rw [haccept, ← d.resolve_fseq]
  exact Dev.frameEnters_opened sfn top fsx sid tiles krc raw blocker hn (hlen.symm ▸ hcap) (hlink.symm ▸ hp) hcount hwaits

/-! ### FRAME_START -/

/-- A context whose oldest slot accepts an FS has no slot past its deadline. -/
theorem Dev.expireSlots_accepting {d : Dev} {n : Nat} {sl : Slot} (hslots : (d.ctx n).slots = [sl]) (haccepts : d.slotAccepts n sl = true)
    (fuel : Nat) : Dev.expireSlots fuel d n = d := by
  simp only [Dev.slotAccepts, Bool.and_eq_true, decide_eq_true_eq] at haccepts
  obtain ⟨-, hdead⟩ := haccepts
  cases fuel with
  | zero => rfl
  | succ fuel => simp only [Dev.expireSlots, hslots, Nat.not_lt.mpr hdead, if_false]

theorem Dev.expireSlots_empty {d : Dev} {n : Nat} (hslots : (d.ctx n).slots = []) (fuel : Nat) : Dev.expireSlots fuel d n = d := by
  cases fuel with
  | zero => rfl
  | succ fuel => simp only [Dev.expireSlots, hslots]

theorem Dev.ctxRuns_of_staying {d : Dev} {n : Nat} (hstarted : (d.ctx n).started = true) (hstay : d.leavingSensing = false) :
    d.ctxRuns n = true := by
  simp only [Dev.ctxRuns, hstarted, hstay, Bool.not_false, Bool.true_or, Bool.and_self]

section
variable {s : State} {p : Fin 8} {blk : List Byte} {n : Nat} (hr : s.dev.receives p = true) (hty : blkByte blk 0 = 0x33)
  (hcrc : blkCrcOk blk = true) (hctx : s.dev.ctxOfPort (s.dev.bondHead p) = [n])

include hr hty hcrc hctx

theorem execFrameStart_accepted {sl : Slot} (hslots : (s.dev.ctx n).slots = [sl]) (haccepts : s.dev.slotAccepts n sl = true)
    (hstay : s.dev.leavingSensing = false) : execFrameStart p blk s = .next { s with
      dev := s.dev.acceptFrame n p (blkBE blk 2 4) (blkByte blk 1 / 8 % 4) (bitOf (blkByte blk 1) 5) sl } := by
  obtain ⟨-, -, -, hstarted⟩ := Dev.mem_ctxOfPort.mp (hctx ▸ List.mem_cons_self : n ∈ s.dev.ctxOfPort (s.dev.bondHead p))
  have hruns := Dev.ctxRuns_of_staying hstarted hstay
  simp only [execFrameStart, State.run_received hr, Dev.packet_wellFormed hty hcrc, hctx, List.filter_cons, hruns, if_true, List.filter_nil,
    List.foldl_cons, List.foldl_nil, Dev.expireSlots_accepting hslots haccepts, hslots, haccepts, hstay, Bool.false_eq_true, if_false]

theorem execFrameStart_excess (hslots : (s.dev.ctx n).slots = []) (hruns : s.dev.ctxRuns n = true) :
    execFrameStart p blk s = .next { s with dev := s.dev.excess n p (blkBE blk 2 4) } := by
  simp only [execFrameStart, State.run_received hr, Dev.packet_wellFormed hty hcrc, hctx, List.filter_cons, hruns, if_true, List.filter_nil,
    List.foldl_cons, List.foldl_nil, Dev.expireSlots_empty hslots, hslots]

/-- An FS within the slot opens a frame of the next FSEQ (R127, R128). -/
theorem frameStart_opens {sl : Slot} (hslots : (s.dev.ctx n).slots = [sl]) (haccepts : s.dev.slotAccepts n sl = true)
    (hstay : s.dev.leavingSensing = false) (hopen : s.dev.openFrame n = none) (hlen : s.dev.link.length = 8) :
    Completes (.frameStart p blk) s (fun d =>
      d.Opened n p ((s.dev.get (F.CAP_FSEQ_FSEQ n) + 1) % 2 ^ 32) (blkBE blk 2 4) sl.target) := by
  obtain ⟨hn, -, -, hstarted⟩ := Dev.mem_ctxOfPort.mp (hctx ▸ List.mem_cons_self : n ∈ s.dev.ctxOfPort (s.dev.bondHead p))
  exact ⟨_, execFrameStart_accepted hr hty hcrc hctx hslots haccepts hstay, rfl,
    Dev.acceptFrame_opened _ _ _ hn (Dev.lt_cap_of_started hstarted) (lt_of_lt_of_eq p.isLt hlen.symm) hslots hopen⟩

end

/-- A limited event marks its second in the context and reports at most. -/
theorem Dev.limited_reports (d : Dev) (n code : Nat) {f : Dev → Dev} (hf : ∀ d : Dev, d.Reports (f d)) :
    ∃ mark : Sparse Nat → Sparse Nat, (d.modCtx n (fun c => { c with evSec := mark c.evSec })).Reports (d.limited n code f) := by
  unfold Dev.limited
  extract_lets last
  split
  · refine ⟨id, ?_⟩
    have hsame : d.modCtx n (fun c => { c with evSec := id c.evSec }) = d := by
      rw [Dev.modCtx, modifyAt]
      exact congrArg (fun l => ({ d with cap := l } : Dev)) (List.modify_id n d.cap)
    rw [hsame]
    exact Dev.Touches.refl d _
  · exact ⟨fun sec => Sparse.put (fun _ => 0) sec code (d.elapsed + 1), hf _⟩

/-- Port `p` receives no frame, the event's second is marked in context `n`, and an FS with no slot open is counted there. -/
def Dev.excessMarked (d : Dev) (n p : Nat) (mark : Sparse Nat → Sparse Nat) : Dev :=
  ({ d with link := modifyAt d.link p (fun lp => { lp with rx := none, fsxDue := false })
            cap := modifyAt d.cap n (fun c => { c with evSec := mark c.evSec }) } : Dev).bump (F.CAP_CNT0_EXCESS n)

theorem Dev.excess_reports (d : Dev) (n p sfn : Nat) : ∃ mark : Sparse Nat → Sparse Nat,
    (d.excessMarked n p mark).Reports (d.excess n p sfn) := by
  unfold Dev.excess
  extract_lets counted
  obtain ⟨mark, hrep⟩ := counted.limited_reports n 0x0802 (fun d => d.eventCtx_reports 0x0802 sevNotice n n [u32 sfn, u64 d.stime])
  refine ⟨mark, ?_⟩
  have hmarked : d.excessMarked n p mark = counted.modCtx n (fun c => { c with evSec := mark c.evSec }) := by
    unfold counted Dev.excessMarked Dev.modPort Dev.modCtx Dev.bump Dev.set Dev.setWord Dev.get Dev.word
    rfl
  rw [hmarked]
  exact hrep

theorem Dev.excessMarked_count (d : Dev) (n p : Nat) (mark : Sparse Nat → Sparse Nat) :
    (d.excessMarked n p mark).get (F.CAP_CNT0_EXCESS n) = (d.get (F.CAP_CNT0_EXCESS n) + 1) % 65536 :=
  Dev.get_bump_same _ _ (Fld.ok_of_ble rfl)

theorem Dev.excessMarked_ctx (d : Dev) {n : Nat} (p : Nat) (mark : Sparse Nat → Sparse Nat) (hn : n < d.cap.length) :
    (d.excessMarked n p mark).ctx n = { d.ctx n with evSec := mark (d.ctx n).evSec } := by
  rw [Dev.ctx, Dev.excessMarked, Dev.bump_cap]
  exact elemAt_modifyAt _ {} hn

theorem Dev.excessMarked_port (d : Dev) (n p : Nat) (mark : Sparse Nat → Sparse Nat) : ((d.excessMarked n p mark).port p).rx = none := by
  rw [Dev.port, Dev.excessMarked, Dev.bump_link]
  by_cases hp : p < d.link.length
  · exact congrArg LinkPort.rx (elemAt_modifyAt _ {} hp)
  · rw [modifyAt, List.modify_eq_self (Nat.le_of_not_lt hp), elemAt, List.getD_eq_default _ _ (Nat.le_of_not_lt hp)]

theorem Dev.excessMarked_only (d : Dev) (n p : Nat) (mark : Sparse Nat → Sparse Nat) :
    ({ d with link := (d.excessMarked n p mark).link, cap := (d.excessMarked n p mark).cap } : Dev).Only (d.excessMarked n p mark)
      [F.CAP_CNT0_EXCESS n] := by
  rw [Dev.excessMarked, Dev.bump_link, Dev.bump_cap]
  exact (Dev.Only.refl _ _).set _ List.mem_cons_self (Fld.ok_of_ble rfl)

/-- What an FS with no slot open shows (R130). -/
theorem Dev.excess_shows (d : Dev) {n p : Nat} (sfn : Nat) (hn : n < 16) (hcap : n < d.cap.length) {e : Dev} (he : e = d.excess n p sfn) :
    e.get (F.CAP_CNT0_EXCESS n) = (d.get (F.CAP_CNT0_EXCESS n) + 1) % 65536 ∧ (e.port p).rx = none ∧
      e.ctx n = { d.ctx n with evSec := (e.ctx n).evSec } ∧
      ({ d with link := e.link, cap := e.cap } : Dev).Within e [F.CAP_CNT0_EXCESS n] := by
  obtain ⟨mark, hrep⟩ : ∃ mark, (d.excessMarked n p mark).Reports e := he ▸ d.excess_reports n p sfn
  clear he
  have hreg : (F.CAP_CNT0_EXCESS n).addr ∉ reportRegs :=
    not_mem_reportRegs (by simp only [F.CAP_CNT0_EXCESS, R.CAP_CNT0]; omega) (by simp only [F.CAP_CNT0_EXCESS, R.CAP_CNT0]; omega)
  have hctx := (Dev.ctx_congr hrep.cap n).trans (d.excessMarked_ctx p mark hcap)
  refine ⟨(hrep.get _ hreg).trans (d.excessMarked_count n p mark), ?_, by rw [hctx], _, ?_, hrep⟩
  · rw [Dev.port_congr hrep.link]
    exact d.excessMarked_port n p mark
  · rw [hrep.link, hrep.cap]
    exact d.excessMarked_only n p mark

/-- An FS outside every slot of its context is excess (R130). -/
theorem frameStart_excess {s : State} {p : Fin 8} {blk : List Byte} {n : Nat} (hr : s.dev.receives p = true) (hty : blkByte blk 0 = 0x33)
    (hcrc : blkCrcOk blk = true) (hctx : s.dev.ctxOfPort (s.dev.bondHead p) = [n]) (hslots : (s.dev.ctx n).slots = [])
    (hruns : s.dev.ctxRuns n = true) : Completes (.frameStart p blk) s (fun d =>
      d.get (F.CAP_CNT0_EXCESS n) = (s.dev.get (F.CAP_CNT0_EXCESS n) + 1) % 65536 ∧ (d.port p).rx = none ∧
        d.ctx n = { s.dev.ctx n with evSec := (d.ctx n).evSec } ∧
        ({ s.dev with link := d.link, cap := d.cap } : Dev).Within d [F.CAP_CNT0_EXCESS n]) := by
  obtain ⟨hn, -, -, hstarted⟩ := Dev.mem_ctxOfPort.mp (hctx ▸ List.mem_cons_self : n ∈ s.dev.ctxOfPort (s.dev.bondHead p))
  exact ⟨_, execFrameStart_excess hr hty hcrc hctx hslots hruns, rfl,
    s.dev.excess_shows (blkBE blk 2 4) hn (Dev.lt_cap_of_started hstarted) rfl⟩

/-! ### The obligation -/

/-- Settles O53, by what each packet does in the case named; what the frames' later ways change is behind the front end. -/
theorem framesAndLines : Obligations.FramesAndLines := by
  unfold Obligations.FramesAndLines
  refine ⟨fun s p blk data lost hr => ?_, fun s p blk hr hcrc => ?_, fun s p blk n hr hty hcrc hctx => ⟨?_, ?_⟩,
    fun s p blk n f hr hcrc hrx hopen hf => ⟨?_, ?_, ?_, ?_⟩, fun s n => ⟨?_, ?_, ?_⟩⟩
  · obtain ⟨hfs, hfsx, hls, hle, hfe⟩ := streamPackets_unreceived hr blk data lost
    exact ⟨⟨_, hfs, rfl, rfl⟩, ⟨_, hfsx, rfl, rfl⟩, ⟨_, hls, rfl, rfl⟩, ⟨_, hle, rfl, rfl⟩, ⟨_, hfe, rfl, rfl⟩⟩
  · obtain ⟨ffs, hfs⟩ := execFrameStart_packet hr blk
    obtain ⟨ffsx, hfsx⟩ := execFsx_packet hr blk
    obtain ⟨fls, hls⟩ := execLineStart_packet hr blk
    obtain ⟨ffe, hfe⟩ := execFrameEnd_packet hr blk
    exact ⟨fun hty => ⟨_, hfs, rfl, Dev.packet_damaged hty hcrc s.dev p ffs⟩,
      fun hty => ⟨_, hfsx, rfl, Dev.packet_damaged hty hcrc s.dev p ffsx⟩,
      fun hty => ⟨_, hls, rfl, Dev.packet_damaged hty hcrc s.dev p fls⟩,
      fun hty => ⟨_, hfe, rfl, Dev.packet_damaged hty hcrc s.dev p ffe⟩⟩
  · intro sl hslots haccepts hstay hopen hlen
    obtain ⟨t, hstep, hrest, hcount, hwaits, hport, g, hg, hgf, hgs, hgt, hgc⟩ :=
      frameStart_opens hr hty hcrc hctx hslots haccepts hstay hopen hlen
    exact ⟨t, hstep, hrest, hcount, hwaits, hport, g, hg, hgf.trans hcount.symm, hgs, hgt, hgc⟩
  · exact frameStart_excess hr hty hcrc hctx
  · intro hty hdue
    refine ⟨_, execFsx_taken hr hty hcrc hdue hrx hopen, rfl, rfl, ?_⟩
    exact Dev.frame?_modFrame (d := s.dev.modPort p (fun lp => { lp with fsxDue := false })) hf (fun _ => rfl)
  · intro hty hro
    have hn := Dev.lt_cap_of_frame? hf
    have hf' : (s.dev.lineClosed n).frame? n f.fseq = some f := (s.dev.lineClosed_frame? n f.fseq).trans hf
    refine ⟨fun hy hnext hdepth => ?_, fun hcut => ?_⟩
    · refine ⟨_, execLineStart_inOrder hr hty hcrc hrx hopen hro hf hy hnext hdepth, rfl, rfl, ?_⟩
      exact s.dev.lineOpened_ctx hn _
    · refine ⟨_, execLineStart_cut hr hty hcrc hrx hopen hro hcut, rfl, rfl, ?_, ?_⟩
      · exact (congrArg CapCtx.line ((s.dev.lineClosed n).ctx_modFrame f.fseq _ (Dev.lt_cap_of_frame? hf'))).trans (s.dev.lineClosed_line hn)
      · exact Dev.frame?_modFrame hf' (fun _ => rfl)
  · exact fun l data lost hty hline hro => lineEnd_completes hr hty hcrc hrx hopen hf hline hro lost
  · intro hty hro
    refine ⟨fun hfe => ?_, fun hfe => ?_⟩
    · exact ⟨_, execFrameEnd_partial hr hty hcrc hrx hopen hf hro hfe, rfl, rfl, Dev.frame?_modFrame hf (fun _ => rfl)⟩
    · obtain ⟨d, hstep, hshut⟩ := execFrameEnd_last hr hty hcrc hrx hopen hf hro hfe
      exact ⟨_, hstep, rfl, hshut⟩
  · exact fun hstop => ⟨_, execSlotDeadline_stopped hstop, rfl, rfl⟩
  · intro hempty
    by_cases hruns : s.dev.ctxRuns n = true
    · exact ⟨_, execSlotDeadline_runs hruns, rfl, Dev.slotMissing_empty hempty⟩
    · exact ⟨_, execSlotDeadline_stopped (Bool.not_eq_true _ ▸ hruns), rfl, rfl⟩
  · exact fun sl rest hruns hslots hopen => slotDeadline_completes hruns hslots hopen

end Sys2Proof.Machine
end

section
/-!
What the development of a frame leaves as it is behind the capture front end: the wheel groups, the entries of RAW_RING and the
state of the service ports (R142-R144, R154, R177, R180-R182, R213-R224).
-/
namespace Sys2Proof.Machine

/-! ### The view -/

/-- The wheel groups, the entries of RAW_RING and the service state, which no step of a development changes. -/
def Dev.groups (d : Dev) : List WheelSt × List RawEntry × SrvSt := (d.wheels, d.rawEntries, d.srv)

/-- The groups together with what the front end shows. -/
def Dev.still (d : Dev) : Front × List WheelSt × List RawEntry × SrvSt := (d.front, d.groups)

theorem Dev.wheel_congr {d e : Dev} (h : e.wheels = d.wheels) (g : Nat) : e.wheel g = d.wheel g := by
  rw [Dev.wheel, Dev.wheel, h]

theorem Dev.groups_wheels {d e : Dev} (h : e.groups = d.groups) : e.wheels = d.wheels := congrArg (·.1) h
theorem Dev.groups_rawEntries {d e : Dev} (h : e.groups = d.groups) : e.rawEntries = d.rawEntries := congrArg (·.2.1) h
theorem Dev.groups_srv {d e : Dev} (h : e.groups = d.groups) : e.srv = d.srv := congrArg (·.2.2) h

theorem Dev.still_of {d e : Dev} (hf : e.front = d.front) (hg : e.groups = d.groups) : e.still = d.still := by
  rw [Dev.still, Dev.still, hf, hg]

theorem Dev.still_front {d e : Dev} (h : e.still = d.still) : e.front = d.front := congrArg (·.1) h
theorem Dev.still_groups {d e : Dev} (h : e.still = d.still) : e.groups = d.groups := congrArg (·.2) h

/-! ### Choices and loops -/

section
variable {α β γ : Type} {p : Dev → β} {v : β} {c : Prop} [Decidable c]

theorem ite_keeps {a b : Dev} (ha : p a = v) (hb : p b = v) : p (if c then a else b) = v := by
  split
  · exact ha
  · exact hb

theorem ite_fst_keeps {a b : Dev × α} (ha : p a.1 = v) (hb : p b.1 = v) : p (if c then a else b).1 = v := by
  split
  · exact ha
  · exact hb

theorem keeps_of_fst_eq {x : Dev × α} {d : Dev} {a : α} (h : x = (d, a)) (hp : p x.1 = v) : p d = v := by
  rw [h] at hp
  exact hp

/-- A loop that carries the block beside something else. -/
theorem foldl_fst_keeps {f : Dev × γ → α → Dev × γ} (hf : ∀ a x, p (f a x).1 = p a.1) (l : List α) (a : Dev × γ) :
    p (l.foldl f a).1 = p a.1 := by
  induction l generalizing a with
  | nil => rfl
  | cons x l ih => exact (ih _).trans (hf a x)

end

/-! ### Reports and memory -/

theorem Dev.Touches.groups {d e : Dev} {rs : List Nat} (h : d.Touches rs e) : e.groups = d.groups := by
  rw [Dev.groups, h.wheels, h.rawEntries, h.srv]
  rfl

theorem Dev.Touches.still {d e : Dev} {rs : List Nat} (h : d.Touches rs e) (hrs : ∀ a ∈ rs, behindFront a) : e.still = d.still :=
  Dev.still_of (h.front hrs) h.groups

theorem Dev.set_groups (d : Dev) (f : Fld) (v : Nat) : (d.set f v).groups = d.groups := rfl

theorem Dev.bump_groups (d : Dev) (f : Fld) : (d.bump f).groups = d.groups := rfl

theorem Dev.setEff_groups (d : Dev) (a : Nat) (w : Word) : (d.setEff a w).groups = d.groups := rfl

theorem Dev.set_still (d : Dev) {f : Fld} (v : Nat) (h : behindFront f.addr) : (d.set f v).still = d.still :=
  Dev.still_of (d.set_front v h) rfl

theorem Dev.eventCtx_groups (d : Dev) (code severity inst ctx : Nat) (items : List Item) :
    (d.eventCtx code severity inst ctx items).groups = d.groups := (d.eventCtx_reports code severity inst ctx items).groups

theorem Dev.eventAt_groups (d : Dev) (code severity inst : Nat) (items : List Item) :
    (d.eventAt code severity inst items).groups = d.groups := (d.eventAt_reports code severity inst items).groups

theorem Dev.eventAt_still (d : Dev) (code severity inst : Nat) (items : List Item) :
    (d.eventAt code severity inst items).still = d.still :=
  Dev.still_of (d.eventAt_front code severity inst items) (d.eventAt_groups code severity inst items)

theorem Dev.poolWrite_groups (d : Dev) (n o : Nat) (bs : List Byte) : (d.poolWrite n o bs).groups = d.groups :=
  (d.poolWrite_touches n o bs).groups

theorem Dev.poolWrite_still (d : Dev) (n o : Nat) (bs : List Byte) : (d.poolWrite n o bs).still = d.still :=
  Dev.still_of (d.poolWrite_front n o bs) (d.poolWrite_groups n o bs)

theorem Dev.modCtx_groups (d : Dev) (n : Nat) (f : CapCtx → CapCtx) : (d.modCtx n f).groups = d.groups := rfl

theorem Dev.modCtx_still (d : Dev) (n : Nat) {f : CapCtx → CapCtx} (h : ∀ c, (f c).front = c.front) : (d.modCtx n f).still = d.still :=
  Dev.still_of (d.modCtx_front n h) rfl

theorem Dev.limited_groups (d : Dev) (n code : Nat) {f : Dev → Dev} (hf : ∀ d, (f d).groups = d.groups) :
    (d.limited n code f).groups = d.groups := by
  unfold Dev.limited
  exact ite_keeps (p := Dev.groups) rfl ((hf _).trans (d.modCtx_groups n _))

theorem Dev.limited_eventCtx_still (d : Dev) (n code event severity : Nat) (items : Dev → List Item) :
    (d.limited n code (fun d => d.eventCtx event severity n n (items d))).still = d.still :=
  Dev.still_of (d.limited_eventCtx_front n code event severity items) (d.limited_groups n code (fun d => d.eventCtx_groups _ _ _ _ _))

theorem Dev.statsHeader_groups (d : Dev) (n fseq sid state done : Nat) : (d.statsHeader n fseq sid state done).groups = d.groups :=
  ite_keeps (p := Dev.groups) rfl (d.poolWrite_groups _ _ _)

theorem Dev.statsHeader_still (d : Dev) (n fseq sid state done : Nat) : (d.statsHeader n fseq sid state done).still = d.still :=
  Dev.still_of (d.statsHeader_front n fseq sid state done) (d.statsHeader_groups n fseq sid state done)

/-! ### Branches -/

theorem Dev.writeLines_groups (d : Dev) (n b i : Nat) (f : CapFrame) (p : Rgb) (a z : Nat) :
    (d.writeLines n b i f p a z).groups = d.groups :=
  foldl_keeps (p := Dev.groups) (fun d _ => foldl_keeps (p := Dev.groups) (fun d _ => d.poolWrite_groups _ _ _) _ d) _ d

theorem Dev.devPut_groups (d : Dev) (off len v : Nat) : (d.devPut off len v).groups = d.groups := d.poolWrite_groups _ _ _

theorem Dev.advanceBranches_groups (d : Dev) (n fseq : Nat) (rows : List Row) : (d.advanceBranches n fseq rows).groups = d.groups := by
  unfold Dev.advanceBranches
  split
  · rfl
  · extract_lets todo pics
    refine ite_keeps (p := Dev.groups) rfl (foldl_keeps (p := Dev.groups) (fun d t => ?_) _ d)
    split
    next b i z =>
    extract_lets pic d1 d2 base d3
    have h2 : d2.groups = d.groups := d.writeLines_groups n b i _ pic _ z
    have h3 : d3.groups = d.groups := (d2.devPut_groups _ _ _).trans h2
    refine ite_keeps (p := Dev.groups) ?_ h3
    exact (Dev.set_groups _ _ _).trans ((Dev.devPut_groups _ _ _ _).trans ((d3.devPut_groups _ _ _).trans h3))

theorem Dev.advanceBranches_still (d : Dev) (n fseq : Nat) (rows : List Row) : (d.advanceBranches n fseq rows).still = d.still :=
  Dev.still_of (d.advanceBranches_front n fseq rows) (d.advanceBranches_groups n fseq rows)

/-! ### Development start -/

theorem Dev.dmapFull_groups (d : Dev) (p : Nat) : (d.dmapFull p).groups = d.groups :=
  ite_keeps (p := Dev.groups) rfl (Dev.eventAt_groups _ _ _ _ _)

theorem Dev.dmapFull_still (d : Dev) (p : Nat) : (d.dmapFull p).still = d.still :=
  Dev.still_of (d.dmapFull_front p) (d.dmapFull_groups p)

theorem Dev.applyEdit_groups (d : Dev) (p : Nat) (e : DefectEdit) : (d.applyEdit p e).groups = d.groups := by
  unfold Dev.applyEdit
  extract_lets m
  split
  · exact ite_keeps (p := Dev.groups) rfl (ite_keeps (p := Dev.groups) rfl rfl)
  · exact ite_keeps (p := Dev.groups) rfl (ite_keeps (p := Dev.groups) (d.dmapFull_groups p) rfl)

theorem Dev.applyEdits_groups (d : Dev) (p : Nat) : (d.applyEdits p).groups = d.groups := by
  unfold Dev.applyEdits
  extract_lets m q d1 d2 d3
  have h2 : d2.groups = d1.groups := foldl_keeps (p := Dev.groups) (fun d e => d.applyEdit_groups p e) _ d1
  have h3 : d3.groups = d2.groups := (Dev.set_groups _ _ _).trans (d2.set_groups _ _)
  exact ite_keeps (p := Dev.groups) rfl ((d3.set_groups _ _).trans (h3.trans h2))

theorem Dev.useColSet_groups (d : Dev) (n sid : Nat) (ws : Sparse Word) : (d.useColSet n sid ws).groups = d.groups := by
  unfold Dev.useColSet
  extract_lets d1 d2
  have h2 : d2.groups = d1.groups := foldl_keeps (p := Dev.groups) (fun d e => d.setEff_groups e.1 e.2) ws d1
  exact (Dev.set_groups _ _ _).trans ((d2.set_groups _ _).trans h2)

theorem Dev.lutSwitch_groups (d : Dev) (n b fseq : Nat) : (d.lutSwitch n b fseq).1.groups = d.groups :=
  ite_fst_keeps (p := Dev.groups) ((Dev.eventCtx_groups _ _ _ _ _ _).trans (d.set_groups _ _)) rfl

theorem Dev.devStart_groups (d : Dev) (n fseq : Nat) (live : Bool) : (d.devStart n fseq live).groups = d.groups := by
  unfold Dev.devStart
  split
  · rfl
  · next f _ =>
    extract_lets p gen d1 sync set? d2 flags
    have h1 : d1.groups = d.groups := ite_keeps (p := Dev.groups) (d.applyEdits_groups p) rfl
    have h2 : d2.groups = d1.groups := by
      unfold d2
      clear_value set?
      split
      · exact d1.useColSet_groups n _ _
      · rfl
    split
    next d3 marks hmarks =>
    have h3 : d3.groups = d2.groups := by
      refine keeps_of_fst_eq (p := Dev.groups) hmarks (foldl_fst_keeps (p := Dev.groups) (fun a b => ?_) _ _)
      refine ite_fst_keeps (p := Dev.groups) ?_ rfl
      split
      next d' m hswitch => exact keeps_of_fst_eq (p := Dev.groups) hswitch (a.1.lutSwitch_groups n b fseq)
    split
    next d4 bufs hbufs =>
    have h4 : d4.groups = d3.groups := by
      refine keeps_of_fst_eq (p := Dev.groups) hbufs (foldl_fst_keeps (p := Dev.groups) (fun a b => ?_) _ _)
      extract_lets d i e m
      refine ite_fst_keeps (p := Dev.groups) (ite_fst_keeps (p := Dev.groups) ?_ rfl) rfl
      have he : e.groups = d.groups := d.bump_groups _
      exact (e.limited_groups n _ (fun d => d.eventCtx_groups _ _ _ _ _)).trans he
    extract_lets lost flags' d5 d6 d7
    have h6 : d6.groups = d4.groups := (d5.modCtx_groups n _).trans (d4.modCtx_groups n _)
    have h7 : d7.groups = d6.groups := by
      unfold d7
      split
      · rfl
      · refine foldl_keeps (p := Dev.groups) (fun d b => ?_) _ d6
        split
        · rfl
        · exact d.poolWrite_groups _ _ _
    exact (d7.statsHeader_groups _ _ _ _ _).trans (h7.trans (h6.trans (h4.trans (h3.trans (h2.trans h1)))))

theorem Dev.devStart_still (d : Dev) (n fseq : Nat) (live : Bool) : (d.devStart n fseq live).still = d.still :=
  Dev.still_of (d.devStart_front n fseq live) (d.devStart_groups n fseq live)

/-! ### The loops that a developed frame feeds (R180-R182, R218) -/

theorem Dev.noiseLoop_still (d : Dev) (n : Nat) (f : CapFrame) (o : DefectOut) : (d.noiseLoop n f o).still = d.still := by
  unfold Dev.noiseLoop
  exact (Dev.set_still _ _ (behindFront_of_le rfl)).trans ((Dev.set_still _ _ (behindFront_of_le rfl)).trans
    ((Dev.set_still _ _ (behindFront_of_le rfl)).trans (d.modCtx_still n (fun _ => rfl))))

theorem Dev.shiftCandidates_still (d : Dev) (n p : Nat) (flags : List (Nat × Nat)) : (d.shiftCandidates n p flags).still = d.still := by
  unfold Dev.shiftCandidates
  extract_lets mBits old shifted
  split
  next cands dropped _ => exact Dev.set_still _ _ (behindFront_of_le rfl)

theorem Dev.queueEdit_still (d : Dev) (p : Nat) (e : DefectEdit) : (d.queueEdit p e).still = d.still :=
  (Dev.set_still _ _ (behindFront_of_le rfl)).trans (Dev.set_still _ _ (behindFront_of_le rfl))

theorem Dev.learn_still (d : Dev) (p : Nat) : (d.learn p).still = d.still := by
  unfold Dev.learn
  refine ite_keeps (p := Dev.still) rfl (foldl_keeps (p := Dev.still) (fun d c => ?_) _ d)
  refine ite_keeps (p := Dev.still) (d.dmapFull_still p) (ite_keeps (p := Dev.still) rfl ?_)
  exact (Dev.eventAt_still _ _ _ _ _).trans (Dev.queueEdit_still _ p _)

theorem Dev.mvMiss_still (d : Dev) (n b code : Nat) (f : CapFrame) : (d.mvMiss n b code f).still = d.still :=
  (Dev.limited_eventCtx_still _ n _ _ _ _).trans (d.set_still _ (behindFront_of_le_add rfl))

theorem Dev.emit_still (d : Dev) (o : Output) : (d.emit o).still = d.still := rfl

theorem Dev.sendMsix_still (d : Dev) (v : Nat) : (d.sendMsix v).still = d.still :=
  (d.sendMsix_touches (rs := []) v).still (fun _ h => absurd h List.not_mem_nil)

theorem Dev.mvPush_still (d : Dev) (n b : Nat) (f : CapFrame) (ap0 : Rgb) (addrs : List Nat) :
    (d.mvPush n b f ap0 addrs).still = d.still := by
  unfold Dev.mvPush
  extract_lets host dev ts put d1 pos compl skipped rec_ d2
  have h1 : d1.still = d.still := foldl_keeps (p := Dev.still) (fun d _ => d.emit_still _) put d
  have h2 : d2.still = d1.still := (Dev.set_still _ _ (behindFront_of_le_add rfl)).trans (d1.emit_still _)
  refine ite_keeps (p := Dev.still) (d.mvMiss_still n b _ f) (ite_keeps (p := Dev.still) (d.mvMiss_still n b _ f) ?_)
  exact (d2.sendMsix_still _).trans (h2.trans h1)

end Sys2Proof.Machine
end

section
/-!
The wheel groups: what they show, the frame that a service takes, and the boundary (R142-R147).
-/
namespace Sys2Proof.Machine

/-! ### What a group shows -/

/-- One more field of a register that is named as a whole may be put. -/
theorem Dev.Only.set_whole {d e : Dev} {fs : List Fld} (h : d.Only e fs) {f : Fld} (v : Nat) (hf : wholeReg f.addr ∈ fs) :
    d.Only (e.set f v) fs := by
  obtain ⟨hsame, heff, hkept⟩ := h
  have hword : e.FieldsKept (e.set f v) fs :=
    Dev.FieldsKept.of_words (rs := [f.addr]) (fun a ha => Dev.word_set_ne e f v (List.ne_of_not_mem_cons ha)) (by simpa using hf)
  exact ⟨congrArg (fun x : Dev => { x with regs := (e.set f v).regs }) hsame, heff, hkept.trans hword⟩

/-- Showing a group puts fields of its two registers. -/
theorem Dev.showWheel_eq (d : Dev) (g : Nat) : ∃ c b p l, d.showWheel g =
    (((((((d.set (F.CAP_WG_STATUS_SLOT g) (d.wheelSlot g d.nowNs)).setFlag (F.CAP_WG_STATUS_BUSY g) (d.wheel g).busy.isSome).set
      (F.CAP_WG_STATUS_CTX g) c).setFlag (F.CAP_WG_STATUS_DEFERRED g) b).set (F.CAP_WG_STATUS_PENDING g) p).set
      (F.CAP_WG_RES_LIST_LIST g) l).set (F.CAP_WG_STATUS_RESIDENT g) 0xE4) := by
  unfold Dev.showWheel
  extract_lets w d1 d2 d3 list
  have h2 : ∃ c b, d2 = (d1.set (F.CAP_WG_STATUS_CTX g) c).setFlag (F.CAP_WG_STATUS_DEFERRED g) b := by
    unfold d2
    split
    · exact ⟨_, _, rfl⟩
    · exact ⟨_, _, rfl⟩
  obtain ⟨c, b, h2⟩ := h2
  refine ⟨c, b, min 15 (d2.pendingOn g).length, list, ?_⟩
  rw [← h2]

theorem Dev.Only.groups {d e : Dev} {fs : List Fld} (h : d.Only e fs) : e.groups = d.groups := by
  rw [h.1]
  rfl

theorem Dev.Only.cap {d e : Dev} {fs : List Fld} (h : d.Only e fs) : e.cap = d.cap := by rw [h.1]

theorem wheelStatus_ne_list (g : Nat) : R.CAP_WG_STATUS g ≠ R.CAP_WG_RES_LIST g := by
  simp only [R.CAP_WG_STATUS, R.CAP_WG_RES_LIST]
  omega

theorem Dev.wheelSlot_lt (d : Dev) (g t : Nat) : d.wheelSlot g t < 16 := by
  unfold Dev.wheelSlot
  dsimp only
  split
  · decide
  · omega

theorem Dev.showWheel_slot (d : Dev) (g : Nat) : (d.showWheel g).get (F.CAP_WG_STATUS_SLOT g) = d.wheelSlot g d.nowNs := by
  have hbit : ∀ f : Fld, Nat.ble 4 f.lo = true → (F.CAP_WG_STATUS_SLOT g).apart f := fun f hf => .inr (.inl (Nat.le_of_ble_eq_true hf))
  obtain ⟨c, b, p, l, h⟩ := d.showWheel_eq g
  rw [h, Dev.get_set_apart _ _ _ _ (Fld.ok_of_ble rfl) (hbit _ rfl),
    Dev.get_set_apart _ _ _ _ (Fld.ok_of_ble rfl) (.inl (wheelStatus_ne_list g)),
    Dev.get_set_apart _ _ _ _ (Fld.ok_of_ble rfl) (hbit _ rfl), Dev.setFlag,
    Dev.get_set_apart _ _ _ _ (Fld.ok_of_ble rfl) (hbit _ rfl), Dev.get_set_apart _ _ _ _ (Fld.ok_of_ble rfl) (hbit _ rfl), Dev.setFlag,
    Dev.get_set_apart _ _ _ _ (Fld.ok_of_ble rfl) (hbit _ rfl), Dev.get_set_same _ _ _ (Fld.ok_of_ble rfl)]
  exact Nat.mod_eq_of_lt (d.wheelSlot_lt g _)

theorem Dev.showWheel_busy (d : Dev) (g : Nat) : (d.showWheel g).flag (F.CAP_WG_STATUS_BUSY g) = (d.wheel g).busy.isSome := by
  have hbit : ∀ f : Fld, Nat.ble 5 f.lo = true → (F.CAP_WG_STATUS_BUSY g).apart f := fun f hf => .inr (.inl (Nat.le_of_ble_eq_true hf))
  obtain ⟨c, b, p, l, h⟩ := d.showWheel_eq g
  rw [h, Dev.flag_set_apart _ _ _ _ (Fld.ok_of_ble rfl) (hbit _ rfl),
    Dev.flag_set_apart _ _ _ _ (Fld.ok_of_ble rfl) (.inl (wheelStatus_ne_list g)),
    Dev.flag_set_apart _ _ _ _ (Fld.ok_of_ble rfl) (hbit _ rfl), Dev.setFlag,
    Dev.flag_set_apart _ _ _ _ (Fld.ok_of_ble rfl) (hbit _ rfl), Dev.flag_set_apart _ _ _ _ (Fld.ok_of_ble rfl) (hbit _ rfl)]
  exact Dev.flag_setFlag_same _ _ _ (Fld.ok_of_ble rfl) rfl

theorem Dev.showWheel_only (d : Dev) (g : Nat) :
    d.Only (d.showWheel g) [wholeReg (R.CAP_WG_STATUS g), F.CAP_WG_RES_LIST_LIST g] := by
  have hs : wholeReg (R.CAP_WG_STATUS g) ∈ [wholeReg (R.CAP_WG_STATUS g), F.CAP_WG_RES_LIST_LIST g] := List.mem_cons_self
  obtain ⟨c, b, p, l, h⟩ := d.showWheel_eq g
  rw [h]
  refine Dev.Only.set_whole (Dev.Only.set ?_ l (List.mem_cons_of_mem _ List.mem_cons_self) (Fld.ok_of_ble rfl)) _ hs
  exact (((((Dev.Only.refl d _).set_whole _ hs).set_whole _ hs).set_whole _ hs).set_whole _ hs).set_whole _ hs

theorem Dev.showWheel_word (d : Dev) {g a : Nat} (hs : a ≠ R.CAP_WG_STATUS g) (hl : a ≠ R.CAP_WG_RES_LIST g) :
    (d.showWheel g).word a = d.word a := by
  obtain ⟨c, b, p, l, h⟩ := d.showWheel_eq g
  rw [h, Dev.word_set_ne _ _ _ hs, Dev.word_set_ne _ _ _ hl, Dev.word_set_ne _ _ _ hs, Dev.setFlag, Dev.word_set_ne _ _ _ hs,
    Dev.word_set_ne _ _ _ hs, Dev.setFlag, Dev.word_set_ne _ _ _ hs, Dev.word_set_ne _ _ _ hs]

theorem Dev.showWheel_groups (d : Dev) (g : Nat) : (d.showWheel g).groups = d.groups := (d.showWheel_only g).groups

theorem Dev.showWheel_cap (d : Dev) (g : Nat) : (d.showWheel g).cap = d.cap := (d.showWheel_only g).cap

/-! ### The groups and the count of deferred frames -/

/-- The groups and the count of a context's deferred frames. -/
def Dev.deferrals (d : Dev) (m : Nat) : List WheelSt × Nat := (d.wheels, d.get (F.CAP_CNT1_DEFERRED m))

theorem Dev.deferrals_wheel {d e : Dev} {m : Nat} (h : e.deferrals m = d.deferrals m) (g : Nat) : e.wheel g = d.wheel g :=
  Dev.wheel_congr (congrArg Prod.fst h) g

theorem Dev.deferrals_count {d e : Dev} {m : Nat} (h : e.deferrals m = d.deferrals m) :
    e.get (F.CAP_CNT1_DEFERRED m) = d.get (F.CAP_CNT1_DEFERRED m) := congrArg Prod.snd h

theorem Dev.deferrals_of_still {d e : Dev} (h : e.still = d.still) {m : Nat} (hm : m < 16) : e.deferrals m = d.deferrals m := by
  have hlo : 0x100000 ≤ R.CAP_CNT1 m := by simp only [R.CAP_CNT1]; omega
  have hhi : R.CAP_CNT1 m < 0x300000 := by simp only [R.CAP_CNT1]; omega
  rw [Dev.deferrals, Dev.deferrals, Dev.groups_wheels (Dev.still_groups h),
    Dev.get_of_word (F.CAP_CNT1_DEFERRED m) (Dev.front_word (Dev.still_front h) hlo hhi)]

theorem Dev.modCtx_deferrals (d : Dev) (n : Nat) (f : CapCtx → CapCtx) (m : Nat) : (d.modCtx n f).deferrals m = d.deferrals m := rfl

theorem Dev.rawModify_deferrals (d : Dev) (n fseq : Nat) (f : RawEntry → RawEntry) (m : Nat) :
    (d.rawModify n fseq f).deferrals m = d.deferrals m := rfl

theorem Dev.set_deferrals (d : Dev) {f : Fld} {m : Nat} (v : Nat) (hf : (F.CAP_CNT1_DEFERRED m).apart f) (hok : f.ok) :
    (d.set f v).deferrals m = d.deferrals m := congrArg (Prod.mk d.wheels) (Dev.get_set_apart d f _ v hok hf)

/-- A skipped frame is counted in another field. -/
theorem Dev.devSkip_deferrals (d : Dev) (n g : Nat) (f : CapFrame) {m : Nat} (hm : m < 16) :
    (d.devSkip n g f).deferrals m = d.deferrals m := by
  unfold Dev.devSkip
  extract_lets us d1 d2 d3 d4 d5
  have h3 : d3.deferrals m = d2.deferrals m := d2.set_deferrals _ (.inr (.inl (Nat.le_refl 16))) (Fld.ok_of_ble rfl)
  have h4 : d4.deferrals m = d3.deferrals m := Dev.deferrals_of_still (d3.limited_eventCtx_still n _ _ _ _) hm
  have h5 : d5.deferrals m = d4.deferrals m :=
    (Dev.rawModify_deferrals _ n _ _ m).trans (Dev.deferrals_of_still (d4.statsHeader_still n _ _ _ _) hm)
  have h2 : d2.deferrals m = d.deferrals m := (d1.modCtx_deferrals n _ m).trans (d.modCtx_deferrals n _ m)
  exact (d5.modCtx_deferrals n _ m).trans (h5.trans (h4.trans (h3.trans h2)))

theorem Dev.windowOver_deferrals (d : Dev) (g m : Nat) : (d.windowOver g).deferrals m = d.deferrals m :=
  foldl_keeps (p := fun d : Dev => d.deferrals m) (fun d n => d.modCtx_deferrals n _ m) (d.wheelCtxs g) d

theorem Dev.windowLost_deferrals (d : Dev) (g : Nat) (closing : Bool) {m : Nat} (hm : m < 16) :
    (d.windowLost g closing).deferrals m = d.deferrals m := by
  unfold Dev.windowLost
  split
  · refine (Dev.windowOver_deferrals _ g m).trans (foldl_keeps (p := fun d : Dev => d.deferrals m) (fun d x => ?_) (d.pendingOn g) d)
    exact ite_keeps (p := fun d : Dev => d.deferrals m) (d.devSkip_deferrals x.1 g x.2 hm) rfl
  · rfl

theorem CAP_CNT1_ne_wheel (g m : Nat) : R.CAP_CNT1 m ≠ R.CAP_WG_STATUS g ∧ R.CAP_CNT1 m ≠ R.CAP_WG_RES_LIST g := by
  simp only [R.CAP_CNT1, R.CAP_WG_STATUS, R.CAP_WG_RES_LIST]
  omega

theorem Dev.showWheel_deferrals (d : Dev) (g m : Nat) : (d.showWheel g).deferrals m = d.deferrals m := by
  obtain ⟨hstatus, hlist⟩ := CAP_CNT1_ne_wheel g m
  rw [Dev.deferrals, Dev.deferrals, Dev.groups_wheels (d.showWheel_groups g),
    Dev.get_of_word (F.CAP_CNT1_DEFERRED m) (d.showWheel_word hstatus hlist)]

/-! ### The one pending frame is served (R143) -/

/-- The group has its frame and development from the RAW ring begins: the context becomes resident and the deferral is counted. -/
def Dev.wheelTaken (d : Dev) (g n : Nat) (f : CapFrame) : Dev :=
  ((d.modWheel g (fun w => { w with busy := some (n, f.fseq), resident := touchResident w.resident n })).modFrame n f.fseq
    (fun x => { x with deferUs := min ((d.nowNs - f.fsNs) / 1000) 65535 })).bump (F.CAP_CNT1_DEFERRED n)

theorem Dev.wheelTaken_count (d : Dev) (g n : Nat) (f : CapFrame) :
    (d.wheelTaken g n f).get (F.CAP_CNT1_DEFERRED n) = (d.get (F.CAP_CNT1_DEFERRED n) + 1) % 65536 := by
  rw [Dev.wheelTaken, Dev.get_bump_same _ _ (Fld.ok_of_ble rfl)]
  rfl

theorem Dev.wheelTaken_wheel {d : Dev} {g : Nat} (n : Nat) (f : CapFrame) (hlen : g < d.wheels.length) : (d.wheelTaken g n f).wheel g =
    { d.wheel g with busy := some (n, f.fseq), resident := touchResident (d.wheel g).resident n } := elemAt_modifyAt _ _ hlen

section
variable {d : Dev} {g n : Nat} {f : CapFrame} {win : Option Nat}

theorem Dev.wheelService_takes (hpend : d.pendingOn g = [(n, f)]) (hidle : (d.wheel g).busy = none) (hraw : f.raw.isSome = true)
    (hslot : bitOf (d.eget (F.CAP_WHEEL_SLOT_MASK n)) (d.wheelSlot g d.nowNs) = true)
    (hlimit : d.nowNs - f.fsNs ≤ d.get (F.CAP_WHEEL_DEFER_LIMIT_US n) * 1000) (hlive : win ≠ some f.fsNs) :
    d.wheelService g win = (((d.wheelTaken g n f).devStart n f.fseq false).windowLost g win.isSome).showWheel g := by
  unfold Dev.wheelService
  simp only [hidle, Option.isSome_none, Bool.false_eq_true, if_false, hpend, List.foldl_cons, List.foldl_nil, hlimit.not_gt, false_and,
    hlive, decide_false, Bool.false_and, Bool.or_false, hslot, hraw, Bool.and_self, List.filter_cons, if_true, List.filter_nil]
  rfl

theorem touchResident_getLast? (l : List Nat) (n : Nat) : (touchResident l n).getLast? = some n := by
  unfold touchResident
  rw [List.getLast?_drop]
  simp

theorem Dev.mem_pendingOn {x : Nat × CapFrame} (h : x ∈ d.pendingOn g) : x.1 < 16 ∧ x.2 ∈ (d.ctx x.1).frames := by
  obtain ⟨m, hm, hx⟩ := List.mem_flatMap.mp h
  obtain ⟨y, hy, rfl⟩ := List.mem_map.mp hx
  exact ⟨List.mem_range.mp (List.mem_filter.mp hm).1, (List.mem_filter.mp hy).1⟩

/-- What a served frame's group shows, with `win` the window that ends. -/
theorem Dev.wheelService_served (hpend : d.pendingOn g = [(n, f)]) (hidle : (d.wheel g).busy = none) (hraw : f.raw.isSome = true)
    (hslot : bitOf (d.eget (F.CAP_WHEEL_SLOT_MASK n)) (d.wheelSlot g d.nowNs) = true)
    (hlimit : d.nowNs - f.fsNs ≤ d.get (F.CAP_WHEEL_DEFER_LIMIT_US n) * 1000) (hlive : win ≠ some f.fsNs)
    (hlen : g < d.wheels.length) : ((d.wheelService g win).wheel g).busy = some (n, f.fseq) ∧
      ((d.wheelService g win).wheel g).resident.getLast? = some n ∧ ((d.wheelService g win).wheel g).window = (d.wheel g).window ∧
      (d.wheelService g win).flag (F.CAP_WG_STATUS_BUSY g) = true ∧
      (d.wheelService g win).get (F.CAP_CNT1_DEFERRED n) = (d.get (F.CAP_CNT1_DEFERRED n) + 1) % 65536 := by
  have hmem : (n, f) ∈ d.pendingOn g := by rw [hpend]; exact List.mem_cons_self
  obtain ⟨hn, -⟩ := Dev.mem_pendingOn hmem
  rw [Dev.wheelService_takes hpend hidle hraw hslot hlimit hlive]
  generalize hl : ((d.wheelTaken g n f).devStart n f.fseq false).windowLost g win.isSome = l
  have hdefer : l.deferrals n = (d.wheelTaken g n f).deferrals n := by
    rw [← hl]
    exact (Dev.windowLost_deferrals _ g _ hn).trans (Dev.deferrals_of_still (Dev.devStart_still _ n _ _) hn)
  have hwheel : l.wheel g = { d.wheel g with busy := some (n, f.fseq), resident := touchResident (d.wheel g).resident n } :=
    (Dev.deferrals_wheel hdefer g).trans (Dev.wheelTaken_wheel n f hlen)
  have hcount : l.get (F.CAP_CNT1_DEFERRED n) = (d.get (F.CAP_CNT1_DEFERRED n) + 1) % 65536 :=
    (Dev.deferrals_count hdefer).trans (d.wheelTaken_count g n f)
  have hshow := l.showWheel_deferrals g n
  rw [Dev.deferrals_wheel hshow, Dev.showWheel_busy, hwheel]
  exact ⟨rfl, touchResident_getLast? _ n, rfl, rfl, (Dev.deferrals_count hshow).trans hcount⟩

end

/-! ### WHEEL_WINDOW_END and WHEEL_SLOT_START -/

section
variable {s : State} {g : Fin 8}

theorem execWheelWindowEnd_closed (h : (s.dev.wheel g).window = none) : execWheelWindowEnd g s = .next s := by
  rw [execWheelWindowEnd, State.run_eq]
  simp only [h]

/-- The group after the end of its window. -/
def Dev.windowClosed (d : Dev) (g : Nat) : Dev := d.modWheel g (fun w => { w with window := none })

theorem execWheelWindowEnd_open {t : Nat} (h : (s.dev.wheel g).window = some t) :
    execWheelWindowEnd g s = .next { s with dev := (s.dev.windowClosed g).wheelService g (some t) } := by
  rw [execWheelWindowEnd, State.run_eq]
  simp only [h]
  rfl

theorem Dev.windowClosed_wheel {d : Dev} {g : Nat} (h : g < d.wheels.length) :
    (d.windowClosed g).wheel g = { d.wheel g with window := none } := elemAt_modifyAt _ _ h

theorem Dev.lt_wheels_of_ne {d : Dev} {g : Nat} (h : d.wheel g ≠ {}) : g < d.wheels.length := lt_length_of_elemAt_ne h

theorem Dev.wheelService_busy {d : Dev} {g : Nat} (h : (d.wheel g).busy.isSome = true) (win : Option Nat) :
    d.wheelService g win = d := if_pos h

theorem execWheelSlotStart_none (h : s.dev.pendingOn g = []) :
    execWheelSlotStart g s = .next { s with dev := s.dev.showWheel g } := by
  rw [execWheelSlotStart, State.run_eq]
  simp only [h, List.isEmpty_nil, Bool.not_true, Bool.and_false, Bool.false_and, Bool.false_eq_true, if_false]

theorem execWheelSlotStart_pending (hpend : s.dev.pendingOn g ≠ []) (hwin : (s.dev.wheel g).window = none)
    (hen : s.dev.flag (F.CAP_WG_CFG_EN g) = true) : execWheelSlotStart g s = .next { s with dev := s.dev.wheelService g none } := by
  rw [execWheelSlotStart, State.run_eq]
  simp [hpend, hwin, hen]

end

/-! ### WHEEL_BOUNDARY (R147) -/

/-- The shadows that were committed are in effect, and the others stay. -/
theorem Dev.effWord_latchAll (d : Dev) (l : List Nat) (a : Nat) :
    (d.latchAll l).effWord a = if a ∈ l then d.word a else d.effWord a := by
  induction l generalizing d with
  | nil => simp [Dev.latchAll]
  | cons x l ih =>
    have hstep : (d.latch x).effWord a = if a = x then d.word a else d.effWord a := by
      simp only [Dev.latch, Dev.setEff, Dev.effWord]
      split
      · next h => rw [h, Sparse.get_put_same]
      · next h => rw [Sparse.get_put_ne _ _ _ h]
    have hrest : (d.latchAll (x :: l)).effWord a = if a ∈ l then d.word a else (d.latch x).effWord a := ih (d.latch x)
    rw [hrest, hstep]
    by_cases hl : a ∈ l <;> by_cases hx : a = x <;> simp [hl, hx]

theorem Dev.latchAll_eq (d : Dev) (l : List Nat) :
    d.latchAll l = { d with regs := { d.regs with eff := (d.latchAll l).regs.eff } } := by
  induction l generalizing d with
  | nil => rfl
  | cons x l ih => exact ih (d.latch x)

theorem CAP_WHEEL_injective : Function.Injective R.CAP_WHEEL := fun m n h => by
  simp only [R.CAP_WHEEL] at h
  omega

/-- The block once the slot masks of group `g` have taken effect. -/
def Dev.masksLatched (d : Dev) (g : Nat) : Dev :=
  d.latchAll (((List.range 16).filter (fun n => d.wheelOf n = some g)).map R.CAP_WHEEL)

theorem execWheelBoundary_eq (s : State) (g : Fin 8) :
    execWheelBoundary g s = .next { s with dev := (s.dev.masksLatched g).showWheel g } := by
  rw [execWheelBoundary, State.run_eq, Dev.masksLatched, Dev.latchAll, List.foldl_map]

theorem Dev.masksLatched_effWord (d : Dev) (g : Nat) {n : Nat} (hn : n < 16) : (d.masksLatched g).effWord (R.CAP_WHEEL n) =
    if d.wheelOf n = some g then d.word (R.CAP_WHEEL n) else d.effWord (R.CAP_WHEEL n) := by
  rw [Dev.masksLatched, Dev.effWord_latchAll]
  congr 1
  rw [List.mem_map_of_injective CAP_WHEEL_injective, List.mem_filter, List.mem_range, decide_eq_true_eq]
  exact propext (and_iff_right hn)

/-- WHEEL_BOUNDARY latches the masks of its own contexts alone. -/
theorem Dev.wheelBoundary_shows (d e : Dev) (g : Nat) (he : e = (d.masksLatched g).showWheel g) :
    (∀ n < 16, e.effWord (R.CAP_WHEEL n) = if d.wheelOf n = some g then d.word (R.CAP_WHEEL n) else d.effWord (R.CAP_WHEEL n)) ∧
    e = { d with regs := e.regs } ∧ e.get (F.CAP_WG_STATUS_SLOT g) = d.wheelSlot g d.nowNs ∧
    d.FieldsKept e [wholeReg (R.CAP_WG_STATUS g), F.CAP_WG_RES_LIST_LIST g] := by
  have hlatch : d.masksLatched g = { d with regs := { d.regs with eff := (d.masksLatched g).regs.eff } } := d.latchAll_eq _
  obtain ⟨hsame, heff, hkept⟩ := (d.masksLatched g).showWheel_only g
  have hslot := (d.masksLatched g).showWheel_slot g
  rw [← he] at hsame heff hkept hslot
  refine ⟨fun n hn => ?_, ?_, ?_, ?_⟩
  · rw [← d.masksLatched_effWord g hn, Dev.effWord, heff, Dev.effWord]
  · rw [hlatch] at hsame
    exact hsame
  · rw [hslot, hlatch]
    rfl
  · rw [hlatch] at hkept
    exact hkept

end Sys2Proof.Machine
end

section
/-!
The end of a frame's development: the frame leaves its context and its wheel group, and the group's next frame is another one
(R143, R144, R154).
-/
namespace Sys2Proof.Machine

/-! ### A frame that has left -/

/-- Context `n` holds no frame, the RAW ring keeps no entry of frame `fseq` for its development, no loan returns, and the group
that `w` names, if any, is not busy with the frame. -/
structure Dev.Gone (d : Dev) (n fseq : Nat) (w : Option Nat) : Prop where
  frames : (d.ctx n).frames = []
  entry : ∀ e ∈ d.rawEntries, e.ctx = n ∧ e.fseq = fseq → e.dev = false
  loans : d.srv.returns = []
  busy : ∀ g, w = some g → (d.wheel g).busy ≠ some (n, fseq)

section
variable {d e : Dev} {n fseq : Nat} {w : Option Nat}

theorem Dev.frames_of_front (h : e.front = d.front) (hd : (d.ctx n).frames = []) : (e.ctx n).frames = [] := by
  have hmap := Dev.front_frames h n
  rwa [hd, List.map_nil, List.map_eq_nil_iff] at hmap

theorem Dev.Gone.of_groups (hd : d.Gone n fseq w) (hframes : (e.ctx n).frames = []) (h : e.groups = d.groups) : e.Gone n fseq w := by
  refine ⟨hframes, ?_, ?_, fun g hg => ?_⟩
  · rw [Dev.groups_rawEntries h]
    exact hd.entry
  · rw [Dev.groups_srv h]
    exact hd.loans
  · rw [Dev.wheel_congr (Dev.groups_wheels h)]
    exact hd.busy g hg

theorem Dev.Gone.of_still (hd : d.Gone n fseq w) (h : e.still = d.still) : e.Gone n fseq w :=
  hd.of_groups (Dev.frames_of_front (Dev.still_front h) hd.frames) (Dev.still_groups h)

theorem Dev.Gone.set (hd : d.Gone n fseq w) (f : Fld) (v : Nat) : (d.set f v).Gone n fseq w :=
  hd.of_groups hd.frames (d.set_groups f v)

/-- A context without frames has none after a change that makes none. -/
theorem Dev.frames_modCtx_nil (m : Nat) {f : CapCtx → CapCtx} (hf : ∀ c : CapCtx, c.frames = [] → (f c).frames = [])
    (hd : (d.ctx n).frames = []) : ((d.modCtx m f).ctx n).frames = [] := by
  by_cases hnm : n = m
  · subst hnm
    by_cases hlen : n < d.cap.length
    · rw [Dev.ctx_modCtx d f hlen]
      exact hf _ hd
    · rw [Dev.ctx, Dev.modCtx_cap, modifyAt, List.modify_eq_self (Nat.le_of_not_lt hlen)]
      exact hd
  · rw [Dev.ctx_modCtx_ne d f hnm]
    exact hd

theorem Dev.Gone.modCtx (hd : d.Gone n fseq w) (m : Nat) {f : CapCtx → CapCtx} (hf : ∀ c : CapCtx, c.frames = [] → (f c).frames = []) :
    (d.modCtx m f).Gone n fseq w := hd.of_groups (Dev.frames_modCtx_nil m hf hd.frames) (d.modCtx_groups m f)

theorem Dev.Gone.modFrame (hd : d.Gone n fseq w) (m k : Nat) (g : CapFrame → CapFrame) : (d.modFrame m k g).Gone n fseq w :=
  hd.modCtx m (fun c hc => by simp only [hc, List.map_nil])

theorem Dev.Gone.dropEnded (hd : d.Gone n fseq w) (m : Nat) : (d.dropEnded m).Gone n fseq w :=
  hd.modCtx m (fun c hc => by simp only [hc, List.filter_nil])

/-- Entries may be let go. -/
theorem Dev.Gone.rawModify (hd : d.Gone n fseq w) (m k : Nat) {f : RawEntry → RawEntry} (hf : ∀ x, (f x).dev = false) :
    (d.rawModify m k f).Gone n fseq w := by
  refine ⟨hd.frames, fun x hx hof => ?_, hd.loans, hd.busy⟩
  obtain ⟨y, hy, rfl⟩ := List.mem_map.mp hx
  by_cases hown : y.ctx = m ∧ y.fseq = k
  · rw [if_pos hown]
    exact hf y
  · rw [if_neg hown] at hof ⊢
    exact hd.entry y hy hof

theorem Dev.Gone.ite {c : Prop} [Decidable c] {a b : Dev} (ha : a.Gone n fseq w) (hb : b.Gone n fseq w) :
    (if c then a else b).Gone n fseq w := by
  split
  · exact ha
  · exact hb

theorem Dev.Gone.foldl {α : Type} {f : Dev → α → Dev} (hf : ∀ d x, Dev.Gone d n fseq w → (f d x).Gone n fseq w) (l : List α)
    (hd : d.Gone n fseq w) : (l.foldl f d).Gone n fseq w := by
  induction l generalizing d with
  | nil => exact hd
  | cons x l ih => exact ih (hf d x hd)

/-- A group takes another context's frame. -/
theorem Dev.Gone.serve (hd : d.Gone n fseq w) (g : Nat) {m : Nat} (hm : m ≠ n) (k : Nat) (l : List Nat → List Nat) :
    (d.modWheel g (fun x => { x with busy := some (m, k), resident := l x.resident })).Gone n fseq w := by
  refine ⟨hd.frames, hd.entry, hd.loans, fun h hh => ?_⟩
  by_cases hg : h = g
  · subst hg
    by_cases hlen : h < d.wheels.length
    · rw [Dev.wheel, Dev.modWheel_wheels, elemAt_modifyAt _ _ hlen]
      simp [hm]
    · rw [Dev.wheel, Dev.modWheel_wheels, modifyAt, List.modify_eq_self (Nat.le_of_not_lt hlen)]
      exact hd.busy h hh
  · rw [Dev.wheel, Dev.modWheel_wheels, elemAt_modifyAt_ne _ _ _ hg]
    exact hd.busy h hh

/-! ### The wheel service leaves it gone (R143, R144, R146) -/

theorem Dev.Gone.devSkip (hd : d.Gone n fseq w) (m g : Nat) (f : CapFrame) : (d.devSkip m g f).Gone n fseq w := by
  unfold Dev.devSkip
  extract_lets us d1 d2 d3 d4 d5
  have h2 : d2.Gone n fseq w := (hd.modFrame m _ _).modCtx m (fun _ hc => hc)
  have h4 : d4.Gone n fseq w := (h2.set _ _).of_still (d3.limited_eventCtx_still m _ _ _ _)
  have h5 : d5.Gone n fseq w := (h4.of_still (d4.statsHeader_still m _ _ _ _)).rawModify m _ (fun _ => rfl)
  exact h5.dropEnded m

theorem Dev.Gone.windowLost (hd : d.Gone n fseq w) (g : Nat) (closing : Bool) : (d.windowLost g closing).Gone n fseq w := by
  unfold Dev.windowLost
  refine Dev.Gone.ite ?_ hd
  refine Dev.Gone.foldl (fun d m h => h.modCtx m (fun c hc => by simp only [hc, List.map_nil])) _ ?_
  exact Dev.Gone.foldl (fun d x h => Dev.Gone.ite (h.devSkip x.1 g x.2) h) _ hd

theorem Dev.Gone.showWheel (hd : d.Gone n fseq w) (g : Nat) : (d.showWheel g).Gone n fseq w :=
  hd.of_groups (by rw [Dev.ctx_congr (d.showWheel_cap g)]; exact hd.frames) (d.showWheel_groups g)

/-- What a loop that picks keeps is one of the list. -/
theorem foldl_pick_mem {α : Type} {f : Option α → α → Option α} (hf : ∀ b x, f b x = b ∨ f b x = some x) {l : List α} {b : Option α}
    {y : α} (h : l.foldl f b = some y) : b = some y ∨ y ∈ l := by
  induction l generalizing b with
  | nil => exact .inl h
  | cons x l ih =>
    rcases ih h with hb | hl
    · rcases hf b x with hfb | hfx
      · exact .inl (hfb ▸ hb)
      · exact .inr (Option.some.inj (hfx ▸ hb) ▸ List.mem_cons_self)
    · exact .inr (List.mem_cons_of_mem x hl)

/-- A pending frame is of another context. -/
theorem Dev.Gone.pending_ne (hd : d.Gone n fseq w) {g : Nat} {x : Nat × CapFrame} (h : x ∈ d.pendingOn g) : x.1 ≠ n := fun hn => by
  obtain ⟨-, hx⟩ := Dev.mem_pendingOn h
  rw [hn, hd.frames] at hx
  exact List.not_mem_nil hx

theorem Dev.Gone.wheelService (hd : d.Gone n fseq w) (g : Nat) (win : Option Nat) : (d.wheelService g win).Gone n fseq w := by
  unfold Dev.wheelService
  extract_lets closing now slot live d1 cand best
  have h1 : d1.Gone n fseq w := Dev.Gone.foldl (fun d x h => Dev.Gone.ite (h.devSkip x.1 g x.2) h) _ hd
  refine Dev.Gone.ite hd ?_
  have hbest : ∀ x, best = some x → x ∈ d1.pendingOn g := fun x hx => by
    have hpick := foldl_pick_mem (fun b x => ?_) hx
    · rcases hpick with hnone | hmem
      · cases hnone
      · exact (List.mem_filter.mp hmem).1
    · cases b with
      | none => exact .inr rfl
      | some q => exact (ite_eq_or_eq _ _ _).symm
  clear_value best
  split
  · exact (h1.windowLost g _).showWheel g
  · next m f =>
    have hm : m ≠ n := h1.pending_ne (hbest (m, f) rfl)
    extract_lets d2 us d3 d4
    have h2 : d2.Gone n fseq w := h1.serve g hm f.fseq (fun l => touchResident l m)
    have h4 : d4.Gone n fseq w := by
      unfold d4
      refine Dev.Gone.ite ((h2.of_still (d2.devStart_still m _ true)).rawModify m _ (fun _ => rfl)) ?_
      exact (((h2.modFrame m _ _).set _ _).of_still (Dev.devStart_still _ m _ false))
    exact (h4.windowLost g _).showWheel g

end

/-! ### The end of a development -/

/-- A closed frame that is alone in its context, once its development has ended. -/
theorem Dev.frames_ended {d : Dev} {n : Nat} {f : CapFrame} (hframes : (d.ctx n).frames.map CapFrame.front = [f.front])
    (hclosed : f.closed = true) : (((d.modFrame n f.fseq (fun f => { f with dev := 3 })).dropEnded n).ctx n).frames = [] := by
  obtain ⟨x, hx, hfront⟩ : ∃ x, (d.ctx n).frames = [x] ∧ x.front = f.front := List.map_eq_singleton_iff.mp hframes
  have hn : n < d.cap.length := Dev.lt_cap_of_ne (fun he => by
    rw [he] at hx
    cases hx)
  have hfseq : x.fseq = f.fseq := congrArg FrontFrame.fseq hfront
  have hshut : x.closed = true := (congrArg FrontFrame.closed hfront).trans hclosed
  have hn' : n < (d.modFrame n f.fseq (fun f => { f with dev := 3 })).cap.length :=
    hn.trans_eq (List.length_modify _ _ _).symm
  rw [Dev.dropEnded, Dev.ctx_modCtx _ _ hn', Dev.ctx_modFrame d f.fseq _ hn]
  simp [hx, hfseq, hshut]

theorem Dev.wheelOf_front {d e : Dev} (h : e.front = d.front) {n : Nat} (hn : n < 16) : e.wheelOf n = d.wheelOf n := by
  have hword : e.word (R.CAP_BIND n) = d.word (R.CAP_BIND n) :=
    Dev.front_word h (by simp only [R.CAP_BIND]; omega) (by simp only [R.CAP_BIND]; omega)
  unfold Dev.wheelOf
  rw [Dev.flag_of_word (F.CAP_BIND_ALLOC n) hword, Dev.get_of_word (F.CAP_BIND_UNIT n) hword]

/-- The frame leaves its group, and the group's service goes on. -/
def Dev.groupFreed (d : Dev) (n fseq : Nat) : Dev :=
  match d.wheelOf n with
  | some g => if (d.wheel g).busy = some (n, fseq) then (d.modWheel g (fun w => { w with busy := none })).wheelService g none else d
  | none => d

theorem Dev.groupFreed_gone {d : Dev} {n fseq : Nat} (hd : d.Gone n fseq none) : (d.groupFreed n fseq).Gone n fseq (d.wheelOf n) := by
  unfold Dev.groupFreed
  split
  · next g hg =>
    split
    · next hbusy =>
      have hlen : g < d.wheels.length := Dev.lt_wheels_of_ne (fun he => by
        rw [he] at hbusy
        cases hbusy)
      have hfree : (d.modWheel g (fun w => { w with busy := none })).Gone n fseq (some g) := by
        refine ⟨hd.frames, hd.entry, hd.loans, fun h hh => ?_⟩
        rw [← Option.some.inj hh, Dev.wheel, Dev.modWheel_wheels, elemAt_modifyAt _ _ hlen]
        simp
      exact hg ▸ hfree.wheelService g none
    · next hbusy => exact ⟨hd.frames, hd.entry, hd.loans, fun h hh => Option.some.inj (hg.symm.trans hh) ▸ hbusy⟩
  · next hnone => exact hnone ▸ hd

/-- What the end of a development leaves as it is, before the frame is marked and let go. -/
theorem Dev.frameDeveloped_eq {d : Dev} {n : Nat} {f : CapFrame} (hf : d.frame? n f.fseq = some f) (hosts : List (List Nat)) :
    ∃ e : Dev, e.still = d.still ∧ d.frameDeveloped n f.fseq hosts =
      (((e.modFrame n f.fseq (fun f => { f with dev := 3 })).rawModify n f.fseq
        (fun x => { x with dev := false, sub := false })).dropEnded n).groupFreed n f.fseq := by
  unfold Dev.frameDeveloped
  split
  · next hnone => cases hnone.symm.trans hf
  · next x hx =>
    obtain rfl : f = x := Option.some.inj (hf.symm.trans hx)
    extract_lets d1 o pics p d2 d3 d4 d5 d6 d7 d8
    have h1 : d1.still = d.still := d.advanceBranches_still n f.fseq f.rows
    have h2 : d2.still = d1.still := by
      refine ite_keeps (p := Dev.still) ?_ rfl
      exact (Dev.statsHeader_still _ n _ _ _ _).trans (d1.poolWrite_still _ _ _)
    have h3 : d3.still = d2.still := ite_keeps (p := Dev.still) (d2.set_still _ (behindFront_of_le rfl)) rfl
    have h4 : d4.still = d3.still := by
      refine ite_keeps (p := Dev.still) ?_ rfl
      exact (Dev.learn_still _ p).trans ((Dev.shiftCandidates_still _ n p _).trans (d3.noiseLoop_still n f o))
    have h5 : d5.still = d4.still :=
      foldl_keeps (p := Dev.still) (fun d b => ite_keeps (p := Dev.still) (d.mvPush_still n b f _ _) rfl) _ d4
    exact ⟨d5, h5.trans (h4.trans (h3.trans (h2.trans h1))), rfl⟩

/-- A frame that is alone in its context leaves it with the end of its development. -/
theorem Dev.frameDeveloped_gone {d : Dev} {n : Nat} {f : CapFrame} (hn : n < 16) (hframes : (d.ctx n).frames = [f])
    (hclosed : f.closed = true) (hloans : d.srv.returns = []) (hosts : List (List Nat)) :
    (d.frameDeveloped n f.fseq hosts).Gone n f.fseq (d.wheelOf n) := by
  have hf : d.frame? n f.fseq = some f := by simp [Dev.frame?, hframes]
  obtain ⟨e, hstill, heq⟩ := Dev.frameDeveloped_eq hf hosts
  have hfront := Dev.still_front hstill
  have hmap : (e.ctx n).frames.map CapFrame.front = [f.front] := by
    rw [Dev.front_frames hfront, hframes]
    rfl
  generalize hend : ((e.modFrame n f.fseq (fun f => { f with dev := 3 })).rawModify n f.fseq
    (fun x => { x with dev := false, sub := false })).dropEnded n = l at heq
  have hgone : l.Gone n f.fseq none := by
    rw [← hend]
    refine ⟨Dev.frames_ended hmap hclosed, fun x hx hof => ?_, ?_, fun g hg => nomatch hg⟩
    · obtain ⟨y, hy, rfl⟩ := List.mem_map.mp hx
      by_cases hown : y.ctx = n ∧ y.fseq = f.fseq
      · rw [if_pos hown]
      · rw [if_neg hown] at hof
        exact absurd hof hown
    · exact (congrArg SrvSt.returns (Dev.groups_srv (Dev.still_groups hstill))).trans hloans
  have hgroup : l.wheelOf n = d.wheelOf n := by
    rw [← hend]
    exact Dev.wheelOf_front hfront hn
  rw [heq, ← hgroup]
  exact Dev.groupFreed_gone hgone

/-! ### DEVELOP_FRAME_DONE -/

/-- Without a loan that returns the command is the end of the development alone. -/
theorem execDevelopFrameDone_eq {s : State} {n : Fin 16} {hosts : List (List Nat)} (h : (s.dev.developDone n hosts).srv.returns = []) :
    execDevelopFrameDone n hosts s = .next { s with dev := s.dev.developDone n hosts } := by
  rw [execDevelopFrameDone, State.run_eq]
  simp only [h, List.filter_nil, List.foldl_nil]

theorem Dev.developDone_idle {d : Dev} {n : Nat} (h : ∀ f ∈ (d.ctx n).frames, f.closed = false ∨ f.dev = 0 ∨ 3 ≤ f.dev)
    (hosts : List (List Nat)) : d.developDone n hosts = d := by
  have hnone : (d.ctx n).frames.find? (fun f => (f.dev == 1 || f.dev == 2) && f.closed) = none := by
    refine List.find?_eq_none.mpr (fun f hf => ?_)
    rcases h f hf with hopen | hwait | hend
    · simp [hopen]
    · simp [hwait]
    · have h1 : f.dev ≠ 1 := by omega
      have h2 : f.dev ≠ 2 := by omega
      simp [h1, h2]
  unfold Dev.developDone
  rw [hnone]

theorem Dev.developDone_single {d : Dev} {n : Nat} {f : CapFrame} (hframes : (d.ctx n).frames = [f]) (hclosed : f.closed = true)
    (hdev : f.dev = 1 ∨ f.dev = 2) (hclip : f.clip = none) (hosts : List (List Nat)) :
    d.developDone n hosts = d.frameDeveloped n f.fseq hosts := by
  have hfind : (d.ctx n).frames.find? (fun f => (f.dev == 1 || f.dev == 2) && f.closed) = some f := by
    rcases hdev with h | h
    all_goals simp [hframes, h, hclosed]
  unfold Dev.developDone
  rw [hfind]
  simp [hclip]

end Sys2Proof.Machine
end

section
/-!
Edits of the defect map by the host (R177).
-/
namespace Sys2Proof.Machine

/-! ### The result of an edit -/

/-- The active area is the lines' width without the black columns, and the height. -/
theorem Dev.activeWH_eq (d : Dev) (n : Nat) : d.activeWH n =
    (d.get (F.CAP_GEOM_WIDTH n) - d.get (F.RAWC_OB_OB_LEFT n) - d.get (F.RAWC_OB_OB_RIGHT n), d.get (F.CAP_GEOM_HEIGHT n)) := rfl

/-- The result of an edit does not depend on `RAWC_DMAP_EDIT_CMD`. -/
theorem Dev.editResult_congr {d e : Dev} (hdmap : e.dmap = d.dmap)
    (hget : ∀ f : Fld, f.ok → f.addr ≠ R.RAWC_DMAP_EDIT_CMD → e.get f = d.get f) {p : Nat} (hp : p < 8) (x y op cls : Nat) :
    e.editResult p x y op cls = d.editResult p x y op cls := by
  have hbind : ∀ n, R.CAP_BIND n ≠ R.RAWC_DMAP_EDIT_CMD := fun n => by
    simp only [R.CAP_BIND, R.RAWC_DMAP_EDIT_CMD]
    omega
  have hgeom : ∀ n, R.CAP_GEOM n ≠ R.RAWC_DMAP_EDIT_CMD := fun n => by
    simp only [R.CAP_GEOM, R.RAWC_DMAP_EDIT_CMD]
    omega
  have hob : ∀ n, R.RAWC_OB n ≠ R.RAWC_DMAP_EDIT_CMD := fun n => by
    simp only [R.RAWC_OB, R.RAWC_DMAP_EDIT_CMD]
    omega
  have hport : R.RAWC_DMAP_PORT p ≠ R.RAWC_DMAP_EDIT_CMD := by
    simp only [R.RAWC_DMAP_PORT, R.RAWC_DMAP_EDIT_CMD]
    omega
  have hbound : e.ctxBound p = d.ctxBound p := by
    have hen : ∀ n, e.get (F.CAP_BIND_EN n) = d.get (F.CAP_BIND_EN n) := fun n => hget _ (Fld.ok_of_ble rfl) (hbind n)
    have hto : ∀ n, e.get (F.CAP_BIND_PORT n) = d.get (F.CAP_BIND_PORT n) := fun n => hget _ (Fld.ok_of_ble rfl) (hbind n)
    unfold Dev.ctxBound
    simp only [Dev.flag, hen, hto]
  have harea : ∀ n, e.activeWH n = d.activeWH n := fun n => by
    rw [Dev.activeWH_eq, Dev.activeWH_eq, hget _ (Fld.ok_of_ble rfl) (hgeom n), hget _ (Fld.ok_of_ble rfl) (hob n),
      hget _ (Fld.ok_of_ble rfl) (hob n), hget _ (Fld.ok_of_ble rfl) (hgeom n)]
  have hcap : e.dmapCap p = d.dmapCap p := by
    unfold Dev.dmapCap
    rw [hdmap, hget _ (Fld.ok_of_ble rfl) hport]
  unfold Dev.editResult
  simp only [hbound, harea, hcap, hdmap]

theorem Dev.editResult_lt (d : Dev) (p x y op cls : Nat) : d.editResult p x y op cls < 8 := by
  unfold Dev.editResult
  dsimp only
  split_ifs
  all_goals decide

/-- Only an ADD can find the map full. -/
theorem Dev.editResult_remove_ne (d : Dev) (p x y cls : Nat) : d.editResult p x y 2 cls ≠ 2 := by
  unfold Dev.editResult
  dsimp only
  split_ifs
  all_goals simp_all

/-- An edit is queued only where the queue has room. -/
theorem Dev.queue_lt_of_editResult {d : Dev} {p x y op cls : Nat} (h : d.editResult p x y op cls = 0) :
    (elemAt d.dmap p {}).queue.length < 256 := by
  by_contra hfull
  have hlen : 256 ≤ (elemAt d.dmap p {}).queue.length := Nat.le_of_not_lt hfull
  unfold Dev.editResult at h
  dsimp only at h
  rw [if_pos hlen] at h
  split_ifs at h

/-! ### What an edit leaves -/

/-- The answer to an edit: its result, with GO clear. -/
def Dev.editAnswered (d : Dev) (r : Nat) : Dev := (d.set F.RAWC_DMAP_EDIT_CMD_RESULT r).setFlag F.RAWC_DMAP_EDIT_CMD_GO false

theorem Dev.editAnswered_result (d : Dev) {r : Nat} (h : r < 8) : (d.editAnswered r).get F.RAWC_DMAP_EDIT_CMD_RESULT = r := by
  rw [Dev.editAnswered, Dev.setFlag, Dev.get_set_apart _ _ _ _ (by decide) (by decide), Dev.get_set_same _ _ _ (by decide)]
  exact Nat.mod_eq_of_lt h

theorem Dev.editAnswered_go (d : Dev) (r : Nat) : (d.editAnswered r).get F.RAWC_DMAP_EDIT_CMD_GO = 0 :=
  Dev.get_setFlag_same _ F.RAWC_DMAP_EDIT_CMD_GO false (by decide) rfl

/-- The block with an edit in its queue and its answer shown. -/
def Dev.editQueued (d : Dev) (p : Nat) (e : DefectEdit) : Dev := (d.editAnswered 0).queueEdit p e

section
variable {d e : Dev} {p x y cls : Nat}

theorem Dev.Only.editAnswered (h : d.Only e [wholeReg R.RAWC_DMAP_EDIT_CMD]) (r : Nat) :
    d.Only (e.editAnswered r) [wholeReg R.RAWC_DMAP_EDIT_CMD] := (h.set_whole r List.mem_cons_self).set_whole _ List.mem_cons_self

theorem Dev.Only.editResult (h : d.Only e [wholeReg R.RAWC_DMAP_EDIT_CMD]) (hp : p < 8) (op : Nat) :
    e.editResult p x y op cls = d.editResult p x y op cls := by
  obtain ⟨hsame, -, hkept⟩ := h
  refine Dev.editResult_congr (by rw [hsame]) (fun f hf ha => hkept f hf (fun g hg => ?_)) hp x y op cls
  rw [List.mem_singleton.mp hg]
  exact .inl ha

theorem Dev.hostEdit_refused {op r : Nat} (h : e.editResult p x y op cls = r) (h0 : r ≠ 0) (h2 : r ≠ 2) :
    e.hostEdit op p cls x y = e.editAnswered r := by
  unfold Dev.hostEdit
  simp only [h, h0, h2, ne_eq, not_false_eq_true, if_true, if_false]
  rfl

theorem Dev.hostEdit_add (h : e.editResult p x y 1 cls = 0) :
    e.hostEdit 1 p cls x y = e.editQueued p { x := x, y := y, cls := cls, learned := false } := by
  unfold Dev.hostEdit
  simp [h]
  rfl

/-- A pixel's candidate is dropped. -/
def Dev.candDropped (d : Dev) (p x y : Nat) : Dev :=
  { d with dmap := modifyAt d.dmap p (fun m => { m with cands := m.cands.filter (fun c => !(c.x == x && c.y == y)) }) }

theorem Dev.hostEdit_remove (h : e.editResult p x y 2 cls = 0) :
    e.hostEdit 2 p cls x y = (e.editQueued p { x := x, y := y, cls := 0, learned := false }).candDropped p x y := by
  unfold Dev.hostEdit
  simp only [h, ne_eq, not_true_eq_false, if_false, if_true]
  rfl

/-- The edit joins the queue of its port. -/
def Dev.edited (d : Dev) (p : Nat) (q : DefectEdit) : Dev :=
  { d with dmap := modifyAt d.dmap p (fun m => { m with queue := m.queue ++ [q] }) }

theorem Dev.queueEdit_shows (d : Dev) {p : Nat} (q : DefectEdit) (hlen : p < d.dmap.length)
    (hroom : (elemAt d.dmap p {}).queue.length < 256) :
    (d.queueEdit p q).get (F.RAWC_DMAP_STATUS_PENDING p) = (elemAt d.dmap p {}).queue.length + 1 ∧
      (d.queueEdit p q).dmap = modifyAt d.dmap p (fun m => { m with queue := m.queue ++ [q] }) ∧
      ∀ a, a ≠ R.RAWC_DMAP_STATUS p → (d.queueEdit p q).word a = d.word a := by
  have hq : (elemAt (d.edited p q).dmap p {}).queue = (elemAt d.dmap p {}).queue ++ [q] :=
    congrArg DmapPort.queue (elemAt_modifyAt _ _ hlen)
  have heq : d.queueEdit p q = ((d.edited p q).set (F.RAWC_DMAP_STATUS_USED p) (elemAt (d.edited p q).dmap p {}).cur.length).set
      (F.RAWC_DMAP_STATUS_PENDING p) (elemAt (d.edited p q).dmap p {}).queue.length := rfl
  rw [heq, hq]
  refine ⟨?_, rfl, fun a ha => (Dev.word_set_ne _ _ _ ha).trans (Dev.word_set_ne _ _ _ ha)⟩
  rw [Dev.get_set_same _ _ _ (Fld.ok_of_ble rfl), List.length_append, List.length_singleton]
  exact Nat.mod_eq_of_lt (by simp only [F.RAWC_DMAP_STATUS_PENDING]; omega)

end

/-! ### DMAP_EDIT_ADD and DMAP_EDIT_REMOVE -/

/-- The command register names an ADD, or a REMOVE, for port `p`. -/
def Dev.addNamed (d : Dev) (p cls : Nat) : Dev :=
  ((d.set F.RAWC_DMAP_EDIT_CMD_OP 1).set F.RAWC_DMAP_EDIT_CMD_PORT p).set F.RAWC_DMAP_EDIT_CMD_CLASS cls

def Dev.removeNamed (d : Dev) (p : Nat) : Dev := (d.set F.RAWC_DMAP_EDIT_CMD_OP 2).set F.RAWC_DMAP_EDIT_CMD_PORT p

theorem Dev.addNamed_only (d : Dev) (p cls : Nat) : d.Only (d.addNamed p cls) [wholeReg R.RAWC_DMAP_EDIT_CMD] := by
  have hop := (Dev.Only.refl d [wholeReg R.RAWC_DMAP_EDIT_CMD]).set_whole (f := F.RAWC_DMAP_EDIT_CMD_OP) 1 List.mem_cons_self
  have hport := hop.set_whole (f := F.RAWC_DMAP_EDIT_CMD_PORT) p List.mem_cons_self
  exact hport.set_whole (f := F.RAWC_DMAP_EDIT_CMD_CLASS) cls List.mem_cons_self

theorem Dev.removeNamed_only (d : Dev) (p : Nat) : d.Only (d.removeNamed p) [wholeReg R.RAWC_DMAP_EDIT_CMD] := by
  have hop := (Dev.Only.refl d [wholeReg R.RAWC_DMAP_EDIT_CMD]).set_whole (f := F.RAWC_DMAP_EDIT_CMD_OP) 2 List.mem_cons_self
  exact hop.set_whole (f := F.RAWC_DMAP_EDIT_CMD_PORT) p List.mem_cons_self

/-- The pixel that `RAWC_DMAP_EDIT_XY` names. -/
theorem Dev.Only.editXY {d e : Dev} (h : d.Only e [wholeReg R.RAWC_DMAP_EDIT_CMD]) :
    e.get F.RAWC_DMAP_EDIT_XY_X = d.get F.RAWC_DMAP_EDIT_XY_X ∧ e.get F.RAWC_DMAP_EDIT_XY_Y = d.get F.RAWC_DMAP_EDIT_XY_Y := by
  obtain ⟨-, -, hkept⟩ := h
  exact ⟨hkept _ (by decide) (by decide), hkept _ (by decide) (by decide)⟩

section
variable {s : State} (hreach : s.dev.Reaches R.RAWC_DMAP_EDIT_CMD) (p : Fin 8)
include hreach

theorem execDmapEditAdd_open (cls : Fin 16) : execDmapEditAdd p cls s = .next { s with
    dev := (s.dev.addNamed p cls).hostEdit 1 p cls (s.dev.get F.RAWC_DMAP_EDIT_XY_X) (s.dev.get F.RAWC_DMAP_EDIT_XY_Y) } := by
  obtain ⟨hx, hy⟩ := (s.dev.addNamed_only p cls).editXY
  rw [execDmapEditAdd, State.hostCmd, State.run, Dev.gateWrite_open hreach, ← hx, ← hy]
  rfl

theorem execDmapEditRemove_open : execDmapEditRemove p s = .next { s with
    dev := (s.dev.removeNamed p).hostEdit 2 p 0 (s.dev.get F.RAWC_DMAP_EDIT_XY_X) (s.dev.get F.RAWC_DMAP_EDIT_XY_Y) } := by
  obtain ⟨hx, hy⟩ := (s.dev.removeNamed_only p).editXY
  rw [execDmapEditRemove, State.hostCmd, State.run, Dev.gateWrite_open hreach, ← hx, ← hy]
  rfl

end

/-- A refused edit changes its own register alone. -/
theorem Dev.Only.hostEdit_refused {d e : Dev} (h : d.Only e [wholeReg R.RAWC_DMAP_EDIT_CMD]) {p x y op cls r : Nat} (hp : p < 8)
    (hr : d.editResult p x y op cls = r) (h0 : r ≠ 0) (h2 : r ≠ 2) :
    (e.hostEdit op p cls x y).get F.RAWC_DMAP_EDIT_CMD_RESULT = r ∧ (e.hostEdit op p cls x y).get F.RAWC_DMAP_EDIT_CMD_GO = 0 ∧
      d.Only (e.hostEdit op p cls x y) [wholeReg R.RAWC_DMAP_EDIT_CMD] := by
  rw [Dev.hostEdit_refused ((h.editResult hp op).trans hr) h0 h2]
  exact ⟨e.editAnswered_result (hr ▸ d.editResult_lt p x y op cls), e.editAnswered_go r, h.editAnswered r⟩

/-- A queued edit: its answer, the queue and what it shows, with the map as it was. -/
theorem Dev.Only.editQueued {d e : Dev} (h : d.Only e [wholeReg R.RAWC_DMAP_EDIT_CMD]) {p x y op cls : Nat} (hp : p < 8)
    (hlen : d.dmap.length = 8) (hr : d.editResult p x y op cls = 0) (q : DefectEdit) :
    (e.editQueued p q).get F.RAWC_DMAP_EDIT_CMD_RESULT = 0 ∧ (e.editQueued p q).get F.RAWC_DMAP_EDIT_CMD_GO = 0 ∧
      (e.editQueued p q).get (F.RAWC_DMAP_STATUS_PENDING p) = (d.dmap.getD p {}).queue.length + 1 ∧
      (e.editQueued p q).dmap.length = 8 ∧
      (e.editQueued p q).dmap.getD p {} = { (d.dmap.getD p {}) with queue := (d.dmap.getD p {}).queue ++ [q] } := by
  obtain ⟨hsame, -, -⟩ := h.editAnswered 0
  have hdmap : (e.editAnswered 0).dmap = d.dmap := by rw [hsame]
  have hlt : p < (e.editAnswered 0).dmap.length := by rw [hdmap, hlen]; exact hp
  have hroom : (elemAt (e.editAnswered 0).dmap p {}).queue.length < 256 := by rw [hdmap]; exact Dev.queue_lt_of_editResult hr
  obtain ⟨hpending, hqueue, hword⟩ := (e.editAnswered 0).queueEdit_shows q hlt hroom
  have hstatus : R.RAWC_DMAP_EDIT_CMD ≠ R.RAWC_DMAP_STATUS p := by
    simp only [R.RAWC_DMAP_STATUS, R.RAWC_DMAP_EDIT_CMD]
    omega
  rw [Dev.editQueued]
  refine ⟨(Dev.get_of_word _ (hword _ hstatus)).trans (e.editAnswered_result (by decide)),
    (Dev.get_of_word _ (hword _ hstatus)).trans (e.editAnswered_go 0), ?_, ?_, ?_⟩
  · rw [hpending, hdmap, elemAt]
  · rw [hqueue, modifyAt, List.length_modify, hdmap, hlen]
  · rw [hqueue, ← elemAt, elemAt_modifyAt _ _ hlt, hdmap, elemAt]

theorem Dev.candDropped_dmap {d : Dev} {p : Nat} (h : p < d.dmap.length) (x y : Nat) : (d.candDropped p x y).dmap.getD p {} =
    { (d.dmap.getD p {}) with cands := (d.dmap.getD p {}).cands.filter (fun c => !(c.x == x && c.y == y)) } :=
  elemAt_modifyAt _ _ h

theorem DmapPort.mem_candDropped {l : List Candidate} {x y : Nat} :
    ∀ c ∈ l.filter (fun c => !(c.x == x && c.y == y)), c.x = x → c.y ≠ y := fun c hc hx hy => by
  simp [hx, hy] at hc

end Sys2Proof.Machine
end

section
/-!
The journal of the defect map and its copy in the keep store (R183-R186).
-/
namespace Sys2Proof.Machine

/-! ### Reading the keep store -/

theorem get_keepStore_above (m : Sparse Byte) {a k : Nat} (bs : List Byte) (h : a + bs.length ≤ k) :
    Sparse.get keepDefault (keepStore m a bs) k = Sparse.get keepDefault m k := by
  induction bs generalizing m a with
  | nil => rfl
  | cons b bs ih =>
    rw [List.length_cons] at h
    rw [keepStore, ih _ (by omega), Sparse.get_put_ne _ _ _ (by omega)]

/-- A read that shares no byte with a write is as before. -/
theorem Dev.keepRead_keepWrite_apart (d : Dev) {a n b : Nat} (bs : List Byte) (h : a + n ≤ b ∨ b + bs.length ≤ a) :
    (d.keepWrite b bs).keepRead a n = d.keepRead a n := by
  refine List.map_congr_left (fun i hi => ?_)
  have hlt : i < n := List.mem_range.mp hi
  rcases h with h | h
  · exact get_keepStore_below _ _ (by omega)
  · exact get_keepStore_above _ _ (by omega)

/-- The first bytes of a write read back. -/
theorem Dev.keepRead_keepWrite_append (d : Dev) (a : Nat) (bs cs : List Byte) : (d.keepWrite a (bs ++ cs)).keepRead a bs.length = bs := by
  have hall := map_get_keepStore d.keep.bytes a (bs ++ cs)
  have htake := congrArg (List.take bs.length) hall
  rw [← List.map_take, List.take_range, List.take_left, List.length_append, Nat.min_eq_left (Nat.le_add_right _ _)] at htake
  exact htake

theorem Dev.keepRead_keepWrite (d : Dev) (a : Nat) (bs : List Byte) : (d.keepWrite a bs).keepRead a bs.length = bs := by
  have h := d.keepRead_keepWrite_append a bs []
  rwa [List.append_nil] at h

theorem Dev.keepRead_congr {d e : Dev} (h : e.keep = d.keep) (a n : Nat) : e.keepRead a n = d.keepRead a n := by
  simp only [Dev.keepRead, h]

/-- Dropping other entries leaves what is read at a key. -/
theorem Sparse.get_filter {α : Type} (dflt : Nat → α) (m : Sparse α) {p : Nat × α → Bool} {k : Nat} (h : ∀ v, p (k, v) = true) :
    Sparse.get dflt (m.filter p) k = Sparse.get dflt m k := by
  induction m with
  | nil => rfl
  | cons x m ih =>
    obtain ⟨j, v⟩ := x
    by_cases hj : j = k
    · subst hj
      simp [h, Sparse.get]
    · by_cases hp : p (j, v) = true
      · simp [hp, Sparse.get, hj, ih]
      · simp [hp, Sparse.get, hj, ih]

/-! ### Reports below FAULT leave the keep store (R509) -/

theorem Dev.setCell_keep (d : Dev) (h l : Nat) (b : Byte) : (d.setCell h l b).keep = d.keep := by
  unfold Dev.setCell
  split
  · rfl
  · rfl

theorem Dev.freshBlock_keep (d : Dev) (h l : Nat) : (d.freshBlock h l).keep = d.keep := by
  unfold Dev.freshBlock
  extract_lets d1
  have h1 : d1.keep = d.keep := rfl
  split
  · exact h1
  · exact ite_keeps (p := Dev.keep) h1 h1

theorem Dev.stripeWrite_keep (d : Dev) (n s b i : Nat) (v : Byte) : (d.stripeWrite n s b i v).keep = d.keep :=
  (Dev.setCell_keep _ _ _ _).trans (Dev.setCell_keep _ _ _ _)

theorem Dev.writeOut_keep (d : Dev) (b : StripeBuf) : (d.writeOut b).keep = d.keep := by
  refine foldl_keeps (p := Dev.keep) (fun d g => ?_) b.gran d
  refine (foldl_keeps (p := Dev.keep) (fun d i => d.stripeWrite_keep _ _ _ _ _) _ _).trans ?_
  exact (Dev.freshBlock_keep _ _ _).trans (Dev.freshBlock_keep _ _ _)

theorem Dev.roomInHub_keep (d : Dev) (q : Nat) : (d.roomInHub q).keep = d.keep := by
  unfold Dev.roomInHub
  refine ite_keeps (p := Dev.keep) rfl ?_
  split
  · exact d.writeOut_keep _
  · rfl

theorem Dev.holdGranule_keep (d : Dev) (n s g : Nat) (bytes : List Byte) : (d.holdGranule n s g bytes).keep = d.keep := by
  unfold Dev.holdGranule
  extract_lets d1 b b' rest mem d2
  have h1 : d1.keep = d.keep := ite_keeps (p := Dev.keep) rfl (d.roomInHub_keep _)
  exact ite_keeps (p := Dev.keep) ((d2.writeOut_keep b').trans h1) h1

theorem Dev.writeBlock_keep (d : Dev) (n o i : Nat) (bs : List Byte) : (d.writeBlock n o i bs).keep = d.keep := by
  unfold Dev.writeBlock
  split
  next h l _ =>
  extract_lets whole old new d1
  refine ite_keeps (p := Dev.keep) rfl ?_
  split
  · exact d.holdGranule_keep _ _ _ _
  · exact (foldl_keeps (p := Dev.keep) (fun d k => d.setCell_keep _ _ _) _ _).trans (d.freshBlock_keep h l)

theorem Dev.writeBlocks_keep (fuel : Nat) (d : Dev) (n o : Nat) (bs : List Byte) : (Dev.writeBlocks fuel d n o bs).keep = d.keep := by
  induction fuel generalizing d o bs with
  | zero => rfl
  | succ fuel ih =>
    unfold Dev.writeBlocks
    exact ite_keeps (p := Dev.keep) rfl ((ih _ _ _).trans (d.writeBlock_keep _ _ _ _))

theorem Dev.poolWrite_keep (d : Dev) (n o : Nat) (bs : List Byte) : (d.poolWrite n o bs).keep = d.keep :=
  ite_keeps (p := Dev.keep) (Dev.writeBlocks_keep _ d n o bs) rfl

theorem Dev.sendMsix_keep (d : Dev) (v : Nat) : (d.sendMsix v).keep = d.keep := ite_keeps (p := Dev.keep) rfl rfl

theorem Dev.signalEvent_keep (d : Dev) (severity : Nat) : (d.signalEvent severity).keep = d.keep := by
  unfold Dev.signalEvent
  extract_lets d1
  have h1 : d1.keep = d.keep := ite_keeps (p := Dev.keep) (ite_keeps (p := Dev.keep) rfl rfl) rfl
  refine ite_keeps (p := Dev.keep) (ite_keeps (p := Dev.keep) ?_ (ite_keeps (p := Dev.keep) h1 ?_)) h1
  · exact (d1.sendMsix_keep _).trans h1
  · exact (d1.sendMsix_keep _).trans h1

theorem Dev.faultLog_keep (d : Dev) {e : EventRec} (h : e.severity < sevFault) : (d.faultLog e).keep = d.keep :=
  congrArg Dev.keep (if_pos h)

theorem Dev.ringWrite_keep (d : Dev) {e : EventRec} (h : e.severity < sevFault) : (d.ringWrite e).keep = d.keep := by
  unfold Dev.ringWrite
  simp only []
  refine (Dev.signalEvent_keep _ _).trans ((Dev.faultLog_keep _ ?_).trans ?_)
  · split
    · exact h
    · exact h
  · refine (Dev.bump_keep _ _).trans ((Dev.poolWrite_keep _ _ _ _).trans ?_)
    split
    · exact (Dev.bump_keep _ _).trans (d.bump_keep _)
    · rfl

/-- An event below FAULT is not copied to the fault log. -/
theorem Dev.event_keep (d : Dev) (code : Nat) {severity : Nat} (h : severity < sevFault) (items : List Item) :
    (d.event code severity items).keep = d.keep := by
  unfold Dev.event Dev.raise Dev.raiseFrom
  extract_lets flags e d1
  refine ite_keeps (p := Dev.keep) (Dev.ringWrite_keep _ h) (ite_keeps (p := Dev.keep) (Dev.set_keep _ _ _) ?_)
  exact ite_keeps (p := Dev.keep) (d1.addSat_keep _ _) (d1.bump_keep _)

end Sys2Proof.Machine
end

section
/-!
JOURNAL_BATCH and KEEP_REBUILD_DONE (R183-R186).
-/
namespace Sys2Proof.Machine

/-! ### A batch -/

@[simp] theorem length_journalRecord (jseq op slot bits : Nat) : (journalRecord jseq op slot bits).length = 16 := by
  simp [journalRecord, bytesBE]

/-- One record of a batch is written, and the next has the next number. -/
def Dev.recordWritten (d : Dev) (e : Nat × Nat × Nat) : Dev :=
  { d.keepWrite (journalAt d.journal.jseq) (journalRecord d.journal.jseq e.1 e.2.1 e.2.2) with
    journal := { d.journal with jseq := (d.journal.jseq + 1) % 2 ^ 32 } }

/-- The block with other keep-store bytes and another number of the next record. -/
def Dev.journaled (d : Dev) (bytes : Sparse Byte) (j : Nat) : Dev :=
  { d with keep := { d.keep with bytes := bytes }, journal := { d.journal with jseq := j } }

theorem Dev.recordWritten_journaled (d : Dev) (e : Nat × Nat × Nat) (bytes : Sparse Byte) (j : Nat) :
    (d.recordWritten e).journaled bytes j = d.journaled bytes j := by
  unfold Dev.journaled Dev.recordWritten Dev.keepWrite
  rfl

theorem Dev.recordsWritten_eq (l : List (Nat × Nat × Nat)) (d : Dev) : ∃ bytes j, l.foldl Dev.recordWritten d = d.journaled bytes j ∧
    (d.journal.jseq < 2 ^ 32 → j = (d.journal.jseq + l.length) % 2 ^ 32) := by
  induction l generalizing d with
  | nil => exact ⟨d.keep.bytes, d.journal.jseq, rfl, fun h => (Nat.mod_eq_of_lt h).symm⟩
  | cons e l ih =>
    obtain ⟨bytes, j, heq, hj⟩ := ih (d.recordWritten e)
    refine ⟨bytes, j, by rw [List.foldl_cons, heq, Dev.recordWritten_journaled], fun _ => ?_⟩
    have hnext : (d.recordWritten e).journal.jseq = (d.journal.jseq + 1) % 2 ^ 32 := rfl
    rw [hj (Nat.mod_lt _ (by decide)), hnext, Nat.mod_add_mod, List.length_cons, Nat.add_right_comm, Nat.add_assoc]

/-- The batch leaves those that wait, and its records count as used. -/
def Dev.batchTaken (d : Dev) : Dev :=
  ({ d with journal := { d.journal with wait := d.journal.wait.drop 256, lastBatch := d.elapsed } } : Dev)

theorem Dev.journalWrite_eq {d : Dev} (h : d.journal.wait ≠ []) : ∃ items, d.journalWrite =
    ((((d.journal.wait.take 256).foldl Dev.recordWritten d).batchTaken).add F.RAWC_JOURNAL_USED (d.journal.wait.take 256).length).event
      0x0904 sevInfo items := by
  have hbatch : (d.journal.wait.take 256).isEmpty = false := by simpa using h
  unfold Dev.journalWrite
  simp only [hbatch, Bool.false_eq_true, if_false]
  exact ⟨_, rfl⟩

/-- What a batch shows. -/
theorem Dev.journalWrite_shows {d : Dev} {e : Nat × Nat × Nat} {rest : List (Nat × Nat × Nat)} (h : d.journal.wait = e :: rest)
    (hroom : d.get F.RAWC_JOURNAL_USED + min 256 (rest.length + 1) < 86016) :
    d.journalWrite.get F.RAWC_JOURNAL_USED = d.get F.RAWC_JOURNAL_USED + min 256 (rest.length + 1) ∧
    (d.journal.jseq < 2 ^ 32 → d.journalWrite.journal = { d.journal with
      wait := d.journal.wait.drop 256, lastBatch := d.elapsed, jseq := (d.journal.jseq + min 256 (rest.length + 1)) % 2 ^ 32 }) ∧
    (rest = [] → d.journalWrite.keepRead (journalAt d.journal.jseq) 16 = journalRecord d.journal.jseq e.1 e.2.1 e.2.2) := by
  have hlen : (d.journal.wait.take 256).length = min 256 (rest.length + 1) := by rw [h, List.length_take, List.length_cons]
  obtain ⟨items, heq⟩ := Dev.journalWrite_eq (d := d) (by rw [h]; exact List.cons_ne_nil _ _)
  obtain ⟨bytes, j, hfold, hj⟩ := Dev.recordsWritten_eq (d.journal.wait.take 256) d
  have hreport := Dev.event_reports
    (((d.journaled bytes j).batchTaken).add F.RAWC_JOURNAL_USED (min 256 (rest.length + 1))) 0x0904 sevInfo items
  rw [hlen] at heq hj
  refine ⟨?_, fun hseq => ?_, fun hsingle => ?_⟩
  · rw [heq, hfold, hreport.get _ (by decide), Dev.add, Dev.get_set_same _ _ _ (by decide)]
    exact Nat.mod_eq_of_lt (lt_of_lt_of_le hroom (by decide))
  · rw [heq, hfold, hreport.journal, ← hj hseq]
    rfl
  · have htake : d.journal.wait.take 256 = [e] := by rw [h, hsingle, List.take_of_length_le (by simp)]
    rw [heq, Dev.keepRead_congr (Dev.event_keep _ _ (by decide) _), htake]
    have hread := d.keepRead_keepWrite (journalAt d.journal.jseq) (journalRecord d.journal.jseq e.1 e.2.1 e.2.2)
    rw [length_journalRecord] at hread
    exact hread

section
variable {s : State}

theorem execJournalBatch_idle (h : s.dev.journal.wait = [] ∨ s.dev.elapsed < s.dev.journal.lastBatch + s.dev.journalPeriod) :
    execJournalBatch s = .next s := by
  rw [execJournalBatch, State.run_eq]
  rcases h with hnone | hearly
  · simp [hnone]
  · simp [hearly]

/-- A batch after which no fold is due. -/
theorem execJournalBatch_writes (hwait : s.dev.journal.wait ≠ [])
    (hdue : s.dev.journal.lastBatch + s.dev.journalPeriod ≤ s.dev.elapsed)
    (hroom : s.dev.journalWrite.get F.RAWC_JOURNAL_USED < 86016) :
    execJournalBatch s = .next { s with dev := s.dev.journalWrite } := by
  rw [execJournalBatch, State.run_eq]
  simp [hwait, hdue.not_gt, hroom.not_ge]

end

/-! ### The map copy -/

/-- The slots of the map copy with their bytes. -/
def mapSlots (l : List DmapPort) : List (Nat × List Byte) :=
  l.flatMap (fun m => m.cur.map (fun e => (e.slot, bytesLE 6 (e.bits m.cur))))

/-- Slots are written into the copy. -/
def Dev.slotsWritten (d : Dev) (l : List (Nat × List Byte)) : Dev := l.foldl (fun d x => d.keepWrite (6 * x.1) x.2) d

theorem Dev.slotsWritten_eq (d : Dev) (l : List (Nat × List Byte)) :
    ∃ bytes, d.slotsWritten l = { d with keep := { d.keep with bytes := bytes } } := by
  induction l generalizing d with
  | nil => exact ⟨d.keep.bytes, rfl⟩
  | cons x l ih => exact ih (d.keepWrite (6 * x.1) x.2)

theorem Dev.slotsWritten_append (d : Dev) (l m : List (Nat × List Byte)) : d.slotsWritten (l ++ m) = (d.slotsWritten l).slotsWritten m :=
  List.foldl_append

/-- What shares no byte with the slots written is read as before. -/
theorem Dev.slotsWritten_apart (d : Dev) {l : List (Nat × List Byte)} {a n : Nat}
    (h : ∀ x ∈ l, a + n ≤ 6 * x.1 ∨ 6 * x.1 + x.2.length ≤ a) : (d.slotsWritten l).keepRead a n = d.keepRead a n := by
  induction l generalizing d with
  | nil => rfl
  | cons x l ih =>
    exact (ih (d.keepWrite (6 * x.1) x.2) (fun y hy => h y (List.mem_cons_of_mem x hy))).trans
      (d.keepRead_keepWrite_apart x.2 (h x List.mem_cons_self))

/-- Every slot reads back where the slots are distinct. -/
theorem Dev.slotsWritten_read (d : Dev) {l : List (Nat × List Byte)} (hslots : (l.map Prod.fst).Nodup) (hlen : ∀ x ∈ l, x.2.length = 6) :
    ∀ x ∈ l, (d.slotsWritten l).keepRead (6 * x.1) 6 = x.2 := by
  induction l generalizing d with
  | nil => exact fun x hx => absurd hx List.not_mem_nil
  | cons y l ih =>
    obtain ⟨hnew, hrest⟩ := List.nodup_cons.mp hslots
    intro x hx
    rcases List.mem_cons.mp hx with rfl | hx
    · have hapart : ∀ z ∈ l, 6 * x.1 + 6 ≤ 6 * z.1 ∨ 6 * z.1 + z.2.length ≤ 6 * x.1 := fun z hz => by
        have hne : z.1 ≠ x.1 := fun he => hnew (he ▸ List.mem_map_of_mem hz)
        rw [hlen z (List.mem_cons_of_mem _ hz)]
        omega
      have hread := d.keepRead_keepWrite (6 * x.1) x.2
      rw [hlen x List.mem_cons_self] at hread
      exact (Dev.slotsWritten_apart (d.keepWrite (6 * x.1) x.2) hapart).trans hread
    · exact ih (d.keepWrite (6 * y.1) y.2) hrest (fun z hz => hlen z (List.mem_cons_of_mem y hz)) x hx

/-- The map of a port is written into the copy. -/
def Dev.portWritten (d : Dev) (p : Nat) : Dev :=
  (elemAt d.dmap p {}).cur.foldl (fun x e => x.keepWrite (6 * e.slot) (bytesLE 6 (e.bits (elemAt d.dmap p {}).cur))) d

theorem Dev.portWritten_eq (d : Dev) (p : Nat) : d.portWritten p = d.slotsWritten (mapSlots [elemAt d.dmap p {}]) := by
  simp only [Dev.portWritten, mapSlots, List.flatMap_cons, List.flatMap_nil, List.append_nil, Dev.slotsWritten, List.foldl_map]

theorem Dev.slotsWritten_dmap (d : Dev) (l : List (Nat × List Byte)) : (d.slotsWritten l).dmap = d.dmap := by
  obtain ⟨bytes, h⟩ := d.slotsWritten_eq l
  rw [h]

theorem Dev.slotsWritten_journal (d : Dev) (l : List (Nat × List Byte)) : (d.slotsWritten l).journal = d.journal := by
  obtain ⟨bytes, h⟩ := d.slotsWritten_eq l
  rw [h]

theorem Dev.portsWritten_eq (d : Dev) (ps : List Nat) :
    ps.foldl (fun d p => d.portWritten p) d = d.slotsWritten (mapSlots (ps.map (fun p => elemAt d.dmap p {}))) := by
  induction ps generalizing d with
  | nil => rfl
  | cons p ps ih =>
    rw [List.foldl_cons, ih, Dev.portWritten_eq, Dev.slotsWritten_dmap, ← Dev.slotsWritten_append, mapSlots, mapSlots,
      ← List.flatMap_append]
    rfl

theorem map_elemAt_range {α : Type} (l : List α) (x : α) : (List.range l.length).map (fun i => elemAt l i x) = l := by
  refine List.ext_getElem (by simp) (fun i h1 h2 => ?_)
  simp [elemAt, h2]

/-! ### KEEP_REBUILD_DONE -/

/-- The fault log and what lies above it stay; the map copy and the journal are written anew. -/
def Dev.copyCleared (d : Dev) : Dev :=
  { d with keep := { d.keep with bytes := d.keep.bytes.filter (fun e => 0x780000 ≤ e.1) },
           journal := { d.journal with rebuilding := false } }

/-- The journal's magic number and the number of its next record (R183). -/
def Dev.journalHeader (d : Dev) : List Byte := bytesLE 4 0x4E524A44 ++ bytesLE 4 d.journal.jseq

/-- The header of the journal is written. -/
def Dev.headerWritten (d : Dev) : Dev := d.keepWrite 0x600000 (d.journalHeader ++ d.dmapLayout)

/-- The keep store with the map copy and a clear journal. -/
def Dev.mapCopied (d : Dev) : Dev := (d.copyCleared.slotsWritten (mapSlots d.dmap)).headerWritten

theorem length_dmapLayout (d : Dev) : d.dmapLayout.length = 8 := by
  simp [Dev.dmapLayout, List.length_flatMap]

theorem length_journalHeader (d : Dev) : d.journalHeader.length = 8 := by simp [Dev.journalHeader]

theorem Dev.mapCopied_eq (d : Dev) : ∃ bytes, d.mapCopied =
    { d with keep := { d.keep with bytes := bytes }, journal := { d.journal with rebuilding := false } } := by
  obtain ⟨bytes, h⟩ := d.copyCleared.slotsWritten_eq (mapSlots d.dmap)
  rw [Dev.mapCopied, h]
  exact ⟨_, rfl⟩

/-- The block once the copy is rewritten. -/
def Dev.keepRebuilt (d : Dev) : Dev :=
  ((List.range 8).foldl (fun d p => d.portWritten p) d.copyCleared).headerWritten.set F.RAWC_JOURNAL_USED 0

theorem execKeepRebuildDone_eq (s : State) :
    execKeepRebuildDone s = s.run (fun d => if !d.journal.rebuilding then d else d.keepRebuilt) := by
  simp only [execKeepRebuildDone, Dev.keepRebuilt, Dev.headerWritten, Dev.journalHeader, Dev.copyCleared, Dev.portWritten]

theorem execKeepRebuildDone_idle {s : State} (h : s.dev.journal.rebuilding = false) : execKeepRebuildDone s = .next s := by
  rw [execKeepRebuildDone_eq, State.run_eq, h]
  rfl

theorem execKeepRebuildDone_copies {s : State} (h : s.dev.journal.rebuilding = true) (hlen : s.dev.dmap.length = 8) :
    execKeepRebuildDone s = .next { s with dev := s.dev.mapCopied.set F.RAWC_JOURNAL_USED 0 } := by
  have hslots : (List.range 8).map (fun p => elemAt s.dev.copyCleared.dmap p {}) = s.dev.dmap :=
    hlen ▸ map_elemAt_range s.dev.dmap {}
  have hports := s.dev.copyCleared.portsWritten_eq (List.range 8)
  rw [hslots] at hports
  rw [execKeepRebuildDone_eq, State.run_eq, h, Dev.mapCopied, ← hports]
  simp only [Bool.not_true, Bool.false_eq_true, if_false, Dev.keepRebuilt]

/-- What is read of the keep store once the map is copied. -/
theorem Dev.mapCopied_reads {d : Dev} (hslots : (d.dmap.flatMap (fun m => m.cur.map (·.slot))).Nodup)
    (hbound : ∀ m ∈ d.dmap, ∀ e ∈ m.cur, e.slot < 2 ^ 20) : d.mapCopied.keepRead 0x600000 8 = d.journalHeader ∧
    (∀ m ∈ d.dmap, ∀ e ∈ m.cur, d.mapCopied.keepRead (6 * e.slot) 6 = bytesLE 6 (e.bits m.cur)) ∧
    ∀ a, 0x780000 ≤ a → d.mapCopied.keepRead a 1 = d.keepRead a 1 := by
  have hmem : ∀ x ∈ mapSlots d.dmap, x.2.length = 6 ∧ x.1 < 2 ^ 20 := fun x hx => by
    obtain ⟨m, hm, hx⟩ := List.mem_flatMap.mp hx
    obtain ⟨e, he, rfl⟩ := List.mem_map.mp hx
    exact ⟨length_bytesLE _ _, hbound m hm e he⟩
  have hkeys : ((mapSlots d.dmap).map Prod.fst).Nodup := by
    rw [mapSlots, List.map_flatMap]
    simpa only [List.map_map, Function.comp_def] using hslots
  have hheader : ∀ x : Dev, (x.journalHeader ++ x.dmapLayout).length = 16 := fun x => by
    rw [List.length_append, length_journalHeader, length_dmapLayout]
  refine ⟨?_, fun m hm e he => ?_, fun a ha => ?_⟩
  · have hread := (d.copyCleared.slotsWritten (mapSlots d.dmap)).keepRead_keepWrite_append 0x600000
      (d.copyCleared.slotsWritten (mapSlots d.dmap)).journalHeader (d.copyCleared.slotsWritten (mapSlots d.dmap)).dmapLayout
    rw [length_journalHeader] at hread
    refine hread.trans ?_
    rw [Dev.journalHeader, Dev.slotsWritten_journal]
    rfl
  · have hx : (e.slot, bytesLE 6 (e.bits m.cur)) ∈ mapSlots d.dmap := List.mem_flatMap.mpr ⟨m, hm, List.mem_map_of_mem he⟩
    have hslot := hbound m hm e he
    refine (Dev.keepRead_keepWrite_apart _ _ (.inl (by omega))).trans ?_
    exact d.copyCleared.slotsWritten_read hkeys (fun x hx => (hmem x hx).1) _ hx
  · refine (Dev.keepRead_keepWrite_apart _ _ (.inr (by rw [hheader]; omega))).trans ?_
    refine (d.copyCleared.slotsWritten_apart (fun x hx => .inr ?_)).trans ?_
    · obtain ⟨hlen, hlt⟩ := hmem x hx
      omega
    · refine List.map_congr_left (fun i _ => Sparse.get_filter _ _ (fun _ => ?_))
      exact decide_eq_true (Nat.le_add_right_of_le ha)

/-- The journal is clear, and apart from it and the keep store nothing changed. -/
theorem Dev.mapCopied_only (d : Dev) : ∃ k : KeepSt, (d.mapCopied.set F.RAWC_JOURNAL_USED 0).keep = k ∧
    (d.mapCopied.set F.RAWC_JOURNAL_USED 0).journal = { d.journal with rebuilding := false } ∧
    ({ d with keep := k, journal := { d.journal with rebuilding := false } } : Dev).Only (d.mapCopied.set F.RAWC_JOURNAL_USED 0)
      [F.RAWC_JOURNAL_USED] := by
  obtain ⟨bytes, h⟩ := d.mapCopied_eq
  rw [h]
  exact ⟨_, rfl, rfl, (Dev.Only.refl _ _).set 0 List.mem_cons_self (by decide)⟩

end Sys2Proof.Machine
end

section
/-!
COL_COMMIT and LUT3D_LOAD_DONE (R205, R206, R223, R224).
-/
namespace Sys2Proof.Machine

/-! ### COL_COMMIT (R223) -/

/-- A branch with its table disabled and the table in effect selected has nothing to judge. -/
theorem Dev.lutCommit_unchanged {d : Dev} {n b : Nat} (hen : d.get (F.COL_BR_LUT_LUT3D_EN n b) = 0)
    (hidx : d.get (F.COL_BR_LUT_LUT3D_IDX n b) = d.eget (F.COL_BR_LUT_LUT3D_IDX n b)) : d.lutCommit n b = d := by
  unfold Dev.lutCommit
  simp [hen, hidx]

theorem Dev.colJudge_unchanged {d : Dev} {n : Nat} (h : ∀ b < 6, d.get (F.COL_BR_LUT_LUT3D_EN n b) = 0 ∧
    d.get (F.COL_BR_LUT_LUT3D_IDX n b) = d.eget (F.COL_BR_LUT_LUT3D_IDX n b)) : d.colJudge n = d := by
  refine List.foldlRecOn (motive := fun e => e = d) (List.range 6) _ rfl (fun e he b hb => ?_)
  obtain ⟨hen, hidx⟩ := h b (List.mem_range.mp hb)
  rw [he, Dev.lutCommit_unchanged hen hidx]

theorem Dev.colCommit_synced {d : Dev} {n : Nat} (h : d.flag (F.COL_CFG_SID_SYNC n) = true) : d.colCommit n = d := if_pos h

theorem Dev.colCommit_latches {d : Dev} {n : Nat} (h : d.flag (F.COL_CFG_SID_SYNC n) = false)
    (hlut : ∀ b < 6, d.get (F.COL_BR_LUT_LUT3D_EN n b) = 0 ∧
      d.get (F.COL_BR_LUT_LUT3D_IDX n b) = d.eget (F.COL_BR_LUT_LUT3D_IDX n b)) :
    d.colCommit n = d.latchAll (colShadows n) := by
  rw [Dev.colCommit, h, Dev.colJudge_unchanged hlut]
  rfl

theorem execColCommit_single {s : State} {mask : Fin 65536} {n : Nat} (hreach : s.dev.Reaches R.COL_COMMIT)
    (hmask : (List.range 16).filter (bitOf mask) = [n]) : execColCommit mask s = .next { s with dev := s.dev.colCommit n } := by
  rw [execColCommit, State.hostCmd, State.run, Dev.gateWrite_open hreach, hmask]
  rfl

/-! ### LUT3D_LOAD_DONE (R205) -/

theorem execLut3dLoadDone_idle {s : State} {n : Fin 16} (h : (s.dev.luts.getD (s.dev.lutUnit n) {}).loading = none) :
    execLut3dLoadDone n s = .next s := by
  rw [execLut3dLoadDone, State.run_eq]
  simp only [elemAt, h]

/-- Table `t` has taken the free buffer of unit `u`, whose loads are shown at branch `b` of context `m`. -/
def Dev.lutLoaded (d : Dev) (u m b t : Nat) : Dev :=
  { d with luts := d.luts.set u { held := (d.luts.getD u {}).held ++ [t], loading := none } }.setFlag
    (F.COL_BR_LUT_STATUS_LOADING m b) false

theorem execLut3dLoadDone_loads {s : State} {n : Fin 16} {m b t : Nat}
    (h : (s.dev.luts.getD (s.dev.lutUnit n) {}).loading = some (m, b, t))
    (hfree : (s.dev.luts.getD (s.dev.lutUnit n) {}).held.length < 2) :
    execLut3dLoadDone n s = .next { s with dev := s.dev.lutLoaded (s.dev.lutUnit n) m b t } := by
  rw [execLut3dLoadDone, State.run_eq]
  simp only [elemAt, h, hfree, if_true]
  rfl

theorem Dev.lutLoaded_shows (d : Dev) (u m b t : Nat) : (d.lutLoaded u m b t).get (F.COL_BR_LUT_STATUS_LOADING m b) = 0 ∧
    ({ d with luts := d.luts.set u { held := (d.luts.getD u {}).held ++ [t], loading := none } } : Dev).Only
      (d.lutLoaded u m b t) [F.COL_BR_LUT_STATUS_LOADING m b] :=
  ⟨Dev.get_setFlag_same _ _ false (Fld.ok_of_ble rfl) rfl, (Dev.Only.refl _ _).set _ List.mem_cons_self (Fld.ok_of_ble rfl)⟩

end Sys2Proof.Machine
end

section
/-!
The commands of the wheels, the defect maps, the keep store and the colour settings, each in the case that O54 names.
-/
namespace Sys2Proof.Machine

/-! ### Wheels -/

/-- The end of a busy group's window ends the window alone. -/
theorem wheelWindowEnd_busy {s : State} {g : Fin 8} (hbusy : (s.dev.wheel g).busy.isSome = true)
    (hwin : (s.dev.wheel g).window.isSome = true) : Completes (.wheelWindowEnd g) s (fun d => d = s.dev.windowClosed g) := by
  obtain ⟨t, ht⟩ := Option.isSome_iff_exists.mp hwin
  have hlen : g.val < s.dev.wheels.length := Dev.lt_wheels_of_ne (fun h => by simp [h] at hbusy)
  have hbusy' : ((s.dev.windowClosed g).wheel g).busy.isSome = true := by rw [Dev.windowClosed_wheel hlen]; exact hbusy
  exact ⟨_, execWheelWindowEnd_open ht, rfl, Dev.wheelService_busy hbusy' _⟩

theorem wheelSlotStart_none {s : State} {g : Fin 8} (hpend : s.dev.pendingOn g = []) : Completes (.wheelSlotStart g) s (fun d =>
    d.get (F.CAP_WG_STATUS_SLOT g) = s.dev.wheelSlot g s.dev.nowNs ∧
      s.dev.Only d [wholeReg (R.CAP_WG_STATUS g), F.CAP_WG_RES_LIST_LIST g]) :=
  ⟨_, execWheelSlotStart_none hpend, rfl, s.dev.showWheel_slot g, s.dev.showWheel_only g⟩

section
variable {s : State} {g : Fin 8} {n : Nat} {f : CapFrame} (hpend : s.dev.pendingOn g = [(n, f)])
  (hidle : (s.dev.wheel g).busy = none) (hraw : f.raw.isSome = true)
  (hslot : bitOf (s.dev.eget (F.CAP_WHEEL_SLOT_MASK n)) (s.dev.wheelSlot g s.dev.nowNs) = true)
  (hlimit : s.dev.nowNs - f.fsNs ≤ s.dev.get (F.CAP_WHEEL_DEFER_LIMIT_US n) * 1000) (hlen : s.dev.wheels.length = 8)
include hpend hidle hraw hslot hlimit hlen

/-- A window that another frame opened ends, and the group's pending frame is served. -/
theorem wheelWindowEnd_serves {t : Nat} (ht : (s.dev.wheel g).window = some t) (hlive : t ≠ f.fsNs) :
    Completes (.wheelWindowEnd g) s (fun d => (d.wheel g).busy = some (n, f.fseq) ∧ (d.wheel g).resident.getLast? = some n ∧
      (d.wheel g).window = none ∧ d.flag (F.CAP_WG_STATUS_BUSY g) = true ∧
      d.get (F.CAP_CNT1_DEFERRED n) = (s.dev.get (F.CAP_CNT1_DEFERRED n) + 1) % 65536) := by
  have hg : g.val < s.dev.wheels.length := lt_of_lt_of_eq g.isLt hlen.symm
  have hg' : g.val < (s.dev.windowClosed g).wheels.length :=
    lt_of_lt_of_eq hg (List.length_modify _ _ _).symm
  have hwheel : (s.dev.windowClosed g).wheel g = { s.dev.wheel g with window := none } := Dev.windowClosed_wheel hg
  have hidle' : ((s.dev.windowClosed g).wheel g).busy = none := by rw [hwheel]; exact hidle
  obtain ⟨hbusy, hres, hwin, hflag, hcount⟩ := Dev.wheelService_served (d := s.dev.windowClosed g) (win := some t) hpend hidle' hraw
    hslot hlimit (fun h => hlive (Option.some.inj h)) hg'
  refine ⟨_, execWheelWindowEnd_open ht, rfl, hbusy, hres, hwin.trans ?_, hflag, hcount⟩
  rw [hwheel]

/-- A slot starts outside a window, and the group's pending frame is served. -/
theorem wheelSlotStart_serves (hwin : (s.dev.wheel g).window = none) (hen : s.dev.flag (F.CAP_WG_CFG_EN g) = true) :
    Completes (.wheelSlotStart g) s (fun d => (d.wheel g).busy = some (n, f.fseq) ∧ (d.wheel g).resident.getLast? = some n ∧
      (d.wheel g).window = none ∧ d.flag (F.CAP_WG_STATUS_BUSY g) = true ∧
      d.get (F.CAP_CNT1_DEFERRED n) = (s.dev.get (F.CAP_CNT1_DEFERRED n) + 1) % 65536) := by
  have hsome : s.dev.pendingOn g ≠ [] := by rw [hpend]; exact List.cons_ne_nil _ _
  obtain ⟨hbusy, hres, hkept, hflag, hcount⟩ := Dev.wheelService_served (d := s.dev) (win := none) hpend hidle hraw hslot hlimit
    nofun (lt_of_lt_of_eq g.isLt hlen.symm)
  exact ⟨_, execWheelSlotStart_pending hsome hwin hen, rfl, hbusy, hres, hkept.trans hwin, hflag, hcount⟩

end

/-! ### The end of a development -/

theorem developFrameDone_idle {s : State} {n : Fin 16} {hosts : List (List Nat)} (hloans : s.dev.srv.returns = [])
    (h : ∀ f ∈ (s.dev.ctx n).frames, f.closed = false ∨ f.dev = 0 ∨ 3 ≤ f.dev) :
    Completes (.developFrameDone n hosts) s (fun d => d = s.dev) := by
  have hdone := Dev.developDone_idle h hosts
  have hnone : (s.dev.developDone n hosts).srv.returns = [] := by rw [hdone]; exact hloans
  exact ⟨_, execDevelopFrameDone_eq hnone, rfl, hdone⟩

theorem developFrameDone_leaves {s : State} {n : Fin 16} {hosts : List (List Nat)} {f : CapFrame} (hloans : s.dev.srv.returns = [])
    (hframes : (s.dev.ctx n).frames = [f]) (hclosed : f.closed = true) (hdev : f.dev = 1 ∨ f.dev = 2) (hclip : f.clip = none) :
    Completes (.developFrameDone n hosts) s (fun d => d.Gone n f.fseq (s.dev.wheelOf n)) := by
  have hdone := Dev.developDone_single hframes hclosed hdev hclip hosts
  have hgone := Dev.frameDeveloped_gone n.isLt hframes hclosed hloans hosts
  rw [← hdone] at hgone
  exact ⟨_, execDevelopFrameDone_eq hgone.loans, rfl, hgone⟩

/-! ### Edits of the defect maps -/

/-- The edit of class `cls` that `RAWC_DMAP_EDIT_XY` names. -/
def Dev.editNamed (d : Dev) (cls : Nat) : DefectEdit :=
  { x := d.get F.RAWC_DMAP_EDIT_XY_X, y := d.get F.RAWC_DMAP_EDIT_XY_Y, cls := cls, learned := false }

/-- From `d` to `e` edit `q` joined the queue of port `p` and was answered, and the port's map is as it was. -/
structure Dev.Queued (d e : Dev) (p : Nat) (q : DefectEdit) : Prop where
  result : e.get F.RAWC_DMAP_EDIT_CMD_RESULT = 0
  go : e.get F.RAWC_DMAP_EDIT_CMD_GO = 0
  queue : (e.dmap.getD p {}).queue = (d.dmap.getD p {}).queue ++ [q]
  pending : e.get (F.RAWC_DMAP_STATUS_PENDING p) = (d.dmap.getD p {}).queue.length + 1
  cur : (e.dmap.getD p {}).cur = (d.dmap.getD p {}).cur

theorem Dev.Only.queued {d e : Dev} (h : d.Only e [wholeReg R.RAWC_DMAP_EDIT_CMD]) {p x y op cls : Nat} (hp : p < 8)
    (hlen : d.dmap.length = 8) (hr : d.editResult p x y op cls = 0) (q : DefectEdit) : d.Queued (e.editQueued p q) p q := by
  obtain ⟨hresult, hgo, hpending, -, hport⟩ := h.editQueued hp hlen hr q
  exact ⟨hresult, hgo, by rw [hport], hpending, by rw [hport]⟩

theorem Dev.Queued.candDropped {d e : Dev} {p : Nat} {q : DefectEdit} (h : d.Queued e p q) (hp : p < e.dmap.length) (x y : Nat) :
    d.Queued (e.candDropped p x y) p q := by
  have hport := Dev.candDropped_dmap hp x y
  exact ⟨h.result, h.go, by rw [hport, ← h.queue], h.pending, by rw [hport, ← h.cur]⟩

theorem Dev.cands_candDropped {d : Dev} {p : Nat} (hp : p < d.dmap.length) {x y : Nat} :
    ∀ c ∈ ((d.candDropped p x y).dmap.getD p {}).cands, c.x = x → c.y ≠ y := by
  rw [Dev.candDropped_dmap hp]
  exact DmapPort.mem_candDropped

section
variable {s : State} {p : Fin 8} (hreach : s.dev.Reaches R.RAWC_DMAP_EDIT_CMD)
include hreach

theorem dmapEditAdd_refused {cls : Fin 16} {r : Nat}
    (hr : s.dev.editResult p (s.dev.get F.RAWC_DMAP_EDIT_XY_X) (s.dev.get F.RAWC_DMAP_EDIT_XY_Y) 1 cls = r) (h0 : r ≠ 0) (h2 : r ≠ 2) :
    Completes (.dmapEditAdd p cls) s (fun d => d.get F.RAWC_DMAP_EDIT_CMD_RESULT = r ∧ d.get F.RAWC_DMAP_EDIT_CMD_GO = 0 ∧
      s.dev.Only d [wholeReg R.RAWC_DMAP_EDIT_CMD]) :=
  ⟨_, execDmapEditAdd_open hreach p cls, rfl, (s.dev.addNamed_only p cls).hostEdit_refused p.isLt hr h0 h2⟩

/-- A REMOVE is never answered with the result of a full map. -/
theorem dmapEditRemove_refused {r : Nat}
    (hr : s.dev.editResult p (s.dev.get F.RAWC_DMAP_EDIT_XY_X) (s.dev.get F.RAWC_DMAP_EDIT_XY_Y) 2 0 = r) (h0 : r ≠ 0) :
    Completes (.dmapEditRemove p) s (fun d => d.get F.RAWC_DMAP_EDIT_CMD_RESULT = r ∧ d.get F.RAWC_DMAP_EDIT_CMD_GO = 0 ∧
      s.dev.Only d [wholeReg R.RAWC_DMAP_EDIT_CMD]) :=
  ⟨_, execDmapEditRemove_open hreach p, rfl,
    (s.dev.removeNamed_only p).hostEdit_refused p.isLt hr h0 (hr ▸ s.dev.editResult_remove_ne p _ _ 0)⟩

variable (hlen : s.dev.dmap.length = 8)
include hlen

theorem dmapEditAdd_queued {cls : Fin 16}
    (hr : s.dev.editResult p (s.dev.get F.RAWC_DMAP_EDIT_XY_X) (s.dev.get F.RAWC_DMAP_EDIT_XY_Y) 1 cls = 0) :
    Completes (.dmapEditAdd p cls) s (fun d => s.dev.Queued d p (s.dev.editNamed cls)) := by
  have hnamed := s.dev.addNamed_only p cls
  have hstep := execDmapEditAdd_open hreach p cls
  rw [Dev.hostEdit_add ((hnamed.editResult p.isLt 1).trans hr)] at hstep
  exact ⟨_, hstep, rfl, hnamed.queued p.isLt hlen hr (s.dev.editNamed cls)⟩

/-- A queued REMOVE drops the pixel's candidate as well. -/
theorem dmapEditRemove_queued
    (hr : s.dev.editResult p (s.dev.get F.RAWC_DMAP_EDIT_XY_X) (s.dev.get F.RAWC_DMAP_EDIT_XY_Y) 2 0 = 0) :
    Completes (.dmapEditRemove p) s (fun d => s.dev.Queued d p (s.dev.editNamed 0) ∧
      ∀ c ∈ (d.dmap.getD p {}).cands, c.x = s.dev.get F.RAWC_DMAP_EDIT_XY_X → c.y ≠ s.dev.get F.RAWC_DMAP_EDIT_XY_Y) := by
  have hnamed := s.dev.removeNamed_only p
  have hstep := execDmapEditRemove_open hreach p
  rw [Dev.hostEdit_remove ((hnamed.editResult p.isLt 2).trans hr)] at hstep
  obtain ⟨-, -, -, hports, -⟩ := hnamed.editQueued p.isLt hlen hr (s.dev.editNamed 0)
  have hp := lt_of_lt_of_eq p.isLt hports.symm
  exact ⟨_, hstep, rfl, (hnamed.queued p.isLt hlen hr (s.dev.editNamed 0)).candDropped hp _ _, Dev.cands_candDropped hp⟩

end

/-! ### The keep store -/

/-- The map copy and the header of a clear journal (R186). -/
theorem keepRebuildDone_copies {s : State} (h : s.dev.journal.rebuilding = true) (hlen : s.dev.dmap.length = 8)
    (hslots : (s.dev.dmap.flatMap (fun m => m.cur.map (·.slot))).Nodup) (hbound : ∀ m ∈ s.dev.dmap, ∀ e ∈ m.cur, e.slot < 2 ^ 20) :
    Completes .keepRebuildDone s (fun d => d.journal = { s.dev.journal with rebuilding := false } ∧ d.get F.RAWC_JOURNAL_USED = 0 ∧
      d.keepRead 0x600000 8 = s.dev.journalHeader ∧
      (∀ m ∈ s.dev.dmap, ∀ e ∈ m.cur, d.keepRead (6 * e.slot) 6 = bytesLE 6 (e.bits m.cur)) ∧
      (∀ a, 0x780000 ≤ a → d.keepRead a 1 = s.dev.keepRead a 1) ∧
      ({ s.dev with keep := d.keep, journal := d.journal } : Dev).Only d [F.RAWC_JOURNAL_USED]) := by
  obtain ⟨k, hkeep, hjournal, honly⟩ := s.dev.mapCopied_only
  obtain ⟨hheader, hmap, habove⟩ := Dev.mapCopied_reads hslots hbound
  refine ⟨_, execKeepRebuildDone_copies h hlen, rfl, hjournal, Dev.get_set_same _ _ _ (by decide), hheader, hmap, habove, ?_⟩
  simp only [hkeep, hjournal]
  exact honly

/-! ### Colour -/

/-- A commit outside SID_SYNC that selects no other table (R223). -/
theorem colCommit_latches {s : State} {mask : Fin 65536} {n : Nat} (hreach : s.dev.Reaches R.COL_COMMIT)
    (hmask : (List.range 16).filter (bitOf mask) = [n]) (hsync : s.dev.flag (F.COL_CFG_SID_SYNC n) = false)
    (hlut : ∀ b < 6, s.dev.get (F.COL_BR_LUT_LUT3D_EN n b) = 0 ∧
      s.dev.get (F.COL_BR_LUT_LUT3D_IDX n b) = s.dev.eget (F.COL_BR_LUT_LUT3D_IDX n b)) :
    Completes (.colCommit mask) s (fun d =>
      (∀ a, d.effWord a = if a ∈ colShadows n then s.dev.word a else s.dev.effWord a) ∧
      d = { s.dev with regs := { s.dev.regs with eff := d.regs.eff } }) := by
  refine ⟨_, execColCommit_single hreach hmask, rfl, ?_⟩
  simp only [Dev.colCommit_latches hsync hlut]
  exact ⟨s.dev.effWord_latchAll _, s.dev.latchAll_eq _⟩

/-! ### The obligation -/

/-- Settles O54, by what each command does in the case named: the one pending frame is the one that a service picks, a developed frame
is dropped from its context before the group serves another, and the slots of the map copy do not overlap. -/
theorem wheelsMapsAndColours : Obligations.WheelsMapsAndColours := by
  unfold Obligations.WheelsMapsAndColours
  refine ⟨fun s g => ⟨fun hwin => ⟨_, execWheelWindowEnd_closed hwin, rfl, rfl⟩, wheelWindowEnd_busy, wheelSlotStart_none,
      fun n f hpend hidle hraw hslot hlimit hlen => ⟨fun t ht hlive => ?_, fun hwin hen => ?_⟩⟩,
    fun s g => ⟨_, execWheelBoundary_eq s g, rfl, s.dev.wheelBoundary_shows _ g rfl⟩,
    fun s n hosts hloans => ⟨developFrameDone_idle hloans, fun f hframes hclosed hdev hclip => ?_⟩,
    fun s p cls hreach hlen => ⟨fun r hr h0 h2 => dmapEditAdd_refused hreach hr h0 h2, fun r hr h0 => dmapEditRemove_refused hreach hr h0,
      fun hr => ?_, fun hr => ?_⟩,
    fun s => ⟨fun h => ⟨_, execJournalBatch_idle h, rfl, rfl⟩, fun e rest hwait hdue hroom => ?_⟩,
    fun s h => ⟨_, execKeepRebuildDone_idle h, rfl, rfl⟩,
    fun s h hlen hslots hbound => keepRebuildDone_copies h hlen hslots hbound,
    fun s mask n hreach hmask => ⟨fun hsync => ?_, colCommit_latches hreach hmask⟩,
    fun s n => ⟨fun h => ⟨_, execLut3dLoadDone_idle h, rfl, rfl⟩, fun m b t h hfree => ?_⟩⟩
  · exact wheelWindowEnd_serves hpend hidle hraw hslot hlimit hlen ht hlive
  · exact wheelSlotStart_serves hpend hidle hraw hslot hlimit hlen hwin hen
  · obtain ⟨t, hstep, hrest, hgone⟩ := developFrameDone_leaves hloans hframes hclosed hdev hclip
    exact ⟨t, hstep, hrest, hgone.frames, fun g _ => hgone.busy g, hgone.entry⟩
  · obtain ⟨t, hstep, hrest, h⟩ := dmapEditAdd_queued hreach hlen hr
    exact ⟨t, hstep, hrest, h.result, h.go, h.queue, h.pending, h.cur⟩
  · obtain ⟨t, hstep, hrest, h, hcands⟩ := dmapEditRemove_queued hreach hlen hr
    exact ⟨t, hstep, hrest, ⟨h.result, h.go, h.queue, h.pending, h.cur⟩, hcands⟩
  · obtain ⟨hused, hjournal, hrecord⟩ := Dev.journalWrite_shows hwait hroom
    have hsome : s.dev.journal.wait ≠ [] := by rw [hwait]; exact List.cons_ne_nil _ _
    exact ⟨_, execJournalBatch_writes hsome hdue (lt_of_eq_of_lt hused hroom), rfl, hused, hjournal, hrecord⟩
  · exact ⟨_, execColCommit_single hreach hmask, rfl, Dev.colCommit_synced hsync⟩
  · exact ⟨_, execLut3dLoadDone_loads h hfree, rfl, s.dev.lutLoaded_shows _ m b t⟩

end Sys2Proof.Machine
end

section
/-!
What the steps of the recorder leave of the block (R262-R282), said once for every part that reads neither the recorder's own state
and registers nor what reporting changes: a proof about such a part shows that it is one and walks through no step of the recorder.
-/
namespace Sys2Proof.Machine

/-- A part of the block that no step of the recorder changes: it reads neither the recorder's state nor the outputs, no register from
the recorder's block on, and nothing that reporting an event changes. -/
structure RecBlind {β : Type} (p : Dev → β) : Prop where
  recd : ∀ (d : Dev) (r : RecSt) (o : List Output), p { d with recd := r, out := o } = p d
  set : ∀ (d : Dev) (f : Fld) (v : Nat), 0x600000 ≤ f.addr → p (d.set f v) = p d
  report : ∀ d e : Dev, d.Reports e → p e = p d

namespace RecBlind

variable {β : Type} {p : Dev → β} (hp : RecBlind p)
include hp

theorem eventCtx (d : Dev) (code severity inst ctx : Nat) (items : List Item) : p (d.eventCtx code severity inst ctx items) = p d :=
  hp.report _ _ (d.eventCtx_reports code severity inst ctx items)

/-! ### Drives and spools -/

theorem modDrive (d : Dev) (k : Nat) (f : DriveSt → DriveSt) : p (d.modDrive k f) = p d := hp.recd d _ d.out

theorem setClip (d : Dev) (n : Nat) (c : Option ClipSt) : p (d.setClip n c) = p d := hp.recd d _ d.out

theorem modRec (d : Dev) (n fseq : Nat) (g : RecFrame → RecFrame) : p (d.modRec n fseq g) = p d := hp.recd d _ d.out

theorem nvmeCmd (d : Dev) (k : Nat) (c : NvmeCmd) : p (d.nvmeCmd k c) = p d := hp.recd d _ _

theorem nvme (d : Dev) (k kind lba : Nat) (bytes : List Byte) (ctx : Option Nat) : p (d.nvme k kind lba bytes ctx) = p d :=
  hp.nvmeCmd d k _

theorem volumeHeader (d : Dev) (k state : Nat) (clip : Option (Nat × Nat)) (ctx : Option Nat) :
    p (d.volumeHeader k state clip ctx) = p d := (hp.nvme _ _ _ _ _ _).trans (hp.modDrive d k _)

theorem recState (d : Dev) : p d.recState = p d := hp.set d F.REC_STATUS_STATE _ (by decide)

theorem submit (fuel : Nat) (d : Dev) (n : Nat) (c : ClipSt) (all : Bool) : p (Dev.submit fuel d n c all).1 = p d := by
  induction fuel generalizing d c with
  | zero => rfl
  | succ fuel ih => exact ite_fst_keeps rfl ((ih _ _).trans (foldl_keeps (fun d k => hp.nvmeCmd d k _) _ d))

theorem closeSpool (d : Dev) (n : Nat) (c : ClipSt) : p (d.closeSpool n c).1 = p d := hp.submit _ d n _ true

theorem takeSpool (d : Dev) (g : Nat) {x : Nat × Dev} (hx : d.takeSpool g = some x) : p x.2 = p d := by
  unfold Dev.takeSpool at hx
  dsimp only at hx
  split at hx
  · cases hx
  · split at hx
    · split at hx
      · cases hx
      · rw [← Option.some.inj hx]
        exact ite_keeps ((hp.set _ _ _ (Nat.le_add_right_of_le (by decide))).trans (hp.modDrive d _ _)) (hp.modDrive d _ _)
    · split at hx
      · cases hx
      · rw [← Option.some.inj hx]
        exact foldl_keeps (fun d k => hp.modDrive d k _) _ d

theorem openSpool (d : Dev) (n : Nat) (c : ClipSt) {x : Dev × ClipSt} (hx : d.openSpool n c = some x) : p x.1 = p d := by
  unfold Dev.openSpool at hx
  dsimp only at hx
  split at hx
  · cases hx
  · next lba d' htake =>
    have hshown : p (d'.set (F.REC_CTX_SPOOL_SPOOL_NO n) c.lbas.length) = p d :=
      (hp.set d' _ _ (Nat.le_add_right_of_le (by decide))).trans (hp.takeSpool d _ htake)
    split at hx
    · rw [← Option.some.inj hx]
      exact (hp.eventCtx _ _ _ _ _ _).trans hshown
    · rw [← Option.some.inj hx]
      exact hshown

theorem clipAdd (d : Dev) (n : Nat) (c : ClipSt) (type : Nat) (body : List Byte) {x : Dev × ClipSt}
    (hx : d.clipAdd n c type body = some x) : p x.1 = p d := by
  unfold Dev.clipAdd at hx
  dsimp only at hx
  split at hx
  · rw [← Option.some.inj hx]
    exact hp.submit _ d n _ false
  · split at hx
    · cases hx
    · next d' c' hopen =>
      rw [← Option.some.inj hx]
      exact (hp.submit _ d' n _ false).trans ((hp.openSpool _ _ _ hopen).trans (hp.closeSpool d n c))

/-! ### Clips -/

theorem clipSettle (d : Dev) (n : Nat) : p (d.clipSettle n) = p d := by
  unfold Dev.clipSettle
  split
  · next c _ =>
    have hended : p ((((d.setClip n none).recState).eventCtx 0x0C02 sevInfo n n
        [u16 c.dflags, u32 (c.lastF.getD 0), u32 c.lbas.length])) = p d :=
      (hp.eventCtx _ _ _ _ _ _).trans ((hp.recState _).trans (hp.setClip d n none))
    exact ite_keeps (ite_keeps ((hp.set _ F.REC_CTRL_STOP _ (by decide)).trans hended) hended) rfl
  · rfl

theorem closeClip (d : Dev) (n dflags : Nat) (flush : Bool) : p (d.closeClip n dflags flush) = p d := by
  unfold Dev.closeClip
  split
  · rfl
  · refine ite_keeps rfl ?_
    extract_lets c1 c2 pad c3 c4
    split
    next d' c' hsubmit =>
    refine (hp.clipSettle _ n).trans ((hp.recState _).trans ((hp.setClip _ n _).trans ?_))
    refine (foldl_keeps (fun d g => foldl_keeps (fun d k => ?_) _ d) _ _).trans (keeps_of_fst_eq hsubmit (hp.submit _ d n _ true))
    exact ite_keeps (hp.nvme d _ _ _ _ _) ((hp.volumeHeader _ _ _ _ _).trans ((hp.modDrive _ _ _).trans (hp.nvme d _ _ _ _ _)))

theorem recFull (d : Dev) (n : Nat) (c : ClipSt) : p (d.recFull n c) = p d :=
  (hp.closeClip _ n 16 false).trans ((hp.eventCtx _ _ _ _ _ _).trans (hp.setClip d n _))

theorem clipAddAll (d : Dev) (n : Nat) (c : ClipSt) (l : List (Nat × List Byte)) : p (Dev.clipAddAll d n c l).1 = p d := by
  induction l generalizing d c with
  | nil => rfl
  | cons x l ih =>
    unfold Dev.clipAddAll
    split
    · next hadd => exact (ih _ _).trans (hp.clipAdd d n c _ _ hadd)
    · exact hp.recFull d n c

theorem writeTiles (l : List (Nat × Nat × List Byte)) (d : Dev) (n : Nat) (c : ClipSt) (fseq : Nat) (tiles : List (List Byte))
    (locs : List (Nat × Nat × Nat)) : p (Dev.writeTiles l d n c fseq tiles locs).1 = p d := by
  induction l generalizing d c locs with
  | nil => rfl
  | cons x l ih =>
    unfold Dev.writeTiles
    split
    · exact hp.recFull d n c
    · next hadd => exact (ih _ _ _).trans (hp.clipAdd d n c _ _ hadd)

/-! ### Frames of a clip -/

theorem audioRecords (d : Dev) (n : Nat) : p (d.audioRecords n).2 = p d := by
  refine List.foldlRecOn (motive := fun a : List (Nat × List Byte) × Dev => p a.2 = p d) (List.range 8) _ rfl (fun a ha k _ => ?_)
  dsimp only
  split
  · exact (hp.recd a.2 _ a.2.out).trans ha
  · exact ha

theorem writeFrame (d : Dev) (n : Nat) (c : ClipSt) (f : RecFrame) : p (d.writeFrame n c f) = p d := by
  unfold Dev.writeFrame
  extract_lets gap c1 delta es data sidMeta tiles hflags head
  have hhead := hp.clipAddAll d n c1 (delta ++ sidMeta ++ [(2, head)])
  split
  · next hadd => exact keeps_of_fst_eq hadd hhead
  · next d1 c2 hadd =>
    have h1 : p d1 = p d := keeps_of_fst_eq hadd hhead
    refine ite_keeps ((hp.setClip d1 n _).trans h1) ?_
    split
    · next hwrite => exact (keeps_of_fst_eq hwrite (hp.writeTiles _ d1 n _ _ _ _)).trans h1
    · next d2 c3 locs hwrite =>
      have h2 : p d2 = p d := (keeps_of_fst_eq hwrite (hp.writeTiles _ d1 n _ _ _ _)).trans h1
      extract_lets idxLen home
      split
      · next hindex => exact (keeps_of_fst_eq hindex (hp.clipAddAll d2 n _ _)).trans h2
      · next d3 c4 hindex =>
        have h3 : p d3 = p d := (keeps_of_fst_eq hindex (hp.clipAddAll d2 n _ _)).trans h2
        extract_lets c5
        split
        next audio d4 haudio =>
        have h4 : p d4 = p d := by
          have := hp.audioRecords d3 n
          rw [haudio] at this
          exact this.trans h3
        extract_lets lens con
        split
        · next hlast => exact (keeps_of_fst_eq hlast (hp.clipAddAll d4 n _ _)).trans h4
        · next d5 c6 hlast => exact (hp.setClip d5 n _).trans ((keeps_of_fst_eq hlast (hp.clipAddAll d4 n _ _)).trans h4)

theorem recAdvance (fuel : Nat) (d : Dev) (n : Nat) : p (Dev.recAdvance fuel d n) = p d := by
  induction fuel generalizing d with
  | zero => rfl
  | succ fuel ih =>
    have htaken : ∀ r, p { d with recd := r } = p d := fun r => hp.recd d r d.out
    unfold Dev.recAdvance
    split
    · exact ite_keeps ((ih _).trans (ite_keeps ((hp.writeFrame _ n _ _).trans (htaken _)) (htaken _))) rfl
    · exact ite_keeps ((ih _).trans (htaken _)) rfl
    · split
      · exact ite_keeps (hp.closeClip d n _ false) rfl
      · rfl
    · rfl

theorem recPump (d : Dev) (n : Nat) : p (d.recPump n) = p d := hp.recAdvance _ d n

/-! ### Tiles that arrive -/

theorem recDrop (d : Dev) (n fseq : Nat) : p (d.recDrop n fseq) = p d := by
  have hcount : p ((d.modRec n fseq (fun f => { f with dropped := true, tiles := [] })).bump (F.REC_CTX_CNT_DROPPED n)) = p d :=
    (hp.set _ _ _ (Nat.le_add_right_of_le (by decide))).trans (hp.modRec d n fseq _)
  unfold Dev.recDrop
  exact ite_keeps hcount ((hp.eventCtx _ _ _ _ _ _).trans ((hp.recd _ _ _).trans hcount))

theorem recTile (d : Dev) (n fseq : Nat) (tile : List Byte) : p (d.recTile n fseq tile) = p d := by
  unfold Dev.recTile
  exact ite_keeps rfl (ite_keeps (hp.recDrop d n fseq) (hp.modRec d n fseq _))

end RecBlind

end Sys2Proof.Machine
end

section
/-!
The coding of tiles (R241-R243): TILE_EMITTED.
-/
namespace Sys2Proof.Machine

/-! ### The view -/

/-- What the coding of tiles leaves to be seen: the engines' queues, the frames begun, the entries of RAW_RING, the loans, and the
registers of the contexts. -/
structure Coding where
  queues : List (List TileJob)
  frames : List KrcFrame
  raw : List RawEntry
  srv : SrvSt
  words : Nat → Word

def Dev.coding (d : Dev) : Coding :=
  ⟨d.ze.queues, d.ze.frames, d.rawEntries, d.srv, fun a => if 0x501000 ≤ a ∧ a < 0x600000 then d.word a else 0⟩

theorem Dev.coding_queues {d e : Dev} (h : e.coding = d.coding) : e.ze.queues = d.ze.queues := congrArg Coding.queues h
theorem Dev.coding_frames {d e : Dev} (h : e.coding = d.coding) : e.ze.frames = d.ze.frames := congrArg Coding.frames h
theorem Dev.coding_rawEntries {d e : Dev} (h : e.coding = d.coding) : e.rawEntries = d.rawEntries := congrArg Coding.raw h
theorem Dev.coding_srv {d e : Dev} (h : e.coding = d.coding) : e.srv = d.srv := congrArg Coding.srv h

theorem Dev.coding_word {d e : Dev} (h : e.coding = d.coding) {a : Nat} (hlo : 0x501000 ≤ a) (hhi : a < 0x600000) : e.word a = d.word a := by
  have hword := congrFun (congrArg Coding.words h) a
  simpa only [Dev.coding, hlo, hhi, and_self, if_true] using hword

theorem Dev.Touches.coding {d e : Dev} {rs : List Nat} (h : d.Touches rs e) (hrs : ∀ a ∈ rs, a < 0x501000 ∨ 0x600000 ≤ a) :
    e.coding = d.coding := by
  have hwords : (fun a => if 0x501000 ≤ a ∧ a < 0x600000 then e.word a else 0) =
      fun a => if 0x501000 ≤ a ∧ a < 0x600000 then d.word a else 0 := by
    funext a
    split
    · next ha => exact h.words a (fun hin => by have := hrs a hin; omega)
    · rfl
  unfold Dev.coding
  rw [hwords, h.ze, h.rawEntries, h.srv]

/-- The recorder, which takes the delivered tiles, leaves their coding as it is. -/
theorem coding_recBlind : RecBlind Dev.coding where
  recd _ _ _ := rfl
  set d f v hf := (d.set_touches f v (rs := [f.addr]) List.mem_cons_self).coding (by simp [hf])
  report d e h := Dev.Touches.coding h (by simp only [reportRegs, List.forall_mem_cons]; decide)

theorem Dev.zeBusy_touches (d : Dev) : d.Touches [R.ZE_BUSY_IMG, R.ZE_BUSY_GEN] d.zeBusy :=
  (d.set_touches F.ZE_BUSY_IMG_ZE _ List.mem_cons_self).trans
    (Dev.set_touches _ F.ZE_BUSY_GEN_ZE _ (List.mem_cons_of_mem _ List.mem_cons_self))

theorem Dev.zeBusy_coding (d : Dev) : d.zeBusy.coding = d.coding :=
  d.zeBusy_touches.coding (by simp only [List.forall_mem_cons]; decide)

/-- A report that is made once a second keeps what its event and the note of its time keep. -/
theorem Dev.limited_keeps {β : Type} {p : Dev → β} {f : Dev → Dev} (hctx : ∀ d n g, p (Dev.modCtx d n g) = p d) (hf : ∀ d, p (f d) = p d)
    (d : Dev) (n code : Nat) : p (d.limited n code f) = p d := by
  unfold Dev.limited
  exact ite_keeps rfl ((hf _).trans (hctx d n _))

theorem Dev.backlogCheck_coding (d : Dev) (n : Nat) : (d.backlogCheck n).coding = d.coding := by
  unfold Dev.backlogCheck
  dsimp only
  exact ite_keeps (ite_keeps rfl (Dev.limited_keeps (fun _ _ _ => rfl) (fun _ => coding_recBlind.eventCtx _ _ _ _ _ _) _ _ _)) rfl

/-! ### Delivery (R242) -/

/-- Delivery goes on in the tiles of the frame alone. -/
theorem Dev.deliver_eq (fuel : Nat) (d : Dev) (k : KrcFrame) : (Dev.deliver fuel d k).1.coding = d.coding ∧
    ∃ next waiting, (Dev.deliver fuel d k).2 = { k with next := next, waiting := waiting } := by
  induction fuel generalizing d k with
  | zero => exact ⟨rfl, _, _, rfl⟩
  | succ fuel ih =>
    unfold Dev.deliver
    split
    · exact ⟨rfl, _, _, rfl⟩
    · extract_lets d1
      have h1 : d1.coding = d.coding := ite_keeps (coding_recBlind.recTile d _ _ _) rfl
      obtain ⟨hd, next, waiting, hk⟩ := ih d1 { k with
        next := k.next + 1, waiting := Sparse.put (fun _ => []) k.waiting k.next [] }
      exact ⟨hd.trans h1, next, waiting, hk⟩

/-! ### The tile leaves -/

/-- An entry of the frame that was named is one that was changed. -/
theorem Dev.mem_rawModify {d : Dev} {n fseq : Nat} {f : RawEntry → RawEntry} {x : RawEntry}
    (hx : x ∈ (d.rawModify n fseq f).rawEntries) (hn : x.ctx = n) (hf : x.fseq = fseq) : ∃ e, x = f e := by
  obtain ⟨e, -, rfl⟩ := List.mem_map.mp hx
  split at hn
  · next h => exact ⟨e, if_pos h⟩
  · next h => exact absurd ⟨hn, by rwa [if_neg h] at hf⟩ h

theorem Dev.krcAfter_keeps (d : Dev) (k : KrcFrame) : (d.krcAfter k).ze.queues = d.ze.queues ∧ (d.krcAfter k).srv = d.srv ∧
    (d.krcAfter k).rawEntries = d.rawEntries := by
  unfold Dev.krcAfter
  split
  · rw [Dev.set_ze, Dev.set_ze, Dev.set_srv, Dev.set_srv, Dev.set_rawEntries, Dev.set_rawEntries]
    exact ⟨rfl, rfl, rfl⟩
  · exact ⟨rfl, rfl, rfl⟩

section
variable {d : Dev} {k k₀ : KrcFrame} (hframes : d.ze.frames = [k₀]) (hctx : k₀.ctx = k.ctx) (hfseq : k₀.fseq = k.fseq)
include hframes hctx hfseq

theorem Dev.krcAfter_last (h : k.emitted = k.total) :
    (d.krcAfter k).ze.frames = [] ∧ (d.krcAfter k).get (F.ZE_LAST_FSEQ_FSEQ k.ctx) = k.fseq % 2 ^ 32 := by
  have hne : R.ZE_LAST_FSEQ k.ctx ≠ R.ZE_LAST_BYTES k.ctx := by
    simp only [R.ZE_LAST_FSEQ, R.ZE_LAST_BYTES]
    omega
  unfold Dev.krcAfter
  generalize min k.bytes (2 ^ 32 - 1) = b
  rw [if_pos h, Dev.get_set_apart _ _ _ _ (Fld.ok_of_ble rfl) (.inl hne)]
  exact ⟨by simp [Dev.zeFrames, hframes, hctx, hfseq], Dev.get_set_same _ _ _ (Fld.ok_of_ble rfl)⟩

theorem Dev.krcAfter_goesOn (h : k.emitted ≠ k.total) : (d.krcAfter k).ze.frames = [k] := by
  unfold Dev.krcAfter
  rw [if_neg h]
  simp [Dev.zeFrames, hframes, hctx, hfseq]

end

/-- Once a tile is coded, its entry of RAW_RING and its frame count it. -/
theorem Dev.tileOut_coding (d : Dev) (t : TileJob) (k : KrcFrame) (off : Nat) : ∃ (e : Dev) (k' : KrcFrame),
    e.ze.queues = d.ze.queues ∧ e.ze.frames = d.ze.frames ∧ e.srv = d.srv ∧
    k'.ctx = k.ctx ∧ k'.fseq = k.fseq ∧ k'.total = k.total ∧ k'.emitted = k.emitted + 1 ∧
    (d.tileOut t k off).coding =
      ((e.rawModify t.ctx t.fseq (fun x => { x with krc := k'.total - k'.emitted })).krcAfter k').coding := by
  unfold Dev.tileOut
  extract_lets n c d1 k1 r k2 d2
  clear_value c
  obtain ⟨hd, next, waiting, hk⟩ := Dev.deliver_eq (k1.total + 1) d1 k1
  replace hk : k2 = { k1 with next := next, waiting := waiting } := hk
  have h1 : d1.ze = d.ze ∧ d1.srv = d.srv := by
    unfold d1
    split
    · exact ⟨Dev.bump_ze _ _, Dev.bump_srv _ _⟩
    · exact ⟨rfl, rfl⟩
  refine ⟨r.1, k2, ?_, ?_, ?_, ?_, ?_, ?_, ?_, ?_⟩
  · exact (Dev.coding_queues hd).trans (congrArg ZeSt.queues h1.1)
  · exact (Dev.coding_frames hd).trans (congrArg ZeSt.frames h1.1)
  · exact (Dev.coding_srv hd).trans h1.2
  · rw [hk]
  · rw [hk]
  · rw [hk]
  · rw [hk]
  · exact (Dev.zeBusy_coding _).trans ((coding_recBlind.recPump _ n).trans (d2.backlogCheck_coding n))

/-- From `d` to `e` a tile of frame `k`, the one frame begun, was emitted. -/
structure Dev.Emitted (d e : Dev) (k : KrcFrame) : Prop where
  queues : e.ze.queues = d.ze.queues
  srv : e.srv = d.srv
  raw : ∀ x ∈ e.rawEntries, x.ctx = k.ctx → x.fseq = k.fseq → x.krc = k.total - (k.emitted + 1)
  last : k.emitted + 1 = k.total → e.ze.frames = [] ∧ e.get (F.ZE_LAST_FSEQ_FSEQ k.ctx) = k.fseq % 2 ^ 32
  goesOn : k.emitted + 1 ≠ k.total → e.ze.frames.map (fun x => (x.ctx, x.fseq, x.emitted)) = [(k.ctx, k.fseq, k.emitted + 1)]

theorem Dev.tileOut_emitted {d : Dev} {t : TileJob} {k : KrcFrame} (hframes : d.ze.frames = [k]) (hctx : k.ctx = t.ctx)
    (hfseq : k.fseq = t.fseq) (hlt : k.ctx < 16) (off : Nat) : d.Emitted (d.tileOut t k off) k := by
  obtain ⟨e, k', hqueues, hbegun, hsrv, hctx', hfseq', htotal, hemitted, hcoding⟩ := d.tileOut_coding t k off
  generalize hm : e.rawModify t.ctx t.fseq (fun x => { x with krc := k'.total - k'.emitted }) = m at hcoding
  have hmze : m.ze = e.ze := by rw [← hm]; rfl
  have hmsrv : m.srv = e.srv := by rw [← hm]; rfl
  have hmframes : m.ze.frames = [k] := by rw [hmze, hbegun, hframes]
  obtain ⟨hq, hs, hr⟩ := m.krcAfter_keeps k'
  refine ⟨?_, ?_, fun x hx hxctx hxfseq => ?_, fun h => ?_, fun h => ?_⟩
  · exact (Dev.coding_queues hcoding).trans (hq.trans (by rw [hmze, hqueues]))
  · exact (Dev.coding_srv hcoding).trans (hs.trans (hmsrv.trans hsrv))
  · rw [Dev.coding_rawEntries hcoding, hr, ← hm] at hx
    obtain ⟨y, rfl⟩ := Dev.mem_rawModify hx (hxctx.trans hctx) (hxfseq.trans hfseq)
    rw [← htotal, ← hemitted]
  · obtain ⟨hnone, hlast⟩ := Dev.krcAfter_last hmframes hctx'.symm hfseq'.symm (by rw [hemitted, htotal, h])
    refine ⟨(Dev.coding_frames hcoding).trans hnone, ?_⟩
    rw [hctx', hfseq'] at hlast
    rw [← hlast]
    exact Dev.get_of_word _ (Dev.coding_word hcoding (by simp only [F.ZE_LAST_FSEQ_FSEQ, R.ZE_LAST_FSEQ]; omega)
      (by simp only [F.ZE_LAST_FSEQ_FSEQ, R.ZE_LAST_FSEQ]; omega))
  · rw [Dev.coding_frames hcoding, Dev.krcAfter_goesOn hmframes hctx'.symm hfseq'.symm (by rw [hemitted, htotal]; exact h)]
    simp only [List.map_cons, List.map_nil, hctx', hfseq', hemitted]

/-! ### TILE_EMITTED -/

theorem Dev.emitTile_idle {d : Dev} {z : Nat} (h : d.ze.queues.getD z [] = []) : d.emitTile z = d := by
  unfold Dev.emitTile elemAt
  rw [h]

theorem Dev.emitTile_head {d : Dev} {z : Nat} {t : TileJob} {rest : List TileJob} {k : KrcFrame} {e : RawEntry}
    (hq : d.ze.queues.getD z [] = t :: rest) (hframes : d.ze.frames = [k]) (hctx : k.ctx = t.ctx) (hfseq : k.fseq = t.fseq)
    (hentry : d.rawEntries.find? (fun e => e.ctx == t.ctx && e.fseq == t.fseq) = some e) :
    d.emitTile z = (d.zeQueue z rest).tileOut t k e.off := by
  have hframe : (d.zeQueue z rest).ze.frames.find? (fun k => k.ctx == t.ctx && k.fseq == t.fseq) = some k := by
    simp [Dev.zeQueue, hframes, hctx, hfseq]
  have hentry' : (d.zeQueue z rest).rawEntries.find? (fun e => e.ctx == t.ctx && e.fseq == t.fseq) = some e := hentry
  unfold Dev.emitTile elemAt
  rw [hq]
  dsimp only
  rw [hframe, hentry']

/-- No engine's work returns with the tile. -/
theorem execTileEmitted_eq {z : Fin 20} {s : State} (h : (s.dev.emitTile z).srv.returns = []) :
    execTileEmitted z s = .next { s with dev := s.dev.emitTile z } := by
  rw [execTileEmitted, State.run_eq]
  simp only [h, List.filter_nil, List.foldl_nil]

theorem tileEmitted_idle {s : State} {z : Fin 20} (hloans : s.dev.srv.returns = []) (h : s.dev.ze.queues.getD z [] = []) :
    Completes (.tileEmitted z) s (fun d => d = s.dev) := by
  have hidle := Dev.emitTile_idle h
  exact ⟨_, execTileEmitted_eq (by rw [hidle, hloans]), rfl, hidle⟩

theorem tileEmitted_head {s : State} {z : Fin 20} {t : TileJob} {rest : List TileJob} {k : KrcFrame} {e : RawEntry}
    (hloans : s.dev.srv.returns = []) (hq : s.dev.ze.queues.getD z [] = t :: rest) (hlt : t.ctx < 16)
    (hframes : s.dev.ze.frames = [k]) (hctx : k.ctx = t.ctx) (hfseq : k.fseq = t.fseq)
    (hentry : s.dev.rawEntries.find? (fun e => e.ctx == t.ctx && e.fseq == t.fseq) = some e) :
    Completes (.tileEmitted z) s (fun d => (s.dev.zeQueue z rest).Emitted d k) := by
  have hemitted := Dev.tileOut_emitted (d := s.dev.zeQueue z rest) hframes hctx hfseq (hctx ▸ hlt) e.off
  rw [← Dev.emitTile_head hq hframes hctx hfseq hentry] at hemitted
  exact ⟨_, execTileEmitted_eq ((congrArg SrvSt.returns hemitted.srv).trans hloans), rfl, hemitted⟩

end Sys2Proof.Machine
end

section
/-!
TILE_DECODED (R244): the next tile of an offload frame.
-/
namespace Sys2Proof.Machine

theorem leNat_lt (l : List Byte) : leNat l < 256 ^ l.length := by
  induction l with
  | nil => exact Nat.one_pos
  | cons b l ih =>
    have hb : b.toNat < 256 := b.isLt
    rw [leNat, List.length_cons, Nat.pow_succ]
    omega

/-- The context of a job is one byte of its descriptor. -/
theorem OffJob.ctx_lt (j : OffJob) : j.ctx < 256 := by
  have hlen : (sliceBytes j.desc 0x19 1).length = 1 := by
    simp only [sliceBytes, List.length_append, List.length_take, List.length_replicate]
    omega
  have h := leNat_lt (sliceBytes j.desc 0x19 1)
  rw [hlen] at h
  exact h

/-! ### A job that waits for tiles -/

/-- A job that has read everything has nothing to parse, to start or to read while its oldest frame lacks tiles. -/
theorem Dev.offPump_waits {d : Dev} {j : OffJob} {f : OffFrame} {rest : List OffFrame} (hjob : d.recd.job = some j)
    (hphase : j.phase = 2) (hflight : j.flight = f :: rest) (hnext : f.next < f.total) : d.offPump = d := by
  have hparse : ∀ fuel, Dev.offParse fuel d = d := fun fuel => by
    cases fuel with
    | zero => rfl
    | succ fuel =>
      unfold Dev.offParse
      simp [hjob, hphase]
  have hstart : ∀ fuel, Dev.offStart fuel d = d := fun fuel => by
    cases fuel with
    | zero => rfl
    | succ fuel =>
      have htotal : f.total ≠ 0 := by omega
      unfold Dev.offStart
      simp [hjob, hflight, htotal, hnext]
  have hread : d.offRead = d := by
    unfold Dev.offRead
    simp [hjob, hphase]
  rw [Dev.offPump, hparse, hstart, hread]

/-! ### The next tile -/

/-- The outcome of the tile that frame `f` of job `j` waits for. -/
def Dev.tileResult (d : Dev) (j : OffJob) (f : OffFrame) (t : DecTile) : KrcResult :=
  let w := (d.activeWH j.ctx).1
  let h := (d.activeWH j.ctx).2
  krcDecode (min 256 (w - f.next % tileCols w * 256)) (min 64 (h - f.next / tileCols w * 64)) t.bytes

/-- Frame `f` with the samples `px` of its next tile. -/
def OffFrame.tileIn (f : OffFrame) (px : List Nat) (bad : Bool) : OffFrame :=
  { f with next := f.next + 1, bad := f.bad || bad, plane := Sparse.put (fun _ => []) f.plane f.next px,
           tiles := f.tiles.filter (fun t => t.idx != f.next) }

/-- Job `j`, whose one frame in flight is `f`, after the next tile. -/
def OffJob.tileIn (j : OffJob) (f : OffFrame) (px : List Nat) (bad : Bool) : OffJob :=
  { j with flight := [f.tileIn px bad], bad := j.bad + b2n bad }

/-- Frame `f` is the one whose next tile is decoded. -/
theorem OffJob.find_next {j : OffJob} {f : OffFrame} {t : DecTile} (hflight : j.flight = [f]) (hnext : f.next < f.total)
    (htile : f.tiles.find? (fun t => t.idx == f.next) = some t) :
    j.flight.find? (fun f => decide (f.next < f.total) && (f.ready || f.tiles.any (fun t => t.idx == f.next))) = some f := by
  have hany : f.tiles.any (fun t => t.idx == f.next) = true :=
    List.any_eq_true.mpr ⟨t, List.mem_of_find?_eq_some htile, List.find?_some (p := fun t : DecTile => t.idx == f.next) htile⟩
  simp only [hflight, List.find?_cons, hnext, hany, decide_true, Bool.or_true, Bool.and_self]

/-- A bad tile of context `n` is counted and reported (R235, R255). -/
def Dev.badTile (d : Dev) (n fseq i c : Nat) : Dev :=
  (d.bump (F.ZE_CNT_BAD_TILES n)).limited n 0x0B01 (fun d => d.eventCtx 0x0B01 sevNotice n n [u32 fseq, u32 i, u8 c])

theorem Dev.badTile_recd (d : Dev) (n fseq i c : Nat) : (d.badTile n fseq i c).recd = d.recd :=
  (Dev.limited_keeps (p := Dev.recd) (fun _ _ _ => rfl) (fun _ => Dev.Touches.recd (Dev.eventCtx_reports _ _ _ _ _ _)) _ _ _).trans
    (d.bump_recd _)

theorem Dev.badTile_count (d : Dev) {n : Nat} (hn : n < 256) (fseq i c : Nat) :
    (d.badTile n fseq i c).get (F.ZE_CNT_BAD_TILES n) = (d.get (F.ZE_CNT_BAD_TILES n) + 1) % 65536 := by
  have hreg : R.ZE_CNT n ∉ reportRegs :=
    not_mem_reportRegs (by simp only [R.ZE_CNT]; omega) (by simp only [R.ZE_CNT]; omega)
  refine (Dev.limited_keeps (p := fun d => d.get (F.ZE_CNT_BAD_TILES n)) (fun _ _ _ => rfl) (fun d => ?_) _ _ _).trans
    (d.get_bump_same _ (Fld.ok_of_ble rfl))
  exact Dev.Touches.get (d.eventCtx_reports _ _ _ _ _) _ hreg

section
variable {d : Dev} {j : OffJob} {f : OffFrame} {t : DecTile} (hjob : d.recd.job = some j) (hphase : j.phase = 2)
  (hflight : j.flight = [f]) (hnext : f.next + 1 < f.total) (htile : f.tiles.find? (fun t => t.idx == f.next) = some t)
include hjob hphase hflight hnext htile

theorem Dev.decodeTile_good {px : List Nat} (hr : d.tileResult j f t = .ok px) : d.decodeTile = d.offHolds (j.tileIn f px false) := by
  have hwait : (d.offHolds (j.tileIn f px false)).offPump = d.offHolds (j.tileIn f px false) :=
    Dev.offPump_waits rfl hphase rfl hnext
  unfold Dev.decodeTile
  unfold Dev.tileResult at hr
  simp only [hjob, OffJob.find_next hflight (Nat.lt_of_succ_lt hnext) htile, htile, hr]
  refine Eq.trans ?_ hwait
  simp [Dev.modJob, Dev.offHolds, hjob, hflight, OffJob.tileIn, OffFrame.tileIn, b2n]

theorem Dev.decodeTile_bad {c : Nat} (hr : d.tileResult j f t = .bad c) :
    ∃ px, d.decodeTile = (d.offHolds (j.tileIn f px true)).badTile j.ctx f.fseq f.next c := by
  unfold Dev.decodeTile
  unfold Dev.tileResult at hr
  simp only [hjob, OffJob.find_next hflight (Nat.lt_of_succ_lt hnext) htile, htile, hr]
  generalize List.replicate _ f.clip.k16black = px
  have hwait : ((d.offHolds (j.tileIn f px true)).badTile j.ctx f.fseq f.next c).offPump =
      (d.offHolds (j.tileIn f px true)).badTile j.ctx f.fseq f.next c :=
    Dev.offPump_waits (congrArg RecSt.job (Dev.badTile_recd _ _ _ _ _)) hphase rfl hnext
  refine ⟨px, Eq.trans ?_ hwait⟩
  simp [Dev.modJob, Dev.offHolds, hjob, hflight, OffJob.tileIn, OffFrame.tileIn, b2n, Dev.badTile]

end

/-! ### TILE_DECODED -/

theorem Dev.decodeTile_idle {d : Dev} (h : d.recd.job = none) : d.decodeTile = d := by
  unfold Dev.decodeTile
  rw [h]

theorem execTileDecoded_active {z : Fin 20} {s : State} (h : s.dev.zeActive.contains z.val = true) :
    execTileDecoded z s = .next { s with dev := s.dev.decodeTile } := by
  rw [execTileDecoded, State.run_eq, if_pos h]

theorem tileDecoded_idle {s : State} {z : Fin 20} (h : s.dev.recd.job = none ∨ s.dev.zeActive.contains z.val = false) :
    Completes (.tileDecoded z) s (fun d => d = s.dev) := by
  refine ⟨_, rfl, rfl, ?_⟩
  dsimp only
  rcases h with hjob | hspare
  · rw [Dev.decodeTile_idle hjob, ite_self]
  · exact if_neg (by rw [hspare]; exact Bool.false_ne_true)

section
variable {s : State} {z : Fin 20} {j : OffJob} {f : OffFrame} {t : DecTile} (hactive : s.dev.zeActive.contains z.val = true)
  (hjob : s.dev.recd.job = some j) (hphase : j.phase = 2) (hflight : j.flight = [f]) (hnext : f.next + 1 < f.total)
  (htile : f.tiles.find? (fun t => t.idx == f.next) = some t)
include hactive hjob hphase hflight hnext htile

theorem tileDecoded_good {px : List Nat} (hr : s.dev.tileResult j f t = .ok px) :
    Completes (.tileDecoded z) s (fun d => d = s.dev.offHolds (j.tileIn f px false)) :=
  ⟨_, execTileDecoded_active hactive, rfl, Dev.decodeTile_good hjob hphase hflight hnext htile hr⟩

theorem tileDecoded_bad {c : Nat} (hr : s.dev.tileResult j f t = .bad c) : Completes (.tileDecoded z) s (fun d =>
    d.get (F.ZE_CNT_BAD_TILES j.ctx) = (s.dev.get (F.ZE_CNT_BAD_TILES j.ctx) + 1) % 65536 ∧
    ∃ px, d.recd.job = some (j.tileIn f px true)) := by
  obtain ⟨px, hdecode⟩ := Dev.decodeTile_bad hjob hphase hflight hnext htile hr
  refine ⟨_, execTileDecoded_active hactive, rfl, ?_⟩
  simp only [hdecode]
  exact ⟨Dev.badTile_count _ j.ctx_lt _ _ _, px, congrArg RecSt.job (Dev.badTile_recd _ _ _ _ _)⟩

end

end Sys2Proof.Machine
end

section
/-!
General jobs start (R248, R249): ZE_JOB_START.
-/
namespace Sys2Proof.Machine

/-! ### The engines at work -/

/-- A mask that is added up bit by bit shows which bits were chosen. -/
theorem sumNat_bits (p : Nat → Bool) (n : Nat) : sumNat ((List.range n).map (fun z => if p z then 2 ^ z else 0)) < 2 ^ n ∧
    ∀ i < n, bitOf (sumNat ((List.range n).map (fun z => if p z then 2 ^ z else 0))) i = p i := by
  induction n with
  | zero => exact ⟨Nat.one_pos, fun i hi => absurd hi (Nat.not_lt_zero i)⟩
  | succ n ih =>
    have hsum : sumNat ((List.range (n + 1)).map (fun z => if p z then 2 ^ z else 0)) =
        sumNat ((List.range n).map (fun z => if p z then 2 ^ z else 0)) + if p n then 2 ^ n else 0 := by
      simp [sumNat, List.range_succ]
    rw [hsum]
    generalize sumNat ((List.range n).map (fun z => if p z then 2 ^ z else 0)) = m at ih
    obtain ⟨hlt, hbits⟩ := ih
    have hn : m.testBit n = false := Nat.testBit_lt_two_pow hlt
    have hpow : 2 ^ (n + 1) = 2 * 2 ^ n := Nat.pow_succ'
    refine ⟨by split <;> omega, fun i hi => ?_⟩
    rcases Nat.lt_succ_iff_lt_or_eq.mp hi with hi | rfl
    · rw [← hbits i hi, bitOf_eq_testBit, bitOf_eq_testBit]
      split
      · simp [testBit_add_two_pow hn, Nat.ne_of_lt hi]
      · rfl
    · rw [bitOf_eq_testBit]
      split
      · next h => simp [testBit_add_two_pow hn, h]
      · next h => simpa [hn] using h

theorem Dev.zeBusy_gen (d : Dev) {z : Nat} (hz : z < 20) :
    bitOf (d.zeBusy.get F.ZE_BUSY_GEN_ZE) z = (elemAt d.ze.jobs z none).isSome := by
  obtain ⟨hlt, hbits⟩ := sumNat_bits (fun z => (elemAt d.ze.jobs z none).isSome) 20
  rw [← hbits z hz, ← Nat.mod_eq_of_lt hlt]
  exact congrArg (bitOf · z) (Dev.get_set_same _ F.ZE_BUSY_GEN_ZE _ (by decide))

theorem Dev.zeBusy_ze (d : Dev) : d.zeBusy.ze = d.ze := d.zeBusy_touches.ze

theorem Dev.zeBusy_only (d : Dev) : d.Only d.zeBusy [F.ZE_BUSY_IMG_ZE, F.ZE_BUSY_GEN_ZE] :=
  ((Dev.Only.refl d _).set (f := F.ZE_BUSY_IMG_ZE) _ List.mem_cons_self (by decide)).set _ (List.mem_cons_of_mem _ List.mem_cons_self)
    (by decide)

/-- Engine `z` has the general job `x`, or none. -/
def Dev.withJob (d : Dev) (z : Nat) (x : Option GenJob) : Dev := { d with ze := { d.ze with jobs := d.ze.jobs.set z x } }

theorem Dev.startJob_ze (d : Dev) (z : Nat) (j : GenJob) :
    (d.startJob z j).ze = { d.ze with jobs := d.ze.jobs.set z (some j) } := Dev.zeBusy_ze (d.withJob z (some j))

/-! ### ZE_JOB_START (R248, R249) -/

theorem zeJobStart_none {s : State} {z : Fin 20} {host : List (Nat × List Byte)}
    (h : s.dev.generalMayStart z = false ∨ s.dev.nextSource = none) : Completes (.zeJobStart z host) s (fun d => d = s.dev) := by
  refine ⟨_, rfl, rfl, ?_⟩
  dsimp only
  rcases h with h | h
  · rw [h]
    rfl
  · rw [h]
    exact ite_self _

theorem zeJobStart_recorder {s : State} {z : Fin 20} {host : List (Nat × List Byte)} {n : Nat} {input : List Byte}
    {rest : List (Nat × List Byte)} (hmay : s.dev.generalMayStart z = true) (hsource : s.dev.nextSource = some 8)
    (hjobs : s.dev.ze.recJobs = (n, input) :: rest) : Completes (.zeJobStart z host) s (fun d =>
      d = s.dev.startJob z { source := 8, desc := [], bufs := [], input := input, status := none }) := by
  refine ⟨_, rfl, rfl, ?_⟩
  simp only [hmay, hsource, hjobs, Bool.not_true, Bool.false_eq_true, if_false, if_true]

theorem Dev.startJob_shows (d : Dev) {z : Nat} (hz : z < 20) (hlen : d.ze.jobs.length = 20) (j : GenJob) :
    (d.withJob z (some j)).Only (d.startJob z j) [F.ZE_BUSY_IMG_ZE, F.ZE_BUSY_GEN_ZE] ∧
    bitOf ((d.startJob z j).get F.ZE_BUSY_GEN_ZE) z = true := by
  refine ⟨Dev.zeBusy_only _, ((d.withJob z (some j)).zeBusy_gen hz).trans ?_⟩
  rw [show elemAt (d.withJob z (some j)).ze.jobs z none = some j from getD_setAt _ _ (by omega)]
  rfl

/-- The descriptor that ring `r` in HOST_WIN has next. -/
def Dev.ringDesc (d : Dev) (r : Nat) : List Byte :=
  d.poolRead poolHost (d.get (F.ZE_RING_LO_ADDR r) + d.get (F.ZE_RING_HI_ADDR r) * 2 ^ 32 + 64 * d.ringPos r) 64

theorem Dev.ringDesc_ze (d : Dev) (x : ZeSt) (r : Nat) : ({ d with ze := x } : Dev).ringDesc r = d.ringDesc r := rfl

/-- Engine `z` takes job `j` of ring `r`. -/
def Dev.ringStarted (d : Dev) (r z : Nat) (j : GenJob) : Dev :=
  ((({ d with ze := { d.ze with lastRing := r } } : Dev).setFlag (F.ZE_RING_STATUS_RUNNING r) true).set
    (F.ZE_RING_STATUS_ZE r) z).startJob z j

/-- Bytes in HOST_WIN can always be read. -/
theorem Dev.spaceBytes_win (d : Dev) (host : List (Nat × List Byte)) (a n : Nat) : ∃ bs, d.spaceBytes host 1 a n = some bs := by
  unfold Dev.spaceBytes
  split
  · exact ⟨_, rfl⟩
  · exact ⟨_, if_pos rfl⟩

/-- A ring whose descriptors, buffer list and input lie in HOST_WIN meets no ring fault, so its next job starts. -/
theorem zeJobStart_ring {s : State} {z : Fin 20} {host : List (Nat × List Byte)} {r : Nat} (hr : r < 8)
    (hmay : s.dev.generalMayStart z = true) (hsource : s.dev.nextSource = some r) (hspace : s.dev.get (F.ZE_RING_CFG_SPACE r) = 1)
    (hwin : leAt (s.dev.ringDesc r) 0xE 2 / 2 % 2 = 1) : Completes (.zeJobStart z host) s (fun d =>
      ∃ j, j.source = r ∧ j.desc = s.dev.ringDesc r ∧ d = s.dev.ringStarted r z j) := by
  refine ⟨_, rfl, rfl, ?_⟩
  have hne : r ≠ 8 := by omega
  beta_reduce
  rw [if_neg (by rw [hmay]; exact Bool.false_ne_true), hsource]
  dsimp -zeta only
  rw [if_neg hne]
  extract_lets ze d ringA
  have hspace' : d.get (F.ZE_RING_CFG_SPACE r) = 1 := hspace
  have hdesc : d.spaceBytes host 1 ringA 64 = some (s.dev.ringDesc r) := congrArg some (s.dev.ringDesc_ze _ r)
  split
  · next hnone =>
    rw [hspace', hdesc] at hnone
    cases hnone
  · next desc hsome =>
    rw [hspace', hdesc] at hsome
    have heq : s.dev.ringDesc r = desc := Option.some.inj hsome
    -- the descriptor stays a variable: its bytes are a read of memory that must not be evaluated
    rw [heq] at hwin
    extract_lets srcSp nbuf listA n'
    have hread : ∀ a n, ∃ bs, d.spaceBytes host srcSp a n = some bs := by
      rw [show srcSp = 1 from hwin]
      exact d.spaceBytes_win host
    split
    · exact ⟨_, rfl, heq.symm, rfl⟩
    · next hnone =>
      obtain ⟨bs, hbs⟩ := hread listA (16 * n')
      cases hbs.symm.trans hnone
    · next hnone _ =>
      obtain ⟨bs, hbs⟩ := hread (leAt desc 0 8) (leAt desc 8 4)
      cases hbs.symm.trans hnone

/-- The registers of a ring lie behind those that show which engines work. -/
theorem ZE_RING_not_busy {a : Nat} (h : 0x500800 ≤ a) : a ∉ [R.ZE_BUSY_IMG, R.ZE_BUSY_GEN] := by
  simp only [R.ZE_BUSY_IMG, R.ZE_BUSY_GEN, List.mem_cons, List.not_mem_nil, or_false]
  omega

theorem Dev.ringStarted_ze (d : Dev) (r z : Nat) (j : GenJob) :
    (d.ringStarted r z j).ze = { d.ze with lastRing := r, jobs := d.ze.jobs.set z (some j) } := by
  rw [Dev.ringStarted, Dev.startJob_ze, Dev.set_ze, Dev.setFlag_ze]

theorem Dev.ringStarted_status (d : Dev) {r z : Nat} (hz : z < 20) (j : GenJob) :
    (d.ringStarted r z j).flag (F.ZE_RING_STATUS_RUNNING r) = true ∧ (d.ringStarted r z j).get (F.ZE_RING_STATUS_ZE r) = z := by
  have hreg : R.ZE_RING_STATUS r ∉ [R.ZE_BUSY_IMG, R.ZE_BUSY_GEN] :=
    ZE_RING_not_busy (Nat.le_add_right_of_le (by decide))
  unfold Dev.ringStarted
  generalize hd1 : ({ d with ze := { d.ze with lastRing := r } } : Dev).setFlag (F.ZE_RING_STATUS_RUNNING r) true = d1
  have hrun : d1.flag (F.ZE_RING_STATUS_RUNNING r) = true := by
    rw [← hd1]
    exact Dev.flag_setFlag_same _ _ _ (Fld.ok_of_ble rfl) rfl
  have hstart := ((d1.set (F.ZE_RING_STATUS_ZE r) z).withJob z (some j)).zeBusy_touches
  constructor
  · exact (hstart.flag _ hreg).trans ((Dev.flag_set_apart d1 _ (F.ZE_RING_STATUS_RUNNING r) z (Fld.ok_of_ble rfl)
      (.inr (.inl (le_refl 4)))).trans hrun)
  · exact (hstart.get _ hreg).trans ((Dev.get_set_same d1 (F.ZE_RING_STATUS_ZE r) z (Fld.ok_of_ble rfl)).trans
      (Nat.mod_eq_of_lt (lt_of_lt_of_le hz (show 20 ≤ 2 ^ 5 by decide))))

end Sys2Proof.Machine
end

section
/-!
General jobs end (R250-R254): GENERAL_JOB_DONE.
-/
namespace Sys2Proof.Machine

/-! ### A ring's job ends (R254) -/

/-- The status that job `j` of a ring ends with (R250-R253). -/
def GenJob.outcome (j : GenJob) : Nat :=
  match j.status with
  | some st => st
  | none => jobOutcome j.ngr (sumNat (j.bufs.map (·.2))) j.input.length (generalStream (leAt j.desc 0xC 1)
      (bitOf (leAt j.desc 0xE 2) 0) j.input)

theorem Dev.spaceWrite_touches (d : Dev) (space a : Nat) (bs : List Byte) : d.Touches [R.MEM_INJ_CTRL] (d.spaceWrite space a bs) := by
  unfold Dev.spaceWrite
  split
  · exact Dev.Touches.refl d _
  · split
    · exact d.poolWrite_touches _ _ _
    · split
      · exact d.emit_touches _
      · exact Dev.Touches.refl d _

theorem Dev.spoilBuffers_touches (d : Dev) (dstSp : Nat) (bufs : List (Nat × Nat)) :
    d.Touches [R.MEM_INJ_CTRL] (d.spoilBuffers dstSp bufs) := by
  unfold Dev.spoilBuffers
  split
  · exact Dev.Touches.refl d _
  · exact foldl_touches (fun d b => (d.poolWrite_touches _ _ _).trans (Dev.Touches.of_same rfl ⟨[], by simp [Dev.tookFree]⟩)) _ d

/-- From `d` to `e` a job of ring `r` with descriptor `desc` ended with status `st` (R254). -/
structure Dev.RingDone (d e : Dev) (r : Nat) (desc : List Byte) (st : Nat) : Prop where
  ze : e.ze = d.ze
  srv : e.srv = d.srv
  ep0Up : e.ep0Up = d.ep0Up
  running : e.flag (F.ZE_RING_STATUS_RUNNING r) = false
  cons : e.get (F.ZE_RING_CONS_IDX r) = (d.get (F.ZE_RING_CONS_IDX r) + 1) % 65536
  last : e.get (F.ZE_RING_STATUS_LAST_STATUS r) = st % 8
  msix : bitOf (leAt desc 0xE 2) 3 = false → d.ep0Up = true → .msix (d.get (F.ZE_RING_CFG_VECTOR r)) ∈ e.out

theorem ZE_RING_not_inject {a : Nat} (h : a < 0xD00000) : a ∉ [R.MEM_INJ_CTRL] := by
  simp only [R.MEM_INJ_CTRL, List.mem_singleton]
  omega

theorem Dev.mem_sendMsix {d : Dev} (h : d.ep0Up = true) (v : Nat) : .msix v ∈ (d.sendMsix v).out := by
  rw [Dev.sendMsix, if_pos h]
  exact List.mem_append_right _ List.mem_cons_self

theorem Dev.jobComplete_done (d : Dev) {r : Nat} (hr : r < 8) (desc : List Byte) (status outLen check lastBuf : Nat) :
    d.RingDone (d.jobComplete r desc status outLen check lastBuf) r desc status := by
  have hcfg : R.ZE_RING_CFG r < 0xD00000 := by simp only [R.ZE_RING_CFG]; omega
  have hcons : R.ZE_RING_CONS r < 0xD00000 := by simp only [R.ZE_RING_CONS]; omega
  have hcs : R.ZE_RING_CONS r ≠ R.ZE_RING_STATUS r := by simp only [R.ZE_RING_CONS, R.ZE_RING_STATUS]; omega
  have hfc : R.ZE_RING_CFG r ≠ R.ZE_RING_CONS r := by simp only [R.ZE_RING_CFG, R.ZE_RING_CONS]; omega
  have hfs : R.ZE_RING_CFG r ≠ R.ZE_RING_STATUS r := by simp only [R.ZE_RING_CFG, R.ZE_RING_STATUS]; omega
  unfold Dev.jobComplete
  extract_lets a rec_ d1 d2
  have h1 : d.Touches [R.MEM_INJ_CTRL] d1 := d.spaceWrite_touches _ _ _
  clear_value d1
  have hvector : d2.get (F.ZE_RING_CFG_VECTOR r) = d.get (F.ZE_RING_CFG_VECTOR r) :=
    calc d2.get (F.ZE_RING_CFG_VECTOR r)
      _ = d1.get (F.ZE_RING_CFG_VECTOR r) := Dev.get_of_word _ ((Dev.word_set_ne _ _ _ hfs).trans
        ((Dev.word_set_ne _ _ _ hfs).trans (Dev.word_set_ne _ _ _ hfc)))
      _ = d.get (F.ZE_RING_CFG_VECTOR r) := h1.get _ (ZE_RING_not_inject hcfg)
  have hup : d2.ep0Up = d.ep0Up := by
    simp only [d2, Dev.setFlag_ep0Up, Dev.set_ep0Up, Dev.bump_ep0Up, h1.ep0Up]
  have hend : d2.Touches [] (if bitOf (leAt desc 14 2) 3 = true then d2 else d2.sendMsix (d2.get (F.ZE_RING_CFG_VECTOR r))) := by
    split
    · exact Dev.Touches.refl d2 _
    · exact d2.sendMsix_touches _
  refine ⟨hend.ze.trans ?_, hend.srv.trans ?_, hend.ep0Up.trans hup, (hend.flag _ List.not_mem_nil).trans ?_,
    (hend.get _ List.not_mem_nil).trans ?_, (hend.get _ List.not_mem_nil).trans ?_, fun hbit hep0 => ?_⟩
  · simp only [d2, Dev.setFlag_ze, Dev.set_ze, Dev.bump_ze, h1.ze]
  · simp only [d2, Dev.setFlag_srv, Dev.set_srv, Dev.bump_srv, h1.srv]
  · exact Dev.flag_setFlag_same _ _ _ (Fld.ok_of_ble rfl) rfl
  · calc d2.get (F.ZE_RING_CONS_IDX r)
      _ = (d1.bump (F.ZE_RING_CONS_IDX r)).get (F.ZE_RING_CONS_IDX r) :=
        Dev.get_of_word _ ((Dev.word_set_ne _ _ _ hcs).trans (Dev.word_set_ne _ _ _ hcs))
      _ = (d1.get (F.ZE_RING_CONS_IDX r) + 1) % 65536 := Dev.get_bump_same _ _ (Fld.ok_of_ble rfl)
      _ = (d.get (F.ZE_RING_CONS_IDX r) + 1) % 65536 := by rw [h1.get _ (ZE_RING_not_inject hcons)]
  · exact (Dev.get_set_apart _ _ (F.ZE_RING_STATUS_LAST_STATUS r) _ (Fld.ok_of_ble rfl) (.inr (.inl (le_refl 3)))).trans
      (Dev.get_set_same _ _ _ (Fld.ok_of_ble rfl))
  · rw [if_neg (by rw [hbit]; exact Bool.false_ne_true), ← hvector]
    exact Dev.mem_sendMsix (hup.trans hep0) _

theorem Dev.RingDone.of_touches {d e f : Dev} {rs : List Nat} {r st : Nat} {desc : List Byte} (hd : e.RingDone f r desc st)
    (h : d.Touches rs e) (hcons : R.ZE_RING_CONS r ∉ rs) (hcfg : R.ZE_RING_CFG r ∉ rs) : d.RingDone f r desc st := by
  have hvector := h.get (F.ZE_RING_CFG_VECTOR r) hcfg
  have hcount := h.get (F.ZE_RING_CONS_IDX r) hcons
  refine ⟨hd.ze.trans h.ze, hd.srv.trans h.srv, hd.ep0Up.trans h.ep0Up, hd.running, ?_, hd.last, fun hbit hep0 => ?_⟩
  · rw [hd.cons, hcount]
  · rw [← hvector]
    exact hd.msix hbit (h.ep0Up.trans hep0)

/-- What happens before the completion of a job leaves its ring's registers as they are. -/
theorem Dev.Touches.jobComplete_done {d e : Dev} (h : d.Touches [R.MEM_INJ_CTRL, R.ZE_BUSY_IMG, R.ZE_BUSY_GEN] e) {r : Nat} (hr : r < 8)
    (desc : List Byte) (status outLen check lastBuf : Nat) : d.RingDone (e.jobComplete r desc status outLen check lastBuf) r desc status := by
  have hreg : ∀ a, 0x500800 ≤ a → a < 0xD00000 → a ∉ [R.MEM_INJ_CTRL, R.ZE_BUSY_IMG, R.ZE_BUSY_GEN] := fun a hlo hhi hmem => by
    rcases List.mem_cons.mp hmem with hinj | hbusy
    · exact ZE_RING_not_inject hhi (List.mem_singleton.mpr hinj)
    · exact ZE_RING_not_busy hlo hbusy
  refine (e.jobComplete_done hr desc status outLen check lastBuf).of_touches h (hreg _ ?_ ?_) (hreg _ ?_ ?_) <;>
    simp only [R.ZE_RING_CONS, R.ZE_RING_CFG] <;> omega

/-- A job of a ring leaves its engine and ends. -/
theorem Dev.jobDone_ring {d : Dev} {z : Nat} {j : GenJob} (hj : d.ze.jobs.getD z none = some j) (hr : j.source < 8) :
    (d.withJob z none).RingDone (d.jobDone z) j.source j.desc j.outcome := by
  have hne : j.source ≠ 8 := by omega
  have hmem : ∀ {e f : Dev}, e.Touches [R.MEM_INJ_CTRL] f → e.Touches [R.MEM_INJ_CTRL, R.ZE_BUSY_IMG, R.ZE_BUSY_GEN] f :=
    fun h => h.mono (by simp)
  unfold Dev.jobDone elemAt
  rw [hj]
  dsimp -zeta only
  extract_lets ze d1 r zlib dstSp out parts d2 used
  have h1 : (d.withJob z none).Touches [R.MEM_INJ_CTRL, R.ZE_BUSY_IMG, R.ZE_BUSY_GEN] d1 :=
    (Dev.zeBusy_touches _).mono (fun _ => List.mem_cons_of_mem _)
  clear_value d1
  rw [if_neg hne]
  split
  · next st hst =>
    have hout : j.outcome = st := by rw [GenJob.outcome, hst]
    extract_lets d3
    rw [hout]
    refine Dev.Touches.jobComplete_done ?_ hr _ _ _ _ _
    unfold d3
    split
    · exact h1
    · exact h1.trans (hmem (d1.spoilBuffers_touches _ _))
  · next hnone =>
    have hout : j.outcome = jobOutcome j.ngr (sumNat (j.bufs.map (·.2))) j.input.length out := by rw [GenJob.outcome, hnone]
    rw [hout]
    split
    · next h =>
      rw [h]
      exact Dev.Touches.jobComplete_done (h1.trans (hmem (foldl_touches (fun d p => d.spaceWrite_touches _ _ _) _ d1))) hr _ _ _ _ _
    · exact Dev.Touches.jobComplete_done (h1.trans (hmem (d1.spoilBuffers_touches _ _))) hr _ _ _ _ _

/-! ### GENERAL_JOB_DONE -/

theorem GenJob.outcome_mod (j : GenJob) : j.outcome % 8 = match j.status with
    | some st => st % 8
    | none => jobOutcome j.ngr (sumNat (j.bufs.map (·.2))) j.input.length (generalStream (leAt j.desc 0xC 1)
        (bitOf (leAt j.desc 0xE 2) 0) j.input) := by
  have hlt : ∀ ngr cap len out, jobOutcome ngr cap len out % 8 = jobOutcome ngr cap len out := fun ngr cap len out => by
    unfold jobOutcome
    dsimp only
    split
    · rfl
    · split <;> rfl
  unfold GenJob.outcome
  split
  · rfl
  · exact hlt _ _ _ _

theorem execGeneralJobDone_eq {z : Fin 20} {s : State} (h : (s.dev.jobDone z).srv.returns = []) :
    execGeneralJobDone z s = .next { s with dev := s.dev.jobDone z } := by
  rw [execGeneralJobDone, State.run_eq, Dev.workReturn, h]
  rfl

theorem Dev.jobDone_idle {d : Dev} {z : Nat} (h : d.ze.jobs.getD z none = none) : d.jobDone z = d := by
  unfold Dev.jobDone elemAt
  rw [h]

theorem generalJobDone_idle {s : State} {z : Fin 20} (hloans : s.dev.srv.returns = []) (h : s.dev.ze.jobs.getD z none = none) :
    Completes (.generalJobDone z) s (fun d => d = s.dev) := by
  have hidle := Dev.jobDone_idle h
  exact ⟨_, execGeneralJobDone_eq (by rw [hidle, hloans]), rfl, hidle⟩

theorem generalJobDone_ring {s : State} {z : Fin 20} {j : GenJob} (hloans : s.dev.srv.returns = [])
    (hj : s.dev.ze.jobs.getD z none = some j) (hr : j.source < 8) :
    Completes (.generalJobDone z) s (fun d => (s.dev.withJob z none).RingDone d j.source j.desc j.outcome) := by
  have hdone := Dev.jobDone_ring hj hr
  exact ⟨_, execGeneralJobDone_eq ((congrArg SrvSt.returns hdone.srv).trans hloans), rfl, hdone⟩

end Sys2Proof.Machine
end

section
/-!
The jobs of rings are aborted, and EP0's link comes and goes (R253, R256): ZE_RING_ABORT, EP0_LINK_DOWN and EP0_LINK_UP.
-/
namespace Sys2Proof.Machine

/-! ### The abort of a ring's job (R253) -/

/-- No engine runs a job of ring `r`. -/
def Dev.ringIdle (d : Dev) (r : Nat) : Prop := ∀ z < 20, ∀ j, d.ze.jobs.getD z none = some j → j.source ≠ r

theorem Dev.abortJob_idle {d : Dev} {r : Nat} (h : d.ringIdle r) : d.abortJob r = d := by
  unfold Dev.abortJob
  split
  · rfl
  · next z hfind =>
    obtain ⟨hruns, hz, -⟩ := List.find?_range_eq_some.mp hfind
    split at hruns
    · next j hj => exact absurd (beq_iff_eq.mp hruns) (h z (List.mem_range.mp hz) j hj)
    · exact absurd hruns Bool.false_ne_true

/-- A change of the job that engine `z` has. -/
theorem modifyAt_job {l : List (Option GenJob)} {z : Nat} {j : GenJob} (f : GenJob → GenJob) (hj : l.getD z none = some j) :
    modifyAt l z (fun x => x.map f) = l.set z (some (f j)) := by
  have hz : l[z]? = some (some j) := by
    rw [List.getD_eq_getElem?_getD, Option.getD_eq_iff] at hj
    simpa using hj
  rw [modifyAt, List.modify_eq_set_getElem?, hz]
  rfl

/-- Engine `z`'s job ends ABORTED. -/
def Dev.aborted (d : Dev) (z : Nat) (j : GenJob) : Dev := (d.withJob z (some { j with status := some 5 })).jobDone z

section
variable {d : Dev} {r z : Nat} {j : GenJob} (hz : z < 20) (hj : d.ze.jobs.getD z none = some j) (hsource : j.source = r)
  (hfirst : ∀ x < z, d.ze.jobs.getD x none = none)
include hz hj hsource hfirst

theorem Dev.abortJob_first : d.abortJob r = d.aborted z j := by
  unfold Dev.abortJob
  split
  · next hnone =>
    have hidle := List.find?_eq_none.mp hnone z (List.mem_range.mpr hz)
    simp only [elemAt, hj, hsource, beq_self_eq_true, not_true_eq_false] at hidle
  · next x hfind =>
    obtain ⟨hruns, -, hbefore⟩ := List.find?_range_eq_some.mp hfind
    have hx : x = z := by
      rcases Nat.lt_trichotomy x z with hlt | heq | hgt
      · simp only [elemAt, hfirst x hlt, Bool.false_eq_true] at hruns
      · exact heq
      · have hidle := hbefore z hgt
        simp only [elemAt, hj, hsource, beq_self_eq_true, Bool.not_true, Bool.false_eq_true] at hidle
    rw [hx, Dev.aborted, Dev.withJob, ← modifyAt_job (fun x => { x with status := some 5 }) hj]

/-- The job of ring `r` on the first engine that is at work ends ABORTED. -/
theorem Dev.abortJob_runs (hr : r < 8) : (d.withJob z none).RingDone (d.abortJob r) r j.desc 5 := by
  have hlen : z < d.ze.jobs.length := lt_length_of_elemAt_ne (x := none) (by rw [elemAt, hj]; exact Option.some_ne_none j)
  have hheld : (d.withJob z (some { j with status := some 5 })).ze.jobs.getD z none = some { j with status := some 5 } :=
    getD_setAt _ _ hlen
  have hsame : (d.withJob z (some { j with status := some 5 })).withJob z none = d.withJob z none := by
    simp only [Dev.withJob, List.set_set]
  have hdone := Dev.jobDone_ring hheld (by rw [hsource]; exact hr)
  rw [hsame] at hdone
  rw [Dev.abortJob_first hz hj hsource hfirst]
  exact hsource ▸ hdone

end

/-- An engine whose job has been taken has none. -/
theorem getD_set_none {α : Type} {l : List (Option α)} {z x : Nat} (h : x ≠ z → l.getD x none = none) : (l.set z none).getD x none = none := by
  rw [List.getD_eq_getElem?_getD] at h ⊢
  by_cases hx : x = z
  · rw [hx, List.getElem?_set_self']
    cases l[z]? <;> rfl
  · rw [List.getElem?_set_ne (Ne.symm hx)]
    exact h hx

/-! ### ZE_RING_ABORT -/

theorem execZeRingAbort_open {s : State} {r : Fin 8} (h : s.dev.Reaches (R.ZE_RING_CTRL r)) :
    execZeRingAbort r s = .next { s with dev := s.dev.ringAbort r } := by
  rw [execZeRingAbort, State.hostCmd, State.run, Dev.gateWrite_open h]

theorem Dev.ringAbort_get (d : Dev) (r : Nat) : (d.ringAbort r).get (F.ZE_RING_CFG_EN r) = 0 ∧
    (d.ringAbort r).get (F.ZE_RING_CTRL_ABORT r) = 0 ∧
    ∀ f : Fld, f.addr ≠ R.ZE_RING_CFG r → f.addr ≠ R.ZE_RING_CTRL r → (d.ringAbort r).get f = (d.abortJob r).get f := by
  have hne : R.ZE_RING_CFG r ≠ R.ZE_RING_CTRL r := by
    simp only [R.ZE_RING_CFG, R.ZE_RING_CTRL]
    omega
  refine ⟨?_, Dev.get_setFlag_same _ _ _ (Fld.ok_of_ble rfl) rfl, fun f hcfg hctrl => ?_⟩
  · exact (Dev.get_set_apart _ (F.ZE_RING_CTRL_ABORT r) (F.ZE_RING_CFG_EN r) _ (Fld.ok_of_ble rfl) (.inl hne)).trans
      (Dev.get_setFlag_same _ _ _ (Fld.ok_of_ble rfl) rfl)
  · exact Dev.get_of_word f ((Dev.word_set_ne _ _ _ hctrl).trans (Dev.word_set_ne _ _ _ hcfg))

theorem zeRingAbort_idle {s : State} {r : Fin 8} (hreach : s.dev.Reaches (R.ZE_RING_CTRL r)) (h : s.dev.ringIdle r) :
    Completes (.zeRingAbort r) s (fun d => d.get (F.ZE_RING_CFG_EN r) = 0 ∧ d.get (F.ZE_RING_CTRL_ABORT r) = 0 ∧
      s.dev.Only d [F.ZE_RING_CFG_EN r, F.ZE_RING_CTRL_ABORT r]) := by
  obtain ⟨hen, habort, -⟩ := s.dev.ringAbort_get r
  refine ⟨_, execZeRingAbort_open hreach, rfl, hen, habort, ?_⟩
  dsimp only
  rw [Dev.ringAbort, Dev.abortJob_idle h]
  exact ((Dev.Only.refl _ _).set _ List.mem_cons_self (Fld.ok_of_ble rfl)).set _ (List.mem_cons_of_mem _ List.mem_cons_self)
    (Fld.ok_of_ble rfl)

theorem zeRingAbort_runs {s : State} {r : Fin 8} {z : Nat} {j : GenJob} (hreach : s.dev.Reaches (R.ZE_RING_CTRL r)) (hz : z < 20)
    (hj : s.dev.ze.jobs.getD z none = some j) (hsource : j.source = r) (hfirst : ∀ x < z, s.dev.ze.jobs.getD x none = none) :
    Completes (.zeRingAbort r) s (fun d => d.ze.jobs = s.dev.ze.jobs.set z none ∧ d.get (F.ZE_RING_STATUS_LAST_STATUS r) = 5 ∧
      d.get (F.ZE_RING_CONS_IDX r) = (s.dev.get (F.ZE_RING_CONS_IDX r) + 1) % 65536 ∧ d.get (F.ZE_RING_CFG_EN r) = 0) := by
  have hdone := Dev.abortJob_runs hz hj hsource hfirst r.isLt
  obtain ⟨hen, -, hrest⟩ := s.dev.ringAbort_get r
  refine ⟨_, execZeRingAbort_open hreach, rfl, congrArg ZeSt.jobs hdone.ze, ?_, ?_, hen⟩
  · exact (hrest _ (by simp only [F.ZE_RING_STATUS_LAST_STATUS, R.ZE_RING_STATUS, R.ZE_RING_CFG]; omega)
      (by simp only [F.ZE_RING_STATUS_LAST_STATUS, R.ZE_RING_STATUS, R.ZE_RING_CTRL]; omega)).trans hdone.last
  · exact (hrest _ (by simp only [F.ZE_RING_CONS_IDX, R.ZE_RING_CONS, R.ZE_RING_CFG]; omega)
      (by simp only [F.ZE_RING_CONS_IDX, R.ZE_RING_CONS, R.ZE_RING_CTRL]; omega)).trans hdone.cons

/-! ### EP0's link (R253, R256) -/

/-- EP0's link is down. -/
def Dev.ep0Down (d : Dev) : Dev := { d with ep0Up := false }

/-- What the loss of the link does to ring `r`: a job of a ring that lies in host space is aborted. -/
def Dev.ringCut (d : Dev) (r : Nat) : Dev := if d.flag (F.ZE_RING_CFG_SPACE r) then d else d.abortJob r

theorem execEp0LinkDown_eq (s : State) :
    execEp0LinkDown s = .next { s with dev := (List.range 8).foldl Dev.ringCut s.dev.ep0Down } := rfl

/-- Rings that lie in HOST_WIN or have no job at work notice nothing. -/
theorem Dev.foldl_ringCut_idle {d : Dev} {l : List Nat} (h : ∀ r ∈ l, d.flag (F.ZE_RING_CFG_SPACE r) = true ∨ d.ringIdle r) :
    l.foldl Dev.ringCut d = d := by
  refine List.foldlRecOn (motive := fun e => e = d) l _ rfl (fun e he r hr => ?_)
  rw [he, Dev.ringCut]
  rcases h r hr with hspace | hidle
  · exact if_pos hspace
  · rw [Dev.abortJob_idle hidle, ite_self]

theorem ep0LinkDown_idle {s : State} (h : ∀ z < 20, ∀ j, s.dev.ze.jobs.getD z none = some j → j.source < 8 →
      s.dev.flag (F.ZE_RING_CFG_SPACE j.source) = true) : Completes .ep0LinkDown s (fun d => d = s.dev.ep0Down) := by
  refine ⟨_, execEp0LinkDown_eq s, rfl, Dev.foldl_ringCut_idle (fun r hr => ?_)⟩
  cases hspace : s.dev.flag (F.ZE_RING_CFG_SPACE r) with
  | true => exact .inl hspace
  | false =>
    refine .inr (fun z hz j hj hsource => ?_)
    have hwin := h z hz j hj (hsource ▸ List.mem_range.mp hr)
    rw [hsource, hspace] at hwin
    exact absurd hwin Bool.false_ne_true

/-- The one job at work is of a ring in host space: it is aborted at its ring's turn, and the other rings have none. -/
theorem ep0LinkDown_cuts {s : State} {z : Nat} {j : GenJob} (hz : z < 20) (hj : s.dev.ze.jobs.getD z none = some j)
    (hsource : j.source < 8) (hspace : s.dev.flag (F.ZE_RING_CFG_SPACE j.source) = false)
    (hothers : ∀ x, x ≠ z → s.dev.ze.jobs.getD x none = none) :
    Completes .ep0LinkDown s (fun d => (s.dev.ep0Down.withJob z none).RingDone d j.source j.desc 5) := by
  obtain ⟨before, after, hrange, hbefore⟩ := List.eq_append_cons_of_mem (List.mem_range.mpr hsource)
  have honly : ∀ x j', s.dev.ze.jobs.getD x none = some j' → j' = j := fun x j' hx => by
    by_cases hxz : x = z
    · rw [hxz, hj] at hx
      exact (Option.some.inj hx).symm
    · rw [hothers x hxz] at hx
      cases hx
  have hdone := Dev.abortJob_runs (d := s.dev.ep0Down) hz hj rfl (fun x hx => hothers x (Nat.ne_of_lt hx)) hsource
  have hnone : ∀ x, (s.dev.ep0Down.abortJob j.source).ze.jobs.getD x none = none := fun x => by
    rw [hdone.ze]
    exact getD_set_none (hothers x)
  refine ⟨_, execEp0LinkDown_eq s, rfl, ?_⟩
  dsimp only
  have hcut : s.dev.ep0Down.ringCut j.source = s.dev.ep0Down.abortJob j.source :=
    if_neg (by rw [show s.dev.ep0Down.flag _ = false from hspace]; exact Bool.false_ne_true)
  rw [hrange, List.foldl_append, List.foldl_cons,
    Dev.foldl_ringCut_idle (l := before) (fun r hr => .inr (fun x _ j' hx hr' => hbefore (by rwa [← honly x j' hx, hr']))), hcut,
    Dev.foldl_ringCut_idle (fun r _ => .inr (fun x _ j' hx => by rw [hnone x] at hx; cases hx))]
  exact hdone

end Sys2Proof.Machine
end

section
/-!
Tiles, general jobs and EP0's link, each command in the cases that O55 names.
-/
namespace Sys2Proof.Machine

/-- Settles O55, by what each command does in the case named: nothing that follows the coding of a tile changes the queues, the frames
begun or RAW_RING, a job that has read everything waits for its oldest frame's tiles, and the job of a ring ends in one way, whoever
ends it. -/
theorem tilesAndJobs : Obligations.TilesAndJobs := by
  unfold Obligations.TilesAndJobs
  refine ⟨fun s z hloans => ⟨tileEmitted_idle hloans, fun t rest k e hq hlt hframes hctx hfseq hentry => ?_⟩,
    fun s z => tileDecoded_idle,
    fun s z j f t hactive hjob hphase hflight hnext htile => ⟨fun px hr => ?_, fun c hr => ?_⟩,
    fun s z host => ⟨zeJobStart_none, fun n input rest hmay hsource hjobs hlen => ?_,
      fun r hr hmay hsource hspace hlen hwin => ?_⟩,
    fun s z hloans => ⟨generalJobDone_idle hloans, fun j hj hr => ?_⟩,
    fun s r hreach => ⟨zeRingAbort_idle hreach, fun z hz j hj hsource hfirst => ?_⟩,
    fun s => ep0LinkDown_idle,
    fun s z j hz hj hsource hspace hothers => ?_,
    fun s => ⟨_, rfl, rfl, rfl⟩⟩
  · obtain ⟨u, hstep, hrest, h⟩ := tileEmitted_head hloans hq hlt hframes hctx hfseq hentry
    have hz : z.val < s.dev.ze.queues.length := lt_length_of_elemAt_ne (x := []) (by rw [elemAt, hq]; exact List.cons_ne_nil _ _)
    refine ⟨u, hstep, hrest, ?_, ?_, ?_, h.goesOn⟩
    · rw [h.queues]
      exact getD_setAt rest [] hz
    · rw [← hctx, ← hfseq]
      exact h.raw
    · rw [← hctx, ← hfseq]
      exact h.last
  · obtain ⟨u, hstep, hrest, h⟩ := tileDecoded_good hactive hjob hphase hflight hnext htile hr
    refine ⟨u, hstep, hrest, h.trans ?_⟩
    simp [Dev.offHolds, OffJob.tileIn, OffFrame.tileIn, b2n]
  · obtain ⟨u, hstep, hrest, hcount, px, hafter⟩ := tileDecoded_bad hactive hjob hphase hflight hnext htile hr
    refine ⟨u, hstep, hrest, hcount, ?_⟩
    rw [hafter]
    simp [OffJob.tileIn, OffFrame.tileIn, b2n]
  · obtain ⟨u, hstep, hrest, h⟩ := zeJobStart_recorder (host := host) hmay hsource hjobs
    obtain ⟨honly, hbit⟩ := s.dev.startJob_shows z.isLt hlen { source := 8, desc := [], bufs := [], input := input, status := none }
    have hze := s.dev.startJob_ze z { source := 8, desc := [], bufs := [], input := input, status := none }
    rw [← h] at honly hbit hze
    refine ⟨u, hstep, hrest, hze, ?_, hbit⟩
    rw [hze]
    exact honly
  · obtain ⟨u, hstep, hrest, j, hjs, hjd, h⟩ := zeJobStart_ring (host := host) hr hmay hsource hspace hwin
    have hze := s.dev.ringStarted_ze r z j
    obtain ⟨hrun, hon⟩ := s.dev.ringStarted_status (r := r) z.isLt j
    rw [← h] at hze hrun hon
    have hjob : u.dev.ze.jobs.getD z none = some j := by
      rw [hze]
      exact getD_setAt (some j) none (lt_of_lt_of_eq z.isLt hlen.symm)
    refine ⟨u, hstep, hrest, ?_, congrArg ZeSt.lastRing hze, hrun, hon⟩
    rw [hjob, Option.map_some, hjs, hjd]
    rfl
  · obtain ⟨u, hstep, hrest, h⟩ := generalJobDone_ring hloans hj hr
    exact ⟨u, hstep, hrest, congrArg ZeSt.jobs h.ze, h.running, h.cons, h.last.trans j.outcome_mod, h.msix⟩
  · obtain ⟨u, hstep, hrest, hjobs, hlast, hcons, hen⟩ := zeRingAbort_runs hreach hz hj hsource hfirst
    exact ⟨u, hstep, hrest, by rw [hjobs]; exact getD_set_none (fun h => absurd rfl h), hlast, hcons, hen⟩
  · obtain ⟨u, hstep, hrest, h⟩ := ep0LinkDown_cuts hz hj hsource hspace hothers
    exact ⟨u, hstep, hrest, h.ep0Up, by rw [h.ze]; exact getD_set_none (fun h => absurd rfl h), h.last⟩

end Sys2Proof.Machine
end

section
/-!
The bays of drives and the recorder's registers (R256-R261): a bay's commands, and fields that change beside the recorder's own state.
-/
namespace Sys2Proof.Machine

/-! ### A bay's commands -/

theorem Dev.drive_modDrive (d : Dev) {k : Nat} (f : DriveSt → DriveSt) (h : k < d.recd.drives.length) :
    (d.modDrive k f).drive k = f (d.drive k) := elemAt_modifyAt f {} h

theorem Dev.drive_congr {d e : Dev} (h : e.recd = d.recd) (k : Nat) : e.drive k = d.drive k := by
  rw [Dev.drive, h]
  rfl

theorem Dev.lt_drives_of_up {d : Dev} {k : Nat} (h : (d.drive k).up = true) : k < d.recd.drives.length :=
  lt_length_of_elemAt_ne (x := {}) (fun he => by rw [Dev.drive, he] at h; cases h)

theorem Dev.lt_drives_of_cmds {d : Dev} {k : Nat} (h : (d.drive k).outCmds ≠ []) : k < d.recd.drives.length :=
  lt_length_of_elemAt_ne (x := {}) (fun he => h (by rw [Dev.drive, he]))

/-- A submitted command joins the outstanding ones under the drive's next number (R258). -/
def DriveSt.submitted (x : DriveSt) (c : NvmeCmd) : DriveSt :=
  { x with outCmds := x.outCmds ++ [{ c with num := x.nextNum }], nextNum := x.nextNum + 1 }

theorem Dev.drive_nvmeCmd (d : Dev) {k : Nat} (c : NvmeCmd) (h : k < d.recd.drives.length) :
    (d.nvmeCmd k c).drive k = (d.drive k).submitted c := d.drive_modDrive (fun s => { s with
    outCmds := s.outCmds ++ [{ c with num := (d.drive k).nextNum }], nextNum := s.nextNum + 1 }) h

theorem Dev.modDrive_drives_length (d : Dev) (k : Nat) (f : DriveSt → DriveSt) :
    (d.modDrive k f).recd.drives.length = d.recd.drives.length := List.length_modify _ _ _

/-! ### Registers beside the recorder's own state -/

/-- The recorder's own state is `r`. -/
def Dev.withRecd (d : Dev) (r : RecSt) : Dev := { d with recd := r }

section
variable {d e : Dev} {fs : List Fld}

theorem Dev.Only.recorder (h : d.Only e fs) (r : RecSt) (o : List Output) :
    ({ d with recd := r, out := o } : Dev).Only { e with recd := r, out := o } fs :=
  ⟨congrArg (fun x : Dev => { x with recd := r, out := o }) h.1, h.2.1, h.2.2⟩

theorem Dev.Only.recd (h : d.Only e fs) (r : RecSt) : ({ d with recd := r } : Dev).Only (e.withRecd r) fs :=
  ⟨congrArg (fun x : Dev => { x with recd := r }) h.1, h.2.1, h.2.2⟩

theorem Dev.Only.trans {f : Dev} (h : d.Only e fs) (k : e.Only f fs) : d.Only f fs :=
  ⟨k.1.trans (congrArg (fun x : Dev => { x with regs := f.regs }) h.1), k.2.1.trans h.2.1, h.2.2.trans k.2.2⟩

theorem Dev.Only.mono {gs : List Fld} (h : d.Only e fs) (hs : ∀ f ∈ fs, f ∈ gs) : d.Only e gs := ⟨h.1, h.2.1, h.2.2.mono hs⟩

theorem Dev.Only.flag (h : d.Only e fs) {g : Fld} (hg : g.ok) (ha : ∀ f ∈ fs, g.apart f) : e.flag g = d.flag g := by
  rw [Dev.flag, Dev.flag, h.2.2 g hg ha]

theorem Dev.Only.ite {c : Prop} [Decidable c] {a b : Dev} (ha : d.Only a fs) (hb : d.Only b fs) : d.Only (if c then a else b) fs := by
  split
  · exact ha
  · exact hb

end

/-- A field that reports leave may as well be put before them. -/
theorem Dev.Touches.set {d e : Dev} {rs : List Nat} (h : d.Touches rs e) (f : Fld) (v : Nat) (hf : f.addr ∉ rs) :
    (d.set f v).Touches rs (e.set f v) := by
  refine ⟨?_, fun a ha => ?_, h.eff, h.out⟩
  · exact congrArg (fun x : Dev => { x with regs := (e.set f v).regs }) h.same
  · by_cases haf : a = f.addr
    · rw [haf, Dev.set, Dev.set, Dev.word_setWord_same, Dev.word_setWord_same, h.words _ hf]
    · rw [Dev.word_set_ne e f v haf, Dev.word_set_ne d f v haf, h.words a ha]

end Sys2Proof.Machine
end

section
/-!
Clips are awaited, ended and given lens data (R268, R274, R277): REC_START, REC_STOP and REC_META_QUEUE.
-/
namespace Sys2Proof.Machine

/-! ### REC_START (R274) -/

theorem clip_replicate_none (n : Nat) : elemAt (List.replicate 16 (none : Option ClipSt)) n none = none := by
  rw [elemAt, List.getD_eq_getElem?_getD, List.getElem?_replicate]
  split <;> rfl

theorem execRecStart_open {s : State} (h : s.dev.Reaches R.REC_CTRL) : execRecStart s = .next { s with dev := s.dev.recStart } := by
  rw [execRecStart, State.hostCmd, State.run, Dev.gateWrite_open h]

theorem execRecStop_open {s : State} (h : s.dev.Reaches R.REC_CTRL) : execRecStop s = .next { s with dev := s.dev.recStopCmd } := by
  rw [execRecStop, State.hostCmd, State.run, Dev.gateWrite_open h]

theorem Dev.recStart_idle {d : Dev} (h : d.modeCode ≠ mCapture ∨ d.flag F.REC_CFG_EN = false) : d.recStart = d := by
  refine if_pos ?_
  rcases h with hmode | hen
  · simp [hmode]
  · simp [hen]

/-- The masked contexts whose KRC recording is enabled. -/
def Dev.recContexts (d : Dev) : List Nat := (List.range 16).filter (fun n => bitOf (d.get F.REC_CTX_MASK_MASK) n && d.flag (F.ZE_KRC_EN n))

/-- STATE is FLUSHED no longer (R280). -/
def Dev.flushLeft (d : Dev) : Dev := if d.get F.REC_STATUS_STATE = 4 then d.set F.REC_STATUS_STATE 0 else d

theorem Dev.flushLeft_start (d : Dev) : d.flushLeft.get F.REC_CTRL_START = d.get F.REC_CTRL_START :=
  ite_keeps (p := fun d => d.get F.REC_CTRL_START) (d.get_set_apart _ _ 0 (by decide) (by decide)) rfl

theorem Dev.recAwait_eq (d : Dev) (ns : List Nat) :
    d.recAwait ns = d.flushLeft.withRecd { d.recd with opening := ns, startHeld := false, flushFrom := none } := by
  by_cases hstate : d.get F.REC_STATUS_STATE = 4
  · rw [Dev.flushLeft, if_pos hstate]
    exact if_pos hstate
  · rw [Dev.flushLeft, if_neg hstate]
    exact if_neg hstate

/-- START as REC_START leaves it for the contexts `ns`, and STATE. -/
def Dev.startShown (d : Dev) (ns : List Nat) : Dev :=
  if ns.isEmpty then (d.setFlag F.REC_CTRL_START true).flushLeft.setFlag F.REC_CTRL_START false
  else (d.setFlag F.REC_CTRL_START true).flushLeft

theorem Dev.startShown_start (d : Dev) (ns : List Nat) : (d.startShown ns).get F.REC_CTRL_START = if ns = [] then 0 else 1 := by
  cases ns with
  | nil => exact Dev.get_setFlag_same _ F.REC_CTRL_START false (by decide) rfl
  | cons n ns =>
    rw [if_neg (List.cons_ne_nil n ns)]
    exact (Dev.flushLeft_start _).trans (d.get_setFlag_same F.REC_CTRL_START true (by decide) rfl)

theorem Dev.startShown_only (d : Dev) (ns : List Nat) : d.Only (d.startShown ns) [F.REC_CTRL_START, F.REC_STATUS_STATE] := by
  have hstart : d.Only (d.setFlag F.REC_CTRL_START true) [F.REC_CTRL_START, F.REC_STATUS_STATE] :=
    (Dev.Only.refl d _).set _ (by decide) (by decide)
  have hstate : d.Only (d.setFlag F.REC_CTRL_START true).flushLeft [F.REC_CTRL_START, F.REC_STATUS_STATE] :=
    (hstart.set _ (by decide) (by decide)).ite hstart
  exact (hstate.set _ (by decide) (by decide)).ite hstate

section
variable {d : Dev} (hmode : d.modeCode = mCapture) (hen : d.flag F.REC_CFG_EN = true) (hserves : d.isRefused R.REC_CFG = false)
  (hrecov : d.recd.recov = none)
include hmode hen hserves hrecov

theorem Dev.recStart_enabled :
    ¬ (!(d.modeCode = mCapture && d.flag F.REC_CFG_EN && !d.isRefused 0x600000) || d.recd.recov.isSome) = true := by
  rw [show d.isRefused 0x600000 = false from hserves]
  simp [hmode, hen, hrecov]

theorem Dev.recStart_holds (h : ∃ c, some c ∈ d.recd.clips ∧ c.closing = 1) :
    d.recStart = (d.setFlag F.REC_CTRL_START true).withRecd { d.recd with startHeld := true } := by
  obtain ⟨c, hmem, hclosing⟩ := h
  exact (if_neg (Dev.recStart_enabled hmode hen hserves hrecov)).trans
    (if_pos (List.any_eq_true.mpr ⟨some c, hmem, by simp [hclosing]⟩))

theorem Dev.recStart_awaits (hclips : d.recd.clips = List.replicate 16 none) : d.recStart =
    (d.startShown d.recContexts).withRecd { d.recd with opening := d.recContexts, startHeld := false, flushFrom := none } := by
  have hcontexts : (List.range 16).filter (fun n => bitOf ((d.setFlag F.REC_CTRL_START true).get F.REC_CTX_MASK_MASK) n &&
      (d.setFlag F.REC_CTRL_START true).flag (F.ZE_KRC_EN n) && ((d.setFlag F.REC_CTRL_START true).clip? n).isNone) = d.recContexts := by
    refine List.filter_congr (fun n hn => ?_)
    have hkrc : (F.ZE_KRC_EN n).addr ≠ R.REC_CTRL := by
      have := List.mem_range.mp hn
      simp only [F.ZE_KRC_EN, R.ZE_KRC, R.REC_CTRL]
      omega
    have hnone : ((d.setFlag F.REC_CTRL_START true).clip? n).isNone = true := by
      rw [Dev.clip?, Dev.setFlag_recd, hclips]
      exact Option.isNone_iff_eq_none.mpr (clip_replicate_none n)
    rw [hnone, Bool.and_true, Dev.setFlag, Dev.get_of_word F.REC_CTX_MASK_MASK (d.word_set_ne F.REC_CTRL_START _ (by decide)),
      Dev.flag_of_word (F.ZE_KRC_EN n) (d.word_set_ne F.REC_CTRL_START _ hkrc)]
  have hopen : ¬ (d.setFlag F.REC_CTRL_START true).recd.clips.any
      (fun c => match c with | some c => c.closing = 1 || c.ending.isSome | none => false) = true := by
    rw [Dev.setFlag_recd, hclips]
    decide
  rw [Dev.recStart, if_neg (Dev.recStart_enabled hmode hen hserves hrecov)]
  refine (if_neg hopen).trans ?_
  dsimp only
  rw [hcontexts, Dev.recAwait_eq]
  cases h : d.recContexts with
  | nil => rfl
  | cons n ns => rfl

end

/-! ### REC_STOP (R277) -/

theorem Dev.recStopCmd_idle {d : Dev} (h : d.recd.clips = List.replicate 16 none) :
    d.recStopCmd = (d.setFlag F.REC_CTRL_START false).withRecd { d.recd with opening := [], startHeld := false } := by
  refine if_neg ?_
  rw [h]
  decide

/-- No clip is awaited and no START is held. -/
def Dev.noneAwaited (d : Dev) : Dev := d.withRecd { d.recd with opening := [], startHeld := false }

/-- What a STOP with `dflags` does to the clip of context `n`. -/
def Dev.stopClip (dflags : Nat) (d : Dev) (n : Nat) : Dev :=
  match d.clip? n with
  | some c => if c.closing = 1 then d else (d.setClip n (some { c with ending := some dflags })).recPump n
  | none => d

theorem Dev.recStop_eq (d : Dev) (dflags : Nat) : d.recStop dflags false =
    (List.range 16).foldl (Dev.stopClip dflags) d.noneAwaited := rfl

theorem Dev.foldl_stopClip_none {d : Dev} {l : List Nat} (h : ∀ n ∈ l, d.clip? n = none) (dflags : Nat) :
    l.foldl (Dev.stopClip dflags) d = d := by
  refine List.foldlRecOn (motive := fun e => e = d) l _ rfl (fun e he n hn => ?_)
  rw [he, Dev.stopClip, h n hn]

/-- A clip whose META blobs wait for their compression takes no frame and does not close (R269). -/
theorem Dev.recPump_blobs {d : Dev} {n : Nat} {c : ClipSt} (hclip : d.clip? n = some c) (hblobs : c.blobs ≠ []) : d.recPump n = d := by
  have hwaits : c.blobs.isEmpty = false := by simpa using hblobs
  unfold Dev.recPump Dev.recAdvance
  rw [hclip]
  cases elemAt d.recd.frames n [] with
  | nil =>
    cases hending : c.ending with
    | none => simp only [hending]
    | some flags => simp only [hending, hwaits, Bool.false_eq_true, if_false]
  | cons f rest => simp only [hwaits, Bool.and_false, Bool.false_eq_true, if_false]

theorem clip_set_none (c : Option ClipSt) {n m : Nat} (hne : m ≠ n) :
    elemAt ((List.replicate 16 (none : Option ClipSt)).set n c) m none = none := by
  rw [elemAt, List.getD_eq_getElem?_getD, List.getElem?_set_ne (Ne.symm hne), ← List.getD_eq_getElem?_getD]
  exact clip_replicate_none m

/-- Where only context `n` has a clip, a STOP ends that one, in its context's turn. -/
theorem Dev.foldl_stopClip_single {d : Dev} {n : Nat} {c : ClipSt} (hn : n < 16)
    (hclips : d.recd.clips = (List.replicate 16 none).set n (some c)) (hclosing : c.closing ≠ 1) (hblobs : c.blobs ≠ []) (dflags : Nat) :
    (List.range 16).foldl (Dev.stopClip dflags) d = d.setClip n (some { c with ending := some dflags }) := by
  have hclip : d.clip? n = some c := by
    rw [Dev.clip?, hclips]
    exact getD_setAt _ _ (by simpa using hn)
  have hlen : n < d.recd.clips.length := by simpa [hclips] using hn
  have hstop : Dev.stopClip dflags d n = d.setClip n (some { c with ending := some dflags }) := by
    rw [Dev.stopClip, hclip]
    exact (if_neg hclosing).trans (Dev.recPump_blobs (getD_setAt _ _ hlen) hblobs)
  obtain ⟨before, after, hrange⟩ := List.append_of_mem (List.mem_range.mpr hn)
  have hothers : n ∉ before ++ after :=
    (List.nodup_cons.mp (List.nodup_middle.mp (hrange ▸ List.nodup_range : (before ++ n :: after).Nodup))).1
  obtain ⟨hbefore, hafter⟩ := not_or.mp (fun h => hothers (List.mem_append.mpr h))
  rw [hrange, List.foldl_append, List.foldl_cons, Dev.foldl_stopClip_none (d := d), hstop, Dev.foldl_stopClip_none]
  · intro m hm
    have hne : m ≠ n := fun h => hafter (h ▸ hm)
    rw [Dev.clip?, Dev.setClip, hclips]
    exact (congrArg (elemAt · m none) (List.set_set _)).trans (clip_set_none _ hne)
  · intro m hm
    rw [Dev.clip?, hclips]
    exact clip_set_none _ (fun h => hbefore (h ▸ hm))

theorem Dev.recStopCmd_ends {d : Dev} {n : Nat} {c : ClipSt} (hn : n < 16) (hclips : d.recd.clips = (List.replicate 16 none).set n (some c))
    (hclosing : c.closing ≠ 1) (hblobs : c.blobs ≠ []) : d.recStopCmd = (d.setFlag F.REC_CTRL_STOP true).withRecd { d.recd with
      opening := [], startHeld := false, clips := (List.replicate 16 none).set n (some { c with ending := some 0 }) } := by
  have hsome : d.recd.clips.any (·.isSome) = true := by
    rw [hclips]
    exact List.any_eq_true.mpr ⟨some c, List.mem_set (by simpa using hn) _, rfl⟩
  have hset : setAt d.recd.clips n (some { c with ending := some 0 }) =
      (List.replicate 16 none).set n (some { c with ending := some 0 }) := by
    rw [hclips]
    exact List.set_set _
  have hclips' : (d.setFlag F.REC_CTRL_STOP true).noneAwaited.recd.clips = (List.replicate 16 none).set n (some c) := hclips
  rw [Dev.recStopCmd, if_pos hsome, Dev.recStop_eq, Dev.foldl_stopClip_single hn hclips' hclosing hblobs, ← hset]
  rfl

/-! ### REC_META_QUEUE (R268) -/

theorem execRecMetaQueue_open {s : State} (h : s.dev.Reaches R.REC_META_CTRL) (mask len : Nat) :
    execRecMetaQueue mask len s = .next { s with dev := s.dev.recMeta mask len } := by
  rw [execRecMetaQueue, State.hostCmd, State.run, Dev.gateWrite_open h]

/-- What a pool reads depends on the memory and on MEM's registers alone. -/
theorem Dev.poolRead_congr {d e : Dev} (hmem : e.mem = d.mem) (hword : ∀ a, 0xD00000 ≤ a → e.word a = d.word a) (n o len : Nat) :
    e.poolRead n o len = d.poolRead n o len := by
  have hget : ∀ f : Fld, 0xD00000 ≤ f.addr → e.get f = d.get f := fun f h => Dev.get_of_word f (hword _ h)
  have hform : e.poolForm n = d.poolForm n := by
    rw [Dev.poolForm, Dev.poolForm, hget _ (Nat.le_add_right_of_le (by decide)), hget _ (Nat.le_add_right_of_le (by decide)),
      hget (F.MEM_POOL_CFG_HOME n) (Nat.le_add_right_of_le (by decide))]
  have hbase : e.poolBase n = d.poolBase n := congrArg (· * 2 ^ 20) (hget _ (Nat.le_add_right_of_le (by decide)))
  have hsize : e.poolSize n = d.poolSize n := congrArg (· * 2 ^ 20) (hget _ (Nat.le_add_right_of_le (by decide)))
  have hloc : ∀ h l, e.locOk h l = d.locOk h l := fun h l => by
    rw [Dev.locOk, Dev.pcOk, Dev.flag, hget _ (Nat.le_add_right_of_le (by decide)), hget _ (Nat.le_add_right_of_le (by decide))]
    rfl
  have hcell : ∀ h l, e.cell h l = d.cell h l := fun h l => by rw [Dev.cell, hmem]; rfl
  have hpoison : ∀ h l, e.poisoned h l = d.poisoned h l := fun h l => by rw [Dev.poisoned, hmem]; rfl
  have hlocate : ∀ o, e.locate n o = d.locate n o := fun o => by
    rw [Dev.locate, Dev.locate, hform, hbase]
  have hstripe : ∀ x b i, e.stripeByte n x b i = d.stripeByte n x b i := fun x b i => by
    simp only [Dev.stripeByte, hbase, hloc, hcell]
  have hstored : ∀ o, e.storedByte n o = d.storedByte n o := fun o => by
    rw [Dev.storedByte, Dev.storedByte, hlocate, hform]
    simp only [hpoison, hstripe, hloc, hcell]
  have hbyte : ∀ o, e.poolByte n o = d.poolByte n o := fun o => by
    rw [Dev.poolByte, Dev.poolByte, Dev.bufOf?, Dev.bufOf?, hform, hmem, hstored]
  simp only [Dev.poolRead, hsize, hbyte]

section
variable (takes : Nat → Bool) (data : List Byte)

/-- The clip of context `n` with the LENS record of `data`, where the context takes it. -/
def ClipSt.withLens (n : Nat) (c : ClipSt) : ClipSt := if takes n = true then { c with lens := c.lens ++ [data] } else c

/-- What a queued LENS record of `data` does to the clip of context `n`. -/
def Dev.lensClip (d : Dev) (n : Nat) : Dev :=
  match takes n, d.clip? n with
  | true, some c => d.setClip n (some { c with lens := c.lens ++ [data] })
  | _, _ => d

theorem Dev.lensClip_same (d : Dev) (n : Nat) : (d.lensClip takes data n).clip? n = (d.clip? n).map (ClipSt.withLens takes data n) := by
  unfold Dev.lensClip ClipSt.withLens
  cases takes n with
  | false => simp
  | true =>
    cases hclip : d.clip? n with
    | none => simp [hclip]
    | some c =>
      have hlen : n < d.recd.clips.length := lt_length_of_elemAt_ne (x := none) (fun h => by rw [Dev.clip?, h] at hclip; cases hclip)
      exact getD_setAt _ _ hlen

theorem Dev.lensClip_ne (d : Dev) {n m : Nat} (h : m ≠ n) : (d.lensClip takes data n).clip? m = d.clip? m := by
  unfold Dev.lensClip
  split
  · simp [Dev.clip?, Dev.setClip, elemAt, setAt, List.getD_eq_getElem?_getD, Ne.symm h]
  · rfl

theorem Dev.lensClip_eq (d : Dev) (n : Nat) :
    d.lensClip takes data n = d.withRecd { d.recd with clips := (d.lensClip takes data n).recd.clips } := by
  unfold Dev.lensClip
  split <;> rfl

theorem Dev.foldl_lensClip_eq (l : List Nat) (d : Dev) : l.foldl (Dev.lensClip takes data) d =
    d.withRecd { d.recd with clips := (l.foldl (Dev.lensClip takes data) d).recd.clips } := by
  refine List.foldlRecOn (motive := fun e => e = d.withRecd { d.recd with clips := e.recd.clips }) l _ rfl (fun e he n _ => ?_)
  have hstep := e.lensClip_eq takes data n
  generalize e.lensClip takes data n = e' at hstep ⊢
  rw [he] at hstep
  exact hstep

theorem Dev.foldl_lensClip_clip {l : List Nat} (hl : l.Nodup) (d : Dev) (m : Nat) : (l.foldl (Dev.lensClip takes data) d).clip? m =
    if m ∈ l then (d.clip? m).map (ClipSt.withLens takes data m) else d.clip? m := by
  induction l generalizing d with
  | nil => rfl
  | cons n l ih =>
    obtain ⟨hn, hl⟩ := List.nodup_cons.mp hl
    rw [List.foldl_cons, ih hl]
    by_cases hm : m = n
    · rw [hm, if_neg hn, if_pos List.mem_cons_self, Dev.lensClip_same]
    · simp only [List.mem_cons, hm, false_or, Dev.lensClip_ne takes data d hm]

end

/-- The LENS record that REC_META_QUEUE names. -/
def Dev.lensData (d : Dev) (len : Nat) : List Byte := d.poolRead poolHost (d.get F.REC_META_OFFSET * 16) (len % 4096)

theorem Dev.recMeta_eq (d : Dev) (mask len : Nat) : d.recMeta mask len =
    (List.range 16).foldl (Dev.lensClip (fun n => bitOf mask n && len % 4096 != 0) (d.lensData len)) (d.set F.REC_META_CTRL_LEN len) := by
  have hword : ∀ a, a ≠ R.REC_META_CTRL → (d.set F.REC_META_CTRL_LEN len).word a = d.word a :=
    fun a => d.word_set_ne F.REC_META_CTRL_LEN len
  have hdata : (d.set F.REC_META_CTRL_LEN len).lensData len = d.lensData len := by
    rw [Dev.lensData, Dev.lensData, Dev.get_of_word F.REC_META_OFFSET (hword _ (by decide))]
    exact Dev.poolRead_congr (d := d) (e := d.set F.REC_META_CTRL_LEN len) rfl
      (fun a ha => hword a (by simp only [R.REC_META_CTRL]; omega)) _ _ _
  rw [← hdata]
  rfl

/-! ### The commands -/

theorem recStart_idle {s : State} (hreach : s.dev.Reaches R.REC_CTRL) (h : s.dev.modeCode ≠ mCapture ∨ s.dev.flag F.REC_CFG_EN = false) :
    Completes .recStart s (fun d => d = s.dev) :=
  ⟨_, execRecStart_open hreach, rfl, Dev.recStart_idle h⟩

section
variable {s : State} (hreach : s.dev.Reaches R.REC_CTRL)
include hreach

section
variable (hmode : s.dev.modeCode = mCapture) (hen : s.dev.flag F.REC_CFG_EN = true) (hserves : s.dev.isRefused R.REC_CFG = false)
  (hrecov : s.dev.recd.recov = none)
include hmode hen hserves hrecov

theorem recStart_awaits (hclips : s.dev.recd.clips = List.replicate 16 none) : Completes .recStart s (fun d =>
    d.recd = { s.dev.recd with opening := s.dev.recContexts, startHeld := false, flushFrom := none } ∧
    d.get F.REC_CTRL_START = (if s.dev.recContexts = [] then 0 else 1) ∧
    ({ s.dev with recd := d.recd } : Dev).Only d [F.REC_CTRL_START, F.REC_STATUS_STATE]) := by
  refine ⟨_, execRecStart_open hreach, rfl, ?_⟩
  dsimp only
  rw [Dev.recStart_awaits hmode hen hserves hrecov hclips]
  exact ⟨rfl, s.dev.startShown_start _, (s.dev.startShown_only _).recd _⟩

theorem recStart_holds (h : ∃ c, some c ∈ s.dev.recd.clips ∧ c.closing = 1) : Completes .recStart s (fun d =>
    d.recd = { s.dev.recd with startHeld := true } ∧ d.get F.REC_CTRL_START = 1 ∧
    ({ s.dev with recd := d.recd } : Dev).Only d [F.REC_CTRL_START]) := by
  refine ⟨_, execRecStart_open hreach, rfl, ?_⟩
  dsimp only
  rw [Dev.recStart_holds hmode hen hserves hrecov h]
  exact ⟨rfl, s.dev.get_setFlag_same _ true (by decide) rfl, ((Dev.Only.refl s.dev _).set _ (by decide) (by decide)).recd _⟩

end

theorem recStop_idle (hclips : s.dev.recd.clips = List.replicate 16 none) : Completes .recStop s (fun d =>
    d.recd = { s.dev.recd with opening := [], startHeld := false } ∧ d.get F.REC_CTRL_START = 0 ∧
    ({ s.dev with recd := d.recd } : Dev).Only d [F.REC_CTRL_START]) := by
  refine ⟨_, execRecStop_open hreach, rfl, ?_⟩
  dsimp only
  rw [Dev.recStopCmd_idle hclips]
  exact ⟨rfl, s.dev.get_setFlag_same _ false (by decide) rfl, ((Dev.Only.refl s.dev _).set _ (by decide) (by decide)).recd _⟩

theorem recStop_ends {n : Nat} {c : ClipSt} (hn : n < 16) (hclips : s.dev.recd.clips = (List.replicate 16 none).set n (some c))
    (hclosing : c.closing ≠ 1) (hblobs : c.blobs ≠ []) : Completes .recStop s (fun d =>
    d.recd = { s.dev.recd with
      opening := [], startHeld := false, clips := (List.replicate 16 none).set n (some { c with ending := some 0 }) } ∧
    d.get F.REC_CTRL_STOP = 1 ∧ ({ s.dev with recd := d.recd } : Dev).Only d [F.REC_CTRL_STOP]) := by
  refine ⟨_, execRecStop_open hreach, rfl, ?_⟩
  dsimp only
  rw [Dev.recStopCmd_ends hn hclips hclosing hblobs]
  exact ⟨rfl, s.dev.get_setFlag_same _ true (by decide) rfl, ((Dev.Only.refl s.dev _).set _ (by decide) (by decide)).recd _⟩

end

theorem ClipSt.withLens_masked (mask len n : Nat) (data : List Byte) :
    ClipSt.withLens (fun n => bitOf mask n && len % 4096 != 0) data n = fun c =>
      if bitOf mask n = true ∧ len % 4096 ≠ 0 then { c with lens := c.lens ++ [data] } else c := by
  funext c
  simp [ClipSt.withLens]

theorem recMetaQueue_queues {s : State} (hreach : s.dev.Reaches R.REC_META_CTRL) (mask len : Nat) :
    Completes (.recMetaQueue mask len) s (fun d =>
      d.get F.REC_META_CTRL_LEN = len % 4096 ∧ d.recd = { s.dev.recd with clips := d.recd.clips } ∧
      (∀ n < 16, d.clip? n = (s.dev.clip? n).map (fun c =>
        if bitOf mask n = true ∧ len % 4096 ≠ 0 then
          { c with lens := c.lens ++ [s.dev.poolRead poolHost (s.dev.get F.REC_META_OFFSET * 16) (len % 4096)] } else c)) ∧
      ({ s.dev with recd := d.recd } : Dev).Only d [F.REC_META_CTRL_LEN]) := by
  refine ⟨_, execRecMetaQueue_open hreach mask len, rfl, ?_⟩
  dsimp only
  have hclip := fun n => Dev.foldl_lensClip_clip (fun n => bitOf mask n && len % 4096 != 0) (s.dev.lensData len) List.nodup_range
    (l := List.range 16) (s.dev.set F.REC_META_CTRL_LEN len) n
  have heq := Dev.foldl_lensClip_eq (fun n => bitOf mask n && len % 4096 != 0) (s.dev.lensData len) (List.range 16)
    (s.dev.set F.REC_META_CTRL_LEN len)
  simp only [← Dev.recMeta_eq, ClipSt.withLens_masked] at hclip heq
  generalize s.dev.recMeta mask len = e at hclip heq ⊢
  have hlen : e.get F.REC_META_CTRL_LEN = len % 4096 := by
    rw [heq]
    exact s.dev.get_set_same F.REC_META_CTRL_LEN len (by decide)
  refine ⟨hlen, congrArg (fun d : Dev => d.recd) heq, fun n hn => (hclip n).trans (if_pos (List.mem_range.mpr hn)), ?_⟩
  have honly := ((Dev.Only.refl s.dev [F.REC_META_CTRL_LEN]).set len List.mem_cons_self (by decide)).recd
    { s.dev.recd with clips := e.recd.clips }
  rw [heq]
  exact honly

end Sys2Proof.Machine
end

section
/-!
Drives come and fail (R256-R258, R261): PCIE_LINK_UP, PCIE_LINK_DOWN and NVME_TIMEOUT.
-/
namespace Sys2Proof.Machine

/-! ### PCIE_LINK_UP (R257) -/

/-- The registers of a bay whose link has trained. -/
def Dev.linkShown (d : Dev) (k gen width : Nat) : Dev :=
  (d.set (F.REC_RP_STATUS_GEN k) gen).set (F.REC_RP_STATUS_WIDTH k) width

theorem Dev.linkShown_shows (d : Dev) (k : Fin 4) (gen width : Nat) :
    (d.linkShown k gen width).get (F.REC_RP_STATUS_GEN k) = gen % 8 ∧
    (d.linkShown k gen width).get (F.REC_RP_STATUS_WIDTH k) = width % 8 ∧
    d.Only (d.linkShown k gen width) [F.REC_RP_STATUS_GEN k, F.REC_RP_STATUS_WIDTH k] := by
  refine ⟨?_, Dev.get_set_same _ _ _ (Fld.ok_of_ble rfl), ((Dev.Only.refl d _).set _ (by simp) (Fld.ok_of_ble rfl)).set _ (by simp)
    (Fld.ok_of_ble rfl)⟩
  exact (Dev.get_set_apart _ (F.REC_RP_STATUS_WIDTH k) (F.REC_RP_STATUS_GEN k) _ (Fld.ok_of_ble rfl) (.inr (.inl (le_refl 5)))).trans
    (Dev.get_set_same _ _ _ (Fld.ok_of_ble rfl))

theorem failed_apart_link (k : Fin 4) : ∀ f ∈ [F.REC_RP_STATUS_GEN k, F.REC_RP_STATUS_WIDTH k], (F.REC_RP_STATUS_FAILED k).apart f := by
  revert k
  decide

/-- The bay of a drive that has come: its initialisation has not begun. -/
def DriveSt.come (x : DriveSt) : DriveSt := { x with up := true, outCmds := [], hdrRead := false, openClip := none }

/-- The link of bay `k` has trained: initialisation begins with Identify where the drive has not failed. -/
def Dev.linkTrained (d : Dev) (k gen width : Nat) : Dev :=
  let e := (d.linkShown k gen width).modDrive k DriveSt.come
  if d.flag (F.REC_RP_STATUS_FAILED k) then e else e.nvme k 1 0 [] none

theorem pcieLinkUp_idle {s : State} {k : Fin 4} (h : s.dev.rootPorts ≤ k.val ∨ (s.dev.drive k).up = true) (gen width : Nat) :
    Completes (.pcieLinkUp k gen width) s (fun d => d = s.dev) :=
  ⟨_, rfl, rfl, if_pos h⟩

theorem execPcieLinkUp_trains {s : State} {k : Fin 4} (hport : k.val < s.dev.rootPorts) (hup : (s.dev.drive k).up = false)
    (gen width : Nat) : execPcieLinkUp k gen width s = .next { s with
      dev := s.dev.linkTrained k (min gen (s.dev.get F.PCIE_CFG_RP_MAX_GEN)) (min width 4) } := by
  have honly := (s.dev.linkShown_shows k (min gen (s.dev.get F.PCIE_CFG_RP_MAX_GEN)) (min width 4)).2.2
  have hfailed := honly.flag (g := F.REC_RP_STATUS_FAILED k) (Fld.ok_of_ble rfl) (failed_apart_link k)
  have hidle : ¬ (s.dev.rootPorts ≤ k.val ∨ (s.dev.drive k).up = true) := by
    rw [hup]
    simpa using hport
  rw [Dev.linkTrained, ← hfailed]
  exact congrArg (fun d => Host.Outcome.next { s with dev := d }) (if_neg hidle)

theorem pcieLinkUp_trains {s : State} {k : Fin 4} (hport : k.val < s.dev.rootPorts) (hup : (s.dev.drive k).up = false)
    (hlen : s.dev.recd.drives.length = 4) (gen width : Nat) : Completes (.pcieLinkUp k gen width) s (fun d =>
      (d.drive k).up = true ∧ (d.drive k).hdrRead = false ∧
        d.get (F.REC_RP_STATUS_GEN k) = min gen (s.dev.get F.PCIE_CFG_RP_MAX_GEN) % 8 ∧
        d.get (F.REC_RP_STATUS_WIDTH k) = min width 4 ∧
        (if s.dev.flag (F.REC_RP_STATUS_FAILED k) = true then (d.drive k).outCmds = [] ∧ d.out = s.dev.out
          else (d.drive k).outCmds = [{ num := (s.dev.drive k).nextNum, kind := 1 }] ∧ d.out = s.dev.out ++ [.nvme k 1 0 []]) ∧
        ({ s.dev with recd := d.recd, out := d.out } : Dev).Only d [F.REC_RP_STATUS_GEN k, F.REC_RP_STATUS_WIDTH k]) := by
  refine ⟨_, execPcieLinkUp_trains hport hup gen width, rfl, ?_⟩
  obtain ⟨hgen, hwidth, honly⟩ := s.dev.linkShown_shows k (min gen (s.dev.get F.PCIE_CFG_RP_MAX_GEN)) (min width 4)
  rw [Nat.mod_eq_of_lt (by omega : min width 4 < 8)] at hwidth
  have hk : k.val < s.dev.recd.drives.length := by omega
  dsimp only [Dev.linkTrained]
  generalize s.dev.linkShown k (min gen (s.dev.get F.PCIE_CFG_RP_MAX_GEN)) (min width 4) = e at hgen hwidth honly ⊢
  have hrecd : e.recd = s.dev.recd := by rw [honly.1]
  have hout : e.out = s.dev.out := by rw [honly.1]
  have hcome : (e.modDrive k DriveSt.come).drive k = (s.dev.drive k).come := by
    rw [e.drive_modDrive _ (hrecd ▸ hk), Dev.drive_congr hrecd]
  by_cases hfailed : s.dev.flag (F.REC_RP_STATUS_FAILED k) = true
  · simp only [if_pos hfailed]
    refine ⟨by rw [hcome]; rfl, by rw [hcome]; rfl, hgen, hwidth, ⟨by rw [hcome]; rfl, hout⟩, ?_⟩
    exact honly.recorder _ _
  · simp only [if_neg hfailed]
    have hsent : ((e.modDrive k DriveSt.come).nvme k 1 0 [] none).drive k = (s.dev.drive k).come.submitted { num := 0, kind := 1 } := by
      rw [Dev.nvme, Dev.drive_nvmeCmd _ _ (by rw [Dev.modDrive_drives_length, hrecd]; exact hk), hcome]
    refine ⟨by rw [hsent]; rfl, by rw [hsent]; rfl, hgen, hwidth, ⟨by rw [hsent]; rfl, ?_⟩, ?_⟩
    · exact congrArg (· ++ [Output.nvme k 1 0 []]) hout
    · exact honly.recorder _ _

/-! ### A drive fails (R261, R278) -/

/-- No clip is open and no flush runs. -/
structure Dev.NoClips (d : Dev) : Prop where
  clips : d.recd.clips = List.replicate 16 none
  flush : d.recd.flushFrom = none

theorem Dev.NoClips.clip {d : Dev} (h : d.NoClips) (n : Nat) : d.clip? n = none := by
  rw [Dev.clip?, h.clips]
  exact clip_replicate_none n

theorem Dev.NoClips.of_recd {d e : Dev} (h : d.NoClips) (hrecd : e.recd = d.recd) : e.NoClips :=
  ⟨hrecd ▸ h.clips, hrecd ▸ h.flush⟩

theorem Dev.NoClips.closeClip {d : Dev} (h : d.NoClips) (n dflags : Nat) (flush : Bool) : d.closeClip n dflags flush = d := by
  rw [Dev.closeClip, h.clip]

theorem Dev.NoClips.clipSettle {d : Dev} (h : d.NoClips) (n : Nat) : d.clipSettle n = d := by
  rw [Dev.clipSettle, h.clip]

theorem Dev.NoClips.flushSettle {d : Dev} (h : d.NoClips) : d.flushSettle = d := by
  rw [Dev.flushSettle, h.flush]

theorem Dev.NoClips.mapClips {d : Dev} (h : d.NoClips) (f : ClipSt → ClipSt) :
    ({ d with recd := { d.recd with clips := d.recd.clips.map (fun c => c.map f) } } : Dev) = d := by
  have hmap : d.recd.clips.map (fun c => c.map f) = d.recd.clips := by
    rw [h.clips]
    rfl
  rw [hmap]

/-- A loop that leaves `d` as it is at each step. -/
theorem foldl_idle {α : Type} {f : Dev → α → Dev} {d : Dev} (h : ∀ x, f d x = d) (l : List α) : l.foldl f d = d := by
  induction l with
  | nil => rfl
  | cons x l ih => rw [List.foldl_cons, h, ih]

theorem Dev.recovTry_disabled {d : Dev} (h : d.flag F.REC_CFG_EN = false) : d.recovTry = d := if_pos (by rw [h]; rfl)

/-- The registers of a bay whose drive has failed, and that the drive is up no longer. -/
def Dev.failShown (d : Dev) (k : Nat) : Dev :=
  let d := (d.setFlag (F.REC_RP_STATUS_FAILED k) true).setFlag (F.REC_RP_STATUS_READY k) false
  d.set F.REC_STATUS_DRIVES_UP (setBit (d.get F.REC_STATUS_DRIVES_UP) k false)

/-- A drive's outstanding commands are given up. -/
def DriveSt.idle (x : DriveSt) : DriveSt := { x with outCmds := [] }

/-- Drive `k` has failed, before the recorder takes note. -/
def Dev.driveDown (d : Dev) (k : Nat) : Dev := (d.failShown k).modDrive k DriveSt.idle

/-- The first group of the layout that drive `k` belongs to. -/
def Dev.groupOf (d : Dev) (k : Nat) : Nat := ((List.range d.recGroups).find? (fun g => (d.groupDrives g).contains k)).getD 0

/-- Drive `k` is in use and its group has a drive that works. -/
def Dev.spared (d : Dev) (k : Nat) : Bool := d.recDrives.contains k && !(d.groupUp (d.groupOf k)).isEmpty

/-- Drive `k` has failed, and the recording is degraded where its group has another. -/
def Dev.driveLost (d : Dev) (k : Nat) : Dev :=
  if (d.driveDown k).spared k then (d.driveDown k).setFlag F.REC_STATUS_DEGRADED true else d.driveDown k

theorem REC_RP_STATUS_ne (k : Nat) : R.REC_CFG ≠ R.REC_RP_STATUS k ∧ R.REC_STATUS ≠ R.REC_RP_STATUS k := by
  simp only [R.REC_CFG, R.REC_STATUS, R.REC_RP_STATUS]
  omega

/-- The failure of a drive leaves REC_CFG, and with it the layout, as it is. -/
theorem Dev.driveDown_cfg (d : Dev) (k : Nat) : (d.driveDown k).word R.REC_CFG = d.word R.REC_CFG :=
  (Dev.word_set_ne _ F.REC_STATUS_DRIVES_UP _ (by decide)).trans
    ((Dev.word_set_ne _ _ _ (REC_RP_STATUS_ne k).1).trans (Dev.word_set_ne _ _ _ (REC_RP_STATUS_ne k).1))

theorem Dev.driveLost_cfg (d : Dev) (k : Nat) : (d.driveLost k).word R.REC_CFG = d.word R.REC_CFG :=
  ite_keeps (p := fun d => d.word R.REC_CFG)
    ((Dev.word_set_ne _ F.REC_STATUS_DEGRADED _ (by decide)).trans (d.driveDown_cfg k)) (d.driveDown_cfg k)

theorem Dev.recDrives_congr {d e : Dev} (h : e.word R.REC_CFG = d.word R.REC_CFG) : e.recDrives = d.recDrives := by
  rw [Dev.recDrives, Dev.recDrives, Dev.get_of_word F.REC_CFG_DRIVES h]

/-- While no clip is open and the recorder is off, the failure of a drive is reported, and the
recorder has nothing to end or to read again. -/
theorem Dev.driveFail_reports {d : Dev} {k : Nat} (hfailed : d.flag (F.REC_RP_STATUS_FAILED k) = false)
    (hen : d.flag F.REC_CFG_EN = false) (hno : d.NoClips) (hreads : ∀ c ∈ (d.drive k).outCmds, c.kind ≠ 11) (cause : Nat) :
    (d.driveLost k).Reports (d.driveFail k cause) := by
  unfold Dev.driveFail
  rw [if_neg (by rw [hfailed]; exact Bool.false_ne_true)]
  extract_lets used reads d1 d2 d3 g d4 d5 d6 d7 d8
  have hused : (d.driveDown k).recDrives.contains k = used := by rw [Dev.recDrives_congr (d.driveDown_cfg k)]
  have hspared : (d.driveDown k).spared k = (used && !(d3.groupUp g).isEmpty) := congrArg (· && !(d3.groupUp g).isEmpty) hused
  have hno3 : d3.NoClips := ⟨hno.clips, hno.flush⟩
  have h7 : used = true → (d.driveLost k).Reports d7 ∧ d7.NoClips := fun hu => by
    unfold d7
    split
    · next hempty =>
      have hlost : d.driveLost k = d3 := if_neg (by rw [hspared, hempty]; simp)
      have hrep : d3.Reports d4 := d3.eventAt_reports _ _ _ _
      have hno4 := hno3.of_recd hrep.recd
      rw [foldl_idle (fun n => hno4.closeClip n 32 false), hlost]
      exact ⟨hrep, hno4⟩
    · next hup =>
      have hlost : d.driveLost k = d3.setFlag F.REC_STATUS_DEGRADED true := if_pos (by
        rw [hspared, hu]
        simpa using hup)
      have hrep : (d3.setFlag F.REC_STATUS_DEGRADED true).Reports d5 := (d3.eventAt_reports _ _ _ _).set _ _ (by decide)
      have hno5 : d5.NoClips := hno3.of_recd hrep.recd
      rw [hno5.mapClips, hlost]
      exact ⟨hrep, hno5⟩
  have h8 : (d.driveLost k).Reports d8 := by
    unfold d8
    split
    · next hu =>
      have hlost : d.driveLost k = d3 := if_neg (by
        rw [hspared, show used = false by simpa using hu]
        exact Bool.false_ne_true)
      rw [hlost]
      exact Dev.Touches.refl d3 _
    · next hu =>
      obtain ⟨hrep, hno7⟩ := h7 (by simpa using hu)
      rw [foldl_idle hno7.clipSettle, hno7.flushSettle]
      exact hrep
  have hen8 : d8.flag F.REC_CFG_EN = false :=
    (h8.flag F.REC_CFG_EN (by decide)).trans ((Dev.flag_of_word F.REC_CFG_EN (d.driveLost_cfg k)).trans hen)
  have hnone : reads = [] := List.filter_eq_nil_iff.mpr (fun c hc => by simp [hreads c hc])
  rw [hnone, List.foldl_nil, Dev.recovTry_disabled hen8]
  exact h8

/-! ### What shows that a drive failed -/

theorem bayStatus_apart (k : Fin 4) : (F.REC_RP_STATUS_FAILED k).apart (F.REC_RP_STATUS_READY k) ∧
    ∀ f ∈ [F.REC_RP_STATUS_FAILED k, F.REC_RP_STATUS_READY k, F.REC_RP_STATUS_GEN k, F.REC_RP_STATUS_WIDTH k, F.REC_RP_CNT_TIMEOUTS k],
      f.apart F.REC_STATUS_DRIVES_UP ∧ f.apart F.REC_STATUS_DEGRADED := by
  revert k
  decide

/-- The registers that show a failure: those of the bay, DRIVES_UP and, where the group has another drive, DEGRADED. -/
def Dev.failNoted (d : Dev) (k : Nat) : Dev :=
  if (d.driveDown k).spared k then (d.failShown k).setFlag F.REC_STATUS_DEGRADED true else d.failShown k

theorem Dev.driveLost_eq (d : Dev) (k : Nat) : d.driveLost k = (d.failNoted k).modDrive k DriveSt.idle := by
  rw [Dev.driveLost, Dev.failNoted]
  split <;> rfl

theorem Dev.failNoted_recd (d : Dev) (k : Nat) : (d.failNoted k).recd = d.recd := ite_keeps (p := Dev.recd) rfl rfl

theorem Dev.driveLost_outCmds (d : Dev) (k : Nat) : ((d.driveLost k).drive k).outCmds = [] := by
  rw [Dev.driveLost_eq]
  by_cases h : k < d.recd.drives.length
  · rw [Dev.drive_modDrive _ _ (by rwa [d.failNoted_recd])]
    rfl
  · rw [Dev.drive, elemAt, List.getD_eq_default]
    rw [Dev.modDrive_drives_length, d.failNoted_recd]
    exact Nat.le_of_not_lt h

theorem Dev.failShown_shows (d : Dev) (k : Fin 4) : (d.failShown k).flag (F.REC_RP_STATUS_FAILED k) = true ∧
    (d.failShown k).flag (F.REC_RP_STATUS_READY k) = false ∧
    d.Only (d.failShown k) [F.REC_RP_STATUS_FAILED k, F.REC_RP_STATUS_READY k, F.REC_STATUS_DRIVES_UP] := by
  obtain ⟨hready, hrest⟩ := bayStatus_apart k
  refine ⟨?_, ?_,
    (((Dev.Only.refl d _).set _ (by simp) (Fld.ok_of_ble rfl)).set _ (by simp) (Fld.ok_of_ble rfl)).set _ (by simp) (by decide)⟩
  · exact (Dev.flag_set_apart _ F.REC_STATUS_DRIVES_UP _ _ (by decide) (hrest _ (by simp)).1).trans
      ((Dev.flag_set_apart _ (F.REC_RP_STATUS_READY k) _ _ (Fld.ok_of_ble rfl) hready).trans
        (Dev.flag_setFlag_same _ _ _ (Fld.ok_of_ble rfl) rfl))
  · exact (Dev.flag_set_apart _ F.REC_STATUS_DRIVES_UP _ _ (by decide) (hrest _ (by simp)).1).trans
      (Dev.flag_setFlag_same _ _ _ (Fld.ok_of_ble rfl) rfl)

theorem Dev.failNoted_only (d : Dev) (k : Fin 4) : d.Only (d.failNoted k)
    [F.REC_RP_STATUS_FAILED k, F.REC_RP_STATUS_READY k, F.REC_STATUS_DRIVES_UP, F.REC_STATUS_DEGRADED] := by
  have hshown := (d.failShown_shows k).2.2.mono (gs := [F.REC_RP_STATUS_FAILED k, F.REC_RP_STATUS_READY k, F.REC_STATUS_DRIVES_UP,
    F.REC_STATUS_DEGRADED]) (by simp)
  exact (hshown.set _ (by simp) (by decide)).ite hshown

theorem Dev.failNoted_flag (d : Dev) (k : Nat) {f : Fld} (h : f.apart F.REC_STATUS_DEGRADED) :
    (d.failNoted k).flag f = (d.failShown k).flag f :=
  ite_keeps (p := fun d => d.flag f) (Dev.flag_set_apart _ F.REC_STATUS_DEGRADED _ _ (by decide) h) rfl

/-! ### The layout of the drives -/

theorem Dev.groupOf_congr {d e : Dev} (h : e.word R.REC_CFG = d.word R.REC_CFG) (k : Nat) :
    e.groupOf k = d.groupOf k ∧ ∀ g, e.groupDrives g = d.groupDrives g := by
  have hlayout : e.get F.REC_CFG_LAYOUT = d.get F.REC_CFG_LAYOUT := Dev.get_of_word F.REC_CFG_LAYOUT h
  have hdrives : ∀ g, e.groupDrives g = d.groupDrives g := fun g => by
    rw [Dev.groupDrives, Dev.groupDrives, hlayout, Dev.recDrives_congr h]
  have hgroups : e.recGroups = d.recGroups := by
    rw [Dev.recGroups, Dev.recGroups, hlayout, Dev.recDrives_congr h]
  refine ⟨?_, hdrives⟩
  rw [Dev.groupOf, Dev.groupOf, hgroups]
  simp only [hdrives]

/-- Whether another drive of the group of drive `k` works. -/
def Dev.spare (d : Dev) (k : Nat) : Bool :=
  (d.groupDrives (d.groupOf k)).any (fun i => i != k && !d.flag (F.REC_RP_STATUS_FAILED i))

/-- A drive in use is spared by another one of its group that works, whatever became of its own registers. -/
theorem Dev.spared_of_spare {d e : Dev} {k : Nat} (hcfg : e.word R.REC_CFG = d.word R.REC_CFG)
    (hothers : ∀ i, i ≠ k → e.word (R.REC_RP_STATUS i) = d.word (R.REC_RP_STATUS i)) (hused : d.recDrives.contains k = true)
    (hspare : d.spare k = true) : e.spared k = true := by
  obtain ⟨i, hi, hworks⟩ := List.any_eq_true.mp hspare
  obtain ⟨hne, hflag⟩ := Bool.and_eq_true_iff.mp hworks
  obtain ⟨hgroup, hdrives⟩ := Dev.groupOf_congr hcfg k
  have hmem : i ∈ e.groupUp (e.groupOf k) := by
    refine List.mem_filter.mpr ⟨?_, ?_⟩
    · rw [hdrives, hgroup]
      exact hi
    · rw [Dev.flag_of_word (F.REC_RP_STATUS_FAILED i) (hothers i (by simpa using hne))]
      exact hflag
  rw [Dev.spared, Dev.recDrives_congr hcfg, hused, List.isEmpty_eq_false_iff_exists_mem.mpr ⟨i, hmem⟩]
  rfl

theorem Dev.driveDown_others (d : Dev) {k i : Nat} (h : i ≠ k) :
    (d.driveDown k).word (R.REC_RP_STATUS i) = d.word (R.REC_RP_STATUS i) := by
  have hne : R.REC_RP_STATUS i ≠ R.REC_RP_STATUS k := by
    simp only [R.REC_RP_STATUS]
    omega
  exact (Dev.word_set_ne _ F.REC_STATUS_DRIVES_UP _ (REC_RP_STATUS_ne i).2.symm).trans
    ((Dev.word_set_ne _ _ _ hne).trans (Dev.word_set_ne _ _ _ hne))

/-! ### A failure as a whole -/

/-- From `d` to `e` drive `k` failed, while fields among `also` changed. -/
structure Dev.DriveFailed (d e : Dev) (k : Nat) (also : List Fld) : Prop where
  failed : e.flag (F.REC_RP_STATUS_FAILED k) = true
  ready : e.flag (F.REC_RP_STATUS_READY k) = false
  cmds : (e.drive k).outCmds = []
  degraded : d.recDrives.contains k = true → d.spare k = true → e.flag F.REC_STATUS_DEGRADED = true
  within_ : ({ d with recd := e.recd } : Dev).Within e
    ([F.REC_RP_STATUS_FAILED k, F.REC_RP_STATUS_READY k, F.REC_STATUS_DRIVES_UP, F.REC_STATUS_DEGRADED] ++ also)

theorem bay_not_reported (k : Fin 4) : R.REC_RP_STATUS k ∉ reportRegs ∧ R.REC_RP_CNT k ∉ reportRegs ∧ R.REC_STATUS ∉ reportRegs := by
  revert k
  decide

theorem Dev.driveLost_get (d : Dev) (k : Fin 4) {f : Fld}
    (h : f ∈ [F.REC_RP_STATUS_GEN k, F.REC_RP_STATUS_WIDTH k, F.REC_RP_CNT_TIMEOUTS k]) :
    (d.driveLost k).get f = d.get f := by
  have hapart : ∀ f ∈ [F.REC_RP_STATUS_GEN k, F.REC_RP_STATUS_WIDTH k, F.REC_RP_CNT_TIMEOUTS k], f.ok ∧
      ∀ g ∈ [F.REC_RP_STATUS_FAILED k, F.REC_RP_STATUS_READY k, F.REC_STATUS_DRIVES_UP, F.REC_STATUS_DEGRADED], f.apart g := by
    clear h
    revert k
    decide
  rw [Dev.driveLost_eq]
  exact (d.failNoted_only k).2.2 f (hapart f h).1 (hapart f h).2

section
variable {d e : Dev} {k : Fin 4} {also : List Fld} (honly : ({ d with recd := e.recd } : Dev).Only e also)
  (hcfg : e.word R.REC_CFG = d.word R.REC_CFG) (hothers : ∀ i, i ≠ k.val → e.word (R.REC_RP_STATUS i) = d.word (R.REC_RP_STATUS i))
  (hfailed : e.flag (F.REC_RP_STATUS_FAILED k) = false) (hen : d.flag F.REC_CFG_EN = false)
  (hno : e.NoClips) (hreads : ∀ c ∈ (e.drive k).outCmds, c.kind ≠ 11) (cause : Nat)
include honly hcfg hothers hfailed hen hno hreads

/-- A drive fails after fields `also` changed, among them none that the layout or another drive shows. -/
theorem Dev.driveFail_fails : d.DriveFailed (e.driveFail k cause) k also := by
  have hrep := Dev.driveFail_reports hfailed ((Dev.flag_of_word F.REC_CFG_EN hcfg).trans hen) hno hreads cause
  generalize e.driveFail k cause = f at hrep ⊢
  obtain ⟨hreg, -, hstatus⟩ := bay_not_reported k
  obtain ⟨hshowsFailed, hshowsReady, -⟩ := e.failShown_shows k
  have hapart := fun f hf => ((bayStatus_apart k).2 f hf).2
  have hlost := e.driveLost_eq k
  refine ⟨(hrep.flag _ hreg).trans ?_, (hrep.flag _ hreg).trans ?_, ?_, fun hused hspare => (hrep.flag _ hstatus).trans ?_, _, ?_, hrep⟩
  · rw [hlost]
    exact (Dev.failNoted_flag _ k (hapart _ (by simp))).trans hshowsFailed
  · rw [hlost]
    exact (Dev.failNoted_flag _ k (hapart _ (by simp))).trans hshowsReady
  · rw [Dev.drive_congr hrep.recd]
    exact Dev.driveLost_outCmds _ k
  · have hspared : (e.driveDown k).spared k = true :=
      Dev.spared_of_spare ((e.driveDown_cfg k).trans hcfg)
        (fun i hi => (e.driveDown_others hi).trans (hothers i hi)) hused hspare
    rw [Dev.driveLost, if_pos hspared]
    exact Dev.flag_setFlag_same _ _ _ (by decide) rfl
  · rw [hrep.recd, hlost]
    exact ((honly.mono (fun f hf => List.mem_append_right _ hf)).trans
      ((e.failNoted_only k).mono (fun f hf => List.mem_append_left _ hf))).recd _

end

theorem Completes.mono {c : Instr} {s : State} {P Q : Dev → Prop} (h : Completes c s P) (hPQ : ∀ d, P d → Q d) : Completes c s Q :=
  let ⟨t, hexec, hpending, hP⟩ := h
  ⟨t, hexec, hpending, hPQ t.dev hP⟩

/-! ### PCIE_LINK_DOWN and NVME_TIMEOUT (R261) -/

theorem pcieLinkDown_idle {s : State} {k : Fin 4} (h : (s.dev.drive k).up = false) : Completes (.pcieLinkDown k) s (fun d => d = s.dev) :=
  ⟨_, rfl, rfl, if_neg (by rw [h]; exact Bool.false_ne_true)⟩

theorem nvmeTimeout_idle {s : State} {k : Fin 4} (h : (s.dev.drive k).outCmds = []) : Completes (.nvmeTimeout k) s (fun d => d = s.dev) :=
  ⟨_, rfl, rfl, if_pos (by rw [h]; rfl)⟩

/-- The bay of a drive whose link is lost. -/
def DriveSt.down (x : DriveSt) : DriveSt := { x with up := false }

theorem execPcieLinkDown_fails {s : State} {k : Fin 4} (h : (s.dev.drive k).up = true) : execPcieLinkDown k s = .next { s with
    dev := ((s.dev.linkShown k 0 0).withRecd (s.dev.modDrive k DriveSt.down).recd).driveFail k 1 } := by
  rw [execPcieLinkDown, State.run_eq, if_pos h]
  rfl

theorem execNvmeTimeout_fails {s : State} {k : Fin 4} (h : (s.dev.drive k).outCmds ≠ []) : execNvmeTimeout k s = .next { s with
    dev := (s.dev.bump (F.REC_RP_CNT_TIMEOUTS k)).driveFail k 2 } := by
  rw [execNvmeTimeout, State.run_eq, if_neg (by simpa using h)]

theorem bayRegs_ne (k i : Nat) : R.REC_CFG ≠ R.REC_RP_CNT k ∧ R.REC_RP_STATUS i ≠ R.REC_RP_CNT k ∧
    (i ≠ k → R.REC_RP_STATUS i ≠ R.REC_RP_STATUS k) := by
  simp only [R.REC_CFG, R.REC_RP_CNT, R.REC_RP_STATUS]
  omega

section
variable {s : State} {k : Fin 4} (hfailed : s.dev.flag (F.REC_RP_STATUS_FAILED k) = false) (hen : s.dev.flag F.REC_CFG_EN = false)
  (hno : s.dev.NoClips) (hreads : ∀ c ∈ (s.dev.drive k).outCmds, c.kind ≠ 11)
include hfailed hen hno hreads

theorem pcieLinkDown_fails (hup : (s.dev.drive k).up = true) : Completes (.pcieLinkDown k) s (fun d => (d.drive k).up = false ∧
    d.get (F.REC_RP_STATUS_GEN k) = 0 ∧ d.get (F.REC_RP_STATUS_WIDTH k) = 0 ∧
    s.dev.DriveFailed d k [F.REC_RP_STATUS_GEN k, F.REC_RP_STATUS_WIDTH k]) := by
  refine ⟨_, execPcieLinkDown_fails hup, rfl, ?_⟩
  dsimp only
  obtain ⟨hgen, hwidth, honly⟩ := s.dev.linkShown_shows k 0 0
  have hword : ∀ a, a ≠ R.REC_RP_STATUS k → (s.dev.linkShown k 0 0).word a = s.dev.word a := fun a ha =>
    (Dev.word_set_ne _ (F.REC_RP_STATUS_WIDTH k) _ ha).trans (Dev.word_set_ne _ (F.REC_RP_STATUS_GEN k) _ ha)
  have hfailed' := (honly.flag (g := F.REC_RP_STATUS_FAILED k) (Fld.ok_of_ble rfl) (failed_apart_link k)).trans hfailed
  generalize s.dev.linkShown k 0 0 = e at hgen hwidth honly hword hfailed' ⊢
  have hcfg := hword _ (REC_RP_STATUS_ne k).1
  have hdrive : (e.withRecd (s.dev.modDrive k DriveSt.down).recd).drive k = (s.dev.drive k).down :=
    s.dev.drive_modDrive DriveSt.down (Dev.lt_drives_of_up hup)
  have hno' : (e.withRecd (s.dev.modDrive k DriveSt.down).recd).NoClips := ⟨hno.clips, hno.flush⟩
  have hreads' : ∀ c ∈ ((e.withRecd (s.dev.modDrive k DriveSt.down).recd).drive k).outCmds, c.kind ≠ 11 := by
    rw [hdrive]
    exact hreads
  have hfails := Dev.driveFail_fails (e := e.withRecd (s.dev.modDrive k DriveSt.down).recd)
    (honly.recd (s.dev.modDrive k DriveSt.down).recd) hcfg (fun i hi => hword _ ((bayRegs_ne k i).2.2 hi)) hfailed' hen hno' hreads' 1
  have hrep := Dev.driveFail_reports (d := e.withRecd (s.dev.modDrive k DriveSt.down).recd) hfailed'
    ((Dev.flag_of_word F.REC_CFG_EN hcfg).trans hen) hno' hreads' 1
  have hlen : k.val < (e.withRecd (s.dev.modDrive k DriveSt.down).recd).recd.drives.length :=
    lt_of_lt_of_eq (Dev.lt_drives_of_up hup) (s.dev.modDrive_drives_length k DriveSt.down).symm
  refine ⟨?_, ?_, ?_, hfails⟩
  · rw [Dev.drive_congr hrep.recd, Dev.driveLost_eq, Dev.drive_modDrive _ _ (by rwa [Dev.failNoted_recd]),
      Dev.drive_congr (Dev.failNoted_recd _ _), hdrive]
    rfl
  · exact (hrep.get (F.REC_RP_STATUS_GEN k) (bay_not_reported k).1).trans ((Dev.driveLost_get _ k (by simp)).trans hgen)
  · exact (hrep.get (F.REC_RP_STATUS_WIDTH k) (bay_not_reported k).1).trans ((Dev.driveLost_get _ k (by simp)).trans hwidth)

theorem nvmeTimeout_fails (hcmds : (s.dev.drive k).outCmds ≠ []) : Completes (.nvmeTimeout k) s (fun d =>
    d.get (F.REC_RP_CNT_TIMEOUTS k) = (s.dev.get (F.REC_RP_CNT_TIMEOUTS k) + 1) % 65536 ∧
    s.dev.DriveFailed d k [F.REC_RP_CNT_TIMEOUTS k]) := by
  refine ⟨_, execNvmeTimeout_fails hcmds, rfl, ?_⟩
  dsimp only
  have hword : ∀ a, a ≠ R.REC_RP_CNT k → (s.dev.bump (F.REC_RP_CNT_TIMEOUTS k)).word a = s.dev.word a := fun a =>
    s.dev.word_set_ne (F.REC_RP_CNT_TIMEOUTS k) _
  have hcfg := hword _ (bayRegs_ne k k).1
  have hfailed' := (Dev.flag_of_word (F.REC_RP_STATUS_FAILED k) (hword _ (bayRegs_ne k k).2.1)).trans hfailed
  have hno' : (s.dev.bump (F.REC_RP_CNT_TIMEOUTS k)).NoClips := hno.of_recd (s.dev.bump_recd _)
  have hreads' : ∀ c ∈ ((s.dev.bump (F.REC_RP_CNT_TIMEOUTS k)).drive k).outCmds, c.kind ≠ 11 := by
    rw [Dev.drive_congr (s.dev.bump_recd _)]
    exact hreads
  have hrep := Dev.driveFail_reports hfailed' ((Dev.flag_of_word F.REC_CFG_EN hcfg).trans hen) hno' hreads' 2
  have honly : ({ s.dev with recd := (s.dev.bump (F.REC_RP_CNT_TIMEOUTS k)).recd } : Dev).Only (s.dev.bump (F.REC_RP_CNT_TIMEOUTS k))
      [F.REC_RP_CNT_TIMEOUTS k] := by
    rw [Dev.bump_recd]
    exact (Dev.Only.refl s.dev _).set _ (by simp) (Fld.ok_of_ble rfl)
  have hfails := Dev.driveFail_fails honly hcfg (fun i _ => hword _ (bayRegs_ne k i).2.1) hfailed' hen hno' hreads' 2
  exact ⟨(hrep.get (F.REC_RP_CNT_TIMEOUTS k) (bay_not_reported k).2.1).trans ((Dev.driveLost_get _ k (by simp)).trans
    (s.dev.get_bump_same _ (Fld.ok_of_ble rfl))), hfails⟩

end

end Sys2Proof.Machine
end

section
/-!
An NVMe command completes (R258-R261): a transient error is retried, and each step of a drive's initialisation leads to the next.
-/
namespace Sys2Proof.Machine

/-- The bay whose command `num` is outstanding no longer. -/
def DriveSt.taken (num : Nat) (x : DriveSt) : DriveSt := { x with outCmds := x.outCmds.filter (fun y => !(y.num == num)) }

/-- Command `num` of drive `k` is outstanding no longer. -/
def Dev.taken (d : Dev) (k num : Nat) : Dev := d.modDrive k (DriveSt.taken num)

/-- A command is submitted after fields changed: the fields stay, and the bay holds the command. -/
theorem Dev.Only.nvmeCmd {d e : Dev} {fs : List Fld} (h : d.Only e fs) {k : Nat} (hlen : k < d.recd.drives.length) (c : NvmeCmd) :
    (∀ f, (e.nvmeCmd k c).get f = e.get f) ∧ (e.nvmeCmd k c).drive k = (d.drive k).submitted c ∧
    ({ d with recd := (e.nvmeCmd k c).recd, out := (e.nvmeCmd k c).out } : Dev).Only (e.nvmeCmd k c) fs := by
  have hrecd : e.recd = d.recd := by rw [h.1]
  exact ⟨fun _ => rfl, by rw [Dev.drive_nvmeCmd _ _ (by rwa [hrecd]), Dev.drive_congr hrecd], h.recorder _ _⟩

theorem nvmeCompletion_idle {s : State} {k : Fin 4} {num : Nat} (h : ∀ c ∈ (s.dev.drive k).outCmds, c.num ≠ num) (status : Fin 3)
    (data : List Byte) : Completes (.nvmeCompletion k num status data) s (fun d => d = s.dev) := by
  have hfind : (s.dev.drive k).outCmds.find? (fun c => c.num == num) = none :=
    List.find?_eq_none.mpr (fun c hc => by simpa using h c hc)
  refine ⟨_, rfl, rfl, ?_⟩
  dsimp only
  rw [hfind]

section
variable {s : State} {k : Fin 4} {num : Nat} {c : NvmeCmd} (hfind : (s.dev.drive k).outCmds.find? (fun c => c.num == num) = some c)
  (data : List Byte)
include hfind

theorem drive_taken : (s.dev.taken k num).drive k = (s.dev.drive k).taken num :=
  s.dev.drive_modDrive _ (Dev.lt_drives_of_cmds (List.ne_nil_of_mem (List.mem_of_find?_eq_some hfind)))

theorem lt_taken_drives : k.val < (s.dev.taken k num).recd.drives.length := by
  rw [Dev.taken, Dev.modDrive_drives_length]
  exact Dev.lt_drives_of_cmds (List.ne_nil_of_mem (List.mem_of_find?_eq_some hfind))

/-- A transient error of a command retried less than twice: it is submitted again. -/
theorem execNvmeCompletion_transient (hretries : c.retries < 2) : execNvmeCompletion k num 1 data s = .next { s with
    dev := ((s.dev.taken k num).bump (F.REC_RP_CNT_RETRIES k)).nvmeCmd k { c with retries := c.retries + 1 } } := by
  rw [execNvmeCompletion, State.run_eq, hfind]
  refine congrArg (fun d => Host.Outcome.next { s with dev := d }) (if_pos ?_)
  exact ⟨rfl, hretries⟩

theorem execNvmeCompletion_identified (hkind : c.kind = 3) : execNvmeCompletion k num 0 data s = .next { s with
    dev := (s.dev.taken k num).nvme k (if (s.dev.drive k).vwc = true then 4 else 5) 0 [] none } := by
  have hvwc : ((s.dev.taken k num).drive k).vwc = (s.dev.drive k).vwc := by
    rw [drive_taken hfind]
    rfl
  rw [execNvmeCompletion, State.run_eq, hfind, ← hvwc]
  simp only [hkind]
  exact congrArg (fun d => Host.Outcome.next { s with dev := d })
    (apply_ite (fun kind => (s.dev.taken k num).nvme k kind 0 [] none) (((s.dev.taken k num).drive k).vwc = true) 4 5).symm

theorem execNvmeCompletion_fua (hkind : c.kind = 5) : execNvmeCompletion k num 0 data s = .next { s with
    dev := (s.dev.taken k num).nvme k 6 0 [] none } := by
  rw [execNvmeCompletion, State.run_eq, hfind]
  simp only [hkind]
  rfl

theorem execNvmeCompletion_lastStep (hkind : c.kind = 6) : execNvmeCompletion k num 0 data s = .next { s with
    dev := (s.dev.taken k num).driveReady k } := by
  rw [execNvmeCompletion, State.run_eq, hfind]
  simp only [hkind]
  rfl

/-- The next step of the initialisation is submitted, and nothing else changes. -/
theorem Dev.nvme_taken {kind : Nat} (hkind : kind ≠ 11) :
    (((s.dev.taken k num).nvme k kind 0 [] none).drive k).outCmds =
      (s.dev.drive k).outCmds.filter (fun y => !(y.num == num)) ++ [{ num := (s.dev.drive k).nextNum, kind := kind }] ∧
    (s.dev.taken k num).nvme k kind 0 [] none = { s.dev with
      recd := ((s.dev.taken k num).nvme k kind 0 [] none).recd, out := s.dev.out ++ [.nvme k kind 0 []] } := by
  constructor
  · rw [Dev.nvme, Dev.drive_nvmeCmd _ _ (lt_taken_drives hfind), drive_taken hfind]
    rfl
  · have hbytes : (if kind = 11 then bytesLE 4 0 else []) = ([] : List Byte) := if_neg hkind
    rw [Dev.nvme, Dev.nvmeCmd]
    dsimp only
    rw [hbytes]
    rfl

theorem nvmeCompletion_retries (hretries : c.retries < 2) : Completes (.nvmeCompletion k num 1 data) s (fun d =>
    d.get (F.REC_RP_CNT_RETRIES k) = (s.dev.get (F.REC_RP_CNT_RETRIES k) + 1) % 65536 ∧
    (d.drive k).outCmds = (s.dev.drive k).outCmds.filter (fun y => !(y.num == num)) ++
      [{ c with num := (s.dev.drive k).nextNum, retries := c.retries + 1 }] ∧
    ({ s.dev with recd := d.recd, out := d.out } : Dev).Only d [F.REC_RP_CNT_RETRIES k]) := by
  have hcount : ((s.dev.taken k num).bump (F.REC_RP_CNT_RETRIES k)).get (F.REC_RP_CNT_RETRIES k) =
      (s.dev.get (F.REC_RP_CNT_RETRIES k) + 1) % 65536 := (s.dev.taken k num).get_bump_same _ (Fld.ok_of_ble rfl)
  have honly : (s.dev.taken k num).Only ((s.dev.taken k num).bump (F.REC_RP_CNT_RETRIES k)) [F.REC_RP_CNT_RETRIES k] :=
    (Dev.Only.refl _ _).set _ (by simp) (Fld.ok_of_ble rfl)
  refine ⟨_, execNvmeCompletion_transient hfind data hretries, rfl, ?_⟩
  dsimp only
  obtain ⟨hget, hdrive, honly⟩ := honly.nvmeCmd (lt_taken_drives hfind) { c with retries := c.retries + 1 }
  generalize ((s.dev.taken k num).bump (F.REC_RP_CNT_RETRIES k)).nvmeCmd k { c with retries := c.retries + 1 } = d at hget hdrive honly ⊢
  rw [hdrive, drive_taken hfind]
  exact ⟨(hget _).trans hcount, rfl, honly⟩

theorem nvmeCompletion_identified (hkind : c.kind = 3) : Completes (.nvmeCompletion k num 0 data) s (fun d =>
    (d.drive k).outCmds = (s.dev.drive k).outCmds.filter (fun y => !(y.num == num)) ++
      [{ num := (s.dev.drive k).nextNum, kind := if (s.dev.drive k).vwc = true then 4 else 5 }] ∧
    d = { s.dev with recd := d.recd, out := s.dev.out ++ [.nvme k (if (s.dev.drive k).vwc = true then 4 else 5) 0 []] }) :=
  ⟨_, execNvmeCompletion_identified hfind data hkind, rfl, Dev.nvme_taken hfind (by split <;> decide)⟩

theorem nvmeCompletion_fua (hkind : c.kind = 5) : Completes (.nvmeCompletion k num 0 data) s (fun d =>
    (d.drive k).outCmds = (s.dev.drive k).outCmds.filter (fun y => !(y.num == num)) ++ [{ num := (s.dev.drive k).nextNum, kind := 6 }] ∧
    d = { s.dev with recd := d.recd, out := s.dev.out ++ [.nvme k 6 0 []] }) :=
  ⟨_, execNvmeCompletion_fua hfind data hkind, rfl, Dev.nvme_taken hfind (by decide)⟩

end

/-- READY and DRIVES_UP of a drive that is initialised. -/
def Dev.readyShown (d : Dev) (k : Nat) : Dev :=
  (d.setFlag (F.REC_RP_STATUS_READY k) true).set F.REC_STATUS_DRIVES_UP
    (setBit ((d.setFlag (F.REC_RP_STATUS_READY k) true).get F.REC_STATUS_DRIVES_UP) k true)

theorem Dev.readyShown_shows (d : Dev) (k : Fin 4) : (d.readyShown k).flag (F.REC_RP_STATUS_READY k) = true ∧
    bitOf ((d.readyShown k).get F.REC_STATUS_DRIVES_UP) k = true ∧
    d.Only (d.readyShown k) [F.REC_RP_STATUS_READY k, F.REC_STATUS_DRIVES_UP] := by
  refine ⟨?_, ?_, ((Dev.Only.refl d _).set _ (by simp) (Fld.ok_of_ble rfl)).set _ (by simp) (by decide)⟩
  · exact (Dev.flag_set_apart _ F.REC_STATUS_DRIVES_UP _ _ (by decide) ((bayStatus_apart k).2 _ (by simp)).1).trans
      (Dev.flag_setFlag_same _ _ _ (Fld.ok_of_ble rfl) rfl)
  · exact (Dev.bitOf_set_setBit _ (f := F.REC_STATUS_DRIVES_UP) (by decide) k.isLt k).trans (by simp)

/-- The bay of a drive without a volume header to read. -/
def DriveSt.headed (x : DriveSt) : DriveSt := { x with hdrRead := true }

/-- Where a file of the host backs the recording, an initialised drive has no header to read. -/
theorem Dev.driveReady_backed {d : Dev} (k : Fin 4) (h : d.flag F.REC_CFG_BACKING = true) :
    d.driveReady k = (d.readyShown k).modDrive k DriveSt.headed := by
  have hword : (d.readyShown k).word R.REC_CFG = d.word R.REC_CFG :=
    (Dev.word_set_ne _ F.REC_STATUS_DRIVES_UP _ (by decide)).trans (Dev.word_set_ne _ _ _ (REC_RP_STATUS_ne k).1)
  exact if_pos ((Dev.flag_of_word F.REC_CFG_BACKING hword).trans h)

theorem nvmeCompletion_readies {s : State} {k : Fin 4} {num : Nat} {c : NvmeCmd}
    (hfind : (s.dev.drive k).outCmds.find? (fun c => c.num == num) = some c) (data : List Byte) (hkind : c.kind = 6)
    (hbacked : s.dev.flag F.REC_CFG_BACKING = true) : Completes (.nvmeCompletion k num 0 data) s (fun d =>
    d.flag (F.REC_RP_STATUS_READY k) = true ∧ bitOf (d.get F.REC_STATUS_DRIVES_UP) k = true ∧
    (d.drive k).hdrRead = true ∧ (d.drive k).outCmds = (s.dev.drive k).outCmds.filter (fun y => !(y.num == num)) ∧
    ({ s.dev with recd := d.recd } : Dev).Only d [F.REC_RP_STATUS_READY k, F.REC_STATUS_DRIVES_UP]) := by
  have hlen := lt_taken_drives hfind
  have htaken := drive_taken hfind
  refine ⟨_, execNvmeCompletion_lastStep hfind data hkind, rfl, ?_⟩
  dsimp only
  rw [Dev.driveReady_backed (d := s.dev.taken k num) k hbacked]
  obtain ⟨hready, hup, honly⟩ := (s.dev.taken k num).readyShown_shows k
  generalize (s.dev.taken k num).readyShown k = e at hready hup honly ⊢
  have hrecd : e.recd = (s.dev.taken k num).recd := by rw [honly.1]
  have hdrive : (e.modDrive k DriveSt.headed).drive k = ((s.dev.drive k).taken num).headed := by
    rw [Dev.drive_modDrive _ _ (by rwa [hrecd]), Dev.drive_congr hrecd, htaken]
  refine ⟨hready, hup, ?_, ?_, honly.recd _⟩
  · rw [hdrive]
    rfl
  · rw [hdrive]
    rfl

end Sys2Proof.Machine
end

section
/-!
The offload ring (R345, R348): a job starts by reading its directory, or is refused, and a job that ends is completed and counted.
-/
namespace Sys2Proof.Machine

/-! ### OFFLOAD_JOB_START (R345) -/

theorem offloadJobStart_idle {s : State} (h : s.dev.offMay = false) : Completes .offloadJobStart s (fun d => d = s.dev) :=
  ⟨_, rfl, rfl, if_neg (by rw [h]; exact Bool.false_ne_true)⟩

theorem execOffloadJobStart_begins {s : State} (h : s.dev.offMay = true) :
    execOffloadJobStart s = .next { s with dev := s.dev.offBegin } := by
  rw [execOffloadJobStart, State.run_eq, if_pos h]

/-- A Read takes the bay's next number and goes out. -/
theorem Dev.nvmeRead_eq (d : Dev) (k lba len use_ : Nat) : d.nvmeRead k lba len use_ = { d with
    recd := { d.recd with drives := (d.nvmeRead k lba len use_).recd.drives }, out := d.out ++ [.nvme k 11 lba (bytesLE 4 len)] } := rfl

section
variable {d : Dev}

/-- A job that starts reads a chunk at the address of its directory. -/
theorem Dev.offBegin_reads {lba : Nat} (hdir : d.offDir d.offDesc = some lba) (hbay : leAt d.offDesc 0x18 1 < 4)
    (hok : d.driveOk (leAt d.offDesc 0x18 1) = true) (hctx : leAt d.offDesc 0x19 1 < 16) : d.offBegin =
    (d.offHolds { desc := d.offDesc, from_ := d.elapsed, spool := lba }).nvmeRead (leAt d.offDesc 0x18 1) lba
      (d.readChunk (leAt d.offDesc 0x18 1)) 3 := by
  rw [Dev.offBegin]
  rw [hdir]
  exact if_pos (by simp [hbay, hok, hctx])

/-- A job without a directory, or of no bay, ends with STATUS 4. -/
theorem Dev.offBegin_refuses (h : d.offDir d.offDesc = none ∨ 4 ≤ leAt d.offDesc 0x18 1) :
    d.offBegin = d.offHolds { desc := d.offDesc, from_ := d.elapsed, status := some 4, phase := 2 } := by
  rw [Dev.offBegin]
  cases hdir : d.offDir d.offDesc with
  | none => rfl
  | some lba =>
    have hbay : ¬ leAt d.offDesc 0x18 1 < 4 := Nat.not_lt.mpr (h.resolve_left (by rw [hdir]; exact Option.some_ne_none lba))
    exact if_neg (by simp [hbay])

end

section
variable {s : State} (hmay : s.dev.offMay = true)
include hmay

theorem offloadJobStart_reads {lba : Nat} (hdir : s.dev.offDir s.dev.offDesc = some lba) (hbay : leAt s.dev.offDesc 0x18 1 < 4)
    (hok : s.dev.driveOk (leAt s.dev.offDesc 0x18 1) = true) (hctx : leAt s.dev.offDesc 0x19 1 < 16) :
    Completes .offloadJobStart s (fun d =>
      d.recd.job = some { desc := s.dev.offDesc, from_ := s.dev.elapsed, spool := lba } ∧
      d = { s.dev with recd := d.recd, out := s.dev.out ++
        [.nvme (leAt s.dev.offDesc 0x18 1) 11 lba (bytesLE 4 (s.dev.readChunk (leAt s.dev.offDesc 0x18 1)))] }) := by
  refine ⟨_, execOffloadJobStart_begins hmay, rfl, ?_⟩
  dsimp only
  rw [Dev.offBegin_reads hdir hbay hok hctx, Dev.nvmeRead_eq]
  exact ⟨rfl, rfl⟩

theorem offloadJobStart_refuses (h : s.dev.offDir s.dev.offDesc = none ∨ 4 ≤ leAt s.dev.offDesc 0x18 1) :
    Completes .offloadJobStart s (fun d => d = { s.dev with recd := { s.dev.recd with
      job := some { desc := s.dev.offDesc, from_ := s.dev.elapsed, status := some 4, phase := 2 } } }) :=
  ⟨_, execOffloadJobStart_begins hmay, rfl, Dev.offBegin_refuses h⟩

end

/-! ### OFFLOAD_JOB_DONE (R348) -/

theorem offloadJobDone_idle {s : State} (h : s.dev.recd.job = none) : Completes .offloadJobDone s (fun d => d = s.dev) := by
  refine ⟨_, rfl, rfl, ?_⟩
  dsimp only
  rw [h]

theorem offloadJobDone_waits {s : State} {j : OffJob} (hjob : s.dev.recd.job = some j)
    (h : j.phase ≠ 2 ∨ j.flight ≠ [] ∨ s.dev.offDeveloping = true) : Completes .offloadJobDone s (fun d => d = s.dev) := by
  refine ⟨_, rfl, rfl, ?_⟩
  dsimp only
  rw [hjob]
  refine if_neg (fun ⟨hphase, hflight, hdev⟩ => ?_)
  rcases h with h | h | h
  · exact h hphase
  · exact h (List.isEmpty_iff.mp hflight)
  · rw [hdev] at h
    cases h

theorem execOffloadJobDone_ends {s : State} {j : OffJob} (hjob : s.dev.recd.job = some j) (hphase : j.phase = 2) (hflight : j.flight = [])
    (hdev : s.dev.offDeveloping = false) : execOffloadJobDone s = .next { s with dev := s.dev.offFinish (j.status.getD 0) } := by
  rw [execOffloadJobDone, State.run_eq, hjob]
  refine congrArg (fun d => Host.Outcome.next { s with dev := d }) (if_pos ?_)
  exact ⟨hphase, List.isEmpty_iff.mpr hflight, hdev⟩

/-- The ring has no job in progress, and none of its Reads is outstanding. -/
def Dev.jobGone (d : Dev) : Dev := d.withRecd { d.recd with
  job := none
  drives := d.recd.drives.map (fun (x : DriveSt) => { x with outCmds := x.outCmds.filter (fun (c : NvmeCmd) => !(c.use_ == 3)) }) }

/-- The job `j` that ended with `status` is counted and reported. -/
def Dev.jobCounted (d : Dev) (j : OffJob) (status : Nat) : Dev :=
  (d.bump F.REC_OFF_IDX_CONS).eventAt 0x0C0C sevInfo (j.ctx % 16) [u64 (leAt j.desc 0x28 8), u8 status, u32 j.frames]

/-- The completion record of job `j`, that ended with `status` at `now` (R348). -/
def OffJob.completion (j : OffJob) (status now : Nat) : List Byte :=
  sliceBytes j.desc 0x28 8 ++ bytesLE 1 status ++ List.replicate 3 0 ++ bytesLE 4 j.frames ++ bytesLE 4 j.lastF ++
    bytesLE 4 j.bad ++ bytesLE 8 ((now - j.from_) / 1000)

/-- The completion record of job `j` is written at its place in the ring. -/
def Dev.jobWritten (d : Dev) (j : OffJob) (status : Nat) : Dev :=
  d.poolWrite poolHost (d.get F.REC_OFF_COMPL_BASE * 256 +
    32 * (d.get F.REC_OFF_IDX_CONS % 2 ^ d.get F.REC_OFF_RING_SIZE_LOG2)) (j.completion status d.elapsed)

/-- A job ends once its completion record is written. -/
theorem Dev.offFinish_eq {d : Dev} {j : OffJob} (hjob : d.recd.job = some j) (status : Nat) : d.offFinish status =
    ((d.jobWritten j status).jobGone.jobCounted j status).sendMsix
      (((d.jobWritten j status).jobGone.jobCounted j status).get F.REC_OFF_COMPL_VECTOR) := by
  rw [Dev.offFinish, hjob]
  rfl

theorem Dev.jobCounted_reports (d : Dev) (j : OffJob) (status : Nat) : (d.bump F.REC_OFF_IDX_CONS).Reports (d.jobCounted j status) :=
  Dev.eventAt_reports _ _ _ _ _

theorem Dev.jobCounted_recd (d : Dev) (j : OffJob) (status : Nat) : (d.jobCounted j status).recd = d.recd :=
  (d.jobCounted_reports j status).recd.trans (d.bump_recd _)

theorem Dev.jobCounted_ep0Up (d : Dev) (j : OffJob) (status : Nat) : (d.jobCounted j status).ep0Up = d.ep0Up :=
  (d.jobCounted_reports j status).ep0Up.trans (d.bump_ep0Up _)

theorem Dev.jobCounted_cons (d : Dev) (j : OffJob) (status : Nat) :
    (d.jobCounted j status).get F.REC_OFF_IDX_CONS = (d.get F.REC_OFF_IDX_CONS + 1) % 65536 :=
  ((d.jobCounted_reports j status).get F.REC_OFF_IDX_CONS (by decide)).trans (d.get_bump_same F.REC_OFF_IDX_CONS (by decide))

theorem Dev.jobCounted_vector (d : Dev) (j : OffJob) (status : Nat) :
    (d.jobCounted j status).get F.REC_OFF_COMPL_VECTOR = d.get F.REC_OFF_COMPL_VECTOR :=
  ((d.jobCounted_reports j status).get F.REC_OFF_COMPL_VECTOR (by decide)).trans
      (Dev.get_of_word F.REC_OFF_COMPL_VECTOR (d.word_set_ne F.REC_OFF_IDX_CONS _ (by decide)))

theorem Dev.offFinish_ends {d : Dev} {j : OffJob} (hjob : d.recd.job = some j) (status : Nat) :
    (d.offFinish status).recd.job = none ∧
    (d.offFinish status).get F.REC_OFF_IDX_CONS = (d.get F.REC_OFF_IDX_CONS + 1) % 65536 ∧
    (d.ep0Up = true → .msix (d.get F.REC_OFF_COMPL_VECTOR) ∈ (d.offFinish status).out) := by
  have hwrite : d.Touches [R.MEM_INJ_CTRL] (d.jobWritten j status) := d.poolWrite_touches _ _ _
  rw [Dev.offFinish_eq hjob]
  generalize d.jobWritten j status = e at hwrite ⊢
  have hcounted : (e.jobGone.jobCounted j status).recd = e.jobGone.recd := Dev.jobCounted_recd _ _ _
  have hup : (e.jobGone.jobCounted j status).ep0Up = e.ep0Up := Dev.jobCounted_ep0Up _ _ _
  have hcons : (e.jobGone.jobCounted j status).get F.REC_OFF_IDX_CONS = (e.get F.REC_OFF_IDX_CONS + 1) % 65536 := Dev.jobCounted_cons _ _ _
  have hvector : (e.jobGone.jobCounted j status).get F.REC_OFF_COMPL_VECTOR = e.get F.REC_OFF_COMPL_VECTOR := Dev.jobCounted_vector _ _ _
  generalize e.jobGone.jobCounted j status = f at hcounted hup hcons hvector ⊢
  have hsent : f.Touches [] (f.sendMsix (f.get F.REC_OFF_COMPL_VECTOR)) := f.sendMsix_touches _
  refine ⟨?_, ?_, fun h => ?_⟩
  · rw [hsent.recd, hcounted]
    rfl
  · rw [hsent.get F.REC_OFF_IDX_CONS List.not_mem_nil, hcons, hwrite.get F.REC_OFF_IDX_CONS (by decide)]
  · rw [hvector, hwrite.get F.REC_OFF_COMPL_VECTOR (by decide)]
    exact Dev.mem_sendMsix (hup.trans (hwrite.ep0Up.trans h)) _

theorem offloadJobDone_ends {s : State} {j : OffJob} (hjob : s.dev.recd.job = some j) (hphase : j.phase = 2) (hflight : j.flight = [])
    (hdev : s.dev.offDeveloping = false) : Completes .offloadJobDone s (fun d => d.recd.job = none ∧
    d.get F.REC_OFF_IDX_CONS = (s.dev.get F.REC_OFF_IDX_CONS + 1) % 65536 ∧
    (s.dev.ep0Up = true → .msix (s.dev.get F.REC_OFF_COMPL_VECTOR) ∈ d.out)) :=
  ⟨_, execOffloadJobDone_ends hjob hphase hflight hdev, rfl, Dev.offFinish_ends hjob _⟩

end Sys2Proof.Machine
end

section
/-!
The recorder's clips, drives and offload jobs, assembled from the commands' lemmas.
-/
namespace Sys2Proof.Machine

/-- Settles O56: REC_START, REC_STOP and REC_META_QUEUE by what they do to the clips, PCIE_LINK_UP, PCIE_LINK_DOWN, NVME_TIMEOUT and
NVME_COMPLETION by the bay's registers and commands, and the offload ring by its job. -/
theorem recorderAndDrives : Obligations.RecorderAndDrives := by
  unfold Obligations.RecorderAndDrives
  refine ⟨fun s hreach => ⟨recStart_idle hreach, fun hmode hen hserves hrecov => ⟨recStart_awaits hreach hmode hen hserves hrecov,
      recStart_holds hreach hmode hen hserves hrecov⟩, recStop_idle hreach, fun _ _ hn hclips => recStop_ends hreach hn hclips⟩,
    fun s mask len hreach => recMetaQueue_queues hreach mask len,
    fun s k gen width => ⟨fun h => pcieLinkUp_idle h gen width, fun hport hup hlen => pcieLinkUp_trains hport hup hlen gen width⟩,
    fun s k => ⟨pcieLinkDown_idle, nvmeTimeout_idle, fun hfailed hen hclips hflush hreads => ?_⟩,
    fun s k num data => ⟨fun h status => nvmeCompletion_idle h status data, fun c hfind => ⟨nvmeCompletion_retries hfind data,
      nvmeCompletion_identified hfind data, nvmeCompletion_fua hfind data, nvmeCompletion_readies hfind data⟩⟩,
    fun s => ⟨offloadJobStart_idle, fun hmay => ⟨fun _ => offloadJobStart_reads hmay, offloadJobStart_refuses hmay⟩⟩,
    fun s => ⟨offloadJobDone_idle, fun j hjob => ⟨offloadJobDone_waits hjob, offloadJobDone_ends hjob⟩⟩⟩
  have hno : s.dev.NoClips := ⟨hclips, hflush⟩
  refine ⟨fun hup => (pcieLinkDown_fails hfailed hen hno hreads hup).mono ?_,
    fun hcmds => (nvmeTimeout_fails hfailed hen hno hreads hcmds).mono ?_⟩
  · exact fun d ⟨hdown, hgen, hwidth, h⟩ => ⟨hdown, hgen, hwidth, h.failed, h.ready, h.cmds, h.degraded, h.within_⟩
  · exact fun d ⟨hcount, h⟩ => ⟨hcount, h.failed, h.ready, h.cmds, h.degraded, h.within_⟩

end Sys2Proof.Machine
end

section
/-!
Sessions, their pictures in progress and the coding engines beside their registers: what the shared operations leave of them
(R290-R297).
-/
namespace Sys2Proof.Machine

/-! ### One session -/

theorem Dev.ses_modSes_same (d : Dev) (s : Nat) (f : SesSt → SesSt) : (d.modSes s f).ses s = f (d.ses s) := Sparse.get_put_same _ _ _ _

theorem Dev.ses_modSes_ne (d : Dev) {s t : Nat} (f : SesSt → SesSt) (h : t ≠ s) : (d.modSes s f).ses t = d.ses t :=
  Sparse.get_put_ne _ _ _ h

/-- What `φ` reads of every session. -/
def Dev.sesView {β : Type} (φ : SesSt → β) (d : Dev) : Nat → β := fun s => φ (d.ses s)

section
variable {β : Type} {φ : SesSt → β}

theorem Dev.sesView_of_code {d e : Dev} (h : e.code = d.code) : e.sesView φ = d.sesView φ := by
  funext s
  rw [Dev.sesView, Dev.sesView, Dev.ses, Dev.ses, h]

theorem Dev.modSes_sesView (d : Dev) (s : Nat) {f : SesSt → SesSt} (hf : ∀ y, φ (f y) = φ y) :
    (d.modSes s f).sesView φ = d.sesView φ := by
  funext t
  simp only [Dev.sesView]
  by_cases ht : t = s
  · rw [ht, Dev.ses_modSes_same, hf]
  · rw [Dev.ses_modSes_ne d f ht]

theorem Dev.modGrp_sesView (d : Dev) (g : Nat) (f : GrpSt → GrpSt) : (d.modGrp g f).sesView φ = d.sesView φ := rfl

end

/-! ### What leaves the coding state -/

@[simp] theorem Dev.eventAt_code (d : Dev) (code severity inst : Nat) (items : List Item) :
    (d.eventAt code severity inst items).code = d.code := (d.eventAt_reports code severity inst items).code

@[simp] theorem Dev.poolWrite_code (d : Dev) (n o : Nat) (bs : List Byte) : (d.poolWrite n o bs).code = d.code :=
  (d.poolWrite_touches n o bs).code

@[simp] theorem Dev.recPut_code (d : Dev) (s k o len v : Nat) : (d.recPut s k o len v).code = d.code := d.poolWrite_code _ _ _

/-- FLAGS of a picture's output record, where it has one. -/
def Dev.flagsPut (d : Dev) (s : Nat) (k : Option Nat) (flags : Nat) : Dev :=
  match k with
  | some k => d.recPut s k 0xC 4 flags
  | none => d

theorem Dev.flagsPut_code (d : Dev) (s : Nat) (k : Option Nat) (flags : Nat) : (d.flagsPut s k flags).code = d.code := by
  cases k with
  | none => rfl
  | some k => exact d.recPut_code s k 0xC 4 flags

@[simp] theorem Dev.hold_code (d : Dev) (key by_ : Nat) : (d.hold key by_).code = d.code := ite_keeps (p := Dev.code) rfl rfl

@[simp] theorem Dev.latchAll_code (d : Dev) (l : List Nat) : (d.latchAll l).code = d.code := by rw [Dev.latchAll_eq]

theorem Dev.foldl_hold_code (d : Dev) (l : List Nat) (by_ : Nat) : (l.foldl (fun d b => d.hold b by_) d).code = d.code :=
  foldl_keeps (p := Dev.code) (fun d b => d.hold_code b by_) l d

@[simp] theorem Dev.showVe_code (d : Dev) (e : Nat) : (d.showVe e).code = d.code := (d.showVe_shown e).code

/-! ### Sources given up (R290) -/

section
variable {β : Type} {φ : SesSt → β} (hsrcs : ∀ (y : SesSt) (l : List SrcSel), φ { y with srcs := l } = φ y)
include hsrcs

theorem Dev.sesRelease_sesView (d : Dev) (s : Nat) : (d.sesRelease s).sesView φ = d.sesView φ :=
  (Dev.sesView_of_code (Dev.foldl_hold_code _ _ _)).trans (d.modSes_sesView s (fun y => hsrcs y _))

omit hsrcs in
theorem Dev.grpRelease_sesView (d : Dev) (g : Nat) : (d.grpRelease g).sesView φ = d.sesView φ := by
  unfold Dev.grpRelease
  exact (Dev.sesView_of_code (Dev.foldl_hold_code _ _ _)).trans (Dev.modGrp_sesView _ _ _)

theorem Dev.srcRelease_sesView (d : Dev) (s : Nat) : (d.srcRelease s).sesView φ = d.sesView φ := by
  unfold Dev.srcRelease
  split
  · exact d.grpRelease_sesView _
  · exact d.sesRelease_sesView hsrcs s

end

/-! ### Records opened (R309) -/

theorem Dev.recOpen_sesView {β : Type} {φ : SesSt → β} (hring : ∀ (y : SesSt) (l : List (Nat × Nat × Nat)) (a : Nat),
      φ { y with chunks := l, dataAt := a } = φ y)
    (d : Dev) (s k off len pic fseq sid type flags pts : Nat) (cto : Int) (payload bands trig : Nat) :
    (d.recOpen s k off len pic fseq sid type flags pts cto payload bands trig).sesView φ = d.sesView φ := by
  unfold Dev.recOpen
  exact (Dev.modSes_sesView _ s (fun y => hring y _ _)).trans (Dev.sesView_of_code ((Dev.bump_code _ _).trans (d.poolWrite_code _ _ _)))

/-! ### Pictures in progress -/

/-- The pictures in progress of a session: the number of each among those coded, and its rows. -/
def SesSt.coding (y : SesSt) : List (Nat × List RowSt) := y.pics.map (fun p => (p.c, p.rows))

theorem Dev.rows_of_coding {d e : Dev} (h : e.sesView SesSt.coding = d.sesView SesSt.coding) (s c : Nat) :
    (e.pic? s c).map PicSt.rows = (d.pic? s c).map PicSt.rows := by
  have hview : ∀ x : Dev, (x.pic? s c).map PicSt.rows = ((x.sesView SesSt.coding s).find? (fun y => y.1 == c)).map (·.2) := fun x => by
    simp only [Dev.sesView, SesSt.coding, List.find?_map, Option.map_map]
    rfl
  rw [hview, hview, h]

theorem Dev.modPic_coding (d : Dev) (s c : Nat) {f : PicSt → PicSt} (hf : ∀ p : PicSt, (f p).c = p.c ∧ (f p).rows = p.rows) :
    (d.modPic s c f).sesView SesSt.coding = d.sesView SesSt.coding := by
  refine d.modSes_sesView s (fun y => ?_)
  simp only [SesSt.coding, List.map_map]
  refine List.map_congr_left (fun p _ => ?_)
  simp only [Function.comp_apply]
  split
  · rw [(hf p).1, (hf p).2]
  · rfl

/-- A row of a picture in progress. -/
def Dev.row? (d : Dev) (s c r : Nat) : Option RowSt := (d.pic? s c).map (fun p => p.row r)

theorem Dev.row?_congr {d e : Dev} (h : e.code.ses = d.code.ses) (s c r : Nat) : e.row? s c r = d.row? s c r := by
  rw [Dev.row?, Dev.row?, Dev.pic?_congr h]

theorem Dev.row?_of_coding {d e : Dev} (h : e.sesView SesSt.coding = d.sesView SesSt.coding) (s c r : Nat) :
    e.row? s c r = d.row? s c r := by
  have hrow : ∀ x : Dev, x.row? s c r = ((x.pic? s c).map PicSt.rows).map (fun l => elemAt l r {}) := fun x => by
    rw [Option.map_map]
    rfl
  rw [hrow, hrow, Dev.rows_of_coding h]

theorem Dev.row?_modRow_same {d : Dev} {s c r : Nat} {p : PicSt} (hpic : d.pic? s c = some p) (hrow : r < p.rows.length)
    (f : RowSt → RowSt) : (d.modRow s c r f).row? s c r = some (f (p.row r)) := by
  rw [Dev.row?, Dev.pic?_modRow_same, hpic]
  exact congrArg some (elemAt_modifyAt f {} hrow)

/-! ### One engine -/

theorem Dev.ve_congr {d e : Dev} (h : e.code.ve = d.code.ve) (x : Nat) : e.ve x = d.ve x := by
  rw [Dev.ve, Dev.ve, h]

theorem Dev.ve_modVe (d : Dev) {e : Nat} (f : VeSt → VeSt) (h : e < d.code.ve.length) : (d.modVe e f).ve e = f (d.ve e) :=
  elemAt_modifyAt f {} h

/-- What a change of one engine leaves of each. -/
theorem Dev.ve_modVe_keeps {β : Type} {φ : VeSt → β} (d : Dev) (e : Nat) {f : VeSt → VeSt} (hf : ∀ v, φ (f v) = φ v) (x : Nat) :
    φ ((d.modVe e f).ve x) = φ (d.ve x) := by
  by_cases hx : x = e
  · by_cases hlen : e < d.code.ve.length
    · rw [hx, d.ve_modVe f hlen, hf]
    · rw [Dev.ve, Dev.modVe, modifyAt, List.modify_eq_self (Nat.le_of_not_lt hlen), Dev.ve]
  · rw [Dev.ve, Dev.modVe, elemAt_modifyAt_ne _ _ _ hx, Dev.ve]

end Sys2Proof.Machine
end

section
/-!
What `VE_SES_CMD` alone does not show: loads, rows, admission and the checks of a configuration read other registers (R283-R302).
-/
namespace Sys2Proof.Machine

/-- Every register but `VE_SES_CMD` holds in `e` what it holds in `d`. -/
def Dev.CmdApart (d e : Dev) : Prop := ∀ a, a ≠ R.VE_SES_CMD → e.word a = d.word a

/-- A register above `VE_SES_CMD` is another. -/
theorem above_VE_SES_CMD {a : Nat} (h : 0x700000 < a) (k : Nat) : a + k ≠ R.VE_SES_CMD :=
  Nat.ne_of_gt (h.trans_le (Nat.le_add_right a k))

theorem Dev.CmdApart.of_regs {d e : Dev} (h : e.regs = d.regs) : d.CmdApart e := fun a _ => Dev.word_congr h a

namespace Dev.CmdApart
variable {d e : Dev} (h : d.CmdApart e)
include h

theorem get (f : Fld) (hf : f.addr ≠ R.VE_SES_CMD) : e.get f = d.get f := Dev.get_of_word f (h f.addr hf)

theorem flag (f : Fld) (hf : f.addr ≠ R.VE_SES_CMD) : e.flag f = d.flag f := Dev.flag_of_word f (h f.addr hf)

/-! ### Sessions and rows -/

theorem sesClass : e.sesClass = d.sesClass := funext fun s => h.get (F.SES_CFG_CLASS s) (above_VE_SES_CMD (by decide) _)

theorem sesW : e.sesW = d.sesW := funext fun s => h.get (F.SES_SIZE_W s) (above_VE_SES_CMD (by decide) _)

theorem sesH : e.sesH = d.sesH := funext fun s => h.get (F.SES_SIZE_H s) (above_VE_SES_CMD (by decide) _)

theorem codec (s : Nat) : e.get (F.SES_CFG_CODEC s) = d.get (F.SES_CFG_CODEC s) := h.get _ (above_VE_SES_CMD (by decide) _)

theorem level (s : Nat) : e.get (F.SES_FMT_LEVEL s) = d.get (F.SES_FMT_LEVEL s) := h.get _ (above_VE_SES_CMD (by decide) _)

theorem chroma (s : Nat) : e.get (F.SES_FMT_CHROMA s) = d.get (F.SES_FMT_CHROMA s) := h.get _ (above_VE_SES_CMD (by decide) _)

theorem depth (s : Nat) : e.get (F.SES_FMT_DEPTH s) = d.get (F.SES_FMT_DEPTH s) := h.get _ (above_VE_SES_CMD (by decide) _)

theorem srcKind (s : Nat) : e.get (F.SES_CFG_SRC_KIND s) = d.get (F.SES_CFG_SRC_KIND s) := h.get _ (above_VE_SES_CMD (by decide) _)

theorem sesGroup : e.sesGroup = d.sesGroup := by
  funext s
  rw [Dev.sesGroup, Dev.sesGroup, h.srcKind, h.get (F.SES_CFG_GROUP s) (above_VE_SES_CMD (by decide) _)]

theorem coreThirds : e.coreThirds = d.coreThirds := by
  rw [Dev.coreThirds, Dev.coreThirds, h.get F.CLK_DIV_CORE_DIV (by decide)]

theorem veRate : e.veRate = d.veRate := by
  rw [Dev.veRate, Dev.veRate, h.coreThirds]

theorem unitLines : e.unitLines = d.unitLines := by
  funext s
  rw [Dev.unitLines, Dev.unitLines, h.sesH]

theorem rowT : e.rowT = d.rowT := by
  funext s
  rw [Dev.rowT, Dev.rowT, h.codec, h.unitLines, h.sesW, h.level]

theorem rowCount : e.rowCount = d.rowCount := by
  funext s
  rw [Dev.rowCount, Dev.rowCount, h.unitLines, h.rowT]

theorem rowNs : e.rowNs = d.rowNs := by
  funext s
  rw [Dev.rowNs, Dev.rowNs, Dev.rowFull, Dev.rowFull, h.sesW, h.rowT, h.coreThirds]

theorem rowDeadline : e.rowDeadline = d.rowDeadline := by
  funext j
  rw [Dev.rowDeadline, Dev.rowDeadline, h.rowNs, h.coreThirds]

theorem pickLive : e.pickLive = d.pickLive := by
  funext q
  rw [Dev.pickLive, Dev.pickLive, h.sesClass, h.rowDeadline]

/-! ### Timing and loads (R292, R298) -/

theorem grpSeq : e.grpSeq = d.grpSeq := by
  funext g
  simp only [Dev.grpSeq, h.get (F.LG_TIMESCALE_TIMESCALE g) (above_VE_SES_CMD (by decide) _),
    h.get (F.LG_DUR_FRAME_DUR g) (above_VE_SES_CMD (by decide) _), h.get (F.LG_GOP_GOP_LEN g) (above_VE_SES_CMD (by decide) _),
    h.get (F.LG_GOP_MINIGOP g) (above_VE_SES_CMD (by decide) _), h.get (F.LG_GOP_REFRESH g) (above_VE_SES_CMD (by decide) _),
    h.get (F.LG_GOP_REFRESH_PERIOD g) (above_VE_SES_CMD (by decide) _)]

theorem gop (s : Nat) : e.get (F.SES_GOP_REFRESH s) = d.get (F.SES_GOP_REFRESH s) ∧
    e.get (F.SES_GOP_MINIGOP s) = d.get (F.SES_GOP_MINIGOP s) :=
  ⟨h.get _ (above_VE_SES_CMD (by decide) _), h.get _ (above_VE_SES_CMD (by decide) _)⟩

theorem sesSeq : e.sesSeq = d.sesSeq := by
  funext s
  simp only [Dev.sesSeq, h.sesGroup, h.grpSeq, h.get (F.SES_TIMESCALE_TIMESCALE s) (above_VE_SES_CMD (by decide) _),
    h.get (F.SES_DUR_FRAME_DUR s) (above_VE_SES_CMD (by decide) _), h.get (F.SES_GOP_GOP_LEN s) (above_VE_SES_CMD (by decide) _),
    (h.gop s).2, (h.gop s).1, h.get (F.SES_GOP_REFRESH_PERIOD s) (above_VE_SES_CMD (by decide) _)]

theorem sesLoad : e.sesLoad = d.sesLoad := by
  funext s
  rw [Dev.sesLoad, Dev.sesLoad, h.sesSeq, h.sesW, h.sesH]

theorem anaW : e.anaW = d.anaW := by
  funext g
  rw [Dev.anaW, Dev.anaW, h.get (F.LG_SIZE_TOP_W g) (above_VE_SES_CMD (by decide) _)]

theorem anaH : e.anaH = d.anaH := by
  funext g
  rw [Dev.anaH, Dev.anaH, h.get (F.LG_SIZE_TOP_H g) (above_VE_SES_CMD (by decide) _)]

theorem anaLoad : e.anaLoad = d.anaLoad := by
  funext g
  rw [Dev.anaLoad, Dev.anaLoad, h.grpSeq, h.anaW, h.anaH]

theorem enginesAsked : e.enginesAsked = d.enginesAsked := by
  funext s
  rw [Dev.enginesAsked, Dev.enginesAsked, h.sesClass, h.sesLoad, h.veRate]

theorem sesMem : e.sesMem = d.sesMem := by
  funext s
  rw [Dev.sesMem, Dev.sesMem, Dev.sesC, Dev.sesC, h.sesLoad, h.sesGroup, h.chroma]

theorem anaMem : e.anaMem = d.anaMem := by
  funext g
  rw [Dev.anaMem, Dev.anaMem, h.anaLoad]

theorem decLoad : e.decLoad = d.decLoad := by
  funext k
  rw [Dev.decLoad, Dev.decLoad, h.get (F.DEC_MAX_MAX_W k) (above_VE_SES_CMD (by decide) _),
    h.get (F.DEC_MAX_MAX_H k) (above_VE_SES_CMD (by decide) _), h.get (F.DEC_MAX_FPS_FPS k) (above_VE_SES_CMD (by decide) _)]

theorem decLive (hdecs : e.decs = d.decs) : e.decLive = d.decLive := by
  refine List.filter_congr (fun k _ => ?_)
  rw [hdecs, h.get (F.DEC_CFG_CLASS k) (above_VE_SES_CMD (by decide) _)]

/-! ### Admission (R299) -/

theorem demand (hdecs : e.decs = d.decs) : e.demand = d.demand := by
  funext ss
  have hgroups : e.groupsOf = d.groupsOf := by
    funext l
    rw [Dev.groupsOf, Dev.groupsOf, h.sesGroup]
  have hclass : (fun g => decide (e.get (F.LG_CFG_CLASS g) = classLive)) = fun g => decide (d.get (F.LG_CFG_CLASS g) = classLive) :=
    funext fun g => by rw [h.get (F.LG_CFG_CLASS g) (above_VE_SES_CMD (by decide) _)]
  rw [Dev.demand, Dev.demand, hgroups, hclass, h.sesClass, h.decLive hdecs, h.decLoad, h.sesLoad, h.anaLoad, h.sesMem, h.anaMem]

theorem admitFails (hdecs : e.decs = d.decs) : e.admitFails = d.admitFails := by
  funext n ss asked
  unfold Dev.admitFails
  rw [h.demand hdecs, h.veRate, h.sesClass, h.rowCount, h.enginesAsked,
    h.get F.VE_ADMIT_RSV_GBS (by decide), h.get F.DEV_QOS_FLOOR_RECORD_FLOOR (by decide),
    h.get F.DEV_QOS_FLOOR_LADDER_FLOOR (by decide), h.get F.DEV_QOS_FLOOR_BACKGROUND_FLOOR (by decide)]

theorem veActive : e.veActive = d.veActive := by
  have hfenced : e.veFenced = d.veFenced := funext fun x => Dev.veFenced_congr (fun a ha => h a (by fin_cases ha <;> decide)) x
  have hspare : e.veSpare = d.veSpare := funext fun q => by rw [Dev.veSpare, Dev.veSpare, h R.VE_SPARE_MAP (by decide)]
  rw [Dev.veActive, Dev.veActive, hfenced, hspare]

/-! ### The checks of a configuration (R283, R284, R287) -/

theorem profileOk : e.profileOk = d.profileOk := by
  funext s
  rw [Dev.profileOk, Dev.profileOk, h.chroma, h.depth, h.codec, h.get (F.SES_CFG_PROFILE s) (above_VE_SES_CMD (by decide) _)]

theorem levelOk : e.levelOk = d.levelOk := by
  funext s
  rw [Dev.levelOk, Dev.levelOk, h.sesW, h.sesH, h.sesSeq, h.level, h.codec]

theorem branch {n b : Nat} (hn : n < 16) (hb : b < 8) {f : Fld} (hf : f.addr = R.COL_BR_CFG n b ∨ f.addr = R.COL_BR_OUT_WH n b) :
    e.get f = d.get f := by
  refine h.get f ?_
  simp only [R.COL_BR_CFG, R.COL_BR_OUT_WH, R.VE_SES_CMD] at hf ⊢
  omega

theorem branchFeeds {n b : Nat} (hn : n < 16) (hb : b < 8) : e.branchFeeds n b = d.branchFeeds n b := by
  funext depth chroma
  rw [Dev.branchFeeds, Dev.branchFeeds, Dev.flag, Dev.flag, h.branch hn hb (f := F.COL_BR_CFG_FORMAT n b) (.inl rfl),
    h.branch hn hb (f := F.COL_BR_CFG_EN n b) (.inl rfl), h.branch hn hb (f := F.COL_BR_CFG_KIND n b) (.inl rfl),
    h.branch hn hb (f := F.COL_BR_CFG_DEPTH n b) (.inl rfl)]

/-- A session outside a group is checked alike. -/
theorem sesBad {s : Nat} (hgroup : d.sesGroup s = none) : e.sesBad s = d.sesBad s := by
  have hkind : d.get (F.SES_CFG_SRC_KIND s) ≠ 1 := fun hk => by
    rw [Dev.sesGroup, if_pos hk] at hgroup
    cases hgroup
  have hctx := h.get (F.SES_CFG_CTX s) (above_VE_SES_CMD (by decide) _)
  have hbranch := h.get (F.SES_CFG_BRANCH s) (above_VE_SES_CMD (by decide) _)
  have hrc := h.get (F.SES_RC_RC_MODE s) (above_VE_SES_CMD (by decide) _)
  have hfeeds := h.branchFeeds (d.get_lt (F.SES_CFG_CTX s)) (d.get_lt (F.SES_CFG_BRANCH s))
  have hdepth : e.sesDepth s = d.sesDepth s := congrArg brDepth (h.depth s)
  obtain ⟨hrefresh, hmini⟩ := h.gop s
  unfold Dev.sesBad
  rw [h.srcKind, h.profileOk, h.sesW, h.sesH, h.levelOk, hrc, hctx, hbranch, hfeeds, hdepth, h.chroma, hrefresh, hmini]
  match hk : d.get (F.SES_CFG_SRC_KIND s) with
  | 0 => rfl
  | 1 => exact absurd hk hkind
  | n + 2 => rfl

end Dev.CmdApart

end Sys2Proof.Machine
end

section
/-!
Rows wait, start, run and pause on their engines (R295-R297, R324).
-/
namespace Sys2Proof.Machine

/-! ### A row starts (R296, R311) -/

/-- The row above row `row` on the same engine. -/
def PicSt.above (p : PicSt) (row : Nat) : Option RowSt :=
  if max 1 p.engines.length ≤ row then some (p.row (row - max 1 p.engines.length)) else none

/-- A row of picture `p` as it starts: with its budget, and with the salvage state of the row above (R321, R325). -/
def RowSt.starts (r : RowSt) (p : PicSt) (row : Nat) : RowSt :=
  let carry := match p.above row with
    | some a => a.budget - 8 * a.bytes.length
    | none => 0
  let sv := match p.above row with
    | some a => (a.salv, a.skip)
    | none => (false, false)
  { r with state := 3, budget := nth p.crow row + carry, spent := 0, units := 0, flags := [], bytes := []
           salv := sv.1, skip := sv.2, salv0 := sv.1, skip0 := sv.2, qp := p.qp }

/-- The engine once the row `j` starts on it at `now`. -/
def VeSt.starts (v : VeSt) (live : Prop) [Decidable live] (j : RowJob) (now : Nat) : VeSt :=
  let run : RowJob := { j with start := now, paused := 0 }
  { v with live := if live then some run else v.live, other := if live then v.other else some run
           queue := v.queue.filter (fun x => !(x.ses == j.ses && x.c == j.c && x.row == j.row))
           lastLive := if live then some now else v.lastLive }

section
variable {d : Dev} {e : Nat} {j : RowJob}

theorem Dev.rowStart_some {p : PicSt} (hpic : d.pic? j.ses j.c = some p) : d.rowStart e j =
    (d.modRow j.ses j.c j.row (fun r => r.starts p j.row)).modVe e (fun v => v.starts (d.sesClass j.ses = classLive) j d.elapsed) := by
  unfold Dev.rowStart
  simp only [hpic]
  rfl

/-- The row that starts is in progress, on its engine. -/
theorem Dev.rowStart_shows {p : PicSt} (hpic : d.pic? j.ses j.c = some p) (hrow : j.row < p.rows.length)
    (hve : e < d.code.ve.length) : ((d.rowStart e j).row? j.ses j.c j.row).map RowSt.state = some 3 ∧
      (d.rowStart e j).ve e = (d.ve e).starts (d.sesClass j.ses = classLive) j d.elapsed := by
  rw [Dev.rowStart_some hpic]
  exact ⟨congrArg (Option.map RowSt.state) (Dev.row?_modRow_same hpic hrow _), Dev.ve_modVe (d.modRow j.ses j.c j.row _) _ hve⟩

theorem Dev.rowStart_none (hpic : d.pic? j.ses j.c = none) : d.rowStart e j = d := by
  unfold Dev.rowStart
  simp only [hpic]

/-- What no start of a row changes on an engine. -/
theorem Dev.rowStart_ve_keeps {β : Type} {φ : VeSt → β}
    (hφ : ∀ v, φ (v.starts (d.sesClass j.ses = classLive) j d.elapsed) = φ v) (x : Nat) :
    φ ((d.rowStart e j).ve x) = φ (d.ve x) := by
  cases hpic : d.pic? j.ses j.c with
  | none => rw [Dev.rowStart_none hpic]
  | some p =>
    rw [Dev.rowStart_some hpic]
    exact Dev.ve_modVe_keeps (d.modRow j.ses j.c j.row _) e hφ x

/-- The time that engines have worked, and the loans. -/
def Dev.worked (d : Dev) : Nat × SrvSt := (d.code.busyNs, d.srv)

theorem Dev.rowStart_worked (d : Dev) (e : Nat) (j : RowJob) : (d.rowStart e j).worked = d.worked := by
  cases hpic : d.pic? j.ses j.c with
  | none => rw [Dev.rowStart_none hpic]
  | some p =>
    rw [Dev.rowStart_some hpic]
    rfl

end

/-! ### An engine takes its next row (R296) -/

/-- The engine `e` takes no row: it is a spare that waits for checkpoints (R313), or one of its rows is in progress. -/
def Dev.veBlocked (d : Dev) (e : Nat) : Bool :=
  (e % 17 = 16 && (d.code.subs.getD (e / 17) none).any (fun x => !x.read)) || (d.ve e).live.isSome ||
    ((d.ve e).other.isSome && !(d.ve e).paused)

/-- The paused row `j` of engine `e` goes on. -/
def Dev.rowResume (d : Dev) (e : Nat) (j : RowJob) : Dev :=
  (d.modRow j.ses j.c j.row (fun r => { r with state := 3 })).modVe e (fun v =>
    { v with paused := false, other := some { j with paused := j.paused + (d.elapsed - j.pausedAt) } })

/-- What an engine that looks for its next row does. -/
theorem Dev.veSelect_cases (d : Dev) (e : Nat) :
    (d.veSelect e = d.showVe e ∧ (d.veBlocked e = true ∨
      d.pickLive (d.ve e).queue = none ∧ (d.ve e).other = none ∧ d.pickOther (d.ve e).queue = none)) ∨
    (∃ j, d.pickLive (d.ve e).queue = some j ∧ d.veSelect e = (d.rowStart e j).showVe e) ∨
    (∃ j, d.pickLive (d.ve e).queue = none ∧ (d.ve e).other = some j ∧ d.veSelect e = (d.rowResume e j).showVe e) ∨
    (∃ j, d.pickLive (d.ve e).queue = none ∧ (d.ve e).other = none ∧ d.pickOther (d.ve e).queue = some j ∧
      d.veSelect e = (d.rowStart e j).showVe e) := by
  have hselect : d.veSelect e = (if d.veBlocked e = true then d
    else match d.pickLive (d.ve e).queue with
      | some j => d.rowStart e j
      | none =>
        match (d.ve e).other with
        | some j => d.rowResume e j
        | none =>
          match d.pickOther (d.ve e).queue with
          | some j => d.rowStart e j
          | none => d).showVe e := rfl
  rw [hselect]
  by_cases hblocked : d.veBlocked e = true
  · exact .inl ⟨by rw [if_pos hblocked], .inl hblocked⟩
  rw [if_neg hblocked]
  cases hlive : d.pickLive (d.ve e).queue with
  | some j => exact .inr (.inl ⟨j, rfl, rfl⟩)
  | none =>
    cases hother : (d.ve e).other with
    | some j => exact .inr (.inr (.inl ⟨j, rfl, rfl, rfl⟩))
    | none =>
      cases hpick : d.pickOther (d.ve e).queue with
      | some j => exact .inr (.inr (.inr ⟨j, rfl, rfl, rfl, rfl⟩))
      | none => exact .inl ⟨rfl, .inr ⟨rfl, rfl, rfl⟩⟩

theorem Dev.showVe_ve (d : Dev) (e x : Nat) : (d.showVe e).ve x = d.ve x := Dev.ve_congr (congrArg CodeSt.ve (d.showVe_code e)) x

theorem Dev.showVe_row? (d : Dev) (e s c r : Nat) : (d.showVe e).row? s c r = d.row? s c r :=
  Dev.row?_congr (congrArg CodeSt.ses (d.showVe_code e)) s c r

/-- An engine that shows itself touches its status register. -/
theorem Dev.showVe_touches (d : Dev) (e : Nat) : d.Touches [R.VE_ENG_STATUS e] (d.showVe e) :=
  ((((d.set_touches (F.VE_ENG_STATUS_ACTIVE e) _ List.mem_cons_self).trans (Dev.set_touches _ (F.VE_ENG_STATUS_SPARE e) _
    List.mem_cons_self)).trans (Dev.set_touches _ (F.VE_ENG_STATUS_FENCED e) _ List.mem_cons_self)).trans (Dev.set_touches _
    (F.VE_ENG_STATUS_ROWS_QUEUED e) _ List.mem_cons_self)).trans (Dev.set_touches _ (F.VE_ENG_STATUS_LOAD_PCT e) _ List.mem_cons_self)

theorem Dev.showVe_worked (d : Dev) (e : Nat) : (d.showVe e).worked = d.worked := by
  rw [Dev.worked, Dev.worked, Dev.showVe_code, (d.showVe_touches e).srv]

theorem Dev.veSelect_worked (d : Dev) (e : Nat) : (d.veSelect e).worked = d.worked := by
  rcases d.veSelect_cases e with ⟨h, -⟩ | ⟨j, -, h⟩ | ⟨j, -, -, h⟩ | ⟨j, -, -, -, h⟩
  · rw [h, Dev.showVe_worked]
  · rw [h, Dev.showVe_worked, Dev.rowStart_worked]
  · rw [h, Dev.showVe_worked]
    rfl
  · rw [h, Dev.showVe_worked, Dev.rowStart_worked]

/-- Rows that wait for their release stay. -/
theorem Dev.veSelect_held (d : Dev) (e x : Nat) : ((d.veSelect e).ve x).held = (d.ve x).held := by
  have hstart : ∀ j, ((d.rowStart e j).ve x).held = (d.ve x).held := fun j => Dev.rowStart_ve_keeps (φ := VeSt.held) (fun _ => rfl) x
  rcases d.veSelect_cases e with ⟨h, -⟩ | ⟨j, -, h⟩ | ⟨j, -, -, h⟩ | ⟨j, -, -, -, h⟩
  · rw [h, Dev.showVe_ve]
  · rw [h, Dev.showVe_ve, hstart]
  · rw [h, Dev.showVe_ve]
    exact Dev.ve_modVe_keeps (φ := VeSt.held) (d.modRow j.ses j.c j.row _) e (fun _ => by rfl) x
  · rw [h, Dev.showVe_ve, hstart]

/-- A row that is picked as LIVE is one. -/
theorem Dev.pickLive_class {d : Dev} {q : List RowJob} {j : RowJob} (h : d.pickLive q = some j) : d.sesClass j.ses = classLive := by
  unfold Dev.pickLive at h
  have hmem := foldl_pick_mem (fun b x => ?_) h
  · exact of_decide_eq_true (List.mem_filter.mp (hmem.resolve_left nofun)).2
  · cases b with
    | none => exact .inr rfl
    | some y =>
      dsimp only
      split
      · exact .inr rfl
      · exact .inl rfl

/-- While a LIVE row is ready the other row of the engine stays as it is. -/
theorem Dev.veSelect_other_of_live {d : Dev} {e : Nat} (h : (d.pickLive (d.ve e).queue).isSome = true) :
    ((d.veSelect e).ve e).other = (d.ve e).other ∧ ((d.veSelect e).ve e).paused = (d.ve e).paused := by
  obtain ⟨j, hpick⟩ := Option.isSome_iff_exists.mp h
  rcases d.veSelect_cases e with ⟨h, -⟩ | ⟨i, hi, h⟩ | ⟨i, hi, -, h⟩ | ⟨i, hi, -, -, h⟩
  · rw [h, Dev.showVe_ve]
    exact ⟨rfl, rfl⟩
  · have hclass := Dev.pickLive_class hi
    rw [h, Dev.showVe_ve]
    refine ⟨Dev.rowStart_ve_keeps (φ := VeSt.other) (fun v => ?_) e, Dev.rowStart_ve_keeps (φ := VeSt.paused) (fun _ => rfl) e⟩
    simp [VeSt.starts, hclass]
  · rw [hpick] at hi
    cases hi
  · rw [hpick] at hi
    cases hi

/-- An engine without a row stays idle. -/
theorem Dev.veSelect_idle {d : Dev} {e : Nat} (hqueue : (d.ve e).queue = []) (hother : (d.ve e).other = none) :
    d.veSelect e = d.showVe e := by
  rcases d.veSelect_cases e with ⟨h, -⟩ | ⟨j, hj, -⟩ | ⟨j, -, hj, -⟩ | ⟨j, -, -, hj, -⟩
  · exact h
  · rw [hqueue] at hj
    cases hj
  · rw [hother] at hj
    cases hj
  · rw [hqueue] at hj
    cases hj

/-- An engine whose one row is the ready row `j` starts it. -/
theorem Dev.veSelect_single {d : Dev} {e : Nat} {j : RowJob} (hve : d.ve e = { queue := [j] }) (hspare : e % 17 ≠ 16) :
    d.veSelect e = (d.rowStart e j).showVe e := by
  have hpick : d.pickLive (d.ve e).queue = if d.sesClass j.ses = classLive then some j else none := by
    rw [hve, Dev.pickLive, List.filter_singleton]
    by_cases hclass : d.sesClass j.ses = classLive <;> simp [hclass]
  have hother : d.pickOther (d.ve e).queue = if d.sesClass j.ses = classLive then none else some j := by
    rw [hve, Dev.pickOther, List.filter_singleton]
    by_cases hclass : d.sesClass j.ses = classLive <;> simp [hclass]
  rcases d.veSelect_cases e with ⟨-, hblocked | ⟨hnone, -, hnone'⟩⟩ | ⟨i, hi, h⟩ | ⟨i, -, hi, -⟩ | ⟨i, -, -, hi, h⟩
  · simp [Dev.veBlocked, hve, hspare] at hblocked
  · rw [hpick] at hnone
    rw [hother] at hnone'
    split at hnone <;> simp_all
  · rw [hpick] at hi
    split at hi
    · rw [h, Option.some.inj hi]
    · cases hi
  · rw [hve] at hi
    cases hi
  · rw [hother] at hi
    split at hi
    · cases hi
    · rw [h, Option.some.inj hi]

/-! ### ROW_READY (R295-R297) -/

section
variable {s : State} {x : Fin 256} {row : Nat} {p : PicSt}

/-- The job of a row that has become ready. -/
def Dev.readyJob (d : Dev) (x : Nat) (p : PicSt) (row : Nat) : RowJob :=
  { ses := x, c := p.c, row := row, ready := d.elapsed, release := d.elapsed }

/-- The row waits for its release. -/
def Dev.rowHeld (d : Dev) (x : Nat) (p : PicSt) (row : Nat) : Dev :=
  (d.modRow x p.c row (fun r => { r with state := 1 })).modVe (p.engine row) (fun v => { v with held := v.held ++ [d.readyJob x p row] })

/-- The row is queued on its engine. -/
def Dev.rowQueued (d : Dev) (x : Nat) (p : PicSt) (row : Nat) : Dev :=
  (d.modRow x p.c row (fun r => { r with state := 2 })).modVe (p.engine row) (fun v => { v with queue := v.queue ++ [d.readyJob x p row] })

/-- Whether the engine started its last LIVE row less than three row times ago (R297). -/
def Dev.releaseWaits (d : Dev) (x : Nat) (p : PicSt) (row : Nat) : Bool :=
  match (d.ve (p.engine row)).lastLive with
  | some t => decide (d.elapsed < t + 3 * d.rowNs x)
  | none => false

/-- A row becomes ready: it waits for its release or is queued on its engine, which takes its next row. -/
def Dev.rowArrives (d : Dev) (x : Nat) (p : PicSt) (row : Nat) : Dev :=
  if d.sesClass x = classLive ∧ d.releaseWaits x p row = true then (d.rowHeld x p row).showVe (p.engine row)
  else (d.rowQueued x p row).veSelect (p.engine row)

theorem Dev.pic?_of_single {d : Dev} {x : Nat} (hpics : (d.ses x).pics = [p]) : d.pic? x p.c = some p := by
  rw [Dev.pic?, hpics]
  simp

theorem rowReady_nothing (back : Fin 2) (h : (s.dev.ses x).pics = []) : Completes (.rowReady x back row) s (fun d => d = s.dev) := by
  refine ⟨s, ?_, rfl, rfl⟩
  show execRowReady x back row s = _
  simp [execRowReady, State.run, h]

section
variable (hpics : (s.dev.ses x).pics = [p]) (hstate : (p.row row).state = 0) (hrow : row < p.rows.length)
  (hready : s.dev.rowReady x p row = true)
include hpics hstate hrow hready

theorem execRowReady_ready : execRowReady x 0 row s = .next { s with dev := s.dev.rowArrives x p row } := by
  have hskip : ¬ ((p.row row).state ≠ 0 ∨ p.rows.length ≤ row ∨ s.dev.rowReady x p row = false) := by
    rw [hstate, hready]
    simpa using hrow
  have hnewest : (s.dev.ses x).pics.reverse[(0 : Fin 2).val]? = some p := by
    rw [hpics]
    rfl
  unfold execRowReady State.run
  simp only [hnewest]
  rw [if_neg hskip]
  rfl

/-- A LIVE row comes too soon after the last one. -/
theorem rowReady_waits {t : Nat} (hve : p.engine row < s.dev.code.ve.length) (hclass : s.dev.sesClass x = classLive)
    (hlast : (s.dev.ve (p.engine row)).lastLive = some t) (hsoon : s.dev.elapsed < t + 3 * s.dev.rowNs x) :
    Completes (.rowReady x 0 row) s (fun d =>
      (d.ve (p.engine row)).held = (s.dev.ve (p.engine row)).held ++ [s.dev.readyJob x p row] ∧
      (d.row? x p.c row).map RowSt.state = some 1) := by
  have hwaits : s.dev.releaseWaits x p row = true := by
    rw [Dev.releaseWaits, hlast]
    exact decide_eq_true hsoon
  refine ⟨_, execRowReady_ready hpics hstate hrow hready, rfl, ?_⟩
  dsimp only
  rw [Dev.rowArrives, if_pos ⟨hclass, hwaits⟩, Dev.showVe_ve, Dev.showVe_row?]
  exact ⟨congrArg VeSt.held (Dev.ve_modVe (s.dev.modRow x p.c row _) _ hve),
    congrArg (Option.map RowSt.state) (Dev.row?_modRow_same (Dev.pic?_of_single hpics) hrow _)⟩

/-- On an idle engine the row starts at once. -/
theorem rowReady_starts (hve : p.engine row < s.dev.code.ve.length) (hspare : p.engine row % 17 ≠ 16)
    (hidle : s.dev.ve (p.engine row) = {}) : Completes (.rowReady x 0 row) s (fun d =>
      (d.row? x p.c row).map RowSt.state = some 3 ∧ (d.ve (p.engine row)).queue = [] ∧
      (s.dev.sesClass x = classLive → (d.ve (p.engine row)).live.isSome = true) ∧
      (s.dev.sesClass x ≠ classLive → (d.ve (p.engine row)).other.isSome = true)) := by
  have hwaits : s.dev.releaseWaits x p row = false := by
    rw [Dev.releaseWaits, hidle]
  have hqueued : (s.dev.rowQueued x p row).ve (p.engine row) = { queue := [s.dev.readyJob x p row] } := by
    have h := Dev.ve_modVe (s.dev.modRow x p.c row (fun r => { r with state := 2 }))
      (fun v => { v with queue := v.queue ++ [s.dev.readyJob x p row] }) hve
    rw [show (s.dev.modRow x p.c row (fun r => { r with state := 2 })).ve (p.engine row) = {} from hidle] at h
    exact h
  have hpic : (s.dev.rowQueued x p row).pic? x p.c = some { p with rows := modifyAt p.rows row (fun r => { r with state := 2 }) } := by
    have h := s.dev.pic?_modRow_same x p.c row (fun r => { r with state := 2 })
    rwa [Dev.pic?_of_single hpics] at h
  refine ⟨_, execRowReady_ready hpics hstate hrow hready, rfl, ?_⟩
  dsimp only
  rw [Dev.rowArrives, if_neg (fun h => absurd h.2 (by simp [hwaits])), Dev.veSelect_single hqueued hspare, Dev.showVe_ve,
    Dev.showVe_row?]
  obtain ⟨hrun, hengine⟩ := Dev.rowStart_shows (d := s.dev.rowQueued x p row) (j := s.dev.readyJob x p row) hpic
    (hrow.trans_eq (List.length_modify _ _ _).symm) (e := p.engine row) (hve.trans_eq (List.length_modify _ _ _).symm)
  refine ⟨hrun, ?_⟩
  rw [hengine, hqueued]
  have hclass : (s.dev.rowQueued x p row).sesClass (s.dev.readyJob x p row).ses = s.dev.sesClass x := rfl
  refine ⟨by simp [VeSt.starts], fun hlive => ?_, fun hlive => ?_⟩
  · simp [VeSt.starts, hclass, hlive]
  · simp [VeSt.starts, hclass, hlive]

end
end

end Sys2Proof.Machine
end

section
/-!
Rows released, coded unit by unit and paused (R296, R297, R324, R329).
-/
namespace Sys2Proof.Machine

/-! ### LIVE_ROW_RELEASE (R297) -/

section
variable {s : State} {e : Fin 68}

theorem liveRowRelease_idle (h : (s.dev.ve e).held = []) : Completes (.liveRowRelease e) s (fun d => d = s.dev) := by
  refine ⟨s, ?_, rfl, rfl⟩
  show execLiveRowRelease e s = _
  simp only [execLiveRowRelease, State.run, h]

theorem liveRowRelease_releases {j : RowJob} {rest : List RowJob} (h : (s.dev.ve e).held = j :: rest)
    (hve : e.val < s.dev.code.ve.length) : Completes (.liveRowRelease e) s (fun d => (d.ve e).held = rest) := by
  have hexec : execLiveRowRelease e s = .next { s with dev :=
      ((s.dev.modRow j.ses j.c j.row (fun r => { r with state := 2 })).modVe e (fun v =>
        { v with held := rest, queue := v.queue ++ [{ j with release := s.dev.elapsed }] })).veSelect e } := by
    unfold execLiveRowRelease State.run
    simp only [h]
    rfl
  refine ⟨_, hexec, rfl, ?_⟩
  dsimp only
  rw [Dev.veSelect_held]
  exact congrArg VeSt.held (Dev.ve_modVe (s.dev.modRow j.ses j.c j.row _) _ hve)

end

/-! ### Units (R324, R329) -/

theorem Dev.refreshLate_code (d : Dev) (s n : Nat) (late : List (Nat × Nat)) : (d.refreshLate s n late).code = d.code :=
  ite_keeps (p := Dev.code) rfl (d.eventAt_code _ _ _ _)

/-- A unit coded minimally changes no row. -/
theorem Dev.unitMissed_coding (d : Dev) (s c r u : Nat) (wasRepeat : Bool) :
    (d.unitMissed s c r u wasRepeat).sesView SesSt.coding = d.sesView SesSt.coding := by
  unfold Dev.unitMissed
  have hmissed := d.modPic_coding s c (f := fun p => { p with missed := p.missed ++ [(r, u)] }) (fun _ => ⟨rfl, rfl⟩)
  generalize d.modPic s c (fun p => { p with missed := p.missed ++ [(r, u)] }) = m at hmissed
  dsimp only
  cases m.pic? s (c + 1) with
  | none => exact hmissed
  | some p =>
    have hnext := m.modPic_coding s (c + 1) (f := fun p => { p with repeats := p.repeats ++ [(r, u)], flags := setBit p.flags 7 true })
      (fun _ => ⟨rfl, rfl⟩)
    have hput := (Dev.sesView_of_code (Dev.flagsPut_code _ s p.rec_ (setBit p.flags 7 true))).trans (hnext.trans hmissed)
    exact ite_keeps (p := Dev.sesView SesSt.coding) ((Dev.sesView_of_code (Dev.refreshLate_code _ _ _ _)).trans hput) hput

/-- A row of which one more unit is coded (R324). -/
def RowSt.coded (r : RowSt) (cost qp : Nat) (salv minimal : Bool) : RowSt :=
  { r with spent := r.spent + cost, units := r.units + 1, salv := salv, skip := minimal || r.skip
           flags := r.flags ++ [(salv, minimal || r.skip)], qp := qp }

/-- Coding a unit advances its row and changes no other. -/
theorem Dev.codeUnit_coding {d : Dev} {j : RowJob} {p : PicSt} (hpic : d.pic? j.ses j.c = some p)
    (hunits : (p.row j.row).units < d.rowUnits j.ses j.row) (bits least : Nat) (cell : Int) (sal : Nat) :
    ∃ cost qp salv minimal, (d.codeUnit j bits least cell sal).sesView SesSt.coding =
      (d.modRow j.ses j.c j.row (fun r => r.coded cost qp salv minimal)).sesView SesSt.coding := by
  unfold Dev.codeUnit
  simp -zeta only [hpic]
  extract_lets s r total k uf fl nb skip0 chain left floor avg salv0 salv past minimal cost off qp0 qp turned coded noted
  rw [if_neg (Nat.not_le.mpr hunits)]
  have hnoted : noted.sesView SesSt.coding = coded.sesView SesSt.coding := Dev.modPic_coding _ _ _ (fun _ => ⟨rfl, rfl⟩)
  exact ⟨cost, qp, salv, minimal, ite_keeps (p := Dev.sesView SesSt.coding) ((Dev.unitMissed_coding _ _ _ _ _ _).trans hnoted) hnoted⟩

theorem Dev.codeUnit_units {d : Dev} {j : RowJob} {p : PicSt} (hpic : d.pic? j.ses j.c = some p) (hrow : j.row < p.rows.length)
    (hunits : (p.row j.row).units < d.rowUnits j.ses j.row) (bits least : Nat) (cell : Int) (sal : Nat) :
    ((d.codeUnit j bits least cell sal).row? j.ses j.c j.row).map RowSt.units = some ((p.row j.row).units + 1) := by
  obtain ⟨cost, qp, salv, minimal, hcoding⟩ := Dev.codeUnit_coding hpic hunits bits least cell sal
  rw [Dev.row?_of_coding hcoding, Dev.row?_modRow_same hpic hrow]
  rfl

/-! ### UNIT_BOUNDARY (R296, R324) -/

section
variable {s : State} {e : Fin 68} {j : RowJob} (bits least : Nat) (cell : Int) (sal : Nat)

theorem unitBoundary_idle (hlive : (s.dev.ve e).live = none) (hother : (s.dev.ve e).other = none) :
    Completes (.unitBoundary e bits least cell sal) s (fun d => d = s.dev) := by
  refine ⟨s, ?_, rfl, rfl⟩
  show execUnitBoundary e bits least cell sal s = _
  simp only [execUnitBoundary, State.run, hlive, hother]

/-- The other row `j` of engine `e` pauses. -/
def Dev.rowPaused (d : Dev) (e : Nat) (j : RowJob) : Dev :=
  (d.modRow j.ses j.c j.row (fun r => { r with state := 4 })).modVe e (fun v =>
    { v with paused := true, other := some { j with pausedAt := d.elapsed } })

theorem unitBoundary_pauses (hlive : (s.dev.ve e).live = none) (hother : (s.dev.ve e).other = some j)
    (hruns : (s.dev.ve e).paused = false) (hready : (s.dev.pickLive (s.dev.ve e).queue).isSome = true)
    (hve : e.val < s.dev.code.ve.length) : Completes (.unitBoundary e bits least cell sal) s (fun d =>
      (d.ve e).paused = true ∧ (d.ve e).other = some { j with pausedAt := s.dev.elapsed }) := by
  have hexec : execUnitBoundary e bits least cell sal s = .next { s with dev := (s.dev.rowPaused e j).veSelect e } := by
    unfold execUnitBoundary State.run
    simp only [hlive, hother, hruns, hready, Bool.false_eq_true, if_false, if_true]
    rfl
  have hpaused : (s.dev.rowPaused e j).ve e = { s.dev.ve e with paused := true, other := some { j with pausedAt := s.dev.elapsed } } :=
    Dev.ve_modVe (s.dev.modRow j.ses j.c j.row _) _ hve
  have hpick : ((s.dev.rowPaused e j).pickLive ((s.dev.rowPaused e j).ve e).queue).isSome = true := by
    rw [hpaused, (Dev.CmdApart.of_regs (d := s.dev) (e := s.dev.rowPaused e j) rfl).pickLive]
    exact hready
  obtain ⟨hkept, hstill⟩ := Dev.veSelect_other_of_live hpick
  refine ⟨_, hexec, rfl, ?_⟩
  dsimp only
  rw [hkept, hstill, hpaused]
  exact ⟨rfl, rfl⟩

theorem unitBoundary_codes {p : PicSt} (hlive : (s.dev.ve e).live = some j) (hpic : s.dev.pic? j.ses j.c = some p)
    (hrow : j.row < p.rows.length) (hunits : (p.row j.row).units < s.dev.rowUnits j.ses j.row) :
    Completes (.unitBoundary e bits least cell sal) s (fun d =>
      (d.row? j.ses j.c j.row).map RowSt.units = some ((p.row j.row).units + 1)) := by
  have hexec : execUnitBoundary e bits least cell sal s = .next { s with dev := s.dev.codeUnit j bits least cell sal } := by
    unfold execUnitBoundary State.run
    simp only [hlive]
  exact ⟨_, hexec, rfl, Dev.codeUnit_units hpic hrow hunits bits least cell sal⟩

end

end Sys2Proof.Machine
end

section
/-!
A row is done: its engine is free, its bytes stand, and its picture goes on (R309, R312, R319, R326).
-/
namespace Sys2Proof.Machine

/-! ### What leaves every engine as it is -/

/-- The engines, the time that they have worked, and the loans. -/
def Dev.engines (d : Dev) : List VeSt × Nat × SrvSt := (d.code.ve, d.worked)

theorem Dev.engines_of_code {d e : Dev} (hcode : e.code = d.code) (hsrv : e.srv = d.srv) : e.engines = d.engines := by
  rw [Dev.engines, Dev.engines, Dev.worked, Dev.worked, hcode, hsrv]

theorem Dev.Touches.engines {d e : Dev} {rs : List Nat} (h : d.Touches rs e) : e.engines = d.engines := Dev.engines_of_code h.code h.srv

theorem Dev.set_engines (d : Dev) (f : Fld) (v : Nat) : (d.set f v).engines = d.engines := rfl

theorem Dev.modSes_engines (d : Dev) (s : Nat) (f : SesSt → SesSt) : (d.modSes s f).engines = d.engines := rfl

theorem Dev.eventAt_engines (d : Dev) (code severity inst : Nat) (items : List Item) :
    (d.eventAt code severity inst items).engines = d.engines := (d.eventAt_reports code severity inst items).engines

theorem Dev.poolWrite_engines (d : Dev) (n o : Nat) (bs : List Byte) : (d.poolWrite n o bs).engines = d.engines :=
  (d.poolWrite_touches n o bs).engines

theorem Dev.recPut_engines (d : Dev) (s k o len v : Nat) : (d.recPut s k o len v).engines = d.engines := d.poolWrite_engines _ _ _

theorem Dev.recGen_engines (d : Dev) (s k : Nat) : (d.recGen s k).engines = d.engines := d.recPut_engines _ _ _ _ _

theorem Dev.flagsPut_engines (d : Dev) (s : Nat) (k : Option Nat) (flags : Nat) : (d.flagsPut s k flags).engines = d.engines := by
  cases k with
  | none => rfl
  | some k => exact d.recPut_engines s k 0xC 4 flags

theorem Dev.hold_engines (d : Dev) (key by_ : Nat) : (d.hold key by_).engines = d.engines := ite_keeps (p := Dev.engines) rfl rfl

theorem Dev.foldl_hold_engines (d : Dev) (l : List Nat) (by_ : Nat) : (l.foldl (fun d b => d.hold b by_) d).engines = d.engines :=
  foldl_keeps (p := Dev.engines) (fun d b => d.hold_engines b by_) l d

theorem Dev.showLoad_touches (d : Dev) : d.Touches [R.VE_LOAD, R.VE_MEM_EST, R.DEV_CAPS] d.showLoad :=
  ((((d.set_touches F.VE_LOAD_COMMITTED _ (by decide)).trans (Dev.set_touches _ F.VE_LOAD_CAPACITY _ (by decide))).trans
    (Dev.set_touches _ F.VE_MEM_EST_ALL_GBS _ (by decide))).trans (Dev.set_touches _ F.VE_MEM_EST_LIVE_GBS _ (by decide))).trans
    (Dev.set_touches _ F.DEV_CAPS_VE_ACTIVE _ (by decide))

theorem Dev.srcRelease_engines (d : Dev) (s : Nat) : (d.srcRelease s).engines = d.engines := by
  unfold Dev.srcRelease
  split
  · unfold Dev.grpRelease
    exact Dev.foldl_hold_engines _ _ _
  · unfold Dev.sesRelease
    exact Dev.foldl_hold_engines _ _ _

/-- A stopped session leaves the engines. -/
theorem Dev.sesStopped_engines (d : Dev) (s : Nat) : (d.sesStopped s).engines = d.engines := by
  unfold Dev.sesStopped
  extract_lets group ended shown said last
  have hsaid : said.engines = d.engines := Dev.eventAt_engines _ _ _ _ _
  refine (Dev.showLoad_touches _).engines.trans ?_
  dsimp only [last]
  cases group
  case some g => exact Eq.trans (ite_keeps (p := Dev.engines) rfl rfl) hsaid
  case none => exact hsaid

/-! ### Bands and interrupted rows -/

section
variable {β : Type} {φ : Dev → β}

/-- What keeps the substitutions and events out of sight does not see interrupted rows settle. -/
theorem Dev.subSettle_keeps (hsubs : ∀ (d : Dev) (l : List (Option VeSub)), φ { d with code := { d.code with subs := l } } = φ d)
    (hevent : ∀ (d : Dev) (code severity inst : Nat) (items : List Item), φ (d.eventAt code severity inst items) = φ d)
    (d : Dev) (q : Nat) : φ (d.subSettle q) = φ d := by
  unfold Dev.subSettle
  cases d.code.subs.getD q none with
  | none => rfl
  | some x =>
    extract_lets rowsOpen
    refine ite_keeps rfl (ite_keeps (hsubs _ _) ?_)
    extract_lets job settled
    cases job
    case some j => exact (hevent _ _ _ _ _).trans (hsubs _ _)
    case none => exact (hevent _ _ _ _ _).trans (hsubs _ _)

/-- What reads neither the pools nor the bands does not see them published. -/
theorem Dev.publish_keeps (hpool : ∀ (d : Dev) (n o : Nat) (bs : List Byte), φ (d.poolWrite n o bs) = φ d)
    (hbands : ∀ (d : Dev) (s c n k : Nat), φ (d.modPic s c (fun p => { p with bands := n, bytesDone := p.bytesDone + k })) = φ d)
    (d : Dev) (s c : Nat) : φ (d.publish s c) = φ d := by
  unfold Dev.publish
  cases d.pic? s c with
  | none => rfl
  | some p =>
    dsimp only
    refine ite_keeps rfl ((hbands _ _ _ _ _).trans ?_)
    split
    · exact ((hpool _ _ _ _).trans (hpool _ _ _ _)).trans (hpool _ _ _ _)
    · rfl

end

/-! ### A picture is complete -/

/-- A complete picture leaves the engines. -/
theorem Dev.picDone_engines (d : Dev) (s c : Nat) : (d.picDone s c).engines = d.engines := by
  unfold Dev.picDone
  cases d.pic? s c with
  | none => rfl
  | some p =>
    dsimp -zeta only
    extract_lets q codec bits next past inOrder fill size salvaged sub flags cto filled boxed written done removed numbered
      tallied counted trimmed released
    have hwritten : written.engines = d.engines := by
      dsimp only [written]
      split
      · exact ((((Dev.recGen_engines _ _ _).trans (Dev.recPut_engines _ _ _ _ _ _)).trans (Dev.recPut_engines _ _ _ _ _ _)).trans
          (Dev.recPut_engines _ _ _ _ _ _)).trans ((Dev.poolWrite_engines _ _ _ _).trans (Dev.poolWrite_engines _ _ _ _))
      · exact (Dev.recGen_engines _ _ _).trans (Dev.recPut_engines _ _ _ _ _ _)
      · rfl
    have hnumbered : numbered.engines = d.engines := (removed.set_engines _ _).trans ((written.modSes_engines s _).trans hwritten)
    clear_value numbered
    have htallied : tallied.engines = d.engines := (Dev.set_engines _ _ _).trans ((Dev.set_engines _ _ _).trans hnumbered)
    have hcounted : counted.engines = d.engines :=
      ite_keeps (p := Dev.engines) (ite_keeps (p := Dev.engines) htallied ((Dev.eventAt_engines _ _ _ _ _).trans
        ((Dev.modSes_engines _ s _).trans htallied))) hnumbered
    clear_value counted
    have htrimmed : trimmed.engines = d.engines := by
      dsimp only [trimmed]
      split
      · exact hcounted
      · exact hcounted
    have hreleased : released.engines = d.engines := (Dev.srcRelease_engines _ s).trans htrimmed
    exact ite_keeps (p := Dev.engines) ((Dev.sesStopped_engines _ _).trans hreleased) hreleased

/-! ### ROW_DONE (R312) -/

/-- A row that is done. -/
def RowSt.done (r : RowSt) (bytes : List Byte) : RowSt := { r with state := 6, bytes := bytes }

/-- An engine without the row that ran on it. -/
def VeSt.freed (v : VeSt) : VeSt := if v.live.isSome then { v with live := none } else { v with other := none, paused := false }

/-- The time that the row `j` ran counts. -/
def Dev.rowTimed (d : Dev) (j : RowJob) : Dev :=
  { d with code := { d.code with busyNs := d.code.busyNs + (d.elapsed - j.start - j.paused) } }

/-- The row `j` has its bytes. -/
def Dev.rowWritten (d : Dev) (j : RowJob) (bytes : List Byte) : Dev := (d.rowTimed j).modRow j.ses j.c j.row (fun r => r.done bytes)

/-- The row `j` on engine `e` ends with its bytes. -/
def Dev.rowEnded (d : Dev) (e : Nat) (j : RowJob) (bytes : List Byte) : Dev := (d.rowWritten j bytes).modVe e VeSt.freed

/-- A picture with a row that was re-run says so in its flags (R313). -/
def Dev.rowMarked (d : Dev) (j : RowJob) (p : PicSt) : Dev :=
  if (p.row j.row).sub then
    (d.modPic j.ses j.c (fun x => { x with flags := setBit p.flags 9 true })).flagsPut j.ses p.rec_ (setBit p.flags 9 true)
  else d

/-- The picture goes on, or is complete with this row. -/
def Dev.picSettle (d : Dev) (j : RowJob) : Dev :=
  match d.pic? j.ses j.c with
  | some p => if p.rows.all (fun r => r.state == 6) then d.picDone j.ses j.c else d.srcRelease j.ses
  | none => d

/-- The row's picture with the row's bytes, published as far as it is complete. -/
def Dev.rowShown (d : Dev) (e : Nat) (j : RowJob) (p : PicSt) (bytes : List Byte) : Dev :=
  (((d.rowEnded e j bytes).rowMarked j p).publish j.ses j.c).subSettle (e / 17)

section
variable {d : Dev} {e : Nat} {j : RowJob} {p : PicSt} {bytes : List Byte}

theorem Dev.rowDone_early (hlive : (d.ve e).live = some j) (hpic : d.pic? j.ses j.c = some p)
    (hunits : (p.row j.row).units < d.rowUnits j.ses j.row) : d.rowDone e bytes = d := by
  unfold Dev.rowDone
  simp only [hlive, hpic]
  exact if_pos (.inl hunits)

theorem Dev.rowDone_coded (hlive : (d.ve e).live = some j) (hpic : d.pic? j.ses j.c = some p)
    (hunits : d.rowUnits j.ses j.row ≤ (p.row j.row).units) (hbytes : 8 * bytes.length ≤ (p.row j.row).budget) :
    d.rowDone e bytes = ((d.rowShown e j p bytes).picSettle j).veSelect e := by
  unfold Dev.rowDone
  extract_lets v job
  have hjob : job = some j := by
    dsimp only [job, v]
    rw [hlive]
  simp -zeta only [hjob, hpic]
  extract_lets r ran worked ended freed marked shown settled
  exact if_neg (not_or.mpr ⟨Nat.not_lt.mpr hunits, Nat.not_lt.mpr hbytes⟩)

end

end Sys2Proof.Machine
end

section
/-!
ROW_DONE: the engine's time counts, its row ends with its bytes and the engine is free (R312).
-/
namespace Sys2Proof.Machine

section
variable {d : Dev} {e : Nat} {j : RowJob} {p : PicSt} {bytes : List Byte}

/-! ### The stages of a row's end -/

theorem Dev.rowMarked_engines : (d.rowMarked j p).engines = d.engines :=
  ite_keeps (p := Dev.engines) (Dev.flagsPut_engines _ _ _ _) rfl

theorem Dev.rowMarked_coding : (d.rowMarked j p).sesView SesSt.coding = d.sesView SesSt.coding :=
  ite_keeps (p := Dev.sesView SesSt.coding)
    ((Dev.sesView_of_code (Dev.flagsPut_code _ _ _ _)).trans (d.modPic_coding _ _ (fun _ => ⟨rfl, rfl⟩))) rfl

theorem Dev.rowShown_engines : (d.rowShown e j p bytes).engines = (d.rowEnded e j bytes).engines :=
  ((Dev.subSettle_keeps (fun _ _ => rfl) Dev.eventAt_engines _ _).trans
    (Dev.publish_keeps Dev.poolWrite_engines (fun _ _ _ _ _ => rfl) _ _ _)).trans Dev.rowMarked_engines

theorem Dev.rowShown_coding : (d.rowShown e j p bytes).sesView SesSt.coding = (d.rowEnded e j bytes).sesView SesSt.coding :=
  ((Dev.subSettle_keeps (φ := Dev.sesView SesSt.coding) (fun _ _ => rfl) (fun d _ _ _ _ => Dev.sesView_of_code (d.eventAt_code _ _ _ _))
    _ _).trans (Dev.publish_keeps (φ := Dev.sesView SesSt.coding) (fun d _ _ _ => Dev.sesView_of_code (d.poolWrite_code _ _ _))
      (fun d _ _ _ _ => d.modPic_coding _ _ (fun _ => ⟨rfl, rfl⟩)) _ _ _)).trans Dev.rowMarked_coding

/-- The row's picture has the row's bytes. -/
theorem Dev.rowShown_pic? (hpic : d.pic? j.ses j.c = some p) : ∃ q, (d.rowShown e j p bytes).pic? j.ses j.c = some q ∧
    q.rows = modifyAt p.rows j.row (fun r => r.done bytes) := by
  have hended : ((d.rowEnded e j bytes).pic? j.ses j.c).map PicSt.rows = some (modifyAt p.rows j.row (fun r => r.done bytes)) :=
    congrArg (Option.map PicSt.rows) ((Dev.pic?_modRow_same (d.rowTimed j) _ _ _ _).trans (congrArg (Option.map _) hpic))
  exact Option.map_eq_some_iff.mp ((Dev.rows_of_coding Dev.rowShown_coding j.ses j.c).trans hended)

theorem Dev.picSettle_engines : (d.picSettle j).engines = d.engines := by
  unfold Dev.picSettle
  split
  · exact ite_keeps (p := Dev.engines) (d.picDone_engines _ _) (d.srcRelease_engines _)
  · rfl

/-- While a row of its picture is not done the picture stays in progress. -/
theorem Dev.picSettle_coding (hpic : d.pic? j.ses j.c = some p) (hopen : ∃ r < p.rows.length, (p.row r).state ≠ 6) :
    (d.picSettle j).sesView SesSt.coding = d.sesView SesSt.coding := by
  obtain ⟨r, hr, hstate⟩ := hopen
  have hleft : ¬ p.rows.all (fun r => r.state == 6) = true := fun hall => by
    rw [List.all_eq_true] at hall
    refine hstate (beq_iff_eq.mp (hall (p.row r) ?_))
    rw [PicSt.row, elemAt, List.getD_eq_getElem _ _ hr]
    exact List.getElem_mem hr
  unfold Dev.picSettle
  simp only [hpic]
  rw [if_neg hleft]
  exact d.srcRelease_sesView (fun _ _ => rfl) _

/-! ### The whole command -/

theorem Dev.rowDone_worked (hlive : (d.ve e).live = some j) (hpic : d.pic? j.ses j.c = some p)
    (hunits : d.rowUnits j.ses j.row ≤ (p.row j.row).units) (hbytes : 8 * bytes.length ≤ (p.row j.row).budget) :
    (d.rowDone e bytes).worked = (d.code.busyNs + (d.elapsed - j.start - j.paused), d.srv) := by
  rw [Dev.rowDone_coded hlive hpic hunits hbytes, Dev.veSelect_worked]
  exact congrArg Prod.snd (Dev.picSettle_engines.trans Dev.rowShown_engines)

/-- With rows of the picture left and no other work, the row stands with its bytes and its engine is free. -/
theorem Dev.rowDone_leaves (hlive : (d.ve e).live = some j) (hpic : d.pic? j.ses j.c = some p) (hrow : j.row < p.rows.length)
    (hunits : d.rowUnits j.ses j.row ≤ (p.row j.row).units) (hbytes : 8 * bytes.length ≤ (p.row j.row).budget)
    (hqueue : (d.ve e).queue = []) (hother : (d.ve e).other = none) (hve : e < d.code.ve.length)
    (hleft : ∃ r < p.rows.length, r ≠ j.row ∧ (p.row r).state ≠ 6) :
    ((d.rowDone e bytes).row? j.ses j.c j.row).map (fun r => (r.state, r.bytes)) = some (6, bytes) ∧
      ((d.rowDone e bytes).ve e).live = none := by
  have hended : (d.rowEnded e j bytes).ve e = (d.ve e).freed := Dev.ve_modVe (d.rowWritten j bytes) _ hve
  have hfree : ((d.rowShown e j p bytes).picSettle j).ve e = (d.ve e).freed :=
    (Dev.ve_congr (congrArg Prod.fst (Dev.picSettle_engines.trans Dev.rowShown_engines)) e).trans hended
  obtain ⟨q, hq, hqrows⟩ := Dev.rowShown_pic? (e := e) (bytes := bytes) hpic
  have hopen : ∃ r < q.rows.length, (q.row r).state ≠ 6 := by
    obtain ⟨r, hr, hne, hstate⟩ := hleft
    refine ⟨r, ?_, ?_⟩
    · rw [hqrows]
      exact hr.trans_eq (List.length_modify _ _ _).symm
    · rw [PicSt.row, hqrows, elemAt_modifyAt_ne _ _ _ hne]
      exact hstate
  have hdone : q.row j.row = (p.row j.row).done bytes := by
    rw [PicSt.row, hqrows]
    exact elemAt_modifyAt _ _ hrow
  have hfreed : (d.ve e).freed = { d.ve e with live := none } := by
    rw [VeSt.freed, hlive]
    rfl
  have hidle : (d.rowDone e bytes) = ((d.rowShown e j p bytes).picSettle j).showVe e := by
    rw [Dev.rowDone_coded hlive hpic hunits hbytes]
    refine Dev.veSelect_idle ?_ ?_
    · rw [hfree, hfreed]
      exact hqueue
    · rw [hfree, hfreed]
      exact hother
  rw [hidle, Dev.showVe_ve, Dev.showVe_row?, Dev.row?_of_coding (Dev.picSettle_coding hq hopen), hfree, hfreed, Dev.row?, hq]
  exact ⟨congrArg (fun r : RowSt => some (r.state, r.bytes)) hdone, rfl⟩

end

/-! ### ROW_DONE -/

section
variable {s : State} {e : Fin 68} {j : RowJob} {p : PicSt} {bytes : List Byte}

theorem execRowDone_eq (h : (s.dev.rowDone e bytes).srv.returns = []) :
    execRowDone e bytes s = .next { s with dev := s.dev.rowDone e bytes } := by
  rw [execRowDone, State.run_eq, Dev.workReturn, h]
  rfl

theorem rowDone_idle (hloans : s.dev.srv.returns = []) (hlive : (s.dev.ve e).live = some j) (hpic : s.dev.pic? j.ses j.c = some p)
    (hunits : (p.row j.row).units < s.dev.rowUnits j.ses j.row) : Completes (.rowDone e bytes) s (fun d => d = s.dev) := by
  have hearly := Dev.rowDone_early (bytes := bytes) hlive hpic hunits
  exact ⟨_, execRowDone_eq (by rw [hearly, hloans]), rfl, hearly⟩

theorem rowDone_ends (hloans : s.dev.srv.returns = []) (hlive : (s.dev.ve e).live = some j) (hpic : s.dev.pic? j.ses j.c = some p)
    (hrow : j.row < p.rows.length) (hunits : s.dev.rowUnits j.ses j.row ≤ (p.row j.row).units)
    (hbytes : 8 * bytes.length ≤ (p.row j.row).budget) : Completes (.rowDone e bytes) s (fun d =>
      d.code.busyNs = s.dev.code.busyNs + (s.dev.elapsed - j.start - j.paused) ∧
      ((s.dev.ve e).queue = [] → (s.dev.ve e).other = none → e.val < s.dev.code.ve.length →
        (∃ r < p.rows.length, r ≠ j.row ∧ (p.row r).state ≠ 6) →
        (d.row? j.ses j.c j.row).map (fun r => (r.state, r.bytes)) = some (6, bytes) ∧ (d.ve e).live = none)) := by
  have hworked := Dev.rowDone_worked hlive hpic hunits hbytes
  exact ⟨_, execRowDone_eq ((congrArg (fun w => w.2.returns) hworked).trans hloans), rfl, congrArg Prod.fst hworked,
    Dev.rowDone_leaves hlive hpic hrow hunits hbytes⟩

end

end Sys2Proof.Machine
end

section
/-!
The analysis of a group's pictures (R303, R305).
-/
namespace Sys2Proof.Machine

/-- The next picture of group `g` to analyse, and the number that its status shows. -/
def Dev.analysis (g : Nat) (d : Dev) : Nat × Nat := ((d.grp g).nextA, d.get (F.LG_STATUS_PIC_NO g))

theorem LG_STATUS_not_reported {g : Nat} (hg : g < 8) : R.LG_STATUS g ∉ reportRegs :=
  not_mem_reportRegs (by simp only [R.LG_STATUS]; omega) (by simp only [R.LG_STATUS]; omega)

theorem Dev.grp_modGrp (d : Dev) {g : Nat} (f : GrpSt → GrpSt) (h : g < d.code.grp.length) : (d.modGrp g f).grp g = f (d.grp g) :=
  elemAt_modifyAt f {} h

theorem Dev.grp_set (d : Dev) (f : Fld) (v g : Nat) : (d.set f v).grp g = d.grp g := rfl

section
variable {g : Nat} {d e : Dev}

theorem Dev.Reports.analysis (h : d.Reports e) (hg : g < 8) : e.analysis g = d.analysis g := by
  rw [Dev.analysis, Dev.analysis, Dev.grp, Dev.grp, h.code, h.get (F.LG_STATUS_PIC_NO g) (LG_STATUS_not_reported hg)]

/-- A change of the group that keeps the next picture. -/
theorem Dev.modGrp_analysis (d : Dev) (g : Nat) {f : GrpSt → GrpSt} (hf : ∀ x, (f x).nextA = x.nextA) :
    (d.modGrp g f).analysis g = d.analysis g := by
  have hnext : ((d.modGrp g f).grp g).nextA = (d.grp g).nextA := by
    by_cases hlen : g < d.code.grp.length
    · rw [d.grp_modGrp f hlen, hf]
    · rw [Dev.grp, Dev.modGrp, modifyAt, List.modify_eq_self (Nat.le_of_not_lt hlen), Dev.grp]
  exact Prod.ext hnext rfl

theorem Dev.hold_analysis (d : Dev) (key by_ : Nat) : (d.hold key by_).analysis g = d.analysis g :=
  ite_keeps (p := Dev.analysis g) rfl rfl

theorem Dev.grpRelease_analysis (d : Dev) (g : Nat) : (d.grpRelease g).analysis g = d.analysis g := by
  unfold Dev.grpRelease
  exact (foldl_keeps (p := Dev.analysis g) (fun d b => d.hold_analysis b _) _ _).trans (d.modGrp_analysis g (fun _ => rfl))

/-- A scene cut leaves the next picture and the number shown. -/
theorem Dev.sceneCut_analysis (d : Dev) (hg : g < 8) (n score : Nat) : (d.sceneCut g n score).analysis g = d.analysis g := by
  have hevent : ∀ (d : Dev) (code severity : Nat) (items : List Item), (d.eventAt code severity g items).analysis g = d.analysis g :=
    fun d _ _ _ => Dev.Reports.analysis (d.eventAt_reports _ _ _ _) hg
  unfold Dev.sceneCut
  extract_lets said x mode at_ halved key moved
  have hsaid : said.analysis g = d.analysis g := hevent _ _ _ _
  have hmoved : moved.analysis g = d.analysis g := ite_keeps (p := Dev.analysis g) hsaid ((hevent _ _ _ _).trans hsaid)
  clear_value said moved
  exact ite_keeps (p := Dev.analysis g) hsaid ((moved.modGrp_analysis g (fun _ => by rfl)).trans hmoved)

/-- A group whose picture `n` is analysed, with the record and the means of it. -/
def GrpSt.analysed (x : GrpSt) (n : Nat) (r : AnaRec) (means : List Nat → List Nat) : GrpSt :=
  { x with nextA := n + 1, recs := x.recs ++ [r], means := means x.means }

/-- Picture `n` of the group is analysed. -/
def Dev.grpAnalysed (d : Dev) (g n : Nat) (r : AnaRec) (means : List Nat → List Nat) : Dev :=
  (d.modGrp g (fun x => x.analysed n r means)).set (F.LG_STATUS_PIC_NO g) n

theorem Dev.grpAnalysed_analysis (d : Dev) (hlen : g < d.code.grp.length) (n : Nat) (r : AnaRec) (means : List Nat → List Nat) :
    (d.grpAnalysed g n r means).analysis g = (n + 1, n % 2 ^ 24) := by
  rw [Dev.analysis, Dev.grpAnalysed, Dev.grp_set, d.grp_modGrp _ hlen,
    Dev.get_set_same _ (F.LG_STATUS_PIC_NO g) n (Fld.ok_of_ble rfl)]
  rfl

end

/-! ### ANALYSIS_DONE -/

section
variable {s : State} {g : Fin 8} (dist : List Int) (field : List Byte) (cells sal : List Nat)

theorem analysisDone_idle (h : (s.dev.grp g).run = false) : Completes (.analysisDone g dist field cells sal) s (fun d => d = s.dev) := by
  refine ⟨s, ?_, rfl, rfl⟩
  show execAnalysisDone g dist field cells sal s = _
  simp [execAnalysisDone, State.run, h]

theorem analysisDone_analyses {src : SrcSel} (hrun : (s.dev.grp g).run = true)
    (hsrc : ((s.dev.grpSources g (s.dev.grp g).nextA).grp g).srcs.find? (fun p => p.n == (s.dev.grp g).nextA) = some src) :
    Completes (.analysisDone g dist field cells sal) s (fun d => (d.grp g).nextA = (s.dev.grp g).nextA + 1 ∧
      d.get (F.LG_STATUS_PIC_NO g) = (s.dev.grp g).nextA % 2 ^ 24) := by
  have hlen : g.val < (s.dev.grpSources g (s.dev.grp g).nextA).code.grp.length := by
    refine lt_length_of_elemAt_ne (x := {}) (fun hnone => ?_)
    rw [show Dev.grp (s.dev.grpSources g _) g = {} from hnone] at hsrc
    cases hsrc
  suffices h : ∃ d, execAnalysisDone g dist field cells sal s = .next { s with dev := d } ∧
      d.analysis g = ((s.dev.grp g).nextA + 1, (s.dev.grp g).nextA % 2 ^ 24) by
    obtain ⟨d, hexec, hd⟩ := h
    exact ⟨_, hexec, rfl, Prod.ext_iff.mp hd⟩
  refine ⟨_, rfl, ?_⟩
  beta_reduce
  extract_lets x n sources latched blocks score prevKey cut mean
  have hfound : (sources.grp g).srcs.find? (fun p => p.n == n) = some src := hsrc
  rw [if_neg (show ¬ (!x.run) = true by simp [x, hrun])]
  simp -zeta only [hfound]
  extract_lets head bytes noted shown last
  have hshown : shown.analysis g = (n + 1, n % 2 ^ 24) := Dev.grpAnalysed_analysis latched hlen n _ (fun l => (mean :: l).take _)
  have hcut := (Dev.sceneCut_analysis shown g.isLt n score).trans hshown
  exact (last.grpRelease_analysis g).trans (ite_keeps (p := Dev.analysis g) hcut hshown)

end

end Sys2Proof.Machine
end

section
/-!
Rows and the analysis of groups (R295-R297, R303, R312, R324).
-/
namespace Sys2Proof.Machine

/-- What is read of a row, through its picture. -/
theorem Dev.map_row? {β : Type} (d : Dev) (s c r : Nat) (φ : RowSt → β) :
    (d.row? s c r).map φ = (d.pic? s c).map (fun p => φ (p.row r)) := Option.map_map ..

/-- Settles O49: a ready row waits or starts with its engine (R296, R297), units advance a row or pause it for a LIVE one, a row's end
leaves its bytes on an idle engine, and the next picture of a group is analysed (R303). -/
theorem rowsAndAnalysis : Obligations.RowsAndAnalysis := by
  unfold Obligations.RowsAndAnalysis
  simp only [← Dev.map_row?]
  refine ⟨?_, fun s x back row => rowReady_nothing back, fun s e => ⟨liveRowRelease_idle, ?_⟩,
    fun s e bits least cell sal => ⟨unitBoundary_idle bits least cell sal, ?_, fun j p => unitBoundary_codes bits least cell sal⟩, ?_,
    fun s g dist field cells sal => ⟨analysisDone_idle dist field cells sal, ?_⟩⟩
  · intro s x row p hpics hstate hrow hready hengine hengines
    have hve : p.engine row < s.dev.code.ve.length := hengine.trans_eq hengines.symm
    refine ⟨fun t hclass hlast hsoon => rowReady_waits hpics hstate hrow hready hve hclass hlast hsoon, fun hspare hidle => ?_⟩
    exact rowReady_starts hpics hstate hrow hready hve hspare hidle
  · exact fun j rest hheld hengines => liveRowRelease_releases hheld (e.isLt.trans_eq hengines.symm)
  · exact fun j hlive hother hruns hready hengines =>
      unitBoundary_pauses bits least cell sal hlive hother hruns hready (e.isLt.trans_eq hengines.symm)
  · intro s e bytes j p hloans hlive hpic hrow
    refine ⟨rowDone_idle hloans hlive hpic, fun hunits hbytes => ?_⟩
    refine (rowDone_ends hloans hlive hpic hrow hunits hbytes).mono (fun d ⟨hbusy, hleaves⟩ => ⟨hbusy, ?_⟩)
    intro hqueue hother hengines hleft
    have h := hleaves hqueue hother (e.isLt.trans_eq hengines.symm) hleft
    rwa [Dev.map_row?] at h
  · exact fun src hrun _ hsrc => analysisDone_analyses dist field cells sal hrun hsrc

end Sys2Proof.Machine
end

section
/-!
The decoders take access units and write pictures with their records (R338-R344).
-/
namespace Sys2Proof.Machine

/-! ### Registers of a decoder -/

theorem DEC_IDX_apart (k j : Nat) : R.DEC_IDX k ≠ R.DEC_STATUS j ∧ R.DEC_IDX k ≠ R.DEC_CNT j := by
  simp only [R.DEC_IDX, R.DEC_STATUS, R.DEC_CNT]
  omega

theorem DEC_OUT_RING_apart (k j : Nat) :
    R.DEC_OUT_RING k ≠ R.DEC_IDX j ∧ R.DEC_OUT_RING k ≠ R.DEC_STATUS j ∧ R.DEC_OUT_RING k ≠ R.DEC_CNT j := by
  simp only [R.DEC_OUT_RING, R.DEC_IDX, R.DEC_STATUS, R.DEC_CNT]
  omega

theorem decoder_not_reported {k : Nat} (hk : k < 16) : R.DEC_IDX k ∉ reportRegs ∧ R.DEC_OUT_RING k ∉ reportRegs :=
  ⟨not_mem_reportRegs (by simp only [R.DEC_IDX]; omega) (by simp only [R.DEC_IDX]; omega),
    not_mem_reportRegs (by simp only [R.DEC_OUT_RING]; omega) (by simp only [R.DEC_OUT_RING]; omega)⟩

theorem Dev.decoder_modDec (d : Dev) {k : Nat} (f : DecSt → DecSt) (h : k < d.decs.length) : (d.modDec k f).decoder k = f (d.decoder k) :=
  elemAt_modifyAt f {} h

/-! ### DECODER_ACCESS_UNIT (R338, R344) -/

/-- Decoder `k` has taken unit `u` of its flow; `rest` wait. -/
def Dev.decTaken (d : Dev) (k : Nat) (u : List Byte × Nat × Nat × Bool) (rest : List (List Byte × Nat × Nat × Bool)) : Dev :=
  { d with decs := d.decs.modify k (fun x => { x with fifo := rest, waitRap := false, input := x.input ++ [u] }) }

section
variable {s : State} {k : Fin 16} (rap : Bool)

theorem decoderAccessUnit_idle (h : (s.dev.decoder k).run = false) : Completes (.decoderAccessUnit k rap) s (fun d => d = s.dev) := by
  refine ⟨s, ?_, rfl, rfl⟩
  show execDecoderAccessUnit k rap s = _
  simp [execDecoderAccessUnit, State.run, h]

theorem decoderAccessUnit_stalls (hrun : (s.dev.decoder k).run = true)
    (hheld : s.dev.bufHeld (decBufKey k (s.dev.decoder k).nextBuf) = true) : Completes (.decoderAccessUnit k rap) s (fun d =>
      d.get (F.DEC_STATUS_STATE k) = 3 ∧ s.dev.Only d [F.DEC_STATUS_STATE k]) := by
  have hexec : execDecoderAccessUnit k rap s = .next { s with dev := s.dev.set (F.DEC_STATUS_STATE k) 3 } := by
    simp [execDecoderAccessUnit, State.run, hrun, hheld]
  exact ⟨_, hexec, rfl, Dev.get_set_same _ _ _ (Fld.ok_of_ble rfl), (Dev.Only.refl _ _).set 3 List.mem_cons_self (Fld.ok_of_ble rfl)⟩

omit rap in
/-- A unit of a flow at a random-access point is taken. -/
theorem decoderAccessUnit_takes {u : List Byte × Nat × Nat × Bool} {rest : List (List Byte × Nat × Nat × Bool)}
    (hrun : (s.dev.decoder k).run = true) (hfree : s.dev.bufHeld (decBufKey k (s.dev.decoder k).nextBuf) = false)
    (hflow : s.dev.flag (F.DEC_CFG_SRC k) = false) (hfifo : (s.dev.decoder k).fifo = u :: rest) (hwhole : u.2.2.2 = false) :
    Completes (.decoderAccessUnit k true) s (fun d => d.get (F.DEC_STATUS_STATE k) = 2 ∧
      (s.dev.decTaken k u rest).Only d [F.DEC_STATUS_STATE k]) := by
  have htake : s.dev.decTake k = some (s.dev.modDec k (fun x => { x with fifo := rest }), u) := by
    simp only [Dev.decTake, hflow, hfifo, Bool.false_eq_true, if_false]
  have hmods : (s.dev.modDec k (fun x => { x with fifo := rest })).modDec k
      (fun x => { x with waitRap := false, input := x.input ++ [u] }) = s.dev.decTaken k u rest :=
    congrArg (fun l => { s.dev with decs := l }) (List.modify_modify_eq _ _ _ _)
  have hexec : execDecoderAccessUnit k true s = .next { s with dev := (s.dev.decTaken k u rest).set (F.DEC_STATUS_STATE k) 2 } := by
    rw [← hmods]
    simp [execDecoderAccessUnit, State.run, hrun, hfree, htake, hwhole]
  exact ⟨_, hexec, rfl, Dev.get_set_same _ _ _ (Fld.ok_of_ble rfl), (Dev.Only.refl _ _).set 2 List.mem_cons_self (Fld.ok_of_ble rfl)⟩

end

/-! ### DECODER_PICTURE_DONE (R340-R343) -/

theorem Dev.tookFree_touches (d : Dev) (n : Nat) {rs : List Nat} : d.Touches rs (d.tookFree n) := Dev.Touches.of_same rfl ⟨[], by simp⟩

theorem Dev.Touches.poolWrite {d e : Dev} (h : d.Touches [R.MEM_INJ_CTRL] e) (n o : Nat) (bs : List Byte) :
    d.Touches [R.MEM_INJ_CTRL] (e.poolWrite n o bs) := h.trans (e.poolWrite_touches n o bs)

theorem Dev.decWrite_touches (d : Dev) (k i pic : Nat) (p : DecPic) (concealed : Bool) (planes : List (List Nat) × List (List Nat))
    (recv : Nat) : d.Touches [R.MEM_INJ_CTRL] (d.decWrite k i pic p concealed planes recv) := by
  unfold Dev.decWrite
  exact ((foldl_touches (fun d _ => d.poolWrite_touches _ _ _) _ d).trans (foldl_touches (fun d _ => d.poolWrite_touches _ _ _) _ _)).trans
    (Dev.poolWrite_touches _ _ _ _)

/-- The registers that a decoder counts and reports in. -/
def decReports (k : Nat) : List Nat := R.DEC_CNT k :: R.DEC_STATUS k :: reportRegs

theorem Dev.eventAt_decReports (d : Dev) (k code severity inst : Nat) (items : List Item) :
    d.Touches (decReports k) (d.eventAt code severity inst items) :=
  Dev.Touches.mono (d.eventAt_reports code severity inst items) (fun _ h => List.mem_cons_of_mem _ (List.mem_cons_of_mem _ h))

theorem Dev.Touches.ite {d e f : Dev} {rs : List Nat} {c : Prop} [Decidable c] (he : d.Touches rs e) (hf : d.Touches rs f) :
    d.Touches rs (if c then e else f) := by
  split
  · exact he
  · exact hf

/-- A picture and its record are counted and reported, and the concealed state is shown. -/
def Dev.decCounted (d : Dev) (k pic missing : Nat) (lost ends concealed state : Bool) : Dev :=
  let d := if concealed then d.bump (F.DEC_CNT_CONCEALED_PICS k) else d
  let d := d.add (F.DEC_CNT_SUBST_REFS k) missing
  let d := if 0 < missing then d.eventAt 0x0D0D sevNotice k [u8 k, u32 pic, u8 1] else d
  let d := if lost then d.eventAt 0x0D0D sevNotice k [u8 k, u32 pic, u8 2] else d
  let d := if ends then d.eventAt 0x0D0E sevInfo k [u8 k, u32 pic] else d
  d.setFlag (F.DEC_STATUS_CONCEALED k) state

theorem Dev.decCounted_touches (d : Dev) (k pic missing : Nat) (lost ends concealed state : Bool) :
    d.Touches (decReports k) (d.decCounted k pic missing lost ends concealed state) := by
  unfold Dev.decCounted
  extract_lets counted subst missed hurt ended
  have hcounted : d.Touches (decReports k) counted :=
    (Dev.set_touches _ (F.DEC_CNT_CONCEALED_PICS k) _ List.mem_cons_self).ite (Dev.Touches.refl _ _)
  have hsubst : d.Touches (decReports k) subst := hcounted.trans (Dev.set_touches _ (F.DEC_CNT_SUBST_REFS k) _ List.mem_cons_self)
  have hmissed : d.Touches (decReports k) missed := (hsubst.trans (Dev.eventAt_decReports _ k _ _ _ _)).ite hsubst
  have hhurt : d.Touches (decReports k) hurt := (hmissed.trans (Dev.eventAt_decReports _ k _ _ _ _)).ite hmissed
  have hended : d.Touches (decReports k) ended := (hhurt.trans (Dev.eventAt_decReports _ k _ _ _ _)).ite hhurt
  exact hended.trans (Dev.set_touches _ (F.DEC_STATUS_CONCEALED k) _ (List.mem_cons_of_mem _ List.mem_cons_self))

section
variable {k : Nat} {d r e : Dev} (hrecord : d.Reports r)
  (hcounted : (r.bump (F.DEC_IDX_REC_PROD k)).Touches (decReports k) e)
include hrecord hcounted

theorem Dev.decDone_decoder (hk : k < d.decs.length) (f : DecSt → DecSt) :
    ((e.modDec k f).set (F.DEC_STATUS_STATE k) 2).decoder k = f (d.decoder k) := by
  have hdecs : e.decs = d.decs := by rw [hcounted.decs, Dev.bump_decs, hrecord.decs]
  have hdec : e.decoder k = d.decoder k := by rw [Dev.decoder, Dev.decoder, hdecs]
  rw [← hdec]
  exact Dev.decoder_modDec e f (hk.trans_eq (congrArg List.length hdecs.symm))

theorem Dev.decDone_bufs (hk : k < 16) : e.get (F.DEC_OUT_RING_BUFS k) = d.get (F.DEC_OUT_RING_BUFS k) := by
  obtain ⟨hidx, hstatus, hcnt⟩ := DEC_OUT_RING_apart k k
  have hout : (F.DEC_OUT_RING_BUFS k).addr ∉ decReports k := by
    simp only [decReports, List.mem_cons, not_or]
    exact ⟨hcnt, hstatus, (decoder_not_reported hk).2⟩
  have hbump : (r.bump (F.DEC_IDX_REC_PROD k)).get (F.DEC_OUT_RING_BUFS k) = r.get (F.DEC_OUT_RING_BUFS k) :=
    Dev.get_of_word _ (r.word_set_ne _ _ hidx)
  exact (hcounted.get _ hout).trans (hbump.trans (hrecord.get _ (decoder_not_reported hk).2))

theorem Dev.decDone_prod (hk : k < 16) (f : DecSt → DecSt) :
    ((e.modDec k f).set (F.DEC_STATUS_STATE k) 2).get (F.DEC_IDX_REC_PROD k) = (d.get (F.DEC_IDX_REC_PROD k) + 1) % 65536 := by
  obtain ⟨hstatus, hcnt⟩ := DEC_IDX_apart k k
  have hout : (F.DEC_IDX_REC_PROD k).addr ∉ decReports k := by
    simp only [decReports, List.mem_cons, not_or]
    exact ⟨hcnt, hstatus, (decoder_not_reported hk).1⟩
  have hset : ((e.modDec k f).set (F.DEC_STATUS_STATE k) 2).get (F.DEC_IDX_REC_PROD k) = e.get (F.DEC_IDX_REC_PROD k) :=
    Dev.get_of_word _ ((e.modDec k f).word_set_ne _ _ hstatus)
  rw [hset, hcounted.get _ hout, Dev.get_bump_same _ _ (Fld.ok_of_ble rfl), hrecord.get _ (decoder_not_reported hk).1]
  rfl

end

section
variable {s : State} {k : Fin 16} {p : DecPic}

theorem decoderPictureDone_idle (h : (s.dev.decoder k).run = false) : Completes (.decoderPictureDone k p) s (fun d => d = s.dev) := by
  refine ⟨s, ?_, rfl, rfl⟩
  show execDecoderPictureDone k p s = _
  simp [execDecoderPictureDone, State.run, h]

/-- The state of a decoder after a picture. -/
structure DecSt.After (x y : DecSt) (au bufs : Nat) : Prop where
  pic : y.nextPic = (x.nextPic + 1) % 2 ^ 32
  buf : y.nextBuf = (x.nextBuf + 1) % max 1 bufs
  input : y.input = x.input.eraseIdx au
  whole : y.lost = false

theorem decoderPictureDone_done (hrun : (s.dev.decoder k).run = true) (hunit : p.au < (s.dev.decoder k).input.length)
    (hdecs : k.val < s.dev.decs.length) (hfree : s.dev.bufHeld (decBufKey k (s.dev.decoder k).nextBuf) = false) :
    Completes (.decoderPictureDone k p) s (fun d =>
      (s.dev.decoder k).After (d.decoder k) p.au (s.dev.get (F.DEC_OUT_RING_BUFS k)) ∧
        d.get (F.DEC_IDX_REC_PROD k) = (s.dev.get (F.DEC_IDX_REC_PROD k) + 1) % 65536 ∧ d.get (F.DEC_STATUS_STATE k) = 2) := by
  refine ⟨_, rfl, rfl, ?_⟩
  beta_reduce
  extract_lets x pic lost fresh was ends concealed planes flags
  have hrun' : x.run = true := hrun
  have hu : x.input[p.au]? = some x.input[p.au] := List.getElem?_eq_getElem hunit
  simp -zeta only [hrun', hu]
  rw [if_neg (by rw [hfree]; decide)]
  extract_lets recv written fg filmed prod rec_ recorded opened counted subst missed hurt ended shown bufs after
  have hfilmed : s.dev.Touches [R.MEM_INJ_CTRL] filmed := by
    have hwritten := s.dev.decWrite_touches k x.nextBuf pic p concealed planes recv
    exact hwritten.ite ((hwritten.poolWrite _ _ _).trans (Dev.tookFree_touches _ 1))
  have hrecorded : s.dev.Reports recorded := (hfilmed.poolWrite _ _ _).mono (by decide)
  have hshown : opened.Touches (decReports k) shown :=
    opened.decCounted_touches k pic p.missing lost ends concealed (fresh || (was && !ends))
  have hdone := Dev.decDone_decoder hrecorded hshown hdecs
  have hbufs : shown.get (F.DEC_OUT_RING_BUFS k) = s.dev.get (F.DEC_OUT_RING_BUFS k) := Dev.decDone_bufs hrecorded hshown k.isLt
  refine ⟨?_, Dev.decDone_prod hrecorded hshown k.isLt _, Dev.get_set_same _ _ _ (Fld.ok_of_ble rfl)⟩
  rw [hdone]
  exact ⟨rfl, congrArg (fun n => (x.nextBuf + 1) % max 1 n) hbufs, rfl, rfl⟩

end

end Sys2Proof.Machine
end

section
/-!
A picture of a session starts (R317).
-/
namespace Sys2Proof.Machine

/-- What the start of a picture adds to: the pictures coded, the place of the last one, the pictures in progress. -/
def SesSt.begun (y : SesSt) : Nat × Nat × List PicSt := (y.coded, y.lastPos, y.pics)

section
variable (d : Dev) (s : Nat)

/-! ### What comes before the picture joins -/

theorem Dev.set_begun (f : Fld) (v : Nat) : (d.set f v).sesView SesSt.begun = d.sesView SesSt.begun := Dev.sesView_of_code (d.set_code f v)

theorem Dev.eventAt_begun (code severity inst : Nat) (items : List Item) :
    (d.eventAt code severity inst items).sesView SesSt.begun = d.sesView SesSt.begun := Dev.sesView_of_code (d.eventAt_code _ _ _ _)

theorem Dev.boundary_begun (n : Nat) (key : Bool) : (d.boundary s n key).sesView SesSt.begun = d.sesView SesSt.begun := by
  unfold Dev.boundary
  extract_lets latched x halving shown
  have hlatched : latched.sesView SesSt.begun = d.sesView SesSt.begun := Dev.sesView_of_code (d.latchAll_code _)
  have hshown : shown.sesView SesSt.begun = d.sesView SesSt.begun :=
    ((halving.set_begun _ _).trans (latched.modSes_sesView s (fun _ => by rfl))).trans hlatched
  refine ite_keeps (p := Dev.sesView SesSt.begun) ?_ hlatched
  split
  · exact hshown
  · exact hshown

theorem Dev.picTurn_begun (n : Nat) (key : Bool) : (d.picTurn s n key).sesView SesSt.begun = d.sesView SesSt.begun := by
  unfold Dev.picTurn
  extract_lets latched turned
  have hlatched : latched.sesView SesSt.begun = d.sesView SesSt.begun := Dev.sesView_of_code (d.latchAll_code _)
  exact (turned.modSes_sesView s (fun _ => by rfl)).trans
    (ite_keeps (p := Dev.sesView SesSt.begun) ((latched.boundary_begun s n key).trans hlatched) hlatched)

theorem Dev.foldDone_begun (c : Nat) : (d.foldDone s c).sesView SesSt.begun = d.sesView SesSt.begun :=
  foldl_keeps (p := Dev.sesView SesSt.begun) (fun d _ => d.modSes_sesView s (fun _ => by rfl)) _ d

theorem Dev.rcStart_begun (type n pos gop left : Nat) :
    (d.rcStart s type n pos gop left).1.sesView SesSt.begun = d.sesView SesSt.begun := by
  unfold Dev.rcStart
  extract_lets x q hard level capped mode step low num inc counted prevs fEst cap cx t1 err t2 tgt
  have hcounted : counted.sesView SesSt.begun = d.sesView SesSt.begun := d.modSes_sesView s (fun _ => by rfl)
  refine ite_fst_keeps (p := Dev.sesView SesSt.begun) rfl ?_
  split
  · exact hcounted
  · exact ite_fst_keeps (p := Dev.sesView SesSt.begun) hcounted hcounted

theorem Dev.recOpen_begun (k off len pic fseq sid type flags pts : Nat) (cto : Int) (payload bands trig : Nat) :
    (d.recOpen s k off len pic fseq sid type flags pts cto payload bands trig).sesView SesSt.begun = d.sesView SesSt.begun :=
  d.recOpen_sesView (fun _ _ _ => rfl) s k off len pic fseq sid type flags pts cto payload bands trig

theorem Dev.picOutput_begun (t : PicTurn) (flags payload maxLen : Nat) :
    (d.picOutput t flags payload maxLen).1.sesView SesSt.begun = d.sesView SesSt.begun := by
  unfold Dev.picOutput
  extract_lets s q rows bands cto mayFit bumped said discarded prod room
  have hdiscarded : discarded.sesView SesSt.begun = d.sesView SesSt.begun := by
    have hbumped : bumped.sesView SesSt.begun = d.sesView SesSt.begun := d.set_begun _ _
    have hsaid : said.sesView SesSt.begun = d.sesView SesSt.begun :=
      ite_keeps (p := Dev.sesView SesSt.begun) hbumped ((bumped.eventAt_begun _ _ _ _).trans hbumped)
    exact (Dev.set_begun _ _ _).trans ((said.modSes_sesView s (fun _ => by rfl)).trans hsaid)
  split
  · exact (Dev.set_begun _ _ _).trans ((Dev.modSes_sesView _ s (fun _ => by rfl)).trans (d.recOpen_begun _ _ _ _ _ _ _ _ _ _ _ _ _ _))
  · exact ite_fst_keeps (p := Dev.sesView SesSt.begun) ((discarded.recOpen_begun _ _ _ _ _ _ _ _ _ _ _ _ _ _).trans hdiscarded) hdiscarded

theorem Dev.picAgain_begun (n : Nat) (src : SrcSel) : (d.picAgain s n src).sesView SesSt.begun = d.sesView SesSt.begun := by
  unfold Dev.picAgain
  extract_lets bumped
  have hbumped : bumped.sesView SesSt.begun = d.sesView SesSt.begun := d.set_begun _ _
  refine ite_keeps (p := Dev.sesView SesSt.begun) (ite_keeps (p := Dev.sesView SesSt.begun) hbumped ?_) rfl
  exact (Dev.eventAt_begun _ _ _ _ _).trans ((bumped.modSes_sesView s (fun _ => by rfl)).trans hbumped)

end

/-! ### The picture joins those in progress -/

/-- After the start of a picture at place `pos` one more is coded and in progress. -/
theorem Dev.picJoins_begun (d : Dev) (t : PicTurn) (rc : RcIn) (pic : PicSt) :
    ((d.picJoins t rc pic).ses t.s).begun = ((d.ses t.s).coded + 1, t.pos, (d.ses t.s).pics ++ [pic]) := by
  unfold Dev.picJoins
  extract_lets s joined fill shown turned
  have hjoined : (joined.ses s).begun = ((d.ses s).coded + 1, t.pos, (d.ses s).pics ++ [pic]) := by
    rw [d.ses_modSes_same]
    rfl
  have hturned : turned.sesView SesSt.begun = joined.sesView SesSt.begun := by
    have hshown : shown.sesView SesSt.begun = joined.sesView SesSt.begun :=
      (Dev.set_begun _ (F.SES_RC_STATUS_FILL_PCT s) fill).trans (joined.set_begun (F.SES_RC_STATUS_LAST_QP s) rc.qp)
    clear_value shown joined
    dsimp only [turned]
    split
    · exact ite_keeps (p := Dev.sesView SesSt.begun) ((shown.modGrp_sesView _ _).trans hshown) hshown
    · exact hshown
  have hreleased : (turned.srcRelease s).sesView SesSt.begun = joined.sesView SesSt.begun :=
    (turned.srcRelease_sesView (fun _ _ => rfl) s).trans hturned
  exact (congrFun hreleased s).trans hjoined

theorem Dev.picCode_begun (d : Dev) (t : PicTurn) (rc : RcIn) : ∃ pic, (pic.n, pic.pos, pic.src) = (t.n, t.pos, t.src) ∧
    ((d.picCode t rc).ses t.s).begun = ((d.ses t.s).coded + 1, t.pos, (d.ses t.s).pics ++ [pic]) := by
  unfold Dev.picCode
  extract_lets x repeats late flags head payload r again
  have hagain : again.sesView SesSt.begun = d.sesView SesSt.begun :=
    ((r.1.picAgain_begun _ _ _).trans (late.picOutput_begun _ _ _ _)).trans (Dev.sesView_of_code (d.refreshLate_code _ _ _))
  have hses : (again.ses t.s).begun = (d.ses t.s).begun := congrFun hagain t.s
  refine ⟨again.picNew t rc x.coded repeats flags head r.2, rfl, ?_⟩
  rw [Dev.picJoins_begun]
  simp only [SesSt.begun, Prod.mk.injEq] at hses
  obtain ⟨hcoded, -, hpics⟩ := hses
  rw [hcoded, hpics]

/-- The picture that a session starts. -/
theorem Dev.picBegin_begun (d : Dev) (s n pos type : Nat) (src : SrcSel) (hdr : Nat) :
    ∃ pic, (pic.n, pic.pos, pic.src) = (n, pos, src) ∧
    ((d.picBegin s n pos type src hdr).ses s).begun = ((d.ses s).coded + 1, pos, (d.ses s).pics ++ [pic]) := by
  unfold Dev.picBegin
  extract_lets q key turned fresh type' cycle cycled base gop left coded folded r
  have hr : r.1.sesView SesSt.begun = d.sesView SesSt.begun := by
    have hturned : turned.sesView SesSt.begun = d.sesView SesSt.begun := d.picTurn_begun s n key
    have hcycled : cycled.sesView SesSt.begun = d.sesView SesSt.begun :=
      ite_keeps (p := Dev.sesView SesSt.begun) ((turned.modSes_sesView s (fun _ => by rfl)).trans hturned) hturned
    have hfolded : folded.sesView SesSt.begun = d.sesView SesSt.begun :=
      ite_keeps (p := Dev.sesView SesSt.begun) hcycled ((cycled.foldDone_begun s _).trans hcycled)
    exact (folded.rcStart_begun s _ _ _ _ _).trans hfolded
  have hses : (r.1.ses s).begun = (d.ses s).begun := congrFun hr s
  simp only [SesSt.begun, Prod.mk.injEq] at hses
  obtain ⟨hcoded, -, hpics⟩ := hses
  rw [← hcoded, ← hpics]
  exact r.1.picCode_begun { s := s, n := n, pos := pos, type := type', src := src, hdr := hdr, key := key, fresh := fresh
                            cycle := cycle, gop := gop } r.2

/-! ### PICTURE_START -/

section
variable {s : State} {x : Fin 256} (hdr : Nat)

theorem pictureStart_idle (h : (s.dev.ses x).run = false ∨ 1 < (s.dev.ses x).pics.length) :
    Completes (.pictureStart x hdr) s (fun d => d = s.dev) := by
  refine ⟨_, rfl, rfl, if_pos ?_⟩
  rcases h with hstopped | hbusy
  · exact .inl (by simp [hstopped])
  · exact .inr (.inr hbusy)

theorem pictureStart_starts {n pos type : Nat} {d1 d2 : Dev} {src : SrcSel} (hrun : (s.dev.ses x).run = true)
    (hstops : s.dev.get (F.SES_STATUS_STATE x) ≠ 3) (hpics : (s.dev.ses x).pics.length ≤ 1)
    (hnext : Dev.nextPic 64 (s.dev.jobKeys x) x = (d1, some (n, pos, type))) (hsrc : d1.pickSource x n = (d2, some src)) :
    Completes (.pictureStart x hdr) s (fun d => (d.ses x).coded = (d2.ses x).coded + 1 ∧ (d.ses x).lastPos = pos ∧
      (d.ses x).pics.length = (d2.ses x).pics.length + 1 ∧
      (d.ses x).pics.getLast?.map (fun p => (p.n, p.pos, p.src)) = some (n, pos, src)) := by
  have hexec : execPictureStart x hdr s = .next { s with dev := d2.picBegin x n pos type src hdr } := by
    unfold execPictureStart State.run
    simp only [hrun, Bool.not_true, Bool.false_eq_true, hstops, Nat.not_lt.mpr hpics, or_self, if_false, hnext, hsrc]
  obtain ⟨pic, hpic, hbegun⟩ := d2.picBegin_begun x n pos type src hdr
  simp only [SesSt.begun, Prod.mk.injEq] at hbegun
  obtain ⟨hcoded, hpos, hjoined⟩ := hbegun
  refine ⟨_, hexec, rfl, hcoded, hpos, ?_, ?_⟩
  · rw [hjoined, List.length_append, List.length_singleton]
  · rw [hjoined, List.getLast?_concat, Option.map_some, hpic]

end

end Sys2Proof.Machine
end

section
/-!
Sessions start and stop (R291, R292, R299, R307).
-/
namespace Sys2Proof.Machine

/-- Whether session `x` runs, its first picture, its pictures in progress, and the state that it shows. -/
def Dev.sesOpen (x : Nat) (d : Dev) : (Bool × Nat × List PicSt) × Nat :=
  (((d.ses x).run, (d.ses x).first, (d.ses x).pics), d.get (F.SES_STATUS_STATE x))

/-! ### The status register of a session is its own -/

theorem SES_STATUS_not_reported {x : Nat} (hx : x < 256) : R.SES_STATUS x ∉ reportRegs :=
  not_mem_reportRegs (by simp only [R.SES_STATUS]; omega) (by simp only [R.SES_STATUS]; omega)

theorem SES_STATUS_not_load (x : Nat) : R.SES_STATUS x ∉ [R.VE_LOAD, R.VE_MEM_EST, R.DEV_CAPS] := by
  simp only [R.SES_STATUS, R.VE_LOAD, R.VE_MEM_EST, R.DEV_CAPS, List.mem_cons, List.not_mem_nil, or_false]
  omega

theorem SES_STATUS_ne_SES_PROD (x y : Nat) : R.SES_STATUS x ≠ R.SES_PROD y := by
  simp only [R.SES_STATUS, R.SES_PROD]
  omega

theorem SES_STATUS_ne_LG_STATUS (x g : Nat) : R.SES_STATUS x ≠ R.LG_STATUS g := by
  simp only [R.SES_STATUS, R.LG_STATUS]
  omega

theorem SES_STATUS_ne_cmd (x : Nat) : R.SES_STATUS x ≠ R.VE_SES_CMD := above_VE_SES_CMD (by decide) _

/-! ### What leaves a session open as it is -/

section
variable {d e : Dev} {x : Nat}

theorem Dev.Touches.sesOpen {rs : List Nat} (h : d.Touches rs e) (hx : R.SES_STATUS x ∉ rs) : e.sesOpen x = d.sesOpen x := by
  rw [Dev.sesOpen, Dev.sesOpen, h.get (F.SES_STATUS_STATE x) hx, Dev.ses, Dev.ses, h.code]

theorem Dev.set_sesOpen (d : Dev) {f : Fld} (v : Nat) (h : R.SES_STATUS x ≠ f.addr) : (d.set f v).sesOpen x = d.sesOpen x :=
  Dev.Touches.sesOpen (d.set_touches f v (List.mem_singleton_self _)) (List.mem_singleton.not.mpr h)

theorem Dev.eventAt_sesOpen (d : Dev) (hx : x < 256) (code severity inst : Nat) (items : List Item) :
    (d.eventAt code severity inst items).sesOpen x = d.sesOpen x :=
  Dev.Touches.sesOpen (d.eventAt_reports code severity inst items) (SES_STATUS_not_reported hx)

theorem Dev.poolWrite_sesOpen (d : Dev) (hx : x < 256) (n o : Nat) (bs : List Byte) : (d.poolWrite n o bs).sesOpen x = d.sesOpen x :=
  Dev.Touches.sesOpen ((d.poolWrite_touches n o bs).mono (ss := reportRegs) (by decide)) (SES_STATUS_not_reported hx)

theorem Dev.modSes_sesOpen (d : Dev) (x : Nat) {f : SesSt → SesSt}
    (hf : ∀ y, ((f y).run, (f y).first, (f y).pics) = (y.run, y.first, y.pics)) : (d.modSes x f).sesOpen x = d.sesOpen x :=
  Prod.ext (congrFun (d.modSes_sesView (φ := fun y => (y.run, y.first, y.pics)) x hf) x) rfl

theorem Dev.showGroup_sesOpen (d : Dev) (g : Nat) : (d.showGroup g).sesOpen x = d.sesOpen x :=
  (Dev.set_sesOpen _ _ (SES_STATUS_ne_LG_STATUS x g)).trans (d.set_sesOpen _ (SES_STATUS_ne_LG_STATUS x g))

theorem Dev.showLoad_sesOpen (d : Dev) : d.showLoad.sesOpen x = d.sesOpen x := d.showLoad_touches.sesOpen (SES_STATUS_not_load x)

/-- The header record of a session leaves it open as it is. -/
theorem Dev.headerRecord_sesOpen (d : Dev) (hx : x < 256) : (d.headerRecord x).sesOpen x = d.sesOpen x := by
  unfold Dev.headerRecord
  extract_lets bytes took
  cases took.reserve x bytes.length with
  | none => rfl
  | some at_ =>
    dsimp -zeta only
    extract_lets opened written
    have hopened : opened.sesOpen x = d.sesOpen x := by
      unfold opened Dev.recOpen
      exact (Dev.modSes_sesOpen _ x (fun _ => by rfl)).trans
        ((Dev.set_sesOpen _ _ (SES_STATUS_ne_SES_PROD x x)).trans (took.poolWrite_sesOpen hx _ _ _))
    have hwritten : written.sesOpen x = d.sesOpen x := (opened.poolWrite_sesOpen hx _ _ _).trans hopened
    exact ((Dev.poolWrite_sesOpen _ hx _ _ _).trans (Dev.poolWrite_sesOpen _ hx _ _ _)).trans hwritten

/-- The state shown of a session. -/
theorem Dev.setState_sesOpen (d : Dev) (x v : Nat) : (d.set (F.SES_STATUS_STATE x) v).sesOpen x = ((d.sesOpen x).1, v % 8) :=
  Prod.ext rfl (Dev.get_set_same d (F.SES_STATUS_STATE x) v (Fld.ok_of_ble rfl))

/-- The other fields of its status. -/
theorem Dev.setBeside_sesOpen (d : Dev) (x w : Nat) {f : Fld} (hf : (F.SES_STATUS_STATE x).apart f) (hok : f.ok) :
    (d.set f w).sesOpen x = d.sesOpen x := Prod.ext rfl (Dev.get_set_apart d _ _ w hok hf)

theorem Dev.setHalved_sesOpen (d : Dev) (x : Nat) (b : Bool) : (d.setFlag (F.SES_STATUS_HALVED x) b).sesOpen x = d.sesOpen x :=
  d.setBeside_sesOpen x _ (.inr (.inl (Nat.le_refl 3))) (Fld.ok_of_ble rfl)

theorem Dev.setEngines_sesOpen (d : Dev) (x w : Nat) : (d.set (F.SES_STATUS_ENGINES x) w).sesOpen x = d.sesOpen x :=
  d.setBeside_sesOpen x _ (.inr (.inl (Nat.le_add_right 3 1))) (Fld.ok_of_ble rfl)

end

theorem Dev.set_ses (d : Dev) (f : Fld) (v x : Nat) : (d.set f v).ses x = d.ses x := rfl

/-! ### A session starts and stops -/

/-- A session outside a group that starts runs from picture 0. -/
theorem Dev.sesBegin_open {d : Dev} {x : Nat} (hx : x < 256) (hgroup : d.sesGroup x = none) :
    (d.sesBegin x).sesOpen x = ((true, 0, []), 1) := by
  unfold Dev.sesBegin
  extract_lets engines joined first places latched old begun shown said grouped
  have hjoined : joined = d := by simp only [joined, hgroup]
  have hfirst : first = 0 := by simp only [first, hjoined, hgroup]
  have hbegun : (begun.sesOpen x).1 = (true, 0, []) := by
    rw [Dev.sesOpen, latched.ses_modSes_same]
    exact congrArg (fun n => (true, n, [])) hfirst
  have hshown : shown.sesOpen x = ((true, 0, []), 1) := by
    unfold shown
    rw [Dev.setHalved_sesOpen, Dev.setEngines_sesOpen, Dev.setState_sesOpen, hbegun]
  have hsaid : said.sesOpen x = ((true, 0, []), 1) := (shown.eventAt_sesOpen hx _ _ _ _).trans hshown
  have hgrouped : grouped.sesOpen x = ((true, 0, []), 1) := by
    dsimp only [grouped]
    cases said.sesGroup x with
    | some g => exact (Dev.showGroup_sesOpen _ g).trans hsaid
    | none => exact hsaid
  exact (Dev.showLoad_sesOpen _).trans ((grouped.headerRecord_sesOpen hx).trans hgrouped)

/-- A session that has stopped. -/
theorem Dev.sesStopped_open (d : Dev) {x : Nat} (hx : x < 256) : (d.sesStopped x).sesOpen x = ((false, 0, []), 0) := by
  unfold Dev.sesStopped
  extract_lets group ended shown said last
  have hended : (ended.sesOpen x).1 = (false, 0, []) := by
    rw [Dev.sesOpen, d.ses_modSes_same]
  have hshown : shown.sesOpen x = ((false, 0, []), 0) := by
    unfold shown
    rw [Dev.setHalved_sesOpen, Dev.setState_sesOpen]
    exact congrArg (fun y => (y, 0)) hended
  have hsaid : said.sesOpen x = ((false, 0, []), 0) := (shown.eventAt_sesOpen hx _ _ _ _).trans hshown
  have hlast : last.sesOpen x = ((false, 0, []), 0) := by
    dsimp only [last]
    cases group
    case some g => exact (Dev.showGroup_sesOpen _ g).trans (ite_keeps (p := Dev.sesOpen x) hsaid hsaid)
    case none => exact hsaid
  exact last.showLoad_sesOpen.trans hlast

/-! ### The command register (R291, R549) -/

/-- What host firmware asks of a session is named in the command's register. -/
def Dev.sesNamed (d : Dev) (op x : Nat) : Dev := (d.set F.VE_SES_CMD_SES x).set F.VE_SES_CMD_OP op

/-- The fields of `VE_SES_CMD` that a command writes. -/
def sesCmdFields : List Fld := [F.VE_SES_CMD_SES, F.VE_SES_CMD_OP, F.VE_SES_CMD_RESULT]

section
variable (d : Dev) (op x : Nat)

theorem Dev.sesNamed_only : d.Only (d.sesNamed op x) sesCmdFields :=
  ((Dev.Only.refl d sesCmdFields).set x (by decide) (by decide)).set op (by decide) (by decide)

theorem Dev.sesNamed_apart : d.CmdApart (d.sesNamed op x) := fun _ ha =>
  (Dev.word_set_ne _ F.VE_SES_CMD_OP op ha).trans (d.word_set_ne F.VE_SES_CMD_SES x ha)

theorem Dev.sesNamed_codes : (d.sesNamed op x).codes = d.codes := by
  have hapart := d.sesNamed_apart op x
  rw [Dev.codes, Dev.codes, Dev.modeCode, Dev.modeCode, Dev.inTransition, Dev.inTransition, hapart.get F.DEV_MODE_MODE (by decide),
    hapart.flag F.DEV_MODE_IN_TRANSITION (by decide)]

/-- A command that is answered at once. -/
theorem Dev.sesNamed_answered {r : Nat} (hr : r < 8) : ((d.sesNamed op x).set F.VE_SES_CMD_RESULT r).get F.VE_SES_CMD_RESULT = r ∧
    d.Only ((d.sesNamed op x).set F.VE_SES_CMD_RESULT r) sesCmdFields :=
  ⟨(Dev.get_set_same _ _ _ (by decide)).trans (Nat.mod_eq_of_lt hr), (d.sesNamed_only op x).set r (by decide) (by decide)⟩

theorem Dev.sesCommand_closed {d : Dev} (h : d.codes = false) (hop : op = 1 ∨ op = 2) :
    d.sesCommand op x = (d.sesNamed op x).set F.VE_SES_CMD_RESULT 2 := by
  unfold Dev.sesCommand
  extract_lets named
  rw [if_neg (by omega), if_pos (by rw [show named.codes = d.codes from d.sesNamed_codes _ x, h]; rfl)]
  rfl

theorem Dev.sesCommand_start {d : Dev} (h : d.codes = true) :
    d.sesCommand 1 x = ((d.sesNamed 1 x).sesStart x).1.set F.VE_SES_CMD_RESULT ((d.sesNamed 1 x).sesStart x).2 := by
  unfold Dev.sesCommand
  extract_lets named
  rw [if_neg (by decide), if_neg (by rw [show named.codes = d.codes from d.sesNamed_codes _ x, h]; decide), if_pos rfl]
  rfl

theorem Dev.sesCommand_stop {d : Dev} (h : d.codes = true) :
    d.sesCommand 2 x = ((d.sesNamed 2 x).sesStop x).1.set F.VE_SES_CMD_RESULT ((d.sesNamed 2 x).sesStop x).2 := by
  unfold Dev.sesCommand
  extract_lets named
  rw [if_neg (by decide), if_neg (by rw [show named.codes = d.codes from d.sesNamed_codes _ x, h]; decide), if_neg (by decide)]
  rfl

end

/-! ### What a start and a stop answer -/

section
variable {d : Dev} {x : Nat}

/-- The checks of a session's own configuration that come before its admission (R284, R302). -/
structure Dev.MayStart (d : Dev) (x : Nat) : Prop where
  enabled : d.flag (F.SES_CFG_EN x) = true
  stopped : (d.ses x).run = false
  alone : d.sesGroup x = none
  accepted : d.isRefused (R.SES_CFG x) = false
  good : d.sesBad x = none

theorem Dev.MayStart.named (h : d.MayStart x) (op : Nat) : (d.sesNamed op x).MayStart x := by
  have hapart := d.sesNamed_apart op x
  exact ⟨(hapart.flag (F.SES_CFG_EN x) (above_VE_SES_CMD (by decide) _)).trans h.enabled, h.stopped,
    (congrFun hapart.sesGroup x).trans h.alone, h.accepted, (hapart.sesBad h.alone).trans h.good⟩

theorem Dev.sesStart_admitted (h : d.MayStart x) (hadmit : d.admitFails d.veActive.length (x :: d.running) (some x) = none) :
    d.sesStart x = (d.sesBegin x, 0) := by
  simp only [Dev.sesStart, h.enabled, h.stopped, h.alone, h.accepted, h.good, hadmit, Bool.not_true, Bool.or_self, Bool.false_eq_true,
    if_false]

theorem Dev.sesStart_refused (h : d.MayStart x) {why : Nat × Nat × Nat}
    (hadmit : d.admitFails d.veActive.length (x :: d.running) (some x) = some why) :
    d.sesStart x = (d.eventAt 0x0D03 sevNotice x [u8 x, u8 why.1, u32 why.2.1, u32 why.2.2], 1) := by
  simp only [Dev.sesStart, h.enabled, h.stopped, h.alone, h.accepted, h.good, hadmit, Bool.not_true, Bool.or_self, Bool.false_eq_true,
    if_false]

/-- A session that is to stop after its pictures in progress. -/
def Dev.sesStopping (d : Dev) (x : Nat) : Dev := (d.modSes x (fun y => { y with order := [] })).set (F.SES_STATUS_STATE x) 3

theorem Dev.sesStopping_ses (d : Dev) (x : Nat) : (d.sesStopping x).ses x = { d.ses x with order := [] } := by
  rw [Dev.sesStopping, Dev.set_ses, d.ses_modSes_same]

theorem Dev.sesStopping_state (d : Dev) (x : Nat) : (d.sesStopping x).get (F.SES_STATUS_STATE x) = 3 :=
  Dev.get_set_same _ _ _ (Fld.ok_of_ble rfl)

theorem Dev.sesStop_runs (h : (d.ses x).run = true) : d.sesStop x =
    (if ((d.sesStopping x).ses x).pics.isEmpty = true then (d.sesStopping x).sesStopped x else d.sesStopping x, 0) := by
  unfold Dev.sesStop
  rw [h]
  rfl

/-- Naming a command changes no answer of the admission (R299). -/
theorem Dev.sesNamed_admitFails (d : Dev) (op x : Nat) (asked : Option Nat) :
    (d.sesNamed op x).admitFails (d.sesNamed op x).veActive.length (x :: (d.sesNamed op x).running) asked =
      d.admitFails d.veActive.length (x :: d.running) asked := by
  have hapart := d.sesNamed_apart op x
  rw [hapart.admitFails rfl, hapart.veActive]
  rfl

end

/-! ### SES_START and SES_STOP -/

section
variable {s : State} {x : Fin 256} (hreach : s.dev.Reaches R.VE_SES_CMD)
include hreach

theorem execSesStart_open : execSesStart x s = .next { s with dev := s.dev.sesCommand 1 x } := by
  rw [execSesStart, State.hostCmd, State.run, Dev.gateWrite_open hreach]

theorem execSesStop_open : execSesStop x s = .next { s with dev := s.dev.sesCommand 2 x } := by
  rw [execSesStop, State.hostCmd, State.run, Dev.gateWrite_open hreach]

theorem sesStart_closed (h : s.dev.codes = false) : Completes (.sesStart x) s (fun d =>
    d.get F.VE_SES_CMD_RESULT = 2 ∧ s.dev.Only d sesCmdFields) := by
  refine ⟨_, execSesStart_open hreach, rfl, ?_⟩
  dsimp only
  rw [Dev.sesCommand_closed 1 x h (.inl rfl)]
  exact s.dev.sesNamed_answered 1 x (by decide)

theorem sesStop_closed (h : s.dev.codes = false) : Completes (.sesStop x) s (fun d =>
    d.get F.VE_SES_CMD_RESULT = 2 ∧ s.dev.Only d sesCmdFields) := by
  refine ⟨_, execSesStop_open hreach, rfl, ?_⟩
  dsimp only
  rw [Dev.sesCommand_closed 2 x h (.inr rfl)]
  exact s.dev.sesNamed_answered 2 x (by decide)

theorem sesStart_admitted (hcodes : s.dev.codes = true) (hmay : s.dev.MayStart x)
    (hadmit : s.dev.admitFails s.dev.veActive.length (x.val :: s.dev.running) (some x.val) = none) :
    Completes (.sesStart x) s (fun d => (d.ses x).run = true ∧ (d.ses x).first = 0 ∧ (d.ses x).pics = [] ∧
      d.get (F.SES_STATUS_STATE x) = 1 ∧ d.get F.VE_SES_CMD_RESULT = 0) := by
  have hstart : (s.dev.sesNamed 1 x).sesStart x = ((s.dev.sesNamed 1 x).sesBegin x, 0) :=
    Dev.sesStart_admitted (hmay.named 1) ((s.dev.sesNamed_admitFails 1 x _).trans hadmit)
  refine ⟨_, execSesStart_open hreach, rfl, ?_⟩
  dsimp only
  rw [Dev.sesCommand_start x hcodes, hstart]
  have hopen := ((s.dev.sesNamed 1 x).sesBegin x).set_sesOpen (f := F.VE_SES_CMD_RESULT) 0 (SES_STATUS_ne_cmd x)
  rw [Dev.sesBegin_open x.isLt (hmay.named 1).alone] at hopen
  simp only [Dev.sesOpen, Prod.mk.injEq] at hopen
  obtain ⟨⟨hrun, hfirst, hpics⟩, hstate⟩ := hopen
  exact ⟨hrun, hfirst, hpics, hstate, Dev.get_set_same _ _ _ (by decide)⟩

theorem sesStart_refused (hcodes : s.dev.codes = true) (hmay : s.dev.MayStart x) {why : Nat × Nat × Nat}
    (hadmit : s.dev.admitFails s.dev.veActive.length (x.val :: s.dev.running) (some x.val) = some why) :
    Completes (.sesStart x) s (fun d => d.get F.VE_SES_CMD_RESULT = 1 ∧ s.dev.Within d sesCmdFields) := by
  have hstart : (s.dev.sesNamed 1 x).sesStart x = ((s.dev.sesNamed 1 x).eventAt 0x0D03 sevNotice x
      [u8 x, u8 why.1, u32 why.2.1, u32 why.2.2], 1) :=
    Dev.sesStart_refused (hmay.named 1) ((s.dev.sesNamed_admitFails 1 x _).trans hadmit)
  refine ⟨_, execSesStart_open hreach, rfl, ?_⟩
  dsimp only
  rw [Dev.sesCommand_start x hcodes, hstart]
  obtain ⟨-, honly⟩ := s.dev.sesNamed_answered 1 x (r := 1) (by decide)
  have hreports := (s.dev.sesNamed 1 x).eventAt_reports 0x0D03 sevNotice x [u8 x, u8 why.1, u32 why.2.1, u32 why.2.2]
  exact ⟨Dev.get_set_same _ _ _ (by decide), _, honly, hreports.set F.VE_SES_CMD_RESULT 1 (by decide)⟩

theorem sesStop_stopped (hcodes : s.dev.codes = true) (hrun : (s.dev.ses x).run = false) : Completes (.sesStop x) s (fun d =>
    d.get F.VE_SES_CMD_RESULT = 2 ∧ s.dev.Only d sesCmdFields) := by
  have hstop : (s.dev.sesNamed 2 x).sesStop x = (s.dev.sesNamed 2 x, 2) := by
    unfold Dev.sesStop
    rw [show ((s.dev.sesNamed 2 x).ses x).run = false from hrun]
    rfl
  refine ⟨_, execSesStop_open hreach, rfl, ?_⟩
  dsimp only
  rw [Dev.sesCommand_stop x hcodes, hstop]
  exact s.dev.sesNamed_answered 2 x (r := 2) (by decide)

/-- A stop is complete at once without pictures in progress, and waits for them otherwise. -/
theorem sesStop_running (hcodes : s.dev.codes = true) (hrun : (s.dev.ses x).run = true) : Completes (.sesStop x) s (fun d =>
    d.get F.VE_SES_CMD_RESULT = 0 ∧
    ((s.dev.ses x).pics = [] → (d.ses x).run = false ∧ d.get (F.SES_STATUS_STATE x) = 0) ∧
    ((s.dev.ses x).pics ≠ [] → d.ses x = { s.dev.ses x with order := [] } ∧ d.get (F.SES_STATUS_STATE x) = 3)) := by
  have hses : (s.dev.sesNamed 2 x).ses x = s.dev.ses x := rfl
  have hstop : (s.dev.sesNamed 2 x).sesStop x = (if (s.dev.ses x).pics.isEmpty = true then ((s.dev.sesNamed 2 x).sesStopping x).sesStopped x
      else (s.dev.sesNamed 2 x).sesStopping x, 0) := by
    rw [Dev.sesStop_runs (hses.symm ▸ hrun), Dev.sesStopping_ses, hses]
  refine ⟨_, execSesStop_open hreach, rfl, ?_⟩
  dsimp only
  rw [Dev.sesCommand_stop x hcodes, hstop]
  refine ⟨Dev.get_set_same _ _ _ (by decide), fun hnone => ?_, fun hsome => ?_⟩
  · have hopen := (((s.dev.sesNamed 2 x).sesStopping x).sesStopped x).set_sesOpen (f := F.VE_SES_CMD_RESULT) 0 (SES_STATUS_ne_cmd x)
    rw [Dev.sesStopped_open _ x.isLt] at hopen
    simp only [Dev.sesOpen, Prod.mk.injEq] at hopen
    obtain ⟨⟨hstopped, -, -⟩, hstate⟩ := hopen
    rw [if_pos (by rw [hnone]; rfl)]
    exact ⟨hstopped, hstate⟩
  · have hopen := ((s.dev.sesNamed 2 x).sesStopping x).set_sesOpen (f := F.VE_SES_CMD_RESULT) 0 (SES_STATUS_ne_cmd x)
    rw [if_neg (by rwa [List.isEmpty_iff])]
    refine ⟨?_, (congrArg Prod.snd hopen).trans (Dev.sesStopping_state _ _)⟩
    rw [Dev.set_ses, Dev.sesStopping_ses, hses]

end

end Sys2Proof.Machine
end

section
/-!
Sessions and decoders (R291, R299, R317, R338-R344).
-/
namespace Sys2Proof.Machine

/-- Settles O48: a command to a session is answered as its checks have it (R291, R299), a picture with its source joins those in
progress (R317), and a decoder takes its next access unit and numbers the picture on (R338, R340). -/
theorem sessionsAndDecoders : Obligations.SessionsAndDecoders := by
  unfold Obligations.SessionsAndDecoders
  refine ⟨fun s x hreach => ⟨fun hclosed => ⟨sesStart_closed hreach hclosed, sesStop_closed hreach hclosed⟩, ?_,
    sesStop_stopped hreach, sesStop_running hreach⟩, fun s x hdr => pictureStart_idle hdr, ?_,
    fun s k rap => ⟨decoderAccessUnit_idle rap, decoderAccessUnit_stalls rap, ?_⟩, fun s k p => ⟨decoderPictureDone_idle, ?_⟩⟩
  · intro hcodes henabled hstopped halone haccepted hgood
    have hmay : s.dev.MayStart x := ⟨henabled, hstopped, halone, haccepted, hgood⟩
    exact ⟨sesStart_admitted hreach hcodes hmay, fun why => sesStart_refused hreach hcodes hmay⟩
  · exact fun s x hdr n pos type d1 d2 src => pictureStart_starts hdr
  · exact fun u rest hrun hfree hflow hfifo hwhole _ => decoderAccessUnit_takes hrun hfree hflow hfifo hwhole
  · intro hrun hunit hdecs hfree
    refine (decoderPictureDone_done hrun hunit (k.isLt.trans_eq hdecs.symm) hfree).mono (fun d ⟨hafter, hprod, hstate⟩ => ?_)
    exact ⟨hafter.pic, hafter.buf, hafter.input, hafter.whole, hprod, hstate⟩

end Sys2Proof.Machine
end

section
/-!
What a raster holds beside its registers, and the changes that leave the rest of the block (R350-R365).
-/
namespace Sys2Proof.Machine

/-! ### The state of a raster and of a Gecko path -/

theorem Dev.rs_modRs (d : Dev) {r : Nat} (f : RasSt → RasSt) (h : r < d.ras.length) : (d.modRs r f).rs r = f (d.rs r) :=
  elemAt_modifyAt f {} h

theorem Dev.rs_congr {d e : Dev} (h : e.ras = d.ras) (r : Nat) : e.rs r = d.rs r := by rw [Dev.rs, Dev.rs, h]

@[simp] theorem Dev.set_rs (d : Dev) (f : Fld) (v r : Nat) : (d.set f v).rs r = d.rs r := rfl
@[simp] theorem Dev.setFlag_rs (d : Dev) (f : Fld) (b : Bool) (r : Nat) : (d.setFlag f b).rs r = d.rs r := rfl
@[simp] theorem Dev.bump_rs (d : Dev) (f : Fld) (r : Nat) : (d.bump f).rs r = d.rs r := rfl
@[simp] theorem Dev.emit_rs (d : Dev) (o : Output) (r : Nat) : (d.emit o).rs r = d.rs r := rfl
@[simp] theorem Dev.releaseBy_rs (d : Dev) (by_ r : Nat) : (d.releaseBy by_).rs r = d.rs r := rfl

@[simp] theorem Dev.modRs_holds (d : Dev) (r : Nat) (f : RasSt → RasSt) : (d.modRs r f).holds = d.holds := rfl
@[simp] theorem Dev.modRs_get (d : Dev) (r : Nat) (f : RasSt → RasSt) (g : Fld) : (d.modRs r f).get g = d.get g := rfl
@[simp] theorem Dev.modRs_flag (d : Dev) (r : Nat) (f : RasSt → RasSt) (g : Fld) : (d.modRs r f).flag g = d.flag g := rfl

theorem Dev.modRs_set (d : Dev) (r : Nat) (g : RasSt → RasSt) (f : Fld) (v : Nat) : (d.set f v).modRs r g = (d.modRs r g).set f v := rfl

/-- A part of a raster's state that a change leaves is left, whichever raster is changed. -/
theorem Dev.rs_modRs_keeps {β : Type} (g : RasSt → β) {f : RasSt → RasSt} (hf : ∀ x, g (f x) = g x) (d : Dev) (m r : Nat) :
    g ((d.modRs m f).rs r) = g (d.rs r) := by
  rcases ne_or_eq r m with hne | rfl
  · rw [Dev.rs, Dev.modRs, elemAt_modifyAt_ne _ _ _ hne, Dev.rs]
  · rcases Nat.lt_or_ge r d.ras.length with hlt | hge
    · rw [d.rs_modRs f hlt, hf]
    · rw [Dev.modRs, modifyAt, List.modify_eq_self hge]

theorem Dev.gkp_modGk (d : Dev) {p : Nat} (f : GkSt → GkSt) (h : p < d.gk.length) : (d.modGk p f).gkp p = f (d.gkp p) :=
  elemAt_modifyAt f {} h

theorem Dev.gkp_congr {d e : Dev} (h : e.gk = d.gk) (p : Nat) : e.gkp p = d.gkp p := by rw [Dev.gkp, Dev.gkp, h]

/-! ### The rasters beside the rest -/

/-- Reports stay reports beside another state of the rasters. -/
theorem Dev.Touches.withRas {d e : Dev} {rs : List Nat} (h : d.Touches rs e) (x : List RasSt) :
    ({ d with ras := x } : Dev).Touches rs { e with ras := x } :=
  ⟨congrArg (fun y : Dev => { y with ras := x }) h.same, h.words, h.eff, h.out⟩

/-- Reports stay reports beside another state of the Gecko paths. -/
theorem Dev.Touches.withGk {d e : Dev} {rs : List Nat} (h : d.Touches rs e) (x : List GkSt) :
    ({ d with gk := x } : Dev).Touches rs { e with gk := x } :=
  ⟨congrArg (fun y : Dev => { y with gk := x }) h.same, h.words, h.eff, h.out⟩

theorem Dev.eget_of_eff {d e : Dev} (h : e.regs.eff = d.regs.eff) : e.eget = d.eget := by
  funext f
  simp only [Dev.eget, Dev.effWord, h]

/-- From `d` to `e` the registers at `rs` change, what reporting may change, the state of the rasters and the buffers held;
nothing else. -/
abbrev Dev.RasTouches (d : Dev) (rs : List Nat) (e : Dev) : Prop :=
  ({ d with ras := e.ras, holds := e.holds } : Dev).Touches rs e

section
variable {d e : Dev} {rs : List Nat}

theorem Dev.RasTouches.refl (d : Dev) (rs : List Nat) : d.RasTouches rs d := Dev.Touches.refl d rs

theorem Dev.Touches.rasTouches (h : d.Touches rs e) : d.RasTouches rs e := by
  have hsame := h.same
  refine ⟨?_, h.words, h.eff, h.out⟩
  rw [hsame]

theorem Dev.RasTouches.trans {f : Dev} (h : d.RasTouches rs e) (k : e.RasTouches rs f) : d.RasTouches rs f := by
  refine ⟨?_, fun a ha => (k.words a ha).trans (h.words a ha), k.eff.trans h.eff, ?_⟩
  · have hsame := h.same
    have ksame := k.same
    rw [hsame] at ksame
    exact ksame
  · obtain ⟨l, hl⟩ := h.out
    obtain ⟨m, hm⟩ := k.out
    refine ⟨l ++ m, ?_⟩
    rw [hm]
    dsimp only
    rw [hl, List.append_assoc]

theorem Dev.RasTouches.mono {ss : List Nat} (h : d.RasTouches rs e) (hs : ∀ a ∈ rs, a ∈ ss) : d.RasTouches ss e := Dev.Touches.mono h hs

theorem Dev.RasTouches.egets (h : d.RasTouches rs e) : e.eget = d.eget := Dev.eget_of_eff h.eff

theorem Dev.RasTouches.modRs (h : d.RasTouches rs e) (r : Nat) (f : RasSt → RasSt) : d.RasTouches rs (e.modRs r f) :=
  h.trans (Dev.Touches.of_same rfl ⟨[], (List.append_nil _).symm⟩)

theorem Dev.RasTouches.releaseBy (h : d.RasTouches rs e) (by_ : Nat) : d.RasTouches rs (e.releaseBy by_) :=
  h.trans (Dev.Touches.of_same rfl ⟨[], (List.append_nil _).symm⟩)

theorem Dev.RasTouches.set (h : d.RasTouches rs e) (f : Fld) (v : Nat) (hf : f.addr ∈ rs) : d.RasTouches rs (e.set f v) :=
  h.trans (e.set_touches f v hf).rasTouches

theorem Dev.RasTouches.emit (h : d.RasTouches rs e) (o : Output) : d.RasTouches rs (e.emit o) := h.trans (e.emit_touches o).rasTouches

theorem Dev.RasTouches.eventAt (h : d.RasTouches rs e) (hrs : ∀ a ∈ reportRegs, a ∈ rs) (code severity inst : Nat) (items : List Item) :
    d.RasTouches rs (e.eventAt code severity inst items) :=
  h.trans ((e.eventAt_reports code severity inst items).mono hrs).rasTouches

theorem Dev.RasTouches.ite {c : Prop} [Decidable c] {a b : Dev} (ha : d.RasTouches rs a) (hb : d.RasTouches rs b) :
    d.RasTouches rs (if c then a else b) := by
  split
  · exact ha
  · exact hb

theorem Dev.RasTouches.foldl {α : Type} {f : Dev → α → Dev} (h : d.RasTouches rs e) (l : List α)
    (hf : ∀ e, ∀ x ∈ l, Dev.RasTouches e rs (f e x)) : d.RasTouches rs (l.foldl f e) := by
  induction l generalizing e with
  | nil => exact h
  | cons x l ih =>
    exact ih (h.trans (hf e x List.mem_cons_self)) (fun e y hy => hf e y (List.mem_cons_of_mem x hy))

end

/-- An event leaves the state of the rasters. -/
@[simp] theorem Dev.eventAt_ras (d : Dev) (code severity inst : Nat) (items : List Item) :
    (d.eventAt code severity inst items).ras = d.ras := (d.eventAt_reports code severity inst items).ras

/-- An event leaves the state of the Gecko paths. -/
@[simp] theorem Dev.eventAt_gk (d : Dev) (code severity inst : Nat) (items : List Item) :
    (d.eventAt code severity inst items).gk = d.gk := (d.eventAt_reports code severity inst items).gk

@[simp] theorem Dev.eventAt_rs (d : Dev) (code severity inst : Nat) (items : List Item) (r : Nat) :
    (d.eventAt code severity inst items).rs r = d.rs r := Dev.rs_congr (d.eventAt_ras code severity inst items) r

/-! ### Fields put and left -/

/-- One field put, and events reported after it. -/
theorem Dev.within_set_report {d e : Dev} {f : Fld} {v : Nat} (hok : f.ok) (h : (d.set f v).Reports e) : d.Within e [f] :=
  ⟨_, (Dev.Only.refl d [f]).set v List.mem_cons_self hok, h⟩

/-- Fields apart within their register, by computing. -/
theorem Fld.apart_of_below {f g : Fld} (h : Nat.ble (g.lo + g.width) f.lo = true) : g.apart f := .inr (.inl (Nat.le_of_ble_eq_true h))

theorem Fld.apart_of_above {f g : Fld} (h : Nat.ble (f.lo + f.width) g.lo = true) : g.apart f := .inr (.inr (Nat.le_of_ble_eq_true h))

/-! ### The registers of a raster -/

/-- The registers of RAS, SDI and the Gecko paths are none that reports change. -/
theorem ras_not_reported {a : Nat} (hlo : 0x801000 ≤ a) (hhi : a < 0xA00000) : a ∉ reportRegs :=
  not_mem_reportRegs (by omega) (by omega)

end Sys2Proof.Machine
end

section
/-!
The selection of a raster's buffers (R353-R355).
-/
namespace Sys2Proof.Machine

/-! ### The layers of a raster -/

theorem Dev.layers_congr {d e : Dev} {r : Nat} (heff : e.regs.eff = d.regs.eff) (hbad : (e.rs r).bad = (d.rs r).bad) :
    e.layers r = d.layers r := by
  unfold Dev.layers
  rw [Dev.eget_of_eff heff, hbad]

theorem Dev.layFetched_congr {d e : Dev} {r : Nat} (heff : e.regs.eff = d.regs.eff) (hbad : (e.rs r).bad = (d.rs r).bad) (l y : Nat) :
    e.layFetched r l y = d.layFetched r l y := by
  unfold Dev.layFetched Dev.layOnLine Dev.layOpaque Dev.layKind Dev.laySpan
  rw [Dev.eget_of_eff heff, Dev.layers_congr heff hbad]

theorem Dev.layUsed_congr {d e : Dev} {r : Nat} (heff : e.regs.eff = d.regs.eff) (hbad : (e.rs r).bad = (d.rs r).bad) (l : Nat) :
    e.layUsed r l = d.layUsed r l := by
  simp only [Dev.layUsed, Dev.layFetched_congr heff hbad, Dev.eget_of_eff heff]

/-- The selection reads no state of the rasters. -/
theorem Dev.selectBuf_modRs (d : Dev) (m : Nat) (f : RasSt → RasSt) (r l t : Nat) : (d.modRs m f).selectBuf r l t = d.selectBuf r l t := rfl

theorem Dev.bufMatches_modRs (d : Dev) (m : Nat) (f : RasSt → RasSt) (r off : Nat) : (d.modRs m f).bufMatches r off = d.bufMatches r off := rfl

/-! ### A layer that shows nothing -/

/-- Layer `l` shows no buffer and holds none. -/
def Dev.rasDropLayer (d : Dev) (r l : Nat) : Dev :=
  (d.modRs r (fun x => { x with shown := setAt x.shown l none })).releaseBy (holdRas r l)

/-- From `d` to `e` layers of raster `r` other than layer 0 stop showing: layer 0 and what it holds stay. -/
structure Dev.UpperDropped (d : Dev) (r : Nat) (e : Dev) : Prop where
  same : e = { d with ras := e.ras, holds := e.holds }
  layer0 : (e.rs r).shown.getD 0 none = (d.rs r).shown.getD 0 none
  fetched : (e.rs r).fetched = (d.rs r).fetched
  repeat0 : (e.rs r).repeat0 = (d.rs r).repeat0
  bad : (e.rs r).bad = (d.rs r).bad
  holds : ∀ h ∈ d.holds, h.by_ = holdRas r 0 → h ∈ e.holds

theorem Dev.UpperDropped.refl (d : Dev) (r : Nat) : d.UpperDropped r d := ⟨rfl, rfl, rfl, rfl, rfl, fun _ h _ => h⟩

theorem Dev.UpperDropped.trans {d e f : Dev} {r : Nat} (h : d.UpperDropped r e) (k : e.UpperDropped r f) : d.UpperDropped r f where
  same := by
    have hsame := h.same
    have ksame := k.same
    rw [hsame] at ksame
    exact ksame
  layer0 := k.layer0.trans h.layer0
  fetched := k.fetched.trans h.fetched
  repeat0 := k.repeat0.trans h.repeat0
  bad := k.bad.trans h.bad
  holds := fun x hx hby => k.holds x (h.holds x hx hby) hby

theorem getD_setAt_ne {α : Type} (l : List α) {i j : Nat} (x y : α) (h : i ≠ j) : (setAt l i x).getD j y = l.getD j y := by
  simp only [setAt, List.getD_eq_getElem?_getD, List.getElem?_set_ne h]

theorem Dev.rasDropLayer_keeps {β : Type} (g : RasSt → β) {l : Nat} (hg : ∀ x, g { x with shown := setAt x.shown l none } = g x)
    (d : Dev) (r : Nat) : g ((d.rasDropLayer r l).rs r) = g (d.rs r) := Dev.rs_modRs_keeps g hg d r r

theorem Dev.rasDropLayer_upper (d : Dev) (r : Nat) {l : Nat} (hl : l ≠ 0) : d.UpperDropped r (d.rasDropLayer r l) where
  same := rfl
  layer0 := Dev.rasDropLayer_keeps (fun x => x.shown.getD 0 none) (fun x => getD_setAt_ne x.shown none none hl) d r
  fetched := Dev.rasDropLayer_keeps RasSt.fetched (fun _ => rfl) d r
  repeat0 := Dev.rasDropLayer_keeps RasSt.repeat0 (fun _ => rfl) d r
  bad := Dev.rasDropLayer_keeps RasSt.bad (fun _ => rfl) d r
  holds := fun h hh hby => by
    refine List.mem_filter.mpr ⟨hh, ?_⟩
    rw [hby]
    simp only [holdRas, Bool.not_eq_true', beq_eq_false_iff_ne, ne_eq]
    omega

/-! ### The turn of one layer -/

/-- The turn of layer `l` in the selection for a frame that starts at `t`. -/
def Dev.rasSelectLayer (d : Dev) (r t l : Nat) : Dev :=
  if !((d.layers r).contains l && d.layKind r l = 0 && d.layUsed r l) then d.rasDropLayer r l
  else
    let old := (d.rs r).shown.getD l none
    let new := if d.modeCode = mBask then none else d.selectBuf r l t
    let newer := match new, old with
      | some n, some o => decide (0 < signed 64 (toBits 64 ((n.trig : Int) - o.trig)))
      | some _, none => true
      | none, _ => false
    match newer, new with
    | true, some n =>
      if d.bufMatches r n.off then
        ((((d.releaseBy (holdRas r l)).hold n.key (holdRas r l)).modRs r (fun x => { x with shown := setAt x.shown l (some n) })).set
          (F.RAS_LAY_SHOWN_FSEQ r l) n.fseq)
      else d.refuseLayer r l
    | _, _ =>
      if l = 0 ∧ old.isSome then
        (d.bump (F.RAS_CNT_REPEATS r)).modRs r (fun x => { x with repeat0 := true })
      else d

theorem Dev.rasSelectLayer_unlisted {d : Dev} {r l : Nat} (h : (d.layers r).contains l = false) (t : Nat) :
    d.rasSelectLayer r t l = d.rasDropLayer r l := by
  rw [Dev.rasSelectLayer, h]
  rfl

/-- The turns of layers other than layer 0, of a raster whose one layer is layer 0, drop what they show. -/
theorem Dev.foldl_rasSelectLayer_upper {r : Nat} (t : Nat) (ls : List Nat) (hls : ∀ l ∈ ls, l ≠ 0) (d : Dev) (hd : d.layers r = [0]) :
    d.UpperDropped r (ls.foldl (fun e l => e.rasSelectLayer r t l) d) := by
  induction ls generalizing d with
  | nil => exact Dev.UpperDropped.refl d r
  | cons l ls ih =>
    have hl := hls l List.mem_cons_self
    have hstep : d.UpperDropped r (d.rasSelectLayer r t l) := by
      rw [Dev.rasSelectLayer_unlisted (by rw [hd]; simpa using hl)]
      exact d.rasDropLayer_upper r hl
    have hlayers : (d.rasSelectLayer r t l).layers r = [0] := (Dev.layers_congr (by rw [hstep.same]) hstep.bad).trans hd
    exact hstep.trans (ih (fun m hm => hls m (List.mem_cons_of_mem l hm)) _ hlayers)

/-! ### RASTER_FETCH_START (R354) -/

/-- Raster `r` has made its selection for the next frame. -/
def Dev.rasFetched (d : Dev) (r : Nat) : Dev := d.modRs r (fun x => { x with fetched := true, repeat0 := false })

/-- Layer 0 takes buffer `n`: it holds it, shows it and says which frame it is. -/
def Dev.rasTaken (d : Dev) (r : Nat) (n : ShownBuf) : Dev :=
  (((d.releaseBy (holdRas r 0)).hold n.key (holdRas r 0)).modRs r (fun x => { x with shown := setAt x.shown 0 (some n) })).set
    (F.RAS_LAY_SHOWN_FSEQ r 0) n.fseq

/-- Layer 0 repeats what it shows. -/
def Dev.rasRepeated (d : Dev) (r : Nat) : Dev :=
  (d.bump (F.RAS_CNT_REPEATS r)).modRs r (fun x => { x with repeat0 := true })

theorem Dev.rasFetched_rs (d : Dev) {r : Nat} (h : r < d.ras.length) : (d.rasFetched r).rs r = { d.rs r with fetched := true, repeat0 := false } :=
  d.rs_modRs _ h

theorem Dev.hold_eq (d : Dev) (key by_ : Nat) : d.hold key by_ = { d with holds := (d.hold key by_).holds } := by
  unfold Dev.hold
  split
  · rfl
  · rfl

theorem Dev.set_eff (d : Dev) (f : Fld) (v : Nat) : (d.set f v).regs.eff = d.regs.eff := rfl

theorem Dev.releaseBy_regs (d : Dev) (by_ : Nat) : (d.releaseBy by_).regs = d.regs := rfl

theorem Dev.hold_regs (d : Dev) (key by_ : Nat) : (d.hold key by_).regs = d.regs := by rw [Dev.hold_eq]

theorem Dev.hold_rs (d : Dev) (key by_ r : Nat) : (d.hold key by_).rs r = d.rs r := Dev.rs_congr (by rw [Dev.hold_eq]) r

theorem Dev.rasFetched_bad (d : Dev) (r : Nat) : ((d.rasFetched r).rs r).bad = (d.rs r).bad :=
  Dev.rs_modRs_keeps RasSt.bad (f := fun x => { x with fetched := true, repeat0 := false }) (fun _ => rfl) d r r

theorem Dev.rasTaken_bad (d : Dev) (r : Nat) (n : ShownBuf) : ((d.rasTaken r n).rs r).bad = (d.rs r).bad := by
  rw [Dev.rasTaken, Dev.set_rs, Dev.rs_modRs_keeps RasSt.bad (by exact fun _ => rfl), Dev.hold_rs, Dev.releaseBy_rs]

theorem Dev.rasTaken_eff (d : Dev) (r : Nat) (n : ShownBuf) : (d.rasTaken r n).regs.eff = d.regs.eff := by
  rw [Dev.rasTaken, Dev.set_eff, Dev.modRs_regs, Dev.hold_regs, Dev.releaseBy_regs]

theorem Dev.rasRepeated_eff (d : Dev) (r : Nat) : (d.rasRepeated r).regs.eff = d.regs.eff := by
  rw [Dev.rasRepeated, Dev.modRs_regs, Dev.bump, Dev.set_eff]

theorem Dev.rasRepeated_bad (d : Dev) (r : Nat) : ((d.rasRepeated r).rs r).bad = (d.rs r).bad := by
  rw [Dev.rasRepeated, Dev.rs_modRs_keeps RasSt.bad (by exact fun _ => rfl), Dev.bump_rs]

theorem Dev.hold_held (d : Dev) (key by_ : Nat) : ({ buf := key, by_ := by_ } : Hold) ∈ (d.hold key by_).holds := by
  unfold Dev.hold
  split
  · next h =>
    obtain ⟨x, hx, hmatch⟩ := List.any_eq_true.mp h
    rw [Bool.and_eq_true, beq_iff_eq, beq_iff_eq] at hmatch
    obtain ⟨rfl, rfl⟩ := hmatch
    exact hx
  · exact List.mem_append_right _ List.mem_cons_self

theorem Dev.rasTaken_rs (d : Dev) {r : Nat} (n : ShownBuf) (h : r < d.ras.length) :
    (d.rasTaken r n).rs r = { d.rs r with shown := setAt (d.rs r).shown 0 (some n) } := by
  have hras : ((d.releaseBy (holdRas r 0)).hold n.key (holdRas r 0)).ras = d.ras := by
    rw [Dev.hold_eq]
    rfl
  rw [Dev.rasTaken, Dev.set_rs, Dev.rs_modRs _ _ (by rwa [hras]), Dev.rs_congr hras]

theorem Dev.rasTaken_fseq (d : Dev) (r : Nat) (n : ShownBuf) : (d.rasTaken r n).get (F.RAS_LAY_SHOWN_FSEQ r 0) = n.fseq % 2 ^ 32 := by
  rw [Dev.rasTaken, Dev.get_set_same _ _ _ (Fld.ok_of_ble rfl)]
  rfl

theorem Dev.rasTaken_held (d : Dev) (r : Nat) (n : ShownBuf) : ({ buf := n.key, by_ := holdRas r 0 } : Hold) ∈ (d.rasTaken r n).holds := by
  rw [Dev.rasTaken, Dev.set_holds, Dev.modRs_holds]
  exact Dev.hold_held _ n.key (holdRas r 0)

theorem Dev.rasTaken_only (d : Dev) (r : Nat) (n : ShownBuf) :
    ({ d with ras := (d.rasTaken r n).ras, holds := (d.rasTaken r n).holds } : Dev).Only (d.rasTaken r n) [F.RAS_LAY_SHOWN_FSEQ r 0] := by
  have hheld : ∀ e : Dev, e = { d with ras := e.ras, holds := e.holds } → ∀ v : Nat,
      ({ d with ras := (e.set (F.RAS_LAY_SHOWN_FSEQ r 0) v).ras, holds := (e.set (F.RAS_LAY_SHOWN_FSEQ r 0) v).holds } : Dev).Only
        (e.set (F.RAS_LAY_SHOWN_FSEQ r 0) v) [F.RAS_LAY_SHOWN_FSEQ r 0] := by
    intro e he v
    rw [Dev.set_ras, Dev.set_holds, ← he]
    exact (Dev.Only.refl e _).set v List.mem_cons_self (Fld.ok_of_ble rfl)
  refine hheld _ ?_ n.fseq
  rw [Dev.hold_eq]
  rfl

theorem Dev.rasRepeated_rs (d : Dev) {r : Nat} (h : r < d.ras.length) : (d.rasRepeated r).rs r = { d.rs r with repeat0 := true } := by
  rw [Dev.rasRepeated, Dev.rs_modRs _ _ (by rwa [Dev.bump_ras]), Dev.bump_rs]

theorem Dev.rasRepeated_count (d : Dev) (r : Nat) : (d.rasRepeated r).get (F.RAS_CNT_REPEATS r) = (d.get (F.RAS_CNT_REPEATS r) + 1) % 65536 := by
  rw [Dev.rasRepeated, Dev.modRs_get, Dev.get_bump_same _ _ (Fld.ok_of_ble rfl)]
  rfl

/-- A field is put beside a change of a raster's state. -/
theorem Dev.only_modRs_set (d : Dev) (r : Nat) (g : RasSt → RasSt) {f : Fld} (v : Nat) {fs : List Fld} (hf : f ∈ fs) (hok : f.ok) :
    ({ d with ras := ((d.modRs r g).set f v).ras, holds := ((d.modRs r g).set f v).holds } : Dev).Only ((d.modRs r g).set f v) fs :=
  (Dev.Only.refl (d.modRs r g) fs).set v hf hok

theorem Dev.rasRepeated_only (d : Dev) (r : Nat) :
    ({ d with ras := (d.rasRepeated r).ras, holds := (d.rasRepeated r).holds } : Dev).Only (d.rasRepeated r) [F.RAS_CNT_REPEATS r] := by
  rw [Dev.rasRepeated, Dev.bump, Dev.modRs_set]
  exact Dev.only_modRs_set d r _ _ List.mem_cons_self (Fld.ok_of_ble rfl)

theorem Dev.UpperDropped.regs {x e : Dev} {r : Nat} (h : x.UpperDropped r e) : e.regs = x.regs := by rw [h.same]

/-- Fields put before the state of the rasters and the buffers held change again. -/
theorem Dev.UpperDropped.only {d x e : Dev} {r : Nat} {fs : List Fld} (h : x.UpperDropped r e)
    (honly : ({ d with ras := x.ras, holds := x.holds } : Dev).Only x fs) : ({ d with ras := e.ras, holds := e.holds } : Dev).Only e fs := by
  obtain ⟨hsame, heff, hkept⟩ := honly
  have hregs := h.regs
  refine ⟨h.same.trans ?_, (congrArg Regs.eff hregs).trans heff, fun g hg ha => (Dev.get_congr hregs g).trans (hkept g hg ha)⟩
  rw [hregs]
  exact congrArg (fun y : Dev => { y with ras := e.ras, holds := e.holds }) hsame

/-- A raster whose one layer is a VIDEO layer 0 in use. -/
structure Dev.ShowsLayer0 (d : Dev) (r : Nat) : Prop where
  listed : r < d.ras.length
  layers : d.layers r = [0]
  video : d.layKind r 0 = 0
  used : d.layUsed r 0 = true
  mode : d.modeCode ≠ mBask

section
variable {d : Dev} {r : Nat} (h : d.ShowsLayer0 r)
include h

theorem Dev.ShowsLayer0.fetched : (d.rasFetched r).ShowsLayer0 r where
  listed := (List.length_modify _ _ _).symm ▸ h.listed
  layers := (Dev.layers_congr (d := d) (e := d.rasFetched r) rfl (d.rasFetched_bad r)).trans h.layers
  video := h.video
  used := (Dev.layUsed_congr (d := d) (e := d.rasFetched r) rfl (d.rasFetched_bad r) 0).trans h.used
  mode := h.mode

omit h in
theorem Dev.rasSelect_eq (d : Dev) (r : Nat) :
    d.rasSelect r = (List.range 8).foldl (fun e l => e.rasSelectLayer r (d.rasNext r) l) (d.rasFetched r) := rfl

theorem Dev.rasSelectLayer_takes {n : ShownBuf} {t : Nat} (hshown : (d.rs r).shown.getD 0 none = none) (hsel : d.selectBuf r 0 t = some n)
    (hmatch : d.bufMatches r n.off = true) : d.rasSelectLayer r t 0 = d.rasTaken r n := by
  unfold Dev.rasSelectLayer
  simp only [h.layers, h.video, h.used, h.mode, hshown, hsel, hmatch, List.contains_cons, beq_self_eq_true, Bool.true_or, decide_true, Bool.and_true,
    Bool.not_true, Bool.false_eq_true, if_false, if_true]
  rfl

theorem Dev.rasSelectLayer_repeats {o : ShownBuf} {t : Nat} (hshown : (d.rs r).shown.getD 0 none = some o) (hsel : d.selectBuf r 0 t = none) :
    d.rasSelectLayer r t 0 = d.rasRepeated r := by
  unfold Dev.rasSelectLayer
  simp only [h.layers, h.video, h.used, h.mode, hshown, hsel, List.contains_cons, beq_self_eq_true, Bool.true_or, decide_true, Bool.and_true,
    Bool.not_true, Bool.false_eq_true, if_false, Option.isSome_some, and_self, if_true]
  rfl

/-- After the turn of layer 0 the other layers drop what they show. -/
theorem Dev.rasSelect_upper {e : Dev} (hturn : (d.rasFetched r).rasSelectLayer r (d.rasNext r) 0 = e)
    (heff : e.regs.eff = (d.rasFetched r).regs.eff) (hbad : (e.rs r).bad = ((d.rasFetched r).rs r).bad) : e.UpperDropped r (d.rasSelect r) := by
  have hrange : List.range 8 = 0 :: List.range' 1 7 := rfl
  rw [Dev.rasSelect_eq, hrange, List.foldl_cons, hturn]
  refine Dev.foldl_rasSelectLayer_upper _ _ (fun l hl => ?_) e ((Dev.layers_congr heff hbad).trans h.fetched.layers)
  have := (List.mem_range'_1.mp hl).1
  omega

theorem Dev.rasSelect_takes {n : ShownBuf} (hshown : (d.rs r).shown.getD 0 none = none) (hsel : d.selectBuf r 0 (d.rasNext r) = some n)
    (hmatch : d.bufMatches r n.off = true) : ((d.rasFetched r).rasTaken r n).UpperDropped r (d.rasSelect r) :=
  Dev.rasSelect_upper h (Dev.rasSelectLayer_takes h.fetched (by rw [d.rasFetched_rs h.listed]; exact hshown)
    ((d.selectBuf_modRs _ _ _ _ _).trans hsel) ((d.bufMatches_modRs _ _ _ _).trans hmatch)) (Dev.rasTaken_eff _ r n) (Dev.rasTaken_bad _ r n)

theorem Dev.rasSelect_repeats {o : ShownBuf} (hshown : (d.rs r).shown.getD 0 none = some o) (hsel : d.selectBuf r 0 (d.rasNext r) = none) :
    ((d.rasFetched r).rasRepeated r).UpperDropped r (d.rasSelect r) :=
  Dev.rasSelect_upper h (Dev.rasSelectLayer_repeats h.fetched (by rw [d.rasFetched_rs h.listed]; exact hshown)
    ((d.selectBuf_modRs _ _ _ _ _).trans hsel)) (Dev.rasRepeated_eff _ r) (Dev.rasRepeated_bad _ r)

end

/-- A command that cannot select leaves the block as it is. -/
theorem execRasterFetchStart_idle {s : State} {r : Fin 6} (h : s.dev.rasScans r = false ∨ s.dev.gkMode r = true ∨
    (s.dev.rs r).fetched = true ∨ (s.dev.rs r).blackFrames ≠ 0) : execRasterFetchStart r s = .next s := by
  unfold execRasterFetchStart
  rw [State.run_eq, if_neg]
  rcases h with h | h | h | h <;> simp [h]

section
variable {s : State} {r : Fin 6} (hscans : s.dev.rasScans r = true) (hgk : s.dev.gkMode r = false) (hfetched : (s.dev.rs r).fetched = false)
  (hblack : (s.dev.rs r).blackFrames = 0)
include hscans hgk hfetched hblack

theorem execRasterFetchStart_selects : execRasterFetchStart r s = .next { s with dev := s.dev.rasSelect r } := by
  unfold execRasterFetchStart
  rw [State.run_eq, if_pos]
  simp [hscans, hgk, hfetched, hblack]

theorem rasterFetchStart_takes (h : s.dev.ShowsLayer0 r) (hlen : (s.dev.rs r).shown.length = 8) {n : ShownBuf}
    (hshown : (s.dev.rs r).shown.getD 0 none = none) (hsel : s.dev.selectBuf r 0 (s.dev.rasNext r) = some n)
    (hmatch : s.dev.bufMatches r n.off = true) :
    Completes (.rasterFetchStart r) s (fun d => (d.rs r).shown.getD 0 none = some n ∧ (d.rs r).fetched = true ∧
      (d.rs r).repeat0 = false ∧ d.bufHeld n.key = true ∧ d.get (F.RAS_LAY_SHOWN_FSEQ r 0) = n.fseq % 2 ^ 32 ∧
      ({ s.dev with ras := d.ras, holds := d.holds } : Dev).Only d [F.RAS_LAY_SHOWN_FSEQ r 0]) := by
  refine ⟨_, execRasterFetchStart_selects hscans hgk hfetched hblack, rfl, ?_⟩
  have hsel := Dev.rasSelect_takes h hshown hsel hmatch
  dsimp only
  generalize s.dev.rasSelect r = d at hsel
  have hrs := s.dev.rasFetched_rs h.listed
  have htaken := (s.dev.rasFetched r).rasTaken_rs n h.fetched.listed
  have hheld : ({ buf := n.key, by_ := holdRas r 0 } : Hold) ∈ d.holds := hsel.holds _ (Dev.rasTaken_held _ r n) rfl
  refine ⟨?_, ?_, ?_, ?_, ?_, hsel.only (Dev.rasTaken_only _ r n)⟩
  · rw [hsel.layer0, htaken, hrs]
    exact getD_setAt _ _ (by rw [hlen]; decide)
  · rw [hsel.fetched, htaken, hrs]
  · rw [hsel.repeat0, htaken, hrs]
  · exact List.any_eq_true.mpr ⟨_, hheld, beq_self_eq_true n.key⟩
  · rw [Dev.get_congr hsel.regs, Dev.rasTaken_fseq]

theorem rasterFetchStart_repeats (h : s.dev.ShowsLayer0 r) {o : ShownBuf}
    (hshown : (s.dev.rs r).shown.getD 0 none = some o) (hsel : s.dev.selectBuf r 0 (s.dev.rasNext r) = none) :
    Completes (.rasterFetchStart r) s (fun d => (d.rs r).shown.getD 0 none = some o ∧ (d.rs r).fetched = true ∧
      (d.rs r).repeat0 = true ∧ d.get (F.RAS_CNT_REPEATS r) = (s.dev.get (F.RAS_CNT_REPEATS r) + 1) % 65536 ∧
      ({ s.dev with ras := d.ras, holds := d.holds } : Dev).Only d [F.RAS_CNT_REPEATS r]) := by
  refine ⟨_, execRasterFetchStart_selects hscans hgk hfetched hblack, rfl, ?_⟩
  have hsel := Dev.rasSelect_repeats h hshown hsel
  dsimp only
  generalize s.dev.rasSelect r = d at hsel
  have hrs := s.dev.rasFetched_rs h.listed
  have hrepeated := (s.dev.rasFetched r).rasRepeated_rs h.fetched.listed
  refine ⟨?_, ?_, ?_, ?_, hsel.only (Dev.rasRepeated_only (s.dev.rasFetched r) r)⟩
  · rw [hsel.layer0, hrepeated, hrs]
    exact hshown
  · rw [hsel.fetched, hrepeated, hrs]
  · rw [hsel.repeat0, hrepeated, hrs]
  · rw [Dev.get_congr hsel.regs, Dev.rasRepeated_count, Dev.rasFetched, Dev.modRs_get]

end

end Sys2Proof.Machine
end

section
/-!
Lines and underruns of a raster (R356, R357, R362-R365).
-/
namespace Sys2Proof.Machine

/-! ### The registers that an underrun counts in -/

theorem RAS_CNT_not_reported {r : Nat} (hr : r < 6) : R.RAS_CNT r ∉ reportRegs :=
  ras_not_reported (by simp only [R.RAS_CNT]; omega) (by simp only [R.RAS_CNT]; omega)

theorem RAS_FRAME_apart {r : Nat} (hr : r < 6) (m : Nat) : R.RAS_FRAME r ∉ R.RAS_CNT m :: reportRegs := by
  refine List.not_mem_cons_of_ne_of_not_mem ?_ (ras_not_reported (by simp only [R.RAS_FRAME]; omega) (by simp only [R.RAS_FRAME]; omega))
  simp only [R.RAS_FRAME, R.RAS_CNT]
  omega

/-! ### One raster's underrun (R362-R364) -/

/-- An underrun is counted, and reported at most once a second. -/
def Dev.underrunNoted (d : Dev) (r y what : Nat) : Dev :=
  let d := d.bump (F.RAS_CNT_UNDERRUN r)
  if !d.secOver (d.rs r).underSec then d
  else (d.eventAt 0x0E01 sevNotice r [u32 (d.get (F.RAS_FRAME_COUNT r)), u16 y, u8 what]).modRs r (fun x =>
    { x with underSec := d.elapsed + 1 })

section
variable (d : Dev) (r y what : Nat)

/-- Beside the state of the rasters the note is the count and a report. -/
theorem Dev.underrunNoted_reports : ∃ e, (d.bump (F.RAS_CNT_UNDERRUN r)).Reports e ∧
    d.underrunNoted r y what = { e with ras := (d.underrunNoted r y what).ras } := by
  unfold Dev.underrunNoted
  generalize d.bump (F.RAS_CNT_UNDERRUN r) = b
  dsimp only
  split
  · exact ⟨b, Dev.Touches.refl b _, rfl⟩
  · exact ⟨_, b.eventAt_reports _ _ _ _, rfl⟩

theorem Dev.underrunNoted_touches : d.RasTouches (R.RAS_CNT r :: reportRegs) (d.underrunNoted r y what) := by
  have hbump : d.RasTouches (R.RAS_CNT r :: reportRegs) (d.bump (F.RAS_CNT_UNDERRUN r)) :=
    (Dev.RasTouches.refl d _).set _ _ List.mem_cons_self
  unfold Dev.underrunNoted
  exact .ite hbump ((hbump.eventAt (fun a ha => List.mem_cons_of_mem _ ha) _ _ _ _).modRs _ _)

theorem Dev.underrunNoted_keeps {β : Type} (g : RasSt → β) (hg : ∀ x n, g { x with underSec := n } = g x) (m : Nat) :
    g ((d.underrunNoted r y what).rs m) = g (d.rs m) := by
  unfold Dev.underrunNoted
  dsimp only
  split
  · rw [Dev.bump_rs]
  · rw [Dev.rs_modRs_keeps g (fun x => hg x _), Dev.eventAt_rs, Dev.bump_rs]

theorem Dev.underrunNoted_length : (d.underrunNoted r y what).ras.length = d.ras.length := by
  unfold Dev.underrunNoted
  dsimp only
  split
  · rw [Dev.bump_ras]
  · rw [Dev.modRs_ras, Dev.eventAt_ras, Dev.bump_ras, modifyAt, List.length_modify]

theorem Dev.underrunNoted_count {r : Nat} (hr : r < 6) :
    (d.underrunNoted r y what).get (F.RAS_CNT_UNDERRUN r) = (d.get (F.RAS_CNT_UNDERRUN r) + 1) % 65536 := by
  obtain ⟨e, hrep, heq⟩ := d.underrunNoted_reports r y what
  have hget : (d.underrunNoted r y what).get (F.RAS_CNT_UNDERRUN r) = e.get (F.RAS_CNT_UNDERRUN r) := by rw [heq]; rfl
  rw [hget, hrep.get _ (RAS_CNT_not_reported hr), Dev.get_bump_same _ _ (Fld.ok_of_ble rfl)]
  rfl

theorem Dev.underrunOne_sdi {r : Nat} (hr : r < 4) :
    d.underrunOne r y what = (d.underrunNoted r y what).modRs r (fun x => { x with black := true, under := true }) := by
  have hpanel : isPanel r = false := decide_eq_false (by omega)
  unfold Dev.underrunOne
  rw [hpanel]
  rfl

/-- A panel's underrun ends the frame. -/
theorem Dev.underrunOne_panel {r : Nat} (hr : 4 ≤ r) (hgk : d.gkMode r = false) : ∃ k off, d.underrunOne r y what =
    ((d.underrunNoted r y what).emit (.video 4 r [(d.underrunNoted r y what).get (F.RAS_FRAME_COUNT r), y])).modRs r
      (fun x => { x with active := false, under := true, fetched := false, k := k, off := off }) := by
  have hpanel : isPanel r = true := decide_eq_true hr
  have hgk' : ∀ o, ((d.underrunNoted r y what).emit o).gkMode r = false := fun o => by
    refine Eq.trans ?_ hgk
    unfold Dev.gkMode
    rw [((d.underrunNoted_touches r y what).emit o).egets]
  unfold Dev.underrunOne
  rw [hpanel, if_pos rfl]
  exact ⟨_, _, if_neg (by rw [← Dev.underrunNoted, hgk']; exact Bool.false_ne_true)⟩

theorem Dev.underrunOne_touches : d.RasTouches (R.RAS_CNT r :: reportRegs) (d.underrunOne r y what) := by
  have hnoted := d.underrunNoted_touches r y what
  unfold Dev.underrunOne
  exact .ite (.ite ((hnoted.emit _).modRs _ _) ((hnoted.emit _).modRs _ _)) (hnoted.modRs _ _)

end

/-- What follows an underrun's note: the field counted, then reports, beside another state of the rasters. -/
theorem Dev.within_bump_ras {d b e : Dev} {f : Fld} (hok : f.ok) (h : (d.bump f).Reports b) (he : e = { b with ras := e.ras }) :
    ({ d with ras := e.ras } : Dev).Within e [f] := by
  refine Dev.within_set_report (v := d.get f + 1) hok ?_
  rw [he]
  exact Dev.Touches.withRas h e.ras

section
variable {d : Dev} {r : Nat} (hlen : d.ras.length = 6) (y what : Nat)
include hlen

theorem Dev.underrunOne_sdi_black (hr : r < 4) (hactive : (d.rs r).active = true) :
    (d.underrunOne r y what).get (F.RAS_CNT_UNDERRUN r) = (d.get (F.RAS_CNT_UNDERRUN r) + 1) % 65536 ∧
    ((d.underrunOne r y what).rs r).under = true ∧ ((d.underrunOne r y what).rs r).black = true ∧
    ((d.underrunOne r y what).rs r).active = true ∧
    ({ d with ras := (d.underrunOne r y what).ras } : Dev).Within (d.underrunOne r y what) [F.RAS_CNT_UNDERRUN r] := by
  obtain ⟨b, hrep, hb⟩ := d.underrunNoted_reports r y what
  have hlt : r < (d.underrunNoted r y what).ras.length := by rw [d.underrunNoted_length, hlen]; omega
  rw [d.underrunOne_sdi y what hr, Dev.rs_modRs _ _ hlt, Dev.modRs_get, d.underrunNoted_count y what (by omega)]
  refine ⟨rfl, rfl, rfl, ?_, Dev.within_bump_ras (Fld.ok_of_ble rfl) hrep ?_⟩
  · exact (d.underrunNoted_keeps r y what RasSt.active (fun _ _ => rfl) r).trans hactive
  · exact congrArg (fun x : Dev => { x with ras := modifyAt (d.underrunNoted r y what).ras r (fun x => { x with black := true, under := true }) }) hb

theorem Dev.underrunOne_panel_ended (hr : 4 ≤ r) (hr6 : r < 6) (hgk : d.gkMode r = false) :
    (d.underrunOne r y what).get (F.RAS_CNT_UNDERRUN r) = (d.get (F.RAS_CNT_UNDERRUN r) + 1) % 65536 ∧
    ((d.underrunOne r y what).rs r).under = true ∧ ((d.underrunOne r y what).rs r).active = false ∧
    ((d.underrunOne r y what).rs r).fetched = false ∧
    .video 4 r [d.get (F.RAS_FRAME_COUNT r), y] ∈ (d.underrunOne r y what).out := by
  obtain ⟨k, off, heq⟩ := d.underrunOne_panel y what hr hgk
  have hlt : r < ((d.underrunNoted r y what).emit (.video 4 r [(d.underrunNoted r y what).get (F.RAS_FRAME_COUNT r), y])).ras.length := by
    rw [Dev.emit_ras, d.underrunNoted_length, hlen]
    exact hr6
  have hcount : (d.underrunNoted r y what).get (F.RAS_FRAME_COUNT r) = d.get (F.RAS_FRAME_COUNT r) :=
    (d.underrunNoted_touches r y what).get _ (RAS_FRAME_apart hr6 r)
  rw [heq, Dev.rs_modRs _ _ hlt, Dev.modRs_get, Dev.modRs_out, hcount]
  exact ⟨d.underrunNoted_count y what hr6, rfl, rfl, rfl, List.mem_append_right _ List.mem_cons_self⟩

end

/-! ### Alignment groups (R365) -/

/-- A raster of no group underruns alone. -/
theorem Dev.underrun_alone {d : Dev} {r : Nat} (hgroup : d.get (F.RAS_CFG_GROUP r) = 0) (hactive : (d.rs r).active = true) (y what : Nat) :
    d.underrun r y what = d.underrunOne r y what := by
  rw [Dev.underrun, Dev.rasGroup, if_pos hgroup, List.foldl_cons, List.foldl_nil, if_pos hactive]

/-- The registers that an underrun of any raster changes. -/
def underrunRegs : List Nat := (List.range 6).map R.RAS_CNT ++ reportRegs

theorem Dev.mem_rasGroup_lt {d : Dev} {r m : Nat} (hr : r < 6) (h : m ∈ d.rasGroup r) : m < 6 := by
  unfold Dev.rasGroup at h
  dsimp only at h
  split at h
  · rwa [List.mem_singleton.mp h]
  · exact List.mem_range.mp (List.mem_filter.mp h).1

/-- An underrun changes the counts of the group's rasters and their state, and reports. -/
theorem Dev.underrun_touches (d : Dev) {r : Nat} (hr : r < 6) (y what : Nat) : d.RasTouches underrunRegs (d.underrun r y what) := by
  refine Dev.RasTouches.foldl (Dev.RasTouches.refl d _) _ (fun e m hm => .ite ?_ (Dev.RasTouches.refl e _))
  refine (e.underrunOne_touches m y what).mono (fun a ha => ?_)
  rcases List.mem_cons.mp ha with rfl | ha
  · exact List.mem_append_left _ (List.mem_map_of_mem (List.mem_range.mpr (Dev.mem_rasGroup_lt hr hm)))
  · exact List.mem_append_right _ ha

/-! ### RASTER_LINE_FETCH (R357, R362, R363) -/

/-- The line `y` of a raster, as the frame's number, the line's and its samples. -/
def Dev.rasLine (d : Dev) (r y : Nat) : List Nat := d.get (F.RAS_FRAME_COUNT r) :: y :: d.outputLine r (d.composeLine r y)

/-- Every VIDEO layer fetched on line `y` of a raster finds its source line complete. -/
def Dev.LineComplete (d : Dev) (r y : Nat) : Prop :=
  ∀ l ∈ d.layers r, d.layKind r l = 0 → d.layFetched r l y = true → ∀ b, (d.rs r).shown.getD l none = some b →
    d.eget (F.RAS_LAY_SRC_XY_Y r l) + (y - d.eget (F.RAS_LAY_POS_Y r l)) < d.poolNat poolDev (b.off + 0xC) 4

/-- Whether a layer's source line for line `y` is not complete. -/
def Dev.layLate (d : Dev) (r y l : Nat) : Bool :=
  d.layKind r l = 0 && d.layFetched r l y &&
    match (d.rs r).shown.getD l none with
    | some b => decide (d.poolNat poolDev (b.off + 0xC) 4 ≤ d.eget (F.RAS_LAY_SRC_XY_Y r l) + (y - d.eget (F.RAS_LAY_POS_Y r l)))
    | none => false

theorem Dev.lineComplete_iff (d : Dev) (r y : Nat) : d.LineComplete r y ↔ (d.layers r).find? (d.layLate r y) = none := by
  rw [List.find?_eq_none]
  refine forall₂_congr (fun l _ => ?_)
  unfold Dev.layLate
  cases (d.rs r).shown.getD l none with
  | none => simp
  | some b => simp

/-- The fetch of line `y` of a frame that is not black: an underrun at the lowest layer that is late or at a FIFO, or the line goes out. -/
def Dev.rasFetchLine (d : Dev) (r y fifo : Nat) : Dev :=
  match (d.layers r).find? (d.layLate r y) with
  | some l => d.underrun r y l
  | none => if fifo ≠ 0 then d.underrun r y (fifo - 1) else d.emit (.video 0 r (d.rasLine r y))

theorem Dev.rasFetchLine_complete {d : Dev} {r y : Nat} (h : d.LineComplete r y) :
    d.rasFetchLine r y 0 = d.emit (.video 0 r (d.rasLine r y)) := by
  rw [Dev.rasFetchLine, (d.lineComplete_iff r y).mp h]
  rfl

theorem Dev.rasFetchLine_underrun {d : Dev} {r y fifo : Nat} (h : ¬ d.LineComplete r y ∨ fifo ≠ 0) :
    ∃ what, d.rasFetchLine r y fifo = d.underrun r y what := by
  unfold Dev.rasFetchLine
  cases hlate : (d.layers r).find? (d.layLate r y) with
  | some l => exact ⟨l, rfl⟩
  | none =>
    have hfifo : fifo ≠ 0 := h.resolve_left (fun hnot => hnot ((d.lineComplete_iff r y).mpr hlate))
    exact ⟨fifo - 1, if_pos hfifo⟩

theorem execRasterLineFetch_idle {s : State} {r : Fin 6} {y : Nat} (h : (s.dev.rs r).active = false ∨ s.dev.gkMode r = true ∨
    s.dev.eget (F.RAS_TIMING0_V_ACTIVE r) ≤ y) (fifo : Fin 11) : execRasterLineFetch r y fifo s = .next s := by
  unfold execRasterLineFetch
  rw [State.run_eq, if_pos]
  rcases h with h | h | h <;> simp [h]

section
variable {s : State} {r : Fin 6} {y : Nat} (hactive : (s.dev.rs r).active = true) (hgk : s.dev.gkMode r = false)
  (hy : y < s.dev.eget (F.RAS_TIMING0_V_ACTIVE r)) (fifo : Fin 11)
include hactive hgk hy

theorem execRasterLineFetch_black (h : (s.dev.rs r).black = true ∨ 0 < (s.dev.rs r).blackFrames ∨ s.dev.rasScans r = false) :
    execRasterLineFetch r y fifo s = .next { s with dev := s.dev.emit (.video 1 r (s.dev.rasLine r y)) } := by
  unfold execRasterLineFetch
  rw [State.run_eq, if_neg (by simp [hactive, hgk, hy]), if_pos (by rcases h with h | h | h <;> simp [h])]
  rfl

variable (hblack : (s.dev.rs r).black = false) (hblackFrames : (s.dev.rs r).blackFrames = 0) (hscans : s.dev.rasScans r = true)
include hblack hblackFrames hscans

theorem execRasterLineFetch_scans : execRasterLineFetch r y fifo s = .next { s with dev := s.dev.rasFetchLine r y fifo } := by
  unfold execRasterLineFetch
  rw [State.run_eq, if_neg (by simp [hactive, hgk, hy]), if_neg (by simp [hblack, hblackFrames, hscans])]
  rfl

theorem rasterLineFetch_underruns (hlate : ¬ s.dev.LineComplete r y ∨ fifo.val ≠ 0) (hgroup : s.dev.get (F.RAS_CFG_GROUP r) = 0)
    (hlen : s.dev.ras.length = 6) : Completes (.rasterLineFetch r y fifo) s (fun d =>
      d.get (F.RAS_CNT_UNDERRUN r) = (s.dev.get (F.RAS_CNT_UNDERRUN r) + 1) % 65536 ∧ (d.rs r).under = true ∧
      (r.val < 4 → (d.rs r).black = true ∧ (d.rs r).active = true ∧
        ({ s.dev with ras := d.ras } : Dev).Within d [F.RAS_CNT_UNDERRUN r]) ∧
      (4 ≤ r.val → (d.rs r).active = false ∧ (d.rs r).fetched = false ∧
        .video 4 r [s.dev.get (F.RAS_FRAME_COUNT r), y] ∈ d.out)) := by
  obtain ⟨what, hunder⟩ := Dev.rasFetchLine_underrun hlate
  have hexec := execRasterLineFetch_scans hactive hgk hy fifo hblack hblackFrames hscans
  rw [hunder, Dev.underrun_alone hgroup hactive] at hexec
  refine ⟨_, hexec, rfl, ?_⟩
  dsimp only
  rcases Nat.lt_or_ge r.val 4 with hr | hr
  · obtain ⟨hcount, hund, hblk, hact, hwithin⟩ := Dev.underrunOne_sdi_black hlen y what hr hactive
    exact ⟨hcount, hund, fun _ => ⟨hblk, hact, hwithin⟩, fun h => absurd h (Nat.not_le.mpr hr)⟩
  · obtain ⟨hcount, hund, hact, hfetched, hout⟩ := Dev.underrunOne_panel_ended hlen y what hr r.isLt hgk
    exact ⟨hcount, hund, fun h => absurd hr (Nat.not_le.mpr h), fun _ => ⟨hact, hfetched, hout⟩⟩

end

end Sys2Proof.Machine
end

section
/-!
A raster frame starts (R351, R352, R364, R368-R370, R401).
-/
namespace Sys2Proof.Machine

/-! ### What a frame start changes -/

/-- The registers that a frame start changes. -/
def frameStartRegs (r : Nat) : List Nat := R.RAS_STATUS r :: R.RAS_FRAME r :: reportRegs

theorem phaseRegs_frameStart (r : Nat) : ∀ a ∈ R.RAS_STATUS r :: reportRegs, a ∈ frameStartRegs r := fun _ ha =>
  List.mem_cons.mpr ((List.mem_cons.mp ha).imp id (List.mem_cons_of_mem _))

theorem RAS_STATUS_not_reported {r : Nat} (hr : r < 6) : R.RAS_STATUS r ∉ reportRegs :=
  ras_not_reported (by simp only [R.RAS_STATUS]; omega) (by simp only [R.RAS_STATUS]; omega)

theorem RAS_FRAME_not_reported {r : Nat} (hr : r < 6) : R.RAS_FRAME r ∉ reportRegs :=
  ras_not_reported (by simp only [R.RAS_FRAME]; omega) (by simp only [R.RAS_FRAME]; omega)

/-- A register of a raster other than its status and its frame count is none that a frame start changes. -/
theorem not_mem_frameStartRegs {r : Nat} (hr : r < 6) (o : Nat) (ho : o < 0x1000 ∧ o ≠ 0x40 ∧ o ≠ 0x44) :
    0x801000 + o + 0x1000 * r ∉ frameStartRegs r := by
  obtain ⟨hlt, hstatus, hframe⟩ := ho
  refine List.not_mem_cons_of_ne_of_not_mem ?_ (List.not_mem_cons_of_ne_of_not_mem ?_ (ras_not_reported (by omega) (by omega)))
  · simp only [R.RAS_STATUS]
    omega
  · simp only [R.RAS_FRAME]
    omega

section
variable {d e : Dev} {r : Nat}

/-- What a frame start changes is not what its instant is computed from (R351, R364). -/
theorem Dev.RasTouches.rasNext (h : d.RasTouches (frameStartRegs r) e) (hr : r < 6) (hk : (e.rs r).k = (d.rs r).k)
    (hoff : (e.rs r).off = (d.rs r).off) : e.rasNext r = d.rasNext r := by
  have hlo : e.get (F.RAS_EPOCH_LO_EPOCH r) = d.get (F.RAS_EPOCH_LO_EPOCH r) := h.get _ (not_mem_frameStartRegs hr 0x18 (by decide))
  have hhi : e.get (F.RAS_EPOCH_HI_EPOCH r) = d.get (F.RAS_EPOCH_HI_EPOCH r) := h.get _ (not_mem_frameStartRegs hr 0x1C (by decide))
  unfold Dev.rasNext Dev.rasEpoch Dev.rasOffset
  rw [h.egets, hk, hoff, hlo, hhi]

end

/-! ### The phase error (R352) -/

section
variable (d : Dev) (r : Nat) (phase : Int)

/-- The phase error is shown; beyond 50 ns the time within it starts again. -/
def Dev.rasMeasured (d : Dev) (r : Nat) (phase : Int) : Dev :=
  let d := d.set (F.RAS_STATUS_PHASE_NS r) (satSigned 16 phase)
  if 50 < phase.natAbs then d.modRs r (fun x => { x with lockFrom := d.elapsed }) else d

/-- Beyond 1,000 ns the lock is lost. -/
def Dev.rasLockChecked (d : Dev) (r : Nat) (phase : Int) : Dev :=
  if 1000 < phase.natAbs ∧ d.flag (F.RAS_STATUS_LOCKED r) = true then
    (d.setFlag (F.RAS_STATUS_LOCKED r) false).eventAt 0x0E06 sevNotice r [i32 phase]
  else d

theorem Dev.rasPhase_eq : d.rasPhase r phase = (d.rasMeasured r phase).rasLockChecked r phase := rfl

theorem Dev.rasMeasured_touches : d.RasTouches (R.RAS_STATUS r :: reportRegs) (d.rasMeasured r phase) := by
  have hset := (Dev.RasTouches.refl d (R.RAS_STATUS r :: reportRegs)).set (F.RAS_STATUS_PHASE_NS r) (satSigned 16 phase) List.mem_cons_self
  unfold Dev.rasMeasured
  exact .ite (hset.modRs _ _) hset

theorem Dev.rasLockChecked_touches : d.RasTouches (R.RAS_STATUS r :: reportRegs) (d.rasLockChecked r phase) := by
  have hrefl := Dev.RasTouches.refl d (R.RAS_STATUS r :: reportRegs)
  unfold Dev.rasLockChecked
  exact .ite ((hrefl.set _ _ List.mem_cons_self).eventAt (fun _ ha => List.mem_cons_of_mem _ ha) _ _ _ _) hrefl

theorem Dev.rasPhase_touches : d.RasTouches (R.RAS_STATUS r :: reportRegs) (d.rasPhase r phase) :=
  (d.rasMeasured_touches r phase).trans (Dev.rasLockChecked_touches _ r phase)

theorem Dev.rasMeasured_get (f : Fld) : (d.rasMeasured r phase).get f = (d.set (F.RAS_STATUS_PHASE_NS r) (satSigned 16 phase)).get f := by
  unfold Dev.rasMeasured
  dsimp only
  split
  · rw [Dev.modRs_get]
  · rfl

theorem Dev.rasLockChecked_ras : (d.rasLockChecked r phase).ras = d.ras := by
  unfold Dev.rasLockChecked
  split
  · rw [Dev.eventAt_ras, Dev.setFlag_ras]
  · rfl

theorem Dev.rasMeasured_keeps {β : Type} (g : RasSt → β) (hg : ∀ x n, g { x with lockFrom := n } = g x) :
    g ((d.rasMeasured r phase).rs r) = g (d.rs r) := by
  unfold Dev.rasMeasured
  dsimp only
  split
  · rw [Dev.rs_modRs_keeps g (fun x => hg x _), Dev.set_rs]
  · rw [Dev.set_rs]

theorem Dev.rasPhase_keeps {β : Type} (g : RasSt → β) (hg : ∀ x n, g { x with lockFrom := n } = g x) :
    g ((d.rasPhase r phase).rs r) = g (d.rs r) := by
  rw [Dev.rasPhase_eq, Dev.rs_congr (Dev.rasLockChecked_ras _ r phase), Dev.rasMeasured_keeps d r phase g hg]

theorem Dev.rasPhase_rs : (d.rasPhase r phase).rs r = { d.rs r with lockFrom := ((d.rasPhase r phase).rs r).lockFrom } :=
  congrArg (fun x : RasSt => { x with lockFrom := ((d.rasPhase r phase).rs r).lockFrom })
    (d.rasPhase_keeps r phase (fun x => { x with lockFrom := 0 }) (fun _ _ => rfl))

theorem Dev.rasPhase_length : (d.rasPhase r phase).ras.length = d.ras.length := by
  rw [Dev.rasPhase_eq, Dev.rasLockChecked_ras]
  unfold Dev.rasMeasured
  dsimp only
  split
  · rw [Dev.modRs_ras, Dev.set_ras, modifyAt, List.length_modify]
  · rw [Dev.set_ras]

theorem Dev.rasLockChecked_locked {r : Nat} (hr : r < 6) :
    (d.rasLockChecked r phase).flag (F.RAS_STATUS_LOCKED r) = (d.flag (F.RAS_STATUS_LOCKED r) && decide (phase.natAbs ≤ 1000)) := by
  unfold Dev.rasLockChecked
  split
  · next h =>
    rw [(Dev.eventAt_reports _ _ _ _ _).flag _ (RAS_STATUS_not_reported hr), Dev.flag_setFlag_same _ _ _ (Fld.ok_of_ble rfl) rfl,
      decide_eq_false (Nat.not_le.mpr h.1), Bool.and_false]
  · next h =>
    rcases Nat.lt_or_ge 1000 phase.natAbs with hp | hp
    · rw [Bool.eq_false_iff.mpr (fun hl => h ⟨hp, hl⟩), Bool.false_and]
    · rw [decide_eq_true hp, Bool.and_true]

theorem Dev.rasLockChecked_phase {r : Nat} (hr : r < 6) :
    (d.rasLockChecked r phase).get (F.RAS_STATUS_PHASE_NS r) = d.get (F.RAS_STATUS_PHASE_NS r) := by
  unfold Dev.rasLockChecked
  split
  · rw [(Dev.eventAt_reports _ _ _ _ _).get _ (RAS_STATUS_not_reported hr), Dev.setFlag,
      Dev.get_set_apart _ _ _ _ (Fld.ok_of_ble rfl) (Fld.apart_of_above rfl)]
  · rfl

theorem satSigned_lt (bits : Nat) (x : Int) : satSigned bits x < 2 ^ bits := by
  have hpos : (0 : Int) < 2 ^ bits := by positivity
  have hlt := Int.emod_lt_of_pos (clampInt x (-(2 ^ (bits - 1))) (2 ^ (bits - 1) - 1)) hpos
  unfold satSigned toBits
  zify
  rw [Int.toNat_of_nonneg (Int.emod_nonneg _ hpos.ne')]
  exact hlt

theorem Dev.rasPhase_phase {r : Nat} (hr : r < 6) : (d.rasPhase r phase).get (F.RAS_STATUS_PHASE_NS r) = satSigned 16 phase := by
  rw [Dev.rasPhase_eq, Dev.rasLockChecked_phase _ _ hr, Dev.rasMeasured_get, Dev.get_set_same _ _ _ (Fld.ok_of_ble rfl)]
  exact Nat.mod_eq_of_lt (satSigned_lt 16 phase)

theorem Dev.rasPhase_locked {r : Nat} (hr : r < 6) :
    (d.rasPhase r phase).flag (F.RAS_STATUS_LOCKED r) = (d.flag (F.RAS_STATUS_LOCKED r) && decide (phase.natAbs ≤ 1000)) := by
  rw [Dev.rasPhase_eq, Dev.rasLockChecked_locked _ _ hr, Dev.flag, Dev.rasMeasured_get,
    Dev.get_set_apart _ _ _ _ (Fld.ok_of_ble rfl) (Fld.apart_of_below rfl)]
  rfl

end

/-! ### The frame starts -/

/-- The frame counts and leaves vertical blanking. -/
def Dev.rasCounted (d : Dev) (r : Nat) : Dev := (d.bump (F.RAS_FRAME_COUNT r)).setFlag (F.RAS_STATUS_VBLANK r) false

/-- The state of a raster whose next frame runs from STIME `start`; its offset returns towards 0 by at most `slew` ns. -/
def RasSt.started (x : RasSt) (start : Nat) (slew : Int) : RasSt :=
  { x with active := true, black := false, under := false, fetched := false, start := start, k := x.k + 1
           off := x.off - clampInt x.off (-slew) slew }

/-- The ns by which a raster's offset returns in a frame (R364). -/
def Dev.rasSlew (d : Dev) (r : Nat) : Int := d.rasLineNs r * d.get (F.RAS_PANEL_V_SLEW r)

/-- The next frame of a raster runs from STIME `start`. -/
def Dev.rasRuns (d : Dev) (r start : Nat) : Dev := d.modRs r (fun x => x.started start (d.rasSlew r))

/-- A raster's frame runs, before what goes out with it. -/
def Dev.rasStarted (d : Dev) (r : Nat) (phase : Int) : Dev :=
  ((d.rasPhase r phase).rasCounted r).rasRuns r ((d.rasPhase r phase).rasNext r)

section
variable (d : Dev) (r : Nat) (phase : Int)

theorem Dev.rasCounted_touches : d.RasTouches (frameStartRegs r) (d.rasCounted r) :=
  ((Dev.RasTouches.refl d _).set _ _ (List.mem_cons_of_mem _ List.mem_cons_self)).set _ _ List.mem_cons_self

/-- The block as the phase error is noted and the frame counted. -/
theorem Dev.rasPhase_rasCounted_touches : d.RasTouches (frameStartRegs r) ((d.rasPhase r phase).rasCounted r) :=
  ((d.rasPhase_touches r phase).mono (phaseRegs_frameStart r)).trans (Dev.rasCounted_touches _ r)

theorem Dev.rasStarted_touches : d.RasTouches (frameStartRegs r) (d.rasStarted r phase) :=
  (d.rasPhase_rasCounted_touches r phase).modRs _ _

theorem RAS_STATUS_ne_FRAME : R.RAS_STATUS r ≠ R.RAS_FRAME r := by
  simp only [R.RAS_STATUS, R.RAS_FRAME]
  omega

theorem Dev.rasCounted_count : (d.rasCounted r).get (F.RAS_FRAME_COUNT r) = (d.get (F.RAS_FRAME_COUNT r) + 1) % 2 ^ 32 := by
  rw [Dev.rasCounted, Dev.setFlag, Dev.get_set_apart _ _ _ _ (Fld.ok_of_ble rfl) (.inl (RAS_STATUS_ne_FRAME r).symm),
    Dev.get_bump_same _ _ (Fld.ok_of_ble rfl)]
  rfl

/-- The status but for VBLANK is as it was. -/
theorem Dev.rasCounted_status (f : Fld) (hf : f.addr = R.RAS_STATUS r) (hapart : f.apart (F.RAS_STATUS_VBLANK r)) :
    (d.rasCounted r).get f = d.get f := by
  rw [Dev.rasCounted, Dev.setFlag, Dev.get_set_apart _ _ _ _ (Fld.ok_of_ble rfl) hapart, Dev.bump,
    Dev.get_set_apart _ _ _ _ (Fld.ok_of_ble rfl) (.inl (hf ▸ RAS_STATUS_ne_FRAME r))]

theorem Dev.rasCounted_vblank : (d.rasCounted r).flag (F.RAS_STATUS_VBLANK r) = false := by
  rw [Dev.rasCounted, Dev.flag_setFlag_same _ _ _ (Fld.ok_of_ble rfl) rfl]

theorem Dev.rasCounted_rs : (d.rasCounted r).rs r = d.rs r := by rw [Dev.rasCounted, Dev.setFlag_rs, Dev.bump_rs]

theorem Dev.rasCounted_ras : (d.rasCounted r).ras = d.ras := by rw [Dev.rasCounted, Dev.setFlag_ras, Dev.bump_ras]

end

section
variable {d e : Dev} {r : Nat} (h : d.RasTouches (frameStartRegs r) e) (hr : r < 6)
include h hr

theorem Dev.RasTouches.rasSlew : e.rasSlew r = d.rasSlew r := by
  have hslew : e.get (F.RAS_PANEL_V_SLEW r) = d.get (F.RAS_PANEL_V_SLEW r) := h.get _ (not_mem_frameStartRegs hr 0x34 (by decide))
  unfold Dev.rasSlew Dev.rasLineNs
  rw [h.egets, hslew]

theorem Dev.RasTouches.rasScans (hrun : (e.rs r).run = (d.rs r).run) : e.rasScans r = d.rasScans r := by
  have hmode : R.DEV_MODE ∉ frameStartRegs r := by
    simp only [frameStartRegs, reportRegs, R.RAS_STATUS, R.RAS_FRAME, R.DEV_MODE, R.EVT_PROD, R.EVT_CONS, R.EVT_IRQ_STATUS, R.EVT_STATUS,
      R.DEV_BOOT_STATUS, R.MEM_INJ_CTRL, List.mem_cons, List.not_mem_nil, or_false]
    omega
  have hhold : e.flag (F.RAS_CFG_HOLD_LAST r) = d.flag (F.RAS_CFG_HOLD_LAST r) := h.flag _ (not_mem_frameStartRegs hr 0 (by decide))
  have hcode : e.modeCode = d.modeCode := h.get F.DEV_MODE_MODE hmode
  unfold Dev.rasScans
  rw [hrun, hcode, hhold]

end

/-- From `d` to `e` a frame of raster `r` has started, its PLL's phase error `phase` ns. -/
structure Dev.FrameStarted (d : Dev) (r : Nat) (phase : Int) (e : Dev) : Prop where
  count : e.get (F.RAS_FRAME_COUNT r) = (d.get (F.RAS_FRAME_COUNT r) + 1) % 2 ^ 32
  vblank : e.flag (F.RAS_STATUS_VBLANK r) = false
  locked : e.flag (F.RAS_STATUS_LOCKED r) = (d.flag (F.RAS_STATUS_LOCKED r) && decide (phase.natAbs ≤ 1000))
  phaseNs : e.get (F.RAS_STATUS_PHASE_NS r) = satSigned 16 phase
  state : ∃ lockFrom audBad, e.rs r = ({ d.rs r with lockFrom := lockFrom, audBad := audBad } : RasSt).started (d.rasNext r) (d.rasSlew r)

theorem Dev.rasStarted_frameStarted {d : Dev} {r : Nat} (hr : r < 6) (hlen : d.ras.length = 6) (phase : Int) :
    d.FrameStarted r phase (d.rasStarted r phase) where
  count := by
    rw [Dev.rasStarted, Dev.rasRuns, Dev.modRs_get, Dev.rasCounted_count,
      (d.rasPhase_touches r phase).get _ (List.not_mem_cons_of_ne_of_not_mem (RAS_STATUS_ne_FRAME r).symm (RAS_FRAME_not_reported hr))]
    rfl
  vblank := by rw [Dev.rasStarted, Dev.rasRuns, Dev.modRs_flag, Dev.rasCounted_vblank]
  locked := by
    rw [Dev.rasStarted, Dev.rasRuns, Dev.modRs_flag, Dev.flag, Dev.rasCounted_status _ _ _ rfl (Fld.apart_of_below rfl)]
    exact d.rasPhase_locked phase hr
  phaseNs := by
    rw [Dev.rasStarted, Dev.rasRuns, Dev.modRs_get, Dev.rasCounted_status _ _ _ rfl (Fld.apart_of_above rfl), d.rasPhase_phase phase hr]
  state := by
    have hlt : r < ((d.rasPhase r phase).rasCounted r).ras.length := by
      rw [Dev.rasCounted_ras, Dev.rasPhase_length, hlen]
      exact hr
    have hnext : (d.rasPhase r phase).rasNext r = d.rasNext r :=
      Dev.RasTouches.rasNext ((d.rasPhase_touches r phase).mono (phaseRegs_frameStart r)) hr
        (d.rasPhase_keeps r phase RasSt.k (fun _ _ => rfl)) (d.rasPhase_keeps r phase RasSt.off (fun _ _ => rfl))
    refine ⟨((d.rasPhase r phase).rs r).lockFrom, (d.rs r).audBad, ?_⟩
    rw [Dev.rasStarted, Dev.rasRuns, Dev.rs_modRs _ _ hlt, Dev.rasCounted_rs, (d.rasPhase_rasCounted_touches r phase).rasSlew hr, hnext,
      d.rasPhase_rs]

/-- A frame stays started where its raster's status, frame count and state stay, whatever its audio pairs carry. -/
theorem Dev.FrameStarted.keep {d e e' : Dev} {r : Nat} {phase : Int} (h : d.FrameStarted r phase e)
    (hstatus : e'.word (R.RAS_STATUS r) = e.word (R.RAS_STATUS r)) (hframe : e'.word (R.RAS_FRAME r) = e.word (R.RAS_FRAME r))
    (hrs : ∃ b, e'.rs r = { e.rs r with audBad := b }) : d.FrameStarted r phase e' where
  count := (Dev.get_of_word (F.RAS_FRAME_COUNT r) hframe).trans h.count
  vblank := (Dev.flag_of_word (F.RAS_STATUS_VBLANK r) hstatus).trans h.vblank
  locked := (Dev.flag_of_word (F.RAS_STATUS_LOCKED r) hstatus).trans h.locked
  phaseNs := (Dev.get_of_word (F.RAS_STATUS_PHASE_NS r) hstatus).trans h.phaseNs
  state := by
    obtain ⟨lockFrom, audBad, hstate⟩ := h.state
    obtain ⟨b, hb⟩ := hrs
    exact ⟨lockFrom, b, by rw [hb, hstate]; rfl⟩

/-! ### What goes out with the frame (R368-R370) -/

/-- The 48 bits of the trigger time of the buffer that layer 0 shows; 0 without one. -/
def RasSt.shownTrig (x : RasSt) : Nat :=
  match x.shown.getD 0 none with
  | some b => b.trig % 2 ^ 48
  | none => 0

/-- The payload ID of an SDI raster (R368). -/
def Dev.sdiPayload (d : Dev) (r : Nat) : List Nat :=
  [d.eget (F.SDI_RS_CFG_STD r), d.eget (F.RAS_RATE_NUM r), d.eget (F.RAS_RATE_DEN r), d.eget (F.RAS_FMT_YCC r), d.eget (F.RAS_FMT_TF r)]

/-- The audio pairs that an SDI raster's frame carries. -/
def Dev.sdiPairs (d : Dev) (r : Nat) : List Nat :=
  if d.eget (F.SDI_RS_CFG_AUD_EN r) = 1 && (d.rs r).blackFrames = 0 then (List.range 8).filter (fun k => d.eget (F.SDI_RS_AUD_EN r k) = 1)
  else []

/-- Those whose audio port cannot give them, which carry silence (R369). -/
def Dev.sdiSilent (d : Dev) (r : Nat) (audioOk : Nat → Bool) : List Nat :=
  (d.sdiPairs r).filter (fun k => !audioOk (d.eget (F.SDI_RS_AUD_AP r k)))

/-- The pairs that fall silent are reported. -/
def Dev.sdiReported (d : Dev) (r : Nat) (audioOk : Nat → Bool) : Dev :=
  (((d.sdiSilent r audioOk).filter (fun k => !(d.rs r).audBad.contains k)).foldl (fun d k =>
    d.eventAt 0x0F01 sevNotice r [u8 r, u8 k, u8 (d.eget (F.SDI_RS_AUD_AP r k))]) d).modRs r (fun x => { x with audBad := d.sdiSilent r audioOk })

/-- The STIME that the timecode of an SDI raster's frame tells (R370). -/
def Dev.sdiTcAt (d : Dev) (r start : Nat) : Nat :=
  if d.eget (F.SDI_RS_CFG_TC_SRC r) = 1 then
    match (d.rs r).shown.getD 0 none with
    | some b => b.trig
    | none => start
  else start

/-- What goes out with a raster's frame: a panel's frame start, or an SDI raster's payload ID, timecode and audio pairs. -/
def Dev.rasFrameOut (d : Dev) (r start : Nat) (audioOk : Nat → Bool) : Dev :=
  if isPanel r then d.emit (.video 2 r [r - 4, d.get (F.RAS_FRAME_COUNT r), (d.rs r).shownTrig])
  else (d.sdiReported r audioOk).emit (.video 3 r ([d.eget (F.SDI_RS_CFG_STD r), (d.sdiReported r audioOk).eget (F.RAS_RATE_NUM r),
      (d.sdiReported r audioOk).eget (F.RAS_RATE_DEN r), (d.sdiReported r audioOk).eget (F.RAS_FMT_YCC r),
      (d.sdiReported r audioOk).eget (F.RAS_FMT_TF r),
      (d.sdiReported r audioOk).tcWord ((d.sdiReported r audioOk).stimeToNs (d.sdiTcAt r start))] ++
    (d.sdiPairs r).flatMap (fun k => [k, if (d.sdiSilent r audioOk).contains k then 0xFF
      else (d.sdiReported r audioOk).eget (F.SDI_RS_AUD_AP r k)])))

/-- A frame start, in its steps: the phase error, the count, the selection where none was made, the frame's run, what goes out. -/
theorem Dev.rasFrameStart_eq (d : Dev) (r : Nat) (phase : Int) (audioOk : Nat → Bool) : d.rasFrameStart r phase audioOk =
    if !(d.rs r).run || d.gkMode r then d
    else ((if ((d.rasPhase r phase).rasCounted r).rasScans r && !((d.rasPhase r phase).rs r).fetched &&
          ((d.rasPhase r phase).rs r).blackFrames = 0 then ((d.rasPhase r phase).rasCounted r).rasSelect r
        else (d.rasPhase r phase).rasCounted r).rasRuns r ((d.rasPhase r phase).rasNext r)).rasFrameOut r ((d.rasPhase r phase).rasNext r)
      audioOk := rfl

section
variable (d : Dev) (r : Nat) (audioOk : Nat → Bool)

theorem Dev.sdiReported_touches : d.RasTouches reportRegs (d.sdiReported r audioOk) :=
  (Dev.RasTouches.foldl (Dev.RasTouches.refl d _) _ (fun e _ _ => (Dev.RasTouches.refl e _).eventAt (fun _ ha => ha) _ _ _ _)).modRs _ _

theorem Dev.sdiReported_keeps {β : Type} (g : RasSt → β) (hg : ∀ x l, g { x with audBad := l } = g x) :
    g ((d.sdiReported r audioOk).rs r) = g (d.rs r) := by
  rw [Dev.sdiReported, Dev.rs_modRs_keeps g (fun x => hg x _), Dev.rs_congr (foldl_keeps (p := Dev.ras) (fun e _ => e.eventAt_ras _ _ _ _) _ d)]

theorem Dev.sdiReported_rs : (d.sdiReported r audioOk).rs r = { d.rs r with audBad := ((d.sdiReported r audioOk).rs r).audBad } :=
  congrArg (fun x : RasSt => { x with audBad := ((d.sdiReported r audioOk).rs r).audBad })
    (d.sdiReported_keeps r audioOk (fun x => { x with audBad := [] }) (fun _ _ => rfl))

theorem Dev.rasFrameOut_panel (start : Nat) {r : Nat} (hr : 4 ≤ r) :
    d.rasFrameOut r start audioOk = d.emit (.video 2 r [r - 4, d.get (F.RAS_FRAME_COUNT r), (d.rs r).shownTrig]) :=
  if_pos (decide_eq_true hr)

theorem Dev.rasFrameOut_sdi (start : Nat) {r : Nat} (hr : r < 4) : ∃ rest,
    d.rasFrameOut r start audioOk = (d.sdiReported r audioOk).emit (.video 3 r (d.sdiPayload r ++ rest)) := by
  have hpanel : ¬ isPanel r = true := by
    rw [isPanel, decide_eq_true_eq]
    omega
  unfold Dev.rasFrameOut
  rw [if_neg hpanel, (d.sdiReported_touches r audioOk).egets]
  exact ⟨_, rfl⟩

end

/-- What goes out with a frame leaves it started. -/
theorem Dev.FrameStarted.out {d e : Dev} {r : Nat} {phase : Int} (h : d.FrameStarted r phase e) (hr : r < 6) (start : Nat) (audioOk : Nat → Bool) :
    d.FrameStarted r phase (e.rasFrameOut r start audioOk) := by
  rcases Nat.lt_or_ge r 4 with hlt | hge
  · obtain ⟨rest, hout⟩ := e.rasFrameOut_sdi audioOk start hlt
    have htouches := e.sdiReported_touches r audioOk
    rw [hout]
    exact h.keep (htouches.words _ (RAS_STATUS_not_reported hr)) (htouches.words _ (RAS_FRAME_not_reported hr)) ⟨_, e.sdiReported_rs r audioOk⟩
  · rw [e.rasFrameOut_panel audioOk start hge]
    exact h.keep rfl rfl ⟨(e.rs r).audBad, rfl⟩

/-! ### The packets of a raster's frame (R401) -/

/-- From `d` to `e` packets have been sent: registers of the network's flows count them, and the outputs grow. -/
structure Dev.PacketsSent (d e : Dev) : Prop where
  ras : e.ras = d.ras
  words : ∀ a, a < 0xA00000 → e.word a = d.word a
  out : ∀ o ∈ d.out, o ∈ e.out

theorem Dev.PacketsSent.refl (d : Dev) : d.PacketsSent d := ⟨rfl, fun _ _ => rfl, fun _ h => h⟩

theorem Dev.PacketsSent.trans {d e f : Dev} (h : d.PacketsSent e) (k : e.PacketsSent f) : d.PacketsSent f :=
  ⟨k.ras.trans h.ras, fun a ha => (k.words a ha).trans (h.words a ha), fun o ho => k.out o (h.out o ho)⟩

theorem Dev.PacketsSent.foldl {α : Type} {f : Dev → α → Dev} (hf : ∀ d x, Dev.PacketsSent d (f d x)) (l : List α) (d : Dev) :
    d.PacketsSent (l.foldl f d) := by
  induction l generalizing d with
  | nil => exact Dev.PacketsSent.refl d
  | cons x l ih => exact (hf d x).trans (ih _)

theorem Dev.emit_packetsSent (d : Dev) (o : Output) : d.PacketsSent (d.emit o) := ⟨rfl, fun _ _ => rfl, fun _ h => List.mem_append_left _ h⟩

/-- Packets of a flow are counted in one of its counters, and in its sequence. -/
theorem Dev.packetsSent_counted (d : Dev) (n count : Nat) {f : Fld} (hf : 0xA00000 ≤ f.addr) (g : TxSt → TxSt) :
    d.PacketsSent ((d.add f count).modTx n g) :=
  ⟨rfl, fun _ ha => Dev.word_set_ne d f _ (by omega), fun _ h => h⟩

theorem TXF_CNT_above (n : Nat) : 0xA00000 ≤ R.TXF_CNT_PKT n ∧ 0xA00000 ≤ R.TXF_CNT_DROP n := by
  simp only [R.TXF_CNT_PKT, R.TXF_CNT_DROP]
  omega

theorem Dev.txSend_packetsSent (d : Dev) (n ts : Nat) (marker : Bool) (bytes : List Byte) (count : Nat) :
    d.PacketsSent (d.txSend n ts marker bytes count).1 := by
  unfold Dev.txSend
  dsimp only
  split
  · dsimp only
    exact d.packetsSent_counted n count (f := F.TXF_CNT_DROP_COUNT n) (TXF_CNT_above n).2 _
  · split
    · exact Dev.PacketsSent.refl d
    · dsimp only
      refine Dev.PacketsSent.trans ?_ (Dev.packetsSent_counted _ n count (f := F.TXF_CNT_PKT_COUNT n) (TXF_CNT_above n).1 _)
      exact Dev.PacketsSent.foldl (fun e _ => e.emit_packetsSent _) _ d

theorem Dev.ancTx_packetsSent (d : Dev) (r : Nat) : d.PacketsSent (d.ancTx r) :=
  Dev.PacketsSent.foldl (fun e n => e.txSend_packetsSent n _ _ _ _) _ d

theorem Dev.FrameStarted.packetsSent {d e f : Dev} {r : Nat} {phase : Int} (h : d.FrameStarted r phase e) (hr : r < 6) (k : e.PacketsSent f) :
    d.FrameStarted r phase f :=
  h.keep (k.words _ (by simp only [R.RAS_STATUS]; omega)) (k.words _ (by simp only [R.RAS_FRAME]; omega))
    ⟨(e.rs r).audBad, Dev.rs_congr k.ras r⟩

/-! ### RASTER_FRAME_START -/

theorem execRasterFrameStart_idle {s : State} {r : Fin 6} (h : (s.dev.rs r).run = false ∨ s.dev.gkMode r = true) (phase : Int) :
    execRasterFrameStart r phase s = .next s := by
  unfold execRasterFrameStart
  rw [State.run_eq, if_neg]
  rcases h with h | h <;> simp [h]

section
variable {d : Dev} {r : Nat} (hr : r < 6) (hfetch : (d.rs r).fetched = true ∨ (d.rs r).blackFrames ≠ 0 ∨ d.rasScans r = false) (phase : Int)
include hr hfetch

/-- No selection is made at the start of such a frame. -/
theorem Dev.rasPhase_selects_none : (((d.rasPhase r phase).rasCounted r).rasScans r && !((d.rasPhase r phase).rs r).fetched &&
    decide (((d.rasPhase r phase).rs r).blackFrames = 0)) = false := by
  have hrun : (((d.rasPhase r phase).rasCounted r).rs r).run = (d.rs r).run := by
    rw [Dev.rasCounted_rs, d.rasPhase_keeps r phase RasSt.run (fun _ _ => rfl)]
  rw [(d.rasPhase_rasCounted_touches r phase).rasScans hr hrun, d.rasPhase_keeps r phase RasSt.fetched (fun _ _ => rfl),
    d.rasPhase_keeps r phase RasSt.blackFrames (fun _ _ => rfl)]
  rcases hfetch with h | h | h <;> simp [h]

theorem Dev.rasFrameStart_runs (hrun : (d.rs r).run = true) (hgk : d.gkMode r = false) (audioOk : Nat → Bool) :
    d.rasFrameStart r phase audioOk = (d.rasStarted r phase).rasFrameOut r ((d.rasPhase r phase).rasNext r) audioOk := by
  rw [Dev.rasFrameStart_eq, if_neg (by simp [hrun, hgk]), if_neg (by rw [Dev.rasPhase_selects_none hr hfetch]; exact Bool.false_ne_true),
    Dev.rasStarted]

end

section
variable {s : State} {r : Fin 6} (hrun : (s.dev.rs r).run = true) (hgk : s.dev.gkMode r = false) (hlen : s.dev.ras.length = 6)
  (hfetch : (s.dev.rs r).fetched = true ∨ (s.dev.rs r).blackFrames ≠ 0 ∨ s.dev.rasScans r = false) (phase : Int)
include hrun hgk hlen hfetch

theorem rasterFrameStart_panel (hr : 4 ≤ r.val) : Completes (.rasterFrameStart r phase) s (fun d => s.dev.FrameStarted r phase d ∧
    .video 2 r [r.val - 4, (s.dev.get (F.RAS_FRAME_COUNT r) + 1) % 2 ^ 32, (s.dev.rs r).shownTrig] ∈ d.out) := by
  have hstarted := Dev.rasStarted_frameStarted r.isLt hlen phase
  have hexec : execRasterFrameStart r phase s = .next { s with dev := s.dev.rasFrameStart r phase (fun p => s.dev.sdiAudioOk p) } := by
    unfold execRasterFrameStart
    rw [State.run_eq, if_pos (by simp [hrun, hgk]), if_neg (Nat.not_lt.mpr hr)]
  refine ⟨_, hexec, rfl, ?_⟩
  dsimp only
  rw [Dev.rasFrameStart_runs r.isLt hfetch phase hrun hgk]
  refine ⟨hstarted.out r.isLt _ _, ?_⟩
  obtain ⟨lockFrom, audBad, hstate⟩ := hstarted.state
  rw [Dev.rasFrameOut_panel _ _ _ hr, hstarted.count, hstate]
  exact List.mem_append_right _ List.mem_cons_self

theorem rasterFrameStart_sdi (hr : r.val < 4) : Completes (.rasterFrameStart r phase) s (fun d => s.dev.FrameStarted r phase d ∧
    ∃ rest, .video 3 r (s.dev.sdiPayload r ++ rest) ∈ d.out) := by
  have hstarted := Dev.rasStarted_frameStarted r.isLt hlen phase
  have hexec : execRasterFrameStart r phase s =
      .next { s with dev := (s.dev.rasFrameStart r phase (fun p => s.dev.sdiAudioOk p)).ancTx r } := by
    unfold execRasterFrameStart
    rw [State.run_eq, if_pos (by simp [hrun, hgk]), if_pos hr]
  refine ⟨_, hexec, rfl, ?_⟩
  dsimp only
  rw [Dev.rasFrameStart_runs r.isLt hfetch phase hrun hgk]
  have hsent := Dev.ancTx_packetsSent ((s.dev.rasStarted r phase).rasFrameOut r ((s.dev.rasPhase r phase).rasNext r)
    (fun p => s.dev.sdiAudioOk p)) r
  refine ⟨(hstarted.out r.isLt _ _).packetsSent r.isLt hsent, ?_⟩
  obtain ⟨rest, hout⟩ := (s.dev.rasStarted r phase).rasFrameOut_sdi (fun p => s.dev.sdiAudioOk p) ((s.dev.rasPhase r phase).rasNext r) hr
  have hpayload : (s.dev.rasStarted r phase).sdiPayload r = s.dev.sdiPayload r := by
    unfold Dev.sdiPayload
    rw [(s.dev.rasStarted_touches r phase).egets]
  refine ⟨rest, hsent.out _ ?_⟩
  rw [hout, hpayload]
  exact List.mem_append_right _ List.mem_cons_self

end

end Sys2Proof.Machine
end

section
/-!
Lock, vertical blanking and the latch of a raster's shadows (R352, R359-R361).
-/
namespace Sys2Proof.Machine

/-! ### RAS_LOCK_ACQUIRED and RAS_COMMIT -/

section
variable {s : State} {r : Fin 6}

theorem rasLockAcquired_locks (hrun : (s.dev.rs r).run = true) (hfor : (s.dev.rs r).lockFrom + nsPerS ≤ s.dev.elapsed) :
    Completes (.rasLockAcquired r) s (fun d => d.flag (F.RAS_STATUS_LOCKED r) = true ∧ s.dev.Only d [F.RAS_STATUS_LOCKED r]) := by
  have hexec : execRasLockAcquired r s = .next { s with dev := s.dev.setFlag (F.RAS_STATUS_LOCKED r) true } := by
    unfold execRasLockAcquired
    rw [State.run_eq, if_pos (by simp [hrun, hfor])]
  exact ⟨_, hexec, rfl, Dev.flag_setFlag_same _ _ _ (Fld.ok_of_ble rfl) rfl,
    (Dev.Only.refl _ _).set _ List.mem_cons_self (Fld.ok_of_ble rfl)⟩

theorem rasLockAcquired_idle (h : (s.dev.rs r).run = false ∨ s.dev.elapsed < (s.dev.rs r).lockFrom + nsPerS) :
    Completes (.rasLockAcquired r) s (fun d => d = s.dev) := by
  have hexec : execRasLockAcquired r s = .next s := by
    unfold execRasLockAcquired
    rw [State.run_eq, if_neg]
    rcases h with h | h <;> simp [h]
  exact ⟨_, hexec, rfl, rfl⟩

theorem RAS_STATUS_ne_COMMIT (r : Nat) : R.RAS_STATUS r ≠ R.RAS_COMMIT r := by
  simp only [R.RAS_STATUS, R.RAS_COMMIT]
  omega

theorem rasCommit_requests (hreach : s.dev.Reaches (R.RAS_COMMIT r)) : Completes (.rasCommit r) s (fun d =>
    d.flag (F.RAS_COMMIT_GO r) = true ∧ d.flag (F.RAS_STATUS_PENDING r) = true ∧
      s.dev.Only d [F.RAS_COMMIT_GO r, F.RAS_STATUS_PENDING r]) := by
  have hexec : execRasCommit r s = .next { s with dev := s.dev.rasGo r } := by
    rw [execRasCommit, State.hostCmd, State.run, Dev.gateWrite_open hreach]
  refine ⟨_, hexec, rfl, ?_, Dev.flag_setFlag_same _ _ _ (Fld.ok_of_ble rfl) rfl, ?_⟩
  · dsimp only
    rw [Dev.rasGo, Dev.setFlag, Dev.flag_set_apart _ _ _ _ (Fld.ok_of_ble rfl) (.inl (RAS_STATUS_ne_COMMIT r).symm),
      Dev.flag_setFlag_same _ _ _ (Fld.ok_of_ble rfl) rfl]
  · exact ((Dev.Only.refl _ _).set _ List.mem_cons_self (Fld.ok_of_ble rfl)).set _ (List.mem_cons_of_mem _ List.mem_cons_self) (Fld.ok_of_ble rfl)

end

/-! ### Vertical blanking begins (R359) -/

/-- Vertical blanking of raster `r` begins. -/
def Dev.rasBlanked (d : Dev) (r : Nat) : Dev :=
  (d.setFlag (F.RAS_STATUS_VBLANK r) true).modRs r (fun x => { x with active := false, blackFrames := x.blackFrames - 1 })

section
variable (d : Dev) (r : Nat)

theorem Dev.rasBlanked_vblank : (d.rasBlanked r).flag (F.RAS_STATUS_VBLANK r) = true := by
  rw [Dev.rasBlanked, Dev.modRs_flag, Dev.flag_setFlag_same _ _ _ (Fld.ok_of_ble rfl) rfl]

theorem Dev.rasBlanked_rs {r : Nat} (h : r < d.ras.length) :
    (d.rasBlanked r).rs r = { d.rs r with active := false, blackFrames := (d.rs r).blackFrames - 1 } := by
  rw [Dev.rasBlanked, Dev.rs_modRs _ _ (by rwa [Dev.setFlag_ras]), Dev.setFlag_rs]

theorem Dev.rasBlanked_word {a : Nat} (ha : a ≠ R.RAS_STATUS r) : (d.rasBlanked r).word a = d.word a :=
  Dev.word_set_ne d (F.RAS_STATUS_VBLANK r) _ ha

theorem Dev.rasBlanked_get {f : Fld} (hf : f.addr ≠ R.RAS_STATUS r) : (d.rasBlanked r).get f = d.get f :=
  Dev.get_of_word f (d.rasBlanked_word r hf)

theorem Dev.rasBlanked_flag {f : Fld} (hf : f.addr ≠ R.RAS_STATUS r) : (d.rasBlanked r).flag f = d.flag f :=
  Dev.flag_of_word f (d.rasBlanked_word r hf)

theorem Dev.rasBlanked_only : ({ d with ras := (d.rasBlanked r).ras } : Dev).Only (d.rasBlanked r) [F.RAS_STATUS_VBLANK r] := by
  rw [Dev.rasBlanked, Dev.setFlag, Dev.modRs_set]
  exact Dev.only_modRs_set d r _ _ List.mem_cons_self (Fld.ok_of_ble rfl)

end

/-! ### What the latch's checks read -/

/-- A register of a raster other than its status. -/
theorem ras_ne_status (r o : Nat) (ho : o ≠ 0x40) : 0x801000 + o + 0x1000 * r ≠ R.RAS_STATUS r := by
  simp only [R.RAS_STATUS]
  omega

theorem sdi_ne_status {r a : Nat} (hr : r < 6) (ha : 0x807000 ≤ a) : a ≠ R.RAS_STATUS r := by
  simp only [R.RAS_STATUS]
  omega

section
variable {d : Dev} {r : Nat} (hr : r < 6)
include hr

theorem Dev.rasBlanked_sdiBad : sdiBad r (d.rasBlanked r).get = sdiBad r d.get := by
  have hstd : R.SDI_RS_CFG r ≠ R.RAS_STATUS r := sdi_ne_status hr (by simp only [R.SDI_RS_CFG]; omega)
  have hlink : ∀ k, (F.SDI_CFG_LINK k).addr ≠ R.RAS_STATUS r := fun k => sdi_ne_status hr (by simp only [F.SDI_CFG_LINK, R.SDI_CFG]; omega)
  unfold sdiBad
  simp only [d.rasBlanked_get r (f := F.SDI_RS_CFG_STD r) hstd, d.rasBlanked_get r (f := F.SDI_RS_CFG_MODE r) hstd,
    d.rasBlanked_get r (hlink _), d.rasBlanked_get r (f := F.RAS_TIMING0_H_ACTIVE r) (ras_ne_status r 4 (by decide)),
    d.rasBlanked_get r (f := F.RAS_TIMING0_V_ACTIVE r) (ras_ne_status r 4 (by decide)),
    d.rasBlanked_get r (f := F.RAS_TIMING1_H_TOTAL r) (ras_ne_status r 8 (by decide)),
    d.rasBlanked_get r (f := F.RAS_TIMING1_V_TOTAL r) (ras_ne_status r 8 (by decide)),
    d.rasBlanked_get r (f := F.RAS_RATE_NUM r) (ras_ne_status r 0xC (by decide)),
    d.rasBlanked_get r (f := F.RAS_RATE_DEN r) (ras_ne_status r 0xC (by decide)),
    d.rasBlanked_get r (f := F.RAS_FMT_INTERLACE r) (ras_ne_status r 0x10 (by decide))]

theorem Dev.rasBlanked_badReg : (d.rasBlanked r).rasBadReg r (d.rasBlanked r).get = d.rasBadReg r d.get := by
  have hcfg : ∀ p, R.GK_CFG p ≠ R.RAS_STATUS r := fun p => sdi_ne_status hr (by simp only [R.GK_CFG]; omega)
  have hwin : ∀ p, R.GK_WIN_WH p ≠ R.RAS_STATUS r := fun p => sdi_ne_status hr (by simp only [R.GK_WIN_WH]; omega)
  unfold Dev.rasBadReg
  simp only [d.rasBlanked_get r (f := F.RAS_CFG_GK_PORT r) (ras_ne_status r 0 (by decide)),
    d.rasBlanked_get r (f := F.RAS_CFG_SRC r) (ras_ne_status r 0 (by decide)),
    d.rasBlanked_get r (f := F.RAS_PANEL_PL_LANES r) (ras_ne_status r 0x34 (by decide)),
    d.rasBlanked_get r (f := F.RAS_FMT_YCC r) (ras_ne_status r 0x10 (by decide)),
    d.rasBlanked_get r (f := F.RAS_FMT_TF r) (ras_ne_status r 0x10 (by decide)),
    d.rasBlanked_get r (f := F.RAS_TIMING0_H_ACTIVE r) (ras_ne_status r 4 (by decide)),
    d.rasBlanked_get r (f := F.RAS_TIMING0_V_ACTIVE r) (ras_ne_status r 4 (by decide)),
    d.rasBlanked_get r (f := F.GK_CFG_BX _) (hcfg _), d.rasBlanked_get r (f := F.GK_CFG_BY _) (hcfg _),
    d.rasBlanked_flag r (f := F.GK_CFG_EN _) (hcfg _), d.rasBlanked_get r (f := F.GK_WIN_WH_W _) (hwin _),
    d.rasBlanked_get r (f := F.GK_WIN_WH_H _) (hwin _)]

omit hr in
theorem Dev.rasBlanked_rasRegs : (d.rasBlanked r).rasRegs r = d.rasRegs r := by
  unfold Dev.rasRegs
  rw [d.rasBlanked_get r (f := F.RAS_CFG_GK_PORT r) (ras_ne_status r 0 (by decide))]

/-- A raster's status holds no shadow. -/
theorem RAS_STATUS_not_mem_rasRegs : R.RAS_STATUS r ∉ d.rasRegs r := by
  have hlayers : R.RAS_STATUS r ∉ (List.range 8).flatMap (fun l => [R.RAS_LAY_CFG r l, R.RAS_LAY_POS r l, R.RAS_LAY_SIZE r l,
      R.RAS_LAY_SRC_XY r l, R.RAS_LAY_DELAY r l, R.RAS_LAY_GFX0 r l, R.RAS_LAY_GFX1 r l, R.RAS_LAY_PITCH r l, R.RAS_LAY_COLOUR r l]) := by
    simp only [List.mem_flatMap, List.mem_cons, List.not_mem_nil, or_false, not_exists, not_and, R.RAS_STATUS, R.RAS_LAY_CFG, R.RAS_LAY_POS,
      R.RAS_LAY_SIZE, R.RAS_LAY_SRC_XY, R.RAS_LAY_DELAY, R.RAS_LAY_GFX0, R.RAS_LAY_GFX1, R.RAS_LAY_PITCH, R.RAS_LAY_COLOUR]
    omega
  have hpanel : R.RAS_STATUS r ∉ [R.RAS_PANEL r, R.GK_BLACK (d.get (F.RAS_CFG_GK_PORT r))] := by
    simp only [List.mem_cons, List.not_mem_nil, or_false, R.RAS_STATUS, R.RAS_PANEL, R.GK_BLACK]
    omega
  have hsdi : R.RAS_STATUS r ∉ R.SDI_RS_CFG r :: ((List.range 8).map (R.SDI_RS_AUD r) ++ (List.range 4).map (fun k => R.SDI_CFG (4 * r + k))) := by
    simp only [List.mem_cons, List.mem_append, List.mem_map, not_or, not_exists, not_and, R.RAS_STATUS, R.SDI_RS_CFG, R.SDI_RS_AUD, R.SDI_CFG]
    exact ⟨by omega, fun k _ => by omega, fun k _ => by omega⟩
  have hown : R.RAS_STATUS r ∉ [R.RAS_CFG r, R.RAS_TIMING0 r, R.RAS_TIMING1 r, R.RAS_RATE r, R.RAS_FMT r, R.RAS_BG r, R.RAS_FRZ r,
      R.RAS_FRZ_XY r, R.RAS_FRZ_WH r] := by
    simp only [List.mem_cons, List.not_mem_nil, or_false, R.RAS_STATUS, R.RAS_CFG, R.RAS_TIMING0, R.RAS_TIMING1, R.RAS_RATE, R.RAS_FMT,
      R.RAS_BG, R.RAS_FRZ, R.RAS_FRZ_XY, R.RAS_FRZ_WH]
    omega
  unfold Dev.rasRegs
  rw [List.mem_append, List.mem_append, not_or, not_or]
  refine ⟨⟨hown, hlayers⟩, ?_⟩
  split
  · exact hpanel
  · exact hsdi

end

/-! ### The latch (R359-R361) -/

/-- The request of raster `r` is answered. -/
def Dev.rasAnswered (d : Dev) (r : Nat) : Dev :=
  let d := (d.setFlag (F.RAS_COMMIT_GO r) false).setFlag (F.RAS_STATUS_PENDING r) false
  { d with mode := { d.mode with autoLatch := d.mode.autoLatch.filter (· ≠ 200 + r) } }

/-- The shadows of raster `r` are in effect and its request is answered. -/
def Dev.rasLatched (d : Dev) (r : Nat) : Dev := (d.latchAll (d.rasRegs r)).rasAnswered r

/-- A raster's timing has changed from the active area and rate `before`: it is reported and the raster starts anew. -/
def Dev.rasRetimed (d : Dev) (r : Nat) (before : Nat × Nat × Nat × Nat) : Dev :=
  let d := d.eventAt 0x0E08 sevInfo r
    [u16 before.1, u16 before.2.1, u16 before.2.2.1, u16 before.2.2.2, u16 (d.eget (F.RAS_TIMING0_H_ACTIVE r)),
     u16 (d.eget (F.RAS_TIMING0_V_ACTIVE r)), u16 (d.eget (F.RAS_RATE_NUM r)), u16 (d.eget (F.RAS_RATE_DEN r))]
  let d := d.modRs r (fun x =>
    { x with k := d.rasFirst r 1000000, off := 0, fetched := false, blackFrames := if isPanel r then 0 else 2 })
  if isPanel r then d.emit (.video 5 r [d.get (F.RAS_PANEL_TRAIN_US r)]) else d.showSdi r true

/-- A latch that nothing withholds or refuses: the shadows take effect, the layers are checked, a change of timing starts anew. -/
theorem Dev.rasLatch_accepted {d : Dev} {r : Nat} (hgroup : d.get (F.RAS_CFG_GROUP r) = 0) (hsdi : r < 4 → sdiBad r d.get = none)
    (hreg : d.rasBadReg r d.get = none) : d.rasLatch r = (d.rasLatched r).checkLayers r ∨
      ∃ before, d.rasLatch r = ((d.rasLatched r).checkLayers r).rasRetimed r before := by
  have hothers : (d.rasGroup r).filter (fun m => decide (m ≠ r)) = [] := by
    rw [Dev.rasGroup, if_pos hgroup]
    simp
  have hsdi' : (if isPanel r = true then none else sdiBad r d.get) = none := by
    split
    · rfl
    · next h => exact hsdi (Nat.not_le.mp (fun hr => h (decide_eq_true hr)))
  unfold Dev.rasLatch
  extract_lets sh old tf others split badSdi badReg keep oldVals before d1 d2 d3 d4 d5 d6 d7 d8 d9 d10
  have hsplit : split = false := by
    show others.any _ = false
    rw [show others = [] from hothers, List.any_nil]
  have hbadSdi : badSdi = none := hsdi'
  have hbadReg : badReg = none := hreg
  have hkeep : keep = false := by
    show (split || badSdi.isSome || badReg.isSome) = false
    rw [hsplit, hbadSdi, hbadReg]
    rfl
  have h2 : d2 = d1 := if_neg (by rw [hkeep]; exact Bool.false_ne_true)
  have h5 : d5 = d.rasLatched r := congrArg (fun e : Dev => e.rasAnswered r) h2
  have h6 : d6 = d5 := if_neg (by rw [hsplit]; exact Bool.false_ne_true)
  have h7 : d7 = d6 := by simp only [d7, hbadSdi]
  have h8 : d8 = d7 := by simp only [d8, hbadReg]
  have h9 : d9 = (d.rasLatched r).checkLayers r := congrArg (fun e : Dev => e.checkLayers r) (h8.trans (h7.trans (h6.trans h5)))
  by_cases hsame : (keep || decide (tf.map (fun f => d9.eget f) = oldVals)) = true
  · exact .inl ((if_pos hsame).trans h9)
  · exact .inr ⟨before, (if_neg hsame).trans (congrArg (fun e : Dev => e.rasRetimed r before) h9)⟩

/-! ### What the latch leaves -/

/-- The registers that the end of a latch changes: what an SDI raster's outputs carry, and reports. -/
def latchEndRegs (r : Nat) : List Nat := (List.range 4).map (fun k => R.SDI_STATUS (4 * r + k)) ++ reportRegs

theorem reportRegs_latchEnd (r : Nat) : ∀ a ∈ reportRegs, a ∈ latchEndRegs r := fun _ ha => List.mem_append_right _ ha

theorem not_mem_latchEndRegs {r a : Nat} (hlo : 0x801000 ≤ a) (hhi : a < 0x900000) : a ∉ latchEndRegs r := by
  rw [latchEndRegs, List.mem_append, not_or]
  refine ⟨fun h => ?_, ras_not_reported hlo (by omega)⟩
  obtain ⟨k, -, hk⟩ := List.mem_map.mp h
  simp only [R.SDI_STATUS] at hk
  omega

section
variable (d : Dev) (r : Nat)

theorem Dev.checkLayers_touches : d.RasTouches (latchEndRegs r) (d.checkLayers r) :=
  Dev.RasTouches.foldl ((Dev.RasTouches.refl d _).modRs _ _) _ (fun e _ _ =>
    (((Dev.RasTouches.refl e _).modRs _ _).releaseBy _).eventAt (reportRegs_latchEnd r) _ _ _ _)

theorem Dev.checkLayers_active : ((d.checkLayers r).rs r).active = (d.rs r).active := by
  have hrefuse : ∀ (e : Dev) (l : Nat), ((e.refuseLayer r l).rs r).active = (e.rs r).active := fun e l => by
    rw [Dev.refuseLayer, Dev.rasCfgBad, Dev.eventAt_rs, Dev.releaseBy_rs, Dev.rs_modRs_keeps RasSt.active (by exact fun _ => rfl)]
  have hkeep := foldl_keeps (p := fun e : Dev => (e.rs r).active) hrefuse
  unfold Dev.checkLayers
  dsimp only
  rw [hkeep, Dev.rs_modRs_keeps RasSt.active (by exact fun _ => rfl)]

theorem Dev.showSdi_touches (on : Bool) : d.RasTouches (latchEndRegs r) (d.showSdi r on) := by
  unfold Dev.showSdi
  refine .ite (Dev.RasTouches.refl d _) (Dev.RasTouches.foldl (Dev.RasTouches.refl d _) _ (fun e k hk => ?_))
  have hmem : R.SDI_STATUS (4 * r + k) ∈ latchEndRegs r := List.mem_append_left _ (List.mem_map.mpr ⟨k, hk, rfl⟩)
  exact ((Dev.RasTouches.refl e _).set _ _ hmem).set _ _ hmem

theorem Dev.showSdi_ras (on : Bool) : (d.showSdi r on).ras = d.ras := by
  unfold Dev.showSdi
  split
  · rfl
  · exact foldl_keeps (p := Dev.ras) (fun e k => by rw [Dev.set_ras, Dev.setFlag_ras]) _ d

theorem Dev.rasRetimed_touches (before : Nat × Nat × Nat × Nat) : d.RasTouches (latchEndRegs r) (d.rasRetimed r before) := by
  have hstart : ∀ f items, d.RasTouches (latchEndRegs r) ((d.eventAt 0x0E08 sevInfo r items).modRs r f) :=
    fun f items => ((Dev.RasTouches.refl d _).eventAt (reportRegs_latchEnd r) _ _ _ _).modRs _ _
  unfold Dev.rasRetimed
  exact .ite ((hstart _ _).emit _) ((hstart _ _).trans (Dev.showSdi_touches _ r true))

theorem Dev.rasRetimed_active (before : Nat × Nat × Nat × Nat) : ((d.rasRetimed r before).rs r).active = (d.rs r).active := by
  unfold Dev.rasRetimed
  dsimp only
  split
  · rw [Dev.emit_rs, Dev.rs_modRs_keeps RasSt.active (by exact fun _ => rfl), Dev.eventAt_rs]
  · rw [Dev.rs_congr (Dev.showSdi_ras _ r true), Dev.rs_modRs_keeps RasSt.active (by exact fun _ => rfl), Dev.eventAt_rs]

end

/-- After an accepted latch come a check of the layers and perhaps a new timing, which change no shadow and no frame in progress. -/
theorem Dev.rasLatch_end {d : Dev} {r : Nat} (hgroup : d.get (F.RAS_CFG_GROUP r) = 0) (hsdi : r < 4 → sdiBad r d.get = none)
    (hreg : d.rasBadReg r d.get = none) : (d.rasLatched r).RasTouches (latchEndRegs r) (d.rasLatch r) ∧
      ((d.rasLatch r).rs r).active = ((d.rasLatched r).rs r).active := by
  have hcheck := (d.rasLatched r).checkLayers_touches r
  rcases Dev.rasLatch_accepted hgroup hsdi hreg with h | ⟨before, h⟩
  · rw [h]
    exact ⟨hcheck, Dev.checkLayers_active _ r⟩
  · rw [h]
    exact ⟨hcheck.trans (Dev.rasRetimed_touches _ r before), (Dev.rasRetimed_active _ r before).trans (Dev.checkLayers_active _ r)⟩

section
variable (d : Dev) (r : Nat)

theorem Dev.rasLatched_effWord {a : Nat} (ha : a ∈ d.rasRegs r) : (d.rasLatched r).effWord a = d.word a := by
  have hlatch : (d.rasLatched r).effWord a = (d.latchAll (d.rasRegs r)).effWord a := rfl
  rw [hlatch, Dev.effWord_latchAll, if_pos ha]

theorem Dev.rasLatched_rs : (d.rasLatched r).rs r = d.rs r := by
  have hlatch : (d.rasLatched r).rs r = (d.latchAll (d.rasRegs r)).rs r := rfl
  rw [hlatch, Dev.latchAll_eq]
  rfl

theorem Dev.latchAll_word (l : List Nat) (a : Nat) : (d.latchAll l).word a = d.word a := by
  rw [Dev.latchAll_eq]
  rfl

theorem Dev.rasLatched_flag (f : Fld) : (d.rasLatched r).flag f =
    (((d.latchAll (d.rasRegs r)).setFlag (F.RAS_COMMIT_GO r) false).setFlag (F.RAS_STATUS_PENDING r) false).flag f := rfl

theorem Dev.rasLatched_pending : (d.rasLatched r).flag (F.RAS_STATUS_PENDING r) = false := by
  rw [Dev.rasLatched_flag, Dev.flag_setFlag_same _ _ _ (Fld.ok_of_ble rfl) rfl]

theorem Dev.rasLatched_go : (d.rasLatched r).flag (F.RAS_COMMIT_GO r) = false := by
  rw [Dev.rasLatched_flag, Dev.setFlag, Dev.flag_set_apart _ _ _ _ (Fld.ok_of_ble rfl) (.inl (RAS_STATUS_ne_COMMIT r).symm),
    Dev.flag_setFlag_same _ _ _ (Fld.ok_of_ble rfl) rfl]

theorem Dev.rasLatched_vblank : (d.rasLatched r).flag (F.RAS_STATUS_VBLANK r) = d.flag (F.RAS_STATUS_VBLANK r) := by
  rw [Dev.rasLatched_flag, Dev.setFlag, Dev.flag_set_apart _ _ _ _ (Fld.ok_of_ble rfl) (Fld.apart_of_below rfl), Dev.setFlag,
    Dev.flag_set_apart _ _ _ _ (Fld.ok_of_ble rfl) (.inl (RAS_STATUS_ne_COMMIT r)),
    Dev.flag_of_word (F.RAS_STATUS_VBLANK r) (d.latchAll_word _ _)]

end

/-- After an accepted latch the shadows are in effect and the request is answered; the frame stays as it was. -/
structure Dev.Latched (d : Dev) (r : Nat) (e : Dev) : Prop where
  vblank : e.flag (F.RAS_STATUS_VBLANK r) = d.flag (F.RAS_STATUS_VBLANK r)
  active : (e.rs r).active = (d.rs r).active
  go : e.flag (F.RAS_COMMIT_GO r) = false
  pending : e.flag (F.RAS_STATUS_PENDING r) = false
  shadows : ∀ a ∈ d.rasRegs r, e.effWord a = d.word a

theorem Dev.rasLatch_latched {d : Dev} {r : Nat} (hr : r < 6) (hgroup : d.get (F.RAS_CFG_GROUP r) = 0)
    (hsdi : r < 4 → sdiBad r d.get = none) (hreg : d.rasBadReg r d.get = none) : d.Latched r (d.rasLatch r) := by
  obtain ⟨htouches, hactive⟩ := Dev.rasLatch_end hgroup hsdi hreg
  have hstatus : R.RAS_STATUS r ∉ latchEndRegs r := not_mem_latchEndRegs (by simp only [R.RAS_STATUS]; omega) (by simp only [R.RAS_STATUS]; omega)
  have hcommit : R.RAS_COMMIT r ∉ latchEndRegs r := not_mem_latchEndRegs (by simp only [R.RAS_COMMIT]; omega) (by simp only [R.RAS_COMMIT]; omega)
  constructor
  case vblank =>
    have hkept : (d.rasLatch r).flag (F.RAS_STATUS_VBLANK r) = (d.rasLatched r).flag (F.RAS_STATUS_VBLANK r) := htouches.flag _ hstatus
    rw [hkept, d.rasLatched_vblank]
  case active => rw [hactive, d.rasLatched_rs]
  case go =>
    have hkept : (d.rasLatch r).flag (F.RAS_COMMIT_GO r) = (d.rasLatched r).flag (F.RAS_COMMIT_GO r) := htouches.flag _ hcommit
    rw [hkept, d.rasLatched_go]
  case pending =>
    have hkept : (d.rasLatch r).flag (F.RAS_STATUS_PENDING r) = (d.rasLatched r).flag (F.RAS_STATUS_PENDING r) := htouches.flag _ hstatus
    rw [hkept, d.rasLatched_pending]
  case shadows =>
    intro a ha
    have hkept : (d.rasLatch r).effWord a = (d.rasLatched r).effWord a := htouches.effWord a
    rw [hkept, d.rasLatched_effWord r ha]

/-! ### RASTER_VBLANK -/

theorem execRasterVblank_idle {s : State} {r : Fin 6} (h : (s.dev.rs r).run = false) : execRasterVblank r s = .next s := by
  unfold execRasterVblank
  rw [State.run_eq, if_pos (by simp [h])]

/-- The frame of a running raster ends, and requested shadows take effect. -/
def Dev.rasVblank (d : Dev) (r : Nat) : Dev :=
  if (d.rasBlanked r).flag (F.RAS_COMMIT_GO r) || (d.rasBlanked r).mode.autoLatch.contains (200 + r) then (d.rasBlanked r).rasLatch r
  else d.rasBlanked r

section
variable {s : State} {r : Fin 6} (hrun : (s.dev.rs r).run = true)
include hrun

theorem execRasterVblank_runs : execRasterVblank r s = .next { s with dev := s.dev.rasVblank r } := by
  unfold execRasterVblank
  rw [State.run_eq, if_neg (by simp [hrun])]
  rfl

/-- Without a request the frame ends and nothing is latched. -/
theorem execRasterVblank_ends (hgo : s.dev.flag (F.RAS_COMMIT_GO r) = false) (hauto : s.dev.mode.autoLatch.contains (200 + r.val) = false) :
    execRasterVblank r s = .next { s with dev := s.dev.rasBlanked r } := by
  have hgo' : (s.dev.rasBlanked r).flag (F.RAS_COMMIT_GO r) = false := (s.dev.rasBlanked_flag r (RAS_STATUS_ne_COMMIT r).symm).trans hgo
  have hnone : ((s.dev.rasBlanked r).flag (F.RAS_COMMIT_GO r) || (s.dev.rasBlanked r).mode.autoLatch.contains (200 + r.val)) = false := by
    rw [hgo']
    exact hauto
  rw [execRasterVblank_runs hrun, Dev.rasVblank, hnone]
  rfl

theorem execRasterVblank_latches (hgo : s.dev.flag (F.RAS_COMMIT_GO r) = true) :
    execRasterVblank r s = .next { s with dev := (s.dev.rasBlanked r).rasLatch r } := by
  have hgo' : (s.dev.rasBlanked r).flag (F.RAS_COMMIT_GO r) = true := (s.dev.rasBlanked_flag r (RAS_STATUS_ne_COMMIT r).symm).trans hgo
  rw [execRasterVblank_runs hrun, Dev.rasVblank, hgo']
  rfl

variable (hlen : s.dev.ras.length = 6)
include hlen

theorem rasterVblank_ends (hgo : s.dev.flag (F.RAS_COMMIT_GO r) = false) (hauto : s.dev.mode.autoLatch.contains (200 + r.val) = false) :
    Completes (.rasterVblank r) s (fun d => d.flag (F.RAS_STATUS_VBLANK r) = true ∧
      d.rs r = { s.dev.rs r with active := false, blackFrames := (s.dev.rs r).blackFrames - 1 } ∧
      ({ s.dev with ras := d.ras } : Dev).Only d [F.RAS_STATUS_VBLANK r]) :=
  ⟨_, execRasterVblank_ends hrun hgo hauto, rfl, s.dev.rasBlanked_vblank r, s.dev.rasBlanked_rs (r.isLt.trans_eq hlen.symm),
    s.dev.rasBlanked_only r⟩

theorem rasterVblank_latches (hgo : s.dev.flag (F.RAS_COMMIT_GO r) = true) (hgroup : s.dev.get (F.RAS_CFG_GROUP r) = 0)
    (hsdi : r.val < 4 → sdiBad r s.dev.get = none) (hreg : s.dev.rasBadReg r s.dev.get = none) :
    Completes (.rasterVblank r) s (fun d => d.flag (F.RAS_STATUS_VBLANK r) = true ∧ (d.rs r).active = false ∧
      d.flag (F.RAS_COMMIT_GO r) = false ∧ d.flag (F.RAS_STATUS_PENDING r) = false ∧ ∀ a ∈ s.dev.rasRegs r, d.effWord a = s.dev.word a) := by
  have hr := r.isLt
  have hgroup' := (s.dev.rasBlanked_get r (f := F.RAS_CFG_GROUP r) (ras_ne_status r 0 (by decide))).trans hgroup
  obtain ⟨hvblank, hactive, hgo', hpending, hshadows⟩ := Dev.rasLatch_latched hr hgroup'
    (fun h => (Dev.rasBlanked_sdiBad hr).trans (hsdi h)) ((Dev.rasBlanked_badReg hr).trans hreg)
  refine ⟨_, execRasterVblank_latches hrun hgo, rfl, ?_⟩
  dsimp only
  generalize (s.dev.rasBlanked r).rasLatch r = d at *
  refine ⟨?_, ?_, hgo', hpending, fun a ha => ?_⟩
  · rw [hvblank, s.dev.rasBlanked_vblank]
  · rw [hactive, s.dev.rasBlanked_rs (hr.trans_eq hlen.symm)]
  · have hne : a ≠ R.RAS_STATUS r := fun h => RAS_STATUS_not_mem_rasRegs hr (h ▸ ha)
    rw [hshadows a (by rwa [s.dev.rasBlanked_rasRegs]), s.dev.rasBlanked_word r hne]

end

end Sys2Proof.Machine
end

section
/-!
The freeze detector and the readback of a panel link (R379, R380).
-/
namespace Sys2Proof.Machine

/-! ### Their registers -/

theorem RAS_SIG_not_reported {r : Nat} (hr : r < 6) : R.RAS_SIG r ∉ reportRegs :=
  ras_not_reported (by simp only [R.RAS_SIG]; omega) (by simp only [R.RAS_SIG]; omega)

theorem RAS_RB_CNT_not_reported {r : Nat} (hr : r < 6) : R.RAS_RB_CNT r ∉ reportRegs :=
  ras_not_reported (by simp only [R.RAS_RB_CNT]; omega) (by simp only [R.RAS_RB_CNT]; omega)

theorem RAS_SIG_ne_STATUS (r : Nat) : R.RAS_SIG r ≠ R.RAS_STATUS r := by
  simp only [R.RAS_SIG, R.RAS_STATUS]
  omega

/-! ### The freeze detector (R379) -/

/-- The run of equal signatures of a raster, this frame's included. -/
def Dev.rasSame (d : Dev) (r : Nat) : Nat := if d.rasSig r = (d.rs r).lastSig then min ((d.rs r).same + 1) 255 else 0

/-- The signature of a frame with source time `src` is shown and kept. -/
def Dev.rasSigned (d : Dev) (r src : Nat) : Dev :=
  (d.modRs r (fun x => { x with lastSig := d.rasSig r, lastSrc := src, same := d.rasSame r })).set (F.RAS_SIG_SIG r) (d.rasSig r)

/-- After `same` equal signatures the picture is frozen or moves again; `n` and `sig` are the frame and its signature. -/
def Dev.rasFreezeJudged (d : Dev) (r same n sig : Nat) : Dev :=
  if same = d.eget (F.RAS_FRZ_FRAMES r) ∧ d.flag (F.RAS_STATUS_FROZEN r) = false then
    (d.setFlag (F.RAS_STATUS_FROZEN r) true).eventAt 0x0E02 sevDegraded r [u32 n, u32 sig]
  else if same = 0 ∧ d.flag (F.RAS_STATUS_FROZEN r) = true then
    (d.setFlag (F.RAS_STATUS_FROZEN r) false).eventAt 0x0E03 sevInfo r [u32 n]
  else d

section
variable (d : Dev) (r : Nat)

theorem Dev.rasSigned_sig (src : Nat) : (d.rasSigned r src).get (F.RAS_SIG_SIG r) = d.rasSig r % 2 ^ 32 := by
  rw [Dev.rasSigned, Dev.get_set_same _ _ _ (Fld.ok_of_ble rfl)]
  rfl

theorem Dev.rasSigned_frozen (src : Nat) : (d.rasSigned r src).flag (F.RAS_STATUS_FROZEN r) = d.flag (F.RAS_STATUS_FROZEN r) := by
  rw [Dev.rasSigned, Dev.flag_set_apart _ _ _ _ (Fld.ok_of_ble rfl) (.inl (RAS_SIG_ne_STATUS r).symm), Dev.modRs_flag]

theorem Dev.rasSigned_rs {r : Nat} (h : r < d.ras.length) (src : Nat) :
    (d.rasSigned r src).rs r = { d.rs r with lastSig := d.rasSig r, lastSrc := src, same := d.rasSame r } := by
  rw [Dev.rasSigned, Dev.set_rs, Dev.rs_modRs _ _ h]

theorem Dev.rasSigned_eget (src : Nat) (f : Fld) : (d.rasSigned r src).eget f = d.eget f := by
  rw [Dev.rasSigned, Dev.eget_of_eff (Dev.set_eff _ _ _)]
  rfl

/-- A new source time on a raster: its signature is kept, and judged. -/
theorem Dev.rasFreeze_eq {src : Nat} (hsrc : d.rasSrc r = some src) (hnew : 0 < signed 64 (toBits 64 ((src : Int) - (d.rs r).lastSrc))) :
    d.rasFreeze r = (d.rasSigned r src).rasFreezeJudged r (d.rasSame r) (d.get (F.RAS_FRAME_COUNT r)) (d.rasSig r) := by
  rw [Dev.rasFreezeJudged, d.rasSigned_frozen]
  unfold Dev.rasFreeze
  rw [hsrc]
  exact if_neg (Int.not_le.mpr hnew)

variable (same n sig : Nat)

/-- The judgement is FROZEN, then at most one report. -/
theorem Dev.rasFreezeJudged_reports : ∃ e, d.Only e [F.RAS_STATUS_FROZEN r] ∧ e.Reports (d.rasFreezeJudged r same n sig) := by
  have hset : ∀ b, d.Only (d.setFlag (F.RAS_STATUS_FROZEN r) b) [F.RAS_STATUS_FROZEN r] :=
    fun b => (Dev.Only.refl d _).set _ List.mem_cons_self (Fld.ok_of_ble rfl)
  unfold Dev.rasFreezeJudged
  split
  · exact ⟨_, hset true, Dev.eventAt_reports _ _ _ _ _⟩
  · split
    · exact ⟨_, hset false, Dev.eventAt_reports _ _ _ _ _⟩
    · exact ⟨d, Dev.Only.refl d _, Dev.Touches.refl d _⟩

theorem Dev.rasFreezeJudged_ras : (d.rasFreezeJudged r same n sig).ras = d.ras := by
  obtain ⟨e, ⟨hsame, -, -⟩, hrep⟩ := d.rasFreezeJudged_reports r same n sig
  rw [hrep.ras, hsame]

theorem Dev.rasFreezeJudged_frozen {r : Nat} (hr : r < 6) : (d.rasFreezeJudged r same n sig).flag (F.RAS_STATUS_FROZEN r) =
    (if same = d.eget (F.RAS_FRZ_FRAMES r) ∧ d.flag (F.RAS_STATUS_FROZEN r) = false then true
      else if same = 0 then false else d.flag (F.RAS_STATUS_FROZEN r)) := by
  have hshown : ∀ b code sev items, ((d.setFlag (F.RAS_STATUS_FROZEN r) b).eventAt code sev r items).flag (F.RAS_STATUS_FROZEN r) = b :=
    fun b code sev items => by
      rw [(Dev.eventAt_reports _ _ _ _ _).flag _ (RAS_STATUS_not_reported hr), Dev.flag_setFlag_same _ _ _ (Fld.ok_of_ble rfl) rfl]
  unfold Dev.rasFreezeJudged
  split
  · exact hshown true _ _ _
  · by_cases hsame : same = 0
    · cases hfrozen : d.flag (F.RAS_STATUS_FROZEN r) with
      | true => rw [if_pos ⟨hsame, rfl⟩, if_pos hsame, hshown]
      | false => rw [if_neg (fun h => Bool.false_ne_true h.2), if_pos hsame, hfrozen]
    · rw [if_neg (fun h => hsame h.1), if_neg hsame]

/-- A field of another register that reports leave is as it was after the freeze procedure. -/
theorem Dev.rasFreezeJudged_flag {f : Fld} (hok : f.ok) (hstatus : f.addr ≠ R.RAS_STATUS r) (hrep : f.addr ∉ reportRegs) :
    (d.rasFreezeJudged r same n sig).flag f = d.flag f := by
  obtain ⟨e, honly, hreports⟩ := d.rasFreezeJudged_reports r same n sig
  rw [hreports.flag f hrep, honly.flag hok (fun g hg => .inl (List.mem_singleton.mp hg ▸ hstatus))]

end

/-- From `d` to `e` the freeze procedure has run on raster `r` with source time `src`. -/
structure Dev.Freezes (d : Dev) (r src : Nat) (e : Dev) : Prop where
  sig : e.get (F.RAS_SIG_SIG r) = d.rasSig r % 2 ^ 32
  state : e.rs r = { d.rs r with lastSig := d.rasSig r, lastSrc := src, same := d.rasSame r }
  frozen : e.flag (F.RAS_STATUS_FROZEN r) = (if d.rasSame r = d.eget (F.RAS_FRZ_FRAMES r) ∧ d.flag (F.RAS_STATUS_FROZEN r) = false then true
    else if d.rasSame r = 0 then false else d.flag (F.RAS_STATUS_FROZEN r))
  within : ({ d with ras := e.ras } : Dev).Within e [F.RAS_SIG_SIG r, F.RAS_STATUS_FROZEN r]

/-- A field is put after a change of the rasters' state alone. -/
theorem Dev.only_set_ras {d e : Dev} (he : e = { d with ras := e.ras }) {f : Fld} (v : Nat) (hok : f.ok) :
    ({ d with ras := (e.set f v).ras } : Dev).Only (e.set f v) [f] := by
  rw [Dev.set_ras, ← he]
  exact (Dev.Only.refl e _).set v List.mem_cons_self hok

theorem Dev.rasSigned_only (d : Dev) (r src : Nat) :
    ({ d with ras := (d.rasSigned r src).ras } : Dev).Only (d.rasSigned r src) [F.RAS_SIG_SIG r] := by
  rw [Dev.rasSigned]
  exact Dev.only_set_ras rfl _ (Fld.ok_of_ble rfl)

theorem Dev.rasFreeze_freezes {d : Dev} {r src : Nat} (hr : r < 6) (hlen : d.ras.length = 6) (hsrc : d.rasSrc r = some src)
    (hnew : 0 < signed 64 (toBits 64 ((src : Int) - (d.rs r).lastSrc))) : d.Freezes r src (d.rasFreeze r) := by
  rw [d.rasFreeze_eq r hsrc hnew]
  generalize d.get (F.RAS_FRAME_COUNT r) = n
  obtain ⟨m, honly, hreports⟩ := (d.rasSigned r src).rasFreezeJudged_reports r (d.rasSame r) n (d.rasSig r)
  constructor
  case sig =>
    obtain ⟨-, -, hfields⟩ := honly
    have hkept : m.get (F.RAS_SIG_SIG r) = (d.rasSigned r src).get (F.RAS_SIG_SIG r) :=
      hfields _ (Fld.ok_of_ble rfl) (fun f hf => .inl (List.mem_singleton.mp hf ▸ RAS_SIG_ne_STATUS r))
    rw [hreports.get _ (RAS_SIG_not_reported hr), hkept, d.rasSigned_sig]
  case state => rw [Dev.rs_congr (Dev.rasFreezeJudged_ras _ r _ n _), d.rasSigned_rs (by omega)]
  case frozen => rw [Dev.rasFreezeJudged_frozen _ _ _ _ hr, d.rasSigned_eget, d.rasSigned_frozen]
  case within =>
    rw [Dev.rasFreezeJudged_ras]
    exact ⟨m, ((d.rasSigned_only r src).mono (fun f hf => List.mem_cons.mpr (.inl (List.mem_singleton.mp hf)))).trans
      (honly.mono (fun f hf => List.mem_cons_of_mem _ hf)), hreports⟩

/-- The freeze procedure leaves whether readback runs. -/
theorem Dev.rasFreezeJudged_readback (d : Dev) {r : Nat} (hr : r < 6) (src same n sig : Nat) :
    ((d.rasSigned r src).rasFreezeJudged r same n sig).flag (F.RAS_RB_RB_EN r) = d.flag (F.RAS_RB_RB_EN r) := by
  have hstatus : R.RAS_RB r ≠ R.RAS_STATUS r := by
    simp only [R.RAS_RB, R.RAS_STATUS]
    omega
  have hsig : R.RAS_RB r ≠ R.RAS_SIG r := by
    simp only [R.RAS_RB, R.RAS_SIG]
    omega
  rw [Dev.rasFreezeJudged_flag _ r same n sig (Fld.ok_of_ble rfl) hstatus
      (ras_not_reported (by simp only [F.RAS_RB_RB_EN, R.RAS_RB]; omega) (by simp only [F.RAS_RB_RB_EN, R.RAS_RB]; omega)),
    Dev.rasSigned, Dev.flag_set_apart _ _ _ _ (Fld.ok_of_ble rfl) (.inl hsig), Dev.modRs_flag]

/-! ### RASTER_FRAME_END (R379, R380) -/

theorem execRasterFrameEnd_idle {s : State} {r : Fin 6} (h : (s.dev.rs r).active = false) (mism : Nat) :
    execRasterFrameEnd r mism s = .next s := by
  unfold execRasterFrameEnd
  rw [State.run_eq, if_pos (by simp [h])]

/-- Lines that failed readback are counted, and reported from the limit on. -/
def Dev.rasMismatched (d : Dev) (r mism : Nat) : Dev :=
  let d := d.add (F.RAS_RB_CNT_MISMATCH r) mism
  if d.get (F.RAS_RB_RB_LIMIT r) ≤ mism ∧ 0 < mism then
    d.eventAt 0x0E04 sevDegraded r [u32 (d.get (F.RAS_FRAME_COUNT r)), u16 mism]
  else d

theorem Dev.rasMismatched_reports (d : Dev) (r mism : Nat) : (d.add (F.RAS_RB_CNT_MISMATCH r) mism).Reports (d.rasMismatched r mism) := by
  unfold Dev.rasMismatched
  dsimp only
  split
  · exact Dev.eventAt_reports _ _ _ _ _
  · exact Dev.Touches.refl _ _

/-- The readback of a panel at the end of its frame. -/
def Dev.rasReadback (d : Dev) (r mism : Nat) : Dev :=
  if isPanel r && d.flag (F.RAS_RB_RB_EN r) then d.rasMismatched r mism else d

theorem Dev.rasReadback_off {d : Dev} {r : Nat} (h : r < 4 ∨ d.flag (F.RAS_RB_RB_EN r) = false) (mism : Nat) : d.rasReadback r mism = d := by
  refine if_neg ?_
  rcases h with h | h
  · rw [isPanel, decide_eq_false (Nat.not_le.mpr h)]
    exact Bool.false_ne_true
  · rw [h, Bool.and_false]
    exact Bool.false_ne_true

theorem Dev.rasReadback_on {d : Dev} {r : Nat} (hr : 4 ≤ r) (h : d.flag (F.RAS_RB_RB_EN r) = true) (mism : Nat) :
    d.rasReadback r mism = d.rasMismatched r mism := if_pos (by simp [isPanel, hr, h])

section
variable {s : State} {r : Fin 6} (hactive : (s.dev.rs r).active = true) (mism : Nat)
include hactive

theorem execRasterFrameEnd_unfrozen (hfrz : s.dev.eget (F.RAS_FRZ_EN r) = 0) :
    execRasterFrameEnd r mism s = .next { s with dev := s.dev.rasReadback r mism } := by
  have hoff : (decide (s.dev.eget (F.RAS_FRZ_EN r) = 1) && !(s.dev.rs r).under) = false := by simp [hfrz]
  unfold execRasterFrameEnd
  rw [State.run_eq, if_neg (by simp [hactive]), hoff]
  rfl

theorem execRasterFrameEnd_freezes (hfrz : s.dev.eget (F.RAS_FRZ_EN r) = 1) (hunder : (s.dev.rs r).under = false) :
    execRasterFrameEnd r mism s = .next { s with dev := (s.dev.rasFreeze r).rasReadback r mism } := by
  have hon : (decide (s.dev.eget (F.RAS_FRZ_EN r) = 1) && !(s.dev.rs r).under) = true := by simp [hfrz, hunder]
  unfold execRasterFrameEnd
  rw [State.run_eq, if_neg (by simp [hactive]), hon]
  rfl

theorem rasterFrameEnd_unchanged (hfrz : s.dev.eget (F.RAS_FRZ_EN r) = 0) (h : r.val < 4 ∨ s.dev.flag (F.RAS_RB_RB_EN r) = false) :
    Completes (.rasterFrameEnd r mism) s (fun d => d = s.dev) := by
  refine ⟨_, execRasterFrameEnd_unfrozen hactive mism hfrz, rfl, ?_⟩
  exact Dev.rasReadback_off h mism

theorem rasterFrameEnd_mismatches (hfrz : s.dev.eget (F.RAS_FRZ_EN r) = 0) (hr : 4 ≤ r.val) (hrb : s.dev.flag (F.RAS_RB_RB_EN r) = true) :
    Completes (.rasterFrameEnd r mism) s (fun d =>
      d.get (F.RAS_RB_CNT_MISMATCH r) = (s.dev.get (F.RAS_RB_CNT_MISMATCH r) + mism) % 65536 ∧
      s.dev.Within d [F.RAS_RB_CNT_MISMATCH r]) := by
  have hreports := s.dev.rasMismatched_reports r mism
  refine ⟨_, execRasterFrameEnd_unfrozen hactive mism hfrz, rfl, ?_⟩
  dsimp only
  rw [Dev.rasReadback_on hr hrb]
  refine ⟨?_, Dev.within_set_report (Fld.ok_of_ble rfl) hreports⟩
  rw [hreports.get _ (RAS_RB_CNT_not_reported r.isLt), Dev.add, Dev.get_set_same _ _ _ (Fld.ok_of_ble rfl)]
  rfl

theorem rasterFrameEnd_freezes {src : Nat} (hfrz : s.dev.eget (F.RAS_FRZ_EN r) = 1) (hunder : (s.dev.rs r).under = false)
    (hlen : s.dev.ras.length = 6) (hrb : r.val < 4 ∨ s.dev.flag (F.RAS_RB_RB_EN r) = false) (hsrc : s.dev.rasSrc r = some src)
    (hnew : 0 < signed 64 (toBits 64 ((src : Int) - (s.dev.rs r).lastSrc))) :
    Completes (.rasterFrameEnd r mism) s (fun d => d.get (F.RAS_SIG_SIG r) = s.dev.rasSig r % 2 ^ 32 ∧
      d.rs r = { s.dev.rs r with lastSig := s.dev.rasSig r, lastSrc := src, same := s.dev.rasSame r } ∧
      d.flag (F.RAS_STATUS_FROZEN r) = (if s.dev.rasSame r = s.dev.eget (F.RAS_FRZ_FRAMES r) ∧ s.dev.flag (F.RAS_STATUS_FROZEN r) = false
        then true else if s.dev.rasSame r = 0 then false else s.dev.flag (F.RAS_STATUS_FROZEN r)) ∧
      ({ s.dev with ras := d.ras } : Dev).Within d [F.RAS_SIG_SIG r, F.RAS_STATUS_FROZEN r]) := by
  have hr := r.isLt
  refine ⟨_, execRasterFrameEnd_freezes hactive mism hfrz hunder, rfl, ?_⟩
  obtain ⟨hsig, hstate, hfrozen, hwithin⟩ := Dev.rasFreeze_freezes r.isLt hlen hsrc hnew
  have hoff : r.val < 4 ∨ (s.dev.rasFreeze r).flag (F.RAS_RB_RB_EN r) = false := by
    rwa [s.dev.rasFreeze_eq r hsrc hnew, s.dev.rasFreezeJudged_readback r.isLt]
  dsimp only
  rw [Dev.rasReadback_off hoff]
  exact ⟨hsig, hstate, hfrozen, hwithin⟩

end

/-! ### RB_LOCK_TIMEOUT (R380) -/

section
variable {s : State} {r : Fin 6} (lanes : Fin 16)

theorem rbLockTimeout_loses (hr : 4 ≤ r.val) (hrun : (s.dev.rs r).run = true) (hrb : s.dev.flag (F.RAS_RB_RB_EN r) = true) :
    Completes (.rbLockTimeout r lanes) s (fun d =>
      d.get (F.RAS_RB_CNT_LOST r) = (s.dev.get (F.RAS_RB_CNT_LOST r) + 1) % 65536 ∧ s.dev.Within d [F.RAS_RB_CNT_LOST r]) := by
  have hexec : execRbLockTimeout r lanes s =
      .next { s with dev := (s.dev.bump (F.RAS_RB_CNT_LOST r)).eventAt 0x0E05 sevFault r [u8 lanes] } := by
    unfold execRbLockTimeout
    rw [State.run_eq, if_pos (by simp [isPanel, hr, hrun, hrb])]
  have hreports := (s.dev.bump (F.RAS_RB_CNT_LOST r)).eventAt_reports 0x0E05 sevFault r [u8 lanes]
  refine ⟨_, hexec, rfl, ?_, Dev.within_set_report (Fld.ok_of_ble rfl) hreports⟩
  dsimp only
  rw [hreports.get _ (RAS_RB_CNT_not_reported r.isLt), Dev.get_bump_same _ _ (Fld.ok_of_ble rfl)]
  rfl

theorem rbLockTimeout_idle (h : r.val < 4 ∨ (s.dev.rs r).run = false ∨ s.dev.flag (F.RAS_RB_RB_EN r) = false) :
    Completes (.rbLockTimeout r lanes) s (fun d => d = s.dev) := by
  have hexec : execRbLockTimeout r lanes s = .next s := by
    unfold execRbLockTimeout
    rw [State.run_eq, if_neg]
    rcases h with h | h | h <;> simp [isPanel, h]
  exact ⟨_, hexec, rfl, rfl⟩

end

end Sys2Proof.Machine
end

section
/-!
The rows of a Gecko path (R374, R375, R378).
-/
namespace Sys2Proof.Machine

/-! ### The rows that an output row needs -/

/-- The last window row that the next output row of path `p` depends on. -/
def Dev.gkLast (d : Dev) (p : Nat) : Nat := min (((d.gkp p).next + 1) * 2 ^ d.get (F.GK_CFG_BY p)) (d.get (F.GK_WIN_WH_H p) - 1)

/-- The window rows that the next output row of path `p` depends on. -/
def Dev.gkNeed (d : Dev) (p : Nat) : List Nat :=
  (List.range (d.gkLast p + 1)).filter (fun row => decide ((d.gkp p).next * 2 ^ d.get (F.GK_CFG_BY p) ≤ row + 1))

/-- The window row `row` that path `p` holds. -/
def Dev.gkFind (d : Dev) (p row : Nat) : Option GkRow := (d.gkp p).rows.find? (fun k => k.r == row)

/-- Those of the rows needed that path `p` holds. -/
def Dev.gkHeld (d : Dev) (p : Nat) : List GkRow := (d.gkNeed p).filterMap (d.gkFind p)

/-- Path `p` holds row `row` as `k`, whose last pixel came 32 ns before the release of the next output row. -/
def Dev.GkOnTime (d : Dev) (p fs row : Nat) (k : GkRow) : Prop :=
  d.gkFind p row = some k ∧ k.at_ + 32 ≤ d.gkRelease p (d.gkp p).next fs

/-- Whether a row needed is missing or came late. -/
def Dev.gkLate (d : Dev) (p fs : Nat) : Bool :=
  decide ((d.gkHeld p).length < (d.gkNeed p).length) ||
    (d.gkHeld p).any (fun k => decide (d.gkRelease p (d.gkp p).next fs < k.at_ + 32))

/-- Whether a row needed is damaged. -/
def Dev.gkDamaged (d : Dev) (p : Nat) : Bool := (d.gkHeld p).any (·.damaged)

section
variable {d : Dev} {p fs : Nat}

theorem Dev.mem_gkHeld {k : GkRow} : k ∈ d.gkHeld p ↔ ∃ row ∈ d.gkNeed p, d.gkFind p row = some k := List.mem_filterMap

theorem Dev.gkHeld_all : (d.gkHeld p).length < (d.gkNeed p).length ↔ ¬ ∀ row ∈ d.gkNeed p, (d.gkFind p row).isSome = true := by
  rw [← List.filterMap_length_eq_length]
  exact (List.length_filterMap_le _ _).lt_iff_ne

theorem Dev.gkLate_eq_false_iff : d.gkLate p fs = false ↔ ∀ row ∈ d.gkNeed p, ∃ k, d.GkOnTime p fs row k := by
  rw [Dev.gkLate, Bool.or_eq_false_iff, decide_eq_false_iff_not, Dev.gkHeld_all, not_not, List.any_eq_false]
  constructor
  · rintro ⟨hsome, htime⟩ row hrow
    obtain ⟨k, hk⟩ := Option.isSome_iff_exists.mp (hsome row hrow)
    have hnot := htime k (Dev.mem_gkHeld.mpr ⟨row, hrow, hk⟩)
    exact ⟨k, hk, Nat.not_lt.mp (fun hlt => hnot (decide_eq_true hlt))⟩
  · intro h
    refine ⟨fun row hrow => ?_, fun k hk => ?_⟩
    · obtain ⟨k, hk, -⟩ := h row hrow
      exact Option.isSome_iff_exists.mpr ⟨k, hk⟩
    · obtain ⟨row, hrow, hfind⟩ := Dev.mem_gkHeld.mp hk
      obtain ⟨k', hk', htime⟩ := h row hrow
      obtain rfl : k' = k := Option.some.inj (hk'.symm.trans hfind)
      exact fun hlt => Nat.not_lt.mpr htime (of_decide_eq_true hlt)

theorem Dev.gkLate_eq_true (h : ∃ row ∈ d.gkNeed p, ∀ k, ¬ d.GkOnTime p fs row k) : d.gkLate p fs = true := by
  rw [← Bool.not_eq_false, Dev.gkLate_eq_false_iff]
  intro hall
  obtain ⟨row, hrow, hnone⟩ := h
  obtain ⟨k, hk⟩ := hall row hrow
  exact hnone k hk

theorem Dev.gkDamaged_eq_true (h : ∃ row ∈ d.gkNeed p, ∃ k, d.GkOnTime p fs row k ∧ k.damaged = true) : d.gkDamaged p = true := by
  obtain ⟨row, hrow, k, ⟨hfind, -⟩, hdamaged⟩ := h
  exact List.any_eq_true.mpr ⟨k, Dev.mem_gkHeld.mpr ⟨row, hrow, hfind⟩, hdamaged⟩

theorem Dev.gkDamaged_eq_false (h : ∀ row ∈ d.gkNeed p, ∃ k, d.GkOnTime p fs row k ∧ k.damaged = false) : d.gkDamaged p = false := by
  refine List.any_eq_false.mpr (fun k hk => ?_)
  obtain ⟨row, hrow, hfind⟩ := Dev.mem_gkHeld.mp hk
  obtain ⟨k', ⟨hk', -⟩, hgood⟩ := h row hrow
  obtain rfl : k' = k := Option.some.inj (hk'.symm.trans hfind)
  rw [hgood]
  exact Bool.false_ne_true

end

/-! ### A late row (R378) -/

/-- A late row of path `p` is counted, and reported at most once a second. -/
def Dev.gkLateNoted (d : Dev) (p fseq : Nat) : Dev :=
  let e := d.bump (F.GK_CNT_LATE p)
  if !e.secOver (d.gkp p).lateSec then e
  else (e.eventAt 0x0E09 sevNotice p [u8 p, u32 fseq, u16 (d.gkLast p)]).modGk p (fun g => { g with lateSec := e.elapsed + 1 })

/-- The frame of path `p` ends at a late row. -/
def Dev.gkLateEnded (d : Dev) (p fseq : Nat) : Dev := (d.gkLateNoted p fseq).modGk p (fun g => { g with frame := none })

/-- A late row ends the path's frame and underruns its rasters. -/
def Dev.gkLateRow (d : Dev) (p fseq : Nat) : Dev :=
  (d.gkRasters p).foldl (fun d' r => d'.underrun r (d.gkp p).next 10)
    (d.gkLateEnded p fseq)

theorem GK_CNT_not_mem_underrunRegs {p : Nat} (hp : p < 8) : R.GK_CNT p ∉ underrunRegs := by
  rw [underrunRegs, List.mem_append, not_or]
  refine ⟨fun h => ?_, ras_not_reported (by simp only [R.GK_CNT]; omega) (by simp only [R.GK_CNT]; omega)⟩
  obtain ⟨r, hr, heq⟩ := List.mem_map.mp h
  have := List.mem_range.mp hr
  simp only [R.RAS_CNT, R.GK_CNT] at heq
  omega

theorem GK_CNT_not_reported {p : Nat} (hp : p < 8) : R.GK_CNT p ∉ reportRegs :=
  fun h => GK_CNT_not_mem_underrunRegs hp (List.mem_append_right _ h)

section
variable (d : Dev) {p : Nat} (fseq : Nat)

/-- Beside the state of the paths the end is the count and a report. -/
theorem Dev.gkLateEnded_reports (p : Nat) : ∃ e, (d.bump (F.GK_CNT_LATE p)).Reports e ∧
    d.gkLateEnded p fseq = { e with gk := (d.gkLateEnded p fseq).gk } := by
  unfold Dev.gkLateEnded Dev.gkLateNoted
  generalize d.bump (F.GK_CNT_LATE p) = b
  dsimp only
  split
  · exact ⟨b, Dev.Touches.refl b _, rfl⟩
  · exact ⟨_, b.eventAt_reports _ _ _ _, rfl⟩

theorem Dev.gkLateEnded_late (hp : p < 8) : (d.gkLateEnded p fseq).get (F.GK_CNT_LATE p) = (d.get (F.GK_CNT_LATE p) + 1) % 65536 := by
  obtain ⟨e, hreports, heq⟩ := d.gkLateEnded_reports fseq p
  have hget : (d.gkLateEnded p fseq).get (F.GK_CNT_LATE p) = e.get (F.GK_CNT_LATE p) := by rw [heq]; rfl
  rw [hget, hreports.get _ (GK_CNT_not_reported hp), Dev.get_bump_same _ _ (Fld.ok_of_ble rfl)]
  rfl

theorem Dev.gkLateNoted_length (p : Nat) : (d.gkLateNoted p fseq).gk.length = d.gk.length := by
  unfold Dev.gkLateNoted
  dsimp only
  split
  · rw [Dev.bump_gk]
  · rw [Dev.modGk_gk, Dev.eventAt_gk, Dev.bump_gk, modifyAt, List.length_modify]

theorem Dev.gkLateEnded_frame (hlt : p < d.gk.length) : ((d.gkLateEnded p fseq).gkp p).frame = none := by
  rw [Dev.gkLateEnded, Dev.gkp_modGk _ _ (by rwa [Dev.gkLateNoted_length])]

theorem Dev.gkLateEnded_within (p : Nat) :
    ({ d with gk := (d.gkLateEnded p fseq).gk } : Dev).Within (d.gkLateEnded p fseq) [F.GK_CNT_LATE p] := by
  obtain ⟨e, hreports, heq⟩ := d.gkLateEnded_reports fseq p
  refine Dev.within_set_report (v := d.get (F.GK_CNT_LATE p) + 1) (Fld.ok_of_ble rfl) ?_
  generalize d.gkLateEnded p fseq = x at heq
  rw [heq]
  exact Dev.Touches.withGk hreports x.gk

end

theorem Dev.mem_gkRasters_lt {d : Dev} {p r : Nat} (h : r ∈ d.gkRasters p) : r < 6 := by
  have hmem := (List.mem_filter.mp h).1
  simp only [List.mem_cons, List.not_mem_nil, or_false] at hmem
  omega

/-- After the path's frame has ended, its rasters underrun. -/
theorem Dev.gkLateRow_touches (d : Dev) (p fseq : Nat) : (d.gkLateEnded p fseq).RasTouches underrunRegs (d.gkLateRow p fseq) :=
  Dev.RasTouches.foldl (Dev.RasTouches.refl _ _) _ (fun e _ hr => e.underrun_touches (Dev.mem_gkRasters_lt hr) _ _)

theorem Dev.gkLateRow_alone {d : Dev} {p : Nat} (h : d.gkRasters p = []) (fseq : Nat) : d.gkLateRow p fseq = d.gkLateEnded p fseq := by
  rw [Dev.gkLateRow, h]
  rfl

/-! ### A row on time (R375) -/

/-- Path `p` has composed `row` as its output row `j`. -/
def Dev.gkComposed (d : Dev) (p j : Nat) (row : List (Int × Int × Int)) : Dev :=
  d.modGk p (fun g => { g with next := j + 1, comp := g.comp ++ [row] })

/-- Raster `r` sends output row `j` of its Gecko path; at row 0 its frame starts. -/
def Dev.gkSend (d : Dev) (j : Nat) (row : List (Int × Int × Int)) (r : Nat) : Dev :=
  let d := if j = 0 then
      ((d.bump (F.RAS_FRAME_COUNT r)).setFlag (F.RAS_STATUS_VBLANK r) false).modRs r (fun x =>
        { x with active := true, under := false, black := false })
    else d
  d.emit (.video 0 r (d.get (F.RAS_FRAME_COUNT r) :: j :: d.outputLine r row))

/-- The row before the next one of path `p`, black before the first. -/
def Dev.gkPrev (d : Dev) (p : Nat) : List (Int × Int × Int) :=
  if (d.gkp p).next = 0 then List.replicate (d.get (F.GK_WIN_WH_W p) / 2 ^ d.get (F.GK_CFG_BX p)) (0, 0, 0)
  else (d.gkp p).comp.getD ((d.gkp p).next - 1) []

/-- Path `p`, its frame being in `e`, has composed `row` as its next output row and sent it to its rasters. -/
def Dev.gkSent (d : Dev) (p : Nat) (row : List (Int × Int × Int)) (e : Dev) : Dev :=
  (d.gkRasters p).foldl (fun e r => e.gkSend (d.gkp p).next row r) (e.gkComposed p (d.gkp p).next row)

/-- The next output row of path `p` with the guides of raster `r`. -/
def Dev.gkGuided (d : Dev) (p r : Nat) : List (Int × Int × Int) :=
  (d.gkRow p (d.gkp p).next).zipIdx.map (fun q => d.composePixel r q.2 (d.gkp p).next true q.1)

/-- The next output row of path `p` is composed and sent; a damaged one is counted and repeats the row before. -/
def Dev.gkTimelyRow (d : Dev) (p : Nat) : Dev :=
  let e := if d.gkDamaged p then d.bump (F.GK_CNT_DAMAGED_ROWS p) else d
  let base := if d.gkDamaged p then d.gkPrev p else e.gkRow p (d.gkp p).next
  let row := match d.gkRasters p with
    | r :: _ => if d.gkDamaged p then base else base.zipIdx.map (fun q => e.composePixel r q.2 (d.gkp p).next true q.1)
    | [] => base
  d.gkSent p row e

section
variable {d : Dev} {p : Nat}

theorem Dev.gkTimelyRow_damaged (h : d.gkDamaged p = true) :
    d.gkTimelyRow p = d.gkSent p (d.gkPrev p) (d.bump (F.GK_CNT_DAMAGED_ROWS p)) := by
  unfold Dev.gkTimelyRow
  simp only [h, if_true]
  split
  · rfl
  · rfl

theorem Dev.gkTimelyRow_alone (h : d.gkDamaged p = false) (houts : d.gkRasters p = []) :
    d.gkTimelyRow p = d.gkSent p (d.gkRow p (d.gkp p).next) d := by
  unfold Dev.gkTimelyRow
  rw [h, houts]
  rfl

/-- A raster adds its guides to the row. -/
theorem Dev.gkTimelyRow_shown (h : d.gkDamaged p = false) {r : Nat} {rs : List Nat} (houts : d.gkRasters p = r :: rs) :
    d.gkTimelyRow p = d.gkSent p (d.gkGuided p r) d := by
  unfold Dev.gkTimelyRow
  rw [h, houts]
  rfl

theorem Dev.gkSent_alone (h : d.gkRasters p = []) (row : List (Int × Int × Int)) (e : Dev) :
    d.gkSent p row e = e.gkComposed p (d.gkp p).next row := by
  rw [Dev.gkSent, h]
  rfl

/-- Past the first row the frame has started. -/
theorem Dev.gkSent_one {r : Nat} (h : d.gkRasters p = [r]) (hnext : (d.gkp p).next ≠ 0) (row : List (Int × Int × Int)) (e : Dev) :
    d.gkSent p row e = (e.gkComposed p (d.gkp p).next row).emit
      (.video 0 r (e.get (F.RAS_FRAME_COUNT r) :: (d.gkp p).next :: e.outputLine r row)) := by
  rw [Dev.gkSent, h, List.foldl_cons, List.foldl_nil, Dev.gkSend, if_neg hnext]
  rfl

theorem Dev.bump_gkp (d : Dev) (f : Fld) (p : Nat) : (d.bump f).gkp p = d.gkp p := rfl

theorem Dev.modGk_get (d : Dev) (p : Nat) (f : GkSt → GkSt) (g : Fld) : (d.modGk p f).get g = d.get g := rfl

theorem Dev.modGk_bump (d : Dev) (p : Nat) (g : GkSt → GkSt) (f : Fld) : (d.bump f).modGk p g = (d.modGk p g).bump f := rfl

theorem Dev.gkComposed_bump_only (d : Dev) (p j : Nat) (row : List (Int × Int × Int)) :
    ({ d with gk := ((d.bump (F.GK_CNT_DAMAGED_ROWS p)).gkComposed p j row).gk } : Dev).Only
      ((d.bump (F.GK_CNT_DAMAGED_ROWS p)).gkComposed p j row) [F.GK_CNT_DAMAGED_ROWS p] := by
  rw [Dev.gkComposed, Dev.modGk_bump, Dev.bump_gk]
  exact (Dev.Only.refl (d.modGk p _) _).set _ List.mem_cons_self (Fld.ok_of_ble rfl)

theorem Dev.gkComposed_gkp {e : Dev} (hlt : p < e.gk.length) (j : Nat) (row : List (Int × Int × Int)) :
    (e.gkComposed p j row).gkp p = { e.gkp p with next := j + 1, comp := (e.gkp p).comp ++ [row] } := Dev.gkp_modGk _ _ hlt

end

/-! ### GECKO_ROW_RELEASE -/

theorem execGeckoRowRelease_idle {s : State} {p : Fin 8} (h : (s.dev.gkp p).frame = none) : execGeckoRowRelease p s = .next s := by
  unfold execGeckoRowRelease
  rw [State.run_eq]
  dsimp only
  rw [h]

section
variable {s : State} {p : Fin 8} {fs fseq st : Nat} (hframe : (s.dev.gkp p).frame = some (fs, fseq, st))
include hframe

theorem execGeckoRowRelease_done (h : s.dev.get (F.GK_WIN_WH_H p) / 2 ^ s.dev.get (F.GK_CFG_BY p) ≤ (s.dev.gkp p).next) :
    execGeckoRowRelease p s = .next s := by
  unfold execGeckoRowRelease
  rw [State.run_eq]
  dsimp only
  rw [hframe]
  dsimp only
  rw [if_pos h]

variable (hnext : (s.dev.gkp p).next < s.dev.get (F.GK_WIN_WH_H p) / 2 ^ s.dev.get (F.GK_CFG_BY p))
include hnext

theorem execGeckoRowRelease_releases : execGeckoRowRelease p s =
    .next { s with dev := if s.dev.gkLate p fs then s.dev.gkLateRow p fseq else s.dev.gkTimelyRow p } := by
  unfold execGeckoRowRelease
  rw [State.run_eq]
  dsimp only
  rw [hframe]
  dsimp only
  rw [if_neg (Nat.not_le.mpr hnext)]
  rfl

theorem geckoRowRelease_late (hlen : s.dev.gk.length = 8) (h : ∃ row ∈ s.dev.gkNeed p, ∀ k, ¬ s.dev.GkOnTime p fs row k) :
    Completes (.geckoRowRelease p) s (fun d => (d.gkp p).frame = none ∧
      d.get (F.GK_CNT_LATE p) = (s.dev.get (F.GK_CNT_LATE p) + 1) % 65536 ∧
      (s.dev.gkRasters p = [] → ({ s.dev with gk := d.gk } : Dev).Within d [F.GK_CNT_LATE p])) := by
  have htouches := s.dev.gkLateRow_touches p fseq
  have hgk : (s.dev.gkLateRow p fseq).gk = (s.dev.gkLateEnded p fseq).gk := htouches.gk
  refine ⟨_, execGeckoRowRelease_releases hframe hnext, rfl, ?_⟩
  dsimp only
  rw [if_pos (Dev.gkLate_eq_true h)]
  refine ⟨?_, ?_, fun houts => ?_⟩
  · rw [Dev.gkp_congr hgk, s.dev.gkLateEnded_frame fseq (p.isLt.trans_eq hlen.symm)]
  · have hcount : (s.dev.gkLateRow p fseq).get (F.GK_CNT_LATE p) = (s.dev.gkLateEnded p fseq).get (F.GK_CNT_LATE p) :=
      htouches.get _ (GK_CNT_not_mem_underrunRegs p.isLt)
    rw [hcount, s.dev.gkLateEnded_late fseq p.isLt]
  · rw [Dev.gkLateRow_alone houts]
    exact s.dev.gkLateEnded_within fseq p

variable (hlate : ∀ row ∈ s.dev.gkNeed p, ∃ k, s.dev.GkOnTime p fs row k)
include hlate

theorem execGeckoRowRelease_timely : execGeckoRowRelease p s = .next { s with dev := s.dev.gkTimelyRow p } := by
  rw [execGeckoRowRelease_releases hframe hnext, Dev.gkLate_eq_false_iff.mpr hlate]
  rfl

theorem geckoRowRelease_damaged (hlen : s.dev.gk.length = 8)
    (hdamaged : ∃ row ∈ s.dev.gkNeed p, ∃ k, s.dev.GkOnTime p fs row k ∧ k.damaged = true) (houts : s.dev.gkRasters p = []) :
    Completes (.geckoRowRelease p) s (fun d =>
      d.get (F.GK_CNT_DAMAGED_ROWS p) = (s.dev.get (F.GK_CNT_DAMAGED_ROWS p) + 1) % 65536 ∧
      d.gkp p = { s.dev.gkp p with next := (s.dev.gkp p).next + 1, comp := (s.dev.gkp p).comp ++ [s.dev.gkPrev p] } ∧
      ({ s.dev with gk := d.gk } : Dev).Only d [F.GK_CNT_DAMAGED_ROWS p]) := by
  refine ⟨_, execGeckoRowRelease_timely hframe hnext hlate, rfl, ?_⟩
  dsimp only
  rw [Dev.gkTimelyRow_damaged (Dev.gkDamaged_eq_true hdamaged), Dev.gkSent_alone houts]
  refine ⟨?_, ?_, Dev.gkComposed_bump_only _ _ _ _⟩
  · rw [Dev.gkComposed, Dev.modGk_get, Dev.get_bump_same _ _ (Fld.ok_of_ble rfl)]
    rfl
  · rw [Dev.gkComposed_gkp (by rw [Dev.bump_gk, hlen]; exact p.isLt), Dev.bump_gkp]

variable (hgood : ∀ row ∈ s.dev.gkNeed p, ∃ k, s.dev.GkOnTime p fs row k ∧ k.damaged = false) (hlen : s.dev.gk.length = 8)
include hgood hlen
omit hlate

theorem geckoRowRelease_composes (houts : s.dev.gkRasters p = []) : Completes (.geckoRowRelease p) s (fun d =>
    d.gkp p = { s.dev.gkp p with next := (s.dev.gkp p).next + 1, comp := (s.dev.gkp p).comp ++ [s.dev.gkRow p (s.dev.gkp p).next] } ∧
    d = { s.dev with gk := d.gk }) := by
  have htimely := execGeckoRowRelease_timely hframe hnext (fun row hrow => (hgood row hrow).imp (fun _ hk => hk.1))
  refine ⟨_, htimely, rfl, ?_⟩
  dsimp only
  rw [Dev.gkTimelyRow_alone (Dev.gkDamaged_eq_false hgood) houts, Dev.gkSent_alone houts]
  exact ⟨Dev.gkComposed_gkp (p.isLt.trans_eq hlen.symm) _ _, rfl⟩

theorem geckoRowRelease_sends {r : Nat} (houts : s.dev.gkRasters p = [r]) (hrow : (s.dev.gkp p).next ≠ 0) :
    Completes (.geckoRowRelease p) s (fun d =>
      d.gkp p = { s.dev.gkp p with next := (s.dev.gkp p).next + 1, comp := (s.dev.gkp p).comp ++ [s.dev.gkGuided p r] } ∧
      d = { s.dev with gk := d.gk, out := s.dev.out ++
        [.video 0 r (s.dev.get (F.RAS_FRAME_COUNT r) :: (s.dev.gkp p).next :: s.dev.outputLine r (s.dev.gkGuided p r))] }) := by
  have htimely := execGeckoRowRelease_timely hframe hnext (fun row hrow => (hgood row hrow).imp (fun _ hk => hk.1))
  refine ⟨_, htimely, rfl, ?_⟩
  dsimp only
  rw [Dev.gkTimelyRow_shown (Dev.gkDamaged_eq_false hgood) houts, Dev.gkSent_one houts hrow]
  exact ⟨Dev.gkComposed_gkp (p.isLt.trans_eq hlen.symm) _ _, rfl⟩

end

/-! ### GECKO_FS_MISSING -/

theorem Dev.foldl_emit (o : Nat → Output) (l : List Nat) (d : Dev) :
    l.foldl (fun d r => d.emit (o r)) d = { d with out := d.out ++ l.map o } := by
  induction l generalizing d with
  | nil => rw [List.map_nil, List.append_nil, List.foldl_nil]
  | cons r l ih => rw [List.foldl_cons, ih, Dev.emit, List.map_cons, List.append_assoc, List.singleton_append]

theorem geckoFsMissing_holds {s : State} {p : Fin 8} (h : s.dev.flag (F.GK_CFG_EN p) = true) : Completes (.geckoFsMissing p) s (fun d =>
    d = { s.dev with out := s.dev.out ++ (s.dev.gkRasters p).map (fun r => .video 6 r [0x12, 0, 0, 0, 0, 0]) }) := by
  have hexec : execGeckoFsMissing p s =
      .next { s with dev := (s.dev.gkRasters p).foldl (fun d r => d.emit (.video 6 r [0x12, 0, 0, 0, 0, 0])) s.dev } := by
    unfold execGeckoFsMissing
    rw [State.run_eq, if_pos h]
  exact ⟨_, hexec, rfl, Dev.foldl_emit _ _ _⟩

theorem geckoFsMissing_idle {s : State} {p : Fin 8} (h : s.dev.flag (F.GK_CFG_EN p) = false) :
    Completes (.geckoFsMissing p) s (fun d => d = s.dev) := by
  have hexec : execGeckoFsMissing p s = .next s := by
    unfold execGeckoFsMissing
    rw [State.run_eq, if_neg (by rw [h]; exact Bool.false_ne_true)]
  exact ⟨_, hexec, rfl, rfl⟩

end Sys2Proof.Machine
end

section
/-!
O57: rasters select, start, scan, latch and end frames, and Gecko rows are released.
-/
namespace Sys2Proof.Machine

/-- The state of the raster whose frame has started. -/
theorem Dev.FrameStarted.runs {d e : Dev} {r : Nat} {phase : Int} (h : d.FrameStarted r phase e) :
    (e.rs r).active = true ∧ (e.rs r).black = false ∧ (e.rs r).under = false ∧ (e.rs r).fetched = false ∧
    (e.rs r).k = (d.rs r).k + 1 ∧ (e.rs r).start = d.rasNext r ∧
    (e.rs r).off = (d.rs r).off - clampInt (d.rs r).off (-(d.rasSlew r)) (d.rasSlew r) := by
  obtain ⟨lockFrom, audBad, hstate⟩ := h.state
  rw [hstate]
  exact ⟨rfl, rfl, rfl, rfl, rfl, rfl, rfl⟩

theorem rasterFrameStart_starts {s : State} {r : Fin 6} (hrun : (s.dev.rs r).run = true) (hgk : s.dev.gkMode r = false)
    (hlen : s.dev.ras.length = 6) (hfetch : (s.dev.rs r).fetched = true ∨ (s.dev.rs r).blackFrames ≠ 0 ∨ s.dev.rasScans r = false)
    (phase : Int) : Completes (.rasterFrameStart r phase) s (fun d => s.dev.FrameStarted r phase d ∧
      (4 ≤ r.val → .video 2 r [r.val - 4, (s.dev.get (F.RAS_FRAME_COUNT r) + 1) % 2 ^ 32, (s.dev.rs r).shownTrig] ∈ d.out) ∧
      (r.val < 4 → ∃ rest, .video 3 r (s.dev.sdiPayload r ++ rest) ∈ d.out)) := by
  rcases Nat.lt_or_ge r.val 4 with hr | hr
  · obtain ⟨s', hexec, hpending, hstarted, hout⟩ := rasterFrameStart_sdi hrun hgk hlen hfetch phase hr
    exact ⟨s', hexec, hpending, hstarted, fun h => absurd hr (Nat.not_lt.mpr h), fun _ => hout⟩
  · obtain ⟨s', hexec, hpending, hstarted, hout⟩ := rasterFrameStart_panel hrun hgk hlen hfetch phase hr
    exact ⟨s', hexec, hpending, hstarted, fun _ => hout, fun h => absurd hr (Nat.not_le.mpr h)⟩

/-- Settles O57: each command's rule, by the lemmas above on what it does to its raster or Gecko path. -/
theorem rastersAndGecko : Obligations.RastersAndGecko := by
  unfold Obligations.RastersAndGecko
  refine ⟨fun s r => ⟨fun h => ⟨_, execRasterFetchStart_idle h, rfl, rfl⟩, ?fetchStart⟩,
    fun s r phase => ⟨fun h => ⟨_, execRasterFrameStart_idle h phase, rfl, rfl⟩, ?frameStart⟩,
    fun s r => ⟨rasLockAcquired_locks, rasLockAcquired_idle, rasCommit_requests⟩,
    fun s r y fifo => ⟨fun h => ⟨_, execRasterLineFetch_idle h fifo, rfl, rfl⟩, ?lineFetch⟩,
    fun s r => ⟨fun h => ⟨_, execRasterVblank_idle h, rfl, rfl⟩,
      fun hrun hlen => ⟨rasterVblank_ends hrun hlen, rasterVblank_latches hrun hlen⟩⟩,
    fun s r mism => ⟨fun h => ⟨_, execRasterFrameEnd_idle h mism, rfl, rfl⟩,
      fun hactive hfrz => ⟨rasterFrameEnd_unchanged hactive mism hfrz, rasterFrameEnd_mismatches hactive mism hfrz⟩,
      fun src hactive hfrz hunder hlen hrb hsrc hnew => rasterFrameEnd_freezes hactive mism hfrz hunder hlen hrb hsrc hnew⟩,
    fun s r lanes => ⟨rbLockTimeout_loses lanes, rbLockTimeout_idle lanes⟩,
    fun s p => ⟨fun h => ⟨_, execGeckoRowRelease_idle h, rfl, rfl⟩, fun fs fseq st hframe hlen =>
      ⟨fun h => ⟨_, execGeckoRowRelease_done hframe h, rfl, rfl⟩, fun hnext =>
        ⟨geckoRowRelease_late hframe hnext hlen,
          fun hgood => ⟨geckoRowRelease_composes hframe hnext hgood hlen, fun r => geckoRowRelease_sends hframe hnext hgood hlen⟩,
          fun hlate => geckoRowRelease_damaged hframe hnext hlate hlen⟩⟩⟩,
    fun s p => ⟨geckoFsMissing_holds, geckoFsMissing_idle⟩⟩
  case fetchStart =>
    intro hscans hgk hfetched hblack hlen hshown hmode hlayers hvideo hused
    have hlayer : s.dev.ShowsLayer0 r := ⟨r.isLt.trans_eq hlen.symm, hlayers, hvideo, hused, hmode⟩
    exact ⟨fun n => rasterFetchStart_takes hscans hgk hfetched hblack hlayer hshown,
      fun o => rasterFetchStart_repeats hscans hgk hfetched hblack hlayer⟩
  case frameStart =>
    intro hrun hgk hlen hfetch
    obtain ⟨s', hexec, hpending, hstarted, hpanel, hsdi⟩ := rasterFrameStart_starts hrun hgk hlen hfetch phase
    obtain ⟨hactive, hblack, hunder, hfetched, hk, hstart, hoff⟩ := hstarted.runs
    exact ⟨s', hexec, hpending, hstarted.count, hstarted.vblank, hstarted.phaseNs, hstarted.locked, hactive, hblack, hunder, hfetched, hk,
      hstart, hoff, hpanel, hsdi⟩
  case lineFetch =>
    intro hactive hgk hy
    refine ⟨fun h => ⟨_, execRasterLineFetch_black hactive hgk hy fifo h, rfl, rfl⟩, fun hblack hframes hscans => ⟨fun hcomplete hfifo => ?_,
      rasterLineFetch_underruns hactive hgk hy fifo hblack hframes hscans⟩⟩
    refine ⟨_, execRasterLineFetch_scans hactive hgk hy fifo hblack hframes hscans, rfl, ?_⟩
    rw [hfifo]
    exact Dev.rasFetchLine_complete hcomplete

end Sys2Proof.Machine
end
